-- ==== Sys2Proof/Word.lean ====
section
/-! DEFINITION. The word types of the block and their plainest arithmetic, and the type of a sparse table. -/

namespace Sys2Proof

/-- A byte of a line, a record or a message. -/
abbrev Byte := BitVec 8
/-- A 32-bit register word. -/
abbrev W32 := BitVec 32
/-- A 64-bit register, word of a line, or stamp (R49). -/
abbrev W64 := BitVec 64
/-- The 64 data bytes of one line (R100): byte `i` is bits `8i+7:8i`. -/
abbrev LineData := BitVec 512
/-- A 32-byte message header (R99): bit 255 is sent first. -/
abbrev Header := BitVec 256

/-- A sparse table: (key, value) pairs, keys strictly rising, no value equal to the table's default. -/
abbrev Tbl (α : Type) := List (Nat × α)

/-- Bits `hi:lo` of `w`, as a number. -/
def bitsOf {n : Nat} (w : BitVec n) (hi lo : Nat) : Nat := (w.toNat >>> lo) % 2 ^ (hi + 1 - lo)

/-- The smallest number of whole units of `d` that covers `n`. -/
def ceilDiv (n d : Nat) : Nat := (n + d - 1) / d

end Sys2Proof
end

