-- ==== Sys2Proof/Syntax.lean ====
section
/-! DEFINITION. The commands of the block: one constructor per row of spec/opcode_table.json. An operand is what
arrives from outside with the command (a message, a register value, a measurement, a fault the hardware shows), or
names the unit in which an event comes about. Indices are bounded by their type; list shapes are checked by WellFormed. -/

namespace Sys2Proof

abbrev Cluster := Fin 12
abbrev PcIx := Fin 64
abbrev PortIx := Fin 39
abbrev FnIx := Fin 128
abbrev CtxIx := Fin 8
abbrev ArrIx := Fin 52
abbrev RingIx := Fin 64
abbrev SessIx := Fin 64

/-- A fabric request as it reaches a doorkeeper: the 32 B header (R101), the beats, and the CONTRIB trailer (R100; 0
where there is none). -/
structure Msg where
  hdr : Header
  beats : List LineData
  trailer : BitVec 128
deriving DecidableEq, Repr

/-- The errors one read of a line meets on its way (R609, R610, R613): (symbol, difference) pairs; the lines of the PC that fail (0 to 31
the DQ, 32 to 35 the check-bit lines) with what each flips in the beats of burst 0 and of burst 1; and a parity error on the read data
path. -/
structure ReadErr where
  syms : List (Fin 72 × Byte)
  lines : List (Fin 36 × Byte × Byte)
  parity : Bool
deriving DecidableEq, Repr

/-- A read that meets no error. -/
def ReadErr.clean : ReadErr := ⟨[], [], false⟩

/-- What the IEEE 1500 wrapper and DEVICE_ID of a stack report (R77, R247, R254, R635). -/
structure StackId where
  gen : Fin 2            -- 0 HBM4, 1 HBM3E
  height : Fin 32
  sids : Fin 5
  pcUnits : Fin 128      -- capacity of one PC in 64 MiB units
  pprRows : Fin 16       -- PPR rows a bank has
  vendor : Byte
  part : BitVec 16
  serial : W64
deriving DecidableEq, Repr, Inhabited

/-- What the read and the write sweep of one byte lane find: for each of the 32 Vref codes, the taps that pass (R256). -/
structure LaneSweep where
  rd : List (BitVec 128)
  wr : List (BitVec 128)
deriving DecidableEq, Repr, Inhabited

/-- One sweep of a byte lane: what each of its bits shows (0 to 7 the DQ, 8 the check-bit line; R256, R258), a bit that is not listed
passing everywhere. The entries of one lane are its successive sweeps, each after one more round of lane repair; the last one stands for
every later sweep. -/
structure LaneTrain where
  lane : Fin 256
  bits : List LaneSweep
deriving DecidableEq, Repr, Inhabited

/-- What training meets at one site (R255 to R261, R271, R273, R277): the identity, if it answers; the sweeps of the listed byte lanes and
of every other one; the RCAL measurement in 10 mΩ, the impedance codes found with it, and the time taken; the hard lane repairs that the
stack has at a cold start, and the lane-repair states that its wrapper shows where they are not as in PHY_REPAIRp. -/
structure SiteEnv where
  id : Option StackId
  lanes : List LaneTrain
  other : LaneSweep
  rcal : BitVec 16
  zpu : Byte
  zpd : Byte
  timeUs : BitVec 16
  hard : List (PcIx × Fin 36)
  stackMap : List (PcIx × W32)
deriving DecidableEq, Repr, Inhabited

/-- The lanes at which VERIFY (R274) fails. -/
abbrev VerifyEnv := List (Fin 256)

/-- What a cold boot meets outside flash and State (R270, R555, R693, R700): the HUB_BOOT_HOST strap, the seed that the PUF array gives with the
helper data, the flash slots that fail their checks, and the difference of VREF_EXT from the bandgap in thousandths. -/
structure ColdEnv where
  bootHost : Bool
  puf : BitVec 256
  badSlots : List (Fin 2)
  vrefDiffMilli : Nat
deriving DecidableEq, Repr

/-- An access of a BAR: its length in bytes, and whether it writes. -/
structure BarAccess where
  len : Nat
  write : Bool
deriving DecidableEq, Repr

/-- What names a host-window read in its completion (R126, R533): the tag and its generation. -/
structure HostTag where
  tag : Nat
  gen : Fin 16
deriving DecidableEq, Repr

/-- What a site shows after a warm reset (R276, R277): the lanes at which VERIFY fails, and, with its stack's hard lane repairs and
lane-repair state, what a training meets. -/
structure WarmSite where
  k : Cluster
  fails : VerifyEnv
  train : SiteEnv
deriving DecidableEq, Repr

/-- What a warm boot meets (R276, R702): the cores whose resident image differs from its digest, and the sites that do not simply
match and verify. -/
structure WarmEnv where
  badImages : List (Fin 15)
  sites : List WarmSite
deriving DecidableEq, Repr

/-- What the checks of one chunk find beyond what its data show (R354, R653, R654): the first check that flags an arithmetic or
path error (check code of R441, 8 for parity or residue; element; array), and store errors. -/
structure ChunkFault where
  flag : Option (Fin 9 × Nat × ArrIx)
  storeCorr : Nat
  storeUncorr : Bool
deriving DecidableEq, Repr

/-- How a replay of a chunk compares (R656, R657): do its outputs equal those of the first run (in paired mode of the
lower-numbered array, and of the higher), and the first check that flags an error in it. -/
structure ReplayResult where
  same : Bool
  same2 : Bool
  flag : Option (Fin 9 × Nat)
deriving DecidableEq, Repr

/-- Who writes a register: a PCIe function, SEC, PMC, or core CCCk of a cluster. -/
inductive Agent where
  | fn (f : FnIx)
  | sec
  | pmc
  | sch
  | ccc (k : Cluster)
deriving DecidableEq, Repr

/-- The timing registers CCCk writes (R200, R239). -/
inductive TimReg where
  | tim0 | tim1 | tim2 | refTim
deriving DecidableEq, Repr

/-- An item of mirrored control state (R759), as a STATE message carries it. -/
inductive MirItem where
  | plot (index : Fin 4096) (entry : BitVec 256)
  | binding (target : Fin 256) (code : W32)
  | tenant (t : Byte) (digest : Option (BitVec 384))
  | repair (k : Cluster) (map : List W64)
  | auditHead (seq stamp : W64) (head : BitVec 384)
  | history (boots hours : W64) (units : List Nat)
  | windows (epoch : BitVec 16) (set : List (Nat × Nat × Nat × Nat))
  | key (slot : Fin 272) (owner : Byte) (state : Fin 5) (half0 half1 : Option (BitVec 576))
deriving DecidableEq, Repr

/-- The commands. Each constructor's docstring-free name is its row's mnemonic in lower camel case. -/
inductive Instr where
  -- resets, clocks and time (chapters 0, 1, 16)
  | coldReset (e : ColdEnv)
  | pllMainLock
  | schRelease
  | bootPhaseFail (phase : Fin 16) (err : Option (Fin 9))
  | warmResetRequest
  | warmReset (e : WarmEnv)
  | pllMainUnlock
  | phyPllUnlock (n : Cluster)
  | fclkStop
  | fclkReturn (mhz : BitVec 16)
  | tsReplicaCheck (skews : List W64)
  | tsCapture
  | tsCheckEnable
  | phyMultWrite (n : Cluster) (mult : Byte)
  | nmcDividerChange
  | reg64LowRead (f : FnIx) (off : Nat)
  | rcFieldRead (f : FnIx) (off : Nat)
  | registerWrite (a : Agent) (off : Nat) (wide : Bool) (v : W64)
  | undefinedOffsetAccess (f : FnIx) (off : Nat) (access : BarAccess)
  | freezeWrite (b : Bool)
  | pmuSelWrite (unit : Fin 28) (i : Fin 8) (v : W32)
  -- plots (chapter 2)
  | alloc (index : Fin 4096)
  | free (index : Fin 4096)
  | setrights (index : Fin 4096)
  | setmirror (index : Fin 4096)
  | plotCmdBadOp (op : Fin 16) (index : Fin 4096)
  | allocZeroingDone (index : Fin 4096)
  | plotQuarantineEnd (index : Fin 4096)
  -- the port protocol (chapter 3)
  | rd (k : Cluster) (p : Fin 25) (f : FnIx) (m : Msg)
  | wr (k : Cluster) (p : Fin 25) (f : FnIx) (m : Msg)
  | wrp (k : Cluster) (p : Fin 25) (f : FnIx) (m : Msg)
  | aadd (k : Cluster) (p : Fin 25) (f : FnIx) (m : Msg)
  | acas (k : Cluster) (p : Fin 25) (f : FnIx) (m : Msg)
  | contrib (k : Cluster) (p : Fin 25) (f : FnIx) (m : Msg)
  | lkacq (k : Cluster) (p : Fin 25) (f : FnIx) (m : Msg)
  | lkrel (k : Cluster) (p : Fin 25) (f : FnIx) (m : Msg)
  | stamp (k : Cluster) (p : Fin 25) (f : FnIx) (m : Msg)
  | unknownOpcodeRequest (k : Cluster) (p : Fin 25) (f : FnIx) (m : Msg)
  | ingressRelease (k : Cluster) (req : Fin 40) (cls : Fin 4)
  | requestTimeout (id : Nat)
  | portLinkDown (p : PortIx)
  | portLinkUp (p : PortIx) (desc : W64)
  | linkRetryReport (p : PortIx)
  | fabricResponseCredit (k : Cluster) (p : PortIx) (n : Nat)
  | lockLeaseExpiry (k : Cluster) (plotScope : Bool) (name : Nat)
  | lockBreak (k : Cluster) (plotScope : Bool) (name : Nat)
  -- the PC controller (chapter 4)
  | crossbarGrant (k : Cluster) (slice : Fin 66)
  | accessIssue (k : Cluster) (p : PcIx) (parity : List Nat)
  | readDataReturn (k : Cluster) (p : PcIx) (errs : List ReadErr)
  | replyHandover (id : Nat)
  | arbHoldSet (a : Agent) (h : Fin 8) (v : W32)
  | arbHoldRelease (a : Agent) (h : Fin 8)
  | arbHoldLeaseExpiry (h : Fin 8)
  | arbHoldBreak (h : Fin 8)
  | arbPrioWrite (r : Fin 40) (v : W32)
  | timingRegisterWrite (k : Cluster) (t : TimReg) (v : W32)
  -- refresh, row disturbance, self-refresh (chapter 5)
  | refreshDue (k : Cluster) (p : PcIx)
  | refabIssue (k : Cluster) (p : PcIx)
  | refreshStallEnd (k : Cluster) (p : PcIx)
  | refPeriodSwitch (k : Cluster)
  | refCtrlWrite (k : Cluster) (v : W32)
  | trackerWindowEnd
  | rfmIssue (k : Cluster) (p : PcIx) (sid : Fin 4) (bank : Fin 16)
  | rgCfgWrite (k : Cluster) (v : W32)
  | windowPublish (k : Cluster) (kind : Fin 3) (p : PcIx) (lenUs : Nat) (start : Nat)
  | windowStart (k : Cluster) (testFails : Bool) (uncorrectable : List Nat)
  | windowEnd (k : Cluster)
  | srAsk (k : Cluster) (p : PcIx)
  | srEntryBegin (k : Cluster) (p : PcIx)
  | srEntryComplete (k : Cluster) (p : PcIx)
  | srExitStart (k : Cluster) (p : PcIx)
  | srExitComplete (k : Cluster) (p : PcIx)
  | srCfgWrite (k : Cluster) (v : W32)
  -- stack interface and training (chapter 6)
  | trainingComplete (k : Cluster) (e : SiteEnv)
  | deviceIdTimeout (k : Cluster)
  | retrainTrigger (k : Cluster)
  | retrainApply (k : Cluster) (e : SiteEnv)
  | train (k : Cluster) (e : SiteEnv)
  | restore (k : Cluster) (e : SiteEnv) (v : VerifyEnv)
  | verify (k : Cluster) (v : VerifyEnv)
  | trnImageWrite (k : Cluster) (off : Fin 1024) (v : W32)
  | stackTempRead (k : Cluster) (temp : Byte) (valid : Bool)
  | stackTempTimeout (k : Cluster)
  -- traffic and gates (chapter 7)
  | bucketRefill
  | trfBucketWrite (off : Nat) (v : W32)
  | gateSlotBoundary
  | guardBandStart
  | gateCommit
  | gateCommitApply
  | gateEnable
  | gateStart
  | gateDisable
  | histSample
  | histClear
  -- the Lantern (chapter 8)
  | arrayOpDispatch (j : Cluster)
  | arrayOpEnd (j : Cluster) (a : ArrIx)
  | chunkVerdict (j : Cluster) (c : CtxIx) (f : ChunkFault)
  | replayDecide (j : Cluster) (c : CtxIx) (r : ReplayResult)
  | chunkCommit (j : Cluster) (c : CtxIx)
  | chunkWriteFail (j : Cluster) (c : CtxIx)
  | droppedResend (j : Cluster) (tag : Nat)
  | lanternReplyArrival (j : Cluster)
  | jobAbort (j : Cluster) (c : CtxIx)
  | contextDrainEnd (j : Cluster) (c : CtxIx)
  | contextClearDone (j : Cluster) (c : CtxIx)
  | pairedWrite (j : Cluster) (b : Bool)
  -- Amnubo (chapters 9 to 11): the context's next instruction word selects the row
  | instrReservedOpcode (j : Cluster) (c : CtxIx)
  | nop (j : Cluster) (c : CtxIx)
  | loop (j : Cluster) (c : CtxIx)
  | br (j : Cluster) (c : CtxIx)
  | call (j : Cluster) (c : CtxIx)
  | callLoadComplete (j : Cluster) (c : CtxIx)
  | ret (j : Cluster) (c : CtxIx)
  | wait (j : Cluster) (c : CtxIx)
  | waitPoll (j : Cluster) (c : CtxIx)
  | waitPollReply (j : Cluster) (c : CtxIx)
  | waitDeadline (j : Cluster) (c : CtxIx)
  | signal (j : Cluster) (c : CtxIx)
  | postedReply (j : Cluster) (c : CtxIx)
  | fence (j : Cluster) (c : CtxIx)
  | fenceComplete (j : Cluster) (c : CtxIx)
  | stampInstr (j : Cluster) (c : CtxIx)
  | jobEnd (j : Cluster) (c : CtxIx)
  | move (j : Cluster) (c : CtxIx)
  | fill (j : Cluster) (c : CtxIx)
  | gather (j : Cluster) (c : CtxIx)
  | scatter (j : Cluster) (c : CtxIx)
  | cast (j : Cluster) (c : CtxIx)
  | quant (j : Cluster) (c : CtxIx)
  | deq (j : Cluster) (c : CtxIx)
  | ew (j : Cluster) (c : CtxIx)
  | opt (j : Cluster) (c : CtxIx)
  | mma (j : Cluster) (c : CtxIx)
  | norm (j : Cluster) (c : CtxIx)
  | check (j : Cluster) (c : CtxIx)
  | digest (j : Cluster) (c : CtxIx)
  | test (j : Cluster) (c : CtxIx)
  | testSpareDeadline (j : Cluster) (a : ArrIx)
  | contribInstr (j : Cluster) (c : CtxIx)
  | contribResend (j : Cluster) (c : CtxIx) (tag : Nat)
  | collect (j : Cluster) (c : CtxIx)
  | collectWaitEnd (j : Cluster) (c : CtxIx)
  | posyTake (k : Cluster)
  | posyEvict (k : Cluster) (i : Fin 512)
  | posyPlotFree (k : Cluster) (index : Fin 4096)
  | posyCfgWrite (k : Cluster) (v : W32)
  -- rings and the host (chapter 12)
  | sqDoorbell (f : FnIx) (r : RingIx) (d : BitVec 16)
  | cqDoorbell (f : FnIx) (r : RingIx) (d : BitVec 16)
  | ringFetch
  | entryCheck (ring : Fin 8192)
  | jobDispatch (ring : Fin 8192)
  | recordWrite
  | msixSend
  | msixPendingClear (f : FnIx) (vec : RingIx)
  | hostMrd (f : FnIx) (addr : Nat) (len : Nat)
  | hostMwr (f : FnIx) (addr : Nat) (bytes : List Byte)
  | hostFetchadd (f : FnIx) (addr : Nat) (v : W64)
  | hostCas (f : FnIx) (addr : Nat) (cmp swap : W64)
  | hostAtomicUnsupported (f : FnIx)
  | hostReadCompletion (j : Cluster) (tag : HostTag) (result : Fin 4) (data : List Byte)
  | handshake (f : FnIx) (v : W32)
  | heartbeat (v : W32)
  | hostDriverLost
  | ringResume (f : FnIx) (r : RingIx)
  | ringReset (f : FnIx) (r : RingIx)
  | ringResetDone (ring : Fin 8192)
  | ringEnableWrite (f : FnIx) (r : RingIx) (en : Bool)
  | l1IdleExpiry
  | busMasterClear (f : FnIx)
  | vfFlr (f : FnIx)
  | pfFlr
  | vfEnableClear
  -- tenants, keys, audit (chapter 13)
  | spdmRequest (f : FnIx)
  | securedMessage (f : FnIx)
  | keyExchange (f : FnIx) (digest : BitVec 384) (ok : Bool)
  | endSession (s : SessIx)
  | sessionHeartbeatExpiry (s : SessIx)
  | tenantCreate (f : FnIx) (t : Byte) (digest : BitVec 384)
  | tenantDelete (f : FnIx) (t : Byte)
  | bindOffer (f : FnIx) (target : Fin 256) (t : Byte)
  | unbind (s : Option SessIx) (f : FnIx) (target : Fin 256)
  | bindAccept (s : SessIx) (target : Fin 256)
  | ringAreaZeroingDone (f : FnIx)
  | auditAck (f : FnIx) (seq : W64)
  | auditHead (f : FnIx)
  | ckptGet (f : FnIx) (slot : BitVec 16)
  | keyGenerate (s : SessIx)
  | keyUnwrap (s : SessIx) (wrapped : BitVec 576)
  | keyRotate (s : SessIx) (slot : Fin 512)
  | rotationChunkCommit (errs : List (Fin 1024 × ReadErr))
  | setAllocSlot (s : SessIx) (slot : Fin 512)
  | slotQuery (s : SessIx)
  | keyDestroy (s : SessIx) (slot : Fin 512)
  | slotDestroyDone (slot : Fin 272)
  | keyCopyRepair (slot : Fin 272) (half : Bool) (differs : Bool)
  | counters (s : SessIx) (set : Fin 16) (a b : Byte)
  | auditAppend
  | auditCheckpoint
  -- memory errors and sparing (chapter 14); the errors listed for one line are those of its read and of its retries, in order (R611)
  | caParityError (k : Cluster) (p : PcIx)
  | stateCheckFail (k : Cluster) (p : PcIx)
  | thaw (k : Cluster) (p : PcIx) (parityOk : Bool)
  | retireCopy (k : Cluster) (p : PcIx) (parityOk : Bool)
  | retireNow (k : Cluster) (p : PcIx)
  | freezeOpDone (k : Cluster) (verifyOk : Bool)
  | freezeAutoDecision (k : Cluster) (p : PcIx) (parityOk : Bool)
  | start (k : Cluster) (lpc : PcIx)
  | migChunkCommit (k : Cluster) (errs : List (Fin 1024 × ReadErr))
  | migEnd (k : Cluster) (errs : List (Fin 1024 × ReadErr))
  | historyCommit
  | patrolScrub (k : Cluster) (p : PcIx) (line : Nat) (errs : List ReadErr)
  | targetedScrub (k : Cluster) (p : PcIx) (row : Nat) (errs : List (Fin 16 × ReadErr))
  | historyRead (index : BitVec 20)
  -- silent errors (chapter 15)
  | mgStep
  | mgSweep (v : W32)
  | marigoldRoundEnd (j : Cluster) (a : ArrIx) (mismatch parity : Bool)
  | sweepEnd (digests : List W64)
  | fenceArray (k : Cluster) (a : ArrIx)
  | fenceLantern (k : Cluster)
  -- processors, boot, firmware (chapter 16)
  | watchdogExpiry (c : Fin 15)
  | coreTrap (c : Fin 15)
  | coreRestart (c : Fin 15) (imageOk : Bool)
  | coreRelease (c : Fin 15)
  | stageChunk (f : FnIx) (dest : Fin 4) (off : W32) (data : List Byte)
  | stageEnd (f : FnIx) (dest : Fin 4) (total : W32)
  | recWrite (f : FnIx) (kind : Byte) (body : List Byte)
  | trnSave (f : FnIx) (site : Cluster)
  -- power and heat (chapter 17)
  | hkSample (ch : Fin 64) (raw : BitVec 16)
  | railPoll (r : Fin 50) (answered : Bool) (status : BitVec 16) (vout iout : BitVec 16)
  | vsetWrite (r : Fin 50) (mv : BitVec 16)
  | pmcVoltageStep (marginLogic marginNmc : List Nat)
  | thresholdWrite (s : Fin 44) (v : W32)
  -- the mirror pair (chapter 18)
  | pairFormed (ok : Bool) (peerDigest : BitVec 384)
  | dataRequest (port : Fin 2) (authOk : Bool) (window : Fin 16) (ep : BitVec 16) (owner : Byte) (k : Cluster) (m : Msg)
  | dataReply (port : Fin 2) (authOk : Bool) (tag : Nat) (gen : Fin 16) (result : Fin 16)
  | hello (port : Fin 2) (proto : Byte) (width : Fin 8)
  | stateMessage (port : Fin 2) (seq stamp : W64) (item : MirItem)
  | epoch (port : Fin 2) (ep : BitVec 16) (set : List (Nat × Nat × Nat × Nat))
  | probe (port : Fin 2) (t1 : W64)
  | probeReply (port : Fin 2) (t1 t2 t3 : W64)
  | heart (port : Fin 2)
  | down (port : Fin 2) (cause : Fin 4)
  | syncPassDone (w : Fin 16)
  | mirrorPortSwitch (p : Fin 2)
  -- the rest of chapters 1 and 16 to 19
  | phyPllLock (n : Cluster)
  | activate
  | cancel
  | activationBegin
  | activationCoreRestart
  | activationStartFail
  | activationEnd
  | graceExpiry
  | shutdownNoticeEnd
  | pwroffRequest
  | pmAlert
  | pair
  | unpair
  | takeover
  | probeSend
  | heartSend
  | partnerLoss
  | pairKeyUpdate
  | mirWindowCommit
  | mirWindowApply
  | snap
  | snapshotTake
  | freezeApply
deriving DecidableEq, Repr

end Sys2Proof
end

