-- ==== Sys2Proof/Machine/Fp.lean ====
section
/-! DEFINITION. Number formats and rounding (chapter "The Lantern", R326, R330 to R338): exact values, their codes in every
format, and the arithmetic of the arrays. -/

namespace Sys2Proof.Machine

/-- An exact value: NaN, an infinity, or (-1)^n · m · 2^e (m = 0: a signed zero). -/
inductive Fv where
  | nan
  | inf (n : Bool)
  | fin (n : Bool) (m : Nat) (e : Int)
deriving DecidableEq, Repr

/-- Kinds of formats: floating point, two's complement, two's complement in units of 2^-6 (R330). -/
inductive FKind where
  | float | int | mxint
deriving DecidableEq, Repr

/-- A number format (R330): element bits, exponent bits, mantissa bits, bias, whether it has Inf and NaN, whether it is an MX
element, and its kind. -/
structure Fmt where
  bits : Nat
  eb : Nat
  mb : Nat
  bias : Nat
  hasInf : Bool
  hasNan : Bool
  mx : Bool
  kind : FKind
deriving DecidableEq, Repr

def fp32 : Fmt := ⟨32, 8, 23, 127, true, true, false, .float⟩
def fp64 : Fmt := ⟨64, 11, 52, 1023, true, true, false, .float⟩

/-- The formats by code; codes 0xD to 0xF are reserved (R330). -/
def fmtOf (c : Nat) : Fmt :=
  if c = 0x0 then fp32
  else if c = 0x1 then ⟨16, 8, 7, 127, true, true, false, .float⟩
  else if c = 0x2 then ⟨16, 5, 10, 15, true, true, false, .float⟩
  else if c = 0x3 then ⟨8, 4, 3, 7, false, true, false, .float⟩
  else if c = 0x4 then ⟨8, 5, 2, 15, true, true, false, .float⟩
  else if c = 0x5 then ⟨8, 4, 3, 7, false, true, true, .float⟩
  else if c = 0x6 then ⟨8, 5, 2, 15, true, true, true, .float⟩
  else if c = 0x7 then ⟨6, 3, 2, 3, false, false, true, .float⟩
  else if c = 0x8 then ⟨6, 2, 3, 1, false, false, true, .float⟩
  else if c = 0x9 then ⟨4, 2, 1, 1, false, false, true, .float⟩
  else if c = 0xA then ⟨8, 0, 0, 0, false, false, true, .mxint⟩
  else if c = 0xB then ⟨8, 0, 0, 0, false, false, false, .int⟩
  else ⟨32, 0, 0, 0, false, false, false, .int⟩

/-- emax of an MX element format (R333). -/
def emaxOf (c : Nat) : Int :=
  if c = 0x5 then 8 else if c = 0x6 then 15 else if c = 0x7 then 4 else if c = 0x8 ∨ c = 0x9 then 2 else 0

/-! ### Exact arithmetic (R324, R326) -/

def Fv.isNan : Fv → Bool
  | .nan => true | .inf _ => false | .fin _ _ _ => false
def Fv.isInf : Fv → Bool
  | .nan => false | .inf _ => true | .fin _ _ _ => false
def Fv.isZero : Fv → Bool
  | .nan => false | .inf _ => false | .fin _ m _ => m == 0
/-- The sign of a value that is not NaN. -/
def Fv.sign : Fv → Bool
  | .nan => false | .inf n => n | .fin n _ _ => n
/-- A value below 0: not NaN, not a zero, negative. -/
def Fv.neg? (v : Fv) : Bool := !v.isNan && v.sign && !v.isZero
def Fv.neg : Fv → Fv
  | .nan => .nan | .inf n => .inf !n | .fin n m e => .fin (!n) m e
def Fv.abs : Fv → Fv
  | .nan => .nan | .inf _ => .inf false | .fin _ m e => .fin false m e
def Fv.zero : Fv := .fin false 0 0
def Fv.one : Fv := .fin false 1 0

/-- The integer m·2^e in units of 2^u, where u ≤ e. -/
def scaleTo (m : Nat) (e u : Int) : Nat := m <<< (e - u).toNat

/-- The signed magnitude of a finite value in units of 2^u. -/
def intAt (n : Bool) (m : Nat) (e u : Int) : Int := if n then -(scaleTo m e u : Int) else scaleTo m e u

/-- The exact sum. -/
def Fv.add : Fv → Fv → Fv
  | .nan, _ => .nan
  | .inf _, .nan => .nan
  | .inf a, .inf b => if a = b then .inf a else .nan
  | .inf a, .fin _ _ _ => .inf a
  | .fin _ _ _, .nan => .nan
  | .fin _ _ _, .inf b => .inf b
  | .fin n m e, .fin n' m' e' =>
    let u := min e e'
    let i := intAt n m e u + intAt n' m' e' u
    if i = 0 then .fin (n && n') 0 0 else .fin (decide (i < 0)) i.natAbs u

/-- The exact product. -/
def Fv.mul : Fv → Fv → Fv
  | .nan, _ => .nan
  | .inf _, .nan => .nan
  | .inf a, .inf b => .inf (a != b)
  | .inf a, .fin n m _ => if m = 0 then .nan else .inf (a != n)
  | .fin _ _ _, .nan => .nan
  | .fin n m _, .inf b => if m = 0 then .nan else .inf (b != n)
  | .fin n m e, .fin n' m' e' => .fin (n != n') (m * m') (e + e')

/-- The value times 2^k. -/
def Fv.shift (v : Fv) (k : Int) : Fv :=
  match v with
  | .fin n m e => .fin n m (e + k)
  | .inf n => .inf n
  | .nan => .nan

/-- a < b for values that are not NaN. -/
def Fv.lt : Fv → Fv → Bool
  | .nan, _ => false
  | .inf _, .nan => false
  | .inf a, .inf b => a && !b
  | .inf a, .fin _ _ _ => a
  | .fin _ _ _, .nan => false
  | .fin _ _ _, .inf b => !b
  | .fin n m e, .fin n' m' e' => let u := min e e'; decide (intAt n m e u < intAt n' m' e' u)

/-- A quotient and whether it is exact, as a value that rounds like the true one to any precision below 128 bits. -/
def Fv.quot : Fv → Fv → Fv
  | .nan, _ => .nan
  | .inf _, .nan => .nan
  | .inf _, .inf _ => .nan
  | .inf a, .fin n _ _ => .inf (a != n)
  | .fin _ _ _, .nan => .nan
  | .fin n _ _, .inf b => .fin (n != b) 0 0
  | .fin n m e, .fin n' m' e' =>
    if m' = 0 then (if m = 0 then .nan else .inf (n != n'))
    else if m = 0 then .fin (n != n') 0 0
    else
      let k := 130 + m'.log2
      let q := (m <<< k) / m'
      .fin (n != n') (2 * q + (if (m <<< k) % m' = 0 then 0 else 1)) (e - e' - k - 1)

/-- The integer square root, bit by bit over `b` bits. -/
def isqrt (n b : Nat) : Nat :=
  (List.range b).foldl (fun r i => let r' := r + 2 ^ (b - 1 - i); if r' * r' ≤ n then r' else r) 0

/-- A square root, as a value that rounds like the true one. -/
def Fv.sqrt : Fv → Fv
  | .nan => .nan
  | .inf n => if n then .nan else .inf false
  | .fin n m e =>
    if m = 0 then .fin n 0 0
    else if n then .nan
    else
      let odd := e % 2 = 1
      let m1 := (if odd then 2 * m else m) <<< 260
      let e1 := if odd then e - 1 else e
      let s := isqrt m1 (m1.log2 / 2 + 1)
      .fin false (2 * s + (if s * s = m1 then 0 else 1)) (e1 / 2 - 130 - 1)

/-! ### Rounding (R334 to R337) -/

/-- How a conversion rounds: to nearest even, stochastically with a draw (R337), or upward in magnitude (R476 ASUM). -/
inductive Rm where
  | rne
  | sr (r : Nat)
  | up
deriving DecidableEq, Repr

/-- m·2^e in units of 2^q, rounded to an integer. -/
def roundAt (rm : Rm) (m : Nat) (e q : Int) : Nat :=
  if q ≤ e then scaleTo m e q
  else
    let d := (q - e).toNat
    let lo := m >>> d
    let rem := m % 2 ^ d
    if rem = 0 then lo
    else match rm with
      | .rne => if 2 ^ d < 2 * rem ∨ (2 * rem = 2 ^ d ∧ lo % 2 = 1) then lo + 1 else lo
      | .sr r => if 65536 ≤ 65536 * rem / 2 ^ d + r then lo + 1 else lo
      | .up => lo + 1

/-- The largest magnitude of a sign (R330, R334), in units of 2^q: (m, q). -/
def Fmt.lim (f : Fmt) (neg : Bool) : Nat × Int :=
  match f.kind with
  | .int => (2 ^ (f.bits - 1) - (if neg then 0 else 1), 0)
  | .mxint => (2 ^ (f.bits - 1) - (if neg then 0 else 1), -6)
  | .float =>
    if f.hasInf then (2 ^ (f.mb + 1) - 1, 2 ^ f.eb - 2 - f.bias - f.mb)
    else if f.hasNan then (2 ^ (f.mb + 1) - 2, 2 ^ f.eb - 1 - f.bias - f.mb)
    else (2 ^ (f.mb + 1) - 1, 2 ^ f.eb - 1 - f.bias - f.mb)

/-- The unit in the last place of a format at magnitude m·2^e (m > 0). -/
def Fmt.ulp (f : Fmt) (m : Nat) (e : Int) : Int :=
  match f.kind with
  | .int => 0
  | .mxint => -6
  | .float => max ((m.log2 : Int) + e) (1 - f.bias) - f.mb

/-- m·2^e exceeds m'·2^e'. -/
def magGt (m : Nat) (e : Int) (m' : Nat) (e' : Int) : Bool := let u := min e e'; decide (scaleTo m' e' u < scaleTo m e u)

/-- The code of a magnitude k·2^q on a format's grid with a sign (R330). -/
def Fmt.pack (f : Fmt) (neg : Bool) (k : Nat) (q : Int) : Nat :=
  match f.kind with
  | .int => if neg then (2 ^ f.bits - k) % 2 ^ f.bits else k
  | .mxint => if neg then (2 ^ f.bits - k) % 2 ^ f.bits else k
  | .float =>
    let s := neg.toNat <<< (f.eb + f.mb)
    if k = 0 then s
    else
      let (k, q) := if 2 ^ (f.mb + 1) ≤ k then (k / 2, q + 1) else (k, q)
      if k < 2 ^ f.mb then s + k
      else s + (q + f.mb + f.bias).toNat <<< f.mb + (k - 2 ^ f.mb)

/-- Infinity's code. -/
def Fmt.packInf (f : Fmt) (neg : Bool) : Nat := neg.toNat <<< (f.eb + f.mb) + (2 ^ f.eb - 1) <<< f.mb
/-- The canonical NaN (R495): the quiet NaN, or S.1111.111 with S = 0 for E4M3. -/
def Fmt.packNan (f : Fmt) : Nat :=
  (2 ^ f.eb - 1) <<< f.mb + (if f.hasInf then 2 ^ (f.mb - 1) else 2 ^ f.mb - 1)

/-- A conversion to a format (R334, R335): the code, FLAGS.INVALID and FLAGS.SATURATED. -/
def Fmt.conv (f : Fmt) (rm : Rm) (sat : Bool) : Fv → Nat × Bool × Bool
  | .nan => if f.hasNan then (f.packNan, false, false) else (0, !f.mx, false)
  | .inf n =>
    if f.hasInf && !sat then (f.packInf n, false, false)
    else let (m, q) := f.lim n; (f.pack n m q, false, true)
  | .fin n m e =>
    if m = 0 then (if f.kind = .float then f.pack n 0 0 else 0, false, false)
    else
      let (lm, lq) := f.lim n
      let q := f.ulp m e
      let k := roundAt rm m e q
      let beyond := (match rm with | .sr _ => magGt m e lm lq | .rne => false | .up => false) || magGt k q lm lq
      if beyond then
        (if f.hasInf && !sat then (f.packInf n, false, false) else (f.pack n lm lq, false, true))
      else if k = 0 ∧ f.kind ≠ .float then (0, false, false)
      else (f.pack n k q, false, false)

/-- The value of a code (R330); an MX element before its scale. -/
def Fmt.dec (f : Fmt) (raw : Nat) : Fv :=
  let raw := raw % 2 ^ f.bits
  match f.kind with
  | .int => if raw < 2 ^ (f.bits - 1) then .fin false raw 0 else .fin true (2 ^ f.bits - raw) 0
  | .mxint => if raw < 2 ^ (f.bits - 1) then .fin false raw (-6) else .fin true (2 ^ f.bits - raw) (-6)
  | .float =>
    let n := raw >>> (f.eb + f.mb) % 2 == 1
    let ex := raw >>> f.mb % 2 ^ f.eb
    let man := raw % 2 ^ f.mb
    if ex = 2 ^ f.eb - 1 ∧ f.hasInf then (if man = 0 then .inf n else .nan)
    else if ex = 2 ^ f.eb - 1 ∧ f.hasNan ∧ man = 2 ^ f.mb - 1 then .nan
    else if ex = 0 then .fin n man (1 - f.bias - f.mb)
    else .fin n (2 ^ f.mb + man) (ex - f.bias - f.mb)

/-- The saturation value of a sign (R334). -/
def Fmt.satVal (f : Fmt) (neg : Bool) : Fv := let (m, q) := f.lim neg; .fin neg m q

/-- Two values are the same number: not NaN, and of equal sign if not zero. -/
def Fv.same (x y : Fv) : Bool := (match x, y with
  | .fin _ _ _, .fin _ _ _ => (x.add y.neg).isZero
  | .inf a, .inf b => a == b
  | .inf _, .nan => false | .inf _, .fin _ _ _ => false
  | .fin _ _ _, .nan => false | .fin _ _ _, .inf _ => false
  | .nan, _ => false)

/-- The conversion check (R454): a value `x` converted to format `f` may be stored as `y`, under SAT and with FLAGS.INVALID or not. -/
def Fmt.convOk (f : Fmt) (sat invalid : Bool) (x y : Fv) : Bool := match x with
  | .nan => y.isNan || (y.isZero && invalid)
  | .inf n => y.same (.inf n) || y.same (f.satVal n)
  | .fin n m e =>
    let (lm, lq) := f.lim n
    if magGt m e lm lq then y.same (f.satVal n) || (f.hasInf && !sat && y.same (.inf n))
    else if m = 0 then y.isZero
    else
      -- the representable values on both sides of |x|
      let q := f.ulp m e
      let exact := decide (q ≤ e)
      let lo := if exact then scaleTo m e q else m >>> (q - e).toNat
      let hi := if exact || m % 2 ^ (q - e).toNat == 0 then lo else lo + 1
      y.same (.fin n lo q) || y.same (.fin n hi q)

/-! ### FP32 and FP64 (R327, R458, R466) -/

/-- r(): one rounding to FP32, nearest even. -/
def r32 (v : Fv) : Fv := fp32.dec (fp32.conv .rne false v).1
def r64 (v : Fv) : Fv := fp64.dec (fp64.conv .rne false v).1
/-- The FP32 value of a code word. -/
def of32 (raw : Nat) : Fv := fp32.dec raw
def of64 (w : W64) : Fv := fp64.dec w.toNat
def to64 (v : Fv) : W64 := BitVec.ofNat 64 (fp64.conv .rne false v).1
/-- f(a, b, c): a fused multiply-add in FP32. -/
def fma32 (a b c : Fv) : Fv := r32 ((a.mul b).add c)

/-- The shared-scale code of a block (R333). -/
def scaleCode (c : Nat) (xs : List Fv) : Nat :=
  if xs.any Fv.isNan then 0xFF
  else
    let top := xs.foldl (fun (a : Option Int) x => match x with
      | .fin _ m e => if m = 0 then a else
          let l := (m.log2 : Int) + e
          some (match a with | some b => max b l | none => l)
      | .inf _ => a
      | .nan => a) none
    match top with
    | none => 0
    | some l => (max (-127) (min 127 (l - emaxOf c)) + 127).toNat

/-- The mixer of R338 and R667 at position `i`. -/
def mix (seed : W64) (i : Nat) : W64 :=
  let z : W64 := seed + 0x9e3779b97f4a7c15 * BitVec.ofNat 64 i
  let z := (z ^^^ (z >>> 30)) * 0xbf58476d1ce4e5b9
  let z := (z ^^^ (z >>> 27)) * 0x94d049bb133111eb
  z ^^^ (z >>> 31)

/-- The draw of R338: instruction index, output stream number, element. -/
def srDraw (seed : W64) (n d e : Nat) : Nat := (mix seed (n * 2 ^ 40 + d * 2 ^ 36 + e + 1)).toNat >>> 48

end Sys2Proof.Machine
end

