-- ==== Sys2Proof/Config.lean ====
section
/-! DEFINITION. The free values: what the spec leaves open, as constants without a body. Nothing evaluates them, and a
statement about one holds whatever it is. The step reads the next one with the counter `State.free`. -/

namespace Sys2Proof

/-- A fresh value for each place at which the spec states none (notes/assumptions/6). -/
opaque Config.freeBits : Nat → BitVec 1024
/-- SEC's random source (R223, R575, R576; notes/assumptions/7). -/
opaque Config.random : Nat → BitVec 512
/-- The reply of an SPDM responder to a message, with the measurement blocks (index, bytes) that it may return in it (DSP0274; R560;
notes/assumptions/8). -/
opaque Config.spdmReply : Nat → List (BitVec 8) → List (Nat × List (BitVec 8)) → List (BitVec 8)
/-- The SPDM ERROR message with an error code that answers a message (DSP0274; notes/assumptions/8). -/
opaque Config.spdmError : Nat → List (BitVec 8) → Nat → List (BitVec 8)
/-- The natural logarithm of a ratio, in units of 2^-32 (R729, R730; notes/assumptions/9). -/
opaque Config.lnQ32 : Nat → Nat → Int
/-- The CRC-64 of the outputs of Marigold rounds (R472, R667, R669): seed, first round, number of rounds. R667 leaves operands
open (templates, boundary table; notes/assumptions/18). -/
opaque Config.marigold : BitVec 64 → Nat → Nat → BitVec 64
/-- The Sykuta root public key (R694). -/
opaque Config.rootKey : BitVec 776
/-- The nominal voltage in mV of a stack rail (R721): generation (0 HBM4, 1 HBM3E) and rail of the site (0 VDDC, 1 VDDQ, 2 VPP),
which JESD270-4 and JESD238A give. -/
opaque Config.stackNominal : Nat → Nat → Nat
/-- The export master secret of a pair session between two device keys (R753, R754; notes/assumptions/8). -/
opaque Config.pairSecret : Nat → BitVec 384
/-- The secret from which new traffic keys are derived after an SPDM KEY_UPDATE, from the last (R754; notes/assumptions/8). -/
opaque Config.keyUpdate : BitVec 384 → Nat → BitVec 384
/-- BLEN of a control message's frame, whose body's layout the spec does not give (R756, R758; notes/assumptions/25). -/
opaque Config.controlLen : Nat → BitVec 12
/-- What a training, or a VERIFY, that a register write starts meets at its site (R255, R274; notes/assumptions/33). -/
opaque Config.siteEnv : Nat → SiteEnv
opaque Config.verifyEnv : Nat → VerifyEnv

end Sys2Proof
end

