-- ==== Sys2Proof/Machine/Crypto.lean ====
section
/-! DEFINITION. The cryptographic functions the spec names, written out as their standards define them: AES-256 and
XTS (FIPS 197, SP 800-38E; R189), key wrap (SP 800-38F; R576), SHA-384 (R580, R593), HMAC and the counter-mode KDF
(R557), CRC-32C (R101) and CRC-64 (R102), and the outer Reed-Solomon code (R609). -/

namespace Sys2Proof.Machine

/-- Byte `i` of a bit vector stored little-endian. -/
def byteAt {n : Nat} (w : BitVec n) (i : Nat) : Byte := w.extractLsb' (8 * i) 8

/-- The first `m` bytes of a bit vector, little-endian. -/
def leBytes {n : Nat} (w : BitVec n) (m : Nat) : List Byte := (List.range m).map (byteAt w)

/-- The number a list of bytes spells, little-endian. -/
def leNat (l : List Byte) : Nat := l.foldr (fun b a => b.toNat + 256 * a) 0

/-- The number a list of bytes spells, big-endian. -/
def beNat (l : List Byte) : Nat := l.foldl (fun a b => 256 * a + b.toNat) 0

/-- The `m` bytes of a number, big-endian. -/
def beBytes (v m : Nat) : List Byte := (List.range m).map fun i => BitVec.ofNat 8 (v >>> (8 * (m - 1 - i)))

/-- The bytes of an ASCII string. -/
def ascii (s : String) : List Byte := s.toList.map fun c => BitVec.ofNat 8 c.toNat

/-! ### Arithmetic in GF(2^8) -/

/-- Multiplication by x modulo x^8 + `red`. -/
def gfX (red : Byte) (a : Byte) : Byte := (a <<< 1) ^^^ (if a.msb then red else 0)

/-- Multiplication in GF(2^8) with reduction byte `red`. -/
def gfMul (red a b : Byte) : Byte :=
  ((List.range 8).foldl (fun (p : Byte × Byte) i => ((if b.getLsbD i then p.1 ^^^ p.2 else p.1), gfX red p.2)) (0, a)).1

/-- The power of an element. -/
def gfPow (red a : Byte) : Nat → Byte
  | 0 => 1
  | n + 1 => gfMul red a (gfPow red a n)

/-! ### AES-256 (FIPS 197) -/

def aesInv (a : Byte) : Byte :=
  let m := gfMul 0x1B
  let a2 := m a a; let a3 := m a2 a; let a6 := m a3 a3; let a12 := m a6 a6; let a15 := m a12 a3
  let a30 := m a15 a15; let a60 := m a30 a30; let a120 := m a60 a60; let a126 := m a120 a6; let a127 := m a126 a
  m a127 a127

def sbox (a : Byte) : Byte :=
  let b := aesInv a
  b ^^^ b.rotateLeft 1 ^^^ b.rotateLeft 2 ^^^ b.rotateLeft 3 ^^^ b.rotateLeft 4 ^^^ 0x63

def invSbox (a : Byte) : Byte :=
  aesInv (a.rotateLeft 1 ^^^ a.rotateLeft 3 ^^^ a.rotateLeft 6 ^^^ 0x05)

def xorBytes (a b : List Byte) : List Byte := List.zipWith (· ^^^ ·) a b

/-- One more word of the key schedule; `ws` holds the words so far, last first. -/
def keyWord (ws : List (List Byte)) (i : Nat) : List Byte :=
  let prev := ws.headD []
  let t := if i % 8 = 0 then
      xorBytes ((prev.rotateLeft 1).map sbox) [gfPow 0x1B 2 (i / 8 - 1), 0, 0, 0]
    else if i % 8 = 4 then prev.map sbox else prev
  xorBytes (ws.getD 7 []) t

/-- The 15 round keys of a 32-byte key. -/
def roundKeys (key : List Byte) : List (List Byte) :=
  let w0 := (List.range 8).map fun i => (key.drop (4 * i)).take 4
  let ws := (List.range 52).foldl (fun ws n => keyWord ws (n + 8) :: ws) w0.reverse
  (List.range 15).map fun r => ((ws.reverse.drop (4 * r)).take 4).flatten

def shiftRows (s : List Byte) : List Byte :=
  (List.range 16).map fun i => s.getD ((i + 4 * (i % 4)) % 16) 0

def invShiftRows (s : List Byte) : List Byte :=
  (List.range 16).map fun i => s.getD ((i + 16 - 4 * (i % 4)) % 16) 0

/-- The column mix with the first row `m` of its circulant matrix. -/
def mixCols (m : List Byte) (s : List Byte) : List Byte :=
  (List.range 16).map fun i =>
    let c := i / 4; let r := i % 4
    (List.range 4).foldl (fun a j => a ^^^ gfMul 0x1B (m.getD ((j + 4 - r) % 4) 0) (s.getD (4 * c + j) 0)) 0

def aesEnc (key block : List Byte) : List Byte :=
  let rk := roundKeys key
  let s := (List.range 13).foldl (fun s r =>
    xorBytes (mixCols [2, 3, 1, 1] (shiftRows (s.map sbox))) (rk.getD (r + 1) [])) (xorBytes block (rk.getD 0 []))
  xorBytes (shiftRows (s.map sbox)) (rk.getD 14 [])

def aesDec (key block : List Byte) : List Byte :=
  let rk := roundKeys key
  let s := (List.range 13).foldl (fun s r =>
    mixCols [14, 11, 13, 9] (xorBytes ((invShiftRows s).map invSbox) (rk.getD (13 - r) [])))
    (xorBytes block (rk.getD 14 []))
  xorBytes ((invShiftRows s).map invSbox) (rk.getD 0 [])

/-- The tweak of the next block: multiplication by x in GF(2^128). -/
def xtsNext (t : BitVec 128) : BitVec 128 := (t <<< 1) ^^^ (if t.msb then 0x87 else 0)

/-- The four block tweaks of a line whose address is `pa` (R189), under the tweak key. -/
def xtsTweaks (k2 : List Byte) (pa : Nat) : List (BitVec 128) :=
  let t := BitVec.ofNat 128 (leNat (aesEnc k2 (leBytes (BitVec.ofNat 128 pa) 16)))
  [t, xtsNext t, xtsNext (xtsNext t), xtsNext (xtsNext (xtsNext t))]

/-- One line through XTS with the block function `f`; the key pair holds K1 low, K2 high (R576). -/
def xts (f : List Byte → List Byte → List Byte) (key : BitVec 512) (pa : Nat) (d : LineData) : LineData :=
  let k1 := leBytes key 32
  let k2 := (leBytes key 64).drop 32
  let ts := xtsTweaks k2 (pa % 2 ^ 43)
  BitVec.ofNat 512 (leNat ((List.range 4).flatMap fun i =>
    let t := leBytes (ts.getD i 0) 16
    xorBytes (f k1 (xorBytes ((leBytes d 64).drop (16 * i) |>.take 16) t)) t))

def xtsEnc : BitVec 512 → Nat → LineData → LineData := xts aesEnc
def xtsDec : BitVec 512 → Nat → LineData → LineData := xts aesDec

/-- Key unwrap (SP 800-38F KW): the plaintext semiblocks, or none when the integrity check fails. -/
def kwUnwrap (key : List Byte) (c : List Byte) : Option (List Byte) :=
  let n := c.length / 8 - 1
  let a0 := c.take 8
  let r0 := (List.range n).map fun i => (c.drop (8 * (i + 1))).take 8
  let (a, r) := (List.range (6 * n)).foldl (fun (p : List Byte × List (List Byte)) m =>
    let t := 6 * n - m
    let i := (t - 1) % n
    let b := aesDec key (xorBytes p.1 (beBytes t 8) ++ p.2.getD i [])
    (b.take 8, p.2.set i (b.drop 8))) (a0, r0)
  if a = List.replicate 8 0xA6 then some r.flatten else none

/-- Key wrap (SP 800-38F KW) of whole semiblocks. -/
def kwWrap (key : List Byte) (p : List Byte) : List Byte :=
  let n := p.length / 8
  let r0 := (List.range n).map fun i => (p.drop (8 * i)).take 8
  let (a, r) := (List.range (6 * n)).foldl (fun (q : List Byte × List (List Byte)) m =>
    let i := m % n
    let b := aesEnc key (q.1 ++ q.2.getD i [])
    (xorBytes (b.take 8) (beBytes (m + 1) 8), q.2.set i (b.drop 8))) (List.replicate 8 0xA6, r0)
  a ++ r.flatten

/-! ### SHA-384 (FIPS 180-4) -/

/-- The first 80 primes. -/
def primes80 : List Nat :=
  (List.range 410).filter fun n => decide (2 ≤ n) && (List.range 21).all fun d => decide (d < 2 ∨ n ≤ d) || n % d != 0

/-- The largest number below 2^70 whose `k`th power is at most `n`. -/
def intRoot (k n : Nat) : Nat := (List.range 70).foldl (fun r i => if (r + 2 ^ (69 - i)) ^ k ≤ n then r + 2 ^ (69 - i) else r) 0

/-- The first 64 bits of the fractional part of the `k`th root of a prime, from which the standard takes its constants. -/
def fracRoot (k p : Nat) : W64 := BitVec.ofNat 64 (intRoot k (p * 2 ^ (64 * k)))

/-- The round constants: cube roots of the first 80 primes. -/
def shaK : List W64 := primes80.map (fracRoot 3)

/-- The initial value: square roots of the ninth to the sixteenth prime. -/
def shaInit : List W64 := ((primes80.drop 8).take 8).map (fracRoot 2)

/-- The message schedule, last word first. -/
def shaSchedule (m : List W64) : List W64 :=
  ((List.range 64).foldl (fun ws _ =>
    let g (i : Nat) : W64 := ws.getD i 0
    let w15 := g 14; let w2 := g 1
    (((w2.rotateRight 19) ^^^ (w2.rotateRight 61) ^^^ (w2 >>> 6)) + g 6 +
      ((w15.rotateRight 1) ^^^ (w15.rotateRight 8) ^^^ (w15 >>> 7)) + g 15) :: ws) m.reverse).reverse

def shaRound (s : List W64) (kw : W64 × W64) : List W64 :=
  match s with
  | [a, b, c, d, e, f, g, h] =>
    let t1 := h + ((e.rotateRight 14) ^^^ (e.rotateRight 18) ^^^ (e.rotateRight 41)) + ((e &&& f) ^^^ (~~~e &&& g)) +
      kw.1 + kw.2
    let t2 := ((a.rotateRight 28) ^^^ (a.rotateRight 34) ^^^ (a.rotateRight 39)) +
      ((a &&& b) ^^^ (a &&& c) ^^^ (b &&& c))
    [t1 + t2, a, b, c, d + t1, e, f, g]
  | _ => s

def shaBlock (h : List W64) (m : List Byte) : List W64 :=
  let ws := (List.range 16).map fun i => BitVec.ofNat 64 (beNat ((m.drop (8 * i)).take 8))
  List.zipWith (· + ·) h ((List.zip shaK (shaSchedule ws)).foldl shaRound h)

/-- SHA-384 of a list of bytes: the 48 digest bytes. -/
def sha384 (m : List Byte) : List Byte :=
  let z := (239 - m.length % 128) % 128
  let p := m ++ [0x80] ++ List.replicate z 0 ++ beBytes (8 * m.length) 16
  let h := (List.range (p.length / 128)).foldl (fun h i => shaBlock h ((p.drop (128 * i)).take 128)) shaInit
  (h.take 6).flatMap fun w => beBytes w.toNat 8

/-- A digest as a bit vector, byte 0 lowest. -/
def digestOf (m : List Byte) : BitVec 384 := BitVec.ofNat 384 (leNat (sha384 m))

/-- HMAC-SHA-384. -/
def hmac (key m : List Byte) : List Byte :=
  let k := (if 128 < key.length then sha384 key else key)
  let k := k ++ List.replicate (128 - k.length) 0
  sha384 (k.map (· ^^^ 0x5C) ++ sha384 (k.map (· ^^^ 0x36) ++ m))

/-- The SP 800-108 counter-mode KDF with HMAC-SHA-384: one 48-byte block under a label (R557). -/
def kdf (key label : List Byte) (bits : Nat) : List Byte :=
  (hmac key (beBytes 1 4 ++ label ++ [0] ++ beBytes bits 4)).take (bits / 8)

/-! ### ECDSA over P-384 (FIPS 186-5; the curve is that of SP 800-186) -/

def p384 : Nat := 2 ^ 384 - 2 ^ 128 - 2 ^ 96 + 2 ^ 32 - 1
/-- The order of the group. -/
def p384n : Nat :=
  0xFFFFFFFFFFFFFFFFFFFFFFFFFFFFFFFFFFFFFFFFFFFFFFFFC7634D81F4372DDF581A0DB248B0A77AECEC196ACCC52973
def p384b : Nat :=
  0xB3312FA7E23EE7E4988E056BE3F82D19181D9C6EFE8141120314088F5013875AC656398D8A2ED19D2A85C8EDD3EC2AEF

/-- A point of the curve in affine coordinates; none is the point at infinity. -/
abbrev EcPoint := Option (Nat × Nat)

/-- The base point. -/
def p384g : EcPoint := some
  (0xAA87CA22BE8B05378EB1C71EF320AD746E1D3B628BA79B9859F741E082542A385502F25DBF55296C3A545E3872760AB7,
   0x3617DE4A96262C6F5D9E98BF9292DC29F8F41DBD289A147CE9DA3113B5F0B8C00A60B1CE1D7E819D7A431D7C90EA0E5F)

/-- b^e modulo m, for exponents below 2^384. -/
def powMod (b e m : Nat) : Nat :=
  ((List.range 384).foldl (fun (a : Nat × Nat) i => (if e.testBit i then a.1 * a.2 % m else a.1, a.2 * a.2 % m)) (1, b % m)).1

/-- The inverse modulo a prime. -/
def invMod (a m : Nat) : Nat := powMod a (m - 2) m

/-- The sum of two points. -/
def ecAdd : EcPoint → EcPoint → EcPoint
  | none, q => q
  | some p, none => some p
  | some (x, y), some (x', y') =>
    if x = x' ∧ (y + y') % p384 = 0 then none
    else
      let l := (if x = x' then (3 * x * x + p384 - 3) * invMod (2 * y) p384 else (y' + p384 - y) * invMod (x' + p384 - x) p384) % p384
      let z := (l * l + 2 * p384 - x - x') % p384
      some (z, (l * (x + p384 - z) + p384 - y) % p384)

/-- A multiple of a point. -/
def ecMul (k : Nat) (p : EcPoint) : EcPoint :=
  ((List.range 384).foldl (fun (a : EcPoint × EcPoint) i => (if k.testBit i then ecAdd a.1 a.2 else a.1, ecAdd a.2 a.2)) (none, p)).1

/-- A point on the curve. -/
def onCurve (x y : Nat) : Bool := decide (x < p384 ∧ y < p384) && (y * y) % p384 == (x * x * x + (p384 - 3) * x + p384b) % p384

/-- A private key under FIPS 186-5, A.2.1, from 448 bits of the counter-mode KDF (R557). -/
def privateKey (seed : BitVec 256) (label : List Byte) : BitVec 384 :=
  let block (i : Nat) := hmac (leBytes seed 32) (beBytes i 4 ++ label ++ [0] ++ beBytes 448 4)
  BitVec.ofNat 384 (beNat ((block 1 ++ block 2).take 56) % (p384n - 1) + 1)

/-- The public key of a private key in SEC1 uncompressed form, byte 0 lowest (R594). -/
def ecdsaPublic (d : BitVec 384) : BitVec 776 := match ecMul d.toNat p384g with
  | none => 0
  | some (x, y) => BitVec.ofNat 776 (leNat ([4] ++ beBytes x 48 ++ beBytes y 48))

/-- A signature of a message digest under a private key with the per-message secret `k`: r, then s in the high half (R599). Each is a
little-endian number, as what holds it is stored (DESIGN CHOICE, notes/assumptions/8). -/
def ecdsaSign (d k : Nat) (digest : BitVec 384) : BitVec 768 := match ecMul k p384g with
  | none => 0
  | some (x, _) =>
    let r := x % p384n
    let s := invMod k p384n * (beNat (leBytes digest 48) + r * d) % p384n
    BitVec.ofNat 768 (r + s <<< 384)

/-- A signature of a message digest verifies under a public key (R695). -/
def ecdsaVerify (pub : BitVec 776) (digest : BitVec 384) (sig : BitVec 768) : Bool :=
  let b := leBytes pub 97
  let x := beNat ((b.drop 1).take 48)
  let y := beNat (b.drop 49)
  let r := (sig.extractLsb' 0 384).toNat
  let s := (sig.extractLsb' 384 384).toNat
  let w := invMod s p384n
  b.headD 0 == 4 && onCurve x y && decide (0 < r ∧ r < p384n ∧ 0 < s ∧ s < p384n) &&
    (match ecAdd (ecMul (beNat (leBytes digest 48) * w % p384n) p384g) (ecMul (r * w % p384n) (some (x, y))) with
      | none => false
      | some (z, _) => z % p384n == r)

/-! ### Cyclic codes -/

/-- One byte into a reflected CRC with the reflected polynomial `poly`. -/
def crcReflByte {n : Nat} (poly c : BitVec n) (b : Byte) : BitVec n :=
  (List.range 8).foldl (fun c _ => if c.getLsbD 0 then (c >>> 1) ^^^ poly else c >>> 1) (c ^^^ b.setWidth n)

/-- CRC-32C (R101). -/
def crc32c (m : List Byte) : W32 := (m.foldl (crcReflByte 0x82F63B78) 0xFFFFFFFF) ^^^ 0xFFFFFFFF

/-- One byte into a CRC that takes the highest bit first. -/
def crcByte {n : Nat} (poly c : BitVec n) (b : Byte) : BitVec n :=
  (List.range 8).foldl (fun c _ => if c.msb then (c <<< 1) ^^^ poly else c <<< 1) (c ^^^ (b.setWidth n <<< (n - 8)))

/-- CRC-64 with the ECMA-182 polynomial (R102, R469). -/
def crc64 (m : List Byte) : W64 := m.foldl (crcByte 0x42F0E1EBA9EA3693) 0

/-! ### The outer code (R609) -/

def gf (a b : Byte) : Byte := gfMul 0x1D a b

/-- g(x) without its leading 1, coefficients from x^5 down to x^0. -/
def rsGen : List Byte :=
  let g := (List.range 6).foldl (fun (g : List Byte) i =>
    let a := gfPow 0x1D 2 i
    xorBytes (g ++ [0]) ([0] ++ g.map (gf a))) [1]
  g.drop 1

/-- The check symbols c66 to c71 of the symbols c0 to c65. -/
def rsCheck (c : List Byte) : List Byte :=
  c.foldl (fun r x =>
    let f := x ^^^ r.headD 0
    xorBytes (r.drop 1 ++ [0]) (rsGen.map (gf f))) (List.replicate 6 0)

/-- The six syndromes of an error pattern. -/
def rsSyndrome (e : List (Fin 72 × Byte)) : List Byte :=
  (List.range 6).map fun i => e.foldl (fun a p => a ^^^ gf p.2 (gfPow 0x1D (gfPow 0x1D 2 i) (71 - p.1.val))) 0

end Sys2Proof.Machine
end

