-- ==== Sys2Proof/Machine/RegMap.lean ====
section
/-! DEFINITION. The register map, transcribed from the register tables of spec/: every register family with its
space, offset, strides, width and fields (bits, access code of R15, reset value), and a name for every field.
A family may have two indices: `i` (a cluster, port, function, ring …) and `j`; where the spec's window has a third
index the two inner ones are folded into `j` (`j = a * lN + l`). -/

namespace Sys2Proof.Machine

/-- The register families of the block (254 of them). -/
inductive RegName where
  | GLOBAL_ID | GLOBAL_PROTO | GLOBAL_CFGLOCK | CLU_MISROUTE | GLOBAL_TS | CLOCK_STATUS | CLOCK_ERR
  | CLOCK_FCLK | CLOCK_PHYPLL | TS_CTRL | TS_CAPT | TS_WALL_REF | TS_WALL | TS_REPL | PLOT_CMD | PLOT_ARG0
  | PLOT_ARG1 | PLOT_STATUS | PLOT_GEOM | PLOT_STACKGEOM | CLU_SPARES | CLU_MIG | CLU_PCMAP | CLU_PCRET
  | CLU_PCSPARE | PORT_CFG | PORT_LKCFG | PORT_CAP | PORT_EFF | PORT_BIND | PORT_LINK | PORT_LINKCNT
  | PORT_ERRCNT | PORT_TMO | PORT_LOCK | GLOBAL_ATTN_PENDING | ARB_REQ | ARB_HOLD_CTL | ARB_HOLD_LEASE
  | ARB_HOLD_OWNER | ARB_LATFLOOR | ARB_GRANTS | ARB_WAIT | ARB_LONGEST | CLU_TIM0 | CLU_TIM1 | CLU_TIM2
  | PC_STATUS | PC_QCFG | PC_HAZ | REF_CTRL | REF_TIM | REF_PERIOD | REF_ORIGIN | REF_NEXTSW
  | REF_MAINT_START | REF_MAINT | RG_CFG | RG_STAT | RG_LAST | RG_DROPS | SR_CFG | SR_STAT | PHY_STATUS
  | PHY_CFG | PHY_ID | PHY_VENDOR | PHY_SERIAL | PHY_TRN_CTRL | PHY_TRN_STATUS | PHY_RTR_CFG | PHY_RTR_STAT
  | PHY_RTR_LAST | PHY_RTR_TEMP | PHY_CALZ | PHY_LANE_RD | PHY_LANE_WR | PHY_REPAIR | TRF_SUB_CTL
  | TRF_SUB_BURST | TRF_SUB_TOKENS | TRF_SUB_DROPS | TRF_SVC_CTL | TRF_SVC_BURST | TRF_SVC_TOKENS
  | TRF_PORT_CTL | TRF_PORT_BURST | TRF_PORT_TOKENS | TRF_PORT_DROPS | TRF_GATE_CTL | TRF_GATE_STATUS
  | TRF_GATE_GUARD | TRF_GATE_ORIGIN | TRF_GATE_LATOK | TRF_GATE_SLOT | TRF_GATE_ACT | TRF_HIST_CTL | TRF_DEP
  | TRF_DLY | LNT_CTL | LNT_STATUS | LNT_ARRAY | LNT_CTX | LNT_CTX_JOB | LNT_CTX_SEED | LNT_CTX_STORE
  | LNT_JRNL | LNT_JRNL_OLDEST | LNT_MEMIF | LNT_STOREERR | POSY_CFG | POSY_STATUS | POSY_STAT0 | POSY_STAT1
  | POSY_TAKEN | POSY_ENTRY_KEY | POSY_ENTRY_STAT | GLOBAL_STATE | GLOBAL_IFVER | GLOBAL_DRVVER
  | GLOBAL_HBEAT | RINGS_HOST | RING_STATE | RING_CFG | RING_PTRS | RING_JOBS | RING_ERR | RING_LAST
  | FN_SQDB | FN_CQDB | FN_RINGCTL | FN_STATUS | FN_DRVVER | FN_TS | FN_HWIN_BASE | FN_HWIN_SIZE | FN_MEMERR
  | FN_CFG | FN_MSIX_ADDR | FN_MSIX_DATA | FN_MSIX_CTL | FN_MSIX_PBA | MBX_CTL | MBX_STATUS | SEC_STATUS
  | SEC_ROT | SEC_SLOT | SEC_BIND | SEC_SESS | SEC_TENANT | AUDIT_SEQ | AUDIT_ACK | AUDIT_CFG | AUDIT_LOST
  | AUDIT_HEAD | RAS_CFG | RAS_CLASS | RAS_RECHEAD | RAS_RECACK | RAS_RECLOST | RAS_CNT | RAS_CNT2 | RAS_FRZ
  | RAS_FRZCTL | RAS_MIGCTL | RAS_HISTCTL | RAS_SECFG | RAS_MGCTL | RAS_MGSEED | RAS_MGROUND | RAS_MGSTEP
  | RAS_MGSTEP_PREV | RAS_MGSTAT | RAS_MGDIG | RAS_FENCE | RAS_FENCECTL | RAS_SECNT | RAS_SECNT2 | FW_STATE
  | FW_VER | FW_BUILD | FW_SVN | FW_DIGEST | FW_CTL | FW_LASTCAUSE | FW_LASTSTAMP | FW_BOOT | FW_UPDCTL
  | FW_UPDSTAT | FW_EVT | PM_STATUS | PM_FAULT | PM_RAIL_CFG | PM_RAIL_MEAS | THM_CFG | THM_STATUS | THM_EVT
  | THM_SENS_CFG | THM_SENS_THR | THM_SENS_HYS | THM_SENS_READ | HK_ROUND | HK_CH | SNF_LOCK | SNF_VLOGIC
  | SNF_VNMC | SNF_VPHY | SNF_MISC | SNF_IMAX | SNF_IMAX_STK | SNF_TCEIL | SNF_STAT | MIR_PAIR | MIR_CFG
  | MIR_PORT | MIR_PEER | MIR_WCTL | MIR_PEPOCH | MIR_ACKTS | MIR_TSOFF | MIR_TSERR | MIR_PSEQ | MIR_STAT
  | MIR_PHEAD | MIR_WIN_BASE | MIR_WIN_PBASE | MIR_WIN_SIZE | MIR_WIN_CTL | MIR_ACT_BASE | MIR_ACT_PBASE
  | MIR_ACT_SIZE | MIR_ACT_CTL | MIR_PLAST | PMU_CTL | PMU_SNAPTS | PMU_FREEZETS | PMU_PC | PMU_AES | PMU_ARB
  | PMU_CTX | PMU_SH_PC | PMU_SH_AES | PMU_SH_ARB | PMU_SH_CTX | PMU_LNT_CYCLE | PMU_LNT_CNT | PMU_LNT_SEL
  | PMU_LNT_SHCYCLE | PMU_LNT_SHCNT | PMU_BLK_CYCLE | PMU_BLK_CNT | PMU_BLK_SEL | PMU_BLK_SHCYCLE
  | PMU_BLK_SHCNT
deriving DecidableEq, Repr

/-- The access codes of R15. -/
inductive Acc where
  | ro | rw | rw1c | rc | wo | rwl
deriving DecidableEq, Repr

/-- The spaces registers lie in: PF0 BAR0, a function page (R515), a mailbox window (R605). -/
inductive Space where
  | bar0 | fnPage | mbx
deriving DecidableEq, Repr

/-- One field of a register: lowest bit, length, access code, reset value. -/
structure FieldDesc where
  lo : Nat
  len : Nat
  acc : Acc
  reset : Nat
deriving DecidableEq, Repr

/-- A register family: offset of element (0, 0), index ranges and strides, whether it is 64 bits wide (R20), fields. -/
structure RegDesc where
  space : Space
  base : Nat
  iN : Nat
  iS : Nat
  jN : Nat
  jS : Nat
  lN : Nat
  lS : Nat
  wide : Bool
  fields : List FieldDesc
deriving DecidableEq, Repr

/-- A field, named by its register family and bits. -/
structure Fld where
  reg : RegName
  lo : Nat
  len : Nat
deriving DecidableEq, Repr

/-! The layout of each family: `D.<register>`. -/
namespace D

/-- R13 -/
def GLOBAL_ID : RegDesc :=
  ⟨.bar0, 0x0, 1, 0x0, 1, 0x0, 1, 0x0, false, [⟨20, 12, .ro, 1457⟩, ⟨8, 12, .ro, 18⟩, ⟨4, 4, .ro, 2⟩, ⟨0, 4, .ro, 0⟩]⟩
/-- R13 -/
def GLOBAL_PROTO : RegDesc :=
  ⟨.bar0, 0x4, 1, 0x0, 1, 0x0, 1, 0x0, false, [⟨16, 8, .ro, 16⟩, ⟨8, 8, .ro, 2⟩, ⟨0, 8, .ro, 2⟩]⟩
/-- R16 -/
def GLOBAL_CFGLOCK : RegDesc :=
  ⟨.bar0, 0x40, 1, 0x0, 1, 0x0, 1, 0x0, false, [⟨0, 1, .rwl, 0⟩]⟩
/-- R32 -/
def CLU_MISROUTE : RegDesc :=
  ⟨.bar0, 0x1000030, 12, 0x100000, 1, 0x0, 1, 0x0, false, [⟨26, 6, .ro, 0⟩, ⟨0, 16, .rc, 0⟩]⟩
/-- R54 -/
def GLOBAL_TS : RegDesc :=
  ⟨.bar0, 0x10, 1, 0x0, 1, 0x0, 1, 0x0, true, [⟨0, 64, .ro, 0⟩]⟩
/-- R54 -/
def CLOCK_STATUS : RegDesc :=
  ⟨.bar0, 0x100000, 1, 0x0, 1, 0x0, 1, 0x0, false, [⟨31, 1, .ro, 0⟩, ⟨30, 1, .ro, 0⟩, ⟨29, 1, .ro, 0⟩, ⟨0, 12, .ro, 0⟩]⟩
/-- R54 -/
def CLOCK_ERR : RegDesc :=
  ⟨.bar0, 0x100004, 1, 0x0, 1, 0x0, 1, 0x0, false, [⟨30, 1, .rw1c, 0⟩, ⟨29, 1, .rw1c, 0⟩, ⟨28, 1, .rw1c, 0⟩, ⟨0, 12, .rw1c, 0⟩]⟩
/-- R54 -/
def CLOCK_FCLK : RegDesc :=
  ⟨.bar0, 0x10000C, 1, 0x0, 1, 0x0, 1, 0x0, false, [⟨0, 16, .ro, 0⟩]⟩
/-- R54 -/
def CLOCK_PHYPLL : RegDesc :=
  ⟨.bar0, 0x100040, 12, 0x4, 1, 0x0, 1, 0x0, false, [⟨31, 1, .ro, 0⟩, ⟨0, 8, .rw, 0⟩]⟩
/-- R57 -/
def TS_CTRL : RegDesc :=
  ⟨.bar0, 0x100100, 1, 0x0, 1, 0x0, 1, 0x0, false, [⟨1, 1, .rw, 1⟩, ⟨0, 1, .wo, 0⟩]⟩
/-- R57 -/
def TS_CAPT : RegDesc :=
  ⟨.bar0, 0x100108, 1, 0x0, 1, 0x0, 1, 0x0, true, [⟨0, 64, .ro, 0⟩]⟩
/-- R57 -/
def TS_WALL_REF : RegDesc :=
  ⟨.bar0, 0x100110, 1, 0x0, 1, 0x0, 1, 0x0, true, [⟨0, 64, .rw, 0⟩]⟩
/-- R57 -/
def TS_WALL : RegDesc :=
  ⟨.bar0, 0x100118, 1, 0x0, 1, 0x0, 1, 0x0, true, [⟨0, 64, .rw, 0⟩]⟩
/-- R57 -/
def TS_REPL : RegDesc :=
  ⟨.bar0, 0x100120, 1, 0x0, 1, 0x0, 1, 0x0, false, [⟨24, 8, .ro, 0⟩, ⟨0, 16, .rc, 0⟩]⟩
/-- R93 -/
def PLOT_CMD : RegDesc :=
  ⟨.bar0, 0x230000, 1, 0x0, 1, 0x0, 1, 0x0, false, [⟨31, 1, .ro, 0⟩, ⟨24, 4, .wo, 0⟩, ⟨0, 12, .wo, 0⟩]⟩
/-- R93 -/
def PLOT_ARG0 : RegDesc :=
  ⟨.bar0, 0x230004, 1, 0x0, 1, 0x0, 1, 0x0, false, [⟨24, 8, .rw, 0⟩, ⟨23, 1, .rw, 0⟩, ⟨22, 1, .rw, 0⟩, ⟨13, 9, .rw, 0⟩, ⟨9, 4, .rw, 0⟩, ⟨5, 4, .rw, 0⟩]⟩
/-- R93 -/
def PLOT_ARG1 : RegDesc :=
  ⟨.bar0, 0x230008, 1, 0x0, 1, 0x0, 1, 0x0, false, [⟨0, 16, .rw, 0⟩]⟩
/-- R93 -/
def PLOT_STATUS : RegDesc :=
  ⟨.bar0, 0x23000C, 1, 0x0, 1, 0x0, 1, 0x0, false, [⟨31, 1, .rw1c, 0⟩, ⟨30, 1, .rw1c, 0⟩, ⟨16, 4, .ro, 0⟩, ⟨0, 12, .ro, 0⟩]⟩
/-- R98 -/
def PLOT_GEOM : RegDesc :=
  ⟨.bar0, 0x230100, 1, 0x0, 1, 0x0, 1, 0x0, false, [⟨20, 9, .ro, 0⟩, ⟨16, 4, .ro, 0⟩, ⟨0, 12, .ro, 0⟩]⟩
/-- R98 -/
def PLOT_STACKGEOM : RegDesc :=
  ⟨.bar0, 0x230140, 12, 0x4, 1, 0x0, 1, 0x0, false, [⟨23, 9, .ro, 0⟩, ⟨16, 7, .ro, 0⟩, ⟨12, 4, .ro, 0⟩, ⟨9, 3, .ro, 0⟩]⟩
/-- R98 -/
def CLU_SPARES : RegDesc :=
  ⟨.bar0, 0x1000010, 12, 0x100000, 1, 0x0, 1, 0x0, false, [⟨0, 3, .rwl, 1⟩]⟩
/-- R98 -/
def CLU_MIG : RegDesc :=
  ⟨.bar0, 0x1000020, 12, 0x100000, 1, 0x0, 1, 0x0, false, [⟨31, 1, .ro, 0⟩, ⟨24, 6, .ro, 0⟩, ⟨16, 6, .ro, 0⟩, ⟨0, 15, .ro, 0⟩]⟩
/-- R98 -/
def CLU_PCMAP : RegDesc :=
  ⟨.bar0, 0x1000100, 12, 0x100000, 64, 0x4, 1, 0x0, false, [⟨31, 1, .ro, 0⟩, ⟨0, 6, .ro, 0⟩]⟩
/-- R98 -/
def CLU_PCRET : RegDesc :=
  ⟨.bar0, 0x1000200, 12, 0x100000, 1, 0x0, 1, 0x0, true, [⟨0, 64, .ro, 0⟩]⟩
/-- R98 -/
def CLU_PCSPARE : RegDesc :=
  ⟨.bar0, 0x1000208, 12, 0x100000, 1, 0x0, 1, 0x0, true, [⟨0, 64, .ro, 0⟩]⟩
/-- R153 -/
def PORT_CFG : RegDesc :=
  ⟨.bar0, 0x400000, 39, 0x40, 1, 0x0, 1, 0x0, false, [⟨31, 1, .rw, 1⟩, ⟨0, 16, .rw, 2000⟩]⟩
/-- R153 -/
def PORT_LKCFG : RegDesc :=
  ⟨.bar0, 0x400004, 39, 0x40, 1, 0x0, 1, 0x0, false, [⟨0, 20, .rw, 10000⟩]⟩
/-- R153 -/
def PORT_CAP : RegDesc :=
  ⟨.bar0, 0x400008, 39, 0x40, 1, 0x0, 1, 0x0, true, [⟨0, 64, .ro, 0⟩]⟩
/-- R153 -/
def PORT_EFF : RegDesc :=
  ⟨.bar0, 0x400010, 39, 0x40, 1, 0x0, 1, 0x0, false, [⟨24, 8, .ro, 0⟩, ⟨20, 4, .ro, 0⟩, ⟨16, 4, .ro, 0⟩, ⟨15, 1, .ro, 0⟩, ⟨0, 9, .ro, 0⟩]⟩
/-- R153 -/
def PORT_BIND : RegDesc :=
  ⟨.bar0, 0x400014, 39, 0x40, 1, 0x0, 1, 0x0, false, [⟨31, 1, .ro, 0⟩, ⟨0, 8, .ro, 0⟩]⟩
/-- R153 -/
def PORT_LINK : RegDesc :=
  ⟨.bar0, 0x400018, 39, 0x40, 1, 0x0, 1, 0x0, false, [⟨31, 1, .ro, 0⟩, ⟨0, 16, .ro, 0⟩]⟩
/-- R153 -/
def PORT_LINKCNT : RegDesc :=
  ⟨.bar0, 0x40001C, 39, 0x40, 1, 0x0, 1, 0x0, false, [⟨16, 16, .rc, 0⟩, ⟨0, 16, .rc, 0⟩]⟩
/-- R153 -/
def PORT_ERRCNT : RegDesc :=
  ⟨.bar0, 0x400020, 39, 0x40, 1, 0x0, 1, 0x0, false, [⟨16, 16, .rc, 0⟩, ⟨0, 16, .rc, 0⟩]⟩
/-- R153 -/
def PORT_TMO : RegDesc :=
  ⟨.bar0, 0x400024, 39, 0x40, 1, 0x0, 1, 0x0, false, [⟨16, 16, .rc, 0⟩, ⟨0, 16, .rc, 0⟩]⟩
/-- R153 -/
def PORT_LOCK : RegDesc :=
  ⟨.bar0, 0x401000, 12, 0x4, 1, 0x0, 1, 0x0, false, [⟨16, 16, .rc, 0⟩, ⟨0, 9, .ro, 0⟩]⟩
/-- R153 -/
def GLOBAL_ATTN_PENDING : RegDesc :=
  ⟨.bar0, 0x20, 1, 0x0, 1, 0x0, 1, 0x0, false, [⟨0, 16, .ro, 0⟩]⟩
/-- R196 -/
def ARB_REQ : RegDesc :=
  ⟨.bar0, 0xC00000, 40, 0x10, 1, 0x0, 1, 0x0, false, [⟨8, 3, .rw, 0⟩, ⟨0, 7, .rw, 16⟩]⟩
/-- R196 -/
def ARB_HOLD_CTL : RegDesc :=
  ⟨.bar0, 0xC00400, 8, 0x10, 1, 0x0, 1, 0x0, false, [⟨31, 1, .ro, 0⟩, ⟨30, 1, .ro, 0⟩, ⟨28, 2, .ro, 0⟩, ⟨27, 1, .wo, 0⟩, ⟨26, 1, .wo, 0⟩, ⟨20, 6, .rw, 0⟩, ⟨16, 4, .rw, 0⟩, ⟨8, 6, .rw, 0⟩]⟩
/-- R196 -/
def ARB_HOLD_LEASE : RegDesc :=
  ⟨.bar0, 0xC00404, 8, 0x10, 1, 0x0, 1, 0x0, false, [⟨0, 20, .rw, 10000⟩]⟩
/-- R196 -/
def ARB_HOLD_OWNER : RegDesc :=
  ⟨.bar0, 0xC00408, 8, 0x10, 1, 0x0, 1, 0x0, false, [⟨16, 6, .ro, 0⟩, ⟨0, 16, .ro, 0⟩]⟩
/-- R198 -/
def ARB_LATFLOOR : RegDesc :=
  ⟨.bar0, 0xC00F00, 1, 0x0, 1, 0x0, 1, 0x0, false, [⟨0, 8, .rw, 192⟩]⟩
/-- R199 -/
def ARB_GRANTS : RegDesc :=
  ⟨.bar0, 0xC10000, 12, 0x1000, 40, 0x20, 1, 0x0, true, [⟨0, 48, .ro, 0⟩]⟩
/-- R199 -/
def ARB_WAIT : RegDesc :=
  ⟨.bar0, 0xC10008, 12, 0x1000, 40, 0x20, 1, 0x0, true, [⟨0, 48, .ro, 0⟩]⟩
/-- R199 -/
def ARB_LONGEST : RegDesc :=
  ⟨.bar0, 0xC10010, 12, 0x1000, 40, 0x20, 1, 0x0, false, [⟨0, 32, .rc, 0⟩]⟩
/-- R199 -/
def CLU_TIM0 : RegDesc :=
  ⟨.bar0, 0x1000400, 12, 0x100000, 1, 0x0, 1, 0x0, false, [⟨24, 8, .rw, 20⟩, ⟨16, 8, .rw, 18⟩, ⟨8, 8, .rw, 34⟩, ⟨0, 8, .rw, 48⟩]⟩
/-- R199 -/
def CLU_TIM1 : RegDesc :=
  ⟨.bar0, 0x1000404, 12, 0x100000, 1, 0x0, 1, 0x0, false, [⟨24, 8, .rw, 16⟩, ⟨20, 4, .rw, 2⟩, ⟨16, 4, .rw, 1⟩, ⟨12, 4, .rw, 4⟩, ⟨8, 4, .rw, 2⟩, ⟨0, 8, .rw, 16⟩]⟩
/-- R199 -/
def CLU_TIM2 : RegDesc :=
  ⟨.bar0, 0x1000408, 12, 0x100000, 1, 0x0, 1, 0x0, false, [⟨24, 8, .rw, 20⟩, ⟨16, 8, .rw, 6⟩, ⟨12, 4, .rw, 10⟩, ⟨8, 4, .rw, 4⟩, ⟨4, 4, .rw, 4⟩, ⟨0, 1, .rw1c, 0⟩]⟩
/-- R200 -/
def PC_STATUS : RegDesc :=
  ⟨.bar0, 0x1010000, 12, 0x100000, 64, 0x800, 1, 0x0, false, [⟨29, 3, .ro, 0⟩, ⟨28, 1, .ro, 0⟩, ⟨16, 7, .ro, 0⟩, ⟨8, 7, .ro, 0⟩, ⟨0, 3, .ro, 0⟩]⟩
/-- R200 -/
def PC_QCFG : RegDesc :=
  ⟨.bar0, 0x1010004, 12, 0x100000, 64, 0x800, 1, 0x0, false, [⟨8, 7, .rw, 48⟩, ⟨0, 7, .rw, 16⟩]⟩
/-- R202 -/
def PC_HAZ : RegDesc :=
  ⟨.bar0, 0x1010008, 12, 0x100000, 64, 0x800, 1, 0x0, false, [⟨16, 16, .rc, 0⟩, ⟨0, 16, .rc, 0⟩]⟩
/-- R238 -/
def REF_CTRL : RegDesc :=
  ⟨.bar0, 0x1040000, 12, 0x100000, 1, 0x0, 1, 0x0, false, [⟨31, 1, .ro, 0⟩, ⟨30, 1, .rw, 0⟩, ⟨29, 1, .rw1c, 0⟩, ⟨0, 8, .rw, 83⟩]⟩
/-- R238 -/
def REF_TIM : RegDesc :=
  ⟨.bar0, 0x1040004, 12, 0x100000, 1, 0x0, 1, 0x0, false, [⟨16, 11, .rw, 228⟩, ⟨0, 11, .rw, 492⟩]⟩
/-- R238 -/
def REF_PERIOD : RegDesc :=
  ⟨.bar0, 0x1040008, 12, 0x100000, 1, 0x0, 1, 0x0, false, [⟨16, 16, .ro, 4680⟩, ⟨0, 16, .ro, 492⟩]⟩
/-- R238 -/
def REF_ORIGIN : RegDesc :=
  ⟨.bar0, 0x1040010, 12, 0x100000, 1, 0x0, 1, 0x0, true, [⟨0, 64, .ro, 0⟩]⟩
/-- R238 -/
def REF_NEXTSW : RegDesc :=
  ⟨.bar0, 0x1040018, 12, 0x100000, 1, 0x0, 1, 0x0, true, [⟨0, 64, .ro, 0⟩]⟩
/-- R238 -/
def REF_MAINT_START : RegDesc :=
  ⟨.bar0, 0x1040020, 12, 0x100000, 1, 0x0, 1, 0x0, true, [⟨0, 64, .ro, 0⟩]⟩
/-- R238 -/
def REF_MAINT : RegDesc :=
  ⟨.bar0, 0x1040028, 12, 0x100000, 1, 0x0, 1, 0x0, false, [⟨31, 1, .ro, 0⟩, ⟨29, 2, .ro, 0⟩, ⟨23, 6, .ro, 0⟩, ⟨0, 16, .ro, 0⟩]⟩
/-- R238 -/
def RG_CFG : RegDesc :=
  ⟨.bar0, 0x1040040, 12, 0x100000, 1, 0x0, 1, 0x0, false, [⟨31, 1, .rw, 1⟩, ⟨24, 5, .rw, 8⟩, ⟨20, 4, .rw, 1⟩, ⟨0, 16, .rw, 2048⟩]⟩
/-- R238 -/
def RG_STAT : RegDesc :=
  ⟨.bar0, 0x1040044, 12, 0x100000, 1, 0x0, 1, 0x0, false, [⟨24, 8, .rc, 0⟩, ⟨16, 8, .rc, 0⟩, ⟨0, 16, .rc, 0⟩]⟩
/-- R238 -/
def RG_LAST : RegDesc :=
  ⟨.bar0, 0x1040048, 12, 0x100000, 1, 0x0, 1, 0x0, false, [⟨26, 6, .ro, 0⟩, ⟨24, 2, .ro, 0⟩, ⟨20, 4, .ro, 0⟩, ⟨14, 6, .ro, 0⟩]⟩
/-- R238 -/
def RG_DROPS : RegDesc :=
  ⟨.bar0, 0x104004C, 12, 0x100000, 1, 0x0, 1, 0x0, false, [⟨0, 32, .rc, 0⟩]⟩
/-- R238 -/
def SR_CFG : RegDesc :=
  ⟨.bar0, 0x1040060, 12, 0x100000, 1, 0x0, 1, 0x0, false, [⟨31, 1, .rw, 1⟩, ⟨0, 14, .rw, 100⟩]⟩
/-- R238 -/
def SR_STAT : RegDesc :=
  ⟨.bar0, 0x1040064, 12, 0x100000, 1, 0x0, 1, 0x0, false, [⟨16, 16, .rc, 0⟩, ⟨0, 7, .ro, 0⟩]⟩
/-- R278 -/
def PHY_STATUS : RegDesc :=
  ⟨.bar0, 0x1050000, 12, 0x100000, 1, 0x0, 1, 0x0, false, [⟨29, 3, .ro, 0⟩, ⟨28, 1, .ro, 0⟩, ⟨27, 1, .ro, 0⟩, ⟨26, 1, .ro, 0⟩]⟩
/-- R278 -/
def PHY_CFG : RegDesc :=
  ⟨.bar0, 0x1050004, 12, 0x100000, 1, 0x0, 1, 0x0, false, [⟨8, 6, .rwl, 48⟩, ⟨0, 7, .rw, 24⟩]⟩
/-- R278 -/
def PHY_ID : RegDesc :=
  ⟨.bar0, 0x1050008, 12, 0x100000, 1, 0x0, 1, 0x0, false, [⟨30, 2, .ro, 0⟩, ⟨25, 5, .ro, 0⟩, ⟨22, 3, .ro, 0⟩, ⟨15, 7, .ro, 0⟩, ⟨8, 7, .ro, 0⟩, ⟨7, 1, .ro, 0⟩, ⟨0, 6, .ro, 0⟩]⟩
/-- R278 -/
def PHY_VENDOR : RegDesc :=
  ⟨.bar0, 0x105000C, 12, 0x100000, 1, 0x0, 1, 0x0, false, [⟨24, 8, .ro, 0⟩, ⟨8, 16, .ro, 0⟩]⟩
/-- R278 -/
def PHY_SERIAL : RegDesc :=
  ⟨.bar0, 0x1050010, 12, 0x100000, 1, 0x0, 1, 0x0, true, [⟨0, 64, .ro, 0⟩]⟩
/-- R278 -/
def PHY_TRN_CTRL : RegDesc :=
  ⟨.bar0, 0x1050020, 12, 0x100000, 1, 0x0, 1, 0x0, false, [⟨31, 1, .ro, 0⟩, ⟨30, 1, .rw1c, 0⟩, ⟨0, 2, .wo, 0⟩]⟩
/-- R278 -/
def PHY_TRN_STATUS : RegDesc :=
  ⟨.bar0, 0x1050024, 12, 0x100000, 1, 0x0, 1, 0x0, false, [⟨28, 4, .ro, 0⟩, ⟨26, 2, .ro, 0⟩, ⟨16, 8, .ro, 0⟩, ⟨0, 16, .ro, 0⟩]⟩
/-- R278 -/
def PHY_RTR_CFG : RegDesc :=
  ⟨.bar0, 0x1050030, 12, 0x100000, 1, 0x0, 1, 0x0, false, [⟨31, 1, .rw, 1⟩, ⟨16, 5, .rw, 5⟩, ⟨0, 14, .rw, 1000⟩]⟩
/-- R278 -/
def PHY_RTR_STAT : RegDesc :=
  ⟨.bar0, 0x1050034, 12, 0x100000, 1, 0x0, 1, 0x0, false, [⟨16, 16, .rc, 0⟩, ⟨0, 16, .rc, 0⟩]⟩
/-- R278 -/
def PHY_RTR_LAST : RegDesc :=
  ⟨.bar0, 0x1050038, 12, 0x100000, 1, 0x0, 1, 0x0, true, [⟨0, 64, .ro, 0⟩]⟩
/-- R278 -/
def PHY_RTR_TEMP : RegDesc :=
  ⟨.bar0, 0x1050040, 12, 0x100000, 1, 0x0, 1, 0x0, false, [⟨0, 8, .ro, 0⟩]⟩
/-- R278 -/
def PHY_CALZ : RegDesc :=
  ⟨.bar0, 0x1050044, 12, 0x100000, 1, 0x0, 1, 0x0, false, [⟨16, 16, .ro, 0⟩, ⟨8, 8, .ro, 0⟩, ⟨0, 8, .ro, 0⟩]⟩
/-- R278 -/
def PHY_LANE_RD : RegDesc :=
  ⟨.bar0, 0x1051000, 12, 0x100000, 256, 0x8, 1, 0x0, true, [⟨32, 16, .ro, 0⟩, ⟨25, 7, .ro, 0⟩, ⟨18, 7, .ro, 0⟩, ⟨13, 5, .ro, 0⟩, ⟨0, 8, .ro, 0⟩]⟩
/-- R278 -/
def PHY_LANE_WR : RegDesc :=
  ⟨.bar0, 0x1051800, 12, 0x100000, 256, 0x8, 1, 0x0, true, [⟨32, 16, .ro, 0⟩, ⟨25, 7, .ro, 0⟩, ⟨18, 7, .ro, 0⟩, ⟨13, 5, .ro, 0⟩, ⟨0, 8, .ro, 0⟩]⟩
/-- R278 -/
def PHY_REPAIR : RegDesc :=
  ⟨.bar0, 0x1052000, 12, 0x100000, 64, 0x4, 1, 0x0, false, [⟨31, 1, .ro, 0⟩, ⟨30, 1, .ro, 0⟩, ⟨24, 6, .ro, 0⟩, ⟨23, 1, .ro, 0⟩, ⟨22, 1, .ro, 0⟩, ⟨16, 6, .ro, 0⟩, ⟨15, 1, .ro, 0⟩, ⟨14, 1, .ro, 0⟩, ⟨8, 6, .ro, 0⟩, ⟨7, 1, .ro, 0⟩, ⟨6, 1, .ro, 0⟩, ⟨0, 6, .ro, 0⟩]⟩
/-- R317 -/
def TRF_SUB_CTL : RegDesc :=
  ⟨.bar0, 0x800000, 256, 0x40, 1, 0x0, 1, 0x0, false, [⟨31, 1, .rw, 0⟩, ⟨30, 1, .rw, 0⟩, ⟨24, 4, .rw, 0⟩, ⟨0, 24, .rw, 0⟩]⟩
/-- R317 -/
def TRF_SUB_BURST : RegDesc :=
  ⟨.bar0, 0x800004, 256, 0x40, 1, 0x0, 1, 0x0, false, [⟨0, 16, .rw, 64⟩]⟩
/-- R317 -/
def TRF_SUB_TOKENS : RegDesc :=
  ⟨.bar0, 0x800008, 256, 0x40, 1, 0x0, 1, 0x0, false, [⟨0, 24, .ro, 16384⟩]⟩
/-- R317 -/
def TRF_SUB_DROPS : RegDesc :=
  ⟨.bar0, 0x80000C, 256, 0x40, 1, 0x0, 1, 0x0, false, [⟨0, 32, .rc, 0⟩]⟩
/-- R317 -/
def TRF_SVC_CTL : RegDesc :=
  ⟨.bar0, 0x800010, 256, 0x40, 4, 0xC, 1, 0x0, false, [⟨31, 1, .rw, 0⟩, ⟨30, 1, .rw, 0⟩, ⟨24, 4, .rw, 0⟩, ⟨0, 24, .rw, 0⟩]⟩
/-- R317 -/
def TRF_SVC_BURST : RegDesc :=
  ⟨.bar0, 0x800014, 256, 0x40, 4, 0xC, 1, 0x0, false, [⟨0, 16, .rw, 64⟩]⟩
/-- R317 -/
def TRF_SVC_TOKENS : RegDesc :=
  ⟨.bar0, 0x800018, 256, 0x40, 4, 0xC, 1, 0x0, false, [⟨0, 24, .ro, 16384⟩]⟩
/-- R317 -/
def TRF_PORT_CTL : RegDesc :=
  ⟨.bar0, 0x804000, 39, 0x10, 1, 0x0, 1, 0x0, false, [⟨31, 1, .rw, 0⟩, ⟨30, 1, .rw, 0⟩, ⟨24, 4, .rw, 0⟩, ⟨0, 24, .rw, 0⟩]⟩
/-- R317 -/
def TRF_PORT_BURST : RegDesc :=
  ⟨.bar0, 0x804004, 39, 0x10, 1, 0x0, 1, 0x0, false, [⟨0, 16, .rw, 64⟩]⟩
/-- R317 -/
def TRF_PORT_TOKENS : RegDesc :=
  ⟨.bar0, 0x804008, 39, 0x10, 1, 0x0, 1, 0x0, false, [⟨0, 24, .ro, 16384⟩]⟩
/-- R317 -/
def TRF_PORT_DROPS : RegDesc :=
  ⟨.bar0, 0x80400C, 39, 0x10, 1, 0x0, 1, 0x0, false, [⟨0, 32, .rc, 0⟩]⟩
/-- R317 -/
def TRF_GATE_CTL : RegDesc :=
  ⟨.bar0, 0x808000, 1, 0x0, 1, 0x0, 1, 0x0, false, [⟨31, 1, .rw, 0⟩, ⟨30, 1, .wo, 0⟩, ⟨29, 1, .rw1c, 0⟩, ⟨28, 1, .ro, 0⟩, ⟨16, 7, .rw, 1⟩]⟩
/-- R317 -/
def TRF_GATE_STATUS : RegDesc :=
  ⟨.bar0, 0x808004, 1, 0x0, 1, 0x0, 1, 0x0, false, [⟨16, 7, .ro, 0⟩, ⟨6, 1, .ro, 0⟩, ⟨0, 6, .ro, 0⟩]⟩
/-- R317 -/
def TRF_GATE_GUARD : RegDesc :=
  ⟨.bar0, 0x808008, 1, 0x0, 1, 0x0, 1, 0x0, false, [⟨16, 16, .ro, 1200⟩, ⟨0, 16, .rw, 1200⟩]⟩
/-- R317 -/
def TRF_GATE_ORIGIN : RegDesc :=
  ⟨.bar0, 0x808010, 1, 0x0, 1, 0x0, 1, 0x0, true, [⟨0, 64, .ro, 0⟩]⟩
/-- R317 -/
def TRF_GATE_LATOK : RegDesc :=
  ⟨.bar0, 0x808018, 1, 0x0, 1, 0x0, 1, 0x0, true, [⟨0, 64, .ro, 0⟩]⟩
/-- R317 -/
def TRF_GATE_SLOT : RegDesc :=
  ⟨.bar0, 0x808100, 64, 0x8, 1, 0x0, 1, 0x0, true, [⟨48, 16, .rw, 0⟩, ⟨32, 16, .rw, 0⟩, ⟨0, 21, .rw, 0⟩]⟩
/-- R317 -/
def TRF_GATE_ACT : RegDesc :=
  ⟨.bar0, 0x808400, 64, 0x8, 1, 0x0, 1, 0x0, true, [⟨48, 16, .ro, 0⟩, ⟨32, 16, .ro, 0⟩, ⟨0, 21, .ro, 0⟩]⟩
/-- R318 -/
def TRF_HIST_CTL : RegDesc :=
  ⟨.bar0, 0x809000, 1, 0x0, 1, 0x0, 1, 0x0, false, [⟨31, 1, .rw, 1⟩, ⟨30, 1, .wo, 0⟩]⟩
/-- R318 -/
def TRF_DEP : RegDesc :=
  ⟨.bar0, 0x900000, 12, 0x2000, 40, 0x80, 16, 0x4, false, [⟨0, 32, .rc, 0⟩]⟩
/-- R318 -/
def TRF_DLY : RegDesc :=
  ⟨.bar0, 0x900040, 12, 0x2000, 40, 0x80, 16, 0x4, false, [⟨0, 32, .rc, 0⟩]⟩
/-- R367 -/
def LNT_CTL : RegDesc :=
  ⟨.bar0, 0x1060000, 12, 0x100000, 1, 0x0, 1, 0x0, false, [⟨31, 1, .rw, 0⟩, ⟨30, 1, .ro, 0⟩]⟩
/-- R368 -/
def LNT_STATUS : RegDesc :=
  ⟨.bar0, 0x1060004, 12, 0x100000, 1, 0x0, 1, 0x0, false, [⟨26, 6, .ro, 48⟩, ⟨23, 3, .ro, 4⟩, ⟨20, 3, .ro, 0⟩, ⟨14, 6, .ro, 0⟩, ⟨0, 8, .ro, 0⟩]⟩
/-- R368 -/
def LNT_ARRAY : RegDesc :=
  ⟨.bar0, 0x1060100, 12, 0x100000, 52, 0x4, 1, 0x0, false, [⟨29, 3, .ro, 0⟩, ⟨23, 6, .ro, 0⟩, ⟨20, 3, .ro, 0⟩, ⟨19, 1, .ro, 0⟩, ⟨0, 16, .rc, 0⟩]⟩
/-- R368 -/
def LNT_CTX : RegDesc :=
  ⟨.bar0, 0x1060400, 12, 0x100000, 8, 0x40, 1, 0x0, false, [⟨29, 3, .ro, 0⟩, ⟨21, 8, .ro, 0⟩, ⟨0, 13, .ro, 0⟩]⟩
/-- R368 -/
def LNT_CTX_JOB : RegDesc :=
  ⟨.bar0, 0x1060404, 12, 0x100000, 8, 0x40, 1, 0x0, false, [⟨16, 16, .ro, 0⟩, ⟨0, 16, .ro, 0⟩]⟩
/-- R368 -/
def LNT_CTX_SEED : RegDesc :=
  ⟨.bar0, 0x1060408, 12, 0x100000, 8, 0x40, 1, 0x0, true, [⟨0, 64, .ro, 0⟩]⟩
/-- R368 -/
def LNT_CTX_STORE : RegDesc :=
  ⟨.bar0, 0x1060410, 12, 0x100000, 8, 0x40, 1, 0x0, false, [⟨0, 12, .ro, 0⟩]⟩
/-- R368 -/
def LNT_JRNL : RegDesc :=
  ⟨.bar0, 0x1060800, 12, 0x100000, 1, 0x0, 1, 0x0, true, [⟨32, 32, .ro, 0⟩, ⟨0, 21, .ro, 0⟩]⟩
/-- R368 -/
def LNT_JRNL_OLDEST : RegDesc :=
  ⟨.bar0, 0x1060808, 12, 0x100000, 1, 0x0, 1, 0x0, true, [⟨0, 64, .ro, 0⟩]⟩
/-- R368 -/
def LNT_MEMIF : RegDesc :=
  ⟨.bar0, 0x1060810, 12, 0x100000, 1, 0x0, 1, 0x0, false, [⟨16, 13, .ro, 0⟩, ⟨0, 13, .ro, 0⟩]⟩
/-- R368 -/
def LNT_STOREERR : RegDesc :=
  ⟨.bar0, 0x1060820, 12, 0x100000, 1, 0x0, 1, 0x0, false, [⟨16, 16, .rc, 0⟩, ⟨0, 16, .rc, 0⟩]⟩
/-- R510 -/
def POSY_CFG : RegDesc :=
  ⟨.bar0, 0x1080000, 12, 0x100000, 1, 0x0, 1, 0x0, false, [⟨23, 9, .rw, 128⟩, ⟨0, 20, .rw, 10000⟩]⟩
/-- R511 -/
def POSY_STATUS : RegDesc :=
  ⟨.bar0, 0x1080004, 12, 0x100000, 1, 0x0, 1, 0x0, false, [⟨22, 10, .ro, 0⟩, ⟨12, 10, .ro, 0⟩, ⟨0, 7, .ro, 0⟩]⟩
/-- R511 -/
def POSY_STAT0 : RegDesc :=
  ⟨.bar0, 0x1080008, 12, 0x100000, 1, 0x0, 1, 0x0, false, [⟨16, 16, .rc, 0⟩, ⟨0, 16, .rc, 0⟩]⟩
/-- R511 -/
def POSY_STAT1 : RegDesc :=
  ⟨.bar0, 0x108000C, 12, 0x100000, 1, 0x0, 1, 0x0, false, [⟨16, 16, .rc, 0⟩, ⟨8, 8, .rc, 0⟩, ⟨0, 8, .rc, 0⟩]⟩
/-- R511 -/
def POSY_TAKEN : RegDesc :=
  ⟨.bar0, 0x1080010, 12, 0x100000, 1, 0x0, 1, 0x0, true, [⟨0, 48, .ro, 0⟩]⟩
/-- R511 -/
def POSY_ENTRY_KEY : RegDesc :=
  ⟨.bar0, 0x1081000, 12, 0x100000, 512, 0x10, 1, 0x0, true, [⟨48, 16, .ro, 0⟩, ⟨46, 2, .ro, 0⟩, ⟨45, 1, .ro, 0⟩, ⟨0, 34, .ro, 0⟩]⟩
/-- R511 -/
def POSY_ENTRY_STAT : RegDesc :=
  ⟨.bar0, 0x1081008, 12, 0x100000, 512, 0x10, 1, 0x0, true, [⟨62, 2, .ro, 0⟩, ⟨61, 1, .ro, 0⟩, ⟨60, 1, .ro, 0⟩, ⟨59, 1, .ro, 0⟩, ⟨32, 16, .ro, 0⟩, ⟨16, 16, .ro, 0⟩]⟩
/-- R550 -/
def GLOBAL_STATE : RegDesc :=
  ⟨.bar0, 0x30, 1, 0x0, 1, 0x0, 1, 0x0, false, [⟨30, 2, .ro, 0⟩]⟩
/-- R550 -/
def GLOBAL_IFVER : RegDesc :=
  ⟨.bar0, 0x34, 1, 0x0, 1, 0x0, 1, 0x0, false, [⟨8, 8, .ro, 0⟩, ⟨0, 8, .ro, 0⟩]⟩
/-- R550 -/
def GLOBAL_DRVVER : RegDesc :=
  ⟨.bar0, 0x38, 1, 0x0, 1, 0x0, 1, 0x0, false, [⟨8, 8, .rw, 0⟩, ⟨0, 8, .rw, 0⟩]⟩
/-- R550 -/
def GLOBAL_HBEAT : RegDesc :=
  ⟨.bar0, 0x3C, 1, 0x0, 1, 0x0, 1, 0x0, false, [⟨0, 32, .rw, 0⟩]⟩
/-- R550 -/
def RINGS_HOST : RegDesc :=
  ⟨.bar0, 0x2100000, 1, 0x0, 1, 0x0, 1, 0x0, false, [⟨16, 14, .rw, 250⟩, ⟨0, 10, .rw, 20⟩]⟩
/-- R551 -/
def RING_STATE : RegDesc :=
  ⟨.bar0, 0x2000000, 8192, 0x40, 1, 0x0, 1, 0x0, false, [⟨29, 3, .ro, 0⟩, ⟨25, 4, .ro, 0⟩, ⟨17, 8, .ro, 0⟩, ⟨10, 7, .ro, 0⟩, ⟨8, 1, .ro, 0⟩, ⟨0, 7, .ro, 0⟩]⟩
/-- R551 -/
def RING_CFG : RegDesc :=
  ⟨.bar0, 0x2000004, 8192, 0x40, 1, 0x0, 1, 0x0, false, [⟨0, 7, .rw, 8⟩]⟩
/-- R552 -/
def RING_PTRS : RegDesc :=
  ⟨.bar0, 0x2000008, 8192, 0x40, 1, 0x0, 1, 0x0, true, [⟨48, 16, .ro, 0⟩, ⟨32, 16, .ro, 0⟩, ⟨16, 16, .ro, 0⟩, ⟨0, 16, .ro, 0⟩]⟩
/-- R552 -/
def RING_JOBS : RegDesc :=
  ⟨.bar0, 0x2000010, 8192, 0x40, 1, 0x0, 1, 0x0, true, [⟨0, 64, .ro, 0⟩]⟩
/-- R552 -/
def RING_ERR : RegDesc :=
  ⟨.bar0, 0x2000018, 8192, 0x40, 1, 0x0, 1, 0x0, false, [⟨16, 16, .rc, 0⟩, ⟨8, 8, .rc, 0⟩, ⟨0, 1, .rw1c, 0⟩]⟩
/-- R552 -/
def RING_LAST : RegDesc :=
  ⟨.bar0, 0x2000020, 8192, 0x40, 1, 0x0, 1, 0x0, true, [⟨0, 64, .ro, 0⟩]⟩
/-- R552 -/
def FN_SQDB : RegDesc :=
  ⟨.fnPage, 0x0, 128, 0x0, 64, 0x8, 1, 0x0, false, [⟨0, 16, .rw, 0⟩]⟩
/-- R552 -/
def FN_CQDB : RegDesc :=
  ⟨.fnPage, 0x4, 128, 0x0, 64, 0x8, 1, 0x0, false, [⟨0, 16, .rw, 0⟩]⟩
/-- R552 -/
def FN_RINGCTL : RegDesc :=
  ⟨.fnPage, 0x800, 128, 0x0, 64, 0x4, 1, 0x0, false, [⟨29, 3, .ro, 0⟩, ⟨25, 2, .wo, 0⟩, ⟨24, 1, .rw, 0⟩, ⟨16, 6, .rw, 0⟩, ⟨0, 16, .ro, 0⟩]⟩
/-- R553 -/
def FN_STATUS : RegDesc :=
  ⟨.fnPage, 0x1000, 128, 0x0, 1, 0x0, 1, 0x0, false, [⟨30, 2, .ro, 0⟩, ⟨28, 2, .ro, 0⟩, ⟨24, 4, .ro, 0⟩, ⟨23, 1, .ro, 0⟩]⟩
/-- R515 -/
def FN_DRVVER : RegDesc :=
  ⟨.fnPage, 0x1004, 128, 0x0, 1, 0x0, 1, 0x0, false, [⟨8, 8, .rw, 0⟩, ⟨0, 8, .rw, 0⟩]⟩
/-- R515 -/
def FN_TS : RegDesc :=
  ⟨.fnPage, 0x1008, 128, 0x0, 1, 0x0, 1, 0x0, true, [⟨0, 64, .ro, 0⟩]⟩
/-- R553 -/
def FN_HWIN_BASE : RegDesc :=
  ⟨.fnPage, 0x1010, 128, 0x0, 1, 0x0, 1, 0x0, true, [⟨12, 52, .rw, 0⟩]⟩
/-- R553 -/
def FN_HWIN_SIZE : RegDesc :=
  ⟨.fnPage, 0x1018, 128, 0x0, 1, 0x0, 1, 0x0, false, [⟨0, 32, .rw, 0⟩]⟩
/-- R554 -/
def FN_MEMERR : RegDesc :=
  ⟨.fnPage, 0x1020, 128, 0x0, 1, 0x0, 1, 0x0, false, [⟨28, 4, .ro, 0⟩, ⟨0, 16, .rc, 0⟩]⟩
/-- R554 -/
def FN_CFG : RegDesc :=
  ⟨.fnPage, 0x1024, 128, 0x0, 1, 0x0, 1, 0x0, false, [⟨0, 1, .rw, 0⟩]⟩
/-- R515 -/
def FN_MSIX_ADDR : RegDesc :=
  ⟨.fnPage, 0x2000, 128, 0x0, 64, 0x10, 1, 0x0, true, [⟨0, 64, .rw, 0⟩]⟩
/-- R515 -/
def FN_MSIX_DATA : RegDesc :=
  ⟨.fnPage, 0x2008, 128, 0x0, 64, 0x10, 1, 0x0, false, [⟨0, 32, .rw, 0⟩]⟩
/-- R515 -/
def FN_MSIX_CTL : RegDesc :=
  ⟨.fnPage, 0x200C, 128, 0x0, 64, 0x10, 1, 0x0, false, [⟨0, 1, .rw, 1⟩]⟩
/-- R515 -/
def FN_MSIX_PBA : RegDesc :=
  ⟨.fnPage, 0x3000, 128, 0x0, 1, 0x0, 1, 0x0, true, [⟨0, 64, .ro, 0⟩]⟩
/-- R605 -/
def MBX_CTL : RegDesc :=
  ⟨.mbx, 0x0, 128, 0x0, 1, 0x0, 1, 0x0, false, [⟨31, 1, .wo, 0⟩, ⟨0, 11, .rw, 0⟩]⟩
/-- R605 -/
def MBX_STATUS : RegDesc :=
  ⟨.mbx, 0x4, 128, 0x0, 1, 0x0, 1, 0x0, false, [⟨31, 1, .ro, 0⟩, ⟨30, 1, .rw1c, 0⟩, ⟨8, 11, .ro, 0⟩, ⟨0, 8, .ro, 0⟩]⟩
/-- R808 -/
def SEC_STATUS : RegDesc :=
  ⟨.bar0, 0x2801000, 1, 0x0, 1, 0x0, 1, 0x0, false, [⟨30, 2, .ro, 0⟩, ⟨22, 7, .ro, 0⟩, ⟨0, 16, .rc, 0⟩]⟩
/-- R808 -/
def SEC_ROT : RegDesc :=
  ⟨.bar0, 0x2801008, 1, 0x0, 1, 0x0, 1, 0x0, true, [⟨63, 1, .ro, 0⟩, ⟨48, 9, .ro, 0⟩, ⟨32, 12, .ro, 0⟩, ⟨0, 13, .ro, 0⟩]⟩
/-- R808 -/
def SEC_SLOT : RegDesc :=
  ⟨.bar0, 0x2820000, 272, 0x4, 1, 0x0, 1, 0x0, false, [⟨29, 3, .ro, 0⟩, ⟨28, 1, .ro, 0⟩, ⟨20, 8, .ro, 0⟩, ⟨0, 12, .ro, 0⟩]⟩
/-- R808 -/
def SEC_BIND : RegDesc :=
  ⟨.bar0, 0x2830000, 256, 0x4, 1, 0x0, 1, 0x0, false, [⟨31, 1, .ro, 0⟩, ⟨30, 1, .ro, 0⟩, ⟨8, 8, .ro, 0⟩, ⟨0, 8, .ro, 0⟩]⟩
/-- R808 -/
def SEC_SESS : RegDesc :=
  ⟨.bar0, 0x2840000, 64, 0x8, 1, 0x0, 1, 0x0, true, [⟨63, 1, .ro, 0⟩, ⟨55, 8, .ro, 0⟩, ⟨48, 7, .ro, 0⟩, ⟨0, 32, .ro, 0⟩]⟩
/-- R808 -/
def SEC_TENANT : RegDesc :=
  ⟨.bar0, 0x2850000, 256, 0x4, 1, 0x0, 1, 0x0, false, [⟨31, 1, .ro, 0⟩, ⟨28, 3, .ro, 0⟩, ⟨24, 4, .ro, 0⟩, ⟨12, 12, .ro, 0⟩]⟩
/-- R606 -/
def AUDIT_SEQ : RegDesc :=
  ⟨.bar0, 0x2810000, 1, 0x0, 1, 0x0, 1, 0x0, true, [⟨0, 64, .ro, 0⟩]⟩
/-- R606 -/
def AUDIT_ACK : RegDesc :=
  ⟨.bar0, 0x2810008, 1, 0x0, 1, 0x0, 1, 0x0, true, [⟨0, 64, .rw, 0⟩]⟩
/-- R606 -/
def AUDIT_CFG : RegDesc :=
  ⟨.bar0, 0x2810010, 1, 0x0, 1, 0x0, 1, 0x0, false, [⟨0, 21, .rw, 1835008⟩]⟩
/-- R606 -/
def AUDIT_LOST : RegDesc :=
  ⟨.bar0, 0x2810014, 1, 0x0, 1, 0x0, 1, 0x0, false, [⟨0, 32, .rc, 0⟩]⟩
/-- R606 -/
def AUDIT_HEAD : RegDesc :=
  ⟨.bar0, 0x2810020, 6, 0x8, 1, 0x0, 1, 0x0, true, [⟨0, 64, .ro, 0⟩]⟩
/-- R648 -/
def RAS_CFG : RegDesc :=
  ⟨.bar0, 0x2C00000, 1, 0x0, 1, 0x0, 1, 0x0, false, [⟨31, 1, .rw, 1⟩, ⟨28, 3, .rw, 0⟩, ⟨16, 8, .rw, 24⟩, ⟨0, 4, .rw, 5⟩]⟩
/-- R649 -/
def RAS_CLASS : RegDesc :=
  ⟨.bar0, 0x2C00010, 6, 0x4, 1, 0x0, 1, 0x0, false, [⟨31, 1, .rw, 0⟩, ⟨16, 8, .rw, 0⟩, ⟨0, 16, .rw, 0⟩]⟩
/-- R650 -/
def RAS_RECHEAD : RegDesc :=
  ⟨.bar0, 0x2C00100, 1, 0x0, 1, 0x0, 1, 0x0, true, [⟨0, 64, .ro, 0⟩]⟩
/-- R650 -/
def RAS_RECACK : RegDesc :=
  ⟨.bar0, 0x2C00108, 1, 0x0, 1, 0x0, 1, 0x0, true, [⟨0, 64, .rw, 0⟩]⟩
/-- R651 -/
def RAS_RECLOST : RegDesc :=
  ⟨.bar0, 0x2C00110, 1, 0x0, 1, 0x0, 1, 0x0, false, [⟨0, 32, .rc, 0⟩]⟩
/-- R651 -/
def RAS_CNT : RegDesc :=
  ⟨.bar0, 0x2C01000, 12, 0x10, 1, 0x0, 1, 0x0, true, [⟨32, 32, .rc, 0⟩, ⟨16, 16, .rc, 0⟩, ⟨0, 16, .rc, 0⟩]⟩
/-- R651 -/
def RAS_CNT2 : RegDesc :=
  ⟨.bar0, 0x2C01008, 12, 0x10, 1, 0x0, 1, 0x0, true, [⟨32, 32, .rc, 0⟩, ⟨16, 16, .rc, 0⟩, ⟨0, 16, .rc, 0⟩]⟩
/-- R651 -/
def RAS_FRZ : RegDesc :=
  ⟨.bar0, 0x2C02000, 12, 0x10, 1, 0x0, 1, 0x0, true, [⟨0, 64, .ro, 0⟩]⟩
/-- R651 -/
def RAS_FRZCTL : RegDesc :=
  ⟨.bar0, 0x2C02008, 12, 0x10, 1, 0x0, 1, 0x0, false, [⟨31, 1, .ro, 0⟩, ⟨28, 3, .ro, 0⟩, ⟨26, 2, .wo, 0⟩, ⟨0, 6, .rw, 0⟩]⟩
/-- R651 -/
def RAS_MIGCTL : RegDesc :=
  ⟨.bar0, 0x2C03000, 12, 0x10, 1, 0x0, 1, 0x0, false, [⟨31, 1, .ro, 0⟩, ⟨28, 2, .wo, 0⟩, ⟨16, 6, .rw, 0⟩, ⟨10, 3, .ro, 0⟩]⟩
/-- R652 -/
def RAS_HISTCTL : RegDesc :=
  ⟨.bar0, 0x2C04000, 1, 0x0, 1, 0x0, 1, 0x0, false, [⟨31, 1, .ro, 0⟩, ⟨30, 1, .ro, 0⟩, ⟨0, 20, .rw, 0⟩]⟩
/-- R681 -/
def RAS_SECFG : RegDesc :=
  ⟨.bar0, 0x2C05000, 1, 0x0, 1, 0x0, 1, 0x0, false, [⟨31, 1, .rw, 0⟩, ⟨28, 3, .rw, 1⟩, ⟨24, 4, .rwl, 4⟩, ⟨16, 8, .rw, 16⟩, ⟨12, 4, .rw, 8⟩, ⟨0, 12, .rw, 1000⟩]⟩
/-- R682 -/
def RAS_MGCTL : RegDesc :=
  ⟨.bar0, 0x2C05004, 1, 0x0, 1, 0x0, 1, 0x0, false, [⟨31, 1, .ro, 0⟩, ⟨30, 1, .ro, 0⟩, ⟨29, 1, .rw1c, 0⟩, ⟨28, 1, .wo, 0⟩, ⟨27, 1, .wo, 0⟩, ⟨12, 4, .rw, 15⟩, ⟨0, 8, .rw, 16⟩]⟩
/-- R682 -/
def RAS_MGSEED : RegDesc :=
  ⟨.bar0, 0x2C05008, 1, 0x0, 1, 0x0, 1, 0x0, true, [⟨0, 64, .rw, 0⟩]⟩
/-- R682 -/
def RAS_MGROUND : RegDesc :=
  ⟨.bar0, 0x2C05010, 1, 0x0, 1, 0x0, 1, 0x0, false, [⟨0, 32, .ro, 0⟩]⟩
/-- R682 -/
def RAS_MGSTEP : RegDesc :=
  ⟨.bar0, 0x2C05018, 1, 0x0, 1, 0x0, 1, 0x0, true, [⟨0, 64, .ro, 0⟩]⟩
/-- R682 -/
def RAS_MGSTEP_PREV : RegDesc :=
  ⟨.bar0, 0x2C05020, 1, 0x0, 1, 0x0, 1, 0x0, true, [⟨0, 64, .ro, 0⟩]⟩
/-- R682 -/
def RAS_MGSTAT : RegDesc :=
  ⟨.bar0, 0x2C05028, 1, 0x0, 1, 0x0, 1, 0x0, false, [⟨24, 8, .rc, 0⟩, ⟨0, 12, .ro, 0⟩]⟩
/-- R682 -/
def RAS_MGDIG : RegDesc :=
  ⟨.bar0, 0x2C05100, 12, 0x8, 1, 0x0, 1, 0x0, true, [⟨0, 64, .ro, 0⟩]⟩
/-- R682 -/
def RAS_FENCE : RegDesc :=
  ⟨.bar0, 0x2C05200, 12, 0x10, 1, 0x0, 1, 0x0, true, [⟨63, 1, .ro, 0⟩, ⟨0, 52, .ro, 0⟩]⟩
/-- R682 -/
def RAS_FENCECTL : RegDesc :=
  ⟨.bar0, 0x2C05208, 12, 0x10, 1, 0x0, 1, 0x0, false, [⟨31, 1, .ro, 0⟩, ⟨28, 3, .ro, 0⟩, ⟨26, 2, .wo, 0⟩, ⟨0, 6, .rw, 0⟩]⟩
/-- R682 -/
def RAS_SECNT : RegDesc :=
  ⟨.bar0, 0x2C05400, 12, 0x10, 1, 0x0, 1, 0x0, true, [⟨48, 16, .rc, 0⟩, ⟨32, 16, .rc, 0⟩, ⟨16, 16, .rc, 0⟩, ⟨0, 16, .rc, 0⟩]⟩
/-- R682 -/
def RAS_SECNT2 : RegDesc :=
  ⟨.bar0, 0x2C05408, 12, 0x10, 1, 0x0, 1, 0x0, true, [⟨48, 16, .rc, 0⟩, ⟨32, 16, .rc, 0⟩, ⟨16, 16, .rc, 0⟩, ⟨0, 16, .rc, 0⟩]⟩
/-- R719 -/
def FW_STATE : RegDesc :=
  ⟨.bar0, 0x3400000, 15, 0x100, 1, 0x0, 1, 0x0, false, [⟨29, 3, .ro, 0⟩, ⟨0, 16, .rc, 0⟩]⟩
/-- R719 -/
def FW_VER : RegDesc :=
  ⟨.bar0, 0x3400004, 15, 0x100, 1, 0x0, 1, 0x0, false, [⟨24, 8, .ro, 0⟩, ⟨16, 8, .ro, 0⟩, ⟨0, 16, .ro, 0⟩]⟩
/-- R719 -/
def FW_BUILD : RegDesc :=
  ⟨.bar0, 0x3400008, 15, 0x100, 1, 0x0, 1, 0x0, false, [⟨0, 32, .ro, 0⟩]⟩
/-- R719 -/
def FW_SVN : RegDesc :=
  ⟨.bar0, 0x340000C, 15, 0x100, 1, 0x0, 1, 0x0, false, [⟨16, 16, .ro, 0⟩, ⟨0, 16, .ro, 0⟩]⟩
/-- R719 -/
def FW_DIGEST : RegDesc :=
  ⟨.bar0, 0x3400010, 15, 0x100, 6, 0x8, 1, 0x0, true, [⟨0, 64, .ro, 0⟩]⟩
/-- R719 -/
def FW_CTL : RegDesc :=
  ⟨.bar0, 0x3400040, 15, 0x100, 1, 0x0, 1, 0x0, false, [⟨31, 1, .wo, 0⟩, ⟨0, 10, .rw, 50⟩]⟩
/-- R719 -/
def FW_LASTCAUSE : RegDesc :=
  ⟨.bar0, 0x3400044, 15, 0x100, 1, 0x0, 1, 0x0, false, [⟨29, 3, .ro, 0⟩]⟩
/-- R719 -/
def FW_LASTSTAMP : RegDesc :=
  ⟨.bar0, 0x3400048, 15, 0x100, 1, 0x0, 1, 0x0, true, [⟨0, 64, .ro, 0⟩]⟩
/-- R719 -/
def FW_BOOT : RegDesc :=
  ⟨.bar0, 0x3401000, 1, 0x0, 1, 0x0, 1, 0x0, false, [⟨30, 2, .ro, 0⟩, ⟨29, 1, .ro, 0⟩, ⟨28, 1, .ro, 0⟩, ⟨24, 4, .ro, 0⟩, ⟨16, 8, .ro, 0⟩, ⟨0, 16, .ro, 0⟩]⟩
/-- R719 -/
def FW_UPDCTL : RegDesc :=
  ⟨.bar0, 0x3401010, 1, 0x0, 1, 0x0, 1, 0x0, false, [⟨31, 1, .wo, 0⟩, ⟨30, 1, .wo, 0⟩, ⟨0, 15, .rw, 32767⟩]⟩
/-- R719 -/
def FW_UPDSTAT : RegDesc :=
  ⟨.bar0, 0x3401014, 1, 0x0, 1, 0x0, 1, 0x0, false, [⟨28, 4, .ro, 0⟩, ⟨24, 4, .ro, 0⟩, ⟨0, 4, .ro, 0⟩]⟩
/-- R719 -/
def FW_EVT : RegDesc :=
  ⟨.bar0, 0x3401020, 1, 0x0, 1, 0x0, 1, 0x0, false, [⟨4, 1, .rw1c, 0⟩, ⟨3, 1, .rw1c, 0⟩, ⟨2, 1, .rw1c, 0⟩, ⟨1, 1, .rw1c, 0⟩, ⟨0, 1, .rw1c, 0⟩]⟩
/-- R751 -/
def PM_STATUS : RegDesc :=
  ⟨.bar0, 0x3000000, 1, 0x0, 1, 0x0, 1, 0x0, false, [⟨31, 1, .ro, 0⟩, ⟨0, 16, .ro, 0⟩]⟩
/-- R751 -/
def PM_FAULT : RegDesc :=
  ⟨.bar0, 0x3000008, 1, 0x0, 1, 0x0, 1, 0x0, true, [⟨0, 50, .rw1c, 0⟩]⟩
/-- R751 -/
def PM_RAIL_CFG : RegDesc :=
  ⟨.bar0, 0x3000100, 50, 0x10, 1, 0x0, 1, 0x0, false, [⟨31, 1, .ro, 0⟩, ⟨24, 7, .ro, 0⟩, ⟨0, 16, .rw, 0⟩]⟩
/-- R751 -/
def PM_RAIL_MEAS : RegDesc :=
  ⟨.bar0, 0x3000104, 50, 0x10, 1, 0x0, 1, 0x0, false, [⟨16, 16, .ro, 0⟩, ⟨0, 16, .ro, 0⟩]⟩
/-- R751 -/
def THM_CFG : RegDesc :=
  ⟨.bar0, 0x3010000, 1, 0x0, 1, 0x0, 1, 0x0, false, [⟨8, 8, .rw, 1⟩, ⟨0, 7, .rw, 10⟩]⟩
/-- R751 -/
def THM_STATUS : RegDesc :=
  ⟨.bar0, 0x3010004, 1, 0x0, 1, 0x0, 1, 0x0, false, [⟨30, 2, .ro, 0⟩, ⟨28, 2, .ro, 0⟩, ⟨27, 1, .ro, 0⟩, ⟨8, 6, .ro, 0⟩, ⟨0, 7, .ro, 0⟩]⟩
/-- R751 -/
def THM_EVT : RegDesc :=
  ⟨.bar0, 0x3010008, 1, 0x0, 1, 0x0, 1, 0x0, false, [⟨2, 1, .rw1c, 0⟩, ⟨1, 1, .rw1c, 0⟩, ⟨0, 1, .rw1c, 0⟩]⟩
/-- R751 -/
def THM_SENS_CFG : RegDesc :=
  ⟨.bar0, 0x3010100, 44, 0x10, 1, 0x0, 1, 0x0, false, [⟨30, 2, .rw, 0⟩, ⟨16, 14, .rw, 3435⟩, ⟨0, 16, .rw, 16515⟩]⟩
/-- R751 -/
def THM_SENS_THR : RegDesc :=
  ⟨.bar0, 0x3010104, 44, 0x10, 1, 0x0, 1, 0x0, false, [⟨16, 8, .rw, 105⟩, ⟨8, 8, .rw, 95⟩, ⟨0, 8, .rw, 88⟩]⟩
/-- R751 -/
def THM_SENS_HYS : RegDesc :=
  ⟨.bar0, 0x3010108, 44, 0x10, 1, 0x0, 1, 0x0, false, [⟨8, 4, .rw, 15⟩, ⟨4, 4, .rw, 4⟩, ⟨0, 4, .rw, 3⟩]⟩
/-- R751 -/
def THM_SENS_READ : RegDesc :=
  ⟨.bar0, 0x301010C, 44, 0x10, 1, 0x0, 1, 0x0, false, [⟨31, 1, .ro, 0⟩, ⟨29, 2, .ro, 0⟩, ⟨0, 16, .ro, 0⟩]⟩
/-- R751 -/
def HK_ROUND : RegDesc :=
  ⟨.bar0, 0x3011000, 1, 0x0, 1, 0x0, 1, 0x0, true, [⟨0, 64, .ro, 0⟩]⟩
/-- R751 -/
def HK_CH : RegDesc :=
  ⟨.bar0, 0x3011100, 64, 0x4, 1, 0x0, 1, 0x0, false, [⟨0, 16, .ro, 0⟩]⟩
/-- R751 -/
def SNF_LOCK : RegDesc :=
  ⟨.bar0, 0x3020000, 1, 0x0, 1, 0x0, 1, 0x0, false, [⟨0, 1, .rwl, 0⟩]⟩
/-- R751 -/
def SNF_VLOGIC : RegDesc :=
  ⟨.bar0, 0x3020004, 1, 0x0, 1, 0x0, 1, 0x0, false, [⟨16, 16, .rwl, 800⟩, ⟨0, 16, .rwl, 700⟩]⟩
/-- R751 -/
def SNF_VNMC : RegDesc :=
  ⟨.bar0, 0x3020008, 1, 0x0, 1, 0x0, 1, 0x0, false, [⟨16, 16, .rwl, 850⟩, ⟨0, 16, .rwl, 650⟩]⟩
/-- R751 -/
def SNF_VPHY : RegDesc :=
  ⟨.bar0, 0x302000C, 1, 0x0, 1, 0x0, 1, 0x0, false, [⟨16, 16, .rwl, 780⟩, ⟨0, 16, .rwl, 720⟩]⟩
/-- R751 -/
def SNF_MISC : RegDesc :=
  ⟨.bar0, 0x3020010, 1, 0x0, 1, 0x0, 1, 0x0, false, [⟨24, 8, .rwl, 5⟩, ⟨16, 8, .rwl, 8⟩, ⟨0, 16, .rwl, 300⟩]⟩
/-- R751 -/
def SNF_IMAX : RegDesc :=
  ⟨.bar0, 0x3020014, 1, 0x0, 1, 0x0, 1, 0x0, false, [⟨22, 10, .rwl, 150⟩, ⟨12, 10, .rwl, 180⟩, ⟨0, 10, .rwl, 120⟩]⟩
/-- R751 -/
def SNF_IMAX_STK : RegDesc :=
  ⟨.bar0, 0x3020020, 1, 0x0, 1, 0x0, 1, 0x0, false, [⟨20, 10, .rwl, 320⟩, ⟨10, 10, .rwl, 240⟩, ⟨0, 10, .rwl, 40⟩]⟩
/-- R751 -/
def SNF_TCEIL : RegDesc :=
  ⟨.bar0, 0x3020018, 1, 0x0, 1, 0x0, 1, 0x0, false, [⟨24, 8, .rwl, 105⟩, ⟨16, 8, .rwl, 100⟩, ⟨8, 8, .rwl, 100⟩, ⟨0, 8, .rwl, 10⟩]⟩
/-- R751 -/
def SNF_STAT : RegDesc :=
  ⟨.bar0, 0x302001C, 1, 0x0, 1, 0x0, 1, 0x0, false, [⟨31, 1, .ro, 0⟩, ⟨30, 1, .ro, 0⟩, ⟨0, 16, .rc, 0⟩]⟩
/-- R782 -/
def MIR_PAIR : RegDesc :=
  ⟨.bar0, 0x3800000, 1, 0x0, 1, 0x0, 1, 0x0, false, [⟨29, 3, .ro, 0⟩, ⟨26, 3, .ro, 0⟩, ⟨24, 2, .wo, 0⟩, ⟨0, 8, .ro, 0⟩]⟩
/-- R782 -/
def MIR_CFG : RegDesc :=
  ⟨.bar0, 0x3800004, 1, 0x0, 1, 0x0, 1, 0x0, false, [⟨16, 4, .rw, 2⟩, ⟨0, 16, .rw, 1000⟩]⟩
/-- R782 -/
def MIR_PORT : RegDesc :=
  ⟨.bar0, 0x3800010, 2, 0x4, 1, 0x0, 1, 0x0, false, [⟨31, 1, .ro, 0⟩, ⟨28, 3, .ro, 0⟩, ⟨25, 3, .ro, 0⟩]⟩
/-- R782 -/
def MIR_PEER : RegDesc :=
  ⟨.bar0, 0x3800020, 6, 0x8, 1, 0x0, 1, 0x0, true, [⟨0, 64, .rw, 0⟩]⟩
/-- R782 -/
def MIR_WCTL : RegDesc :=
  ⟨.bar0, 0x3800100, 1, 0x0, 1, 0x0, 1, 0x0, false, [⟨31, 1, .wo, 0⟩, ⟨30, 1, .ro, 0⟩, ⟨29, 1, .rw1c, 0⟩, ⟨0, 16, .ro, 0⟩]⟩
/-- R782 -/
def MIR_PEPOCH : RegDesc :=
  ⟨.bar0, 0x3800104, 1, 0x0, 1, 0x0, 1, 0x0, false, [⟨0, 16, .ro, 0⟩]⟩
/-- R782 -/
def MIR_ACKTS : RegDesc :=
  ⟨.bar0, 0x3800108, 1, 0x0, 1, 0x0, 1, 0x0, true, [⟨0, 64, .ro, 0⟩]⟩
/-- R782 -/
def MIR_TSOFF : RegDesc :=
  ⟨.bar0, 0x3800110, 1, 0x0, 1, 0x0, 1, 0x0, true, [⟨0, 64, .ro, 0⟩]⟩
/-- R782 -/
def MIR_TSERR : RegDesc :=
  ⟨.bar0, 0x3800118, 1, 0x0, 1, 0x0, 1, 0x0, true, [⟨0, 64, .ro, 0⟩]⟩
/-- R782 -/
def MIR_PSEQ : RegDesc :=
  ⟨.bar0, 0x3800128, 1, 0x0, 1, 0x0, 1, 0x0, true, [⟨0, 64, .ro, 0⟩]⟩
/-- R782 -/
def MIR_STAT : RegDesc :=
  ⟨.bar0, 0x3800120, 1, 0x0, 1, 0x0, 1, 0x0, false, [⟨24, 8, .rc, 0⟩, ⟨8, 16, .rc, 0⟩, ⟨0, 8, .rc, 0⟩]⟩
/-- R782 -/
def MIR_PHEAD : RegDesc :=
  ⟨.bar0, 0x3800130, 6, 0x8, 1, 0x0, 1, 0x0, true, [⟨0, 64, .ro, 0⟩]⟩
/-- R782 -/
def MIR_WIN_BASE : RegDesc :=
  ⟨.bar0, 0x3801000, 16, 0x20, 1, 0x0, 1, 0x0, true, [⟨16, 24, .rw, 0⟩]⟩
/-- R782 -/
def MIR_WIN_PBASE : RegDesc :=
  ⟨.bar0, 0x3801008, 16, 0x20, 1, 0x0, 1, 0x0, true, [⟨16, 24, .rw, 0⟩]⟩
/-- R782 -/
def MIR_WIN_SIZE : RegDesc :=
  ⟨.bar0, 0x3801010, 16, 0x20, 1, 0x0, 1, 0x0, false, [⟨0, 24, .rw, 0⟩]⟩
/-- R782 -/
def MIR_WIN_CTL : RegDesc :=
  ⟨.bar0, 0x3801014, 16, 0x20, 1, 0x0, 1, 0x0, false, [⟨31, 1, .rw, 0⟩, ⟨30, 1, .rw, 0⟩, ⟨27, 3, .ro, 0⟩]⟩
/-- R782 -/
def MIR_ACT_BASE : RegDesc :=
  ⟨.bar0, 0x3802000, 16, 0x20, 1, 0x0, 1, 0x0, true, [⟨16, 24, .ro, 0⟩]⟩
/-- R782 -/
def MIR_ACT_PBASE : RegDesc :=
  ⟨.bar0, 0x3802008, 16, 0x20, 1, 0x0, 1, 0x0, true, [⟨16, 24, .ro, 0⟩]⟩
/-- R782 -/
def MIR_ACT_SIZE : RegDesc :=
  ⟨.bar0, 0x3802010, 16, 0x20, 1, 0x0, 1, 0x0, false, [⟨0, 24, .ro, 0⟩]⟩
/-- R782 -/
def MIR_ACT_CTL : RegDesc :=
  ⟨.bar0, 0x3802014, 16, 0x20, 1, 0x0, 1, 0x0, false, [⟨31, 1, .ro, 0⟩, ⟨30, 1, .ro, 0⟩, ⟨27, 3, .ro, 0⟩]⟩
/-- R782 -/
def MIR_PLAST : RegDesc :=
  ⟨.bar0, 0x3803000, 16, 0x8, 1, 0x0, 1, 0x0, true, [⟨0, 48, .ro, 0⟩]⟩
/-- R801 -/
def PMU_CTL : RegDesc :=
  ⟨.bar0, 0x3C00000, 1, 0x0, 1, 0x0, 1, 0x0, false, [⟨31, 1, .wo, 0⟩, ⟨30, 1, .rw, 0⟩, ⟨29, 1, .rw1c, 0⟩, ⟨28, 1, .ro, 0⟩, ⟨27, 1, .ro, 0⟩]⟩
/-- R801 -/
def PMU_SNAPTS : RegDesc :=
  ⟨.bar0, 0x3C00008, 1, 0x0, 1, 0x0, 1, 0x0, true, [⟨0, 64, .ro, 0⟩]⟩
/-- R801 -/
def PMU_FREEZETS : RegDesc :=
  ⟨.bar0, 0x3C00010, 1, 0x0, 1, 0x0, 1, 0x0, true, [⟨0, 64, .ro, 0⟩]⟩
/-- R786 -/
def PMU_PC : RegDesc :=
  ⟨.bar0, 0x10A0000, 12, 0x100000, 64, 0x100, 32, 0x8, true, [⟨0, 48, .ro, 0⟩]⟩
/-- R787 -/
def PMU_AES : RegDesc :=
  ⟨.bar0, 0x10A4000, 12, 0x100000, 64, 0x40, 8, 0x8, true, [⟨0, 48, .ro, 0⟩]⟩
/-- R787 -/
def PMU_ARB : RegDesc :=
  ⟨.bar0, 0x10A5000, 12, 0x100000, 40, 0x40, 8, 0x8, true, [⟨0, 48, .ro, 0⟩]⟩
/-- R791 -/
def PMU_CTX : RegDesc :=
  ⟨.bar0, 0x10A6400, 12, 0x100000, 8, 0x40, 8, 0x8, true, [⟨0, 48, .ro, 0⟩]⟩
/-- R786 -/
def PMU_SH_PC : RegDesc :=
  ⟨.bar0, 0x10C0000, 12, 0x100000, 64, 0x100, 32, 0x8, true, [⟨0, 48, .ro, 0⟩]⟩
/-- R787 -/
def PMU_SH_AES : RegDesc :=
  ⟨.bar0, 0x10C4000, 12, 0x100000, 64, 0x40, 8, 0x8, true, [⟨0, 48, .ro, 0⟩]⟩
/-- R787 -/
def PMU_SH_ARB : RegDesc :=
  ⟨.bar0, 0x10C5000, 12, 0x100000, 40, 0x40, 8, 0x8, true, [⟨0, 48, .ro, 0⟩]⟩
/-- R791 -/
def PMU_SH_CTX : RegDesc :=
  ⟨.bar0, 0x10C6400, 12, 0x100000, 8, 0x40, 8, 0x8, true, [⟨0, 48, .ro, 0⟩]⟩
/-- R801 -/
def PMU_LNT_CYCLE : RegDesc :=
  ⟨.bar0, 0x10A6000, 12, 0x100000, 1, 0x0, 1, 0x0, true, [⟨0, 48, .ro, 0⟩]⟩
/-- R801 -/
def PMU_LNT_CNT : RegDesc :=
  ⟨.bar0, 0x10A6008, 12, 0x100000, 8, 0x8, 1, 0x0, true, [⟨0, 48, .ro, 0⟩]⟩
/-- R801 -/
def PMU_LNT_SEL : RegDesc :=
  ⟨.bar0, 0x10A6048, 12, 0x100000, 8, 0x4, 1, 0x0, false, [⟨31, 1, .rw, 0⟩, ⟨30, 1, .rw, 0⟩, ⟨16, 8, .rw, 255⟩, ⟨0, 8, .rw, 0⟩]⟩
/-- R801 -/
def PMU_LNT_SHCYCLE : RegDesc :=
  ⟨.bar0, 0x10A6080, 12, 0x100000, 1, 0x0, 1, 0x0, true, [⟨0, 48, .ro, 0⟩]⟩
/-- R801 -/
def PMU_LNT_SHCNT : RegDesc :=
  ⟨.bar0, 0x10A6088, 12, 0x100000, 8, 0x8, 1, 0x0, true, [⟨0, 48, .ro, 0⟩]⟩
/-- R801 -/
def PMU_BLK_CYCLE : RegDesc :=
  ⟨.bar0, 0x3C01000, 16, 0x100, 1, 0x0, 1, 0x0, true, [⟨0, 48, .ro, 0⟩]⟩
/-- R801 -/
def PMU_BLK_CNT : RegDesc :=
  ⟨.bar0, 0x3C01008, 16, 0x100, 8, 0x8, 1, 0x0, true, [⟨0, 48, .ro, 0⟩]⟩
/-- R801 -/
def PMU_BLK_SEL : RegDesc :=
  ⟨.bar0, 0x3C01048, 16, 0x100, 8, 0x4, 1, 0x0, false, [⟨31, 1, .rw, 0⟩, ⟨30, 1, .rw, 0⟩, ⟨16, 8, .rw, 255⟩, ⟨0, 8, .rw, 0⟩]⟩
/-- R801 -/
def PMU_BLK_SHCYCLE : RegDesc :=
  ⟨.bar0, 0x3C01080, 16, 0x100, 1, 0x0, 1, 0x0, true, [⟨0, 48, .ro, 0⟩]⟩
/-- R801 -/
def PMU_BLK_SHCNT : RegDesc :=
  ⟨.bar0, 0x3C01088, 16, 0x100, 8, 0x8, 1, 0x0, true, [⟨0, 48, .ro, 0⟩]⟩

end D

/-- The layout of a family. -/
def RegName.desc : RegName → RegDesc
  | .GLOBAL_ID => D.GLOBAL_ID
  | .GLOBAL_PROTO => D.GLOBAL_PROTO
  | .GLOBAL_CFGLOCK => D.GLOBAL_CFGLOCK
  | .CLU_MISROUTE => D.CLU_MISROUTE
  | .GLOBAL_TS => D.GLOBAL_TS
  | .CLOCK_STATUS => D.CLOCK_STATUS
  | .CLOCK_ERR => D.CLOCK_ERR
  | .CLOCK_FCLK => D.CLOCK_FCLK
  | .CLOCK_PHYPLL => D.CLOCK_PHYPLL
  | .TS_CTRL => D.TS_CTRL
  | .TS_CAPT => D.TS_CAPT
  | .TS_WALL_REF => D.TS_WALL_REF
  | .TS_WALL => D.TS_WALL
  | .TS_REPL => D.TS_REPL
  | .PLOT_CMD => D.PLOT_CMD
  | .PLOT_ARG0 => D.PLOT_ARG0
  | .PLOT_ARG1 => D.PLOT_ARG1
  | .PLOT_STATUS => D.PLOT_STATUS
  | .PLOT_GEOM => D.PLOT_GEOM
  | .PLOT_STACKGEOM => D.PLOT_STACKGEOM
  | .CLU_SPARES => D.CLU_SPARES
  | .CLU_MIG => D.CLU_MIG
  | .CLU_PCMAP => D.CLU_PCMAP
  | .CLU_PCRET => D.CLU_PCRET
  | .CLU_PCSPARE => D.CLU_PCSPARE
  | .PORT_CFG => D.PORT_CFG
  | .PORT_LKCFG => D.PORT_LKCFG
  | .PORT_CAP => D.PORT_CAP
  | .PORT_EFF => D.PORT_EFF
  | .PORT_BIND => D.PORT_BIND
  | .PORT_LINK => D.PORT_LINK
  | .PORT_LINKCNT => D.PORT_LINKCNT
  | .PORT_ERRCNT => D.PORT_ERRCNT
  | .PORT_TMO => D.PORT_TMO
  | .PORT_LOCK => D.PORT_LOCK
  | .GLOBAL_ATTN_PENDING => D.GLOBAL_ATTN_PENDING
  | .ARB_REQ => D.ARB_REQ
  | .ARB_HOLD_CTL => D.ARB_HOLD_CTL
  | .ARB_HOLD_LEASE => D.ARB_HOLD_LEASE
  | .ARB_HOLD_OWNER => D.ARB_HOLD_OWNER
  | .ARB_LATFLOOR => D.ARB_LATFLOOR
  | .ARB_GRANTS => D.ARB_GRANTS
  | .ARB_WAIT => D.ARB_WAIT
  | .ARB_LONGEST => D.ARB_LONGEST
  | .CLU_TIM0 => D.CLU_TIM0
  | .CLU_TIM1 => D.CLU_TIM1
  | .CLU_TIM2 => D.CLU_TIM2
  | .PC_STATUS => D.PC_STATUS
  | .PC_QCFG => D.PC_QCFG
  | .PC_HAZ => D.PC_HAZ
  | .REF_CTRL => D.REF_CTRL
  | .REF_TIM => D.REF_TIM
  | .REF_PERIOD => D.REF_PERIOD
  | .REF_ORIGIN => D.REF_ORIGIN
  | .REF_NEXTSW => D.REF_NEXTSW
  | .REF_MAINT_START => D.REF_MAINT_START
  | .REF_MAINT => D.REF_MAINT
  | .RG_CFG => D.RG_CFG
  | .RG_STAT => D.RG_STAT
  | .RG_LAST => D.RG_LAST
  | .RG_DROPS => D.RG_DROPS
  | .SR_CFG => D.SR_CFG
  | .SR_STAT => D.SR_STAT
  | .PHY_STATUS => D.PHY_STATUS
  | .PHY_CFG => D.PHY_CFG
  | .PHY_ID => D.PHY_ID
  | .PHY_VENDOR => D.PHY_VENDOR
  | .PHY_SERIAL => D.PHY_SERIAL
  | .PHY_TRN_CTRL => D.PHY_TRN_CTRL
  | .PHY_TRN_STATUS => D.PHY_TRN_STATUS
  | .PHY_RTR_CFG => D.PHY_RTR_CFG
  | .PHY_RTR_STAT => D.PHY_RTR_STAT
  | .PHY_RTR_LAST => D.PHY_RTR_LAST
  | .PHY_RTR_TEMP => D.PHY_RTR_TEMP
  | .PHY_CALZ => D.PHY_CALZ
  | .PHY_LANE_RD => D.PHY_LANE_RD
  | .PHY_LANE_WR => D.PHY_LANE_WR
  | .PHY_REPAIR => D.PHY_REPAIR
  | .TRF_SUB_CTL => D.TRF_SUB_CTL
  | .TRF_SUB_BURST => D.TRF_SUB_BURST
  | .TRF_SUB_TOKENS => D.TRF_SUB_TOKENS
  | .TRF_SUB_DROPS => D.TRF_SUB_DROPS
  | .TRF_SVC_CTL => D.TRF_SVC_CTL
  | .TRF_SVC_BURST => D.TRF_SVC_BURST
  | .TRF_SVC_TOKENS => D.TRF_SVC_TOKENS
  | .TRF_PORT_CTL => D.TRF_PORT_CTL
  | .TRF_PORT_BURST => D.TRF_PORT_BURST
  | .TRF_PORT_TOKENS => D.TRF_PORT_TOKENS
  | .TRF_PORT_DROPS => D.TRF_PORT_DROPS
  | .TRF_GATE_CTL => D.TRF_GATE_CTL
  | .TRF_GATE_STATUS => D.TRF_GATE_STATUS
  | .TRF_GATE_GUARD => D.TRF_GATE_GUARD
  | .TRF_GATE_ORIGIN => D.TRF_GATE_ORIGIN
  | .TRF_GATE_LATOK => D.TRF_GATE_LATOK
  | .TRF_GATE_SLOT => D.TRF_GATE_SLOT
  | .TRF_GATE_ACT => D.TRF_GATE_ACT
  | .TRF_HIST_CTL => D.TRF_HIST_CTL
  | .TRF_DEP => D.TRF_DEP
  | .TRF_DLY => D.TRF_DLY
  | .LNT_CTL => D.LNT_CTL
  | .LNT_STATUS => D.LNT_STATUS
  | .LNT_ARRAY => D.LNT_ARRAY
  | .LNT_CTX => D.LNT_CTX
  | .LNT_CTX_JOB => D.LNT_CTX_JOB
  | .LNT_CTX_SEED => D.LNT_CTX_SEED
  | .LNT_CTX_STORE => D.LNT_CTX_STORE
  | .LNT_JRNL => D.LNT_JRNL
  | .LNT_JRNL_OLDEST => D.LNT_JRNL_OLDEST
  | .LNT_MEMIF => D.LNT_MEMIF
  | .LNT_STOREERR => D.LNT_STOREERR
  | .POSY_CFG => D.POSY_CFG
  | .POSY_STATUS => D.POSY_STATUS
  | .POSY_STAT0 => D.POSY_STAT0
  | .POSY_STAT1 => D.POSY_STAT1
  | .POSY_TAKEN => D.POSY_TAKEN
  | .POSY_ENTRY_KEY => D.POSY_ENTRY_KEY
  | .POSY_ENTRY_STAT => D.POSY_ENTRY_STAT
  | .GLOBAL_STATE => D.GLOBAL_STATE
  | .GLOBAL_IFVER => D.GLOBAL_IFVER
  | .GLOBAL_DRVVER => D.GLOBAL_DRVVER
  | .GLOBAL_HBEAT => D.GLOBAL_HBEAT
  | .RINGS_HOST => D.RINGS_HOST
  | .RING_STATE => D.RING_STATE
  | .RING_CFG => D.RING_CFG
  | .RING_PTRS => D.RING_PTRS
  | .RING_JOBS => D.RING_JOBS
  | .RING_ERR => D.RING_ERR
  | .RING_LAST => D.RING_LAST
  | .FN_SQDB => D.FN_SQDB
  | .FN_CQDB => D.FN_CQDB
  | .FN_RINGCTL => D.FN_RINGCTL
  | .FN_STATUS => D.FN_STATUS
  | .FN_DRVVER => D.FN_DRVVER
  | .FN_TS => D.FN_TS
  | .FN_HWIN_BASE => D.FN_HWIN_BASE
  | .FN_HWIN_SIZE => D.FN_HWIN_SIZE
  | .FN_MEMERR => D.FN_MEMERR
  | .FN_CFG => D.FN_CFG
  | .FN_MSIX_ADDR => D.FN_MSIX_ADDR
  | .FN_MSIX_DATA => D.FN_MSIX_DATA
  | .FN_MSIX_CTL => D.FN_MSIX_CTL
  | .FN_MSIX_PBA => D.FN_MSIX_PBA
  | .MBX_CTL => D.MBX_CTL
  | .MBX_STATUS => D.MBX_STATUS
  | .SEC_STATUS => D.SEC_STATUS
  | .SEC_ROT => D.SEC_ROT
  | .SEC_SLOT => D.SEC_SLOT
  | .SEC_BIND => D.SEC_BIND
  | .SEC_SESS => D.SEC_SESS
  | .SEC_TENANT => D.SEC_TENANT
  | .AUDIT_SEQ => D.AUDIT_SEQ
  | .AUDIT_ACK => D.AUDIT_ACK
  | .AUDIT_CFG => D.AUDIT_CFG
  | .AUDIT_LOST => D.AUDIT_LOST
  | .AUDIT_HEAD => D.AUDIT_HEAD
  | .RAS_CFG => D.RAS_CFG
  | .RAS_CLASS => D.RAS_CLASS
  | .RAS_RECHEAD => D.RAS_RECHEAD
  | .RAS_RECACK => D.RAS_RECACK
  | .RAS_RECLOST => D.RAS_RECLOST
  | .RAS_CNT => D.RAS_CNT
  | .RAS_CNT2 => D.RAS_CNT2
  | .RAS_FRZ => D.RAS_FRZ
  | .RAS_FRZCTL => D.RAS_FRZCTL
  | .RAS_MIGCTL => D.RAS_MIGCTL
  | .RAS_HISTCTL => D.RAS_HISTCTL
  | .RAS_SECFG => D.RAS_SECFG
  | .RAS_MGCTL => D.RAS_MGCTL
  | .RAS_MGSEED => D.RAS_MGSEED
  | .RAS_MGROUND => D.RAS_MGROUND
  | .RAS_MGSTEP => D.RAS_MGSTEP
  | .RAS_MGSTEP_PREV => D.RAS_MGSTEP_PREV
  | .RAS_MGSTAT => D.RAS_MGSTAT
  | .RAS_MGDIG => D.RAS_MGDIG
  | .RAS_FENCE => D.RAS_FENCE
  | .RAS_FENCECTL => D.RAS_FENCECTL
  | .RAS_SECNT => D.RAS_SECNT
  | .RAS_SECNT2 => D.RAS_SECNT2
  | .FW_STATE => D.FW_STATE
  | .FW_VER => D.FW_VER
  | .FW_BUILD => D.FW_BUILD
  | .FW_SVN => D.FW_SVN
  | .FW_DIGEST => D.FW_DIGEST
  | .FW_CTL => D.FW_CTL
  | .FW_LASTCAUSE => D.FW_LASTCAUSE
  | .FW_LASTSTAMP => D.FW_LASTSTAMP
  | .FW_BOOT => D.FW_BOOT
  | .FW_UPDCTL => D.FW_UPDCTL
  | .FW_UPDSTAT => D.FW_UPDSTAT
  | .FW_EVT => D.FW_EVT
  | .PM_STATUS => D.PM_STATUS
  | .PM_FAULT => D.PM_FAULT
  | .PM_RAIL_CFG => D.PM_RAIL_CFG
  | .PM_RAIL_MEAS => D.PM_RAIL_MEAS
  | .THM_CFG => D.THM_CFG
  | .THM_STATUS => D.THM_STATUS
  | .THM_EVT => D.THM_EVT
  | .THM_SENS_CFG => D.THM_SENS_CFG
  | .THM_SENS_THR => D.THM_SENS_THR
  | .THM_SENS_HYS => D.THM_SENS_HYS
  | .THM_SENS_READ => D.THM_SENS_READ
  | .HK_ROUND => D.HK_ROUND
  | .HK_CH => D.HK_CH
  | .SNF_LOCK => D.SNF_LOCK
  | .SNF_VLOGIC => D.SNF_VLOGIC
  | .SNF_VNMC => D.SNF_VNMC
  | .SNF_VPHY => D.SNF_VPHY
  | .SNF_MISC => D.SNF_MISC
  | .SNF_IMAX => D.SNF_IMAX
  | .SNF_IMAX_STK => D.SNF_IMAX_STK
  | .SNF_TCEIL => D.SNF_TCEIL
  | .SNF_STAT => D.SNF_STAT
  | .MIR_PAIR => D.MIR_PAIR
  | .MIR_CFG => D.MIR_CFG
  | .MIR_PORT => D.MIR_PORT
  | .MIR_PEER => D.MIR_PEER
  | .MIR_WCTL => D.MIR_WCTL
  | .MIR_PEPOCH => D.MIR_PEPOCH
  | .MIR_ACKTS => D.MIR_ACKTS
  | .MIR_TSOFF => D.MIR_TSOFF
  | .MIR_TSERR => D.MIR_TSERR
  | .MIR_PSEQ => D.MIR_PSEQ
  | .MIR_STAT => D.MIR_STAT
  | .MIR_PHEAD => D.MIR_PHEAD
  | .MIR_WIN_BASE => D.MIR_WIN_BASE
  | .MIR_WIN_PBASE => D.MIR_WIN_PBASE
  | .MIR_WIN_SIZE => D.MIR_WIN_SIZE
  | .MIR_WIN_CTL => D.MIR_WIN_CTL
  | .MIR_ACT_BASE => D.MIR_ACT_BASE
  | .MIR_ACT_PBASE => D.MIR_ACT_PBASE
  | .MIR_ACT_SIZE => D.MIR_ACT_SIZE
  | .MIR_ACT_CTL => D.MIR_ACT_CTL
  | .MIR_PLAST => D.MIR_PLAST
  | .PMU_CTL => D.PMU_CTL
  | .PMU_SNAPTS => D.PMU_SNAPTS
  | .PMU_FREEZETS => D.PMU_FREEZETS
  | .PMU_PC => D.PMU_PC
  | .PMU_AES => D.PMU_AES
  | .PMU_ARB => D.PMU_ARB
  | .PMU_CTX => D.PMU_CTX
  | .PMU_SH_PC => D.PMU_SH_PC
  | .PMU_SH_AES => D.PMU_SH_AES
  | .PMU_SH_ARB => D.PMU_SH_ARB
  | .PMU_SH_CTX => D.PMU_SH_CTX
  | .PMU_LNT_CYCLE => D.PMU_LNT_CYCLE
  | .PMU_LNT_CNT => D.PMU_LNT_CNT
  | .PMU_LNT_SEL => D.PMU_LNT_SEL
  | .PMU_LNT_SHCYCLE => D.PMU_LNT_SHCYCLE
  | .PMU_LNT_SHCNT => D.PMU_LNT_SHCNT
  | .PMU_BLK_CYCLE => D.PMU_BLK_CYCLE
  | .PMU_BLK_CNT => D.PMU_BLK_CNT
  | .PMU_BLK_SEL => D.PMU_BLK_SEL
  | .PMU_BLK_SHCYCLE => D.PMU_BLK_SHCYCLE
  | .PMU_BLK_SHCNT => D.PMU_BLK_SHCNT

/-- The families of the map, part 0. -/
def RegName.part0 : List RegName :=
  [RegName.GLOBAL_ID, RegName.GLOBAL_PROTO, RegName.GLOBAL_CFGLOCK, RegName.CLU_MISROUTE, RegName.GLOBAL_TS, RegName.CLOCK_STATUS, RegName.CLOCK_ERR, 
   RegName.CLOCK_FCLK, RegName.CLOCK_PHYPLL, RegName.TS_CTRL, RegName.TS_CAPT, RegName.TS_WALL_REF, RegName.TS_WALL, RegName.TS_REPL, RegName.PLOT_CMD, RegName.PLOT_ARG0, 
   RegName.PLOT_ARG1, RegName.PLOT_STATUS, RegName.PLOT_GEOM, RegName.PLOT_STACKGEOM, RegName.CLU_SPARES, RegName.CLU_MIG, RegName.CLU_PCMAP, RegName.CLU_PCRET, 
   RegName.CLU_PCSPARE, RegName.PORT_CFG, RegName.PORT_LKCFG, RegName.PORT_CAP, RegName.PORT_EFF, RegName.PORT_BIND, RegName.PORT_LINK, RegName.PORT_LINKCNT, 
   RegName.PORT_ERRCNT, RegName.PORT_TMO, RegName.PORT_LOCK, RegName.GLOBAL_ATTN_PENDING, RegName.ARB_REQ, RegName.ARB_HOLD_CTL, RegName.ARB_HOLD_LEASE, 
   RegName.ARB_HOLD_OWNER, RegName.ARB_LATFLOOR, RegName.ARB_GRANTS, RegName.ARB_WAIT, RegName.ARB_LONGEST, RegName.CLU_TIM0, RegName.CLU_TIM1, RegName.CLU_TIM2, 
   RegName.PC_STATUS, RegName.PC_QCFG, RegName.PC_HAZ, RegName.REF_CTRL, RegName.REF_TIM, RegName.REF_PERIOD, RegName.REF_ORIGIN, RegName.REF_NEXTSW, RegName.REF_MAINT_START, 
   RegName.REF_MAINT, RegName.RG_CFG, RegName.RG_STAT, RegName.RG_LAST]
/-- The families of the map, part 1. -/
def RegName.part1 : List RegName :=
  [RegName.RG_DROPS, RegName.SR_CFG, RegName.SR_STAT, RegName.PHY_STATUS, RegName.PHY_CFG, RegName.PHY_ID, RegName.PHY_VENDOR, RegName.PHY_SERIAL, RegName.PHY_TRN_CTRL, 
   RegName.PHY_TRN_STATUS, RegName.PHY_RTR_CFG, RegName.PHY_RTR_STAT, RegName.PHY_RTR_LAST, RegName.PHY_RTR_TEMP, RegName.PHY_CALZ, RegName.PHY_LANE_RD, 
   RegName.PHY_LANE_WR, RegName.PHY_REPAIR, RegName.TRF_SUB_CTL, RegName.TRF_SUB_BURST, RegName.TRF_SUB_TOKENS, RegName.TRF_SUB_DROPS, RegName.TRF_SVC_CTL, 
   RegName.TRF_SVC_BURST, RegName.TRF_SVC_TOKENS, RegName.TRF_PORT_CTL, RegName.TRF_PORT_BURST, RegName.TRF_PORT_TOKENS, RegName.TRF_PORT_DROPS, 
   RegName.TRF_GATE_CTL, RegName.TRF_GATE_STATUS, RegName.TRF_GATE_GUARD, RegName.TRF_GATE_ORIGIN, RegName.TRF_GATE_LATOK, RegName.TRF_GATE_SLOT, 
   RegName.TRF_GATE_ACT, RegName.TRF_HIST_CTL, RegName.TRF_DEP, RegName.TRF_DLY, RegName.LNT_CTL, RegName.LNT_STATUS, RegName.LNT_ARRAY, RegName.LNT_CTX, RegName.LNT_CTX_JOB, 
   RegName.LNT_CTX_SEED, RegName.LNT_CTX_STORE, RegName.LNT_JRNL, RegName.LNT_JRNL_OLDEST, RegName.LNT_MEMIF, RegName.LNT_STOREERR, RegName.POSY_CFG, 
   RegName.POSY_STATUS, RegName.POSY_STAT0, RegName.POSY_STAT1, RegName.POSY_TAKEN, RegName.POSY_ENTRY_KEY, RegName.POSY_ENTRY_STAT, RegName.GLOBAL_STATE, 
   RegName.GLOBAL_IFVER, RegName.GLOBAL_DRVVER]
/-- The families of the map, part 2. -/
def RegName.part2 : List RegName :=
  [RegName.GLOBAL_HBEAT, RegName.RINGS_HOST, RegName.RING_STATE, RegName.RING_CFG, RegName.RING_PTRS, RegName.RING_JOBS, RegName.RING_ERR, RegName.RING_LAST, 
   RegName.FN_SQDB, RegName.FN_CQDB, RegName.FN_RINGCTL, RegName.FN_STATUS, RegName.FN_DRVVER, RegName.FN_TS, RegName.FN_HWIN_BASE, RegName.FN_HWIN_SIZE, RegName.FN_MEMERR, 
   RegName.FN_CFG, RegName.FN_MSIX_ADDR, RegName.FN_MSIX_DATA, RegName.FN_MSIX_CTL, RegName.FN_MSIX_PBA, RegName.MBX_CTL, RegName.MBX_STATUS, RegName.SEC_STATUS, 
   RegName.SEC_ROT, RegName.SEC_SLOT, RegName.SEC_BIND, RegName.SEC_SESS, RegName.SEC_TENANT, RegName.AUDIT_SEQ, RegName.AUDIT_ACK, RegName.AUDIT_CFG, RegName.AUDIT_LOST, 
   RegName.AUDIT_HEAD, RegName.RAS_CFG, RegName.RAS_CLASS, RegName.RAS_RECHEAD, RegName.RAS_RECACK, RegName.RAS_RECLOST, RegName.RAS_CNT, RegName.RAS_CNT2, RegName.RAS_FRZ, 
   RegName.RAS_FRZCTL, RegName.RAS_MIGCTL, RegName.RAS_HISTCTL, RegName.RAS_SECFG, RegName.RAS_MGCTL, RegName.RAS_MGSEED, RegName.RAS_MGROUND, RegName.RAS_MGSTEP, 
   RegName.RAS_MGSTEP_PREV, RegName.RAS_MGSTAT, RegName.RAS_MGDIG, RegName.RAS_FENCE, RegName.RAS_FENCECTL, RegName.RAS_SECNT, RegName.RAS_SECNT2, RegName.FW_STATE, 
   RegName.FW_VER]
/-- The families of the map, part 3. -/
def RegName.part3 : List RegName :=
  [RegName.FW_BUILD, RegName.FW_SVN, RegName.FW_DIGEST, RegName.FW_CTL, RegName.FW_LASTCAUSE, RegName.FW_LASTSTAMP, RegName.FW_BOOT, RegName.FW_UPDCTL, RegName.FW_UPDSTAT, 
   RegName.FW_EVT, RegName.PM_STATUS, RegName.PM_FAULT, RegName.PM_RAIL_CFG, RegName.PM_RAIL_MEAS, RegName.THM_CFG, RegName.THM_STATUS, RegName.THM_EVT, RegName.THM_SENS_CFG, 
   RegName.THM_SENS_THR, RegName.THM_SENS_HYS, RegName.THM_SENS_READ, RegName.HK_ROUND, RegName.HK_CH, RegName.SNF_LOCK, RegName.SNF_VLOGIC, RegName.SNF_VNMC, 
   RegName.SNF_VPHY, RegName.SNF_MISC, RegName.SNF_IMAX, RegName.SNF_IMAX_STK, RegName.SNF_TCEIL, RegName.SNF_STAT, RegName.MIR_PAIR, RegName.MIR_CFG, RegName.MIR_PORT, 
   RegName.MIR_PEER, RegName.MIR_WCTL, RegName.MIR_PEPOCH, RegName.MIR_ACKTS, RegName.MIR_TSOFF, RegName.MIR_TSERR, RegName.MIR_PSEQ, RegName.MIR_STAT, RegName.MIR_PHEAD, 
   RegName.MIR_WIN_BASE, RegName.MIR_WIN_PBASE, RegName.MIR_WIN_SIZE, RegName.MIR_WIN_CTL, RegName.MIR_ACT_BASE, RegName.MIR_ACT_PBASE, RegName.MIR_ACT_SIZE, 
   RegName.MIR_ACT_CTL, RegName.MIR_PLAST, RegName.PMU_CTL, RegName.PMU_SNAPTS, RegName.PMU_FREEZETS, RegName.PMU_PC, RegName.PMU_AES, RegName.PMU_ARB, RegName.PMU_CTX]
/-- The families of the map, part 4. -/
def RegName.part4 : List RegName :=
  [RegName.PMU_SH_PC, RegName.PMU_SH_AES, RegName.PMU_SH_ARB, RegName.PMU_SH_CTX, RegName.PMU_LNT_CYCLE, RegName.PMU_LNT_CNT, RegName.PMU_LNT_SEL, RegName.PMU_LNT_SHCYCLE, 
   RegName.PMU_LNT_SHCNT, RegName.PMU_BLK_CYCLE, RegName.PMU_BLK_CNT, RegName.PMU_BLK_SEL, RegName.PMU_BLK_SHCYCLE, RegName.PMU_BLK_SHCNT]
/-- Every family, in the order of the map. -/
def RegName.all : List RegName :=
  RegName.part0 ++ RegName.part1 ++ RegName.part2 ++ RegName.part3 ++ RegName.part4

/-- The reset values that depend on the index (ARB_REQr.PRIO of requester 39, R196; the ROLE of the spare arrays, R368;
RING_STATEi.FUNC, R551; PM_RAILr_CFG.ADDR and THM_SENSs_CFG.MODE, R751; RAS_CLASSc of BANK, LANE and ARRAY, R649 and
R681), as a word to add to the fields' own resets. -/
def RegName.indexedReset (r : RegName) (i j : Nat) : Nat :=
  if r = .ARB_REQ then (if i = 39 then 1 <<< 8 else 3 <<< 8)
  else if r = .LNT_ARRAY then (if 48 ≤ j then 1 <<< 29 else 0)
  else if r = .RING_STATE then (i / 64) <<< 10
  else if r = .PM_RAIL_CFG then (0x40 + i) <<< 24
  else if r = .THM_SENS_CFG then (if 16 ≤ i then 3 <<< 30 else 0)
  else if r = .RAS_CLASS then
    (if i = 1 then 0x10 <<< 16 else 2 <<< 16) + (if i = 1 ∨ i = 3 then 0 else 0x2D0) + (if i = 4 then 1 <<< 31 else 0)
  else 0

/-- The reset value of element (i, j) of a family. -/
def RegName.reset (r : RegName) (i j : Nat) : W64 :=
  BitVec.ofNat 64 ((r.desc.fields.foldl (fun a f => a + f.reset <<< f.lo) 0) + r.indexedReset i j)

/-- The key of element (i, j) of a family in the register table. -/
def regKey (r : RegName) (i j : Nat) : Nat := (r.ctorIdx * 2 ^ 14 + i % 2 ^ 14) * 2 ^ 14 + j % 2 ^ 14

/-! The fields by name: `F.<register>.<field>`. -/
namespace F

def GLOBAL_ID.DESIGNER : Fld := ⟨.GLOBAL_ID, 20, 12⟩
def GLOBAL_ID.PART : Fld := ⟨.GLOBAL_ID, 8, 12⟩
def GLOBAL_ID.STEP_MAJOR : Fld := ⟨.GLOBAL_ID, 4, 4⟩
def GLOBAL_ID.STEP_MINOR : Fld := ⟨.GLOBAL_ID, 0, 4⟩
def GLOBAL_PROTO.ISA_VER : Fld := ⟨.GLOBAL_PROTO, 16, 8⟩
def GLOBAL_PROTO.PORT_PROTO : Fld := ⟨.GLOBAL_PROTO, 8, 8⟩
def GLOBAL_PROTO.MIRROR_PROTO : Fld := ⟨.GLOBAL_PROTO, 0, 8⟩
def GLOBAL_CFGLOCK.LOCK : Fld := ⟨.GLOBAL_CFGLOCK, 0, 1⟩
def CLU_MISROUTE.LAST_REQ : Fld := ⟨.CLU_MISROUTE, 26, 6⟩
def CLU_MISROUTE.COUNT : Fld := ⟨.CLU_MISROUTE, 0, 16⟩
def GLOBAL_TS.COUNT : Fld := ⟨.GLOBAL_TS, 0, 64⟩
def CLOCK_STATUS.MAIN_LOCK : Fld := ⟨.CLOCK_STATUS, 31, 1⟩
def CLOCK_STATUS.FCLK_PRESENT : Fld := ⟨.CLOCK_STATUS, 30, 1⟩
def CLOCK_STATUS.NMC_HALF : Fld := ⟨.CLOCK_STATUS, 29, 1⟩
def CLOCK_STATUS.PHY_LOCK : Fld := ⟨.CLOCK_STATUS, 0, 12⟩
def CLOCK_ERR.FCLK_LOST : Fld := ⟨.CLOCK_ERR, 30, 1⟩
def CLOCK_ERR.TS_REPLICA : Fld := ⟨.CLOCK_ERR, 29, 1⟩
def CLOCK_ERR.PHYMULT_REJ : Fld := ⟨.CLOCK_ERR, 28, 1⟩
def CLOCK_ERR.PHY_UNLOCK : Fld := ⟨.CLOCK_ERR, 0, 12⟩
def CLOCK_FCLK.FREQ_MHZ : Fld := ⟨.CLOCK_FCLK, 0, 16⟩
def CLOCK_PHYPLL.LOCK : Fld := ⟨.CLOCK_PHYPLL, 31, 1⟩
def CLOCK_PHYPLL.MULT : Fld := ⟨.CLOCK_PHYPLL, 0, 8⟩
def TS_CTRL.CHECK_EN : Fld := ⟨.TS_CTRL, 1, 1⟩
def TS_CTRL.CAPTURE : Fld := ⟨.TS_CTRL, 0, 1⟩
def TS_CAPT.VALUE : Fld := ⟨.TS_CAPT, 0, 64⟩
def TS_WALL_REF.TS : Fld := ⟨.TS_WALL_REF, 0, 64⟩
def TS_WALL.HOST_TIME : Fld := ⟨.TS_WALL, 0, 64⟩
def TS_REPL.LAST_REPLICA : Fld := ⟨.TS_REPL, 24, 8⟩
def TS_REPL.MISMATCHES : Fld := ⟨.TS_REPL, 0, 16⟩
def PLOT_CMD.BUSY : Fld := ⟨.PLOT_CMD, 31, 1⟩
def PLOT_CMD.OP : Fld := ⟨.PLOT_CMD, 24, 4⟩
def PLOT_CMD.INDEX : Fld := ⟨.PLOT_CMD, 0, 12⟩
def PLOT_ARG0.OWNER : Fld := ⟨.PLOT_ARG0, 24, 8⟩
def PLOT_ARG0.MODE : Fld := ⟨.PLOT_ARG0, 23, 1⟩
def PLOT_ARG0.MIRROR : Fld := ⟨.PLOT_ARG0, 22, 1⟩
def PLOT_ARG0.FRAME : Fld := ⟨.PLOT_ARG0, 13, 9⟩
def PLOT_ARG0.STACK : Fld := ⟨.PLOT_ARG0, 9, 4⟩
def PLOT_ARG0.MEMBER : Fld := ⟨.PLOT_ARG0, 5, 4⟩
def PLOT_ARG1.RIGHTS : Fld := ⟨.PLOT_ARG1, 0, 16⟩
def PLOT_STATUS.DONE : Fld := ⟨.PLOT_STATUS, 31, 1⟩
def PLOT_STATUS.REJ_BUSY : Fld := ⟨.PLOT_STATUS, 30, 1⟩
def PLOT_STATUS.RESULT : Fld := ⟨.PLOT_STATUS, 16, 4⟩
def PLOT_STATUS.INDEX : Fld := ⟨.PLOT_STATUS, 0, 12⟩
def PLOT_GEOM.WIDE_SETS : Fld := ⟨.PLOT_GEOM, 20, 9⟩
def PLOT_GEOM.P : Fld := ⟨.PLOT_GEOM, 16, 4⟩
def PLOT_GEOM.POPULATED : Fld := ⟨.PLOT_GEOM, 0, 12⟩
def PLOT_STACKGEOM.FRAMES : Fld := ⟨.PLOT_STACKGEOM, 23, 9⟩
def PLOT_STACKGEOM.NDATA : Fld := ⟨.PLOT_STACKGEOM, 16, 7⟩
def PLOT_STACKGEOM.PC_UNITS : Fld := ⟨.PLOT_STACKGEOM, 12, 4⟩
def PLOT_STACKGEOM.SIDS : Fld := ⟨.PLOT_STACKGEOM, 9, 3⟩
def CLU_SPARES.SPARES : Fld := ⟨.CLU_SPARES, 0, 3⟩
def CLU_MIG.ACTIVE : Fld := ⟨.CLU_MIG, 31, 1⟩
def CLU_MIG.LPC : Fld := ⟨.CLU_MIG, 24, 6⟩
def CLU_MIG.TARGET : Fld := ⟨.CLU_MIG, 16, 6⟩
def CLU_MIG.WATERMARK : Fld := ⟨.CLU_MIG, 0, 15⟩
def CLU_PCMAP.VALID : Fld := ⟨.CLU_PCMAP, 31, 1⟩
def CLU_PCMAP.PHYS : Fld := ⟨.CLU_PCMAP, 0, 6⟩
def CLU_PCRET.MAP : Fld := ⟨.CLU_PCRET, 0, 64⟩
def CLU_PCSPARE.MAP : Fld := ⟨.CLU_PCSPARE, 0, 64⟩
def PORT_CFG.ENABLE : Fld := ⟨.PORT_CFG, 31, 1⟩
def PORT_CFG.TMO_US : Fld := ⟨.PORT_CFG, 0, 16⟩
def PORT_LKCFG.LEASE_US : Fld := ⟨.PORT_LKCFG, 0, 20⟩
def PORT_CAP.DESC : Fld := ⟨.PORT_CAP, 0, 64⟩
def PORT_EFF.VER : Fld := ⟨.PORT_EFF, 24, 8⟩
def PORT_EFF.TAGBITS : Fld := ⟨.PORT_EFF, 20, 4⟩
def PORT_EFF.CLASSES : Fld := ⟨.PORT_EFF, 16, 4⟩
def PORT_EFF.ORD_OK : Fld := ⟨.PORT_EFF, 15, 1⟩
def PORT_EFF.OPS : Fld := ⟨.PORT_EFF, 0, 9⟩
def PORT_BIND.BOUND : Fld := ⟨.PORT_BIND, 31, 1⟩
def PORT_BIND.TENANT : Fld := ⟨.PORT_BIND, 0, 8⟩
def PORT_LINK.UP : Fld := ⟨.PORT_LINK, 31, 1⟩
def PORT_LINK.EPOCH : Fld := ⟨.PORT_LINK, 0, 16⟩
def PORT_LINKCNT.DOWNS : Fld := ⟨.PORT_LINKCNT, 16, 16⟩
def PORT_LINKCNT.RETRIES : Fld := ⟨.PORT_LINKCNT, 0, 16⟩
def PORT_ERRCNT.HDR_CRC : Fld := ⟨.PORT_ERRCNT, 16, 16⟩
def PORT_ERRCNT.TAG_REUSE : Fld := ⟨.PORT_ERRCNT, 0, 16⟩
def PORT_TMO.TIMEOUTS : Fld := ⟨.PORT_TMO, 16, 16⟩
def PORT_TMO.LATE_DROP : Fld := ⟨.PORT_TMO, 0, 16⟩
def PORT_LOCK.BREAKS : Fld := ⟨.PORT_LOCK, 16, 16⟩
def PORT_LOCK.IN_USE : Fld := ⟨.PORT_LOCK, 0, 9⟩
def GLOBAL_ATTN_PENDING.ACTIVE : Fld := ⟨.GLOBAL_ATTN_PENDING, 0, 16⟩
def ARB_REQ.PRIO : Fld := ⟨.ARB_REQ, 8, 3⟩
def ARB_REQ.BURST : Fld := ⟨.ARB_REQ, 0, 7⟩
def ARB_HOLD_CTL.ACTIVE : Fld := ⟨.ARB_HOLD_CTL, 31, 1⟩
def ARB_HOLD_CTL.BROKEN : Fld := ⟨.ARB_HOLD_CTL, 30, 1⟩
def ARB_HOLD_CTL.RESULT : Fld := ⟨.ARB_HOLD_CTL, 28, 2⟩
def ARB_HOLD_CTL.SET : Fld := ⟨.ARB_HOLD_CTL, 27, 1⟩
def ARB_HOLD_CTL.RELEASE : Fld := ⟨.ARB_HOLD_CTL, 26, 1⟩
def ARB_HOLD_CTL.PC : Fld := ⟨.ARB_HOLD_CTL, 20, 6⟩
def ARB_HOLD_CTL.CLUSTER : Fld := ⟨.ARB_HOLD_CTL, 16, 4⟩
def ARB_HOLD_CTL.REQ : Fld := ⟨.ARB_HOLD_CTL, 8, 6⟩
def ARB_HOLD_LEASE.LEASE_US : Fld := ⟨.ARB_HOLD_LEASE, 0, 20⟩
def ARB_HOLD_OWNER.REQ : Fld := ⟨.ARB_HOLD_OWNER, 16, 6⟩
def ARB_HOLD_OWNER.EPOCH : Fld := ⟨.ARB_HOLD_OWNER, 0, 16⟩
def ARB_LATFLOOR.TICKS : Fld := ⟨.ARB_LATFLOOR, 0, 8⟩
def ARB_GRANTS.COUNT : Fld := ⟨.ARB_GRANTS, 0, 48⟩
def ARB_WAIT.COUNT : Fld := ⟨.ARB_WAIT, 0, 48⟩
def ARB_LONGEST.TICKS : Fld := ⟨.ARB_LONGEST, 0, 32⟩
def CLU_TIM0.TRCD : Fld := ⟨.CLU_TIM0, 24, 8⟩
def CLU_TIM0.TRP : Fld := ⟨.CLU_TIM0, 16, 8⟩
def CLU_TIM0.TRAS : Fld := ⟨.CLU_TIM0, 8, 8⟩
def CLU_TIM0.RL : Fld := ⟨.CLU_TIM0, 0, 8⟩
def CLU_TIM1.WL : Fld := ⟨.CLU_TIM1, 24, 8⟩
def CLU_TIM1.TCCD_L : Fld := ⟨.CLU_TIM1, 20, 4⟩
def CLU_TIM1.TCCD_S : Fld := ⟨.CLU_TIM1, 16, 4⟩
def CLU_TIM1.TRRD_L : Fld := ⟨.CLU_TIM1, 12, 4⟩
def CLU_TIM1.TRRD_S : Fld := ⟨.CLU_TIM1, 8, 4⟩
def CLU_TIM1.TFAW : Fld := ⟨.CLU_TIM1, 0, 8⟩
def CLU_TIM2.TWR : Fld := ⟨.CLU_TIM2, 24, 8⟩
def CLU_TIM2.TRTP : Fld := ⟨.CLU_TIM2, 16, 8⟩
def CLU_TIM2.TWTR_L : Fld := ⟨.CLU_TIM2, 12, 4⟩
def CLU_TIM2.TWTR_S : Fld := ⟨.CLU_TIM2, 8, 4⟩
def CLU_TIM2.TRTW : Fld := ⟨.CLU_TIM2, 4, 4⟩
def CLU_TIM2.REJ : Fld := ⟨.CLU_TIM2, 0, 1⟩
def PC_STATUS.STATE : Fld := ⟨.PC_STATUS, 29, 3⟩
def PC_STATUS.DRAIN : Fld := ⟨.PC_STATUS, 28, 1⟩
def PC_STATUS.RQ_OCC : Fld := ⟨.PC_STATUS, 16, 7⟩
def PC_STATUS.WQ_OCC : Fld := ⟨.PC_STATUS, 8, 7⟩
def PC_STATUS.RMW : Fld := ⟨.PC_STATUS, 0, 3⟩
def PC_QCFG.WQ_HI : Fld := ⟨.PC_QCFG, 8, 7⟩
def PC_QCFG.WQ_LO : Fld := ⟨.PC_QCFG, 0, 7⟩
def PC_HAZ.FORWARDS : Fld := ⟨.PC_HAZ, 16, 16⟩
def PC_HAZ.COALESCES : Fld := ⟨.PC_HAZ, 0, 16⟩
def REF_CTRL.HOT : Fld := ⟨.REF_CTRL, 31, 1⟩
def REF_CTRL.FORCE_HOT : Fld := ⟨.REF_CTRL, 30, 1⟩
def REF_CTRL.REJ : Fld := ⟨.REF_CTRL, 29, 1⟩
def REF_CTRL.HOT_EXIT_C : Fld := ⟨.REF_CTRL, 0, 8⟩
def REF_TIM.TRFMPB : Fld := ⟨.REF_TIM, 16, 11⟩
def REF_TIM.TRFCAB : Fld := ⟨.REF_TIM, 0, 11⟩
def REF_PERIOD.TREFI_TS : Fld := ⟨.REF_PERIOD, 16, 16⟩
def REF_PERIOD.TRFC_TS : Fld := ⟨.REF_PERIOD, 0, 16⟩
def REF_ORIGIN.STAMP : Fld := ⟨.REF_ORIGIN, 0, 64⟩
def REF_NEXTSW.STAMP : Fld := ⟨.REF_NEXTSW, 0, 64⟩
def REF_MAINT_START.STAMP : Fld := ⟨.REF_MAINT_START, 0, 64⟩
def REF_MAINT.VALID : Fld := ⟨.REF_MAINT, 31, 1⟩
def REF_MAINT.KIND : Fld := ⟨.REF_MAINT, 29, 2⟩
def REF_MAINT.PC : Fld := ⟨.REF_MAINT, 23, 6⟩
def REF_MAINT.LEN_US : Fld := ⟨.REF_MAINT, 0, 16⟩
def RG_CFG.THR_EN : Fld := ⟨.RG_CFG, 31, 1⟩
def RG_CFG.NR_K : Fld := ⟨.RG_CFG, 24, 5⟩
def RG_CFG.BUDGET : Fld := ⟨.RG_CFG, 20, 4⟩
def RG_CFG.ACT_LIMIT : Fld := ⟨.RG_CFG, 0, 16⟩
def RG_STAT.THROTTLES : Fld := ⟨.RG_STAT, 24, 8⟩
def RG_STAT.OVERFLOWS : Fld := ⟨.RG_STAT, 16, 8⟩
def RG_STAT.RFMS : Fld := ⟨.RG_STAT, 0, 16⟩
def RG_LAST.PC : Fld := ⟨.RG_LAST, 26, 6⟩
def RG_LAST.SID : Fld := ⟨.RG_LAST, 24, 2⟩
def RG_LAST.BANK : Fld := ⟨.RG_LAST, 20, 4⟩
def RG_LAST.REQ : Fld := ⟨.RG_LAST, 14, 6⟩
def RG_DROPS.COUNT : Fld := ⟨.RG_DROPS, 0, 32⟩
def SR_CFG.SR_EN : Fld := ⟨.SR_CFG, 31, 1⟩
def SR_CFG.SR_IDLE_US : Fld := ⟨.SR_CFG, 0, 14⟩
def SR_STAT.ENTRIES : Fld := ⟨.SR_STAT, 16, 16⟩
def SR_STAT.IN_SR : Fld := ⟨.SR_STAT, 0, 7⟩
def PHY_STATUS.SITE : Fld := ⟨.PHY_STATUS, 29, 3⟩
def PHY_STATUS.DEFAULT_PARAMS : Fld := ⟨.PHY_STATUS, 28, 1⟩
def PHY_STATUS.CAL_FAULT : Fld := ⟨.PHY_STATUS, 27, 1⟩
def PHY_STATUS.RESTORED : Fld := ⟨.PHY_STATUS, 26, 1⟩
def PHY_CFG.RATE_CAP : Fld := ⟨.PHY_CFG, 8, 6⟩
def PHY_CFG.MIN_EYE_TAPS : Fld := ⟨.PHY_CFG, 0, 7⟩
def PHY_ID.GEN : Fld := ⟨.PHY_ID, 30, 2⟩
def PHY_ID.HEIGHT : Fld := ⟨.PHY_ID, 25, 5⟩
def PHY_ID.SIDS : Fld := ⟨.PHY_ID, 22, 3⟩
def PHY_ID.PCS : Fld := ⟨.PHY_ID, 15, 7⟩
def PHY_ID.PC_UNITS : Fld := ⟨.PHY_ID, 8, 7⟩
def PHY_ID.EXT_QUAL : Fld := ⟨.PHY_ID, 7, 1⟩
def PHY_ID.MAX_MULT : Fld := ⟨.PHY_ID, 0, 6⟩
def PHY_VENDOR.VENDOR : Fld := ⟨.PHY_VENDOR, 24, 8⟩
def PHY_VENDOR.PART : Fld := ⟨.PHY_VENDOR, 8, 16⟩
def PHY_SERIAL.SERIAL : Fld := ⟨.PHY_SERIAL, 0, 64⟩
def PHY_TRN_CTRL.BUSY : Fld := ⟨.PHY_TRN_CTRL, 31, 1⟩
def PHY_TRN_CTRL.REJ : Fld := ⟨.PHY_TRN_CTRL, 30, 1⟩
def PHY_TRN_CTRL.OP : Fld := ⟨.PHY_TRN_CTRL, 0, 2⟩
def PHY_TRN_STATUS.RESULT : Fld := ⟨.PHY_TRN_STATUS, 28, 4⟩
def PHY_TRN_STATUS.ROUNDS : Fld := ⟨.PHY_TRN_STATUS, 26, 2⟩
def PHY_TRN_STATUS.FAIL_LANE : Fld := ⟨.PHY_TRN_STATUS, 16, 8⟩
def PHY_TRN_STATUS.TIME_US : Fld := ⟨.PHY_TRN_STATUS, 0, 16⟩
def PHY_RTR_CFG.EN : Fld := ⟨.PHY_RTR_CFG, 31, 1⟩
def PHY_RTR_CFG.DRIFT_C : Fld := ⟨.PHY_RTR_CFG, 16, 5⟩
def PHY_RTR_CFG.PERIOD_MS : Fld := ⟨.PHY_RTR_CFG, 0, 14⟩
def PHY_RTR_STAT.RETRAINS : Fld := ⟨.PHY_RTR_STAT, 16, 16⟩
def PHY_RTR_STAT.NARROW : Fld := ⟨.PHY_RTR_STAT, 0, 16⟩
def PHY_RTR_LAST.STAMP : Fld := ⟨.PHY_RTR_LAST, 0, 64⟩
def PHY_RTR_TEMP.TEMP_C : Fld := ⟨.PHY_RTR_TEMP, 0, 8⟩
def PHY_CALZ.RCAL_MOHM : Fld := ⟨.PHY_CALZ, 16, 16⟩
def PHY_CALZ.ZPU : Fld := ⟨.PHY_CALZ, 8, 8⟩
def PHY_CALZ.ZPD : Fld := ⟨.PHY_CALZ, 0, 8⟩
def PHY_LANE_RD.WIDTH_PS : Fld := ⟨.PHY_LANE_RD, 32, 16⟩
def PHY_LANE_RD.TAP : Fld := ⟨.PHY_LANE_RD, 25, 7⟩
def PHY_LANE_RD.WIDTH : Fld := ⟨.PHY_LANE_RD, 18, 7⟩
def PHY_LANE_RD.VREF : Fld := ⟨.PHY_LANE_RD, 13, 5⟩
def PHY_LANE_RD.MARGIN_MV : Fld := ⟨.PHY_LANE_RD, 0, 8⟩
def PHY_LANE_WR.WIDTH_PS : Fld := ⟨.PHY_LANE_WR, 32, 16⟩
def PHY_LANE_WR.TAP : Fld := ⟨.PHY_LANE_WR, 25, 7⟩
def PHY_LANE_WR.WIDTH : Fld := ⟨.PHY_LANE_WR, 18, 7⟩
def PHY_LANE_WR.VREF : Fld := ⟨.PHY_LANE_WR, 13, 5⟩
def PHY_LANE_WR.MARGIN_MV : Fld := ⟨.PHY_LANE_WR, 0, 8⟩
def PHY_REPAIR.VALID3 : Fld := ⟨.PHY_REPAIR, 31, 1⟩
def PHY_REPAIR.HARD3 : Fld := ⟨.PHY_REPAIR, 30, 1⟩
def PHY_REPAIR.LANE3 : Fld := ⟨.PHY_REPAIR, 24, 6⟩
def PHY_REPAIR.VALID2 : Fld := ⟨.PHY_REPAIR, 23, 1⟩
def PHY_REPAIR.HARD2 : Fld := ⟨.PHY_REPAIR, 22, 1⟩
def PHY_REPAIR.LANE2 : Fld := ⟨.PHY_REPAIR, 16, 6⟩
def PHY_REPAIR.VALID1 : Fld := ⟨.PHY_REPAIR, 15, 1⟩
def PHY_REPAIR.HARD1 : Fld := ⟨.PHY_REPAIR, 14, 1⟩
def PHY_REPAIR.LANE1 : Fld := ⟨.PHY_REPAIR, 8, 6⟩
def PHY_REPAIR.VALID0 : Fld := ⟨.PHY_REPAIR, 7, 1⟩
def PHY_REPAIR.HARD0 : Fld := ⟨.PHY_REPAIR, 6, 1⟩
def PHY_REPAIR.LANE0 : Fld := ⟨.PHY_REPAIR, 0, 6⟩
def TRF_SUB_CTL.EN : Fld := ⟨.TRF_SUB_CTL, 31, 1⟩
def TRF_SUB_CTL.ACTION : Fld := ⟨.TRF_SUB_CTL, 30, 1⟩
def TRF_SUB_CTL.GROUP : Fld := ⟨.TRF_SUB_CTL, 24, 4⟩
def TRF_SUB_CTL.RATE : Fld := ⟨.TRF_SUB_CTL, 0, 24⟩
def TRF_SUB_BURST.BURST : Fld := ⟨.TRF_SUB_BURST, 0, 16⟩
def TRF_SUB_TOKENS.TOKENS : Fld := ⟨.TRF_SUB_TOKENS, 0, 24⟩
def TRF_SUB_DROPS.DROPS : Fld := ⟨.TRF_SUB_DROPS, 0, 32⟩
def TRF_SVC_CTL.EN : Fld := ⟨.TRF_SVC_CTL, 31, 1⟩
def TRF_SVC_CTL.ACTION : Fld := ⟨.TRF_SVC_CTL, 30, 1⟩
def TRF_SVC_CTL.GROUP : Fld := ⟨.TRF_SVC_CTL, 24, 4⟩
def TRF_SVC_CTL.RATE : Fld := ⟨.TRF_SVC_CTL, 0, 24⟩
def TRF_SVC_BURST.BURST : Fld := ⟨.TRF_SVC_BURST, 0, 16⟩
def TRF_SVC_TOKENS.TOKENS : Fld := ⟨.TRF_SVC_TOKENS, 0, 24⟩
def TRF_PORT_CTL.EN : Fld := ⟨.TRF_PORT_CTL, 31, 1⟩
def TRF_PORT_CTL.ACTION : Fld := ⟨.TRF_PORT_CTL, 30, 1⟩
def TRF_PORT_CTL.GROUP : Fld := ⟨.TRF_PORT_CTL, 24, 4⟩
def TRF_PORT_CTL.RATE : Fld := ⟨.TRF_PORT_CTL, 0, 24⟩
def TRF_PORT_BURST.BURST : Fld := ⟨.TRF_PORT_BURST, 0, 16⟩
def TRF_PORT_TOKENS.TOKENS : Fld := ⟨.TRF_PORT_TOKENS, 0, 24⟩
def TRF_PORT_DROPS.DROPS : Fld := ⟨.TRF_PORT_DROPS, 0, 32⟩
def TRF_GATE_CTL.EN : Fld := ⟨.TRF_GATE_CTL, 31, 1⟩
def TRF_GATE_CTL.COMMIT : Fld := ⟨.TRF_GATE_CTL, 30, 1⟩
def TRF_GATE_CTL.REJ : Fld := ⟨.TRF_GATE_CTL, 29, 1⟩
def TRF_GATE_CTL.PENDING : Fld := ⟨.TRF_GATE_CTL, 28, 1⟩
def TRF_GATE_CTL.NSLOT : Fld := ⟨.TRF_GATE_CTL, 16, 7⟩
def TRF_GATE_STATUS.NSLOT : Fld := ⟨.TRF_GATE_STATUS, 16, 7⟩
def TRF_GATE_STATUS.IN_GUARD : Fld := ⟨.TRF_GATE_STATUS, 6, 1⟩
def TRF_GATE_STATUS.SLOT : Fld := ⟨.TRF_GATE_STATUS, 0, 6⟩
def TRF_GATE_GUARD.ACTIVE : Fld := ⟨.TRF_GATE_GUARD, 16, 16⟩
def TRF_GATE_GUARD.SHADOW : Fld := ⟨.TRF_GATE_GUARD, 0, 16⟩
def TRF_GATE_ORIGIN.VALUE : Fld := ⟨.TRF_GATE_ORIGIN, 0, 64⟩
def TRF_GATE_LATOK.VALUE : Fld := ⟨.TRF_GATE_LATOK, 0, 64⟩
def TRF_GATE_SLOT.LANTERN : Fld := ⟨.TRF_GATE_SLOT, 48, 16⟩
def TRF_GATE_SLOT.ACCESS : Fld := ⟨.TRF_GATE_SLOT, 32, 16⟩
def TRF_GATE_SLOT.LEN : Fld := ⟨.TRF_GATE_SLOT, 0, 21⟩
def TRF_GATE_ACT.LANTERN : Fld := ⟨.TRF_GATE_ACT, 48, 16⟩
def TRF_GATE_ACT.ACCESS : Fld := ⟨.TRF_GATE_ACT, 32, 16⟩
def TRF_GATE_ACT.LEN : Fld := ⟨.TRF_GATE_ACT, 0, 21⟩
def TRF_HIST_CTL.EN : Fld := ⟨.TRF_HIST_CTL, 31, 1⟩
def TRF_HIST_CTL.CLEAR : Fld := ⟨.TRF_HIST_CTL, 30, 1⟩
def TRF_DEP.COUNT : Fld := ⟨.TRF_DEP, 0, 32⟩
def TRF_DLY.COUNT : Fld := ⟨.TRF_DLY, 0, 32⟩
def LNT_CTL.PAIRED : Fld := ⟨.LNT_CTL, 31, 1⟩
def LNT_CTL.FENCED : Fld := ⟨.LNT_CTL, 30, 1⟩
def LNT_STATUS.SERVING : Fld := ⟨.LNT_STATUS, 26, 6⟩
def LNT_STATUS.SPARES_FREE : Fld := ⟨.LNT_STATUS, 23, 3⟩
def LNT_STATUS.TESTING : Fld := ⟨.LNT_STATUS, 20, 3⟩
def LNT_STATUS.FENCED_ARRAYS : Fld := ⟨.LNT_STATUS, 14, 6⟩
def LNT_STATUS.CTX_BUSY : Fld := ⟨.LNT_STATUS, 0, 8⟩
def LNT_ARRAY.ROLE : Fld := ⟨.LNT_ARRAY, 29, 3⟩
def LNT_ARRAY.FOR : Fld := ⟨.LNT_ARRAY, 23, 6⟩
def LNT_ARRAY.CTX : Fld := ⟨.LNT_ARRAY, 20, 3⟩
def LNT_ARRAY.BUSY : Fld := ⟨.LNT_ARRAY, 19, 1⟩
def LNT_ARRAY.ABFT_FAILS : Fld := ⟨.LNT_ARRAY, 0, 16⟩
def LNT_CTX.STATE : Fld := ⟨.LNT_CTX, 29, 3⟩
def LNT_CTX.TENANT : Fld := ⟨.LNT_CTX, 21, 8⟩
def LNT_CTX.RING : Fld := ⟨.LNT_CTX, 0, 13⟩
def LNT_CTX_JOB.SEQ : Fld := ⟨.LNT_CTX_JOB, 16, 16⟩
def LNT_CTX_JOB.INSTR : Fld := ⟨.LNT_CTX_JOB, 0, 16⟩
def LNT_CTX_SEED.SEED : Fld := ⟨.LNT_CTX_SEED, 0, 64⟩
def LNT_CTX_STORE.USE_KIB : Fld := ⟨.LNT_CTX_STORE, 0, 12⟩
def LNT_JRNL.WRAPS : Fld := ⟨.LNT_JRNL, 32, 32⟩
def LNT_JRNL.NEXT : Fld := ⟨.LNT_JRNL, 0, 21⟩
def LNT_JRNL_OLDEST.STAMP : Fld := ⟨.LNT_JRNL_OLDEST, 0, 64⟩
def LNT_MEMIF.DIRECT_TAGS : Fld := ⟨.LNT_MEMIF, 16, 13⟩
def LNT_MEMIF.LOCAL_TAGS : Fld := ⟨.LNT_MEMIF, 0, 13⟩
def LNT_STOREERR.CORR : Fld := ⟨.LNT_STOREERR, 16, 16⟩
def LNT_STOREERR.UNCORR : Fld := ⟨.LNT_STOREERR, 0, 16⟩
def POSY_CFG.RESERVE : Fld := ⟨.POSY_CFG, 23, 9⟩
def POSY_CFG.IDLE_US : Fld := ⟨.POSY_CFG, 0, 20⟩
def POSY_STATUS.IN_USE : Fld := ⟨.POSY_STATUS, 22, 10⟩
def POSY_STATUS.HELD : Fld := ⟨.POSY_STATUS, 12, 10⟩
def POSY_STATUS.BUF_OCC : Fld := ⟨.POSY_STATUS, 0, 7⟩
def POSY_STAT0.RETRIES : Fld := ⟨.POSY_STAT0, 16, 16⟩
def POSY_STAT0.CRC_FAILS : Fld := ⟨.POSY_STAT0, 0, 16⟩
def POSY_STAT1.EVICTS : Fld := ⟨.POSY_STAT1, 16, 16⟩
def POSY_STAT1.OVERFLOWS : Fld := ⟨.POSY_STAT1, 8, 8⟩
def POSY_STAT1.CONFLICTS : Fld := ⟨.POSY_STAT1, 0, 8⟩
def POSY_TAKEN.COUNT : Fld := ⟨.POSY_TAKEN, 0, 48⟩
def POSY_ENTRY_KEY.ROUND : Fld := ⟨.POSY_ENTRY_KEY, 48, 16⟩
def POSY_ENTRY_KEY.CFMT : Fld := ⟨.POSY_ENTRY_KEY, 46, 2⟩
def POSY_ENTRY_KEY.HALF : Fld := ⟨.POSY_ENTRY_KEY, 45, 1⟩
def POSY_ENTRY_KEY.LINE : Fld := ⟨.POSY_ENTRY_KEY, 0, 34⟩
def POSY_ENTRY_STAT.STATE : Fld := ⟨.POSY_ENTRY_STAT, 62, 2⟩
def POSY_ENTRY_STAT.OVF : Fld := ⟨.POSY_ENTRY_STAT, 61, 1⟩
def POSY_ENTRY_STAT.CONFLICT : Fld := ⟨.POSY_ENTRY_STAT, 60, 1⟩
def POSY_ENTRY_STAT.NONFIN : Fld := ⟨.POSY_ENTRY_STAT, 59, 1⟩
def POSY_ENTRY_STAT.COUNT : Fld := ⟨.POSY_ENTRY_STAT, 32, 16⟩
def POSY_ENTRY_STAT.DCOUNT : Fld := ⟨.POSY_ENTRY_STAT, 16, 16⟩
def GLOBAL_STATE.STATE : Fld := ⟨.GLOBAL_STATE, 30, 2⟩
def GLOBAL_IFVER.MAJOR : Fld := ⟨.GLOBAL_IFVER, 8, 8⟩
def GLOBAL_IFVER.MINOR : Fld := ⟨.GLOBAL_IFVER, 0, 8⟩
def GLOBAL_DRVVER.MAJOR : Fld := ⟨.GLOBAL_DRVVER, 8, 8⟩
def GLOBAL_DRVVER.MINOR : Fld := ⟨.GLOBAL_DRVVER, 0, 8⟩
def GLOBAL_HBEAT.COUNT : Fld := ⟨.GLOBAL_HBEAT, 0, 32⟩
def RINGS_HOST.HB_MS : Fld := ⟨.RINGS_HOST, 16, 14⟩
def RINGS_HOST.L1_IDLE_US : Fld := ⟨.RINGS_HOST, 0, 10⟩
def RING_STATE.STATE : Fld := ⟨.RING_STATE, 29, 3⟩
def RING_STATE.EPOCH : Fld := ⟨.RING_STATE, 25, 4⟩
def RING_STATE.TENANT : Fld := ⟨.RING_STATE, 17, 8⟩
def RING_STATE.FUNC : Fld := ⟨.RING_STATE, 10, 7⟩
def RING_STATE.HALT : Fld := ⟨.RING_STATE, 8, 1⟩
def RING_STATE.ACTIVE : Fld := ⟨.RING_STATE, 0, 7⟩
def RING_CFG.MAXCTX : Fld := ⟨.RING_CFG, 0, 7⟩
def RING_PTRS.PROD : Fld := ⟨.RING_PTRS, 48, 16⟩
def RING_PTRS.FETCHED : Fld := ⟨.RING_PTRS, 32, 16⟩
def RING_PTRS.CDONE : Fld := ⟨.RING_PTRS, 16, 16⟩
def RING_PTRS.CHEAD : Fld := ⟨.RING_PTRS, 0, 16⟩
def RING_JOBS.VALUE : Fld := ⟨.RING_JOBS, 0, 64⟩
def RING_ERR.REFUSED : Fld := ⟨.RING_ERR, 16, 16⟩
def RING_ERR.LATE_DROP : Fld := ⟨.RING_ERR, 8, 8⟩
def RING_ERR.BAD_DB : Fld := ⟨.RING_ERR, 0, 1⟩
def RING_LAST.VALUE : Fld := ⟨.RING_LAST, 0, 64⟩
def FN_SQDB.VALUE : Fld := ⟨.FN_SQDB, 0, 16⟩
def FN_CQDB.VALUE : Fld := ⟨.FN_CQDB, 0, 16⟩
def FN_RINGCTL.STATE : Fld := ⟨.FN_RINGCTL, 29, 3⟩
def FN_RINGCTL.CMD : Fld := ⟨.FN_RINGCTL, 25, 2⟩
def FN_RINGCTL.EN : Fld := ⟨.FN_RINGCTL, 24, 1⟩
def FN_RINGCTL.VEC : Fld := ⟨.FN_RINGCTL, 16, 6⟩
def FN_RINGCTL.CDONE : Fld := ⟨.FN_RINGCTL, 0, 16⟩
def FN_STATUS.VER : Fld := ⟨.FN_STATUS, 30, 2⟩
def FN_STATUS.STATE : Fld := ⟨.FN_STATUS, 28, 2⟩
def FN_STATUS.ATTN : Fld := ⟨.FN_STATUS, 24, 4⟩
def FN_STATUS.BOUND : Fld := ⟨.FN_STATUS, 23, 1⟩
def FN_DRVVER.MAJOR : Fld := ⟨.FN_DRVVER, 8, 8⟩
def FN_DRVVER.MINOR : Fld := ⟨.FN_DRVVER, 0, 8⟩
def FN_TS.COUNT : Fld := ⟨.FN_TS, 0, 64⟩
def FN_HWIN_BASE.BASE : Fld := ⟨.FN_HWIN_BASE, 12, 52⟩
def FN_HWIN_SIZE.SIZE_4K : Fld := ⟨.FN_HWIN_SIZE, 0, 32⟩
def FN_MEMERR.LAST : Fld := ⟨.FN_MEMERR, 28, 4⟩
def FN_MEMERR.COUNT : Fld := ⟨.FN_MEMERR, 0, 16⟩
def FN_CFG.LAT : Fld := ⟨.FN_CFG, 0, 1⟩
def FN_MSIX_ADDR.ADDR : Fld := ⟨.FN_MSIX_ADDR, 0, 64⟩
def FN_MSIX_DATA.DATA : Fld := ⟨.FN_MSIX_DATA, 0, 32⟩
def FN_MSIX_CTL.MASK : Fld := ⟨.FN_MSIX_CTL, 0, 1⟩
def FN_MSIX_PBA.PENDING : Fld := ⟨.FN_MSIX_PBA, 0, 64⟩
def MBX_CTL.GO : Fld := ⟨.MBX_CTL, 31, 1⟩
def MBX_CTL.LEN : Fld := ⟨.MBX_CTL, 0, 11⟩
def MBX_STATUS.BUSY : Fld := ⟨.MBX_STATUS, 31, 1⟩
def MBX_STATUS.DONE : Fld := ⟨.MBX_STATUS, 30, 1⟩
def MBX_STATUS.RSP_LEN : Fld := ⟨.MBX_STATUS, 8, 11⟩
def MBX_STATUS.STATUS : Fld := ⟨.MBX_STATUS, 0, 8⟩
def SEC_STATUS.ID : Fld := ⟨.SEC_STATUS, 30, 2⟩
def SEC_STATUS.SESSIONS : Fld := ⟨.SEC_STATUS, 22, 7⟩
def SEC_STATUS.KC_FAILS : Fld := ⟨.SEC_STATUS, 0, 16⟩
def SEC_ROT.ACTIVE : Fld := ⟨.SEC_ROT, 63, 1⟩
def SEC_ROT.SLOT : Fld := ⟨.SEC_ROT, 48, 9⟩
def SEC_ROT.PLOT : Fld := ⟨.SEC_ROT, 32, 12⟩
def SEC_ROT.WATERMARK : Fld := ⟨.SEC_ROT, 0, 13⟩
def SEC_SLOT.STATE : Fld := ⟨.SEC_SLOT, 29, 3⟩
def SEC_SLOT.ALLOC : Fld := ⟨.SEC_SLOT, 28, 1⟩
def SEC_SLOT.OWNER : Fld := ⟨.SEC_SLOT, 20, 8⟩
def SEC_SLOT.PLOTS : Fld := ⟨.SEC_SLOT, 0, 12⟩
def SEC_BIND.BOUND : Fld := ⟨.SEC_BIND, 31, 1⟩
def SEC_BIND.OFFERED : Fld := ⟨.SEC_BIND, 30, 1⟩
def SEC_BIND.OFFER_TENANT : Fld := ⟨.SEC_BIND, 8, 8⟩
def SEC_BIND.TENANT : Fld := ⟨.SEC_BIND, 0, 8⟩
def SEC_SESS.VALID : Fld := ⟨.SEC_SESS, 63, 1⟩
def SEC_SESS.TENANT : Fld := ⟨.SEC_SESS, 55, 8⟩
def SEC_SESS.FUNC : Fld := ⟨.SEC_SESS, 48, 7⟩
def SEC_SESS.SESSION_ID : Fld := ⟨.SEC_SESS, 0, 32⟩
def SEC_TENANT.EXISTS : Fld := ⟨.SEC_TENANT, 31, 1⟩
def SEC_TENANT.SESSIONS : Fld := ⟨.SEC_TENANT, 28, 3⟩
def SEC_TENANT.SLOTS : Fld := ⟨.SEC_TENANT, 24, 4⟩
def SEC_TENANT.PLOTS : Fld := ⟨.SEC_TENANT, 12, 12⟩
def AUDIT_SEQ.VALUE : Fld := ⟨.AUDIT_SEQ, 0, 64⟩
def AUDIT_ACK.VALUE : Fld := ⟨.AUDIT_ACK, 0, 64⟩
def AUDIT_CFG.NEAR_ENTRIES : Fld := ⟨.AUDIT_CFG, 0, 21⟩
def AUDIT_LOST.COUNT : Fld := ⟨.AUDIT_LOST, 0, 32⟩
def AUDIT_HEAD.BYTES : Fld := ⟨.AUDIT_HEAD, 0, 64⟩
def RAS_CFG.AUTO : Fld := ⟨.RAS_CFG, 31, 1⟩
def RAS_CFG.SPARE_WARN : Fld := ⟨.RAS_CFG, 28, 3⟩
def RAS_CFG.SCRUB_H : Fld := ⟨.RAS_CFG, 16, 8⟩
def RAS_CFG.MIG_SHARE : Fld := ⟨.RAS_CFG, 0, 4⟩
def RAS_CLASS.MODE : Fld := ⟨.RAS_CLASS, 31, 1⟩
def RAS_CLASS.THRESH : Fld := ⟨.RAS_CLASS, 16, 8⟩
def RAS_CLASS.WINDOW_H : Fld := ⟨.RAS_CLASS, 0, 16⟩
def RAS_RECHEAD.VALUE : Fld := ⟨.RAS_RECHEAD, 0, 64⟩
def RAS_RECACK.VALUE : Fld := ⟨.RAS_RECACK, 0, 64⟩
def RAS_RECLOST.COUNT : Fld := ⟨.RAS_RECLOST, 0, 32⟩
def RAS_CNT.CORR : Fld := ⟨.RAS_CNT, 32, 32⟩
def RAS_CNT.RETRY_OK : Fld := ⟨.RAS_CNT, 16, 16⟩
def RAS_CNT.UNCORR : Fld := ⟨.RAS_CNT, 0, 16⟩
def RAS_CNT2.POISON_READS : Fld := ⟨.RAS_CNT2, 32, 32⟩
def RAS_CNT2.CA_REPLAY : Fld := ⟨.RAS_CNT2, 16, 16⟩
def RAS_CNT2.FREEZES : Fld := ⟨.RAS_CNT2, 0, 16⟩
def RAS_FRZ.FROZEN : Fld := ⟨.RAS_FRZ, 0, 64⟩
def RAS_FRZCTL.BUSY : Fld := ⟨.RAS_FRZCTL, 31, 1⟩
def RAS_FRZCTL.RESULT : Fld := ⟨.RAS_FRZCTL, 28, 3⟩
def RAS_FRZCTL.OP : Fld := ⟨.RAS_FRZCTL, 26, 2⟩
def RAS_FRZCTL.PC : Fld := ⟨.RAS_FRZCTL, 0, 6⟩
def RAS_MIGCTL.BUSY : Fld := ⟨.RAS_MIGCTL, 31, 1⟩
def RAS_MIGCTL.OP : Fld := ⟨.RAS_MIGCTL, 28, 2⟩
def RAS_MIGCTL.LPC : Fld := ⟨.RAS_MIGCTL, 16, 6⟩
def RAS_MIGCTL.RESULT : Fld := ⟨.RAS_MIGCTL, 10, 3⟩
def RAS_HISTCTL.BUSY : Fld := ⟨.RAS_HISTCTL, 31, 1⟩
def RAS_HISTCTL.VALID : Fld := ⟨.RAS_HISTCTL, 30, 1⟩
def RAS_HISTCTL.INDEX : Fld := ⟨.RAS_HISTCTL, 0, 20⟩
def RAS_SECFG.STEP_EN : Fld := ⟨.RAS_SECFG, 31, 1⟩
def RAS_SECFG.STEP_ROUNDS : Fld := ⟨.RAS_SECFG, 28, 3⟩
def RAS_SECFG.BOOT_ROUNDS : Fld := ⟨.RAS_SECFG, 24, 4⟩
def RAS_SECFG.REPEAT_ROUNDS : Fld := ⟨.RAS_SECFG, 16, 8⟩
def RAS_SECFG.ARRAY_LIMIT : Fld := ⟨.RAS_SECFG, 12, 4⟩
def RAS_SECFG.DEADLINE_US : Fld := ⟨.RAS_SECFG, 0, 12⟩
def RAS_MGCTL.BUSY : Fld := ⟨.RAS_MGCTL, 31, 1⟩
def RAS_MGCTL.PENDING : Fld := ⟨.RAS_MGCTL, 30, 1⟩
def RAS_MGCTL.REJ : Fld := ⟨.RAS_MGCTL, 29, 1⟩
def RAS_MGCTL.STEP : Fld := ⟨.RAS_MGCTL, 28, 1⟩
def RAS_MGCTL.SWEEP : Fld := ⟨.RAS_MGCTL, 27, 1⟩
def RAS_MGCTL.LNT : Fld := ⟨.RAS_MGCTL, 12, 4⟩
def RAS_MGCTL.ROUNDS : Fld := ⟨.RAS_MGCTL, 0, 8⟩
def RAS_MGSEED.SEED : Fld := ⟨.RAS_MGSEED, 0, 64⟩
def RAS_MGROUND.NEXT : Fld := ⟨.RAS_MGROUND, 0, 32⟩
def RAS_MGSTEP.STAMP : Fld := ⟨.RAS_MGSTEP, 0, 64⟩
def RAS_MGSTEP_PREV.STAMP : Fld := ⟨.RAS_MGSTEP_PREV, 0, 64⟩
def RAS_MGSTAT.OVERRUNS : Fld := ⟨.RAS_MGSTAT, 24, 8⟩
def RAS_MGSTAT.IN_SWEEP : Fld := ⟨.RAS_MGSTAT, 0, 12⟩
def RAS_MGDIG.DIGEST : Fld := ⟨.RAS_MGDIG, 0, 64⟩
def RAS_FENCE.LANTERN : Fld := ⟨.RAS_FENCE, 63, 1⟩
def RAS_FENCE.ARRAYS : Fld := ⟨.RAS_FENCE, 0, 52⟩
def RAS_FENCECTL.BUSY : Fld := ⟨.RAS_FENCECTL, 31, 1⟩
def RAS_FENCECTL.RESULT : Fld := ⟨.RAS_FENCECTL, 28, 3⟩
def RAS_FENCECTL.OP : Fld := ⟨.RAS_FENCECTL, 26, 2⟩
def RAS_FENCECTL.ARRAY : Fld := ⟨.RAS_FENCECTL, 0, 6⟩
def RAS_SECNT.VERDICT_FAILS : Fld := ⟨.RAS_SECNT, 48, 16⟩
def RAS_SECNT.REPLAYED : Fld := ⟨.RAS_SECNT, 32, 16⟩
def RAS_SECNT.DATA_RANGE : Fld := ⟨.RAS_SECNT, 16, 16⟩
def RAS_SECNT.UNRESOLVED : Fld := ⟨.RAS_SECNT, 0, 16⟩
def RAS_SECNT2.MG_MISMATCH : Fld := ⟨.RAS_SECNT2, 48, 16⟩
def RAS_SECNT2.PARITY : Fld := ⟨.RAS_SECNT2, 32, 16⟩
def RAS_SECNT2.ARRAY_EVENTS : Fld := ⟨.RAS_SECNT2, 16, 16⟩
def RAS_SECNT2.LANTERN_EVENTS : Fld := ⟨.RAS_SECNT2, 0, 16⟩
def FW_STATE.STATE : Fld := ⟨.FW_STATE, 29, 3⟩
def FW_STATE.RESTARTS : Fld := ⟨.FW_STATE, 0, 16⟩
def FW_VER.MAJOR : Fld := ⟨.FW_VER, 24, 8⟩
def FW_VER.MINOR : Fld := ⟨.FW_VER, 16, 8⟩
def FW_VER.PATCH : Fld := ⟨.FW_VER, 0, 16⟩
def FW_BUILD.BUILD : Fld := ⟨.FW_BUILD, 0, 32⟩
def FW_SVN.MIN_SVN : Fld := ⟨.FW_SVN, 16, 16⟩
def FW_SVN.SVN : Fld := ⟨.FW_SVN, 0, 16⟩
def FW_DIGEST.BYTES : Fld := ⟨.FW_DIGEST, 0, 64⟩
def FW_CTL.RESTART : Fld := ⟨.FW_CTL, 31, 1⟩
def FW_CTL.WDOG_MS : Fld := ⟨.FW_CTL, 0, 10⟩
def FW_LASTCAUSE.CAUSE : Fld := ⟨.FW_LASTCAUSE, 29, 3⟩
def FW_LASTSTAMP.STAMP : Fld := ⟨.FW_LASTSTAMP, 0, 64⟩
def FW_BOOT.SOURCE : Fld := ⟨.FW_BOOT, 30, 2⟩
def FW_BOOT.WAIT_HOST : Fld := ⟨.FW_BOOT, 29, 1⟩
def FW_BOOT.WARM : Fld := ⟨.FW_BOOT, 28, 1⟩
def FW_BOOT.STAGE : Fld := ⟨.FW_BOOT, 24, 4⟩
def FW_BOOT.ERR : Fld := ⟨.FW_BOOT, 16, 8⟩
def FW_BOOT.TIME_100US : Fld := ⟨.FW_BOOT, 0, 16⟩
def FW_UPDCTL.ACTIVATE : Fld := ⟨.FW_UPDCTL, 31, 1⟩
def FW_UPDCTL.CANCEL : Fld := ⟨.FW_UPDCTL, 30, 1⟩
def FW_UPDCTL.CORES : Fld := ⟨.FW_UPDCTL, 0, 15⟩
def FW_UPDSTAT.STATE : Fld := ⟨.FW_UPDSTAT, 28, 4⟩
def FW_UPDSTAT.RESULT : Fld := ⟨.FW_UPDSTAT, 24, 4⟩
def FW_UPDSTAT.NEXT : Fld := ⟨.FW_UPDSTAT, 0, 4⟩
def FW_EVT.FAULT : Fld := ⟨.FW_EVT, 4, 1⟩
def FW_EVT.FAILED : Fld := ⟨.FW_EVT, 3, 1⟩
def FW_EVT.ACTIVATED : Fld := ⟨.FW_EVT, 2, 1⟩
def FW_EVT.DEFERRED : Fld := ⟨.FW_EVT, 1, 1⟩
def FW_EVT.RESTART : Fld := ⟨.FW_EVT, 0, 1⟩
def PM_STATUS.REG_FAULT : Fld := ⟨.PM_STATUS, 31, 1⟩
def PM_STATUS.BLOCK_W : Fld := ⟨.PM_STATUS, 0, 16⟩
def PM_FAULT.RAIL : Fld := ⟨.PM_FAULT, 0, 50⟩
def PM_RAIL_CFG.ON : Fld := ⟨.PM_RAIL_CFG, 31, 1⟩
def PM_RAIL_CFG.ADDR : Fld := ⟨.PM_RAIL_CFG, 24, 7⟩
def PM_RAIL_CFG.VSET_MV : Fld := ⟨.PM_RAIL_CFG, 0, 16⟩
def PM_RAIL_MEAS.IOUT_DA : Fld := ⟨.PM_RAIL_MEAS, 16, 16⟩
def PM_RAIL_MEAS.VOUT_MV : Fld := ⟨.PM_RAIL_MEAS, 0, 16⟩
def THM_CFG.NOTICE_MS : Fld := ⟨.THM_CFG, 8, 8⟩
def THM_CFG.GRACE_MS : Fld := ⟨.THM_CFG, 0, 7⟩
def THM_STATUS.LEVEL : Fld := ⟨.THM_STATUS, 30, 2⟩
def THM_STATUS.SLOW : Fld := ⟨.THM_STATUS, 28, 2⟩
def THM_STATUS.POWER : Fld := ⟨.THM_STATUS, 27, 1⟩
def THM_STATUS.HOT : Fld := ⟨.THM_STATUS, 8, 6⟩
def THM_STATUS.GRACE_LEFT_MS : Fld := ⟨.THM_STATUS, 0, 7⟩
def THM_EVT.REJ : Fld := ⟨.THM_EVT, 2, 1⟩
def THM_EVT.ENFORCED : Fld := ⟨.THM_EVT, 1, 1⟩
def THM_EVT.WARN : Fld := ⟨.THM_EVT, 0, 1⟩
def THM_SENS_CFG.MODE : Fld := ⟨.THM_SENS_CFG, 30, 2⟩
def THM_SENS_CFG.BETA_K : Fld := ⟨.THM_SENS_CFG, 16, 14⟩
def THM_SENS_CFG.PARAM : Fld := ⟨.THM_SENS_CFG, 0, 16⟩
def THM_SENS_THR.SHUT_C : Fld := ⟨.THM_SENS_THR, 16, 8⟩
def THM_SENS_THR.THROT_C : Fld := ⟨.THM_SENS_THR, 8, 8⟩
def THM_SENS_THR.WARN_C : Fld := ⟨.THM_SENS_THR, 0, 8⟩
def THM_SENS_HYS.SHUT_H : Fld := ⟨.THM_SENS_HYS, 8, 4⟩
def THM_SENS_HYS.THROT_H : Fld := ⟨.THM_SENS_HYS, 4, 4⟩
def THM_SENS_HYS.WARN_H : Fld := ⟨.THM_SENS_HYS, 0, 4⟩
def THM_SENS_READ.VALID : Fld := ⟨.THM_SENS_READ, 31, 1⟩
def THM_SENS_READ.LEVEL : Fld := ⟨.THM_SENS_READ, 29, 2⟩
def THM_SENS_READ.TEMP : Fld := ⟨.THM_SENS_READ, 0, 16⟩
def HK_ROUND.STAMP : Fld := ⟨.HK_ROUND, 0, 64⟩
def HK_CH.VALUE : Fld := ⟨.HK_CH, 0, 16⟩
def SNF_LOCK.LOCK : Fld := ⟨.SNF_LOCK, 0, 1⟩
def SNF_VLOGIC.VMAX_MV : Fld := ⟨.SNF_VLOGIC, 16, 16⟩
def SNF_VLOGIC.VMIN_MV : Fld := ⟨.SNF_VLOGIC, 0, 16⟩
def SNF_VNMC.VMAX_MV : Fld := ⟨.SNF_VNMC, 16, 16⟩
def SNF_VNMC.VMIN_MV : Fld := ⟨.SNF_VNMC, 0, 16⟩
def SNF_VPHY.VMAX_MV : Fld := ⟨.SNF_VPHY, 16, 16⟩
def SNF_VPHY.VMIN_MV : Fld := ⟨.SNF_VPHY, 0, 16⟩
def SNF_MISC.STACK_VTOL : Fld := ⟨.SNF_MISC, 24, 8⟩
def SNF_MISC.NMC_DIV_MIN : Fld := ⟨.SNF_MISC, 16, 8⟩
def SNF_MISC.PMAX_W : Fld := ⟨.SNF_MISC, 0, 16⟩
def SNF_IMAX.LOGIC_A : Fld := ⟨.SNF_IMAX, 22, 10⟩
def SNF_IMAX.NMC_A : Fld := ⟨.SNF_IMAX, 12, 10⟩
def SNF_IMAX.PHY_DA : Fld := ⟨.SNF_IMAX, 0, 10⟩
def SNF_IMAX_STK.VDDC_DA : Fld := ⟨.SNF_IMAX_STK, 20, 10⟩
def SNF_IMAX_STK.VDDQ_DA : Fld := ⟨.SNF_IMAX_STK, 10, 10⟩
def SNF_IMAX_STK.VPP_DA : Fld := ⟨.SNF_IMAX_STK, 0, 10⟩
def SNF_TCEIL.SHUT_C : Fld := ⟨.SNF_TCEIL, 24, 8⟩
def SNF_TCEIL.THROT_C : Fld := ⟨.SNF_TCEIL, 16, 8⟩
def SNF_TCEIL.GRACE_MAX_MS : Fld := ⟨.SNF_TCEIL, 8, 8⟩
def SNF_TCEIL.NOTICE_MAX_MS : Fld := ⟨.SNF_TCEIL, 0, 8⟩
def SNF_STAT.ENFORCED : Fld := ⟨.SNF_STAT, 31, 1⟩
def SNF_STAT.SHUTDOWN : Fld := ⟨.SNF_STAT, 30, 1⟩
def SNF_STAT.CLAMPS : Fld := ⟨.SNF_STAT, 0, 16⟩
def MIR_PAIR.STATE : Fld := ⟨.MIR_PAIR, 29, 3⟩
def MIR_PAIR.RESULT : Fld := ⟨.MIR_PAIR, 26, 3⟩
def MIR_PAIR.OP : Fld := ⟨.MIR_PAIR, 24, 2⟩
def MIR_PAIR.VER : Fld := ⟨.MIR_PAIR, 0, 8⟩
def MIR_CFG.SYNC_SHARE : Fld := ⟨.MIR_CFG, 16, 4⟩
def MIR_CFG.LOSS_US : Fld := ⟨.MIR_CFG, 0, 16⟩
def MIR_PORT.UP : Fld := ⟨.MIR_PORT, 31, 1⟩
def MIR_PORT.WIDTH : Fld := ⟨.MIR_PORT, 28, 3⟩
def MIR_PORT.PWIDTH : Fld := ⟨.MIR_PORT, 25, 3⟩
def MIR_PEER.BYTES : Fld := ⟨.MIR_PEER, 0, 64⟩
def MIR_WCTL.COMMIT : Fld := ⟨.MIR_WCTL, 31, 1⟩
def MIR_WCTL.PENDING : Fld := ⟨.MIR_WCTL, 30, 1⟩
def MIR_WCTL.REJ : Fld := ⟨.MIR_WCTL, 29, 1⟩
def MIR_WCTL.EPOCH : Fld := ⟨.MIR_WCTL, 0, 16⟩
def MIR_PEPOCH.EPOCH : Fld := ⟨.MIR_PEPOCH, 0, 16⟩
def MIR_ACKTS.VALUE : Fld := ⟨.MIR_ACKTS, 0, 64⟩
def MIR_TSOFF.VALUE : Fld := ⟨.MIR_TSOFF, 0, 64⟩
def MIR_TSERR.VALUE : Fld := ⟨.MIR_TSERR, 0, 64⟩
def MIR_PSEQ.VALUE : Fld := ⟨.MIR_PSEQ, 0, 64⟩
def MIR_STAT.AUTH_FAILS : Fld := ⟨.MIR_STAT, 24, 8⟩
def MIR_STAT.STALE : Fld := ⟨.MIR_STAT, 8, 16⟩
def MIR_STAT.DIVERGES : Fld := ⟨.MIR_STAT, 0, 8⟩
def MIR_PHEAD.BYTES : Fld := ⟨.MIR_PHEAD, 0, 64⟩
def MIR_WIN_BASE.ADDR : Fld := ⟨.MIR_WIN_BASE, 16, 24⟩
def MIR_WIN_PBASE.ADDR : Fld := ⟨.MIR_WIN_PBASE, 16, 24⟩
def MIR_WIN_SIZE.UNITS : Fld := ⟨.MIR_WIN_SIZE, 0, 24⟩
def MIR_WIN_CTL.EN : Fld := ⟨.MIR_WIN_CTL, 31, 1⟩
def MIR_WIN_CTL.SYNC : Fld := ⟨.MIR_WIN_CTL, 30, 1⟩
def MIR_WIN_CTL.STATE : Fld := ⟨.MIR_WIN_CTL, 27, 3⟩
def MIR_ACT_BASE.ADDR : Fld := ⟨.MIR_ACT_BASE, 16, 24⟩
def MIR_ACT_PBASE.ADDR : Fld := ⟨.MIR_ACT_PBASE, 16, 24⟩
def MIR_ACT_SIZE.UNITS : Fld := ⟨.MIR_ACT_SIZE, 0, 24⟩
def MIR_ACT_CTL.EN : Fld := ⟨.MIR_ACT_CTL, 31, 1⟩
def MIR_ACT_CTL.SYNC : Fld := ⟨.MIR_ACT_CTL, 30, 1⟩
def MIR_ACT_CTL.STATE : Fld := ⟨.MIR_ACT_CTL, 27, 3⟩
def MIR_PLAST.RTS : Fld := ⟨.MIR_PLAST, 0, 48⟩
def PMU_CTL.SNAP : Fld := ⟨.PMU_CTL, 31, 1⟩
def PMU_CTL.FREEZE : Fld := ⟨.PMU_CTL, 30, 1⟩
def PMU_CTL.SNAP_REJ : Fld := ⟨.PMU_CTL, 29, 1⟩
def PMU_CTL.FROZEN : Fld := ⟨.PMU_CTL, 28, 1⟩
def PMU_CTL.BUSY : Fld := ⟨.PMU_CTL, 27, 1⟩
def PMU_SNAPTS.STAMP : Fld := ⟨.PMU_SNAPTS, 0, 64⟩
def PMU_FREEZETS.STAMP : Fld := ⟨.PMU_FREEZETS, 0, 64⟩
def PMU_PC.COUNT : Fld := ⟨.PMU_PC, 0, 48⟩
def PMU_AES.COUNT : Fld := ⟨.PMU_AES, 0, 48⟩
def PMU_ARB.COUNT : Fld := ⟨.PMU_ARB, 0, 48⟩
def PMU_CTX.COUNT : Fld := ⟨.PMU_CTX, 0, 48⟩
def PMU_SH_PC.COUNT : Fld := ⟨.PMU_SH_PC, 0, 48⟩
def PMU_SH_AES.COUNT : Fld := ⟨.PMU_SH_AES, 0, 48⟩
def PMU_SH_ARB.COUNT : Fld := ⟨.PMU_SH_ARB, 0, 48⟩
def PMU_SH_CTX.COUNT : Fld := ⟨.PMU_SH_CTX, 0, 48⟩
def PMU_LNT_CYCLE.COUNT : Fld := ⟨.PMU_LNT_CYCLE, 0, 48⟩
def PMU_LNT_CNT.COUNT : Fld := ⟨.PMU_LNT_CNT, 0, 48⟩
def PMU_LNT_SEL.EN : Fld := ⟨.PMU_LNT_SEL, 31, 1⟩
def PMU_LNT_SEL.MODE : Fld := ⟨.PMU_LNT_SEL, 30, 1⟩
def PMU_LNT_SEL.CTX : Fld := ⟨.PMU_LNT_SEL, 16, 8⟩
def PMU_LNT_SEL.EVENT : Fld := ⟨.PMU_LNT_SEL, 0, 8⟩
def PMU_LNT_SHCYCLE.COUNT : Fld := ⟨.PMU_LNT_SHCYCLE, 0, 48⟩
def PMU_LNT_SHCNT.COUNT : Fld := ⟨.PMU_LNT_SHCNT, 0, 48⟩
def PMU_BLK_CYCLE.COUNT : Fld := ⟨.PMU_BLK_CYCLE, 0, 48⟩
def PMU_BLK_CNT.COUNT : Fld := ⟨.PMU_BLK_CNT, 0, 48⟩
def PMU_BLK_SEL.EN : Fld := ⟨.PMU_BLK_SEL, 31, 1⟩
def PMU_BLK_SEL.MODE : Fld := ⟨.PMU_BLK_SEL, 30, 1⟩
def PMU_BLK_SEL.CTX : Fld := ⟨.PMU_BLK_SEL, 16, 8⟩
def PMU_BLK_SEL.EVENT : Fld := ⟨.PMU_BLK_SEL, 0, 8⟩
def PMU_BLK_SHCYCLE.COUNT : Fld := ⟨.PMU_BLK_SHCYCLE, 0, 48⟩
def PMU_BLK_SHCNT.COUNT : Fld := ⟨.PMU_BLK_SHCNT, 0, 48⟩

end F

end Sys2Proof.Machine
end

