-- ==== Sys2Proof/Machine/Tbl.lean ====
section
/-! DEFINITION. Sparse tables: read, write and the canonical form: keys strictly rising; a write of the default lists nothing, so
that equal tables are equal data. -/

namespace Sys2Proof.Machine

/-- The value at key `k`: the listed one, or the default `d`. -/
def tget {α : Type} (d : α) : Tbl α → Nat → α
  | [], _ => d
  | (j, v) :: t, k => if j = k then v else tget d t k

/-- Removes key `k`. -/
def tdel {α : Type} : Tbl α → Nat → Tbl α
  | [], _ => []
  | (j, v) :: t, k => if j = k then tdel t k else (j, v) :: tdel t k

/-- Puts `v` at key `k`, keeping the keys rising. -/
def tins {α : Type} (v : α) : Tbl α → Nat → Tbl α
  | [], k => [(k, v)]
  | (j, w) :: t, k => if k < j then (k, v) :: (j, w) :: t else if j = k then (k, v) :: t else (j, w) :: tins v t k

/-- Writes `v` at key `k`; writing the default removes the entry. -/
def tset {α : Type} [DecidableEq α] (d : α) : Tbl α → Nat → α → Tbl α
  | [], k, v => if v = d then [] else [(k, v)]
  | e :: t, k, v => if v = d then tdel (e :: t) k else tins v (e :: t) k

/-- Keys strictly rising, every key at least `lo`. -/
def risingFrom {α : Type} : Nat → Tbl α → Bool
  | _, [] => true
  | lo, (j, _) :: t => decide (lo ≤ j) && risingFrom (j + 1) t

/-- Keys strictly rising. -/
def rising {α : Type} (t : Tbl α) : Bool := risingFrom 0 t

/-- Drops every listed key that `p` names, so that those keys read as the default. -/
def tdropWhere {α : Type} (p : Nat → Bool) (t : Tbl α) : Tbl α := t.filter fun e => !p e.1

/-- Puts `v` at position `i` of a list whose positions past its end hold `d`. -/
def lset {α : Type} (d : α) (l : List α) (i : Nat) (v : α) : List α := (l ++ List.replicate (i + 1 - l.length) d).set i v

/-- The numbers below `n` that satisfy `p`, ascending. -/
def upTo (n : Nat) (p : Nat → Bool) : List Nat := (List.range n).filter p

/-- The least number below `n` that satisfies `p`. -/
def leastBelow (n : Nat) (p : Nat → Bool) : Option Nat := (List.range n).find? p

end Sys2Proof.Machine
end

