-- ==== Sys2Proof/Machine/State.lean ====
section
/-! DEFINITION. The state of the block as plain data, the reasons a command can stop, and the state after reset. -/

namespace Sys2Proof.Machine

/-- Why a command faults: for no reason. The spec stops the block at no command, so the type has no constructor, and every command
answers a next state. -/
inductive Fault where
deriving DecidableEq, Repr

/-- Why a command has no meaning. -/
inductive Refusal where
  /-- The command has no meaning in this model yet. Raised by Dispatch only. Safe: the model stops. -/
  | notModelled (mnemonic : String)
deriving DecidableEq, Repr

/-! ## Memory -/

/-- A stored line (R607): the symbols c0 to c65. With `key = some K`, c0 to c63 are the AES-256-XTS ciphertext of `data`
under the key pair `K`; with `none` they are `data` itself (a poison line, or a line nothing has written). The check
symbols c66 to c71 are the outer code's of these (R609), so they are computed, not stored. -/
structure Line where
  data : LineData
  key : Option (BitVec 512)
  md : Byte
  kc : Byte
deriving DecidableEq, Repr

/-- A line nothing has written since power-on: all symbols 0 (DESIGN CHOICE, notes/assumptions/4). -/
def Line.blank : Line := ⟨0, none, 0, 0⟩

/-- The background a zeroing leaves in a region (R73, R804, R805): zero data under key pair `key`, with E bit `e`, the
half's key-check byte and FORMAT 0b01. During a rotation the chunks below `wm` are under the new half instead. -/
structure Fill where
  key : BitVec 512
  e : Bool
  kc : Byte
  wm : Nat
  key2 : BitVec 512
  kc2 : Byte
deriving DecidableEq, Repr

/-- Plot states (R68, R72). -/
inductive PlotState where
  | free | openPlot | sealed | retired | quarantine
deriving DecidableEq, Repr

/-- A plot table entry (R68). -/
structure Plot where
  stamp : W64
  gen : BitVec 16
  rights : BitVec 16
  member : Nat
  frame : Nat
  stack : Nat
  rsvd : Bool
  next : Bool
  keyslot : Nat
  owner : Nat
  rotating : Bool
  epoch : Bool
  mirror : Bool
  wide : Bool
  state : PlotState
deriving DecidableEq, Repr

/-- A change of a plot entry that has to wait for the next tick (R71): SEC's of a session's begin or end, CCCk's as backing goes, and
SEC's in a rotation or for a replaced slot. -/
inductive PlotChange where
  | turn (was now : PlotState)
  | retire (core : Nat)
  | epoch (slot : Nat) (e : Bool)
  | rotated (slot : Nat)
  | keyslot (old new : Nat)
deriving DecidableEq, Repr

/-- A FREE plot as cold reset leaves it. -/
def Plot.blank : Plot := ⟨0, 0, 0, 0, 0, 0, false, false, 0, 0, false, false, false, false, .free⟩

/-- What is under way on a plot in QUARANTINE (R73, R74): the first request id accepted after the FREE, whether SEC has
reported the key action, whether the plot was RETIRED, and the earliest end of its zeroing. -/
structure Quarantine where
  mark : Nat
  keyDone : Bool
  wasRetired : Bool
deriving DecidableEq, Repr

/-! ## Requests -/

/-- Where a line lies (R80). -/
structure Loc where
  k : Nat
  pc : Nat
  sid : Nat
  bank : Nat
  row : Nat
  col : Nat
deriving DecidableEq, Repr

/-- What one line of a request has come to. -/
inductive LineSt where
  | pending
  | done (data : LineData) (poison corr : Bool)
deriving DecidableEq, Repr

/-- The stages of an accepted request: in its ingress queue; released at a stamp; granted at a stamp; answered, the reply
ready at a stamp. -/
inductive Stage where
  | queued
  | released (at_ : Nat)
  | granted (at_ : Nat)
  | replying (ready : Nat)
deriving DecidableEq, Repr

/-- Why a request was made inside the block. -/
inductive Purpose where
  | port                                 -- from a fabric port
  | host (id : Nat) (part : Nat)         -- part of a host's request
  | mirror (window : Nat) (owner : Nat)  -- from a mirror port, with WIN and OTENANT of its frame
  | lantern (ctx : Nat) (tag : Nat) (gen : Nat)
  | block (job : Nat)                    -- 0 a fetch of a submission entry, 1 the write of a completion record
deriving DecidableEq, Repr

/-- A request from its acceptance to its reply's hand-over, with what R70, R155, R156, R194 and R199 fix at acceptance. -/
structure Flight where
  id : Nat
  hdr : Header
  beats : List LineData
  trailer : BitVec 128
  k : Nat
  req : Nat
  fn : Nat
  tenant : Option Nat
  why : Purpose
  stamp : Nat
  tmo : Nat
  floor : Nat
  lease : Nat
  isSealed : Bool
  charged : List Nat
  plot : Nat
  slot : Nat
  epoch : Bool
  rotating : Bool
  loc : Loc
  also : Option Nat
  stage : Stage
  prio : Nat
  order : Nat
  lines : List LineSt
  result : Nat
  detail : Nat
  rval : W64
  counted : Bool
  /-- One more than the stamp of its grant (R160), 0 before. -/
  grantAt : Nat
  firstSeen : Nat
  skipFloor : Bool
  dead : Bool
deriving DecidableEq, Repr

/-- A lock table entry (R134, R136, R137). -/
structure Lock where
  k : Nat
  plotScope : Bool
  name : Nat
  owner : Nat
  epoch : Nat
  lease : Nat
  broken : Bool
  breaking : Bool
deriving DecidableEq, Repr

/-- The credits one doorkeeper keeps for one port (R146, R149). -/
structure Credit where
  hdr : Nat
  data : Nat
  resp : Nat
deriving DecidableEq, Repr

/-! ## Crossbar slices and PC controllers -/

/-- A crossbar slice (R163): its owner, the lines granted to it, the limit in force, the round-robin pointer, the tick of
its last decision, and the exceptional grants of the guard band that began at stamp `guardFrom` (R301). -/
structure Slice where
  owner : Option Nat
  lines : Nat
  limit : Nat
  rr : Nat
  last : Option Nat
  guard : Nat
  guardFrom : Nat
deriving DecidableEq, Repr

/-- A calendar that a commit has accepted and that waits for a cycle start (R310, R314): its slots, guard band and slot count. -/
structure Calendar where
  n : Nat
  guard : Nat
  slots : List W64
  /-- The stamp of the commit: only a later cycle start applies it (R310). -/
  madeAt : Nat
  /-- The end of the maintenance window it has to wait for (R314), 0 before a cycle start has found one. -/
  waits : Nat
deriving DecidableEq, Repr

/-- PC states (PC_STATUS.STATE, R200). -/
inductive PcState where
  | off | serving | selfRefresh | frozen | spare | retired | training
deriving DecidableEq, Repr

/-- A read-queue entry (R176): one line of a request. `waitW` names the write entry a SEALED read waits for, `retry` says
that a retry is due, `tries` counts the failed decodes, `got` is the line as the issued access reads it (R183), `dataAt` the stamp at
which its data are decoded; `second` is the CLK_PHY tick from which a CLASS 1 read's second retry issues and `secondAt` the
stamp of its decode (R220); `handed` is the stamp at which the line is handed to the crossbar, which frees the entry. -/
structure REnt where
  fl : Nat
  ln : Nat
  loc : Loc
  order : Nat
  prio : Nat
  issued : Bool
  waitW : Option Nat
  rmw : Bool
  fwd : Option (LineData × Bool)
  retry : Bool
  tries : Nat
  got : Option Line
  dataAt : Nat
  second : Option Nat
  secondAt : Option Nat
  handed : Option Nat
deriving DecidableEq, Repr

/-- A write-queue entry (R176): the plaintext of one line, or a poison line; `ready` is false for the place a
read-modify-write has reserved; `after` lists the read entries that must issue first (R179); `staged` is the CLK_PHY tick in which the
line was passed to the AES pipeline (R191), and `out` the ticks of its first and its last WR command once its access has issued. -/
structure WEnt where
  id : Nat
  fl : Nat
  pa : Nat
  loc : Loc
  order : Nat
  prio : Nat
  data : LineData
  poison : Bool
  fmt : Nat
  slot : Nat
  epoch : Bool
  plot : Nat
  req : Nat
  ready : Bool
  after : List (Nat × Nat)
  staged : Option Nat
  out : Option (Nat × Nat)
deriving DecidableEq, Repr

/-- A line that waits in a PC for a read-modify-write on it (R179), with the queue entries kept for it (R161); `other` marks the
place kept in the PC to which its chunk is being copied (R159). -/
structure Waiter where
  fl : Nat
  ln : Nat
  reads : Nat
  writes : Nat
  other : Bool
deriving DecidableEq, Repr

/-- One burst reserved on a PC's data bus (R182): its CLK_PHY tick, its direction, and its bank group (stack ID times 4 plus group). -/
structure Burst where
  at_ : Nat
  write : Bool
  group : Nat
deriving DecidableEq, Repr


/-- One entry of a row tracker (R221). -/
structure TrkEnt where
  row : Nat
  count : Nat
  ports : List (Nat × Nat)
deriving DecidableEq, Repr

/-- An ACT that brought an entry of a row tracker to ACT_LIMIT in the present tick (R222, R237): the tracker as it was before it. -/
structure RgHit where
  k : Nat
  pc : Nat
  sid : Nat
  bank : Nat
  top : Nat
  before : List TrkEnt
deriving DecidableEq, Repr

/-- One bank of one stack ID: its last ACT in CLK_PHY ticks, its tracker (R221), overflow and owed RFMs (R222, R229),
and the CLK_PHY tick to which an RFM holds it. -/
structure Bank where
  lastAct : Option Nat
  trk : List TrkEnt
  overflow : Bool
  owed : Nat
  busy : Nat
deriving DecidableEq, Repr

/-- The refresh sequence of a PC (R206): none, a due stamp has passed and the banks are closing, or stalled to a stamp. -/
inductive RefSt where
  | idle
  | closing (due : Nat)
  | stall (until_ : Nat)
deriving DecidableEq, Repr

/-- The self-refresh sequence of a PC (R231 to R235); `leave` marks an entry that is to exit when it completes, and
`owing` a PC in self-refresh that is to exit as soon as its stack takes commands (R245). -/
inductive SrSt where
  | awake
  | asking
  | entering (at_ : Nat) (leave : Bool)
  | asleep
  | owing
  | exiting (at_ : Nat)
deriving DecidableEq, Repr

/-- What a freeze holds for its diagnosis (R621, R623, R809): its cause class, its stamp, whether CCCk has made its
choice, and the stage of the command it froze on. -/
structure Freeze where
  cls : Nat
  at_ : Nat
  chosen : Bool
  cmd : Nat
deriving DecidableEq, Repr

/-- One PC controller (R176 to R187, R206, R221 to R235, R620 to R622). -/
structure Pc where
  st : PcState
  drain : Bool
  rq : List REnt
  wq : List WEnt
  rmw : List Nat
  waiting : List Waiter
  banks : Tbl Bank
  acts : List (Nat × Nat)
  slots : List Burst
  aesFree : Nat
  lfsr : W32
  ref : RefSt
  sr : SrSt
  idleSince : Nat
  skipUntil : Nat
  caTries : Nat
  freeze : Option Freeze
  wasSpare : Bool
deriving DecidableEq, Repr

/-- A PC controller as cold reset leaves it. -/
def Pc.blank : Pc :=
  ⟨.off, false, [], [], [], [], [], [], [], 0, 0, .idle, .awake, 0, 0, 0, none, false⟩

/-- An arbiter hold in force (R169 to R173). -/
structure Hold where
  k : Nat
  pc : Nat
  req : Nat
  epoch : Nat
  until_ : Nat
  breaking : Bool
deriving DecidableEq, Repr

/-- A throttle (R224, R227). -/
structure Throttle where
  k : Nat
  pc : Nat
  sid : Nat
  bank : Nat
  req : Nat
  tokens : Nat
deriving DecidableEq, Repr

/-- A published or running maintenance window (R214): for a TEST or REPAIR (R632, R634, R707) the columns of its row that could not be
corrected, and in `tested` whether the read-back fails; for a RETRAIN `tested` says that its searches go on (false) or that their
results do not count (true). `acted`: the row of a TEST or REPAIR has been opened and written. `gone`: CCCk has restarted in it. -/
structure Window where
  running : Bool
  bad : List Nat
  tested : Option Bool
  acted : Bool
  gone : Bool
deriving DecidableEq, Repr

/-! ## Time -/

/-- The clocks (R36 to R45): the master timestamp and whether it counts, each replica's last good
check and the next check, the CLK_NMC divider's alignment (R803), the PLLs' state; what each replica counter (0 to 11 of a cluster,
12 of the block) is ahead of the master (R26, R45), modulo 2^64; and the phase of each CLK_PHYk against CLK_TS since its last lock
(R802), in 1/48 of its tick. -/
structure Clk where
  now : W64
  running : Bool
  mainLost : Bool
  lastGood : List Nat
  nextCheck : Nat
  nmcOrigin : Nat
  nmcAsk : Option Bool
  relocking : List Nat
  skew : Tbl W64
  phase : Tbl Nat
deriving DecidableEq, Repr

/-! ## What the block sends -/

/-- A signal to the hub die. -/
inductive HubSig where
  | coldAsk | warmAck | pwroffReq | l1Ask | l1Withdraw | width (port w : Nat)
deriving DecidableEq, Repr

/-- A frame for the mirror partner (R756, R758); replies to its writes leave as replies of ports 25 and 26. -/
inductive MirMsg where
  | data (w epoch owner : Nat) (hdr : Header) (lines : List LineData)
  | hello (proto width : Nat)
  | state (seq : Nat) (stamp : Nat) (item : MirItem)
  | epoch (e : Nat) (set : List (Nat × Nat × Nat × Nat))
  | probe (t1 : Nat)
  | probeReply (t1 t2 t3 : Nat)
  | heart
  | down (cause : Nat)
deriving DecidableEq, Repr

/-- What leaves the block, in order. A frame on a mirror port is its clear prefix (R756), then its body: a message, or a reply. -/
inductive Output where
  | reply (port k : Nat) (hdr : Header) (data : List LineData)
  | regRead (fn : Nat) (v : W64)
  | unsupported (fn : Nat)
  | completion (fn : Nat) (ok poisoned : Bool) (data : List Byte)
  | msix (fn vec : Nat) (addr : W64) (data : W32)
  | hub (s : HubSig)
  | hostRead (fn : Nat) (addr : Nat) (len tag gen : Nat)
  | hostWrite (fn : Nat) (addr : Nat) (data : List Byte)
  | pmbus (rail mv : Nat)
  /-- CLEAR_FAULTS to a rail's regulator (R722, R744). -/
  | clearFaults (rail : Nat)
  | frame (port : Nat) (pre : BitVec 128)
  | mirror (port : Nat) (m : MirMsg)
  | mailbox (fn : Nat) (sess : Option Nat) (result detail : Nat) (data : List Byte)
deriving DecidableEq, Repr

/-! ## Error records and the history -/

/-- An error record's variable content (R626). -/
structure ErrRec where
  stamp : Nat
  sev : Nat
  cls : Nat
  sub : Nat
  origin : Nat
  cluster : Nat
  ppc : Nat
  lpc : Nat
  sidbank : Nat
  syms : Nat
  row : Nat
  col : Nat
  result : Nat
  pa : Nat
  req : Nat
  tenant : Nat
  plot : Nat
  ring : Nat
  seq : Nat
  instr : Nat
  count : Nat
  related : Nat
  detail : List Byte
deriving DecidableEq, Repr

/-- A unit of the non-volatile history (R630, R631): class 0 ROW, 1 BANK, 2 PC, 3 LANE, 4 ARRAY, 5 LANTERN; marked for hard repair, and
the cold boot that applied it (0: none). -/
structure HistUnit where
  cls : Nat
  cluster : Nat
  a : Nat
  b : Nat
  count : Nat
  hours : List Nat
  permanent : Bool
  hardRepair : Bool
  hardDone : Nat
deriving DecidableEq, Repr


/-- The non-volatile history (R630, R642, R83): its units, the start marks without an end mark (kind 0 migration of a
cluster's source PC, 1 rotation of a slot), the PCs it marks retired, the cold-boot count, and the power-on hours of the
boots before this one. -/
structure Hist where
  units : List HistUnit
  marks : List (Nat × Nat × Nat)
  retired : List (Nat × Nat)
  boots : Nat
  hours : Nat
deriving DecidableEq, Repr

/-- A migration under way beside CLU_MIG (R636, R641): its reason. -/
structure Mig where
  reason : Nat
deriving DecidableEq, Repr

/-- An operation of RAS_FRZCTLk whose VERIFY runs (R623): 1 THAW, 2 RETIRE_COPY, on a PC; whether CCCk chose it. -/
structure FrzOp where
  op : Nat
  pc : Nat
  auto : Bool
deriving DecidableEq, Repr

/-! ## Lanterns -/

/-- Context states (R347). SUSPENDED is not stored: it is what a RUNNING or WAITING context shows while the gate stops it
(R305). -/
inductive CtxState where
  | idle | running | waiting | held | draining
deriving DecidableEq, Repr

/-- The job of a context (R523, R526 to R531): tenant, function, ring, sequence number, ring epoch, IRQ, and its stamps. -/
structure Job where
  tenant : Nat
  fn : Nat
  ring : Nat
  seq : Nat
  epoch : Nat
  irq : Bool
  fetch : Nat
  start : Nat
deriving DecidableEq, Repr

/-- A loop-stack entry (R397). -/
structure LoopEnt where
  start : Nat
  stop : Nat
  left : Nat
  index : Nat
  adv : Nat
  rst : Bool
  idx : Bool
  i : Nat
  saved : List (Nat × Nat)
  depth : Nat
deriving DecidableEq, Repr

/-- A call-stack entry (R402): the image returned to (none: the inline image), the IP, the loop-stack height. -/
structure CallEnt where
  img : Option Nat
  ip : Nat
  height : Nat
deriving DecidableEq, Repr

/-- A resident image (R387): its address (none: the inline image), code words, ENTRY, and the stamp of its last entry. -/
structure Image where
  pa : Option Nat
  words : List (BitVec 128)
  entry : Nat
  used : Nat
deriving DecidableEq, Repr

/-- The registers of a context (R375): scalars, stream descriptors, tiles, FLAGS. -/
structure CtxRegs where
  s : List W64
  d : List (BitVec 256)
  t : List (BitVec 512)
  flags : Byte
deriving DecidableEq, Repr

/-- The program of a context (R375): IP and image, resident images, the two stacks, and the next instruction's index. -/
structure Prog where
  ip : Nat
  img : Option Nat
  imgs : List Image
  calls : List CallEnt
  loops : List LoopEnt
  n : Nat
deriving DecidableEq, Repr

/-- Why an instruction fails (R421): CODE, MRES, SUB, INFO. -/
structure Exc where
  code : Nat
  mres : Nat
  sub : Nat
  info : Nat
deriving DecidableEq, Repr

/-- The end of a job (R392, R419): RESULT and detail word, the index reported, the stamp; whether the implicit fence is still
to complete, and whether the record has entered the FIFO. -/
structure JobFin where
  result : Nat
  detail : W64
  instr : Nat
  at_ : Nat
  fence : Bool
  sent : Bool
deriving DecidableEq, Repr

/-- Where a chunk stands (R354): its index lines or inputs coming, array operations, the verdict due, a replay on an array, a
COLLECT wait, its writes. -/
inductive ChunkSt where
  | index
  | fetch
  | compute
  | verdict (at_ : Nat)
  | replay (arr at_ : Nat)
  | collect (since : Nat)
  | writing
deriving DecidableEq, Repr

/-- An output line of a chunk (R433): the line, its bytes and byte mask, the descriptor register, and whether its write has
been acknowledged. -/
structure OutLine where
  line : Nat
  data : LineData
  mask : W64
  reg : Nat
  acked : Bool
deriving DecidableEq, Repr

/-- A Posy entry (R475, R476): key, format, the 16 exact sums in units of 2^-149, the sticky bits by accumulator, the counts and
checks, the FP64 sums, the fault bits, the stamp of the last contribution, and whether a COLLECT holds it. -/
structure PosyEnt where
  line : Nat
  half : Bool
  round : Nat
  held : Bool
  cfmt : Nat
  acc : List Int
  nan : BitVec 16
  pinf : BitVec 16
  ninf : BitVec 16
  count : Nat
  srcsum : W32
  srcsq : W32
  dsum : W64
  asum : W64
  dcount : Nat
  ovf : Bool
  conflict : Bool
  last : Nat
deriving DecidableEq, Repr

/-- A chunk (R353 to R358): number, stage, held input lines, reads and writes outstanding, array operations (number, arrays by
operation, ended), outputs, the failure that waits for earlier chunks, the first failed check (code, element, array), whether
it was replayed, the Posy entries it holds, and what they held when it took them (R494). -/
structure Chunk where
  m : Nat
  st : ChunkSt
  ins : List (Nat × LineData)
  need : Nat
  ops : Nat
  who : List (Nat × Nat)
  ended : Nat
  outs : List OutLine
  todo : Nat
  bad : Option (Nat × Nat × Nat)
  fail : Option Exc
  flag : Option (Nat × Nat × Nat)
  replayed : Bool
  held : List Nat
  ents : List PosyEnt
deriving DecidableEq, Repr

/-- Running results of a reading instruction (R466 to R469): the values of the unfinished group, the sums of the unfinished row
and of the whole, the same for the second norm of LAMB, violations, the digest so far, the bytes to hash. -/
structure DAcc where
  grp : List Nat
  row : W64
  tot : W64
  grp2 : List Nat
  tot2 : W64
  count : Nat
  first : Option Nat
  crc : W64
  bytes : List Byte
deriving DecidableEq, Repr

/-- A data instruction in progress (R349): its words, chunk size, number of chunks, the next to begin, the chunks in the
store, the flags to set, the running results. -/
structure DOp where
  code : Nat
  w : BitVec 128
  x : BitVec 128
  e : Nat
  total : Nat
  next : Nat
  chunks : List Chunk
  flags : Nat
  acc : DAcc
deriving DecidableEq, Repr

/-- A load (R386, R391, R402): of a job's image, or of a CALL. The image's address when one is read, the frame's address and
lines, the lines that have come, reads outstanding, and the first failure. -/
structure Load where
  call : Bool
  image : Option Nat
  frame : Option Nat
  w : BitVec 128
  x : BitVec 128
  got : List (Nat × LineData)
  need : Nat
  body : Bool
  fail : Option Exc
deriving DecidableEq, Repr

/-- A WAIT (R406 to R411): its word, deadline, a poll outstanding, the reply that has come (RESULT
and word), the stamp from which a local wake has it poll, whether the next reply decides a timeout, and the last word read. -/
structure Wait where
  /-- The stamp of the next regular poll, 128 cycles of CLK_NMC after the last. -/
  next : Nat
  /-- The number of the last poll: the reply to another one counts for nothing (R418). -/
  num : Nat
  w : BitVec 128
  deadline : Option Nat
  out : Bool
  reply : Option (Nat × W64)
  again : Option Nat
  final : Bool
  last : W64
deriving DecidableEq, Repr

/-- A TEST in progress (R470 to R472): the arrays still to test, the mismatches found, the stamp to which it waits for spares, whether an
array left without a stand-in after it, and whether any array is tested. -/
structure TestOp where
  arrays : List Nat
  bad : Nat
  dl : Nat
  late : Bool
  ran : Bool
deriving DecidableEq, Repr

/-- What a context does between issues; of an awaited STAMP the scalar it writes and the stamp of its issue (R404, R419). -/
inductive COp where
  | none
  | wait (w : Wait)
  | load (l : Load)
  | sema (pre : Option (Nat × W64))
  | full (w : BitVec 128)
  | fence (mem jrnl : Bool)
  | data (d : DOp)
  | test (t : TestOp)
deriving DecidableEq, Repr

/-- A posted request (R413, R414): the index, IP and depth to report, the line it names, and the RESULT of its reply. -/
structure Posted where
  n : Nat
  ip : Nat
  depth : Nat
  reg : Nat
  line : Nat
  reply : Option Nat
deriving DecidableEq, Repr

/-- A context (R347, R375): its state, job, registers and program, the earliest stamp of its next issue, what it does, posted
requests, a failed one to report, requests to abort and to hold, journal records not acknowledged, the end of its job, and
the end of its clearing. -/
structure Ctx where
  st : CtxState
  job : Option Job
  regs : CtxRegs
  prog : Prog
  ready : Nat
  op : COp
  posted : List Posted
  pfail : Option JobFin
  abort : Bool
  hold : Bool
  jrn : Nat
  fin : Option JobFin
  clear : Option Nat
deriving DecidableEq, Repr

/-- What a Lantern's memory request is for. -/
inductive LKind where
  | code
  | poll
  | sema (dst : Option Nat)
  | posted (n : Nat)
  | data (m reg : Nat)
  | out (m : Nat)
  | contrib (m : Nat)
  | journal
deriving DecidableEq, Repr

/-- Whether a request waits for its reply, for the refill stamp after a DROPPED (R436), or for its next RETRY (R506). -/
inductive LSt where
  | sent
  | dropped
  | retry (at_ : Nat)
  | refused
deriving DecidableEq, Repr

/-- A Lantern's memory request: path (0 direct, 1 Lj), tag and GEN, context, purpose, the request itself, its state, the stamp of
its first RETRY and the CHECK_FAILED replies so far. -/
structure LReq where
  path : Nat
  tag : Nat
  gen : Nat
  ctx : Nat
  kind : LKind
  op : Nat
  pa : Nat
  len : Nat
  cls : Nat
  opnd : Nat
  word : Nat
  cfmt : Nat
  beats : List LineData
  trailer : BitVec 128
  st : LSt
  since : Nat
  checks : Nat
deriving DecidableEq, Repr

/-- A reply on its way into a Lantern (R126). -/
structure LReply where
  path : Nat
  tag : Nat
  gen : Nat
  result : Nat
  data : List LineData
  pois : Nat
  rval : W64
deriving DecidableEq, Repr

/-- An array operation in an array (R350): context, chunk, operation, the array that runs its pair, and the stamp of its end. -/
structure ArrOp where
  ctx : Nat
  m : Nat
  i : Nat
  pair : Nat
  at_ : Nat
deriving DecidableEq, Repr

/-- Why an array is tested: a TEST of a context, a sweep, or the repeat test of R660. -/
inductive TestWhy where
  | instr (c : Nat)
  | sweep
  | repeat_
deriving DecidableEq, Repr

/-- A test of an array (R321, R470 to R472, R660, R670): rounds to run, the spare that stands in, the role the array had
(0 ACTIVE, 1 SPARE, 2 STANDING_IN), the stamp to which it waits for a spare (none: it does not wait), whether it runs, the stamp
of the running round's end, and a mismatch found. -/
structure ATest where
  arr : Nat
  why : TestWhy
  rounds : Nat
  stand : Option Nat
  was : Nat
  deadline : Option Nat
  running : Bool
  at_ : Nat
  bad : Bool
  /-- The operations of the round's reference block that the work pool has still to take, and those it has taken (R472). -/
  refs : Nat
  out : Nat
deriving DecidableEq, Repr

/-- A sweep of a Lantern (R660, R670, R671): rounds, the serving arrays still to test, whether no array was a spare at its start,
a mismatch found, whether it is the repeat test of this Lantern, and the arrays that differed from the pool, to be charged at its end. -/
structure Sweep where
  rounds : Nat
  queue : List Nat
  dry : Bool
  bad : Bool
  rep : Bool
  hits : List Nat
  dl : Nat
deriving DecidableEq, Repr

/-- A host-window read outstanding (R533): tag and GEN (R124), context, chunk, register, first line and number of lines. -/
structure HostRd where
  tag : Nat
  gen : Nat
  ctx : Nat
  m : Nat
  reg : Nat
  line : Nat
  len : Nat
deriving DecidableEq, Repr

/-- One Lantern's state beyond its registers: contexts; the last context to issue and the stamp (plus 1) of that issue, and the
same of the dispatcher; memory requests with a tag, without one, the last GEN of each tag, replies not yet taken; host reads
outstanding and not yet sent; array operations, tests, arrays to be fenced, the sweep; and the journal's current line and
stamps. -/
structure Lantern where
  ctxs : List Ctx
  rr : Nat
  issued : Nat
  rrd : Nat
  disp : Nat
  reqs : List LReq
  queue : List LReq
  gens : Tbl Nat
  inbox : List LReply
  hreqs : List HostRd
  hqueue : List HostRd
  /-- The last GEN of each host-window tag (R124). -/
  hgens : Tbl Nat
  arrs : Tbl (Option ArrOp)
  tests : List ATest
  fence : List (Nat × Bool)
  /-- The arrays whose operation has ended in the present cycle, and those chosen to leave the pool in the cycle of their operation's
  end (R366). -/
  ended : List Nat
  late : List Nat
  sweep : Option Sweep
  jline : LineData
  jst : Tbl Nat
deriving DecidableEq, Repr

def CtxRegs.blank : CtxRegs := ⟨List.replicate 16 0, List.replicate 16 0, List.replicate 32 0, 0⟩
def Prog.blank : Prog := ⟨0, none, [], [], [], 0⟩
/-- A context as cold reset leaves it: IDLE. -/
def Ctx.blank : Ctx := ⟨.idle, none, CtxRegs.blank, Prog.blank, 0, .none, [], none, false, false, 0, none, none⟩
/-- A Lantern as cold reset leaves it. Both round-robins start at context 0, as though context 7 had been the last to issue and to
have an operation dispatched (DESIGN CHOICE, notes/assumptions/51: R348 and R350 name no first context). -/
def Lantern.blank : Lantern :=
  ⟨List.replicate 8 Ctx.blank, 7, 0, 7, 0, [], [], [], [], [], [], [], [], [], [], [], [], none, 0, []⟩

/-! ## Posies (chapter "The Posy") -/

/-- A Posy: its 512 entries, the CLK_NMC edge (plus 1) of its last intake and the elements taken there, and the plots whose
entries are to be freed, with the first request accepted after the change (R485). -/
structure Posy where
  ents : Tbl (Option PosyEnt)
  edge : Nat
  taken : Nat
  free : List (Nat × Nat)
deriving DecidableEq, Repr

def Posy.blank : Posy := ⟨[], 0, 0, []⟩

/-! ## Counting (chapter "Counting and watching") -/

/-- The programmable counters' sampling (R788, R789): the events of the present cycles (unit, event, context), the selectors
whose condition held in the cycle before, those written in this cycle; the stamps at which a snapshot and a change of FREEZE
take effect. Units: 0 to 11 the Lanterns, 12 Lamplighter, 13 + n core n. -/
structure Pmu where
  evs : List (Nat × Nat × Nat)
  prev : List Nat
  fresh : List Nat
  snapAt : Option Nat
  frzAt : Option (Nat × Bool)
  stash : Tbl W64
deriving DecidableEq, Repr

/-! ## Rings (chapter "Rings, functions and the host") -/

/-- A submission entry that Lamplighter has fetched and not dispatched (R525, R526): its ring, sequence number, the
number of its read, the stamp of its arrival (0 while the read is outstanding), whether it has passed its checks and for which
tenant, the 64 bytes, and the RESULT of the read. -/
structure RingEnt where
  ring : Nat
  seq : Nat
  fl : Nat
  at_ : Nat
  checked : Bool
  tenant : Nat
  data : LineData
  result : Nat
deriving DecidableEq, Repr

/-- A completion record on its way to memory (R523, R529): the FIFO it is in, its ring and ring epoch, whether its entry asks
for a message, and the record without PHASE. -/
structure Rec where
  fifo : Nat
  ring : Nat
  epoch : Nat
  irq : Bool
  data : BitVec 256
deriving DecidableEq, Repr

/-- The reply of one part of a host's request. -/
structure HostPart where
  result : Nat
  data : List LineData
  rval : W64
deriving DecidableEq, Repr

/-- A host's request that waits for its block-side replies (R517, R518): number, function, kind (0 MRd, 1 AtomicOp, 2 MWr), bytes
asked for, their offset within the first line, and the parts in ascending address order. -/
structure HostOp where
  id : Nat
  fn : Nat
  kind : Nat
  len : Nat
  lo : Nat
  parts : List (Option HostPart)
deriving DecidableEq, Repr

/-- Ring and host state beyond the registers: entries fetched, the ring whose entry was fetched last, the tick (plus 1) of the
last fetch, dispatch and record; the records in the FIFOs, the FIFO taken last, records held for PAUSED rings (R540); messages due
(function, vector, the number of the record's write plus 1 until it is acknowledged, then 0); the functions whose Bus Master
Enable the endpoint reports clear; the host's requests and their next number; the stamp (plus 1) of PF0's last heartbeat (0: no
watch); the stamp since which the link is idle, the L1_IDLE_US of this idle period, and whether L1 is asked for (R542, R551); the last GEN
of each tag of H (R124). -/
structure Rings where
  entries : List RingEnt
  rr : Nat
  fetched : Nat
  sent : Nat
  wrote : Nat
  fifos : List Rec
  fifoRr : Nat
  held : List Rec
  msgs : List (Nat × Nat × Nat)
  bmeOff : List Nat
  host : List HostOp
  hostNext : Nat
  beat : Nat
  idleAt : Nat
  l1Us : Nat
  l1 : Bool
  hgens : Tbl Nat
  /-- Of the present tick (R549): the RESUMEs of PF0 rings that its lost driver or its VER stopped, and the contexts (Lantern, context) that
  took a host reply. -/
  resumes : List Nat
  replied : List (Nat × Nat)
deriving DecidableEq, Repr

/-! ## Keys, tenants and the audit chain -/

/-- Key slot states (R573). -/
inductive SlotState where
  | free | active | rotating | destroying | faulty
deriving DecidableEq, Repr

/-- A key slot (R572 to R582): state, owner, each half's key pair (K1 in the low 256 bits, K2 in the high) and key-check
value, the current half, the key-check value of the last key destroyed in it, and which cluster copies differ. -/
structure KeySlot where
  state : SlotState
  owner : Nat
  half0 : Option (BitVec 512 × Byte)
  half1 : Option (BitVec 512 × Byte)
  cur : Bool
  lastKc : Option Byte
  diffs : Nat
deriving DecidableEq, Repr

/-- A slot without a key. -/
def KeySlot.blank : KeySlot := ⟨.free, 0, none, none, false, none, 0⟩

/-- A queued audit entry (R593), all but SEQ and LINK. -/
structure AuditEnt where
  stamp : Nat
  okind : Nat
  oid : Nat
  obj : Nat
  where_ : Nat
  old : Nat
  new : Nat
  detail : BitVec 256
deriving DecidableEq, Repr

/-- The rotation in progress (R583 to R588): slot, the half it leaves, the plot whose FREE began it, the place reached
(a plot index, or 0xFFE with a count of ring areas), the chunks committed there, the journal's record sequence. Steps 1 and 2
of R584 are taken when it starts. -/
structure Rotation where
  slot : Nat
  old : Bool
  freed : Option Nat
  plot : Nat
  wm : Nat
  rseq : Nat
  /-- In the ring areas: the ring to take next. -/
  ring : Nat
deriving DecidableEq, Repr

/-- A tenant record (R561). -/
structure Tenant where
  digest : BitVec 384
  allocSlot : Option Nat
deriving DecidableEq, Repr

/-- A binding or offer of a target code (R567, R568). -/
structure Bind where
  bound : Bool
  tenant : Nat
  offered : Bool
  offerTenant : Nat
deriving DecidableEq, Repr

/-- A session (R562 to R565): its tenant, the function whose mailbox formed it, its SPDM session ID, its export master
secret (R576), and the stamp at which its heartbeat expires. -/
structure Session where
  tenant : Nat
  fn : Nat
  id : W32
  ems : BitVec 384
  beat : Nat
deriving DecidableEq, Repr

/-- SEC's state beyond its registers. `mbxQ` holds the functions whose GO waits to be served, in order (R808); `head` is the
audit head and `headStamp` its entry's stamp (R594, R601); `ckptDue` the checkpoints to be signed (R599);
`near` the threshold of AUDIT_NEAR_FULL in force (R600, R606). -/
structure Sec where
  slots : Tbl KeySlot
  tenants : Tbl (Option Tenant)
  binds : Tbl Bind
  sessions : Tbl (Option Session)
  rotation : Option Rotation
  /-- RSEQ of the last record of the rotation journal (R587). -/
  rotSeq : Nat
  /-- The slot that holds the operator's key: 0, or its replacement (R582). -/
  opSlot : Nat
  waitFrees : List Nat
  ringSlot : Tbl Nat
  ringZero : List Nat
  mbxQ : List Nat
  auditQ : List AuditEnt
  auditLast : Nat
  head : BitVec 384
  headStamp : Nat
  ckpts : Tbl (Option (BitVec 2048))
  ckptLast : Nat
  ckptDue : List (Nat × Nat × BitVec 384)
  seed : BitVec 256
  /-- The seal key (R557, R574). -/
  sealKey : BitVec 256
  /-- The SPDM version of each function's mailbox connection; 0 before it is chosen (R559). -/
  conns : Tbl Nat
  alias_ : BitVec 384
  pubKey : BitVec 776
  nonce : BitVec 128
  near : Nat
deriving DecidableEq, Repr

/-! ## Firmware, boot and power (chapters "Processors, boot and firmware life", "Power, heat and the Snuffer") -/

/-- What SEC reads from a core image (R694): version, build, SVN, IFVER, DIGEST. -/
structure FwImg where
  major : Nat
  minor : Nat
  patch : Nat
  build : Nat
  svn : Nat
  ifver : Nat
  digest : BitVec 384
deriving DecidableEq, Repr

def FwImg.blank : FwImg := ⟨0, 0, 0, 0, 0, 0, 0⟩

/-- A payload slot of the flash (R691, R692): whether it holds a payload that passes its checks, SEQ, the image of each class,
and its training images by site. -/
structure FwSlot where
  valid : Bool
  seq : Nat
  imgs : List FwImg
  trn : Tbl (Option (List Byte))
deriving DecidableEq, Repr

/-- The fields of the configuration record (R696). -/
structure FwCfg where
  rseq : Nat
  spares : List Nat
  caps : List Nat
  rounds : Nat
  minSvn : List Nat
  snf : List Nat
deriving DecidableEq, Repr

/-- What the flash holds besides the history (R691): the two slots, the configuration record when a copy is valid, the stack
parameter records, the training area by site, and the sensors (with the temperature, in 1/8 °C plus 2^15, at which each may
count as cool) of a shut-down (R742). -/
structure Flash where
  /-- The SHA-384 digest of the enrolled seed, in the PUF's helper data; none: the helper data is absent (R555, R558). -/
  puf : Option (BitVec 384)
  slots : List FwSlot
  cfg : Option FwCfg
  params : List (List Byte)
  trn : Tbl (Option (List Byte))
  hot : List (Nat × Nat)
deriving DecidableEq, Repr

/-- Firmware and boot beyond the registers: the flash; each core's running image; the stamp of its release; the stamps of its
restarts with cause WATCHDOG or TRAP (R708); restarts that wait for SEC (R709: core, cause); cores that restart on the staged
slot's image; the payload being staged, for destinations 0 and 1; the boot slot; the cores an activation has still to restart and
those it has restarted; the stamp since which no emergency is in force (R712); the stamp of HUB_WARM_REQ; whether the block is
quiescing; whether a boot phase has failed; the stamp at which the present boot began; the configuration record read at the last
cold reset; whether a STEP write waits for READY (R680); and the tick, plus 1, in which the present activation began (R717). -/
structure Fw where
  flash : Flash
  imgs : Tbl FwImg
  since : Tbl Nat
  falls : Tbl (List Nat)
  owed : List (Nat × Nat)
  fresh : List Nat
  buf0 : Tbl Byte
  buf1 : Tbl Byte
  slot : Nat
  act : List Nat
  acted : List Nat
  clear : Nat
  warm : Option Nat
  quiet : Bool
  failed : Bool
  bootAt : Nat
  cfg : Option FwCfg
  stepWaits : Bool
  actAt : Nat
deriving DecidableEq, Repr

/-- A sensor's THM_SENSs_CFG, THR and HYS as a conversion uses them (R751). -/
structure SensConf where
  cfg : W64
  thr : W64
  hys : W64
deriving DecidableEq, Repr

/-- Power beyond the registers: the housekeeping round's next channel and its start; the end of the grace time; the stamp a
shut-down began and the end of its notice, and whether MYR_PWROFF_REQ is asserted; rounds in a row a rail's voltage has been
outside its window; polls in a row a rail has not answered; the stamp (plus 1) of each rail's last fault; rails owed an extra poll; the
start (plus 1) of the round in which PMC last stepped a voltage; and the levels each sensor is at (R731: 1 warning, 2 throttle,
4 shut-down, added; 8 a reading that failed under R733); and the next channel's sensor as its conversion began with it (R751). -/
structure Pw where
  next : Nat
  start : Nat
  grace : Option Nat
  shutAt : Option Nat
  notice : Option Nat
  off : Bool
  outV : Tbl Nat
  missed : Tbl Nat
  faults : Tbl Nat
  polls : List Nat
  stepped : Nat
  levels : Tbl Nat
  conf : SensConf
deriving DecidableEq, Repr

/-! ## The mirror pair (chapter "Pairing two complexes") -/

/-- One window of a set (R761): local and partner range in bytes and units of 64 KiB, EN and SYNC. -/
structure MirWin where
  base : Nat
  pbase : Nat
  units : Nat
  en : Bool
  sync : Bool
deriving DecidableEq, Repr

/-- Where a mirrored write stands: held for a window set (R771), held after a reply WINDOW_STALE (R773), waiting for a port, or sent
and unanswered. -/
inductive MirSt where
  | held | stale | queued | sent
deriving DecidableEq, Repr

/-- A mirrored write (R762, R763): its place in tap order, cluster, window, local address, lines, tap stamp, OWNER of the plot,
whether the copy pass made it, its state, and the port, tag, generation and epoch it was sent with. -/
structure MirWrite where
  n : Nat
  k : Nat
  w : Nat
  pa : Nat
  lines : List LineData
  stamp : Nat
  owner : Nat
  copy : Bool
  st : MirSt
  port : Nat
  tag : Nat
  gen : Nat
  epoch : Nat
deriving DecidableEq, Repr

/-- A key slot of the partner (R759): owner, state code, and its halves wrapped. -/
structure MirKey where
  owner : Nat
  state : Nat
  half0 : Option (BitVec 576)
  half1 : Option (BitVec 576)
deriving DecidableEq, Repr

/-- The partner's audit head: SEQ, STAMP, head. -/
structure MirHead where
  seq : W64
  stamp : W64
  head : BitVec 384
deriving DecidableEq, Repr

/-- The partner's history summary. -/
structure MirHist where
  boots : W64
  hours : W64
  units : List Nat
deriving DecidableEq, Repr

/-- The partner image (R759). -/
structure MirImage where
  plots : Tbl (BitVec 256)
  binds : Tbl Nat
  tenants : Tbl (Option (BitVec 384))
  repair : Tbl (List W64)
  head : Option MirHead
  history : Option MirHist
  wins : List (Nat × Nat × Nat × Nat)
  winEpoch : Nat
  keys : Tbl (Option MirKey)
deriving DecidableEq, Repr

def MirImage.blank : MirImage := ⟨[], [], [], [], none, none, [], 0, []⟩

/-- The pair beyond the registers: mirrored writes in tap order and the next number; the last GEN of each tag (key 4096 times port plus
tag); frames sent under the keys in force, and since reset, by port; the package links that are up and the width the hub reports for each;
the export master secret of the pair session, and its traffic keys (key twice the port, plus 1 for what the partner sends); the stamp of the
last authenticated frame; the next STATE sequence to send and to apply, STATE messages that came early, and the items as last sent; the last
16 probes (offset twice, delay) and the stamps of the last probe and heart; the committed set that has not applied and its commit stamp; the
stamp of the first tap answered other than OK; lines copied for each SYNCING window; the states PAUSED windows return to; the stamp by which
a partner in warm reset must be back; the stamp by which an UNPAIR has drained (R779); and the partner image. -/
structure Mir where
  writes : List MirWrite
  next : Nat
  gens : Tbl Nat
  frames : Tbl Nat
  lseq : Tbl Nat
  link : List Nat
  width : Tbl Nat
  ems : BitVec 384
  tx : Tbl (BitVec 256)
  heard : Nat
  stateTx : Nat
  stateRx : Nat
  early : List (Nat × MirItem)
  sent : List MirItem
  probes : List (Int × Int)
  probeAt : Nat
  heartAt : Nat
  pend : Option (List MirWin)
  commitAt : Nat
  failed : Option Nat
  sync : Tbl Nat
  was : Tbl Nat
  back : Option Nat
  leave : Option Nat
  image : MirImage
deriving DecidableEq, Repr

/-! ## The whole state -/

/-- The state of the block. Register fields have their home in `regs` (RegMap gives the layout and the reset values);
what is not a register, or what a register only views, has its home in a field of its own. -/
structure State where
  /-- The commands that are waiting, first in, first out. -/
  pending : List Instr
  /-- The functions' writes that wait at the hub's endpoint for places in the audit queue (R598). -/
  endpoint : List Instr
  clk : Clk
  regs : Tbl W64
  /-- The registers as they were when the present tick began: what a rule has take effect at the next tick is read from here. -/
  regs0 : Tbl W64
  /-- The registers as the tick before found them: what a tick of CLK_PHY that began in it goes by. -/
  regs1 : Tbl W64
  /-- The events of the present tick: the RW1C bits that hardware has set in it, and the counts of RC fields in it (R18, R19). -/
  events : Tbl W64
  /-- The byte windows: mailbox buffers, training images, the history entry read. -/
  bytes : Tbl Byte
  /-- The high halves latched by reads of low halves (R21): (function, register key, high half). -/
  hiLatch : List (Nat × Nat × W32)
  out : List Output
  /-- The model's own counter of free values taken. -/
  free : Nat
  mem : Tbl Line
  fills : Tbl (Option Fill)
  plots : Tbl Plot
  quar : Tbl (Option Quarantine)
  /-- Changes of plot entries that wait for the next tick, in order of arrival (R71). -/
  plotDue : List (Nat × PlotChange)
  deadFrames : List (Nat × Nat)
  unbacked : List (Nat × Nat)
  flights : List Flight
  nextId : Nat
  order : Nat
  locks : List Lock
  credits : Tbl Credit
  slices : Tbl Slice
  waitSeen : Tbl Nat
  pcs : Tbl Pc
  holds : Tbl (Option Hold)
  throttles : List Throttle
  thrOff : List Nat
  /-- The ACTs of the present tick that reached ACT_LIMIT: they take effect as it ends (R237). -/
  rgHits : List RgHit
  /-- The number of the tracker window that the trackers count in (R221). -/
  trkWindow : Nat
  /-- The clusters whose change of HOT at REF_NEXTSW is to HOT = 1 (R213). -/
  hotNext : List Nat
  windows : Tbl (Option Window)
  triggers : List Nat
  /-- The end of a RETRAIN window whose results were not applied, from which CCCk counts the next period (R268). -/
  rtrFrom : Tbl Nat
  /-- Stamps of the NARROW lanes of a PC (key 64 times cluster plus PC) that may still make four within 24 h (R631). -/
  narrow : Tbl (List Nat)
  groups : Tbl Nat
  /-- Subscribers whose GROUP was written while EN was 0: it takes effect at the next tick (R298). -/
  groupsDue : List Nat
  gateOn : Bool
  /-- EN was written 0 in the present tick: R303 applies from the next (R313). -/
  gateOff : Bool
  /-- The calendar of a pending commit (R310). -/
  calWait : Option Calendar
  /-- TRF_GATE_LATOK is recomputed at the next tick (R308). -/
  latokDue : Bool
  /-- One more than the stamp of the last refill of the token buckets (R289, R290). -/
  refilled : Nat
  /-- One more than the stamp of the last histogram sample (R316). -/
  sampled : Nat
  /-- TRF_HIST_CTL.CLEAR was written in the present tick: the bins read 0 from the next (R317). -/
  histClear : Bool
  /-- Buckets whose BURST was written in the present tick: TOKENS is cut after its charges (R293). -/
  burstCuts : List Nat
  /-- The last stack temperature reading of each site: 0 none yet, 1 failed, else the value in °C plus 2 (R252, R253). -/
  stackTemp : Tbl Nat
  /-- The last temperature in °C that a read of each stack has given (R266). -/
  goodTemp : Tbl Nat
  /-- The stamps of the last housekeeping samples, channels 0 to 63, and temperature reads, 64 plus the site (R49). -/
  sampleAt : Tbl Nat
  /-- What each cluster's cap bucket of an enforced slow-down lacks to be full (R737), in 1/192 line. -/
  capUsed : Tbl Nat
  recs : Tbl (Option ErrRec)
  /-- One more than the tick of the last record, and RAS_RECHEAD before the first record of that tick (R627). -/
  recTick : Nat × Nat
  /-- The tick of the last record, plus 1, and its RecordID (0: it was lost): what a record that follows it names in RELATED (R626). -/
  recLast : Nat × Nat
  hist : Hist
  /-- What SEC has committed of it to flash (R630). -/
  histFlash : Hist
  migs : Tbl (Option Mig)
  /-- RSEQ of the last record of each cluster's migration journal (R641). -/
  migSeq : Tbl Nat
  /-- The scrub pass of a cluster (R649): its SCRUB_H, and the stamp at which it began. -/
  passes : Tbl (Nat × Nat)
  frzOps : Tbl (Option FrzOp)
  /-- PCs whose permanent judgement asks for a migration that has not started (R636, R647): cluster, PC, reason. -/
  migWant : List (Nat × Nat × Nat)
  /-- PPR rows per bank that the wrapper of each site reports (R631, R635). -/
  pprRows : Tbl Nat
  /-- Units whose first event waits for a pattern test (R632), by cluster. -/
  tests : List (Nat × HistUnit)
  /-- Rows queued for a targeted scrub (R614): cluster, PC, row name, row. -/
  scrubs : List (Nat × Nat × Nat × Nat)
  sec : Sec
  rings : Rings
  lnts : Tbl Lantern
  posies : Tbl Posy
  pmus : Pmu
  fw : Fw
  pw : Pw
  mir : Mir
  /-- Lanterns with an UNRESOLVED record, or an event under MODE = HISTORY, that no clean sweep has followed (R675). -/
  advised : List Nat
deriving DecidableEq, Repr

/-- The clocks at cold reset: PLL_MAIN not locked, the timestamp held at 0 (R42). -/
def Clk.reset : Clk := ⟨0, false, false, List.replicate 13 0, 0, 0, none, [], [], []⟩

/-- An empty history: a block that has never been powered before. -/
def Hist.blank : Hist := ⟨[], [], [], 0, 0⟩

/-- SEC at cold reset: no key, tenant, binding or session; the audit chain empty until entry 0 is written. -/
def Sec.reset : Sec where
  slots := []
  tenants := []
  binds := []
  sessions := []
  rotation := none
  rotSeq := 0
  opSlot := 0
  waitFrees := []
  ringSlot := []
  ringZero := []
  mbxQ := []
  auditQ := []
  auditLast := 0
  head := 0
  headStamp := 0
  ckpts := []
  ckptLast := 0
  ckptDue := []
  seed := 0
  sealKey := 0
  conns := []
  alias_ := 0
  pubKey := 0
  nonce := 0
  near := 0x1C0000

/-- Rings at cold reset: nothing fetched, no record, no function a bus master. -/
def Rings.reset : Rings := ⟨[], 8191, 0, 0, 0, [], 11, [], [], [], [], 0, 0, 0, 20, false, [], [], []⟩

/-- A flash as it is first powered: slot A with a payload whose versions read 0, no record, no training image (DESIGN CHOICE,
notes/assumptions/19). -/
def Flash.first : Flash where
  -- the digest of a seed of 32 zero bytes
  puf := some 0x404a0ae50e1ba7e25ff787315c4d3ad07bab9e7292f1c84694de5f5447fd8090c83a10038cde9cace4156ca24bff8fa3
  slots := [⟨true, 1, List.replicate 4 FwImg.blank, []⟩, ⟨false, 0, List.replicate 4 FwImg.blank, []⟩]
  cfg := none
  params := []
  trn := []
  hot := []

/-- Firmware at cold reset: every core held, no image running. -/
def Fw.reset : Fw := ⟨Flash.first, [], [], [], [], [], [], [], 0, [], [], 0, none, false, false, 0, none, false, 0⟩

/-- Power at cold reset: the housekeeping round begins with the timestamp. -/
def Pw.reset : Pw := ⟨0, 0, none, none, none, false, [], [], [], [], 0, [],
  ⟨RegName.THM_SENS_CFG.reset 0 0, RegName.THM_SENS_THR.reset 0 0, RegName.THM_SENS_HYS.reset 0 0⟩⟩

/-- No pair. -/
def Mir.reset : Mir where
  writes := []
  next := 0
  gens := []
  frames := []
  lseq := []
  link := []
  width := []
  ems := 0
  tx := []
  heard := 0
  stateTx := 0
  stateRx := 0
  early := []
  sent := []
  probes := []
  probeAt := 0
  heartAt := 0
  pend := none
  commitAt := 0
  failed := none
  sync := []
  was := []
  back := none
  leave := none
  image := MirImage.blank

/-- The block right after reset: no register written, nothing in memory, no request, no key, the timestamp held at 0. -/
def State.reset : State where
  pending := []
  endpoint := []
  clk := Clk.reset
  regs := []
  regs0 := []
  regs1 := []
  events := []
  bytes := []
  hiLatch := []
  out := []
  free := 0
  mem := []
  fills := []
  plots := []
  quar := []
  plotDue := []
  deadFrames := []
  unbacked := []
  flights := []
  nextId := 0
  order := 0
  locks := []
  credits := []
  slices := []
  waitSeen := []
  pcs := []
  holds := []
  throttles := []
  thrOff := []
  rgHits := []
  trkWindow := 0
  hotNext := []
  windows := []
  triggers := []
  rtrFrom := []
  narrow := []
  groups := []
  groupsDue := []
  gateOn := false
  gateOff := false
  calWait := none
  latokDue := false
  refilled := 0
  sampled := 0
  histClear := false
  burstCuts := []
  stackTemp := []
  goodTemp := []
  sampleAt := []
  capUsed := []
  recs := []
  recTick := (0, 0)
  recLast := (0, 0)
  hist := Hist.blank
  histFlash := Hist.blank
  migs := []
  migSeq := []
  passes := []
  frzOps := []
  migWant := []
  pprRows := []
  tests := []
  scrubs := []
  sec := Sec.reset
  rings := Rings.reset
  lnts := []
  posies := []
  pmus := ⟨[], [], [], none, none, []⟩
  fw := Fw.reset
  pw := Pw.reset
  mir := Mir.reset
  advised := []

end Sys2Proof.Machine
end

