-- ==== Sys2Proof/Machine/Ops.lean ====
section
/-! DEFINITION. The named operations over registers, time, counters, records, keys and memory that the meanings share. -/

namespace Sys2Proof.Machine

/-- The outcome of a command: a next state. -/
abbrev Res := Host.Outcome State Fault Refusal

/-- `t` when the event's condition holds, else the state as it was (a command that names an event whose condition does
not hold changes nothing: notes/assumptions/2). -/
def onlyIf (c : Bool) (t s : State) : State := if c then t else s

/-! ### Registers -/

/-- The stored word of element (i, j) of a register family. -/
def State.reg (s : State) (r : RegName) (i : Nat := 0) (j : Nat := 0) : W64 := tget (r.reset i j) s.regs (regKey r i j)

/-- Stores a word in element (i, j) of a register family. -/
def State.setReg (s : State) (r : RegName) (i j : Nat) (v : W64) : State :=
  { s with regs := tset (r.reset i j) s.regs (regKey r i j) v }

/-- The word `w` with the `len` bits from `lo` replaced by `v`. -/
def putBits (w : W64) (lo len v : Nat) : W64 :=
  BitVec.ofNat 64 (w.toNat % 2 ^ lo + (v % 2 ^ len) * 2 ^ lo + (w.toNat / 2 ^ (lo + len)) * 2 ^ (lo + len))

/-- The value of a field. -/
def State.rd (s : State) (f : Fld) (i : Nat := 0) (j : Nat := 0) : Nat := (s.reg f.reg i j).toNat >>> f.lo % 2 ^ f.len

/-- Whether a one-bit field is set. -/
def State.bit (s : State) (f : Fld) (i : Nat := 0) (j : Nat := 0) : Bool := s.rd f i j == 1

/-- Writes a field. -/
def State.wr (s : State) (f : Fld) (v : Nat) (i : Nat := 0) (j : Nat := 0) : State :=
  s.setReg f.reg i j (putBits (s.reg f.reg i j) f.lo f.len v)

/-- Adds to a counter field that saturates. -/
def State.incSat (s : State) (f : Fld) (i : Nat := 0) (j : Nat := 0) (n : Nat := 1) : State :=
  s.wr f (min (2 ^ f.len - 1) (s.rd f i j + n)) i j

/-- Adds to a counter field that wraps. -/
def State.incWrap (s : State) (f : Fld) (i : Nat := 0) (j : Nat := 0) (n : Nat := 1) : State :=
  s.wr f (s.rd f i j + n) i j

/-- Sets bit `b` of a bit-map field. -/
def State.setMap (s : State) (f : Fld) (b : Nat) (v : Bool) (i : Nat := 0) (j : Nat := 0) : State :=
  let w := s.rd f i j
  let cleared := w - (w >>> b % 2) <<< b
  s.wr f (if v then cleared + 1 <<< b else cleared) i j

/-! The present tick: what a rule has take effect at the next tick (`reg0`), and its events (R18, R19). -/

/-- The stored word of a register as the present tick found it. -/
def State.reg0 (s : State) (r : RegName) (i : Nat := 0) (j : Nat := 0) : W64 := tget (r.reset i j) s.regs0 (regKey r i j)

/-- A field as the present tick found it. -/
def State.rd0 (s : State) (f : Fld) (i : Nat := 0) (j : Nat := 0) : Nat := (s.reg0 f.reg i j).toNat >>> f.lo % 2 ^ f.len
def State.bit0 (s : State) (f : Fld) (i : Nat := 0) (j : Nat := 0) : Bool := s.rd0 f i j == 1

/-- The events of the present tick in an RW1C or RC field. -/
def State.eventsOf (s : State) (f : Fld) (i : Nat := 0) (j : Nat := 0) : Nat :=
  (tget 0 s.events (regKey f.reg i j)).toNat >>> f.lo % 2 ^ f.len
def State.setEvents (s : State) (f : Fld) (v : Nat) (i : Nat := 0) (j : Nat := 0) : State :=
  { s with events := tset 0 s.events (regKey f.reg i j) (putBits (tget 0 s.events (regKey f.reg i j)) f.lo f.len v) }

/-- Hardware sets a one-bit RW1C field. -/
def State.raise (s : State) (f : Fld) (i : Nat := 0) (j : Nat := 0) : State := (s.wr f 1 i j).setEvents f 1 i j
/-- Hardware sets bit `b` of an RW1C field. -/
def State.raiseBit (s : State) (f : Fld) (b : Nat) (i : Nat := 0) (j : Nat := 0) : State :=
  (s.setMap f b true i j).setEvents f (s.eventsOf f i j ||| 1 <<< b) i j
/-- Counts `n` events in an RC counter, which saturates. -/
def State.incRc (s : State) (f : Fld) (i : Nat := 0) (j : Nat := 0) (n : Nat := 1) : State :=
  (s.incSat f i j n).setEvents f (min (2 ^ f.len - 1) (s.eventsOf f i j + n)) i j
/-- Raises an RC field that holds a maximum. -/
def State.maxRc (s : State) (f : Fld) (v : Nat) (i : Nat := 0) (j : Nat := 0) : State :=
  (s.wr f (max (s.rd f i j) (min v (2 ^ f.len - 1))) i j).setEvents f (max (s.eventsOf f i j) (min v (2 ^ f.len - 1))) i j
/-- Software clears a one-bit RW1C field: a set of the same tick remains (R18). -/
def State.ack (s : State) (f : Fld) (i : Nat := 0) (j : Nat := 0) : State := onlyIf (s.eventsOf f i j == 0) (s.wr f 0 i j) s

/-- Returns every field of a register family's element to its reset value. -/
def State.clearReg (s : State) (r : RegName) (i : Nat := 0) (j : Nat := 0) : State :=
  { s with regs := tdel s.regs (regKey r i j) }

/-- The bits of a register that a field holds; the others are reserved and read 0 (R17). -/
def RegDesc.mask (d : RegDesc) : W64 := d.fields.foldl (fun m x => putBits m x.lo x.len (2 ^ x.len - 1)) 0

/-- Bit `b` of a number. -/
def nbit (w b : Nat) : Bool := w >>> b % 2 == 1

/-! ### Time -/

/-- The master timestamp (R42). -/
def State.now (s : State) : Nat := s.clk.now.toNat

/-- The count of timestamp replica `i`: 0 to 11 of a cluster, 12 of the block, which serves SEC, PMC and Lamplighter (R26, R45). What a
unit stamps, it stamps with its replica. -/
def State.nowAt (s : State) (i : Nat) : Nat := (s.clk.now + tget 0 s.clk.skew i).toNat

/-- CLK_TS ticks in `n` microseconds. -/
def usTicks (n : Nat) : Nat := 1200 * n

/-- The tick of CLK_PHYk in force at CLK_TS tick `t`: CLK_PHYk runs at MULT/48 of CLK_TS (R36, R37), at the phase of its last lock
(R802). -/
def State.phy (s : State) (k t : Nat) : Nat := (t * s.rd F.CLOCK_PHYPLL.MULT k + tget 0 s.clk.phase k) / 48

/-- A field as the present tick of CLK_PHYk found it: a write counts from the next one (R202, R244). -/
def State.rdPhy (s : State) (k : Nat) (f : Fld) (i : Nat := 0) (j : Nat := 0) : Nat :=
  if s.now ≠ 0 ∧ s.phy k s.now = s.phy k (s.now - 1) then (tget (f.reg.reset i j) s.regs1 (regKey f.reg i j)).toNat >>> f.lo % 2 ^ f.len
  else s.rd0 f i j

/-- The first stamp past tick `t` of CLK_PHYk. -/
def State.stampAfter (s : State) (k t : Nat) : Nat := ceilDiv ((t + 1) * 48 - tget 0 s.clk.phase k) (s.rd F.CLOCK_PHYPLL.MULT k)

/-- CLK_TS ticks that cover `n` ticks of CLK_PHYk. -/
def State.phyTicks (s : State) (k n : Nat) : Nat := ceilDiv (n * 48) (s.rd F.CLOCK_PHYPLL.MULT k)

/-! ### Block and core states -/

/-- GLOBAL_STATE.STATE reads BOOT. -/
def State.inBoot (s : State) : Bool := s.rd F.GLOBAL_STATE.STATE == 0
/-- CCCk runs (R706). -/
def State.cccUp (s : State) (k : Nat) : Bool := s.rd F.FW_STATE.STATE (3 + k) == 2
/-- GLOBAL_STATE.STATE reads HOLD. -/
def State.inHold (s : State) : Bool := s.rd F.GLOBAL_STATE.STATE == 1
/-- GLOBAL_STATE.STATE reads READY. -/
def State.inReady (s : State) : Bool := s.rd F.GLOBAL_STATE.STATE == 2

/-- Appends to what the block has sent. -/
def State.send (s : State) (o : Output) : State := { s with out := s.out ++ [o] }

/-- The next free value and the state that has taken it. -/
def State.fresh (s : State) : BitVec 1024 × State := (Config.freeBits s.free, { s with free := s.free + 1 })

/-- The next value of SEC's random source and the state that has taken it. -/
def State.draw (s : State) : BitVec 512 × State := (Config.random s.free, { s with free := s.free + 1 })

/-! ### Performance counters (R784 to R787) -/

/-- The counters are stopped in the present tick: a FREEZE write takes effect at its T (R795). -/
def State.frozenNow (s : State) : Bool :=
  match s.pmus.frzAt with
  | some (t, b) => if t ≤ s.now then b else s.bit F.PMU_CTL.FROZEN
  | none => s.bit F.PMU_CTL.FROZEN

/-- Counts `n` events in a hardware counter, unless the counters are stopped (R795). -/
def State.pmu (s : State) (r : RegName) (i j n : Nat) : State :=
  if s.frozenNow then s else s.setReg r i j (BitVec.ofNat 64 (((s.reg r i j).toNat + n) % 2 ^ 48))

/-- Counts `n` of event `e` of PC `p` of cluster `k` (R786). -/
def State.pmuPc (s : State) (k p e n : Nat) : State := s.pmu .PMU_PC k (p * 32 + e) n
/-- Counts `n` of event `e` of an AES pipeline (R787). -/
def State.pmuAes (s : State) (k p e n : Nat) : State := s.pmu .PMU_AES k (p * 8 + e) n
/-- Counts `n` of event `e` of an arbiter requester (R787). -/
def State.pmuArb (s : State) (k r e n : Nat) : State := s.pmu .PMU_ARB k (r * 8 + e) n
/-- An event of a PMU unit takes place in the present cycle (R788, R790). -/
def State.evt (s : State) (unit e ctx : Nat) : State :=
  { s with pmus := { s.pmus with evs := s.pmus.evs ++ [(unit, e, ctx)] } }
/-- Counts `n` in counter `i` of a Lantern context (R791). -/
def State.pmuCtx (s : State) (j c i n : Nat) : State := s.pmu .PMU_CTX j (c * 8 + i) n

/-! ### Error records (R626 to R629) -/

/-- A record with every optional field absent. -/
def ErrRec.make (stamp sev cls cluster : Nat) : ErrRec :=
  ⟨stamp, sev, cls, 0, 6, cluster, 0xFF, 0xFF, 0, 0, 0, 0, 0, 0, 0xFF, 0, 0xFFFF, 0xFFFF, 0, 0, 0, 0, []⟩

/-- A record names a job: its ring, its sequence number and the index of the instruction (R626). -/
def ErrRec.ofJob (e : ErrRec) (b : Job) (n : Nat) : ErrRec := { e with ring := b.ring, seq := b.seq, instr := n % 65536 }

/-- Severities of R626. -/
def sevRecoverable : Nat := 0
def sevFatal : Nat := 1
def sevCorrected : Nat := 2
def sevInfo : Nat := 3

/-- The record as the replica of its cluster, or of the block, stamps it (R45, R46). -/
def State.stamped (s : State) (e : ErrRec) : ErrRec :=
  { e with stamp := (BitVec.ofNat 64 e.stamp + tget 0 s.clk.skew (min e.cluster 12)).toNat }

/-- What orders the records of one tick (R627): stamp, cluster, physical PC and class, with 0xFF last. -/
def ErrRec.rank (e : ErrRec) : Nat := ((e.stamp * 256 + e.cluster) * 256 + e.ppc) * 256 + e.cls

/-- How many of the last `n` records before `head` carry a stamp not before the present tick: those that a record of this tick may go
before. -/
def State.recsLate (s : State) (head n : Nat) : Nat :=
  ((List.range n).takeWhile fun i => (tget none s.recs ((head - 1 - i) % 1024)).any fun r => decide (s.now ≤ r.stamp)).length

/-- The records from number `base` up to `head` that go after `e`. -/
def State.recsAfter (s : State) (e : ErrRec) (base head : Nat) : Nat :=
  ((List.range (head - base)).filter fun i => (tget none s.recs ((base + i) % 1024)).any fun r => decide (e.rank < r.rank)).length

/-- Whether a unit is the one of the given class and place. -/
def HistUnit.at_ (u : HistUnit) (cls cluster a b : Nat) : Bool :=
  u.cls == cls && u.cluster == cluster && u.a == a && u.b == b

/-- The history's name of a row's bank, and of a line's row. -/
def rowKey (l : Loc) : Nat := (l.pc * 4 + l.sid) * 16 + l.bank

/-- RecordID of record `n` (R626). -/
def State.recId (s : State) (n : Nat) : Nat := s.hist.boots * 2 ^ 32 + n

/-- The RecordID that a record of the present tick, caused by the one written just before, has in RELATED: 0 when that one is of another
tick or was lost (R626; which record one follows is a DESIGN CHOICE, notes/assumptions/14). -/
def State.related (s : State) : Nat := if s.recLast.1 = s.now + 1 then s.recLast.2 else 0

/-- The history's entry of a unit. -/
def State.histUnit (s : State) (cls cluster a b : Nat) : HistUnit :=
  (s.hist.units.find? fun u => u.at_ cls cluster a b).getD ⟨cls, cluster, a, b, 0, [], false, false, 0⟩

/-- COUNT of the record of an event that is about to be counted against a unit: its events, this one included; a permanent unit counts no
more (R626, R631). -/
def State.countAt (s : State) (cls cluster a b : Nat) : Nat :=
  let u := s.histUnit cls cluster a b
  if u.permanent then u.count else u.count + 1

/-- A record moved up from number `at_` or later: one that names another such record in RELATED names it still. -/
def State.moved (s : State) (at_ : Nat) (r : Option ErrRec) : Option ErrRec :=
  r.map fun e => if s.recId at_ ≤ e.related then { e with related := e.related + 1 } else e

/-- Enters a record in the queue (R627, R628), among those of its tick in their order. A record that finds every slot unacknowledged takes
the place of the oldest unacknowledged Corrected or Informational one when it is Recoverable or Fatal, else it is lost; either loss advances
RAS_RECLOST. RAS_RECHEAD counts the records that took a new slot (DEDUCED: notes/assumptions/11). -/
def State.record (s : State) (e : ErrRec) : State :=
  let e := s.stamped e
  let head := s.rd F.RAS_RECHEAD.VALUE
  let ack := s.rd F.RAS_RECACK.VALUE
  if head - ack < 1024 then
    let base := if s.recTick.1 = s.now + 1 then s.recTick.2 else head - s.recsLate head (head - ack)
    let later := s.recsAfter e base head
    { s.wr F.RAS_RECHEAD.VALUE (head + 1) with
      recs := tset none ((List.range later).foldl (fun (t : Tbl (Option ErrRec)) i =>
        tset none t ((head - i) % 1024) (s.moved (head - later) (tget none s.recs ((head - i - 1) % 1024)))) s.recs)
          ((head - later) % 1024) (some e)
      recTick := (s.now + 1, base)
      recLast := (s.now + 1, s.recId (head - later)) }
  else
    let s' : State := { s.incRc F.RAS_RECLOST.COUNT with recLast := (s.now + 1, 0) }
    if e.sev ≤ 1 then
      match ((List.range 1024).map (· + ack)).find? fun n =>
          match tget none s.recs (n % 1024) with | some r => decide (2 ≤ r.sev) | none => false with
      | some n => { s' with recs := tset none s'.recs (n % 1024) (some e), recLast := (s.now + 1, s.recId n) }
      | none => s'
    else s'

/-! ### The audit queue (R593 to R598) -/

/-- The order of agents within one tick (R597). -/
def auditRank (okind oid : Nat) : Nat :=
  if okind = 2 then (if oid = 0 then 0 else if 3 ≤ oid then oid - 1 else if oid = 1 then 14 else 15)
  else if okind = 3 then 1 else if okind = 1 then 16 + oid else if okind = 4 then 200 + oid else 300

/-- Whether a queued entry goes before a new one of a stamp and rank: all do but those of the same tick and a later rank. -/
def AuditEnt.before (e : AuditEnt) (stamp rank : Nat) : Bool := e.stamp != stamp || decide (auditRank e.okind e.oid ≤ rank)

/-- Queues an audit entry for a change that takes effect now, in the order of R597. -/
def State.audit (s : State) (okind oid obj where_ old new : Nat) (detail : BitVec 256 := 0) : State :=
  let e : AuditEnt := ⟨s.nowAt 12, okind, oid, obj, where_, old, new, detail⟩
  let keep := s.sec.auditQ.filter fun x => x.before e.stamp (auditRank okind oid)
  let rest := s.sec.auditQ.filter fun x => !x.before e.stamp (auditRank okind oid)
  { s with sec := { s.sec with auditQ := keep ++ e :: rest } }

/-- A function's write that needs an entry must wait (R598): 3,840 entries are queued, or an earlier write waits. -/
def State.auditFull (s : State) : Bool := decide (3840 ≤ s.sec.auditQ.length) || !s.endpoint.isEmpty

/-- Carries out the write `c` of a function, or has it wait at the hub's endpoint while it needs an entry for which there is no place (R598);
a tick tries again the writes that wait. -/
def State.orWait (s : State) (c : Instr) (run : State → Res) : Res :=
  if !s.auditFull then run s else
  match run { s with endpoint := [], sec := { s.sec with auditQ := [] } } with
  | .next t => .next (if t.sec.auditQ.isEmpty then { t with endpoint := s.endpoint, sec := { t.sec with auditQ := s.sec.auditQ } }
      else { s with endpoint := s.endpoint ++ [c] })
  | .fault f => .fault f
  | .refused r => .refused r

/-- A write by PF0 of a register outside GLOBAL, FIRMWARE and the mailbox has no effect now: it waits (R598), or the block is in
BOOT (R701). -/
def State.pfHeld (s : State) : Bool := s.auditFull || s.inBoot

/-- The state code of a plot entry (R68). -/
def PlotState.code : PlotState → Nat
  | .free => 0 | .openPlot => 1 | .sealed => 2 | .retired => 3 | .quarantine => 4

/-- A plot table entry as its 32 bytes (R68). -/
def Plot.word (p : Plot) : BitVec 256 :=
  BitVec.ofNat 256 (p.stamp.toNat <<< 192 + p.gen.toNat <<< 176 + p.rights.toNat <<< 144 + p.member <<< 45 +
    p.frame <<< 36 + p.stack <<< 32 + p.rsvd.toNat <<< 26 + p.next.toNat <<< 25 + p.keyslot <<< 16 + p.owner <<< 8 +
    p.rotating.toNat <<< 6 + p.epoch.toNat <<< 5 + p.mirror.toNat <<< 4 + p.wide.toNat <<< 3 + p.state.code)

/-- Who made a change, in the audit chain's terms (R593). -/
structure Origin where
  kind : Nat
  id : Nat

def Origin.hw : Origin := ⟨0, 0⟩
def Origin.fn (f : Nat) : Origin := ⟨1, f⟩
def Origin.core (c : Nat) : Origin := ⟨2, c⟩
def Origin.sess (t s : Nat) : Origin := ⟨3, t * 256 + s⟩

/-! ### Plots -/

/-- Plot entry `i`. -/
def State.plot (s : State) (i : Nat) : Plot := tget Plot.blank s.plots i

/-- A plot leaves OPEN: every Posy is to free the entries of its lines once the CONTRIBs accepted before are answered (R485). -/
def State.posyLeave (s : State) (i : Nat) : State :=
  { s with posies := (List.range 12).foldl (fun t k =>
      let p := tget Posy.blank t k
      tset Posy.blank t k { p with free := p.free ++ [(i, s.nextId)] }) s.posies }

/-- Changes plot entry `i` in one tick, stamping it, with its audit entry (R68, R69, R596). -/
def State.setPlot (s : State) (o : Origin) (i : Nat) (p : Plot) : State :=
  let p := { p with stamp := s.clk.now }
  let s := onlyIf ((s.plot i).state == .openPlot && p.state != .openPlot) (s.posyLeave i) s
  { s with plots := tset Plot.blank s.plots i p }.audit o.kind o.id 1 i ((s.plot i).word.toNat % 2 ^ 64)
    (p.word.toNat % 2 ^ 64) p.word

/-- The entry has changed in the present tick: its next change is that of a later tick (R71; notes/assumptions/34). -/
def State.plotChanged (s : State) (i : Nat) : Bool := (s.plot i).stamp == s.clk.now && s.clk.now != 0

/-- The accesses under way that use key slot `old` use `new`, which holds its key (R582). -/
def State.turnSlot (s : State) (old new : Nat) : State :=
  { s with
    flights := s.flights.map fun f => if f.slot == old then { f with slot := new } else f
    pcs := s.pcs.map fun e => (e.1, { e.2 with wq := e.2.wq.map fun w => if w.slot == old then { w with slot := new } else w }) }

/-- Makes a change of the block's own to an entry, where it still applies. -/
def State.makeChange (s : State) (i : Nat) (c : PlotChange) : State :=
  let p := s.plot i
  match c with
  | .turn a b => onlyIf (p.state == a) (s.setPlot (Origin.core 0) i { p with state := b }) s
  | .retire core => onlyIf (p.state == .openPlot || p.state == .sealed) (s.setPlot (Origin.core core) i { p with state := .retired }) s
  | .epoch slot e => onlyIf (p.keyslot == slot && p.state != .free) (s.setPlot (Origin.core 0) i { p with epoch := e, rotating := true }) s
  | .rotated slot => onlyIf (p.keyslot == slot && p.rotating) (s.setPlot (Origin.core 0) i { p with rotating := false }) s
  | .keyslot old new => onlyIf (p.keyslot == old && p.state != .free) ((s.turnSlot old new).setPlot (Origin.core 0) i { p with keyslot := new }) s

/-- A change of the block's own: in this tick, or in the next when the entry has changed in this one (R71). -/
def State.change (s : State) (i : Nat) (c : PlotChange) : State :=
  if s.plotChanged i then { s with plotDue := s.plotDue ++ [(i, c)] } else s.makeChange i c

/-- The changes that waited for this tick (R71). -/
def State.changesDue (s : State) : State :=
  s.plotDue.foldl (fun s e => s.change e.1 e.2) { s with plotDue := [] }

/-! ### Keys -/

/-- Key slot `i`. -/
def State.slot (s : State) (i : Nat) : KeySlot := tget KeySlot.blank s.sec.slots i

/-- The half of a slot that an E bit names. -/
def KeySlot.half (k : KeySlot) (e : Bool) : Option (BitVec 512 × Byte) := if e then k.half1 else k.half0

/-- The key pair and key-check value of a half; a half without a key reads as zero (the key stores are zeroed, R574,
R578). -/
def State.keyOf (s : State) (slot : Nat) (e : Bool) : BitVec 512 × Byte := ((s.slot slot).half e).getD (0, 0)

/-- The ring slot of function `f` (R805): PF0's, and that of a VF bound to no tenant, is the operator's. -/
def State.ringSlotOf (s : State) (f : Nat) : Nat :=
  let i := tget 0 s.sec.ringSlot f
  if i = 0 then s.sec.opSlot else i

/-- The half of a slot that writes use (R805): the new half from step 2 of a rotation. -/
def State.curHalf (s : State) (slot : Nat) : Bool :=
  match s.sec.rotation with
  | some r => if r.slot = slot then !r.old else (s.slot slot).cur
  | none => (s.slot slot).cur

/-! ### Memory: the map of R80 -/

/-- The populated sites, ascending (R78). -/
def State.sites (s : State) : List Nat := upTo 12 (nbit (s.rd F.PLOT_GEOM.POPULATED))

/-- Stack, logical PC and group within the PC of a line (R80). -/
def State.place (s : State) (pa : Nat) (p : Plot) : Nat × Nat × Nat :=
  let g := pa >>> 8 % 2 ^ 20
  let sites := s.sites
  let gw := p.member * 2 ^ 20 + g
  let (st, q) := if p.wide then (sites.getD (gw % sites.length) 0, gw / sites.length) else (p.stack, g)
  let qs := p.frame * 2 ^ 20 + q
  let n := s.rd F.PLOT_STACKGEOM.NDATA st
  (st, qs % n, qs / n)

/-- The location of line `lig` of the group `u` of a PC (R80), in physical PC `pc`. -/
def State.locIn (s : State) (st pc u lig : Nat) : Loc :=
  let sids := s.rd F.PLOT_STACKGEOM.SIDS st
  let v := u >>> 6
  let row := v / sids
  ⟨st, pc, v % sids, (u >>> 2 % 16) ^^^ (row % 16) ^^^ (row >>> 4 % 16), row, (u % 4) * 4 + lig⟩

/-- The physical PC that serves a logical one. -/
def State.phys (s : State) (st lpc : Nat) : Nat := s.rd F.CLU_PCMAP.PHYS st lpc

/-- The location of a line by the map alone, whatever a migration does with it (R80). -/
def State.locate (s : State) (pa : Nat) (p : Plot) : Loc :=
  let (st, lpc, u) := s.place pa p
  s.locIn st (s.phys st lpc) u (pa >>> 6 % 4)

/-- The physical PC of an access at acceptance and, for a write to the chunk being copied, the second PC (R86). -/
def State.route (s : State) (st lpc u : Nat) (write : Bool) : Nat × Option Nat :=
  let src := s.phys st lpc
  if s.bit F.CLU_MIG.ACTIVE st && s.rd F.CLU_MIG.LPC st == lpc then
    let tgt := s.rd F.CLU_MIG.TARGET st
    let wm := s.rd F.CLU_MIG.WATERMARK st
    if u >>> 8 < wm then (tgt, none)
    else if u >>> 8 == wm && write then (src, some tgt)
    else (src, none)
  else (src, none)

/-- The key of a location in the line table. -/
def Loc.key (l : Loc) : Nat := ((((l.k * 64 + l.pc) * 4 + l.sid) * 16 + l.bank) * 2 ^ 16 + l.row) * 16 + l.col

/-- The background of a line: what its plot's or ring area's zeroing left (R73, R804, R805), or a blank line. -/
def State.background (s : State) (plot pa : Nat) : Line :=
  let ring := if plot = 0xFFE then tget none s.fills (4096 + pa >>> 21 % 128) else none
  match ring.orElse fun _ => tget none s.fills plot with
  | none => Line.blank
  | some f =>
    let chunk := if ring.isSome then pa >>> 15 % 64 else pa >>> 16 % 4096
    if chunk < f.wm then ⟨0, some f.key2, (if f.e then 0x10 else 0x50), f.kc2⟩
    else ⟨0, some f.key, (if f.e then 0x50 else 0x10), f.kc⟩

/-- The stored line at a location. `plot` and `pa` say which background applies. -/
def State.lineAt (s : State) (l : Loc) (plot pa : Nat) : Line :=
  tget (s.background plot pa) s.mem l.key

/-- Stores a line at a location; a line equal to its background is not listed. -/
def State.putLine (s : State) (l : Loc) (plot pa : Nat) (v : Line) : State :=
  { s with mem := tset (s.background plot pa) s.mem l.key v }

/-- P, E and FORMAT of a stored line (R607). -/
def Line.poisoned (l : Line) : Bool := l.md.getLsbD 7
def Line.e (l : Line) : Bool := l.md.getLsbD 6
def Line.fmt (l : Line) : Nat := l.md.toNat >>> 4 % 4

/-- The metadata byte (R607). -/
def mdOf (p e : Bool) (fmt : Nat) : Byte := BitVec.ofNat 8 (p.toNat * 128 + e.toNat * 64 + fmt * 16)

/-- The stored symbols c0 to c63: ciphertext under the line's key pair, or the data as they stand (R590). -/
def Line.cipher (l : Line) (pa : Nat) : LineData :=
  match l.key with
  | some k => xtsEnc k pa l.data
  | none => l.data

/-- The data the pipeline delivers under key pair `k` (R189): the plaintext when the line was stored under that pair. -/
def Line.plain (l : Line) (k : BitVec 512) (pa : Nat) : LineData :=
  if l.key = some k then l.data else xtsDec k pa (l.cipher pa)

/-- A line written with plaintext under half `e` of a slot (R579). -/
def State.encLine (s : State) (slot : Nat) (e : Bool) (fmt : Nat) (d : LineData) : Line :=
  let (k, kc) := s.keyOf slot e
  ⟨d, some k, mdOf false e fmt, kc⟩

/-- A poison line (R616). -/
def State.poisonLine (s : State) (slot : Nat) (e : Bool) : Line := ⟨0, none, mdOf true e 2, (s.keyOf slot e).2⟩

/-- The background key of the region a plot entry zeroes: half `e` of a slot. -/
def State.fillOf (s : State) (slot : Nat) (e : Bool) : Fill :=
  let (k, kc) := s.keyOf slot e
  ⟨k, e, kc, 0, 0, 0⟩

/-- The plot entry's line at a location: which plot and group of a plot a data line belongs to, by the inverse of the map
of R80; `n` data PCs, the frame it lies in and the group within it. -/
def State.frameOf (s : State) (l : Loc) (lpc : Nat) : Nat × Nat :=
  let sids := s.rd F.PLOT_STACKGEOM.SIDS l.k
  let v := l.row * sids + l.sid
  let b := l.bank ^^^ (l.row % 16) ^^^ (l.row >>> 4 % 16)
  let u := v * 64 + b * 4 + l.col / 4
  let qs := u * s.rd F.PLOT_STACKGEOM.NDATA l.k + lpc
  (qs >>> 20, qs % 2 ^ 20)

/-- The location a line-table key stands for. -/
def Loc.ofKey (n : Nat) : Loc :=
  ⟨n / 2 ^ 32, n / 2 ^ 26 % 64, n / 2 ^ 24 % 4, n / 2 ^ 20 % 16, n / 16 % 2 ^ 16, n % 16⟩

/-- The logical PCs that physical PC `pc` serves or is being prepared to serve. -/
def State.lpcsOf (s : State) (k pc : Nat) : List Nat :=
  upTo 64 fun l => (s.bit F.CLU_PCMAP.VALID k l && s.phys k l == pc) ||
    (s.bit F.CLU_MIG.ACTIVE k && s.rd F.CLU_MIG.LPC k == l && s.rd F.CLU_MIG.TARGET k == pc)

/-- Whether a stored line belongs to plot `p` and its address within the plot satisfies `q`. -/
def State.inPlot (s : State) (p : Plot) (q : Nat → Bool) (key : Nat) : Bool :=
  let l := Loc.ofKey key
  (s.lpcsOf l.k l.pc).any fun lpc =>
    let (frame, g) := s.frameOf l lpc
    let sites := s.sites
    if frame ≠ p.frame then false
    else if p.wide then
      let gw := g * sites.length + sites.findIdx (· == l.k)
      gw / 2 ^ 20 == p.member && q ((gw % 2 ^ 20) * 256 + (l.col % 4) * 64)
    else p.stack == l.k && q (g * 256 + (l.col % 4) * 64)

/-- The plot that owns a location through logical PC `lpc`, with the line's address. -/
def State.plotAt (s : State) (l : Loc) (lpc : Nat) : Option (Nat × Nat) :=
  let (frame, g) := s.frameOf l lpc
  let sites := s.sites
  let gw := g * sites.length + sites.findIdx (· == l.k)
  (s.plots.find? fun e => e.2.state != .free && e.2.frame == frame &&
    (if e.2.wide then gw / 2 ^ 20 == e.2.member else e.2.stack == l.k)).map fun e =>
      (e.1, e.1 <<< 28 + (if e.2.wide then gw % 2 ^ 20 else g) * 256 + (l.col % 4) * 64)

/-- The plot and address of a location; plot 0xFFFF when no plot owns it. -/
def State.whose (s : State) (l : Loc) : Nat × Nat :=
  ((s.lpcsOf l.k l.pc).findSome? fun lpc => s.plotAt l lpc).getD (0xFFFF, 0)

/-- Zeroes a region of plot `i` (R73, R804): every line takes the background `f`. -/
def State.zeroPlot (s : State) (i : Nat) (f : Fill) : State :=
  { s with fills := tset none s.fills i (some f), mem := tdropWhere (s.inPlot (s.plot i) fun _ => true) s.mem }

/-- Zeroes the 64 ring areas of function `fn` (R805), under its ring slot's current half. -/
def State.zeroRings (s : State) (fn : Nat) : State :=
  let slot := s.ringSlotOf fn
  { s with fills := tset none s.fills (4096 + fn) (some (s.fillOf slot (s.curHalf slot))),
           mem := tdropWhere (s.inPlot (s.plot 0xFFE) fun a => a >>> 21 == fn) s.mem }

/-- The slot and half that a write to address `pa` of plot `i` uses (R90, R579, R805). -/
def State.writeKey (s : State) (i pa : Nat) : Nat × Bool :=
  if i = 0xFFE then
    let slot := s.ringSlotOf (pa >>> 21 % 128)
    (slot, s.curHalf slot)
  else ((s.plot i).keyslot, (s.plot i).epoch)

/-- Whether the map gives a line no backing (R806). -/
def State.lost (s : State) (st lpc : Nat) : Bool := s.unbacked.contains (st, lpc)

/-- The locations a write of a line reaches now, and the one a read takes it from (R86). -/
def State.locsWritten (s : State) (pa : Nat) (p : Plot) : List Loc :=
  let (st, lpc, u) := s.place pa p
  let r := s.route st lpc u true
  (r.1 :: r.2.toList).map fun pc => s.locIn st pc u (pa >>> 6 % 4)
def State.locRead (s : State) (pa : Nat) (p : Plot) : Loc :=
  let (st, lpc, u) := s.place pa p
  s.locIn st (s.route st lpc u false).1 u (pa >>> 6 % 4)

/-- A block-internal write of one line (R608: FORMAT 0b01), wherever a migration has it go (R86). -/
def State.blockWrite (s : State) (pa : Nat) (d : LineData) : State :=
  let i := pa >>> 28 % 4096
  let p := s.plot i
  let (st, lpc, _) := s.place pa p
  let (slot, e) := s.writeKey i pa
  if s.lost st lpc then s else (s.locsWritten pa p).foldl (fun t l => t.putLine l i pa (s.encLine slot e 1 d)) s

/-- A block-internal read of one line: its plaintext, or none where it is poisoned or fails its key check (R611). -/
def State.blockRead (s : State) (pa : Nat) : Option LineData :=
  let i := pa >>> 28 % 4096
  let p := s.plot i
  let (st, lpc, _) := s.place pa p
  let slot := if i = 0xFFE then s.ringSlotOf (pa >>> 21 % 128) else p.keyslot
  let l := s.lineAt (s.locRead pa p) i pa
  let (k, kc) := s.keyOf slot l.e
  if s.lost st lpc || l.poisoned || l.kc != kc then none else some (l.plain k pa)

/-- Byte `i` of a line. -/
def lineByte (d : LineData) (i : Nat) : Byte := d.extractLsb' (8 * i) 8

/-- A line from its bytes. -/
def lineOf (l : List Byte) : LineData := BitVec.ofNat 512 (leNat (l.take 64))

/-- The 64-bit word `w` of a line. -/
def lineWord (d : LineData) (w : Nat) : W64 := d.extractLsb' (64 * w) 64

/-- A line with its 64-bit word `w` replaced. -/
def putWord (d : LineData) (w : Nat) (v : W64) : LineData :=
  (d &&& ~~~((0xFFFFFFFFFFFFFFFF : LineData) <<< (64 * w))) ||| (v.setWidth 512 <<< (64 * w))

/-- The bytes of `new` where the mask bit is 1, of `old` elsewhere (R103). -/
def mergeLine (old new : LineData) (mask : W64) : LineData :=
  lineOf ((List.range 64).map fun i => if mask.getLsbD i then lineByte new i else lineByte old i)

/-! ### PC controllers -/

/-- PC `p` of cluster `k`. -/
def State.pc (s : State) (k p : Nat) : Pc := tget Pc.blank s.pcs (k * 64 + p)
def State.setPc (s : State) (k p : Nat) (v : Pc) : State := { s with pcs := tset Pc.blank s.pcs (k * 64 + p) v }

/-- A read entry is in use until its line is handed to the crossbar (R176). -/
def REnt.inUse (e : REnt) (now : Nat) : Bool := match e.handed with | some t => decide (now < t) | none => true

/-- A write entry is in use until CLK_PHY tick `t` is past its last WR command (R176). -/
def WEnt.inUse (e : WEnt) (t : Nat) : Bool := match e.out with | some l => decide (t ≤ l.2) | none => true

/-- PC `p` with the queue entries that are in use now; it has been idle from the stamp at which the last of the others became free, if
nothing has kept it since (R231). -/
def State.live (s : State) (k p : Nat) : Pc :=
  let pc := s.pc k p
  let t := s.phy k s.now
  let reads := (pc.rq.filter fun e => !e.inUse s.now).foldl (fun a e => max a (e.handed.getD 0)) pc.idleSince
  let idle := (pc.wq.filter fun e => !e.inUse t).foldl (fun a e => match e.out with | some l => max a (s.stampAfter k l.2) | none => a) reads
  { pc with rq := pc.rq.filter (·.inUse s.now), wq := pc.wq.filter (·.inUse t), idleSince := idle }

/-- Read and write entries in use, those kept for waiting lines among them (R161, R176, R179). -/
def Pc.rqOcc (p : Pc) : Nat := p.rq.length + (p.waiting.map (·.reads)).sum
def Pc.wqOcc (p : Pc) : Nat := p.wq.length + (p.waiting.map (·.writes)).sum

/-- The PC's stack is in self-refresh, or on its way into or out of it (R208, R238). -/
def SrSt.down : SrSt → Bool
  | .awake => false | .asking => false
  | .entering _ _ => true | .asleep => true | .owing => true | .exiting _ => true

/-- The PC's part of the stack is in self-refresh, and no exit has begun. -/
def SrSt.down0 (sr : SrSt) : Bool := sr == .asleep || sr == .owing

/-- A PC may begin to be idle: its idle time counts from now (R231). -/
def State.touch (s : State) (k p : Nat) : State :=
  onlyIf (!(s.pc k p).sr.down) (s.setPc k p { s.pc k p with idleSince := s.now }) s

/-- The window of the trackers ends at each multiple of 38,400,000 ticks: whatever comes first in the tick, they are clear before an ACT
counts and every throttle has ended (R221, R224, R237, R241). -/
def State.trkClear (s : State) : State :=
  if s.now / 38400000 = s.trkWindow then s
  else { s with pcs := s.pcs.map fun e => (e.1, { e.2 with banks := e.2.banks.map fun b => (b.1, { b.2 with trk := [], overflow := false }) }),
                throttles := [], thrOff := [], trkWindow := s.now / 38400000 }


/-- The number of PCs the stack of cluster `k` has: 64 for HBM4, 32 for HBM3E (R29), none at an unpopulated site. -/
def State.pcCount (s : State) (k : Nat) : Nat := s.rd F.PHY_ID.PCS k

/-- The PCs of cluster `k` in any of the given states. -/
def State.anyPc (s : State) (k : Nat) (p : PcState → Bool) : Bool := (List.range 64).any fun i => p (s.pc k i).st

/-- A register of start-up timing may be written (R56, R200, R239): no PC of the stack is SERVING, SPARE or TRAINING, or
the site is in IDENT (1) or TRAINING (2). -/
def State.siteStarting (s : State) (k : Nat) : Bool :=
  s.rd F.PHY_STATUS.SITE k == 1 || s.rd F.PHY_STATUS.SITE k == 2

/-- A training, RESTORE or VERIFY of CCCk's own runs or is due: start-up, the training of R57 or R262, or a relock's (R40). -/
def State.trnBusy (s : State) (k : Nat) : Bool := s.siteStarting k || s.clk.relocking.contains k

/-- The stack of cluster `k` is trained and its PLL locked: its PCs can serve (R40, R57). -/
def State.linkReady (s : State) (k : Nat) : Bool :=
  s.rd F.PHY_STATUS.SITE k == 3 && nbit (s.rd F.CLOCK_STATUS.PHY_LOCK) k && !s.clk.relocking.contains k

/-- The rails of a site: its PHY's, VDDC, VDDQ and VPP (R721). -/
def siteRails (k : Nat) : List Nat := [k + 2, 14 + 3 * k, 15 + 3 * k, 16 + 3 * k]

/-- The rails of a site are off (R28). -/
def State.siteOff (s : State) (k : Nat) : State :=
  (siteRails k).foldl (fun s r => (s.wr F.PM_RAIL_CFG.ON 0 r).send (.pmbus r 0)) s

/-- Controllers 32 to 63 of an HBM3E site are clock-stopped (R29). -/
def State.pcStopped (s : State) (k p : Nat) : Bool := s.pcCount k == 32 && decide (32 ≤ p)

def PcState.live : PcState → Bool
  | .serving => true | .spare => true | .training => true
  | .off => false | .selfRefresh => false | .frozen => false | .retired => false

/-- The code of a PC state (R200). -/
def PcState.code : PcState → Nat
  | .off => 0 | .serving => 1 | .selfRefresh => 2 | .frozen => 3 | .spare => 4 | .retired => 5 | .training => 6

/-- Port of the DRAM commands: none is issued after PLL_MAIN has lost lock (R41). -/
def State.dramOk (s : State) : Bool := !s.clk.mainLost

/-- Marks PC `p` frozen in RAS_FRZk as well. -/
def State.syncFrz (s : State) (k p : Nat) : State :=
  s.setMap F.RAS_FRZ.FROZEN p ((s.pc k p).st == .frozen) k

/-- An inverse lookup: the logical PC that physical PC `p` serves, or 0xFF. -/
def State.lpcOf (s : State) (k p : Nat) : Nat := (s.lpcsOf k p).headD 0xFF

/-! ### Requests -/

/-- The request with number `id`. -/
def State.flight (s : State) (id : Nat) : Option Flight := s.flights.find? (·.id == id)

/-- Changes the request with number `id`. -/
def State.modFlight (s : State) (id : Nat) (f : Flight → Flight) : State :=
  { s with flights := s.flights.map fun x => if x.id == id then f x else x }

/-- Removes the request with number `id`. -/
def State.dropFlight (s : State) (id : Nat) : State := { s with flights := s.flights.filter (·.id != id) }

/-- The credits a doorkeeper keeps for a port. -/
def State.credit (s : State) (k p : Nat) : Credit := tget ⟨0, 0, 0⟩ s.credits (k * 39 + p)
def State.setCredit (s : State) (k p : Nat) (c : Credit) : State :=
  { s with credits := tset ⟨0, 0, 0⟩ s.credits (k * 39 + p) c }

end Sys2Proof.Machine
end

