-- ==== Sys2Proof/Machine/Operands.lean ====
section
/-! DEFINITION. The operand forms of the commands: the fields of a request header (R101) and of a reply header (R108),
the opcodes (R102), and the descriptors of ports (R142, R810). -/

namespace Sys2Proof.Machine

def hOp (h : Header) : Nat := bitsOf h 255 250
/-- Length in lines, 1 to 4. -/
def hLen (h : Header) : Nat := bitsOf h 249 248 + 1
def hTag (h : Header) : Nat := bitsOf h 247 236
def hGen (h : Header) : Nat := bitsOf h 235 232
def hCls (h : Header) : Nat := bitsOf h 231 230
def hOrd (h : Header) : Bool := bitsOf h 229 229 == 1
def hPa (h : Header) : Nat := bitsOf h 223 180
def hRts (h : Header) : Nat := bitsOf h 175 128
def hOpnd (h : Header) : Nat := bitsOf h 127 64
def hWord (h : Header) : Nat := bitsOf h 63 61
def hLkPlot (h : Header) : Bool := bitsOf h 60 60 == 1
def hCfmt (h : Header) : Nat := bitsOf h 59 58

/-- PA with the alias bit cleared (R67). -/
def hLine (h : Header) : Nat := hPa h % 2 ^ 43
def hPlot (h : Header) : Nat := hPa h >>> 28 % 4096

/-- The 28 header bytes the HCRC covers, in header order (R99, R101). -/
def hdrBytes (h : Header) : List Byte := (List.range 28).map fun i => h.extractLsb' (248 - 8 * i) 8
def hcrcOk (h : Header) : Bool := crc32c (hdrBytes h) == h.extractLsb' 0 32

/-- The opcodes (R102). -/
def opRD : Nat := 0x01
def opWR : Nat := 0x02
def opWRP : Nat := 0x03
def opAADD : Nat := 0x08
def opACAS : Nat := 0x09
def opCONTRIB : Nat := 0x10
def opLKACQ : Nat := 0x18
def opLKREL : Nat := 0x19
def opSTAMP : Nat := 0x20

/-- The opcodes in the order of R142; the position is the bit of OPS. -/
def opOrder : List Nat := [0x01, 0x02, 0x03, 0x08, 0x09, 0x10, 0x18, 0x19, 0x20]
def opKnown (o : Nat) : Bool := opOrder.contains o
def opBit (o : Nat) : Nat := opOrder.findIdx (· == o)
/-- Opcodes that read, modify and write one line (R103). -/
def opRmw (o : Nat) : Bool := o == opWRP || o == opAADD || o == opACAS || o == opSTAMP
/-- Opcodes whose LEN must be one line (R102). -/
def opSingle (o : Nat) : Bool := opRmw o || o == opLKACQ || o == opLKREL
/-- Opcodes that write memory at a PC. -/
def opWrites (o : Nat) : Bool := o == opWR || opRmw o

/-- Beats that follow the header (R100, R102). -/
def opBeats (h : Header) : Nat :=
  let o := hOp h
  if o == opWR || o == opCONTRIB then hLen h else if o == opWRP || o == opACAS then 1 else 0

/-- The right an opcode needs, as its bit in a class's four (R68): R 3, W 2, A 1, C 0. -/
def opRight (o : Nat) : Nat :=
  if o == opRD then 3 else if o == opWR || o == opWRP || o == opSTAMP then 2
  else if o == opCONTRIB then 0 else 1

/-- A request header of the block's own making, with a good HCRC. -/
def mkHdr (op len tag gen cls : Nat) (ord : Bool) (pa rts opnd word cfmt : Nat) (alias_ : Bool := false) : Header :=
  let w : Nat := op <<< 250 + (len - 1) <<< 248 + (tag % 4096) <<< 236 + (gen % 16) <<< 232 + cls <<< 230 +
    ord.toNat <<< 229 + (pa % 2 ^ 43 + alias_.toNat <<< 43) <<< 180 + (rts % 2 ^ 48) <<< 128 + (opnd % 2 ^ 64) <<< 64 +
    word <<< 61 + cfmt <<< 58
  let h : Header := BitVec.ofNat 256 w
  h ||| (crc32c (hdrBytes h)).setWidth 256

/-- Result codes (R113). -/
def rOK : Nat := 0x0
def rCORR : Nat := 0x1
def rPOISONED : Nat := 0x2
def rDENIED : Nat := 0x3
def rDROPPED : Nat := 0x4
def rRETRY : Nat := 0x5
def rFROZEN : Nat := 0x6
def rSEALED : Nat := 0x7
def rSTALE : Nat := 0x8
def rBROKEN : Nat := 0x9
def rUNSUP : Nat := 0xA
def rTIMEOUT : Nat := 0xB
def rCHECK : Nat := 0xC
def rABORTED : Nat := 0xD
def rHELD : Nat := 0xE

/-- A reply header (R108). -/
def replyHdr (req : Header) (attn result mts rval lpois lcorr detail : Nat) : Header :=
  let top := (bitsOf req 255 232) <<< 232
  let w : Nat := top + (attn * 16 + result) <<< 224 + (mts % 2 ^ 48) <<< 176 + hRts req <<< 128 +
    (rval % 2 ^ 64) <<< 64 + lpois <<< 60 + lcorr <<< 56 + detail <<< 48
  let h : Header := BitVec.ofNat 256 w
  h ||| (crc32c (hdrBytes h)).setWidth 256

/-- The port classes of RIGHTS (R68): F 0, H 1, L 2, M 3; the class of a requester index (R30). -/
def portClass (p : Nat) : Nat := if p < 24 then 0 else if p = 24 then 1 else if p < 27 then 3 else 2

/-- A capability descriptor (R142). -/
def mkDesc (proto tagbits classes ops ord : Nat) : W64 :=
  BitVec.ofNat 64 (proto <<< 56 + tagbits <<< 52 + classes <<< 48 + ops <<< 39 + ord <<< 38)

/-- The opcodes, tag bits and classes a version provides (R143). -/
def verOps (v : Nat) : Nat := if v = 1 then 0b100011111 else 0b111111111
def verTags (v : Nat) : Nat := if v = 1 then 10 else 12
def verClasses (v : Nat) : Nat := if v = 1 then 0b1011 else 0b1111

/-- The descriptor Myresel sets for a port of its own, given the mirror version agreed (R810). -/
def ownDesc (p mirVer : Nat) : W64 :=
  if 27 ≤ p then mkDesc 2 12 0b0111 0b100111111 1
  else if p = 24 then mkDesc 2 12 0b0011 0b100011111 1
  else mkDesc mirVer (if mirVer = 1 then 10 else 12) 0b1000 (if mirVer = 1 then 0b000000111 else 0b000100111) 1

end Sys2Proof.Machine
end

