-- ==== Sys2Proof/Machine/Flags.lean ====
section
/-! DEFINITION. The status flags: the conditions of the ATTN field, their rank and who sees them (R116 to R119). -/

namespace Sys2Proof.Machine

/-- Free spare PCs of the stack of cluster `k`. -/
def State.freeSpares (s : State) (k : Nat) : List Nat := upTo 64 (nbit (s.rd F.CLU_PCSPARE.MAP k))

/-- The FENCED arrays of Lantern `j` (R320). -/
def State.fencedArrays (s : State) (j : Nat) : List Nat := upTo 52 fun a => s.rd F.LNT_ARRAY.ROLE j a == 4

/-- SPARES_LOW (R645, R666). -/
def State.sparesLow (s : State) : Bool :=
  (s.sites.any fun k => s.rd F.CLU_SPARES.SPARES k != 0 &&
    decide ((s.freeSpares k).length ≤ s.rd F.RAS_CFG.SPARE_WARN)) ||
    (List.range 12).any fun j => !s.bit F.LNT_CTL.FENCED j && decide (4 ≤ (s.fencedArrays j).length)

/-- TEST_ADVISED (R675). -/
def State.testAdvised (s : State) : Bool := s.advised.any fun j => !s.bit F.LNT_CTL.FENCED j

/-- Whether the condition with ATTN value `v` is active (R117). ERROR_RECORD_PENDING, SPARES_LOW, AUDIT_NEAR_FULL,
TEST_ADVISED and FW_EVENT follow from other state (R629, R645, R600, R675, R719); the rest are set and cleared by their events in
GLOBAL_ATTN_PENDING. -/
def State.attn (s : State) (v : Nat) : Bool :=
  if v = 0x3 then s.rd F.RAS_RECHEAD.VALUE != s.rd F.RAS_RECACK.VALUE
  else if v = 0x7 then s.sparesLow
  else if v = 0x5 then decide (s.sec.near < s.rd F.AUDIT_SEQ.VALUE - s.rd F.AUDIT_ACK.VALUE)
  else if v = 0x8 then s.testAdvised
  else if v = 0x4 then (s.reg .FW_EVT).toNat != 0
  else nbit (s.rd F.GLOBAL_ATTN_PENDING.ACTIVE) v

/-- Sets or clears a condition kept in GLOBAL_ATTN_PENDING. -/
def State.setAttn (s : State) (v : Nat) (b : Bool) : State := s.setMap F.GLOBAL_ATTN_PENDING.ACTIVE v b

/-- GLOBAL_ATTN_PENDING.ACTIVE as it reads (R117). -/
def State.attnMap (s : State) : Nat := ((List.range 16).filter s.attn).foldl (fun a v => a + 1 <<< v) 0

/-- A receiver of replies (R118): the tenant it acts for (none: a fabric port bound to no tenant), whether it is a VF, a
mirror port, and whether it runs protocol version 1. -/
structure Receiver where
  tenant : Option Nat
  vf : Bool
  mirror : Bool
  v1 : Bool

def Receiver.operator (r : Receiver) : Bool := r.tenant == some 0 && !r.vf && !r.mirror

/-- Whether a receiver sees condition `v` (R117, R118). -/
def State.sees (s : State) (r : Receiver) (v : Nat) : Bool :=
  if v = 0xF ∨ v = 0x2 ∨ v = 0x1 then true
  else if v = 0x9 then r.vf || (match r.tenant with | some t => t != 0 && !r.mirror | none => false)
  else if v = 0x6 then r.operator || r.mirror || (match r.tenant with
    | some t => s.plots.any fun e => e.2.owner == t && e.2.mirror && t != 0
    | none => false)
  else if v = 0x3 then r.operator || (match r.tenant with
    | some t => t != 0 && ((List.range 1024).map (· + s.rd F.RAS_RECACK.VALUE)).any fun n =>
        decide (n < s.rd F.RAS_RECHEAD.VALUE) && (match tget none s.recs (n % 1024) with
          | some e => e.tenant == t || (decide (e.ring < 8192) && s.rd F.RING_STATE.TENANT e.ring == t)
          | none => false)
    | none => false)
  else r.operator

/-- The ATTN field for a receiver: the highest-ranked condition active and visible (R116, R117, R119). -/
def State.attnFor (s : State) (r : Receiver) : Nat :=
  match [0xF, 0x2, 0x1, 0x9, 0x6, 0x3, 0x7, 0x8, 0x5, 0x4].find? fun v => s.attn v && s.sees r v with
  | none => 0
  | some v => if r.v1 && v == 0x9 then 0x4 else v

end Sys2Proof.Machine
end

