-- ==== Sys2Proof/Machine/History.lean ====
section
/-! DEFINITION. The non-volatile history (R630 to R633), the migrations its judgements start (R636, R642), and the
retirement of PCs. -/

namespace Sys2Proof.Machine

/-- Power-on hours: those of the boots before, and the master timestamp in hours (4.32e12 ticks). -/
def State.hours (s : State) : Nat := s.hist.hours + s.now / 4320000000000

/-- The PC a history unit of class ROW, BANK or PC lies in. -/
def HistUnit.pc (u : HistUnit) : Nat := if u.cls = 2 then u.a else u.a / 64

/-- Replaces or adds a unit's entry. -/
def State.setHist (s : State) (u : HistUnit) : State :=
  let p (x : HistUnit) := x.at_ u.cls u.cluster u.a u.b
  let us := s.hist.units
  let us := if us.any p then us.map (fun x => if p x then u else x) else us ++ [u]
  { s with hist := { s.hist with units := us } }

/-- Commits the pending changes to flash (R630). -/
def State.commitHist (s : State) : State := { s with histFlash := { s.hist with hours := s.hours } }

/-- Events of a unit that fall within its class's window (R631, R649): all of them when the window is 0. -/
def State.inWindow (s : State) (u : HistUnit) : Nat :=
  let w := s.rd F.RAS_CLASS.WINDOW_H u.cls
  if w = 0 then u.count else (u.hours.filter fun h => decide (s.hours < h + w)).length

/-! ### Starting a migration (R636, R642) -/

/-- A migration of a cluster's logical PC may start: 0 yes, 2 NO_SPARE, 3 BUSY (R636). -/
def State.migCheck (s : State) (k : Nat) : Nat :=
  if s.bit F.CLU_MIG.ACTIVE k then 3 else if (s.freeSpares k).isEmpty then 2 else 0

/-- Starts a migration of logical PC `lpc` to the lowest free spare, with its start mark committed (R636, R642). -/
def State.beginMigration (s : State) (k lpc reason : Nat) : State :=
  match s.freeSpares k with
  | [] => s
  | t :: _ =>
    let s := (((s.wr F.CLU_MIG.ACTIVE 1 k).wr F.CLU_MIG.LPC lpc k).wr F.CLU_MIG.TARGET t k).wr F.CLU_MIG.WATERMARK 0 k
    let s := (s.setMap F.CLU_PCSPARE.MAP t false k).wr F.RAS_MIGCTL.BUSY 1 k
    let s : State := { s with
      migs := tset none s.migs k (some ⟨reason⟩),
      mem := tdropWhere (fun n => (Loc.ofKey n).k == k && (Loc.ofKey n).pc == t) s.mem,
      hist := { s.hist with marks := s.hist.marks ++ [(0, k, s.phys k lpc)] } }
    s.commitHist

/-- Starts the migration that a permanent PC of cluster `k` waits for, when one can start (R636, R647, R809). -/
def State.startWanted (s : State) (k : Nat) : State :=
  if s.migCheck k ≠ 0 then s else
  match s.migWant.find? fun w => w.1 == k && (s.pc k w.2.1).st != .frozen && (s.pc k w.2.1).st != .retired &&
      (upTo 64 fun l => s.bit F.CLU_PCMAP.VALID k l && s.phys k l == w.2.1) != [] with
  | none => s
  | some w =>
    let s : State := { s with migWant := s.migWant.filter (· != w) }
    match upTo 64 fun l => s.bit F.CLU_PCMAP.VALID k l && s.phys k l == w.2.1 with
    | [] => s
    | l :: _ => s.beginMigration k l w.2.2

/-! ### Judgement (R631 to R633) -/

/-- A unit becomes permanent (R633): a PERMANENT record, stamped `d` ticks after the event at the head of its chain of causes (R47), the
history committed, and the class's action started: a BANK or PC asks for its migration, a LANE is marked for hard repair. With `rec_` the
record follows the one just written, that of the event. -/
def State.markPermanent (s : State) (u : HistUnit) (sub : Nat) (d : Nat := 1) (rec_ : Bool := false) : State :=
  let e := ErrRec.make (s.now + d) sevInfo 0x24 u.cluster
  let s := s.record { e with sub := sub, ppc := if u.cls ≤ 2 then u.pc else 0xFF, count := u.count, related := if rec_ then s.related else 0 }
  let s := (s.setHist { u with permanent := true, hardRepair := u.hardRepair || u.cls == 3 }).commitHist
  if u.cls = 1 ∨ u.cls = 2 then
    { s with migWant := s.migWant ++ [(u.cluster, u.pc, u.cls - 1)] }.startWanted u.cluster
  else s

/-- Counts one event against a unit of a class other than ROW; what it causes is stamped `d` ticks from now, and follows the
event's own record when `rec_`. -/
def State.event1 (s : State) (cls cluster a b : Nat) (d : Nat := 1) (rec_ : Bool := true) : State :=
  let u := s.histUnit cls cluster a b
  if u.permanent then s
  else if s.bit F.RAS_CLASS.MODE cls && decide (cls = 1 ∨ cls = 2) && u.count == 0 && !s.tests.any (fun t => t.2.at_ cls cluster a b)
  then { s with tests := s.tests ++ [(cluster, u)] }
  else
    let u := { u with count := u.count + 1, hours := (s.hours :: u.hours).take 8 }
    let s := s.setHist u
    if s.rd F.RAS_CLASS.THRESH cls ≤ s.inWindow u then s.markPermanent u 0 d rec_ else s

/-- The bank has no PPR row left (R631): as many of its rows are repaired as the wrapper reported. -/
def State.noPpr (s : State) (cluster key : Nat) : Bool :=
  decide (tget 0 s.pprRows cluster ≤ (s.hist.units.filter fun u => u.cls == 0 && u.cluster == cluster && u.a == key &&
    u.hardRepair && (u.hardDone == 0 || u.hardDone == s.hist.boots)).length)

/-- A row judged permanent counts against its BANK, and makes the bank permanent when no PPR row is left (R631). -/
def State.rowPermanent (s : State) (u : HistUnit) (sub : Nat) (rec_ : Bool := false) : State :=
  let dry := s.noPpr u.cluster u.a
  let s := s.markPermanent u sub 1 rec_
  let s := s.event1 1 u.cluster u.a 0 2
  let bk := s.histUnit 1 u.cluster u.a 0
  if dry && !bk.permanent then s.markPermanent bk 0 2 true else s

/-- Makes a unit of any class permanent. -/
def State.judge (s : State) (u : HistUnit) (sub : Nat) : State := if u.cls = 0 then s.rowPermanent u sub else s.markPermanent u sub

/-- Counts an event against a unit (R630, R631) and judges it: with MODE = REPEAT (1) the first event of a ROW, BANK or PC
starts a test instead (R632). -/
def State.event (s : State) (cls cluster a b : Nat) : State :=
  if cls ≠ 0 then s.event1 cls cluster a b else
  let u := s.histUnit 0 cluster a b
  if u.permanent then s
  else if s.bit F.RAS_CLASS.MODE 0 && u.count == 0 && !s.tests.any (fun t => t.2.at_ 0 cluster a b)
  then { s with tests := s.tests ++ [(cluster, u)] }
  else
    let u := { u with count := u.count + 1, hours := (s.hours :: u.hours).take 8 }
    let s := s.setHist u
    if s.rd F.RAS_CLASS.THRESH 0 ≤ s.inWindow u then s.rowPermanent u 0 true else s

/-! ### Retirement (R88, R623, R637, R806) -/

/-- Physical PC `p` becomes RETIRED: its maps, the history, and a PC_RETIRED record, `d` ticks after a record that causes it (R47). With
`drain` what its queues hold still completes (the source of a migration that has ended); else they are emptied. -/
def State.retirePc (s : State) (k p lpc : Nat) (drain : Bool) (d : Nat := 0) : State :=
  let pc := s.pc k p
  -- R209: held in self-refresh, once its queues are empty; the entry of an emptied one takes 299 ticks (example of R236)
  let s := s.setPc k p (if drain then { pc with st := .retired } else
    { Pc.blank with st := .retired, lfsr := pc.lfsr, sr := if pc.sr.down then .asleep else .entering (s.now + s.phyTicks k 299) false })
  let s := onlyIf (!drain && !pc.sr.down) ((s.incRc F.SR_STAT.ENTRIES k).pmuPc k p 22 1) s
  let s := (s.setMap F.CLU_PCRET.MAP p true k).setMap F.CLU_PCSPARE.MAP p false k
  let s : State := { s.syncFrz k p with hist := { s.hist with retired := s.hist.retired ++ [(k, p)] },
                                        migWant := s.migWant.filter fun w => !(w.1 == k && w.2.1 == p) }
  let e := ErrRec.make (s.now + d) sevInfo 0x22 k
  (s.record { e with ppc := p, lpc := lpc }).commitHist

/-- CCCk sets RETIRED every OPEN or SEALED plot with lines in the stack of cluster `k`, but for the reserved plots, which keep
their state (R623, R806). -/
def State.retirePlots (s : State) (k : Nat) : State :=
  (s.plots.filter fun e => (e.2.state == .openPlot || e.2.state == .sealed) && !e.2.rsvd && (e.2.wide || e.2.stack == k)).foldl
    (fun s e => s.change e.1 (.retire (3 + k))) s

/-- A logical PC loses its backing (R623, R806): the map no longer gives it a PC, and its plots are retired. -/
def State.loseBacking (s : State) (k lpc : Nat) : State :=
  { (s.retirePlots k).wr F.CLU_PCMAP.VALID 0 k lpc with unbacked := s.unbacked ++ [(k, lpc)] }

end Sys2Proof.Machine
end

