-- ==== Sys2Proof/Machine/Traffic.lean ====
section
/-! DEFINITION. The traffic stage (chapter "Shaping, policing and tenant time gates"): token buckets, the gate calendar,
and the queue histograms. -/

namespace Sys2Proof.Machine

/-! ### Buckets (R288 to R296) -/

/-- A bucket: subscriber, service of a subscriber, or port. -/
inductive Bkt where
  | sub (t : Nat)
  | svc (t c : Nat)
  | port (p : Nat)
deriving DecidableEq, Repr

def Bkt.id : Bkt → Nat
  | .sub t => t
  | .svc t c => 256 + 4 * t + c
  | .port p => 1280 + p

/-- The bucket with an identifier. -/
def Bkt.of (n : Nat) : Bkt := if n < 256 then .sub n else if n < 1280 then .svc ((n - 256) / 4) ((n - 256) % 4) else .port (n - 1280)

def State.bCtl (s : State) : Bkt → W64
  | .sub t => s.reg .TRF_SUB_CTL t
  | .svc t c => s.reg .TRF_SVC_CTL t c
  | .port p => s.reg .TRF_PORT_CTL p
/-- The control and BURST words as the present tick found them: a write of RATE or ACTION counts from the next tick (R292, R295). -/
def State.bCtl0 (s : State) : Bkt → W64
  | .sub t => s.reg0 .TRF_SUB_CTL t
  | .svc t c => s.reg0 .TRF_SVC_CTL t c
  | .port p => s.reg0 .TRF_PORT_CTL p
def State.bBurst0 (s : State) : Bkt → Nat
  | .sub t => s.rd0 F.TRF_SUB_BURST.BURST t
  | .svc t c => s.rd0 F.TRF_SVC_BURST.BURST t c
  | .port p => s.rd0 F.TRF_PORT_BURST.BURST p
def State.bEn (s : State) (b : Bkt) : Bool := (s.bCtl b).toNat >>> 31 % 2 == 1
/-- ACTION: 0 POLICE, 1 SHAPE. -/
def State.bShape (s : State) (b : Bkt) : Bool := (s.bCtl0 b).toNat >>> 30 % 2 == 1
def State.bRate (s : State) (b : Bkt) : Nat := (s.bCtl0 b).toNat % 2 ^ 24
def State.bBurst (s : State) : Bkt → Nat
  | .sub t => s.rd F.TRF_SUB_BURST.BURST t
  | .svc t c => s.rd F.TRF_SVC_BURST.BURST t c
  | .port p => s.rd F.TRF_PORT_BURST.BURST p
def State.bTokens (s : State) : Bkt → Nat
  | .sub t => s.rd F.TRF_SUB_TOKENS.TOKENS t
  | .svc t c => s.rd F.TRF_SVC_TOKENS.TOKENS t c
  | .port p => s.rd F.TRF_PORT_TOKENS.TOKENS p
def State.setTokens (s : State) (v : Nat) : Bkt → State
  | .sub t => s.wr F.TRF_SUB_TOKENS.TOKENS v t
  | .svc t c => s.wr F.TRF_SVC_TOKENS.TOKENS v t c
  | .port p => s.wr F.TRF_PORT_TOKENS.TOKENS v p

/-- The buckets of a request's path (R284). -/
def path (tenant cls req : Nat) : List Bkt := [.sub tenant, .svc tenant cls, .port req]

/-- Debits `n` lines from each bucket. -/
def State.debit (s : State) (bs : List Bkt) (n : Nat) : State :=
  bs.foldl (fun s b => s.setTokens (s.bTokens b - 256 * n) b) s

/-- One refill of a bucket (R289); one whose EN is 0 keeps its TOKENS (R291). -/
def State.refill (s : State) (b : Bkt) : State :=
  onlyIf (s.bEn b) (s.setTokens (min (s.bTokens b + s.bRate b) (256 * s.bBurst0 b)) b) s

/-- Every bucket of the block (R288). -/
def allBkts : List Bkt :=
  (List.range 256).map Bkt.sub ++ (List.range 256).flatMap (fun t => (List.range 4).map (Bkt.svc t)) ++
    (List.range 39).map Bkt.port

/-- The refill of a tick applies before any of its charges, whichever command comes first (R289, R290). -/
def State.refillDue (s : State) : State :=
  if s.now % 75 = 0 ∧ s.refilled ≠ s.now + 1 ∧ s.clk.running then { allBkts.foldl State.refill s with refilled := s.now + 1 } else s

/-- After a tick's charges, the buckets whose BURST was written in it are cut to it (R293). -/
def State.cutBursts (s : State) : State :=
  { s.burstCuts.foldl (fun (s : State) n => let b := Bkt.of n; s.setTokens (min (s.bTokens b) (256 * s.bBurst b)) b) s with burstCuts := [] }

/-- The tenant whose buckets a request is charged to (R284). -/
def State.chargeTenant (s : State) (f : Flight) : Nat :=
  if f.req == 25 || f.req == 26 then (s.plot f.plot).owner else f.tenant.getD 0

/-- The requests accepted (POLICE) or released (SHAPE) in the present tick that a bucket has to charge whose EN is set in it (R294). -/
def State.owesNow (s : State) (b : Bkt) : List Flight :=
  s.flights.filter fun f => f.req != 39 && (path (s.chargeTenant f) (hCls f.hdr) f.req).contains b && !f.charged.contains b.id &&
    (match f.stage with
      | .queued => !s.bShape b && f.stamp == s.now
      | .released t => if s.bShape b then t == s.now else f.stamp == s.now
      | .granted _ => false | .replying _ => false)

/-- A request answered DROPPED advances its subscriber's and its port's DROPS (R296). -/
def State.countDrop (s : State) (tenant req : Nat) : State :=
  (s.incRc F.TRF_SUB_DROPS.DROPS tenant).incRc F.TRF_PORT_DROPS.DROPS req

/-! ### The gate calendar (R297 to R315) -/

def State.gateEn (s : State) : Bool := s.gateOn
def State.actN (s : State) : Nat := s.rd F.TRF_GATE_STATUS.NSLOT
def State.actLen (s : State) (i : Nat) : Nat := s.rd F.TRF_GATE_ACT.LEN i
/-- CYCLE (R297). -/
def State.cycle (s : State) : Nat := ((List.range s.actN).map s.actLen).sum
/-- The start of slot `i` within its cycle. -/
def State.slotStart (s : State) (i : Nat) : Nat := ((List.range i).map s.actLen).sum
def State.origin (s : State) : Nat := s.rd F.TRF_GATE_ORIGIN.VALUE
/-- The place of a stamp within its cycle. -/
def State.inCycle (s : State) (t : Nat) : Nat := (t - s.origin) % s.cycle
/-- The slot a stamp falls in (R297). -/
def State.slotAt (s : State) (t : Nat) : Nat :=
  ((List.range s.actN).find? fun i => decide (s.inCycle t < s.slotStart (i + 1))).getD 0
def State.nextSlot (s : State) (i : Nat) : Nat := if i + 1 < s.actN then i + 1 else 0
/-- The fields of slot `i` of a calendar that waits. -/
def Calendar.slot (c : Calendar) (i : Nat) : Nat := (c.slots.getD i 0).toNat
def Calendar.len (c : Calendar) (i : Nat) : Nat := c.slot i % 2 ^ 21
def Calendar.access (c : Calendar) (i : Nat) : Nat := c.slot i >>> 32 % 2 ^ 16
def Calendar.lantern (c : Calendar) (i : Nat) : Nat := c.slot i >>> 48 % 2 ^ 16

/-- The end of stack `k`'s published window. -/
def State.windowEnd (s : State) (k : Nat) : Nat := s.rd F.REF_MAINT_START.STAMP k + usTicks (s.rd F.REF_MAINT.LEN_US k)

/-- The stacks with a published window that has not ended at stamp `org` and would not lie in a slot that admits no group under calendar
`c` with its first cycle at `org` (R314). -/
def State.conflicts (s : State) (c : Calendar) (org : Nat) : List Nat :=
  let cyc := ((List.range c.n).map c.len).sum
  (List.range 12).filter fun k => s.bit F.REF_MAINT.VALID k && (
    let st := s.rd F.REF_MAINT_START.STAMP k
    let en := s.windowEnd k
    !decide (en ≤ org) && !((List.range c.n).any fun i =>
      let a := ((List.range i).map c.len).sum
      c.access i == 0 && decide (org ≤ st) && decide (a ≤ (st - org) % cyc) && decide ((st - org) % cyc + (en - st) ≤ a + c.len i)))

/-- A calendar may not become active at cycle start `org`: it was committed in that tick (R310), it waits for the end of a window, or a
window makes it wait (R314). -/
def State.windowConflict (s : State) (c : Calendar) (org : Nat) : Bool :=
  decide (org ≤ c.madeAt) || decide (org < c.waits) || !(s.conflicts c org).isEmpty

/-- The calendar that becomes active at the end of the present cycle, if a commit is pending and no window makes it wait (R310, R314). -/
def State.calNext (s : State) : Option Calendar :=
  s.calWait.filter fun c => !s.windowConflict c (s.now - s.inCycle s.now + s.cycle)

/-- ACCESS and LANTERN of the slot that follows slot `i`; the slot 0 of a calendar about to become active follows the last (R310). -/
def State.nextAccess (s : State) (i : Nat) : Nat :=
  if i + 1 < s.actN then s.rd F.TRF_GATE_ACT.ACCESS (i + 1)
  else match s.calNext with
    | some c => c.access 0
    | none => s.rd F.TRF_GATE_ACT.ACCESS 0
def State.nextLantern (s : State) (i : Nat) : Nat :=
  if i + 1 < s.actN then s.rd F.TRF_GATE_ACT.LANTERN (i + 1)
  else match s.calNext with
    | some c => c.lantern 0
    | none => s.rd F.TRF_GATE_ACT.LANTERN 0
/-- Whether a stamp lies in a guard band (R299). -/
def State.inGuard (s : State) (t : Nat) : Bool :=
  decide (s.slotStart (s.slotAt t + 1) ≤ s.inCycle t + s.rd F.TRF_GATE_GUARD.ACTIVE)
/-- The gate group in force of a tenant (R298). -/
def State.groupOf (s : State) (t : Nat) : Nat := tget 0 s.groups t
/-- Whether slot `i` admits a group, and whether the group goes on into the next slot (R299). -/
def State.admits (s : State) (g i : Nat) : Bool := nbit (s.rd F.TRF_GATE_ACT.ACCESS i) g
def State.continuing (s : State) (g i : Nat) : Bool := s.admits g i && nbit (s.nextAccess i) g

/-- gate_admits for a tenant at a stamp (R300, R303). -/
def State.gateAdmits (s : State) (tenant t : Nat) : Bool :=
  !s.gateEn || (let i := s.slotAt t; let g := s.groupOf tenant
    s.admits g i && (!s.inGuard t || s.continuing g i))

/-- Whether a context of a tenant may issue at a stamp (R304, R305). -/
def State.lanternAdmits (s : State) (tenant t : Nat) : Bool :=
  !s.gateEn || (let i := s.slotAt t; let g := s.groupOf tenant
    nbit (s.rd F.TRF_GATE_ACT.LANTERN i) g && (!s.inGuard t || nbit (s.nextLantern i) g))

/-- The LATOK bit of active slot `i` (R308). -/
def State.latOk (s : State) (i : Nat) : Bool :=
  let acc := s.rd F.TRF_GATE_ACT.ACCESS i
  let top := (List.range 40).filter fun r => s.rd F.ARB_REQ.PRIO r == 7 &&
    (decide (24 ≤ r) || (s.bit F.PORT_BIND.BOUND r && nbit acc (s.groupOf (s.rd F.PORT_BIND.TENANT r))))
  decide (top.length ≤ 1)

/-- Recomputes TRF_GATE_LATOK (R308). -/
def State.recalcLatok (s : State) : State :=
  s.wr F.TRF_GATE_LATOK.VALUE (((List.range s.actN).filter s.latOk).foldl (fun a i => a + 1 <<< i) 0)

/-- The shadow calendar, as a commit takes it (R309, R318). -/
def State.shadow (s : State) : Calendar :=
  ⟨s.rd F.TRF_GATE_CTL.NSLOT, s.rd F.TRF_GATE_GUARD.SHADOW, (List.range 64).map fun i => s.reg .TRF_GATE_SLOT i, s.now, 0⟩

/-- A calendar becomes active (R310, R311); LATOK follows in the next tick (R308). -/
def State.applyCalendar (s : State) (c : Calendar) : State :=
  let s := (List.range 64).foldl (fun s i => s.setReg .TRF_GATE_ACT i 0 (c.slots.getD i 0)) s
  let s := (s.wr F.TRF_GATE_STATUS.NSLOT c.n).wr F.TRF_GATE_GUARD.ACTIVE c.guard
  { s.wr F.TRF_GATE_CTL.PENDING 0 with calWait := none, latokDue := true }

/-- The largest TRFC_TS over the populated stacks (R307). -/
def State.maxTrfc (s : State) : Nat := s.sites.foldl (fun a k => max a (s.rd F.REF_PERIOD.TRFC_TS k)) 0

/-- A commit of the shadow calendar is refused (R307, R309). -/
def State.commitBad (s : State) : Bool :=
  let n := s.rd F.TRF_GATE_CTL.NSLOT
  let g := s.rd F.TRF_GATE_GUARD.SHADOW
  let lens := (List.range n).map fun i => s.rd F.TRF_GATE_SLOT.LEN i
  n == 0 || decide (64 < n) || lens.any (fun l => decide (l < g + 1200)) || decide (1200000 < lens.sum) ||
    decide (g < 700 + s.maxTrfc) || s.bit F.TRF_GATE_CTL.PENDING

/-- Takes the GROUP fields into force that were written before the present tick (R298, R315). -/
def State.takeGroups (s : State) : State :=
  { s with groups := (List.range 256).foldl (fun g t => tset 0 g t (s.rd0 F.TRF_SUB_CTL.GROUP t)) s.groups, latokDue := true }

/-- What the tick before has left for this one: a GROUP written while EN was 0 (R298), EN written 0 (R303, R313; the pending calendar
becomes active with it: DEDUCED, notes/assumptions/42), and LATOK, in the tick after what changes it (R308). What R298 and R317 leave open
as EN is written 0 is the model's (DESIGN CHOICE, notes/assumptions/42): a GROUP change that waits for a slot boundary takes effect in that
tick, and TRF_GATE_STATUS.SLOT keeps the last slot. -/
def State.gateBegins (s : State) : State :=
  let s : State := if s.groupsDue.isEmpty then s else
    { s with groups := s.groupsDue.foldl (fun g t => tset 0 g t (s.rd F.TRF_SUB_CTL.GROUP t)) s.groups, groupsDue := [], latokDue := true }
  let s : State := if s.latokDue then { s.recalcLatok with latokDue := false } else s
  if !s.gateOff then s else
  let t : State := { s.takeGroups.wr F.TRF_GATE_STATUS.IN_GUARD 0 with gateOn := false, gateOff := false }
  match s.calWait with
  | some c => t.applyCalendar c
  | none => t

/-! ### Meanings -/

/-- BUCKET_REFILL (R289, R290): at a stamp that is a multiple of 75. -/
def execBucketRefill (s : State) : Res :=
  .next s.refillDue

/-- A bucket by the offset of one of its words, and which word it is: 0 control, 1 BURST. -/
def bktAt (off : Nat) : Option (Bkt × Nat) :=
  if 0x800000 ≤ off ∧ off < 0x804000 then
    let t := (off - 0x800000) / 0x40
    let o := (off - 0x800000) % 0x40
    if o = 0 then some (.sub t, 0) else if o = 4 then some (.sub t, 1)
    else if 0x10 ≤ o then
      let c := (o - 0x10) / 0xC
      let w := (o - 0x10) % 0xC
      if w = 0 then some (.svc t c, 0) else if w = 4 then some (.svc t c, 1) else none
    else none
  else if 0x804000 ≤ off ∧ off < 0x804000 + 39 * 0x10 then
    let p := (off - 0x804000) / 0x10
    if off % 0x10 = 0 then some (.port p, 0) else if off % 0x10 = 4 then some (.port p, 1) else none
  else none

def State.setBCtl (s : State) (v : Nat) : Bkt → State
  | .sub t => s.setReg .TRF_SUB_CTL t 0 (BitVec.ofNat 64 (v % 2 ^ 28 + (v >>> 30 % 4) <<< 30))
  | .svc t c => s.setReg .TRF_SVC_CTL t c (BitVec.ofNat 64 (v % 2 ^ 24 + (v >>> 30 % 4) <<< 30))
  | .port p => s.setReg .TRF_PORT_CTL p 0 (BitVec.ofNat 64 (v % 2 ^ 24 + (v >>> 30 % 4) <<< 30))
def State.setBBurst (s : State) (v : Nat) : Bkt → State
  | .sub t => s.wr F.TRF_SUB_BURST.BURST v t
  | .svc t c => s.wr F.TRF_SVC_BURST.BURST v t c
  | .port p => s.wr F.TRF_PORT_BURST.BURST v p

/-- The throttle that applies to a request (R227): the throttled requester, first line in the throttled bank. -/
def State.throttleOf (s : State) (f : Flight) : Option Throttle :=
  s.throttles.find? fun t => t.k == f.k && t.req == f.req && t.pc == f.loc.pc && t.sid == f.loc.sid &&
    t.bank == f.loc.bank && !s.thrOff.contains f.k

/-- A requester that reaches cluster `k` by a direct path, without its doorkeeper (R30, R31). -/
def directPath (k req : Nat) : Bool := req == 39 || req == 27 + k

/-- Data credits of a message: its beats, and a CONTRIB's trailer (R146). -/
def dataCredits (h : Header) (beats : List LineData) : Nat := beats.length + (if hOp h == opCONTRIB then 1 else 0)

/-- Takes or returns a request's credits at the doorkeeper (R146, R147). -/
def State.takeCredit (s : State) (k p : Nat) (m : Msg) : State :=
  if directPath k p then s else
  let c := s.credit k p
  s.setCredit k p { c with hdr := c.hdr - 1, data := c.data - dataCredits m.hdr m.beats }
def State.giveCredit (s : State) (f : Flight) : State :=
  if directPath f.k f.req then s else
  let c := s.credit f.k f.req
  s.setCredit f.k f.req { c with hdr := c.hdr + 1, data := c.data + dataCredits f.hdr f.beats }

/-- Gives a request's lines back to buckets that charged it in the present tick. -/
def State.refund (s : State) (bs : List Bkt) (n : Nat) : State :=
  bs.foldl (fun s b => s.setTokens (min (s.bTokens b + 256 * n) (256 * s.bBurst0 b)) b) s

/-- A request that was accepted or released in the present tick meets a bucket whose EN was set later in it: TOKENS was set before the
tick's charges, this one among them (R294). One the bucket does not hold the lines for is answered DROPPED, or stays in its queue (R285),
and the buckets that have charged it in this tick take their lines back. -/
def State.judgeAgain (b : Bkt) (s : State) (f : Flight) : State :=
  let n := hLen f.hdr
  let t := s.chargeTenant f
  let mine := (path t (hCls f.hdr) f.req).filter fun x => x != b
  let uncap (s : State) : State := onlyIf (s.bit F.SNF_STAT.ENFORCED)
    { s with capUsed := tset 0 s.capUsed f.k (tget 0 s.capUsed f.k - 192 * n) } s
  let wasReleased := f.stage == .released s.now
  let shaped := mine.filter fun x => s.bEn x && s.bShape x && !f.charged.contains x.id
  if 256 * n ≤ s.bTokens b then
    (s.debit [b] n).modFlight f.id fun g => { g with charged := g.charged ++ [b.id] }
  else if s.bShape b then
    (uncap (s.refund shaped n)).modFlight f.id fun g => { g with stage := .queued }
  else
    let s := s.refund (mine.filter fun x => f.charged.contains x.id) n
    let s := if wasReleased then uncap (s.refund shaped n) else s
    let s : State := { s with flights := s.flights.map fun g => if g.id == f.id then
      { g with stage := .replying (s.now + 12), result := rDROPPED, skipFloor := true } else g }
    let s : State := { s with throttles := s.throttles.map fun x => if s.throttleOf f == some x then { x with tokens := x.tokens + 1 } else x }
    (s.giveCredit f).countDrop t f.req

/-- TRF_BUCKET_WRITE (R292 to R295, R298): PF0 writes a control or BURST word of a bucket. -/
def execTrfBucketWrite (off : Nat) (v : W32) (s : State) : Res := s.orWait (.trfBucketWrite off v) fun s =>
  match bktAt off with
  | none => .next s
  | some (b, 0) =>
    if s.inBoot then .next s else
    let was := s.bEn b
    let old := (s.bCtl b).toNat
    let s1 := s.refillDue.setBCtl v.toNat b
    let s2 : State := if was || !s1.bEn b then s1 else
      (s1.owesNow b).foldl (State.judgeAgain b) (s1.setTokens (256 * s1.bBurst0 b) b)
    let s3 : State := match b with
      | .sub t => onlyIf (!s.bit F.TRF_GATE_CTL.EN) { s2 with groupsDue := s2.groupsDue ++ [t] } s2
      | .svc _ _ => s2
      | .port _ => s2
    let new := (s3.bCtl b).toNat
    .next (onlyIf (old != new) (s3.audit 1 0 0 off old new) s3)
  | some (b, _) =>
    if s.inBoot then .next s else
    let n := v.toNat % 2 ^ 16
    if n < 4 then .next s else
    let old := s.bBurst b
    let s1 := s.refillDue.setBBurst n b
    let s2 : State := { s1 with burstCuts := s1.burstCuts ++ [b.id] }
    .next (onlyIf (old != n) (s2.audit 1 0 0 off old n) s2)

/-- GATE_SLOT_BOUNDARY (R297, R298, R300, R301, R305, R315): the first tick of a slot. -/
def execGateSlotBoundary (s : State) : Res :=
  let i := s.slotAt s.now
  .next (onlyIf (s.gateEn && s.inCycle s.now == s.slotStart i)
    ((s.takeGroups.wr F.TRF_GATE_STATUS.SLOT i).wr F.TRF_GATE_STATUS.IN_GUARD 0) s)

/-- GUARD_BAND_START (R299, R301, R305): the first tick of a slot's guard band. -/
def execGuardBandStart (s : State) : Res :=
  let i := s.slotAt s.now
  .next (onlyIf (s.gateEn && s.inCycle s.now + s.rd F.TRF_GATE_GUARD.ACTIVE == s.slotStart (i + 1))
    (s.wr F.TRF_GATE_STATUS.IN_GUARD 1) s)

/-- GATE_COMMIT (R309 to R311): TRF_GATE_CTL.COMMIT is written. -/
def execGateCommit (s : State) : Res := s.orWait .gateCommit fun s =>
  if s.inBoot then .next s
  else if s.commitBad then .next (s.raise F.TRF_GATE_CTL.REJ)
  else if s.bit F.TRF_GATE_CTL.EN then
    .next ({ s.wr F.TRF_GATE_CTL.PENDING 1 with calWait := some s.shadow }.audit 1 0 0 0x808000 0 1)
  else .next ((s.applyCalendar s.shadow).audit 1 0 0 0x808000 0 1)

/-- GATE_COMMIT_APPLY (R310, R314): a pending commit at a cycle start. One that a window makes wait is applied at the first cycle start
after the window ends. -/
def execGateCommitApply (s : State) : Res :=
  match s.calWait with
  | none => .next s
  | some c =>
    if !(s.gateEn && s.inCycle s.now == 0) then .next s
    else if s.windowConflict c s.now then
      .next { s with calWait := some { c with waits := (s.conflicts c s.now).foldl (fun a k => max a (s.windowEnd k)) c.waits } }
    else .next (((s.applyCalendar c).wr F.TRF_GATE_ORIGIN.VALUE s.now).wr F.TRF_GATE_STATUS.SLOT 0)

/-- GATE_ENABLE (R312): EN is written from 0 to 1. -/
def execGateEnable (s : State) : Res := s.orWait .gateEnable fun s =>
  if s.inBoot || s.bit F.TRF_GATE_CTL.EN then .next s
  else if s.actN == 0 then .next (s.raise F.TRF_GATE_CTL.REJ)
  else .next (((s.wr F.TRF_GATE_CTL.EN 1).wr F.TRF_GATE_ORIGIN.VALUE (ceilDiv (s.now + 1200) 1200 * 1200)).audit
    1 0 0 0x808000 0 1)

/-- GATE_START (R312): gating starts at the scheduled ORIGIN. -/
def execGateStart (s : State) : Res :=
  .next (onlyIf (s.bit F.TRF_GATE_CTL.EN && !s.gateOn && s.now == s.origin)
    ({ s.takeGroups with gateOn := true }.wr F.TRF_GATE_STATUS.SLOT 0) s)

/-- GATE_DISABLE (R303, R313): EN is written from 1 to 0. -/
def execGateDisable (s : State) : Res := s.orWait .gateDisable fun s =>
  if !s.inBoot && s.bit F.TRF_GATE_CTL.EN then
    .next ({ s.wr F.TRF_GATE_CTL.EN 0 with gateOff := true }.audit 1 0 0 0x808000 1 0)
  else .next s

/-! ### Histograms (R316, R319) -/

/-- Requests accepted in cluster `k` for requester `r` and not yet granted, oldest first. -/
def State.ungranted (s : State) (k r : Nat) : List Flight :=
  s.flights.filter fun f => f.k == k && f.req == r && (match f.stage with
    | .queued => true | .released _ => true | .granted _ => false | .replying _ => false)

/-- The depth bin of a queue of `n` requests (R316). -/
def depthBin (n : Nat) : Nat := if n = 0 then 0 else min 15 ((n + 3) / 4)
/-- The delay bin of a head delay in CLK_TS ticks (R316). -/
def delayBin (d : Nat) : Nat := if d < 16 then 0 else min 15 (d.log2 - 3)

/-- HIST_SAMPLE (R316, R795): at a stamp that is a multiple of 1,024, once, unless counting is stopped. -/
def execHistSample (s : State) : Res :=
  .next (onlyIf (s.now % 1024 == 0 && s.sampled != s.now + 1 && s.bit F.TRF_HIST_CTL.EN && s.clk.running && !s.frozenNow)
    ((List.range (12 * 40)).foldl (fun (s : State) n =>
      let k := n / 40; let r := n % 40
      let q := s.ungranted k r
      let s := s.incRc F.TRF_DEP.COUNT k (r * 16 + depthBin q.length)
      match q with
      | [] => s
      | f :: _ => s.incRc F.TRF_DLY.COUNT k (r * 16 + delayBin (s.now - f.stamp))) { s with sampled := s.now + 1 }) s)

/-- A key of a histogram bin. -/
def isBin (n : Nat) : Bool := n >>> 28 == RegName.TRF_DEP.ctorIdx || n >>> 28 == RegName.TRF_DLY.ctorIdx

/-- HIST_CLEAR (R23, R317, R319): every bin reads 0 from the next tick. -/
def execHistClear (s : State) : Res := s.orWait .histClear fun s =>
  if s.inBoot then .next s else
  let old := (s.reg .TRF_HIST_CTL).toNat
  .next ({ s with histClear := true }.audit 1 0 0 0x809000 old (old + 2 ^ 30))

/-- A tick in which CLEAR was written ends: every bin is emptied, and the samples of the tick, whichever of the two came first, count into
the cleared bins (R319). -/
def State.clearBins (s : State) : State :=
  let now : Tbl W64 := s.events.filter fun e => isBin e.1
  if s.histClear then
    { s with regs := now.foldl (fun (t : Tbl W64) (e : Nat × W64) => tset 0 t e.1 e.2) (tdropWhere isBin s.regs), histClear := false }
  else s

end Sys2Proof.Machine
end

