-- ==== Sys2Proof/Machine/Fabric.lean ====
section
/-! DEFINITION. The port protocol (chapter "The port protocol"): acceptance, tags, credits, locks, links and replies. -/

namespace Sys2Proof.Machine

/-! ### Who asks -/

/-- The binding of a target code (R567). -/
def State.bind (s : State) (t : Nat) : Bind := tget ⟨false, 0, false, 0⟩ s.sec.binds t

/-- The tenant a requester acts for (R76 tenant_of, R567): a fabric port's binding, the requesting function's binding on
H, the job's tenant on a Lantern port. -/
def State.tenantOf (s : State) (req fn : Nat) (job : Option Nat) : Option Nat :=
  if req < 24 then (if s.bit F.PORT_BIND.BOUND req then some (s.rd F.PORT_BIND.TENANT req) else none)
  else if req = 24 then
    (if fn = 0 then some 0 else let b := s.bind (128 + fn); if b.bound then some b.tenant else none)
  else if 27 ≤ req ∧ req < 39 then job
  else none

/-- The receiver of a request's reply (R118, R119). -/
def State.receiver (s : State) (f : Flight) : Receiver :=
  ⟨f.tenant, f.req == 24 && f.fn != 0, f.req == 25 || f.req == 26, s.rd F.PORT_EFF.VER f.req == 1⟩

/-! ### The access check (R76) -/

/-- What the access check comes to. -/
inductive Access where
  | accept
  | sealed
  | deny (result detail : Nat)
deriving DecidableEq, Repr

/-- Whether RIGHTS gives a port class the right an opcode needs (R68). -/
def rightsHave (rights : BitVec 16) (cls op : Nat) : Bool := rights.getLsbD (4 * cls + opRight op)

/-- reserved_check (R76, R89, R91). -/
def reservedCheck (req fn op pa : Nat) : Access :=
  let i := pa >>> 28 % 4096
  let rd := op == opRD
  let ok :=
    if i = 0xFFF then req == 24 && fn == 0 && rd
    else if i = 0xFFE then req == 24 && (pa >>> 21 % 128 == fn) && (rd || op == opWR || op == opWRP || op == opSTAMP)
    else if i = 0xFFD then false
    else req == 24 && fn == 0 && rd
  if ok then .accept else .deny rDENIED 0x15

/-- check (R76), at acceptance. -/
def State.access (s : State) (req fn : Nat) (tenant : Option Nat) (h : Header) : Access :=
  let pa := hPa h
  let p := s.plot (hPlot h)
  let mirrorPort := req == 25 || req == 26
  if pa >>> 40 % 8 != 0 || pa % 64 != 0 then .deny rUNSUP 0x01
  else if 4 < pa >>> 6 % 4 + hLen h then .deny rUNSUP 0x02
  else if (pa >>> 43 == 1) != mirrorPort then .deny rUNSUP 0x03
  else if p.state == .free || p.state == .retired || p.state == .quarantine then .deny rDENIED 0x10
  else if p.rsvd then reservedCheck req fn (hOp h) (hLine h)
  else if mirrorPort then
    (if !p.mirror then .deny rDENIED 0x15
     else if rightsHave p.rights 3 (hOp h) then .accept else .deny rDENIED 0x13)
  else match tenant with
    | none => .deny rDENIED 0x11
    | some t =>
      if t == 0 && p.owner != 0 then (if hOp h == opRD then .sealed else .deny rDENIED 0x12)
      else if t != p.owner then .deny rDENIED 0x12
      else if p.state == .sealed then .deny rDENIED 0x14
      else if rightsHave p.rights (portClass req) (hOp h) then .accept
      else .deny rDENIED 0x13

/-! ### The steps of R120 before the access check -/

/-- The must-be-0 step of R811. -/
def mustBeZero (h : Header) (tagbits : Nat) : Bool :=
  let o := hOp h
  let known := opKnown o
  bitsOf h 228 224 != 0 || bitsOf h 179 176 != 0 || bitsOf h 57 32 != 0 || hTag h >>> tagbits != 0 ||
    (known && (
      ((o == opRD || o == opWR || o == opLKREL || o == opSTAMP) && hOpnd h != 0) ||
      (o == opCONTRIB && hOpnd h % 2 ^ 32 != 0) || (o == opLKACQ && hOpnd h >>> 20 != 0) ||
      (!(o == opAADD || o == opACAS || o == opSTAMP) && hWord h != 0) ||
      (!(o == opLKACQ || o == opLKREL) && hLkPlot h) || (o != opCONTRIB && hCfmt h != 0)))

/-- The service-class rule of R129 is broken. -/
def classBad (req : Nat) (h : Header) (classes : Nat) : Bool :=
  let c := hCls h
  !nbit classes c ||
    (if req == 25 || req == 26 then c != 3
     else c == 3 || ((hOp h == opCONTRIB) != (c == 2)))

/-- A request with a tag that is outstanding at the same doorkeeper (R127). -/
def State.tagBusy (s : State) (k req tag : Nat) : Bool :=
  s.flights.any fun f => f.k == k && f.req == req && hTag f.hdr == tag && !f.dead

/-- The first of the steps between HOLD and the access check that a request fails (R120), if any: RESULT and DETAIL. A port that a bad
descriptor leaves disabled (R145) keeps ENABLE; its PORT_EFF of 0 refuses every opcode (DEDUCED, notes/assumptions/38). -/
def State.preCheck (s : State) (k req : Nat) (h : Header) : Option (Nat × Nat) :=
  let o := hOp h
  if s.inHold then some (rHELD, 0)
  else if !s.bit F.PORT_CFG.ENABLE req then some (rDENIED, 0x16)
  else if mustBeZero h (s.rd F.PORT_EFF.TAGBITS req) then some (rUNSUP, 0x01)
  else if !opKnown o then some (rUNSUP, 0x04)
  else if o == opCONTRIB && hCfmt h == 3 then some (rUNSUP, 0x04)
  else if !nbit (s.rd F.PORT_EFF.OPS req) (opBit o) then some (rUNSUP, 0x05)
  else if hOrd h && !s.bit F.PORT_EFF.ORD_OK req then some (rUNSUP, 0x05)
  else if classBad req h (s.rd F.PORT_EFF.CLASSES req) then some (rUNSUP, 0x06)
  else if opSingle o && hLen h != 1 then some (rUNSUP, 0x02)
  else if o == opLKACQ && decide (1000000 < hOpnd h) then some (rUNSUP, 0x09)
  else if s.tagBusy k req (hTag h) then some (rUNSUP, 0x08)
  else none

/-! ### Acceptance -/

/-- A request as it is accepted: everything R70, R155, R156, R199 fix at that moment. A new TMO_US or latency floor counts from the next
tick (R155, R199). -/
def State.mkFlight (s : State) (k req fn : Nat) (tenant : Option Nat) (why : Purpose) (m : Msg) : Flight :=
  let h := m.hdr
  let i := hPlot h
  let p := s.plot i
  let (st, lpc, u) := s.place (hLine h) p
  let (pc, also) := s.route st lpc u (hOp h == opWR || hOp h == opWRP || hOp h == opSTAMP)
  let slot := if i = 0xFFE then s.ringSlotOf (hLine h >>> 21 % 128) else p.keyslot
  let e := if i = 0xFFE then s.curHalf slot else p.epoch
  { id := s.nextId, hdr := h, beats := m.beats, trailer := m.trailer, k := k, req := req, fn := fn, tenant := tenant,
    why := why, stamp := s.now, tmo := if req = 39 then 0 else usTicks (s.rd0 F.PORT_CFG.TMO_US req),
    floor := s.rd0 F.ARB_LATFLOOR.TICKS,
    lease := if hOpnd h % 2 ^ 20 = 0 then s.rd F.PORT_LKCFG.LEASE_US req else hOpnd h % 2 ^ 20,
    isSealed := false, charged := [], plot := i, slot := slot, epoch := e, rotating := p.rotating,
    loc := s.locIn st pc u (hPa h >>> 6 % 4), also := also, stage := .queued, prio := 0, order := 0,
    lines := List.replicate (hLen h) .pending, result := 0, detail := 0, rval := 0, counted := false, grantAt := 0,
    firstSeen := 0, skipFloor := false, dead := false }

/-- Enters a request in the list of requests under the next number. -/
def State.addFlight (s : State) (f : Flight) : State := { s with flights := s.flights ++ [f], nextId := s.nextId + 1 }

/-- Answers at acceptance (R807): the reply is handed over 12 ticks after the decision, and R194 does not hold it. -/
def State.answer (s : State) (f : Flight) (result detail : Nat) : State :=
  s.addFlight { f with stage := .replying (s.now + 12), result := result, detail := detail, skipFloor := true }

/-- shape_police_gate at arrival (R285, R286): police, throttle, then the ingress queue. -/
def State.police (s : State) (f : Flight) : State :=
  if f.req = 39 then s.addFlight { f with stage := .released s.now } else
  let s := s.refillDue.trkClear
  let t := s.chargeTenant f
  let n := hLen f.hdr
  let pol := (path t (hCls f.hdr) f.req).filter fun b => s.bEn b && !s.bShape b
  let thr := s.throttleOf f
  if pol.any (fun b => decide (s.bTokens b < 256 * n)) then (s.countDrop t f.req).answer f rDROPPED 0
  else if thr.any (fun t => t.tokens == 0) then ((s.countDrop t f.req).incRc F.RG_DROPS.COUNT f.k).answer f rDROPPED 0
  else
    let s1 := s.debit pol n
    let s2 := match thr with
      | some t => { s1 with throttles := s1.throttles.map fun x => if x == t then { x with tokens := x.tokens - 1 } else x }
      | none => s1
    s2.addFlight { f with charged := pol.map Bkt.id }

/-- The doorkeeper of cluster `k` has the credits a message of port `p` needs. -/
def State.hasCredit (s : State) (k p : Nat) (h : Header) (beats : List LineData) : Bool :=
  directPath k p || (let c := s.credit k p; decide (0 < c.hdr) && decide (dataCredits h beats ≤ c.data))

/-- The tenant of this block that a tenant of the partner maps to (R760): the one with the same requester-key digest. -/
def State.mapTenant (s : State) (t : Nat) : Option Nat :=
  if t = 0 then some 0 else
  match tget none s.mir.image.tenants t with
  | none => none
  | some d => (s.sec.tenants.find? fun e => e.2.any (·.digest == d)).map (·.1)

/-- The tenant map of R766: a mirrored write that passes R76 must meet a plot whose OWNER is the tenant its OTENANT maps to. -/
def State.mirrorAccess (s : State) (why : Purpose) (h : Header) (a : Access) : Access :=
  match why, a with
  | .mirror _ o, .accept => if s.mapTenant o == some (s.plot (hPlot h)).owner then .accept else .deny rDENIED 0x12
  | _, a => a

/-- A mirrored write is accepted: MIR_PLASTw takes its RTS (R782). -/
def State.markMirror (s : State) (why : Purpose) (h : Header) : State :=
  match why with
  | .mirror w _ => s.wr F.MIR_PLAST.RTS (hRts h) w
  | _ => s

/-- The steps of R120 from HOLD on, for a header that has passed its HCRC and sent with credits, at cluster `k`. -/
def State.accept (s : State) (k req fn : Nat) (tenant : Option Nat) (why : Purpose) (m : Msg) : State :=
  let f := s.mkFlight k req fn tenant why m
  match s.preCheck k req m.hdr with
  | some (r, d) =>
    let s := onlyIf (d == 0x08) (s.incRc F.PORT_ERRCNT.TAG_REUSE req) s
    s.answer f r d
  | none =>
    match s.mirrorAccess why m.hdr (s.access req fn tenant m.hdr) with
    | .deny r d => s.answer f r d
    | a =>
      if f.loc.k ≠ k then
        ((s.incRc F.CLU_MISROUTE.COUNT k).wr F.CLU_MISROUTE.LAST_REQ req k).answer f rUNSUP 0x07
      else
        let f := { f with isSealed := a == .sealed }
        let s1 := s.police f
        -- the request is the last of the list; one that stays holds its credits until its grant or answer (R147)
        match s1.flights.getLast? with
        | some g => if g.result == rDROPPED then s1 else (s1.markMirror why m.hdr).takeCredit k req m
        | none => s1

/-- A message of a port reaches a doorkeeper (R120, R147, R148, R152); none comes while FCLK is stopped (R35). A peer write under an old
window epoch (R113, R772) is answered after the step of HOLD and before every other (DESIGN CHOICE, notes/assumptions/37). -/
def State.arrive (s : State) (k req fn : Nat) (why : Purpose) (m : Msg) (stale : Bool := false) : State :=
  if !s.bit F.CLOCK_STATUS.FCLK_PRESENT || (!s.bit F.PORT_LINK.UP req && !s.inBoot) then s
  else if s.inBoot || !s.hasCredit k req m.hdr m.beats then s.incRc F.PORT_ERRCNT.HDR_CRC req
  else if !hcrcOk m.hdr then s.incRc F.PORT_ERRCNT.HDR_CRC req
  else if stale && !s.inHold && (hOp m.hdr == opWR || hOp m.hdr == opWRP) then s.answer (s.mkFlight k req fn none why m) rSTALE 0
  else s.accept k req fn (s.tenantOf req fn none) why m

/-- A message carries the beats its opcode has, and a trailer only with CONTRIB (R100, R102). -/
def frameWf (m : Msg) : Bool := m.beats.length == opBeats m.hdr && (hOp m.hdr == opCONTRIB || m.trailer == 0)

/-- The message of a row: its opcode is the row's, and it carries the beats the opcode has (R100, R102). -/
def msgWf (op : Nat) (m : Msg) : Bool :=
  hOp m.hdr == op && m.beats.length == opBeats m.hdr && (op == opCONTRIB || m.trailer == 0)

/-- A fabric request of one opcode arrives. One with a bad HCRC is counted whatever its other bits and its beats (R120, R147); a good one
has the opcode of its row and the beats that go with it (notes/assumptions/2). -/
def fabricRow (op k p f : Nat) (m : Msg) (s : State) : Res :=
  .next (onlyIf (!hcrcOk m.hdr || msgWf op m) (s.arrive k p f .port m) s)

/-- RD (R102, R106, R120). -/
def execRd (k : Cluster) (p : Fin 25) (f : FnIx) (m : Msg) (s : State) : Res := fabricRow opRD k p f m s
/-- WR (R104). -/
def execWr (k : Cluster) (p : Fin 25) (f : FnIx) (m : Msg) (s : State) : Res := fabricRow opWR k p f m s
/-- WRP (R103). -/
def execWrp (k : Cluster) (p : Fin 25) (f : FnIx) (m : Msg) (s : State) : Res := fabricRow opWRP k p f m s
/-- AADD (R103). -/
def execAadd (k : Cluster) (p : Fin 25) (f : FnIx) (m : Msg) (s : State) : Res := fabricRow opAADD k p f m s
/-- ACAS (R103, R105). -/
def execAcas (k : Cluster) (p : Fin 25) (f : FnIx) (m : Msg) (s : State) : Res := fabricRow opACAS k p f m s
/-- CONTRIB (R102). -/
def execContrib (k : Cluster) (p : Fin 25) (f : FnIx) (m : Msg) (s : State) : Res := fabricRow opCONTRIB k p f m s
/-- LKACQ (R137). -/
def execLkacq (k : Cluster) (p : Fin 25) (f : FnIx) (m : Msg) (s : State) : Res := fabricRow opLKACQ k p f m s
/-- LKREL (R137). -/
def execLkrel (k : Cluster) (p : Fin 25) (f : FnIx) (m : Msg) (s : State) : Res := fabricRow opLKREL k p f m s
/-- STAMP (R103). -/
def execStamp (k : Cluster) (p : Fin 25) (f : FnIx) (m : Msg) (s : State) : Res := fabricRow opSTAMP k p f m s

/-- A message with an opcode R102 does not list: no beats. -/
def unknownWf (m : Msg) : Bool := !opKnown (hOp m.hdr) && m.beats.isEmpty && m.trailer == 0

/-- UNKNOWN_OPCODE_REQUEST (R120, R811). -/
def execUnknownOpcodeRequest (k : Cluster) (p : Fin 25) (f : FnIx) (m : Msg) (s : State) : Res :=
  .next (onlyIf (!hcrcOk m.hdr || unknownWf m) (s.arrive k p f .port m) s)

/-! ### Release, time-out, links -/

/-- The head of an ingress queue (R285, R287). -/
def State.queueHead (s : State) (k req cls : Nat) : Option Flight :=
  s.flights.find? fun f => f.k == k && f.req == req && hCls f.hdr == cls && f.stage == .queued && !f.dead

/-- The shaping buckets of a request that have not charged it yet (R285, R286, R295). -/
def State.shapers (s : State) (f : Flight) : List Bkt :=
  (path (s.chargeTenant f) (hCls f.hdr) f.req).filter fun b => s.bEn b && s.bShape b && !f.charged.contains b.id

/-- Whether the Snuffer's cap bucket of a cluster holds `n` lines while it enforces a slow-down (R737); requester 39, and every
requester while nothing is enforced, passes. -/
def State.capOk (s : State) (k req n : Nat) : Bool :=
  !s.bit F.SNF_STAT.ENFORCED || req == 39 || decide (tget 0 s.capUsed k + 192 * n ≤ 192 * 64)

/-- A queue has released its head in the present tick already: one head is evaluated a tick (R285). -/
def State.releasedNow (s : State) (k req cls : Nat) : Bool :=
  s.flights.any fun f => f.k == k && f.req == req && hCls f.hdr == cls && f.stage == .released s.now

/-- INGRESS_RELEASE (R285, R287, R300, R737): the head of an ingress queue is released when every shaping bucket, the gate
and the cap bucket admit it. While FCLK is stopped a doorkeeper keeps its requests (R35). -/
def execIngressRelease (k : Cluster) (req : Fin 40) (cls : Fin 4) (s : State) : Res :=
  match s.queueHead k req cls with
  | none => .next s
  | some f =>
    let s := s.refillDue
    let n := hLen f.hdr
    let shp := s.shapers f
    let cap := s.bit F.SNF_STAT.ENFORCED
    let clocked := s.bit F.CLOCK_STATUS.FCLK_PRESENT || req.val == 27 + k.val
    .next (onlyIf (clocked && !s.releasedNow k req cls && shp.all (fun b => decide (256 * n ≤ s.bTokens b)) && s.gateAdmits (s.chargeTenant f) s.now && s.capOk k req n)
      ({ s.debit shp n with capUsed := if cap && req.val != 39 then tset 0 s.capUsed k.val (tget 0 s.capUsed k.val + 192 * n) else s.capUsed }.modFlight f.id
        fun g => { g with stage := .released s.now }) s)

/-- Whether a request has been accepted but not issued (R115, R122). -/
def Flight.unissued (f : Flight) : Bool :=
  match f.stage with
  | .queued => true
  | .released _ => true
  | .granted _ => false
  | .replying _ => false

/-- Withdraws a request and answers it (R122, R157, R807). -/
def State.withdraw (s : State) (f : Flight) (result : Nat) : State :=
  (s.giveCredit f).modFlight f.id fun g =>
    { g with stage := .replying (s.now + 12), result := result, skipFloor := true }

/-- REQUEST_TIMEOUT (R122). -/
def execRequestTimeout (id : Nat) (s : State) : Res :=
  match s.flight id with
  | none => .next s
  | some f => .next (onlyIf (f.unissued && f.tmo != 0 && decide (f.stamp + f.tmo ≤ s.now))
      ((s.withdraw f rTIMEOUT).incRc F.PORT_TMO.TIMEOUTS f.req) s)

/-- Every lock and hold of a port starts to break (R139, R140, R172). -/
def State.breakOwned (s : State) (p : Nat) : State :=
  { s with locks := s.locks.map fun l => if l.owner == p && !l.broken then { l with breaking := true } else l,
           holds := s.holds.map fun e => (e.1, e.2.map fun h => if h.req == p then { h with breaking := true } else h) }

/-- A link goes down (R150): in one tick its unissued requests are withdrawn without replies, the replies of its issued
ones will be discarded, its tags and credits are cleared, DOWNS advances and the break of R139 starts. -/
def State.linkDown (s : State) (p : Nat) : State :=
  let s : State := (s.wr F.PORT_LINK.UP 0 p).incRc F.PORT_LINKCNT.DOWNS p
  let s : State := { s with
    flights := (s.flights.filter fun f => !(f.req == p && f.unissued)).map fun f =>
      if f.req == p then { f with dead := true } else f }
  ((List.range 12).foldl (fun s k => s.setCredit k p ⟨0, 0, 0⟩) s).breakOwned p

/-- PORT_EFF of a descriptor (R143 to R145). -/
def State.setEff (s : State) (p : Nat) (d : W64) : State :=
  let proto := bitsOf d 63 56
  let tb := bitsOf d 55 52
  if proto = 0 ∨ tb < 10 ∨ 12 < tb then s.clearReg .PORT_EFF p
  else
    let v := min proto (s.rd F.GLOBAL_PROTO.PORT_PROTO)
    ((((s.wr F.PORT_EFF.VER v p).wr F.PORT_EFF.TAGBITS (min tb (verTags v)) p).wr F.PORT_EFF.CLASSES
      (bitsOf d 51 48 &&& verClasses v) p).wr F.PORT_EFF.OPS (bitsOf d 47 39 &&& verOps v) p).wr F.PORT_EFF.ORD_OK
      (bitsOf d 38 38) p

/-- Grants a port the credits of R146 at every doorkeeper. -/
def State.grantCredits (s : State) (p : Nat) : State :=
  (List.range 12).foldl (fun s k => s.setCredit k p { s.credit k p with hdr := 64, data := 256 }) s

/-- A link comes up (R151, R152): the epoch advances, the descriptor is taken, and credits are granted from HOLD on. -/
def State.linkUp (s : State) (p : Nat) (d : W64) : State :=
  let s := (s.wr F.PORT_LINK.UP 1 p).incWrap F.PORT_LINK.EPOCH p
  let s := (s.setReg .PORT_CAP p 0 d).setEff p d
  onlyIf (!s.inBoot) (s.grantCredits p) s

/-- LINK_RETRY_REPORT (R152): the adapter reports a link retry. -/
def execLinkRetryReport (p : PortIx) (s : State) : Res := .next (s.incRc F.PORT_LINKCNT.RETRIES p)

/-! ### Locks (R134 to R141) -/

/-- The lock of a name in a cluster. -/
def State.lockOf (s : State) (k : Nat) (plotScope : Bool) (name : Nat) : Option Lock :=
  s.locks.find? fun l => l.k == k && l.plotScope == plotScope && l.name == name

/-- Locks in use in a cluster, broken ones included (R134). -/
def State.locksIn (s : State) (k : Nat) : Nat := (s.locks.filter (·.k == k)).length

/-- PORT_LOCKk.IN_USE follows the table. -/
def State.syncLocks (s : State) (k : Nat) : State := s.wr F.PORT_LOCK.IN_USE (s.locksIn k) k

/-- Breaks a lock (R138 to R140): the entry keeps its owner and epoch. -/
def State.breakLock (s : State) (l : Lock) : State :=
  { s with locks := s.locks.map fun x => if x == l then { x with broken := true, breaking := false } else x }.incRc
    F.PORT_LOCK.BREAKS l.k

/-- The lock-table update of LKACQ and LKREL (R137): RESULT, DETAIL and RVAL, and the new table. A lock that is breaking
breaks first (R141). A broken entry answers its former holder as the holder in RVAL (DEDUCED, notes/assumptions/39). -/
def State.lockStep (s : State) (f : Flight) : State × Nat × Nat × Nat :=
  let ps := hLkPlot f.hdr
  let name := if ps then f.plot else hLine f.hdr
  let ep := s.rd F.PORT_LINK.EPOCH f.req
  let acq := hOp f.hdr == opLKACQ
  let until_ := s.now + usTicks f.lease
  let s := match s.lockOf f.k ps name with
    | some l => onlyIf (l.breaking && !l.broken) (s.breakLock l) s
    | none => s
  match s.lockOf f.k ps name with
  | none =>
    if !acq then (s, rDENIED, 0x17, 0)
    else if s.locksIn f.k < 256 then
      ({ s with locks := s.locks ++ [(⟨f.k, ps, name, f.req, ep, until_, false, false⟩ : Lock)] }.syncLocks f.k, rOK, 0, 0)
    else (s, rRETRY, 0, 0)
  | some l =>
    let rv := l.owner <<< 16 + l.epoch
    let own := l.owner == f.req && l.epoch == ep
    if l.broken then
      if acq then
        ({ s with locks := s.locks.map fun x =>
            if x == l then { x with owner := f.req, epoch := ep, lease := until_, broken := false } else x }, rBROKEN, 0, rv)
      else (s, rBROKEN, 0, rv)
    else if acq then
      if own then ({ s with locks := s.locks.map fun x => if x == l then { x with lease := until_ } else x }, rOK, 0, rv)
      else (s, rRETRY, 0, rv)
    else if own then ({ s with locks := s.locks.filter (· != l) }.syncLocks f.k, rOK, 0, rv)
    else (s, rDENIED, 0x17, rv)

/-- LOCK_LEASE_EXPIRY (R138): the lease has run out and the lock is to be broken. -/
def execLockLeaseExpiry (k : Cluster) (plotScope : Bool) (name : Nat) (s : State) : Res :=
  match s.lockOf k plotScope name with
  | none => .next s
  | some l => .next (onlyIf (!l.broken && decide (l.lease ≤ s.now))
      { s with locks := s.locks.map fun x => if x == l then { x with breaking := true } else x } s)

/-- LOCK_BREAK (R138 to R140): a lock that is to be broken becomes broken. -/
def execLockBreak (k : Cluster) (plotScope : Bool) (name : Nat) (s : State) : Res :=
  match s.lockOf k plotScope name with
  | none => .next s
  | some l => .next (onlyIf (l.breaking && !l.broken) (s.breakLock l) s)

/-! ### Replies (R106 to R110, R132, R149, R194, R807) -/

/-- LPOIS and LCORR of a request's lines. -/
def lineMask (p : LineSt → Bool) (ls : List LineSt) : Nat :=
  (ls.zipIdx.filter fun e => p e.1).foldl (fun a e => a + 1 <<< e.2) 0
def LineSt.isPois : LineSt → Bool
  | .done _ p _ => p
  | .pending => false
def LineSt.isCorr : LineSt → Bool
  | .done _ _ c => c
  | .pending => false
/-- The 64 bytes a reply carries for a line (R109). -/
def LineSt.out : LineSt → LineData
  | .done d p _ => if p then 0 else d
  | .pending => 0
def LineSt.isDone : LineSt → Bool
  | .done _ _ _ => true
  | .pending => false

/-- The RESULT of a request all of whose lines are known (R110, R111). -/
def linesResult (isSealed : Bool) (ls : List LineSt) : Nat :=
  if isSealed then rSEALED else if ls.any LineSt.isPois then rPOISONED else if ls.any LineSt.isCorr then rCORR else rOK

/-- Whether a reply carries data (R108). -/
def replyData (op result : Nat) : Bool :=
  op == opRD && (result == rOK || result == rCORR || result == rPOISONED || result == rSEALED)

/-- Whether the latency floor of R194 holds a reply. -/
def Flight.floored (f : Flight) : Bool := !f.skipFloor && (hOp f.hdr == opRD || opRmw (hOp f.hdr))

/-- Whether an earlier ORD = 1 request of the port in the cluster is still unanswered (R132). -/
def State.ordWaits (s : State) (f : Flight) : Bool :=
  hOrd f.hdr && s.flights.any fun g => g.k == f.k && g.req == f.req && hOrd g.hdr && decide (g.id < f.id) && !g.dead

/-- A reply may be handed over now. -/
def State.mayReply (s : State) (f : Flight) : Bool :=
  match f.stage with
  | .replying ready =>
    decide (ready ≤ s.now) && (!f.floored || decide (f.stamp + f.floor ≤ s.now)) && !s.ordWaits f &&
      (f.dead || directPath f.k f.req || decide (0 < (s.credit f.k f.req).resp))
  | _ => false

/-- The reply header of a request, handed over now (R108, R116). -/
def State.replyOf (s : State) (f : Flight) : Header :=
  replyHdr f.hdr (s.attnFor (s.receiver f)) f.result (s.nowAt f.k) f.rval.toNat (lineMask LineSt.isPois f.lines)
    (lineMask LineSt.isCorr f.lines) f.detail

/-- FABRIC_RESPONSE_CREDIT (R149): the fabric returns response credits. -/
def execFabricResponseCredit (k : Cluster) (p : PortIx) (n : Nat) (s : State) : Res :=
  .next (s.setCredit k p { s.credit k p with resp := (s.credit k p).resp + n })

end Sys2Proof.Machine
end

