-- ==== Sys2Proof/Machine/Tap.lean ====
section
/-! DEFINITION. Mirrored writes at their sender (chapter "Pairing two complexes"): the window sets, taps (R762, R763), the mirror
queues (R765, R768), and the links of the ports (R142, R150, R151). -/

namespace Sys2Proof.Machine

def State.modMir (s : State) (f : Mir → Mir) : State := { s with mir := f s.mir }
/-- STATE reads PAIRED (R752). -/
def State.paired (s : State) : Bool := s.rd F.MIR_PAIR.STATE == 2
/-- The effective mirror protocol version (R755). -/
def State.mirVer (s : State) : Nat := s.rd F.MIR_PAIR.VER
/-- Mirror port `p` carries authenticated frames. -/
def State.mirUp (s : State) (p : Nat) : Bool := s.bit F.MIR_PORT.UP p

/-- The clear prefix of a frame (R756). -/
def framePrefix (kind ver win epoch owner lseq blen : Nat) : BitVec 128 :=
  BitVec.ofNat 128 (kind <<< 124 + (ver % 16) <<< 120 + win <<< 116 + epoch <<< 100 + (owner % 256) <<< 92 + (lseq % 2 ^ 32) <<< 60 +
    (blen % 4096) <<< 48)

/-- A frame of a kind leaves on mirror port `p`, with window, epoch, OWNER and body length in its prefix (R756); it counts under the port's key
(R754). LSEQ counts the port's frames from 0 at cold reset (DESIGN CHOICE, notes/assumptions/25). -/
def State.frameOut (s : State) (p kind win epoch owner blen : Nat) (o : Output) : State :=
  let n := tget 0 s.mir.lseq p
  ((s.send (.frame p (framePrefix kind s.mirVer win epoch owner n blen))).send o).modMir fun x =>
    { x with frames := tset 0 x.frames p (tget 0 x.frames p + 1), lseq := tset 0 x.lseq p (n + 1) }

/-- The prefix of a control message that leaves on mirror port `p` now, with body length `blen` (R756). -/
def State.controlPrefix (s : State) (p blen : Nat) : BitVec 128 := framePrefix 2 s.mirVer 0 0 0 (tget 0 s.mir.lseq p) blen

/-- Sends a data request or a control message on mirror port `p`, while that carries frames. -/
def State.sendFrame (s : State) (p : Nat) (m : MirMsg) : State :=
  let control : State := s.frameOut p 2 0 0 0 (Config.controlLen (2 * tget 0 s.mir.lseq p + p)).toNat (.mirror p m)
  onlyIf (s.mirUp p) (match m with
    | .data w e o _ ls => s.frameOut p 0 w e o (2 + 4 * ls.length) (.mirror p m)
    | .hello _ _ => control | .state _ _ _ => control | .epoch _ _ => control | .probe _ => control | .probeReply _ _ _ => control
    | .heart => control | .down _ => control) s

/-- Sends a control message on the lower-numbered mirror port that is up. -/
def State.sendControl (s : State) (m : MirMsg) : State := if s.mirUp 0 then s.sendFrame 0 m else s.sendFrame 1 m

/-! ### Windows -/

/-- The state of active window `w`: 0 IDLE, 1 SYNCING, 2 ACTIVE, 3 PAUSED, 4 DIVERGED. -/
def State.winState (s : State) (w : Nat) : Nat := s.rd F.MIR_ACT_CTL.STATE w
def State.setWinState (s : State) (w v : Nat) : State := s.wr F.MIR_ACT_CTL.STATE v w
/-- A window as it is active, and as its shadow registers give it. -/
def State.actWin (s : State) (w : Nat) : MirWin :=
  ⟨s.rd F.MIR_ACT_BASE.ADDR w * 65536, s.rd F.MIR_ACT_PBASE.ADDR w * 65536, s.rd F.MIR_ACT_SIZE.UNITS w,
    s.bit F.MIR_ACT_CTL.EN w, s.bit F.MIR_ACT_CTL.SYNC w⟩
def State.shadowWin (s : State) (w : Nat) : MirWin :=
  ⟨s.rd F.MIR_WIN_BASE.ADDR w * 65536, s.rd F.MIR_WIN_PBASE.ADDR w * 65536, s.rd F.MIR_WIN_SIZE.UNITS w,
    s.bit F.MIR_WIN_CTL.EN w, s.bit F.MIR_WIN_CTL.SYNC w⟩
def MirWin.covers (w : MirWin) (pa : Nat) : Bool := w.en && decide (w.base ≤ pa) && decide (pa < w.base + w.units * 65536)

/-- A window whose lines are tapped: SYNCING or ACTIVE, or PAUSED, while its taps queue (R762, R775). -/
def State.tapping (s : State) (w : Nat) : Bool := let st := s.winState w; st == 1 || st == 2 || st == 3
/-- The tapping window that covers a line in the active set. -/
def State.winOf (s : State) (pa : Nat) : Option Nat := leastBelow 16 fun w => s.tapping w && (s.actWin w).covers pa
/-- A window of a set that has been committed and has not applied covers the line. -/
def State.pendCovers (s : State) (pa : Nat) : Bool := s.mir.pend.any fun ws => ws.any fun w => w.covers pa

/-- A tap of stamp `t` will never be answered OK: MIR_ACKTS stays below it (R764). -/
def State.missTap (s : State) (t : Nat) : State :=
  s.modMir fun x => { x with failed := some (match x.failed with | some u => min t u | none => t) }

/-- A window becomes DIVERGED (R767, R768, R776): its taps stop, its unsent writes are dropped. -/
def State.diverge (s : State) (w : Nat) : State :=
  if s.winState w = 0 ∨ s.winState w = 4 then s else
  let lost := s.mir.writes.filter fun q => q.w == w && q.st == .queued
  let s : State := lost.foldl (fun (s : State) q => s.missTap q.stamp) (s.setWinState w 4)
  s.modMir fun x => { x with
    writes := x.writes.filter fun q => !(q.w == w && q.st == .queued), sync := tset 0 x.sync w 0, was := tset 0 x.was w 0 }

/-- SYNCING and ACTIVE windows pause (R775, R777); they resume as they were. -/
def State.pauseWins (s : State) : State :=
  (List.range 16).foldl (fun s w => let st := s.winState w
    if st = 1 ∨ st = 2 then (s.setWinState w 3).modMir fun x => { x with was := tset 0 x.was w st } else s) s
def State.resumeWins (s : State) : State :=
  (List.range 16).foldl (fun s w => let st := tget 0 s.mir.was w
    if s.winState w = 3 ∧ st ≠ 0 then (s.setWinState w st).modMir fun x => { x with was := tset 0 x.was w 0 } else s) s

/-! ### Sending (R763, R768) -/

/-- The port the lines of cluster `k` leave through, if one is up (R763, R768). -/
def State.mirPort (s : State) (k : Nat) : Option Nat :=
  if s.mirUp (k % 2) then some (k % 2) else if s.mirUp (1 - k % 2) then some (1 - k % 2) else none

/-- Tags a mirror port may use (R143, R810). -/
def State.mirTags (s : State) : Nat := if s.mirVer = 1 then 1024 else 4096

/-- A queued write may be sent now: it was not tapped in this very tick, for a commit in it comes first (R781); its window is not PAUSED, a
port is up with a free tag, and no older write of its cluster still waits for a port or for its resend from a port that is down. -/
def State.mayMirror (s : State) (q : MirWrite) : Option (Nat × Nat) :=
  if (!q.copy && q.stamp == s.now) || s.winState q.w = 3 || s.mir.writes.any (fun o => o.k == q.k && decide (o.n < q.n) &&
      (o.st == .queued || (o.st == .sent && !s.mirUp o.port))) then none
  else match s.mirPort q.k with
    | none => none
    | some p => (leastBelow s.mirTags fun t => !(s.mir.writes.any fun o => o.st == .sent && o.port == p && o.tag == t)).map (p, ·)

/-- Sends a mirrored write (R763): a posted WR to the partner's address with the alias bit, CLASS 3, ORD = 1, the tap stamp as RTS
and the window, its epoch and the OWNER in the prefix. -/
def State.sendMirror (s : State) (q : MirWrite) : State :=
  match s.mayMirror q with
  | none => s
  | some (p, t) =>
    let g := (tget 0 s.mir.gens (p * 4096 + t) + 1) % 16
    let w := s.actWin q.w
    let e := s.rd F.MIR_WCTL.EPOCH
    let h := mkHdr opWR q.lines.length t g 3 true (w.pbase + (q.pa - w.base)) q.stamp 0 0 0 true
    let s := s.modMir fun x => { x with
      gens := tset 0 x.gens (p * 4096 + t) g
      writes := x.writes.map fun o => if o.n == q.n then { o with st := .sent, port := p, tag := t, gen := g, epoch := e } else o }
    s.sendFrame p (.data q.w e q.owner h q.lines)

/-- Sends every queued write that may be sent, in tap order. -/
def State.mirPump (s : State) : State :=
  (s.mir.writes.filter fun q => q.st == .queued).foldl (fun s q => s.sendMirror q) s

/-! ### Taps (R762, R765, R768) -/

/-- Lines in the mirror queue of cluster `k`. -/
def State.mirLines (s : State) (k : Nat) : Nat := ((s.mir.writes.filter (·.k == k)).map fun q => q.lines.length).sum
/-- Room for `n` more lines (R765). -/
def State.mirRoom (s : State) (k n : Nat) : Bool := decide (s.mirLines k + n ≤ 512)

/-- The mirror queue cannot drain: both ports are down, or the line's window is PAUSED (R768, R775). -/
def State.mirStuck (s : State) (k w : Nat) : Bool := (s.mirPort k).isNone || s.winState w == 3

/-- A request is tapped when it enters a write queue: not from requester 39, M0 or M1 (R762). -/
def Flight.taps (f : Flight) : Bool := opWrites (hOp f.hdr) && f.req != 39 && f.req != 25 && f.req != 26

/-- The mirror queue has room for a request's write, or it will find none because the queue cannot drain (R765, R768). -/
def State.mirAdmits (s : State) (f : Flight) : Bool :=
  if !s.paired || !f.taps then true else
  match s.winOf (hLine f.hdr) with
  | some w => s.mirRoom f.k (hLen f.hdr) || s.mirStuck f.k w
  | none => !s.pendCovers (hLine f.hdr) || s.mirRoom f.k (hLen f.hdr)

/-- Adds a mirrored write; at version 1 one for each line (R755). -/
def State.addMirror (s : State) (k w pa owner : Nat) (lines : List LineData) (copy : Bool) (st : MirSt) : State :=
  let parts : List (Nat × List LineData) := if s.mirVer = 1 then lines.zipIdx.map fun e => (pa + 64 * e.2, [e.1]) else [(pa, lines)]
  parts.foldl (fun s e => s.modMir fun x => { x with
    next := x.next + 1, writes := x.writes ++ [(⟨x.next, k, w, e.1, e.2, s.now, owner, copy, st, 0, 0, 0, 0⟩ : MirWrite)] }) s

/-- The tap of a request whose lines enter a write queue now (R762, R763, R771): queued, held while a commit is pending, or,
where the queue has no room, the end of the window's service (R768). -/
def State.tap (s : State) (f : Flight) (lines : List LineData) : State :=
  if !s.paired || !f.taps then s else
  let pa := hLine f.hdr
  let owner := (s.plot f.plot).owner
  match s.mir.pend with
  | some _ =>
    match s.winOf pa with
    | some w => if s.mirRoom f.k lines.length then s.addMirror f.k w pa owner lines false .held else (s.diverge w).missTap s.now
    | none => if s.pendCovers pa && s.mirRoom f.k lines.length then s.addMirror f.k 0 pa owner lines false .held else s
  | none =>
    match s.winOf pa with
    | none => s
    | some w => if s.mirRoom f.k lines.length then s.addMirror f.k w pa owner lines false .queued else (s.diverge w).missTap s.now

/-! ### Links of the ports -/

/-- MIRROR_DEGRADED (R780); the ports count while the block is PAIRED (DESIGN CHOICE, notes/assumptions/58: an unpaired block carries no frame
on either). -/
def State.mirDegraded (s : State) : Bool :=
  let st := s.rd F.MIR_PAIR.STATE
  st == 3 || (st == 2 && (List.range 2).any fun p => !s.mirUp p || decide (s.rd F.MIR_PORT.WIDTH p < 3)) ||
    (List.range 16).any fun w => s.winState w == 3 || s.winState w == 4

/-- The ATTN condition follows (R117, R780). -/
def State.syncDegraded (s : State) : State := s.setAttn 0x6 s.mirDegraded

/-- Windows pause while the two sides of a port report different widths, and resume when they report the same (R775); not while the
partner is in a warm reset (R777). -/
def State.mirWidths (s : State) : State :=
  if s.mir.back.isSome then s
  else if (List.range 2).any fun p => s.mirUp p && s.rd F.MIR_PORT.PWIDTH p != 0 && s.rd F.MIR_PORT.PWIDTH p != s.rd F.MIR_PORT.WIDTH p then s.pauseWins
  else s.resumeWins

/-- Mirror port `p` begins to carry authenticated frames: its port link is up (R153), and HELLO goes out (R755, R758, R775). -/
def State.mirStart (s : State) (p : Nat) : State :=
  let w := tget 0 s.mir.width p
  let s := ((s.wr F.MIR_PORT.UP 1 p).wr F.MIR_PORT.WIDTH w p).linkUp (25 + p) (ownDesc (25 + p) s.mirVer)
  s.sendFrame p (.hello (s.rd F.GLOBAL_PROTO.MIRROR_PROTO) w)

/-- Mirror port `p` stops carrying authenticated frames (R757). -/
def State.mirStop (s : State) (p : Nat) : State :=
  onlyIf (s.mirUp p) (((s.wr F.MIR_PORT.UP 0 p).wr F.MIR_PORT.WIDTH 0 p).linkDown (25 + p)).syncDegraded s

/-- PORT_LINK_UP (R142, R151, R153, R810): a fabric port with the descriptor the hub gives; H with Myresel's own; the package link
of a mirror port with the width the hub reports in the descriptor's low bits, which carries authenticated frames once a pair
exists (notes/assumptions/20). -/
def execPortLinkUp (p : PortIx) (desc : W64) (s : State) : Res :=
  if p.val < 25 then
    .next (onlyIf (!s.bit F.PORT_LINK.UP p) (s.linkUp p (if p.val < 24 then desc else ownDesc p 0)) s)
  else if p.val < 27 then
    let m := p.val - 25
    let old := tget 0 s.mir.width m
    let now := desc.toNat % 4
    if s.mir.link.contains m then
      .next (onlyIf (s.mirUp m && old != now)
        (((s.modMir fun x => { x with width := tset 0 x.width m now }).wr F.MIR_PORT.WIDTH now m).sendFrame m
          (.hello (s.rd F.GLOBAL_PROTO.MIRROR_PROTO) now) |>.mirWidths.syncDegraded.mirPump) s)
    else
    let s := s.modMir fun x => { x with link := x.link ++ [m], width := tset 0 x.width m (desc.toNat % 4) }
    .next ((onlyIf s.paired (s.mirStart m) s).syncDegraded.mirPump)
  else .next s

/-- PORT_LINK_DOWN (R139, R150, R153): a port's link, or the package link of a mirror port, goes down. The Lanterns' ports are up until
a reset. -/
def execPortLinkDown (p : PortIx) (s : State) : Res :=
  if p.val = 25 ∨ p.val = 26 then
    .next ((s.modMir fun x => { x with link := x.link.filter (· != p.val - 25) }).mirStop (p.val - 25))
  else .next (onlyIf (decide (p.val < 25) && s.bit F.PORT_LINK.UP p) (s.linkDown p) s)

end Sys2Proof.Machine
end

