-- ==== Sys2Proof/Machine/Pc.lean ====
section
/-! DEFINITION. The crossbar and the PC controller (chapter "Inside a pseudo-channel controller"), with the reading of a
line (R611), poison (R616) and the row trackers (R222) that happen inside them. -/

namespace Sys2Proof.Machine

/-! ### Slices (R158 to R168) -/

/-- The Posy slice and the lock-table slice; slices 0 to 63 are the PCs'. -/
def posySlice : Nat := 64
def lockSlice : Nat := 65

def Slice.blank : Slice := ⟨none, 0, 0, 0, none, 0, 0⟩
def State.slice (s : State) (k x : Nat) : Slice := tget Slice.blank s.slices (k * 66 + x)
def State.setSlice (s : State) (k x : Nat) (v : Slice) : State := { s with slices := tset Slice.blank s.slices (k * 66 + x) v }

/-- The slice a request goes to (R158, R159). -/
def Flight.slice (f : Flight) : Nat :=
  let o := hOp f.hdr
  if o == opCONTRIB then posySlice else if o == opLKACQ || o == opLKREL then lockSlice else f.loc.pc

/-- Read and write entries a PC has free (R176). -/
def Pc.readRoom (p : Pc) : Nat := 64 - p.rqOcc
def Pc.writeRoom (p : Pc) : Nat := 64 - p.wqOcc

/-- A read-modify-write in progress on the line. -/
def State.rmwOn (s : State) (p : Pc) (l : Loc) : Bool := p.rmw.any fun i => (s.flight i).any fun f => f.loc == l

/-- The PCs whose write queues a request enters (R159). -/
def Flight.pcs (f : Flight) : List Nat := f.loc.pc :: f.also.toList

/-- The PC's queues have room for the whole request (R161), and fewer than 4 read-modify-writes are in progress; one on a line that has
one in progress waits in the PC (R178, R179). -/
def State.hasRoom (s : State) (f : Flight) : Bool :=
  let o := hOp f.hdr
  let p := s.live f.k f.loc.pc
  let n := hLen f.hdr
  let writes (n : Nat) : Bool := f.pcs.all fun q => decide (n ≤ (s.live f.k q).writeRoom)
  if p.st == .frozen then true
  else if o == opRD then decide (n ≤ p.readRoom)
  else if o == opWR then writes n
  else decide (1 ≤ p.readRoom) && writes 1 && (s.rmwOn p f.loc || decide (p.rmw.length < 4))

/-- The doorkeeper holds a request before presentation: its PC is in self-refresh (R162, R233) or in a window (R218). -/
def State.heldBefore (s : State) (f : Flight) : Bool :=
  decide (f.slice < 64) && (let st := (s.pc f.k f.loc.pc).st; st == .selfRefresh || st == .training ||
    (match f.also with | some q => let t := (s.pc f.k q).st; t == .selfRefresh || t == .training | none => false))

/-- A reply is ready, and past the floor of R194. -/
def Flight.ripe (f : Flight) (now : Nat) : Bool := match f.stage with
  | .replying r => decide (r ≤ now) && (!f.floored || decide (f.stamp + f.floor ≤ now))
  | .queued => false | .released _ => false | .granted _ => false

/-- Replies of a port that wait for fabric response credits at a doorkeeper (R149), beyond the credits there are: those that nothing else
holds, neither the floor of R194 nor an earlier ORD = 1 reply that is held by more than its credit. -/
def State.waitingReplies (s : State) (k p : Nat) : Nat :=
  let fs := s.flights.filter fun f => f.k == k && f.req == p && !f.dead
  (fs.filter fun f => f.ripe s.now && (!hOrd f.hdr || fs.all fun g => !hOrd g.hdr || decide (f.id ≤ g.id) || g.ripe s.now)).length -
    (s.credit k p).resp

/-- The location of line `i` of a request. -/
def Loc.line (l : Loc) (i : Nat) : Loc := { l with col := l.col + i }

/-- The group of a location, in its PC (R80). -/
def Loc.group (l : Loc) : Nat × Nat × Nat × Nat := (l.sid, l.bank, l.row, l.col / 4)

/-- A write entry whose access has not issued. -/
def WEnt.held (e : WEnt) : Bool := e.out.isNone

/-- Pending accesses of a PC (R302): granted, no ACT issued, not forwarded or coalesced; reads by request, writes by group (R182, R185),
and the lines that wait for a read-modify-write with them. -/
def State.pendingAccesses (s : State) (k p : Nat) : Nat :=
  let q := s.live k p
  let reads := (q.rq.filter fun e => !e.issued && !e.retry).map (·.fl) ++ (q.waiting.filter fun w => w.reads != 0).map (·.fl)
  let writes := (q.wq.filter fun e => e.ready && e.held).map (·.loc.group) ++
    (q.waiting.filter fun w => w.reads == 0).filterMap fun w => (s.flight w.fl).map fun f => (f.loc.line w.ln).group
  reads.dedup.length + writes.dedup.length

/-- The order in which one requester's classes present to one slice (R160). -/
def classOrder : List Nat := [1, 3, 0, 2]

/-- The oldest request of a requester's class that the tick finds (R130, R160): none when a slice has granted it in this tick already. -/
def State.classHead (s : State) (k r c : Nat) : Option Flight :=
  let mine (f : Flight) : Bool := f.k == k && f.req == r && hCls f.hdr == c && !f.dead
  if s.flights.any fun f => mine f && f.grantAt == s.now + 1 then none else
  s.flights.find? fun f => mine f && (match f.stage with
    | .queued => true | .released _ => true | _ => false)

/-- Lines in the input buffer of a Posy (R479): CONTRIBs granted and not yet taken. -/
def State.posyLines (s : State) (k : Nat) : Nat :=
  ((s.flights.filter fun f => f.k == k && hOp f.hdr == opCONTRIB && (match f.stage with
    | .granted _ => true | .queued => false | .released _ => false | .replying _ => false)).map fun f => hLen f.hdr).sum

/-- Room for a request at its slice: the PC's queues, or 64 lines of the Posy input buffer (R161, R479). -/
def State.sliceRoom (s : State) (k x : Nat) (f : Flight) : Bool :=
  if x = lockSlice then true else if x = posySlice then decide (s.posyLines k + hLen f.hdr ≤ 64) else s.hasRoom f

/-- The request a requester presents to a slice this tick, if any (R160 to R162, R149, R301, R302); a doorkeeper keeps its requests while
FCLK is stopped (R35). -/
def State.presents (s : State) (k x r : Nat) : Option Flight :=
  (classOrder.filterMap (s.classHead k r)).find? fun f =>
    f.slice == x && (match f.stage with | .released t => decide (t < s.now) | _ => false) && !s.heldBefore f &&
      s.sliceRoom k x f && s.mirAdmits f && (directPath k r || (s.bit F.CLOCK_STATUS.FCLK_PRESENT && decide (s.waitingReplies k r < 64)))

/-- The first tick of the guard band that the present tick lies in. -/
def State.guardStart (s : State) : Nat :=
  s.now + s.slotStart (s.slotAt s.now + 1) - s.inCycle s.now - s.rd F.TRF_GATE_GUARD.ACTIVE

/-- The grants a slice has made in this guard band under the exception of R301. -/
def State.guardGrants (s : State) (k x : Nat) : Nat :=
  let sl := s.slice k x
  if sl.guardFrom = s.guardStart then sl.guard else 0

/-- A guard band stops a released request's grant at a PC slice (R301): its group is not continuing, and it is not one of the two CLASS 1
RDs released before the guard band began. -/
def State.guardStops (s : State) (k x : Nat) (f : Flight) : Bool :=
  s.gateEn && decide (x < 64) && f.req != 39 && s.inGuard s.now && !s.continuing (s.groupOf (s.chargeTenant f)) (s.slotAt s.now) &&
    !(hOp f.hdr == opRD && hCls f.hdr == 1 && decide (s.guardGrants k x < 2) && (match f.stage with
      | .released t => decide (t < s.guardStart) | _ => false))

/-- A request presented to a PC slice, of a group the current slot does not admit, stays presented and is not granted (R301). -/
def State.gateStops (s : State) (k x : Nat) (f : Flight) : Bool :=
  s.guardStops k x f || (s.gateEn && decide (x < 64) && f.req != 39 && !s.admits (s.groupOf (s.chargeTenant f)) (s.slotAt s.now))

/-- The requests a slice may grant this tick, by requester. -/
def State.candidates (s : State) (k x : Nat) : List Flight :=
  (List.range 40).filterMap fun r => (s.presents k x r).bind fun f => if s.gateStops k x f then none else some f

/-- The first requester of highest priority at or after the pointer, wrapping at 40 (R163). -/
def rrPick (prio : Nat → Nat) (rr : Nat) (rs : List Nat) : Option Nat :=
  let best := rs.foldl (fun a r => max a (prio r)) 0
  let top := rs.filter fun r => prio r == best
  ((List.range 40).map fun n => (rr + n) % 40).find? fun r => top.contains r

/-- The hold in force on a slice (R169, R170). -/
def State.holdOn (s : State) (k x : Nat) : Option Hold := s.holds.findSome? fun e => match e.2 with
  | some h => if h.k == k && h.pc == x then some h else none
  | none => none

/-- decide (R163, R170, R302): the requester granted this tick, and the slice afterwards. -/
def State.decide_ (s : State) (k x : Nat) (p : List Flight) : Option Nat × Slice :=
  let sl := s.slice k x
  -- a priority written in this tick counts from the next (R165)
  let prio (r : Nat) := s.rd0 F.ARB_REQ.PRIO r
  let rs := p.map (·.req)
  match s.holdOn k x with
  | some h =>
    let c1 := (p.filter fun f => hCls f.hdr == 1 && f.req != h.req).map (·.req)
    if c1 ≠ [] then (rrPick prio sl.rr c1, sl)
    else if rs.contains h.req then (some h.req, sl) else (none, sl)
  | none =>
    -- R302: while gated, a PC slice contests every grant
    let goesOn := (!s.gateEn || decide (64 ≤ x)) && (match sl.owner with
      | some o => rs.contains o && decide (sl.lines < sl.limit) | none => false)
    if goesOn then (sl.owner, sl)
    else match rrPick prio sl.rr rs with
      | none => (none, { sl with owner := none })
      | some r => (some r, { sl with owner := some r, lines := 0, limit := s.rd F.ARB_REQ.BURST r, rr := (r + 1) % 40 })

/-! ### Entering the queues (R176 to R181, R191) -/

/-- Sets line `i` of a request. -/
def State.setLine (s : State) (id i : Nat) (v : LineSt) : State := s.modFlight id fun f => { f with lines := f.lines.set i v }

/-- Every line known: the request's result (R110), and its reply becomes ready `d` ticks from now. -/
def State.finishIf (s : State) (id d : Nat) : State :=
  match s.flight id with
  | none => s
  | some f =>
    if f.lines.all LineSt.isDone && (match f.stage with | .granted _ => true | _ => false) then
      s.modFlight id fun g => { g with stage := .replying (s.now + d), result := linesResult g.isSealed g.lines }
    else s

/-- Ticks until the crossbar takes a line (R190, R195, "The unloaded read"): from the end of its outer decode, `w` ticks' wait for the
pipeline, AES 28, key check 2 and crossing 6 of CLK_PHY; from its entry at a grant, 4 to the slice, then crossing 6, entry 1 and crossing 6
of CLK_PHY; from its entry after waiting in the PC. -/
def State.afterDecode (s : State) (k : Nat) (w : Nat := 0) : Nat := s.phyTicks k (36 + w)
def State.afterGrant (s : State) (k : Nat) : Nat := 5 + s.phyTicks k 13
def State.afterWait (s : State) (k : Nat) : Nat := 1 + s.phyTicks k 6

/-- From the crossbar to the reply's readiness: return path 4, reply header 6, crossing 6. -/
def tailCrossbar : Nat := 16

/-- The youngest write entry of a line. -/
def Pc.youngest (p : Pc) (l : Loc) : Option WEnt := p.wq.foldl (fun a e => if e.ready && e.loc == l then some e else a) none

/-- The write entries that could be written but for timing: present, not issued, unblocked (R179), and the oldest of their line. -/
def Pc.writable (p : Pc) : List WEnt :=
  p.wq.filter fun e => e.ready && e.held && (p.wq.find? fun x => x.held && x.loc == e.loc).any (·.id == e.id) &&
    e.after.all fun a => !(p.rq.any fun r => r.fl == a.1 && r.ln == a.2 && !r.issued)

/-- The rank of an access made of several write entries (R184): the highest priority and the earliest grant among them (DESIGN CHOICE,
notes/assumptions/40). -/
def topPrio (es : List WEnt) : Nat := es.foldl (fun a x => max a x.prio) 0
def firstOrder (es : List WEnt) : Nat := es.foldl (fun a x => min a x.order) ((es.map (·.order)).headD 0)

/-- The write entries that make one access each: those of one group that are present and unblocked (R185). -/
def Pc.writeGroups (p : Pc) : List (List WEnt) :=
  (p.writable.map (·.loc.group)).dedup.map fun g => p.writable.filter (·.loc.group == g)

/-- Write entry `id` is passed to the AES pipeline, which takes a line in 2 CLK_PHY ticks (R190). -/
def Pc.passLine (p : Pc) (t id : Nat) : Pc :=
  { p with aesFree := max t p.aesFree + 2,
           wq := p.wq.map fun e => if e.id == id then { e with staged := some (max t p.aesFree) } else e }

/-- The scheduler passes write lines to the pipeline by CLK_PHY tick `t`, in the order of their accesses' ranks, as far as the staging
buffer of 16 lines goes (R191; which lines it passes ahead is a DESIGN CHOICE, notes/assumptions/41). -/
def Pc.stage (p : Pc) (t : Nat) : Pc :=
  let used := (p.wq.filter fun e => !e.held).length
  let ranked := p.writeGroups.insertionSort fun a b =>
    topPrio b < topPrio a ∨ (topPrio a = topPrio b ∧ firstOrder a ≤ firstOrder b)
  let keep := (ranked.foldl (fun (acc : List Nat) g => if used + acc.length + g.length ≤ 16 then acc ++ g.map (·.id) else acc) [])
  let p := { p with wq := p.wq.map fun e => if e.held && !keep.contains e.id then { e with staged := none } else e }
  (keep.filter fun i => p.wq.any fun e => e.id == i && e.staged.isNone).foldl (fun p i => p.passLine t i) p

/-- A PC's queues change: what can be passed to the pipeline now is passed (R191). -/
def State.setQueues (s : State) (k p : Nat) (v : Pc) : State := s.setPc k p (v.stage (s.phy k s.now))

/-- One read line enters a PC's read queue (R179, R181): it is forwarded the youngest write entry, waits for that entry when its result is
SEALED, or is to be read from DRAM. `lead` is the time to the crossbar of a forwarded line. -/
def State.enterRead (s : State) (f : Flight) (i : Nat) (rmw : Bool) (lead : Nat) : State :=
  let l := f.loc.line i
  let p := s.live f.k f.loc.pc
  let e : REnt := { fl := f.id, ln := i, loc := l, order := f.order, prio := f.prio, issued := false, waitW := none, rmw := rmw,
                    fwd := none, retry := false, tries := 0, got := none, dataAt := 0, second := none, secondAt := none,
                    handed := none }
  match p.youngest l with
  | none => s.setPc f.k f.loc.pc { p with rq := p.rq ++ [e] }
  | some w =>
    if f.isSealed then s.setPc f.k f.loc.pc { p with rq := p.rq ++ [{ e with waitW := some w.id }] }
    else
      let s := (s.incRc F.PC_HAZ.FORWARDS f.k f.loc.pc).pmuPc f.k f.loc.pc 7 1
      let e := { e with issued := true, fwd := some (w.data, w.poison), dataAt := s.now }
      if rmw then s.setPc f.k f.loc.pc { p with rq := p.rq ++ [e] }
      else (s.setPc f.k f.loc.pc { p with rq := p.rq ++ [{ e with handed := some (s.now + lead) }] }).setLine f.id i
        (.done w.data w.poison false)

/-- A write entry for a request, with no data yet. -/
def State.newEntry (s : State) (f : Flight) (pa : Nat) (l : Loc) : WEnt :=
  { id := s.order, fl := f.id, pa := pa, loc := l, order := f.order, prio := f.prio, data := 0, poison := false, fmt := 0,
    slot := f.slot, epoch := f.epoch, plot := f.plot, req := f.req, ready := true, after := [], staged := none, out := none }

/-- New data may replace those of a write entry at CLK_PHY tick `t` (R179): its WR commands have not begun. -/
def WEnt.coalesces (e : WEnt) (t : Nat) : Bool := match e.out with | some o => decide (t < o.1) | none => true

/-- One WR line enters the write queue of PC `pc` (R179): coalesced into a write entry of the line whose WR commands have not begun, unless
a read waits for that entry (R131), or a new entry that waits for the older unissued reads of the line. An entry whose ACT has
issued is passed to the pipeline again at once (DESIGN CHOICE, notes/assumptions/41). -/
def State.enterWrite (s : State) (f : Flight) (pc i : Nat) (d : LineData) : State :=
  let l := { f.loc.line i with pc := pc }
  let p := s.live f.k pc
  match (p.youngest l).filter fun w => w.coalesces (s.phy f.k s.now) && !(p.rq.any fun r => r.waitW == some w.id) with
  | some w =>
    let s := (s.incRc F.PC_HAZ.COALESCES f.k pc).pmuPc f.k pc 8 1
    let s := onlyIf (!w.held) (s.putLine l f.plot w.pa (s.encLine f.slot f.epoch w.fmt d)) s
    s.setQueues f.k pc { p with wq := p.wq.map fun e => if e.id == w.id then
      { e with data := d, poison := false, fl := f.id, req := f.req, slot := f.slot, epoch := f.epoch, staged := none } else e }
  | none =>
    let after := (p.rq.filter fun e => e.loc == l && !e.issued).map fun e => (e.fl, e.ln)
    let w := { s.newEntry f (hLine f.hdr + 64 * i) l with data := d, after := after }
    { s.setQueues f.k pc { p with wq := p.wq ++ [w] } with order := s.order + 1 }

/-- A read-modify-write enters its PC (R159, R177): a read entry, and a place in every write queue its result goes to, which waits for
the older unissued reads of the line (R131). -/
def State.enterRmw (s : State) (f : Flight) (lead : Nat) : State :=
  let s := s.enterRead f 0 true lead
  let s := f.pcs.foldl (fun (s : State) q =>
    let p := s.live f.k q
    let l : Loc := { f.loc with pc := q }
    let after := (p.rq.filter fun e => e.loc == l && !e.issued && e.fl != f.id).map fun e => (e.fl, e.ln)
    let w := { s.newEntry f (hLine f.hdr) l with ready := false, after := after }
    { s.setPc f.k q { p with wq := p.wq ++ [w] } with order := s.order + 1 }) s
  let p := s.pc f.k f.loc.pc
  s.setPc f.k f.loc.pc { p with rmw := p.rmw ++ [f.id] }

/-- A line waits in the PC for a read-modify-write on it, with the entries it will need kept for it (R161, R179). -/
def State.await (s : State) (f : Flight) (i : Nat) : State :=
  let o := hOp f.hdr
  let w (other : Bool) : Waiter := ⟨f.id, i, if o == opWR || other then 0 else 1, if o == opRD then 0 else 1, other⟩
  let put (s : State) (q : Nat) (w : Waiter) : State := let p := s.pc f.k q; s.setPc f.k q { p with waiting := p.waiting ++ [w] }
  let s := put s f.loc.pc (w false)
  if o == opRD then s else f.also.toList.foldl (fun s q => put s q (w true)) s

/-- A waiting line no longer waits. -/
def State.unwait (s : State) (f : Flight) (i : Nat) : State :=
  f.pcs.foldl (fun s q => let p := s.pc f.k q
    s.setPc f.k q { p with waiting := p.waiting.filter fun w => !(w.fl == f.id && w.ln == i) }) s

/-- Line `i` of a granted request meets the queues (R179); the line of a WR enters in one tick in every PC it goes to (R159). -/
def State.enterLine (s : State) (f : Flight) (i lead : Nat) : State :=
  let o := hOp f.hdr
  if s.rmwOn (s.pc f.k f.loc.pc) (f.loc.line i) then s.await f i
  else if o == opRD then s.enterRead f i false lead
  else if o == opWR then (f.pcs.foldl (fun s q => s.enterWrite f q i (f.beats.getD i 0)) s).setLine f.id i (.done 0 false false)
  else s.enterRmw f lead

/-- A granted request enters its PC's queues (R159, R176 to R179); lines the map gives no backing are answered POISONED, or
discarded, without a DRAM access (R806). -/
def State.enterPc (s : State) (f : Flight) : State :=
  let o := hOp f.hdr
  let n := hLen f.hdr
  let pc := f.loc.pc
  let lead := s.afterGrant f.k
  if s.lost f.k (s.place (hLine f.hdr) (s.plot f.plot)).2.1 then
    (s.modFlight f.id fun g => { g with lines := List.replicate n (.done 0 (o != opWR) false) }).finishIf f.id (lead + tailCrossbar)
  else
    let s := if o == opRD then s.pmuPc f.k pc 5 n else if o == opWR then (s.pmuPc f.k pc 6 n).tap f f.beats
      else (s.pmuPc f.k pc 5 1).pmuPc f.k pc 29 1
    ((List.range n).foldl (fun s i => s.enterLine f i lead) s).finishIf f.id (lead + tailCrossbar)

/-- A request is granted by slice `x` (R163, R168): credits return, the statistics advance, and it enters the PC's queues,
the lock table, or the Posy's input; a frozen PC's slice answers it FROZEN (R162). -/
def State.grant (s : State) (k x : Nat) (f : Flight) : State :=
  let n := hLen f.hdr
  let s := if f.counted then s else s.giveCredit f
  let s := ((s.pmu .ARB_GRANTS k f.req 1).pmuArb k f.req 0 1).pmuArb k f.req 2 n
  let s := onlyIf (hCls f.hdr == 1) (s.pmuArb k f.req 3 1) s
  let s := onlyIf (x < 64 && f.req == 39) (s.pmuPc k x 31 n) s
  let s := onlyIf (x < 64 && hCls f.hdr == 1 && hOp f.hdr == opRD) (s.pmuPc k x 26 n) s
  let waited := if f.firstSeen = 0 then 0 else s.now + 1 - f.firstSeen
  let s := onlyIf (!s.frozenNow)
    (s.maxRc F.ARB_LONGEST.TICKS waited k f.req) s
  let f := { f with stage := .granted s.now, counted := true, grantAt := s.now + 1, prio := s.rd0 F.ARB_REQ.PRIO f.req, order := s.order }
  let s := { s.modFlight f.id fun _ => f with order := s.order + 1 }
  if x = lockSlice then
    let (s, r, d, v) := s.lockStep f
    s.modFlight f.id fun g => { g with stage := .replying (s.now + 16), result := r, detail := d, rval := BitVec.ofNat 64 v,
                                       skipFloor := true }
  else if x = posySlice then s
  else
  let s := s.setPc k x { s.pc k x with idleSince := s.now }
  if (s.pc k x).st == .frozen then
    s.modFlight f.id fun g => { g with stage := .replying (s.now + 16), result := rFROZEN }
  else s.enterPc f

/-- Counts a waiting tick of a requester once a tick (R168). -/
def State.countWait (s : State) (k r : Nat) : State :=
  if tget 0 s.waitSeen (k * 40 + r) = s.now + 1 then s
  else { (s.pmu .ARB_WAIT k r 1).pmuArb k r 1 1 with waitSeen := tset 0 s.waitSeen (k * 40 + r) (s.now + 1) }

/-- CROSSBAR_GRANT (R163): slice `x` of cluster `k` decides among the requests presented this tick, once a tick. -/
def State.crossbar (s : State) (k x : Nat) : State :=
  let sl := s.slice k x
  if sl.last = some s.now then s else
  let vis := (List.range 40).filterMap (s.presents k x)
  -- a presented request withdraws a self-refresh ask, whether or not it is granted (R232)
  let s := onlyIf (decide (x < 64) && !vis.isEmpty && (s.pc k x).sr == .asking)
    (s.setPc k x { s.pc k x with sr := .awake, idleSince := s.now }) s
  let cand := s.candidates k x
  -- R302: while gated, a grant only while the PC holds fewer than 2 pending accesses
  let cand := if s.gateEn && decide (x < 64) && decide (2 ≤ s.pendingAccesses k x) then [] else cand
  let (win, sl') := s.decide_ k x cand
  let s : State := { s with flights := s.flights.map fun f =>
    if (vis.any fun g => g.id == f.id) && f.firstSeen == 0 then { f with firstSeen := s.now + 1 } else f }
  let s := (vis.filter fun f => some f.req ≠ win).foldl (fun s f => s.countWait k f.req) s
  let stopped := vis.filter fun f => s.guardStops k x f
  let s := stopped.foldl (fun s f => s.pmuArb k f.req 5 1) s
  match win.bind fun r => cand.find? (·.req == r) with
  | none => s.setSlice k x { sl' with last := some s.now }
  | some f =>
    let n := hLen f.hdr
    let sl2 := if sl'.owner == some f.req then { sl' with lines := sl'.lines + n } else sl'
    let ended := sl2.owner == some f.req && decide (sl2.limit ≤ sl2.lines)
    let guard := if s.gateEn && f.req != 39 && s.inGuard s.now && !s.continuing (s.groupOf (s.chargeTenant f)) (s.slotAt s.now)
      then s.guardGrants k x + 1 else s.guardGrants k x
    let s := s.setSlice k x { sl2 with last := some s.now, guard := guard, guardFrom := if s.gateEn then s.guardStart else 0 }
    let s := onlyIf ended (s.pmuArb k f.req 4 1) s
    s.grant k x f

/-- CROSSBAR_GRANT (R130 to R133, R158 to R168, R176 to R181, R762, R763). -/
def execCrossbarGrant (k : Cluster) (x : Fin 66) (s : State) : Res :=
  if s.clk.running then .next (s.crossbar k x) else .next s

/-! ### Row trackers (R221 to R226) -/

def Bank.blank : Bank := ⟨none, [], false, 0, 0⟩
def Pc.bank (p : Pc) (sid b : Nat) : Bank := tget Bank.blank p.banks (sid * 16 + b)
def Pc.setBank (p : Pc) (sid b : Nat) (v : Bank) : Pc := { p with banks := tset Bank.blank p.banks (sid * 16 + b) v }

/-- One step of the 32-bit LFSR (Galois form of x^32 + x^22 + x^2 + x + 1; DESIGN CHOICE, notes/assumptions/12) . -/
def lfsrStep (w : W32) : W32 := (w >>> 1) ^^^ (if w.getLsbD 0 then 0x80200003 else 0)

/-- A draw of `k` bits from the PC's LFSR (R222, R223). -/
def Pc.drawK (p : Pc) (k : Nat) : Nat × Pc :=
  let w := (List.range k).foldl (fun w _ => lfsrStep w) p.lfsr
  (w.toNat % 2 ^ k, { p with lfsr := w })

/-- One more RFM owed by a bank, at most 15 (R229). -/
def Bank.owe (b : Bank) : Bank := { b with owed := min 15 (b.owed + 1) }

/-- The lowest-count entry, lowest index on ties: its position. -/
def minIx (l : List Nat) : Nat := l.findIdx (· == l.foldl min (l.headD 0))
/-- The highest-count entry, lowest index on ties. -/
def maxIx (l : List Nat) : Nat := l.findIdx (· == l.foldl max 0)

/-- Credits a requester in the 4 port slots of a tracker entry, with the same replacement (R222). -/
def creditPort (ps : List (Nat × Nat)) (q : Nat) : List (Nat × Nat) :=
  match ps.findIdx? (·.1 == q) with
  | some i => ps.modify i fun e => (e.1, e.2 + 1)
  | none => if ps.length < 4 then ps ++ [(q, 1)] else ps.modify (minIx (ps.map (·.2))) fun e => (q, e.2 + 1)

/-- The throttle a tracker starts (R224 to R226). -/
def State.startThrottle (s : State) (k p sid b q : Nat) : State × Bool :=
  if q = 39 ∨ s.thrOff.contains k then (s, true)
  else if 16 ≤ (s.throttles.filter (·.k == k)).length then (s, false)
  else
    let s := { s with throttles := s.throttles ++ [(⟨k, p, sid, b, q, s.rd F.RG_CFG.BUDGET k⟩ : Throttle)] }
    let s := (s.incRc F.RG_STAT.THROTTLES k).pmuPc k p 30 1
    ((((s.wr F.RG_LAST.PC p k).wr F.RG_LAST.SID sid k).wr F.RG_LAST.BANK b k).wr F.RG_LAST.REQ q k, true)

/-- A draw under the fall-back: an RFM more is owed with probability 2^-NR_K (R222). -/
def State.fallBack (s : State) (k p sid b : Nat) (t : Bank) : State :=
  let (v, pc) := (s.pc k p).drawK (s.rd F.RG_CFG.NR_K k)
  s.setPc k p (pc.setBank sid b (if v = 0 then t.owe else t))

/-- on act (R222). An entry that reaches ACT_LIMIT has its RFM and its throttle at the end of the tick (`settleHit`). -/
def State.onAct (s : State) (k p sid b row q : Nat) : State :=
  let s := s.trkClear
  let pc := s.pc k p
  let t := pc.bank sid b
  if !s.bit F.RG_CFG.THR_EN k || t.overflow then s.fallBack k p sid b t
  else
    let lim := s.rd F.RG_CFG.ACT_LIMIT k
    let counts := t.trk.map (·.count)
    let hit := t.trk.findIdx? (·.row == row)
    let full := decide (16 ≤ t.trk.length)
    if hit.isNone && full && decide (lim / 2 ≤ counts.getD (minIx counts) 0) then
      (s.incRc F.RG_STAT.OVERFLOWS k).fallBack k p sid b { t with overflow := true }
    else
      let (trk, i) : List TrkEnt × Nat := match hit with
        | some i => (t.trk, i)
        | none => if full then (t.trk.modify (minIx counts) fun e => { e with row := row, ports := [] }, minIx counts)
                  else (t.trk ++ [(⟨row, 0, []⟩ : TrkEnt)], t.trk.length)
      let trk := trk.modify i fun e => { e with count := e.count + 1, ports := creditPort e.ports q }
      let e := trk.getD i ⟨row, 0, []⟩
      if e.count < lim then s.setPc k p (pc.setBank sid b { t with trk := trk })
      else
        let top := (e.ports.getD (maxIx (e.ports.map fun x => x.2)) (39, 0)).1
        { s.setPc k p (pc.setBank sid b { t with trk := trk.modify i fun e => { e with count := 0 } }) with
          rgHits := s.rgHits ++ [⟨k, p, sid, b, top, t.trk⟩] }

/-- What an ACT that reached ACT_LIMIT does, at the end of its tick (R222, R225): an RFM is owed and the requester throttled, or the bank
falls back when the table is full. When THR_EN has been written 0 in the same tick, the write has applied first, and the ACT draws
under the fall-back (R237). -/
def State.settleHit (s : State) (h : RgHit) : State :=
  let pc := s.pc h.k h.pc
  let t := pc.bank h.sid h.bank
  if !s.bit F.RG_CFG.THR_EN h.k then s.fallBack h.k h.pc h.sid h.bank { t with trk := h.before }
  else
    let (s, ok) := (s.setPc h.k h.pc (pc.setBank h.sid h.bank t.owe)).startThrottle h.k h.pc h.sid h.bank h.top
    if ok then s else
      let pc := s.pc h.k h.pc
      (s.setPc h.k h.pc (pc.setBank h.sid h.bank { pc.bank h.sid h.bank with overflow := true })).incRc F.RG_STAT.OVERFLOWS h.k

def State.settleHits (s : State) : State := { s.rgHits.foldl State.settleHit s with rgHits := [] }

/-! ### When a PC may issue (R204 to R206, R213) -/

/-- off(p) (R204). -/
def State.refOff (s : State) (k p : Nat) : Nat := p * s.rd F.REF_PERIOD.TREFI_TS k / s.pcCount k

/-- Whether a stamp is a due stamp of PC `p` (R204). -/
def State.isDue (s : State) (k p t : Nat) : Bool :=
  decide (p < s.pcCount k) && (t - s.rd F.REF_ORIGIN.STAMP k) % s.rd F.REF_PERIOD.TREFI_TS k == s.refOff k p

/-- The states in which refresh goes on (R207); a retired PC's too until it is in self-refresh (R209). -/
def PcState.refreshes : PcState → Bool
  | .serving => true | .frozen => true | .training => true | .spare => true | .retired => true
  | .off => false | .selfRefresh => false

/-- A due stamp that falls now is honoured: not in self-refresh (R208), and not within 1,200 ticks after an exit (R235). -/
def State.honours (s : State) (k p : Nat) : Bool :=
  let pc := s.pc k p
  s.isDue k p s.now && pc.st.refreshes && !pc.sr.down && (pc.skipUntil == 0 || decide (pc.skipUntil < s.now)) && s.dramOk

/-- The PC may issue an ACT (R40, R41, R57, R206): a FROZEN PC issues none but refresh; none at or after a due stamp, none while its link
is not trained. A source retired at the end of its migration still drains its queues. -/
def State.mayAct (s : State) (k pcn : Nat) : Bool :=
  let p := s.pc k pcn
  s.dramOk && s.linkReady k && (p.st == .serving || p.st == .spare || p.st == .training || p.st == .retired) && !p.sr.down &&
    p.ref == .idle && !s.honours k pcn

/-! ### Issuing an access (R182 to R188) -/

/-- An access ready to be considered: its lines are read entries of one request, or write entries of one group. `again` is the second retry
of a CLASS 1 read (R220); `passed` gives when each line of a write was passed to the AES pipeline. -/
structure Access1 where
  write : Bool
  retry : Bool
  again : Bool
  prio : Nat
  order : Nat
  loc : Loc
  cols : List Nat
  ids : List Nat
  req : Nat
  passed : List (Option Nat)
deriving DecidableEq, Repr

/-- A SEALED read still waits for the write entry it met (R179). -/
def Pc.blocked (p : Pc) (e : REnt) : Bool := e.waitW.any fun w => p.wq.any (·.id == w)

/-- The lines of one request among `live` entries, from the first to the last, as one access (R181). -/
def readAccess (req : Nat → Nat) (again : Bool) (live : List REnt) (id : Nat) : Option Access1 :=
  match live.filter (·.fl == id) with
  | [] => none
  | e :: es =>
    let cs := (e :: es).map (·.loc.col)
    let lo := cs.foldl min e.loc.col
    let hi := cs.foldl max e.loc.col
    some ⟨false, again || (e :: es).any (·.retry), again, e.prio, e.order, { e.loc with col := lo },
      (List.range (hi + 1 - lo)).map (· + lo), [id], req id, []⟩

/-- The read accesses of a PC: the unissued, unblocked read entries of each request (R181), and the second retries whose tRC has passed
(R220). -/
def readAccesses (p : Pc) (req : Nat → Nat) (t : Nat) : List Access1 :=
  let live := p.rq.filter fun e => !e.issued && !p.blocked e
  let again := p.rq.filter fun e => e.issued && e.second.any fun u => decide (u ≤ t)
  (live.map (·.fl)).dedup.filterMap (readAccess req false live) ++ (again.map (·.fl)).dedup.filterMap (readAccess req true again)

/-- The write accesses of a PC (R185). -/
def writeAccesses (p : Pc) : List Access1 := p.writeGroups.filterMap fun es => match es with
  | [] => none
  | e :: _ => some ⟨true, false, false, topPrio es, firstOrder es, { e.loc with col := es.foldl (fun a x => min a x.loc.col) e.loc.col },
      es.map (·.loc.col), es.map (·.id), e.req, es.map (·.staged)⟩

/-- tRC (R188). -/
def State.trc (s : State) (k : Nat) : Nat := s.rd F.CLU_TIM0.TRAS k + s.rd F.CLU_TIM0.TRP k

/-- Column-command ticks of an access of `n` lines whose ACT is at CLK_PHY tick `t` (two bursts a line, tCCD_L apart). -/
def State.colTicks (s : State) (k t n : Nat) : List Nat :=
  (List.range (2 * n)).map fun i => t + s.rd F.CLU_TIM0.TRCD k + i * s.rd F.CLU_TIM1.TCCD_L k

/-- The column command of a burst. -/
def State.colOf (s : State) (k : Nat) (b : Burst) : Nat :=
  b.at_ - (if b.write then s.rd F.CLU_TIM1.WL k else s.rd F.CLU_TIM0.RL k)

/-- A write burst and a read burst keep the turnaround limits (R188). -/
def State.turns (s : State) (k : Nat) (w r : Burst) : Bool :=
  let wtr := if w.group = r.group then s.rd F.CLU_TIM2.TWTR_L k else s.rd F.CLU_TIM2.TWTR_S k
  decide (w.at_ + 1 + wtr ≤ s.colOf k r) || decide (r.at_ + 1 + s.rd F.CLU_TIM2.TRTW k ≤ w.at_)

/-- Two bursts can both be reserved (R182, R188): their column commands are tCCD apart, their data in different ticks. -/
def State.apart (s : State) (k : Nat) (x y : Burst) : Bool :=
  let d := if x.group = y.group then s.rd F.CLU_TIM1.TCCD_L k else s.rd F.CLU_TIM1.TCCD_S k
  (decide (s.colOf k x + d ≤ s.colOf k y) || decide (s.colOf k y + d ≤ s.colOf k x)) && x.at_ != y.at_ &&
    (if x.write == y.write then true else if x.write then s.turns k x y else s.turns k y x)

/-- The bursts of an access whose ACT is at CLK_PHY tick `t`. -/
def State.bursts (s : State) (k : Nat) (a : Access1) (t : Nat) : List Burst :=
  (s.colTicks k t a.cols.length).map fun c =>
    ⟨c + (if a.write then s.rd F.CLU_TIM1.WL k else s.rd F.CLU_TIM0.RL k), a.write, a.loc.sid * 4 + a.loc.bank / 4⟩

/-- An access may take its ACT at CLK_PHY tick `t` (R182, R186, R188, R191): bank past tRC and any RFM, tRRD and tFAW met, every column
and data-bus slot it will use free with the limits between bursts met, and every line to write passed to the pipeline 28 ticks before its
WR command. -/
def State.fits (s : State) (k : Nat) (p : Pc) (a : Access1) (t : Nat) : Bool :=
  let bank := p.bank a.loc.sid a.loc.bank
  let okBank := (match bank.lastAct with | some l => decide (l + s.trc k ≤ t) | none => true) && decide (bank.busy ≤ t)
  let okRrd := p.acts.all fun e =>
    decide (e.1 + (if e.2 % 16 / 4 = a.loc.bank / 4 ∧ e.2 / 16 = a.loc.sid then s.rd F.CLU_TIM1.TRRD_L k
      else s.rd F.CLU_TIM1.TRRD_S k) ≤ t)
  let okFaw := decide ((p.acts.filter fun e => decide (t < e.1 + s.rd F.CLU_TIM1.TFAW k)).length < 4)
  let okBus := (s.bursts k a t).all fun x => p.slots.all fun y => s.apart k x y
  let okAes := a.passed.zipIdx.all fun e => e.1.any fun v => decide (v + 28 ≤ (s.colTicks k t a.cols.length).getD (2 * e.2) 0)
  okBank && okRrd && okFaw && okBus && okAes

/-- The mode of the scheduler in this CLK_PHY tick (R186): the thresholds are those of the tick's beginning (R202). -/
def State.drainMode (s : State) (k pcn : Nat) (p : Pc) : Bool :=
  if s.rdPhy k F.PC_QCFG.WQ_HI k pcn ≤ p.wqOcc then true
  else if p.drain && decide (p.wqOcc ≤ s.rdPhy k F.PC_QCFG.WQ_LO k pcn) then false else p.drain

/-- The better of two accesses (R184): higher priority, then earlier grant. -/
def better (b : Option Access1) (a : Access1) : Option Access1 := match b with
  | none => some a
  | some x => if x.prio < a.prio ∨ (x.prio = a.prio ∧ a.order < x.order) then some a else some x

/-- The access the scheduler selects at CLK_PHY tick `t` (R184, R186): the oldest ready retry first; in drain mode the writes; in read mode
the reads, with the writes that waiting reads depend on at the first such read's priority (DESIGN CHOICE, notes/assumptions/40), or, when
no read is ready, every ready write. -/
def State.select (s : State) (k : Nat) (p : Pc) (drain : Bool) (t : Nat) : Option Access1 :=
  let reads := (readAccesses p (fun id => ((s.flight id).map (·.req)).getD 39) t).filter fun a => s.fits k p a t
  let writes := (writeAccesses p).filter fun a => s.fits k p a t
  let needed := p.rq.filterMap fun e => e.waitW.map fun w => (w, e.prio)
  let dep := writes.filterMap fun a => (needed.find? fun n => a.ids.contains n.1).map fun n => { a with prio := n.2 }
  match (reads.filter (·.retry)).foldl (fun (b : Option Access1) a => match b with
      | none => some a | some x => if a.order < x.order then some a else some x) none with
  | some a => some a
  | none =>
    let cand := if drain then writes
      else if reads.isEmpty then writes
      else reads ++ dep
    cand.foldl better none

/-- Writes one queued line to the stack (R191, R579, R618): encrypted as it leaves the queue under the half its request was
accepted with, or a poison line. `bad` says that a parity error was found in the entry's data. -/
def State.drainLine (s : State) (w : WEnt) (bad : Bool) : State :=
  let line := if w.poison || bad then s.poisonLine w.slot w.epoch else s.encLine w.slot w.epoch w.fmt w.data
  let s := s.putLine w.loc w.plot w.pa line
  let s := ((s.pmuPc w.loc.k w.loc.pc 4 1).pmuAes w.loc.k w.loc.pc 0 1).pmuAes w.loc.k w.loc.pc 6 2
  let s := onlyIf bad (s.pmuAes w.loc.k w.loc.pc 7 1) s
  if bad then
    let e := ErrRec.make s.now sevRecoverable 0x04 w.loc.k
    (s.record { e with ppc := w.loc.pc, lpc := s.lpcOf w.loc.k w.loc.pc, sidbank := w.loc.sid * 64 + w.loc.bank,
                       row := w.loc.row, col := w.loc.col, pa := 2 ^ 63 + w.pa, req := w.req, plot := w.plot,
                       tenant := (s.plot w.plot).owner }).incRc F.RAS_CNT.UNCORR w.loc.k
  else s

/-- An access takes its ACT at CLK_PHY tick `t`: its slots are reserved, and the bank is shut until its auto-precharge and tRP have passed
(R182, R183, R188, R206). -/
def State.actAt (s : State) (k pcn : Nat) (a : Access1) (t : Nat) : State :=
  let p := s.pc k pcn
  let bs := s.bursts k a t
  let lastCol := (s.colTicks k t a.cols.length).getLastD t
  let shut := if a.write then lastCol + s.rd F.CLU_TIM1.WL k + 1 + s.rd F.CLU_TIM2.TWR k
    else max (t + s.rd F.CLU_TIM0.TRAS k) (lastCol + s.rd F.CLU_TIM2.TRTP k)
  let p := p.setBank a.loc.sid a.loc.bank { p.bank a.loc.sid a.loc.bank with lastAct := some t, busy := shut + s.rd F.CLU_TIM0.TRP k }
  let s := s.setPc k pcn { p with idleSince := s.now, caTries := 0, acts := (t, a.loc.sid * 16 + a.loc.bank) :: p.acts.take 3,
                                  slots := (p.slots.filter fun e => decide (t ≤ e.at_ + 64)) ++ bs }
  (s.pmuPc k pcn 0 1).pmuPc k pcn (if a.write then 2 else 1) (2 * a.cols.length)

/-- A write access issues (R176, R185, R191): its lines reach the stack, and each entry is free after the line's last WR command. -/
def State.issueWrite (s : State) (k pcn : Nat) (a : Access1) (t : Nat) (parity : List Nat) : State :=
  let cols := s.colTicks k t a.cols.length
  let out (id : Nat) : Nat × Nat := let i := a.ids.findIdx (· == id); (cols.getD (2 * i) t, cols.getD (2 * i + 1) t)
  let s := ((s.pc k pcn).wq.filter fun w => a.ids.contains w.id).foldl (fun s w => s.drainLine w (parity.contains w.loc.col)) s
  let p := s.pc k pcn
  s.setQueues k pcn { p with wq := p.wq.map fun w => if a.ids.contains w.id then { w with out := some (out w.id) } else w }

/-- The line that an issued read brings from the stack: no later command changes it (R183). -/
def State.fetched (s : State) (r : REnt) : Option Line :=
  (s.flight r.fl).map fun f => s.lineAt r.loc f.plot (hLine f.hdr + 64 * r.ln)

/-- A read access issues (R183, R187, R195, R220): each line's data are captured (1 + 12) and decoded (8) CLK_PHY ticks after its last
burst. The first retry of a CLASS 1 read has the second follow one tRC later. A retry brings what the line held at the first read: no
write granted after the read is seen by it (R131). -/
def State.issueRead (s : State) (k pcn : Nat) (a : Access1) (t : Nat) : State :=
  let cols := s.colTicks k t a.cols.length
  let at_ (r : REnt) : Nat := s.now + s.phyTicks k (cols.getD (2 * (r.loc.col - a.loc.col) + 1) t + s.rd F.CLU_TIM0.RL k + 21 - t)
  let urgent := (a.ids.headD 0 |> s.flight).any fun f => hCls f.hdr == 1 && hOp f.hdr == opRD
  let p := s.pc k pcn
  let issue (r : REnt) : REnt :=
    if !a.ids.contains r.fl then r
    else if a.again then (if r.issued && r.second.any fun u => decide (u ≤ t) then { r with second := none, secondAt := some (at_ r) } else r)
    else if r.issued || p.blocked r then r
    else { r with issued := true, retry := false, got := r.got.orElse fun _ => s.fetched r, dataAt := at_ r,
                  second := if urgent && r.retry && r.tries == 1 then some (t + s.trc k) else none }
  let s := s.setQueues k pcn { p with rq := p.rq.map issue }
  (onlyIf a.retry (s.pmuPc k pcn 12 1) s).pmuPc k pcn 3 a.cols.length

/-- ACCESS_ISSUE (R182 to R187, R191, R206, R220, R222, R618): the scheduler updates its mode, selects an access and issues its ACT and
column commands. `parity` lists the columns whose write data show a controller parity error. -/
def execAccessIssue (k : Cluster) (pcn : PcIx) (parity : List Nat) (s : State) : Res :=
  let t := s.phy k s.now
  let p := (s.live k pcn).stage t
  let drain := s.drainMode k pcn p
  let p1 : Pc := { p with drain := drain }
  let s := onlyIf (drain && !p.drain) ((s.setPc k pcn p1).pmuPc k pcn 18 1) (s.setPc k pcn p1)
  if !s.mayAct k pcn then .next s else
  match s.select k p1 drain t with
  | none => .next s
  | some a =>
    let s := s.actAt k pcn a t
    let s := if a.write then s.issueWrite k pcn a t parity else s.issueRead k pcn a t
    .next (s.onAct k pcn a.loc.sid a.loc.bank a.loc.row a.req)

/-! ### Reading a line (R609 to R617) -/

/-- What one decode of a line gives: failed, or the line with the number of symbols corrected. -/
inductive Decoded where
  | fail
  | line (l : Line) (n : Nat)

/-- The symbols that a line of the PC carries, in burst 0 and in burst 1 (R610): DQ j carries c_j and c_(32 + j), check-bit line m c_(64 + m)
and c_(68 + m). -/
def lineSyms (l : Nat) : Nat × Nat := if l < 32 then (l, 32 + l) else (32 + l, 36 + l)

/-- What the errors of a read leave of each symbol, in order: (symbol, difference), the differences not 0. -/
def errPattern (e : ReadErr) : List (Fin 72 × Byte) :=
  (List.finRange 72).filterMap fun c =>
    let a := (e.syms.filter (·.1 == c)).foldl (fun a x => a ^^^ x.2) (0 : Byte)
    let b := e.lines.foldl (fun a x => a ^^^ (if (lineSyms x.1).1 = c then x.2.1 else if (lineSyms x.1).2 = c then x.2.2 else 0)) a
    if b = 0 then none else some (c, b)

/-- The outer decode of a stored line as received (R609, R613): up to 3 wrong symbols are corrected; for 4 or more the
outcome is free: a failure, or a wrong codeword delivered with up to 3 symbols corrected. -/
def State.decodeLine (s : State) (l : Line) (e : ReadErr) : Decoded × State :=
  let bad := (errPattern e).length
  if e.parity then (.fail, s)
  else if bad ≤ 3 then (.line l bad, s)
  else
    let (v, s) := s.fresh
    if v.getLsbD 0 then (.fail, s)
    else (.line ⟨v.extractLsb' 8 512, none, v.extractLsb' 520 8, v.extractLsb' 528 8⟩ (v.extractLsb' 1 2).toNat, s)

/-- A line as the block's own reads take it, with up to `n` retries (R611): the outcome, the failed decodes before it, and the errors of the
last read; `es` are the errors that the reads meet, in order. -/
def State.decodeTries (s : State) (l : Line) (es : List ReadErr) (tries : Nat) : Nat → (Decoded × Nat × ReadErr) × State
  | 0 => let (d, s) := s.decodeLine l (es.headD ReadErr.clean); ((d, tries, es.headD ReadErr.clean), s)
  | n + 1 => match s.decodeLine l (es.headD ReadErr.clean) with
    | (.fail, s) => s.decodeTries l es.tail (tries + 1) n
    | (d, s) => ((d, tries, es.headD ReadErr.clean), s)

/-- Enters the poison write of an uncorrectable line in its PC's write queue (R616), unless a write entry for the line is
already queued (R617). It takes an entry even where the queue's 64 are taken (DESIGN CHOICE, notes/assumptions/41: no rule says that it
waits). -/
def State.poisonWrite (s : State) (f : Flight) (l : Loc) (pa : Nat) : State :=
  let p := s.live l.k l.pc
  if p.wq.any (fun w => w.loc == l && w.ready) then s
  else
    let w := { s.newEntry f pa l with order := s.order, poison := true, fmt := 2, req := 39 }
    { s.setQueues l.k l.pc { p with wq := p.wq ++ [w] } with order := s.order + 1 }

/-- The job that a request comes from, and the index of its instruction: that of the context whose Lantern sent it (R626). -/
def State.jobOf (s : State) (f : Flight) : Option (Job × Nat) :=
  if f.req < 27 ∨ 39 ≤ f.req then none else
  let l := tget Lantern.blank s.lnts (f.req - 27)
  (l.reqs.find? fun q => q.tag == hTag f.hdr && q.gen == hGen f.hdr && q.pa == hLine f.hdr && q.kind != .journal).bind fun q =>
    let x := l.ctxs.getD q.ctx Ctx.blank
    x.job.map fun b => (b, x.prog.n - 1)

/-- An error record about a line of a request. -/
def State.lineRecord (s : State) (f : Flight) (l : Loc) (pa sev cls origin syms result : Nat) (fmt : Nat) (detail : List Byte) : State :=
  let e := ErrRec.make s.now sev cls l.k
  let e : ErrRec := { e with origin := origin, ppc := l.pc, lpc := s.lpcOf l.k l.pc, sidbank := l.sid * 64 + l.bank, syms := syms,
                             row := l.row, col := l.col + fmt * 16, result := result, pa := 2 ^ 63 + pa, req := f.req,
                             count := if cls = 3 ∨ (cls = 1 ∧ 2 ≤ syms % 16) then s.countAt 0 l.k (rowKey l) l.row else 0,
                             tenant := (s.plot f.plot).owner, plot := f.plot, detail := detail }
  s.record (match s.jobOf f with | some (b, n) => e.ofJob b n | none => e)

/-- One line of a request has been read: the steps of R611. `tries` counts the failed decodes before this one. The answer
is the line's outcome, or none when a retry is due. -/
def State.readLine (s : State) (f : Flight) (l : Loc) (pa : Nat) (stored : Line) (origin tries : Nat) (e : ReadErr) :
    Option LineSt × State :=
  match s.decodeLine stored e with
  | (.fail, s) =>
    if tries < 2 then (none, s)
    else
      let s := s.poisonWrite f l pa
      let s := (s.incRc F.RAS_CNT.UNCORR l.k).pmuPc l.k l.pc 14 1
      let s := s.lineRecord f l pa sevRecoverable 0x03 origin (2 * 16) rPOISONED 0 (rsSyndrome (errPattern e))
      (some (.done 0 true false), s.event 0 l.k (rowKey l) l.row)
  | (.line ln n, s) =>
    let slotOf := if f.plot = 0xFFE then s.ringSlotOf (pa >>> 21 % 128) else f.slot
    let (key, kc) := s.keyOf slotOf ln.e
    if ln.poisoned then
      (some (.done 0 true false), (s.incRc F.RAS_CNT2.POISON_READS l.k).pmuPc l.k l.pc 15 1)
    else if ln.kc != kc then
      let s := (s.incRc F.SEC_STATUS.KC_FAILS).pmuAes l.k l.pc 4 1
      (some (.done 0 true false),
        s.lineRecord f l pa sevRecoverable 0x08 origin (n + tries * 16) rPOISONED ln.fmt
          (leBytes (BitVec.ofNat 16 slotOf) 2 ++ [BitVec.ofNat 8 ln.e.toNat]))
    else
      let corr := decide (0 < n) || decide (0 < tries)
      let s := onlyIf (decide (0 < n)) ((s.incRc F.RAS_CNT.CORR l.k).pmuPc l.k l.pc 13 1) s
      let s := onlyIf (decide (0 < n)) (s.lineRecord f l pa sevCorrected 0x01 origin (n + 64) rCORR ln.fmt []) s
      let s := onlyIf (decide (2 ≤ n)) ({ s with scrubs := s.scrubs ++ [(l.k, l.pc, rowKey l, l.row)] }.event 0 l.k (rowKey l) l.row) s
      let s := onlyIf (decide (0 < tries))
        ((s.incRc F.RAS_CNT.RETRY_OK l.k).lineRecord f l pa sevCorrected 0x02 origin (tries * 16 + 64) rCORR ln.fmt []) s
      let s := (if f.isSealed then s.pmuAes l.k l.pc 2 1 else s.pmuAes l.k l.pc 1 1).pmuAes l.k l.pc 6 2
      let s := onlyIf f.rotating (s.pmuAes l.k l.pc 3 1) s
      (some (.done (if f.isSealed then ln.cipher pa else ln.plain key pa) false corr), s)

/-! ### Read-modify-writes (R103, R177) -/

/-- The line an opcode leaves, its RVAL, from the line read, at a stamp (R103, R105). -/
def rmwResult (f : Flight) (old : LineData) (now : Nat) : LineData × W64 :=
  let o := hOp f.hdr
  let w := hWord f.hdr
  let ow := lineWord old w
  let pl := f.beats.getD 0 0
  if o == opWRP then (mergeLine old pl (BitVec.ofNat 64 (hOpnd f.hdr)), 0)
  else if o == opAADD then (putWord old w (ow + BitVec.ofNat 64 (hOpnd f.hdr)), ow)
  else if o == opACAS then ((if ow == BitVec.ofNat 64 (hOpnd f.hdr) then putWord old w (lineWord pl w) else old), ow)
  else (putWord old w (BitVec.ofNat 64 now), BitVec.ofNat 64 (now % 2 ^ 48))

/-- The lines that waited for a read-modify-write now meet the queues, in the order of their grants (R179). -/
def State.admitWaiting (s : State) (k pcn : Nat) : State :=
  ((s.pc k pcn).waiting.filter fun w => !w.other).foldl (fun s w => match s.flight w.fl with
    | none => s.setPc k pcn { s.pc k pcn with waiting := (s.pc k pcn).waiting.filter (· != w) }
    | some f =>
      if s.rmwOn (s.pc k pcn) (f.loc.line w.ln) then s
      else ((s.unwait f w.ln).enterLine f w.ln (s.afterWait k)).finishIf f.id (s.afterWait k + tailCrossbar)) s

/-- The read of a read-modify-write has its data (R103, R177): the result takes the place kept in each write queue. On poison, and where
the mask of a WRP is zero, nothing is written and the places are freed. `lead` is the time to the crossbar. -/
def State.rmwMerge (s : State) (f : Flight) (v : LineSt) (lead : Nat) : State :=
  let k := f.k
  let s := match v with
    | .pending => s
    | .done old pois corr =>
      let nothing := pois || (hOp f.hdr == opWRP && hOpnd f.hdr == 0)
      let (new, rv) := rmwResult f old (s.nowAt k)
      let mine (w : WEnt) : Bool := w.fl == f.id && !w.ready
      let s := f.pcs.foldl (fun (s : State) q =>
        let p := s.live k q
        s.setQueues k q { p with
          rmw := p.rmw.filter (· != f.id),
          wq := if nothing then p.wq.filter fun w => !mine w
                else p.wq.map fun w => if mine w then { w with data := new, ready := true } else w }) s
      (onlyIf (!nothing) (s.tap f [new]) s).modFlight f.id fun g =>
        { g with lines := [.done 0 pois (corr && !pois)], rval := if pois then 0 else rv }
  (s.admitWaiting k f.loc.pc).finishIf f.id (lead + tailCrossbar)

/-- Changes the read entry of a request's line. -/
def State.modRead (s : State) (k pcn : Nat) (e : REnt) (g : REnt → REnt) : State :=
  let p := s.pc k pcn
  s.setPc k pcn { p with rq := p.rq.map fun r => if r.fl == e.fl && r.ln == e.ln then g r else r }

/-- A failed decode that is to be retried (R187, R220): by the second retry already issued, if there is one, else by a new access. -/
def REnt.failed (r : REnt) : REnt := match r.secondAt with
  | some t => { r with tries := r.tries + 1, dataAt := t, secondAt := none }
  | none => { r with tries := r.tries + 1, issued := false, retry := true, second := none }

/-- The line of a read entry is known: what is left of its retries is discarded (R220), and the entry is free when the crossbar takes the
line (R176). -/
def State.handOver (s : State) (k pcn : Nat) (e : REnt) (lead : Nat) : State :=
  s.modRead k pcn e fun r => { r with issued := true, retry := false, second := none, secondAt := none, handed := some (s.now + lead) }

/-- A line whose decode ended at stamp `at_` takes its 2 ticks of the pipeline, which reads and writes share (R189, R190); the CLK_PHY ticks
it waits for them. -/
def State.decrypts (s : State) (k pcn at_ : Nat) : Nat × State :=
  let p := s.pc k pcn
  let d := s.phy k at_
  (p.aesFree - d, s.setPc k pcn { p with aesFree := max d p.aesFree + 2 })

/-- The data of one read entry have been decoded, or forwarded to a read-modify-write (R179, R187, R190, R193, R611). -/
def State.readReturn (s : State) (k pcn : Nat) (e : REnt) (err : ReadErr) : State :=
  match s.flight e.fl with
  | none => let p := s.pc k pcn
    s.setPc k pcn { p with rq := p.rq.filter fun r => !(r.fl == e.fl && r.ln == e.ln) }
  | some f =>
    match e.fwd with
    | some (d, pois) => (s.handOver k pcn e (s.afterWait k)).rmwMerge f (.done d pois false) (s.afterWait k)
    | none =>
      let pa := hLine f.hdr + 64 * e.ln
      match s.readLine f e.loc pa (e.got.getD (s.lineAt e.loc f.plot pa)) (if f.req = 39 then 1 else 0) e.tries err with
      | (none, s) => s.modRead k pcn e REnt.failed
      | (some v, s) =>
        let (w, s) := s.decrypts k pcn e.dataAt
        let lead := s.afterDecode k w
        let s := s.handOver k pcn e lead
        if e.rmw then s.rmwMerge f v lead else (s.setLine e.fl e.ln v).finishIf e.fl (lead + tailCrossbar)

/-- READ_DATA_RETURN (R187, R193, R220, R609 to R617): the issued reads of a PC whose data have been decoded, oldest first;
`errs` gives the errors each meets. -/
def execReadDataReturn (k : Cluster) (pcn : PcIx) (errs : List ReadErr) (s : State) : Res :=
  let p := s.live k pcn
  if p.st == .frozen then .next s else
  let due := p.rq.filter fun e => e.issued && e.handed.isNone && decide (e.dataAt ≤ s.now)
  .next (due.zipIdx.foldl (fun s x => s.readReturn k pcn x.1 (errs.getD x.2 ReadErr.clean)) s)

/-! ### Registers of the arbiter (R165 to R175, R196 to R198) -/

/-- ARB_PRIO_WRITE (R165 to R167, R196): PF0 writes ARB_REQr; a BURST of 0 or above 64 is ignored. -/
def execArbPrioWrite (r : Fin 40) (v : W32) (s : State) : Res := s.orWait (.arbPrioWrite r v) fun s =>
  if s.inBoot then .next s else
  let old := (s.reg .ARB_REQ r).toNat
  let s1 := s.wr F.ARB_REQ.PRIO (v.toNat >>> 8) r
  let b := v.toNat % 128
  let s2 := if b = 0 ∨ 64 < b then s1 else s1.wr F.ARB_REQ.BURST b r
  let new := (s2.reg .ARB_REQ r).toNat
  .next (onlyIf (old != new) { s2.audit 1 0 0 (0xC00000 + 0x10 * r.val) old new with latokDue := true } s)

/-- Who may write ARB_HOLDh (R196): PF0, or CCCk for requester 39 in its own cluster. -/
def holdWriter (a : Agent) (k req : Nat) : Bool :=
  match a with
  | .fn f => f.val == 0
  | .ccc c => req == 39 && c.val == k
  | .sec => false
  | .pmc => false
  | .sch => false

/-- A function's write is ignored in BOOT (R701); a core's is not. -/
def holdWaits (a : Agent) (s : State) : Bool := match a with
  | .fn _ => s.inBoot
  | .sec => false
  | .pmc => false
  | .sch => false
  | .ccc _ => false

/-- A hold ends: its slice's PC can be idle again (R230, R231). -/
def State.endHold (s : State) (h : Nat) (x : Hold) : State :=
  { (s.wr F.ARB_HOLD_CTL.ACTIVE 0 h).touch x.k x.pc with holds := tset none s.holds h none }

/-- Clears a hold and marks it broken (R173). -/
def State.breakHold (s : State) (h : Nat) (x : Hold) : State := (s.endHold h x).wr F.ARB_HOLD_CTL.BROKEN 1 h

/-- The pending break of a hold applies before a SET or RELEASE in the same tick (R174). -/
def State.settleHold (s : State) (h : Nat) : State :=
  match tget none s.holds h with
  | some x => onlyIf x.breaking (s.breakHold h x) s
  | none => s

/-- The RESULT of a SET (R173, R175): 0 OK, 1 LOCK_BROKEN, 2 REJECTED. -/
def State.holdResult (s : State) (h k pc req : Nat) : Nat :=
  if (tget none s.holds h).isSome || (s.holdOn k pc).isSome || decide (12 ≤ k) ||
      !(decide (req ≤ 26) || req == 39) || (decide (req ≤ 26) && !s.bit F.PORT_LINK.UP req) then 2
  else if s.bit F.ARB_HOLD_CTL.BROKEN h then 1 else 0

/-- A write of ARB_HOLDh_CTL by an agent, and its audit entry (R593): a function's may wait (R598). -/
def State.holdWrite (s : State) (a : Agent) (h : Fin 8) (c : Instr) (run : State → State) : Res :=
  let go (s : State) : Res :=
    if holdWaits a s then .next s else
    let s := s.settleHold h
    let t := run s
    let old := (s.reg .ARB_HOLD_CTL h).toNat
    let new := (t.reg .ARB_HOLD_CTL h).toNat
    .next (onlyIf (old != new) (t.audit (match a with | .fn _ => 1 | _ => 2) (match a with | .ccc c => 3 + c.val | _ => 0) 0
      (0xC00400 + 0x10 * h.val) old new) t)
  match a with
  | .fn _ => s.orWait c go
  | .sec => go s
  | .pmc => go s
  | .sch => go s
  | .ccc _ => go s

/-- ARB_HOLD_SET (R169 to R175, R196 to R198): ARB_HOLDh_CTL is written with SET = 1. -/
def execArbHoldSet (a : Agent) (h : Fin 8) (v : W32) (s : State) : Res :=
  let pc := bitsOf v 25 20
  let k := bitsOf v 19 16
  let req := bitsOf v 13 8
  if bitsOf v 27 27 = 0 ∨ bitsOf v 26 26 = 1 ∨ holdWriter a k req = false then .next s else
  s.holdWrite a h (.arbHoldSet a h v) fun s =>
    let s := ((s.wr F.ARB_HOLD_CTL.PC pc h).wr F.ARB_HOLD_CTL.CLUSTER k h).wr F.ARB_HOLD_CTL.REQ req h
    let r := s.holdResult h k pc req
    let s := s.wr F.ARB_HOLD_CTL.RESULT r h
    if r = 2 then s else
    let ep := if req = 39 then 0 else s.rd F.PORT_LINK.EPOCH req
    let s := { s with holds := tset none s.holds h.val (some ⟨k, pc, req, ep, s.now + usTicks (s.rd F.ARB_HOLD_LEASE.LEASE_US h), false⟩) }
    (((s.wr F.ARB_HOLD_CTL.ACTIVE 1 h).wr F.ARB_HOLD_CTL.BROKEN 0 h).wr F.ARB_HOLD_OWNER.REQ req h).wr F.ARB_HOLD_OWNER.EPOCH ep h

/-- ARB_HOLD_RELEASE (R174, R196): RELEASE is written 1; ignored when ACTIVE is 0. -/
def execArbHoldRelease (a : Agent) (h : Fin 8) (s : State) : Res :=
  s.holdWrite a h (.arbHoldRelease a h) fun s =>
    match tget none s.holds h.val with
    | none => s
    | some x => onlyIf (holdWriter a x.k x.req) (s.endHold h x) s

/-- ARB_HOLD_LEASE_EXPIRY (R172): the lease has run out and the hold is to be broken. -/
def execArbHoldLeaseExpiry (h : Fin 8) (s : State) : Res :=
  match tget none s.holds h.val with
  | none => .next s
  | some x => .next (onlyIf (decide (x.until_ ≤ s.now))
      { s with holds := tset none s.holds h.val (some { x with breaking := true }) } s)

/-- ARB_HOLD_BREAK (R172, R173). -/
def execArbHoldBreak (h : Fin 8) (s : State) : Res := .next (s.settleHold h)

/-- TIMING_REGISTER_WRITE (R200, R239): CCCk writes CLU_TIMn or REF_TIM; ignored with REJ set once the stack serves. A
TRFCAB above 1,300 ns is ignored (R238). -/
def execTimingRegisterWrite (k : Cluster) (t : TimReg) (v : W32) (s : State) : Res :=
  let ok := !s.anyPc k PcState.live || s.siteStarting k
  let put (s : State) (r : RegName) (off w : Nat) : State :=
    let old := (s.reg r k).toNat
    onlyIf (old != w) ((s.setReg r k 0 (BitVec.ofNat 64 w)).audit 2 (3 + k.val) 0 (0x1000000 + k.val * 0x100000 + off) old w) s
  match t with
  | .tim0 => .next (if ok then put s .CLU_TIM0 0x400 v.toNat else s.raise F.CLU_TIM2.REJ k)
  | .tim1 => .next (if ok then put s .CLU_TIM1 0x404 v.toNat else s.raise F.CLU_TIM2.REJ k)
  | .tim2 => .next (if ok then put s .CLU_TIM2 0x408 (v.toNat >>> 4 <<< 4 + (if v.toNat % 2 = 1 ∧ s.eventsOf F.CLU_TIM2.REJ k = 0 then 0 else s.rd F.CLU_TIM2.REJ k)) else s.raise F.CLU_TIM2.REJ k)
  | .refTim =>
    let cab := bitsOf v 10 0
    if !ok then .next (s.raise F.REF_CTRL.REJ k)
    else
      let cab := if 1300 * s.rd F.CLOCK_PHYPLL.MULT k < cab * 40 then s.rd F.REF_TIM.TRFCAB k else cab
      .next ((put s .REF_TIM 0x40004 (bitsOf v 26 16 <<< 16 + cab)).wr F.REF_PERIOD.TRFC_TS (s.phyTicks k cab) k)

end Sys2Proof.Machine
end

