-- ==== Sys2Proof/Machine/Refresh.lean ====
section
/-! DEFINITION. The refresh calendar, maintenance windows, row disturbance and self-refresh (chapter "The refresh
calendar, row disturbance and self-refresh"), with the pattern test and soft repair a window carries (R632, R634). -/

namespace Sys2Proof.Machine

/-! ### The calendar (R203 to R213) -/

/-- Ticks from a stamp to the next due stamp of PC `p` after it. -/
def State.toDue (s : State) (k p t : Nat) : Nat :=
  let per := s.rd F.REF_PERIOD.TREFI_TS k
  let d := per - (t + per - s.rd F.REF_ORIGIN.STAMP k % per + per - s.refOff k p) % per
  -- a change of the period that is due first counts (R213)
  let b := s.rd F.REF_NEXTSW.STAMP k
  if b = 0 ∨ t + d ≤ b then d else b - t + p * (if s.hotNext.contains k then 2340 else 4680) / s.pcCount k

/-- Refills the throttle buckets of a PC (R227, R243). -/
def State.refillThrottles (s : State) (k p : Nat) : State :=
  { s with throttles := s.throttles.map fun t => if t.k == k && t.pc == p then { t with tokens := s.rd F.RG_CFG.BUDGET k } else t }

/-- REFRESH_DUE (R204 to R208, R227, R235): the due stamp arrives: throttle buckets refill, and, unless the stamp is skipped, no ACT from
now on. -/
def execRefreshDue (k : Cluster) (p : PcIx) (s : State) : Res :=
  let pc := s.pc k p
  let s := onlyIf (s.isDue k p s.now) (s.refillThrottles k p) s
  .next (onlyIf (s.honours k p && pc.ref == .idle) (s.setPc k p { pc with ref := .closing s.now }) s)

/-- REFAB_ISSUE (R206): every bank has passed its auto-precharge and tRP; REFab issues and the PC stalls for tRFCab. -/
def execRefabIssue (k : Cluster) (p : PcIx) (s : State) : Res :=
  let pc := s.pc k p
  .next (onlyIf ((match pc.ref with | .closing _ => true | _ => false) && s.dramOk &&
      pc.banks.all fun b => decide (b.2.busy ≤ s.phy k s.now))
    ((s.setPc k p { pc with ref := .stall (s.now + s.rd F.REF_PERIOD.TRFC_TS k) }).pmuPc k p 9 1) s)

/-- REFRESH_STALL_END (R206): tRFCab after the REFab. -/
def execRefreshStallEnd (k : Cluster) (p : PcIx) (s : State) : Res :=
  let pc := s.pc k p
  .next (onlyIf (match pc.ref with | .stall t => decide (t ≤ s.now) | _ => false)
    ((s.setPc k p { pc with ref := .idle }).pmuPc k p 10 (s.rd F.REF_PERIOD.TRFC_TS k)) s)

/-- A decision about HOT (R211 to R213): a change takes effect at B, the first period start after it. One more decision before B is taken on
what the pending one gives, and takes effect at B too (DEDUCED: notes/assumptions/13). -/
def State.decideHot (s : State) (k : Nat) : State :=
  let t := tget 0 s.stackTemp k
  let pend := s.rd F.REF_NEXTSW.STAMP k != 0
  let hot := if pend then s.hotNext.contains k else s.bit F.REF_CTRL.HOT k
  let want := s.bit F.REF_CTRL.FORCE_HOT k || t == 1 || decide (87 < t) ||
    (hot && (t == 0 || decide (s.rd F.REF_CTRL.HOT_EXIT_C k + 2 < t)))
  let per := s.rd F.REF_PERIOD.TREFI_TS k
  let org := s.rd F.REF_ORIGIN.STAMP k
  if want == hot then s
  else { s.wr F.REF_NEXTSW.STAMP (org + ((s.now - org) / per + 1) * per) k with
    hotNext := if want then s.hotNext ++ [k] else s.hotNext.filter (· != k) }

/-- REF_PERIOD_SWITCH (R205, R213): at B the origin and the period change in one tick. -/
def execRefPeriodSwitch (k : Cluster) (s : State) : Res :=
  let b := s.rd F.REF_NEXTSW.STAMP k
  let hot := s.hotNext.contains k.val
  .next (onlyIf (b != 0 && s.now == b)
    { (((s.wr F.REF_ORIGIN.STAMP b k).wr F.REF_PERIOD.TREFI_TS (if hot then 2340 else 4680) k).wr F.REF_CTRL.HOT hot.toNat k).wr
        F.REF_NEXTSW.STAMP 0 k with hotNext := s.hotNext.filter (· != k.val) } s)

/-- A function-written register of a cluster changes from `old` to `new` (R596). -/
def State.auditReg (s : State) (off old new : Nat) : State := onlyIf (old != new) (s.audit 1 0 0 off old new) s

/-- REF_CTRL_WRITE (R240): a write of FORCE_HOT or HOT_EXIT_C is a new decision; HOT_EXIT_C above 85 is ignored. -/
def execRefCtrlWrite (k : Cluster) (v : W32) (s : State) : Res := s.orWait (.refCtrlWrite k v) fun s =>
  if s.inBoot then .next s else
  let old := (s.reg .REF_CTRL k).toNat
  let s1 := s.wr F.REF_CTRL.FORCE_HOT (bitsOf v 30 30) k
  let s2 := onlyIf (decide (bitsOf v 7 0 ≤ 85)) (s1.wr F.REF_CTRL.HOT_EXIT_C (bitsOf v 7 0) k) s1
  let s3 := onlyIf (bitsOf v 29 29 == 1) (s2.ack F.REF_CTRL.REJ k) s2
  .next ((s3.auditReg (0x1040000 + k.val * 0x100000) old (s3.reg .REF_CTRL k).toNat).decideHot k)

/-! ### Row disturbance (R221 to R229, R241 to R243) -/

/-- TRACKER_WINDOW_END (R221, R224, R241): every tracker clears and every throttle ends. -/
def execTrackerWindowEnd (s : State) : Res :=
  .next (onlyIf (s.now % 38400000 == 0 && s.clk.running) s.trkClear s)

/-- A CLASS 1 read waits in the PC for a bank (R228), in the read queue or for a read-modify-write. -/
def State.class1Waits (s : State) (p : Pc) (sid b : Nat) : Bool :=
  let urgent (id : Nat) : Bool := (s.flight id).any fun f =>
    hCls f.hdr == 1 && hOp f.hdr == opRD && f.loc.sid == sid && f.loc.bank == b
  (p.rq.any fun e => (!e.issued || e.second.isSome) && urgent e.fl) || p.waiting.any fun w => urgent w.fl

/-- RFM_ISSUE (R228, R229): an owed RFM of a bank that could take an ACT, with no CLASS 1 read waiting for it unless 15 are
owed, and that ends before the PC's next due stamp. -/
def execRfmIssue (k : Cluster) (p : PcIx) (sid : Fin 4) (b : Fin 16) (s : State) : Res :=
  let pc := s.pc k p
  let bank := pc.bank sid b
  let t := s.phy k s.now
  let len := s.rd F.REF_TIM.TRFMPB k
  let free := decide (bank.busy ≤ t) && (match bank.lastAct with | some l => decide (l + s.trc k ≤ t) | none => true)
  .next (onlyIf (decide (0 < bank.owed) && s.mayAct k p && free && (bank.owed == 15 || !s.class1Waits pc sid b) &&
      decide (s.phyTicks k len < s.toDue k p s.now))
    (((s.setPc k p (pc.setBank sid b { bank with owed := bank.owed - 1, busy := t + len })).incRc F.RG_STAT.RFMS k).pmuPc k p 11 1) s)

/-- RG_CFG_WRITE (R238, R241 to R243): out-of-range fields are ignored; clearing THR_EN ends every throttle, setting it
begins throttling with the next window. -/
def execRgCfgWrite (k : Cluster) (v : W32) (s : State) : Res := s.orWait (.rgCfgWrite k v) fun s =>
  if s.inBoot then .next s else
  let old := (s.reg .RG_CFG k).toNat
  let was := s.bit F.RG_CFG.THR_EN k
  let on := bitsOf v 31 31 == 1
  let kk := bitsOf v 28 24
  let bud := bitsOf v 23 20
  let lim := bitsOf v 15 0
  let s := s.wr F.RG_CFG.THR_EN on.toNat k
  let s := onlyIf (decide (4 ≤ kk ∧ kk ≤ 16)) (s.wr F.RG_CFG.NR_K kk k) s
  let s := onlyIf (bud != 0) (s.wr F.RG_CFG.BUDGET bud k) s
  let s := onlyIf (decide (256 ≤ lim ∧ lim ≤ 32768)) (s.wr F.RG_CFG.ACT_LIMIT lim k) s
  let s := onlyIf (was && !on) { s with throttles := s.throttles.filter (·.k != k.val) } s
  let s := onlyIf (!was && on) { s with thrOff := s.thrOff ++ [k.val] } s
  .next (s.auditReg (0x1040040 + k.val * 0x100000) old (s.reg .RG_CFG k).toNat)

/-! ### Maintenance windows (R214 to R218, R632, R634) -/

/-- The length of a window in CLK_TS ticks. -/
def State.windowLen (s : State) (k : Nat) : Nat := usTicks (s.rd F.REF_MAINT.LEN_US k)

/-- The begin of the first slot of the active calendar that admits no tenant, lasts at least `len` and begins at `base` or later, with its
length (R216). -/
def State.idleSlot (s : State) (base len : Nat) : Option (Nat × Nat) :=
  let fit := (List.range s.actN).filter fun i => s.rd F.TRF_GATE_ACT.ACCESS i == 0 && decide (len ≤ s.actLen i)
  let next (i : Nat) : Nat := let a := s.origin + s.slotStart i
    if base ≤ a then a else a + ceilDiv (base - a) s.cycle * s.cycle
  fit.foldl (fun b i => match b with
    | none => some (next i, s.actLen i)
    | some x => if next i < x.1 then some (next i, s.actLen i) else some x) none

/-- A window may be published for `start` (R215, R216): at least 1 ms ahead and, while the gates are enabled, wholly inside the first slot
that can take it. -/
def State.windowFits (s : State) (start len : Nat) : Bool :=
  decide (s.now + 1200000 ≤ start) && (!s.bit F.TRF_GATE_CTL.EN || (s.idleSlot (s.now + 1200000) len).any fun b =>
    decide (b.1 ≤ start) && decide (start + len ≤ b.1 + b.2))

/-- WINDOW_PUBLISH (R214 to R216, R264): CCCk publishes a window at least 1 ms ahead, one at a time, in a slot that admits
no tenant: a RETRAIN that a trigger waits for, a TEST of a unit with its first event, or a REPAIR of a permanent row. -/
def execWindowPublish (k : Cluster) (kind : Fin 3) (p : PcIx) (lenUs start : Nat) (s : State) : Res :=
  let pcn := if kind = 0 then 0 else p.val
  let why :=
    if kind = 0 then s.triggers.contains k.val && lenUs == 40
    else if kind = 1 then (s.tests.any fun t => t.1 == k.val && t.2.pc == pcn) && decide (1 ≤ lenUs ∧ lenUs ≤ 40)
    else (s.hist.units.any fun u => u.cls == 0 && u.cluster == k.val && u.permanent && !u.hardRepair && u.pc == pcn) &&
      decide (1 ≤ lenUs ∧ lenUs ≤ 40)
  .next (onlyIf (s.cccUp k && why && !s.bit F.REF_MAINT.VALID k && s.windowFits start (usTicks lenUs))
    (let s : State := { s with windows := tset none s.windows k.val (some ⟨false, [], none, false, false⟩),
                               triggers := if kind = 0 then s.triggers.filter (· != k.val) else s.triggers }
     ((((s.wr F.REF_MAINT_START.STAMP start k).wr F.REF_MAINT.VALID 1 k).wr F.REF_MAINT.KIND kind k).wr F.REF_MAINT.PC pcn k).wr
       F.REF_MAINT.LEN_US lenUs k) s)

/-- The ticks of an exit: 48 to wake, then tXS = tRFCab + 10 ns (example of R236). -/
def State.exitTicks (s : State) (k : Nat) : Nat := s.phyTicks k (48 + s.rd F.REF_TIM.TRFCAB k) + 12

/-- The DRAM of cluster `k` takes commands: neither PLL has lost lock and the link is trained (R40, R41, R57). -/
def State.wakeable (s : State) (k : Nat) : Bool := s.dramOk && s.linkReady k

/-- Takes PC `p` out of service for a window (R218); one that is still in self-refresh leaves it, as the window needs it (R234). A frozen,
retired or unused PC is left as it is (R647), and no exit begins while the stack takes no command (R41). -/
def State.takePc (s : State) (k p : Nat) : State :=
  let pc := s.pc k p
  if pc.st == .serving || pc.st == .spare then
    s.setPc k p { pc with st := .training, wasSpare := pc.st == .spare, sr := .awake, idleSince := s.now }
  else if pc.st == .selfRefresh then
    s.setPc k p { pc with st := .training, sr := if pc.sr.down0 && s.wakeable k then .exiting (s.now + s.exitTicks k) else pc.sr }
  else s

/-- The ACTs of reading or writing the 16 lines of a row, one a group, for the maintenance requester (R182, R222, R226). -/
def State.rowActs (s : State) (k p sid b row : Nat) : State :=
  (List.range 4).foldl (fun s _ => s.onAct k p sid b row 39) s

/-- Rewrites the 16 lines of a row with FORMAT = 0b01 (R632, R634); a line that could not be corrected becomes a poison line
(R616, its plot known from the map). -/
def State.rewriteRow (s : State) (k p sid b row : Nat) (bad : List Nat) : State :=
  (List.range 16).foldl (fun s c =>
    let l : Loc := ⟨k, p, sid, b, row, c⟩
    let (plot, pa) := s.whose l
    let old := s.lineAt l plot pa
    let pl := s.plot plot
    let new := if bad.contains c then s.poisonLine pl.keyslot pl.epoch
      else { old with md := mdOf old.poisoned old.e (if old.poisoned then old.fmt else 1) }
    s.putLine l plot pa new) s

/-- The sid, bank and row of a ROW unit. -/
def HistUnit.place (u : HistUnit) : Nat × Nat × Nat := (u.a / 16 % 4, u.a % 16, u.b)

/-- The outcome of the pattern test of a TEST window (R632): a failed read-back makes the unit permanent; a clean one is transient. -/
def State.patternTest (s : State) (k p : Nat) (fails : Bool) (bad : List Nat) : State :=
  match s.tests.find? fun t => t.1 == k && t.2.pc == p with
  | none => s
  | some (_, u) =>
    let s : State := { s with tests := s.tests.filter fun t => !(t.1 == k && t.2 == u) }
    let (sid, b, row) := u.place
    let s := if u.cls = 0 then s.rewriteRow k p sid b row bad else s
    let u := { u with count := u.count + 1, hours := (s.hours :: u.hours).take 8 }
    if fails then s.judge u 1 else s.setHist u

/-- Soft post-package repair of a permanent row in a REPAIR window (R634, R635): marked for hard repair. -/
def State.softRepair (s : State) (k p : Nat) (bad : List Nat) : State :=
  match s.hist.units.find? fun u => u.cls == 0 && u.cluster == k && u.permanent && !u.hardRepair && u.pc == p with
  | none => s
  | some u =>
    let (sid, b, row) := u.place
    let e := ErrRec.make s.now sevInfo 0x20 k
    ((s.rewriteRow k p sid b row bad).setHist { u with hardRepair := true }).record
      { e with ppc := p, sidbank := sid * 64 + b, row := row }

/-- The unit that a TEST (1) or REPAIR (2) window of a PC is for. -/
def State.windowUnit (s : State) (k p kind : Nat) : Option HistUnit :=
  if kind = 1 then (s.tests.find? fun t => t.1 == k && t.2.pc == p).map (·.2)
  else s.hist.units.find? fun u => u.cls == 0 && u.cluster == k && u.permanent && !u.hardRepair && u.pc == p

/-- A TEST or REPAIR window opens its row, to read it and to write it, as soon as the PC may issue an ACT (R206, R632, R634). -/
def State.actWindow (s : State) (k : Nat) : State :=
  let kind := s.rd F.REF_MAINT.KIND k
  let p := s.rd F.REF_MAINT.PC k
  match tget none s.windows k with
  | none => s
  | some w =>
    if !w.running || w.acted || kind == 0 || !s.mayAct k p then s else
    let s : State := { s with windows := tset none s.windows k (some { w with acted := true }) }
    match s.windowUnit k p kind with
    | some u =>
      let (sid, b, row) := u.place
      onlyIf (u.cls == 0) ((s.rowActs k p sid b row).rowActs k p sid b row) s
    | none => s

/-- The lines of a TEST or REPAIR window that CCCk's restart has cut short go back to their row (R707); the test or repair is to be made
again. -/
def State.putBack (s : State) (k p kind : Nat) (bad : List Nat) : State :=
  match s.windowUnit k p kind with
  | none => s
  | some u =>
    let (sid, b, row) := u.place
    onlyIf (u.cls == 0) (s.rewriteRow k p sid b row bad) s

/-- WINDOW_START (R215, R218, R632, R634): at its stamp the window's PCs read TRAINING and their requests are held. `fails`
is the outcome of a TEST window's read-back; `bad` the columns that could not be corrected. -/
def execWindowStart (k : Cluster) (fails : Bool) (bad : List Nat) (s : State) : Res :=
  let kind := s.rd F.REF_MAINT.KIND k
  let p := s.rd F.REF_MAINT.PC k
  match tget none s.windows k.val with
  | none => .next s
  | some w =>
    if w.running || !s.bit F.REF_MAINT.VALID k || s.now != s.rd F.REF_MAINT_START.STAMP k then .next s else
    let s : State := { s with windows := tset none s.windows k.val (some { w with running := true, bad := bad, tested := some (fails && kind != 0) }) }
    .next (if kind = 0 then (List.range 64).foldl (fun s p => s.takePc k p) s else s.takePc k p)

/-- Returns PC `p` from a window to service. -/
def State.returnPc (s : State) (k p : Nat) : State :=
  let pc := s.pc k p
  if pc.st == .training then
    s.setPc k p { pc with st := if pc.sr.down then .selfRefresh else if pc.wasSpare then .spare else .serving, idleSince := s.now }
  else s

/-- What a TEST or REPAIR window has done by its end (R632, R634, R707): nothing, when its PC could issue no command in it. -/
def State.windowWork (s : State) (k p kind : Nat) (w : Window) : State :=
  if kind = 0 ∨ !w.acted then s
  else if w.gone then s.putBack k p kind w.bad
  else if kind = 1 then s.patternTest k p (w.tested == some true) w.bad
  else s.softRepair k p w.bad

/-- WINDOW_END (R215, R218, R632, R634, R707): the window has lasted its length; its test or repair is made, and held requests are
released. -/
def execWindowEnd (k : Cluster) (s : State) : Res :=
  match tget none s.windows k.val with
  | none => .next s
  | some w =>
    if !w.running || decide (s.now < s.rd F.REF_MAINT_START.STAMP k + s.windowLen k) then .next s else
    let s : State := { s with
      windows := tset none s.windows k.val none,
      rtrFrom := if s.rd F.REF_MAINT.KIND k = 0 ∧ w.tested = some true then tset 0 s.rtrFrom k.val s.now else s.rtrFrom }
    let s := s.windowWork k (s.rd F.REF_MAINT.PC k) (s.rd F.REF_MAINT.KIND k) w
    let ps := if s.rd F.REF_MAINT.KIND k = 0 then List.range 64 else [s.rd F.REF_MAINT.PC k]
    let s := ps.foldl (fun s p => s.returnPc k p) s
    .next ((s.clearReg .REF_MAINT k).clearReg .REF_MAINT_START k)

/-! ### Self-refresh (R230 to R235, R244, R245) -/

/-- A window published or running affects PC `p`. -/
def State.windowOn (s : State) (k p : Nat) : Bool :=
  s.bit F.REF_MAINT.VALID k && (match tget none s.windows k with | some w => w.running | none => false) &&
    (s.rd F.REF_MAINT.KIND k == 0 || s.rd F.REF_MAINT.PC k == p)

/-- A window needs PC `p` (R234): it runs, or starts before a PC that enters or is in self-refresh would be out of it. -/
def State.windowSoon (s : State) (k p : Nat) : Bool :=
  s.bit F.REF_MAINT.VALID k && (s.rd F.REF_MAINT.KIND k == 0 || s.rd F.REF_MAINT.PC k == p) &&
    decide (s.rd F.REF_MAINT_START.STAMP k ≤ s.now + s.phyTicks k 300 + s.exitTicks k)

/-- The active migration uses PC `p` (R230). -/
def State.migUses (s : State) (k p : Nat) : Bool :=
  s.bit F.CLU_MIG.ACTIVE k && (s.rd F.CLU_MIG.TARGET k == p || s.phys k (s.rd F.CLU_MIG.LPC k) == p)

/-- The queues of a PC are empty and no read-modify-write is in progress. -/
def State.queuesEmpty (s : State) (k p : Nat) : Bool :=
  let pc := s.live k p
  pc.rq.isEmpty && pc.wq.isEmpty && pc.rmw.isEmpty && pc.waiting.isEmpty

/-- A PC is idle (R230). -/
def State.pcIdle (s : State) (k p : Nat) : Bool :=
  let pc := s.pc k p
  (pc.st == .serving || pc.st == .spare) && s.queuesEmpty k p && (s.holdOn k p).isNone && !s.migUses k p && !s.windowOn k p

/-- The stamp from which an idle PC has been idle (R231): its last queue entry is free from it. -/
def State.idleFrom (s : State) (k p : Nat) : Nat := (s.live k p).idleSince

/-- A RETIRED PC whose queues have drained goes into self-refresh (R209). -/
def State.retiredIdle (s : State) (k p : Nat) : Bool := (s.pc k p).st == .retired && s.queuesEmpty k p

/-- SR_ASK (R209, R231, R244, R687): idle for SR_IDLE_US with SR_EN = 1, or as soon as it is idle while the block quiesces, and no due
stamp within 300 ticks. -/
def execSrAsk (k : Cluster) (p : PcIx) (s : State) : Res :=
  let pc := s.pc k p
  let long := s.bit F.SR_CFG.SR_EN k && decide (s.idleFrom k p + usTicks (s.rdPhy k F.SR_CFG.SR_IDLE_US k) ≤ s.now)
  .next (onlyIf (((s.pcIdle k p && !s.windowSoon k p && (s.fw.quiet || long)) || s.retiredIdle k p) && pc.sr == .awake && pc.ref == .idle &&
      decide (300 < s.toDue k p s.now))
    (s.setPc k p { pc with sr := .asking }) s)

/-- Whether a request is presented to a PC's slice this tick (R232). -/
def State.anyPresented (s : State) (k x : Nat) : Bool := (List.range 40).any fun r => (s.presents k x r).isSome

/-- An entry begins; it takes 299 more ticks (R232, example of R236). -/
def State.beginEntry (s : State) (k p : Nat) : State :=
  let pc := s.pc k p
  ((s.setPc k p { pc with
      st := if pc.st == .retired then .retired else .selfRefresh
      wasSpare := pc.st == .spare
      idleSince := s.now
      sr := .entering (s.now + s.phyTicks k 299) false }).incRc F.SR_STAT.ENTRIES k).pmuPc k p 22 1

/-- SR_ENTRY_BEGIN (R232, R237): the slice acknowledges in a tick in which nothing is presented; a refresh that has fallen due since the
ask comes first. -/
def execSrEntryBegin (k : Cluster) (p : PcIx) (s : State) : Res :=
  let pc := s.pc k p
  .next (onlyIf (pc.sr == .asking && ((s.pcIdle k p && (s.fw.quiet || s.bit F.SR_CFG.SR_EN k)) || s.retiredIdle k p) &&
      pc.ref == .idle && !s.honours k p && !s.anyPresented k p) (s.beginEntry k p) s)

/-- A request is held for a PC in self-refresh (R233). -/
def State.srHeld (s : State) (k p : Nat) : Bool :=
  s.flights.any fun f => f.k == k && f.unissued && !f.dead && decide (f.slice < 64) && (f.loc.pc == p || f.also == some p) &&
    (match f.stage with | .released _ => true | _ => false)

/-- What takes a PC out of self-refresh (R209, R234, R245): a request held, a window or migration that needs it, or SR_EN = 0; but not while
the block quiesces for a warm reset (R687), and not a RETIRED PC. A frozen PC's requests are answered (R162), and wait for nothing. -/
def State.srLeaves (s : State) (k p : Nat) : Bool :=
  let pc := s.pc k p
  pc.st != .retired && !s.fw.quiet && ((s.srHeld k p && pc.st != .frozen) || s.windowSoon k p || s.migUses k p || !s.bit F.SR_CFG.SR_EN k)

/-- SR_ENTRY_COMPLETE (R234, R245): exit starts at once when a request is held, or what else calls for it; an exit that SR_EN = 0 has
asked for is owed while the stack takes no command. -/
def execSrEntryComplete (k : Cluster) (p : PcIx) (s : State) : Res :=
  let pc := s.pc k p
  match pc.sr with
  | .entering t leave => .next (onlyIf (decide (t ≤ s.now)) (s.setPc k p { pc with
      sr := if s.wakeable k && (leave || s.srLeaves k p) then .exiting (s.now + s.exitTicks k) else if leave then .owing else .asleep }) s)
  | .awake => .next s
  | .asking => .next s
  | .asleep => .next s
  | .owing => .next s
  | .exiting _ => .next s

/-- SR_EXIT_START (R209, R234, R245). -/
def execSrExitStart (k : Cluster) (p : PcIx) (s : State) : Res :=
  let pc := s.pc k p
  .next (onlyIf (s.wakeable k && (pc.sr == .owing || (pc.sr == .asleep && (pc.st == .training || s.srLeaves k p))))
    (s.setPc k p { pc with sr := .exiting (s.now + s.exitTicks k) }) s)

/-- SR_EXIT_COMPLETE (R218, R235): tXS ends; the PC serves again, or stays in the window that needs it or frozen, and skips the due stamps
of the next 1,200 ticks. -/
def execSrExitComplete (k : Cluster) (p : PcIx) (s : State) : Res :=
  let pc := s.pc k p
  match pc.sr with
  | .exiting t => .next (onlyIf (decide (t ≤ s.now) && s.wakeable k) ((s.setPc k p { pc with
      st := if pc.st == .selfRefresh then (if s.windowOn k p then .training else if pc.wasSpare then .spare else .serving) else pc.st
      sr := .awake
      skipUntil := s.now + 1200
      idleSince := s.now }).pmuPc k p 21 (s.now - pc.idleSince)) s)
  | .awake => .next s
  | .asking => .next s
  | .entering _ _ => .next s
  | .asleep => .next s
  | .owing => .next s

/-- SR_EN is written 0 (R245): PCs in self-refresh exit, entries under way complete and then exit; a RETIRED PC stays (R209). -/
def SrSt.leaving (sr : SrSt) (now : Bool) (exit : Nat) : SrSt := match sr with
  | .asleep => if now then .exiting exit else .owing
  | .owing => if now then .exiting exit else .owing
  | .entering t _ => .entering t true
  | .awake => .awake
  | .asking => .awake
  | .exiting t => .exiting t

/-- SR_CFG_WRITE (R244, R245): SR_IDLE_US outside 10 to 10,000 is ignored. -/
def execSrCfgWrite (k : Cluster) (v : W32) (s : State) : Res := s.orWait (.srCfgWrite k v) fun s =>
  if s.inBoot then .next s else
  let old := (s.reg .SR_CFG k).toNat
  let s1 := s.wr F.SR_CFG.SR_EN (bitsOf v 31 31) k
  let us := bitsOf v 13 0
  let s2 := onlyIf (decide (10 ≤ us ∧ us ≤ 10000)) (s1.wr F.SR_CFG.SR_IDLE_US us k) s1
  let s3 : State := if bitsOf v 31 31 == 1 then s2 else { s2 with pcs := s2.pcs.map fun e => (e.1,
    if e.1 / 64 == k.val && e.2.st != .retired then { e.2 with sr := e.2.sr.leaving (s.wakeable k) (s.now + s.exitTicks k) } else e.2) }
  .next (s3.auditReg (0x1040060 + k.val * 0x100000) old (s3.reg .SR_CFG k).toNat)

end Sys2Proof.Machine
end

