-- ==== Sys2Proof/Machine/Ras.lean ====
section
/-! DEFINITION. Command errors, freeze, migration and scrubbing (chapter "Memory errors, poison, freeze and spare
capacity"). -/

namespace Sys2Proof.Machine

/-- An entry in the audit chain for a register that PF0 writes (R596). -/
def State.auditWrite (s : State) (off old new : Nat) : State := s.audit 1 0 0 off old new

/-- A record's DETAIL of a layout the spec does not give: free bytes (notes/assumptions/14). -/
def State.freeDetail (s : State) : List Byte × State :=
  let (v, s) := s.fresh
  (leBytes v 72, s)

/-! ### Freeze (R620 to R624) -/

/-- A PC freezes (R621): no command but refresh, its queues held, a CA_FATAL or STATE_CHECK record; the freeze counts against
the PC in the history. A training stops, and a self-refresh ask is withdrawn (R237, R647); an entry or exit goes on (R234). -/
def State.freezePc (s : State) (k p cls : Nat) : State :=
  let pc := s.pc k p
  let s := s.setPc k p { pc with
    st := .frozen, sr := if pc.sr == .asking then .awake else pc.sr, caTries := 0,
    wasSpare := pc.st == .spare || (pc.st != .serving && pc.wasSpare),
    freeze := some ⟨cls, s.now, !s.bit F.RAS_CFG.AUTO, 0⟩ }
  s.syncFrz k p

/-- The states from which a PC can freeze. -/
def PcState.canFreeze : PcState → Bool
  | .serving => true | .spare => true | .training => true | .selfRefresh => true
  | .off => false | .frozen => false | .retired => false

/-- A freeze for an uncorrectable command error or a failed state check, with its record, counter and history event. -/
def State.freezeFor (s : State) (k p cls : Nat) : State :=
  let (d, s) := (s.freezePc k p cls).freeDetail
  let e := ErrRec.make s.now sevFatal cls k
  let s := (s.record { e with ppc := p, lpc := s.lpcOf k p, result := rFROZEN, count := s.countAt 2 k p 0, detail := d }).incRc F.RAS_CNT2.FREEZES k
  s.event 2 k p 0

/-- CA_PARITY_ERROR (R620, R621): a replay, at most two for one command; the third error freezes the PC. -/
def execCaParityError (k : Cluster) (p : PcIx) (s : State) : Res :=
  let pc := s.pc k p
  if !(pc.st == .serving || pc.st == .spare || pc.st == .training || pc.st == .frozen) then .next s
  else if pc.st == .frozen then .next s
  else if pc.caTries < 2 then
    let s := (s.setPc k p { pc with caTries := pc.caTries + 1 }).pmuPc k p 16 1
    let e := ErrRec.make s.now sevCorrected 0x05 k
    .next ((s.record { e with ppc := p, lpc := s.lpcOf k p }).incRc F.RAS_CNT2.CA_REPLAY k)
  else .next (s.freezeFor k p 0x06)

/-- STATE_CHECK_FAIL (R621): a parity error in a PC's internal state freezes it. -/
def execStateCheckFail (k : Cluster) (p : PcIx) (s : State) : Res :=
  .next (onlyIf (s.pc k p).st.canFreeze (s.freezeFor k p 0x07) s)

/-- A frozen PC returns to service (R623): its held requests proceed in their order, after a window that runs on it (R218). -/
def State.thawPc (s : State) (k p : Nat) : State :=
  let pc := s.pc k p
  let s := s.setPc k p { pc with
    st := if pc.sr.down then .selfRefresh else if s.windowOn k p then .training else if pc.wasSpare then .spare else .serving
    freeze := none
    idleSince := if pc.sr.down then pc.idleSince else s.now }
  let e := ErrRec.make s.now sevInfo 0x23 k
  (s.syncFrz k p).record { e with ppc := p, lpc := s.lpcOf k p }

/-- Answers the requests held in a PC's queues FROZEN (R623): the granted requests of that PC that have no reply yet. -/
def State.answerHeld (s : State) (k p : Nat) : State :=
  { s with flights := s.flights.map fun f =>
      match f.stage with
      | .granted _ => if f.k == k && f.loc.pc == p && decide (f.slice < 64)
          then { f with stage := .replying (s.now + 16), result := rFROZEN } else f
      | _ => f }

/-- Ends the active migration of a cluster before its last chunk (R637): both PCs become RETIRED, `d` ticks after what causes it. -/
def State.abortMigration (s : State) (k : Nat) (d : Nat := 0) : State :=
  let lpc := s.rd F.CLU_MIG.LPC k
  let src := s.phys k lpc
  let tgt := s.rd F.CLU_MIG.TARGET k
  let s : State := { (s.wr F.CLU_MIG.ACTIVE 0 k).wr F.RAS_MIGCTL.BUSY 0 k with
    migs := tset none s.migs k none, hist := { s.hist with marks := s.hist.marks.filter (· != (0, k, src)) } }
  ((((s.answerHeld k src).answerHeld k tgt).retirePc k src lpc false d).retirePc k tgt lpc false d).loseBacking k lpc

/-- RETIRE_NOW on a PC (R623, R637, R806). -/
def State.retireNow (s : State) (k p : Nat) : State :=
  if s.bit F.CLU_MIG.ACTIVE k && (s.rd F.CLU_MIG.TARGET k == p || s.phys k (s.rd F.CLU_MIG.LPC k) == p) then s.abortMigration k
  else
    match upTo 64 fun l => s.bit F.CLU_PCMAP.VALID k l && s.phys k l == p with
    | [] => (s.answerHeld k p).retirePc k p 0xFF false
    | l :: _ => ((s.answerHeld k p).retirePc k p l false).loseBacking k l

/-- CCCk makes no further choice for a freeze (R809). -/
def State.chosen (s : State) (k p : Nat) : State :=
  let pc := s.pc k p
  s.setPc k p { pc with freeze := pc.freeze.map fun z => { z with chosen := true } }

/-- An operation of RAS_FRZCTLk is written while none runs (R623): its RESULT, or BUSY until VERIFY ends. `parityOk` is what the check
of the held structures finds. -/
def State.frzWrite (s : State) (k p op : Nat) (parityOk auto : Bool) : State :=
  let s := s.wr F.RAS_FRZCTL.PC p k
  if (s.pc k p).st ≠ .frozen then s.wr F.RAS_FRZCTL.RESULT 1 k else
  let s := onlyIf auto (s.chosen k p) s
  let m := s.migCheck k
  if op = 3 then (s.wr F.RAS_FRZCTL.RESULT 0 k).retireNow k p
  else if op = 2 ∧ m ≠ 0 then s.wr F.RAS_FRZCTL.RESULT m k
  else if !parityOk then s.wr F.RAS_FRZCTL.RESULT 4 k
  else { (s.wr F.RAS_FRZCTL.BUSY 1 k).wr F.RAS_FRZCTL.RESULT 0 k with frzOps := tset none s.frzOps k (some ⟨op, p, auto⟩) }

/-- The offset of RAS_FRZCTLk. -/
def frzOff (k : Nat) : Nat := 0x2C02008 + 0x10 * k

/-- A write of RAS_MIGCTLk, or of RAS_FRZCTLk, while it is BUSY (R652): only RESULT changes. -/
def State.migBusy (s : State) (o : Origin) (k : Nat) : State :=
  let t := s.wr F.RAS_MIGCTL.RESULT 3 k
  onlyIf (s.rd F.RAS_MIGCTL.RESULT k != 3)
    (t.audit o.kind o.id 0 (0x2C03000 + 0x10 * k) (s.reg .RAS_MIGCTL k).toNat (t.reg .RAS_MIGCTL k).toNat) s
def State.frzBusy (s : State) (o : Origin) (k : Nat) : State :=
  let t := s.wr F.RAS_FRZCTL.RESULT 3 k
  onlyIf (s.rd F.RAS_FRZCTL.RESULT k != 3)
    (t.audit o.kind o.id 0 (frzOff k) (s.reg .RAS_FRZCTL k).toNat (t.reg .RAS_FRZCTL k).toNat) s

/-- PF0 writes an operation of RAS_FRZCTLk, with its audit entry. -/
def State.frzCommand (s : State) (k : Cluster) (p : PcIx) (op : Nat) (parityOk : Bool) : State :=
  if s.inBoot then s
  else if s.bit F.RAS_FRZCTL.BUSY k then s.frzBusy (Origin.fn 0) k
  else (s.frzWrite k p op parityOk false).auditWrite (frzOff k) (s.reg .RAS_FRZCTL k).toNat (op * 2 ^ 26 + p.val)

/-- THAW (R623): PF0 writes RAS_FRZCTLk with OP = 1. -/
def execThaw (k : Cluster) (p : PcIx) (parityOk : Bool) (s : State) : Res := s.orWait (.thaw k p parityOk) fun s => .next (s.frzCommand k p 1 parityOk)

/-- RETIRE_COPY (R623, R636): OP = 2. -/
def execRetireCopy (k : Cluster) (p : PcIx) (parityOk : Bool) (s : State) : Res := s.orWait (.retireCopy k p parityOk) fun s => .next (s.frzCommand k p 2 parityOk)

/-- RETIRE_NOW (R623, R637, R806): OP = 3. -/
def execRetireNow (k : Cluster) (p : PcIx) (s : State) : Res := s.orWait (.retireNow k p) fun s => .next (s.frzCommand k p 3 true)

/-- FREEZE_OP_DONE (R40, R623, R636): the VERIFY of an operation ends; none does before the stack is relocked and retrained. -/
def execFreezeOpDone (k : Cluster) (verifyOk : Bool) (s : State) : Res :=
  match tget none s.frzOps k.val with
  | none => .next s
  | some o =>
    if !s.wakeable k || !s.cccUp k then .next s else
    let s : State := { s.wr F.RAS_FRZCTL.BUSY 0 k with frzOps := tset none s.frzOps k.val none }
    if !verifyOk || (s.pc k o.pc).st != .frozen then .next (s.wr F.RAS_FRZCTL.RESULT 4 k)
    else
      let s := (s.wr F.RAS_FRZCTL.RESULT 0 k).thawPc k o.pc
      let l := s.lpcOf k o.pc
      .next ((onlyIf (o.op == 2 && s.migCheck k == 0 && l != 0xFF) (s.beginMigration k l 2) s).startWanted k)

/-- FREEZE_AUTO_DECISION (R809): CCCk chooses RETIRE_COPY for a PC the freeze made permanent while a spare is free and no
migration is active, else THAW. -/
def execFreezeAutoDecision (k : Cluster) (p : PcIx) (parityOk : Bool) (s : State) : Res :=
  match (s.pc k p).freeze with
  | none => .next s
  | some z =>
    if z.chosen || s.bit F.RAS_FRZCTL.BUSY k || !s.cccUp k then .next s else
    let perm := s.migWant.any fun w => w.1 == k.val && w.2.1 == p.val
    let op := if perm && s.migCheck k == 0 then 2 else 1
    let s : State := onlyIf (op == 2) { s with migWant := s.migWant.filter fun w => !(w.1 == k.val && w.2.1 == p.val) } s
    .next ((s.frzWrite k p op parityOk true).audit 2 (3 + k.val) 0 (frzOff k) (s.reg .RAS_FRZCTL k).toNat (op * 2 ^ 26 + p.val))

/-! ### Migration (R636 to R645) -/

/-- START (R636, R652): PF0 writes RAS_MIGCTLk with OP = START. -/
def execStart (k : Cluster) (lpc : PcIx) (s : State) : Res := s.orWait (.start k lpc) fun s =>
  if s.inBoot then .next s
  else if s.bit F.RAS_MIGCTL.BUSY k then .next (s.migBusy (Origin.fn 0) k)
  else
    let old := (s.reg .RAS_MIGCTL k).toNat
    let s := (s.wr F.RAS_MIGCTL.LPC lpc k).auditWrite (0x2C03000 + 0x10 * k.val) old (2 ^ 28 + lpc.val * 2 ^ 16)
    if !s.bit F.CLU_PCMAP.VALID k lpc then .next (s.wr F.RAS_MIGCTL.RESULT 5 k)
    else if (s.freeSpares k).isEmpty then .next (s.wr F.RAS_MIGCTL.RESULT 2 k)
    else .next ((s.wr F.RAS_MIGCTL.RESULT 0 k).beginMigration k lpc 3)

/-- The group within its PC of a location (the inverse of R80). -/
def State.groupIn (s : State) (l : Loc) : Nat :=
  (l.row * s.rd F.PLOT_STACKGEOM.SIDS l.k + l.sid) * 64 + (l.bank ^^^ (l.row % 16) ^^^ (l.row >>> 4 % 16)) * 4 + l.col / 4

/-- A location lies in chunk `c` of PC `p` of cluster `k`. -/
def State.inChunk (s : State) (k p c : Nat) (l : Loc) : Bool := l.k == k && l.pc == p && s.groupIn l >>> 8 == c

/-- A request header of the maintenance requester for the line at `pa`. -/
def State.maintFlight (s : State) (pa : Nat) (l : Loc) : Flight :=
  { s.mkFlight l.k 39 0 none (.block 0) ⟨mkHdr opRD 1 0 0 0 false pa 0 0 0 0, [], 0⟩ with loc := l }

/-- The records, counters and history event of a line whose decode corrected `n` symbols, after `tries` failed ones. -/
def State.corrected (s : State) (f : Flight) (l : Loc) (pa origin n tries fmt : Nat) : State :=
  let s := onlyIf (decide (0 < n))
    (((s.incRc F.RAS_CNT.CORR l.k).pmuPc l.k l.pc 13 1).lineRecord f l pa sevCorrected 0x01 origin (n + 64) rCORR fmt []) s
  let s := onlyIf (decide (0 < tries))
    ((s.incRc F.RAS_CNT.RETRY_OK l.k).lineRecord f l pa sevCorrected 0x02 origin (tries * 16 + 64) rCORR fmt []) s
  onlyIf (decide (2 ≤ n)) (s.event 0 l.k (rowKey l) l.row) s

/-- The record, counter and history event of an uncorrectable line. -/
def State.uncorrectable (s : State) (f : Flight) (l : Loc) (pa origin : Nat) (e : ReadErr) : State :=
  let s := ((s.incRc F.RAS_CNT.UNCORR l.k).pmuPc l.k l.pc 14 1).lineRecord f l pa sevRecoverable 0x03 origin (2 * 16) rPOISONED 0
    (rsSyndrome (errPattern e))
  s.event 0 l.k (rowKey l) l.row

/-- Copies one line of the chunk under migration from its source location to the target PC (R638): the youngest queued write
of the line, or the stored line through the outer decoder with the errors it meets. -/
def State.copyLine (s : State) (l : Loc) (tgt : Nat) (es : List ReadErr) : State :=
  let (plot, pa) := s.whose l
  let t : Loc := { l with pc := tgt }
  let f := s.maintFlight pa l
  match (s.live l.k l.pc).youngest l with
  | some w =>
    let v := if w.poison then s.poisonLine w.slot w.epoch else s.encLine w.slot w.epoch w.fmt w.data
    s.putLine t plot pa v
  | none =>
    let stored := s.lineAt l plot pa
    let copy (s : State) (ln : Line) : State :=
      s.putLine t plot pa (if ln.poisoned then ln else { ln with md := mdOf false ln.e 1 })
    if es.isEmpty then
      let have_ := s.lineAt t plot pa
      if have_.data == stored.data && have_.key == stored.key && have_.kc == stored.kc && have_.e == stored.e then s else copy s stored
    else match s.decodeTries stored es 0 2 with
      | ((.fail, _, e), s) => (s.uncorrectable f l pa 2 e).putLine t plot pa (s.poisonLine f.slot f.epoch)
      | ((.line ln n, tries, _), s) => copy (s.corrected f l pa 2 n tries ln.fmt) ln

/-- The ACTs of copying a chunk: each of its 1,024 lines is read at the source and written at the target, one at a time (R222, R226, R638). -/
def State.chunkActs (s : State) (k p wm : Nat) : State :=
  (List.range 64).foldl (fun s r => let l := s.locIn k p (wm * 256 + 4 * r) 0
    (List.range 16).foldl (fun s _ => s.onAct k p l.sid l.bank l.row 39) s) s

/-- Chunk WATERMARK is copied (R638): every line listed at the source, queued there, or met with an error. -/
def State.copyChunk (s : State) (k : Nat) (errs : List (Fin 1024 × ReadErr)) : State :=
  let lpc := s.rd F.CLU_MIG.LPC k
  let src := s.phys k lpc
  let tgt := s.rd F.CLU_MIG.TARGET k
  let wm := s.rd F.CLU_MIG.WATERMARK k
  let listed := (s.mem.map fun e => Loc.ofKey e.1).filter (s.inChunk k src wm)
  let s := (s.chunkActs k src wm).chunkActs k tgt wm
  let queued := ((s.live k src).wq.map (·.loc)).filter (s.inChunk k src wm)
  let met := errs.map fun e => s.locIn k src (wm * 256 + e.1.val / 4) (e.1.val % 4)
  ((listed ++ queued ++ met).dedup).foldl (fun s l =>
    s.copyLine l tgt ((errs.filter fun e => s.locIn k src (wm * 256 + e.1.val / 4) (e.1.val % 4) == l).map (·.2))) s

/-- The migration journal's record (R641). -/
def State.migRecord (s : State) (k rseq wm reason : Nat) : LineData :=
  let b (v n : Nat) := leBytes (BitVec.ofNat (8 * n) v) n
  let lpc := s.rd F.CLU_MIG.LPC k
  let body := b 0x4D494731 4 ++ b rseq 4 ++ b k 1 ++ b lpc 1 ++ b (s.phys k lpc) 1 ++ b (s.rd F.CLU_MIG.TARGET k) 1 ++ b wm 2 ++
    b reason 1 ++ b 0 9 ++ b s.now 8 ++ b 0 28
  lineOf (body ++ leBytes (crc32c body) 4)

/-- Writes both copies of the migration journal (R640, R641). -/
def State.migJournal (s : State) (k wm : Nat) : State :=
  match tget none s.migs k with
  | none => s
  | some m =>
    let n := (tget 0 s.migSeq k + 1) % 2 ^ 32
    let d := s.migRecord k n wm m.reason
    let base := 0xFFD <<< 28 + k * 0x1000
    let s := (s.blockWrite base d).blockWrite (base + 0x100) d
    { s with migSeq := tset 0 s.migSeq k n }

/-- Chunks of 64 KiB of a PC of cluster `k`: PC_UNITS times 4,096. -/
def State.chunks (s : State) (k : Nat) : Nat := s.rd F.PLOT_STACKGEOM.PC_UNITS k * 4096

/-- A chunk of the cluster's migration can commit now: CCCk runs (R706), both PCs may issue ACTs (R206) and neither is in a window, in
which copying pauses (R218), and no write of it is queued at the target. -/
def State.chunkReady (s : State) (k : Nat) : Bool :=
  let src := s.phys k (s.rd F.CLU_MIG.LPC k)
  let tgt := s.rd F.CLU_MIG.TARGET k
  s.bit F.CLU_MIG.ACTIVE k && s.cccUp k && s.mayAct k src && s.mayAct k tgt && (s.pc k src).st != .training && (s.pc k tgt).st != .training &&
    !((s.live k tgt).wq.any fun w => s.inChunk k tgt (s.rd F.CLU_MIG.WATERMARK k) w.loc)

/-- MIG_CHUNK_COMMIT (R87, R638, R640, R641): the chunk is copied, the journal written, and WATERMARK advances. -/
def execMigChunkCommit (k : Cluster) (errs : List (Fin 1024 × ReadErr)) (s : State) : Res :=
  let wm := s.rd F.CLU_MIG.WATERMARK k
  .next (onlyIf (s.chunkReady k && decide (wm + 1 < s.chunks k))
    (((s.copyChunk k errs).migJournal k (wm + 1)).wr F.CLU_MIG.WATERMARK (wm + 1) k) s)

/-- MIG_END (R88, R642, R647): the last chunk commits; in one tick the map takes the target and ACTIVE clears; the source is
retired, and a waiting migration starts. -/
def execMigEnd (k : Cluster) (errs : List (Fin 1024 × ReadErr)) (s : State) : Res :=
  let wm := s.rd F.CLU_MIG.WATERMARK k
  if !(s.chunkReady k && wm + 1 == s.chunks k) then .next s else
  let lpc := s.rd F.CLU_MIG.LPC k
  let src := s.phys k lpc
  let tgt := s.rd F.CLU_MIG.TARGET k
  let s := (s.copyChunk k errs).migJournal k (wm + 1)
  let s := (((s.wr F.CLU_PCMAP.PHYS tgt k lpc).wr F.CLU_MIG.WATERMARK (wm + 1) k).wr F.CLU_MIG.ACTIVE 0 k).wr F.RAS_MIGCTL.BUSY 0 k
  let tp := s.pc k tgt
  let s := s.setPc k tgt { tp with st := if tp.st == .spare then .serving else tp.st, wasSpare := false, idleSince := s.now }
  let s : State := { s.retirePc k src lpc true with migs := tset none s.migs k.val none }
  let e := ErrRec.make s.now sevInfo 0x21 k
  let s := s.record { e with ppc := src, lpc := lpc }
  let s : State := { s with hist := { s.hist with marks := s.hist.marks.filter (· != (0, k.val, src)) } }
  .next (s.commitHist.startWanted k)

/-! ### The history and scrubbing -/

/-- HISTORY_COMMIT (R630): SEC commits the pending changes every 60 s. -/
def execHistoryCommit (s : State) : Res := .next s.commitHist

/-- One line is scrubbed (R646): read as R611 reads, and written back with FORMAT = 0b01 when it was corrected, or when `always` (a targeted
scrub). With `acts` the line opens its row, as requester 39 (R222, R226). A queued write of the line replaces it, and nothing is written
back. -/
def State.scrubLine (s : State) (l : Loc) (es : List ReadErr) (always acts : Bool) : State :=
  let (plot, pa) := s.whose l
  let st := (s.plot plot).state
  if plot == 0xFFFF || !(st == .openPlot || st == .sealed || st == .quarantine) || ((s.live l.k l.pc).youngest l).isSome then s
  else
    let f := s.maintFlight pa l
    let s := (s.pmuPc l.k l.pc 3 1).pmuPc l.k l.pc 31 1
    let act (s : State) : State := onlyIf acts (s.onAct l.k l.pc l.sid l.bank l.row 39) s
    let s := act s
    match s.decodeTries (s.lineAt l plot pa) es 0 2 with
    | ((.fail, _, e), s) => (s.poisonWrite f l pa).uncorrectable f l pa 1 e
    | ((.line ln n, tries, _), s) =>
      let (_, kc) := s.keyOf f.slot ln.e
      if ln.poisoned then (s.incRc F.RAS_CNT2.POISON_READS l.k).pmuPc l.k l.pc 15 1
      else if ln.kc != kc then
        ((s.incRc F.SEC_STATUS.KC_FAILS).pmuAes l.k l.pc 4 1).lineRecord f l pa sevRecoverable 0x08 1 (n + tries * 16) rPOISONED ln.fmt
          (leBytes (BitVec.ofNat 16 f.slot) 2 ++ [BitVec.ofNat 8 ln.e.toNat])
      else
        let s := s.corrected f l pa 1 n tries ln.fmt
        onlyIf (decide (0 < n) || always)
          ((act (s.putLine l plot pa { ln with md := mdOf false ln.e 1 })).pmuPc l.k l.pc 4 1) s

/-- CCCk runs, and the PC can serve its maintenance traffic (R206, R706). -/
def State.scrubbable (s : State) (k p : Nat) : Bool := s.cccUp k && s.mayAct k p && ((s.pc k p).st == .serving)

/-- Ticks of an hour. -/
def hourTicks : Nat := 4320000000000

/-- The scrub pass under way: SCRUB_H hours from its start; when it has ended, or was off, the next takes SCRUB_H as it stands (R649). -/
def State.scrubPass (s : State) (k : Nat) : Nat × Nat :=
  let p := tget (0, 0) s.passes k
  if p.1 = 0 ∨ p.2 + p.1 * hourTicks ≤ s.now then (s.rd F.RAS_CFG.SCRUB_H, s.now) else p

/-- PATROL_SCRUB (R646, R649): CCCk reads one line of a live plot; SCRUB_H = 0 turns the patrol off. -/
def execPatrolScrub (k : Cluster) (p : PcIx) (line : Nat) (errs : List ReadErr) (s : State) : Res :=
  let l : Loc := ⟨k, p, line / 2 ^ 24 % 4, line / 2 ^ 20 % 16, line / 16 % 2 ^ 16, line % 16⟩
  let pass := s.scrubPass k
  .next (onlyIf (pass.1 != 0 && s.scrubbable k p && decide (line < 2 ^ 26))
    { s.scrubLine l errs false true with passes := tset (0, 0) s.passes k pass } s)

/-- TARGETED_SCRUB (R614, R646): the 16 lines of a queued row are read and written back. -/
def execTargetedScrub (k : Cluster) (p : PcIx) (row : Nat) (errs : List (Fin 16 × ReadErr)) (s : State) : Res :=
  match s.scrubs.find? fun q => q.1 == k.val && q.2.1 == p.val && q.2.2.2 == row with
  | none => .next s
  | some q =>
    if !s.scrubbable k p then .next s else
    let s : State := { s with scrubs := s.scrubs.filter (· != q) }
    let key := q.2.2.1
    .next ((List.range 16).foldl (fun s c =>
      s.scrubLine ⟨k, p, key / 16 % 4, key % 16, row, c⟩ ((errs.filter (·.1.val == c)).map (·.2)) true (c % 4 == 0)) s)

/-- HISTORY_READ (R652): a write of RAS_HISTCTL.INDEX reads a history entry into RAS_HISTDATA. Entries are numbered in the
order of their first event; the layout of an entry is not given, so its 64 bytes are free (notes/assumptions/15). -/
def execHistoryRead (index : BitVec 20) (s : State) : Res := s.orWait (.historyRead index) fun s =>
  if s.inBoot || s.bit F.RAS_HISTCTL.BUSY then .next s else
  let old := (s.reg .RAS_HISTCTL).toNat
  let s := (s.wr F.RAS_HISTCTL.INDEX index.toNat).auditReg 0x2C04000 old (s.wr F.RAS_HISTCTL.INDEX index.toNat |>.reg .RAS_HISTCTL).toNat
  if index.toNat < s.hist.units.length then
    let (v, s) := s.fresh
    .next ((List.range 64).foldl (fun s i => { s with bytes := tset 0 s.bytes (0x2C04100 + i) (byteAt v i) }) (s.wr F.RAS_HISTCTL.VALID 1))
  else .next (s.wr F.RAS_HISTCTL.VALID 0)

end Sys2Proof.Machine
end

