-- ==== Sys2Proof/Machine/Clocks.lean ====
section
/-! DEFINITION. Clocks and the timestamp (chapter "Clusters, clocks and the timestamp"). -/

namespace Sys2Proof.Machine

/-- PLL_MAIN_LOCK (R42): PLL_MAIN first reports lock; the count is 0 in the first common tick and increments from then on. -/
def execPllMainLock (s : State) : Res :=
  .next (onlyIf (!s.clk.running && !s.clk.mainLost)
    { s.wr F.CLOCK_STATUS.MAIN_LOCK 1 with
      clk := { s.clk with running := true, now := 0, nextCheck := 1024, skew := [] }
      regs0 := s.regs
      regs1 := s.regs
      events := [] } s)

/-- PLL_MAIN_UNLOCK (R41): no DRAM command any more, every stack held in self-refresh, the frozen PCs too, and the hub asked for a cold
reset. Whether the timestamp goes on is not stated: here it does (DESIGN CHOICE, notes/assumptions/31). -/
def execPllMainUnlock (s : State) : Res :=
  if !s.bit F.CLOCK_STATUS.MAIN_LOCK then .next s else
  let s : State := { s.wr F.CLOCK_STATUS.MAIN_LOCK 0 with
    clk := { s.clk with mainLost := true },
    pcs := s.pcs.map fun e => if e.2.st.live then (e.1, { e.2 with
      wasSpare := e.2.st == .spare || (e.2.st == .training && e.2.wasSpare), st := .selfRefresh, sr := .asleep })
      else if e.2.st == .frozen || e.2.st == .retired then (e.1, { e.2 with sr := .asleep }) else e }
  .next (s.send (.hub .coldAsk))

/-- PHY_PLL_UNLOCK (R40): every PC of the stack freezes; CCCk is to relock the PLL and retrain the stack. -/
def execPhyPllUnlock (n : Cluster) (s : State) : Res :=
  if !nbit (s.rd F.CLOCK_STATUS.PHY_LOCK) n then .next s else
  let s := (s.setMap F.CLOCK_STATUS.PHY_LOCK n false).raiseBit F.CLOCK_ERR.PHY_UNLOCK n
  let s : State := { s.wr F.CLOCK_PHYPLL.LOCK 0 n with clk := { s.clk with relocking := s.clk.relocking ++ [n.val] } }
  let s := s.record (ErrRec.make s.now sevFatal 0x12 n)
  .next ((List.range 64).foldl (fun s p => onlyIf (s.pc n p).st.canFreeze (s.freezePc n p 0x12) s) s)

/-- PLL_PHYk is locked, at a phase against CLK_TS that is free (R802; notes/assumptions/10). -/
def State.lockPhy (s : State) (k : Nat) : State :=
  let (v, s) := s.fresh
  { (s.setMap F.CLOCK_STATUS.PHY_LOCK k true).wr F.CLOCK_PHYPLL.LOCK 1 k with
    clk := { s.clk with phase := tset 0 s.clk.phase k (v.toNat % 48) } }

/-- PHY_PLL_LOCK (R40, R57, R802): PLL_PHYn locks at a MULT that is not 0. -/
def execPhyPllLock (n : Cluster) (s : State) : Res :=
  .next (onlyIf (!nbit (s.rd F.CLOCK_STATUS.PHY_LOCK) n && s.rd F.CLOCK_PHYPLL.MULT n != 0) (s.lockPhy n) s)

/-- A request is queued in a doorkeeper: it has not been granted, and it did not come by a direct path (R31). -/
def State.doorkeeperBusy (s : State) : Bool :=
  s.flights.any fun f => f.unissued && f.req != 39 && f.req != 27 + f.k

/-- FCLK_STOP (R35): the doorkeepers keep their requests; FCLK_LOST is set when they hold any. -/
def execFclkStop (s : State) : Res :=
  .next (onlyIf (s.bit F.CLOCK_STATUS.FCLK_PRESENT)
    (((onlyIf s.doorkeeperBusy (s.raise F.CLOCK_ERR.FCLK_LOST) s).wr F.CLOCK_STATUS.FCLK_PRESENT 0).wr F.CLOCK_FCLK.FREQ_MHZ 0) s)

/-- FCLK_RETURN (R34, R35): FCLK toggles again; R34 has it run at 800 to 2,000 MHz, and FREQ_MHZ shows what is measured. -/
def execFclkReturn (mhz : BitVec 16) (s : State) : Res :=
  .next ((s.wr F.CLOCK_STATUS.FCLK_PRESENT 1).wr F.CLOCK_FCLK.FREQ_MHZ mhz.toNat)

/-- One replica differs from the master at a check (R45). The record names the span from the last good check to this one: both stamps, 8
bytes each, little-endian, first in DETAIL (DESIGN CHOICE, notes/assumptions/32: R626 gives no layout for the class). -/
def State.replicaOff (s : State) (i : Nat) : State :=
  let e := ErrRec.make s.now sevCorrected 0x13 (if i = 12 then 0xFF else i)
  let span := leBytes (BitVec.ofNat 64 (s.clk.lastGood.getD i 0)) 8 ++ leBytes s.clk.now 8
  (((s.incRc F.TS_REPL.MISMATCHES).wr F.TS_REPL.LAST_REPLICA i).raise F.CLOCK_ERR.TS_REPLICA).record { e with detail := span }

/-- What has put the replica counters off since the last such command: replica `i` is `skews[i]` further ahead of the master. -/
def State.drift (s : State) (skews : List W64) : State :=
  { s with clk := { s.clk with skew := (List.range 13).foldl (fun t i => tset 0 t i (tget 0 t i + skews.getD i 0)) s.clk.skew } }

/-- TS_REPLICA_CHECK (R44, R45): what the replicas have come to differ by; and at a check, every one that differs is reloaded. What a
replica stamps before that stays as it is stamped. Of several that differ at one check, LAST_REPLICA holds the highest index: they are
taken in ascending order (DESIGN CHOICE, notes/assumptions/32). -/
def execTsReplicaCheck (skews : List W64) (s : State) : Res :=
  let s := s.drift skews
  if !s.clk.running || !s.bit F.TS_CTRL.CHECK_EN || s.now % 1024 != 0 || decide (s.now < s.clk.nextCheck) then .next s
  else
    let bad := upTo 13 fun i => tget 0 s.clk.skew i != 0
    let s : State := bad.foldl State.replicaOff { s with clk := { s.clk with skew := [] } }
    .next { s with clk := { s.clk with nextCheck := s.now + 1024, lastGood := List.replicate 13 s.now } }

/-- TS_CAPTURE (R54, R58): PF0 writes CAPTURE; COUNT is latched in that tick. -/
def execTsCapture (s : State) : Res := s.orWait .tsCapture fun s =>
  if s.inBoot then .next s else
  .next ((s.setReg .TS_CAPT 0 0 s.clk.now).audit 1 0 0 0x100100 (s.reg .TS_CAPT).toNat s.now)

/-- TS_CHECK_ENABLE (R59): CHECK_EN is written from 0 to 1; the first check is at the next multiple of 1,024. -/
def execTsCheckEnable (s : State) : Res := s.orWait .tsCheckEnable fun s =>
  if s.inBoot || s.bit F.TS_CTRL.CHECK_EN then .next s else
  let s := (s.wr F.TS_CTRL.CHECK_EN 1).audit 1 0 0 0x100100 0 2
  .next { s with clk := { s.clk with nextCheck := (s.now / 1024 + 1) * 1024 } }

/-- A write of MULT (R55 to R57): 0 or 32 to 48; rejected while the stack serves outside start-up. An accepted change of a trained site
has it trained again from phase 2 (R262). -/
def State.multWrite (s : State) (o : Origin) (n m : Nat) : State :=
  let old := (s.reg .CLOCK_PHYPLL n).toNat
  if (m != 0 && (decide (m < 32) || decide (48 < m))) || (s.anyPc n PcState.live && !s.siteStarting n) then s.raise F.CLOCK_ERR.PHYMULT_REJ
  else if m = s.rd F.CLOCK_PHYPLL.MULT n then s
  else
    let t := (((onlyIf (s.rd F.PHY_STATUS.SITE n == 3) (s.wr F.PHY_STATUS.SITE 2 n) s).wr F.CLOCK_PHYPLL.MULT m n).wr
      F.CLOCK_PHYPLL.LOCK 0 n).setMap F.CLOCK_STATUS.PHY_LOCK n false
    -- the period registers count in CLK_TS ticks (R238)
    let t := onlyIf (m != 0) (t.wr F.REF_PERIOD.TRFC_TS (t.phyTicks n (t.rd F.REF_TIM.TRFCAB n)) n) t
    t.audit o.kind o.id 0 (0x100040 + 4 * n) old (t.reg .CLOCK_PHYPLL n).toNat

/-- PHY_MULT_WRITE (R55 to R57): by CCCk during start-up, else by PF0. -/
def execPhyMultWrite (n : Cluster) (mult : Byte) (s : State) : Res :=
  if s.siteStarting n then .next (s.multWrite (Origin.core (3 + n.val)) n mult.toNat)
  else s.orWait (.phyMultWrite n mult) fun s => .next (onlyIf (!s.inBoot) (s.multWrite (Origin.fn 0) n mult.toNat) s)

/-- A rising edge of CLK_NMC begins the present tick (R803). -/
def State.nmcEdge (s : State) : Bool :=
  if s.bit F.CLOCK_STATUS.NMC_HALF then (s.now + 4 - s.clk.nmcOrigin % 4) % 4 == 0 else s.now % 2 == 0

/-- The stamp that was `t - now` ticks away, after a change of the divider: what is left of it takes as many cycles of CLK_NMC as
before (R39, R360). -/
def stretch (half : Bool) (now t : Nat) : Nat := if t ≤ now then t else now + (if half then 2 * (t - now) else (t - now) / 2)

/-- A chunk's verdict or replay in progress goes on in cycles of the new length. -/
def Chunk.stretch (f : Nat → Nat) (ch : Chunk) : Chunk := match ch.st with
  | .verdict t => { ch with st := .verdict (f t) }
  | .replay a t => { ch with st := .replay a (f t) }
  | .index => ch | .fetch => ch | .compute => ch | .collect _ => ch | .writing => ch

/-- The same of a context. -/
def Ctx.stretch (f : Nat → Nat) (x : Ctx) : Ctx :=
  let x : Ctx := { x with ready := f x.ready, clear := x.clear.map f }
  match x.op with
  | .data d => { x with op := .data { d with chunks := d.chunks.map (Chunk.stretch f) } }
  | .wait t => { x with op := .wait { t with next := f t.next } }
  | .none => x | .load _ => x | .sema _ => x | .full _ => x | .fence _ _ => x | .test _ => x

/-- The same of a Lantern: no array operation is lost or repeated (R39, R366). -/
def Lantern.stretch (f : Nat → Nat) (l : Lantern) : Lantern :=
  { l with
    ctxs := l.ctxs.map (Ctx.stretch f)
    arrs := l.arrs.map fun e => (e.1, e.2.map fun (o : ArrOp) => { o with at_ := f o.at_ })
    tests := l.tests.map fun t => { t with at_ := f t.at_ }
    reqs := l.reqs.map fun q => match q.st with
      | .retry t => { q with st := .retry (f t) }
      | .sent => q | .dropped => q | .refused => q }

/-- NMC_DIVIDER_CHANGE (R39): the divider the Snuffer asked for takes effect at an alignment point that is an edge of CLK_NMC. -/
def execNmcDividerChange (s : State) : Res :=
  match s.clk.nmcAsk with
  | none => .next s
  | some h => .next (onlyIf (s.now % 10 == 0 && s.nmcEdge)
      (let f := if h == s.bit F.CLOCK_STATUS.NMC_HALF then id else stretch h s.now
       { s.wr F.CLOCK_STATUS.NMC_HALF h.toNat with
         clk := { s.clk with nmcAsk := none, nmcOrigin := s.now }
         lnts := s.lnts.map fun e => (e.1, Lantern.stretch f e.2) }) s)

end Sys2Proof.Machine
end

