-- ==== Sys2Proof/Machine/RingOps.lean ====
section
/-! DEFINITION. What other chapters do to rings and contexts: resetting a ring (R543), and the abort of jobs (R352). -/

namespace Sys2Proof.Machine

/-- Lantern `j`, and context `c` of it. -/
def State.lnt (s : State) (j : Nat) : Lantern := tget Lantern.blank s.lnts j
def State.setLnt (s : State) (j : Nat) (l : Lantern) : State := { s with lnts := tset Lantern.blank s.lnts j l }
def State.ctx (s : State) (j c : Nat) : Ctx := (s.lnt j).ctxs.getD c Ctx.blank
def State.setCtx (s : State) (j c : Nat) (x : Ctx) : State :=
  let l := s.lnt j
  s.setLnt j { l with ctxs := lset Ctx.blank l.ctxs c x }

/-- Every (Lantern, context) pair. -/
def allCtxs : List (Nat × Nat) := (List.range 96).map fun i => (i / 8, i % 8)

/-- Marks for abort every job that `p` names (R352): it drains at its next instruction boundary. -/
def State.abortJobs (s : State) (p : Job → Bool) : State :=
  allCtxs.foldl (fun s q => let x := s.ctx q.1 q.2
    match x.job with
    | some b => if p b && x.st != .draining then s.setCtx q.1 q.2 { x with abort := true } else s
    | none => s) s

/-- Jobs of ring `r` in contexts that are not IDLE. -/
def State.ringJobs (s : State) (r : Nat) : Nat :=
  (allCtxs.filter fun q => (s.ctx q.1 q.2).st != .idle && (s.ctx q.1 q.2).job.any (·.ring == r)).length

/-- The state code of a ring changes, with its audit entry (R596). -/
def State.setRing (s : State) (o : Origin) (r v : Nat) : State :=
  onlyIf (s.rd F.RING_STATE.STATE r != v)
    ((s.wr F.RING_STATE.STATE v r).audit o.kind o.id 6 r (s.rd F.RING_STATE.STATE r) v) s

/-- A ring begins to reset (R531, R543): it stops fetching, its undispatched entries and held records go, its jobs are to
abort, and its epoch advances. -/
def State.resetRing (s : State) (o : Origin) (r : Nat) : State :=
  let s := ((s.setRing o r 4).wr F.RING_STATE.HALT 0 r).incWrap F.RING_STATE.EPOCH r
  let s := s.abortJobs fun b => b.ring == r
  { s with rings := { s.rings with entries := s.rings.entries.filter (·.ring != r),
                                   held := s.rings.held.filter (·.ring != r) } }

/-- Every ring of function `f` is reset (R545 to R548). -/
def State.resetRings (s : State) (o : Origin) (f : Nat) : State :=
  (List.range 64).foldl (fun s i => s.resetRing o (64 * f + i)) s

end Sys2Proof.Machine
end

