-- ==== Sys2Proof/Machine/Stream.lean ====
section
/-! DEFINITION. Stream descriptors (R379 to R383), the words of Amnubo instructions, and how elements lie in lines. -/

namespace Sys2Proof.Machine

/-! ### Instruction words (R371, R425) -/

def iOp (w : BitVec 128) : Nat := bitsOf w 7 0
def iExt (w : BitVec 128) : Bool := w.getLsbD 15
def iSat (w : BitVec 128) : Bool := w.getLsbD 14
def iSr (w : BitVec 128) : Bool := w.getLsbD 13
/-- The register fields F0 to F5 (R425). -/
def iF (w : BitVec 128) (i : Nat) : Nat := bitsOf w (19 + 4 * i) (16 + 4 * i)

/-- A field of `b` bits as a signed number. -/
def sextN (v b : Nat) : Int := if v < 2 ^ (b - 1) then v else (v : Int) - 2 ^ b

/-! ### Descriptors -/

abbrev Desc := BitVec 256

def dBase (d : Desc) : Nat := bitsOf d 42 0
def dHost (d : Desc) : Bool := d.getLsbD 42
def dFmt (d : Desc) : Nat := bitsOf d 46 43
def dPchk (d : Desc) : Bool := d.getLsbD 47
def dCount0 (d : Desc) : Nat := bitsOf d 79 48
def dStride0 (d : Desc) : Int := sextN (bitsOf d 111 80) 32
def dCount1 (d : Desc) : Nat := bitsOf d 131 112
def dStride1 (d : Desc) : Int := sextN (bitsOf d 163 132) 32
def dStep (d : Desc) : Int := sextN (bitsOf d 195 164) 32
def dGen (d : Desc) : Nat := bitsOf d 211 196
def dScale (d : Desc) : Nat := bitsOf d 254 212
/-- N (R430). -/
def dN (d : Desc) : Nat := dCount0 d * dCount1 d
def dF (d : Desc) : Fmt := fmtOf (dFmt d)
def dMx (d : Desc) : Bool := (dF d).mx
def dBits (d : Desc) : Nat := (dF d).bits

/-- A descriptor with another BASE. -/
def dSetBase (d : Desc) (b : Nat) : Desc := (d >>> 43) <<< 43 ||| BitVec.ofNat 256 (b % 2 ^ 43)

/-- The bit address of element `e` (R331, R380). -/
def dBit (d : Desc) (e : Nat) : Int :=
  (dBase d : Int) * 8 + ((e / dCount0 d : Nat) * dStride1 d + (e % dCount0 d : Nat) * dStride0 d) * dBits d

/-- The byte address of the scale of the block that holds element `e` (R332, R380). -/
def dScaleAt (d : Desc) (e : Nat) : Int :=
  (dScale d : Int) + (e / dCount0 d : Nat) * dStride1 d / 32 + (e % dCount0 d : Nat) / 32

/-- The lowest and highest element byte of a stream (R431). -/
def dSpan (d : Desc) : Int × Int :=
  let r := ((dCount1 d : Int) - 1) * dStride1 d
  let c := ((dCount0 d : Int) - 1) * dStride0 d
  let at_ (o : Int) : Int := (dBase d : Int) * 8 + o * dBits d
  (at_ (min 0 r + min 0 c) / 8, (at_ (max 0 r + max 0 c) + dBits d - 1) / 8)

/-- The lowest and highest scale byte of an MX stream. -/
def dScaleSpan (d : Desc) : Int × Int :=
  let r := ((dCount1 d : Int) - 1) * dStride1 d / 32
  ((dScale d : Int) + min 0 r, (dScale d : Int) + max 0 r + ((dCount0 d : Int) - 1) / 32)

/-- R381: the descriptor fails with DESC. -/
def descBad (d : Desc) : Bool :=
  decide (0xD ≤ dFmt d) || dCount0 d == 0 || dCount1 d == 0 || decide (2 ^ 36 ≤ dN d) ||
    (if dMx d then dStride0 d != 1 || dCount0 d % 32 != 0 || dStride1 d % 32 != 0 || dBase d % 8 != 0
     else dBase d % (dBits d / 8) != 0 || dScale d != 0) ||
    decide ((dSpan d).1 < 0) || decide (2 ^ 43 ≤ (dSpan d).2) ||
    (dMx d && (decide ((dScaleSpan d).1 < 0) || decide (2 ^ 43 ≤ (dScaleSpan d).2)))

/-- A span of addresses lies outside a host window of `size` bytes: the window begins where bits 39 to 0 of the address are 0 (R533). -/
def winBad (base size : Nat) (span : Int × Int) : Bool :=
  let top : Int := base / 2 ^ 40 * 2 ^ 40
  decide (span.1 < top) || decide (top + size ≤ span.2)

/-- R533, R534, R554: a host-window stream that the instruction may not use, of function `fn`: elements and scale bytes must lie in the
window. -/
def State.hostBad (s : State) (fn op : Nat) (d : Desc) : Bool :=
  let size := 4096 * s.rd0 F.FN_HWIN_SIZE.SIZE_4K fn
  dHost d && (op != 0x10 || dPchk d || winBad (dBase d) size (dSpan d) || (dMx d && winBad (dScale d) size (dScaleSpan d)))

/-- The place in the host window of line `l` of a host-window stream: past BASE[39:0] for a line of elements, past SCALE[39:0] for one of
scale bytes (R533; DEDUCED for scale bytes, notes/assumptions/53). -/
def dWinOff (d : Desc) (l : Nat) : Nat :=
  let own : Bool := decide ((dSpan d).1 / 64 ≤ (l : Int)) && decide ((l : Int) ≤ (dSpan d).2 / 64)
  l * 64 - (if own then dBase d else dScale d) / 2 ^ 40 * 2 ^ 40

/-- R382: the descriptor fails with PLOT_CHECK over the bytes `lo` to `hi` and its scale bytes. -/
def State.plotBad (s : State) (d : Desc) (lo hi : Int) (scales : Bool) : Bool :=
  let top : Int := dBase d / 2 ^ 28
  dPchk d && (lo / 2 ^ 28 != top || hi / 2 ^ 28 != top ||
    (scales && dMx d && ((dScaleSpan d).1 / 2 ^ 28 != top || (dScaleSpan d).2 / 2 ^ 28 != top)) ||
    (s.plot (dBase d >>> 28 % 4096)).gen.toNat != dGen d)

/-! ### Elements in lines -/

/-- The lines that hold given elements of a stream and their scale bytes. -/
def dLines (d : Desc) (es : List Nat) : List Nat :=
  (es.flatMap fun e =>
    let b := dBit d e
    let l := (b / 512).toNat
    let h := ((b + dBits d - 1) / 512).toNat
    (if l = h then [l] else [l, h]) ++ (if dMx d then [(dScaleAt d e / 64).toNat] else [])).dedup

/-- `n` bits at a bit address, from the lines held. -/
def inBits (ins : List (Nat × LineData)) (b : Int) (n : Nat) : Nat :=
  let get (l : Nat) : Nat := ((ins.find? fun x => x.1 == l).map (·.2.toNat)).getD 0
  let l := (b / 512).toNat
  let o := (b % 512).toNat
  ((get l + (if o + n ≤ 512 then 0 else get (l + 1) <<< 512)) >>> o) % 2 ^ n

/-- The code of an element. -/
def inEl (ins : List (Nat × LineData)) (d : Desc) (e : Nat) : Nat := inBits ins (dBit d e) (dBits d)
/-- The scale byte of an element's block. -/
def inScale (ins : List (Nat × LineData)) (d : Desc) (e : Nat) : Nat := inBits ins (dScaleAt d e * 8) 8

/-- The exact value of an element (R330, R332). -/
def inVal (ins : List (Nat × LineData)) (d : Desc) (e : Nat) : Fv :=
  let v := (dF d).dec (inEl ins d e)
  if dMx d then
    let c := inScale ins d e
    if c = 0xFF then .nan else v.shift ((c : Int) - 127)
  else v

/-- Output lines being filled: by line, the bits and the mask of bits. -/
abbrev Outs := Tbl (Nat × Nat)

/-- Puts `n` bits at a bit address. -/
def outBits (t : Outs) (b : Int) (n v : Nat) : Outs :=
  let put (t : Outs) (l o n v : Nat) : Outs :=
    let (x, m) := tget (0, 0) t l
    let k := (2 ^ n - 1) <<< o
    tins (x - (x &&& k) + (v % 2 ^ n) <<< o, m ||| k) t l
  let l := (b / 512).toNat
  let o := (b % 512).toNat
  if o + n ≤ 512 then put t l o n v
  else put (put t l o (512 - o) (v % 2 ^ (512 - o))) (l + 1) 0 (n - (512 - o)) (v >>> (512 - o))

/-- The filled lines of one output stream, with their byte masks (R433). -/
def outLines (reg : Nat) (t : Outs) : List OutLine :=
  t.map fun e => ⟨e.1, BitVec.ofNat 512 e.2.1,
    BitVec.ofNat 64 ((List.range 64).foldl (fun a i => if e.2.2 >>> (8 * i) % 256 = 0 then a else a + 2 ^ i) 0), reg, false⟩

/-- Inserts a number into an ascending list without repeats. -/
def insUniq (n : Nat) : List Nat → List Nat
  | [] => [n]
  | h :: t => if n < h then n :: h :: t else if n = h then h :: t else h :: insUniq n t
/-- The numbers of a list, ascending, without repeats. -/
def sortUniq (l : List Nat) : List Nat := l.foldl (fun a n => insUniq n a) []

/-- Runs of consecutive lines within one group (R100): the first line and the count. -/
def lineRuns : List Nat → List (Nat × Nat)
  | [] => []
  | l :: t => match lineRuns t with
    | [] => [(l, 1)]
    | (h, n) :: r => if h = l + 1 ∧ h % 4 ≠ 0 then (l, n + 1) :: r else (l, 1) :: (h, n) :: r

/-! ### Streams of an instruction (R425, R429, R431) -/

/-- OPT's FAM, and whether it is LAMB with PASS = 1. -/
def optFam (w : BitVec 128) : Nat := bitsOf w 42 40
def optPass1 (w : BitVec 128) : Bool := optFam w == 3 && w.getLsbD 9
def optCopy (w : BitVec 128) : Bool := w.getLsbD 8
/-- OPT uses DV; it uses DM. -/
def optV (w : BitVec 128) : Bool := optFam w != 0 && optFam w != 4 && !optPass1 w
def optM (w : BitVec 128) : Bool := !optPass1 w

/-- Stage `i` of EW: X, Y, Z. -/
def ewStage (w : BitVec 128) (i : Nat) : List Nat :=
  [bitsOf w (66 + 9 * i) (64 + 9 * i), bitsOf w (69 + 9 * i) (67 + 9 * i), bitsOf w (72 + 9 * i) (70 + 9 * i)]
def ewNst (w : BitVec 128) : Nat := bitsOf w 41 40
/-- Some stage of EW selects source `c`. -/
def ewUses (w : BitVec 128) (c : Nat) : Bool := (List.range (ewNst w + 1)).any fun i => (ewStage w i).contains c

/-- The fields (0 to 4) that name input streams. -/
def insOf (w : BitVec 128) : List Nat :=
  let o := iOp w
  if o = 0x10 ∨ o = 0x18 ∨ o = 0x19 ∨ o = 0x1A ∨ o = 0x23 ∨ o = 0x28 ∨ o = 0x29 then [1]
  else if o = 0x12 ∨ o = 0x13 then [1, 2]
  else if o = 0x20 then [1, 2, 3].filter (ewUses w)
  else if o = 0x21 then [0, 1] ++ (if optM w then [2] else []) ++ (if optV w then [3] else [])
  else if o = 0x22 then (if w.getLsbD 8 then [0] else []) ++ [1, 2]
  else if o = 0x30 then [1]
  else []

/-- The fields that name output streams. -/
def outsOf (w : BitVec 128) : List Nat :=
  let o := iOp w
  if o = 0x10 ∨ o = 0x11 ∨ o = 0x12 ∨ o = 0x13 ∨ o = 0x18 ∨ o = 0x19 ∨ o = 0x1A ∨ o = 0x20 ∨ o = 0x22 ∨ o = 0x31 then [0]
  else if o = 0x21 then
    (if optFam w = 3 ∧ !optPass1 w then [1] else [0]) ++ (if optM w then [2] else []) ++ (if optV w then [3] else []) ++
      (if optCopy w then [4] else [])
  else if o = 0x23 then (if w.getLsbD 10 then [0] else [])
  else []

/-- The descriptor registers an instruction uses as streams, ascending (R423): key streams included. -/
def usesOf (w : BitVec 128) : List Nat :=
  let o := iOp w
  let fs := insOf w ++ outsOf w ++ (if o = 0x30 then [0] else if o = 0x31 then [1] else [])
  upTo 16 fun r => fs.any fun f => iF w f == r

/-- Bytes of `e` elements of a stream, scale bytes included (R353). -/
def dBytes (d : Desc) (e : Nat) : Nat := ceilDiv (e * dBits d) 8 + (if dMx d then ceilDiv e 32 else 0)

/-- The largest power of two, up to 2^36, that satisfies `p` (1 if none does). -/
def pow2Max (p : Nat → Bool) : Nat := (((List.range 37).map fun i => 2 ^ (36 - i)).find? p).getD 1

/-- Two streams are identical (R431). -/
def dSame (a b : Desc) : Bool :=
  dBase a == dBase b && dScale a == dScale b && dStride0 a == dStride0 b && dStride1 a == dStride1 b &&
    dCount0 a == dCount0 b && dCount1 a == dCount1 b && dFmt a == dFmt b

/-- The spans of two streams meet. -/
def dMeet (a b : Desc) : Bool :=
  let sp (d : Desc) := dSpan d :: (if dMx d then [dScaleSpan d] else [])
  (sp a).any fun x => (sp b).any fun y => decide (x.1 ≤ y.2) && decide (y.1 ≤ x.2)

end Sys2Proof.Machine
end

