-- ==== Sys2Proof/Machine/DataCalc.lean ====
section
/-! DEFINITION. What each data instruction computes from the lines of a chunk (chapter "Amnubo: data operations"): the elements
it reads, the elements and scale bytes it writes, its running results, and the checks its own data fail. -/

namespace Sys2Proof.Machine

/-- A data instruction as its chunks see it: its word, the descriptor, register number and scalar of each field (R425), its
index in the job and the job's seed. -/
structure DEnv where
  w : BitVec 128
  d : Nat → Desc
  s : Nat → W64
  n : Nat
  seed : W64

/-- The registers of a context as a data instruction sees them. `s` reads scalars by register number. -/
def Ctx.denv (x : Ctx) (seed w : Nat) : DEnv :=
  let w : BitVec 128 := BitVec.ofNat 128 w
  ⟨w, fun f => x.regs.d.getD (iF w f) 0, fun r => x.regs.s.getD r 0, x.prog.n - 1, BitVec.ofNat 64 seed⟩

/-- What one chunk comes to: output lines by field, the first element its own checks fail (code, element), FLAGS bits to set,
the running results, and an exception. -/
structure DRes where
  outs : Tbl Outs
  bad : Option (Nat × Nat)
  flags : Nat
  acc : DAcc
  exc : Option Exc

def DRes.start (a : DAcc) : DRes := ⟨[], none, 0, a, none⟩
/-- Sets FLAGS bit `b`. -/
def DRes.flag (r : DRes) (b : Nat) (c : Bool) : DRes := if c && !nbit r.flags b then { r with flags := r.flags + 2 ^ b } else r
/-- Writes `n` bits at a bit address of the output stream of field `f`. -/
def DRes.bits (r : DRes) (f : Nat) (b : Int) (n v : Nat) : DRes := { r with outs := tins (outBits (tget [] r.outs f) b n v) r.outs f }
/-- Writes element `e` of output field `f` as a code. -/
def DRes.put (r : DRes) (E : DEnv) (f e v : Nat) : DRes := r.bits f (dBit (E.d f) e) (dBits (E.d f)) v
/-- Writes the scale byte of the block of element `e`. -/
def DRes.putScale (r : DRes) (E : DEnv) (f e v : Nat) : DRes := r.bits f (dScaleAt (E.d f) e * 8) 8 v
/-- Notes a failing check of element `e`: that of the lowest element stays, of one element the first. -/
def DRes.fail (r : DRes) (code e : Nat) (c : Bool) : DRes :=
  if c && r.bad.all (fun b => decide (e < b.2)) then { r with bad := some (code, e) } else r
/-- The scale byte written for the block of element `e`. -/
def DRes.scaleOf (r : DRes) (E : DEnv) (f e : Nat) : Nat :=
  let b := dScaleAt (E.d f) e * 8
  (tget (0, 0) (tget [] r.outs f) (b / 512).toNat).1 >>> (b % 512).toNat % 256

/-- The rounding mode of element `e` of the output of field `f` (R336 to R338, R434). -/
def DEnv.rm (E : DEnv) (f e : Nat) : Rm := if iSr E.w then .sr (srDraw E.seed E.n (iF E.w f) e) else .rne

/-- Converts a value to the format of field `f` as element `e` (R334, R335): the code, with the flags it sets (R376). -/
def DRes.conv (r : DRes) (E : DEnv) (f e : Nat) (v : Fv) : DRes × Nat :=
  let (c, inv, sat) := (dF (E.d f)).conv (E.rm f e) (iSat E.w) v
  ((r.flag 0 inv).flag 1 sat, c)
/-- Converts and writes. -/
def DRes.putVal (r : DRes) (E : DEnv) (f e : Nat) (v : Fv) : DRes :=
  let (r, c) := r.conv E f e v
  r.put E f e c
/-- The conversion check of a value `x` that element `e` of field `f` stores as code `c` (R454, check code 4). -/
def DRes.checkConv (r : DRes) (E : DEnv) (f e : Nat) (x : Fv) (c : Nat) : DRes :=
  r.fail 4 e (!(dF (E.d f)).convOk (iSat E.w) (nbit r.flags 0) x ((dF (E.d f)).dec c))
/-- Converts, writes and checks. -/
def DRes.putChecked (r : DRes) (E : DEnv) (f e : Nat) (v : Fv) : DRes :=
  let (r, c) := r.conv E f e v
  (r.put E f e c).checkConv E f e v c

abbrev Lines := List (Nat × LineData)

/-- The value of element `e` of input field `f` in FP32 (R327). -/
def DEnv.val (E : DEnv) (ins : Lines) (f e : Nat) : Fv := r32 (inVal ins (E.d f) e)

/-! ### Moving and converting (R446 to R453) -/

/-- MOVE (R446). -/
def calcMove (E : DEnv) (ins : Lines) (es : List Nat) (r : DRes) : DRes :=
  es.foldl (fun r e =>
    let r := r.put E 0 e (inEl ins (E.d 1) e)
    if dMx (E.d 1) && e % 32 == 0 then r.putScale E 0 e (inScale ins (E.d 1) e) else r) r

/-- FILL (R447). -/
def calcFill (E : DEnv) (es : List Nat) (r : DRes) : DRes :=
  let v := if E.w.getLsbD 8 then bitsOf E.w 127 64 else (E.s (iF E.w 1)).toNat
  es.foldl (fun r e =>
    let r := r.put E 0 e (v % 2 ^ dBits (E.d 0))
    if dMx (E.d 0) && e % 32 == 0 then r.putScale E 0 e (bitsOf E.w 47 40) else r) r

/-- The row an index entry names (R448); none outside the table of field `t`. -/
def rowOf (E : DEnv) (ins : Lines) (t i : Nat) : Option Nat :=
  let k := sextN (inEl ins (E.d 2) i) 32
  if 0 ≤ k ∧ k < dCount1 (E.d t) then some k.toNat else none

/-- Copies a row of `n` elements with its scale bytes: from element `a` of field 1 to element `b` of field 0. -/
def copyRow (E : DEnv) (ins : Lines) (n a b : Nat) (r : DRes) : DRes :=
  (List.range n).foldl (fun r j =>
    let r := r.put E 0 (b + j) (inEl ins (E.d 1) (a + j))
    if dMx (E.d 1) && j % 32 == 0 then r.putScale E 0 (b + j) (inScale ins (E.d 1) (a + j)) else r) r

/-- GATHER (R448). -/
def calcGather (E : DEnv) (ins : Lines) (es : List Nat) (r : DRes) : DRes :=
  let n := dCount0 (E.d 1)
  es.foldl (fun r i => copyRow E ins n ((rowOf E ins 1 i).getD 0 * n) (i * n) r) r

/-- SCATTER (R448, R450): ascending entries, so the higher entry of one row stands. -/
def calcScatter (E : DEnv) (ins : Lines) (es : List Nat) (r : DRes) : DRes :=
  let n := dCount0 (E.d 0)
  es.foldl (fun r i => copyRow E ins n (i * n) ((rowOf E ins 0 i).getD 0 * n) r) r

/-- CAST (R451): through FP32, which rounds only an INT32 beyond 2^24. -/
def calcCast (E : DEnv) (ins : Lines) (es : List Nat) (r : DRes) : DRes :=
  es.foldl (fun r e => r.putChecked E 0 e (E.val ins 1 e)) r

/-- QUANT (R333, R452, R454). In a block with scale code 0xFF every element is NaN (R332), so each element passes R454's row for NaN:
scaled, and as it is stored (DEDUCED, notes/assumptions/52). -/
def calcQuant (E : DEnv) (ins : Lines) (es : List Nat) (r : DRes) : DRes :=
  es.foldl (fun r e =>
    let b := e / 32 * 32
    let c := scaleCode (dFmt (E.d 0)) ((List.range 32).map fun i => E.val ins 1 (b + i))
    let r := if e % 32 == 0 then r.putScale E 0 e c else r
    let r := if c = 0xFF then r.put E 0 e 0 else r.putChecked E 0 e (r32 ((E.val ins 1 e).shift (127 - (c : Int))))
    r.fail 5 e (r.scaleOf E 0 e != c)) r

/-- DEQ (R453). -/
def calcDeq (E : DEnv) (ins : Lines) (es : List Nat) (r : DRes) : DRes :=
  es.foldl (fun r e => r.putChecked E 0 e (inVal ins (E.d 1) e)) r

/-! ### EW (R455) -/

/-- A source of a stage of EW. -/
def ewSel (E : DEnv) (ins : Lines) (e : Nat) (acc : Fv) (c : Nat) : Fv :=
  let k (i : Nat) : Fv := let w := (E.s (iF E.w 4 + i / 2)).toNat; of32 (if i % 2 = 0 then w % 2 ^ 32 else w >>> 32)
  if c = 0 then acc else if c ≤ 3 then E.val ins c e else k (c - 4)

/-- EW: one to four fused multiply-adds. -/
def calcEw (E : DEnv) (ins : Lines) (es : List Nat) (r : DRes) : DRes :=
  es.foldl (fun r e =>
    let acc := (List.range (ewNst E.w + 1)).foldl (fun acc i =>
      let st := ewStage E.w i
      fma32 (ewSel E ins e acc (st.getD 0 0)) (ewSel E ins e acc (st.getD 1 0)) (ewSel E ins e acc (st.getD 2 0))) Fv.zero
    r.putVal E 0 e acc) r

/-! ### NORM and the norms of LAMB (R459, R466, R467) -/

/-- One level of a pairwise tree: 2i with 2i + 1, an odd last value unchanged. -/
def pairLevel (f : Nat → Nat → Nat) : List Nat → List Nat
  | a :: b :: t => f a b :: pairLevel f t
  | [a] => [a]
  | [] => []

def code32 (v : Fv) : Nat := (fp32.conv .rne false v).1
/-- The maximum, NaN if either is NaN. -/
def fvMax (a b : Fv) : Fv := if a.isNan || b.isNan then .nan else if a.lt b then b else a

/-- The tree of a group of up to 1,024 FP32 values. -/
def groupTree (kind : Nat) (g : List Nat) : Fv :=
  let f (a b : Nat) : Nat := if kind = 2 then code32 (fvMax (of32 a) (of32 b)) else code32 ((of32 a).add (of32 b))
  of32 (((List.range 10).foldl (fun l _ => pairLevel f l) g).headD 0)

/-- The FP64 sum, or maximum, of a running result and a value. -/
def accum (kind : Nat) (tot : W64) (v : Fv) : W64 := if kind = 2 then to64 (fvMax (of64 tot) v) else to64 ((of64 tot).add v)

/-- The running result before the first group: −0 for a sum, so that the first value stands as it is; 0 for a maximum. -/
def accZero (kind : Nat) : W64 := if kind = 2 then 0 else 0x8000000000000000

/-- The term of an element (R466). -/
def normTerm (kind : Nat) (x : Fv) : Fv := if kind = 0 then x else if kind = 1 then r32 (x.mul x) else x.abs

def DAcc.start (kind : Nat) : DAcc := ⟨[], accZero kind, accZero kind, [], accZero kind, 0, none, 0, []⟩

/-- Adds a term to a group (kept newest first); a full group, or the last of its row, joins the row's result. -/
def normStep (kind : Nat) (grp : List Nat) (row : W64) (t : Fv) (last : Bool) : List Nat × W64 :=
  let g := code32 t :: grp
  if last || g.length == 1024 then ([], accum kind row (groupTree kind g.reverse)) else (g, row)

/-- A number that is NaN or an infinity. -/
def Fv.bad (v : Fv) : Bool := v.isNan || v.isInf

/-- NORM (R466, R467). -/
def calcNorm (E : DEnv) (ins : Lines) (es : List Nat) (r : DRes) : DRes :=
  let kind := bitsOf E.w 9 8
  let rows := E.w.getLsbD 10
  let len := if rows then dCount0 (E.d 1) else dN (E.d 1)
  es.foldl (fun r e =>
    let last := (e + 1) % len == 0
    let (g, row) := normStep kind r.acc.grp r.acc.row (normTerm kind (E.val ins 1 e)) last
    let r := { r with acc := { r.acc with grp := g, row := row } }
    if last then
      let v := of64 row
      let r := { r with acc := { r.acc with row := accZero kind, tot := accum kind r.acc.tot v } }
      if rows then
        let (r, c) := r.conv E 0 (e / len) v
        (r.flag 4 ((dF (E.d 0)).dec c).bad).put E 0 (e / len) c
      else r
    else r) r

/-! ### OPT (R456 to R461) -/

/-- Parameter `i` of OPT (R456). -/
def optPar (E : DEnv) (i : Nat) : Fv := let w := (E.s (iF E.w 5 + i / 2)).toNat; of32 (if i % 2 = 0 then w % 2 ^ 32 else w >>> 32)
/-- SN. -/
def optSn (w : BitVec 128) : Nat := bitsOf w 53 50

/-- The step of LAMB's second pass (R460). -/
def optLt (E : DEnv) : Fv :=
  let a := of64 (E.s (optSn E.w))
  let b := of64 (E.s (optSn E.w + 1))
  let trust := if a.isZero || b.isZero then Fv.one else r32 (r64 ((r64 a.sqrt).quot (r64 b.sqrt)))
  r32 ((optPar E 0).mul trust)

/-- sign(c), with sign(0) = 0 (R458). -/
def fvSign (v : Fv) : Fv := if v.isNan then .nan else if v.isZero then Fv.zero else if v.sign then Fv.one.neg else Fv.one

/-- The new w, m, v and LAMB's update u of one element (R458). -/
def optEl (E : DEnv) (w g0 m v : Fv) : Fv × Fv × Fv × Fv :=
  let fam := optFam E.w
  let lr := optPar E 0
  let wd := optPar E 1
  let b1 := optPar E 2
  let b2 := optPar E 3
  let k1 := r32 (Fv.one.add b1.neg)
  let k2 := r32 (Fv.one.add b2.neg)
  if optPass1 E.w then (fma32 (optLt E).neg g0 w, m, v, Fv.zero)
  else
    let g := r32 (g0.mul (optPar E 5))
    if fam = 0 then
      let g := fma32 wd w g
      let m := fma32 b1 m g
      (fma32 lr.neg m w, m, v, Fv.zero)
    else if fam = 4 then
      let c := fma32 b1 m (r32 (k1.mul g))
      let w' := fma32 lr.neg (fma32 wd w (fvSign c)) w
      (w', fma32 b2 m (r32 (k2.mul g)), v, Fv.zero)
    else
      let g := if fam = 1 then fma32 wd w g else g
      let m := fma32 b1 m (r32 (k1.mul g))
      let v := fma32 b2 v (r32 (k2.mul (r32 (g.mul g))))
      let den := r32 ((r32 (r32 (v.mul (optPar E 7))).sqrt).add (optPar E 4))
      let u := r32 ((r32 (m.mul (optPar E 6))).quot den)
      if fam = 1 then (fma32 lr.neg u w, m, v, Fv.zero)
      else if fam = 2 then (fma32 lr.neg (fma32 wd w u) w, m, v, Fv.zero)
      else (w, m, v, fma32 wd w u)

/-- Writes one output of OPT and tests it for NaN and infinity (R461 codes 0 and 1), and DX for its conversion (code 4). -/
def optOut (E : DEnv) (f e : Nat) (v : Fv) (r : DRes) : DRes × Fv :=
  let (r, c) := r.conv E f e v
  let y := (dF (E.d f)).dec c
  let r := ((r.put E f e c).fail 0 e y.isNan).fail 1 e y.isInf
  (if f = 4 then r.checkConv E f e v c else r, y)

/-- OPT (R458 to R461): DW, DG, DM, DV and DX are fields 0 to 4. -/
def calcOpt (E : DEnv) (ins : Lines) (es : List Nat) (r : DRes) : DRes :=
  let fam := optFam E.w
  let lamb0 := fam == 3 && !optPass1 E.w
  es.foldl (fun r e =>
    let w := E.val ins 0 e
    let m := if optM E.w then E.val ins 2 e else Fv.zero
    let v := if optV E.w then E.val ins 3 e else Fv.zero
    let (w', m', v', u) := optEl E w (E.val ins 1 e) m v
    let r := if lamb0 then r else (optOut E 0 e w' r).1
    let (r, us) := if lamb0 then optOut E 1 e u r else (r, Fv.zero)
    let r := if optM E.w then (optOut E 2 e m' r).1 else r
    let r := if optV E.w then
        let (r, y) := optOut E 3 e v' r
        r.fail 2 e y.neg?
      else r
    let dw := bitsOf E.w 49 44
    let r := if !lamb0 && dw != 63 then
        r.fail 3 e ((Fv.fin false 1 ((dw : Int) - 32)).lt (r32 (w'.add w.neg)).abs)
      else r
    let r := if optCopy E.w then (optOut E 4 e w' r).1 else r
    if lamb0 then
      let last := e + 1 == dN (E.d 0)
      let (g, row) := normStep 1 r.acc.grp r.acc.row (normTerm 1 w) last
      let (g2, t2) := normStep 1 r.acc.grp2 r.acc.tot2 (normTerm 1 (r32 us)) last
      { r with acc := { r.acc with grp := g, row := row, grp2 := g2, tot2 := t2 } }
    else r) r

/-! ### MMA (R463, R464) -/

/-- The K step of a format (R323, R462). -/
def ksOf (fmt : Nat) : Nat := if fmt = 0 then 1 else if fmt = 1 ∨ fmt = 2 then 4 else if fmt = 9 then 16 else 8

/-- The sum of a nonempty list, exactly. -/
def fvSum : List Fv → Fv
  | [] => Fv.zero
  | h :: t => t.foldl Fv.add h

/-- Element (i, j) of C (R463): ascending steps of K, each summed exactly and added with one rounding. -/
def mmaEl (E : DEnv) (ins : Lines) (c0 : Fv) (i j : Nat) : Fv :=
  let k := dCount0 (E.d 1)
  let ks := ksOf (dFmt (E.d 1))
  (List.range (k / ks)).foldl (fun c st =>
    r32 (c.add (fvSum ((List.range ks).map fun t =>
      (inVal ins (E.d 1) (i * k + st * ks + t)).mul (inVal ins (E.d 2) (j * k + st * ks + t)))))) c0

/-- MMA. -/
def calcMma (E : DEnv) (ins : Lines) (es : List Nat) (r : DRes) : DRes :=
  let n := dCount0 (E.d 0)
  es.foldl (fun r e =>
    let c0 := if E.w.getLsbD 8 then E.val ins 0 e else Fv.zero
    r.putVal E 0 e (mmaEl E ins c0 (e / n) (e % n))) r

/-! ### CHECK and DIGEST (R468, R469) -/

/-- The lowest condition an element violates (R468). -/
def checkCond (w : BitVec 128) (x : Fv) : Option Nat :=
  if w.getLsbD 8 && x.isNan then some 0
  else if w.getLsbD 9 && x.isInf then some 1
  else if w.getLsbD 10 && x.neg? then some 2
  else if w.getLsbD 11 && !x.isNan && (Fv.fin false 1 ((bitsOf w 45 40 : Int) - 32)).lt x.abs then some 3
  else none

/-- CHECK. -/
def calcCheck (E : DEnv) (ins : Lines) (es : List Nat) (r : DRes) : DRes :=
  es.foldl (fun r e => match checkCond E.w (inVal ins (E.d 1) e) with
    | none => r
    | some c =>
      if E.w.getLsbD 12 then (if r.exc.isNone then { r with exc := some ⟨0x27, 0, c, e⟩ } else r)
      else { r with acc := { r.acc with count := r.acc.count + 1, first := r.acc.first.orElse fun _ => some e } }) r

/-- Hashes bytes into the running digest: CRC-64, or the bytes kept for SHA-384. -/
def hashBytes (E : DEnv) (a : DAcc) (b : List Byte) : DAcc :=
  if E.w.getLsbD 8 then { a with bytes := a.bytes ++ b } else { a with crc := b.foldl (crcByte 0x42F0E1EBA9EA3693) a.crc }

/-- DIGEST: element bytes in order, and after each row of an MX stream the row's scale bytes (kept in `grp2`, newest first). -/
def calcDigest (E : DEnv) (ins : Lines) (es : List Nat) (r : DRes) : DRes :=
  let d := E.d 1
  let b := dBits d
  es.foldl (fun r e =>
    let a := r.acc
    let a := if dMx d then
        (if e % 32 == 31 then
          let v := (List.range 32).foldl (fun v i => v + inEl ins d (e - 31 + i) <<< (b * i)) 0
          let a := hashBytes E a ((List.range (4 * b)).map fun i => BitVec.ofNat 8 (v >>> (8 * i)))
          { a with grp2 := inScale ins d e :: a.grp2 }
        else a)
      else hashBytes E a ((List.range (b / 8)).map fun i => BitVec.ofNat 8 (inEl ins d e >>> (8 * i)))
    let a := if dMx d && (e + 1) % dCount0 d == 0 then
        { hashBytes E a (a.grp2.reverse.map (BitVec.ofNat 8)) with grp2 := [] }
      else a
    { r with acc := a }) r

/-! ### All of them -/

/-- The elements of chunk `m` (R353, R449, R464, R493): index entries for GATHER and SCATTER, a block of C for MMA. -/
def chunkEls (E : DEnv) (e m : Nat) : List Nat :=
  let o := iOp E.w
  if o = 0x22 then
    let nn := dCount0 (E.d 0)
    let nb := ceilDiv nn 32
    let rows := (List.range 32).map (· + m / nb * 32) |>.filter (· < dCount1 (E.d 0))
    let cols := (List.range 32).map (· + m % nb * 32) |>.filter (· < nn)
    rows.flatMap fun i => cols.map fun j => i * nn + j
  else
    let n := if o = 0x12 ∨ o = 0x13 then dN (E.d 2) else if o = 0x23 ∨ o = 0x28 ∨ o = 0x29 then dN (E.d 1) else dN (E.d 0)
    (List.range e).map (· + m * e) |>.filter (· < n)

/-- The lines of the inputs of a chunk, by field (R437): for GATHER and SCATTER those of the rows. -/
def chunkLines (E : DEnv) (ins : Lines) (es : List Nat) : List (Nat × List Nat) :=
  let o := iOp E.w
  if o = 0x12 then
    let n := dCount0 (E.d 1)
    [(1, sortUniq (dLines (E.d 1) (es.flatMap fun i => (List.range n).map (· + (rowOf E ins 1 i).getD 0 * n))))]
  else if o = 0x13 then
    let n := dCount0 (E.d 0)
    [(1, sortUniq (dLines (E.d 1) (es.flatMap fun i => (List.range n).map (· + i * n))))]
  else if o = 0x22 then
    let n := dCount0 (E.d 0)
    let k := dCount0 (E.d 1)
    let row (i : Nat) := (List.range k).map (· + i * k)
    let a := (sortUniq (es.map (· / n))).flatMap row
    let b := (sortUniq (es.map (· % n))).flatMap row
    (if E.w.getLsbD 8 then [(0, sortUniq (dLines (E.d 0) es))] else []) ++
      [(1, sortUniq (dLines (E.d 1) a)), (2, sortUniq (dLines (E.d 2) b))]
  else (insOf E.w).map fun f => (f, sortUniq (dLines (E.d f) es))

/-- What a chunk comes to. -/
def calcChunk (E : DEnv) (ins : Lines) (es : List Nat) (acc : DAcc) : DRes :=
  let r := DRes.start acc
  let o := iOp E.w
  if o = 0x10 then calcMove E ins es r
  else if o = 0x11 then calcFill E es r
  else if o = 0x12 then calcGather E ins es r
  else if o = 0x13 then calcScatter E ins es r
  else if o = 0x18 then calcCast E ins es r
  else if o = 0x19 then calcQuant E ins es r
  else if o = 0x1A then calcDeq E ins es r
  else if o = 0x20 then calcEw E ins es r
  else if o = 0x21 then calcOpt E ins es r
  else if o = 0x22 then calcMma E ins es r
  else if o = 0x23 then calcNorm E ins es r
  else if o = 0x28 then calcCheck E ins es r
  else if o = 0x29 then calcDigest E ins es r
  else r

/-- The array operations of a chunk of `n` elements (R435, R464): passes by lane, slices of tiles for MMA, none for the rest. -/
def passesOf (w : BitVec 128) : Nat :=
  let o := iOp w
  if o = 0x18 ∨ o = 0x19 ∨ o = 0x1A ∨ o = 0x20 ∨ o = 0x23 then 1
  else if o = 0x21 then (if optFam w = 0 ∨ optPass1 w then 1 else if optFam w = 4 then 2 else 4)
  else 0

def mmaSlices (E : DEnv) : Nat := ceilDiv (dCount0 (E.d 1)) (64 * ksOf (dFmt (E.d 1)))

def chunkOps (E : DEnv) (n : Nat) : Nat :=
  if iOp E.w = 0x22 then n / 16 * mmaSlices E
  else if passesOf E.w = 0 then 0 else ceilDiv (n * passesOf E.w) 1024

/-- The CLK_NMC cycles of array operation `i` of a chunk of `n` elements. -/
def opCycles (E : DEnv) (n i : Nat) : Nat :=
  if iOp E.w = 0x22 then
    let steps := dCount0 (E.d 1) / ksOf (dFmt (E.d 1))
    min 64 (steps - i / (n / 16) * 64)
  else
    let p := passesOf E.w
    ceilDiv (min (1024 / p) (n - i * (1024 / p)) * p) 16

/-- The bytes of a chunk of `e` elements (R353, R449), and whether `e` is within the limits. -/
def chunkFits (E : DEnv) (e : Nat) : Bool :=
  let o := iOp E.w
  if o = 0x12 ∨ o = 0x13 then
    let row := dBytes (E.d 1) (e * dCount0 (E.d (if o = 0x12 then 1 else 0)))
    decide (row ≤ 65536) && decide (4 * e + 2 * row ≤ 524288)
  else if o = 0x23 ∨ o = 0x28 ∨ o = 0x29 then decide (dBytes (E.d 1) e ≤ 65536)
  else
    let outs := if o = 0x30 then [0] else outsOf E.w
    outs.all (fun f => decide (dBytes (E.d f) e ≤ 65536)) &&
      decide ((((insOf E.w) ++ outs).map fun f => dBytes (E.d f) e).sum ≤ 524288)

/-- E and the number of chunks of an instruction. -/
def chunkPlan (E : DEnv) : Nat × Nat :=
  let o := iOp E.w
  if o = 0x22 then (1024, ceilDiv (dCount1 (E.d 0)) 32 * ceilDiv (dCount0 (E.d 0)) 32)
  else if o = 0x31 then (1024, ceilDiv (dN (E.d 1)) 1024)
  else
    let e := pow2Max (chunkFits E)
    let n := if o = 0x12 ∨ o = 0x13 then dN (E.d 2) else if o = 0x23 ∨ o = 0x28 ∨ o = 0x29 then dN (E.d 1) else dN (E.d 0)
    (e, ceilDiv n e)

/-! ### Issue checks (R427 to R431, R457, R462) -/

def nonMx (c : Nat) : Bool := decide (c ≤ 4) || c == 0xB || c == 0xC
/-- The formats allowed for a field (R429, R491, R503); CONTRIB's key stream has only to have DA's. -/
def fmtAllowed (o f c : Nat) : Bool :=
  let fl := decide (c ≤ 2)
  let mx := decide (5 ≤ c) && decide (c ≤ 0xA)
  if o = 0x10 ∨ o = 0x11 ∨ o = 0x29 then true
  else if o = 0x12 ∨ o = 0x13 then f != 2 || c == 0xC
  else if o = 0x18 ∨ o = 0x20 ∨ o = 0x28 then nonMx c
  else if o = 0x19 then (if f = 0 then mx else fl)
  else if o = 0x1A then (if f = 0 then fl else mx)
  else if o = 0x21 then (if f = 4 then decide (c ≤ 4) else fl)
  else if o = 0x22 then (if f = 0 then fl else decide (c ≤ 0xB))
  else if o = 0x23 then (if f = 0 then fl else nonMx c)
  else if o = 0x30 then f == 0 || fl
  else fl

/-- Fields whose formats must agree: (earlier, later). -/
def fmtPair (o : Nat) : Option (Nat × Nat) :=
  if o = 0x10 ∨ o = 0x12 ∨ o = 0x13 ∨ o = 0x30 then some (0, 1) else if o = 0x22 then some (1, 2) else none

/-- The fields of the streams an instruction uses, ascending. -/
def fieldsOf (w : BitVec 128) : List Nat := upTo 5 fun f => (insOf w ++ outsOf w).contains f ||
  (iOp w == 0x30 && f == 0) || (iOp w == 0x31 && f == 1)

/-- The field that fails FORMAT (R429). -/
def formatBad (E : DEnv) : Option Nat :=
  let o := iOp E.w
  (fieldsOf E.w).find? fun f => !fmtAllowed o f (dFmt (E.d f)) || (match fmtPair o with
    | some (a, b) => f == b && dFmt (E.d a) != dFmt (E.d b)
    | none => false)

/-- The field that fails COUNT (R430, R491, R503). -/
def countBad (E : DEnv) : Option Nat :=
  let o := iOp E.w
  let n (f : Nat) := dN (E.d f)
  if o = 0x12 then (if n 0 ≠ n 2 * dCount0 (E.d 1) then some 2 else none)
  else if o = 0x13 then (if n 1 ≠ n 2 * dCount0 (E.d 0) then some 2 else none)
  else if o = 0x23 then (if E.w.getLsbD 10 && n 0 != dCount1 (E.d 1) then some 1 else none)
  else if o = 0x22 ∨ o = 0x28 ∨ o = 0x29 then none
  else match fieldsOf E.w with
    | [] => none
    | f :: t => t.find? fun g => n g != n f

/-- A key stream's rows are not whole units of `u` bytes (R491, R503). -/
def keyShapeBad (d : Desc) (u : Nat) : Bool :=
  let b := dBits d / 8
  dStride0 d != 1 || dBase d % u != 0 || dCount0 d * b % u != 0 || (dStride1 d * b) % u != 0

/-- The sub-code with which SHAPE fails (R449, R462, R491, R503). -/
def shapeBad (E : DEnv) : Option Nat :=
  let o := iOp E.w
  if o = 0x12 ∨ o = 0x13 then
    let t := if o = 0x12 then 1 else 0
    if 65536 < dBytes (E.d t) (dCount0 (E.d t)) then some 2 else none
  else if o = 0x22 then
    let a := E.d 1
    let b := E.d 2
    let c := E.d 0
    let k := dCount0 a
    if dCount1 a ≠ dCount1 c ∨ k ≠ dCount0 b ∨ dCount1 b ≠ dCount0 c ∨ dCount1 a % 4 ≠ 0 ∨ dCount0 c % 4 ≠ 0 ∨
        k % ksOf (dFmt a) ≠ 0 ∨ (dMx a && k % 32 != 0) then some 0
    else if 4096 * 8 < k * dBits a then some 1 else none
  else if o = 0x30 then (if keyShapeBad (E.d 0) 64 then some 2 else none)
  else if o = 0x31 then (if keyShapeBad (E.d 1) 256 then some 2 else none)
  else none

/-- Finite and at least 0. -/
def finNonneg (v : Fv) : Bool := !v.isNan && !v.isInf && !v.neg?

/-- The parameter index with which PARAM fails (R457). -/
def optParamBad (E : DEnv) : Option Nat :=
  let fam := optFam E.w
  let p1 := optPass1 E.w
  let unit (v : Fv) : Bool := finNonneg v && v.lt Fv.one
  let adam := fam == 1 || fam == 2 || fam == 3
  let ok (i : Nat) : Bool :=
    let v := optPar E i
    if i = 0 ∨ i = 1 ∨ i = 5 then finNonneg v
    else if i = 2 then unit v
    else if i = 3 then !(adam || fam == 4) || unit v
    else if i = 4 then !adam || (finNonneg v && !v.isZero)
    else if i = 6 ∨ i = 7 then !adam || (finNonneg v && !v.lt Fv.one)
    else !p1 || (finNonneg (of64 (E.s (optSn E.w))) && finNonneg (of64 (E.s (optSn E.w + 1))))
  (List.range 9).find? fun i => !ok i

/-- PARAM (R457, R491). -/
def paramBad (E : DEnv) : Option Nat :=
  let o := iOp E.w
  if o = 0x21 then optParamBad E
  else if o = 0x31 then (if !E.w.getLsbD 8 && (E.s (iF E.w 2)).toNat % 65536 == 0 then some 0 else none)
  else none

/-- An input that may be in place (R431). -/
def inPlaceOk (w : BitVec 128) (f : Nat) : Bool :=
  let o := iOp w
  o == 0x20 || o == 0x18 || (o == 0x21 && (f == 0 || f == 2 || f == 3 || (f == 1 && optFam w == 3 && !optPass1 w)))

/-- The later field of the first pair of streams that fails OVERLAP (R431). -/
def overlapBad (E : DEnv) : Option Nat :=
  let o := iOp E.w
  if o = 0x30 ∨ o = 0x31 then none else
  let outs := outsOf E.w
  let ins := insOf E.w
  let meet (p : Nat × Nat) : Bool := dMeet (E.d p.1) (E.d p.2)
  let io := outs.flatMap fun a => (ins.filter (· != a)).map fun b => (a, b)
  let oo := outs.flatMap fun a => (outs.filter (a < ·)).map fun b => (a, b)
  ((io.find? fun p => meet p && !dSame (E.d p.1) (E.d p.2)).orElse fun _ =>
    (oo.find? meet).orElse fun _ =>
      io.find? fun p => dSame (E.d p.1) (E.d p.2) && !inPlaceOk E.w p.2).map fun p => max p.1 p.2

/-- The checks of R428 in order. -/
def dataBad (E : DEnv) : Option Exc :=
  let r (f : Nat) := iF E.w f
  match formatBad E with
  | some f => some ⟨0x21, 0, r f, 0⟩
  | none => match countBad E with
    | some f => some ⟨0x20, 0, r f, 0⟩
    | none => match shapeBad E with
      | some c => some ⟨0x22, 0, c, 0⟩
      | none => match paramBad E with
        | some p => some ⟨0x24, 0, p, 0⟩
        | none => (overlapBad E).map fun f => ⟨0x23, 0, r f, 0⟩

end Sys2Proof.Machine
end

