-- ==== Sys2Proof/Machine/LntMem.lean ====
section
/-! DEFINITION. A Lantern's memory requests (R345, R346, R386, R416, R436), its write journal (R361 to R365), and the draining
of a context (R343, R352). -/

namespace Sys2Proof.Machine

def State.modLnt (s : State) (j : Nat) (f : Lantern → Lantern) : State := s.setLnt j (f (s.lnt j))
def State.modCtx (s : State) (j c : Nat) (f : Ctx → Ctx) : State := s.setCtx j c (f (s.ctx j c))

/-- CLK_TS ticks of `n` CLK_NMC cycles at the divider in force (R36, R39). -/
def State.cyc (s : State) (n : Nat) : Nat := n * (if s.bit F.CLOCK_STATUS.NMC_HALF then 4 else 2)

/-- The cluster the network-on-chip routes a line to (R80, R81); K0 for a plot that is FREE. -/
def State.siteOf (s : State) (pa : Nat) : Nat :=
  let p := s.plot (pa >>> 28 % 4096)
  if p.state == .free then 0 else (s.place (pa % 2 ^ 43) p).1

/-! ### Requests -/

def LKind.isJournal : LKind → Bool
  | .journal => true
  | .code => false | .poll => false | .sema _ => false | .posted _ => false | .data _ _ => false | .out _ => false
  | .contrib _ => false

/-- A request before it has a tag. -/
def LReq.new (ctx : Nat) (kind : LKind) (op pa len cls : Nat) : LReq :=
  ⟨0, 0, 0, ctx, kind, op, pa, len, cls, 0, 0, 0, [], 0, .sent, 0, 0⟩

/-- Sends a request that has its tag and GEN: by the direct path or Lj to the doorkeeper of its first line's cluster, checked,
shaped and gated under the job's tenant (R345), or, for a journal write, entered without the access check, charges or policing
(R346). -/
def State.transmit (s : State) (j : Nat) (q : LReq) : State :=
  let (fn, t) := match (s.ctx j q.ctx).job with | some b => (b.fn, b.tenant) | none => (0, 0)
  let h := mkHdr q.op q.len q.tag q.gen q.cls false q.pa (s.nowAt j % 2 ^ 48) q.opnd q.word q.cfmt
  let m : Msg := ⟨h, q.beats, q.trailer⟩
  let k := s.siteOf q.pa
  let why : Purpose := .lantern q.ctx q.tag q.gen
  if q.kind.isJournal then
    let f := s.mkFlight k (27 + j) fn (some t) why m
    ((s.addFlight { f with charged := (path t q.cls (27 + j)).map Bkt.id }).takeCredit k (27 + j) m).evt j 0x0E 0
  else s.accept k (27 + j) fn (some t) why m

/-- Lj has the credits a request needs at the doorkeeper it goes to (R146); a job's image is read from 8 ticks after its dispatch (R528). -/
def State.mayTransmit (s : State) (j : Nat) (q : LReq) : Bool :=
  (q.kind != .code || decide ((s.ctx j q.ctx).ready ≤ s.now)) && s.hasCredit (s.siteOf q.pa) (27 + j) (mkHdr q.op q.len 0 0 q.cls false q.pa 0 0 0 0) q.beats

/-- Gives a queued request the lowest free tag of its path with the tag's next GEN (R124, R125, R345) and sends it; it stays
queued when the path has no free tag, or its doorkeeper no credits. -/
def State.tryIssue (s : State) (j : Nat) (r : LReq) : State :=
  let l := s.lnt j
  let p := if s.siteOf r.pa == j then 0 else 1
  match leastBelow 4096 fun t => !(l.reqs.any fun x => x.path == p && x.tag == t) with
  | none => s
  | some t =>
    if !s.mayTransmit j r then s else
    let g := (tget 0 l.gens (p * 4096 + t) + 1) % 16
    let q : LReq := { r with path := p, tag := t, gen := g }
    (s.setLnt j { l with reqs := l.reqs ++ [q], queue := l.queue.erase r,
                         gens := tset 0 l.gens (p * 4096 + t) g }).transmit j q

/-- Sends the queued requests for which there are tags. -/
def State.pump (s : State) (j : Nat) : State := (s.lnt j).queue.foldl (fun s r => s.tryIssue j r) s

/-- Asks for memory requests in order. -/
def State.ask (s : State) (j : Nat) (rs : List LReq) : State :=
  (s.modLnt j fun l => { l with queue := l.queue ++ rs }).pump j

/-- Sends a request again with a new GEN (R436, R506), once there are credits for it. -/
def State.resend (s : State) (j : Nat) (q : LReq) : State :=
  if !s.mayTransmit j q then s else
  let key := q.path * 4096 + q.tag
  let g := (tget 0 (s.lnt j).gens key + 1) % 16
  let q' : LReq := { q with gen := g, st := .sent }
  (s.modLnt j fun l => { l with reqs := l.reqs.map fun x => if x == q then q' else x, gens := tset 0 l.gens key g }).transmit j q'

/-- The request of a path and tag. -/
def Lantern.req (l : Lantern) (path tag : Nat) : Option LReq := l.reqs.find? fun q => q.path == path && q.tag == tag

/-- A request is done: its tag is free. -/
def State.freeTag (s : State) (j : Nat) (q : LReq) : State :=
  (s.modLnt j fun l => { l with reqs := l.reqs.filter fun x => !(x.path == q.path && x.tag == q.tag) }).pump j

/-- Changes a request in place. -/
def State.setReq (s : State) (j : Nat) (q q' : LReq) : State :=
  s.modLnt j fun l => { l with reqs := l.reqs.map fun x => if x.path == q.path && x.tag == q.tag then q' else x }

/-- Reads of the given lines (R100): one RD for each run of consecutive lines of one group. -/
def readsOf (ctx : Nat) (kind : LKind) (cls : Nat) (lines : List Nat) : List LReq :=
  (lineRuns lines).map fun r => LReq.new ctx kind opRD (r.1 * 64) r.2 cls

/-- PA[39:6] of a line number. -/
def paField (line : Nat) : Nat := line % 2 ^ 34

/-! ### Exceptions (R419 to R422, R441, R508) -/

/-- The RESULT of an exception code. -/
def excResult (e : Exc) : Nat :=
  let c := e.code
  if c = 0x05 ∨ (0x25 ≤ c ∧ c ≤ 0x29) ∨ (0x32 ≤ c ∧ c ≤ 0x35) then rCHECK
  else if c = 0x0C then rDENIED
  else if c = 0x0D ∨ c = 0x0E then e.mres
  else if c = 0x0F then rTIMEOUT
  else if c = 0x11 then rABORTED
  else if c = 0x31 then rRETRY
  else rUNSUP

/-- The detail word (R421). -/
def excDetail (e : Exc) (ip depth : Nat) : W64 :=
  BitVec.ofNat 64 (e.code <<< 56 + (e.mres % 16) <<< 52 + (e.sub % 16) <<< 48 + (ip % 1024) <<< 38 + depth <<< 34 + e.info % 2 ^ 34)

/-- The failure of an access with a RESULT: POISONED or MEM (R358, R386, R410, R414, R437, R438). -/
def memExc (result sub line : Nat) : Exc := ⟨if result = rPOISONED then 0x0E else 0x0D, result, sub, paField line⟩

/-! ### Draining (R352, R419) -/

/-- The role of an array: 0 ACTIVE, 1 SPARE, 2 STANDING_IN, 3 UNDER_TEST, 4 FENCED. -/
def State.role (s : State) (j a : Nat) : Nat := s.rd F.LNT_ARRAY.ROLE j a
def State.setRole (s : State) (j a r : Nat) : State := s.wr F.LNT_ARRAY.ROLE r j a

/-- The spare that ran a replay returns (R320). -/
def State.replayOver (s : State) (j a : Nat) : State :=
  onlyIf (s.role j a == 3 && !((s.lnt j).tests.any fun t => t.arr == a && t.running)) (s.setRole j a 1) s

/-- The array a chunk's replay runs on. -/
def Chunk.replayOn (ch : Chunk) : Option Nat := match ch.st with
  | .replay a _ => some a
  | .index => none | .fetch => none | .compute => none | .verdict _ => none | .collect _ => none | .writing => none

/-- The arrays the replays of a context run on. -/
def Ctx.replayArrs (x : Ctx) : List Nat := match x.op with
  | .data d => d.chunks.filterMap Chunk.replayOn
  | .none => [] | .wait _ => [] | .load _ => [] | .sema _ => [] | .full _ => [] | .fence _ _ => [] | .test _ => []

/-- Posy entries that a failed or aborted COLLECT holds return to OPEN (R498). -/
def State.releaseHeld (s : State) (j : Nat) (es : List Nat) : State :=
  let p := tget Posy.blank s.posies j
  { s with posies := tset Posy.blank s.posies j { p with
      ents := p.ents.map fun e => if es.contains e.1 then (e.1, e.2.map fun x => { x with held := false }) else e } }

/-- The Posy entries the chunks of a context hold. -/
def Ctx.heldEnts (x : Ctx) : List Nat := match x.op with
  | .data d => d.chunks.flatMap (·.held)
  | .none => [] | .wait _ => [] | .load _ => [] | .sema _ => [] | .full _ => [] | .fence _ _ => [] | .test _ => []

/-- The GENs of host-window tags after the replies of these reads are discarded by generation (R126, R545). -/
def stale (g : Tbl Nat) (hs : List HostRd) : Tbl Nat := hs.foldl (fun g h => tset 0 g h.tag ((tget 0 g h.tag + 1) % 16)) g

/-- The job of a context ends at once (R352, R419): uncommitted work is discarded, requests not sent are forgotten, and the
replies of those outstanding will be dropped by generation; journal writes go on. END is at least a tick after START (R47: DESIGN CHOICE,
notes/assumptions/51, for a job whose first instruction fails as it issues). -/
def State.drainCtx (s : State) (j c : Nat) (fin : JobFin) : State :=
  let x := s.ctx j c
  let fin : JobFin := { fin with at_ := if x.prog.n = 0 then fin.at_ else max fin.at_ ((x.job.map (·.start + 1)).getD 0) }
  let s := x.replayArrs.foldl (fun s a => s.replayOver j a) (s.releaseHeld j x.heldEnts)
  let mine (q : LReq) := q.ctx == c && !q.kind.isJournal
  s.modLnt j fun l => { l with
    queue := l.queue.filter fun q => !mine q
    hqueue := l.hqueue.filter (·.ctx != c)
    hgens := stale l.hgens (l.hreqs.filter (·.ctx == c))
    gens := (l.reqs.filter mine).foldl (fun g q => tset 0 g (q.path * 4096 + q.tag) ((tget 0 g (q.path * 4096 + q.tag) + 1) % 16)) l.gens
    -- a request that waits for a resend has no reply to come
    reqs := l.reqs.filter fun q => !(mine q && q.st != .sent)
    ctxs := lset Ctx.blank l.ctxs c { x with st := .draining, op := .none, posted := [], pfail := none, fin := some fin, hold := false, abort := false } }

/-- An instruction fails (R419). -/
def State.failAt (s : State) (j c : Nat) (e : Exc) (n ip depth : Nat) : State :=
  s.drainCtx j c ⟨excResult e, excDetail e ip depth, n % 65536, s.nowAt j, false, false⟩

/-- The instruction in progress fails: the one issued last, at the context's IP. -/
def State.failInstr (s : State) (j c : Nat) (e : Exc) : State :=
  let p := (s.ctx j c).prog
  s.failAt j c e (p.n - 1) p.ip p.calls.length

/-! ### The write journal (R361 to R365) -/

/-- Maximal runs of constant stride over ascending lines (R363): first line, count, and stride, as far as the signed 24 bits of STRIDE
reach (R362). -/
def strideRuns (lines : List Nat) : List (Nat × Nat × Nat) :=
  let step (a : List (Nat × Nat × Nat)) (l : Nat) : List (Nat × Nat × Nat) := match a with
    | [] => [(l, 1, 1)]
    | (f, n, d) :: t =>
      if n = 1 ∧ l - f < 2 ^ 23 then (f, 2, l - f) :: t
      else if l = f + n * d ∧ n < 1024 then (f, n + 1, d) :: t
      else (l, 1, 1) :: (f, n, d) :: t
  (lines.foldl step []).reverse

/-- A journal record (R362). -/
def jrnRecord (stamp arrays j c : Nat) (replayed last : Bool) (ring seq instr line count stride m stream : Nat) (partial_ : Bool) :
    BitVec 256 :=
  BitVec.ofNat 256 ((stamp % 2 ^ 48) <<< 208 + arrays <<< 156 + j <<< 152 + c <<< 149 + replayed.toNat <<< 148 +
    last.toNat <<< 147 + ring <<< 134 + (seq % 65536) <<< 118 + (instr % 65536) <<< 102 + (line % 2 ^ 38) <<< 64 +
    count <<< 53 + (stride % 2 ^ 24) <<< 29 + (m % 65536) <<< 13 + stream <<< 9 + partial_.toNat <<< 8)

/-- One record goes to the journal of Lantern `j` (R361, R364): a WR of its whole line, with the record already in it. -/
def State.journalRec (s : State) (j c : Nat) (r : BitVec 256) : State :=
  let i := s.rd F.LNT_JRNL.NEXT j
  let l := s.lnt j
  let pa := (0xFFA + j / 4) <<< 28 + (j % 4) <<< 26 + 64 * (i / 2)
  -- the other record of the line: of this turn of the ring, or of the last one
  let old : LineData := if s.rd F.LNT_JRNL.WRAPS j = 0 then 0 else (s.blockRead pa).getD 0
  let line : LineData := if i % 2 = 0 then r.setWidth 512 ||| ((old.extractLsb' 256 256).setWidth 512 <<< 256)
    else (l.jline.extractLsb' 0 256).setWidth 512 ||| (r.setWidth 512 <<< 256)
  let i' := (i + 1) % 2097152
  let s := s.wr F.LNT_JRNL.NEXT i' j
  let s := if i' = 0 then s.incWrap F.LNT_JRNL.WRAPS j else s
  let jst := tset 0 l.jst i (s.nowAt j)
  let s := s.setLnt j { l with jline := line, jst := jst }
  let s := s.wr F.LNT_JRNL_OLDEST.STAMP (if s.rd F.LNT_JRNL.WRAPS j = 0 then tget 0 jst 0 else tget 0 jst i') j
  let s := s.modCtx j c fun x => { x with jrn := x.jrn + 1 }
  s.ask j [{ LReq.new c .journal opWR pa 1 0 with beats := [line] }]

/-- Journals the lines of a chunk by output stream (R362, R363, R365): (stream, lines) in ascending order. A fenced Lantern's
journal takes no new record (R664). -/
def State.journal (s : State) (j c : Nat) (arrays m : Nat) (replayed partial_ : Bool) (streams : List (Nat × List Nat)) : State :=
  if s.bit F.LNT_CTL.FENCED j then s else
  match (s.ctx j c).job with
  | none => s
  | some b =>
    let n := (s.ctx j c).prog.n - 1
    let rs := streams.flatMap fun e => (strideRuns e.2).map fun r => (e.1, r)
    (rs.zipIdx).foldl (fun s e =>
      let ((d, l, cnt, st), i) := e
      s.journalRec j c (jrnRecord (s.nowAt j) arrays j c replayed (i + 1 == rs.length) b.ring b.seq n l cnt st m d partial_)) s

end Sys2Proof.Machine
end

