-- ==== Sys2Proof/Machine/Sec.lean ====
section
/-! DEFINITION. Tenants, sessions, bindings and keys (chapter "Tenants, keys and the audit chain"). -/

namespace Sys2Proof.Machine

/-- SEC itself as the origin of a change. -/
def Origin.sec : Origin := Origin.core 0

/-- SEC runs; it restarts (R565, R705). -/
def State.secUp (s : State) : Bool := s.rd F.FW_STATE.STATE 0 == 2
def State.secRestarts (s : State) : Bool := s.rd F.FW_STATE.STATE 0 == 3

/-- A mailbox request is answered RETRY: while SEC restarts (R565), and in BOOT (R701). -/
def State.mbxRetry (s : State) : Bool := s.secRestarts || s.inBoot

/-! ### The mailbox (R602 to R605, R808) -/

/-- The byte-table key of byte `off` of function `f`'s mailbox window. -/
def mbxKey (f off : Nat) : Nat := 2 ^ 32 + f * 0x1000 + off

/-- The request in a mailbox. -/
def State.mbxReq (s : State) (f : Nat) : List Byte :=
  (List.range (s.rd F.MBX_CTL.LEN f)).map fun i => tget 0 s.bytes (mbxKey f (0x800 + i))

/-- The receiver of a function's mailbox replies. -/
def State.fnReceiver (s : State) (f : Nat) : Receiver :=
  ⟨if f = 0 then some 0 else (let b := tget ⟨false, 0, false, 0⟩ s.sec.binds (128 + f); if b.bound then some b.tenant else none),
    f != 0, false, false⟩

/-- SEC may take up a request of type `typ` (and command `cmd` with arguments `args` for a plain command) from function `f`
now: no request is ahead of it, and when the function's mailbox holds one, it is this. -/
def State.mbxOk (s : State) (f typ cmd : Nat) (args : List Byte) : Bool :=
  if s.bit F.MBX_STATUS.BUSY f then
    s.sec.mbxQ.head? == some f && (let r := s.mbxReq f
      r.headD 0 == BitVec.ofNat 8 typ && (typ != 0x10 || (r.getD 1 0 == BitVec.ofNat 8 cmd && (r.drop 8).take args.length == args)))
  else s.sec.mbxQ.isEmpty

/-- Posts a reply in function `f`'s mailbox. -/
def State.mbxPost (s : State) (f : Nat) (sess : Option Nat) (typ cmd result detail : Nat) (data : List Byte) : State :=
  let body := [BitVec.ofNat 8 typ, BitVec.ofNat 8 cmd, BitVec.ofNat 8 detail, 0, 0, 0, 0, 0] ++ data.take 1016
  let s := ((s.wr F.MBX_STATUS.BUSY 0 f).raise F.MBX_STATUS.DONE f).wr F.MBX_STATUS.RSP_LEN body.length f
  let s := s.wr F.MBX_STATUS.STATUS (s.attnFor (s.fnReceiver f) * 16 + result) f
  let s : State := { s with
    bytes := (body.zipIdx).foldl (fun t e => tset 0 t (mbxKey f (0xC00 + e.2)) e.1) s.bytes,
    sec := { s.sec with mbxQ := s.sec.mbxQ.filter (· != f) } }
  (s.send (.mailbox f sess result detail data)).evt 13 0x07 0

/-- SEC serves a command, unless it needs an audit entry of its sender for which there is no place: then it waits in the mailbox (R598). -/
def State.served (s : State) (run : State → State) : State :=
  if !s.auditFull then run s else
  let t := run { s with endpoint := [], sec := { s.sec with auditQ := [] } }
  if t.sec.auditQ.isEmpty then { t with endpoint := s.endpoint, sec := { t.sec with auditQ := s.sec.auditQ } } else s

/-- Serves a plain command of function `f`: RETRY while SEC restarts (R565), else the answer and state of `run`. -/
def State.serve (s : State) (f cmd : Nat) (args : List Byte) (run : State → State × Nat × Nat × List Byte) : State :=
  if !s.mbxOk f 0x10 cmd args then s
  else if s.mbxRetry then s.mbxPost f none 0x10 cmd rRETRY 0x08 []
  else if !s.secUp then s
  else s.served fun s =>
    let (t, r, d, data) := run s
    t.mbxPost f none 0x10 cmd r d data

/-- Session `i`. -/
def State.session (s : State) (i : Nat) : Option Session := tget none s.sec.sessions i

/-- The session identifier that a secured message in a mailbox names (DSP0277). -/
def State.mbxSession (s : State) (f : Nat) : W32 := BitVec.ofNat 32 (leNat (((s.mbxReq f).drop 8).take 4))

/-- The function in whose mailbox a message of a session waits (R566): that whose message names the session, if any, else the one that
formed it. -/
def State.sessFn (s : State) (x : Session) : Nat := match s.sec.mbxQ with
  | f :: _ => if s.mbxSession f == x.id then f else x.fn
  | [] => x.fn

/-- A VF's mailbox carries only sessions of the tenant bound to the VF (R566). -/
def State.sessBarred (s : State) (f : Nat) (x : Session) : Bool := f != 0 && (s.fnReceiver f).tenant != some x.tenant

/-- Ticks of twice the heartbeat period of 10 s (R559; DSP0274, notes/assumptions/17). -/
def beatTicks : Nat := 24000000000

/-- Serves a tenant's command in session `i` (R564, R566, R602), which keeps its session alive as every message of it does: the reply
travels in the session, so the mailbox holds ciphertext, which is left free (notes/assumptions/8). -/
def State.serveT (s : State) (i cmd : Nat) (run : State → Session → State × Nat × Nat × List Byte) : State :=
  match s.session i with
  | none => s
  | some x =>
    let f := s.sessFn x
    if !s.mbxOk f 0x02 cmd [] then s
    else if s.mbxRetry then s.mbxPost f (some i) 0x02 0 rRETRY 0x08 []
    else if !s.secUp then s
    else if s.sessBarred f x then s.mbxPost f none 0x02 0 rDENIED 0x02 []
    else s.served fun s =>
      let s : State := { s with sec := { s.sec with sessions := tset none s.sec.sessions i (some { x with beat := s.now + beatTicks }) } }
      let (t, r, d, data) := run s x
      let t : State := { t with free := t.free + 1 }
      let out := Config.spdmReply t.free ([BitVec.ofNat 8 cmd, BitVec.ofNat 8 d, BitVec.ofNat 8 r] ++ data) []
      { t.mbxPost f (some i) 0x02 0 r d out with out := t.out ++ [.mailbox f (some i) r d data] }

/-! ### Sessions (R561 to R566) -/

def State.tenant (s : State) (t : Nat) : Option Tenant := tget none s.sec.tenants t

/-- A tenant exists: tenant 0 always does (R561). -/
def State.tenantExists (s : State) (t : Nat) : Bool := t == 0 || (s.tenant t).isSome

/-- Sessions of a tenant. -/
def State.sessionsOf (s : State) (t : Nat) : Nat := (s.sec.sessions.filter fun e => e.2.any (·.tenant == t)).length

/-- A tenant has a session bound at SEC; tenant 0 needs none (R72, R96). -/
def State.hasSession (s : State) (t : Nat) : Bool := t == 0 || decide (0 < s.sessionsOf t)

/-- The plots of a tenant in one state move to another in one step (R564, R72). -/
def State.turnPlots (s : State) (t : Nat) (a b : PlotState) : State :=
  (s.plots.filter fun e => e.2.owner == t && e.2.state == a).foldl (fun s e => s.change e.1 (.turn a b)) s

/-- Session `i` ends (R564): the tenant's last session seals its OPEN plots. -/
def State.endSession (s : State) (o : Origin) (i : Nat) : State :=
  match s.session i with
  | none => s
  | some x =>
    let s : State := { s with sec := { s.sec with sessions := tset none s.sec.sessions i none } }
    let s := s.audit o.kind o.id 4 i 1 0
    if s.sessionsOf x.tenant = 0 then s.turnPlots x.tenant .openPlot .sealed else s

/-! ### Measurements (R560) -/

/-- The record key (R696). -/
def State.recKey (s : State) : List Byte := kdf (leBytes s.sec.seed 32) (ascii "MYR-REC") 384

/-- The 256 bytes of a configuration record, with its HMAC (R696, R745). -/
def State.cfgBytes (s : State) (c : FwCfg) : List Byte :=
  let n (l : List Nat) (w : Nat) : List Byte := l.flatMap fun v => leBytes (BitVec.ofNat 64 v) w
  let pad (m : Nat) (l : List Byte) : List Byte := l ++ List.replicate (m - l.length) 0
  let body := pad 208 (pad 128 (pad 36 (n [0x43464731, c.rseq] 4 ++ n c.spares 1 ++ n c.caps 1 ++ n [c.rounds] 1) ++ n c.minSvn 2) ++
    n c.snf 4)
  body ++ hmac s.recKey body

/-- The registers that hold the Snuffer's limits (R745). -/
def snfLimits : List RegName := [.SNF_VLOGIC, .SNF_VNMC, .SNF_VPHY, .SNF_MISC, .SNF_IMAX, .SNF_TCEIL, .SNF_IMAX_STK]

/-- What block 20 measures for a tenant: its bound targets, the offers to it, and its OPEN or SEALED plots with their KEYSLOT, each list
in ascending order, two bytes a number (the order is a DESIGN CHOICE, notes/assumptions/44). -/
def State.tenantHolds (s : State) (t : Nat) : List Byte :=
  let two (v : Nat) : List Byte := leBytes (BitVec.ofNat 16 v) 2
  let targets (p : Bind → Bool) : List Nat := upTo 256 fun c => p (tget ⟨false, 0, false, 0⟩ s.sec.binds c)
  (targets fun b => b.bound && b.tenant == t).flatMap two ++ [0xFF, 0xFF] ++
    (targets fun b => b.offered && b.offerTenant == t).flatMap two ++ [0xFF, 0xFF] ++
    (upTo 4096 fun i => (s.plot i).owner == t && ((s.plot i).state == .openPlot || (s.plot i).state == .sealed)).flatMap fun i =>
      two i ++ two (s.plot i).keyslot

/-- A measurement block (R560); block 20 is that of the tenant in whose session it is asked for. What the bytes of blocks 16 to 20 are in
order is a DESIGN CHOICE (notes/assumptions/44). -/
def State.measure (s : State) (sess : Option Nat) (i : Nat) : Option (List Byte) :=
  if i = 0 then none
  else if i ≤ 15 then some (leBytes (tget FwImg.blank s.fw.imgs (i - 1)).digest 48)
  else if i = 16 then some (sha384 (match s.fw.cfg with | some c => s.cfgBytes c | none => []))
  else if i = 17 then some (sha384 (snfLimits.flatMap fun r => leBytes (s.reg r) 4))
  else if i = 18 then some (leBytes (s.reg .GLOBAL_ID) 4 ++ leBytes (s.reg .GLOBAL_PROTO) 4)
  else if i = 19 then some (sha384 (leBytes (s.reg .AUDIT_SEQ) 8 ++ leBytes s.sec.head 48))
  else if i = 20 then sess.map fun t => sha384 (s.tenantHolds t)
  else none

/-- The blocks that SEC may return outside a session, or in a session of a tenant. -/
def State.measures (s : State) (sess : Option Nat) : List (Nat × List Byte) :=
  (List.range 21).filterMap fun i => (s.measure sess i).map fun b => (i, b)

/-- SEC has an identity (R558). -/
def State.hasId (s : State) : Bool := s.rd F.SEC_STATUS.ID == 1

/-- The error codes of SPDM (DSP0274): SessionLimitExceeded, which R563 names; Unspecified stands for those R558 and R562 leave open
(PRESUMED, notes/assumptions/8). -/
def spdmSessionLimit : Nat := 0x0A
def spdmUnspecified : Nat := 0x05

/-- KEY_EXCHANGE (R558, R562, R563, R564): a mutually authenticated exchange in function `f`'s mailbox; `digest` is that of the
requester's leaf key and `ok` whether authentication succeeds. -/
def execKeyExchange (f : FnIx) (digest : BitVec 384) (ok : Bool) (s : State) : Res :=
  if !s.mbxOk f 0x01 0 [] then .next s
  else if s.mbxRetry then .next (s.mbxPost f none 0x01 0 rRETRY 0x08 [])
  else if !s.secUp then .next s
  else
    let err (s : State) (r d code : Nat) : State :=
      let s : State := { s with free := s.free + 1 }
      s.mbxPost f none 0x01 0 r d (Config.spdmError s.free (s.mbxReq f) code)
    if !s.hasId then .next (err s rDENIED 0x07 spdmUnspecified) else
    match (s.sec.tenants.find? fun e => e.2.any (·.digest == digest)).map (·.1) with
    | none => .next (err s rOK 0 spdmUnspecified)
    | some t =>
      if !ok then .next (err s rOK 0 spdmUnspecified) else
      match leastBelow 64 fun i => (s.session i).isNone with
      | none => .next (err s rOK 0 spdmSessionLimit)
      | some i =>
        if 4 ≤ s.sessionsOf t then .next (err s rOK 0 spdmSessionLimit) else
        let (v, s) := s.fresh
        let x : Session := ⟨t, f, v.setWidth 32, v.extractLsb' 32 384, s.now + beatTicks⟩
        let s : State := { s with sec := { s.sec with sessions := tset none s.sec.sessions i (some x) } }
        let s := (s.audit 2 0 4 i 0 1).turnPlots t .sealed .openPlot
        let s : State := { s with free := s.free + 1 }
        .next (s.mbxPost f none 0x01 0 rOK 0 (Config.spdmReply s.free (s.mbxReq f) (s.measures none)))

/-- END_SESSION (R564). -/
def execEndSession (i : SessIx) (s : State) : Res :=
  .next (onlyIf (s.secUp && (s.session i).isSome) (s.endSession (match s.session i with
    | some x => Origin.sess x.tenant i | none => Origin.sec) i) s)

/-- SESSION_HEARTBEAT_EXPIRY (R564, R565): no heartbeat until the session's expiry; not while SEC restarts. -/
def execSessionHeartbeatExpiry (i : SessIx) (s : State) : Res :=
  .next (onlyIf (s.secUp && (s.session i).any fun x => decide (x.beat ≤ s.now)) (s.endSession Origin.sec i) s)

/-- The VERSION message: versions 1.2 and 1.3 (R559; its layout is DSP0274's, PRESUMED, notes/assumptions/8). -/
def spdmVersions : List Byte := [0x10, 0x04, 0, 0, 0, 2, 0, 0x12, 0, 0x13]

/-- The capability flags of R559 at DSP0274's places: CERT, CHAL, MEAS with signature, MEAS_FRESH, ENCRYPT, MAC, MUT_AUTH, KEY_EX, HBEAT,
KEY_UPD, CHUNK. -/
def spdmFlags : Nat := [1, 2, 4, 5, 6, 7, 8, 9, 13, 14, 17].foldl (fun a i => a + 2 ^ i) 0

/-- The CAPABILITIES message of a version: the flags and the data transfer size of 1,024 B (R559). The spec gives no time exponent and no
largest message: free. -/
def spdmCaps (v : Byte) (open_ : BitVec 1024) : List Byte :=
  [v, 0x61, 0, 0, 0, open_.setWidth 8, 0, 0] ++ leBytes (BitVec.ofNat 32 spdmFlags) 4 ++ leBytes (1024 : BitVec 32) 4 ++
    leBytes (open_.extractLsb' 8 32) 4

/-- The answer to an SPDM message (R559): versions, capabilities with the version the connection then has, ERROR VersionMismatch (0x41) for
another one; every other message has the standard's answer (notes/assumptions/8). -/
def State.spdmAnswer (s : State) (f : Nat) : State × List Byte :=
  let m := (s.mbxReq f).drop 8
  let v := m.headD 0
  let conn (n : Nat) (s : State) : State := { s with sec := { s.sec with conns := tset 0 s.sec.conns f n } }
  let has := tget 0 s.sec.conns f
  if m.getD 1 0 = 0x84 then (conn 0 s, spdmVersions)
  else if m.getD 1 0 = 0xE1 ∧ (v = 0x12 ∨ v = 0x13) then
    let (open_, s) := s.fresh
    (conn v.toNat s, spdmCaps v open_)
  else
    let s : State := { s with free := s.free + 1 }
    (s, if has ≠ 0 ∧ has ≠ v.toNat then Config.spdmError s.free (s.mbxReq f) 0x41
      else Config.spdmReply s.free (s.mbxReq f) (s.measures none))

/-- SPDM_REQUEST (R558 to R560, R602): an unsecured SPDM message waits in a mailbox; the responder answers it, with the measurements as they
stand; without an identity the answer is an ERROR message. -/
def execSpdmRequest (f : FnIx) (s : State) : Res :=
  if !(s.bit F.MBX_STATUS.BUSY f && s.mbxOk f 0x01 0 []) then .next s
  else if s.mbxRetry then .next (s.mbxPost f none 0x01 0 rRETRY 0x08 [])
  else if !s.secUp then .next s
  else
    .next (if s.hasId then
        let (s, reply) := s.spdmAnswer f
        s.mbxPost f none 0x01 0 rOK 0 reply
      else
        let s : State := { s with free := s.free + 1 }
        s.mbxPost f none 0x01 0 rDENIED 0x07 (Config.spdmError s.free (s.mbxReq f) spdmUnspecified))

/-- SECURED_MESSAGE (R566): a DSP0277 message waits in a mailbox; its first four bytes after the header name the session. On a
VF only sessions of the VF's tenant are served. -/
def execSecuredMessage (f : FnIx) (s : State) : Res :=
  if !(s.bit F.MBX_STATUS.BUSY f && s.mbxOk f 0x02 0 []) then .next s
  else if s.mbxRetry then .next (s.mbxPost f none 0x02 0 rRETRY 0x08 [])
  else if !s.secUp then .next s
  else
    let id := s.mbxSession f
    match s.sec.sessions.find? fun e => e.2.any (·.id == id) with
    | none => .next (s.mbxPost f none 0x02 0 rDENIED 0x02 [])
    | some (_, none) => .next (s.mbxPost f none 0x02 0 rDENIED 0x02 [])
    | some (i, some x) =>
      if s.sessBarred f x then .next (s.mbxPost f none 0x02 0 rDENIED 0x02 [])
      else
        let ses := tset none s.sec.sessions i (some { x with beat := s.now + beatTicks })
        let s' : State := { s with free := s.free + 1, sec := { s.sec with sessions := ses } }
        .next (s'.mbxPost f (some i) 0x02 0 rOK 0 (Config.spdmReply s.free (s.mbxReq f) (s'.measures (some x.tenant))))

/-! ### Key slots (R572 to R582) -/

def SlotState.code : SlotState → Nat
  | .free => 0 | .active => 1 | .rotating => 2 | .destroying => 3 | .faulty => 4

/-- The DETAIL of a key slot's audit entry: state, owner, half in use, both key-check values (R593; the places are a DESIGN
CHOICE, notes/assumptions/14). -/
def KeySlot.detail (k : KeySlot) : BitVec 256 :=
  let kc (h : Option (BitVec 512 × Byte)) : Nat := (h.map (·.2.toNat)).getD 0
  BitVec.ofNat 256 (k.state.code + k.owner <<< 8 + k.cur.toNat <<< 16 + kc k.half0 <<< 24 + kc k.half1 <<< 32)

/-- Changes a key slot, with its audit entry. -/
def State.setSlot (s : State) (o : Origin) (i : Nat) (k : KeySlot) : State :=
  { s with sec := { s.sec with slots := tset KeySlot.blank s.sec.slots i k } }.audit o.kind o.id 2 i (s.slot i).state.code k.state.code
    k.detail

/-- The key-check value of a key pair in half `e` of a slot (R580). -/
def kcValue (key : BitVec 512) (e : Bool) (other last : Option Byte) : Byte :=
  let v := (sha384 (ascii "MYR-KC" ++ leBytes key 64 ++ [BitVec.ofNat 8 e.toNat])).headD 0
  let bad (b : Byte) : Bool := other == some b || last == some b
  if !bad v then v else if !bad (v + 1) then v + 1 else v + 2

/-- A slot with a key pair put in half `e` (R576, R584). -/
def KeySlot.load (k : KeySlot) (e : Bool) (key : BitVec 512) : KeySlot :=
  let other := (k.half (!e)).map (·.2)
  let h := some (key, kcValue key e other k.lastKc)
  if e then { k with half1 := h } else { k with half0 := h }

/-- The key pair that every cluster's key store holds for half `e` of slot `i` (R574), but for a copy that KEY_COPY_REPAIR finds to differ. -/
def State.keyStore (s : State) (_k : Cluster) (i : Nat) (e : Bool) : Option (BitVec 512) := ((s.slot i).half e).map (·.1)
/-- SEC's own copy of it, wrapped under the seal key (R574). -/
def State.sealedKey (s : State) (i : Nat) (e : Bool) : Option (List Byte) :=
  ((s.slot i).half e).map fun h => kwWrap (leBytes s.sec.sealKey 32) (leBytes h.1 64)

/-- Slots a tenant owns (R576). -/
def State.slotsOf (s : State) (t : Nat) : List Nat :=
  upTo 272 fun i => i != 0 && (s.slot i).state != .free && (s.slot i).owner == t

/-- The slot a new key of tenant `t` goes to, if any (R576, R577). -/
def State.slotFor (s : State) (t : Nat) : Option Nat :=
  if 8 ≤ (s.slotsOf t).length then none else leastBelow 256 fun i => i != 0 && (s.slot i).state == .free

/-- Puts a new key of tenant `t` in a slot (R576). -/
def State.newKey (s : State) (o : Origin) (i t : Nat) (key : BitVec 512) : State :=
  s.setSlot o i { ({ s.slot i with state := .active, owner := t, cur := false } : KeySlot).load false key with state := .active }

/-- A tenant record changes its allocation slot, with the audit entry (R596). -/
def State.setAlloc (s : State) (o : Origin) (t : Nat) (v : Option Nat) : State := match s.tenant t with
  | none => s
  | some x => onlyIf (x.allocSlot != v)
      ({ s with sec := { s.sec with tenants := tset none s.sec.tenants t (some { x with allocSlot := v }) } }.audit o.kind o.id 5 t
        (x.allocSlot.getD 0) (v.getD 0)) s

/-- Tenants whose allocation slot is a given one take another. -/
def State.moveAlloc (s : State) (slot : Nat) (v : Option Nat) : State :=
  (s.sec.tenants.filter fun e => e.2.any (·.allocSlot == some slot)).foldl
    (fun (s : State) (e : Nat × Option Tenant) => s.setAlloc Origin.sec e.1 v) s

/-- The tenant's allocation slot, generated when it has none (R577, R805); one that is being destroyed is still given (DESIGN CHOICE,
notes/assumptions/36: the spec says nothing of it). -/
def State.allocSlotOf (s : State) (t : Nat) : Option Nat × State :=
  if t = 0 then (some s.sec.opSlot, s) else
  match s.tenant t with
  | none => (none, s)
  | some x =>
    match x.allocSlot with
    | some i => (some i, s)
    | none =>
      match s.slotFor t with
      | none => (none, s)
      | some i =>
        let (key, s) := s.draw
        (some i, (s.newKey Origin.sec i t key).setAlloc Origin.sec t (some i))

/-- Plots that name a slot, but FREE ones and those whose own FREE is pending (R578). -/
def State.naming (s : State) (slot : Nat) : List (Nat × Plot) :=
  s.plots.filter fun e => e.2.keyslot == slot && e.2.state != .free && !(e.2.state == .quarantine && !e.2.next)

/-- A function's ring slot is the slot (R578, R805). -/
def State.ringNames (s : State) (slot : Nat) : Bool := slot != 0 && s.sec.ringSlot.any fun e => e.2 == slot

/-- SEC begins to destroy a slot (R578). -/
def State.destroySlot (s : State) (o : Origin) (slot : Nat) : State := s.setSlot o slot { s.slot slot with state := .destroying }

/-! ### Rotation (R583 to R588) -/

/-- The rings whose function's ring slot is the slot, ascending. -/
def State.ringsUnder (s : State) (slot : Nat) : List Nat :=
  upTo 8192 fun r => s.ringSlotOf (r / 64) == slot && slot != 0

/-- The next place of a rotation after plot `i` (R584): the next covered plot, else the ring areas. -/
def State.rotNext (s : State) (slot from_ : Nat) : Nat :=
  match s.plots.find? fun e => decide (from_ ≤ e.1) && e.2.keyslot == slot && e.2.rotating && !(e.2.state == .quarantine && !e.2.next) with
  | some e => e.1
  | none => 0xFFE

/-- The rotation journal's record (R587). -/
def State.rotRecord (s : State) (r : Rotation) : LineData :=
  let b (v n : Nat) := leBytes (BitVec.ofNat (8 * n) v) n
  let body := b 0x524F5431 4 ++ b r.rseq 4 ++ b r.slot 2 ++ b (!r.old).toNat 1 ++ b 0 1 ++ b r.plot 2 ++ b r.wm 2 ++
    b (r.freed.getD 0xFFFF) 2 ++ b 0 6 ++ b s.now 8 ++ b 0 28
  lineOf (body ++ leBytes (crc32c body) 4)

/-- Writes both copies of the rotation journal (R587). -/
def State.rotJournal (s : State) (r : Rotation) : State :=
  let r := { r with rseq := (s.sec.rotSeq + 1) % 2 ^ 32 }
  let base := 0xFFD <<< 28 + 0x8000000
  let s := (s.blockWrite base (s.rotRecord r)).blockWrite (base + 0x100) (s.rotRecord r)
  { s with sec := { s.sec with rotation := some r, rotSeq := r.rseq } }

/-- A rotation of a slot starts (R583, R584 steps 1 and 2). -/
def State.startRotation (s : State) (o : Origin) (slot : Nat) (freed : Option Nat) : State :=
  let k := s.slot slot
  let e := k.cur
  let (key, s) := s.draw
  let k := { k.load (!e) key with state := .rotating }
  let s := s.setSlot o slot k
  let (nk, nkc) := (k.half (!e)).getD (0, 0)
  let covered := (s.naming slot).map (·.1)
  let s := covered.foldl (fun s i => s.change i (.epoch slot !e)) s
  let s : State := { s with
    fills := s.fills.map fun x => match x.2 with
      | some f => if (if 4096 ≤ x.1 then s.ringSlotOf (x.1 - 4096) == slot else covered.contains x.1) then
          (x.1, some { f with wm := 0, key2 := nk, kc2 := nkc }) else x
      | none => x,
    hist := { s.hist with marks := s.hist.marks ++ [(1, slot, 0)] } }
  s.commitHist.rotJournal ⟨slot, e, freed, covered.headD 0xFFE, 0, 0, 0⟩

/-- What the FREE of a plot has SEC do (R74, R578): the slot destroyed, rotated, or the FREE waiting. -/
def State.keyAction (s : State) (i : Nat) : State :=
  let slot := (s.plot i).keyslot
  let report (s : State) : State := { s with quar := match tget none s.quar i with
    | some q => tset none s.quar i (some { q with keyDone := true })
    | none => s.quar }
  if slot = s.sec.opSlot then report s
  else if (s.slot slot).state == .destroying then s
  else if (s.naming slot).isEmpty && !s.ringNames slot then s.destroySlot Origin.sec slot
  else match s.sec.rotation with
    | some _ => { s with sec := { s.sec with waitFrees := s.sec.waitFrees ++ [i] } }
    | none => s.startRotation Origin.sec slot (some i)

/-- SEC reports the key action of every FREE that waits on a destroyed slot (R578). -/
def State.reportSlot (s : State) (slot : Nat) : State :=
  { s with quar := s.quar.map fun e => match e.2 with
    | some q => if (s.plot e.1).keyslot == slot then (e.1, some { q with keyDone := true }) else e
    | none => e }

/-- The rotation ends (R584 step 4): the old half zeroed, ROTATING cleared, the slot ACTIVE; the FREE that began it is
reported, and FREEs that waited are taken up. -/
def State.endRotation (s : State) (r : Rotation) : State :=
  let k := s.slot r.slot
  let waiting := s.sec.waitFrees
  let gone := (k.half r.old).map (·.2)
  let k := { (if r.old then { k with half1 := none } else { k with half0 := none }) with
    state := .active, cur := !r.old, lastKc := gone }
  let s := s.setSlot Origin.sec r.slot k
  let rotated := (s.plots.filter fun e => e.2.keyslot == r.slot && e.2.rotating).map (·.1)
  let done := (s.naming r.slot).map (·.1)
  let s := rotated.foldl (fun s i => s.change i (.rotated r.slot)) s
  let s : State := { s with
    fills := s.fills.map fun x => match x.2 with
      | some f => if f.e == r.old && (if 4096 ≤ x.1 then s.ringSlotOf (x.1 - 4096) == r.slot else rotated.contains x.1 && done.contains x.1) then
          (x.1, some ⟨f.key2, !f.e, f.kc2, 0, 0, 0⟩) else x
      | none => x,
    quar := match r.freed with
      | some i => (match tget none s.quar i with
        | some q => tset none s.quar i (some { q with keyDone := true }) | none => s.quar)
      | none => s.quar,
    hist := { s.hist with marks := s.hist.marks.filter (· != (1, r.slot, 0)) },
    sec := { s.sec with rotation := none, waitFrees := [] } }
  waiting.foldl State.keyAction s.commitHist

/-- Re-encrypts one line (R585) of plot `i` of the rotating slot: the line as it is stored, with the errors it meets. -/
def State.reencrypt (s : State) (r : Rotation) (l : Loc) (i pa : Nat) (es : List ReadErr) : State :=
  let f := s.maintFlight pa l
  let stored := s.lineAt l i pa
  let newE := !r.old
  let put (s : State) (ln : Line) : State :=
    let (key, kc) := s.keyOf r.slot ln.e
    if ln.poisoned then s.putLine l i pa { s.poisonLine r.slot newE with md := mdOf true newE 1 }
    else if ln.kc != kc then
      ((s.incRc F.SEC_STATUS.KC_FAILS).pmuAes l.k l.pc 4 1).lineRecord f l pa sevRecoverable 0x08 3 0 rPOISONED ln.fmt
        (leBytes (BitVec.ofNat 16 r.slot) 2 ++ [BitVec.ofNat 8 ln.e.toNat])
    else if ln.e = newE then s
    else s.putLine l i pa (s.encLine r.slot newE 1 (ln.plain key pa))
  match s.decodeTries stored es 0 2 with
  | ((.fail, _, e), s) => (s.uncorrectable f l pa 3 e).putLine l i pa (s.poisonLine r.slot newE)
  | ((.line ln n, tries, _), s) => put (s.corrected f l pa 3 n tries ln.fmt) ln

/-- The number of the line of a plot that a location holds, if it holds one of plot `i`. -/
def State.addrIn (s : State) (i : Nat) (l : Loc) : Option Nat :=
  let (p, pa) := s.whose l
  if p = i then some pa else none

/-- The ring area the rotation takes next (R584): areas keep their place when a VF's binding changes meanwhile. -/
def State.rotRing (s : State) (r : Rotation) : Option Nat := (s.ringsUnder r.slot).find? fun g => decide (r.ring ≤ g)

/-- The place of the rotation covers address `pa` now: a chunk of a plot, or a ring area. -/
def State.rotCovers (s : State) (r : Rotation) (pa : Nat) : Bool :=
  if r.plot = 0xFFE then s.rotRing r == some (pa >>> 15 % 8192)
  else pa >>> 16 % 4096 == r.wm

/-- The ACTs of re-encrypting `n` lines from address `base` on: each is a read-modify-write in its PC by requester 39 (R222, R226, R585). -/
def State.lineActs (s : State) (base n : Nat) : State :=
  (List.range n).foldl (fun s i => let l := s.locRead (base + 64 * i) (s.plot (base >>> 28)); s.onAct l.k l.pc l.sid l.bank l.row 39) s

/-- A chunk of the rotation is re-encrypted (R585): its listed lines, and its queued writes under the old half. -/
def State.rotChunk (s : State) (r : Rotation) (errs : List (Fin 1024 × ReadErr)) : State :=
  let p := s.plot r.plot
  let area := (s.rotRing r).getD 0
  let base := r.plot <<< 28 + (if r.plot = 0xFFE then area <<< 15 else r.wm <<< 16)
  let s := s.lineActs base (if r.plot = 0xFFE then 512 else 1024)
  let err (pa : Nat) := (errs.filter fun e => base + 64 * e.1.val == pa).map (·.2)
  let listed := s.mem.filterMap fun e => let l := Loc.ofKey e.1
    (s.addrIn r.plot l).bind fun pa => if s.rotCovers r pa then some (l, pa) else none
  let met := errs.map fun e => let pa := base + 64 * e.1.val; (s.locate pa p, pa)
  let s := (listed ++ met).dedup.foldl (fun s x => s.reencrypt r x.1 r.plot x.2 (err x.2)) s
  let conv (w : WEnt) : WEnt :=
    if w.plot == r.plot && s.rotCovers r w.pa && w.slot == r.slot then { w with epoch := !r.old } else w
  let pcs := s.pcs.map fun e => (e.1, { e.2 with wq := e.2.wq.map conv })
  let fills := if r.plot = 0xFFE then
        (let fn := area / 64
         match tget none s.fills (4096 + fn) with
         | some f => if f.e == r.old then
             tset none s.fills (4096 + fn) (some { f with wm := area % 64 + 1 }) else s.fills
         | none => s.fills)
      else match tget none s.fills r.plot with
        | some f => if f.e == r.old then tset none s.fills r.plot (some { f with wm := r.wm + 1 }) else s.fills
        | none => s.fills
  { s with pcs := pcs, fills := fills }

/-- A write accepted under the old half has not reached its PC's queue yet: it is not granted, or waits for a read-modify-write there
(DEDUCED from R585). -/
def State.rotStragglers (s : State) (r : Rotation) : Bool :=
  s.flights.any fun f => f.plot == r.plot && f.slot == r.slot && f.epoch == r.old && opWrites (hOp f.hdr) &&
    (f.unissued || s.pcs.any fun e => e.2.waiting.any fun w => w.fl == f.id)

/-- A PC that holds lines of the rotation's place is frozen. -/
def State.rotFrozen (s : State) (r : Rotation) : Bool :=
  let p := s.plot r.plot
  (if p.wide then s.sites else [p.stack]).any fun k => s.anyPc k (· == .frozen)

/-- ROTATION_CHUNK_COMMIT (R584, R585, R587): the chunk commits and is journaled; the last one ends the rotation, as it ends by the slot's
destruction when no plot and no ring area is left under it (R578). Not while SEC restarts (R706). -/
def execRotationChunkCommit (errs : List (Fin 1024 × ReadErr)) (s : State) : Res :=
  match s.sec.rotation with
  | none => .next s
  | some r =>
    if !s.secUp || (s.slot r.slot).state != .rotating || s.rotStragglers r || s.rotFrozen r then .next s
    else if (s.naming r.slot).isEmpty && !s.ringNames r.slot && s.plots.any (fun e => e.2.keyslot == r.slot && e.2.rotating) then .next (s.destroySlot Origin.sec r.slot)
    else
    let p := s.plot r.plot
    if r.plot = 0xFFE then
      match s.rotRing r with
      | none => .next (s.endRotation r)
      | some g =>
        let r' : Rotation := { r with wm := r.wm + 1, ring := g + 1 }
        let s := (s.rotChunk r errs).rotJournal r'
        .next (match s.rotRing r', s.sec.rotation with
          | none, some q => s.endRotation q
          | none, none => s
          | some _, _ => s)
    else if p.keyslot != r.slot || !p.rotating || (p.state == .quarantine && !p.next) then
      .next { s with sec := { s.sec with rotation := some { r with plot := s.rotNext r.slot (r.plot + 1), wm := 0 } } }
    else
      let s := s.rotChunk r errs
      let r' : Rotation := if r.wm + 1 < 4096 then { r with wm := r.wm + 1 } else { r with plot := s.rotNext r.slot (r.plot + 1), wm := 0 }
      let s := s.rotJournal r'
      .next (if r'.plot = 0xFFE ∧ (s.ringsUnder r.slot).isEmpty then
        match s.sec.rotation with | some q => s.endRotation q | none => s
      else s)

/-- SLOT_DESTROY_DONE (R578): both halves are zeroed everywhere; the slot becomes FREE and the FREEs that wait on it are
reported. A rotation of the slot ends with it, and the history no longer has it begun (R589). -/
def execSlotDestroyDone (slot : Fin 272) (s : State) : Res :=
  let k := s.slot slot
  if k.state != .destroying || !s.secUp then .next s else
  let last := (k.half k.cur).map (·.2)
  let ends := s.sec.rotation.any (·.slot == slot.val)
  let s := s.setSlot Origin.sec slot { KeySlot.blank with lastKc := last, diffs := k.diffs }
  let s : State := (s.reportSlot slot).moveAlloc slot none
  let s : State := { s with sec := { s.sec with
    rotation := if ends then none else s.sec.rotation
    waitFrees := s.sec.waitFrees.filter fun i => (s.plot i).keyslot != slot.val } }
  let s : State := if ends then { s with hist := { s.hist with marks := s.hist.marks.filter (· != (1, slot.val, 0)) } }.commitHist else s
  match s.sec.rotation with
  | some _ => .next s
  | none => .next ((s.sec.waitFrees).foldl State.keyAction { s with sec := { s.sec with waitFrees := [] } })

/-- KEY_COPY_REPAIR (R582): SEC compares every cluster's copy of a half with its own; a difference is rewritten, and a second
one moves the key to a replacement slot, with every plot that names the old one and every access under way. The operator's key, which
ALLOC gives and PF0's rings use, is then in the replacement slot (DESIGN CHOICE, notes/assumptions/36: R575 and R577 name slot 0). -/
def execKeyCopyRepair (slot : Fin 272) (half : Bool) (differs : Bool) (s : State) : Res :=
  let k := s.slot slot
  if !s.secUp || !differs || (k.half half).isNone then .next s
  else if k.diffs = 0 then .next { s with sec := { s.sec with slots := tset KeySlot.blank s.sec.slots slot { k with diffs := 1 } } }
  else match (List.range 16).find? fun i => (s.slot (256 + i)).state == .free with
    | none => .next s
    | some i =>
      let new := 256 + i
      let s := s.setSlot Origin.sec new { k with diffs := 0 }
      let s := (s.plots.filter fun e => e.2.keyslot == slot.val && e.2.state != .free).foldl
        (fun s e => s.change e.1 (.keyslot slot new)) s
      let turn (i : Nat) : Nat := if i = slot.val then new else i
      let s : State := { s.turnSlot slot new with
        hist := { s.hist with marks := s.hist.marks.map fun m => if m.1 == 1 then (1, turn m.2.1, m.2.2) else m },
        sec := { s.sec with
          ringSlot := s.sec.ringSlot.map fun e => (e.1, turn e.2),
          opSlot := turn s.sec.opSlot,
          rotation := s.sec.rotation.map fun r => { r with slot := turn r.slot } } }
      .next ((s.moveAlloc slot (some new)).setSlot Origin.sec slot { KeySlot.blank with state := .faulty })

/-- A slot of the tenant's, in a command's argument. -/
def State.ownSlot (s : State) (t slot : Nat) : Bool := slot != 0 && (s.slot slot).state != .free && (s.slot slot).owner == t

/-- Reply bytes of a slot number. -/
def slotBytes (i : Nat) : List Byte := leBytes (BitVec.ofNat 16 i) 2

/-- KEY_GENERATE (R576). -/
def execKeyGenerate (i : SessIx) (s : State) : Res :=
  .next (s.serveT i 0x22 fun s x =>
    match s.slotFor x.tenant with
    | none => (s, rDENIED, 0x05, [])
    | some n =>
      let (key, s) := s.draw
      (s.newKey (Origin.sess x.tenant i) n x.tenant key, rOK, 0, slotBytes n))

/-- KEY_UNWRAP (R576): 72 B under the key-wrap key of the session; a pair of equal keys is refused. A wrapped key that fails
its integrity check is an argument outside its range (notes/assumptions/16). -/
def execKeyUnwrap (i : SessIx) (wrapped : BitVec 576) (s : State) : Res :=
  .next (s.serveT i 0x23 fun s x =>
    let kw := kdf (leBytes x.ems 48) (ascii "MYR-KW") 256
    match kwUnwrap kw (leBytes wrapped 72) with
    | none => (s, rUNSUP, 0x01, [])
    | some pair =>
      if pair.take 32 = pair.drop 32 then (s, rDENIED, 0x05, []) else
      match s.slotFor x.tenant with
      | none => (s, rDENIED, 0x05, [])
      | some n => (s.newKey (Origin.sess x.tenant i) n x.tenant (BitVec.ofNat 512 (leNat pair)), rOK, 0, slotBytes n))

/-- KEY_ROTATE (R583, R584): RETRY while a rotation runs. -/
def execKeyRotate (i : SessIx) (slot : Fin 512) (s : State) : Res :=
  .next (s.serveT i 0x24 fun s x =>
    if !s.ownSlot x.tenant slot then (s, rDENIED, 0x02, [])
    else if s.sec.rotation.isSome then (s, rRETRY, 0x08, [])
    else if (s.slot slot).state != .active then (s, rDENIED, 0x02, [])
    else (s.startRotation (Origin.sess x.tenant i) slot none, rOK, 0, []))

/-- SET_ALLOC_SLOT (R577). -/
def execSetAllocSlot (i : SessIx) (slot : Fin 512) (s : State) : Res :=
  .next (s.serveT i 0x25 fun s x =>
    if !(s.ownSlot x.tenant slot && ((s.slot slot).state == .active || (s.slot slot).state == .rotating)) then (s, rDENIED, 0x02, [])
    else (s.setAlloc (Origin.sess x.tenant i) x.tenant (some slot.val), rOK, 0, []))

/-- SLOT_QUERY (R602): slot, state and plot count of every slot the tenant owns. -/
def execSlotQuery (i : SessIx) (s : State) : Res :=
  .next (s.serveT i 0x26 fun s x => (s, rOK, 0, (s.slotsOf x.tenant).flatMap fun n =>
    slotBytes n ++ [BitVec.ofNat 8 (s.slot n).state.code] ++ slotBytes (s.plots.filter fun e => e.2.keyslot == n && e.2.state != .free).length))

/-- KEY_DESTROY (R578): only when no plot and no ring slot names the slot. -/
def execKeyDestroy (i : SessIx) (slot : Fin 512) (s : State) : Res :=
  .next (s.serveT i 0x28 fun s x =>
    if !s.ownSlot x.tenant slot || (s.slot slot).state == .faulty then (s, rDENIED, 0x02, [])
    else if !(s.naming slot).isEmpty || s.ringNames slot then (s, rDENIED, 0x06, [])
    else (s.destroySlot (Origin.sess x.tenant i) slot, rOK, 0, []))

/-! ### Tenants and bindings (R561, R567 to R571, R805) -/

/-- A target code that can be bound (R567). -/
def bindable (t : Nat) : Bool := decide (t < 24) || decide (128 < t)

/-- TENANT_CREATE (R561, R602): PF0 alone; the tenant must not exist. -/
def execTenantCreate (f : FnIx) (t : Byte) (digest : BitVec 384) (s : State) : Res :=
  .next (s.serve f 0x01 ([t] ++ List.replicate 7 0 ++ leBytes digest 48) fun s =>
    if f.val != 0 then (s, rDENIED, 0x02, [])
    else if t = 0 then (s, rUNSUP, 0x01, [])
    else if s.tenantExists t.toNat then (s, rDENIED, 0x03, [])
    else
      let s : State := { s with sec := { s.sec with tenants := tset none s.sec.tenants t.toNat (some ⟨digest, none⟩) } }
      (s.audit 1 0 5 t.toNat 0 1, rOK, 0, []))

/-- TENANT_DELETE (R602): refused while the tenant has a session, binding, offer, slot or plot. -/
def execTenantDelete (f : FnIx) (t : Byte) (s : State) : Res :=
  .next (s.serve f 0x02 [t] fun s =>
    let n := t.toNat
    if f.val != 0 then (s, rDENIED, 0x02, [])
    else if t = 0 then (s, rUNSUP, 0x01, [])
    else if !s.tenantExists n then (s, rDENIED, 0x03, [])
    else if decide (0 < s.sessionsOf n) || (s.sec.binds.any fun e => (e.2.bound && e.2.tenant == n) || (e.2.offered && e.2.offerTenant == n)) ||
        !(s.slotsOf n).isEmpty || (s.plots.any fun e => e.2.owner == n && e.2.state != .free) then (s, rDENIED, 0x06, [])
    else
      let s : State := { s with sec := { s.sec with tenants := tset none s.sec.tenants n none } }
      (s.audit 1 0 5 n 1 0, rOK, 0, []))

/-- A binding or offer changes, with PORT_BIND following for a port (R567, R569). -/
def State.setBind (s : State) (o : Origin) (t : Nat) (b : Bind) : State :=
  let code (b : Bind) : Nat := b.bound.toNat * 2 ^ 31 + b.offered.toNat * 2 ^ 30 + b.offerTenant * 256 + b.tenant
  let s' : State := { s with sec := { s.sec with binds := tset ⟨false, 0, false, 0⟩ s.sec.binds t b } }
  let s' := if t < 24 then { (s'.wr F.PORT_BIND.BOUND b.bound.toNat t).wr F.PORT_BIND.TENANT b.tenant t with latokDue := true } else s'
  s'.audit o.kind o.id 3 t (code (s.bind t)) (code b)

/-- Zeroing of a VF's ring areas is under way until RING_AREA_ZEROING_DONE (R805). -/
def State.startRingZero (s : State) (f : Nat) : State :=
  { s with sec := { s.sec with ringZero := s.sec.ringZero.filter (· != f) ++ [f] } }

/-- A target is bound to tenant `t` (R568, R569, R805): for a VF its ring slot is fixed and its rings reset. None when SEC
cannot give the tenant a slot. -/
def State.bindTo (s : State) (o : Origin) (target t : Nat) : Option State :=
  let b : Bind := ⟨true, t, false, 0⟩
  if target < 24 then some (s.setBind o target b)
  else
    let f := target - 128
    match s.allocSlotOf t with
    | (none, _) => none
    | (some slot, s) =>
      let s : State := { s with sec := { s.sec with ringSlot := tset 0 s.sec.ringSlot f slot } }
      some (((s.setBind o target b).resetRings Origin.sec f).startRingZero f)

/-- BIND_OFFER (R568): refused for a bound target; an offer to tenant 0 binds at once. -/
def execBindOffer (f : FnIx) (target : Fin 256) (t : Byte) (s : State) : Res :=
  .next (s.serve f 0x03 [BitVec.ofNat 8 target.val, t] fun s =>
    let n := t.toNat
    if f.val != 0 then (s, rDENIED, 0x02, [])
    else if !bindable target then (s, rUNSUP, 0x01, [])
    else if !s.tenantExists n then (s, rDENIED, 0x03, [])
    else if (s.bind target).bound then (s, rDENIED, 0x04, [])
    else if n = 0 then ((s.bindTo (Origin.fn 0) target 0).getD s, rOK, 0, [])
    else (s.setBind (Origin.fn 0) target ⟨false, 0, true, n⟩, rOK, 0, []))

/-- BIND_ACCEPT (R568, R569, R805): while an offer to the session's tenant stands. -/
def execBindAccept (i : SessIx) (target : Fin 256) (s : State) : Res :=
  .next (s.serveT i 0x20 fun s x =>
    let b := s.bind target
    if !bindable target then (s, rUNSUP, 0x01, [])
    else if b.bound || !b.offered then (s, rDENIED, 0x04, [])
    else if b.offerTenant != x.tenant then (s, rDENIED, 0x02, [])
    else match s.bindTo (Origin.sess x.tenant i) target x.tenant with
      | none => (s, rDENIED, 0x05, [])
      | some s' => (s', rOK, 0, []))

/-- A target is unbound, or its offer withdrawn (R139, R140, R157, R568 to R570, R548, R805). -/
def State.unbindTarget (s : State) (o : Origin) (target : Nat) : State :=
  let was := (s.bind target).bound
  let s := s.setBind o target ⟨false, 0, false, 0⟩
  if !was then s
  else if target < 24 then
    let go := s.flights.filter fun f => f.req == target && f.unissued && !f.dead
    (go.foldl (fun s f => s.withdraw f rABORTED) s).breakOwned target
  else
    let f := target - 128
    let s : State := { s with sec := { s.sec with ringSlot := tset 0 s.sec.ringSlot f 0 } }
    (s.resetRings Origin.sec f).startRingZero f

/-- UNBIND (R568, R570): PF0 any target, a tenant its own in its session. -/
def execUnbind (sess : Option SessIx) (f : FnIx) (target : Fin 256) (s : State) : Res :=
  match sess with
  | some i => .next (s.serveT i 0x04 fun s x =>
      if !bindable target then (s, rUNSUP, 0x01, [])
      else if !((s.bind target).bound && (s.bind target).tenant == x.tenant) then (s, rDENIED, 0x02, [])
      else (s.unbindTarget (Origin.sess x.tenant i) target, rOK, 0, []))
  | none => .next (s.serve f 0x04 [BitVec.ofNat 8 target.val] fun s =>
      if f.val != 0 then (s, rDENIED, 0x02, [])
      else if !bindable target then (s, rUNSUP, 0x01, [])
      else if !((s.bind target).bound || (s.bind target).offered) then (s, rDENIED, 0x04, [])
      else (s.unbindTarget (Origin.fn 0) target, rOK, 0, []))

/-- RING_AREA_ZEROING_DONE (R805): every line of the VF's 64 ring areas holds zero data under its ring slot's current half. -/
def execRingAreaZeroingDone (f : FnIx) (s : State) : Res :=
  .next (onlyIf (s.sec.ringZero.contains f.val)
    { s.zeroRings f with sec := { s.sec with ringZero := s.sec.ringZero.filter (· != f.val) } } s)

/-! ### The audit chain (R593 to R601) -/

/-- An audit entry's bytes (R593). -/
def AuditEnt.bytes (e : AuditEnt) (seq : Nat) (link : BitVec 384) : List Byte :=
  let b (v n : Nat) := leBytes (BitVec.ofNat (8 * n) v) n
  b seq 8 ++ b e.stamp 8 ++ b e.okind 1 ++ b 0 1 ++ b e.oid 2 ++ b e.obj 1 ++ b 0 3 ++ b e.where_ 8 ++ b e.old 8 ++ b e.new 8 ++
    leBytes e.detail 32 ++ leBytes link 48

/-- Writes the bytes of entry `seq` in plot 0xFFF (R595). -/
def State.writeEntry (s : State) (seq : Nat) (bytes : List Byte) : State :=
  let at_ := 0xFFF <<< 28 + 128 * (seq % 2097152)
  (s.blockWrite at_ (lineOf bytes)).blockWrite (at_ + 64) (lineOf (bytes.drop 64))

/-- Entry AUDIT_SEQ, with these bytes, joins the chain (R594, R599, R606): the head, AUDIT_SEQ, the threshold of AUDIT_NEAR_FULL,
and a checkpoint that falls due. -/
def State.chainEntry (s : State) (stamp : Nat) (bytes : List Byte) : State :=
  let seq := s.rd F.AUDIT_SEQ.VALUE
  let head := digestOf bytes
  let s := (List.range 6).foldl (fun s i => s.wr F.AUDIT_HEAD.BYTES (bitsOf head (64 * i + 63) (64 * i)) i) (s.wr F.AUDIT_SEQ.VALUE (seq + 1))
  { s with sec := { s.sec with
      head := head, headStamp := stamp, auditLast := s.now, near := s.rd F.AUDIT_CFG.NEAR_ENTRIES,
      ckptDue := if seq % 4096 = 4095 then s.sec.ckptDue ++ [(seq, stamp, head)] else s.sec.ckptDue } }

/-- Writes entry `e` at the chain's end with the given LINK (R594, R595, R600). -/
def State.appendEntry (s : State) (e : AuditEnt) (link : BitVec 384) : State :=
  let seq := s.rd F.AUDIT_SEQ.VALUE
  let bytes := e.bytes seq link
  let s := onlyIf (decide (2097152 ≤ seq) && decide (s.rd F.AUDIT_ACK.VALUE ≤ seq - 2097152)) (s.incRc F.AUDIT_LOST.COUNT) s
  (s.writeEntry seq bytes).chainEntry e.stamp bytes

/-- AUDIT_CHECKPOINT (R599): SEC signs the oldest checkpoint due with the alias key. -/
def execAuditCheckpoint (s : State) : Res :=
  match s.sec.ckptDue with
  | [] => .next s
  | (n, stamp, head) :: rest =>
    if !s.secUp then .next s else
    let body := leBytes (BitVec.ofNat 64 n) 8 ++ leBytes (BitVec.ofNat 64 stamp) 8 ++ leBytes head 48
    let (k, s) := s.draw
    let sig := ecdsaSign s.sec.alias_.toNat (k.toNat % (p384n - 1) + 1) (digestOf body)
    let c : BitVec 2048 := BitVec.ofNat 2048 (leNat (body ++ leBytes sig 96))
    .next { s with sec := { s.sec with ckptDue := rest, ckptLast := n, ckpts := tset none s.sec.ckpts (n / 4096 % 512) (some c) } }

/-- AUDIT_ACK (R602, R603, R606): the command advances AUDIT_ACK. -/
def execAuditAck (f : FnIx) (seq : W64) (s : State) : Res :=
  .next (s.serve f 0x05 (leBytes seq 8) fun s =>
    let old := s.rd F.AUDIT_ACK.VALUE
    if f.val != 0 then (s, rDENIED, 0x02, [])
    else if seq.toNat < old ∨ s.rd F.AUDIT_SEQ.VALUE < seq.toNat then (s, rUNSUP, 0x01, [])
    else ((s.wr F.AUDIT_ACK.VALUE seq.toNat).auditReg 0x2810008 old seq.toNat, rOK, 0, []))

/-- AUDIT_HEAD (R601, R602). -/
def execAuditHead (f : FnIx) (s : State) : Res :=
  .next (s.serve f 0x06 [] fun s => (s, rOK, 0,
    leBytes (BitVec.ofNat 64 (s.rd F.AUDIT_SEQ.VALUE - 1)) 8 ++ leBytes (BitVec.ofNat 64 s.sec.headStamp) 8 ++ leBytes s.sec.head 48 ++
      leBytes (BitVec.ofNat 64 s.sec.ckptLast) 8))

/-- CKPT_GET (R599, R602): one checkpoint; a slot number outside 0 to 511 is outside its range. -/
def execCkptGet (f : FnIx) (slot : BitVec 16) (s : State) : Res :=
  .next (s.serve f 0x07 (leBytes slot 2) fun s =>
    if 512 ≤ slot.toNat then (s, rUNSUP, 0x01, [])
    else (s, rOK, 0, leBytes ((tget none s.sec.ckpts slot.toNat).getD 0) 256))

end Sys2Proof.Machine
end

