-- ==== Sys2Proof/Machine/Lantern.lean ====
section
/-! DEFINITION. The contexts of a Lantern (R347 to R352): issue, the boundary between instructions, the end of a job and its
completion record (R392, R419, R523, R529), and clearing (R343). -/

namespace Sys2Proof.Machine

/-! ### Programs -/

/-- The image a context runs. -/
def Ctx.image (x : Ctx) : Image := (x.prog.imgs.find? fun i => i.pa == x.prog.img).getD ⟨none, [], 0, 0⟩
/-- Code word `i` of it. -/
def Ctx.word (x : Ctx) (i : Nat) : Option (BitVec 128) := x.image.words[i]?
/-- Call depth. -/
def Ctx.depth (x : Ctx) : Nat := x.prog.calls.length

def CtxRegs.setS (r : CtxRegs) (i : Nat) (v : W64) : CtxRegs := { r with s := r.s.set i v }
def CtxRegs.setBase (r : CtxRegs) (i b : Nat) : CtxRegs := { r with d := r.d.set i (dSetBase (r.d.getD i 0) b) }
/-- Sets a FLAGS bit. -/
def CtxRegs.flag (r : CtxRegs) (b : Nat) : CtxRegs := { r with flags := r.flags ||| BitVec.ofNat 8 (2 ^ b) }

/-- The saved bases of a loop return to their descriptors (R396 RST). -/
def restoreBases (r : CtxRegs) (saved : List (Nat × Nat)) : CtxRegs := saved.foldl (fun r e => r.setBase e.1 e.2) r

/-- The ends of iterations after an instruction (R397), over the loop stack, top first. -/
def loopEnds (depth ip : Nat) (r : CtxRegs) : List LoopEnt → List LoopEnt × Nat × CtxRegs
  | [] => ([], ip, r)
  | t :: rest =>
    if t.depth = depth ∧ ip = t.stop then
      let r := (upTo 16 (nbit t.adv)).foldl (fun r j =>
        r.setBase j (((dBase (r.d.getD j 0) : Int) + dStep (r.d.getD j 0)) % 2 ^ 43).toNat) r
      if 1 < t.left then
        ({ t with left := t.left - 1, index := t.index + 1 } :: rest, t.start,
         if t.idx then r.setS t.i (BitVec.ofNat 64 (t.index + 1)) else r)
      else loopEnds depth ip (if t.rst then restoreBases r t.saved else r) rest
    else (t :: rest, ip, r)

/-! ### The boundary between instructions -/

/-- An instruction ends; the context may issue again `n` CLK_NMC cycles from now (R394). Loop iterations end (R397); a failed
posted reply fails the job (R414); a context to be held becomes HELD (R351); the end of the inline image at depth 0 ends the job
(R392), any other end of an image fails with IP_RANGE (R393). -/
def State.retire (s : State) (j c n : Nat) : State :=
  let x := s.ctx j c
  let (ls, ip, r) := loopEnds x.depth x.prog.ip x.regs x.prog.loops
  let x : Ctx := { x with
    st := if x.hold then .held else .running
    hold := false
    op := .none
    regs := r
    prog := { x.prog with ip := ip, loops := ls }
    ready := s.now + s.cyc n }
  let s := s.setCtx j c x
  match x.pfail with
  | some f => s.drainCtx j c { f with at_ := s.nowAt j }
  | none =>
    if ip < x.image.words.length then s
    else if x.prog.img.isNone ∧ x.depth = 0 then
      s.setCtx j c { x with fin := some ⟨rOK, 0, (x.prog.n - 1) % 65536, 0, true, false⟩ }
    else s.failAt j c ⟨0x03, 0, 0, 0⟩ x.prog.n ip x.depth

/-- Moves the IP past an instruction of `n` words and ends it. -/
def State.advanceIp (s : State) (j c words cycles : Nat) : State :=
  (s.modCtx j c fun x => { x with prog := { x.prog with ip := x.prog.ip + words } }).retire j c cycles

/-! ### Issue (R348, R373, R374, R377, R378, R423) -/

/-- A context may issue now (R304, R347, R348). -/
def State.canIssue (s : State) (j c : Nat) : Bool :=
  let x := s.ctx j c
  x.st == .running && x.op == .none && x.fin.isNone && !x.abort && !x.hold && x.pfail.isNone && decide (x.ready ≤ s.now) &&
    (match x.job with | some b => s.lanternAdmits b.tenant s.now | none => false)

/-- The context the issue unit takes in this cycle (R348). -/
def State.issuer (s : State) (j : Nat) : Option Nat :=
  if !s.nmcEdge || (s.lnt j).issued == s.now + 1 then none
  else ((List.range 8).map fun i => ((s.lnt j).rr + 1 + i) % 8).find? (s.canIssue j)

/-- Opcodes of R372. -/
def opsKnown : List Nat :=
  [0, 1, 2, 3, 4, 5, 6, 7, 8, 0x10, 0x11, 0x12, 0x13, 0x18, 0x19, 0x1A, 0x20, 0x21, 0x22, 0x23, 0x28, 0x29, 0x30, 0x31, 0x38]
/-- EXT required (R400, R426). -/
def extReq (o : Nat) : Bool := o == 0x03 || o == 0x30 || o == 0x31

/-- The bits (highest, lowest) of the first word that an opcode's table marks 0 (R395 to R412, R425, R490, R502). -/
def zeroFields (o : Nat) : List (Nat × Nat) :=
  if o = 0x00 ∨ o = 0x04 then [(127, 16), (12, 8)]
  else if o = 0x01 then [(127, 84), (12, 11)]
  else if o = 0x02 then [(127, 84), (31, 29), (12, 12)]
  else if o = 0x03 then [(127, 64), (12, 10)]
  else if o = 0x05 then [(127, 96), (63, 36), (31, 29)]
  else if o = 0x06 then [(127, 96), (63, 28), (12, 12)]
  else if o = 0x07 then [(127, 16), (12, 10)]
  else if o = 0x08 then [(127, 24), (12, 10)]
  else if o = 0x10 ∨ o = 0x18 ∨ o = 0x19 ∨ o = 0x1A then [(127, 24), (12, 8)]
  else if o = 0x11 then [(63, 48), (39, 24), (12, 9)]
  else if o = 0x12 ∨ o = 0x13 then [(127, 28), (12, 8)]
  else if o = 0x20 then [(127, 100), (63, 42), (39, 36), (12, 8)]
  else if o = 0x21 then [(127, 54), (43, 43), (12, 10)]
  else if o = 0x22 then [(127, 28), (12, 9)]
  else if o = 0x23 then [(127, 36), (31, 24), (12, 11)]
  else if o = 0x28 then [(127, 46), (31, 24), (19, 16)]
  else if o = 0x29 then [(127, 36), (31, 24), (19, 16), (12, 9)]
  else if o = 0x30 then [(127, 32), (12, 8)]
  else if o = 0x31 then [(127, 45), (39, 36), (12, 12)]
  else [(63, 56), (47, 46), (31, 28), (23, 16), (12, 9)]

/-- The same of the extension word. -/
def zeroExt (o : Nat) : List (Nat × Nat) :=
  if o = 0x03 then [(127, 107), (63, 43)] else if o = 0x30 then [(127, 33)] else [(127, 33), (31, 16)]

/-- R427 and the other encodings that fail with BAD_ENCODING (R405, R412, R458, R491). -/
def encodingBad (w : BitVec 128) : Bool :=
  let o := iOp w
  let b (i : Nat) : Bool := w.getLsbD i
  if o = 0x06 then decide (2 ≤ bitsOf w 9 8)
  else if o = 0x08 then b 9 && !b 8
  else if o = 0x10 ∨ o = 0x11 ∨ o = 0x12 ∨ o = 0x13 ∨ o = 0x29 ∨ o = 0x30 then
    iSat w || iSr w || (o == 0x29 && b 8 && decide (10 < iF w 4))
  else if o = 0x28 then iSat w || iSr w || bitsOf w 11 8 == 0
  else if o = 0x38 then
    let a := bitsOf w 45 40
    iSat w || iSr w || (decide (52 ≤ a) && a != 63) || bitsOf w 55 48 == 0
  else if o = 0x23 then bitsOf w 9 8 == 3 || (!b 10 && iF w 0 != 0)
  else if o = 0x21 then
    let f := optFam w
    decide (5 ≤ f) || decide (12 < iF w 5) || (f == 3 && decide (14 < optSn w)) || (!optCopy w && iF w 4 != 0) ||
      ((f == 0 || f == 4) && iF w 3 != 0)
  else if o = 0x20 then
    let n := ewNst w
    bitsOf w 99 64 >>> (9 * (n + 1)) != 0 || (decide (14 < iF w 4) && (ewUses w 6 || ewUses w 7))
  else if o = 0x31 then iF w 2 == 15
  else false

/-- R374: the first word; then, with an extension word, that word. -/
def wordBad (w : BitVec 128) : Bool :=
  let o := iOp w
  iExt w != extReq o || (decide (o ≤ 8) && (iSat w || iSr w)) || (zeroFields o).any (fun p => bitsOf w p.1 p.2 != 0) ||
    encodingBad w
/-- R374 and R400 (SAME requires TARGET 0) for the extension word. -/
def extBad (w x : BitVec 128) : Bool :=
  (zeroExt (iOp w)).any (fun p => bitsOf x p.1 p.2 != 0) || (iOp w == 0x03 && w.getLsbD 9 && bitsOf x 42 0 != 0)

/-- Counts an issue: the round-robin pointer, the index, the job's START, the counters (R348, R377, R523, R790, R791). -/
def State.markIssue (s : State) (j c : Nat) : State :=
  let s := s.modLnt j fun l => { l with rr := c, issued := s.now + 1 }
  let now := s.nowAt j
  let s := s.modCtx j c fun x => { x with
    job := x.job.map fun b => if x.prog.n = 0 then { b with start := now } else b
    prog := { x.prog with n := x.prog.n + 1 } }
  (s.pmuCtx j c 0 1).evt j 0x00 c

/-- Issues the next instruction of context `c` when its opcode satisfies `p` (R348, R423 steps 1 and 2): `run` is what the
instruction does, given its word and extension word. -/
def State.issue (s : State) (j c : Nat) (p : Nat → Bool) (run : State → BitVec 128 → BitVec 128 → State) : Res :=
  let x := s.ctx j c
  match x.word x.prog.ip with
  | none => .next s
  | some w =>
    .next (onlyIf (s.issuer j == some c && p (iOp w))
      (if x.prog.n = 2 ^ 24 then
          (s.modLnt j fun l => { l with rr := c, issued := s.now + 1 }).failAt j c ⟨0x10, 0, 0, 0⟩ x.prog.n x.prog.ip x.depth
       else
        let s := s.markIssue j c
        if !opsKnown.contains (iOp w) then s.failInstr j c ⟨0x01, 0, 0, 0⟩
        else if wordBad w then s.failInstr j c ⟨0x02, 0, 0, 0⟩
        else if extReq (iOp w) then
          match x.word (x.prog.ip + 1) with
          | none => s.failInstr j c ⟨0x03, 0, 0, 0⟩
          | some e => if extBad w e then s.failInstr j c ⟨0x02, 0, 0, 0⟩ else run s w e
        else run s w 0) s)

/-- R381 and R382 for the descriptors an instruction uses as streams, in ascending order (R423); `fn` is the job's function. -/
def State.descsBad (s : State) (fn : Nat) (w : BitVec 128) (x : Ctx) : Option Exc :=
  let d (r : Nat) : Desc := x.regs.d.getD r 0
  let rs := usesOf w
  ((rs.find? fun r => descBad (d r) || s.hostBad fn (iOp w) (d r)).map fun r => (⟨0x0B, 0, r, 0⟩ : Exc)).orElse fun _ =>
    (rs.find? fun r => s.plotBad (d r) (dSpan (d r)).1 (dSpan (d r)).2 true).map fun r =>
      ⟨0x0C, 0, r, (s.plot (dBase (d r) >>> 28 % 4096)).gen.toNat⟩

/-- The same for the semaphore of WAIT, SIGNAL and STAMP (R383): 8 bytes at BASE, a multiple of 8, outside the host window. -/
def State.semaBad (s : State) (x : Ctx) (r : Nat) : Option Exc :=
  let d : Desc := x.regs.d.getD r 0
  if dBase d % 8 ≠ 0 ∨ dHost d then some ⟨0x0B, 0, r, 0⟩
  else if s.plotBad d (dBase d) (dBase d + 7) false then
    some ⟨0x0C, 0, r, (s.plot (dBase d >>> 28 % 4096)).gen.toNat⟩
  else none

/-! ### The end of a job -/

/-- The completion record without PHASE (R523). -/
def recordData (start end_ fetch seq status instr lnt ctx : Nat) (detail : W64) : BitVec 256 :=
  BitVec.ofNat 256 ((start % 2 ^ 48) <<< 208 + (end_ % 2 ^ 48) <<< 160 + (fetch % 2 ^ 48) <<< 112 + detail.toNat <<< 48 +
    (seq % 65536) <<< 32 + status <<< 24 + (instr % 65536) <<< 8 + lnt <<< 4 + ctx <<< 1)

/-- The records in FIFO `i` (R529). -/
def State.fifoLen (s : State) (i : Nat) : Nat := (s.rings.fifos.filter (·.fifo == i)).length

/-- The conditions of a FENCE hold (R403). -/
def Ctx.fenced (x : Ctx) (mem jrnl : Bool) : Bool := (!mem || x.posted.isEmpty) && (!jrnl || x.jrn == 0)

/-- The record of an ended job enters its Lantern's FIFO when there is a credit (R529); the context is DRAINING from then. No
record is written while the block quiesces (R687). -/
def State.postRecord (s : State) (j c : Nat) (b : Job) (f : JobFin) : State :=
  if s.fw.quiet then s.modCtx j c fun x => { x with fin := some { f with sent := true } }
  else if s.fifoLen j < 256 then
    let status := s.attnFor (s.fnReceiver b.fn) * 16 + f.result
    let r : Rec := ⟨j, b.ring, b.epoch, b.irq, recordData b.start f.at_ b.fetch b.seq status f.instr j c f.detail⟩
    { s.modCtx j c fun x => { x with fin := some { f with sent := true } } with
      rings := { s.rings with fifos := s.rings.fifos ++ [r] } }
  else s

/-- JOB_END (R392, R419, R529): when the last instruction's cycles are over and the implicit fence of a job that ended well completes, and
at once after a failure, the context is DRAINING and its record enters the FIFO as soon as that has a credit. END of the former is the stamp
of the fence's completion, as in the trace of chapter 9 (R49: 09_amnubo_encoding_and_control.md:512). -/
def execJobEnd (j : Cluster) (c : CtxIx) (s : State) : Res :=
  if !s.nmcEdge then .next s else
  let x := s.ctx j c
  match x.fin, x.job with
  | some f, some b =>
    if f.sent then .next s
    else if f.fence then
      if x.fenced true true && x.pfail.isNone && decide (x.ready ≤ s.now) then
        let f := { f with fence := false, at_ := s.nowAt j }
        .next ((s.modCtx j c fun x => { x with st := .draining, fin := some f }).postRecord j c b f)
      else .next s
    else .next (s.postRecord j c b f)
  | some _, none => .next s
  | none, some _ => .next s
  | none, none => .next s

/-! ### Abort, draining and clearing (R343, R352) -/

/-- A job may be aborted now: between instructions, in a WAIT, in a load, or in a data instruction of which no write is out
(R352, R366, R424, R474). -/
def Ctx.atBoundary (x : Ctx) : Bool := match x.op with
  | .none => true
  | .wait _ => true
  | .load _ => true
  | .full _ => true
  | .data d => d.chunks.all fun ch => ch.st != .writing
  | .sema _ => false | .fence _ _ => false | .test _ => false

/-- A TEST that a fence of the Lantern has cut short. -/
def State.testCut (s : State) (j c : Nat) : Bool := s.bit F.LNT_CTL.FENCED j && (match (s.ctx j c).op with
  | .test _ => true
  | .none => false | .wait _ => false | .load _ => false | .sema _ => false | .full _ => false | .fence _ _ => false | .data _ => false)

/-- JOB_ABORT (R352). A fence of the whole Lantern ends the test of a TEST in progress (R664), which is then at a boundary. -/
def execJobAbort (j : Cluster) (c : CtxIx) (s : State) : Res :=
  if !s.nmcEdge then .next s else
  let x := s.ctx j c
  .next (onlyIf (x.abort && x.job.isSome && x.st != .draining && x.st != .idle && (x.atBoundary || s.testCut j c))
    (s.failAt j c ⟨0x11, 0, 0, 0⟩ (x.prog.n - 1) x.prog.ip x.depth) s)

/-- No request, host read or array operation of a context is still to end. -/
def State.ctxQuiet (s : State) (j c : Nat) : Bool :=
  let l := s.lnt j
  !(l.reqs.any (·.ctx == c)) && !(l.queue.any (·.ctx == c)) && !(l.hreqs.any (·.ctx == c)) &&
    !(l.arrs.any fun e => e.2.any fun o => o.ctx == c)

/-- CONTEXT_DRAIN_END (R343, R347, R352): the last reply has returned and the record has entered the FIFO; the context reads
IDLE while it is cleared for 512 cycles. -/
def execContextDrainEnd (j : Cluster) (c : CtxIx) (s : State) : Res :=
  if !s.nmcEdge then .next s else
  let x := s.ctx j c
  .next (onlyIf (x.st == .draining && x.fin.any (·.sent) && s.ctxQuiet j c)
    (s.setCtx j c { x with st := .idle, clear := some (s.now + s.cyc 512) }) s)

/-- CONTEXT_CLEAR_DONE (R343, R389): the store region, the registers and the instruction buffer are cleared. -/
def execContextClearDone (j : Cluster) (c : CtxIx) (s : State) : Res :=
  if !s.nmcEdge then .next s else
  match (s.ctx j c).clear with
  | none => .next s
  | some t => .next (onlyIf (decide (t ≤ s.now)) (s.setCtx j c Ctx.blank) s)

/-- PAIRED_WRITE (R367, R368): PF0 writes LNT_CTL.PAIRED. -/
def execPairedWrite (j : Cluster) (b : Bool) (s : State) : Res := s.orWait (.pairedWrite j b) fun s =>
  if s.inBoot then .next s else
  let old := (s.reg .LNT_CTL j).toNat
  let s := s.wr F.LNT_CTL.PAIRED b.toNat j
  let new := (s.reg .LNT_CTL j).toNat
  .next (onlyIf (old != new) (s.audit 1 0 0 (0x1060000 + j.val * 0x100000) old new) s)

end Sys2Proof.Machine
end

