-- ==== Sys2Proof/Machine/Posy.lean ====
section
/-! DEFINITION. The Posy (chapter "The Posy: reductions in any order"): entries, taking a contribution, eviction and discard,
and what a COLLECT chunk tests and rounds. -/

namespace Sys2Proof.Machine

def State.posy (s : State) (k : Nat) : Posy := tget Posy.blank s.posies k
def State.setPosy (s : State) (k : Nat) (p : Posy) : State := { s with posies := tset Posy.blank s.posies k p }
def Posy.ent (p : Posy) (i : Nat) : Option PosyEnt := tget none p.ents i
def Posy.setEnt (p : Posy) (i : Nat) (e : Option PosyEnt) : Posy := { p with ents := tset none p.ents i e }

/-- A key of R475: the line, HALF and ROUND. -/
structure PosyKey where
  line : Nat
  half : Bool
  round : Nat
deriving DecidableEq, Repr

def PosyEnt.key (e : PosyEnt) : PosyKey := ⟨e.line, e.half, e.round⟩
/-- The entry of a key. -/
def Posy.find (p : Posy) (k : PosyKey) : Option (Nat × PosyEnt) :=
  p.ents.findSome? fun e => e.2.bind fun x => if x.key = k then some (e.1, x) else none
/-- Free entries. -/
def Posy.room (p : Posy) : Nat := 512 - (p.ents.filter fun e => e.2.isSome).length

/-- An entry as it is allocated (R480). -/
def PosyEnt.new (k : PosyKey) (cfmt : Nat) : PosyEnt :=
  ⟨k.line, k.half, k.round, false, cfmt, List.replicate 16 0, 0, 0, 0, 0, 0, 0, 0, 0, 0, false, false, 0⟩

/-- The keys of a line (R475, R480). -/
def lineKeys (line cfmt round : Nat) : List PosyKey :=
  if cfmt = 0 then [⟨line, false, round⟩] else [⟨line, false, round⟩, ⟨line, true, round⟩]

/-! ### COLLECT's view -/

/-- The round a COLLECT collects (R490). -/
def collectRound (x : BitVec 128) (s : Nat → W64) (w : BitVec 128) : Nat :=
  if x.getLsbD 32 then (s (iF w 2)).toNat >>> 16 % 65536 else bitsOf x 15 0

/-- The lines of chunk `m` of a COLLECT (R493). -/
def collectLines (E : DEnv) (m : Nat) : List Nat :=
  sortUniq (dLines (E.d 1) (((List.range 1024).map (· + 1024 * m)).filter (· < dN (E.d 1))))
/-- Its region's keys, ascending (R488, R493). -/
def collectKeys (E : DEnv) (x : BitVec 128) (m : Nat) : List PosyKey :=
  (collectLines E m).flatMap fun l => lineKeys (paField l) (dFmt (E.d 1)) (collectRound x E.s E.w)

/-- A key lies in a waiting region of Lantern `k`: its line and its round are those of one (R500). -/
def State.waitingKey (s : State) (k : Nat) (key : PosyKey) : Bool :=
  (List.range 8).any fun c =>
    let x := s.ctx k c
    match x.op with
    | .data d => iOp d.w == 0x31 && d.chunks.any fun ch => ch.fail.isNone && (match ch.st with
        | .collect _ => (collectKeys (x.denv 0 d.w.toNat) d.x ch.m).any fun u => u.line == key.line && u.round == key.round
        | .index => false | .fetch => false | .compute => false | .verdict _ => false | .replay _ _ => false | .writing => false)
    | .none => false | .wait _ => false | .load _ => false | .sema _ => false | .full _ => false | .fence _ _ => false
    | .test _ => false

/-! ### Taking a contribution (R477, R480, R481) -/

/-- Adds one element into accumulator `i` (R477): units of 2^-149. -/
def PosyEnt.add1 (e : PosyEnt) (i : Nat) (v : Fv) : PosyEnt := match v with
  | .nan => { e with nan := e.nan ||| BitVec.ofNat 16 (2 ^ i) }
  | .inf n => if n then { e with ninf := e.ninf ||| BitVec.ofNat 16 (2 ^ i) } else { e with pinf := e.pinf ||| BitVec.ofNat 16 (2 ^ i) }
  | .fin n m x => { e with acc := e.acc.set i (e.acc.getD i 0 + intAt n m x (-149)) }

/-- Adds the 16 elements that a line gives an entry (R475). -/
def PosyEnt.addLine (e : PosyEnt) (d : LineData) : PosyEnt :=
  let f := fmtOf e.cfmt
  let base := if e.half then 16 else 0
  (List.range 16).foldl (fun e i => e.add1 i (f.dec (bitsOf d ((base + i) * f.bits + f.bits - 1) ((base + i) * f.bits)))) e

/-- Counts a contribution (R480). -/
def PosyEnt.count1 (e : PosyEnt) (src now : Nat) : PosyEnt :=
  { e with count := e.count + 1, last := now, srcsum := e.srcsum + BitVec.ofNat 32 src, srcsq := e.srcsq + BitVec.ofNat 32 (src * src) }

/-- Attaches a declared sum (R476, R480): DSUM to nearest even, ASUM upward. -/
def PosyEnt.declare (e : PosyEnt) (d : Fv) : PosyEnt :=
  { e with dsum := to64 ((of64 e.dsum).add d)
           asum := BitVec.ofNat 64 (fp64.conv .up false ((of64 e.asum).add d.abs)).1
           dcount := e.dcount + 1 }

/-- What refuses a key that has an entry (R480): RETRY, with OVF or CONFLICT set. -/
def PosyEnt.refuses (e : PosyEnt) (cfmt : Nat) : Bool := e.held || e.cfmt != cfmt || e.count == 65535

/-- take (R480): the result and the state. Sets of fault bits count once, when the bit is set. -/
def State.posyTake (s : State) (k : Nat) (f : Flight) : State × Nat :=
  let p := s.posy k
  let cfmt := hCfmt f.hdr
  let round := hOpnd f.hdr >>> 48 % 65536
  let src := hOpnd f.hdr >>> 32 % 65536
  let lines := (List.range (hLen f.hdr)).map fun i => (paField (hLine f.hdr / 64 + i), f.beats.getD i 0)
  let bytes := lines.flatMap fun l => leBytes l.2 64
  let retry (s : State) : State × Nat := (s.incRc F.POSY_STAT0.RETRIES k, rRETRY)
  if s.bit F.LNT_CTL.FENCED k then retry s
  else if crc64 bytes != f.trailer.extractLsb' 0 64 then (s.incRc F.POSY_STAT0.CRC_FAILS k, rCHECK)
  else
    let keys := lines.flatMap fun l => lineKeys l.1 cfmt round
    match keys.findSome? fun key => (p.find key).bind fun e => if e.2.refuses cfmt then some e else none with
    | some (i, e) =>
      if e.held then retry s
      else if e.cfmt ≠ cfmt then
        let s := if e.conflict then s else s.incRc F.POSY_STAT1.CONFLICTS k
        retry (s.setPosy k (p.setEnt i (some { e with conflict := true })))
      else
        let s := if e.ovf then s else s.incRc F.POSY_STAT1.OVERFLOWS k
        retry (s.setPosy k (p.setEnt i (some { e with ovf := true })))
    | none =>
      let new := keys.filter fun key => (p.find key).isNone
      if p.room < new.length then retry s
      else if p.room - new.length < s.rd0 F.POSY_CFG.RESERVE k && !(new.all (s.waitingKey k)) then retry s
      else
        let alloc (p : Posy) (key : PosyKey) : Posy := match leastBelow 512 fun i => (p.ent i).isNone with
          | some i => p.setEnt i (some (PosyEnt.new key cfmt))
          | none => p
        let p := new.foldl alloc p
        let put (p : Posy) (l : Nat × LineData) : Posy := (lineKeys l.1 cfmt round).foldl (fun p key => match p.find key with
          | some (i, e) => p.setEnt i (some ((e.addLine l.2).count1 src s.now))
          | none => p) p
        let p := lines.foldl put p
        let d := of64 (f.trailer.extractLsb' 64 64)
        let p := match p.find ⟨(lines.headD (0, 0)).1, false, round⟩ with
          | some (i, e) => p.setEnt i (some (e.declare d))
          | none => p
        ((s.setPosy k p).incWrap F.POSY_TAKEN.COUNT k, rOK)

/-- The elements a CONTRIB brings to the accumulators. -/
def contribEls (f : Flight) : Nat := hLen f.hdr * (if hCfmt f.hdr = 0 then 16 else 32)

/-- The CONTRIBs in the input buffer of a Posy, oldest first (R479). -/
def State.posyIn (s : State) (k : Nat) : List Flight :=
  (s.flights.filter fun f => f.k == k && hOp f.hdr == opCONTRIB && (match f.stage with
    | .granted _ => true | .queued => false | .released _ => false | .replying _ => false)).foldr
      (fun f l => l.takeWhile (fun g => decide (g.order < f.order)) ++ f :: l.dropWhile (fun g => decide (g.order < f.order))) []

/-- POSY_TAKE (R479, R480, R482): the oldest request in the input buffer is taken or refused, at most 128 elements a CLK_NMC
cycle; its reply is ready 16 ticks later. -/
def execPosyTake (k : Cluster) (s : State) : Res :=
  match s.posyIn k with
  | [] => .next s
  | f :: _ =>
    let p := s.posy k
    let used := if p.edge = s.now + 1 then p.taken else 0
    let n := contribEls f
    .next (onlyIf (s.nmcEdge && decide (used + n ≤ 128))
      (let s := s.setPosy k { p with edge := s.now + 1, taken := used + n }
       let (s, r) := s.posyTake k f
       let s := onlyIf (r == rOK) (s.evt k 0x10 0) s
       s.modFlight f.id fun g => { g with stage := .replying (s.now + 16), result := r }) s)

/-! ### Eviction and discard (R484 to R487, R509) -/

/-- The contributions that a Posy can still take in the present cycle (R479). -/
def State.posyNow (s : State) (k : Nat) : List Flight :=
  let p := s.posy k
  let used := if p.edge = s.now + 1 then p.taken else 0
  ((s.posyIn k).foldl (fun (a : List Flight × Nat) f =>
    let n := a.2 + contribEls f
    if n ≤ 128 then (a.1 ++ [f], n) else (a.1, 1000)) (([] : List Flight), used)).1

/-- A contribution to one of these lines is taken in the present cycle before what else meets its entry (R509). -/
def State.posyFirst (s : State) (k : Nat) (lines : List Nat) : Bool :=
  (s.posyNow k).any fun f => (List.range (hLen f.hdr)).any fun i => lines.contains (paField (hLine f.hdr / 64 + i))

/-- POSY_EVICT (R484, R509): an OPEN entry whose last contribution lies IDLE_US in the past, and to which none comes now. -/
def execPosyEvict (k : Cluster) (i : Fin 512) (s : State) : Res :=
  if !s.nmcEdge then .next s else
  match (s.posy k).ent i with
  | none => .next s
  | some e =>
    .next (onlyIf (!e.held && decide (e.last + usTicks (s.rd0 F.POSY_CFG.IDLE_US k) ≤ s.now) && !s.posyFirst k [e.line])
      (((s.setPosy k ((s.posy k).setEnt i none)).incRc F.POSY_STAT1.EVICTS k).record
        { ErrRec.make s.now sevInfo 0x15 k with
          pa := 2 ^ 63 + e.line * 64
          plot := e.line >>> 22 % 4096
          tenant := (s.plot (e.line >>> 22 % 4096)).owner
          detail := leBytes (BitVec.ofNat 16 e.round) 2 ++ [if e.half then 1 else 0] }) s)

/-- Entries of a Posy become FREE, those a COLLECT holds among them; the chunks of the Lantern that held them hold them no more. -/
def State.freeEnts (s : State) (k : Nat) (p : PosyEnt → Bool) : State :=
  let gone := ((s.posy k).ents.filter fun e => e.2.any p).map (·.1)
  let s := s.setPosy k { s.posy k with ents := (s.posy k).ents.filter fun e => !e.2.any p }
  let drop (ch : Chunk) : Chunk := { ch with held := ch.held.filter fun i => !gone.contains i }
  s.modLnt k fun l => { l with ctxs := l.ctxs.map fun x => match x.op with
    | .data d => { x with op := .data { d with chunks := d.chunks.map drop } }
    | .none => x | .wait _ => x | .load _ => x | .sema _ => x | .full _ => x | .fence _ _ => x | .test _ => x }

/-- POSY_PLOT_FREE (R485): the entries of a plot that has left OPEN become FREE once no CONTRIB accepted before the change
is still to be taken or refused. -/
def execPosyPlotFree (k : Cluster) (index : Fin 4096) (s : State) : Res :=
  if !s.nmcEdge then .next s else
  let p := s.posy k
  match p.free.find? (·.1 == index.val) with
  | none => .next s
  | some (i, mark) =>
    let busy := s.flights.any fun f => f.k == k.val && hOp f.hdr == opCONTRIB && f.plot == i && decide (f.id < mark) &&
      (match f.stage with | .queued => true | .released _ => true | .granted _ => true | .replying _ => false)
    .next (onlyIf (!busy)
      ((s.setPosy k { p with free := p.free.erase (i, mark) }).freeEnts k fun x => x.line >>> 22 % 4096 == i) s)

/-- Every entry of a Posy becomes FREE (R486, R487). -/
def State.emptyPosy (s : State) (k : Nat) : State := s.freeEnts k fun _ => true

/-- POSY_CFG_WRITE (R510, R511): values out of range are ignored. -/
def execPosyCfgWrite (k : Cluster) (v : W32) (s : State) : Res := s.orWait (.posyCfgWrite k v) fun s =>
  if s.inBoot then .next s else
  let old := (s.reg .POSY_CFG k).toNat
  let res := bitsOf v 31 23
  let idle := bitsOf v 19 0
  let s := onlyIf (decide (res ≤ 256)) (s.wr F.POSY_CFG.RESERVE res k) s
  let s := onlyIf (idle != 0 && decide (idle ≤ 1000000)) (s.wr F.POSY_CFG.IDLE_US idle k) s
  .next (s.auditReg (0x1080000 + k.val * 0x100000) old (s.reg .POSY_CFG k).toNat)

/-! ### A COLLECT chunk (R488, R489, R494, R495) -/

/-- The class of a value: 0 finite, 1 +Inf, 2 −Inf, 3 NaN. -/
def fvClass (v : Fv) : Nat := if v.isNan then 3 else if v.isInf then (if v.sign then 2 else 1) else 0

/-- The declared-sum check of a region (R489): none passes; the sub-code it fails with. -/
def declaredBad (tolx : Nat) (es : List PosyEnt) : Option Nat :=
  let nan := es.any (·.nan != 0)
  let pinf := es.any (·.pinf != 0)
  let ninf := es.any (·.ninf != 0)
  let cls := if nan || (pinf && ninf) then 3 else if pinf then 1 else if ninf then 2 else 0
  let total := es.foldl (fun a e => e.acc.foldl (· + ·) a) (0 : Int)
  let dh := match es with
    | [] => Fv.zero
    | e :: t => t.foldl (fun a e => r64 (a.add (of64 e.dsum))) (of64 e.dsum)
  let a := es.foldl (fun a e => fp64.dec (fp64.conv .up false (a.add (of64 e.asum))).1) Fv.zero
  let m := es.foldl (fun n e => n + e.dcount) 0
  if cls ≠ fvClass dh then some 0
  else if cls ≠ 0 then none
  else
    let sv := Fv.fin (decide (total < 0)) total.natAbs (-149)
    let diff := (sv.add dh.neg).abs
    let tol := ((Fv.fin false (m + 2) (-53)).mul a).add (Fv.fin false m (-1074)) |>.shift tolx
    if tol.lt diff then some 1 else none

/-- The tests of R494 once the region is held: `es` gives each key's entry in ascending key order. -/
def collectBad (E : DEnv) (es : List (PosyKey × Option PosyEnt)) : Option Exc :=
  let n := (E.s (iF E.w 2)).toNat % 65536
  let x1 := (E.s (iF E.w 2 + 1)).toNat
  let bit (i : Nat) := E.w.getLsbD i
  let first (p : Option PosyEnt → Bool) : Option Nat := (es.find? fun e => p e.2).map (·.1.line)
  match es.find? fun e => e.2.any fun x => x.ovf || x.conflict with
  | some (k, e) => some ⟨0x35, 0, if e.any (·.ovf) then 0 else 1, k.line⟩
  | none => match first fun e => !(e.any fun x => x.count == n) with
    | some l => some ⟨0x33, 0, 0, l⟩
    | none =>
      match (if bit 10 then none else first fun e => e.any fun x => x.srcsum.toNat != x1 % 2 ^ 32) with
      | some l => some ⟨0x33, 0, 1, l⟩
      | none =>
        match (if bit 10 then none else first fun e => e.any fun x => x.srcsq.toNat != x1 >>> 32) with
        | some l => some ⟨0x33, 0, 2, l⟩
        | none =>
          if bit 11 then none else
          (declaredBad (bitsOf E.w 44 40) (es.filterMap (·.2))).map fun c => ⟨0x34, 0, c, ((es.headD (⟨0, false, 0⟩, none)).1).line⟩

/-- The result of an element (R495), and its checks (R497): NaN and infinities when NF = 0, and the conversion. -/
def collectEl (E : DEnv) (ents : List PosyEnt) (r : DRes) (e : Nat) : DRes :=
  let dk := E.d 1
  let line := paField ((dBit dk e / 512).toNat)
  let pos := ((dBit dk e % 512) / dBits dk).toNat
  match ents.find? fun x => x.line == line && x.half == decide (16 ≤ pos) with
  | none => r
  | some x =>
    let i := pos % 16
    let f := dF (E.d 0)
    let v : Fv := if x.nan.getLsbD i || (x.pinf.getLsbD i && x.ninf.getLsbD i) then .nan
      else if x.pinf.getLsbD i then .inf false
      else if x.ninf.getLsbD i then .inf true
      else let a := x.acc.getD i 0; .fin (decide (a < 0)) a.natAbs (-149)
    let (r, c) := match v with
      | .nan => (r, f.packNan)
      | .inf n => (r, f.packInf n)
      | .fin _ _ _ => r.conv E 0 e v
    let y := f.dec c
    let nf := E.w.getLsbD 9
    let r := (((r.put E 0 e c).fail 0 e (!nf && y.isNan)).fail 1 e (!nf && y.isInf)).checkConv E 0 e v c
    { r with acc := { r.acc with bytes := r.acc.bytes ++ leBytes (BitVec.ofNat 32 c) (dBits (E.d 0) / 8) } }

/-- What a COLLECT chunk comes to from its held entries. -/
def calcCollect (E : DEnv) (ents : List PosyEnt) (m : Nat) (acc : DAcc) : DRes :=
  (((List.range 1024).map (· + 1024 * m)).filter (· < dN (E.d 1))).foldl (collectEl E ents) (DRes.start { acc with bytes := [] })

end Sys2Proof.Machine
end

