-- ==== Sys2Proof/Machine/Silent.lean ====
section
/-! DEFINITION. Silent errors (chapter "Silent errors and the detection bound"): array roles, charges and judgements, fences,
Marigold tests and sweeps, and the TEST instruction. -/

namespace Sys2Proof.Machine

/-! ### Roles (R320, R321) -/

/-- Arrays in role SPARE, ascending. -/
def State.spares (s : State) (j : Nat) : List Nat := upTo 52 fun a => s.role j a == 1
/-- Serving arrays, ascending. -/
def State.serving (s : State) (j : Nat) : List Nat := upTo 52 fun a => s.role j a == 0 || s.role j a == 2
/-- The array operation an array holds. -/
def Lantern.arr (l : Lantern) (a : Nat) : Option ArrOp := tget none l.arrs a

/-- The lowest free SPARE stands in for array `a` (R321), if there is one. -/
def State.standIn (s : State) (j a : Nat) : State × Option Nat :=
  match s.spares j with
  | [] => (s, none)
  | sp :: _ => ((s.setRole j sp 2).wr F.LNT_ARRAY.FOR a j sp, some sp)

/-- A stand-in returns to SPARE. -/
def State.standDown (s : State) (j : Nat) : Option Nat → State
  | none => s
  | some sp => (s.setRole j sp 1).wr F.LNT_ARRAY.FOR 0 j sp

/-! ### Records (R677 to R679) -/

/-- A silent-error record: the array and its stand-in (0xFF: none), SUB, element, chunk; `detecting` records carry the flag of
R678, a replayed chunk's the index of its first journal record; the job of context `c`, where there is one (R626). `unit` is the
class and the place of the unit whose events COUNT gives; the record of a judgement that `follows` the one just written names it. -/
def State.silentRec (s : State) (cls sev j arr stand sub elem chunk : Nat) (result : Nat) (detecting journaled : Bool)
    (c : Option Nat := none) (unit : Option (Nat × Nat) := none) (follows : Bool := false) : State :=
  let count := match unit with
    | none => 0
    | some (cl, a) => if 0x45 ≤ cls then (s.histUnit cl j a 0).count else s.countAt cl j a 0
  let late := detecting && decide (s.rd F.RAS_MGSTEP_PREV.STAMP < s.rd F.LNT_JRNL_OLDEST.STAMP j)
  let d := leBytes (BitVec.ofNat 64 elem) 8 ++ leBytes (BitVec.ofNat 16 chunk) 2 ++ [0, 0] ++
    leBytes (BitVec.ofNat 32 (if journaled then s.rd F.LNT_JRNL.NEXT j else 0)) 4 ++ [0, 0, 0, 0, if late then 1 else 0]
  let e : ErrRec := { ErrRec.make s.now sev cls j with ppc := arr, lpc := stand, sub := sub, result := result, detail := d,
                                                          count := count, related := if follows then s.related else 0 }
  s.record (match c.bind fun c => (s.ctx j c).job.map fun b => (b, (s.ctx j c).prog.n - 1) with
    | some (b, n) => { e.ofJob b n with tenant := b.tenant }
    | none => e)

/-! ### Tests of arrays (R321, R470 to R472, R660, R670) -/

/-- An array that a replay uses. -/
def State.replaying (s : State) (j a : Nat) : Bool := (s.lnt j).ctxs.any fun x => x.replayArrs.contains a

/-- An array that is to leave the pool holds an operation or a replay (R321), or was chosen in the cycle in which its operation ends: then
it leaves in the next cycle (R366). -/
def State.busyArr (s : State) (j a : Nat) : Bool :=
  ((s.lnt j).arr a).isSome || s.replaying j a || (s.lnt j).late.contains a

/-- An array is chosen to leave the pool: in the cycle of its operation's end, R321 applies from the next (R366). -/
def State.choose (s : State) (j a : Nat) : State :=
  let l := s.lnt j
  if l.ended.contains a || (l.arr a).any (fun o => decide (o.at_ ≤ s.now)) then s.modLnt j fun l => { l with late := insUniq a l.late } else s

/-- A round starts: the array's 16 operations take 1,024 cycles, and the work pool has the block's 16 to take (R472). -/
def ATest.round (t : ATest) (s : State) : ATest := { t with at_ := s.now + s.cyc 1024, refs := 16, out := 0 }

def TestWhy.ctx : TestWhy → Option Nat
  | .instr c => some c | .sweep => none | .repeat_ => none

/-- A waiting test starts when its array holds no operation and is tested by nobody else: a SPARE without a stand-in, a serving
array with one, or without one when it no longer waits, which a TEST reports in LATE_TEST. -/
def State.startTest (s : State) (j : Nat) (t : ATest) : State :=
  if t.running || (s.lnt j).tests.any (fun u => u.arr == t.arr && u.running) || s.busyArr j t.arr then s else
  let r := s.role j t.arr
  let go (s : State) (stand : Option Nat) : State :=
    (s.setRole j t.arr 3).modLnt j fun l => { l with tests := l.tests.map fun u =>
      if u == t then ({ u with running := true, was := r, stand := stand, deadline := none } : ATest).round s else u }
  if r = 1 then go s none
  else if r = 0 ∨ r = 2 then
    match t.deadline, s.spares j with
    | none, _ => go (match t.why.ctx with
        | some c => s.modCtx j c fun x => match x.op with
          | .test o => { x with op := .test { o with late := true } }
          | .none => x | .wait _ => x | .load _ => x | .sema _ => x | .full _ => x | .fence _ _ => x | .data _ => x
        | none => s) none
    | some _, _ :: _ => let (s, sp) := s.standIn j t.arr; go s sp
    | some _, [] => s
  else s

/-- Starts every test that can start: sweeps and repeats before TEST (R680). -/
def State.tryTests (s : State) (j : Nat) : State :=
  let ts := (s.lnt j).tests
  (ts.filter (·.why.ctx.isNone) ++ ts.filter (·.why.ctx.isSome)).foldl (fun s t => s.startTest j t) s

/-- The stamp to which a test of a serving array waits for a spare: none when that has passed with no spare free (R471). -/
def State.waitUntil (s : State) (j dl : Nat) : Option Nat := if dl ≤ s.now ∧ (s.spares j).isEmpty then none else some dl

def State.addTest (s : State) (j : Nat) (t : ATest) : State := ((s.choose j t.arr).modLnt j fun l => { l with tests := l.tests ++ [t] }).tryTests j

/-- The next array of a TEST is tested, or the TEST ends (R471, R472): s[DDG] takes the digest of the reference rounds when some array has
been tested. -/
def State.testStep (s : State) (j c : Nat) : State :=
  let x := s.ctx j c
  if s.bit F.LNT_CTL.FENCED j then s else
  match x.op, x.word x.prog.ip with
  | .test t, some w =>
    match t.arrays.dropWhile fun a => s.role j a == 4 with
    | a :: rest =>
      let s := s.setCtx j c { x with op := .test { t with arrays := a :: rest } }
      s.addTest j ⟨a, .instr c, bitsOf w 55 48, none, 0, s.waitUntil j t.dl, false, 0, false, 0, 0⟩
    | [] =>
      let low := (upTo 52 (nbit t.bad)).headD 0
      if t.bad ≠ 0 ∧ w.getLsbD 8 then s.failInstr j c ⟨0x28, 0, 0, low⟩
      else
        let r := if t.ran then x.regs.setS (iF w 5) (Config.marigold (w.extractLsb' 64 64) 0 (bitsOf w 55 48)) else x.regs
        let r := r.setS (iF w 4) (BitVec.ofNat 64 t.bad)
        let r := if t.late then r.flag 6 else r
        (s.setCtx j c { x with regs := if t.bad ≠ 0 then r.flag 5 else r }).advanceIp j c 1 8
  | _, _ => s

/-- The array at the head of a context's TEST is done with: the next follows. -/
def State.testNext (s : State) (j c a : Nat) : State :=
  let x := s.ctx j c
  match x.op with
  | .test t => if t.arrays.head? = some a then (s.setCtx j c { x with op := .test { t with arrays := t.arrays.drop 1 } }).testStep j c else s
  | .none => s | .wait _ => s | .load _ => s | .sema _ => s | .full _ => s | .fence _ _ => s | .data _ => s

/-- A TEST has found a mismatch of array `a` (R472). -/
def State.testBad (s : State) (j c a : Nat) : State :=
  s.modCtx j c fun x => match x.op with
    | .test t => { x with op := .test { t with bad := if nbit t.bad a then t.bad else t.bad + 2 ^ a } }
    | .none => x | .wait _ => x | .load _ => x | .sema _ => x | .full _ => x | .fence _ _ => x | .data _ => x

/-! ### Fences (R661 to R666) -/

/-- A Lantern is fenced as a whole (R663, R664): its jobs abort, its Posy empties, its sweep and tests end. -/
def State.fenceLantern (s : State) (j : Nat) (follows : Bool := true) : State :=
  if s.bit F.LNT_CTL.FENCED j then s else
  let s := (s.wr F.LNT_CTL.FENCED 1 j).wr F.RAS_FENCE.LANTERN 1 j
  let s := (List.range 8).foldl (fun s c => let x := s.ctx j c
    if x.job.isSome && x.st != .draining && x.st != .idle then s.setCtx j c { x with abort := true } else s) s
  let s := s.emptyPosy j
  let s := (s.lnt j).tests.foldl (fun s t => if t.running then (s.setRole j t.arr t.was).standDown j t.stand else s) s
  let s := s.modLnt j fun l => { l with tests := [], sweep := none, fence := [] }
  let s := s.setMap F.RAS_MGSTAT.IN_SWEEP j false
  s.silentRec 0x46 sevFatal j 0xFF 0xFF 0 0 0 rABORTED true false none (some (5, 0)) follows

/-- An array becomes FENCED now (R321, R661, R662): a spare stands in for it, or for the array it stood in for. A stand-in of its
test stays, and a TEST of it goes on with the next array (R470). -/
def State.fenceNow (s : State) (j a : Nat) (pf0 : Bool) : State :=
  let gone := (s.lnt j).tests.filter fun t => t.arr == a
  let t := gone.find? (·.running)
  let was : Nat := match t with | some t => t.was | none => s.role j a
  let s := s.modLnt j fun l => { l with tests := l.tests.filter (·.arr != a), fence := l.fence.filter (·.1 != a) }
  let target := if was = 2 then s.rd F.LNT_ARRAY.FOR j a else a
  let s := ((s.setRole j a 4).wr F.LNT_ARRAY.FOR 0 j a).setMap F.RAS_FENCE.ARRAYS a true j
  let (s, stand) := match t.bind (·.stand) with
    | some sp => (s.wr F.LNT_ARRAY.FOR target j sp, some sp)
    | none => if was = 0 ∨ was = 2 then s.standIn j target else (s, none)
  let s := s.silentRec 0x45 sevRecoverable j a (stand.getD 0xFF) 0 0 0 0 true false none (some (4, a)) !pf0
  let s := onlyIf pf0 (s.wr F.RAS_FENCECTL.BUSY 0 j) s
  let s := onlyIf (decide (s.rd F.RAS_SECFG.ARRAY_LIMIT < (s.fencedArrays j).length)) (s.fenceLantern j) s
  gone.foldl (fun s t => match t.why.ctx with | some c => s.testNext j c a | none => s) s

/-- An array is to be fenced: now, or at the end of the operation or replay it holds (R321, R661). -/
def State.fenceArr (s : State) (j a : Nat) (pf0 : Bool) : State :=
  if s.role j a = 4 then s
  else
    let t := s.choose j a
    if t.busyArr j a then t.modLnt j fun l => { l with fence := l.fence ++ [(a, pf0)] } else t.fenceNow j a pf0

/-- The arrays to be fenced that hold nothing any more (R321, R366). -/
def State.settleFences (s : State) (j : Nat) : State :=
  (s.lnt j).fence.foldl (fun s e => if s.busyArr j e.1 then s else s.fenceNow j e.1 e.2) s

/-- An array that is about to leave the pool takes no further operation (R321). -/
def State.leaving (s : State) (j a : Nat) : Bool :=
  (s.lnt j).fence.any (·.1 == a) ||
    (s.lnt j).tests.any fun t => t.arr == a && !t.running && (t.deadline.isNone || !(s.spares j).isEmpty)

/-! ### Sweeps (R670, R671) -/

/-- Starts the next arrays of a sweep, as many as there are free spares, or one at a time. -/
def State.sweepGo (s : State) (j : Nat) : List Nat → State
  | [] => s
  | a :: q =>
    match (s.lnt j).sweep with
    | none => s
    | some sw =>
      let active := (s.lnt j).tests.filter fun t => t.why == .sweep
      if s.role j a = 4 then (s.modLnt j fun l => { l with sweep := some { sw with queue := q } }).sweepGo j q
      else if active.any (fun t => t.was == 1) || (sw.dry && !active.isEmpty) ||
          (!sw.dry && (s.spares j).isEmpty && !active.isEmpty) then s
      else
        let d := if sw.dry then none else s.waitUntil j (s.now + sw.dl)
        let s := s.modLnt j fun l => { l with sweep := some { sw with queue := q } }
        (s.addTest j ⟨a, .sweep, sw.rounds, none, 0, d, false, 0, false, 0, 0⟩).sweepGo j q

/-- Goes on with the sweep of a Lantern. -/
def State.sweepStep (s : State) (j : Nat) : State := match (s.lnt j).sweep with
  | none => s
  | some sw => s.sweepGo j sw.queue

/-- A sweep of several Lanterns begins (R670, R671); `rep` names the Lantern whose repeat test it is (R660). -/
def State.startSweep (s : State) (js : List Nat) (rounds : Nat) (rep : Option Nat) : State :=
  let js := js.filter fun j => !s.bit F.LNT_CTL.FENCED j
  if js.isEmpty then s else
  js.foldl (fun s j =>
    let sp := s.spares j
    let s := s.modLnt j fun l => { l with sweep := some ⟨rounds, s.serving j, sp.isEmpty, false, rep == some j, [],
      usTicks (s.rd F.RAS_SECFG.DEADLINE_US)⟩ }
    let s := s.setMap F.RAS_MGSTAT.IN_SWEEP j true
    let s := sp.foldl (fun s a => s.addTest j ⟨a, .sweep, rounds, none, 1, none, false, 0, false, 0, 0⟩) s
    s.sweepStep j) (s.wr F.RAS_MGCTL.BUSY 1)

/-- The Lanterns being swept. -/
def State.inSweep (s : State) : List Nat := upTo 12 (nbit (s.rd F.RAS_MGSTAT.IN_SWEEP))

/-- The repeat test of a Lantern (R660): that Lantern and the two lowest-numbered other unfenced ones. -/
def State.repeatSweep (s : State) (j : Nat) : State :=
  let others := upTo 12 fun i => i != j && !s.bit F.LNT_CTL.FENCED i
  s.startSweep (sortUniq (j :: others.take 2)) (s.rd F.RAS_SECFG.REPEAT_ROUNDS) (some j)

/-! ### Events and judgements (R659 to R663) -/

/-- Counts an event in the history, and says whether the unit is now permanent. -/
def State.countUnit (s : State) (u : HistUnit) : State × Bool :=
  let u := { u with count := u.count + 1, hours := (s.hours :: u.hours).take 8 }
  (s.setHist u, decide (s.rd F.RAS_CLASS.THRESH u.cls ≤ s.inWindow u))

/-- An ARRAY event (R659 to R661): with MODE = REPEAT the first starts a repeat test. -/
def State.arrayEvent (s : State) (j a : Nat) (rec_ : Bool := true) : State :=
  let s := s.incRc F.RAS_SECNT2.ARRAY_EVENTS j
  let u := s.histUnit 4 j a 0
  if u.permanent || s.role j a == 4 then s
  else if s.bit F.RAS_CLASS.MODE 4 && u.count == 0 then
    if (s.lnt j).tests.any (fun t => t.arr == a && t.why == .repeat_) then s
    else s.addTest j ⟨a, .repeat_, s.rd F.RAS_SECFG.REPEAT_ROUNDS, none, 0,
                      s.waitUntil j (s.now + usTicks (s.rd F.RAS_SECFG.DEADLINE_US)), false, 0, false, 0, 0⟩
  else
    let s : State := if s.bit F.RAS_CLASS.MODE 4 then s else { s with advised := insUniq j s.advised }
    let (s, perm) := s.countUnit u
    if perm then (s.markPermanent (s.histUnit 4 j a 0) 0 1 rec_).fenceArr j a false else s

/-- A LANTERN event (R659, R660, R663). -/
def State.lanternEvent (s : State) (j : Nat) (rec_ : Bool := true) : State :=
  let s := s.incRc F.RAS_SECNT2.LANTERN_EVENTS j
  let u := s.histUnit 5 j 0 0
  if u.permanent || s.bit F.LNT_CTL.FENCED j then s
  else if s.bit F.RAS_CLASS.MODE 5 && u.count == 0 then
    if s.tests.any (fun t => t.2.at_ 5 j 0 0) then s
    else
      let s : State := { s with tests := s.tests ++ [(j, u)] }
      if s.bit F.RAS_MGCTL.BUSY then s else s.repeatSweep j
  else
    let s : State := if s.bit F.RAS_CLASS.MODE 5 then s else { s with advised := insUniq j s.advised }
    let (s, perm) := s.countUnit u
    if perm then (s.markPermanent (s.histUnit 5 j 0 0) 0 1 rec_).fenceLantern j else s

/-! ### The TEST instruction (R470 to R473) -/

/-- TEST (R470 to R473): its registers change when it ends (R419). -/
def execTest (j : Cluster) (c : CtxIx) (s : State) : Res :=
  s.issue j c (· == 0x38) fun s w _ =>
    let n := bitsOf w 45 40
    let arrays := (if n = 63 then List.range 52 else [n]).filter fun a => s.role j a != 4
    let dl := s.now + ((s.ctx j c).regs.s.getD (iF w 2) 0).toNat
    (s.modCtx j c fun x => { x with op := .test ⟨arrays, 0, dl, false, !arrays.isEmpty⟩ }).testStep j c

/-! ### Rounds and their ends (R660, R667 to R669, R672) -/

/-- A test has run all its rounds. A repeat test of the same array follows at once; else the array returns to its role and its
stand-in to SPARE, unless the repeat test failed: then the array is permanent and FENCED, and its stand-in stays. -/
def State.finishTest (s : State) (j : Nat) (t : ATest) : State :=
  let drop (s : State) : State := s.modLnt j fun l => { l with tests := l.tests.filter (· != t) }
  let back (s : State) : State := ((drop s).setRole j t.arr t.was).standDown j t.stand
  let then_ (s : State) : State :=
    match (s.lnt j).tests.find? fun u => u.arr == t.arr && u.why == .repeat_ && u != t with
    | some u => (drop s).modLnt j fun l => { l with tests := l.tests.map fun x =>
        if x == u then ({ u with running := true, was := t.was, stand := t.stand, deadline := none } : ATest).round s else x }
    | none => back s
  match t.why with
  | .repeat_ =>
    let u := s.histUnit 4 j t.arr 0
    if t.bad then ((s.markPermanent u 0 1 true).fenceNow j t.arr false).tryTests j
    else ((back s).countUnit u).1.tryTests j
  | .sweep =>
    let s := s.modLnt j fun l => { l with sweep := l.sweep.map fun w => { w with bad := w.bad || t.bad } }
    ((then_ s).tryTests j).sweepStep j
  | .instr c =>
    ((then_ s).tryTests j).testNext j c t.arr

/-- MARIGOLD_ROUND_END (R472, R660, R667 to R669, R672): a round ends on the array under test and on the work pool; `mismatch` says that
its outputs differ from the pool's or a checker missed its wrong value (R668), `parity` that a parity or residue check of the array failed,
which is no mismatch. -/
def execMarigoldRoundEnd (j : Cluster) (a : ArrIx) (mismatch parity : Bool) (s : State) : Res :=
  if !s.nmcEdge then .next s else
  match (s.lnt j).tests.find? fun t => t.arr == a.val && t.running with
  | none => .next s
  | some t =>
    .next (onlyIf (decide (t.at_ ≤ s.now) && t.refs == 0 && t.out == 0 && !s.bit F.LNT_CTL.FENCED j)
      (let s := match t.why.ctx with
         | some c => onlyIf mismatch (s.testBad j c a) s
         | none => s
       let s := onlyIf parity (s.incRc F.RAS_SECNT2.PARITY j) s
       let s := onlyIf mismatch ((s.incRc F.RAS_SECNT2.MG_MISMATCH j).silentRec 0x43 sevRecoverable j a (t.stand.getD 0xFF) 0 0 0 0
         true false t.why.ctx (some (4, a))) s
       let bad := mismatch || (parity && t.why == .repeat_)
       let s := onlyIf (parity && t.why != .repeat_) (s.arrayEvent j a mismatch) s
       -- R673 charges what a sweep finds at its end
       let s := if !mismatch || t.why == .repeat_ then s
         else if t.why == .sweep then s.modLnt j fun l => { l with sweep := l.sweep.map fun w => { w with hits := insUniq a.val w.hits } }
         else s.arrayEvent j a
       let t' : ATest := ({ t with rounds := t.rounds - 1, bad := t.bad || bad } : ATest).round s
       let s := s.modLnt j fun l => { l with tests := l.tests.map fun u => if u == t then t' else u }
       if s.role j a = 4 then s else if t.rounds ≤ 1 then s.finishTest j t' else s) s)

/-- A spare comes free in the present cycle: a test that has one, or is of one, ends its last round, or a replay on one ends. -/
def State.spareFrees (s : State) (j : Nat) : Bool :=
  ((s.lnt j).tests.any fun t => t.running && decide (t.rounds ≤ 1 ∧ t.at_ ≤ s.now) && t.refs == 0 && t.out == 0 && (t.stand.isSome || t.was == 1)) ||
    ((List.range 8).any fun c => match (s.ctx j c).op with
      | .data d => d.chunks.any fun ch => (match ch.st with
          | .replay a t => s.role j a == 3 && decide (t ≤ s.now)
          | .index => false | .fetch => false | .compute => false | .verdict _ => false | .collect _ => false | .writing => false)
      | .none => false | .wait _ => false | .load _ => false | .sema _ => false | .full _ => false | .fence _ _ => false | .test _ => false)

/-- TEST_SPARE_DEADLINE (R471, R474, R670): a test's deadline passes with no spare free, and none coming free: its array leaves without a
stand-in at the end of its operation. -/
def execTestSpareDeadline (j : Cluster) (a : ArrIx) (s : State) : Res :=
  if !s.nmcEdge then .next s else
  match (s.lnt j).tests.find? fun t => t.arr == a.val && !t.running && (t.deadline.any fun d => decide (d ≤ s.now)) with
  | none => .next s
  | some t =>
    if s.spareFrees j || !(s.spares j).isEmpty then .next s else
    .next ((s.modLnt j fun l => { l with tests := l.tests.map fun u => if u == t then { t with deadline := none } else u }).tryTests j)

/-! ### Sweeps commanded, and their ends (R671, R673 to R675) -/

/-- Every Lantern. -/
def allLanterns : List Nat := List.range 12

/-- A step sweep begins. -/
def State.stepSweep (s : State) : State := s.startSweep allLanterns (s.rd F.RAS_SECFG.STEP_ROUNDS) none

/-- A step boundary (R671, R674): RAS_MGSTEP takes the stamp, and a step sweep starts, or waits for the one that runs; an overrun while one
waits already. -/
def State.stepMark (s : State) : State :=
  if s.bit F.RAS_MGCTL.PENDING then (s.incRc F.RAS_MGSTAT.OVERRUNS).silentRec 0x47 sevInfo 0xFF 0xFF 0xFF 0 0 0 0 false false
  else
    let old := s.rd F.RAS_MGSTEP.STAMP
    let s := (s.wr F.RAS_MGSTEP_PREV.STAMP old).wr F.RAS_MGSTEP.STAMP s.now
    let s := s.auditReg 0x2C05018 old s.now
    if !s.bit F.RAS_SECFG.STEP_EN then s
    else if s.bit F.RAS_MGCTL.BUSY then s.wr F.RAS_MGCTL.PENDING 1
    else s.stepSweep

/-- MG_STEP (R671, R674, R680): PF0 marks a step boundary; a write that meets the boot sweep waits for READY. -/
def execMgStep (s : State) : Res := s.orWait .mgStep fun s =>
  if !s.inBoot then .next s.stepMark
  else .next (onlyIf (s.bit F.RAS_MGCTL.BUSY) { s with fw := { s.fw with stepWaits := true } } s)

/-- MG_SWEEP (R671, R681): PF0 writes RAS_MGCTL with SWEEP = 1. -/
def execMgSweep (v : W32) (s : State) : Res := s.orWait (.mgSweep v) fun s =>
  if s.inBoot then .next s else
  let old := (s.reg .RAS_MGCTL).toNat
  let s := onlyIf (bitsOf v 29 29 == 1) (s.ack F.RAS_MGCTL.REJ) s
  let s := s.wr F.RAS_MGCTL.LNT (bitsOf v 15 12)
  let s := onlyIf (bitsOf v 7 0 != 0) (s.wr F.RAS_MGCTL.ROUNDS (bitsOf v 7 0)) s
  let n := s.rd F.RAS_MGCTL.LNT
  let s := if bitsOf v 27 27 = 0 then s
    else if s.bit F.RAS_MGCTL.BUSY then s.raise F.RAS_MGCTL.REJ
    else s.startSweep (if n = 15 then allLanterns else if n < 12 then [n] else []) (s.rd F.RAS_MGCTL.ROUNDS) none
  .next (s.auditReg 0x2C05004 old (s.reg .RAS_MGCTL).toNat)

/-- The value that more than half of at least two hold (R673). -/
def majority (vs : List W64) : Option W64 :=
  vs.find? fun v => let n := (vs.filter (· == v)).length; decide (2 ≤ n) && decide (vs.length < 2 * n)

/-- What follows a sweep: a pending step sweep (R674), or a Lantern's repeat test that waits (R660). -/
def State.afterSweep (s : State) : State :=
  if s.bit F.RAS_MGCTL.PENDING then (s.wr F.RAS_MGCTL.PENDING 0).stepSweep
  else match s.tests.find? fun t => t.2.cls == 5 with
    | some t => s.repeatSweep t.1
    | none => s

/-- SWEEP_END (R660, R669, R673, R675): every swept Lantern has tested its arrays; `digests` holds the CRC-64 each Lantern formed, 0 where
it names none.
A Lantern whose digest differs from the majority is charged; of the others, the arrays that differed from the pool. -/
def execSweepEnd (digests : List W64) (s : State) : Res :=
  let js := s.inSweep
  let done := js.all fun j => (match (s.lnt j).sweep with
    | some sw => sw.queue.isEmpty && !((s.lnt j).tests.any fun t => t.why == .sweep)
    | none => true)
  if !s.bit F.RAS_MGCTL.BUSY || !done then .next s
  else
    let dig (j : Nat) : W64 := digests.getD j 0
    let maj := majority (js.map dig)
    let rounds := js.foldl (fun n j => match (s.lnt j).sweep with | some sw => max n sw.rounds | none => n) 0
    let s0 := s
    let s := js.foldl (fun s j => s.setReg .RAS_MGDIG j 0 (dig j)) s
    let s := ((s.incWrap F.RAS_MGROUND.NEXT 0 0 rounds).wr F.RAS_MGCTL.BUSY 0).wr F.RAS_MGSTAT.IN_SWEEP 0
    let s := js.foldl (fun s j => s.modLnt j fun l => { l with sweep := none }) s
    let s := if maj.isNone && decide (2 ≤ js.length) then s.silentRec 0x44 sevRecoverable 0xFF 0xFF 0xFF 0 0 0 0 false false else s
    let s := js.foldl (fun s j =>
      let off := maj.any fun m => m != dig j
      let sw := (s0.lnt j).sweep
      let s : State := if !off && !(sw.any (·.bad)) then { s with advised := s.advised.filter (· != j) } else s
      if sw.any (·.rep) then
        let s : State := { s with tests := s.tests.filter fun t => !t.2.at_ 5 j 0 0 }
        let u := s.histUnit 5 j 0 0
        if off then
          let s := s.silentRec 0x44 sevRecoverable j 0xFF 0xFF 0 0 0 0 true false none (some (5, 0))
          (s.markPermanent u 0 1 true).fenceLantern j
        else (s.countUnit u).1
      else if off then (s.silentRec 0x44 sevRecoverable j 0xFF 0xFF 0 0 0 0 true false none (some (5, 0))).lanternEvent j
      else s) s
    let s := js.foldl (fun s j =>
      if maj.any fun m => m != dig j then s
      else (match (s0.lnt j).sweep with | some w => w.hits | none => []).foldl (fun s a => s.arrayEvent j a false) s) s
    .next (if s.bit F.RAS_MGCTL.BUSY then s else s.afterSweep)

/-! ### PF0's fences (R663, R665, R681) -/

/-- A fence PF0 makes counts as one event of its class (R665). -/
def State.fenceEvent (s : State) (cls j a : Nat) : State := (s.countUnit (s.histUnit cls j a 0)).1

/-- A write of RAS_FENCECTLk with OP. -/
def State.fenceCtl (s : State) (k op a : Nat) : State :=
  if s.inBoot then s else
  let old := (s.reg .RAS_FENCECTL k).toNat
  let busy := s.bit F.RAS_FENCECTL.BUSY k
  let s := s.wr F.RAS_FENCECTL.ARRAY a k
  let s := if op = 0 ∨ op = 3 then s
    else if busy then s.wr F.RAS_FENCECTL.RESULT 2 k
    else if op = 2 then
      if s.bit F.LNT_CTL.FENCED k then s.wr F.RAS_FENCECTL.RESULT 1 k
      else ((s.fenceEvent 5 k 0).wr F.RAS_FENCECTL.RESULT 0 k).fenceLantern k false
    else if 52 ≤ a then s.wr F.RAS_FENCECTL.RESULT 3 k
    else if s.role k a = 4 then s.wr F.RAS_FENCECTL.RESULT 1 k
    else (((s.fenceEvent 4 k a).wr F.RAS_FENCECTL.RESULT 0 k).wr F.RAS_FENCECTL.BUSY 1 k).fenceArr k a true
  s.auditReg (0x2C05208 + 0x10 * k) old ((s.reg .RAS_FENCECTL k).toNat + op <<< 26)

/-- FENCE_ARRAY (R663, R665). -/
def execFenceArray (k : Cluster) (a : ArrIx) (s : State) : Res := s.orWait (.fenceArray k a) fun s => .next (s.fenceCtl k 1 a)

/-- FENCE_LANTERN (R663, R664). -/
def execFenceLantern (k : Cluster) (s : State) : Res := s.orWait (.fenceLantern k) fun s => .next (s.fenceCtl k 2 (s.rd F.RAS_FENCECTL.ARRAY k))

end Sys2Proof.Machine
end

