-- ==== Sys2Proof/Machine/Chunks.lean ====
section
/-! DEFINITION. Data instructions at work (chapters "The Lantern" and "Amnubo: data operations"): their chunks from the fetch of
inputs to the commit, replays, CONTRIB's requests and COLLECT's waits. -/

namespace Sys2Proof.Machine

/-! ### Finding and changing chunks -/

/-- The registers of a context as the instruction in progress sees them. -/
def State.denvOf (s : State) (j c : Nat) (w : BitVec 128) : DEnv := (s.ctx j c).denv (s.rd F.LNT_CTX_SEED.SEED j c) w.toNat

/-- The data instruction in progress. -/
def State.dop (s : State) (j c : Nat) : Option DOp := match (s.ctx j c).op with
  | .data d => some d
  | .none => none | .wait _ => none | .load _ => none | .sema _ => none | .full _ => none | .fence _ _ => none | .test _ => none

def State.setDop (s : State) (j c : Nat) (d : DOp) : State := s.modCtx j c fun x => { x with op := .data d }
def State.modDop (s : State) (j c : Nat) (f : DOp → DOp) : State := match s.dop j c with
  | some d => s.setDop j c (f d)
  | none => s
def State.modChunk (s : State) (j c m : Nat) (f : Chunk → Chunk) : State :=
  s.modDop j c fun d => { d with chunks := d.chunks.map fun ch => if ch.m == m then f ch else ch }
def State.chunk (s : State) (j c m : Nat) : Option Chunk := (s.dop j c).bind fun d => d.chunks.find? (·.m == m)

def ChunkSt.isWriting : ChunkSt → Bool
  | .writing => true
  | .index => false | .fetch => false | .compute => false | .verdict _ => false | .replay _ _ => false | .collect _ => false

/-- A write or CONTRIB of a chunk not below `m`. -/
def LReq.writes (q : LReq) (c m : Nat) : Bool := q.ctx == c && (match q.kind with
  | .out n => decide (m ≤ n)
  | .contrib n => decide (m ≤ n)
  | .code => false | .poll => false | .sema _ => false | .posted _ => false | .data _ _ => false | .journal => false)

/-- A failing chunk and those after it send no further request. -/
def State.stopSends (s : State) (j c m : Nat) : State :=
  s.modLnt j fun l => { l with
    queue := l.queue.filter fun q => !q.writes c m
    reqs := l.reqs.filter fun q => !(q.writes c m && q.st != .sent) }

/-- A chunk fails (R358, R437, R438, R448, R474, R498, R506): the instruction fails with it when every earlier chunk has
committed, and, for a chunk that is writing, when its last reply has come. Entries that it holds return to OPEN (R498). -/
def State.chunkFails (s : State) (j c m : Nat) (e : Exc) : State :=
  match s.dop j c, s.chunk j c m with
  | some d, some ch =>
    if ch.fail.isSome || ch.bad.isSome then s
    else
      let s := s.modChunk j c m fun ch => { ch with fail := some e }
      if ch.st.isWriting then s.stopSends j c m
      else if d.chunks.head?.any (·.m == m) then s.failInstr j c e
      else (s.releaseHeld j ch.held).modChunk j c m fun ch => { ch with held := [] }
  | some _, none => s
  | none, _ => s

/-! ### Fetching (R354, R436 to R438, R448, R533) -/

/-- The bytes at a place of a function's host window lie in it, as its size stood at the tick's start (R533, R554). -/
def State.inHwin (s : State) (fn off len : Nat) : Bool := decide (off + len ≤ 4096 * s.rd0 F.FN_HWIN_SIZE.SIZE_4K fn)

/-- Sends host-window reads, each tag with its next GEN (R124), while fewer than 64 of the Lantern are outstanding (R533), and none for a
function whose Bus Master Enable is 0 (R544). A read that a new size of the window leaves outside fails its MOVE with DESC (R534, R554:
DESIGN CHOICE, notes/assumptions/53). -/
def State.pumpHost (s : State) (j : Nat) : State := (s.lnt j).hqueue.foldl (fun s r =>
    let l := s.lnt j
    match leastBelow 64 fun t => !(l.hreqs.any (·.tag == t)), (s.ctx j r.ctx).job with
    | some t, some b =>
      let off := dWinOff ((s.ctx j r.ctx).regs.d.getD r.reg 0) r.line
      if s.rings.bmeOff.contains b.fn || !l.hqueue.contains r then s
      else if !s.inHwin b.fn off (r.len * 64) then
        (s.setLnt j { l with hqueue := l.hqueue.erase r }).chunkFails j r.ctx r.m ⟨0x0B, 0, r.reg, 0⟩
      else
        let g := (tget 0 l.hgens t + 1) % 16
        (s.setLnt j { l with hreqs := l.hreqs ++ [{ r with tag := t, gen := g }], hqueue := l.hqueue.erase r,
                             hgens := tset 0 l.hgens t g }).send
          (.hostRead b.fn (s.rd0 F.FN_HWIN_BASE.BASE b.fn * 4096 + off) (r.len * 64) t g)
    | some _, none => s
    | none, _ => s) s

/-- The verdict's delay in CLK_NMC cycles (R354, R445). -/
def verdictCycles (o : Nat) : Nat := if o = 0x23 ∨ o = 0x28 ∨ o = 0x29 then 16 else 32

/-- A chunk has its inputs: its array operations are ready, or, without any, its verdict follows. -/
def State.toCompute (s : State) (j c m : Nat) : State :=
  match s.dop j c with
  | none => s
  | some d =>
    let E := s.denvOf j c d.w
    let n := chunkOps E (chunkEls E d.e m).length
    let st : ChunkSt := if n = 0 then .verdict (s.now + s.cyc (verdictCycles (iOp d.w))) else .compute
    s.modChunk j c m fun ch => { ch with st := st, ops := n }

/-- Fetches the lines of input fields that the chunk does not hold. -/
def State.fetch (s : State) (j c m : Nat) (lines : List (Nat × List Nat)) : State :=
  match s.dop j c, s.chunk j c m with
  | some d, some ch =>
    let E := s.denvOf j c d.w
    let (_, parts) := lines.foldl (fun (a : List Nat × List (Nat × List Nat)) e =>
      let new := e.2.filter fun l => !a.1.contains l
      (a.1 ++ new, a.2 ++ [(e.1, new)])) (ch.ins.map (·.1), [])
    let n := (parts.map fun e => e.2.length).sum
    let s := s.modChunk j c m fun ch => { ch with st := .fetch, need := n }
    let host := parts.flatMap fun e => if dHost (E.d e.1) then (lineRuns e.2).map fun r => (⟨0, 0, c, m, iF d.w e.1, r.1, r.2⟩ : HostRd) else []
    let reads := parts.flatMap fun e => if dHost (E.d e.1) then [] else readsOf c (.data m (iF d.w e.1)) 0 e.2
    let s := ((s.modLnt j fun l => { l with hqueue := l.hqueue ++ host }).pumpHost j).ask j reads
    if n = 0 then s.toCompute j c m else s
  | some _, none => s
  | none, _ => s

/-- The lines of a COLLECT chunk that the access check refuses (R492). -/
def State.collectDenied (s : State) (j c : Nat) (E : DEnv) (m : Nat) : Option Exc :=
  match (s.ctx j c).job with
  | none => none
  | some b => (collectLines E m).findSome? fun l =>
    match s.access (27 + j) b.fn (some b.tenant) (mkHdr opCONTRIB 1 0 0 2 false (l * 64) 0 0 0 (dFmt (E.d 1))) with
    | .deny r _ => some (memExc r (iF E.w 1) l)
    | .accept => none
    | .sealed => none

/-- Starts, or starts again, a chunk: its index lines, its COLLECT wait, or its inputs. -/
def State.startChunk (s : State) (j c m : Nat) : State :=
  match s.dop j c with
  | none => s
  | some d =>
    let E := s.denvOf j c d.w
    let o := iOp d.w
    let es := chunkEls E d.e m
    let now := s.now
    if o = 0x12 ∨ o = 0x13 then
      (s.fetch j c m [(2, sortUniq (dLines (E.d 2) es))]).modChunk j c m fun ch => { ch with st := .index }
    else if o = 0x31 then
      let s := s.modChunk j c m fun ch => { ch with st := .collect now }
      match s.collectDenied j c E m with
      | some e => s.chunkFails j c m e
      | none => s
    else s.fetch j c m (chunkLines E [] es)

/-- A chunk that has not begun. -/
def Chunk.new (m : Nat) : Chunk := ⟨m, .fetch, [], 0, 0, [], 0, [], 0, none, none, none, false, [], []⟩

/-- A chunk has reached its verdict: the next one may be fetched (R465). -/
def Chunk.pastCompute (ch : Chunk) : Bool := ch.fail.isNone && ch.bad.isNone && (match ch.st with
  | .verdict _ => true | .replay _ _ => true | .writing => true
  | .index => false | .fetch => false | .compute => false | .collect _ => false)

/-- The next chunk begins when the one before it has reached its verdict and at most one is in the store (R357, R465, R505). -/
def State.beginChunk (s : State) (j c : Nat) : State :=
  match s.dop j c with
  | none => s
  | some d =>
    if d.next < d.total ∧ d.chunks.length < 2 ∧ d.chunks.all Chunk.pastCompute then
      (s.setDop j c { d with next := d.next + 1, chunks := d.chunks ++ [Chunk.new d.next] }).startChunk j c d.next
    else s

/-- The chunks begin that may: two when the first needs neither input nor array operation. -/
def State.beginChunks (s : State) (j c : Nat) : State := (s.beginChunk j c).beginChunk j c

/-- Every line a chunk waited for has come: the rows of its index entries are fetched (R448), or it is computed. -/
def State.inputsDone (s : State) (j c m : Nat) : State :=
  match s.dop j c, s.chunk j c m with
  | some d, some ch =>
    match ch.st with
    | .index =>
      let E := s.denvOf j c d.w
      let es := chunkEls E d.e m
      let t := if iOp d.w = 0x12 then 1 else 0
      match es.find? fun i => (rowOf E ch.ins t i).isNone with
      | some i => s.chunkFails j c m ⟨0x25, 0, 0, i⟩
      | none => s.fetch j c m (chunkLines E ch.ins es)
    | .fetch => s.toCompute j c m
    | .compute => s | .verdict _ => s | .replay _ _ => s | .collect _ => s | .writing => s
  | some _, none => s
  | none, _ => s

/-- Lines arrive for a chunk. -/
def State.giveLines (s : State) (j c m : Nat) (ls : List (Nat × LineData)) : State :=
  match s.chunk j c m with
  | none => s
  | some ch =>
    let n := ch.need - ls.length
    let s := s.modChunk j c m fun ch => { ch with ins := ch.ins ++ ls, need := n }
    if n = 0 ∧ ch.fail.isNone then (s.inputsDone j c m).beginChunks j c else s

/-! ### Issue -/

/-- The lines of a key stream in the order of R380. -/
def keyLines (d : Desc) (es : List Nat) : List Nat :=
  (es.filter fun e => dBit d e % 512 == 0).map fun e => (dBit d e / 512).toNat

/-- COLLECT's check that every line lies in the Lantern's cluster, in its place among those of R428 (R491). -/
def State.remoteBad (s : State) (j : Nat) (E : DEnv) (bad : Option Exc) : Option Exc :=
  if iOp E.w = 0x31 ∧ bad.all (fun e => e.code == 0x23 || e.code == 0x24) then
    ((keyLines (E.d 1) (List.range (dN (E.d 1)))).find? fun l => s.siteOf (l * 64) != j).elim bad
      fun l => some ⟨0x30, 0, iF E.w 1, paField l⟩
  else bad

/-- Frees the entries of a Posy with given keys that no COLLECT holds (R494). -/
def State.freeKeys (s : State) (j : Nat) (ks : List PosyKey) : State :=
  let p := s.posy j
  s.setPosy j { p with ents := p.ents.filter fun e => !(e.2.any fun x => !x.held && ks.contains x.key) }

/-- COLLECT with DISC = 1 (R494, R501): its chunks one after another, in 8 + 4c cycles. -/
def State.discard (s : State) (j c : Nat) (E : DEnv) (x : BitVec 128) (total : Nat) : State :=
  let (s, bad) := (List.range total).foldl (fun (a : State × Option Exc) m =>
    if a.2.isSome then a
    else match a.1.collectDenied j c E m with
      | some e => (a.1, some e)
      | none => (a.1.freeKeys j (collectKeys E x m), none)) (s, none)
  match bad with
  | some e => s.failInstr j c e
  | none => (s.modCtx j c fun x => { x with regs := x.regs.setS (iF E.w 4) 0 }).advanceIp j c 2 (8 + 4 * total)

/-- A data instruction issues (R423 steps 4 and 5, R428, R491): its first chunk begins. -/
def State.startData (s : State) (j c : Nat) (w x : BitVec 128) : State :=
  match (s.ctx j c).job with
  | none => s
  | some b =>
    match s.descsBad b.fn w (s.ctx j c) with
    | some e => s.failInstr j c e
    | none =>
      let E := s.denvOf j c w
      match s.remoteBad j E (dataBad E) with
      | some e => s.failInstr j c e
      | none =>
        let (e, total) := chunkPlan E
        if iOp w = 0x31 ∧ w.getLsbD 8 then s.discard j c E x total
        else (s.setDop j c ⟨iOp w, w, x, e, total, 0, [], 0, DAcc.start (if iOp w = 0x23 then bitsOf w 9 8 else 0)⟩).beginChunks j c

/-- MOVE (R446). -/
def execMove (j : Cluster) (c : CtxIx) (s : State) : Res := s.issue j c (· == 0x10) fun s w x => s.startData j c w x
/-- FILL (R447). -/
def execFill (j : Cluster) (c : CtxIx) (s : State) : Res := s.issue j c (· == 0x11) fun s w x => s.startData j c w x
/-- GATHER (R448). -/
def execGather (j : Cluster) (c : CtxIx) (s : State) : Res := s.issue j c (· == 0x12) fun s w x => s.startData j c w x
/-- SCATTER (R448, R450). -/
def execScatter (j : Cluster) (c : CtxIx) (s : State) : Res := s.issue j c (· == 0x13) fun s w x => s.startData j c w x
/-- CAST (R451). -/
def execCast (j : Cluster) (c : CtxIx) (s : State) : Res := s.issue j c (· == 0x18) fun s w x => s.startData j c w x
/-- QUANT (R452). -/
def execQuant (j : Cluster) (c : CtxIx) (s : State) : Res := s.issue j c (· == 0x19) fun s w x => s.startData j c w x
/-- DEQ (R453). -/
def execDeq (j : Cluster) (c : CtxIx) (s : State) : Res := s.issue j c (· == 0x1A) fun s w x => s.startData j c w x
/-- EW (R455). -/
def execEw (j : Cluster) (c : CtxIx) (s : State) : Res := s.issue j c (· == 0x20) fun s w x => s.startData j c w x
/-- OPT (R456 to R461). -/
def execOpt (j : Cluster) (c : CtxIx) (s : State) : Res := s.issue j c (· == 0x21) fun s w x => s.startData j c w x
/-- MMA (R462 to R464). -/
def execMma (j : Cluster) (c : CtxIx) (s : State) : Res := s.issue j c (· == 0x22) fun s w x => s.startData j c w x
/-- NORM (R466, R467). -/
def execNorm (j : Cluster) (c : CtxIx) (s : State) : Res := s.issue j c (· == 0x23) fun s w x => s.startData j c w x
/-- CHECK (R468). -/
def execCheck (j : Cluster) (c : CtxIx) (s : State) : Res := s.issue j c (· == 0x28) fun s w x => s.startData j c w x
/-- DIGEST (R469). -/
def execDigest (j : Cluster) (c : CtxIx) (s : State) : Res := s.issue j c (· == 0x29) fun s w x => s.startData j c w x
/-- CONTRIB (R502 to R506). -/
def execContribInstr (j : Cluster) (c : CtxIx) (s : State) : Res := s.issue j c (· == 0x30) fun s w x => s.startData j c w x
/-- COLLECT (R490 to R494). -/
def execCollect (j : Cluster) (c : CtxIx) (s : State) : Res := s.issue j c (· == 0x31) fun s w x => s.startData j c w x

/-! ### Array operations (R321, R350, R435, R464) -/

/-- The chunk and operation a context has ready for the arrays: in MMA, the slice before it on the same tile has ended. -/
def State.opReady (s : State) (j c : Nat) : Option (Nat × Nat) :=
  let x := s.ctx j c
  match s.dop j c, x.job with
  | some d, some b =>
    let E := s.denvOf j c d.w
    d.chunks.findSome? fun ch =>
      let t := (chunkEls E d.e ch.m).length / 16
      let free := iOp d.w != 0x22 || decide (ch.todo < t) ||
        !((s.lnt j).arrs.any fun a => a.2.any fun o => o.ctx == c && o.m == ch.m && o.i + t == ch.todo)
      if ch.st == .compute && decide (ch.todo < ch.ops) && free && x.st == .running && s.lanternAdmits b.tenant s.now then
        some (ch.m, ch.todo)
      else none
  | some _, none => none
  | none, _ => none

/-- The serving arrays that can take an operation, ascending. -/
def State.freeArrays (s : State) (j : Nat) : List Nat :=
  (s.serving j).filter fun a => ((s.lnt j).arr a).isNone && !s.leaving j a && !s.replaying j a

/-- Hands an operation to one array, or in paired mode to two (R329). -/
def State.handOp (s : State) (j c m i : Nat) (arrs : List Nat) : State :=
  match s.dop j c with
  | none => s
  | some d =>
    let E := s.denvOf j c d.w
    let at_ := s.now + s.cyc (opCycles E (chunkEls E d.e m).length i)
    let put (t : Tbl (Option ArrOp)) (a pair : Nat) := tset none t a (some ⟨c, m, i, pair, at_⟩)
    let now := s.now
    let s := s.modLnt j fun l => { l with
      arrs := (match arrs with
        | [] => l.arrs
        | [a] => put l.arrs a 0
        | a :: b :: _ => put (put l.arrs a (1 + b)) b (100 + a))
      rrd := c
      disp := now + 1 }
    let s := s.modChunk j c m fun ch => { ch with todo := ch.todo + 1, who := ch.who ++ arrs.map fun a => (i, a) }
    (s.pmuCtx j c 1 1).evt j 0x01 c

/-- The gate stops the job of a context in the present tick (R304, R305). -/
def State.ctxGated (s : State) (j c : Nat) : Bool := (s.ctx j c).job.any fun b => !s.lanternAdmits b.tenant s.now

/-- A running test of which the work pool has an operation of the reference block to take: of context `c`'s TEST, unless the gate stops
it, or of a sweep or repeat test, which none stops (R472, R669). -/
def State.refReady (s : State) (j : Nat) (c : Option Nat) : Option ATest :=
  if c.any (s.ctxGated j) then none else (s.lnt j).tests.find? fun t => t.running && t.why.ctx == c && t.refs != 0

/-- Hands an operation of a test's reference block to one array, or in paired mode to two: 64 cycles (R472). -/
def State.handRef (s : State) (j : Nat) (t : ATest) (arrs : List Nat) : State :=
  let now := s.now
  let at_ := now + s.cyc 64
  let put (r : Tbl (Option ArrOp)) (a pair : Nat) := tset none r a (some ⟨t.why.ctx.getD 8, 0, 0, pair, at_⟩)
  s.modLnt j fun l => { l with
    arrs := (match arrs with
      | [] => l.arrs
      | [a] => put l.arrs a (200 + t.arr)
      | a :: b :: _ => put (put l.arrs a (200 + t.arr)) b (100 + a))
    rrd := t.why.ctx.getD l.rrd
    disp := now + 1
    tests := l.tests.map fun u => if u == t then { u with refs := u.refs - 1, out := u.out + 1 } else u }

/-- ARRAY_OP_DISPATCH (R350): round-robin over the contexts, to the lowest-numbered free serving array. The reference operations of sweeps
and repeat tests, which no context owns, go first (DESIGN CHOICE, notes/assumptions/52). -/
def execArrayOpDispatch (j : Cluster) (s : State) : Res :=
  let l := s.lnt j
  if !s.nmcEdge || l.disp == s.now + 1 then .next s else
  let n := if s.bit F.LNT_CTL.PAIRED j then 2 else 1
  let free := s.freeArrays j
  if free.length < n then .next s else
  match s.refReady j none with
  | some t => .next (s.handRef j t (free.take n))
  | none =>
    match ((List.range 8).map fun i => (l.rrd + 1 + i) % 8).find? fun c => (s.opReady j c).isSome || (s.refReady j (some c)).isSome with
    | none => .next s
    | some c => match s.opReady j c, s.refReady j (some c) with
      | some (m, i), _ => .next (s.handOp j c m i (free.take n))
      | none, some t => .next (s.handRef j t (free.take n))
      | none, none => .next s

/-- ARRAY_OP_END (R321, R354, R366, R465, R661): an array's operation ends; after a chunk's last its verdict is due and the next chunk is
fetched. An array chosen before this
cycle to be fenced or tested leaves the pool. -/
def execArrayOpEnd (j : Cluster) (a : ArrIx) (s : State) : Res :=
  if !s.nmcEdge then .next s else
  match (s.lnt j).arr a with
  | none => .next s
  | some o =>
    .next (onlyIf (decide (o.at_ ≤ s.now))
      (let s := s.modLnt j fun l => { l with arrs := tset none l.arrs a none }
       let due := s.now + s.cyc (match s.dop j o.ctx with | some d => verdictCycles (iOp d.w) | none => 32)
       let s := if 200 ≤ o.pair then s.modLnt j fun l => { l with tests := l.tests.map fun t =>
           if t.arr + 200 == o.pair && t.running then { t with out := t.out - 1 } else t }
         else if 100 ≤ o.pair then s else (s.modChunk j o.ctx o.m fun ch => { ch with
         ended := ch.ended + 1
         st := if ch.ended + 1 = ch.ops ∧ ch.st = .compute then .verdict due else ch.st }).beginChunks j o.ctx
       ((s.modLnt j fun l => { l with ended := insUniq a.val l.ended }).settleFences j).tryTests j) s)

/-! ### The verdict (R354 to R356, R439, R461, R505) -/

/-- What a chunk's held inputs give. -/
def State.chunkCalc (s : State) (j c : Nat) (d : DOp) (ch : Chunk) : DRes :=
  let E := s.denvOf j c d.w
  if iOp d.w = 0x31 then calcCollect E ch.ents ch.m d.acc
  else calcChunk E ch.ins (chunkEls E d.e ch.m) d.acc

/-- The array that computed an element: that of its operation; 0xFF when no array computed it. -/
def State.arrOf (s : State) (j c : Nat) (d : DOp) (ch : Chunk) (e : Nat) : Nat :=
  let E := s.denvOf j c d.w
  let es := chunkEls E d.e ch.m
  let n := dCount0 (E.d 0)
  let e0 := es.headD 0
  let i := if iOp d.w = 0x22 then
      (es.length / 16) * (mmaSlices E - 1) + (e / n - e0 / n) / 4 * (min 32 (n - e0 % n) / 4) + (e % n - e0 % n) / 4
    else (es.findIdx (· == e)) / (1024 / max 1 (passesOf d.w))
  ((ch.who.find? fun x => x.1 == i).map (·.2)).getD 0xFF

/-- The lower of two failing checks by element; the first on a tie. -/
def lowerFail (a b : Option (Nat × Nat × Nat)) : Option (Nat × Nat × Nat) :=
  match a, b with
  | some x, some y => if x.2.1 ≤ y.2.1 then some x else some y
  | some x, none => some x
  | none, y => y

/-- The output lines of a chunk, those that several of its streams share once, under the first stream's register (R433). -/
def mergeLines (outs : List OutLine) : List OutLine := outs.foldl (fun a o =>
  if a.any (·.line == o.line) then
    a.map fun p => if p.line == o.line then { p with data := p.data ||| o.data, mask := p.mask ||| o.mask } else p
  else a ++ [o]) []

/-- Sends the writes of a chunk that has passed (R354, R433): WR for whole lines, WRP with the mask for the others; PCIe writes to
the host window (R533), which need no acknowledgement. A line that a new size of the window leaves outside fails the MOVE with DESC
(R534, R554: DESIGN CHOICE, notes/assumptions/53). -/
def State.sendOuts (s : State) (j c : Nat) (d : DOp) (m : Nat) (outs : List OutLine) : State :=
  let E := s.denvOf j c d.w
  let fn := ((s.ctx j c).job.map (·.fn)).getD 0
  if dHost (E.d 0) && outs.any (fun o => !s.inHwin fn (dWinOff (E.d 0) o.line) 64) then s.chunkFails j c m ⟨0x0B, 0, iF d.w 0, 0⟩ else
  let s := s.modChunk j c m fun ch => { ch with st := .writing, outs := outs }
  if dHost (E.d 0) then
    match (s.ctx j c).job with
    | none => s
    | some b =>
      let runs (o : OutLine) : List (Nat × Nat) := (List.range 64).foldr (fun i (a : List (Nat × Nat)) =>
        if !o.mask.getLsbD i then a
        else match a with
          | (f, n) :: t => if f = i + 1 then (i, n + 1) :: t else (i, 1) :: (f, n) :: t
          | [] => [(i, 1)]) []
      let base := s.rd0 F.FN_HWIN_BASE.BASE b.fn * 4096
      (outs.foldl (fun s o => (runs o).foldl (fun s r =>
        s.send (.hostWrite b.fn (base + dWinOff (E.d 0) o.line + r.1) ((List.range r.2).map fun i => lineByte o.data (r.1 + i)))) s) s).modChunk
          j c m fun ch => { ch with outs := ch.outs.map fun o => { o with acked := true } }
  else
    let regs := upTo 16 fun r => outs.any (·.reg == r)
    let lines := mergeLines outs
    s.ask j (regs.flatMap fun r =>
      let mine := lines.filter (·.reg == r)
      let full := mine.filter fun o => o.mask == BitVec.allOnes 64
      let data (l : Nat) : LineData := ((full.find? (·.line == l)).map (·.data)).getD 0
      ((lineRuns (full.map (·.line))).map fun e =>
        { LReq.new c (.out m) opWR (e.1 * 64) e.2 0 with beats := (List.range e.2).map fun i => data (e.1 + i) }) ++
      ((mine.filter fun o => o.mask != BitVec.allOnes 64).map fun o =>
        { LReq.new c (.out m) opWRP (o.line * 64) 1 0 with opnd := o.mask.toNat, beats := [o.data] }))

/-- CONTRIB's ROUND and SRC (R502). -/
def contribIds (E : DEnv) (x : BitVec 128) : Nat × Nat :=
  let v := (E.s (iF E.w 2)).toNat
  if x.getLsbD 32 then (v % 65536, v >>> 16 % 65536) else (bitsOf x 15 0, bitsOf x 31 16)

/-- The requests of a CONTRIB chunk (R488, R504): runs of key lines within groups, in element order, each with the CRC-64 and the
declared sum of its payload. -/
def contribReqs (E : DEnv) (x : BitVec 128) (ins : Lines) (c m : Nat) (es : List Nat) : List LReq :=
  let dk := E.d 0
  let b := dBits dk
  let k := 512 / b
  let firsts := es.filter fun e => dBit dk e % 512 == 0
  let (round, src) := contribIds E x
  let lineVal (e : Nat) : LineData := BitVec.ofNat 512 ((List.range k).foldl (fun v i => v + inEl ins (E.d 1) (e + i) <<< (b * i)) 0)
  let runs := lineRuns (firsts.map fun e => (dBit dk e / 512).toNat)
  (runs.foldl (fun (a : List LReq × List Nat) r =>
    let mine := a.2.take r.2
    let beats := mine.map lineVal
    let bytes := beats.flatMap fun l => leBytes l 64
    let sum := fvSum (mine.flatMap fun e => (List.range k).map fun i => inVal ins (E.d 1) (e + i))
    let q : LReq := { LReq.new c (.contrib m) opCONTRIB (r.1 * 64) r.2 2 with
      opnd := round <<< 48 + src <<< 32
      cfmt := dFmt dk
      beats := beats
      trailer := (crc64 bytes).setWidth 128 ||| ((to64 sum).setWidth 128 <<< 64) }
    (a.1 ++ [q], a.2.drop r.2)) (([] : List LReq), firsts)).1

/-! ### Commit (R354, R357, R362 to R365, R499) -/

/-- The output lines of a chunk by stream, ascending (R362). -/
def Chunk.streams (ch : Chunk) (p : OutLine → Bool) : List (Nat × List Nat) :=
  (upTo 16 fun r => ch.outs.any fun o => o.reg == r && p o).map fun r =>
    (r, (ch.outs.filter fun o => o.reg == r && p o).map (·.line))

/-- Bit a: array a produced or replayed an element of the chunk. -/
def Chunk.arrays (ch : Chunk) : Nat := (sortUniq (ch.who.map (·.2))).foldl (fun v a => v + 2 ^ a) 0

/-- Journals the lines of a chunk that `p` names; host-window outputs are not journaled (R534). -/
def State.journalChunk (s : State) (j c : Nat) (d : DOp) (ch : Chunk) (partial_ : Bool) (p : OutLine → Bool) : State :=
  let E := s.denvOf j c d.w
  if iOp d.w = 0x10 ∧ dHost (E.d 0) then s
  else s.journal j c ch.arrays (ch.m % 65536) ch.replayed partial_ (ch.streams p)

/-- Eight bytes of a digest, the first in the highest bits (R469). -/
def digestWords (h : List Byte) : List W64 := (List.range 6).map fun i => BitVec.ofNat 64 (beNat ((h.drop (8 * i)).take 8))

/-- The scalars and FLAGS an instruction leaves (R440, R459, R466 to R469, R499). -/
def endRegs (d : DOp) (r : CtxRegs) : CtxRegs :=
  let o := iOp d.w
  let r : CtxRegs := (upTo 8 (nbit d.flags)).foldl (fun r b => r.flag b) r
  let bad (w : W64) : Bool := (of64 w).bad
  if o = 0x23 then
    let r := r.setS (iF d.w 4) d.acc.tot
    if bad d.acc.tot then r.flag 4 else r
  else if o = 0x28 ∧ !d.w.getLsbD 12 then
    let r := (r.setS (iF d.w 4) (BitVec.ofNat 64 d.acc.count)).setS (iF d.w 5)
      (match d.acc.first with | some e => BitVec.ofNat 64 e | none => BitVec.allOnes 64)
    if d.acc.count ≠ 0 then r.flag 3 else r
  else if o = 0x29 then
    if d.w.getLsbD 8 then ((digestWords (sha384 d.acc.bytes)).zipIdx).foldl (fun r e => r.setS (iF d.w 4 + e.2) e.1) r
    else r.setS (iF d.w 4) d.acc.crc
  else if o = 0x21 ∧ optFam d.w = 3 ∧ !optPass1 d.w then
    let r := (r.setS (optSn d.w) d.acc.row).setS (optSn d.w + 1) d.acc.tot2
    if bad d.acc.row || bad d.acc.tot2 then r.flag 4 else r
  else if o = 0x31 then r.setS (iF d.w 4) d.acc.crc
  else r

/-- The last chunk has committed: the instruction ends. -/
def State.endData (s : State) (j c : Nat) (d : DOp) : State :=
  (s.modCtx j c fun x => { x with regs := endRegs d x.regs }).advanceIp j c (if iExt d.w then 2 else 1) 1

/-- The first chunk in the store commits: it is journaled, its held inputs go, and the next goes on, fails or begins. -/
def State.commitChunk (s : State) (j c : Nat) : State :=
  match s.dop j c with
  | none => s
  | some d =>
    match d.chunks with
    | [] => s
    | ch :: rest =>
      let s := s.journalChunk j c d ch false fun _ => true
      let p := s.posy j
      let s := if ch.held.isEmpty then s
        else s.setPosy j { p with ents := ch.held.foldl (fun t i => tset none t i none) p.ents }
      let s := ((s.setDop j c { d with chunks := rest }).pmuCtx j c 2 1).evt j 0x06 c
      match rest with
      | [] => if d.next = d.total then s.endData j c d else s.beginChunks j c
      | h :: _ => match h.fail with
        | some e => if h.st.isWriting then s else s.failInstr j c e
        | none => s.beginChunks j c

/-- A chunk has passed its verdict (R354): it is written, or, with no outputs, commits. -/
def State.passChunk (s : State) (j c : Nat) (d : DOp) (ch : Chunk) (r : DRes) : State :=
  let E := s.denvOf j c d.w
  match r.exc with
  | some e => s.chunkFails j c ch.m e
  | none =>
    let acc : DAcc := if iOp d.w = 0x31 then { r.acc with crc := r.acc.bytes.foldl (crcByte 0x42F0E1EBA9EA3693) d.acc.crc, bytes := [] }
      else r.acc
    let flags := d.flags ||| r.flags
    let s := s.modDop j c fun d => { d with acc := acc, flags := flags }
    if iOp d.w = 0x30 then
      let qs := contribReqs E d.x ch.ins c ch.m (chunkEls E d.e ch.m)
      let outs := qs.flatMap fun q => (List.range q.len).map fun i => (⟨q.pa / 64 + i, 0, 0, iF d.w 0, false⟩ : OutLine)
      ((s.modChunk j c ch.m fun ch => { ch with st := .writing, outs := outs }).ask j qs).beginChunk j c
    else
      let outs := (outsOf d.w).flatMap fun f => outLines (iF d.w f) (tget [] r.outs f)
      if outs.isEmpty then (s.modChunk j c ch.m fun ch => { ch with st := .writing }).commitChunk j c
      else (s.sendOuts j c d ch.m outs).beginChunk j c

/-- The chunk whose verdict is due: the first in the store, or any of CONTRIB's. -/
def DOp.due (d : DOp) (now : Nat) : Option Chunk :=
  (if iOp d.w = 0x30 then d.chunks else d.chunks.take 1).find? fun ch => ch.fail.isNone && (match ch.st with
    | .verdict t => decide (t ≤ now)
    | .index => false | .fetch => false | .compute => false | .replay _ _ => false | .collect _ => false | .writing => false)

/-- The array a replay runs on (R655), taken from the pool, and the stamp at which it is free. -/
def State.replayArr (s : State) (j : Nat) (ch : Chunk) : State × Nat × Nat :=
  match s.spares j with
  | a :: _ => (s.setRole j a 3, a, s.now)
  | [] =>
    let sv := s.serving j
    let a := (sv.find? fun a => !(ch.who.any (·.2 == a))).getD (sv.headD 0)
    (s, a, match (s.lnt j).arr a with | some o => max s.now o.at_ | none => s.now)

/-- A verdict fails (R356, R653, R654, R656): counted, and replayed. -/
def State.failVerdict (s : State) (j c : Nat) (d : DOp) (ch : Chunk) (first : Nat × Nat × Nat) : State :=
  let E := s.denvOf j c d.w
  let n := (chunkEls E d.e ch.m).length
  let s := (s.incRc F.RAS_SECNT.VERDICT_FAILS j).evt j 0x07 c
  let (s, a, t) := s.replayArr j ch
  let cycles := ((List.range ch.ops).map fun i => opCycles E n i).sum + 32
  let at_ := t + s.cyc cycles
  s.modChunk j c ch.m fun ch => { ch with st := .replay a at_, flag := some first }

/-- A replay stands between two of its array operations, `left` ticks before its end (R655). -/
def State.betweenOps (s : State) (j c : Nat) (d : DOp) (ch : Chunk) (left : Nat) : Bool :=
  let n := (chunkEls (s.denvOf j c d.w) d.e ch.m).length
  let cost (i : Nat) : Nat := opCycles (s.denvOf j c d.w) n i
  (List.range ch.ops).any fun i => left == s.cyc (((List.range (ch.ops - i)).map fun k => cost (i + k)).sum + 32)

/-- A replay whose context the gate stops begins no further array operation: its end moves on by a tick (R305, R366). -/
def State.holdReplay (s : State) (j c : Nat) (d : DOp) (ch : Chunk) : Chunk := match ch.st with
  | .replay a t => if s.now < t && s.betweenOps j c d ch (t - s.now) then { ch with st := .replay a (t + 1) } else ch
  | .index => ch | .fetch => ch | .compute => ch | .verdict _ => ch | .collect _ => ch | .writing => ch

/-- A round of a TEST whose context the gate stops begins no further array operation (R305, R474): each takes 64 cycles. -/
def State.holdTest (s : State) (j : Nat) (t : ATest) : ATest :=
  if t.running && s.now < t.at_ && (t.at_ - s.now) % s.cyc 64 == 0 && (match t.why with
      | .instr c => s.ctxGated j c
      | .sweep => false | .repeat_ => false)
  then { t with at_ := t.at_ + 1 } else t

/-- The replays and the rounds of TEST that the gate stops in the present tick (R305, R474). -/
def State.holdReplays (s : State) (j : Nat) : State :=
  let s := s.modLnt j fun l => { l with tests := l.tests.map (s.holdTest j) }
  (List.range 8).foldl (fun s c => match s.dop j c with
    | some d => if s.ctxGated j c then s.setDop j c { d with chunks := d.chunks.map (s.holdReplay j c d) } else s
    | none => s) s

/-- Counts the store errors a chunk met (R344). -/
def State.storeErrs (s : State) (j : Nat) (f : ChunkFault) : State :=
  let s := if f.storeCorr = 0 then s else s.incRc F.LNT_STOREERR.CORR j 0 f.storeCorr
  onlyIf f.storeUncorr ((s.incRc F.LNT_STOREERR.UNCORR j).lanternEvent j false) s

/-- The check that flags an error counts it at its array (R653, R654, R659). -/
def State.flagged (s : State) (j : Nat) (f : Option (Fin 9 × Nat × ArrIx)) : State :=
  match f with
  | none => s
  | some (code, _, a) =>
    if code.val = 8 then (s.incRc F.RAS_SECNT2.PARITY j).arrayEvent j a false
    else if code.val = 6 then s.incRc F.LNT_ARRAY.ABFT_FAILS j a
    else s

/-- A chunk's writes go to the host window of a function whose Bus Master Enable is 0: none is issued (R544), so its verdict
waits. -/
def State.hostBarred (s : State) (j c : Nat) (d : DOp) : Bool :=
  dHost ((s.denvOf j c d.w).d 0) && (s.ctx j c).job.any fun b => s.rings.bmeOff.contains b.fn

/-- A chunk has had its verdict: it is writing, or is replayed after a failed one. -/
def Chunk.judged (ch : Chunk) : Bool := ch.st.isWriting || ch.replayOn.isSome

/-- A double error in the store before the verdict: the chunk is computed again from inputs fetched again, or, in COLLECT, whose inputs
are the Posy's, judged again (R344). -/
def State.again (s : State) (j c : Nat) (d : DOp) (ch : Chunk) : State :=
  if iOp d.w != 0x31 then
    let stale (q : LReq) : Bool := q.ctx == c && (match q.kind with
      | .data m _ => m == ch.m
      | .code => false | .poll => false | .sema _ => false | .posted _ => false | .out _ => false | .contrib _ => false | .journal => false)
    let s := s.modLnt j fun l => { l with
      queue := l.queue.filter fun q => !stale q
      hqueue := l.hqueue.filter fun h => !(h.ctx == c && h.m == ch.m)
      gens := (l.reqs.filter stale).foldl (fun g q => tset 0 g (q.path * 4096 + q.tag) ((tget 0 g (q.path * 4096 + q.tag) + 1) % 16)) l.gens
      reqs := l.reqs.filter fun q => !(stale q && q.st != .sent) }
    (s.modChunk j c ch.m fun ch => { Chunk.new ch.m with replayed := ch.replayed }).startChunk j c ch.m
  else match ch.st with
    | .verdict _ => let due := s.now + s.cyc 32
      s.modChunk j c ch.m fun ch => { ch with st := .verdict due }
    | .index => s | .fetch => s | .compute => s | .replay _ _ => s | .collect _ => s | .writing => s

/-- CHUNK_VERDICT (R344, R354 to R356, R461, R653, R654): none for a job to be aborted, whose uncommitted work is discarded (R352, R509). A
double error met during a replay counts as found after the verdict (DEDUCED,
notes/assumptions/52). -/
def execChunkVerdict (j : Cluster) (c : CtxIx) (f : ChunkFault) (s : State) : Res :=
  if !s.nmcEdge then .next s else
  match s.dop j c with
  | none => .next s
  | some d =>
    match d.due s.now with
    | none => match d.chunks.head? with
      | none => .next s
      | some ch =>
        let s := s.storeErrs j f
        .next (if !f.storeUncorr then s
          else if ch.judged then s.chunkFails j c ch.m ⟨0x29, 0, 0, ch.m⟩ else s.again j c d ch)
    | some ch =>
      if s.hostBarred j c d || (s.ctx j c).abort then .next s else
      let s := s.storeErrs j f
      if f.storeUncorr then .next (s.again j c d ch)
      else
        let r := s.chunkCalc j c d ch
        let own := r.bad.map fun b => (b.1, b.2, s.arrOf j c d ch b.2)
        match lowerFail own (f.flag.map fun x => (x.1.val, x.2.1, x.2.2.val)) with
        | none => .next (s.passChunk j c d ch r)
        | some first => .next ((s.flagged j f.flag).failVerdict j c d ch first)

/-! ### Replays (R439, R655 to R658, R679) -/

/-- The other array of a pair that ran an operation with array `a`. -/
def Chunk.partner (ch : Chunk) (a : Nat) : Option Nat :=
  ch.who.findSome? fun x => if x.2 == a then (ch.who.find? fun y => y.1 == x.1 && y.2 != a).map (·.2) else none

/-- Charges an array; none when no array computed the element. -/
def State.chargeArr (s : State) (j a : Nat) : State := if a < 52 then s.arrayEvent j a else s

/-- The instruction fails with RANGE (R439, R653). -/
def State.rangeFail (s : State) (j c m code e : Nat) : State := s.chunkFails j c m ⟨0x26, 0, if code = 8 then 6 else code, e⟩

/-- The records of what a replay shows (R656 to R658, R679), which name the first verdict's code, element and array; COUNT is that of the
unit charged. CHECK_REPLAYED: -/
def State.replayedRec (s : State) (j c m : Nat) (first : Nat × Nat × Nat) (charged : Bool) : State :=
  (s.incRc F.RAS_SECNT.REPLAYED j).silentRec 0x40 sevCorrected j first.2.2 0xFF first.1 first.2.1 (m % 65536) 0 true true (some c)
    (if charged && decide (first.2.2 < 52) then some (4, first.2.2) else none)
/-- DATA_RANGE: an array is charged from check code 6 on. -/
def State.rangeRec (s : State) (j c m : Nat) (first : Nat × Nat × Nat) : State :=
  (s.incRc F.RAS_SECNT.DATA_RANGE j).silentRec 0x41 sevInfo j first.2.2 0xFF first.1 first.2.1 (m % 65536) rCHECK false false (some c)
    (if 6 ≤ first.1 ∧ first.2.2 < 52 then some (4, first.2.2) else none)
/-- UNRESOLVED: the Lantern or the array is charged. -/
def State.unresolvedRec (s : State) (j c m : Nat) (first : Nat × Nat × Nat) (lantern : Bool) : State :=
  (s.incRc F.RAS_SECNT.UNRESOLVED j).silentRec 0x42 sevRecoverable j first.2.2 0xFF first.1 first.2.1 (m % 65536) rCHECK true false (some c)
    (if lantern then some (5, 0) else if first.2.2 < 52 then some (4, first.2.2) else none)

/-- A replay passes and its outputs are written (R439). -/
def State.replayPass (s : State) (j c : Nat) (d : DOp) (ch : Chunk) (arr : Nat) (r : DRes) : State :=
  let ch' : Chunk := { ch with replayed := true, who := ch.who ++ [(ch.ops, arr)], flag := none }
  let s := s.modChunk j c ch.m fun _ => ch'
  let s := s.modDop j c fun d => { d with flags := d.flags ||| 128 }
  s.passChunk j c { d with flags := d.flags ||| 128 } ch' r

/-- A replay differs and fails: TEST_ADVISED is set, and the instruction fails. -/
def State.unresolved (s : State) (j c m code e : Nat) : State :=
  ({ s with advised := insUniq j s.advised } : State).rangeFail j c m code e

/-- A replay that differs fails with code `code2`: from 6 on in both runs the Lantern is charged, else the first array. -/
def State.differs (s : State) (j c m : Nat) (first : Nat × Nat × Nat) (code2 e2 : Nat) : State :=
  let lantern := decide (6 ≤ first.1 ∧ 6 ≤ code2)
  let s := s.unresolvedRec j c m first lantern
  (if lantern then s.lanternEvent j else s.chargeArr j first.2.2).unresolved j c m code2 e2

/-- A replay with the same outputs: the data are out of range (R657), and from code 6 on the array is charged. -/
def State.identical (s : State) (j c m : Nat) (first : Nat × Nat × Nat) : State :=
  let t := s.rangeRec j c m first
  (onlyIf (decide (6 ≤ first.1)) (t.chargeArr j first.2.2) t).rangeFail j c m first.1 first.2.1

/-- REPLAY_DECIDE (R656 to R658): none for a job to be aborted, and none whose writes no host window takes (R544). -/
def execReplayDecide (j : Cluster) (c : CtxIx) (v : ReplayResult) (s : State) : Res :=
  if !s.nmcEdge || (s.ctx j c).abort then .next s else
  match s.dop j c with
  | none => .next s
  | some d =>
    if s.hostBarred j c d then .next s else
    match d.chunks.findSome? fun ch => match ch.st, ch.flag with
        | .replay a t, some f => if t ≤ s.now ∧ ch.fail.isNone then some (ch, a, f) else none
        | .replay _ _, none => none
        | .index, _ => none | .fetch, _ => none | .compute, _ => none | .verdict _, _ => none | .collect _, _ => none | .writing, _ => none with
    | none => .next s
    | some (ch, arr, first) =>
      let (code, _, a) := first
      let r := s.chunkCalc j c d ch
      let s := s.replayOver j arr
      let bad := lowerFail (r.bad.map fun b => (b.1, b.2, arr)) (v.flag.map fun x => (x.1.val, x.2, arr))
      let s' : State := match ch.partner a, bad with
        | some b, none =>
          if code = 7 then
            let lo := min a b
            let hi := max a b
            let s := s.replayedRec j c ch.m first (!v.same || !v.same2)
            let s := onlyIf (!v.same) (s.chargeArr j lo) s
            let s := onlyIf (!v.same2) (s.chargeArr j hi) s
            s.replayPass j c d ch arr r
          else if v.same then s.identical j c ch.m first
          else ((s.replayedRec j c ch.m first true).chargeArr j a).replayPass j c d ch arr r
        | some _, some (code2, e2, _) =>
          if code = 7 then ((s.unresolvedRec j c ch.m first true).lanternEvent j).unresolved j c ch.m code2 e2
          else if v.same then s.identical j c ch.m first
          else s.differs j c ch.m first code2 e2
        | none, none =>
          if v.same then s.identical j c ch.m first
          else ((s.replayedRec j c ch.m first true).chargeArr j a).replayPass j c d ch arr r
        | none, some (code2, e2, _) =>
          if v.same then s.identical j c ch.m first
          else s.differs j c ch.m first code2 e2
      .next ((s'.settleFences j).tryTests j)

/-! ### Commands of writes (R354, R358, R436, R506) -/

/-- A write or CONTRIB of a context is still to be answered or sent. -/
def State.writesOut (s : State) (j c : Nat) (m : Nat) (only : Bool) : Bool :=
  let l := s.lnt j
  let p (q : LReq) : Bool := q.writes c m && (!only || !q.writes c (m + 1))
  l.reqs.any p || l.queue.any p

/-- The first chunk of a context can commit: every reply of it is OK. -/
def State.commitReady (s : State) (j c : Nat) : Bool := match (s.dop j c).bind fun d => d.chunks.head? with
  | none => false
  | some ch => ch.st.isWriting && ch.fail.isNone && ch.bad.isNone && ch.outs.all (·.acked) && !s.writesOut j c ch.m true

/-- CHUNK_COMMIT (R354, R358, R364): every reply of the first chunk is OK; of the contexts that commit in one cycle, the lower-numbered
first. -/
def execChunkCommit (j : Cluster) (c : CtxIx) (s : State) : Res :=
  if !s.nmcEdge then .next s else
  .next (onlyIf (s.commitReady j c && !(List.range c).any (s.commitReady j)) (s.commitChunk j c) s)

/-- CHUNK_WRITE_FAIL (R344, R358, R506): the first chunk's writes have failed and its last reply has come: the lines that were
acknowledged are journaled with PARTIAL = 1, and the instruction fails. -/
def execChunkWriteFail (j : Cluster) (c : CtxIx) (s : State) : Res :=
  if !s.nmcEdge then .next s else
  match s.dop j c with
  | none => .next s
  | some d =>
    match d.chunks.head? with
    | none => .next s
    | some ch =>
      match ch.fail.orElse fun _ => ch.bad.map fun b => memExc b.1 b.2.1 b.2.2 with
      | none => .next s
      | some e =>
        .next (onlyIf (ch.st.isWriting && !s.writesOut j c ch.m false)
          ((d.chunks.foldl (fun s ch => s.journalChunk j c d ch true (·.acked)) s).failInstr j c e) s)

/-- DROPPED_RESEND (R289, R436): at the next refill stamp, with a new generation. -/
def execDroppedResend (j : Cluster) (tag : Nat) (s : State) : Res :=
  match (s.lnt j).req (tag / 4096) (tag % 4096) with
  | none => .next s
  | some q => .next (onlyIf (q.st == .dropped && s.now % 75 == 0 && s.clk.running) ((s.resend j q).evt j 0x0F q.ctx) s)

/-- CONTRIB_RESEND (R506): after RETRY every 128 cycles until the limit, after CHECK_FAILED at once. -/
def execContribResend (j : Cluster) (c : CtxIx) (tag : Nat) (s : State) : Res :=
  if !s.nmcEdge then .next s else
  match (s.lnt j).req (tag / 4096) (tag % 4096), s.dop j c with
  | some q, some d =>
    if q.ctx ≠ c.val then .next s else
    match q.kind, q.st with
    | .contrib m, .retry t =>
      let lim := ((s.denvOf j c d.w).s (iF d.w 3)).toNat
      .next (if q.since + lim ≤ s.now then (s.freeTag j q).chunkFails j c m ⟨0x31, 0, 0, paField (q.pa / 64)⟩
        else if t ≤ s.now then s.resend j q else s)
    | .contrib _, .refused => .next (s.resend j q)
    | .contrib _, .sent => .next s
    | .contrib _, .dropped => .next s
    | .code, _ => .next s | .poll, _ => .next s | .sema _, _ => .next s | .posted _, _ => .next s | .data _ _, _ => .next s
    | .out _, _ => .next s | .journal, _ => .next s
  | some _, none => .next s
  | none, _ => .next s

/-! ### COLLECT_WAIT_END (R494, R498, R500) -/

/-- The OPEN entry of a key: one that no COLLECT holds. -/
def Posy.openEnt (p : Posy) (k : PosyKey) : Option (Nat × PosyEnt) := match p.find k with
  | some (i, e) => if e.held then none else some (i, e)
  | none => none

/-- COLLECT_WAIT_END: every key has an OPEN entry with its count, or the wait limit has passed; the region is held and tested. -/
def execCollectWaitEnd (j : Cluster) (c : CtxIx) (s : State) : Res :=
  if !s.nmcEdge then .next s else
  match s.dop j c with
  | none => .next s
  | some d =>
    match d.chunks.findSome? fun ch => match ch.st with
        | .collect t => if ch.fail.isNone then some (ch.m, t) else none
        | .index => none | .fetch => none | .compute => none | .verdict _ => none | .replay _ _ => none | .writing => none with
    | none => .next s
    | some (m, since) =>
      let E := s.denvOf j c d.w
      let n := (E.s (iF d.w 2)).toNat % 65536
      let lim := (E.s (iF d.w 3)).toNat
      let keys := collectKeys E d.x m
      let p := s.posy j
      let look := p.openEnt
      let all := keys.all fun k => (look k).any fun e => decide (n ≤ e.2.count)
      -- a contribution taken in the cycle counts first (R509)
      .next (onlyIf ((all || decide (since + lim ≤ s.now)) && !s.posyFirst j (keys.map (·.line)))
        (let held := keys.filterMap fun k => (look k).map (·.1)
         let s := s.setPosy j { p with ents := p.ents.map fun e => if held.contains e.1 then (e.1, e.2.map fun x => { x with held := true }) else e }
         let els := ((List.range 1024).filter fun i => decide (1024 * m + i < dN (E.d 1))).length
         let due := s.now + s.cyc (ceilDiv els 64 + 32)
         let ents := keys.filterMap fun k => (look k).map (·.2)
         let s := s.modChunk j c m fun ch => { ch with held := held, ents := ents, st := .verdict due }
         match collectBad E (keys.map fun k => (k, (look k).map (·.2))) with
         | some e => s.chunkFails j c m e
         | none => s.beginChunks j c) s)

/-! ### Replies to data requests (R126, R358, R436 to R438, R506) -/

/-- A reply to a read of a chunk. -/
def State.dataReply (s : State) (j : Nat) (q : LReq) (m reg : Nat) (r : LReply) : State :=
  if r.result = rDROPPED then s.setReq j q { q with st := .dropped }
  else
    let s := s.freeTag j q
    let l := q.pa / 64
    if r.result = rOK ∨ r.result = rCORR then
      (s.pmuCtx j q.ctx 3 q.len).giveLines j q.ctx m ((List.range q.len).map fun i => (l + i, r.data.getD i 0))
    else
      let bad := if r.result = rPOISONED then l + ((upTo 4 (nbit r.pois)).headD 0) else l
      s.chunkFails j q.ctx m (memExc r.result reg bad)

/-- A write of a chunk is acknowledged, or refused with a RESULT. -/
def State.outReply (s : State) (j : Nat) (q : LReq) (m : Nat) (r : LReply) : State :=
  if r.result = rDROPPED then s.setReq j q { q with st := .dropped }
  else
    let s := s.freeTag j q
    let l := q.pa / 64
    let mine (o : OutLine) : Bool := decide (l ≤ o.line) && decide (o.line < l + q.len)
    if r.result = rOK ∨ r.result = rCORR then
      (s.pmuCtx j q.ctx 4 q.len).modChunk j q.ctx m fun ch => { ch with
        outs := ch.outs.map fun o => if mine o then { o with acked := true } else o }
    else match s.chunk j q.ctx m with
      | none => s
      | some ch =>
        let reg := ((ch.outs.find? mine).map (·.reg)).getD 0
        if ch.bad.isSome || ch.fail.isSome then s
        else (s.modChunk j q.ctx m fun ch => { ch with bad := some (r.result, reg, l) }).stopSends j q.ctx m

/-- A reply to a CONTRIB (R506). -/
def State.contribReply (s : State) (j : Nat) (q : LReq) (m : Nat) (r : LReply) : State :=
  match s.dop j q.ctx with
  | none => s.freeTag j q
  | some d =>
    let lim := ((s.denvOf j q.ctx d.w).s (iF d.w 3)).toNat
    let line := paField (q.pa / 64)
    if r.result = rDROPPED then s.setReq j q { q with st := .dropped }
    else if r.result = rRETRY then
      let since := if q.since = 0 then s.now else q.since
      if since + lim ≤ s.now then (s.freeTag j q).chunkFails j q.ctx m ⟨0x31, 0, 0, line⟩
      else s.setReq j q { q with st := .retry (s.now + s.cyc 128), since := since }
    else if r.result = rCHECK then
      if 2 ≤ q.checks then (s.freeTag j q).chunkFails j q.ctx m ⟨0x32, 0, 0, line⟩
      else s.setReq j q { q with st := .refused, checks := q.checks + 1 }
    else s.outReply j q m r

/-- A host-window reply of another GEN than its tag's (R126): dropped, counted at port H (DESIGN CHOICE, notes/assumptions/53) and recorded;
the tag of a discarded read is free again. -/
def State.lateHost (s : State) (j tag gen : Nat) : State :=
  let s := (s.incRc F.PORT_TMO.LATE_DROP 24).record { ErrRec.make s.now sevInfo 0x14 j with req := 24 }
  (s.modLnt j fun l => { l with hreqs := l.hreqs.filter fun h => !(h.tag == tag && h.gen == gen) }).pumpHost j

/-- HOST_READ_COMPLETION (R126, R533, R535): results 0 Successful Completion, 1 Unsupported Request, 2 poisoned, 3 Completer Abort or
time-out. -/
def execHostReadCompletion (j : Cluster) (tag : HostTag) (result : Fin 4) (data : List Byte) (s : State) : Res :=
  if tget 0 (s.lnt j).hgens tag.tag ≠ tag.gen.val then .next (s.lateHost j tag.tag tag.gen) else
  match (s.lnt j).hreqs.find? (·.tag == tag.tag) with
  | none => .next s
  | some h =>
    -- a Successful Completion of another length answers no request of this tag
    if result.val = 0 && data.length != h.len * 64 then .next s
    else
      let s := (s.modLnt j fun l => { l with hreqs := l.hreqs.filter (·.tag != tag.tag) }).pumpHost j
      let s : State := { s with rings := { s.rings with replied := (j.val, h.ctx) :: s.rings.replied } }
      let r := if result.val = 1 then rUNSUP else if result.val = 2 then rPOISONED else rTIMEOUT
      -- the MOVE it belongs to may have ended
      .next (match s.dop j h.ctx with
        | none => s
        | some _ =>
          if result.val = 0 then
            s.giveLines j h.ctx h.m ((List.range h.len).map fun i => (h.line + i, lineOf ((data.drop (64 * i)).take 64)))
          else s.chunkFails j h.ctx h.m ⟨0x0D, r, h.reg, paField h.line⟩)

end Sys2Proof.Machine
end

