-- ==== Sys2Proof/Machine/Amnubo.lean ====
section
/-! DEFINITION. Control instructions of Amnubo (chapter "Amnubo: encoding, state and control flow"), the loads of images and frames,
waits, posted requests, and the arrival of replies at a Lantern. -/

namespace Sys2Proof.Machine

/-- A 32-bit immediate as 64 bits. -/
def sext64 (v : Nat) : W64 := (BitVec.ofNat 32 v).signExtend 64

/-! ### Instructions without memory (R373, R395 to R399) -/

/-- An instruction whose opcode is reserved (R373): the issue fails it. -/
def execInstrReservedOpcode (j : Cluster) (c : CtxIx) (s : State) : Res :=
  s.issue j c (fun o => !opsKnown.contains o) fun s _ _ => s

/-- NOP (R394). -/
def execNop (j : Cluster) (c : CtxIx) (s : State) : Res := s.issue j c (· == 0x00) fun s _ _ => s.advanceIp j c 1 1

/-- LOOP at the context's IP (R396, R397). -/
def State.doLoop (s : State) (j c : Nat) (w : BitVec 128) : State :=
  let x := s.ctx j c
  let count := if w.getLsbD 8 then (x.regs.s.getD (iF w 0) 0).toNat % 2 ^ 32 else bitsOf w 83 52
  let start := x.prog.ip + 1
  let stop := start + bitsOf w 35 24
  let nested := match x.prog.loops with
    | t :: _ => t.depth == x.depth && decide (t.stop < stop)
    | [] => false
  if x.image.words.length < stop then s.failInstr j c ⟨0x03, 0, 0, 0⟩
  else if count = 0 then
    (s.modCtx j c fun x => { x with prog := { x.prog with ip := stop } }).retire j c 1
  else if x.prog.loops.length = 4 then s.failInstr j c ⟨0x08, 0, 0, 0⟩
  else if nested then s.failInstr j c ⟨0x09, 0, 0, 0⟩
  else
    let adv := bitsOf w 51 36
    let idx := w.getLsbD 9
    let i := iF w 1
    let ent : LoopEnt := ⟨start, stop, count, 0, adv, w.getLsbD 10, idx, i,
      (upTo 16 (nbit adv)).map fun k => (k, dBase (x.regs.d.getD k 0)), x.depth⟩
    (s.setCtx j c { x with
      regs := if idx then x.regs.setS i 0 else x.regs
      prog := { x.prog with ip := start, loops := ent :: x.prog.loops } }).retire j c 1

/-- LOOP. -/
def execLoop (j : Cluster) (c : CtxIx) (s : State) : Res := s.issue j c (· == 0x01) fun s w _ => s.doLoop j c w

/-- BR's condition (R398). FBIT names a flag of 0 to 7; for 8 to 15 no flag is set, so the branch is not taken and the encoding does not
fail (DESIGN CHOICE, notes/assumptions/51). -/
def brCond (w : BitVec 128) (r : CtxRegs) : Bool :=
  let a := r.s.getD (iF w 0) 0
  let b := if w.getLsbD 11 then sext64 (bitsOf w 83 52) else r.s.getD (iF w 1) 0
  match bitsOf w 10 8 with
  | 0 => true
  | 1 => a == b
  | 2 => a != b
  | 3 => a.ult b
  | 4 => !a.ult b
  | 5 => a.slt b
  | 6 => !a.slt b
  | _ => nbit r.flags.toNat (bitsOf w 27 24)

/-- The loops a branch to `target` closes at a depth, top first (R399). -/
def closeLoops (depth target : Nat) (r : CtxRegs) : List LoopEnt → List LoopEnt × CtxRegs
  | [] => ([], r)
  | t :: rest =>
    if t.depth = depth ∧ ¬ (t.start ≤ target ∧ target < t.stop) then
      closeLoops depth target (if t.rst then restoreBases r t.saved else r) rest
    else (t :: rest, r)

/-- BR (R398, R399). -/
def execBr (j : Cluster) (c : CtxIx) (s : State) : Res :=
  s.issue j c (· == 0x02) fun s w _ =>
    let x := s.ctx j c
    if !brCond w x.regs then s.advanceIp j c 1 1
    else
      let t : Int := (x.prog.ip : Int) + sextN (bitsOf w 51 32) 20
      if t < 0 ∨ x.image.words.length ≤ t then s.failInstr j c ⟨0x03, 0, 0, 0⟩
      else
        let clr := bitsOf w 10 8 == 7 && w.getLsbD 28
        let r := if clr then { x.regs with flags := x.regs.flags &&& ~~~(BitVec.ofNat 8 (2 ^ bitsOf w 27 24)) } else x.regs
        let (ls, r) := closeLoops x.depth t.toNat r x.prog.loops
        (s.setCtx j c { x with regs := r, prog := { x.prog with ip := t.toNat, loops := ls } }).retire j c 3

/-- The job ends well at depth 0 (R392): the implicit fence follows; a posted reply that has failed fails the job (R414). -/
def State.endJob (s : State) (j c : Nat) : State :=
  let x := s.ctx j c
  match x.pfail with
  | some f => s.drainCtx j c { f with at_ := s.nowAt j }
  | none => s.setCtx j c { x with op := .none, fin := some ⟨rOK, 0, (x.prog.n - 1) % 65536, s.nowAt j, true, false⟩ }

/-- RET (R395). -/
def execRet (j : Cluster) (c : CtxIx) (s : State) : Res :=
  s.issue j c (· == 0x04) fun s _ _ =>
    let x := s.ctx j c
    if x.prog.loops.head?.any (·.depth == x.depth) then s.failInstr j c ⟨0x0A, 0, 0, 0⟩
    else match x.prog.calls with
      | [] => s.endJob j c
      | e :: rest =>
        (s.setCtx j c { x with prog := { x.prog with img := e.img, ip := e.ip, calls := rest } }).retire j c 3

/-! ### Loads (R384 to R391, R400 to R402) -/

/-- Byte `i` of the lines read for the header, at line `l`. -/
def loadByte (got : List (Nat × LineData)) (pa i : Nat) : Byte :=
  lineByte (((got.find? fun e => e.1 == (pa + i) / 64).map (·.2)).getD 0) ((pa + i) % 64)
def loadBytes (got : List (Nat × LineData)) (pa i n : Nat) : List Byte := (List.range n).map fun k => loadByte got pa (i + k)
def loadNat (got : List (Nat × LineData)) (pa i n : Nat) : Nat := leNat (loadBytes got pa i n)

/-- The checks of R385 on the header. -/
def State.headerBad (s : State) (got : List (Nat × LineData)) (pa : Nat) : Option Exc :=
  let zero (a b : Nat) : Bool := (loadBytes got pa a (b + 1 - a)).all (· == 0)
  let isa := loadNat got pa 6 1
  let ver := s.rd F.GLOBAL_PROTO.ISA_VER
  let words := loadNat got pa 8 2
  if loadNat got pa 0 4 ≠ 0x424E4D41 ∨ loadNat got pa 4 2 ≠ 1 ∨ !(zero 7 7 && zero 12 15 && zero 24 59) then some ⟨0x04, 0, 0, 0⟩
  else if isa / 16 ≠ ver / 16 ∨ ver % 16 < isa % 16 then some ⟨0x04, 0, 1, 0⟩
  else if words = 0 ∨ 1024 < words ∨ words ≤ loadNat got pa 10 2 then some ⟨0x04, 0, 2, 0⟩
  else none

/-- The code words of an image that has been read. -/
def loadWords (got : List (Nat × LineData)) (pa : Nat) : List (BitVec 128) :=
  (List.range (loadNat got pa 8 2)).map fun i => BitVec.ofNat 128 (loadNat got pa (64 + 16 * i) 16)

/-- Bytes of the frame a CALL names (R401). -/
def frameBytes (w : BitVec 128) : Nat :=
  32 * (upTo 16 fun i => w.getLsbD (32 + i)).length + 8 * (upTo 16 fun i => w.getLsbD (48 + i)).length

/-- The registers a frame at `pa` loads (R401). -/
def frameRegs (w : BitVec 128) (got : List (Nat × LineData)) (pa : Nat) (r : CtxRegs) : CtxRegs :=
  let ds := upTo 16 fun i => w.getLsbD (32 + i)
  let ss := upTo 16 fun i => w.getLsbD (48 + i)
  let r := (ds.zipIdx).foldl (fun (r : CtxRegs) e => { r with d := r.d.set e.1 (BitVec.ofNat 256 (loadNat got pa (32 * e.2) 32)) }) r
  (ss.zipIdx).foldl (fun (r : CtxRegs) e => r.setS e.1 (BitVec.ofNat 64 (loadNat got pa (32 * ds.length + 8 * e.2) 8))) r

/-- The reads of `n` bytes at `pa`; an address that is no multiple of 64 is sent as it stands, for the access check to refuse. -/
def loadReads (c pa n : Nat) : List LReq :=
  if pa % 64 = 0 then readsOf c .code 0 ((List.range (ceilDiv n 64)).map (· + pa / 64))
  else [LReq.new c .code opRD pa 1 0]

/-- A load reads lines. -/
def State.readLoad (s : State) (j c : Nat) (l : Load) (rs : List LReq) : State :=
  let n := (rs.map (·.len)).sum
  (s.modCtx j c fun x => { x with op := .load { l with need := n } }).ask j rs

/-- The images in use: on the call stack, and the current one. -/
def Ctx.inUse (x : Ctx) : List Image := x.prog.imgs.filter fun i => i.pa == x.prog.img || x.prog.calls.any fun e => e.img == i.pa

/-- Makes room for `n` words: images not in use go, oldest last entry first (R388). -/
def evict (inUse : List Image) (n : Nat) : Nat → List Image → List Image
  | 0, imgs => imgs
  | k + 1, imgs =>
    if (imgs.map fun i => i.words.length).sum + n ≤ 1024 then imgs
    else match (imgs.filter fun i => !inUse.contains i).foldl (fun (a : Option Image) i => match a with
        | some b => if i.used < b.used then some i else some b
        | none => some i) none with
      | some i => evict inUse n k (imgs.erase i)
      | none => imgs

/-- The new image and those in use exceed the buffer (R388). -/
def Ctx.codeSpace (x : Ctx) (n : Nat) : Bool := decide (1024 < (x.inUse.map fun i => i.words.length).sum + n)

/-- An image is resident, as the one entered last (R387, R388). -/
def Ctx.keepImage (x : Ctx) (im : Image) : Ctx :=
  let rest := x.prog.imgs.filter fun i => i.pa != im.pa
  { x with prog := { x.prog with imgs := evict x.inUse im.words.length rest.length rest ++ [im] } }

/-- A CALL whose reads and checks have succeeded takes effect (R402): `img` is its target. -/
def State.enterCall (s : State) (j c : Nat) (w x : BitVec 128) (img : Option Image) (got : List (Nat × LineData)) (cycles : Nat) : State :=
  let k := s.ctx j c
  let regs := if frameBytes w = 0 then k.regs else frameRegs w got (bitsOf x 106 64) k.regs
  if !w.getLsbD 8 then (s.setCtx j c { k with op := .none, regs := regs }).advanceIp j c 2 cycles
  else match img with
    | none => s
    | some im =>
      let k := k.keepImage { im with used := s.now }
      let start := if bitsOf w 31 16 = 0xFFFF then im.entry else bitsOf w 31 16
      (s.setCtx j c { k with
        op := .none
        regs := regs
        prog := { k.prog with
          calls := ⟨k.prog.img, k.prog.ip + 2, k.prog.loops.length⟩ :: k.prog.calls
          img := im.pa
          ip := start } }).retire j c cycles

/-- CALL (R394, R400 to R402). -/
def execCall (j : Cluster) (c : CtxIx) (s : State) : Res :=
  s.issue j c (· == 0x03) fun s w x =>
    let k := s.ctx j c
    let enter := w.getLsbD 8
    let target := bitsOf x 42 0
    let img : Option Image := if !enter then none else if w.getLsbD 9 then some k.image
      else k.prog.imgs.find? fun i => i.pa == some target
    let start (i : Image) := if bitsOf w 31 16 = 0xFFFF then i.entry else bitsOf w 31 16
    let n := frameBytes w
    let frame := if n = 0 then none else some (bitsOf x 106 64)
    if enter ∧ k.depth = 8 then s.failInstr j c ⟨0x07, 0, 0, 0⟩
    else if img.any fun i => decide (i.words.length ≤ start i) then s.failInstr j c ⟨0x03, 0, 0, 0⟩
    else if enter ∧ img.isNone then
      s.readLoad j c ⟨true, some target, frame, w, x, [], 0, false, none⟩ (loadReads c target 64)
    else match frame with
      | none => s.enterCall j c w x img [] 6
      | some f => s.readLoad j c ⟨true, none, frame, w, x, [], 0, true, none⟩ (loadReads c f n)

/-- A load's first failure ends it: a CALL's as its instruction, a job's with n = 0, IP = 0 and DEPTH = 0 (R391). -/
def State.failLoad (s : State) (j c : Nat) (l : Load) (e : Exc) : State :=
  if l.call then s.failInstr j c e else s.failAt j c e 0 0 0

/-- CALL_LOAD_COMPLETE (R385 to R391, R402): the reads of a load have returned; after an image's header its code is read,
and after its checks the frame. -/
def execCallLoadComplete (j : Cluster) (c : CtxIx) (s : State) : Res :=
  if !s.nmcEdge then .next s else
  let k := s.ctx j c
  match k.op with
  | .load l =>
    if l.need ≠ 0 then .next s else
    match l.fail with
    | some e => .next (s.failLoad j c l e)
    | none =>
      let n := frameBytes l.w
      match l.image with
      | none => .next (s.enterCall j c l.w l.x (if l.w.getLsbD 9 then some k.image
          else k.prog.imgs.find? fun i => i.pa == some (bitsOf l.x 42 0)) l.got 3)
      | some pa =>
        let words := loadNat l.got pa 8 2
        if !l.body then
          match s.headerBad l.got pa with
          | some e => .next (s.failLoad j c l e)
          | none =>
            if k.codeSpace words ∧ l.call then .next (s.failLoad j c l ⟨0x06, 0, 0, 0⟩)
            else .next (s.readLoad j c { l with body := true } (loadReads c (pa + 64) (16 * words)))
        else
          let im : Image := ⟨some pa, loadWords l.got pa, loadNat l.got pa 10 2, s.now⟩
          let start := if bitsOf l.w 31 16 = 0xFFFF then im.entry else bitsOf l.w 31 16
          if crc32c (loadBytes l.got pa 0 60 ++ loadBytes l.got pa 64 (16 * words)) ≠ BitVec.ofNat 32 (loadNat l.got pa 60 4) then
            .next (s.failLoad j c l ⟨0x05, 0, 0, 0⟩)
          else if !l.call then
            let now := s.now
            .next (s.setCtx j c { k with
              st := if k.hold then .held else .running
              hold := false
              op := .none
              ready := now
              prog := { k.prog with imgs := [im], img := im.pa, ip := im.entry } })
          else if words ≤ start then .next (s.failLoad j c l ⟨0x03, 0, 0, 0⟩)
          else match l.frame with
            | none => .next (s.enterCall j c l.w l.x (some im) l.got 3)
            | some f => .next ((s.setCtx j c (k.keepImage im)).readLoad j c { l with image := none, got := [] } (loadReads c f n))
  | .none => .next s | .wait _ => .next s | .sema _ => .next s | .full _ => .next s | .fence _ _ => .next s | .data _ => .next s
  | .test _ => .next s

/-! ### Waits (R406 to R411, R417, R418) -/

/-- The semaphore a WAIT, SIGNAL or STAMP names: its address. -/
def Ctx.sema (x : Ctx) (w : BitVec 128) : Nat := dBase (x.regs.d.getD (iF w 0) 0)

/-- Issues a poll (R407). -/
def State.poll (s : State) (j c : Nat) : State :=
  let k := s.ctx j c
  match k.op with
  | .wait t =>
    let now := s.now
    (s.setCtx j c { k with op := .wait { t with next := now + s.cyc 128, out := true, again := none, reply := none, num := t.num + 1 } }).ask j
      [{ LReq.new c .poll opRD (k.sema t.w / 64 * 64) 1 1 with since := t.num + 1 }]
  | .none => s | .load _ => s | .sema _ => s | .full _ => s | .fence _ _ => s | .data _ => s | .test _ => s

/-- WAIT (R406, R407). -/
def execWait (j : Cluster) (c : CtxIx) (s : State) : Res :=
  s.issue j c (· == 0x05) fun s w _ =>
    let k := s.ctx j c
    match s.semaBad k (iF w 0) with
    | some e => s.failInstr j c e
    | none =>
      let t := (k.regs.s.getD (iF w 2) 0).toNat
      let dl := if !w.getLsbD 11 then none else if w.getLsbD 28 then some ((s.now + t) % 2 ^ 64) else some t
      (s.setCtx j c { k with
        st := .waiting
        op := .wait ⟨0, 0, w, dl, false, none, none, false, k.regs.s.getD (iF w 4) 0⟩ }).poll j c

/-- A context may release a poll: it is WAITING and not stopped by the gate (R417). -/
def State.mayPoll (s : State) (j c : Nat) : Bool :=
  let k := s.ctx j c
  k.st == .waiting && (match k.job with | some b => s.lanternAdmits b.tenant s.now | none => false)

/-- WAIT_POLL (R407, R411): the next poll, 128 cycles after the last, or in the cycle after a local wake. -/
def execWaitPoll (j : Cluster) (c : CtxIx) (s : State) : Res :=
  if !s.nmcEdge then .next s else
  match (s.ctx j c).op with
  | .wait t => .next (onlyIf (s.mayPoll j c && !t.out && t.reply.isNone && (t.again.any (fun u => decide (u ≤ s.now)) || decide (t.next ≤ s.now))) (s.poll j c) s)
  | .none => .next s | .load _ => .next s | .sema _ => .next s | .full _ => .next s | .fence _ _ => .next s | .data _ => .next s
  | .test _ => .next s

/-- WAIT's condition (R406). -/
def waitCond (w : BitVec 128) (r : CtxRegs) (v : W64) : Bool :=
  let b := if w.getLsbD 10 then sext64 (bitsOf w 95 64) else r.s.getD (iF w 1) 0
  match bitsOf w 9 8 with
  | 0 => v == b
  | 1 => v != b
  | 2 => !v.ult b
  | _ => !v.slt b

/-- The WAIT ends: s[DST] takes `v` (R408, R409). -/
def State.endWait (s : State) (j c : Nat) (w : BitVec 128) (v : W64) (timeout : Bool) : State :=
  (s.modCtx j c fun k =>
    let r := k.regs.setS (iF w 4) v
    { k with regs := if timeout then r.flag 2 else r }).advanceIp j c 1 1

/-- WAIT_POLL_REPLY (R408 to R410). -/
def execWaitPollReply (j : Cluster) (c : CtxIx) (s : State) : Res :=
  if !s.nmcEdge then .next s else
  let k := s.ctx j c
  match k.op with
  | .wait t => match t.reply with
    | none => .next s
    | some (r, v) =>
      let ok := r == rOK || r == rCORR
      if k.st ≠ .waiting then .next s
      else if ok && waitCond t.w k.regs v then .next (s.endWait j c t.w v false)
      else if !(ok || r == rDROPPED || r == rTIMEOUT) then
        .next (s.failInstr j c (memExc r (iF t.w 0) (k.sema t.w / 64)))
      else
        let last := if ok then v else t.last
        if t.final then
          .next (if t.w.getLsbD 12 then s.endWait j c t.w last true else s.failInstr j c ⟨0x0F, 0, 0, 0⟩)
        else .next (s.setCtx j c { k with op := .wait { t with reply := none, last := last } })
  | .none => .next s | .load _ => .next s | .sema _ => .next s | .full _ => .next s | .fence _ _ => .next s | .data _ => .next s
  | .test _ => .next s

/-- WAIT_DEADLINE (R409, R417): the next reply decides; a poll is issued when none is outstanding. While the gate stops the context the
deadline waits for its resumption. -/
def execWaitDeadline (j : Cluster) (c : CtxIx) (s : State) : Res :=
  if !s.nmcEdge then .next s else
  let k := s.ctx j c
  match k.op with
  | .wait t =>
    let due := k.st == .waiting && !t.final && (t.deadline.any fun d => decide (d ≤ s.now))
    if !due then .next s
    else
      let s' := s.setCtx j c { k with op := .wait { t with final := true } }
      -- a reply that has come counts first (R424)
      .next (if t.reply.isSome || !s.mayPoll j c then s else if t.out then s' else s'.poll j c)
  | .none => .next s | .load _ => .next s | .sema _ => .next s | .full _ => .next s | .fence _ _ => .next s | .data _ => .next s
  | .test _ => .next s

/-- The reply of a SIGNAL or STAMP wakes the WAITING contexts of its Lantern whose word lies in the line (R411). -/
def State.localWake (s : State) (j line : Nat) : State :=
  let now := s.now
  (List.range 8).foldl (fun s c =>
    let k := s.ctx j c
    match k.op with
    | .wait t =>
      if k.st = .waiting ∧ k.sema t.w / 64 = line then s.setCtx j c { k with op := .wait { t with again := some (now + 1) } } else s
    | .none => s | .load _ => s | .sema _ => s | .full _ => s | .fence _ _ => s | .data _ => s | .test _ => s) s

/-- A context is to be HELD (R351): at once between instructions or in a WAIT, else at the end of its instruction. -/
def State.holdCtx (s : State) (j c : Nat) : State :=
  let k := s.ctx j c
  match k.st with
  | .running =>
    if k.op = .none then s.setCtx j c { k with st := .held } else s.setCtx j c { k with hold := true }
  | .waiting => match k.op with
    | .wait t => s.setCtx j c { k with st := .held, op := .wait { t with reply := none, final := false, out := false, again := none } }
    | .none => s | .load _ => s | .sema _ => s | .full _ => s | .fence _ _ => s | .data _ => s | .test _ => s
  | .idle => s | .held => s | .draining => s

/-- A HELD context is released (R418): a WAIT resumes with a new first poll, once the gate admits it (R417); the reply to one from before
counts for nothing. -/
def State.releaseCtx (s : State) (j c : Nat) : State :=
  let k := s.ctx j c
  if k.st ≠ .held then s.setCtx j c { k with hold := false }
  else match k.op with
    | .wait t =>
      let s := s.setCtx j c { k with st := .waiting, op := .wait { t with again := some s.now } }
      if s.mayPoll j c then s.poll j c else s
    | .none => s.setCtx j c { k with st := .running }
    | .load _ => s.setCtx j c { k with st := .running } | .sema _ => s.setCtx j c { k with st := .running }
    | .full _ => s.setCtx j c { k with st := .running } | .fence _ _ => s.setCtx j c { k with st := .running }
    | .data _ => s.setCtx j c { k with st := .running } | .test _ => s.setCtx j c { k with st := .running }

/-! ### SIGNAL, STAMP and FENCE (R403 to R405, R412 to R416) -/

/-- The request of a SIGNAL or STAMP word. -/
def Ctx.semaReq (x : Ctx) (c : Nat) (w : BitVec 128) (kind : LKind) : LReq :=
  let pa := x.sema w
  let word := pa / 8 % 8
  let line := pa / 64 * 64
  if iOp w = 0x08 then { LReq.new c kind opSTAMP line 1 1 with word := word }
  else
    let v := if w.getLsbD 10 then sext64 (bitsOf w 95 64) else x.regs.s.getD (iF w 1) 0
    if bitsOf w 9 8 = 0 then { LReq.new c kind opAADD line 1 1 with opnd := v.toNat, word := word }
    else { LReq.new c kind opWRP line 1 1 with opnd := 0xFF <<< (8 * word), beats := [putWord 0 word v] }

/-- A posted SIGNAL or STAMP is sent, and its instruction ends (R413). -/
def State.postSema (s : State) (j c : Nat) (w : BitVec 128) : State :=
  let k := s.ctx j c
  let n := k.prog.n - 1
  let p : Posted := ⟨n, k.prog.ip, k.depth, iF w 0, k.sema w / 64, none⟩
  ((s.setCtx j c { k with op := .none, posted := k.posted ++ [p] }).ask j [k.semaReq c w (.posted n)]).advanceIp j c 1 1

/-- Sends the request of a SIGNAL or STAMP, posted or awaited; `pre` is the scalar an awaited STAMP writes. -/
def State.sendSema (s : State) (j c : Nat) (w : BitVec 128) (post : Bool) (dst : Option Nat) (pre : Option (Nat × W64) := none) : State :=
  let k := s.ctx j c
  match s.semaBad k (iF w 0) with
  | some e => s.failInstr j c e
  | none =>
    if post then
      if k.posted.length < 16 then s.postSema j c w else s.setCtx j c { k with op := .full w }
    else (s.setCtx j c { k with op := .sema pre }).ask j [k.semaReq c w (.sema dst)]

/-- SIGNAL (R412, R413). -/
def execSignal (j : Cluster) (c : CtxIx) (s : State) : Res :=
  s.issue j c (· == 0x06) fun s w _ =>
    s.sendSema j c w (w.getLsbD 11) (if bitsOf w 9 8 = 0 then some (iF w 2) else none)

/-- STAMP (R404, R405, R413, R419): s[DST] takes the stamp of the issue; of an awaited STAMP, which may still fail, as its reply comes. -/
def execStampInstr (j : Cluster) (c : CtxIx) (s : State) : Res :=
  s.issue j c (· == 0x08) fun s w _ =>
    let now := s.clk.now
    let s' := s.modCtx j c fun k => { k with regs := k.regs.setS (iF w 1) now }
    if w.getLsbD 8 then
      match s.semaBad (s.ctx j c) (iF w 0) with
      | some e => s.failInstr j c e
      | none => if w.getLsbD 9 then s'.sendSema j c w true none else s.sendSema j c w false none (some (iF w 1, now))
    else s'.advanceIp j c 1 1

/-- The next posted request of a context whose reply has come. -/
def Ctx.answered (x : Ctx) : Option (Posted × Nat) := x.posted.findSome? fun p => p.reply.map fun r => (p, r)

/-- POSTED_REPLY (R411, R413, R414): a posted reply wakes local waiters; one that is not OK fails the job at the next boundary. -/
def execPostedReply (j : Cluster) (c : CtxIx) (s : State) : Res :=
  if !s.nmcEdge then .next s else
  match (s.ctx j c).answered with
  | none => .next s
  | some (p, r) =>
    let fail : Option JobFin := if r = rOK ∨ r = rCORR then none
      else
        let e := memExc r p.reg p.line
        some ⟨excResult e, excDetail e p.ip p.depth, p.n % 65536, s.nowAt j, false, false⟩
    let s := s.modCtx j c fun x => { x with posted := x.posted.erase p, pfail := x.pfail.orElse fun _ => fail }
    let s := s.localWake j p.line
    let k := s.ctx j c
    .next (match k.op with
      | .none => (match k.pfail with | some f => s.drainCtx j c { f with at_ := s.nowAt j } | none => s)
      | .full w => s.postSema j c w
      | .wait _ => s | .load _ => s | .sema _ => s | .fence _ _ => s | .data _ => s | .test _ => s)

/-- FENCE (R403). -/
def execFence (j : Cluster) (c : CtxIx) (s : State) : Res :=
  s.issue j c (· == 0x07) fun s w _ =>
    let k := s.ctx j c
    let mem := w.getLsbD 8
    let jrnl := w.getLsbD 9
    if k.fenced mem jrnl then s.advanceIp j c 1 1 else s.setCtx j c { k with op := .fence mem jrnl }

/-- FENCE_COMPLETE (R403). -/
def execFenceComplete (j : Cluster) (c : CtxIx) (s : State) : Res :=
  if !s.nmcEdge then .next s else
  let k := s.ctx j c
  match k.op with
  | .fence mem jrnl => .next (onlyIf (k.fenced mem jrnl) (s.advanceIp j c 1 1) s)
  | .none => .next s | .wait _ => .next s | .load _ => .next s | .sema _ => .next s | .full _ => .next s | .data _ => .next s
  | .test _ => .next s

/-! ### Replies (R126, R386, R410, R412, R414) -/

/-- The failure of a load so far, and one more: POISONED goes before MEM, and the earlier of two stays (R386). -/
def worseExc (a : Option Exc) (e : Exc) : Option Exc := match a with
  | some x => some (if x.code ≠ 0x0E ∧ e.code = 0x0E then e else x)
  | none => some e

/-- A reply to a read of an image or frame. -/
def State.codeReply (s : State) (j : Nat) (q : LReq) (r : LReply) : State :=
  let l0 := q.pa / 64
  let ok := r.result == rOK || r.result == rCORR
  let ls := (List.range q.len).map fun i => (l0 + i, r.data.getD i 0)
  let bad := if r.result = rPOISONED then l0 + ((upTo 4 (nbit r.pois)).headD 0) else l0
  (s.freeTag j q).modCtx j q.ctx fun k => match k.op with
    | .load l => { k with op := .load { l with
        need := l.need - q.len
        got := if ok then l.got ++ ls else l.got
        fail := if ok then l.fail else worseExc l.fail (memExc r.result 0 bad) } }
    | .none => k | .wait _ => k | .sema _ => k | .full _ => k | .fence _ _ => k | .data _ => k | .test _ => k

/-- A reply to a poll. -/
def State.pollReply (s : State) (j : Nat) (q : LReq) (r : LReply) : State :=
  let now := s.now
  (s.freeTag j q).modCtx j q.ctx fun k => match k.op with
    | .wait t =>
      if !t.out || q.since != t.num then k else
      let v := lineWord (r.data.getD 0 0) (k.sema t.w / 8 % 8)
      { k with op := .wait { t with
          out := false, again := t.again.map fun _ => now + 1, reply := if k.st = .waiting then some (r.result, v) else none } }
    | .none => k | .load _ => k | .sema _ => k | .full _ => k | .fence _ _ => k | .data _ => k | .test _ => k

/-- A reply to an awaited SIGNAL or STAMP (R405, R411, R412). -/
def State.semaReply (s : State) (j : Nat) (q : LReq) (dst : Option Nat) (r : LReply) : State :=
  let s := (s.freeTag j q).localWake j (q.pa / 64)
  let k := s.ctx j q.ctx
  if r.result = rOK ∨ r.result = rCORR then
    let regs := match k.op with
      | .sema (some (d, v)) => k.regs.setS d v
      | .sema none => k.regs
      | .none => k.regs | .wait _ => k.regs | .load _ => k.regs | .full _ => k.regs | .fence _ _ => k.regs | .data _ => k.regs
      | .test _ => k.regs
    (s.setCtx j q.ctx { k with regs := match dst with | some d => regs.setS d r.rval | none => regs }).advanceIp j q.ctx 1 1
  else
    let reg := match k.word k.prog.ip with | some w => iF w 0 | none => 0
    s.failInstr j q.ctx (memExc r.result reg (q.pa / 64))

/-- A reply to a request whose tag has another generation by now is dropped (R126). -/
def State.lateReply (s : State) (j : Nat) (r : LReply) : State :=
  let s := (s.incRc F.PORT_TMO.LATE_DROP (27 + j)).record { ErrRec.make s.now sevInfo 0x14 j with req := 27 + j }
  match (s.lnt j).req r.path r.tag with
  | some q => if q.gen = r.gen then s.freeTag j q else s
  | none => s

/-- LANTERN_REPLY_ARRIVAL (R126): the next reply at a Lantern is used, or dropped by generation. -/
def execLanternReplyArrival (j : Cluster) (s : State) : Res :=
  if !s.nmcEdge then .next s else
  match (s.lnt j).inbox with
  | [] => .next s
  | r :: rest =>
    let s := s.modLnt j fun l => { l with inbox := rest }
    match (s.lnt j).req r.path r.tag with
    | none => .next (s.lateReply j r)
    | some q =>
      if tget 0 (s.lnt j).gens (r.path * 4096 + r.tag) ≠ r.gen ∨ q.gen ≠ r.gen then .next (s.lateReply j r)
      else
        let lines := onlyIf (q.op == opRD && (r.result == rOK || r.result == rCORR)) (s.pmuCtx j q.ctx 3 q.len) s
        let wrote := onlyIf (q.op != opRD && (r.result == rOK || r.result == rCORR)) (s.pmuCtx j q.ctx 4 1) s
        .next (match q.kind with
          | .code => lines.codeReply j q r
          | .poll => lines.pollReply j q r
          | .sema dst => wrote.semaReply j q dst r
          | .posted n => (wrote.freeTag j q).modCtx j q.ctx fun k => { k with
              posted := k.posted.map fun p => if p.n == n then { p with reply := some r.result } else p }
          | .data m reg => s.dataReply j q m reg r
          | .out m => s.outReply j q m r
          | .contrib m => s.contribReply j q m r
          | .journal => (s.freeTag j q).modCtx j q.ctx fun k => { k with jrn := k.jrn - 1 })

end Sys2Proof.Machine
end

