-- ==== Sys2Proof/Machine/Rings.lean ====
section
/-! DEFINITION. Rings at Lamplighter and the completion collector (chapter "Rings, functions and the host"): doorbells, fetch, entry
checks, dispatch, records, MSI-X, resets of rings and functions, the handshake and the heartbeat. -/

namespace Sys2Proof.Machine

/-! ### Functions -/

/-- FN_STATUS.VER reads ACCEPTED (R537, R539). -/
def State.accepted (s : State) (f : Nat) : Bool := s.rd F.FN_STATUS.VER f == 1
/-- WHERE of a register of a function page (R593). -/
def fnWhere (f off : Nat) : Nat := if f = 0 then 0x2200000 + off else f <<< 40 + off
/-- The audit entry of a function's write that changes a register of its page (R23, R596). -/
def State.auditFn (s : State) (f off old new : Nat) : State := onlyIf (old != new) (s.audit 1 f 0 (fnWhere f off) old new) s
/-- The tenant a function is bound to; PF0 to tenant 0 (R526). -/
def State.fnTenant (s : State) (f : Nat) : Option Nat := s.tenantOf 24 f none
/-- Core SCH, which Lamplighter obeys, is RUNNING (R706). -/
def State.schUp (s : State) : Bool := s.rd F.FW_STATE.STATE 2 == 2
def State.modRings (s : State) (f : Rings → Rings) : State := { s with rings := f s.rings }

def ringDisabled : Nat := 0
def ringRunning : Nat := 1
def ringPaused : Nat := 2
def ringHalted : Nat := 3
def ringResetting : Nat := 4

def State.ringSt (s : State) (i : Nat) : Nat := s.rd F.RING_STATE.STATE i

/-! ### Doorbells (R520, R521, R539) -/

/-- (a − b) mod 2^16. -/
def sub16 (a b : Nat) : Nat := (a + 65536 - b) % 65536

/-- SQ_DOORBELL (R520): FN_SQDBr is written. -/
def execSqDoorbell (f : FnIx) (r : RingIx) (d : BitVec 16) (s : State) : Res := s.orWait (.sqDoorbell f r d) fun s =>
  let i := 64 * f.val + r.val
  if !s.accepted f || s.ringSt i == ringResetting then .next s else
  if sub16 d.toNat (s.rd F.RING_PTRS.PROD i) ≤ 256 ∧ sub16 d.toNat (s.rd F.RING_PTRS.CHEAD i) ≤ 256 then
    .next (((s.wr F.RING_PTRS.PROD d.toNat i).wr F.FN_SQDB.VALUE d.toNat f r).auditFn f (8 * r.val)
      (s.rd F.FN_SQDB.VALUE f r) d.toNat)
  else .next (s.raise F.RING_ERR.BAD_DB i)

/-- CQ_DOORBELL (R521): FN_CQDBr is written. -/
def execCqDoorbell (f : FnIx) (r : RingIx) (d : BitVec 16) (s : State) : Res := s.orWait (.cqDoorbell f r d) fun s =>
  let i := 64 * f.val + r.val
  if !s.accepted f || s.ringSt i == ringResetting then .next s else
  let head := s.rd F.RING_PTRS.CHEAD i
  if sub16 d.toNat head ≤ sub16 (s.rd F.RING_PTRS.CDONE i) head then
    .next (((s.wr F.RING_PTRS.CHEAD d.toNat i).wr F.FN_CQDB.VALUE d.toNat f r).auditFn f (8 * r.val + 4)
      (s.rd F.FN_CQDB.VALUE f r) d.toNat)
  else .next (s.raise F.RING_ERR.BAD_DB i)

/-! ### Requests of Lamplighter and the collector -/

/-- A read or whole-line write of requester 39 at a line, which R76 does not check (R88, R530), released at once. -/
def State.blockReq (s : State) (op pa job : Nat) (beats : List LineData) : State :=
  let h := mkHdr op 1 0 0 0 false pa s.now 0 0 0
  s.addFlight { s.mkFlight (s.siteOf pa) 39 0 (some 0) (.block job) ⟨h, beats, 0⟩ with stage := .released s.now }

/-- The address of ring `i`'s area (R519). -/
def ringPa (i : Nat) : Nat := 0xFFE <<< 28 + 32768 * i

def Purpose.isBlock : Purpose → Bool
  | .block _ => true
  | .port => false | .host _ _ => false | .mirror _ _ => false | .lantern _ _ _ => false

/-- What a line holds after the block's own writes on their way to it; a free value where it cannot be read. -/
def State.lineNow (s : State) (pa : Nat) : LineData × State :=
  match (s.flights.filter fun f => f.why.isBlock && hOp f.hdr == opWR && hLine f.hdr == pa && f.unissued).getLast? with
  | some f => (f.beats.headD 0, s)
  | none =>
    let l := s.locRead pa (s.plot (pa >>> 28 % 4096))
    let lost : LineData × State := (s.fresh.1.setWidth 512, s.fresh.2)
    match (s.live l.k l.pc).youngest l with
    | some w => if w.poison then lost else (w.data, s)
    | none => match s.blockRead pa with
      | some d => (d, s)
      | none => lost

/-! ### Fetch and check (R525, R526) -/

/-- PF0's driver is lost: its rings neither fetch nor dispatch (R540). -/
def State.lostRing (s : State) (i : Nat) : Bool := i / 64 == 0 && s.attn 0x9

/-- Rings with an entry to fetch: a doorbell is seen from the tick after its effect (R549's example). -/
def State.fetchable (s : State) : List Nat :=
  (s.regs.filter fun e => e.1 / 2 ^ 28 == RegName.RING_PTRS.ctorIdx).filterMap fun e =>
    let i := e.1 / 2 ^ 14 % 2 ^ 14
    if s.ringSt i == ringRunning && !s.lostRing i && s.bit F.FN_RINGCTL.EN (i / 64) (i % 64) &&
      s.rd F.RING_PTRS.FETCHED i != s.rd0 F.RING_PTRS.PROD i then some i else none

/-- RING_FETCH (R525): one entry a tick, from the next ring in turn, while fewer than 256 are held. -/
def execRingFetch (s : State) : Res :=
  let turn (i : Nat) := (i + 8191 - s.rings.rr) % 8192
  match s.fetchable.foldl (fun (a : Option Nat) i => match a with
      | some b => if turn i < turn b then some i else some b
      | none => some i) none with
  | none => .next s
  | some i =>
    let seq := s.rd F.RING_PTRS.FETCHED i
    let fl := s.nextId
    let now := s.now
    .next (onlyIf (s.schUp && s.rings.fetched != now + 1 && decide (s.rings.entries.length < 256))
      (((((s.blockReq opRD (ringPa i + 64 * (seq % 256)) 0 []).wr F.RING_STATE.TENANT ((s.fnTenant (i / 64)).getD 0) i).incWrap
        F.RING_PTRS.FETCHED i).evt 12 0x00 0).modRings fun x =>
        { x with rr := i, fetched := now + 1, entries := x.entries ++ [(⟨i, seq, fl, 0, false, 0, 0, 0⟩ : RingEnt)] }) s)

/-- The header of an entry (R522). -/
def RingEnt.hdr (e : RingEnt) (hi lo : Nat) : Nat := bitsOf e.data hi lo
def RingEnt.lnt (e : RingEnt) : Nat := e.hdr 39 36
def RingEnt.form1 (e : RingEnt) : Bool := e.data.getLsbD 40
def RingEnt.irq (e : RingEnt) : Bool := e.data.getLsbD 35
def RingEnt.after (e : RingEnt) : Bool := e.data.getLsbD 34

/-- Lanterns that are not fenced. -/
def State.lntsUp (s : State) : List Nat := upTo 12 fun j => !s.bit F.LNT_CTL.FENCED j

/-- The first check of R526 that an entry fails: RESULT and the exception its detail word names. -/
def State.entryBad (s : State) (e : RingEnt) : Option (Nat × Exc) :=
  let line := (ringPa e.ring + 64 * (e.seq % 256)) / 64
  let f := e.ring / 64
  if e.result = rPOISONED then some (rPOISONED, ⟨0x0E, rPOISONED, 0, paField line⟩)
  else if e.result ≠ rOK ∧ e.result ≠ rCORR then some (e.result, ⟨0x0D, e.result, 0, paField line⟩)
  else if e.hdr 63 48 ≠ e.seq then some (rUNSUP, ⟨0x40, 0, 0, 0⟩)
  else if e.hdr 47 41 ≠ f then some (rDENIED, ⟨0x41, 0, 0, 0⟩)
  else if (s.fnTenant f).isNone then some (rDENIED, ⟨0x42, 0, 0, 0⟩)
  else if (!e.form1 && (e.hdr 33 2 != 0 || e.hdr 1 0 == 0)) || (decide (12 ≤ e.lnt) && e.lnt != 15) then
    some (rUNSUP, ⟨0x43, 0, 0, 0⟩)
  else if s.lntsUp.isEmpty then some (rUNSUP, ⟨0x44, 0, 0, 0⟩)
  else none

/-- Changes the entry of a ring and sequence number. -/
def State.modEntry (s : State) (e : RingEnt) (g : RingEnt → Option RingEnt) : State := s.modRings fun x =>
  { x with entries := x.entries.filterMap fun y => if y.ring == e.ring && y.seq == e.seq then g y else some y }

/-- ENTRY_CHECK (R526, R529): the oldest unchecked entry of a ring that has arrived passes its checks, or is refused with a record
of Lamplighter's own when FIFO ring mod 12 has a credit. -/
def execEntryCheck (ring : Fin 8192) (s : State) : Res :=
  match s.rings.entries.find? fun e => e.ring == ring.val && e.at_ != 0 && !e.checked with
  | none => .next s
  | some e =>
    let f := ring.val / 64
    match s.entryBad e with
    | none =>
      let t := (s.fnTenant f).getD 0
      .next (onlyIf s.schUp (s.modEntry e fun y => some { y with checked := true, tenant := t }) s)
    | some (result, x) =>
      let k := ring.val % 12
      if !s.schUp || decide (256 ≤ s.fifoLen k) then .next s else
      let status := s.attnFor (s.fnReceiver f) * 16 + result
      let r : Rec := ⟨k, ring, s.rd F.RING_STATE.EPOCH ring, e.irq,
        recordData e.at_ e.at_ e.at_ e.seq status 0 15 0 (excDetail x 0 0)⟩
      .next ((((s.modEntry e fun _ => none).incRc F.RING_ERR.REFUSED ring).evt 12 0x01 0).modRings fun x =>
        { x with fifos := x.fifos ++ [r] })

/-! ### Dispatch (R527, R528) -/

/-- Contexts of Lantern `j` that a job may be dispatched to. -/
def State.idleCtxs (s : State) (j : Nat) : List Nat :=
  upTo 8 fun c => let x := s.ctx j c; x.st == .idle && x.clear.isNone && x.job.isNone

/-- The Lantern an entry goes to (R527). -/
def State.lanternFor (s : State) (n : Nat) : Option Nat :=
  let up := s.lntsUp
  if n = 15 then up.foldl (fun (a : Option Nat) j => match a with
      | some b => if (s.idleCtxs b).length < (s.idleCtxs j).length then some j else some b
      | none => some j) none
  else ((List.range 12).map fun i => (n + i) % 12).find? up.contains

/-- SEQ of a completion record. -/
def Rec.seq (r : Rec) : Nat := bitsOf r.data 47 32

/-- An earlier entry of a ring than that of sequence number `seq` has no record yet (R528): its job runs, or its record is on its way. -/
def State.earlierOpen (s : State) (ring seq : Nat) : Bool :=
  let ep := s.rd F.RING_STATE.EPOCH ring
  (allCtxs.any fun q => let x := s.ctx q.1 q.2
    x.st != .idle && !(x.fin.any (·.sent)) && x.job.any fun b => b.ring == ring && b.epoch == ep) ||
  ((s.rings.fifos ++ s.rings.held).any fun r => r.ring == ring && r.epoch == ep && r.seq != seq && decide (sub16 seq r.seq ≤ 256))

/-- The checked entry of a ring that may be dispatched now (R528, R540), with the Lantern and context it goes to. -/
def State.dispatchable (s : State) (ring : Nat) : Option (RingEnt × Nat × Nat) :=
  match s.rings.entries.find? (·.ring == ring) with
  | none => none
  | some e =>
    let st := s.ringSt ring
    if !e.checked || !(st == ringRunning || st == ringHalted) || decide (s.rd F.RING_CFG.MAXCTX ring ≤ s.ringJobs ring) ||
      (e.after && s.earlierOpen ring e.seq) || s.lostRing ring then none
    else (s.lanternFor e.lnt).bind fun j => (s.idleCtxs j).head?.map fun c => (e, j, c)

/-- A job enters a context (R339, R375, R390, R391, R523, R528, R791): its seed is loaded, its counters clear, and 8 ticks later its
first instruction may issue; a call address is read. -/
def State.startJob (s : State) (e : RingEnt) (j c : Nat) : State :=
  let f := e.ring / 64
  let job : Job := ⟨e.tenant, f, e.ring, e.seq, s.rd F.RING_STATE.EPOCH e.ring, e.irq, e.at_, s.now + 8⟩
  let words : List (BitVec 128) := (List.range (e.hdr 1 0)).map fun i => e.data.extractLsb' (128 * (i + 1)) 128
  let x : Ctx := { Ctx.blank with
    st := .running
    job := some job
    ready := s.now + 8
    prog := { Prog.blank with imgs := if e.form1 then [] else [(⟨none, words, 0, s.now⟩ : Image)] } }
  let s := (s.setCtx j c x).wr F.LNT_CTX_SEED.SEED (e.hdr 127 64) j c
  let s := (List.range 8).foldl (fun s i => s.clearReg .PMU_CTX j (c * 8 + i)) s
  if e.form1 then
    let pa := e.hdr 33 0 * 64
    s.readLoad j c ⟨false, some pa, none, 0, 0, [], 0, false, none⟩ (loadReads c pa 64)
  else s

/-- JOB_DISPATCH (R527, R528): at most one job a tick. -/
def execJobDispatch (ring : Fin 8192) (s : State) : Res :=
  match s.dispatchable ring with
  | none => .next s
  | some (e, j, c) =>
    let now := s.now
    .next (onlyIf (s.schUp && s.rings.sent != now + 1)
      ((((s.modEntry e fun _ => none).modRings fun x => { x with sent := now + 1 }).startJob e j c).evt 12 0x02 0) s)

/-! ### Completion records (R523, R524, R529 to R531, R540) -/

/-- Writes a record in its ring's completion queue (R524, R530, R532): a WR of its whole line, whose other half is as it stands. -/
def State.writeRecord (s : State) (r : Rec) : State :=
  let c := s.rd F.RING_PTRS.CDONE r.ring
  let f := r.ring / 64
  let d := r.data ||| BitVec.ofNat 256 ((c / 256 + 1) % 2)
  let pa := ringPa r.ring + 16384 + 64 * (c % 256 / 2)
  let (old, s) := s.lineNow pa
  let line : LineData := if c % 2 = 0 then (old >>> 256) <<< 256 ||| d.setWidth 512
    else (old.extractLsb' 0 256).setWidth 512 ||| d.setWidth 512 <<< 256
  let id := s.nextId
  let now := s.now
  let s := (s.blockReq opWR pa 1 [line]).incWrap F.RING_PTRS.CDONE r.ring
  let s := s.wr F.RING_JOBS.VALUE ((s.rd F.RING_JOBS.VALUE r.ring + 1) % 2 ^ 48) r.ring
  let s := (s.wr F.RING_LAST.VALUE now r.ring).evt 12 0x05 0
  let vec := s.rd F.FN_RINGCTL.VEC f (r.ring % 64)
  onlyIf r.irq (s.modRings fun x => { x with msgs := x.msgs ++ [(f, vec, id + 1)] }) s

/-- Records of a ring are held (R540): it is PAUSED, or PF0's driver is lost. -/
def State.pausedRing (s : State) (i : Nat) : Bool := s.ringSt i == ringPaused || s.lostRing i

/-- The record the merge takes next (R530): the twelve FIFOs in turn; one whose head is for a PAUSED ring waits while the buffer of
R540 is full. -/
def State.nextRec (s : State) : Option Rec :=
  ((List.range 12).map fun i => (s.rings.fifoRr + 1 + i) % 12).findSome? fun k =>
    (s.rings.fifos.find? (·.fifo == k)).bind fun r =>
      if s.pausedRing r.ring && decide (96 ≤ s.rings.held.length) then none else some r

/-- RECORD_WRITE (R530, R531, R540): one record a tick; dropped when its ring has been reset, held when its ring is PAUSED. -/
def execRecordWrite (s : State) : Res :=
  match s.nextRec with
  | none => .next s
  | some r =>
    if s.rings.wrote = s.now + 1 then .next s else
    let now := s.now
    let s := s.modRings fun x => { x with fifos := x.fifos.erase r, fifoRr := r.fifo, wrote := now + 1 }
    if r.epoch ≠ s.rd F.RING_STATE.EPOCH r.ring then .next (s.incRc F.RING_ERR.LATE_DROP r.ring)
    else if s.pausedRing r.ring then .next (s.modRings fun x => { x with held := x.held ++ [r] })
    else .next (s.writeRecord r)

/-! ### MSI-X (R532) -/

/-- A function or vector that may send no message now. -/
def State.msixHeld (s : State) (f vec : Nat) : Bool := s.bit F.FN_MSIX_CTL.MASK f vec || s.rings.bmeOff.contains f

def State.sendMsix (s : State) (f vec : Nat) : State :=
  (s.send (.msix f vec (s.reg .FN_MSIX_ADDR f vec) (BitVec.ofNat 32 (s.rd F.FN_MSIX_DATA.DATA f vec)))).evt 12 0x07 0

/-- MSIX_SEND (R532): the first message whose record's write is acknowledged is sent, or becomes pending. The Function Mask of its
function stands in the configuration space of the endpoint, which has no register in the spec and no command: what it is at each
message is a free value (notes/assumptions/53). -/
def execMsixSend (s : State) : Res :=
  match s.rings.msgs.find? (·.2.2 == 0) with
  | none => .next s
  | some m =>
    let (free, s) := (s.modRings fun x => { x with msgs := x.msgs.erase m }).fresh
    let fmask := free.getLsbD 0
    .next (if s.msixHeld m.1 m.2.1 || fmask then s.setMap F.FN_MSIX_PBA.PENDING m.2.1 true m.1 else s.sendMsix m.1 m.2.1)

/-- MSIX_PENDING_CLEAR (R532, R544): function `f` is a bus master and not masked; a pending vector that is not masked is sent. -/
def execMsixPendingClear (f : FnIx) (vec : RingIx) (s : State) : Res :=
  let s := s.modRings fun x => { x with bmeOff := x.bmeOff.filter (· != f.val) }
  let s := (List.range 12).foldl State.pumpHost s
  .next (onlyIf (nbit (s.rd F.FN_MSIX_PBA.PENDING f) vec && !s.msixHeld f vec)
    ((s.setMap F.FN_MSIX_PBA.PENDING vec false f).sendMsix f vec) s)

/-! ### The handshake and the heartbeat (R536 to R541) -/

/-- Holds, or releases, every context whose job satisfies `p`. -/
def State.holdJobs (s : State) (p : Job → Bool) : State :=
  allCtxs.foldl (fun s q => if (s.ctx q.1 q.2).job.any p then s.holdCtx q.1 q.2 else s) s
def State.releaseJobs (s : State) (p : Job → Bool) : State :=
  allCtxs.foldl (fun s q => if (s.ctx q.1 q.2).job.any p then s.releaseCtx q.1 q.2 else s) s

/-- A ring may resume (R541, R544): it is PAUSED or HALTED, its driver is not lost, and where HALT is set its function is a bus
master. -/
def State.mayResume (s : State) (i : Nat) : Bool :=
  (s.ringSt i == ringPaused || s.ringSt i == ringHalted) && !s.lostRing i &&
    !(s.bit F.RING_STATE.HALT i && s.rings.bmeOff.contains (i / 64))

/-- A ring resumes: its held records are written, its HELD contexts released, and fetching starts again. -/
def State.resumeRing (s : State) (i : Nat) : State :=
  let held := s.rings.held.filter (·.ring == i)
  let s := ((s.setRing (Origin.fn (i / 64)) i ringRunning).wr F.RING_STATE.HALT 0 i).modRings fun x =>
    { x with held := x.held.filter (·.ring != i) }
  (held.foldl State.writeRecord s).releaseJobs (·.ring == i)

/-- HANDSHAKE (R537 to R541, R549): GLOBAL_DRVVER of PF0, or FN_DRVVER of a VF, is written; RESUMEs of PF0 that came before it in its tick
follow it. -/
def execHandshake (f : FnIx) (v : W32) (s : State) : Res := s.orWait (.handshake f v) fun s =>
  let major := bitsOf v 15 8
  let minor := bitsOf v 7 0
  let ok := major == s.rd F.GLOBAL_IFVER.MAJOR && decide (minor ≤ s.rd F.GLOBAL_IFVER.MINOR)
  let new := v.toNat % 65536
  let s := if f.val = 0 then
      let old := (s.reg .GLOBAL_DRVVER).toNat
      onlyIf (old != new) ((s.setReg .GLOBAL_DRVVER 0 0 (BitVec.ofNat 64 new)).audit 1 0 0 0x38 old new) s
    else
      let old := (s.reg .FN_DRVVER f).toNat
      (s.setReg .FN_DRVVER f 0 (BitVec.ofNat 64 new)).auditFn f 0x1004 old new
  let again := s.rings.resumes
  let s := s.wr F.FN_STATUS.VER (if ok then 1 else 2) f
  if f.val = 0 ∧ ok then
    let now := s.now
    let s := onlyIf s.inHold (s.wr F.GLOBAL_STATE.STATE 2) s
    let s := (s.setAttn 0x9 false).modRings fun x => { x with beat := now + 1, resumes := [] }
    let s := onlyIf s.fw.stepWaits ({ s with fw := { s.fw with stepWaits := false } } : State).stepMark s
    .next (again.foldl (fun s i => onlyIf (s.mayResume i) (s.resumeRing i) s) s)
  else .next s

/-- HEARTBEAT (R540): GLOBAL_HBEAT is written; a new value is a heartbeat. -/
def execHeartbeat (v : W32) (s : State) : Res := s.orWait (.heartbeat v) fun s =>
  let old := s.rd F.GLOBAL_HBEAT.COUNT
  if old == v.toNat then .next s else
  let now := s.now
  .next (((s.wr F.GLOBAL_HBEAT.COUNT v.toNat).audit 1 0 0 0x3C old v.toNat).modRings fun x =>
    { x with beat := if x.beat = 0 then 0 else now + 1 })

/-- HOST_DRIVER_LOST (R540, R549, R551): HB_MS ms, as it stood at the tick's start, have passed without a heartbeat; one in the
deadline's own tick counts, so the pause comes in the tick after. -/
def execHostDriverLost (s : State) : Res :=
  let ms := s.rd0 F.RINGS_HOST.HB_MS
  .next (onlyIf (s.schUp && s.rings.beat != 0 && ms != 0 && decide (s.rings.beat - 1 + 1200000 * ms < s.now))
    ((((List.range 64).foldl (fun s i => onlyIf (s.ringSt i == ringRunning || s.ringSt i == ringHalted)
      (s.setRing (Origin.core 2) i ringPaused) s) s).holdJobs
      (·.fn == 0)).setAttn 0x9 true |>.modRings fun x => { x with beat := 0 }) s)

/-! ### Commands of FN_RINGCTL (R539, R541, R543, R544, R553) -/

/-- RING_RESUME (R541, R544, R549): CMD = 1. One that PF0's lost driver or its VER stops waits for a handshake in its tick. -/
def execRingResume (f : FnIx) (r : RingIx) (s : State) : Res := s.orWait (.ringResume f r) fun s =>
  let i := 64 * f.val + r.val
  if !s.accepted f || !s.mayResume i then
    .next (onlyIf (f.val == 0) (s.modRings fun x => { x with resumes := x.resumes ++ [i] }) s)
  else .next (s.resumeRing i)

/-- The doorbells of a ring as they stood at the tick's start: those of a tick in which the ring is reset are ignored (R549). -/
def State.oldDoorbells (s : State) (f r : Nat) : State :=
  (((s.wr F.RING_PTRS.PROD (s.rd0 F.RING_PTRS.PROD (64 * f + r)) (64 * f + r)).wr F.RING_PTRS.CHEAD
    (s.rd0 F.RING_PTRS.CHEAD (64 * f + r)) (64 * f + r)).wr F.FN_SQDB.VALUE (s.rd0 F.FN_SQDB.VALUE f r) f r).wr F.FN_CQDB.VALUE
    (s.rd0 F.FN_CQDB.VALUE f r) f r

/-- RING_RESET (R543, R549): CMD = 2. -/
def execRingReset (f : FnIx) (r : RingIx) (s : State) : Res := s.orWait (.ringReset f r) fun s =>
  let i := 64 * f.val + r.val
  .next (onlyIf (s.accepted f && s.ringSt i != ringResetting)
    ((s.oldDoorbells f r).resetRing (Origin.fn f) i) s)

/-- RING_RESET_DONE (R543): the last job of a RESETTING ring is IDLE. -/
def execRingResetDone (ring : Fin 8192) (s : State) : Res :=
  .next (onlyIf (s.ringSt ring == ringResetting && s.ringJobs ring == 0)
    ((s.clearReg .RING_PTRS ring).setRing Origin.hw ring ringDisabled) s)

/-- A ring whose EN is 0 becomes DISABLED once it has no job. -/
def State.settleRing (s : State) (o : Origin) (i : Nat) : State :=
  onlyIf (!s.bit F.FN_RINGCTL.EN (i / 64) (i % 64) && (s.ringSt i == ringRunning || s.ringSt i == ringHalted) && s.ringJobs i == 0)
    ((s.setRing o i ringDisabled).wr F.RING_STATE.HALT 0 i) s

/-- RING_ENABLE_WRITE (R539, R540, R553): EN of FN_RINGCTLr is written; a ring of PF0 whose driver is lost becomes PAUSED. -/
def execRingEnableWrite (f : FnIx) (r : RingIx) (en : Bool) (s : State) : Res := s.orWait (.ringEnableWrite f r en) fun s =>
  let i := 64 * f.val + r.val
  if !s.accepted f then .next s
  else if en && ((s.fnTenant f).isNone || s.sec.ringZero.contains f.val) then .next s
  else
    let old := (s.reg .FN_RINGCTL f r).toNat
    let s := s.wr F.FN_RINGCTL.EN en.toNat f r
    let s := s.auditFn f (0x800 + 4 * r.val) old (s.reg .FN_RINGCTL f r).toNat
    .next (if en then onlyIf (s.ringSt i == ringDisabled) (s.setRing (Origin.fn f) i (if s.lostRing i then ringPaused else ringRunning)) s
      else s.settleRing (Origin.fn f) i)

/-! ### Link power (R542, R551) -/

/-- No host request in progress at H, no host-window request outstanding, and no message waiting other than those held. -/
def State.hostIdle (s : State) : Bool :=
  s.rings.host.isEmpty && !(s.flights.any fun f => f.req == 24) && s.rings.msgs.isEmpty &&
    (List.range 12).all fun j => (s.lnt j).hreqs.isEmpty

/-- L1_IDLE_EXPIRY (R542): the host side has been idle for L1_IDLE_US. -/
def execL1IdleExpiry (s : State) : Res :=
  .next (onlyIf (s.rings.l1Us != 0 && !s.rings.l1 && s.hostIdle && decide (s.rings.idleAt + usTicks s.rings.l1Us ≤ s.now))
    ((s.send (.hub .l1Ask)).modRings fun x => { x with l1 := true }) s)

/-- A tick of the idle watch (R542, R551): while the host side is busy the idle period starts anew, and the request is withdrawn. -/
def State.l1Tick (s : State) : State :=
  if s.hostIdle then s else
  let us := s.rd F.RINGS_HOST.L1_IDLE_US
  let now := s.now
  (onlyIf s.rings.l1 (s.send (.hub .l1Withdraw)) s).modRings fun x => { x with idleAt := now + 1, l1Us := us, l1 := false }

/-! ### Bus Master Enable and Function Level Reset (R544 to R547) -/

/-- BUS_MASTER_CLEAR (R544, R549): a MOVE whose host reply came in the same tick has not got it. -/
def execBusMasterClear (f : FnIx) (s : State) : Res :=
  let s := s.modRings fun x => { x with bmeOff := if x.bmeOff.contains f.val then x.bmeOff else x.bmeOff ++ [f.val] }
  .next (allCtxs.foldl (fun s q =>
    let (j, c) := q
    match (s.ctx j c).job with
    | none => s
    | some b =>
      if b.fn != f.val || !((s.lnt j).hreqs.any (·.ctx == c) || s.rings.replied.contains (j, c)) then s else
      let s := s.modLnt j fun l => { l with hreqs := l.hreqs.filter (·.ctx != c), hgens := stale l.hgens (l.hreqs.filter (·.ctx == c)) }
      match s.dop j c with
      | none => s
      | some _ =>
        let s := s.failInstr j c ⟨0x11, 0, 0, 0⟩
        onlyIf (s.ringSt b.ring != ringResetting && s.ringSt b.ring != ringDisabled)
          ((s.setRing Origin.hw b.ring ringHalted).wr F.RING_STATE.HALT 1 b.ring) s) s)

/-- A function page returns to its reset values (R545, R546); the mailbox of a VF lies in its page. -/
def State.resetPage (s : State) (f : Nat) : State :=
  let each := [RegName.FN_SQDB, RegName.FN_CQDB, RegName.FN_RINGCTL, RegName.FN_MSIX_ADDR, RegName.FN_MSIX_DATA, RegName.FN_MSIX_CTL]
  let one := [RegName.FN_STATUS, RegName.FN_DRVVER, RegName.FN_HWIN_BASE, RegName.FN_HWIN_SIZE, RegName.FN_MEMERR,
    RegName.FN_CFG, RegName.FN_MSIX_PBA] ++ (if f = 0 then [] else [RegName.MBX_CTL, RegName.MBX_STATUS])
  let s := (List.range 64).foldl (fun s r => each.foldl (fun s n => s.clearReg n f r) s) s
  let s := one.foldl (fun s n => s.clearReg n f) s
  if f = 0 then s else
  { s with bytes := s.bytes.filter fun e => !(decide (mbxKey f 0 ≤ e.1) && decide (e.1 < mbxKey (f + 1) 0)),
           sec := { s.sec with mbxQ := s.sec.mbxQ.filter (· != f) } }

/-- What a Function Level Reset does to any function (R545, R546): its rings reset, its page returns to reset values, and its
messages, host-window reads and host requests are discarded. -/
def State.flr (s : State) (f : Nat) : State :=
  let s := (s.resetRings Origin.hw f).resetPage f
  let s := s.modRings fun x => { x with msgs := x.msgs.filter (·.1 != f), host := x.host.filter (·.fn != f) }
  (List.range 12).foldl (fun s j =>
    let mine (r : HostRd) := (s.ctx j r.ctx).job.any (·.fn == f)
    s.modLnt j fun l => { l with
      hreqs := l.hreqs.filter fun r => !mine r, hqueue := l.hqueue.filter fun r => !mine r
      hgens := stale l.hgens (l.hreqs.filter mine) }) s

/-- VF_FLR (R545). -/
def execVfFlr (f : FnIx) (s : State) : Res := .next (onlyIf (f.val != 0) (s.flr f) s)

/-- PF_FLR (R546): also GLOBAL_DRVVER and the heartbeat watch, and HOST_DRIVER_LOST until the next accepted handshake. -/
def execPfFlr (s : State) : Res :=
  let old := (s.reg .GLOBAL_DRVVER).toNat
  let s := (s.flr 0).clearReg .GLOBAL_DRVVER
  .next (((s.setAttn 0x9 true).audit 0 0 0 0x38 old 0).modRings fun x => { x with beat := 0 })

/-- VF_ENABLE_CLEAR (R547). -/
def execVfEnableClear (s : State) : Res := .next ((List.range 127).foldl (fun s i => s.flr (i + 1)) s)

end Sys2Proof.Machine
end

