-- ==== Sys2Proof/Machine/HostPort.lean ====
section
/-! DEFINITION. The host's requests to device memory (R516 to R518) and the hand-over of replies to whoever asked (R106 to R119,
R132, R149, R194, R786, R787, R807). -/

namespace Sys2Proof.Machine

/-! ### Requests at port H (R517) -/

/-- A host request may come: port H is up and FCLK toggles. -/
def State.hostOk (s : State) : Bool := s.bit F.PORT_LINK.UP 24 && s.bit F.CLOCK_STATUS.FCLK_PRESENT

/-- R516: a function whose VER is not ACCEPTED is answered Unsupported Request, but PF0 in HOLD. -/
def State.hostBarred2 (s : State) (f : Nat) : Bool := !s.accepted f && !(f == 0 && s.inHold)

/-- One port request of a host request: opcode, address, lines, OPND, WORD, beats. -/
structure HostReq where
  op : Nat
  pa : Nat
  len : Nat
  opnd : Nat
  word : Nat
  beats : List LineData

/-- The doorkeepers have the credits the requests need. -/
def State.hostCredits (s : State) (rs : List HostReq) : Bool :=
  (List.range 12).all fun k =>
    let mine := rs.filter fun r => s.siteOf r.pa == k
    let c := s.credit k 24
    decide (mine.length ≤ c.hdr) && decide ((mine.map fun r => r.beats.length).sum ≤ c.data)

/-- Sends one port request of function `f` (R124, R517): the lowest tag of H not in use with its next GEN, CLASS by FN_CFG.LAT, ORD = 0. -/
def State.hostSend (s : State) (f : Nat) (why : Purpose) (r : HostReq) : State :=
  let tag := (leastBelow 4096 fun t => !(s.flights.any fun g => g.req == 24 && hTag g.hdr == t)).getD 0
  let gen := (tget 0 s.rings.hgens tag + 1) % 16
  let s := s.modRings fun x => { x with hgens := tset 0 x.hgens tag gen }
  s.accept (s.siteOf r.pa) 24 f (s.tenantOf 24 f none) why
    ⟨mkHdr r.op r.len tag gen (s.rd F.FN_CFG.LAT f) false r.pa s.now r.opnd r.word 0, r.beats, 0⟩

/-- A host request begins (R516, R517): kind 0 MRd, 1 AtomicOp, 2 MWr. -/
def State.hostBegin (s : State) (f kind addr len : Nat) (rs : List HostReq) : State :=
  if !s.hostOk then s
  else if s.hostBarred2 f then s.send (.unsupported f)
  else if !s.hostCredits rs then s
  else
    let id := s.rings.hostNext
    let s := s.modRings fun x => { x with
      host := x.host ++ [(⟨id, f, kind, len, addr % 64, rs.map fun _ => none⟩ : HostOp)], hostNext := id + 1 }
    (rs.zipIdx).foldl (fun s e => s.hostSend f (.host id e.2) e.1) s

/-- A memory request lies in the BAR and does not cross 4 KiB, as PCIe requires; no other comes (notes/assumptions/2). -/
def hostWf (addr len : Nat) : Bool :=
  decide (0 < len) && decide (addr % 4096 + len ≤ 4096) && decide (addr + len ≤ 2 ^ 40)

/-- The lines of `len` bytes at `addr`. -/
def hostLines (addr len : Nat) : List Nat := (List.range ((addr + len - 1) / 64 + 1 - addr / 64)).map (· + addr / 64)

/-- HOST_MRD (R517): one RD for each run of lines within one group. -/
def execHostMrd (f : FnIx) (addr len : Nat) (s : State) : Res :=
  .next (onlyIf (hostWf addr len) (s.hostBegin f 0 addr len ((lineRuns (hostLines addr len)).map fun r => ⟨opRD, r.1 * 64, r.2, 0, 0, []⟩)) s)

/-- The bytes of line `l` that a write covers, and the line with them in place. -/
def hostMask (addr len l : Nat) : Nat :=
  (upTo 64 fun i => decide (addr ≤ 64 * l + i) && decide (64 * l + i < addr + len)).foldl (fun a i => a + 2 ^ i) 0
def hostData (addr : Nat) (bytes : List Byte) (l : Nat) : LineData :=
  lineOf ((List.range 64).map fun i => if addr ≤ 64 * l + i then bytes.getD (64 * l + i - addr) 0 else 0)

/-- The port requests of a write: WRP for a line it covers in part, WR for each run of whole lines. -/
def hostWrites (addr : Nat) (bytes : List Byte) : List HostReq :=
  let n := bytes.length
  let ls := hostLines addr n
  let whole (l : Nat) : Bool := decide (addr ≤ 64 * l) && decide (64 * l + 64 ≤ addr + n)
  let part (l : Nat) : HostReq := ⟨opWRP, l * 64, 1, hostMask addr n l, 0, [hostData addr bytes l]⟩
  let full := (lineRuns (ls.filter whole)).map fun r =>
    (⟨opWR, r.1 * 64, r.2, 0, 0, (List.range r.2).map fun i => hostData addr bytes (r.1 + i)⟩ : HostReq)
  let odd := ls.filter fun l => !whole l
  (odd.filter fun l => decide (l * 64 ≤ addr)).map part ++ full ++ (odd.filter fun l => decide (addr < l * 64)).map part

/-- HOST_MWR (R517). -/
def execHostMwr (f : FnIx) (addr : Nat) (bytes : List Byte) (s : State) : Res :=
  .next (onlyIf (hostWf addr bytes.length) (s.hostBegin f 2 addr bytes.length (hostWrites addr bytes)) s)

/-- An AtomicOp of 64 bits is aligned to its size, as PCIe requires. -/
def atomicWf (addr : Nat) : Bool := addr % 8 == 0 && hostWf addr 8

/-- HOST_FETCHADD (R517). -/
def execHostFetchadd (f : FnIx) (addr : Nat) (v : W64) (s : State) : Res :=
  .next (onlyIf (atomicWf addr) (s.hostBegin f 1 addr 8 [⟨opAADD, addr / 64 * 64, 1, v.toNat, addr / 8 % 8, []⟩]) s)

/-- HOST_CAS (R517). -/
def execHostCas (f : FnIx) (addr : Nat) (cmp swap : W64) (s : State) : Res :=
  .next (onlyIf (atomicWf addr)
    (s.hostBegin f 1 addr 8 [⟨opACAS, addr / 64 * 64, 1, cmp.toNat, addr / 8 % 8, [putWord 0 (addr / 8 % 8) swap]⟩]) s)

/-- HOST_ATOMIC_UNSUPPORTED (R516). -/
def execHostAtomicUnsupported (f : FnIx) (s : State) : Res := .next (s.send (.unsupported f))

/-! ### Outcomes (R518) -/

/-- The rank of a RESULT: 0 Unsupported Request, 1 Completer Abort, 2 poisoned, 3 successful. -/
def hostRank (r : Nat) : Nat :=
  if r = rOK ∨ r = rCORR ∨ r = rSEALED then 3
  else if r = rPOISONED then 2
  else if r = rDENIED ∨ r = rUNSUP ∨ r = rHELD then 0
  else 1

/-- A host request all of whose parts are answered completes. -/
def State.hostDone (s : State) (o : HostOp) (ps : List HostPart) : State :=
  if o.kind = 2 then
    match (ps.filter fun p => p.result != rOK && p.result != rCORR).getLast? with
    | none => s
    | some p => (s.wr F.FN_MEMERR.LAST p.result o.fn).incRc F.FN_MEMERR.COUNT o.fn
  else
    let rank := ps.foldl (fun a p => min a (hostRank p.result)) 3
    let bytes : List Byte := if o.kind = 1 then (ps.headD ⟨0, [], 0⟩ |>.rval |> fun v => leBytes v 8)
      else (((ps.flatMap (·.data)).flatMap fun d => leBytes d 64).drop o.lo).take o.len
    if rank = 0 then s.send (.unsupported o.fn)
    else if rank = 1 then s.send (.completion o.fn false false [])
    else s.send (.completion o.fn true (rank == 2) bytes)

/-- A part of a host request is answered. -/
def State.hostPart (s : State) (id part : Nat) (p : HostPart) : State :=
  match s.rings.host.find? (·.id == id) with
  | none => s
  | some o =>
    let o := { o with parts := o.parts.set part (some p) }
    if o.parts.all Option.isSome then
      (s.modRings fun x => { x with host := x.host.filter (·.id != id) }).hostDone o (o.parts.filterMap fun x => x)
    else s.modRings fun x => { x with host := x.host.map fun y => if y.id == id then o else y }

/-! ### The hand-over -/

/-- The data lines a reply carries (R108, R109). -/
def Flight.outData (f : Flight) : List LineData := if replyData (hOp f.hdr) f.result then f.lines.map LineSt.out else []

/-- A response credit of the fabric is used (R149). -/
def State.takeResp (s : State) (f : Flight) : State :=
  if directPath f.k f.req then s else
  let c := s.credit f.k f.req
  s.setCredit f.k f.req { c with resp := c.resp - 1 }

/-- A reply reaches whoever made the request. -/
def State.deliver (s : State) (f : Flight) (h : Header) : State :=
  match f.why with
  | .port => s.send (.reply f.req f.k h f.outData)
  | .mirror _ _ =>
    s.frameOut (f.req - 25) 1 0 0 0 (2 + 4 * f.outData.length) (.reply f.req f.k h f.outData)
  | .host id part => s.hostPart id part ⟨f.result, f.outData, f.rval⟩
  | .lantern _ tag gen =>
    let j := f.req - 27
    let r : LReply := ⟨if j = f.k then 0 else 1, tag, gen, f.result, f.outData, lineMask LineSt.isPois f.lines, f.rval⟩
    s.modLnt j fun l => { l with inbox := l.inbox ++ [r] }
  | .block job =>
    let now := s.nowAt 12
    if job = 0 then s.modRings fun x => { x with entries := x.entries.map fun e =>
      if e.fl == f.id && e.at_ == 0 then { e with at_ := now, data := f.outData.headD 0, result := f.result } else e }
    else s.modRings fun x => { x with msgs := x.msgs.map fun m => if m.2.2 == f.id + 1 then (m.1, m.2.1, 0) else m }

/-- Counts the reply of a granted request (R786 event 25, R787 events 6 and 7). -/
def State.countReply (s : State) (f : Flight) : State :=
  if !f.counted then s else
  let s := (s.pmuArb f.k f.req 6 1).pmuArb f.k f.req 7 (s.now - f.stamp)
  match f.stage with
  | .replying ready => onlyIf (f.floored && decide (ready < f.stamp + f.floor) && decide (f.loc.pc < 64))
      (s.pmuPc f.k f.loc.pc 25 (f.stamp + f.floor - ready)) s
  | .queued => s
  | .released _ => s
  | .granted _ => s

/-- REPLY_HANDOVER (R106, R132, R133, R149, R150, R194, R807): a reply that is ready, not held by the floor or by an earlier ORD
request, and has a response credit, leaves; the reply of a port that has gone down is discarded. Replies to a port cross on FCLK. -/
def execReplyHandover (id : Nat) (s : State) : Res :=
  match s.flight id with
  | none => .next s
  | some f =>
    let clocked := s.bit F.CLOCK_STATUS.FCLK_PRESENT || directPath f.k f.req
    if !s.mayReply f || !(clocked || f.dead) then .next s
    else if f.dead then .next (s.dropFlight id)
    else
      let h := s.replyOf f
      .next ((((s.dropFlight id).takeResp f).countReply f).deliver f h)

end Sys2Proof.Machine
end

