-- ==== Sys2Proof/Machine/Train.lean ====
section
/-! DEFINITION. Start-up training, retraining, RESTORE and VERIFY (chapter "Stack interface, training and calibration"), and the end of
start-up (phase 8 of R698). -/

namespace Sys2Proof.Machine

/-! ### Eyes (R256, R257) -/

/-- The longest run of passing taps, the lowest start on ties: its start and its length. -/
def longestRun (m : BitVec 128) : Nat × Nat :=
  let r := (List.range 128).foldl (fun (a : (Nat × Nat) × (Nat × Nat)) t =>
    let len := if m.getLsbD t then a.1.2 + 1 else 0
    let st := if a.1.2 = 0 then t else a.1.1
    ((st, len), if a.2.2 < len then (st, len) else a.2)) ((0, 0), (0, 0))
  r.2

/-- How many positions below `i` in a row satisfy `p`, at most `lim`. -/
def spanDown (p : Nat → Bool) (i lim : Nat) : Nat := ((List.range lim).takeWhile fun d => decide (d < i) && p (i - 1 - d)).length
/-- How many positions above `i` in a row satisfy `p`, at most `lim`. -/
def spanUp (p : Nat → Bool) (i lim : Nat) : Nat := ((List.range lim).takeWhile fun d => p (i + 1 + d)).length

/-- The settings of one direction of a byte lane: tap, Vref code, eye width in taps, vertical margin in mV. -/
structure Eye where
  tap : Nat
  vref : Nat
  width : Nat
  margin : Nat
deriving DecidableEq, Repr

/-- One direction of a sweep. -/
def sweepDir (w : LaneSweep) (wr : Bool) : List (BitVec 128) := if wr then w.wr else w.rd

/-- A byte lane passes at a point where every bit of it does (R256). -/
def lanePasses (t : LaneTrain) (wr : Bool) : List (BitVec 128) :=
  (List.range 32).map fun v => t.bits.foldl (fun m b => m &&& (sweepDir b wr).getD v 0) (BitVec.allOnes 128)

/-- The Vref code with the longest run, the lowest on ties (R257). -/
def bestCode (ms : List (BitVec 128)) : Nat :=
  let runs := ms.map longestRun
  (List.range 32).foldl (fun b v => if (runs.getD b (0, 0)).2 < (runs.getD v (0, 0)).2 then v else b) 0

/-- The bit of a byte lane whose own passing run at the lane's vb is shortest (R258); the lowest on ties (DESIGN CHOICE,
notes/assumptions/43). -/
def laneWorst (t : LaneTrain) (wr : Bool) : Nat :=
  let vb := bestCode (lanePasses t wr)
  let run (i : Nat) : Nat := match t.bits[i]? with
    | some b => (longestRun ((sweepDir b wr).getD vb 0)).2
    | none => 128
  (List.range 9).foldl (fun b i => if run i < run b then i else b) 0

/-- centre(lane) of R257: `ms` the passing taps at each Vref code, `step` the Vref step in 0.1 mV. -/
def centre (ms : List (BitVec 128)) (step minEye : Nat) : Option Eye :=
  let runs := ms.map longestRun
  let vb := bestCode ms
  let r := runs.getD vb (0, 0)
  if r.2 = 0 then none else
  let t0 := r.1 + (r.2 - 1) / 2
  let pass (v : Nat) := decide (v < 32) && (ms.getD v 0).getLsbD t0
  let a := vb - spanDown pass vb 32
  let b := vb + spanUp pass vb 32
  let vs := (a + b) / 2
  let at_ (t : Nat) := (ms.getD vs 0).getLsbD t
  let width := spanDown at_ t0 128 + spanUp at_ t0 128 + 1
  if width < minEye then none else some ⟨t0, vs, width, min (vs - a) (b - vs) * step / 10⟩

/-- WIDTH_PS of a width in taps: 0.1 ps units, UI = 5,000 / MULT ps. -/
def State.widthPs (s : State) (k w : Nat) : Nat := w * 50000 / (s.rd F.CLOCK_PHYPLL.MULT k * 64)

/-- PHY_LANE_RD or PHY_LANE_WR. -/
def laneReg (wr : Bool) : RegName := if wr then .PHY_LANE_WR else .PHY_LANE_RD

/-- Writes the settings of one direction of a byte lane (R278). -/
def State.setEye (s : State) (k l : Nat) (wr : Bool) (e : Eye) : State :=
  s.setReg (laneReg wr) k l (BitVec.ofNat 64 (s.widthPs k e.width <<< 32 + e.tap <<< 25 + min 127 e.width <<< 18 + e.vref <<< 13 +
    min 255 e.margin))

/-- The settings of one direction of a byte lane. -/
def State.eye (s : State) (k l : Nat) (wr : Bool) : Eye :=
  let w := (s.reg (laneReg wr) k l).toNat
  ⟨w / 2 ^ 25 % 128, w / 2 ^ 13 % 32, w / 2 ^ 18 % 128, w % 256⟩

/-- What sweep number `n` of a byte lane shows. -/
def siteSweep (e : SiteEnv) (l n : Nat) : LaneTrain :=
  let es := e.lanes.filter (·.lane.val == l)
  es.getD (min n (es.length - 1)) ⟨0, [e.other]⟩

def sweepWf (w : LaneSweep) : Bool := w.rd.length == 32 && w.wr.length == 32
/-- Every sweep shows 32 Vref codes for each of at most 9 bits; a code that is not listed has no tap that passes. -/
def siteWf (e : SiteEnv) : Bool := sweepWf e.other && e.lanes.all fun l => decide (l.bits.length ≤ 9) && l.bits.all sweepWf

/-! ### Stack parameter records (R247 to R249, R696) -/

def recNat (r : List Byte) (i n : Nat) : Nat := leNat ((r.drop i).take n)

/-- The record of a part. -/
def State.paramRec (s : State) (vendor part : Nat) : Option (List Byte) :=
  s.fw.flash.params.find? fun r => recNat r 4 1 == vendor && recNat r 6 2 == part

/-- The 17 timing fields of a record at a rate. -/
def recTimes (r : List Byte) (mult : Nat) : Option (List Nat) :=
  (leastBelow (min 17 (recNat r 10 1)) fun i => recNat r (16 + 40 * i) 1 == mult).map fun i =>
    (List.range 17).map fun t => recNat r (18 + 40 * i + 2 * t) 2

/-- The rates that R247 and the record allow a stack of a generation (0 HBM4, 1 HBM3E), none above `cap`. -/
def recRates (r : List Byte) (gen cap : Nat) : List Nat :=
  (if gen = 0 then 32 :: 40 :: (if recNat r 9 1 = 1 then [48] else []) else (List.range 17).map (· + 32)).filter fun m =>
    decide (m ≤ recNat r 8 1 ∧ m ≤ cap)

/-- The rate of R248: the highest that R247, the record and RATE_CAP allow, among those with a timing set. -/
def recMult (r : List Byte) (gen cap : Nat) : Nat := ((recRates r gen cap).filter fun m => (recTimes r m).isSome).foldl max 0

/-- The conservative timing set of R249, in register order. -/
def defaultTimes : List Nat := [18, 16, 30, 40, 14, 2, 1, 4, 2, 16, 18, 6, 10, 4, 4, 240, 480]

/-- The record that the site's stack runs under: none while DEFAULT_PARAMS is 1. -/
def State.siteRec (s : State) (k : Nat) : Option (List Byte) :=
  if s.bit F.PHY_STATUS.DEFAULT_PARAMS k then none else s.paramRec (s.rd F.PHY_VENDOR.VENDOR k) (s.rd F.PHY_VENDOR.PART k)

/-- The site may run at the rate that CLOCK_PHYPLL now gives (R247 to R249): 6.4 Gb/s alone without a record. -/
def State.rateOk (s : State) (k : Nat) : Bool :=
  let m := s.rd F.CLOCK_PHYPLL.MULT k
  match s.siteRec k with
  | some r => (recRates r (2 - s.rd F.PHY_ID.GEN k) (s.rd F.PHY_CFG.RATE_CAP k)).contains m
  | none => m == 32

/-- The stack's DQ Vref step in 0.1 mV (R249, R256). -/
def State.vrefStep (s : State) (k : Nat) : Nat := ((s.siteRec k).map fun r => recNat r 11 1).getD 40

/-- The offset of an element of a register family. -/
def regOff (r : RegName) (i : Nat := 0) (j : Nat := 0) : Nat :=
  let d := r.desc
  d.base + i * d.iS + j / d.lN * d.jS + j % d.lN * d.lS

/-- Core `c` writes a register, with its audit entry when it changes (R596). -/
def State.coreWrite (s : State) (c : Nat) (r : RegName) (i j w : Nat) : State :=
  let old := (s.reg r i j).toNat
  onlyIf (old != w) ((s.setReg r i j (BitVec.ofNat 64 w)).audit 2 c 0 (regOff r i j) old w) s

/-- Core `c` writes a field. -/
def State.coreField (s : State) (c : Nat) (f : Fld) (v : Nat) (i : Nat := 0) (j : Nat := 0) : State :=
  s.coreWrite c f.reg i j (putBits (s.reg f.reg i j) f.lo f.len v).toNat

/-- CCCk writes a timing set (R188, R247); a TRFCAB above 1,300 ns is ignored (R238). -/
def State.writeTimes (s : State) (k : Nat) (ts : List Nat) : State :=
  let ts := if 1300 * s.rd F.CLOCK_PHYPLL.MULT k < ts.getD 16 0 * 40 then ts.set 16 (s.rd F.REF_TIM.TRFCAB k) else ts
  let t (i n : Nat) := ts.getD i 0 % 2 ^ n
  let c := 3 + k
  let s := s.coreWrite c .CLU_TIM0 k 0 (t 0 8 <<< 24 + t 1 8 <<< 16 + t 2 8 <<< 8 + t 3 8)
  let s := s.coreWrite c .CLU_TIM1 k 0 (t 4 8 <<< 24 + t 5 4 <<< 20 + t 6 4 <<< 16 + t 7 4 <<< 12 + t 8 4 <<< 8 + t 9 8)
  let s := s.coreWrite c .CLU_TIM2 k 0
    (t 10 8 <<< 24 + t 11 8 <<< 16 + t 12 4 <<< 12 + t 13 4 <<< 8 + t 14 4 <<< 4 + s.rd F.CLU_TIM2.REJ k)
  let s := s.coreWrite c .REF_TIM k 0 (t 15 11 <<< 16 + t 16 11)
  s.wr F.REF_PERIOD.TRFC_TS (s.phyTicks k (t 16 11)) k

/-! ### Calibration, repair and the lanes (R258 to R260, R271) -/

/-- Impedance calibration (R271): outside 240 Ω ±2 % the codes are the record's, which R696 does not place (a free value). -/
def State.calibrate (s : State) (k : Nat) (e : SiteEnv) : State :=
  let s := s.wr F.PHY_CALZ.RCAL_MOHM e.rcal.toNat k
  if 23520 ≤ e.rcal.toNat ∧ e.rcal.toNat ≤ 24480 then (s.wr F.PHY_CALZ.ZPU e.zpu.toNat k).wr F.PHY_CALZ.ZPD e.zpd.toNat k
  else
    let (v, s) := s.fresh
    let s := ((s.wr F.PHY_CALZ.ZPU (v.toNat % 256) k).wr F.PHY_CALZ.ZPD (v.toNat / 256 % 256) k).wr F.PHY_STATUS.CAL_FAULT 1 k
    s.record (ErrRec.make s.now sevCorrected 0x11 k)

/-- Trains one byte lane, both directions, at its sweep number `n`; whether it passes. -/
def State.trainLane (s : State) (k : Nat) (e : SiteEnv) (l n : Nat) : State × Bool :=
  let t := siteSweep e l n
  let me := s.rd F.PHY_CFG.MIN_EYE_TAPS k
  match centre (lanePasses t false) 40 me, centre (lanePasses t true) (s.vrefStep k) me with
  | some r, some w => ((s.setEye k l false r).setEye k l true w, true)
  | _, _ => (s, false)

/-- The bit that a failed sweep of a byte lane has repaired (R258): of its reads when they do not centre, else of its writes. -/
def State.failedBit (s : State) (k : Nat) (t : LaneTrain) : Nat :=
  laneWorst t (centre (lanePasses t false) 40 (s.rd F.PHY_CFG.MIN_EYE_TAPS k)).isSome

/-- The lowest repair slot of a PC that maps no lane. -/
def State.repairSlot (s : State) (k p : Nat) : Option Nat := leastBelow 4 fun i => !nbit (s.reg .PHY_REPAIR k p).toNat (8 * i + 7)

/-- Maps a failed lane of a PC to a spare lane, by soft or hard repair. -/
def State.setRepair (s : State) (k p i lane : Nat) (hard : Bool) : State :=
  s.setReg .PHY_REPAIR k p (putBits (s.reg .PHY_REPAIR k p) (8 * i) 8 (128 + hard.toNat * 64 + lane))

/-- The lane of its PC that a bit of a byte lane is (R278). -/
def laneOf (l bit : Nat) : Nat := if bit < 8 then l % 4 * 8 + bit else 32 + l % 4

/-- One training's progress: byte lanes still failing, byte lanes given up, rounds of lane repair made. -/
structure Trained where
  failing : List Nat
  lost : List Nat
  rounds : Nat

/-- One round of lane repair (R258, R259): each failing lane's failed bit is mapped to a spare lane, if its channel has one left, and
the lane is swept again; the repair counts against the lane in the history. -/
def State.repairRound (s : State) (k : Nat) (e : SiteEnv) (n : Nat) (t : Trained) : State × Trained :=
  t.failing.foldl (fun (a : State × Trained) l =>
    let (s, t) := a
    match s.repairSlot k (l / 4) with
    | none => (s, { t with lost := t.lost ++ [l] })
    | some i =>
      let lane := laneOf l (s.failedBit k (siteSweep e l (n - 1)))
      let s := (s.setRepair k (l / 4) i lane false).event1 3 k (l / 4 * 64 + lane) 0 1 false
      let (s, ok) := s.trainLane k e l n
      (s, { t with failing := if ok then t.failing else t.failing ++ [l], rounds := n })) (s, { t with failing := [] })

/-- Phases 4 to 7 over the given byte lanes: at most three rounds of lane repair. -/
def State.trainLanes (s : State) (k : Nat) (e : SiteEnv) (ls : List Nat) : State × Trained :=
  let first := ls.foldl (fun (a : State × Trained) l =>
    let (s, ok) := a.1.trainLane k e l 0
    (s, { a.2 with failing := if ok then a.2.failing else a.2.failing ++ [l] })) (s, ⟨[], [], 0⟩)
  [1, 2, 3].foldl (fun a n => a.1.repairRound k e n a.2) first

/-- DETAIL of a TRAINING record: the byte lane and its eye (R626): the lane's number, then PHY_LANE_RD and PHY_LANE_WR of it as 8
little-endian bytes each (the layout is a DESIGN CHOICE, notes/assumptions/43). -/
def State.laneDetail (s : State) (k l : Nat) : List Byte :=
  BitVec.ofNat 8 l :: (leBytes (s.reg .PHY_LANE_RD k l) 8 ++ leBytes (s.reg .PHY_LANE_WR k l) 8)

/-- A PC fails to train (R260): an error record that names its first failed byte lane, and a training failure against it in the history. -/
def State.pcLost (s : State) (k : Nat) (bad : List Nat) (p : Nat) : State :=
  let e := ErrRec.make s.now sevFatal 0x10 k
  let l := (leastBelow 4 fun b => bad.contains (4 * p + b)).getD 0
  (s.record { e with ppc := p, lpc := s.lpcOf k p, sub := l + 1, count := s.countAt 2 k p 0,
                     detail := s.laneDetail k (4 * p + l) }).event 2 k p 0

/-- The PCs with a byte lane in a list. -/
def lanePcs (ls : List Nat) : List Nat := (List.range 64).filter fun p => ls.any fun l => l / 4 == p

/-- Training from phase 4 over the byte lanes of the given PCs (R255): RESULT, ROUNDS, FAIL_LANE and TIME_US are posted, `base` being
the RESULT of the RESTORE it follows; answers the PCs that did not train. Of several cases that hold, RESULT reports lost PCs (3, 2)
before a rejected or failed RESTORE (4, 5), and that before repaired lanes (1) (DESIGN CHOICE, notes/assumptions/43: R274 gives no
order). -/
def State.trainPcs (s : State) (k : Nat) (e : SiteEnv) (ps : List Nat) (base : Nat) : State × List Nat :=
  let (s, t) := s.trainLanes k e (ps.flatMap fun p => [4 * p, 4 * p + 1, 4 * p + 2, 4 * p + 3])
  let bad := t.lost ++ t.failing
  let lost := lanePcs bad
  let s := lost.foldl (fun s p => s.pcLost k bad p) s
  let res := if !ps.isEmpty && lost.length == ps.length then 3 else if !lost.isEmpty then 2 else if base ≠ 0 then base
    else if t.rounds ≠ 0 then 1 else 0
  let s := ((s.wr F.PHY_TRN_STATUS.RESULT res k).wr F.PHY_TRN_STATUS.ROUNDS t.rounds k).wr F.PHY_TRN_STATUS.FAIL_LANE
    ((upTo 256 bad.contains).headD 0) k
  ((s.wr F.PHY_TRN_STATUS.TIME_US e.timeUs.toNat k).wr F.PHY_STATUS.RESTORED 0 k, lost)

/-! ### The training image (R272 to R274) -/

def imgBase (k : Nat) : Nat := 0x1054000 + k * 0x100000

/-- Byte `i` of a site's PHY_TRN_IMAGE. -/
def State.imgByte (s : State) (k i : Nat) : Byte := tget 0 s.bytes (imgBase k + i)
/-- Bytes of the image as a number. -/
def State.imgNat (s : State) (k i n : Nat) : Nat := leNat ((List.range n).map fun d => s.imgByte k (i + d))

/-- Stores bytes in a byte window. -/
def State.putBytes (s : State) (base : Nat) (bs : List Byte) : State :=
  { s with bytes := ((List.range bs.length).foldl (fun t i => tset 0 t (base + i) (bs.getD i 0)) s.bytes) }

/-- An image has been placed in the site's window. -/
def State.imagePresent (s : State) (k : Nat) : Bool := s.bytes.any fun e => decide (imgBase k ≤ e.1 ∧ e.1 < imgBase k + 4096)

/-- Free bytes. -/
def State.freeBytes (s : State) : Nat → State × List Byte
  | 0 => (s, [])
  | n + 1 =>
    let (v, s) := s.fresh
    let (s, r) := s.freeBytes n
    (s, leBytes v 128 ++ r)

/-- Builds the image of a training that has ended (R272). The command/address settings are free values. Of the 8 bytes 24 to 31 the
pull-up code is the first, the pull-down code the second and the rest 0 (DESIGN CHOICE, notes/assumptions/43). -/
def State.writeImage (s : State) (k : Nat) : State :=
  let n := s.pcCount k
  let le (v w : Nat) := leBytes (BitVec.ofNat (8 * w) v) w
  let (s, ca) := s.freeBytes 4
  let lane (l : Nat) := let r := s.eye k l false; let w := s.eye k l true; le r.tap 1 ++ le r.vref 1 ++ le w.tap 1 ++ le w.vref 1
  let lanes := ((List.range 256).map fun l => if l < 4 * n then lane l else le 0 4).flatten
  let body := le 0x4D595431 4 ++ le 1 2 ++ le (s.rd F.CLOCK_PHYPLL.MULT k) 1 ++ le (s.rd F.PHY_RTR_TEMP.TEMP_C k) 1 ++
    le (s.reg .PHY_SERIAL k).toNat 8 ++ le (s.reg .PHY_RTR_LAST k).toNat 8 ++ le (s.rd F.PHY_CALZ.ZPU k) 1 ++
    le (s.rd F.PHY_CALZ.ZPD k) 1 ++ le 0 38 ++ (ca.take (8 * n) ++ le 0 (512 - 8 * n)) ++ lanes ++
    ((List.range 64).map fun p => le (s.reg .PHY_REPAIR k p).toNat 4).flatten ++ le 0 2236
  s.putBytes (imgBase k) (body ++ leBytes (crc32c body) 4)

/-- The latest stack temperature that a read has given, 0 where there is none yet. -/
def State.stackDeg (s : State) (k : Nat) : Nat := tget 0 s.goodTemp k

/-- The settings in use become final (R266), and the image of the training stands (R272). -/
def State.settle (s : State) (k : Nat) (image : Bool) : State :=
  let s := (s.wr F.PHY_RTR_LAST.STAMP s.now k).wr F.PHY_RTR_TEMP.TEMP_C (s.stackDeg k) k
  onlyIf image (s.writeImage k) s

/-- The lane-repair state of PC `p` that the wrapper shows. -/
def State.stackRepair (s : State) (k : Nat) (e : SiteEnv) (p : Nat) : Nat :=
  match e.stackMap.find? fun x => x.1.val == p with
  | some x => x.2.toNat
  | none => (s.reg .PHY_REPAIR k p).toNat

/-- The stack's lane-repair state is not that of PHY_REPAIR (R276). -/
def State.repairDiffers (s : State) (k : Nat) (e : SiteEnv) : Bool :=
  (List.range (s.pcCount k)).any fun p => s.stackRepair k e p != (s.reg .PHY_REPAIR k p).toNat

/-- The image is accepted (R273); the map compared with is the stack's, read through the wrapper. -/
def State.imageOk (s : State) (k : Nat) (e : SiteEnv) : Bool :=
  let t := s.imgNat k 7 1
  let d := s.stackDeg k
  s.imgNat k 0 4 == 0x4D595431 && s.imgNat k 4 2 == 1 &&
    s.imgNat k 4092 4 == (crc32c ((List.range 4092).map (s.imgByte k))).toNat && s.imgNat k 8 8 == (s.reg .PHY_SERIAL k).toNat &&
    s.imgNat k 6 1 == s.rd F.CLOCK_PHYPLL.MULT k && decide (2 ≤ tget 0 s.stackTemp k) && decide (t ≤ d + 10 ∧ d ≤ t + 10) &&
    (List.range 64).all fun p => s.imgNat k (1600 + 4 * p) 4 == s.stackRepair k e p

/-- Takes the settings of an accepted image. -/
def State.loadImage (s : State) (k : Nat) (ps : List Nat) : State :=
  let s := (s.wr F.PHY_CALZ.ZPU (s.imgNat k 24 1) k).wr F.PHY_CALZ.ZPD (s.imgNat k 25 1) k
  ps.foldl (fun s p => (List.range 4).foldl (fun s b =>
    let l := 4 * p + b
    let at_ (i : Nat) := (s.imgByte k (576 + 4 * l + i)).toNat
    (s.setEye k l false { s.eye k l false with tap := at_ 0, vref := at_ 1 }).setEye k l true
      { s.eye k l true with tap := at_ 2, vref := at_ 3 }) s) s

/-- VERIFY (R274): its RESULT, the first byte lane that failed, and 2 ms. -/
def State.postVerify (s : State) (k : Nat) (v : VerifyEnv) : State :=
  ((s.wr F.PHY_TRN_STATUS.RESULT (if v.isEmpty then 0 else 5) k).wr F.PHY_TRN_STATUS.FAIL_LANE
    ((upTo 256 fun l => v.any fun x => x.val == l).headD 0) k).wr F.PHY_TRN_STATUS.TIME_US 2000 k

/-- RESTORE of the given PCs (R273, R274): the image's settings and VERIFY, or the full training from phase 4. -/
def State.restorePcs (s : State) (k : Nat) (e : SiteEnv) (v : VerifyEnv) (ps : List Nat) : State × List Nat :=
  if !s.imageOk k e then s.trainPcs k e ps 4 else
  let s := s.loadImage k ps
  if !v.isEmpty then s.trainPcs k e ps 5 else
  (((s.wr F.PHY_TRN_STATUS.ROUNDS 0 k).postVerify k v).wr F.PHY_TRN_STATUS.TIME_US e.timeUs.toNat k |>.wr F.PHY_STATUS.RESTORED 1 k, [])

/-! ### The PC map and the geometry (R78, R83) -/

/-- The PCs of a stack that the history does not mark retired. -/
def State.healthy (s : State) (k : Nat) : List Nat := (List.range (s.pcCount k)).filter fun p => !s.hist.retired.contains (k, p)

/-- A PC controller as start-up leaves it: its LFSR seeded from SEC's random source (R223). -/
def State.startPc (s : State) (k p : Nat) (st : PcState) : State :=
  let (r, s) := s.draw
  s.setPc k p { Pc.blank with st := st, lfsr := r.setWidth 32, idleSince := s.now, sr := if st == .retired then .asleep else .awake }

/-- Builds the PC map of a site (R83) over the healthy PCs that trained, and brings every PC to its state. -/
def State.buildMap (s : State) (k : Nat) (lost : List Nat) : State :=
  let n := s.pcCount k
  let ok := (s.healthy k).filter fun p => !lost.contains p
  let nd := min ok.length (n - s.rd F.CLU_SPARES.SPARES k)
  let ret := (List.range n).filter fun p => s.hist.retired.contains (k, p)
  let s := (List.range 64).foldl (fun s j => if j < nd
    then (s.wr F.CLU_PCMAP.VALID 1 k j).wr F.CLU_PCMAP.PHYS (ok.getD j 0) k j else s.clearReg .CLU_PCMAP k j) s
  let s := (s.setReg .CLU_PCRET k 0 (BitVec.ofNat 64 (ret.map (2 ^ ·)).sum)).setReg .CLU_PCSPARE k 0
    (BitVec.ofNat 64 ((ok.drop nd).map (2 ^ ·)).sum)
  let s := (List.range n).foldl (fun s p => s.startPc k p (if ret.contains p then .retired else if (ok.take nd).contains p then .serving
    else if ok.contains p then .spare else .off)) s
  let u := s.rd F.PHY_ID.PC_UNITS k
  s.setReg .PLOT_STACKGEOM k 0 (BitVec.ofNat 64 ((nd * u) <<< 23 + nd <<< 16 + u <<< 12 + s.rd F.PHY_ID.SIDS k <<< 9))

/-- PLOT_GEOM over the sites that are READY (R78). -/
def State.geometry (s : State) : State :=
  let ks := upTo 12 fun k => s.rd F.PHY_STATUS.SITE k == 3
  let sets := match ks with
    | [] => 0
    | k :: r => r.foldl (fun m k => min m (s.rd F.PLOT_STACKGEOM.FRAMES k)) (s.rd F.PLOT_STACKGEOM.FRAMES k)
  s.setReg .PLOT_GEOM 0 0 (BitVec.ofNat 64 (sets <<< 20 + ks.length <<< 16 + (ks.map (2 ^ ·)).sum))

/-! ### Phase 8 (R89, R698, R804) -/

/-- Entry 0 of the audit chain (R593, R594): OBJ = 7; its DETAIL is the boot nonce, and its LINK hashes the device public key and the nonce. -/
def State.chainEntry0 (s : State) (stamp : Nat) : List Byte :=
  let link := digestOf (leBytes s.sec.pubKey 97 ++ leBytes s.sec.nonce 16)
  AuditEnt.bytes ⟨stamp, 2, 0, 7, 0, 0, 0, s.sec.nonce.setWidth 256⟩ 0 link

/-- SEC writes the reserved entry of position `r`, and the plot is zeroed. -/
def State.reservePlot (s : State) (r : Nat) : State :=
  let n := s.rd F.PLOT_GEOM.P
  let i := 0xFFF - r
  let p : Plot := ⟨0, 0, 0, r % n, r / n, 0, true, false, 0, 0, false, false, false, true, .openPlot⟩
  (s.setPlot Origin.sec i p).zeroPlot i (s.fillOf 0 false)

/-- The last site has been brought up: the reserved plots are written and zeroed, and the boot sweep begins. With no populated stack
they have no place: the boot fails (notes/assumptions/22). The bytes of audit entry 0 stand in plot 0xFFF from then (notes/assumptions/22). -/
def State.phase8 (s : State) : State :=
  if !s.inBoot || s.rd F.FW_BOOT.STAGE != 7 || (List.range 12).any (fun k => s.siteStarting k) then s
  else
    let s := s.wr F.FW_BOOT.STAGE 8
    if s.rd F.PLOT_GEOM.P = 0 ∨ s.rd F.PLOT_GEOM.WIDE_SETS * s.rd F.PLOT_GEOM.P < 6 then
      { s.wr F.FW_BOOT.ERR 0x28 with fw := { s.fw with failed := true } }
    else
      let s := (List.range 6).foldl (fun s r => s.reservePlot r) s
      let s := s.writeEntry 0 (s.chainEntry0 s.sec.headStamp)
      onlyIf (s.rd F.RAS_SECFG.BOOT_ROUNDS != 0) (s.startSweep allLanterns (s.rd F.RAS_SECFG.BOOT_ROUNDS) none) s

/-! ### Start-up (R247 to R250, R255 to R262, R635) -/

/-- Hard post-package repair at cold boot (R635): the marked rows of each bank, as far as its PPR rows reach; a row that none is left
for counts toward its BANK. -/
def State.hardPpr (s : State) (k : Nat) : State :=
  (s.hist.units.filter fun u => u.cls == 0 && u.cluster == k && u.hardRepair && u.hardDone == 0).foldl (fun s u =>
    let used := (s.hist.units.filter fun x => x.cls == 0 && x.cluster == k && x.a == u.a && x.hardRepair && x.hardDone == s.hist.boots).length
    if used < tget 0 s.pprRows k then
      let e := ErrRec.make s.now sevInfo 0x20 k
      let (sid, b, row) := u.place
      (s.setHist { u with hardDone := s.hist.boots }).record { e with ppc := u.pc, sidbank := sid * 64 + b, row := row }
    else s.event1 1 k u.a 0 1 false) s

/-- The slot of a PC that a hard lane repair takes: one that maps no lane, else one that a soft repair holds (DESIGN CHOICE,
notes/assumptions/43: R277 has it added all the same). -/
def State.hardSlot (s : State) (k p : Nat) : Option Nat :=
  (s.repairSlot k p).orElse fun _ => leastBelow 4 fun i => !nbit (s.reg .PHY_REPAIR k p).toNat (8 * i + 6)

/-- A lane of a PC has a hard repair in the map. -/
def State.hardMapped (s : State) (k p lane : Nat) : Bool :=
  (List.range 4).any fun i => (s.reg .PHY_REPAIR k p).toNat >>> (8 * i) % 256 == 192 + lane

/-- A hard lane repair stands in the history, which is the saved map after a cold reset (R277, R631). -/
def State.histHard (s : State) (k p lane : Nat) : State :=
  let u := s.histUnit 3 k (p * 64 + lane) 0
  s.setHist { u with hardRepair := true, hardDone := if u.hardDone = 0 then s.hist.boots else u.hardDone }

/-- The hard lane repairs that a stack shows: those reported, and those in the lane-repair state read through the wrapper. -/
def shownHard (hard : List (PcIx × Fin 36)) (map : List (PcIx × W32)) : List (PcIx × Nat) :=
  hard.map (fun h => (h.1, h.2.val)) ++ map.flatMap fun e => (List.range 4).filterMap fun i =>
    if e.2.toNat >>> (8 * i) % 256 / 64 = 3 then some (e.1, e.2.toNat >>> (8 * i) % 64) else none

/-- Hard lane repairs of the stack that the saved map lacks are added to it, with a record each (R277). -/
def State.addHard (s : State) (k : Nat) (hard : List (PcIx × Nat)) : State :=
  hard.foldl (fun s h =>
    if s.hardMapped k h.1 h.2 then s else
    let s := match s.hardSlot k h.1 with
      | some i => s.setRepair k h.1 i h.2 true
      | none => s
    (s.histHard k h.1 h.2).record { ErrRec.make s.now sevCorrected 0x10 k with ppc := h.1 }) s

/-- The stack's hard lane repairs (R277, R631): those made at earlier boots, and those now due. They are the saved map after a cold
reset. -/
def State.hardLanes (s : State) (k : Nat) : State :=
  (s.hist.units.filter fun u => u.cls == 3 && u.cluster == k && u.hardRepair).foldl (fun s u =>
    match s.repairSlot k (u.a / 64) with
    | none => s
    | some i => (s.setRepair k (u.a / 64) i (u.a % 64) true).setHist
        { u with hardDone := if u.hardDone = 0 then s.hist.boots else u.hardDone }) s

/-- The site does not come into service: FAILED (4) or UNUSED (5), FRAMES = 0. -/
def State.siteOut (s : State) (k st : Nat) : State := (s.wr F.PHY_STATUS.SITE st k).wr F.PLOT_STACKGEOM.FRAMES 0 k

/-- A PC that does not train outside start-up, or whose site fails, is excluded from the PC map for this boot (R260, R261): it is out of
use, its logical PC loses its backing, and a migration that uses it ends as R637 has it end (the map of the others stays: R84;
notes/assumptions/21). -/
def State.excludePc (s : State) (k p : Nat) : State :=
  if s.migUses k p then s.abortMigration k 1 else
  let lpcs := upTo 64 fun l => s.bit F.CLU_PCMAP.VALID k l && s.phys k l == p
  let s := (s.answerHeld k p).setPc k p { Pc.blank with lfsr := (s.pc k p).lfsr }
  let s := (s.syncFrz k p).setMap F.CLU_PCSPARE.MAP p false k
  lpcs.foldl (fun s l => s.loseBacking k l) s

/-- No PC of the site trains, or its rails fail again (R261, R744): FAILED, treated as unpopulated (R28), no PC of it in use any more, with a
record, a tick after those of the PCs or rails that cause it (R47). -/
def State.siteDead (s : State) (k : Nat) : State :=
  let s := (upTo 64 fun p => (s.pc k p).st != .off && (s.pc k p).st != .retired).foldl (fun s p => s.excludePc k p) s
  ((s.siteOff k).siteOut k 4).record (ErrRec.make (s.now + 1) sevFatal 0x10 k)

/-- Phase 1 (R247 to R250, R254): the identity, the record, and whether the stack can be used (R77, R210); answers the rate and the
timing set. A record that allows no rate, or has no timing set for one that is allowed, counts as none (DESIGN CHOICE,
notes/assumptions/43). -/
def State.identify (s : State) (k : Nat) (d : StackId) : State × Nat × List Nat × Bool :=
  let r := s.paramRec d.vendor.toNat d.part.toNat
  let pick := match r with | some r => recMult r d.gen (s.rd F.PHY_CFG.RATE_CAP k) | none => 0
  let mult := if pick = 0 then 32 else pick
  let ts := if pick = 0 then defaultTimes else (r.bind fun r => recTimes r pick).getD defaultTimes
  let id := (2 - d.gen.val) <<< 30 + d.height.val <<< 25 + d.sids.val <<< 22 + (if d.gen = 0 then 64 else 32) <<< 15 +
    (d.pcUnits.val / 4) <<< 8 + (match r with | some r => recNat r 9 1 % 2 * 128 + recNat r 8 1 % 64 | none => 0)
  let s := (s.setReg .PHY_ID k 0 (BitVec.ofNat 64 id)).setReg .PHY_SERIAL k 0 d.serial
  let s := ((s.wr F.PHY_VENDOR.VENDOR d.vendor.toNat k).wr F.PHY_VENDOR.PART d.part.toNat k).wr F.PHY_STATUS.DEFAULT_PARAMS
    (if pick = 0 then 1 else 0) k
  let s : State := { s with pprRows := tset 0 s.pprRows k d.pprRows.val }
  (s, mult, ts, d.pcUnits.val % 4 == 0 && d.pcUnits.val != 0 && decide (ts.getD 16 0 * 40 ≤ 1300 * mult))

/-- The whole start-up of a site whose identity has answered, its stack rails set at their nominal values (R721), with a RESTORE in place of
phases 4 to 7 when `v` is given. -/
def State.bringUp (s : State) (k : Nat) (e : SiteEnv) (d : StackId) (v : Option VerifyEnv) : State :=
  let (s, mult, ts, usable) := s.identify k d
  if !usable then s.siteOut k 5 else
  let s := (List.range 3).foldl (fun s i =>
    (s.coreField 1 F.PM_RAIL_CFG.VSET_MV (Config.stackNominal d.gen i) (14 + 3 * k + i)).send
      (.pmbus (14 + 3 * k + i) (Config.stackNominal d.gen i))) (s.coreField (3 + k) F.CLOCK_PHYPLL.MULT mult k)
  let s := (s.lockPhy k).wr F.PHY_STATUS.SITE 2 k
  let s := ((((s.calibrate k e).writeTimes k ts).hardPpr k).hardLanes k).addHard k (shownHard e.hard e.stackMap)
  let (s, lost) := match v with
    | none => s.trainPcs k e (s.healthy k) 0
    | some v => s.restorePcs k e v (s.healthy k)
  if lost.length = (s.healthy k).length then
    (s.wr F.PHY_TRN_STATUS.RESULT 3 k).siteDead k
  else ((s.wr F.PHY_STATUS.SITE 3 k).buildMap k lost).settle k (!s.bit F.PHY_STATUS.RESTORED k)

/-- The PCs a training outside start-up takes in: those in self-refresh or frozen. -/
def State.trainable (s : State) (k : Nat) : List Nat :=
  upTo (s.pcCount k) fun p => (s.pc k p).st == .selfRefresh || (s.pc k p).st == .frozen

/-- A training outside start-up ends: the PCs that did not train are excluded (R260); when none has trained the site is FAILED (R261). -/
def State.outOfUse (s : State) (k : Nat) (ps lost : List Nat) : State :=
  let s := lost.foldl (fun s p => s.excludePc k p) s
  onlyIf (!ps.isEmpty && lost.length == ps.length) (s.siteDead k) s

/-- Training from phase 4 outside start-up. -/
def State.retrainAll (s : State) (k : Nat) (e : SiteEnv) : State :=
  let ps := s.trainable k
  let (s, lost) := s.trainPcs k e ps 0
  (s.settle k true).outOfUse k ps lost

/-- A training that CCCk makes of its own accord on a stack in use ends, after a relock (R40), a change of MULT (R262) or a fault of the
site's rails (R744), with its settings by `train`: the PCs that the unlock or the fault froze are thawed. -/
def State.trainedAgain (s : State) (k : Nat) (train : State → State × List Nat) : State :=
  let ps := s.trainable k
  let (s, lost) := train s
  let s := (s.settle k (!s.bit F.PHY_STATUS.RESTORED k)).outOfUse k ps lost
  let s : State := { s with clk := { s.clk with relocking := s.clk.relocking.filter (· != k) } }
  (upTo 64 fun p => (s.pc k p).freeze.any (fun z => z.cls == 0x12 || z.cls == 0x33) && !lost.contains p).foldl (fun s p => s.thawPc k p) s

/-- After a relock: training from phase 4. -/
def State.relockTrain (s : State) (k : Nat) (e : SiteEnv) : State := s.trainedAgain k fun s => s.trainPcs k e (s.trainable k) 0

/-- From phase 2 on (R262, R744): calibration, the mode registers and timing set of the rate, and the training; the site is READY unless
no PC has trained. A rate for which the record has no timing set takes the conservative one, and DEFAULT_PARAMS stays (DESIGN CHOICE,
notes/assumptions/43). -/
def State.fromPhase2 (s : State) (k : Nat) (e : SiteEnv) (train : State → State × List Nat) : State :=
  let ts := ((s.siteRec k).bind fun r => recTimes r (s.rd F.CLOCK_PHYPLL.MULT k)).getD defaultTimes
  let t := ((s.calibrate k e).writeTimes k ts).trainedAgain k train
  onlyIf (t.rd F.PHY_STATUS.SITE k == 2) (t.wr F.PHY_STATUS.SITE 3 k) t

/-- TRAINING_COMPLETE (R40, R255 to R262, R266, R273): a training that CCCk makes of its own accord ends: start-up from phase 1; training
from phase 2 after a change of MULT or a fault of the site's rails (R744); or from phase 4 after a relock. An image that is present and
accepted has RESTORE in its place; one that is rejected has the training's RESULT say so (R273, R274). A site does not train at a rate
it may not run at (R247), nor after PLL_MAIN has lost lock (R41). -/
def execTrainingComplete (k : Cluster) (e : SiteEnv) (s : State) : Res :=
  if !s.cccUp k || !s.dramOk then .next s
  else if s.rd F.PHY_STATUS.SITE k = 1 then
    match e.id with
    | none => .next s
    | some d => .next (onlyIf (!s.imagePresent k) (((s.bringUp k e d none).geometry).phase8) s)
  else if !nbit (s.rd F.CLOCK_STATUS.PHY_LOCK) k then .next s
  else if s.rd F.PHY_STATUS.SITE k = 2 then
    .next (onlyIf (s.rateOk k && !(s.imagePresent k && s.imageOk k e))
      (s.fromPhase2 k e fun t => t.trainPcs k e (t.trainable k) (if s.imagePresent k then 4 else 0)) s)
  else .next (onlyIf (s.clk.relocking.contains k.val) (s.relockTrain k e) s)

/-- DEVICE_ID_TIMEOUT (R28, R254, R721): no identity answers; the site is EMPTY and its rails are off. -/
def execDeviceIdTimeout (k : Cluster) (s : State) : Res :=
  .next (onlyIf (s.cccUp k && s.rd F.PHY_STATUS.SITE k == 1) (((s.wr F.PHY_STATUS.SITE 0 k).siteOff k).geometry.phase8) s)

/-! ### The commands of PHY_TRN_CTRL (R273, R274, R279, R280) -/

/-- The stack is idle (R279, R280): nothing runs on it, and every PC is in self-refresh or frozen. -/
def State.stackIdle (s : State) (k : Nat) : Bool :=
  !s.trnBusy k && (List.range (s.pcCount k)).all fun p => let pc := s.pc k p
    pc.st == .frozen || pc.st == .selfRefresh || (pc.st == .retired && pc.sr.down)

/-- PF0 writes PHY_TRN_CTRL.OP: carried out by `run`, or ignored with REJ set. Nothing is carried out once PLL_MAIN has lost lock (R41). -/
def State.trnOp (s : State) (k op : Nat) (run : State → State) : State :=
  if (!s.inReady && !s.inHold) || !s.dramOk then s
  else if !s.stackIdle k then s.raise F.PHY_TRN_CTRL.REJ k
  else (run s).audit 1 0 0 (0x1050020 + k * 0x100000) (s.reg .PHY_TRN_CTRL k).toNat op

/-- TRAIN (R255, R266): training from phase 4. -/
def execTrain (k : Cluster) (e : SiteEnv) (s : State) : Res := s.orWait (.train k e) fun s =>
  .next (s.trnOp k 1 fun s => s.retrainAll k e)

/-- RESTORE (R273, R274): at start-up and in a training from phase 2, when an image stands in the site's window, in place of phases 4 to 7;
else on a write of OP. -/
def execRestore (k : Cluster) (e : SiteEnv) (v : VerifyEnv) (s : State) : Res :=
  let own := s.cccUp k && s.imagePresent k && s.dramOk
  if own ∧ s.rd F.PHY_STATUS.SITE k = 1 then
    match e.id with
    | none => .next s
    | some d => .next (((s.bringUp k e d (some v)).geometry).phase8)
  else if own ∧ s.rd F.PHY_STATUS.SITE k = 2 then
    .next (onlyIf (s.rateOk k && nbit (s.rd F.CLOCK_STATUS.PHY_LOCK) k) (s.fromPhase2 k e fun t => t.restorePcs k e v (t.trainable k)) s)
  else s.orWait (.restore k e v) fun s => .next (s.trnOp k 2 fun s =>
    let ps := s.trainable k
    let (s, lost) := s.restorePcs k e v ps
    (s.settle k (!s.bit F.PHY_STATUS.RESTORED k)).outOfUse k ps lost)

/-- VERIFY (R274) of the settings in use. -/
def execVerify (k : Cluster) (v : VerifyEnv) (s : State) : Res := s.orWait (.verify k v) fun s => .next (s.trnOp k 3 fun s => s.postVerify k v)

/-- TRN_IMAGE_WRITE (R280): PF0 writes a word of the image. -/
def execTrnImageWrite (k : Cluster) (off : Fin 1024) (v : W32) (s : State) : Res := s.orWait (.trnImageWrite k off v) fun s =>
  let a := imgBase k + 4 * off.val
  .next (onlyIf (s.stackIdle k && !s.inBoot)
    ((s.putBytes a (leBytes v 4)).auditReg a (s.imgNat k (4 * off.val) 4) v.toNat) s)

/-! ### Retraining (R263 to R268) -/

/-- The stack temperature differs from PHY_RTR_TEMP by more than DRIFT_C. -/
def State.drifted (s : State) (k : Nat) : Bool :=
  let t := s.stackDeg k
  let r := s.rd F.PHY_RTR_TEMP.TEMP_C k
  let d := s.rd F.PHY_RTR_CFG.DRIFT_C k
  decide (2 ≤ tget 0 s.stackTemp k) && (decide (r + d < t) || decide (t + d < r))

/-- PERIOD_MS has passed since the last training, or since the window whose results a restart discarded (R263, R268). -/
def State.rtrPeriodUp (s : State) (k : Nat) : Bool :=
  let last := max (s.rd F.PHY_RTR_LAST.STAMP k) (tget 0 s.rtrFrom k)
  s.rd F.PHY_RTR_LAST.STAMP k != 0 && decide (last + usTicks (1000 * s.rd F.PHY_RTR_CFG.PERIOD_MS k) ≤ s.now)

/-- RETRAIN_TRIGGER (R263, R264): the trigger waits for CCCk to publish its window; a RETRAIN window published or running absorbs it. -/
def execRetrainTrigger (k : Cluster) (s : State) : Res :=
  .next (onlyIf (s.bit F.PHY_RTR_CFG.EN k && s.rd F.PHY_STATUS.SITE k == 3 && s.cccUp k && (s.rtrPeriodUp k || s.drifted k) &&
      !(s.bit F.REF_MAINT.VALID k && s.rd F.REF_MAINT.KIND k == 0) && !s.triggers.contains k.val)
    { s with triggers := s.triggers ++ [k.val] } s)

/-- The edge search of one direction (R265): at most 32 taps on each side of the current tap at the current Vref code; the midpoint and
the width between the edges. Where the current tap does not pass there is no edge to find: it stays, and the width is 0; a midpoint between
two taps is the lower (DESIGN CHOICE, notes/assumptions/43). -/
def Eye.search (e : Eye) (m : BitVec 128) : Eye :=
  if !m.getLsbD e.tap then { e with width := 0 } else
  let lo := e.tap - spanDown (fun t => m.getLsbD t) e.tap 32
  let hi := e.tap + spanUp (fun t => m.getLsbD t) e.tap 32
  { e with tap := (lo + hi) / 2, width := hi - lo + 1 }

/-- A NARROW lane (R267, R631): a correctable record that names the lane; four within 24 h count against the PC. -/
def State.narrowLane (s : State) (k l : Nat) : State :=
  let p := l / 4
  let e := ErrRec.make s.now sevCorrected 0x10 k
  let s := s.incRc F.PHY_RTR_STAT.NARROW k
  let recent := (tget [] s.narrow (k * 64 + p)).filter fun t => decide (s.now < t + 103680000000000)
  let s := s.record { e with sub := l % 4 + 1, ppc := p, lpc := s.lpcOf k p, detail := s.laneDetail k l,
                             count := if recent.length < 3 then 0 else s.countAt 2 k p 0 }
  if recent.length < 3 then { s with narrow := tset [] s.narrow (k * 64 + p) (recent ++ [s.now]) }
  else { s with narrow := tset [] s.narrow (k * 64 + p) [] }.event 2 k p 0

/-- One byte lane is retrained. -/
def State.retrainLane (s : State) (k : Nat) (e : SiteEnv) (l : Nat) : State :=
  let w := siteSweep e l 0
  let r := s.eye k l false
  let t := s.eye k l true
  let r := r.search ((lanePasses w false).getD r.vref 0)
  let t := t.search ((lanePasses w true).getD t.vref 0)
  let s := (s.setEye k l false r).setEye k l true t
  onlyIf (decide (min r.width t.width < s.rd F.PHY_CFG.MIN_EYE_TAPS k)) (s.narrowLane k l) s

/-- RETRAIN_APPLY (R265 to R268): the searches of a RETRAIN window end, and the new taps and impedance codes of the PCs in TRAINING take
effect in one tick; nothing is applied when CCCk has restarted in the window. Frozen PCs train no more (R647), and RETIRED ones stay in
self-refresh (R209). -/
def execRetrainApply (k : Cluster) (e : SiteEnv) (s : State) : Res :=
  match tget none s.windows k.val with
  | none => .next s
  | some w =>
    if !w.running || s.rd F.REF_MAINT.KIND k != 0 || w.tested != some false || !s.dramOk then .next s else
    let ps := upTo (s.pcCount k) fun p => (s.pc k p).st == .training
    let s : State := { s.calibrate k e with windows := tset none s.windows k.val (some { w with tested := none }) }
    let s := ps.foldl (fun s p => (List.range 4).foldl (fun s b => s.retrainLane k e (4 * p + b)) s) s
    .next ((s.incRc F.PHY_RTR_STAT.RETRAINS k).settle k false)

end Sys2Proof.Machine
end

