-- ==== Sys2Proof/Machine/Boot.lean ====
section
/-! DEFINITION. Resets and boot (chapter "Processors, boot and firmware life"). -/

namespace Sys2Proof.Machine

def State.modFw (s : State) (f : Fw → Fw) : State := { s with fw := f s.fw }

/-! ### Cores and their images (R683, R694, R719) -/

/-- FW_STATE codes: HELD, LOADING, RUNNING, RESTARTING, FAULT. -/
def coreHeld : Nat := 0
def coreRunning : Nat := 2
def coreRestarting : Nat := 3
def coreFault : Nat := 4

/-- The image class of a core: SEC 0, PMC 1, SCH 2, every CCC 3. -/
def coreClass (c : Nat) : Nat := min c 3

def State.coreSt (s : State) (c : Nat) : Nat := s.rd F.FW_STATE.STATE c
def State.setCore (s : State) (c v : Nat) : State := s.wr F.FW_STATE.STATE v c

/-- Core `c`'s memories hold image `g` (R694, R719). -/
def State.loadImg (s : State) (c : Nat) (g : FwImg) : State :=
  let s := ((s.wr F.FW_VER.MAJOR g.major c).wr F.FW_VER.MINOR g.minor c).wr F.FW_VER.PATCH g.patch c
  let s := (s.wr F.FW_BUILD.BUILD g.build c).wr F.FW_SVN.SVN g.svn c
  let s := (List.range 6).foldl (fun s i => s.wr F.FW_DIGEST.BYTES (bitsOf g.digest (64 * i + 63) (64 * i)) c i) s
  s.modFw fun f => { f with imgs := tset FwImg.blank f.imgs c g }

/-- Core `c` is released at ENTRY. -/
def State.runCore (s : State) (c : Nat) : State :=
  let now := s.now
  (s.setCore c coreRunning).modFw fun f => { f with since := tset 0 f.since c now }

/-! ### Cold boot, phases 2 to 5 (R555 to R558, R575, R594, R693, R696, R698) -/

/-- What a cold reset leaves: the flash, and the history as last committed (R686, R689). The queue of commands, what has been sent and
the counter of free values are the model's. A start mark without an end mark retires its source (R644), or stands as an interrupted
rotation (R589). -/
def State.coldState (s : State) : State :=
  let h := s.histFlash
  let gone := (h.marks.filter (·.1 == 0)).map fun m => (m.2.1, m.2.2)
  let h : Hist := { h with
    boots := h.boots + 1, retired := h.retired ++ gone.filter fun r => !h.retired.contains r,
    marks := (h.marks.filter (·.1 != 0)).map fun m => (2, m.2.1, m.2.2) }
  { State.reset with
    pending := s.pending, out := s.out, free := s.free, hist := h, histFlash := h, fw := { Fw.reset with flash := s.fw.flash } }

/-- Phase 2: the device seed, its keys and slot 0's key (R555 to R558, R574, R575). The seed that the PUF array gives with the helper data is
the device's when it has the digest that the helper data carries. Without it the device has no key of its own: the values are free
(notes/assumptions/8). -/
def State.rebuildId (s : State) (puf : BitVec 256) : State :=
  let ok := s.fw.flash.puf == some (digestOf (leBytes puf 32))
  let (key, s) := s.draw
  let (r, s) := s.draw
  let (m, s) := s.draw
  let s := (s.newKey Origin.sec 0 0 key).coreWrite 0 .RAS_MGSEED 0 0 (m.toNat % 2 ^ 64)
  let s := s.wr F.SEC_STATUS.ID (if ok then 1 else 2)
  if ok then
    let pub := ecdsaPublic (privateKey puf (ascii "MYR-DEVID"))
    let sealKey := BitVec.ofNat 256 (leNat (kdf (leBytes puf 32) (ascii "MYR-SEAL") 256))
    { s with sec := { s.sec with seed := puf, sealKey := sealKey, nonce := r.setWidth 128, pubKey := pub } }
  else
    let (v, s) := s.fresh
    { s with sec := { s.sec with pubKey := v.setWidth 776, sealKey := v.extractLsb' 768 256, nonce := r.setWidth 128 } }.record
      (ErrRec.make s.now sevFatal 0x16 0xFF)

/-- A 32-bit register takes a word from SEC; its reserved bits stay 0 (R17). -/
def State.secWrite (s : State) (r : RegName) (i w : Nat) : State :=
  s.coreWrite 0 r i 0 (BitVec.ofNat 64 w &&& r.desc.mask).toNat

/-- CONFIG_LOCK (R16, R82, R696, R745): SEC writes the RWL fields from the configuration record, where a copy is valid, and sets both lock
bits; a floor above 8 keeps CLK_NMC at ÷ 16 (R746). Once locked, the fields take no write until a cold reset. -/
def State.lockConfig (s : State) : State :=
  if s.bit F.GLOBAL_CFGLOCK.LOCK || s.bit F.SNF_LOCK.LOCK then s else
  let s : State := match s.fw.flash.cfg with
    | none => s
    | some c =>
      let s : State := (List.range 12).foldl (fun (s : State) k => (s.coreField 0 F.CLU_SPARES.SPARES (c.spares.getD k 1) k).coreField 0
        F.PHY_CFG.RATE_CAP (c.caps.getD k 48) k) s
      let s := s.coreField 0 F.RAS_SECFG.BOOT_ROUNDS c.rounds
      let s : State := (List.range 15).foldl (fun (s : State) i => s.wr F.FW_SVN.MIN_SVN (c.minSvn.getD (coreClass i) 0) i) s
      let w (i : Nat) : Nat := c.snf.getD i 0
      ((((((s.secWrite .SNF_VLOGIC 0 (w 0)).secWrite .SNF_VNMC 0 (w 1)).secWrite .SNF_VPHY 0 (w 2)).secWrite .SNF_MISC 0 (w 3)).secWrite
        .SNF_IMAX 0 (w 4)).secWrite .SNF_TCEIL 0 (w 5)).secWrite .SNF_IMAX_STK 0 (w 6)
  let s := (s.coreField 0 F.GLOBAL_CFGLOCK.LOCK 1).coreField 0 F.SNF_LOCK.LOCK 1
  let s := s.modFw fun f => { f with cfg := f.flash.cfg }
  onlyIf (decide (8 < s.rd F.SNF_MISC.NMC_DIV_MIN)) { s with clk := { s.clk with nmcAsk := some true } } s

/-- The lowest and highest voltage the Snuffer lets rail `r` have, in mV (R720, R723). -/
def State.railWindow (s : State) (r : Nat) : Nat × Nat :=
  if r = 0 then (s.rd F.SNF_VLOGIC.VMIN_MV, s.rd F.SNF_VLOGIC.VMAX_MV)
  else if r = 1 then (s.rd F.SNF_VNMC.VMIN_MV, s.rd F.SNF_VNMC.VMAX_MV)
  else if r < 14 then (s.rd F.SNF_VPHY.VMIN_MV, s.rd F.SNF_VPHY.VMAX_MV)
  else
    let nom := Config.stackNominal (2 - s.rd F.PHY_ID.GEN ((r - 14) / 3)) ((r - 14) % 3)
    let tol := s.rd F.SNF_MISC.STACK_VTOL
    (ceilDiv (nom * (100 - tol)) 100, nom * (100 + tol) / 100)

/-- RAIL_BRINGUP (R698, R721): phase 5 turns on the PHY, stack and Lantern rails. The setpoints PMC gives the PHY rails and VDD_NMC
are its firmware's: free within their windows (notes/assumptions/6). -/
def State.railsOn (s : State) : State :=
  let (v, s) := s.fresh
  (List.range 50).foldl (fun s r =>
    let s := s.wr F.PM_RAIL_CFG.ON 1 r
    if r = 0 ∨ 14 ≤ r then s else
    let w := s.railWindow r
    let mv := min w.2 (max w.1 (v.toNat >>> (16 * r) % 65536))
    (s.coreField 1 F.PM_RAIL_CFG.VSET_MV mv r).send (.pmbus r mv)) s

/-- Every array and Lantern that the history marks permanent is FENCED before a Lantern takes its first job (R665). -/
def State.bootFences (s : State) : State :=
  let perm (c : Nat) := (s.hist.units.filter fun u => u.cls == c && u.permanent)
  let s := (perm 4).foldl (fun s u =>
    if s.role u.cluster u.a = 4 then s else
    let was := s.role u.cluster u.a
    let tgt := if was = 2 then s.rd F.LNT_ARRAY.FOR u.cluster u.a else u.a
    let s := ((s.setRole u.cluster u.a 4).wr F.LNT_ARRAY.FOR 0 u.cluster u.a).setMap F.RAS_FENCE.ARRAYS u.a true u.cluster
    if was = 0 ∨ was = 2 then (s.standIn u.cluster tgt).1 else s) s
  let s := (perm 5).foldl (fun s u => (s.wr F.LNT_CTL.FENCED 1 u.cluster).wr F.RAS_FENCE.LANTERN 1 u.cluster) s
  allLanterns.foldl (fun s j => onlyIf (decide (s.rd F.RAS_SECFG.ARRAY_LIMIT < (s.fencedArrays j).length))
    ((s.wr F.LNT_CTL.FENCED 1 j).wr F.RAS_FENCE.LANTERN 1 j) s) s

/-- The rest of phase 3 with a boot payload (its core images and training images), and phases 4 and 5. -/
def State.bootOn (s : State) (imgs : List FwImg) (trn : Tbl (Option (List Byte))) : State :=
  let s := (List.range 15).foldl (fun s c => s.loadImg c (imgs.getD (coreClass c) FwImg.blank)) s
  let s := (List.range 12).foldl (fun s k =>
    match (tget none s.fw.flash.trn k).orElse (fun _ => tget none trn k) with
    | some b => s.putBytes (imgBase k) (b.take 4096)
    | none => s) (s.runCore 0)
  let (v, s) := s.fresh
  let alias_ := if s.rd F.SEC_STATUS.ID = 1
    then privateKey s.sec.seed (ascii "MYR-ALIAS" ++ leBytes (imgs.getD 0 FwImg.blank).digest 48) else v.setWidth 384
  let s := s.lockConfig
  let s : State := { s with sec := { s.sec with alias_ := alias_ } }
  let s := s.chainEntry s.now (s.chainEntry0 s.now)
  ((s.railsOn.runCore 1).bootFences).wr F.FW_BOOT.STAGE 6

/-- VREF_CHECK (R270): a difference of more than 1.5 % sets CAL_FAULT in every cluster. -/
def State.vrefCheck (s : State) (milli : Nat) : State :=
  if milli ≤ 15 then s else
  ((List.range 12).foldl (fun s k => s.wr F.PHY_STATUS.CAL_FAULT 1 k) s).record (ErrRec.make s.now sevCorrected 0x11 0xFF)

/-- MIN_SVN of the flash's configuration record for a class (R696). -/
def Fw.minSvn (f : Fw) (c : Nat) : Nat := match f.flash.cfg with | some g => g.minSvn.getD c 0 | none => 0

/-- The slot SEC boots (R693): the highest SEQ among those that are valid and pass their checks, that of their SVN among them (R695). -/
def Fw.bootSlot (f : Fw) (bad : List (Fin 2)) : Option Nat :=
  let ok (i : Nat) : Bool :=
    let x := f.flash.slots.getD i ⟨false, 0, [], []⟩
    x.valid && !bad.any (·.val == i) && (List.range 4).all fun c => decide (f.minSvn c ≤ (x.imgs.getD c FwImg.blank).svn)
  let seq (i : Nat) : Nat := (f.flash.slots.getD i ⟨false, 0, [], []⟩).seq
  if ok 0 && (!ok 1 || decide (seq 1 ≤ seq 0)) then some 0 else if ok 1 then some 1 else none

/-- COLD_RESET (R270, R555 to R558, R575, R594, R644, R665, R686, R689, R693 to R698, R700): what HUB_COLD_RST_N clears, and the cold boot up
to its phase 6; or the wait for a payload from the host. Phases 2 to 5 take place at stamp 0 (notes/assumptions/22). -/
def execColdReset (e : ColdEnv) (s : State) : Res :=
  let s := ((s.coldState.rebuildId e.puf).vrefCheck e.vrefDiffMilli).wr F.FW_BOOT.STAGE 3
  match if e.bootHost then none else s.fw.bootSlot e.badSlots with
  | none => .next ((s.wr F.FW_BOOT.WAIT_HOST 1).setCore 0 1)
  | some i =>
    let sl := s.fw.flash.slots.getD i ⟨false, 0, [], []⟩
    .next (((s.wr F.FW_BOOT.SOURCE i).modFw fun f => { f with slot := i }).bootOn sl.imgs sl.trn)

/-- Phase 7: the CCCs are released and begin to train (R255, R698). -/
def State.releaseCccs (s : State) : State :=
  (List.range 12).foldl (fun s k => (s.runCore (3 + k)).wr F.PHY_STATUS.SITE 1 k) (s.wr F.FW_BOOT.STAGE 7)

/-- BOOT_PHASE_FAIL (R703): the present phase fails; the block stays in BOOT. ERR is a RESULT code of FW_UPDSTAT, 1 to 9, or 0x20 plus the
phase for a phase timeout (none). -/
def execBootPhaseFail (phase : Fin 16) (err : Option (Fin 9)) (s : State) : Res :=
  let code := match err with | some e => e.val + 1 | none => 0x20 + phase.val
  .next (onlyIf (s.inBoot && !s.fw.failed && s.rd F.FW_BOOT.STAGE == phase.val)
    { s.wr F.FW_BOOT.ERR code with fw := { s.fw with failed := true } } s)

/-! ### HOLD (R146, R152, R536, R698) -/

/-- SCH_RELEASE (R146, R152, R536): after phase 8 of a cold boot, or phase 5 of a warm one, and the boot sweep: SCH runs, GLOBAL_IFVER is
set from its image, the block enters HOLD, and every port whose link is up is granted its credits; the Lanterns' ports come up. -/
def execSchRelease (s : State) : Res :=
  let warm := s.bit F.FW_BOOT.WARM
  .next (onlyIf (s.inBoot && !s.fw.failed && !s.fw.quiet && s.rd F.FW_BOOT.STAGE == (if warm then 5 else 8) && !s.bit F.RAS_MGCTL.BUSY)
    (let img := tget FwImg.blank s.fw.imgs 2
     let s := (s.wr F.FW_BOOT.STAGE (if warm then 6 else 9)).wr F.FW_BOOT.TIME_100US ((s.now - s.fw.bootAt) / 120000)
     let s := ((s.runCore 2).wr F.GLOBAL_IFVER.MAJOR (img.ifver / 256)).wr F.GLOBAL_IFVER.MINOR (img.ifver % 256)
     let now := s.now
     let s := (s.wr F.GLOBAL_STATE.STATE 1).modFw fun f => { f with clear := now }
     let s := (List.range 27).foldl (fun s p => onlyIf (s.bit F.PORT_LINK.UP p) (s.grantCredits p) s) s
     (List.range 12).foldl (fun s j => if s.bit F.PORT_LINK.UP (27 + j) then s.grantCredits (27 + j)
       else s.linkUp (27 + j) (ownDesc (27 + j) 0)) s) s)

/-! ### Quiescing (R123, R687, R740) -/

/-- A port is quiesced: its link goes down (R123, R150), a mirror port's with what R775 has it do. -/
def State.quiescePort (s : State) (p : Nat) : State :=
  onlyIf (s.bit F.PORT_LINK.UP p) (if p = 25 ∨ p = 26 then s.mirStop (p - 25) else s.linkDown p) s

/-- DOWN goes to the partner (R758), and mirrored writes not yet answered are discarded, their windows DIVERGED (R777). -/
def State.mirLeave (s : State) (cause : Nat) : State :=
  if !s.paired then s else
  let s := (List.range 2).foldl (fun s p => s.sendFrame p (.down cause)) s
  let s := (s.mir.writes.map (·.w)).eraseDups.foldl (fun s w => s.diverge w) s
  s.modMir fun x => { x with writes := [], sync := [] }

/-- Steps 1 and 2 of R687, with SEC's commit: every port as at a link-down, every job to abort, every PC to enter self-refresh. -/
def State.quiesce (s : State) (cause : Nat) : State :=
  let s := (List.range 39).foldl (fun s p => s.quiescePort p) (s.mirLeave cause)
  (((s.abortJobs fun _ => true).commitHist).modFw fun f => { f with quiet := true }).syncDegraded

/-- WARM_RESET_REQUEST (R123, R687, R741): HUB_WARM_REQ rises. During a shut-down it is not acknowledged; in BOOT it waits. -/
def execWarmResetRequest (s : State) : Res :=
  let now := s.now
  .next (onlyIf (!s.inBoot && s.fw.warm.isNone && !s.bit F.SNF_STAT.SHUTDOWN)
    ((s.quiesce 0).modFw fun f => { f with warm := some now }) s)

/-- A PC has quiesced: in self-refresh, or in a state that R687 leaves out. -/
def Pc.still (p : Pc) : Bool := match p.st with
  | .selfRefresh => p.sr.down0
  | .off => true | .frozen => true | .retired => true
  | .serving => false | .spare => false | .training => false

/-- Every job has drained, and the journal records are acknowledged. -/
def State.jobsDrained (s : State) : Bool := allCtxs.all fun q => (s.ctx q.1 q.2).job.isNone || (s.ctx q.1 q.2).st == .idle

/-- Every PC is in self-refresh, frozen or retired. -/
def State.pcsStill (s : State) : Bool := s.pcs.all fun e => e.2.still

/-- The block has quiesced (R687, R717). -/
def State.quiesced (s : State) : Bool :=
  s.pcsStill && s.jobsDrained && s.sec.auditQ.isEmpty && (List.range 15).all fun c => s.coreSt c != coreRestarting

/-! ### Warm boot (R276, R588, R624, R643, R689, R702) -/

/-- A journal copy whose MAGIC and CRC are good (R587, R641). -/
def State.journalAt (s : State) (pa magic : Nat) : Option (List Byte) :=
  match s.blockRead pa with
  | none => none
  | some d =>
    let b := (List.range 64).map (lineByte d)
    if recNat b 0 4 = magic ∧ recNat b 60 4 = (crc32c (b.take 60)).toNat then some b else none

/-- Of two copies the valid one with the larger RSEQ. -/
def newer (a b : Option (List Byte)) : Option (List Byte) := match a, b with
  | some x, some y => if recNat x 4 4 < recNat y 4 4 then some y else some x
  | some x, none => some x
  | none, y => y

/-- SEC reads the rotation journal (R588). -/
def State.resumeRotation (s : State) : State :=
  match s.sec.rotation with
  | none => s
  | some r =>
    let base := 0xFFD <<< 28 + 0x8000000
    let r' : Rotation := match newer (s.journalAt base 0x524F5431) (s.journalAt (base + 0x100) 0x524F5431) with
      | some b => { r with plot := recNat b 12 2, wm := recNat b 14 2, rseq := recNat b 4 4, ring := (s.ringsUnder r.slot).getD (recNat b 14 2) 8192 }
      | none => { r with plot := s.rotNext r.slot 0, wm := 0, ring := 0 }
    let s : State := { s with sec := { s.sec with rotation := some r', rotSeq := r'.rseq } }
    (s.wr F.SEC_ROT.PLOT r'.plot).wr F.SEC_ROT.WATERMARK r'.wm

/-- CCCk reads the migration journal (R643). -/
def State.resumeMigration (s : State) (k : Nat) : State :=
  if !s.bit F.CLU_MIG.ACTIVE k then s else
  let base := 0xFFD <<< 28 + k * 0x1000
  match newer (s.journalAt base 0x4D494731) (s.journalAt (base + 0x100) 0x4D494731) with
  | some b => s.wr F.CLU_MIG.WATERMARK (max (recNat b 12 2) (s.rd F.CLU_MIG.WATERMARK k)) k
  | none => s

/-- WARM_BOOT_VERIFY (R276, R277, R624): a site that comes out of a warm reset. Hard repairs the map lacks are added to it; a stack that
differs from the map is trained from phase 4, else the retained values are verified, and trained when that fails. PCs leave
self-refresh; a frozen PC serves again only when VERIFY passes on it, and one that does not train is excluded (R260). -/
def State.warmSite (s : State) (k : Nat) (w : Option WarmSite) : State :=
  let fails := match w with | some w => w.fails | none => []
  let s := match w with | some w => s.addHard k (shownHard w.train.hard w.train.stackMap) | none => s
  let differs := match w with | some w => s.repairDiffers k w.train | none => false
  let frozenBad (p : Nat) : Bool := fails.any fun l => l.val / 4 == p
  let ps := s.trainable k
  let wasFrozen := ps.filter fun p => (s.pc k p).st == .frozen
  let (s, lost) : State × List Nat := match w with
    | none => ((s.postVerify k []).wr F.PHY_STATUS.RESTORED 1 k, [])
    | some w =>
      if differs then s.trainPcs k w.train ps 0
      else if fails.isEmpty then ((s.postVerify k []).wr F.PHY_STATUS.RESTORED 1 k, [])
      else s.trainPcs k w.train ps 5
  let s := ps.foldl (fun s p =>
    let pc := s.pc k p
    if lost.contains p then s.excludePc k p
    else if wasFrozen.contains p then
      if frozenBad p then s.setPc k p { pc with rq := [], wq := [], rmw := [], waiting := [] }
      else (s.setPc k p { pc with rq := [], wq := [], rmw := [], waiting := [] }).thawPc k p
    else s.setPc k p { pc with
      st := if pc.wasSpare then .spare else .serving
      sr := .awake
      skipUntil := if pc.sr.down then s.now + 1200 else pc.skipUntil
      idleSince := s.now }) s
  onlyIf (!ps.isEmpty && lost.length == ps.length) ((s.settle k (differs || !fails.isEmpty)).siteDead k) (s.settle k (differs || !fails.isEmpty))

/-- A Lantern after a warm reset: no job, no request, no sweep; the roles of its arrays and its write journal stay. -/
def State.warmLantern (s : State) (j : Nat) : State :=
  let s := (s.lnt j).tests.foldl (fun s t => if t.running then (s.setRole j t.arr t.was).standDown j t.stand else s) s
  let s := (List.range 8).foldl (fun s c => (s.ctx j c).replayArrs.foldl (fun s a => s.replayOver j a) s) s
  let l := s.lnt j
  (s.setLnt j { Lantern.blank with gens := l.gens, hgens := l.hgens, jline := l.jline, jst := l.jst }).emptyPosy j

/-- The state a warm reset leaves before the warm boot (R487, R536, R564, R689): every request, ring and handshake gone. -/
def State.warmState (s : State) : State :=
  let lost := s.sec.auditQ.length
  let s : State := (s.incRc F.AUDIT_LOST.COUNT 0 0 lost)
  let s : State := { s with sec := { s.sec with auditQ := [], conns := [] } }
  let s := (List.range 64).foldl (fun s i => s.endSession Origin.sec i) s
  let s := allLanterns.foldl (fun s j => s.warmLantern j) s
  let s := (List.range 8192).foldl (fun s i =>
    (((s.setRing Origin.hw i 0).clearReg .RING_PTRS i).wr F.RING_STATE.HALT 0 i).incWrap F.RING_STATE.EPOCH i) s
  let s := (List.range 128).foldl (fun s f => s.wr F.FN_STATUS.VER 0 f) s
  let s := ((s.wr F.RAS_MGCTL.BUSY 0).wr F.RAS_MGSTAT.IN_SWEEP 0).wr F.GLOBAL_STATE.STATE 0
  let rings : Rings := { Rings.reset with
    bmeOff := s.rings.bmeOff, hgens := s.rings.hgens, idleAt := s.rings.idleAt, l1Us := s.rings.l1Us, l1 := s.rings.l1 }
  { s.setAttn 0x9 false with
    flights := [], slices := [], rings := rings,
    pcs := s.pcs.map fun e => (e.1, { e.2 with rq := [], wq := [], rmw := [], waiting := [] }) }

/-- The image that a core of the class boots with: of the boot slot, or of the slot an activation has staged (R716). -/
def State.bootImg (s : State) (c : Nat) (staged : Bool) : FwImg :=
  ((s.fw.flash.slots.getD (if staged then 1 - s.fw.slot else s.fw.slot) ⟨false, 0, [], []⟩).imgs).getD (coreClass c) FwImg.blank

/-- Phase 2 of a warm boot: the cores restart on their images; an image that differs from its digest is reloaded; a core that an
activation names takes its new image (R702, R716). -/
def State.warmCores (s : State) (bad : List (Fin 15)) : State :=
  (List.range 15).foldl (fun s c =>
    let s := if s.fw.act.contains c || s.fw.acted.contains c then s.loadImg c (s.bootImg c true)
      else if bad.any (·.val == c) then s.loadImg c (s.bootImg c (s.fw.acted.contains c)) else s
    if c = 2 then s.setCore c coreHeld else s.runCore c) (s.modFw fun f => { f with falls := [], owed := [], fresh := [] })

end Sys2Proof.Machine
end

