-- ==== Sys2Proof/Machine/Plots.lean ====
section
/-! DEFINITION. Plots (chapter "Addresses, plots and the map"): the PLOT_CMD commands and the ends of QUARANTINE. -/

namespace Sys2Proof.Machine

/-- The results of a plot command (R93). -/
def pcOK : Nat := 0
def pcBadOp : Nat := 1
def pcBadState : Nat := 2
def pcReserved : Nat := 3
def pcPlaceRange : Nat := 4
def pcPlaceUsed : Nat := 5
def pcNoSession : Nat := 6
def pcNoSlot : Nat := 7

/-- Posts a plot command's result (R93). -/
def State.plotResult (s : State) (i r : Nat) : State :=
  (((s.wr F.PLOT_STATUS.RESULT r).wr F.PLOT_STATUS.INDEX i).raise F.PLOT_STATUS.DONE).wr F.PLOT_CMD.BUSY 0

/-- The placement that PLOT_ARG0 names lies outside the geometry (R96). -/
def State.placeBad (s : State) (wide : Bool) (stack frame member : Nat) : Bool :=
  if wide then !(decide (frame < s.rd F.PLOT_GEOM.WIDE_SETS) && decide (member < s.rd F.PLOT_GEOM.P))
  else !(nbit (s.rd F.PLOT_GEOM.POPULATED) stack && decide (frame < s.rd F.PLOT_STACKGEOM.FRAMES stack))

/-- Two placements cannot both be in use (R79): the same frame, and one of them is the whole set, or they are the same place. -/
def placeClash (wide : Bool) (stack frame member : Nat) (wide' : Bool) (stack' frame' member' : Nat) : Bool :=
  frame == frame' && (wide != wide' || (if wide then member == member' else stack == stack'))

/-- The placement is taken by a plot that is not FREE, or unusable after a RETIRED plot was freed (R75, R79, R96). -/
def State.placeUsed (s : State) (wide : Bool) (stack frame member : Nat) : Bool :=
  (s.plots.any fun e => e.2.state != .free && placeClash wide stack frame member e.2.wide e.2.stack e.2.frame e.2.member) ||
    s.deadFrames.any fun d => placeClash wide stack frame member (decide (16 ≤ d.1)) d.1 d.2 (d.1 - 16)

/-- ALLOC of plot `i` (R72, R73, R96): the conditions in the order of R96, then QUARANTINE with NEXT = 1 under the owner's
allocation slot and its current half. -/
def State.allocPlot (s : State) (i : Nat) : State × Nat :=
  let p := s.plot i
  let owner := s.rd F.PLOT_ARG0.OWNER
  let wide := s.bit F.PLOT_ARG0.MODE
  let frame := s.rd F.PLOT_ARG0.FRAME
  let stack := if wide then 0 else s.rd F.PLOT_ARG0.STACK
  let member := if wide then s.rd F.PLOT_ARG0.MEMBER else 0
  if 0xFFA ≤ i then (s, pcReserved)
  else if p.state != .free then (s, pcBadState)
  else if s.placeBad wide stack frame member then (s, pcPlaceRange)
  else if s.placeUsed wide stack frame member then (s, pcPlaceUsed)
  else if !s.hasSession owner then (s, pcNoSession)
  else
    match s.allocSlotOf owner with
    | (none, s) => (s, pcNoSlot)
    | (some slot, s) =>
      let q : Plot := ⟨0, p.gen + 1, BitVec.ofNat 16 (s.rd F.PLOT_ARG1.RIGHTS), member, frame, stack, false, true, slot, owner,
        false, s.curHalf slot, s.bit F.PLOT_ARG0.MIRROR, wide, .quarantine⟩
      (s.setPlot (Origin.fn 0) i q, pcOK)

/-- FREE of plot `i` (R74, R92, R98): QUARANTINE with NEXT = 0, and SEC's key action begins (R578). -/
def State.freePlot (s : State) (i : Nat) : State × Nat :=
  let p := s.plot i
  if 0xFFA ≤ i then (s, pcReserved)
  else if p.state == .free || p.state == .quarantine then (s, pcBadState)
  else
    let s := s.setPlot (Origin.fn 0) i { p with state := .quarantine, next := false }
    let q : Quarantine := ⟨s.nextId, false, p.state == .retired⟩
    (({ s with quar := tset none s.quar i (some q) }).keyAction i, pcOK)

/-- SETRIGHTS and SETMIRROR of plot `i` (R92, R97). -/
def State.editPlot (s : State) (i : Nat) (f : Plot → Plot) : State × Nat :=
  let p := s.plot i
  if 0xFFA ≤ i then (s, pcReserved)
  else if p.state == .openPlot || p.state == .sealed then (s.setPlot (Origin.fn 0) i (f p), pcOK)
  else (s, pcBadState)

/-- A command whose outcome needs SEC (R74, R96, R706): an ALLOC for a tenant, the FREE of a plot under a tenant's slot. -/
def State.plotNeedsSec (s : State) (op i : Nat) : Bool :=
  (op == 1 && s.rd F.PLOT_ARG0.OWNER != 0) || (op == 2 && (s.plot i).keyslot != s.sec.opSlot)

/-- Runs a plot command and posts its result. An OP that names no command answers BAD_OP whatever its index (DESIGN CHOICE,
notes/assumptions/35: R92 and R93 give no order). -/
def State.plotRun (s : State) (op i : Nat) : State :=
  let (t, r) := if op = 1 then s.allocPlot i else if op = 2 then s.freePlot i
    else if op = 3 then s.editPlot i fun p => { p with rights := BitVec.ofNat 16 (s.rd F.PLOT_ARG1.RIGHTS) }
    else if op = 4 then s.editPlot i fun p => { p with mirror := s.bit F.PLOT_ARG0.MIRROR }
    else (s, pcBadOp)
  t.plotResult i r

/-- A plot command waits: for SEC's return (R706), or for the tick after another change of its entry (R71). -/
def State.plotWaits (s : State) (op i : Nat) : Bool := (s.plotNeedsSec op i && s.secRestarts) || s.plotChanged i

/-- A write of PLOT_CMD by PF0 (R93 to R95): ignored with REJ_BUSY while a command runs; a nonzero OP starts a command, which may have to
wait, BUSY; the audit queue's limit holds the write (R598). -/
def State.plotCmd (s : State) (op i : Nat) : State :=
  if s.bit F.PLOT_CMD.BUSY then s.raise F.PLOT_STATUS.REJ_BUSY
  else if op = 0 ∨ s.inBoot then s
  else if s.plotWaits op i then ((s.wr F.PLOT_CMD.BUSY 1).wr F.PLOT_CMD.OP op).wr F.PLOT_CMD.INDEX i
  else s.plotRun op i

/-- A plot command that waited runs, when it need not wait any more (R71, R706). -/
def State.plotResume (s : State) : State :=
  let op := s.rd F.PLOT_CMD.OP
  let i := s.rd F.PLOT_CMD.INDEX
  onlyIf (s.bit F.PLOT_CMD.BUSY && !s.plotWaits op i) ((s.plotRun op i).clearReg .PLOT_CMD) s

/-- ALLOC (R93, R96). -/
def execAlloc (i : Fin 4096) (s : State) : Res := s.orWait (.alloc i) fun s => .next (s.plotCmd 1 i)
/-- FREE (R93, R98). -/
def execFree (i : Fin 4096) (s : State) : Res := s.orWait (.free i) fun s => .next (s.plotCmd 2 i)
/-- SETRIGHTS (R97). -/
def execSetrights (i : Fin 4096) (s : State) : Res := s.orWait (.setrights i) fun s => .next (s.plotCmd 3 i)
/-- SETMIRROR (R97). -/
def execSetmirror (i : Fin 4096) (s : State) : Res := s.orWait (.setmirror i) fun s => .next (s.plotCmd 4 i)

/-- PLOT_CMD_BAD_OP (R93): a write of PLOT_CMD with any OP, as one that names no command. -/
def execPlotCmdBadOp (op : Fin 16) (i : Fin 4096) (s : State) : Res := s.orWait (.plotCmdBadOp op i) fun s => .next (s.plotCmd op i)

/-- ALLOC_ZEROING_DONE (R72, R73): the plot's lines are zero under its key, and it is OPEN, or SEALED when its tenant has no
session. Nothing is written once PLL_MAIN has lost lock (R41). -/
def execAllocZeroingDone (i : Fin 4096) (s : State) : Res :=
  let p := s.plot i
  .next (onlyIf (p.state == .quarantine && p.next && !s.plotChanged i && s.dramOk)
    ((s.zeroPlot i (s.fillOf p.keyslot p.epoch)).setPlot Origin.hw i
      { p with next := false, state := if s.hasSession p.owner then .openPlot else .sealed }) s)

/-- Every request accepted for plot `i` before request `mark` has completed: answered, and its writes drained (R74). -/
def State.drained (s : State) (i mark : Nat) : Bool :=
  !(s.flights.any fun f => f.plot == i && decide (f.id < mark)) && !(s.pcs.any fun e => e.2.wq.any fun w => w.plot == i && w.inUse (s.phy (e.1 / 64) s.now))

/-- PLOT_QUARANTINE_END (R74, R75): a freed plot becomes FREE when its earlier requests have completed and SEC has reported
its key action; a RETIRED plot's place stays unusable. -/
def execPlotQuarantineEnd (i : Fin 4096) (s : State) : Res :=
  match tget none s.quar i.val with
  | none => .next s
  | some q =>
    let p := s.plot i
    .next (onlyIf (p.state == .quarantine && !p.next && q.keyDone && s.drained i q.mark && !s.plotChanged i)
      ({ s with quar := tset none s.quar i.val none,
                deadFrames := if q.wasRetired then s.deadFrames ++ [(if p.wide then 16 + p.member else p.stack, p.frame)]
                  else s.deadFrames }.setPlot Origin.hw i { p with state := .free }) s)

end Sys2Proof.Machine
end

