-- ==== Sys2Proof/Machine/Firmware.lean ====
section
/-! DEFINITION. Restarts of the cores, staging and activation of firmware, and the warm reset (chapter "Processors, boot and firmware
life"). -/

namespace Sys2Proof.Machine

/-! ### Restarting one core (R268, R269, R704 to R709) -/

/-- Causes of FW_LASTCAUSE. -/
def causePf0 : Nat := 1
def causeWatchdog : Nat := 2
def causeTrap : Nat := 3
def causeActivation : Nat := 4

/-- What stops with a core (R172, R268, R269, R706): every context is held with SCH; with CCCk its holds break, the results of a running
RETRAIN window are not applied, and the work of a TEST or REPAIR window does not count (R707). A start-up training, which takes one step
here and has changed nothing before it, begins again at phase 1 (R269); one from phase 2 begins again there, and the PC map stands (R84). -/
def State.coreStops (s : State) (c : Nat) : State :=
  if c = 2 then s.holdJobs fun _ => true
  else if c < 3 then s
  else
    let k := c - 3
    let s : State := { s with
      holds := s.holds.map fun e => (e.1, e.2.map fun h => if h.req == 39 && h.k == k then { h with breaking := true } else h),
      windows := match tget none s.windows k with
        | some w => if !w.running then s.windows
            else if s.rd F.REF_MAINT.KIND k = 0 then
              (if w.tested == some false then tset none s.windows k (some { w with tested := some true }) else s.windows)
            else tset none s.windows k (some { w with gone := true })
        | none => s.windows }
    s

/-- Core `c` is held for a restart of a cause (R704, R708): the third WATCHDOG or TRAP within 10 s leaves it in FAULT. -/
def State.holdCore (s : State) (c cause : Nat) : State :=
  let now := s.now
  let recent := (tget [] s.fw.falls c).filter fun t => decide (now < t + 12000000000)
  let falls := if cause = causeWatchdog ∨ cause = causeTrap then recent ++ [now] else recent
  let s := (s.setCore c (if falls.length < 3 then coreRestarting else coreFault)).wr F.FW_LASTCAUSE.CAUSE cause c
  let s := onlyIf (decide (3 ≤ falls.length)) (s.raise F.FW_EVT.FAULT) s
  s.modFw fun f => { f with falls := tset [] f.falls c (if falls.length < 3 then falls else []) }

/-- Core `c` began a restart in the present tick, of a given cause. -/
def State.justRestarted (s : State) (c : Nat) (cause : Nat → Bool) : Bool :=
  s.coreSt c == coreRestarting && s.rd F.FW_LASTSTAMP.STAMP c == s.now && cause (s.rd F.FW_LASTCAUSE.CAUSE c)

/-- Core `c` restarts (R704, R708): held, counted, its cause recorded and audited. -/
def State.restartNow (s : State) (c cause : Nat) : State :=
  let now := s.now
  let old := (s.reg .FW_STATE c).toNat
  let s := (((s.holdCore c cause).incRc F.FW_STATE.RESTARTS c).wr F.FW_LASTSTAMP.STAMP now c).raise F.FW_EVT.RESTART
  (s.audit 0 0 0 (regOff .FW_STATE c) old (s.reg .FW_STATE c).toNat).coreStops c

/-- A restart falls due: another core's waits while SEC restarts (R709). -/
def State.restart (s : State) (c cause : Nat) : State :=
  if c ≠ 0 ∧ s.coreSt 0 = coreRestarting then
    if s.fw.owed.any (·.1 == c) then s else s.modFw fun f => { f with owed := f.owed ++ [(c, cause)] }
  else s.restartNow c cause

/-- WATCHDOG_EXPIRY (R685, R708, R717): a running core has not written its watchdog for WDOG_MS. A restart that PF0 has asked for in the
same tick has this cause instead. -/
def execWatchdogExpiry (c : Fin 15) (s : State) : Res :=
  if tget 0 s.fw.since c + usTicks (1000 * s.rd F.FW_CTL.WDOG_MS c) ≤ s.now then
    .next (if s.coreSt c == coreRunning then s.restart c causeWatchdog
      else onlyIf (s.justRestarted c (· == causePf0)) (s.holdCore c causeWatchdog) s)
  else .next s

/-- CORE_TRAP (R685, R708). -/
def execCoreTrap (c : Fin 15) (s : State) : Res := .next (onlyIf (s.coreSt c == coreRunning) ((s.evt (13 + c.val) 0x05 0).restart c causeTrap) s)

/-- CORE_RESTART (R704, R708, R717): PF0 writes FW_CTLc.RESTART; ignored while the core restarts or loads. An image that differs from its
digest is reloaded from the boot slot. -/
def execCoreRestart (c : Fin 15) (imageOk : Bool) (s : State) : Res := s.orWait (.coreRestart c imageOk) fun s =>
  if s.coreSt c == coreRestarting || s.coreSt c == 1 then .next s else
  let s := (s.audit 1 0 0 (regOff .FW_CTL c) (s.reg .FW_CTL c).toNat (2 ^ 31 + s.rd F.FW_CTL.WDOG_MS c)).restart c causePf0
  .next (if imageOk then s else s.loadImg c (s.bootImg c false))

/-- CORE_RELEASE (R418, R540, R565, R704, R706, R709): a restarting core is released. With SEC the sessions' timers take the restart's
duration, a waiting plot command runs, and the restarts that waited begin; with SCH the contexts are released and the heartbeat watch
begins anew. -/
def execCoreRelease (c : Fin 15) (s : State) : Res :=
  if s.coreSt c ≠ coreRestarting then .next s else
  let s := if s.fw.fresh.contains c.val then (s.loadImg c (s.bootImg c true)).modFw fun f => { f with fresh := f.fresh.filter (· != c.val) } else s
  let s := s.runCore c
  let now := s.now
  .next (if c.val = 0 then
      let d := now - s.rd F.FW_LASTSTAMP.STAMP 0
      let s : State := { s with sec := { s.sec with
        sessions := s.sec.sessions.map fun e => (e.1, e.2.map fun x => { x with beat := x.beat + d }) } }
      let owed := s.fw.owed
      owed.foldl (fun s o => s.restartNow o.1 o.2) (s.plotResume.modFw fun f => { f with owed := [] })
    else if c.val = 2 then
      ((s.releaseJobs fun b => s.ringSt b.ring != ringPaused).modRings fun x => { x with beat := if x.beat = 0 then 0 else now + 1 })
    else s)

/-! ### Payloads (R692 to R695, R710) -/

/-- The results of FW_UPDSTAT. -/
def updBadManifest : Nat := 1
def updBadImage : Nat := 2
def updSvn : Nat := 3
def updIfver : Nat := 4
def updFlash : Nat := 5
def updBusy : Nat := 6
def updNotStaged : Nat := 7
def updStartFail : Nat := 8
def updCancelled : Nat := 9

/-- Bytes `i` to `i + n - 1`. -/
def bytesAt (b : List Byte) (i n : Nat) : List Byte := (b.drop i).take n
def allZero (b : List Byte) : Bool := b.all (· == 0)

/-- The memories of a core class in bytes (R683): code, data. -/
def coreMem (c : Nat) : Nat × Nat :=
  (if c = 0 then 393216 else if c = 1 then 131072 else 262144, if c = 1 then 65536 else if c = 3 then 131072 else 262144)

/-- Checks 1 to 5 of R695 on the bytes of an image, in order. -/
def imageBytesOk (b : List Byte) : Bool :=
  let code := recNat b 20 4
  let data := recNat b 24 4
  let m := coreMem (recNat b 6 1)
  let key (i : Nat) : BitVec 776 := BitVec.ofNat 776 (recNat b i 97)
  let sig (i : Nat) : BitVec 768 := BitVec.ofNat 768 (recNat b i 96)
  decide (512 ≤ b.length) && recNat b 0 4 == 0x4D594657 && recNat b 4 2 == 1 && decide (recNat b 6 1 < 4) && allZero (bytesAt b 7 1) &&
    allZero (bytesAt b 177 15) && allZero (bytesAt b 384 128) && (recNat b 6 1 == 2 || recNat b 18 2 == 0) &&
    decide (code ≤ m.1 ∧ data ≤ m.2 ∧ 512 + code + data ≤ b.length) &&
    ecdsaVerify Config.rootKey (digestOf (bytesAt b 80 97)) (sig 192) &&
    ecdsaVerify (key 80) (digestOf (bytesAt b 0 288)) (sig 288) &&
    recNat b 32 48 == leNat (sha384 (bytesAt b 512 (code + data)))

/-- What an image's header says (R694). -/
def parseImage (b : List Byte) : FwImg :=
  ⟨recNat b 8 1, recNat b 9 1, recNat b 10 2, recNat b 12 4, recNat b 16 2, recNat b 18 2, BitVec.ofNat 384 (recNat b 32 48)⟩

/-- An item of a manifest (R692): type, site, bytes. -/
structure PayItem where
  typ : Nat
  site : Nat
  body : List Byte

/-- Item `i` of a payload. -/
def payItem (b : List Byte) (i : Nat) : PayItem :=
  ⟨recNat b (16 + 32 * i) 1, recNat b (17 + 32 * i) 1, bytesAt b (recNat b (24 + 32 * i) 4) (recNat b (28 + 32 * i) 4)⟩

/-- Item `i` is as R692 says: its zero bytes, its place, and its CHECK. -/
def payItemOk (b : List Byte) (i : Nat) : Bool :=
  let it := payItem b i
  let off := recNat b (24 + 32 * i) 4
  let len := recNat b (28 + 32 * i) 4
  decide (it.typ ≤ 1) && (if it.typ = 1 then decide (it.site < 12) else it.site == 0) && allZero (bytesAt b (18 + 32 * i) 6) &&
    off % 4096 == 0 && decide (4096 ≤ off ∧ off + len ≤ b.length) && bytesAt b (32 + 32 * i) 16 == (sha384 it.body).take 16

/-- The core images of a payload with the class each names. -/
def payCores (b : List Byte) : List (Nat × List Byte) :=
  (((List.range (recNat b 8 2)).map (payItem b)).filter (·.typ == 0)).map fun it => (recNat it.body 6 1, it.body)

/-- The manifest is valid (R692). -/
def manifestOk (b : List Byte) : Bool :=
  let n := recNat b 8 2
  decide (4096 ≤ b.length) && recNat b 0 4 == 0x4D59504C && decide (4 ≤ n ∧ n ≤ 32) && allZero (bytesAt b 10 6) &&
    allZero (bytesAt b 1040 3052) && recNat b 4092 4 == (crc32c (bytesAt b 0 4092)).toNat && (List.range n).all (payItemOk b) &&
    (List.range 4).all fun c => ((payCores b).filter (·.1 == c)).length == 1

/-- A payload's images by class, and its training images. -/
def payImgs (b : List Byte) : List FwImg :=
  (List.range 4).map fun c => match (payCores b).find? (·.1 == c) with | some x => parseImage x.2 | none => FwImg.blank
def payTrn (b : List Byte) : Tbl (Option (List Byte)) :=
  (((List.range (recNat b 8 2)).map (payItem b)).filter (·.typ == 1)).foldl (fun t it => tset none t it.site (some it.body)) []

/-- MIN_SVN in force for a class: of the configuration record read at the cold reset, as FW_SVN shows it, or, before that is in force, of
the flash (R695, R696, R719). -/
def State.minSvn (s : State) (c : Nat) : Nat :=
  if s.bit F.GLOBAL_CFGLOCK.LOCK then s.rd F.FW_SVN.MIN_SVN (if c < 3 then c else 3) else s.fw.minSvn c

/-- The result of the checks on a payload (R692, R695, R710): 0 when they pass. `update` adds the check of IFVER. -/
def State.payCheck (s : State) (b : List Byte) (update : Bool) : Nat :=
  let imgs := payImgs b
  let ifv := (imgs.getD 2 FwImg.blank).ifver
  if !manifestOk b then updBadManifest
  else if !(payCores b).all (fun x => imageBytesOk x.2) then updBadImage
  else if (List.range 4).any (fun c => decide ((imgs.getD c FwImg.blank).svn < s.minSvn c)) then updSvn
  else if update && !(ifv / 256 == s.rd F.GLOBAL_IFVER.MAJOR && decide (s.rd F.GLOBAL_IFVER.MINOR ≤ ifv % 256)) then updIfver
  else 0

/-! ### The mailbox commands (R696, R697, R700, R710, R718) -/

/-- STATE and RESULT of FW_UPDSTAT. -/
def State.updSt (s : State) : Nat := s.rd F.FW_UPDSTAT.STATE
def State.setUpd (s : State) (st r : Nat) : State := (s.wr F.FW_UPDSTAT.STATE st).wr F.FW_UPDSTAT.RESULT r

/-- SEC waits for a payload from the host (R700). -/
def State.waitsHost (s : State) : Bool := s.inBoot && s.bit F.FW_BOOT.WAIT_HOST && !s.fw.failed

/-- Serves a command of R718: in BOOT only those of R700 (R701). -/
def State.serveFw (s : State) (f cmd : Nat) (args : List Byte) (boot : Bool) (run : State → State × Nat × Nat) : State :=
  if !s.mbxOk f 0x10 cmd args then s
  else if s.secRestarts || (s.inBoot && !(boot && s.waitsHost)) then s.mbxPost f none 0x10 cmd rRETRY 0x08 []
  else if !(s.secUp || s.waitsHost) then s
  else
    let (t, r, d) := if f ≠ 0 then (s, rDENIED, 0x02) else run s
    t.mbxPost f none 0x10 cmd r d []

/-- Puts bytes at an offset of a buffer. -/
def bufPut (t : Tbl Byte) (off : Nat) (bs : List Byte) : Tbl Byte := (bs.zipIdx).foldl (fun t e => tset 0 t (off + e.2) e.1) t

/-- Changes the payload slot that is not the boot slot. -/
def Fw.modSpare (f : Fw) (g : FwSlot → FwSlot) : Fw := { f with flash := { f.flash with slots := f.flash.slots.modify (1 - f.slot) g } }

/-- STAGE_CHUNK (R700, R710, R717, R718): part of a payload, to the boot buffer or, erasing it first, to the slot that is not the boot
slot. -/
def execStageChunk (f : FnIx) (dest : Fin 4) (off : W32) (data : List Byte) (s : State) : Res :=
  let data := data.take 1000
  let args := [BitVec.ofNat 8 dest.val, 0, 0, 0] ++ leBytes off 4 ++ leBytes (BitVec.ofNat 16 data.length) 2 ++
    List.replicate 6 0 ++ data
  .next (s.serveFw f 0x10 args (dest == 0) fun s =>
    if data.isEmpty ∨ 1 < dest.val ∨ 4194304 < off.toNat + data.length ∨ (dest = 0 ∧ s.waitsHost = false) then (s, rUNSUP, 0x01)
    else if dest = 0 then (s.modFw fun f => { f with buf0 := bufPut f.buf0 off.toNat data }, rOK, 0)
    else if s.updSt = 3 ∨ s.updSt = 4 then (s.wr F.FW_UPDSTAT.RESULT updBusy, rCHECK, 0x10 + updBusy)
    else
      let s := if s.updSt = 1 then s
        else (s.setUpd 1 0).modFw fun f => { f.modSpare (fun x => { x with valid := false, seq := 0 }) with buf1 := [] }
      (s.modFw fun f => { f with buf1 := bufPut f.buf1 off.toNat data }, rOK, 0))

/-- STAGE_END (R700, R710, R718): the payload is checked; the host's boots the block, an update becomes STAGED. Its slot's SEQ stays below the
boot slot's until activation (R715, R716; notes/assumptions/23). -/
def execStageEnd (f : FnIx) (dest : Fin 4) (total : W32) (s : State) : Res :=
  .next (s.serveFw f 0x11 ([BitVec.ofNat 8 dest.val, 0, 0, 0] ++ leBytes total 4) (dest == 0) fun s =>
    if 1 < dest.val ∨ 4194304 < total.toNat ∨ (dest = 0 ∧ s.waitsHost = false) then (s, rUNSUP, 0x01)
    else if dest = 0 then
      let b := (List.range total.toNat).map (tget 0 s.fw.buf0)
      let r := s.payCheck b false
      if r ≠ 0 then (s, rCHECK, 0x10 + r)
      else (((s.wr F.FW_BOOT.WAIT_HOST 0).wr F.FW_BOOT.SOURCE 2).modFw (fun f => { f with buf0 := [] }) |>.bootOn (payImgs b) (payTrn b), rOK, 0)
    else if s.updSt = 3 ∨ s.updSt = 4 then (s.wr F.FW_UPDSTAT.RESULT updBusy, rCHECK, 0x10 + updBusy)
    else
      let b := (List.range total.toNat).map (tget 0 s.fw.buf1)
      let r := s.payCheck b true
      let s := s.modFw fun f => { f with buf1 := [] }
      if r ≠ 0 then (s.setUpd 6 r, rCHECK, 0x10 + r)
      else ((s.setUpd 2 0).modFw fun f => f.modSpare fun _ => ⟨true, 0, payImgs b, payTrn b⟩, rOK, 0))

/-- A configuration record (R696). -/
def parseCfg (b : List Byte) : FwCfg :=
  ⟨recNat b 4 4, (List.range 12).map fun i => recNat b (8 + i) 1, (List.range 12).map fun i => recNat b (20 + i) 1, recNat b 32 1,
    (List.range 4).map fun i => recNat b (36 + 2 * i) 2, (List.range 7).map fun i => recNat b (128 + 4 * i) 4⟩

/-- REC_WRITE (R696, R697, R718): a record for the next cold reset. One that would lower a MIN_SVN is refused; one without its MAGIC, or a
configuration record of no larger RSEQ, is never the valid copy. -/
def execRecWrite (f : FnIx) (kind : Byte) (body : List Byte) (s : State) : Res :=
  let body := body.take 1008
  .next (s.serveFw f 0x12 ([kind] ++ List.replicate 7 0 ++ body) false fun s =>
    if kind = 1 ∧ body.length = 208 then
      let g := parseCfg body
      if (List.range 4).any fun c => decide (g.minSvn.getD c 0 < s.fw.minSvn c) then (s, rUNSUP, 0x01)
      else if recNat body 0 4 != 0x43464731 || (s.fw.flash.cfg.any fun o => decide (g.rseq ≤ o.rseq)) then (s, rOK, 0)
      else (s.modFw fun f => { f with flash := { f.flash with cfg := some g } }, rOK, 0)
    else if kind = 2 ∧ body.length = 976 then
      let same (r : List Byte) : Bool := recNat r 4 1 == recNat body 4 1 && recNat r 6 2 == recNat body 6 2
      let rest := s.fw.flash.params.filter fun r => !same r
      if recNat body 0 4 != 0x53505231 then (s, rOK, 0)
      else if 192 ≤ rest.length then (s, rCHECK, 0x10 + updFlash)
      else (s.modFw fun f => { f with flash := { f.flash with params := rest ++ [body] } }, rOK, 0)
    else (s, rUNSUP, 0x01))

/-- TRN_SAVE (R718): the site's training image goes to the training area. -/
def execTrnSave (f : FnIx) (site : Cluster) (s : State) : Res :=
  .next (s.serveFw f 0x13 [BitVec.ofNat 8 site.val] false fun s =>
    let img := (List.range 4096).map (s.imgByte site)
    (s.modFw fun f => { f with flash := { f.flash with trn := tset none f.flash.trn site.val (some img) } }, rOK, 0))

/-! ### Activation (R711 to R716) -/

/-- An emergency is in force (R712). -/
def State.emergency (s : State) : Bool := s.attn 0xF || s.attn 0x2 || s.attn 0x1 || s.rd F.PM_FAULT.RAIL != 0

/-- NEXT: the core being restarted, or to be restarted next. -/
def State.setNext (s : State) : State := s.wr F.FW_UPDSTAT.NEXT (s.fw.act.headD 0)

/-- Activation begins (R713): PMC, then the CCCs, then SCH, as far as CORES names them. -/
def State.beginActivation (s : State) : State :=
  let cores := s.rd F.FW_UPDCTL.CORES
  let order := ([1] ++ (List.range 12).map (· + 3) ++ [2]).filter (nbit cores)
  let now := s.now
  ((s.setUpd 4 0).modFw fun f => { f with act := order, acted := [], actAt := now + 1 }).setNext

/-- The activation has begun in an earlier tick: what it does waits a tick, in which an emergency may still defer it (R717). -/
def State.actRuns (s : State) : Bool := s.updSt == 4 && s.fw.actAt != s.now + 1

/-- The activation is deferred (R712). -/
def State.deferAct (s : State) : State :=
  let now := s.now
  ((s.setUpd 3 0).raise F.FW_EVT.DEFERRED).modFw fun f => { f with clear := now, act := [] }

/-- An emergency begins in the tick in which an activation is accepted, or its second without one ends: DEFERRED (R717, R749). -/
def State.deferLate (s : State) : State :=
  onlyIf (s.updSt == 4 && !s.actRuns && s.emergency) (s.deferAct.wr F.FW_UPDSTAT.NEXT 0) s

/-- ACTIVATE (R711, R712, R717). -/
def execActivate (s : State) : Res := s.orWait .activate fun s =>
  let s := s.audit 1 0 0 0x3401010 (s.rd F.FW_UPDCTL.CORES) (2 ^ 31 + s.rd F.FW_UPDCTL.CORES)
  if s.updSt ≠ 2 then .next (s.wr F.FW_UPDSTAT.RESULT updNotStaged)
  else if s.emergency then .next s.deferAct
  else .next s.beginActivation

/-- CANCEL (R712): ignored outside DEFERRED. -/
def execCancel (s : State) : Res := s.orWait .cancel fun s =>
  .next (onlyIf (s.updSt == 3)
    ((s.setUpd 2 updCancelled).audit 1 0 0 0x3401010 (s.rd F.FW_UPDCTL.CORES) (2 ^ 30 + s.rd F.FW_UPDCTL.CORES)) s)

/-- ACTIVATION_BEGIN (R712, R716, R717, R749): no emergency for 1 s, since HOLD after a warm reset; a CANCEL in the tick in which the
second ends comes first. -/
def execActivationBegin (s : State) : Res :=
  .next (onlyIf (s.updSt == 3 && !s.inBoot && !s.emergency && decide (s.fw.clear + 1200000000 < s.now)) s.beginActivation s)

/-- ACTIVATION_CORE_RESTART (R709, R713, R717): the next core restarts on its new image once the one before it runs; one that a trap has
held in the same tick restarts once. -/
def execActivationCoreRestart (s : State) : Res :=
  match s.fw.act with
  | [] => .next s
  | c :: rest =>
    let once := s.justRestarted c (· == causeTrap)
    let ready := s.actRuns && s.secUp && (s.coreSt c != coreRestarting || once) && s.fw.acted.all fun d => s.coreSt d == coreRunning
    .next (onlyIf ready
      (((if once then s.wr F.FW_LASTCAUSE.CAUSE causeActivation c else s.restartNow c causeActivation).modFw fun f =>
        { f with act := rest, acted := f.acted ++ [c], fresh := f.fresh ++ [c] }).wr F.FW_UPDSTAT.NEXT c) s)

/-- ACTIVATION_START_FAIL (R714): the core restarted last does not write its watchdog within 1 s of its start, or is in FAULT; every changed
core restarts on its previous image. -/
def execActivationStartFail (s : State) : Res :=
  match s.fw.acted.getLast? with
  | none => .next s
  | some c =>
    let late := s.coreSt c == coreFault || (s.coreSt c == coreRunning && decide (tget 0 s.fw.since c + 1200000000 ≤ s.now))
    if !(s.updSt == 4 && s.secUp && late) then .next s else
    let cs := s.fw.acted
    let s := cs.foldl (fun s d => (s.loadImg d (s.bootImg d false)).restartNow d causeActivation) s
    .next (((s.setUpd 6 updStartFail).raise F.FW_EVT.FAILED).wr F.FW_UPDSTAT.NEXT 0 |>.modFw fun f => { f with act := [], acted := [], fresh := [] })

/-- The end of an activation (R711, R715): the staged slot becomes the boot slot, the MIN_SVN of each activated class rises, and the history
is committed. -/
def State.endActivation (s : State) : State :=
  let other := 1 - s.fw.slot
  let seq := (s.fw.flash.slots.getD s.fw.slot ⟨false, 0, [], []⟩).seq + 1
  let classes := (s.fw.acted.map coreClass).eraseDups
  let svn (low c : Nat) : Nat := if classes.contains c then max low (s.bootImg c true).svn else low
  let base := s.fw.flash.cfg.getD ⟨0, List.replicate 12 1, List.replicate 12 48, 4, [0, 0, 0, 0], []⟩
  let snf : List Nat := if base.snf.isEmpty then [RegName.SNF_VLOGIC, RegName.SNF_VNMC, RegName.SNF_VPHY, RegName.SNF_MISC,
    RegName.SNF_IMAX, RegName.SNF_TCEIL, RegName.SNF_IMAX_STK].map fun r => (r.reset 0 0).toNat else base.snf
  let cfg : FwCfg := { base with rseq := base.rseq + 1, minSvn := (List.range 4).map fun c => svn (s.fw.minSvn c) c, snf := snf }
  let s := (List.range 15).foldl (fun s i => s.wr F.FW_SVN.MIN_SVN (svn (s.rd F.FW_SVN.MIN_SVN i) (coreClass i)) i) s
  let s := s.modFw fun f => { f with
    flash := { f.flash with slots := f.flash.slots.modify other fun x => { x with seq := seq }, cfg := some cfg }
    slot := other, act := [], acted := [] }
  let s := ((s.setUpd (if nbit (s.rd F.FW_UPDCTL.CORES) 0 then 7 else 5) 0).wr F.FW_UPDSTAT.NEXT 0).raise F.FW_EVT.ACTIVATED
  s.commitHist

/-- ACTIVATION_END (R715): every named core runs its new image. -/
def execActivationEnd (s : State) : Res :=
  .next (onlyIf (s.actRuns && s.secUp && s.fw.act.isEmpty && s.fw.acted.all fun c => s.coreSt c == coreRunning) s.endActivation s)

/-! ### The warm reset (R276, R588, R643, R688, R689, R702, R716, R777) -/

/-- The pair waits for the partner to form it again (R777): STATE reads FORMING and the windows are PAUSED. -/
def State.mirWarm (s : State) : State :=
  if !s.paired then s else (s.wr F.MIR_PAIR.STATE 1).pauseWins

/-- WARM_RESET (R487, R564, R688, R689, R702): HUB_WARM_ACK when the block has quiesced, else 2 ms after the request, but not once a
shut-down has begun (R741); then the warm boot up to its phase 5. A stack whose PLL has lost lock, or every stack when PLL_MAIN has, stays
as it is (R40, R41). -/
def execWarmReset (e : WarmEnv) (s : State) : Res :=
  match s.fw.warm with
  | none => .next s
  | some t =>
    if s.bit F.SNF_STAT.SHUTDOWN || (!s.quiesced && decide (s.now < t + 2400000)) then .next s else
    let s := onlyIf s.quiesced (s.send (.hub .warmAck)) s
    let now := s.now
    let s := (s.mirWarm.warmState.warmCores e.badImages).modFw fun f => { f with warm := none, quiet := false, failed := false, bootAt := now }
    let s := (((s.wr F.FW_BOOT.WARM 1).wr F.FW_BOOT.ERR 0).wr F.FW_BOOT.STAGE 5)
    let s := if s.updSt = 4 then (s.modFw fun f => { f with acted := f.acted ++ f.act, act := [] }).endActivation else s
    let s := (upTo 12 fun k => s.wakeable k).foldl (fun s k => s.warmSite k (e.sites.find? fun w => w.k.val == k)) s
    let s := (List.range 12).foldl (fun s k => s.resumeMigration k) s.resumeRotation
    .next (onlyIf (s.rd F.RAS_SECFG.BOOT_ROUNDS != 0) (s.startSweep allLanterns (s.rd F.RAS_SECFG.BOOT_ROUNDS) none) s).syncDegraded

end Sys2Proof.Machine
end

