-- ==== Sys2Proof/Machine/Power.lean ====
section
/-! DEFINITION. Rails, the housekeeping round, thermal levels and the Snuffer (chapter "Power, heat and the Snuffer"). -/

namespace Sys2Proof.Machine

def State.modPw (s : State) (f : Pw → Pw) : State := { s with pw := f s.pw }

/-- Ticks of a housekeeping round, of one of its conversions, and of a millisecond (R725, R727). -/
def roundTicks : Nat := 7680000
def convTicks : Nat := 120000
def msTicks (n : Nat) : Nat := 1200000 * n

/-- A record of R750: the sensor or rail, the reading, and the level or the low byte of STATUS_WORD. -/
def State.heatRecord (s : State) (sev cls n : Nat) (reading : Int) (last : Nat) : State :=
  s.record { ErrRec.make s.now sev cls 0xFF with
    detail := leBytes (BitVec.ofNat 16 n) 2 ++ leBytes (BitVec.ofInt 16 reading) 2 ++ [BitVec.ofNat 8 last] }

/-! ### Sensors (R728 to R735) -/

/-- A 16-bit two's complement value. -/
def sext16 (v : Nat) : Int := if v % 65536 < 32768 then (v % 65536 : Nat) else (v % 65536 : Nat) - 65536

/-- A reading within −40 to 150 °C, in 1/8 °C (R730). -/
def tempRange (t : Int) : Option Int := if -320 ≤ t ∧ t ≤ 1200 then some t else none

/-- DIODE mode (R728, R730): ΔV in units of 10 µV, IDEAL; the reading to the nearest 1/8 °C (notes/assumptions/9). -/
def diodeTemp (raw ideal : Nat) : Option Int :=
  if raw < 4000 ∨ 11000 < raw ∨ ideal = 0 then none else
  let n : Int := raw * 8 * 11604518 * 16384
  let d : Int := 100 * ideal * 2302585
  tempRange ((10 * n - 21847 * d) / (10 * d))

/-- THERMISTOR mode (R729, R730): the voltage in units of 10 µV, β, the nominal resistance in 10 Ω (notes/assumptions/9). -/
def thermTemp (raw beta nom : Nat) : Option Int :=
  if 60000 ≤ raw ∨ raw < 600 ∨ beta = 0 ∨ nom = 0 then none else
  let num : Int := 5963 * 4294967296 * beta
  let den : Int := 20 * 4294967296 * beta + 5963 * Config.lnQ32 raw (20 * nom)
  if den ≤ 0 then none else tempRange ((80 * num - 21847 * den) / (10 * den))

/-- The value of a field in a word of its register. -/
def Fld.of (f : Fld) (w : W64) : Nat := w.toNat >>> f.lo % 2 ^ f.len

/-- What sensor `i` has stood at since the present tick began: what a conversion or reading that begins in it goes by (R749, R751). -/
def State.sensConf (s : State) (i : Nat) : SensConf := ⟨s.reg0 .THM_SENS_CFG i 0, s.reg0 .THM_SENS_THR i 0, s.reg0 .THM_SENS_HYS i 0⟩

/-- The reading of sensor `i` from a conversion that began with `x`: of a remote sensor by its mode, of an on-die sensor in 1/8 °C. FIXED
gives a remote sensor no reading of its own: the value is free (notes/assumptions/9). -/
def State.reading (s : State) (i raw : Nat) (x : SensConf) : Option Int × State :=
  let m := F.THM_SENS_CFG.MODE.of x.cfg
  if 16 ≤ i then (some (sext16 raw), s)
  else if m = 1 then (diodeTemp raw (F.THM_SENS_CFG.PARAM.of x.cfg), s)
  else if m = 2 then (thermTemp raw (F.THM_SENS_CFG.BETA_K.of x.cfg) (F.THM_SENS_CFG.PARAM.of x.cfg), s)
  else let (v, s) := s.fresh
       (some (sext16 v.toNat), s)

/-- The levels sensor `i` is at (R731: 1 warning, 2 throttle, 4 shut-down, added; 8 a failed reading). -/
def State.levels (s : State) (i : Nat) : Nat := tget 0 s.pw.levels i
/-- A level as THM_STATUS.LEVEL shows it. -/
def levelCode (b : Nat) : Nat := if 8 ≤ b then 2 else if nbit b 2 then 3 else if nbit b 1 then 2 else b % 2
/-- At the throttle level (R731, R733). -/
def atThrottle (b : Nat) : Bool := decide (8 ≤ b) || nbit b 1

/-- One level of R731: entered at or above the threshold, left at or below it minus the hysteresis (°C; the reading in 1/8 °C). -/
def levelStep (was : Bool) (t : Int) (thr hys : Nat) : Bool :=
  if (8 * thr : Int) ≤ t then true else if t ≤ 8 * ((thr : Int) - hys) then false else was

/-- Begins a shut-down (R740), for a sensor or a rail: SHUTDOWN_IMMINENT, the record, SEC's commit, and the notice time. -/
def State.beginShutdown (s : State) (n : Nat) (reading : Int) (last : Nat) : State :=
  if s.bit F.SNF_STAT.SHUTDOWN then s else
  let now := s.now
  let s := ((s.setAttn 0xF true).wr F.SNF_STAT.SHUTDOWN 1).heatRecord sevFatal 0x32 n reading last
  let notice := now + msTicks (s.rd F.THM_CFG.NOTICE_MS)
  s.commitHist.modPw fun p => { p with shutAt := some now, notice := some notice }

/-- A reading of sensor `i` (R731 to R735, R740), with the mode and thresholds of `x` (R749, R751): none where it fails; a sensor that is
OFF counts at no level. -/
def State.sense (s : State) (i : Nat) (t : Option Int) (x : SensConf) : State :=
  let was := s.levels i
  if F.THM_SENS_CFG.MODE.of x.cfg = 0 then
    ((s.wr F.THM_SENS_READ.VALID 0 i).wr F.THM_SENS_READ.LEVEL 0 i).modPw fun p => { p with levels := tset 0 p.levels i 0 }
  else match t with
  | none =>
    ((s.wr F.THM_SENS_READ.VALID 0 i).wr F.THM_SENS_READ.LEVEL 2 i).modPw fun p => { p with levels := tset 0 p.levels i (was % 8 + 8) }
  | some t =>
    let shutC := F.THM_SENS_THR.SHUT_C.of x.thr
    let shutH := F.THM_SENS_HYS.SHUT_H.of x.hys
    let warn := levelStep (nbit was 0) t (F.THM_SENS_THR.WARN_C.of x.thr) (F.THM_SENS_HYS.WARN_H.of x.hys)
    let throt := levelStep (nbit was 1) t (F.THM_SENS_THR.THROT_C.of x.thr) (F.THM_SENS_HYS.THROT_H.of x.hys)
    let shut := levelStep (nbit was 2) t shutC shutH
    let b := warn.toNat + 2 * throt.toNat + 4 * shut.toNat
    let s := ((s.wr F.THM_SENS_READ.VALID 1 i).wr F.THM_SENS_READ.TEMP (BitVec.ofInt 16 t).toNat i).wr F.THM_SENS_READ.LEVEL (levelCode b) i
    let s := s.modPw fun p => { p with levels := tset 0 p.levels i b }
    let s := onlyIf (warn && !nbit was 0) (s.heatRecord sevInfo 0x30 i t 1) s
    if shut && !nbit was 2 then
      let hot := (s.fw.flash.hot.filter (·.1 != i)) ++ [(i, 8 * (shutC - shutH) + 32768)]
      (s.beginShutdown i t 3).modFw fun f => { f with flash := { f.flash with hot := hot } }
    else s

/-- The block is at the throttle level (R734). -/
def State.throttled (s : State) : Bool := (List.range 44).any (fun i => atThrottle (s.levels i)) || s.bit F.THM_STATUS.POWER

/-- The sensor with the highest level, the lowest number on ties. -/
def State.hottest (s : State) : Nat :=
  (List.range 44).foldl (fun a i => if levelCode (s.levels a) < levelCode (s.levels i) then i else a) 0

/-- The divider asked of CLK_NMC, no smaller than NMC_DIV_MIN (R737, R739, R746). -/
def State.askNmc (s : State) (half : Bool) : State :=
  { s with clk := { s.clk with nmcAsk := some (half || decide (8 < s.rd F.SNF_MISC.NMC_DIV_MIN)) } }

/-- The block's levels after a reading with stamp `t` (R735, R736): entering the throttle level asks for a slow-down. -/
def State.settleHeat (s : State) (t : Nat) : State :=
  let s := onlyIf ((List.range 44).any fun i => nbit (s.levels i) 0) (s.raise F.THM_EVT.WARN) s
  if !s.throttled || s.pw.grace.isSome || s.bit F.SNF_STAT.ENFORCED then s else
  let g := t + msTicks (s.rd F.THM_CFG.GRACE_MS)
  (s.setAttn 0x1 true).modPw fun p => { p with grace := some g }

/-- A tick in whose end no sensor is at the throttle level, nor the power (R739, R749): what was asked or enforced ends; once a shut-down has
begun, enforcement stays. -/
def State.heatLeaves (s : State) : State :=
  if s.throttled then s else
  let s := onlyIf s.pw.grace.isSome ((s.setAttn 0x1 false).modPw fun p => { p with grace := none }) s
  let enf := s.bit F.SNF_STAT.ENFORCED
  onlyIf (enf && !s.bit F.SNF_STAT.SHUTDOWN) { ((s.setAttn 0x2 false).wr F.SNF_STAT.ENFORCED 0).askNmc false with capUsed := [] } s

/-! ### Rails (R720 to R724, R743, R744) -/

/-- The current limit of rail `r` in 0.1 A (R743). -/
def State.railLimit (s : State) (r : Nat) : Nat :=
  if r = 0 then 10 * s.rd F.SNF_IMAX.LOGIC_A else if r = 1 then 10 * s.rd F.SNF_IMAX.NMC_A
  else if r < 14 then s.rd F.SNF_IMAX.PHY_DA
  else if (r - 14) % 3 = 0 then s.rd F.SNF_IMAX_STK.VDDC_DA
  else if (r - 14) % 3 = 1 then s.rd F.SNF_IMAX_STK.VDDQ_DA
  else s.rd F.SNF_IMAX_STK.VPP_DA

/-- The site a rail from 2 on feeds. -/
def railSite (r : Nat) : Nat := if r < 14 then r - 2 else (r - 14) / 3

/-- A rail is faulted (R743, R744, R749), before any setpoint written in the tick: its bit and record; a shut-down, or the site's PCs freeze
and the site is trained again. -/
def State.railFault (s : State) (r : Nat) (mv : Nat) (status : Nat) : State :=
  let s := ((s.wr F.PM_RAIL_CFG.VSET_MV (s.rd0 F.PM_RAIL_CFG.VSET_MV r) r).raiseBit F.PM_FAULT.RAIL r).heatRecord (if r < 2 then sevFatal else sevRecoverable) 0x33 r mv status
  if r < 2 then s.beginShutdown r mv status else
  let k := railSite r
  let now := s.now
  let again := (siteRails k).any fun q => let f := tget 0 s.pw.faults q; f != 0 && decide (now ≤ f - 1 + 1200000000)
  let s := s.modPw fun p => { p with faults := tset 0 p.faults r (now + 1) }
  let s := (List.range 64).foldl (fun s p => onlyIf (s.pc k p).st.canFreeze (s.freezePc k p 0x33) s) s
  if again then s.siteDead k
  else onlyIf (s.rd F.PHY_STATUS.SITE k == 3) (s.wr F.PHY_STATUS.SITE 2 k) ((s.send (.clearFaults r)).send (.pmbus r (s.rd F.PM_RAIL_CFG.VSET_MV r)))

/-- The engine sends a setpoint, clamped to the rail's window (R723, R724). -/
def State.sendRail (s : State) (r mv : Nat) : State :=
  let w := s.railWindow r
  let v := min w.2 (max w.1 mv)
  (onlyIf (v != mv) (s.incRc F.SNF_STAT.CLAMPS) s).send (.pmbus r v)

/-- PMC runs. -/
def State.pmcUp (s : State) : Bool := s.coreSt 1 == coreRunning

/-- VSET_WRITE (R723, R724, R749, R751): PMC writes VSET_MV; a fault of that rail in the same tick discards the write. -/
def execVsetWrite (r : Fin 50) (mv : BitVec 16) (s : State) : Res :=
  .next (onlyIf (s.pmcUp && tget 0 s.pw.faults r != s.now + 1) ((s.coreField 1 F.PM_RAIL_CFG.VSET_MV mv.toNat r).sendRail r mv.toNat) s)

/-- The STATUS_WORD shows a fault: any bit but OFF and POWER_GOOD# (notes/assumptions/24). -/
def statusFault (w : BitVec 16) : Bool := w &&& 0xF7BF != 0

/-- RAIL_POLL (R724, R743): STATUS_WORD, READ_VOUT in mV and READ_IOUT in 0.1 A of one rail; a third poll in a row without an answer is
a fault. A rail that is off has none. -/
def execRailPoll (r : Fin 50) (answered : Bool) (status vout iout : BitVec 16) (s : State) : Res :=
  let on := s.bit F.PM_RAIL_CFG.ON r
  let s := s.modPw fun p => { p with polls := p.polls.filter (· != r.val) }
  if !answered then
    let n := tget 0 s.pw.missed r + 1
    let s := s.modPw fun p => { p with missed := tset 0 p.missed r (if n < 3 then n else 0) }
    .next (onlyIf (on && decide (3 ≤ n)) (s.railFault r (s.rd F.PM_RAIL_MEAS.VOUT_MV r) 0) s)
  else
    let s := (s.wr F.PM_RAIL_MEAS.VOUT_MV vout.toNat r).wr F.PM_RAIL_MEAS.IOUT_DA iout.toNat r
    let s := s.modPw fun p => { p with missed := tset 0 p.missed r 0 }
    .next (onlyIf (on && (statusFault status || decide (14 ≤ r.val ∧ s.railLimit r < iout.toNat)))
      (s.railFault r vout.toNat (status.toNat % 256)) s)

/-- PM_ALERT (R724): an extra poll of every rail is owed. -/
def execPmAlert (s : State) : Res := .next (s.modPw fun p => { p with polls := List.range 50 })

/-! ### The housekeeping round (R725 to R727, R734, R742, R748) -/

/-- The block power of a round (R748) and its condition (R734), once the last current has been sampled. -/
def State.power (s : State) : State :=
  let sum := ((List.range 14).map fun r => s.rd F.HK_CH.VALUE (32 + r) * s.rd F.HK_CH.VALUE (46 + r)).sum
  let w := (sum + 5000) / 10000
  let max := s.rd F.SNF_MISC.PMAX_W
  let s := s.wr F.PM_STATUS.BLOCK_W w
  if max < w then s.wr F.THM_STATUS.POWER 1 else if 100 * w ≤ 95 * max then s.wr F.THM_STATUS.POWER 0 else s

/-- A conversion of channel `ch` (R725, R743). -/
def State.convert (s : State) (ch raw : Nat) : State :=
  if ch < 32 then
    let x := s.pw.conf
    if F.THM_SENS_CFG.MODE.of x.cfg = 0 then s.sense ch none x else
    let (t, s) := s.reading ch raw x
    (match t with | some v => s.wr F.HK_CH.VALUE (BitVec.ofInt 16 v).toNat ch | none => s).sense ch t x
  else
    let s := s.wr F.HK_CH.VALUE raw ch
    if ch < 46 then
      let r := ch - 32
      let w := s.railWindow r
      let n := if s.bit F.PM_RAIL_CFG.ON r && (decide (raw < w.1) || decide (w.2 < raw)) then tget 0 s.pw.outV r + 1 else 0
      let s := s.modPw fun p => { p with outV := tset 0 p.outV r (if n < 2 then n else 0) }
      let (v, s) := s.fresh
      onlyIf (decide (2 ≤ n)) (s.railFault r raw (v.toNat % 256)) s
    else if ch < 60 then
      let r := ch - 46
      let (v, s) := s.fresh
      let s := onlyIf (s.bit F.PM_RAIL_CFG.ON r && decide (s.railLimit r < raw)) (s.railFault r (s.rd F.HK_CH.VALUE (32 + r)) (v.toNat % 256)) s
      onlyIf (ch == 59) s.power s
    else s

/-- Phase 6 of a cold boot ends with a full round in which every sensor is below its throttle level, and those of a shut-down have
cooled (R698, R742). -/
def State.bootCool (s : State) : State :=
  let cool (e : Nat × Nat) : Bool := s.bit F.THM_SENS_READ.VALID e.1 && decide (sext16 (s.rd F.THM_SENS_READ.TEMP e.1) + 32768 ≤ e.2)
  if s.inBoot && !s.fw.failed && s.rd F.FW_BOOT.STAGE == 6 && !s.bit F.FW_BOOT.WARM && s.pmcUp &&
      !(List.range 44).any (fun i => atThrottle (s.levels i) || nbit (s.levels i) 2) && s.fw.flash.hot.all cool
  then (s.modFw fun f => { f with flash := { f.flash with hot := [] } }).releaseCccs else s

/-- HK_SAMPLE (R725, R727, R731, R736, R739, R740, R743): the next channel's conversion has ended. -/
def execHkSample (ch : Fin 64) (raw : BitVec 16) (s : State) : Res :=
  let t := s.pw.start + convTicks * (ch.val + 1)
  if !s.clk.running || ch.val != s.pw.next || decide (s.now < t) then .next s else
  let s := ({ s with sampleAt := tset 0 s.sampleAt ch.val t }.convert ch raw.toNat).settleHeat t
  let x := s.sensConf ((ch.val + 1) % 64)
  .next (if ch.val < 63 then s.modPw fun p => { p with next := ch.val + 1, conf := x }
    else
      let start := s.pw.start
      ((s.wr F.HK_ROUND.STAMP start).modPw fun p => { p with next := 0, start := start + roundTicks, conf := x }).bootCool)

/-- A TEMPERATURE reading of site `k` (R211, R252, R253, R726, R733). -/
def State.siteTemp (s : State) (k : Nat) (t : Option Nat) : State :=
  let st := s.rd F.PHY_STATUS.SITE k
  if st = 0 ∨ 4 ≤ st then s else
  let s : State := { s with
    stackTemp := tset 0 s.stackTemp k (match t with | some t => t + 2 | none => 1)
    goodTemp := match t with | some t => tset 0 s.goodTemp k t | none => s.goodTemp
    sampleAt := tset 0 s.sampleAt (64 + k) s.now }
  ((s.sense (32 + k) (t.map fun t => (8 * t : Nat)) (s.sensConf (32 + k))).decideHot k).settleHeat s.now

/-- STACK_TEMP_READ (R252, R253, R726): the reading of a site's stack, in °C, or one the stack marks invalid. -/
def execStackTempRead (k : Cluster) (temp : Byte) (valid : Bool) (s : State) : Res :=
  .next (s.siteTemp k (if valid then some temp.toNat else none))

/-- STACK_TEMP_TIMEOUT (R253): no response within 100 µs. -/
def execStackTempTimeout (k : Cluster) (s : State) : Res := .next (s.siteTemp k none)

/-! ### Ask, enforce, shut down (R736 to R741) -/

/-- GRACE_EXPIRY (R736, R737, R749, R750): still at the throttle level when the grace time ends; the slow-down is enforced. A reading in the
tick in which it ends comes first. -/
def execGraceExpiry (s : State) : Res :=
  match s.pw.grace with
  | none => .next s
  | some g =>
    if s.now ≤ g then .next s else
    let i := s.hottest
    let t := sext16 (s.rd F.THM_SENS_READ.TEMP i)
    let s := (((s.setAttn 0x1 false).setAttn 0x2 true).wr F.SNF_STAT.ENFORCED 1).raise F.THM_EVT.ENFORCED
    let s := (s.askNmc true).heatRecord sevRecoverable 0x31 i t (levelCode (s.levels i))
    .next { s.modPw (fun p => { p with grace := none }) with capUsed := [] }

/-- SHUTDOWN_NOTICE_END (R687, R740): the notice time ends; steps 1, 2 and 5 of R687. -/
def execShutdownNoticeEnd (s : State) : Res :=
  match s.pw.notice with
  | none => .next s
  | some t => .next (onlyIf (decide (t ≤ s.now)) ((s.quiesce 1).modPw fun p => { p with notice := none }) s)

/-- PWROFF_REQUEST (R740): every PC is in self-refresh, or 50 ms have passed since the shut-down began. -/
def execPwroffRequest (s : State) : Res :=
  match s.pw.shutAt with
  | none => .next s
  | some t =>
    let due := (s.pw.notice.isNone && s.pcsStill) || decide (t + 60000000 ≤ s.now)
    .next (onlyIf (!s.pw.off && due) ((s.send (.hub .pwroffReq)).modPw fun p => { p with off := true }) s)

/-- THRESHOLD_WRITE (R732, R749, R751): PF0 writes a sensor's thresholds. -/
def execThresholdWrite (i : Fin 44) (v : W32) (s : State) : Res := s.orWait (.thresholdWrite i v) fun s =>
  let shut := bitsOf v 23 16
  let throt := bitsOf v 15 8
  let warn := bitsOf v 7 0
  if s.inBoot then .next s
  else if s.rd F.SNF_TCEIL.SHUT_C < shut ∨ s.rd F.SNF_TCEIL.THROT_C < throt ∨ throt ≤ warn ∨ shut ≤ throt then .next (s.raise F.THM_EVT.REJ)
  else
    let old := (s.reg .THM_SENS_THR i).toNat
    let s := ((s.wr F.THM_SENS_THR.SHUT_C shut i).wr F.THM_SENS_THR.THROT_C throt i).wr F.THM_SENS_THR.WARN_C warn i
    .next (s.auditReg (regOff .THM_SENS_THR i) old (s.reg .THM_SENS_THR i).toNat)

/-! ### PMC's loop (R747) -/

/-- One step of a rail's setpoint: up while a monitor shows less than 8 % margin, else down or not at all, for the lowest setpoint with
that margin is not known to the block; a setpoint not yet written counts from a free value within the window (notes/assumptions/6). -/
def State.stepRail (s : State) (r : Nat) (margins : List Nat) : State :=
  let (v, s) := s.fresh
  let w := s.railWindow r
  let set := s.rd F.PM_RAIL_CFG.VSET_MV r
  let base := if set = 0 then min w.2 (max w.1 (v.toNat / 8 % 65536)) else set
  let next := if margins.any (· < 8) then base + 5
    else if r = 1 ∧ s.bit F.CLOCK_STATUS.NMC_HALF = true ∧ v.getLsbD 1 = true then w.1
    else if v.getLsbD 0 then base - 5 else base
  onlyIf (next != set) ((s.coreField 1 F.PM_RAIL_CFG.VSET_MV next r).sendRail r next) s

/-- PMC_VOLTAGE_STEP (R747): at most one step of VDD_LOGIC and of VDD_NMC in a round, from the margins (in %) the monitors show. -/
def execPmcVoltageStep (marginLogic marginNmc : List Nat) (s : State) : Res :=
  let tag := s.pw.start + 1
  .next (onlyIf (s.pmcUp && s.clk.running && s.pw.stepped != tag)
    (((s.stepRail 0 marginLogic).stepRail 1 marginNmc).modPw fun p => { p with stepped := tag }) s)

end Sys2Proof.Machine
end

