-- ==== Sys2Proof/Machine/Mirror.lean ====
section
/-! DEFINITION. The mirror pair: forming and leaving it, its control messages, mirrored writes at both ends, and the commit of window
sets (chapter "Pairing two complexes"). -/

namespace Sys2Proof.Machine

/-! ### Keys and audit -/

/-- The wrap key of the pair (R754). -/
def State.wrapKey (s : State) : List Byte := kdf (leBytes s.mir.ems 48) (ascii "MYR-PAIR-WRAP") 256

/-- The traffic keys of a secret (R754): of each port, what this block sends and what the partner sends. `first` says that this block has
the lower device-key digest; the port and the direction are a byte each in the label, 0 the direction of the frames that the block with the
lower digest sends (DESIGN CHOICE, notes/assumptions/25). -/
def trafficKeys (secret : BitVec 384) (first : Bool) : Tbl (BitVec 256) :=
  (List.range 4).foldl (fun t i =>
    let dir : Nat := if first then i % 2 else 1 - i % 2
    tset 0 t i (BitVec.ofNat 256 (leNat (kdf (leBytes secret 48) (ascii "MYR-PAIR-TX" ++ [BitVec.ofNat 8 (i / 2), BitVec.ofNat 8 dir]) 256)))) []

/-- The peer digest MIR_PEER holds (R753). -/
def State.peerDigest (s : State) : BitVec 384 :=
  BitVec.ofNat 384 (((List.range 6).map fun i => (s.reg .MIR_PEER i).toNat <<< (64 * i)).sum)

/-- This block has the numerically lower device-key digest (R753). -/
def State.lowerDigest (s : State) : Bool := decide (digestOf (leBytes s.sec.pubKey 97) < s.peerDigest)

/-- A partner's message on port `p` changes a register of this block (R596, R760; notes/assumptions/25). -/
def State.auditMirror (s : State) (p off old new : Nat) : State := onlyIf (old != new) (s.audit 4 p 0 off old new) s

/-- An authenticated frame has arrived (R776). -/
def State.heard (s : State) : State := let now := s.now
  s.modMir fun x => { x with heard := now }

/-- A frame on port `p` is taken: the port carries authenticated frames. -/
def State.onFrame (s : State) (p : Nat) (f : State → State) : State := onlyIf (s.mirUp p) (f s.heard) s

/-- A frame fails authentication, or its LSEQ is not the next (R757): it is discarded and the port is down until its next link-up. -/
def State.authFail (s : State) (p : Nat) : State := onlyIf (s.mirUp p) ((s.incRc F.MIR_STAT.AUTH_FAILS).mirStop p) s

/-! ### Losing and leaving the pair -/

/-- MIR_ACKTS (R764): the largest stamp up to which every tap has been answered OK. -/
def State.ackTs (s : State) : Nat :=
  let open_ := (s.mir.writes.filter fun q => !q.copy).map (·.stamp)
  let open_ := match s.mir.failed with | some t => t :: open_ | none => open_
  match open_ with
  | [] => s.now
  | t :: r => r.foldl min t - 1

/-- MIR_ACKTS keeps its value when the pair ends. -/
def State.holdAck (s : State) : State := s.wr F.MIR_ACKTS.VALUE s.ackTs

/-- The partner is lost (R776): STATE reads LOST, every window in service becomes DIVERGED, and the ports carry no frame. -/
def State.mirLost (s : State) : State :=
  let s := (List.range 16).foldl (fun s w => s.diverge w) (s.holdAck.wr F.MIR_PAIR.STATE 3)
  ((s.modMir fun x => { x with writes := [], sync := [], was := [], back := none, leave := none }).mirStop 0).mirStop 1 |>.syncDegraded

/-- The pair ends by UNPAIR (R779): the windows are IDLE, STATE is UNPAIRED and the pair keys are gone. -/
def State.unpaired (s : State) : State :=
  let s := (List.range 16).foldl (fun s w => s.setWinState w 0) (s.holdAck.wr F.MIR_PAIR.STATE 0)
  let s := (s.wr F.MIR_WCTL.PENDING 0).modMir fun x =>
    { x with writes := [], sync := [], was := [], back := none, leave := none, pend := none, ems := 0, tx := [] }
  ((s.mirStop 0).mirStop 1).syncDegraded

/-- An UNPAIR has drained: every mirrored write sent is answered and no write of the partner is in progress, or 2 µs have passed. -/
def State.mirLeft (s : State) : State :=
  match s.mir.leave with
  | none => s
  | some t => onlyIf (decide (t ≤ s.now) || (s.mir.writes.all (·.st != .sent) && !s.flights.any fun f => f.req == 25 || f.req == 26)) s.unpaired s

/-- UNPAIR begins (R779). -/
def State.beginLeave (s : State) : State := let now := s.now
  (s.modMir fun x => { x with leave := some (now + 2400) }).mirLeft

/-! ### MIR_PAIR.OP (R752, R753, R778, R779, R782) -/

/-- PF0 writes OP: carried out in its states, else RESULT reads BAD_STATE. -/
def State.pairOp (s : State) (op : Nat) (ok : Bool) (run : State → State) : State :=
  if s.inBoot then s else
  let old := (s.reg .MIR_PAIR).toNat
  let s := s.audit 1 0 0 0x3800000 old (old % 2 ^ 24 + op <<< 24 + old >>> 26 <<< 26)
  if ok then run (s.wr F.MIR_PAIR.RESULT 0) else s.wr F.MIR_PAIR.RESULT 2

/-- PAIR (R752, R753): forming begins, when a package link is up. -/
def execPair (s : State) : Res := s.orWait .pair fun s =>
  .next (s.pairOp 1 (s.rd F.MIR_PAIR.STATE == 0) fun s =>
    if s.mir.link.isEmpty then s.wr F.MIR_PAIR.RESULT 3 else s.wr F.MIR_PAIR.STATE 1)

/-- PAIR_FORMED (R753 to R755, R759, R777): the sessions of both SECs are up, or a certificate or digest does not match. -/
def execPairFormed (ok : Bool) (peerDigest : BitVec 384) (s : State) : Res :=
  let st := s.rd F.MIR_PAIR.STATE
  if !(st == 1 || (st == 2 && s.mir.back.isSome)) || !s.secUp || s.mir.link.isEmpty then .next s
  else if !ok || peerDigest != s.peerDigest then
    .next ((s.unpaired).wr F.MIR_PAIR.RESULT 1)
  else
    let now := s.now
    let ems := Config.pairSecret s.free
    let s := ((s.wr F.MIR_PAIR.STATE 2).wr F.MIR_PAIR.RESULT 0).wr F.MIR_PAIR.VER (s.rd F.GLOBAL_PROTO.MIRROR_PROTO)
    let s : State := { s with free := s.free + 1, mir := { s.mir with
      ems := ems, tx := trafficKeys ems s.lowerDigest, frames := [], stateTx := 0, stateRx := 0, early := [], sent := [], probes := [], heard := now, probeAt := now
      heartAt := now, back := none, leave := none, failed := none, image := MirImage.blank
      writes := s.mir.writes.map fun q => if q.st == .sent then { q with st := .queued } else q } }
    let s : State := s.mir.link.foldl (fun (s : State) p => s.mirStart p) s
    .next (s.resumeWins.syncDegraded.mirPump)

/-- UNPAIR (R779). -/
def execUnpair (s : State) : Res := s.orWait .unpair fun s =>
  .next (s.pairOp 2 s.paired fun s => ((s.sendFrame 0 (.down 2)).sendFrame 1 (.down 2)).beginLeave)

/-- A key of the partner image enters a FREE slot of the tenant it maps to (R778, R576); one that finds no slot, or does not unwrap, is
skipped and named in a record. -/
def State.adoptKey (s : State) (slot : Nat) (owner : Nat) (w : BitVec 576) : State :=
  match s.mapTenant owner with
  | none => s
  | some t =>
    let skip : State := s.record { ErrRec.make s.now sevRecoverable 0x25 0xFF with tenant := t, detail := leBytes (BitVec.ofNat 16 slot) 2 }
    match kwUnwrap s.wrapKey (leBytes w 72), s.slotFor t with
    | some pair, some i => if pair.take 32 = pair.drop 32 then skip else s.newKey (Origin.core 0) i t (BitVec.ofNat 512 (leNat pair))
    | _, _ => skip

/-- The partner's last audit head enters the chain with OKIND 4 (R778; notes/assumptions/25): its SEQ, and its 48 bytes. -/
def State.adoptHead (s : State) : State :=
  match s.mir.image.head with
  | none => s
  | some h =>
    (List.range 6).foldl (fun s i => s.audit 4 0 0 (0x3800130 + 8 * i) 0 (bitsOf h.head (64 * i + 63) (64 * i)))
      (s.audit 4 0 0 0x3800128 0 h.seq.toNat)

/-- TAKEOVER (R778). -/
def execTakeover (s : State) : Res := s.orWait .takeover fun s =>
  .next (s.pairOp 3 (s.rd F.MIR_PAIR.STATE == 3) fun s =>
    let s := s.adoptHead
    let s : State := if s.mirVer < 2 then s else s.mir.image.keys.foldl (fun (s : State) e => match e.2 with
      | none => s
      | some k => [k.half0, k.half1].foldl (fun (s : State) h => match h with
          | some w => s.adoptKey e.1 k.owner w
          | none => s) s) s
    ((s.wr F.MIR_PAIR.STATE 0).modMir fun x => { x with ems := 0, tx := [] }).syncDegraded)

/-- PARTNER_LOSS (R776, R777, R781): no frame for LOSS_US, or a partner in warm reset has not come back in time; a frame in the last tick of
that time counts. -/
def execPartnerLoss (s : State) : Res :=
  let due := match s.mir.back with
    | some t => decide (t < s.now)
    | none => decide (s.mir.heard + usTicks (s.rd F.MIR_CFG.LOSS_US) < s.now)
  .next (onlyIf (s.paired && due) s.mirLost s)

/-- PAIR_KEY_UPDATE (R754): SEC derives new traffic keys, from a secret that the KEY_UPDATE gives (notes/assumptions/8). -/
def execPairKeyUpdate (s : State) : Res :=
  let tx := trafficKeys (Config.keyUpdate s.mir.ems s.free) s.lowerDigest
  .next (onlyIf (s.paired && s.secUp) { s.modMir fun x => { x with frames := [], tx := tx } with free := s.free + 1 } s)

/-! ### Control messages (R755, R758, R772, R774 to R777) -/

/-- HELLO (R14, R755, R775). -/
def execHello (port : Fin 2) (proto : Byte) (width : Fin 8) (s : State) : Res :=
  .next (s.onFrame port fun s =>
    let own := s.rd F.GLOBAL_PROTO.MIRROR_PROTO
    let old := (s.reg .MIR_PAIR).toNat
    let v := min own proto.toNat
    let s := s.wr F.MIR_PAIR.VER v
    let s := s.auditMirror port 0x3800000 old (s.reg .MIR_PAIR).toNat
    let s := (List.range 2).foldl (fun s p => onlyIf (s.mirUp p)
      ((s.setReg .PORT_CAP (25 + p) 0 (ownDesc (25 + p) v)).setEff (25 + p) (ownDesc (25 + p) v)) s) s
    let old := (s.reg .MIR_PORT port).toNat
    let s := s.wr F.MIR_PORT.PWIDTH width.val port
    let s := s.auditMirror port (0x3800010 + 4 * port.val) old (s.reg .MIR_PORT port).toNat
    let mine := s.rd F.MIR_PORT.WIDTH port
    let s := onlyIf (width.val != mine) (s.send (.hub (.width (25 + port.val) (min mine width.val)))) s
    s.mirWidths.syncDegraded.mirPump)

/-- HEART (R776). -/
def execHeart (port : Fin 2) (s : State) : Res := .next (s.onFrame port id)

/-- DOWN (R776, R777, R779): cause 0 a warm reset, 1 a shut-down, 2 UNPAIR (notes/assumptions/25). -/
def execDown (port : Fin 2) (cause : Fin 4) (s : State) : Res :=
  .next (s.onFrame port fun s =>
    if cause = 0 then
      let t := s.now + 17880000 + usTicks (s.rd F.MIR_CFG.LOSS_US)
      (((s.pauseWins.modMir fun x => { x with back := some t }).mirStop 0).mirStop 1).syncDegraded
    else if cause = 1 then s.mirLost
    else if cause = 2 then s.beginLeave
    else s)

/-- PROBE (R774): answered at once. -/
def execProbe (port : Fin 2) (t1 : W64) (s : State) : Res :=
  .next (s.onFrame port fun s => s.sendFrame port (.probeReply t1.toNat s.now s.now))

/-- PROBE_REPLY (R774): of the last 16 probes, the one with the smallest delay sets MIR_TSOFF and MIR_TSERR. -/
def execProbeReply (port : Fin 2) (t1 t2 t3 : W64) (s : State) : Res :=
  .next (s.onFrame port fun s =>
    let a : Int := t1.toNat
    let b : Int := t2.toNat
    let c : Int := t3.toNat
    let d : Int := s.now
    let s := s.modMir fun x => { x with probes := (x.probes ++ [((b - a) + (c - d), (d - a) - (c - b))]).drop (x.probes.length - 15) }
    match s.mir.probes with
    | [] => s
    | p :: r =>
      let m := r.foldl (fun (m : Int × Int) q => if q.2 < m.2 then q else m) p
      (s.setReg .MIR_TSOFF 0 0 (BitVec.ofInt 64 (Int.tdiv m.1 2))).setReg .MIR_TSERR 0 0 (BitVec.ofInt 64 ((m.2 + 1) / 2)))

/-- PROBE_SEND (R758, R774): every 1 ms, on each port. -/
def execProbeSend (s : State) : Res :=
  let now := s.now
  .next (onlyIf (s.paired && decide (s.mir.probeAt + 1200000 ≤ now))
    (((s.sendFrame 0 (.probe now)).sendFrame 1 (.probe now)).modMir fun x => { x with probeAt := now }) s)

/-- HEART_SEND (R758): every 100 µs, on each port. -/
def execHeartSend (s : State) : Res :=
  let now := s.now
  .next (onlyIf (s.paired && decide (s.mir.heartAt + 120000 ≤ now))
    (((s.sendFrame 0 .heart).sendFrame 1 .heart).modMir fun x => { x with heartAt := now }) s)

/-- An epoch is newer than another in serial order modulo 2^16 (R772). -/
def newerEpoch (a b : Nat) : Bool := let d := (a + 65536 - b % 65536) % 65536
  decide (1 ≤ d ∧ d < 32768)

/-- MIR_PEPOCH takes a newer epoch (R772). -/
def State.takeEpoch (s : State) (p e : Nat) : State :=
  let old := s.rd F.MIR_PEPOCH.EPOCH
  onlyIf (newerEpoch e old) ((s.wr F.MIR_PEPOCH.EPOCH e).auditMirror p 0x3800104 old e) s

/-- EPOCH (R771, R772): the partner has committed a window set. -/
def execEpoch (port : Fin 2) (ep : BitVec 16) (set : List (Nat × Nat × Nat × Nat)) (s : State) : Res :=
  .next (s.onFrame port fun s =>
    let newer := newerEpoch ep.toNat (s.rd F.MIR_PEPOCH.EPOCH)
    let s := s.takeEpoch port ep.toNat
    onlyIf newer (s.modMir fun x => { x with image := { x.image with wins := set, winEpoch := ep.toNat } }) s)

/-! ### Mirrored control state (R759, R760) -/

/-- Applies an item to the partner image; its audit head shows in MIR_PSEQ and MIR_PHEAD (R782). -/
def State.applyItem (s : State) (i : MirItem) : State :=
  let img (f : MirImage → MirImage) : State := s.modMir fun x => { x with image := f x.image }
  match i with
  | .plot n e => img fun g => { g with plots := tset 0 g.plots n e }
  | .binding t c => img fun g => { g with binds := tset 0 g.binds t c.toNat }
  | .tenant t d => img fun g => { g with tenants := tset none g.tenants t.toNat d }
  | .repair k m => img fun g => { g with repair := tset [] g.repair k m }
  | .auditHead q t h =>
    let s := (img fun g => { g with head := some ⟨q, t, h⟩ }).setReg .MIR_PSEQ 0 0 q
    (List.range 6).foldl (fun s j => s.setReg .MIR_PHEAD j 0 (h.extractLsb' (64 * j) 64)) s
  | .history b h u => img fun g => { g with history := some ⟨b, h, u⟩ }
  | .windows e ws => img fun g => { g with wins := ws, winEpoch := e.toNat }
  | .key k o st a b => img fun g => { g with keys := tset none g.keys k (some ⟨o.toNat, st, a, b⟩) }

/-- Applies the items that are next in sequence, of those that have come. -/
def State.applyEarly : Nat → State → State
  | 0, s => s
  | n + 1, s =>
    match s.mir.early.find? (·.1 == s.mir.stateRx) with
    | none => s
    | some e => applyEarly n ((s.applyItem e.2).modMir fun x =>
        { x with stateRx := x.stateRx + 1, early := x.early.filter (·.1 != e.1) })

/-- STATE (R759): items are applied in sequence order, whichever port they come on. -/
def execStateMessage (port : Fin 2) (seq stamp : W64) (item : MirItem) (s : State) : Res :=
  let _ := stamp
  .next (s.onFrame port fun s =>
    if seq.toNat < s.mir.stateRx ∨ s.mir.early.any (·.1 == seq.toNat) = true then s else
    let s := s.modMir fun x => { x with early := x.early ++ [(seq.toNat, item)] }
    s.applyEarly s.mir.early.length)

/-- What an item is about: its kind and index. -/
def itemKey : MirItem → Nat × Nat
  | .plot i _ => (0, i)
  | .binding t _ => (1, t)
  | .tenant t _ => (2, t.toNat)
  | .repair k _ => (3, k)
  | .auditHead _ _ _ => (4, 0)
  | .history _ _ _ => (5, 0)
  | .windows _ _ => (6, 0)
  | .key i _ _ _ _ => (7, i)

/-- The indices of a kind to report: those a table lists, and those reported before. -/
def State.itemIx (s : State) (kind : Nat) (ixs : List Nat) : List Nat :=
  ixs ++ ((s.mir.sent.filter fun i => (itemKey i).1 == kind && !ixs.contains (itemKey i).2).map fun i => (itemKey i).2)

/-- A tenant of this block that the partner has a tenant for (R760). -/
def State.isMapped (s : State) (t : Nat) : Bool :=
  t == 0 || (s.tenant t).any fun x => s.mir.image.tenants.any fun e => e.2 == some x.digest

/-- A list of windows as EPOCH and STATE carry it: window, BASE and PBASE, 64 KiB units. -/
def winList (ws : List MirWin) : List (Nat × Nat × Nat × Nat) :=
  (ws.zipIdx.filter fun e => e.1.en).map fun e => (e.2, e.1.base, e.1.pbase, e.1.units)

/-- The items of R759 as they stand. -/
def State.mirItems (s : State) : List MirItem :=
  let wk := s.wrapKey
  let wrap (h : Option (BitVec 512 × Byte)) : Option (BitVec 576) := h.map fun k => BitVec.ofNat 576 (leNat (kwWrap wk (leBytes k.1 64)))
  let code (b : Bind) : Nat := b.bound.toNat * 2 ^ 31 + b.offered.toNat * 2 ^ 30 + b.offerTenant * 256 + b.tenant
  let keys := if s.mirVer < 2 then [] else
    (s.itemIx 7 ((s.sec.slots.filter fun e => s.isMapped e.2.owner).map (·.1))).map fun i =>
      let k := s.slot i
      if s.isMapped k.owner then MirItem.key (Fin.ofNat 272 i) (BitVec.ofNat 8 k.owner) (Fin.ofNat 5 k.state.code) (wrap k.half0) (wrap k.half1)
      else MirItem.key (Fin.ofNat 272 i) 0 0 none none
  (s.itemIx 0 (s.plots.map (·.1))).map (fun i => MirItem.plot (Fin.ofNat 4096 i) (s.plot i).word) ++
    (s.itemIx 1 (s.sec.binds.map (·.1))).map (fun t => MirItem.binding (Fin.ofNat 256 t) (BitVec.ofNat 32 (code (s.bind t)))) ++
    (s.itemIx 2 (s.sec.tenants.map (·.1))).map (fun t => MirItem.tenant (BitVec.ofNat 8 t) ((s.tenant t).map (·.digest))) ++
    s.sites.map (fun k => MirItem.repair (Fin.ofNat 12 k) ((List.range 64).map (fun p => s.reg .CLU_PCMAP k p) ++
      [s.reg .CLU_PCRET k, s.reg .CLU_PCSPARE k] ++ (List.range 64).map fun p => s.reg .PHY_REPAIR k p)) ++
    [MirItem.auditHead (s.reg .AUDIT_SEQ) (BitVec.ofNat 64 s.sec.headStamp) s.sec.head,
     MirItem.history (BitVec.ofNat 64 s.histFlash.boots) (BitVec.ofNat 64 s.histFlash.hours) ((List.range 6).flatMap fun c =>
       [(s.histFlash.units.filter fun u => u.cls == c && !u.permanent).length, (s.histFlash.units.filter fun u => u.cls == c && u.permanent).length]),
     MirItem.windows (BitVec.ofNat 16 (s.rd F.MIR_WCTL.EPOCH)) (winList ((List.range 16).map s.actWin))] ++ keys

/-- Sends every item that differs from what was last sent (R759). -/
def State.sendItems (s : State) : State :=
  if !s.paired || !(s.mirUp 0 || s.mirUp 1) then s else
  let items := s.mirItems
  let changed := items.filter fun i => !s.mir.sent.contains i
  let s : State := changed.foldl (fun (s : State) i => (s.sendControl (.state s.mir.stateTx s.now i)).modMir fun x =>
    { x with stateTx := x.stateTx + 1 }) s
  s.modMir fun x => { x with sent := items }

/-! ### Mirrored writes (R765 to R768, R772, R773) -/

/-- DATA_REQUEST (R757, R766, R772): a mirrored write of the partner's window, under its epoch, for a plot whose OWNER there is the
given tenant. A frame with a good HCRC has the beats of its opcode (notes/assumptions/2). -/
def execDataRequest (port : Fin 2) (authOk : Bool) (window : Fin 16) (ep : BitVec 16) (owner : Byte) (k : Cluster) (m : Msg) (s : State) : Res :=
  if hcrcOk m.hdr && !frameWf m then .next s
  else if !authOk then .next (s.authFail port)
  else .next (s.onFrame port fun s =>
    let s := s.takeEpoch port ep.toNat
    let stale := newerEpoch (s.rd F.MIR_PEPOCH.EPOCH) ep.toNat
    s.arrive k (25 + port.val) 0 (.mirror window owner.toNat) m stale)

/-- A write held or unsent is translated by the active set (R771, R773): queued again, or dropped where no window in service has it. -/
def State.retranslate (s : State) (q : MirWrite) : State :=
  match s.winOf q.pa with
  | some w =>
    let s := onlyIf (q.st == .stale) (s.incRc F.MIR_STAT.STALE) s
    s.modMir fun x => { x with writes := x.writes.map fun o => if o.n == q.n then { o with st := .queued, w := w } else o }
  | none => s.modMir fun x => { x with writes := x.writes.filter (·.n != q.n) }

/-- The reply to a mirrored write (R764, R767, R773). -/
def State.mirReply (s : State) (q : MirWrite) (result : Nat) : State :=
  let setSt (st : MirSt) : State := s.modMir fun x => { x with writes := x.writes.map fun o => if o.n == q.n then { o with st := st } else o }
  if result = rOK then s.modMir fun x => { x with writes := x.writes.filter (·.n != q.n) }
  else if result = rSTALE then
    let s := setSt .stale
    if s.mir.pend.isSome then s else s.retranslate { q with st := .stale }
  else
    let was := s.winState q.w
    let s := (s.modMir fun x => { x with writes := x.writes.filter (·.n != q.n) }).missTap q.stamp
    onlyIf (was != 0 && was != 4)
      (((s.diverge q.w).incRc F.MIR_STAT.DIVERGES).record
        { ErrRec.make s.now sevRecoverable 0x25 0xFF with result := result, pa := q.pa, detail := [BitVec.ofNat 8 q.w] }) s

/-- A mirror port receives a reply whose GEN is not its tag's present one (R126). -/
def State.lateMirror (s : State) (p : Nat) : State :=
  (s.incRc F.PORT_TMO.LATE_DROP (25 + p)).record { ErrRec.make s.now sevInfo 0x14 0xFF with req := 25 + p }

/-- DATA_REPLY (R126, R757, R767, R773): a reply that matches no write sent is dropped, and counted where its tag has another GEN by now. -/
def execDataReply (port : Fin 2) (authOk : Bool) (tag : Nat) (gen result : Fin 16) (s : State) : Res :=
  if !authOk then .next (s.authFail port)
  else .next (s.onFrame port fun s =>
    match s.mir.writes.find? fun q => q.st == .sent && q.port == port.val && q.tag == tag && q.gen == gen.val with
    | none => onlyIf (tget 0 s.mir.gens (4096 * port.val + tag) != gen.val) (s.lateMirror port.val) s
    | some q => ((s.mirReply q result).syncDegraded.mirPump).mirLeft)

/-- MIRROR_PORT_SWITCH (R768, R781): a port is down; its unanswered writes are resent through the other, in tap order. -/
def execMirrorPortSwitch (p : Fin 2) (s : State) : Res :=
  .next (onlyIf (s.paired && !s.mirUp p) (s.modMir fun x => { x with
    writes := x.writes.map fun q => if q.st == .sent && q.port == p.val then { q with st := .queued } else q }).mirPump s)

/-! ### Window sets (R761, R769, R771, R781) -/

/-- Where two windows of a set overlap. -/
def MirWin.meets (a b : MirWin) : Bool :=
  a.en && b.en && decide (a.base < b.base + b.units * 65536) && decide (b.base < a.base + a.units * 65536)
/-- A window reaches past the plots it may cover, on either side: plot indices from 0xFFA on, or 2^40. -/
def MirWin.tooFar (w : MirWin) : Bool :=
  w.en && decide (0 < w.units) && (decide (0xFFA0000000 < w.base + w.units * 65536) || decide (0xFFA0000000 < w.pbase + w.units * 65536))

/-- Why a commit is refused (R761). -/
def State.winsBad (s : State) : Bool :=
  let ws := (List.range 16).map s.shadowWin
  !s.paired || s.bit F.MIR_WCTL.PENDING || ws.any MirWin.tooFar ||
    (List.range 16).any (fun i => (List.range i).any fun j => (s.shadowWin i).meets (s.shadowWin j)) ||
    (s.mirVer == 1 && (List.range 8).any fun i => (s.shadowWin (8 + i)).en)

/-- MIR_WINDOW_COMMIT (R761, R771, R781): PF0 writes COMMIT; EPOCH goes out on both ports and taps are held, those of its own tick
among them. -/
def execMirWindowCommit (s : State) : Res := s.orWait .mirWindowCommit fun s =>
  if s.inBoot then .next s else
  let old := (s.reg .MIR_WCTL).toNat
  let s := s.audit 1 0 0 0x3800100 old (old % 2 ^ 31 + 2 ^ 31)
  if s.winsBad then .next (s.raise F.MIR_WCTL.REJ) else
  let ws := (List.range 16).map s.shadowWin
  let e := (s.rd F.MIR_WCTL.EPOCH + 1) % 65536
  let now := s.now
  let s := (s.wr F.MIR_WCTL.PENDING 1).modMir fun x => { x with
    pend := some ws, commitAt := now,
    writes := x.writes.map fun q => if q.stamp == now && q.st == .queued && !q.copy then { q with st := .held } else q }
  .next ((s.sendFrame 0 (.epoch e (winList ws))).sendFrame 1 (.epoch e (winList ws)))

/-- Window `w` of the new set takes effect (R769, R781): a DIVERGED window needs SYNC = 1; version 1 has no copy pass (R755). -/
def State.applyWin (s : State) (w : Nat) (n : MirWin) : State :=
  let st := s.winState w
  let sync := n.sync && s.mirVer != 1
  let next := if st = 4 ∧ !(n.en && n.sync) then 4 else if !n.en then 0 else if sync then 1 else 2
  let s := ((s.wr F.MIR_ACT_BASE.ADDR (n.base / 65536) w).wr F.MIR_ACT_PBASE.ADDR (n.pbase / 65536) w).wr F.MIR_ACT_SIZE.UNITS n.units w
  let s := ((s.wr F.MIR_ACT_CTL.EN n.en.toNat w).wr F.MIR_ACT_CTL.SYNC n.sync.toNat w).modMir fun x => { x with sync := tset 0 x.sync w 0 }
  if st = 3 ∧ (next = 1 ∨ next = 2) then s.modMir fun x => { x with was := tset 0 x.was w next }
  else (s.setWinState w next).modMir fun x => { x with was := tset 0 x.was w 0 }

/-- MIR_WINDOW_APPLY (R771, R773): every mirrored write of the old epoch is answered, or 2 µs have passed since the commit. -/
def execMirWindowApply (s : State) : Res :=
  match s.mir.pend with
  | none => .next s
  | some ws =>
    let drained := s.mir.writes.all fun q => q.st == .held || q.st == .stale
    if !drained && decide (s.now < s.mir.commitAt + 2400) then .next s else
    let s := ((s.wr F.MIR_WCTL.PENDING 0).incWrap F.MIR_WCTL.EPOCH).modMir fun x => { x with pend := none }
    let s : State := ws.zipIdx.foldl (fun (s : State) e => s.applyWin e.2 e.1) s
    let s : State := (s.mir.writes.filter fun q => q.st != .sent).foldl (fun (s : State) q => s.retranslate q) s
    .next (s.mirWidths.syncDegraded.mirPump)

/-- The copy pass of a SYNCING window (R769): the next line, while the mirror queue of its cluster has room. A line with no readable data
(of a plot without a key, or a poison line) is passed over. A read is an ACT of requester 39, which waits for CCCk and for its PC (R206, R222,
R706). -/
def State.syncLine (s : State) (w : Nat) : State :=
  let n := tget 0 s.mir.sync w
  let win := s.actWin w
  let pa := win.base + 64 * n
  if s.winState w ≠ 1 ∨ s.mir.pend.isSome = true ∨ win.units * 1024 ≤ n then s else
  let p := s.plot (pa >>> 28 % 4096)
  let l := s.locRead pa p
  let k := l.k
  let live := p.state == .openPlot || p.state == .sealed || p.state == .retired
  if !s.mirRoom k 1 || (live && !(s.cccUp k && s.mayAct k l.pc)) then s else
  let s := onlyIf live (s.onAct k l.pc l.sid l.bank l.row 39) s
  let s := s.modMir fun x => { x with sync := tset 0 x.sync w (n + 1) }
  match if live then s.blockRead pa else none with
  | none => s
  | some d => (s.addMirror k w pa p.owner [d] true .queued).mirPump

/-- One line of each copy pass. -/
def State.syncLines (s : State) : State := if !s.paired then s else (List.range 16).foldl (fun s w => s.syncLine w) s

/-- SYNC_PASS_DONE (R769): every line has been copied and every copy answered OK. -/
def execSyncPassDone (w : Fin 16) (s : State) : Res :=
  .next (onlyIf (s.paired && s.winState w == 1 && decide ((s.actWin w).units * 1024 ≤ tget 0 s.mir.sync w) &&
      !s.mir.writes.any fun q => q.copy && q.w == w.val) (s.setWinState w 2) s)

end Sys2Proof.Machine
end

