-- ==== Sys2Proof/Machine/Counting.lean ====
section
/-! DEFINITION. Counting and watching (chapter "Counting and watching"): snapshot, freeze, the programmable counters, a tenant's
COUNTERS; and the audit engine's append (R598). -/

namespace Sys2Proof.Machine

/-! ### Snapshot and freeze (R792 to R796) -/

/-- T (R792): the first multiple of 64 ticks at least 64 ticks away. -/
def State.takeAt (s : State) : Nat := (s.now + 127) / 64 * 64

/-- SNAP (R792, R794, R797): PF0 writes SNAP. -/
def execSnap (s : State) : Res := s.orWait .snap fun s =>
  if s.inBoot then .next s
  else if s.bit F.PMU_CTL.BUSY then .next (s.raise F.PMU_CTL.SNAP_REJ)
  else
    let old := (s.reg .PMU_CTL).toNat
    let t := s.takeAt
    .next ({ s.wr F.PMU_CTL.BUSY 1 with pmus := { s.pmus with snapAt := some t } }.audit 1 0 0 0x3C00000 old (old + 2 ^ 31))

/-- The counters of R784 and their shadows, with the index ranges of each family. -/
def shadowed : List (RegName × RegName) :=
  [(RegName.PMU_PC, RegName.PMU_SH_PC), (RegName.PMU_AES, RegName.PMU_SH_AES), (RegName.PMU_ARB, RegName.PMU_SH_ARB),
   (RegName.PMU_CTX, RegName.PMU_SH_CTX), (RegName.PMU_LNT_CYCLE, RegName.PMU_LNT_SHCYCLE), (RegName.PMU_LNT_CNT, RegName.PMU_LNT_SHCNT),
   (RegName.PMU_BLK_CYCLE, RegName.PMU_BLK_SHCYCLE), (RegName.PMU_BLK_CNT, RegName.PMU_BLK_SHCNT)]

/-- Every shadow of a family takes its counter's value at the beginning of T (R793). -/
def State.copyShadow (s : State) (a b : RegName) : State :=
  (List.range a.desc.iN).foldl (fun s i => (List.range (a.desc.jN * a.desc.lN)).foldl
    (fun s j => s.setReg b i j (tget (a.reset i j) s.pmus.stash (regKey a i j))) s) s

/-- SNAPSHOT_TAKE (R793, R796): at T; the shadows hold no event of T itself, in whatever order the commands of T come. -/
def execSnapshotTake (s : State) : Res :=
  match s.pmus.snapAt with
  | none => .next s
  | some t =>
    if s.now < t then .next s else
    let s : State := shadowed.foldl (fun (s : State) e => s.copyShadow e.1 e.2) s
    .next { (s.wr F.PMU_SNAPTS.STAMP t).wr F.PMU_CTL.BUSY 0 with pmus := { s.pmus with snapAt := none, stash := [] } }

/-- FREEZE_WRITE (R792, R797, R800): PF0 writes FREEZE. -/
def execFreezeWrite (b : Bool) (s : State) : Res := s.orWait (.freezeWrite b) fun s =>
  if s.inBoot then .next s else
  let old := (s.reg .PMU_CTL).toNat
  let t := s.takeAt
  let s := (s.wr F.PMU_CTL.FREEZE b.toNat).auditReg 0x3C00000 old (s.wr F.PMU_CTL.FREEZE b.toNat |>.reg .PMU_CTL).toNat
  .next { s with pmus := { s.pmus with frzAt := some (t, b) } }

/-- FREEZE_APPLY (R795, R796): at T, after a snapshot of the same T. -/
def execFreezeApply (s : State) : Res :=
  match s.pmus.frzAt with
  | none => .next s
  | some (t, b) =>
    if s.now < t || s.pmus.snapAt.any (fun u => decide (u ≤ t)) then .next s else
    .next { (s.wr F.PMU_CTL.FROZEN b.toNat).wr F.PMU_FREEZETS.STAMP t with pmus := { s.pmus with frzAt := none } }

/-! ### Programmable counters (R788 to R791) -/

/-- The selector and counter registers of a unit: 0 to 11 the Lanterns, 12 Lamplighter, 13 + n core n. -/
def selReg (u : Nat) : RegName := if u < 12 then .PMU_LNT_SEL else .PMU_BLK_SEL
def cntReg (u : Nat) : RegName := if u < 12 then .PMU_LNT_CNT else .PMU_BLK_CNT
def cycleReg (u : Nat) : RegName := if u < 12 then .PMU_LNT_CYCLE else .PMU_BLK_CYCLE
def unitIx (u : Nat) : Nat := if u < 12 then u else u - 12

/-- PMU_SEL_WRITE (R23, R789, R801): SELi is written and CNTi clears; CTX is reserved outside the Lanterns. -/
def execPmuSelWrite (u : Fin 28) (i : Fin 8) (v : W32) (s : State) : Res := s.orWait (.pmuSelWrite u i v) fun s =>
  if s.inBoot then .next s else
  let r := selReg u
  let x := unitIx u
  let old := (s.reg r x i).toNat
  let ctx := if u.val < 12 then bitsOf v 23 16 else old >>> 16 % 256
  let new := bitsOf v 31 30 <<< 30 + ctx <<< 16 + bitsOf v 7 0
  let clears := (s.reg (cntReg u) x i).toNat != 0
  let s := (s.setReg r x i (BitVec.ofNat 64 new)).setReg (cntReg u) x i 0
  let s := onlyIf (old != new || clears) (s.audit 1 0 0 (regOff r x i) old new) s
  .next { s with pmus := { s.pmus with fresh := s.pmus.fresh ++ [u.val * 8 + i.val] } }

/-- What LNT_CTXc.STATE shows (R305, R347): a RUNNING or WAITING context that the gate stops is SUSPENDED; one being cleared reads IDLE. -/
def State.ctxShow (s : State) (j c : Nat) : Nat :=
  let x := s.ctx j c
  let open_ := match x.job with | some b => s.lanternAdmits b.tenant s.now | none => true
  match x.st with
  | .idle => 0
  | .running => if open_ then 1 else 3
  | .waiting => if open_ then 2 else 3
  | .held => 4
  | .draining => 5

/-- Lantern events that count only for the contexts of SELi.CTX (R790). -/
def ctxEvent (e : Nat) : Bool := [0x00, 0x01, 0x06, 0x07, 0x09, 0x0A, 0x0B, 0x0F].contains e

/-- Conditions of a unit that hold over a cycle (R790). The store ports and the cores' own events leave no trace in State. -/
def State.pmuLevel (s : State) (u e mask : Nat) : Bool :=
  if u < 12 then
    let some_ (st : Nat) : Bool := (List.range 8).any fun c => nbit mask c && s.ctxShow u c == st
    let busy (a : Nat) : Bool := (tget none (s.lnt u).arrs a).isSome
    let path (p : Nat) : Bool := (s.lnt u).reqs.any fun q => q.path == p && q.op == opRD
    if e = 0x02 then (s.serving u).all busy
    else if e = 0x03 then !(List.range 52).any busy
    else if e = 0x08 then (s.lnt u).ctxs.any fun x => match x.op with
      | .data d => d.chunks.any fun ch => match ch.st with
        | .replay _ _ => true
        | .index => false | .fetch => false | .compute => false | .verdict _ => false | .collect _ => false | .writing => false
      | .none => false | .wait _ => false | .load _ => false | .sema _ => false | .full _ => false | .fence _ _ => false | .test _ => false
    else if e = 0x09 then some_ 2 else if e = 0x0A then some_ 3 else if e = 0x0B then some_ 4
    else if e = 0x0C then path 0 else if e = 0x0D then path 1
    else if e = 0x11 then decide (64 ≤ s.posyLines u)
    else if e = 0x12 then (List.range 52).any fun a => s.role u a == 2
    else e == 0x13 && s.bit F.CLOCK_STATUS.NMC_HALF
  else if u = 12 then
    if e = 0x03 then decide (256 ≤ s.rings.entries.length)
    else if e = 0x04 then s.rings.entries.any fun y => y.checked && !s.lntsUp.any fun j => !(s.idleCtxs j).isEmpty
    else if e = 0x06 then (List.range 12).any fun k => decide (256 ≤ s.fifoLen k)
    else e == 0x08 && (List.range 64).any fun r => s.ringSt r == ringPaused
  else false

/-- The condition of an event in the present cycle (R788, R790). -/
def State.pmuCond (s : State) (u e mask : Nat) : Bool :=
  s.pmus.evs.any (fun v => v.1 == u && v.2.1 == e && (decide (12 ≤ u) || !ctxEvent e || nbit mask v.2.2)) || s.pmuLevel u e mask

/-- One cycle of a unit ends (R784, R788, R789): CYCLE, and the counters whose condition holds. -/
def State.sampleUnit (s : State) (u : Nat) (cycle : Bool) : State :=
  let x := unitIx u
  let s := onlyIf cycle (s.pmu (cycleReg u) x 0 1) s
  let now := upTo 8 fun i => let w := (s.reg (selReg u) x i).toNat
    nbit w 31 && s.pmuCond u (w % 256) (w >>> 16 % 256)
  let counts := now.filter fun i => !s.pmus.fresh.contains (u * 8 + i) && (nbit (s.reg (selReg u) x i).toNat 30 || !s.pmus.prev.contains (u * 8 + i))
  let s := counts.foldl (fun s i => s.pmu (cntReg u) x i 1) s
  { s with pmus := { s.pmus with
      prev := s.pmus.prev.filter (fun n => n / 8 != u) ++ now.map (u * 8 + ·)
      fresh := s.pmus.fresh.filter fun n => n / 8 != u
      evs := s.pmus.evs.filter fun v => v.1 != u } }

/-- A CLK_NMC cycle of a Lantern's contexts ends (R791). -/
def State.countCtxs (s : State) (j : Nat) : State :=
  (List.range 8).foldl (fun s c =>
    let v := s.ctxShow j c
    if v = 1 then s.pmuCtx j c 5 1 else if v = 2 then s.pmuCtx j c 6 1 else if v = 3 ∨ v = 4 then s.pmuCtx j c 7 1 else s) s

/-- Every unit whose cycle ends with the present tick: Lamplighter's, the Lanterns' where the next tick begins a CLK_NMC cycle, and the
cores' (1.25 ticks a cycle). -/
def State.sampleUnits (s : State) : State :=
  let s := s.sampleUnit 12 true
  let next : State := { s with clk := { s.clk with now := s.clk.now + 1 } }
  let s := onlyIf next.nmcEdge (allLanterns.foldl (fun s j => (s.countCtxs j).sampleUnit j true) s) s
  onlyIf (decide (s.now * 4 / 5 < (s.now + 1) * 4 / 5))
    ((List.range 15).foldl (fun s c => s.sampleUnit (13 + c) (s.coreSt c == coreRunning)) s) s

/-- What a PC and its AES pipeline count by ticks (R786, R787): the staging buffer full, drain mode, no command with a read queued, the data
bus, TRAINING, FROZEN and the residencies, in CLK_PHY ticks. -/
def State.countPc (s : State) (k p : Nat) : State :=
  let pc := s.live k p
  let a := s.phy k s.now
  let d := s.phy k (s.now + 1) - a
  let inTick (t : Nat) : Bool := decide (a ≤ t) && decide (t < a + d)
  let cmds := (pc.slots.filter fun e => inTick (s.colOf k e)).length +
    (pc.acts.filter fun e => inTick e.1).length
  let s := onlyIf pc.drain (s.pmuPc k p 17 d) s
  let s := onlyIf (pc.rq.any fun e => !e.issued) (s.pmuPc k p 19 (d - cmds)) s
  let s := s.pmuPc k p 20 (pc.slots.filter fun e => inTick e.at_).length
  let s := onlyIf (decide (16 ≤ (pc.wq.filter (·.staged.isSome)).length)) (s.pmuAes k p 5 d) s
  let s := onlyIf (pc.st == .training) (s.pmuPc k p 23 d) s
  let s := onlyIf (pc.st == .frozen) (s.pmuPc k p 24 d) s
  (s.pmuPc k p 27 (d * pc.rqOcc)).pmuPc k p 28 (d * pc.wqOcc)

def State.countPcs (s : State) : State := s.pcs.foldl (fun s e => s.countPc (e.1 / 64) (e.1 % 64)) s

/-! ### COUNTERS (R798, R799) -/

/-- The values of a set as the present tick found them (R793, R798), or why it is refused (R799): 1 an argument out of range, 2 not the
sender's. A context that a job entered in this tick reads the cleared counters (R800). -/
def State.counterSet (s : State) (t set a b : Nat) : Except Nat (List Byte) :=
  let w (n v : Nat) : List Byte := leBytes (BitVec.ofNat (8 * n) v) n
  if set = 0 then
    .ok (w 4 (s.rd0 F.TRF_SUB_TOKENS.TOKENS t) ++ w 4 (s.rd0 F.TRF_SUB_DROPS.DROPS t) ++
      (List.range 4).flatMap fun c => w 4 (s.rd0 F.TRF_SVC_TOKENS.TOKENS t c))
  else if set = 1 then
    if 24 ≤ a ∨ 12 ≤ b then .error 1
    else if !(s.bind a).bound || (s.bind a).tenant != t then .error 2
    else .ok ((List.range 8).flatMap (fun e => w 8 (s.reg0 .PMU_ARB b (a * 8 + e)).toNat) ++
      (List.range 16).flatMap (fun i => w 4 (s.rd0 F.TRF_DEP.COUNT b (a * 16 + i))) ++
      (List.range 16).flatMap (fun i => w 4 (s.rd0 F.TRF_DLY.COUNT b (a * 16 + i))) ++
      w 4 (s.rd0 F.TRF_PORT_TOKENS.TOKENS a) ++ w 4 (s.rd0 F.TRF_PORT_DROPS.DROPS a))
  else if set = 2 then
    if 128 ≤ a ∨ 64 ≤ b then .error 1
    else if s.fnTenant a != some t then .error 2
    else
      let i := 64 * a + b
      .ok (w 8 (s.rd0 F.RING_JOBS.VALUE i) ++ w 8 (s.rd0 F.RING_LAST.VALUE i) ++ w 2 (s.rd0 F.RING_ERR.REFUSED i) ++
        w 1 (s.rd0 F.RING_ERR.LATE_DROP i))
  else if set = 3 then
    if 12 ≤ a ∨ 8 ≤ b then .error 1
    else if (s.ctx a b).st == .idle || !((s.ctx a b).job.any fun x => x.tenant == t) then .error 2
    else .ok ((List.range 8).flatMap fun i => w 8 (if (s.ctx a b).job.any (fun x => x.start == s.now + 8) then 0 else (s.reg0 .PMU_CTX a (b * 8 + i)).toNat))
  else .error 1

/-- COUNTERS (R798, R799): the stamp of the capture, then the set. -/
def execCounters (i : SessIx) (set : Fin 16) (a b : Byte) (s : State) : Res :=
  .next (s.serveT i 0x27 fun s x => match s.counterSet x.tenant set a.toNat b.toNat with
    | .error e => if e = 1 then (s, rUNSUP, 0x01, []) else (s, rDENIED, 0x02, [])
    | .ok d => (s, rOK, 0, leBytes s.clk.now 8 ++ d))

/-! ### The audit engine (R593 to R598) -/

/-- AUDIT_APPEND (R594, R595, R597, R598): the oldest queued entry of an earlier tick, when no entry can come before it any more, joins the
chain, 160 ticks after the one before it; plot 0xFFF takes entries once SEC has written the reserved plots. -/
def execAuditAppend (s : State) : Res :=
  match s.sec.auditQ with
  | [] => .next s
  | e :: rest =>
    if (s.plot 0xFFF).state != .openPlot || decide (s.now < s.sec.auditLast + 160) || decide (s.nowAt 12 ≤ e.stamp) then .next s else
    .next ({ s with sec := { s.sec with auditQ := rest } }.appendEntry e s.sec.head)

end Sys2Proof.Machine
end

