-- ==== Sys2Proof/Machine/RegView.lean ====
section
/-! DEFINITION. Where the registers and windows of BAR0 and of the function pages lie, and what they read (R13 to R25, R515, R605): the
fields that show other state, the plot table, the checkpoints, the error records and the byte windows. -/

namespace Sys2Proof.Machine

/-! ### Places -/

/-- The read-only and byte windows: the plot table (R68), AUDIT_CKPT (R599), the error records (R627), RAS_HISTDATA (R652), the training
image of a site (R280), MBX_REQ and MBX_RSP (R605). -/
inductive Win where
  | plots
  | ckpts
  | recs
  | hist
  | image (k : Nat)
  | mbxReq
  | mbxRsp
deriving DecidableEq, Repr

/-- What a 4-byte aligned offset names: element (i, j) of a register family, low or high half; or a word of a window. -/
inductive Place where
  | reg (r : RegName) (i j : Nat) (hi : Bool)
  | win (w : Win) (off : Nat)
deriving DecidableEq, Repr

/-- The element and half of a family at an offset from the start of its space. -/
def RegDesc.at_ (d : RegDesc) (off : Nat) : Option (Nat × Nat × Bool) :=
  if off < d.base then none else
  let o := off - d.base
  let i := if d.iS = 0 then 0 else o / d.iS
  let o := if d.iS = 0 then o else o % d.iS
  let j := if d.jS = 0 then 0 else o / d.jS
  let o := if d.jS = 0 then o else o % d.jS
  let l := if d.lS = 0 then 0 else o / d.lS
  let o := if d.lS = 0 then o else o % d.lS
  if i < d.iN ∧ j < d.jN ∧ l < d.lN ∧ (o = 0 ∨ (o = 4 ∧ d.wide = true)) then some (i, j * d.lN + l, o == 4) else none

/-- The register at an offset of a space. SEC_TENANT0 does not exist (R808). -/
def regAt (sp : Space) (off : Nat) : Option (RegName × Nat × Nat × Bool) :=
  RegName.all.findSome? fun r => if r.desc.space ≠ sp then none else
    match r.desc.at_ off with
    | none => none
    | some (i, j, hi) => if r = .SEC_TENANT ∧ i = 0 then none else some (r, i, j, hi)

/-- A register of function `f`'s page (R515). -/
def pageAt (f off : Nat) : Option Place := (regAt .fnPage off).map fun x => .reg x.1 f x.2.2.1 x.2.2.2
/-- A place in function `f`'s mailbox window (R605). -/
def mboxAt (f off : Nat) : Option Place :=
  if 0x800 ≤ off ∧ off < 0xC00 then some (.win .mbxReq off)
  else if 0xC00 ≤ off ∧ off < 0x1000 then some (.win .mbxRsp off)
  else (regAt .mbx off).map fun x => .reg x.1 f x.2.2.1 x.2.2.2

/-- The window of BAR0 an offset lies in. -/
def winAt (off : Nat) : Option Place :=
  if 0x200000 ≤ off ∧ off < 0x220000 then some (.win .plots (off - 0x200000))
  else if 0x2880000 ≤ off ∧ off < 0x28A0000 then some (.win .ckpts (off - 0x2880000))
  else if 0x2C40000 ≤ off ∧ off < 0x2CC0000 then some (.win .recs (off - 0x2C40000))
  else if 0x2C04100 ≤ off ∧ off < 0x2C04140 then some (.win .hist (off - 0x2C04100))
  else ((List.range 12).find? fun k => decide (imgBase k ≤ off ∧ off < imgBase k + 4096)).map fun k => .win (.image k) (off - imgBase k)

/-- The place at an offset of function `f`'s register BAR: none for an offset that no chapter defines, is not aligned, or belongs to PF0
alone (R22, R24, R25, R516). -/
def placeOf (f off : Nat) : Option Place :=
  if off % 4 ≠ 0 then none
  else if f = 0 then
    if 0x2200000 ≤ off ∧ off < 0x2280000 then pageAt 0 (off - 0x2200000)
    else if 0x2800000 ≤ off ∧ off < 0x2801000 then mboxAt 0 (off - 0x2800000)
    else match winAt off with
      | some p => some p
      | none => (regAt .bar0 off).map fun x => .reg x.1 x.2.1 x.2.2.1 x.2.2.2
  else if off < 0x80000 then pageAt f off
  else if off < 0x81000 then mboxAt f (off - 0x80000)
  else none

/-- Offsets PF0 may use while STATE is BOOT: GLOBAL, FIRMWARE and its mailbox (R701). -/
def bootOpen (f off : Nat) : Bool :=
  f != 0 || decide (off < 0x100000) || decide (0x3400000 ≤ off ∧ off < 0x3800000) || decide (0x2800000 ≤ off ∧ off < 0x2801000)

/-! ### Fields that show other state -/

/-- A word from (value, lowest bit) pairs. -/
def packed (l : List (Nat × Nat)) : Nat := l.foldl (fun a e => a + e.1 <<< e.2) 0

/-- The plots for which `p` holds. -/
def State.countPlots (s : State) (p : Plot → Bool) : Nat := (s.plots.filter fun e => p e.2).length

/-- Store lines a context holds: inputs, and outputs not yet committed (R342). -/
def Ctx.storeLines (x : Ctx) : Nat := match x.op with
  | .data d => (d.chunks.map fun ch => ch.ins.length + ch.outs.length).sum
  | .load l => l.got.length
  | .none => 0 | .wait _ => 0 | .sema _ => 0 | .full _ => 0 | .fence _ _ => 0 | .test _ => 0

/-- The registers of Lantern `j`'s context `c` (R368). -/
def State.viewCtx (s : State) (r : RegName) (j c : Nat) : Nat :=
  let x := s.ctx j c
  if r = .LNT_CTX then
    packed [((match x.job with | some b => b.ring + b.tenant <<< 21 | none => 0), 0), (s.ctxShow j c, 29)]
  else if r = .LNT_CTX_JOB then
    match x.job with | some b => packed [((x.prog.n - 1) % 65536, 0), (b.seq, 16)] | none => 0
  else if r = .LNT_CTX_STORE then (x.storeLines * 64 + 1023) / 1024
  else if x.job.any (·.tenant != 0) then 0 else (s.reg r j c).toNat

/-- LNT_STATUS and LNT_ARRAY (R368). -/
def State.viewLnt (s : State) (r : RegName) (j a : Nat) : Nat :=
  let tally (x : Nat) : Nat := ((List.range 52).filter fun a => s.role j a == x).length
  if r = .LNT_STATUS then
    packed [(((List.range 8).filter fun c => s.ctxShow j c != 0).foldl (fun v c => v + 2 ^ c) 0, 0), (tally 4, 14), (tally 3, 20),
      (tally 1, 23), ((s.serving j).length, 26)]
  else
    let w := (s.reg r j a).toNat
    match (s.lnt j).arr a with
    | some o => w + packed [(1, 19), (o.ctx % 8, 20)]
    | none => w

/-- The Posy registers (R511). -/
def State.viewPosy (s : State) (r : RegName) (k i : Nat) : Nat :=
  if r = .POSY_STATUS then
    packed [(s.posyLines k, 0), (((s.posy k).ents.filter fun e => e.2.any (·.held)).length, 12), (512 - (s.posy k).room, 22)]
  else match (s.posy k).ent i with
  | none => 0
  | some e =>
    -- an entry of a tenant's plot shows its STATE only (R512)
    if (s.plot (e.line >>> 22 % 4096)).owner ≠ 0 then
      (if r = .POSY_ENTRY_KEY then 0 else packed [(if e.held then 2 else 1, 62)])
    else if r = .POSY_ENTRY_KEY then packed [(e.line, 0), (e.half.toNat, 45), (e.cfmt, 46), (e.round, 48)]
    else packed [(e.dcount, 16), (e.count, 32), ((e.nan ||| e.pinf ||| e.ninf != 0).toNat, 59), (e.conflict.toNat, 60),
      (e.ovf.toNat, 61), (if e.held then 2 else 1, 62)]

/-- A PC's status (R200). -/
def State.viewPc (s : State) (k p : Nat) : Nat :=
  let q := s.live k p
  packed [(q.rmw.length, 0), (q.wqOcc, 8), (q.rqOcc, 16), (q.drain.toNat, 28), (q.st.code, 29)]

/-- The SEC registers (R808). -/
def State.viewSec (s : State) (r : RegName) (i : Nat) : Nat :=
  if r = .SEC_STATUS then (s.reg r).toNat + packed [((s.sec.sessions.filter fun e => e.2.isSome).length, 22)]
  else if r = .SEC_ROT then match s.sec.rotation with
    | some q => packed [(q.wm, 0), (q.plot, 32), (q.slot, 48), (1, 63)]
    | none => 0
  else if r = .SEC_SLOT then
    let k := s.slot i
    packed [(s.countPlots (fun p => p.state != .free && p.keyslot == i) % 4096, 0), (k.owner, 20),
      (((s.tenant k.owner).any (·.allocSlot == some i)).toNat, 28), (k.state.code, 29)]
  else if r = .SEC_BIND then
    let b := s.bind i
    packed [(b.tenant, 0), (b.offerTenant, 8), (b.offered.toNat, 30), (b.bound.toNat, 31)]
  else if r = .SEC_SESS then match s.session i with
    | some x => packed [(x.id.toNat, 0), (x.fn, 48), (x.tenant, 55), (1, 63)]
    | none => 0
  else packed [(s.countPlots (fun p => p.state != .free && p.owner == i) % 4096, 12), ((s.slotsOf i).length % 16, 24),
    (s.sessionsOf i % 8, 28), ((s.tenant i).isSome.toNat, 31)]

/-- The thermal level of the block, and the grace time left in whole ms, rounded up (R735, R736, R751). -/
def State.viewHeat (s : State) : Nat :=
  let lvl := max (levelCode (s.levels s.hottest)) (if s.throttled then 2 else 0)
  let left := match s.pw.grace with | some g => ceilDiv (g - s.now) (msTicks 1) % 128 | none => 0
  packed [(left, 0), (s.hottest, 8), (s.rd F.THM_STATUS.POWER, 27), (if s.bit F.SNF_STAT.ENFORCED then 2 else s.pw.grace.isSome.toNat, 28),
    (lvl, 30)]

/-- A ring's registers that show its state (R551, R553). -/
def State.viewRing (s : State) (r : RegName) (i j : Nat) : Nat :=
  if r = .RING_STATE then (s.reg r i).toNat + s.ringJobs i
  else
    let ring := 64 * i + j
    (s.reg r i j).toNat + packed [(s.rd F.RING_PTRS.CDONE ring, 0), (s.ringSt ring, 29)]

/-- FN_STATUS (R553). -/
def State.viewFn (s : State) (f : Nat) : Nat :=
  (s.reg .FN_STATUS f).toNat + packed [((s.fnTenant f).isSome.toNat, 23), (s.attnFor (s.fnReceiver f), 24), (s.rd F.GLOBAL_STATE.STATE, 28)]

/-- Write-only fields read 0 (R15). -/
def RegDesc.hideWo (d : RegDesc) (w : W64) : W64 :=
  d.fields.foldl (fun w x => if x.acc = .wo then putBits w x.lo x.len 0 else w) w

/-- A register of a PC controller that is clock-stopped (R29). -/
def State.stopped (s : State) (r : RegName) (i j : Nat) : Bool := [RegName.PC_STATUS, RegName.PC_QCFG, RegName.PC_HAZ].contains r && s.pcStopped i j

/-- What element (i, j) of a register family reads. -/
def State.view (s : State) (r : RegName) (i j : Nat) : W64 :=
  let w : Nat :=
    if s.stopped r i j then 0
    else if r = .GLOBAL_TS ∨ r = .FN_TS then s.now
    else if r = .GLOBAL_ATTN_PENDING then s.attnMap
    else if r = .PHY_TRN_CTRL then (s.reg r i).toNat + packed [((s.trnBusy i).toNat, 31)]
    else if r = .PC_STATUS then s.viewPc i j
    else if r = .SR_STAT then (s.reg r i).toNat + ((List.range 64).filter fun p => (s.pc i p).sr.down).length
    else if r = .LNT_STATUS ∨ r = .LNT_ARRAY then s.viewLnt r i j
    else if r = .LNT_CTX ∨ r = .LNT_CTX_JOB ∨ r = .LNT_CTX_SEED ∨ r = .LNT_CTX_STORE then s.viewCtx r i j
    else if r = .LNT_MEMIF then
      packed [(((s.lnt i).reqs.filter (·.path == 1)).length, 0), (((s.lnt i).reqs.filter (·.path == 0)).length, 16)]
    else if r = .POSY_STATUS ∨ r = .POSY_ENTRY_KEY ∨ r = .POSY_ENTRY_STAT then s.viewPosy r i j
    else if r = .SEC_STATUS ∨ r = .SEC_ROT ∨ r = .SEC_SLOT ∨ r = .SEC_BIND ∨ r = .SEC_SESS ∨ r = .SEC_TENANT then s.viewSec r i
    else if r = .RING_STATE ∨ r = .FN_RINGCTL then s.viewRing r i j
    else if r = .FN_STATUS then s.viewFn i
    else if r = .FN_DRVVER ∧ i = 0 then (s.reg .GLOBAL_DRVVER).toNat
    else if r = .PM_STATUS then (s.reg r).toNat + packed [((s.rd F.PM_FAULT.RAIL != 0).toNat, 31)]
    else if r = .THM_STATUS then s.viewHeat
    else if r = .MIR_ACKTS ∧ s.paired then s.ackTs
    else (s.reg r i j).toNat
  r.desc.hideWo (BitVec.ofNat 64 w)

/-! ### Error records as they lie in their slots (R626, R627, R679) -/

/-- A GUID in its UEFI byte order: the first three groups little-endian. PRESUMED from the UEFI specification, with the offsets of the
header and the section descriptor (notes/assumptions/26). -/
def guidBytes (last : Byte) : List Byte :=
  [0x12, 0x0C, 0x1A, 0x5B, 0x43, 0x7E, 0x8A, 0x4D, 0x9F, 0x06, 0x3C, 0x2B, 0x8E, 0x71, 0xD4, last]

/-- A number in decimal digits. -/
def decimal (n : Nat) : List Byte := (Nat.toDigits 10 n).map fun c => BitVec.ofNat 8 c.toNat
/-- `n` bytes: a list cut or padded with NUL. -/
def padTo (n : Nat) (l : List Byte) : List Byte := (l ++ List.replicate n 0).take n

/-- FRUText (R626, R679). -/
def ErrRec.fru (e : ErrRec) : List Byte :=
  if e.cluster = 0xFF then ascii "MYR-12"
  else ascii "MYR-12 K" ++ decimal e.cluster ++ (if e.ppc = 0xFF then []
    else (if 0x40 ≤ e.cls ∧ e.cls ≤ 0x47 then ascii " A" else ascii " PC") ++ decimal e.ppc)

/-- The 328 bytes of a record with sequence number `n`, of the boot with count `boots`. -/
def ErrRec.bytes (e : ErrRec) (boots n : Nat) : List Byte :=
  let u (m v : Nat) : List Byte := leBytes (BitVec.ofNat 64 v) m
  let hdr := ascii "CPER" ++ u 2 0x0100 ++ u 4 0xFFFFFFFF ++ u 2 1 ++ u 4 e.sev ++ u 4 0 ++ u 4 328 ++ List.replicate 40 0 ++
    guidBytes 0x50 ++ guidBytes 0x51 ++ u 4 n ++ u 4 boots
  let desc := u 4 200 ++ u 4 128 ++ List.replicate 8 0 ++ guidBytes 0x52 ++ List.replicate 16 0 ++ u 4 e.sev ++ padTo 20 e.fru
  let body := u 8 e.stamp ++ u 1 e.cls ++ u 1 e.sub ++ u 1 e.origin ++ u 1 e.cluster ++ u 1 e.ppc ++ u 1 e.lpc ++ u 1 e.sidbank ++
    u 1 e.syms ++ u 2 e.row ++ u 1 e.col ++ u 1 e.result ++ u 8 e.pa ++ u 1 e.req ++ u 1 e.tenant ++ u 2 e.plot ++ u 2 e.ring ++
    u 2 e.seq ++ u 2 e.instr ++ u 2 0 ++ u 8 e.count ++ u 8 e.related ++ padTo 72 e.detail
  padTo 128 hdr ++ padTo 72 desc ++ body

/-- The 512-byte slot `i` of the record queue. -/
def State.recSlot (s : State) (i : Nat) : List Byte :=
  let head := s.rd F.RAS_RECHEAD.VALUE
  padTo 512 (match tget none s.recs i with
    | some e => e.bytes s.hist.boots (head - 1 - (head - 1 + 1024 - i) % 1024)
    | none => [])

/-- A word of a window. -/
def State.winWord (s : State) (f : Nat) (w : Win) (off : Nat) : Nat :=
  let four (key : Nat) : Nat := leNat ((List.range 4).map fun i => tget 0 s.bytes (key + i))
  match w with
  | .plots => bitsOf (s.plot (off / 32)).word (8 * (off % 32) + 31) (8 * (off % 32))
  | .ckpts => leNat (((leBytes ((tget none s.sec.ckpts (off / 256)).getD 0) 256).drop (off % 256)).take 4)
  | .recs => leNat (((s.recSlot (off / 512)).drop (off % 512)).take 4)
  | .hist => four (0x2C04100 + off)
  | .image k => s.imgNat k off 4
  | .mbxReq => four (mbxKey f off)
  | .mbxRsp => four (mbxKey f off)

/-! ### Reads (R15, R19, R21, R22, R701) -/

/-- What a read of a register returns: an RC field as it stood before the events of the tick (R19). -/
def State.seen (s : State) (r : RegName) (i j : Nat) : W64 :=
  let e := tget 0 s.events (regKey r i j)
  r.desc.fields.foldl (fun w x => if x.acc = .rc ∧ e.toNat >>> x.lo % 2 ^ x.len ≠ 0
    then putBits w x.lo x.len ((s.reg0 r i j).toNat >>> x.lo) else w) (s.view r i j)

/-- The RC fields of one half of a register clear, but for the events of the tick, which count into what is left (R19). An RC field of the
high half clears at the read of that half, which returns the value latched before: what was counted between is lost (DESIGN CHOICE,
notes/assumptions/27). -/
def State.clearRc (s : State) (r : RegName) (i j : Nat) (hi : Bool) : State :=
  let e := tget 0 s.events (regKey r i j)
  let clear (keep : Nat) (old : W64) : W64 := r.desc.fields.foldl (fun w x =>
    if x.acc = .rc ∧ (decide (32 ≤ x.lo) = (r.desc.wide && hi)) then putBits w x.lo x.len (keep >>> x.lo) else w) old
  let new := clear e.toNat (s.reg r i j)
  let t := if new = s.reg r i j then s else s.setReg r i j new
  let first := clear 0 (s.reg0 r i j)
  if first = s.reg0 r i j then t else { t with regs0 := tset (r.reset i j) t.regs0 (regKey r i j) first }

/-- The register whose high half function `f` has latched. -/
def State.latched (s : State) (f key : Nat) : Option W32 := (s.hiLatch.find? fun e => e.1 == f && e.2.1 == key).map (·.2.2)
def State.unlatch (s : State) (f key : Nat) : State := { s with hiLatch := s.hiLatch.filter fun e => !(e.1 == f && e.2.1 == key) }

/-- A 4-byte read by function `f`. The low half of a 64-bit register latches the high half, which the function's next read of the high
half returns; the RC fields of the half that is read clear. -/
def State.readWord (s : State) (f off : Nat) : State :=
  match placeOf f off with
  | none => s.send (.unsupported f)
  | some p =>
    if s.inBoot && !bootOpen f off then s.send (.regRead f 0) else
    match p with
    | .win w o => s.send (.regRead f (BitVec.ofNat 64 (s.winWord f w o)))
    | .reg r i j hi =>
      let v := (s.seen r i j).toNat
      let key := regKey r i j
      if !r.desc.wide then (s.clearRc r i j false).send (.regRead f (BitVec.ofNat 64 v))
      else if !hi then
        let t := s.unlatch f key
        { t.clearRc r i j false with hiLatch := (f, key, BitVec.ofNat 32 (v / 2 ^ 32)) :: t.hiLatch }.send
          (.regRead f (BitVec.ofNat 64 (v % 2 ^ 32)))
      else
        let h := match s.latched f key with | some w => w.toNat | none => v / 2 ^ 32
        ((s.unlatch f key).clearRc r i j true).send (.regRead f (BitVec.ofNat 64 h))

/-- REG64_LOW_READ (R21): a 4-byte read at the low half of a 64-bit register. An 8-byte read is this and the read of the high half. -/
def execReg64LowRead (f : FnIx) (off : Nat) (s : State) : Res :=
  match placeOf f off with
  | some (.reg r _ _ false) => .next (onlyIf r.desc.wide (s.readWord f off) s)
  | some (.reg _ _ _ true) => .next s
  | some (.win _ _) => .next s
  | none => .next s

/-- RC_FIELD_READ (R15, R19): a 4-byte read at any offset. -/
def execRcFieldRead (f : FnIx) (off : Nat) (s : State) : Res := .next (s.readWord f off)

/-- An access of `len` bytes that no register takes: it is not 4 or 8 bytes long, is not naturally aligned, or meets an offset that no chapter
defines for this function (R22, R25, R516). -/
def accessBad (f off len : Nat) : Bool :=
  !(len == 4 || len == 8) || off % len != 0 || (placeOf f off).isNone || (len == 8 && (placeOf f (off + 4)).isNone)

/-- UNDEFINED_OFFSET_ACCESS (R22, R25, R516): an access that no register takes; any other is a row of its own. -/
def execUndefinedOffsetAccess (f : FnIx) (off : Nat) (access : BarAccess) (s : State) : Res :=
  .next (onlyIf (accessBad f off access.len) (s.send (.unsupported f)) s)

end Sys2Proof.Machine
end

