-- ==== Sys2Proof/Machine/Regs.lean ====
section
/-! DEFINITION. Register writes (R15 to R18, R20, R22 to R25): which agent may write a register, which values a field takes, what the
action fields do, and the audit entry of a change. A write that has a row of its own is carried out as that row. -/

namespace Sys2Proof.Machine

/-- The next state of a row that always has one. -/
def after (r : Res) (s : State) : State := match r with
  | .next t => t
  | .fault _ => s
  | .refused _ => s

/-! ### Who writes, and which values a field takes -/

/-- Who makes a change, as the audit chain names it (R593). -/
def agentOrigin : Agent → Origin
  | .fn f => Origin.fn f
  | .sec => Origin.core 0
  | .pmc => Origin.core 1
  | .sch => Origin.core 2
  | .ccc k => Origin.core (3 + k.val)

def agentIsFn : Agent → Bool
  | .fn _ => true
  | .sec => false
  | .pmc => false
  | .sch => false
  | .ccc _ => false

/-- Registers whose every field is RO to functions although its table gives RW or RW1C: a core writes them (R196, R238, R751). -/
def coreOnly (r : RegName) : Bool :=
  [RegName.CLU_TIM0, RegName.CLU_TIM1, RegName.CLU_TIM2, RegName.REF_TIM, RegName.PM_RAIL_CFG, RegName.PM_FAULT].contains r

/-- Registers a core of cluster `k` writes beside those and its CLOCK_PHYPLL (R56, R196, R648). -/
def cccToo (r : RegName) : Bool :=
  [RegName.PC_QCFG, RegName.ARB_HOLD_CTL, RegName.ARB_HOLD_LEASE, RegName.RAS_FRZCTL, RegName.RAS_MIGCTL].contains r

/-- The SNF registers, whose lock bit is SNF_LOCK.LOCK (R16). -/
def isSnf (r : RegName) : Bool :=
  [RegName.SNF_LOCK, RegName.SNF_VLOGIC, RegName.SNF_VNMC, RegName.SNF_VPHY, RegName.SNF_MISC, RegName.SNF_IMAX, RegName.SNF_IMAX_STK,
   RegName.SNF_TCEIL].contains r

/-- The lock bit of a register's RWL fields is set (R16). -/
def State.locked (s : State) (r : RegName) : Bool := if isSnf r then s.bit F.SNF_LOCK.LOCK else s.bit F.GLOBAL_CFGLOCK.LOCK

/-- Agent `a` may write RW, RW1C and WO fields of element (i, _) of register `r`. -/
def agentWrites (a : Agent) (r : RegName) (i : Nat) : Bool := match a with
  | .fn _ => !coreOnly r
  | .pmc => r == .PM_RAIL_CFG || r == .PM_FAULT
  | .ccc k => (k.val == i && ((coreOnly r && r != .PM_RAIL_CFG && r != .PM_FAULT) || r == .CLOCK_PHYPLL)) ||
      (cccToo r && (k.val == i || r == .ARB_HOLD_CTL || r == .ARB_HOLD_LEASE))
  | .sec => false
  | .sch => false

/-- The fields with a range, outside which a value is ignored. -/
def ranges : List (Fld × Nat × Nat) :=
  [(F.PORT_LKCFG.LEASE_US, 1, 1000000), (F.ARB_HOLD_LEASE.LEASE_US, 1, 1000000), (F.PHY_CFG.MIN_EYE_TAPS, 8, 64),
   (F.PHY_RTR_CFG.DRIFT_C, 1, 20), (F.PHY_RTR_CFG.PERIOD_MS, 100, 10000), (F.RING_CFG.MAXCTX, 0, 96), (F.RAS_CFG.MIG_SHARE, 1, 8),
   (F.RAS_CLASS.THRESH, 1, 255), (F.RAS_SECFG.STEP_ROUNDS, 1, 7), (F.RAS_SECFG.REPEAT_ROUNDS, 1, 255), (F.RAS_SECFG.ARRAY_LIMIT, 4, 15),
   (F.FW_CTL.WDOG_MS, 10, 1000), (F.MIR_CFG.SYNC_SHARE, 1, 8), (F.MIR_CFG.LOSS_US, 200, 65535)]

/-- A field takes the value `v` (the Effect column of its table). -/
def State.takes (s : State) (r : RegName) (i lo v : Nat) : Bool :=
  match ranges.find? fun e => e.1.reg = r ∧ e.1.lo = lo with
  | some e => decide (e.2.1 ≤ v ∧ v ≤ e.2.2)
  | none =>
    if r = .RINGS_HOST ∧ lo = 16 then v == 0 || decide (10 ≤ v ∧ v ≤ 10000)
    else if r = .THM_CFG ∧ lo = 8 then decide (v ≤ s.rd F.SNF_TCEIL.NOTICE_MAX_MS)
    else if r = .THM_CFG ∧ lo = 0 then decide (1 ≤ v ∧ v ≤ s.rd F.SNF_TCEIL.GRACE_MAX_MS)
    else if r = .THM_SENS_CFG ∧ lo = 30 then decide (i < 16)
    else if r = .FW_UPDCTL ∧ lo = 0 then s.updSt == 2
    else true

/-- A write that would leave the word `v` is ignored whole (R29, R95, R201, R605, R606, R652, R782). -/
def State.shut (s : State) (r : RegName) (i j : Nat) (v : Nat) : Bool :=
  if s.stopped r i j then true
  else if r = .PLOT_ARG0 ∨ r = .PLOT_ARG1 then s.bit F.PLOT_CMD.BUSY
  else if r = .PC_QCFG then
    let hi := v >>> 8 % 128
    let lo := v % 128
    decide (hi < 2) || decide (64 < hi) || decide (hi ≤ lo)
  else if r = .MBX_CTL then s.bit F.MBX_STATUS.BUSY i
  else if r = .AUDIT_ACK then decide (v < s.rd F.AUDIT_ACK.VALUE) || decide (s.rd F.AUDIT_SEQ.VALUE < v)
  else if r = .RAS_FRZCTL then s.bit F.RAS_FRZCTL.BUSY i
  else if r = .RAS_MIGCTL then s.bit F.RAS_MIGCTL.BUSY i
  else if r = .MIR_CFG ∨ r = .MIR_PEER then s.rd F.MIR_PAIR.STATE != 0
  else false

/-! ### The fields of a write -/

/-- The register word after agent `a` writes `v` to the half or halves `lo32`, `hi32` (R15 to R18). -/
def State.putFields (s : State) (a : Agent) (r : RegName) (i j v : Nat) (lo32 hi32 : Bool) : W64 :=
  r.desc.fields.foldl (fun w x =>
    let touched := if x.lo < 32 ∧ x.lo + x.len ≤ 32 then lo32 else if 32 ≤ x.lo then hi32 else true
    if !touched then w else
    -- a field that crosses the halves takes the bits of the halves written
    let cur := w.toNat >>> x.lo % 2 ^ x.len
    let val := v >>> x.lo % 2 ^ x.len
    let cross := 32 - x.lo
    let val := if x.lo < 32 ∧ 32 < x.lo + x.len ∧ !(lo32 && hi32)
      then (if lo32 then cur >>> cross <<< cross + val % 2 ^ cross else val >>> cross <<< cross + cur % 2 ^ cross) else val
    match x.acc with
    | .rw => if agentWrites a r i && s.takes r i x.lo val then putBits w x.lo x.len val else w
    | .rw1c =>
      let ack := cur &&& (if x.lo < 32 ∧ 32 < x.lo + x.len ∧ !(lo32 && hi32) then (if lo32 then val % 2 ^ cross else val >>> cross <<< cross) else val)
      let now := (tget 0 s.events (regKey r i j)).toNat >>> x.lo % 2 ^ x.len
      if agentWrites a r i then putBits w x.lo x.len (cur - (ack - (ack &&& now))) else w
    | .rwl => if a = .sec ∧ !s.locked r then putBits w x.lo x.len val else w
    | .ro => w
    | .rc => w
    | .wo => w) (s.reg r i j)

/-- WHERE of a register (R593): its BAR0 offset, or the function and the offset in a VF's page. -/
def placeWhere (r : RegName) (i j : Nat) : Nat :=
  match r.desc.space with
  | .bar0 => regOff r i j
  | .fnPage => fnWhere i (regOff r 0 j)
  | .mbx => if i = 0 then 0x2800000 + regOff r 0 j else i <<< 40 + 0x80000 + regOff r 0 j

/-- A write of the fields, with its audit entry when it changes the register (R23, R596). -/
def State.plainWrite (s : State) (a : Agent) (r : RegName) (i j v : Nat) (lo32 hi32 : Bool) : State :=
  let old := s.reg r i j
  let new := s.putFields a r i j v lo32 hi32
  if new = old ∨ s.shut r i j new.toNat then s
  else (s.setReg r i j new).audit (agentOrigin a).kind (agentOrigin a).id 0 (placeWhere r i j) old.toNat new.toNat

/-! ### Registers whose write acts -/

/-- PF0's writes of the registers of clocks, plots, arbitration, refresh and traffic that act. -/
def State.actWrite1 (s : State) (a : Agent) (r : RegName) (i j v : Nat) : Option State :=
  let w : W32 := BitVec.ofNat 32 v
  let k : Cluster := Fin.ofNat 12 i
  let plain := s.plainWrite a r i j v true true
  if r = .CLOCK_PHYPLL then some (s.multWrite (agentOrigin a) i (v % 256))
  else if r = .TS_CTRL then
    let s := if nbit v 1 then after (execTsCheckEnable s) s else plain
    some (if nbit v 0 then after (execTsCapture s) s else s)
  else if r = .PLOT_CMD then
    some (s.plotCmd (v >>> 24 % 16) (v % 4096))
  else if r = .ARB_REQ then some (after (execArbPrioWrite (Fin.ofNat 40 i) w s) s)
  else if r = .ARB_HOLD_CTL then
    let h : Fin 8 := Fin.ofNat 8 i
    let plain := if holdWriter a (v >>> 16 % 16) (v >>> 8 % 64) then plain else s
    some (if nbit v 26 && nbit v 27 then s
      else if nbit v 27 then after (execArbHoldSet a h w s) s
      else if nbit v 26 then after (execArbHoldRelease a h plain) plain else plain)
  else if r = .REF_CTRL then some (after (execRefCtrlWrite k w s) s)
  else if r = .RG_CFG then some (after (execRgCfgWrite k w s) s)
  else if r = .SR_CFG then some (after (execSrCfgWrite k w s) s)
  else if r = .TRF_SUB_CTL ∨ r = .TRF_SUB_BURST ∨ r = .TRF_SVC_CTL ∨ r = .TRF_SVC_BURST ∨ r = .TRF_PORT_CTL ∨ r = .TRF_PORT_BURST then
    some (after (execTrfBucketWrite (regOff r i j) w s) s)
  else if r = .TRF_GATE_CTL then
    let old := (s.reg r).toNat
    let t := s.wr F.TRF_GATE_CTL.NSLOT (v >>> 16)
    let t := onlyIf (nbit v 29) (t.ack F.TRF_GATE_CTL.REJ) t
    let t := t.auditReg 0x808000 old (t.reg r).toNat
    let t := if nbit v 30 then after (execGateCommit t) t else t
    some (if nbit v 31 then after (execGateEnable t) t else after (execGateDisable t) t)
  else if r = .TRF_HIST_CTL then some (if nbit v 30 then after (execHistClear plain) plain else plain)
  else if r = .PHY_TRN_CTRL then
    let t := s.plainWrite a r i j v true true
    let op := v % 4
    let u : State := { t with free := t.free + 1 }
    let e := Config.siteEnv t.free
    some (if op = 1 then after (execTrain k e u) t else if op = 2 then after (execRestore k e (Config.verifyEnv t.free) u) t
      else if op = 3 then after (execVerify k (Config.verifyEnv t.free) u) t else t)
  else if r = .LNT_CTL then some (after (execPairedWrite k (nbit v 31) s) s)
  else if r = .POSY_CFG then some (after (execPosyCfgWrite k w s) s)
  else none

/-- Functions' writes of the registers of rings, the handshake and the mailbox that act. -/
def State.actWrite2 (s : State) (a : Agent) (r : RegName) (i j v : Nat) : Option State :=
  let w : W32 := BitVec.ofNat 32 v
  let f : FnIx := Fin.ofNat 128 i
  let ring : RingIx := Fin.ofNat 64 j
  if r = .GLOBAL_DRVVER then some (after (execHandshake 0 w s) s)
  else if r = .FN_DRVVER then some (after (execHandshake f w s) s)
  else if r = .GLOBAL_HBEAT then some (after (execHeartbeat w s) s)
  else if r = .FN_SQDB then some (after (execSqDoorbell f ring (BitVec.ofNat 16 v) s) s)
  else if r = .FN_CQDB then some (after (execCqDoorbell f ring (BitVec.ofNat 16 v) s) s)
  else if r = .FN_RINGCTL then
    let cmd := v >>> 25 % 4
    let s := if cmd = 1 then after (execRingResume f ring s) s else if cmd = 2 then after (execRingReset f ring s) s else s
    -- barred without an accepted handshake (R539)
    some (if !s.accepted i then s else
      let s := after (execRingEnableWrite f ring (nbit v 24) s) s
      let old := (s.reg r i j).toNat
      let s := s.wr F.FN_RINGCTL.VEC (v >>> 16) i j
      s.auditFn i (0x800 + 4 * j) old (s.reg r i j).toNat)
  else if r = .MBX_CTL then
    let t := s.plainWrite a r i j v true true
    some (if nbit v 31 && !s.bit F.MBX_STATUS.BUSY i then
      let old := (t.reg r i).toNat
      { t.wr F.MBX_STATUS.BUSY 1 i with sec := { t.sec with mbxQ := t.sec.mbxQ ++ [i] } }.audit 1 i 0 (placeWhere r i 0) old (old + 2 ^ 31)
      else t)
  else none

/-- PF0's writes of the RAS, firmware, power, mirror and counter registers that act. -/
def State.actWrite3 (s : State) (a : Agent) (r : RegName) (i j v : Nat) : Option State :=
  let w : W32 := BitVec.ofNat 32 v
  let k : Cluster := Fin.ofNat 12 i
  let plain := s.plainWrite a r i j v true true
  if r = .RAS_FRZCTL then
    let op := v >>> 26 % 4
    let p : PcIx := Fin.ofNat 64 v
    let (free, u) := s.fresh
    some (if op = 0 then (if s.bit F.RAS_FRZCTL.BUSY i then s.frzBusy (agentOrigin a) i else plain)
      else if op = 1 then after (execThaw k p (free.getLsbD 0) u) s
      else if op = 2 then after (execRetireCopy k p (free.getLsbD 0) u) s else after (execRetireNow k p s) s)
  else if r = .RAS_MIGCTL then
    some (if s.bit F.RAS_MIGCTL.BUSY i then s.migBusy (agentOrigin a) i
      else if v >>> 28 % 4 = 1 ∧ agentIsFn a then after (execStart k (Fin.ofNat 64 (v >>> 16)) s) s else plain)
  else if r = .RAS_HISTCTL then some (after (execHistoryRead (BitVec.ofNat 20 v) s) s)
  else if r = .RAS_MGCTL then
    let s := if nbit v 28 then after (execMgStep s) s else s
    some (after (execMgSweep w s) s)
  else if r = .RAS_FENCECTL then some (s.fenceCtl i (v >>> 26 % 4) (v % 64))
  else if r = .FW_CTL then
    let (free, u) := plain.fresh
    some (if nbit v 31 then after (execCoreRestart (Fin.ofNat 15 i) (free.getLsbD 0) u) plain else plain)
  else if r = .FW_UPDCTL then
    let s := if nbit v 30 then after (execCancel plain) plain else plain
    some (if nbit v 31 then after (execActivate s) s else s)
  else if r = .THM_SENS_THR then some (after (execThresholdWrite (Fin.ofNat 44 i) w s) s)
  else if r = .THM_EVT then some (onlyIf ((List.range 44).any fun n => nbit (s.levels n) 0) (plain.raise F.THM_EVT.WARN) plain)
  else if r = .MIR_PAIR then
    let op := v >>> 24 % 4
    some (if op = 1 then after (execPair s) s else if op = 2 then after (execUnpair s) s else if op = 3 then after (execTakeover s) s else s)
  else if r = .MIR_WCTL then some (if nbit v 31 then after (execMirWindowCommit plain) plain else plain)
  else if r = .PMU_CTL then
    let t := onlyIf (nbit v 29) ((s.ack F.PMU_CTL.SNAP_REJ).auditReg 0x3C00000 (s.reg r).toNat (s.ack F.PMU_CTL.SNAP_REJ |>.reg r).toNat) s
    let t := if nbit v 30 = t.bit F.PMU_CTL.FREEZE then t else after (execFreezeWrite (nbit v 30) t) t
    some (if nbit v 31 then after (execSnap t) t else t)
  else if r = .PMU_LNT_SEL then some (after (execPmuSelWrite (Fin.ofNat 28 i) (Fin.ofNat 8 j) w s) s)
  else if r = .PMU_BLK_SEL then some (after (execPmuSelWrite (Fin.ofNat 28 (12 + i)) (Fin.ofNat 8 j) w s) s)
  else none

/-- A core's writes that act: MULT, the timing registers, holds and freezes of CCCk, the setpoints of PMC. -/
def State.actWriteCore (s : State) (a : Agent) (r : RegName) (i j v : Nat) : Option State :=
  let w : W32 := BitVec.ofNat 32 v
  let k : Cluster := Fin.ofNat 12 i
  if r = .CLOCK_PHYPLL then s.actWrite1 a r i j v
  else if r = .CLU_TIM0 then some (after (execTimingRegisterWrite k .tim0 w s) s)
  else if r = .CLU_TIM1 then some (after (execTimingRegisterWrite k .tim1 w s) s)
  else if r = .CLU_TIM2 then some (after (execTimingRegisterWrite k .tim2 w s) s)
  else if r = .REF_TIM then some (after (execTimingRegisterWrite k .refTim w s) s)
  else if r = .ARB_HOLD_CTL then s.actWrite1 a r i j v
  else if r = .ARB_HOLD_LEASE then
    some (onlyIf (holdWriter a (s.rd F.ARB_HOLD_CTL.CLUSTER i) (s.rd F.ARB_HOLD_CTL.REQ i)) (s.plainWrite a r i j v true true) s)
  else if r = .RAS_FRZCTL ∨ r = .RAS_MIGCTL then s.actWrite3 a r i j v
  else if r = .PM_RAIL_CFG then some (after (execVsetWrite (Fin.ofNat 50 i) (BitVec.ofNat 16 v) s) s)
  else none

/-- Lamplighter's write of a context's seed: only while the context is IDLE (R367, R369). -/
def State.seedWrite (s : State) (j c v : Nat) (lo32 hi32 : Bool) : State :=
  let cur := (s.reg .LNT_CTX_SEED j c).toNat
  let low := if lo32 then v % 2 ^ 32 else cur % 2 ^ 32
  let high := if hi32 then v / 2 ^ 32 else cur / 2 ^ 32
  onlyIf ((s.ctx j c).st == .idle) (s.wr F.LNT_CTX_SEED.SEED (high * 2 ^ 32 + low) j c) s

/-- A write of one register by an agent that may write it. -/
def State.writeReg (s : State) (a : Agent) (r : RegName) (i j v : Nat) (lo32 hi32 : Bool) : State :=
  let plain := s.plainWrite a r i j v lo32 hi32
  if agentIsFn a then ((s.actWrite1 a r i j v).orElse fun _ => (s.actWrite2 a r i j v).orElse fun _ => s.actWrite3 a r i j v).getD plain
  else if a = .sch ∧ r = .LNT_CTX_SEED then s.seedWrite i j v lo32 hi32
  else if agentWrites a r i then (s.actWriteCore a r i j v).getD plain
  else plain

/-- A 4-byte write of a window by a function: a word of MBX_REQ, ignored while BUSY (R605), or of a training image (R280). -/
def State.writeWin (s : State) (f : Nat) (w : Win) (off v : Nat) : State :=
  match w with
  | .mbxReq =>
    let key := mbxKey f off
    let old := s.winWord f w off
    if s.bit F.MBX_STATUS.BUSY f || old == v then s else
    let here := if f = 0 then 0x2800000 + off else f <<< 40 + 0x80000 + off
    { s with bytes := (List.range 4).foldl (fun t i => tset 0 t (key + i) (BitVec.ofNat 8 (v >>> (8 * i)))) s.bytes }.audit 1 f 0 here old v
  | .image k => after (execTrnImageWrite (Fin.ofNat 12 k) (Fin.ofNat 1024 (off / 4)) (BitVec.ofNat 32 v) s) s
  | .plots => s
  | .ckpts => s
  | .recs => s
  | .hist => s
  | .mbxRsp => s

/-- A 4-byte write at a place. -/
def State.writeWord (s : State) (a : Agent) (f : Nat) (p : Place) (v : Nat) : State :=
  match p with
  | .win w o => s.writeWin f w o v
  | .reg r i j hi => s.writeReg a r i j (if hi then v * 2 ^ 32 else v) (!hi) (r.desc.wide && hi)

/-- A function's write: Unsupported Request where nothing lies or the write is not aligned (R22, R25, R516); ignored in BOOT outside
GLOBAL, FIRMWARE and the mailbox (R701). -/
def State.fnWrite (s : State) (f : FnIx) (off : Nat) (wide : Bool) (v : W64) : State :=
  match placeOf f off with
  | none => s.send (.unsupported f)
  | some p =>
    let q := placeOf f (off + 4)
    if wide && (off % 8 != 0 || q.isNone) then s.send (.unsupported f)
    else if s.inBoot && !bootOpen f off then s
    else
      let lo := v.toNat % 2 ^ 32
      if !wide then s.writeWord (.fn f) f p lo else
      match p, q with
      | .reg r i j false, some (.reg _ _ _ true) => s.writeReg (.fn f) r i j v.toNat true true
      | _, some q => (s.writeWord (.fn f) f p lo).writeWord (.fn f) f q (v.toNat / 2 ^ 32)
      | _, none => s

/-- A core's write of one word at a place: it writes no window. -/
def State.coreWord (s : State) (a : Agent) (p : Place) (v : Nat) : State :=
  match p with
  | .win _ _ => s
  | .reg r i j hi => s.writeReg a r i j (if hi then v * 2 ^ 32 else v) (!hi) (r.desc.wide && hi)

/-- A core's write, at a BAR0 offset. -/
def State.coreAt (s : State) (a : Agent) (off : Nat) (wide : Bool) (v : W64) : State :=
  match placeOf 0 off with
  | none => s
  | some p =>
    let q := placeOf 0 (off + 4)
    if wide && (off % 8 != 0 || q.isNone) then s
    else
      let lo := v.toNat % 2 ^ 32
      if !wide then s.coreWord a p lo else
      match p, q with
      | .reg r i j false, some (.reg _ _ _ true) => s.writeReg a r i j v.toNat true true
      | _, some q => (s.coreWord a p lo).coreWord a q (v.toNat / 2 ^ 32)
      | _, none => s

/-- REGISTER_WRITE (R15, R20, R23): a 4-byte write, or with `wide` an 8-byte one. What a training or a check that it starts meets, which
the row of that operation carries, is free here (notes/assumptions/33). -/
def execRegisterWrite (a : Agent) (off : Nat) (wide : Bool) (v : W64) (s : State) : Res :=
  match a with
  | .fn f => s.orWait (.registerWrite a off wide v) fun s => .next (s.fnWrite f off wide v)
  | .sec => .next (s.coreAt a off wide v)
  | .pmc => .next (s.coreAt a off wide v)
  | .sch => .next (s.coreAt a off wide v)
  | .ccc _ => .next (s.coreAt a off wide v)

end Sys2Proof.Machine
end

