-- ==== Sys2Proof/Machine/Dispatch.lean ====
section
/-! DEFINITION. The meaning of every command: one arm per row of spec/opcode_table.json. -/

namespace Sys2Proof.Machine

/-- The effect of a command on everything but the queue. -/
def exec (i : Instr) (s : State) : Host.Outcome State Fault Refusal :=
  match i with
  | .coldReset e => Sys2Proof.Machine.execColdReset e s
  | .pllMainLock => Sys2Proof.Machine.execPllMainLock s
  | .schRelease => Sys2Proof.Machine.execSchRelease s
  | .bootPhaseFail phase err => Sys2Proof.Machine.execBootPhaseFail phase err s
  | .warmResetRequest => Sys2Proof.Machine.execWarmResetRequest s
  | .warmReset e => Sys2Proof.Machine.execWarmReset e s
  | .pllMainUnlock => Sys2Proof.Machine.execPllMainUnlock s
  | .phyPllUnlock n => Sys2Proof.Machine.execPhyPllUnlock n s
  | .fclkStop => Sys2Proof.Machine.execFclkStop s
  | .fclkReturn mhz => Sys2Proof.Machine.execFclkReturn mhz s
  | .tsReplicaCheck skews => Sys2Proof.Machine.execTsReplicaCheck skews s
  | .tsCapture => Sys2Proof.Machine.execTsCapture s
  | .tsCheckEnable => Sys2Proof.Machine.execTsCheckEnable s
  | .phyMultWrite n mult => Sys2Proof.Machine.execPhyMultWrite n mult s
  | .nmcDividerChange => Sys2Proof.Machine.execNmcDividerChange s
  | .reg64LowRead f off => Sys2Proof.Machine.execReg64LowRead f off s
  | .rcFieldRead f off => Sys2Proof.Machine.execRcFieldRead f off s
  | .registerWrite a off wide v => Sys2Proof.Machine.execRegisterWrite a off wide v s
  | .undefinedOffsetAccess f off access => Sys2Proof.Machine.execUndefinedOffsetAccess f off access s
  | .alloc index => Sys2Proof.Machine.execAlloc index s
  | .free index => Sys2Proof.Machine.execFree index s
  | .setrights index => Sys2Proof.Machine.execSetrights index s
  | .setmirror index => Sys2Proof.Machine.execSetmirror index s
  | .plotCmdBadOp op index => Sys2Proof.Machine.execPlotCmdBadOp op index s
  | .allocZeroingDone index => Sys2Proof.Machine.execAllocZeroingDone index s
  | .plotQuarantineEnd index => Sys2Proof.Machine.execPlotQuarantineEnd index s
  | .rd k p f m => Sys2Proof.Machine.execRd k p f m s
  | .wr k p f m => Sys2Proof.Machine.execWr k p f m s
  | .wrp k p f m => Sys2Proof.Machine.execWrp k p f m s
  | .aadd k p f m => Sys2Proof.Machine.execAadd k p f m s
  | .acas k p f m => Sys2Proof.Machine.execAcas k p f m s
  | .contrib k p f m => Sys2Proof.Machine.execContrib k p f m s
  | .lkacq k p f m => Sys2Proof.Machine.execLkacq k p f m s
  | .lkrel k p f m => Sys2Proof.Machine.execLkrel k p f m s
  | .stamp k p f m => Sys2Proof.Machine.execStamp k p f m s
  | .unknownOpcodeRequest k p f m => Sys2Proof.Machine.execUnknownOpcodeRequest k p f m s
  | .ingressRelease k req cls => Sys2Proof.Machine.execIngressRelease k req cls s
  | .requestTimeout id => Sys2Proof.Machine.execRequestTimeout id s
  | .portLinkDown p => Sys2Proof.Machine.execPortLinkDown p s
  | .portLinkUp p desc => Sys2Proof.Machine.execPortLinkUp p desc s
  | .linkRetryReport p => Sys2Proof.Machine.execLinkRetryReport p s
  | .fabricResponseCredit k p n => Sys2Proof.Machine.execFabricResponseCredit k p n s
  | .lockLeaseExpiry k plotScope name => Sys2Proof.Machine.execLockLeaseExpiry k plotScope name s
  | .lockBreak k plotScope name => Sys2Proof.Machine.execLockBreak k plotScope name s
  | .crossbarGrant k slice => Sys2Proof.Machine.execCrossbarGrant k slice s
  | .accessIssue k p parity => Sys2Proof.Machine.execAccessIssue k p parity s
  | .readDataReturn k p errs => Sys2Proof.Machine.execReadDataReturn k p errs s
  | .replyHandover id => Sys2Proof.Machine.execReplyHandover id s
  | .arbHoldSet a h v => Sys2Proof.Machine.execArbHoldSet a h v s
  | .arbHoldRelease a h => Sys2Proof.Machine.execArbHoldRelease a h s
  | .arbHoldLeaseExpiry h => Sys2Proof.Machine.execArbHoldLeaseExpiry h s
  | .arbHoldBreak h => Sys2Proof.Machine.execArbHoldBreak h s
  | .arbPrioWrite r v => Sys2Proof.Machine.execArbPrioWrite r v s
  | .timingRegisterWrite k t v => Sys2Proof.Machine.execTimingRegisterWrite k t v s
  | .refreshDue k p => Sys2Proof.Machine.execRefreshDue k p s
  | .refabIssue k p => Sys2Proof.Machine.execRefabIssue k p s
  | .refreshStallEnd k p => Sys2Proof.Machine.execRefreshStallEnd k p s
  | .refPeriodSwitch k => Sys2Proof.Machine.execRefPeriodSwitch k s
  | .refCtrlWrite k v => Sys2Proof.Machine.execRefCtrlWrite k v s
  | .trackerWindowEnd => Sys2Proof.Machine.execTrackerWindowEnd s
  | .rfmIssue k p sid bank => Sys2Proof.Machine.execRfmIssue k p sid bank s
  | .rgCfgWrite k v => Sys2Proof.Machine.execRgCfgWrite k v s
  | .windowPublish k kind p lenUs start => Sys2Proof.Machine.execWindowPublish k kind p lenUs start s
  | .windowStart k testFails uncorrectable => Sys2Proof.Machine.execWindowStart k testFails uncorrectable s
  | .windowEnd k => Sys2Proof.Machine.execWindowEnd k s
  | .srAsk k p => Sys2Proof.Machine.execSrAsk k p s
  | .srEntryBegin k p => Sys2Proof.Machine.execSrEntryBegin k p s
  | .srEntryComplete k p => Sys2Proof.Machine.execSrEntryComplete k p s
  | .srExitStart k p => Sys2Proof.Machine.execSrExitStart k p s
  | .srExitComplete k p => Sys2Proof.Machine.execSrExitComplete k p s
  | .srCfgWrite k v => Sys2Proof.Machine.execSrCfgWrite k v s
  | .trainingComplete k e => Sys2Proof.Machine.execTrainingComplete k e s
  | .deviceIdTimeout k => Sys2Proof.Machine.execDeviceIdTimeout k s
  | .retrainTrigger k => Sys2Proof.Machine.execRetrainTrigger k s
  | .retrainApply k e => Sys2Proof.Machine.execRetrainApply k e s
  | .train k e => Sys2Proof.Machine.execTrain k e s
  | .restore k e v => Sys2Proof.Machine.execRestore k e v s
  | .verify k v => Sys2Proof.Machine.execVerify k v s
  | .trnImageWrite k off v => Sys2Proof.Machine.execTrnImageWrite k off v s
  | .stackTempRead k temp valid => Sys2Proof.Machine.execStackTempRead k temp valid s
  | .stackTempTimeout k => Sys2Proof.Machine.execStackTempTimeout k s
  | .bucketRefill => Sys2Proof.Machine.execBucketRefill s
  | .trfBucketWrite off v => Sys2Proof.Machine.execTrfBucketWrite off v s
  | .gateSlotBoundary => Sys2Proof.Machine.execGateSlotBoundary s
  | .guardBandStart => Sys2Proof.Machine.execGuardBandStart s
  | .gateCommit => Sys2Proof.Machine.execGateCommit s
  | .gateCommitApply => Sys2Proof.Machine.execGateCommitApply s
  | .gateEnable => Sys2Proof.Machine.execGateEnable s
  | .gateStart => Sys2Proof.Machine.execGateStart s
  | .gateDisable => Sys2Proof.Machine.execGateDisable s
  | .histSample => Sys2Proof.Machine.execHistSample s
  | .histClear => Sys2Proof.Machine.execHistClear s
  | .arrayOpDispatch j => Sys2Proof.Machine.execArrayOpDispatch j s
  | .arrayOpEnd j a => Sys2Proof.Machine.execArrayOpEnd j a s
  | .chunkVerdict j c f => Sys2Proof.Machine.execChunkVerdict j c f s
  | .replayDecide j c r => Sys2Proof.Machine.execReplayDecide j c r s
  | .chunkCommit j c => Sys2Proof.Machine.execChunkCommit j c s
  | .chunkWriteFail j c => Sys2Proof.Machine.execChunkWriteFail j c s
  | .droppedResend j tag => Sys2Proof.Machine.execDroppedResend j tag s
  | .lanternReplyArrival j => Sys2Proof.Machine.execLanternReplyArrival j s
  | .jobAbort j c => Sys2Proof.Machine.execJobAbort j c s
  | .contextDrainEnd j c => Sys2Proof.Machine.execContextDrainEnd j c s
  | .contextClearDone j c => Sys2Proof.Machine.execContextClearDone j c s
  | .pairedWrite j b => Sys2Proof.Machine.execPairedWrite j b s
  | .instrReservedOpcode j c => Sys2Proof.Machine.execInstrReservedOpcode j c s
  | .nop j c => Sys2Proof.Machine.execNop j c s
  | .loop j c => Sys2Proof.Machine.execLoop j c s
  | .br j c => Sys2Proof.Machine.execBr j c s
  | .call j c => Sys2Proof.Machine.execCall j c s
  | .callLoadComplete j c => Sys2Proof.Machine.execCallLoadComplete j c s
  | .ret j c => Sys2Proof.Machine.execRet j c s
  | .wait j c => Sys2Proof.Machine.execWait j c s
  | .waitPoll j c => Sys2Proof.Machine.execWaitPoll j c s
  | .waitPollReply j c => Sys2Proof.Machine.execWaitPollReply j c s
  | .waitDeadline j c => Sys2Proof.Machine.execWaitDeadline j c s
  | .signal j c => Sys2Proof.Machine.execSignal j c s
  | .postedReply j c => Sys2Proof.Machine.execPostedReply j c s
  | .fence j c => Sys2Proof.Machine.execFence j c s
  | .fenceComplete j c => Sys2Proof.Machine.execFenceComplete j c s
  | .stampInstr j c => Sys2Proof.Machine.execStampInstr j c s
  | .jobEnd j c => Sys2Proof.Machine.execJobEnd j c s
  | .move j c => Sys2Proof.Machine.execMove j c s
  | .fill j c => Sys2Proof.Machine.execFill j c s
  | .gather j c => Sys2Proof.Machine.execGather j c s
  | .scatter j c => Sys2Proof.Machine.execScatter j c s
  | .cast j c => Sys2Proof.Machine.execCast j c s
  | .quant j c => Sys2Proof.Machine.execQuant j c s
  | .deq j c => Sys2Proof.Machine.execDeq j c s
  | .ew j c => Sys2Proof.Machine.execEw j c s
  | .opt j c => Sys2Proof.Machine.execOpt j c s
  | .mma j c => Sys2Proof.Machine.execMma j c s
  | .norm j c => Sys2Proof.Machine.execNorm j c s
  | .check j c => Sys2Proof.Machine.execCheck j c s
  | .digest j c => Sys2Proof.Machine.execDigest j c s
  | .test j c => Sys2Proof.Machine.execTest j c s
  | .testSpareDeadline j a => Sys2Proof.Machine.execTestSpareDeadline j a s
  | .contribInstr j c => Sys2Proof.Machine.execContribInstr j c s
  | .contribResend j c tag => Sys2Proof.Machine.execContribResend j c tag s
  | .collect j c => Sys2Proof.Machine.execCollect j c s
  | .collectWaitEnd j c => Sys2Proof.Machine.execCollectWaitEnd j c s
  | .posyTake k => Sys2Proof.Machine.execPosyTake k s
  | .posyEvict k x => Sys2Proof.Machine.execPosyEvict k x s
  | .posyPlotFree k index => Sys2Proof.Machine.execPosyPlotFree k index s
  | .posyCfgWrite k v => Sys2Proof.Machine.execPosyCfgWrite k v s
  | .sqDoorbell f r d => Sys2Proof.Machine.execSqDoorbell f r d s
  | .cqDoorbell f r d => Sys2Proof.Machine.execCqDoorbell f r d s
  | .ringFetch => Sys2Proof.Machine.execRingFetch s
  | .entryCheck ring => Sys2Proof.Machine.execEntryCheck ring s
  | .jobDispatch ring => Sys2Proof.Machine.execJobDispatch ring s
  | .recordWrite => Sys2Proof.Machine.execRecordWrite s
  | .msixSend => Sys2Proof.Machine.execMsixSend s
  | .msixPendingClear f vec => Sys2Proof.Machine.execMsixPendingClear f vec s
  | .hostMrd f addr len => Sys2Proof.Machine.execHostMrd f addr len s
  | .hostMwr f addr bytes => Sys2Proof.Machine.execHostMwr f addr bytes s
  | .hostFetchadd f addr v => Sys2Proof.Machine.execHostFetchadd f addr v s
  | .hostCas f addr cmp swap => Sys2Proof.Machine.execHostCas f addr cmp swap s
  | .hostAtomicUnsupported f => Sys2Proof.Machine.execHostAtomicUnsupported f s
  | .hostReadCompletion j tag result data => Sys2Proof.Machine.execHostReadCompletion j tag result data s
  | .handshake f v => Sys2Proof.Machine.execHandshake f v s
  | .heartbeat v => Sys2Proof.Machine.execHeartbeat v s
  | .hostDriverLost => Sys2Proof.Machine.execHostDriverLost s
  | .ringResume f r => Sys2Proof.Machine.execRingResume f r s
  | .ringReset f r => Sys2Proof.Machine.execRingReset f r s
  | .ringResetDone ring => Sys2Proof.Machine.execRingResetDone ring s
  | .ringEnableWrite f r en => Sys2Proof.Machine.execRingEnableWrite f r en s
  | .l1IdleExpiry => Sys2Proof.Machine.execL1IdleExpiry s
  | .busMasterClear f => Sys2Proof.Machine.execBusMasterClear f s
  | .vfFlr f => Sys2Proof.Machine.execVfFlr f s
  | .pfFlr => Sys2Proof.Machine.execPfFlr s
  | .vfEnableClear => Sys2Proof.Machine.execVfEnableClear s
  | .spdmRequest f => Sys2Proof.Machine.execSpdmRequest f s
  | .securedMessage f => Sys2Proof.Machine.execSecuredMessage f s
  | .keyExchange f digest ok => Sys2Proof.Machine.execKeyExchange f digest ok s
  | .endSession x => Sys2Proof.Machine.execEndSession x s
  | .sessionHeartbeatExpiry x => Sys2Proof.Machine.execSessionHeartbeatExpiry x s
  | .tenantCreate f t digest => Sys2Proof.Machine.execTenantCreate f t digest s
  | .tenantDelete f t => Sys2Proof.Machine.execTenantDelete f t s
  | .bindOffer f target t => Sys2Proof.Machine.execBindOffer f target t s
  | .unbind x f target => Sys2Proof.Machine.execUnbind x f target s
  | .bindAccept x target => Sys2Proof.Machine.execBindAccept x target s
  | .ringAreaZeroingDone f => Sys2Proof.Machine.execRingAreaZeroingDone f s
  | .auditAck f seq => Sys2Proof.Machine.execAuditAck f seq s
  | .auditHead f => Sys2Proof.Machine.execAuditHead f s
  | .ckptGet f slot => Sys2Proof.Machine.execCkptGet f slot s
  | .keyGenerate x => Sys2Proof.Machine.execKeyGenerate x s
  | .keyUnwrap x wrapped => Sys2Proof.Machine.execKeyUnwrap x wrapped s
  | .keyRotate x slot => Sys2Proof.Machine.execKeyRotate x slot s
  | .rotationChunkCommit errs => Sys2Proof.Machine.execRotationChunkCommit errs s
  | .setAllocSlot x slot => Sys2Proof.Machine.execSetAllocSlot x slot s
  | .slotQuery x => Sys2Proof.Machine.execSlotQuery x s
  | .keyDestroy x slot => Sys2Proof.Machine.execKeyDestroy x slot s
  | .slotDestroyDone slot => Sys2Proof.Machine.execSlotDestroyDone slot s
  | .keyCopyRepair slot half differs => Sys2Proof.Machine.execKeyCopyRepair slot half differs s
  | .counters x set a b => Sys2Proof.Machine.execCounters x set a b s
  | .auditAppend => Sys2Proof.Machine.execAuditAppend s
  | .auditCheckpoint => Sys2Proof.Machine.execAuditCheckpoint s
  | .caParityError k p => Sys2Proof.Machine.execCaParityError k p s
  | .stateCheckFail k p => Sys2Proof.Machine.execStateCheckFail k p s
  | .thaw k p parityOk => Sys2Proof.Machine.execThaw k p parityOk s
  | .retireCopy k p parityOk => Sys2Proof.Machine.execRetireCopy k p parityOk s
  | .retireNow k p => Sys2Proof.Machine.execRetireNow k p s
  | .freezeOpDone k verifyOk => Sys2Proof.Machine.execFreezeOpDone k verifyOk s
  | .freezeAutoDecision k p parityOk => Sys2Proof.Machine.execFreezeAutoDecision k p parityOk s
  | .start k lpc => Sys2Proof.Machine.execStart k lpc s
  | .migChunkCommit k errs => Sys2Proof.Machine.execMigChunkCommit k errs s
  | .migEnd k errs => Sys2Proof.Machine.execMigEnd k errs s
  | .historyCommit => Sys2Proof.Machine.execHistoryCommit s
  | .patrolScrub k p line errs => Sys2Proof.Machine.execPatrolScrub k p line errs s
  | .targetedScrub k p row errs => Sys2Proof.Machine.execTargetedScrub k p row errs s
  | .historyRead index => Sys2Proof.Machine.execHistoryRead index s
  | .mgStep => Sys2Proof.Machine.execMgStep s
  | .mgSweep v => Sys2Proof.Machine.execMgSweep v s
  | .marigoldRoundEnd j a mismatch parity => Sys2Proof.Machine.execMarigoldRoundEnd j a mismatch parity s
  | .sweepEnd digests => Sys2Proof.Machine.execSweepEnd digests s
  | .fenceArray k a => Sys2Proof.Machine.execFenceArray k a s
  | .fenceLantern k => Sys2Proof.Machine.execFenceLantern k s
  | .watchdogExpiry c => Sys2Proof.Machine.execWatchdogExpiry c s
  | .coreTrap c => Sys2Proof.Machine.execCoreTrap c s
  | .coreRestart c imageOk => Sys2Proof.Machine.execCoreRestart c imageOk s
  | .coreRelease c => Sys2Proof.Machine.execCoreRelease c s
  | .stageChunk f dest off data => Sys2Proof.Machine.execStageChunk f dest off data s
  | .stageEnd f dest total => Sys2Proof.Machine.execStageEnd f dest total s
  | .recWrite f kind body => Sys2Proof.Machine.execRecWrite f kind body s
  | .trnSave f site => Sys2Proof.Machine.execTrnSave f site s
  | .activate => Sys2Proof.Machine.execActivate s
  | .cancel => Sys2Proof.Machine.execCancel s
  | .activationBegin => Sys2Proof.Machine.execActivationBegin s
  | .activationCoreRestart => Sys2Proof.Machine.execActivationCoreRestart s
  | .activationStartFail => Sys2Proof.Machine.execActivationStartFail s
  | .activationEnd => Sys2Proof.Machine.execActivationEnd s
  | .hkSample ch raw => Sys2Proof.Machine.execHkSample ch raw s
  | .graceExpiry => Sys2Proof.Machine.execGraceExpiry s
  | .shutdownNoticeEnd => Sys2Proof.Machine.execShutdownNoticeEnd s
  | .pwroffRequest => Sys2Proof.Machine.execPwroffRequest s
  | .railPoll r answered status vout iout => Sys2Proof.Machine.execRailPoll r answered status vout iout s
  | .pmAlert => Sys2Proof.Machine.execPmAlert s
  | .vsetWrite r mv => Sys2Proof.Machine.execVsetWrite r mv s
  | .pmcVoltageStep marginLogic marginNmc => Sys2Proof.Machine.execPmcVoltageStep marginLogic marginNmc s
  | .thresholdWrite x v => Sys2Proof.Machine.execThresholdWrite x v s
  | .pair => Sys2Proof.Machine.execPair s
  | .pairFormed ok peerDigest => Sys2Proof.Machine.execPairFormed ok peerDigest s
  | .unpair => Sys2Proof.Machine.execUnpair s
  | .takeover => Sys2Proof.Machine.execTakeover s
  | .dataRequest port authOk window ep owner k m => Sys2Proof.Machine.execDataRequest port authOk window ep owner k m s
  | .dataReply port authOk tag gen result => Sys2Proof.Machine.execDataReply port authOk tag gen result s
  | .hello port proto width => Sys2Proof.Machine.execHello port proto width s
  | .stateMessage port seq stamp item => Sys2Proof.Machine.execStateMessage port seq stamp item s
  | .epoch port ep set => Sys2Proof.Machine.execEpoch port ep set s
  | .probe port t1 => Sys2Proof.Machine.execProbe port t1 s
  | .probeReply port t1 t2 t3 => Sys2Proof.Machine.execProbeReply port t1 t2 t3 s
  | .heart port => Sys2Proof.Machine.execHeart port s
  | .down port cause => Sys2Proof.Machine.execDown port cause s
  | .probeSend => Sys2Proof.Machine.execProbeSend s
  | .heartSend => Sys2Proof.Machine.execHeartSend s
  | .partnerLoss => Sys2Proof.Machine.execPartnerLoss s
  | .pairKeyUpdate => Sys2Proof.Machine.execPairKeyUpdate s
  | .mirWindowCommit => Sys2Proof.Machine.execMirWindowCommit s
  | .mirWindowApply => Sys2Proof.Machine.execMirWindowApply s
  | .syncPassDone w => Sys2Proof.Machine.execSyncPassDone w s
  | .mirrorPortSwitch p => Sys2Proof.Machine.execMirrorPortSwitch p s
  | .snap => Sys2Proof.Machine.execSnap s
  | .snapshotTake => Sys2Proof.Machine.execSnapshotTake s
  | .freezeWrite b => Sys2Proof.Machine.execFreezeWrite b s
  | .freezeApply => Sys2Proof.Machine.execFreezeApply s
  | .pmuSelWrite unit x v => Sys2Proof.Machine.execPmuSelWrite unit x v s
  | .phyPllLock n => Sys2Proof.Machine.execPhyPllLock n s

end Sys2Proof.Machine
end

