-- ==== Sys2Proof/Machine/Tick.lean ====
section
/-! DEFINITION. A tick of CLK_TS, in which no command comes (notes/assumptions/1): what the block does by the clock alone, and the
timestamp's advance (R42). -/

namespace Sys2Proof.Machine

/-- The cap bucket of a cluster refills (R737): the PCs of its stack times MULT, in 1/192 line. -/
def State.refillCap (s : State) (k : Nat) : State :=
  { s with capUsed := tset 0 s.capUsed k (tget 0 s.capUsed k - s.pcCount k * s.rd F.CLOCK_PHYPLL.MULT k) }

/-- The rings whose RING_STATE has ever been written. -/
def State.knownRings (s : State) : List Nat :=
  (s.regs.filter fun e => e.1 >>> 28 == RegName.RING_STATE.ctorIdx).map fun e => e.1 >>> 14 % 2 ^ 14

/-- What the present tick brings by itself, before the timestamp advances: counters (R784 to R791), the cap buckets (R737), the watch for an
emergency (R712, R717), the end of what heat asked for (R749), the rows that maintenance windows open (R632, R634), the Lanterns' requests
that credits have come for (R146), replays that the gate stops (R305), the mirror's items and copy pass (R759, R769), the end of an UNPAIR
(R779), the idle watch of the host side (R542) and rings whose EN is 0 (R553). -/
def State.present (s : State) : State :=
  let s := (s.windows.foldl (fun s e => s.actWindow e.1) s).cutBursts.settleHits
  let s := s.countPcs.sampleUnits
  let s := onlyIf (s.bit F.SNF_STAT.ENFORCED) ((List.range 12).foldl State.refillCap s) s
  let now := s.now
  let s := s.deferLate
  let s := onlyIf s.emergency (s.modFw fun f => { f with clear := now + 1 }) s
  let s := allLanterns.foldl (fun s j => (onlyIf (!(s.lnt j).queue.isEmpty) (s.pump j) s).holdReplays j) s
  let s := s.heatLeaves.sendItems.syncLines.mirLeft.l1Tick.clearBins
  s.knownRings.foldl (fun s i => s.settleRing Origin.hw i) s

/-- The next tick begins: the registers stand as it finds them, and no event has come in it. -/
def State.turn (s : State) : State :=
  { s with
    clk := { s.clk with now := s.clk.now + 1 }
    regs0 := s.regs
    regs1 := s.regs0
    events := []
    rings := { s.rings with resumes := [], replied := [] } }

/-- A cycle of CLK_NMC begins: the arrays chosen in the cycle of their operation's end leave the pool (R366). -/
def State.nmcBegins (s : State) : State :=
  if !s.nmcEdge then s else
  allLanterns.foldl (fun (s : State) j => let l := s.lnt j
    if l.ended.isEmpty && l.late.isEmpty && l.fence.isEmpty then s
    else ((s.modLnt j fun l => { l with ended := [], late := [] }).settleFences j).tryTests j) s

/-- The writes that wait at the hub's endpoint are tried again (R598). -/
def State.retryWrites (s : State) : State := { s with pending := s.pending ++ s.endpoint, endpoint := [] }

/-- What a tick begins with: the gate's changes of the tick before, changes of plot entries and a plot command that waited for it, and the
mirrored writes tapped in it (R71, R298, R308, R313, R598, R763); the counters as a snapshot of the tick copies them (R793). -/
def State.begins (s : State) : State :=
  (onlyIf (s.pmus.snapAt == some s.now) { s with pmus := { s.pmus with stash := s.regs } } s).gateBegins.changesDue.plotResume.nmcBegins.mirPump.retryWrites

/-- A tick: nothing happens while the timestamp is held (R42). -/
def State.tick (s : State) : State := if s.clk.running then s.present.turn.begins else s

end Sys2Proof.Machine
end

