-- ==== Sys2Proof/WellFormed.lean ====
section
/-! DEFINITION. Well-formed commands: the operands are what the block's interfaces can carry. -/

namespace Sys2Proof

open Sys2Proof.Machine

/-- The operands of a command are within their fields, its lists have the lengths the command has. A command that is not
well-formed is one that no interface of the block can carry; its meaning completes all the same (notes/assumptions/2). -/
def Instr.wf : Instr → Bool
  | .coldReset _ => true
  | .pllMainLock => true
  | .schRelease => true
  | .bootPhaseFail _ _ => true
  | .warmResetRequest => true
  | .warmReset e => e.sites.all fun w => siteWf w.train
  | .pllMainUnlock => true
  | .phyPllUnlock _ => true
  | .fclkStop => true
  | .fclkReturn mhz => decide (800 ≤ mhz.toNat ∧ mhz.toNat ≤ 2000)
  | .tsReplicaCheck skews => skews.length == 13
  | .tsCapture => true
  | .tsCheckEnable => true
  | .phyMultWrite _ _ => true
  | .nmcDividerChange => true
  | .reg64LowRead _ _ => true
  | .rcFieldRead _ _ => true
  | .registerWrite _ _ _ _ => true
  | .undefinedOffsetAccess _ _ _ => true
  | .alloc _ => true
  | .free _ => true
  | .setrights _ => true
  | .setmirror _ => true
  | .plotCmdBadOp _ _ => true
  | .allocZeroingDone _ => true
  | .plotQuarantineEnd _ => true
  | .rd _ _ _ m => msgWf opRD m
  | .wr _ _ _ m => msgWf opWR m
  | .wrp _ _ _ m => msgWf opWRP m
  | .aadd _ _ _ m => msgWf opAADD m
  | .acas _ _ _ m => msgWf opACAS m
  | .contrib _ _ _ m => msgWf opCONTRIB m
  | .lkacq _ _ _ m => msgWf opLKACQ m
  | .lkrel _ _ _ m => msgWf opLKREL m
  | .stamp _ _ _ m => msgWf opSTAMP m
  | .unknownOpcodeRequest _ _ _ m => unknownWf m
  | .ingressRelease _ _ _ => true
  | .requestTimeout _ => true
  | .portLinkDown _ => true
  | .portLinkUp _ _ => true
  | .linkRetryReport _ => true
  | .fabricResponseCredit _ _ _ => true
  | .lockLeaseExpiry _ _ _ => true
  | .lockBreak _ _ _ => true
  | .crossbarGrant _ _ => true
  | .accessIssue _ _ _ => true
  | .readDataReturn _ _ _ => true
  | .replyHandover _ => true
  | .arbHoldSet _ _ _ => true
  | .arbHoldRelease _ _ => true
  | .arbHoldLeaseExpiry _ => true
  | .arbHoldBreak _ => true
  | .arbPrioWrite _ _ => true
  | .timingRegisterWrite _ _ _ => true
  | .refreshDue _ _ => true
  | .refabIssue _ _ => true
  | .refreshStallEnd _ _ => true
  | .refPeriodSwitch _ => true
  | .refCtrlWrite _ _ => true
  | .trackerWindowEnd => true
  | .rfmIssue _ _ _ _ => true
  | .rgCfgWrite _ _ => true
  | .windowPublish _ _ _ _ _ => true
  | .windowStart _ _ _ => true
  | .windowEnd _ => true
  | .srAsk _ _ => true
  | .srEntryBegin _ _ => true
  | .srEntryComplete _ _ => true
  | .srExitStart _ _ => true
  | .srExitComplete _ _ => true
  | .srCfgWrite _ _ => true
  | .trainingComplete _ e => siteWf e
  | .deviceIdTimeout _ => true
  | .retrainTrigger _ => true
  | .retrainApply _ e => siteWf e
  | .train _ e => siteWf e
  | .restore _ e _ => siteWf e
  | .verify _ _ => true
  | .trnImageWrite _ _ _ => true
  | .stackTempRead _ _ _ => true
  | .stackTempTimeout _ => true
  | .bucketRefill => true
  | .trfBucketWrite _ _ => true
  | .gateSlotBoundary => true
  | .guardBandStart => true
  | .gateCommit => true
  | .gateCommitApply => true
  | .gateEnable => true
  | .gateStart => true
  | .gateDisable => true
  | .histSample => true
  | .histClear => true
  | .arrayOpDispatch _ => true
  | .arrayOpEnd _ _ => true
  | .chunkVerdict _ _ _ => true
  | .replayDecide _ _ _ => true
  | .chunkCommit _ _ => true
  | .chunkWriteFail _ _ => true
  | .droppedResend _ _ => true
  | .lanternReplyArrival _ => true
  | .jobAbort _ _ => true
  | .contextDrainEnd _ _ => true
  | .contextClearDone _ _ => true
  | .pairedWrite _ _ => true
  | .instrReservedOpcode _ _ => true
  | .nop _ _ => true
  | .loop _ _ => true
  | .br _ _ => true
  | .call _ _ => true
  | .callLoadComplete _ _ => true
  | .ret _ _ => true
  | .wait _ _ => true
  | .waitPoll _ _ => true
  | .waitPollReply _ _ => true
  | .waitDeadline _ _ => true
  | .signal _ _ => true
  | .postedReply _ _ => true
  | .fence _ _ => true
  | .fenceComplete _ _ => true
  | .stampInstr _ _ => true
  | .jobEnd _ _ => true
  | .move _ _ => true
  | .fill _ _ => true
  | .gather _ _ => true
  | .scatter _ _ => true
  | .cast _ _ => true
  | .quant _ _ => true
  | .deq _ _ => true
  | .ew _ _ => true
  | .opt _ _ => true
  | .mma _ _ => true
  | .norm _ _ => true
  | .check _ _ => true
  | .digest _ _ => true
  | .test _ _ => true
  | .testSpareDeadline _ _ => true
  | .contribInstr _ _ => true
  | .contribResend _ _ _ => true
  | .collect _ _ => true
  | .collectWaitEnd _ _ => true
  | .posyTake _ => true
  | .posyEvict _ _ => true
  | .posyPlotFree _ _ => true
  | .posyCfgWrite _ _ => true
  | .sqDoorbell _ _ _ => true
  | .cqDoorbell _ _ _ => true
  | .ringFetch => true
  | .entryCheck _ => true
  | .jobDispatch _ => true
  | .recordWrite => true
  | .msixSend => true
  | .msixPendingClear _ _ => true
  | .hostMrd _ addr len => hostWf addr len
  | .hostMwr _ addr bytes => hostWf addr bytes.length
  | .hostFetchadd _ addr _ => addr % 8 == 0 && hostWf addr 8
  | .hostCas _ addr _ _ => addr % 8 == 0 && hostWf addr 8
  | .hostAtomicUnsupported _ => true
  | .hostReadCompletion _ _ _ _ => true
  | .handshake _ _ => true
  | .heartbeat _ => true
  | .hostDriverLost => true
  | .ringResume _ _ => true
  | .ringReset _ _ => true
  | .ringResetDone _ => true
  | .ringEnableWrite _ _ _ => true
  | .l1IdleExpiry => true
  | .busMasterClear _ => true
  | .vfFlr _ => true
  | .pfFlr => true
  | .vfEnableClear => true
  | .spdmRequest _ => true
  | .securedMessage _ => true
  | .keyExchange _ _ _ => true
  | .endSession _ => true
  | .sessionHeartbeatExpiry _ => true
  | .tenantCreate _ _ _ => true
  | .tenantDelete _ _ => true
  | .bindOffer _ _ _ => true
  | .unbind _ _ _ => true
  | .bindAccept _ _ => true
  | .ringAreaZeroingDone _ => true
  | .auditAck _ _ => true
  | .auditHead _ => true
  | .ckptGet _ _ => true
  | .keyGenerate _ => true
  | .keyUnwrap _ _ => true
  | .keyRotate _ _ => true
  | .rotationChunkCommit _ => true
  | .setAllocSlot _ _ => true
  | .slotQuery _ => true
  | .keyDestroy _ _ => true
  | .slotDestroyDone _ => true
  | .keyCopyRepair _ _ _ => true
  | .counters _ _ _ _ => true
  | .auditAppend => true
  | .auditCheckpoint => true
  | .caParityError _ _ => true
  | .stateCheckFail _ _ => true
  | .thaw _ _ _ => true
  | .retireCopy _ _ _ => true
  | .retireNow _ _ => true
  | .freezeOpDone _ _ => true
  | .freezeAutoDecision _ _ _ => true
  | .start _ _ => true
  | .migChunkCommit _ _ => true
  | .migEnd _ _ => true
  | .historyCommit => true
  | .patrolScrub _ _ _ _ => true
  | .targetedScrub _ _ _ _ => true
  | .historyRead _ => true
  | .mgStep => true
  | .mgSweep _ => true
  | .marigoldRoundEnd _ _ _ _ => true
  | .sweepEnd digests => digests.length == 12
  | .fenceArray _ _ => true
  | .fenceLantern _ => true
  | .watchdogExpiry _ => true
  | .coreTrap _ => true
  | .coreRestart _ _ => true
  | .coreRelease _ => true
  | .stageChunk _ _ _ data => !data.isEmpty && decide (data.length ≤ 1000)
  | .stageEnd _ _ _ => true
  | .recWrite _ _ body => decide (body.length ≤ 1008)
  | .trnSave _ _ => true
  | .activate => true
  | .cancel => true
  | .activationBegin => true
  | .activationCoreRestart => true
  | .activationStartFail => true
  | .activationEnd => true
  | .hkSample _ _ => true
  | .graceExpiry => true
  | .shutdownNoticeEnd => true
  | .pwroffRequest => true
  | .railPoll _ _ _ _ _ => true
  | .pmAlert => true
  | .vsetWrite _ _ => true
  | .pmcVoltageStep _ _ => true
  | .thresholdWrite _ _ => true
  | .pair => true
  | .pairFormed _ _ => true
  | .unpair => true
  | .takeover => true
  | .dataRequest _ _ _ _ _ _ m => frameWf m
  | .dataReply _ _ _ _ _ => true
  | .hello _ _ _ => true
  | .stateMessage _ _ _ _ => true
  | .epoch _ _ _ => true
  | .probe _ _ => true
  | .probeReply _ _ _ _ => true
  | .heart _ => true
  | .down _ _ => true
  | .probeSend => true
  | .heartSend => true
  | .partnerLoss => true
  | .pairKeyUpdate => true
  | .mirWindowCommit => true
  | .mirWindowApply => true
  | .syncPassDone _ => true
  | .mirrorPortSwitch _ => true
  | .snap => true
  | .snapshotTake => true
  | .freezeWrite _ => true
  | .freezeApply => true
  | .pmuSelWrite _ _ _ => true
  | .phyPllLock _ => true

end Sys2Proof
end

