-- ==== Sys2Proof/Safety.lean ====
section
/-! DEFINITION. What counts as a safe run, and the terms the statements use to say what a command leaves as it was. -/

namespace Sys2Proof.Machine

/-- Every command that waits is one the block's interfaces can carry. -/
def State.safe (s : State) : Bool := s.pending.all Instr.wf

/-- The canonical form of stored memory: its keys strictly rise. A line no key names reads as the background of its place. -/
def Memory.wf (m : Tbl Line) : Bool := rising m

/-- The identification registers hold their values (R13). -/
def State.identified (s : State) : Prop :=
  s.reg .GLOBAL_ID = RegName.GLOBAL_ID.reset 0 0 ∧ s.reg .GLOBAL_PROTO = RegName.GLOBAL_PROTO.reset 0 0

/-- The parts of the state: its fields, with the audit queue apart from the rest of SEC's. -/
inductive Part where
  | pending | endpoint | clk | regs | regs0 | regs1 | bytes | hiLatch | out | freeCount | mem | fills | plots | quar
  | plotDue | deadFrames | unbacked | flights | nextId | order | locks | credits | slices | waitSeen | pcs | holds
  | throttles | thrOff | rgHits | trkWindow | hotNext | windows | triggers | rtrFrom | narrow | groups | groupsDue
  | gateOn | gateOff | calWait | latokDue | refilled | sampled | histClear | burstCuts | stackTemp | goodTemp | sampleAt
  | capUsed | recs | recTick | recLast | hist | histFlash | migs | migSeq | passes | frzOps | migWant | pprRows
  | tests | scrubs | rings | lnts | posies | pmus | fw | pw | mir | advised | sec | auditQ
deriving DecidableEq, Repr

/-- A part of `t` is as in `s`. -/
def State.kept (s t : State) : Part → Prop
  | .pending => t.pending = s.pending
  | .endpoint => t.endpoint = s.endpoint
  | .clk => t.clk = s.clk
  | .regs => t.regs = s.regs ∧ t.events = s.events
  | .regs0 => t.regs0 = s.regs0
  | .regs1 => t.regs1 = s.regs1
  | .bytes => t.bytes = s.bytes
  | .hiLatch => t.hiLatch = s.hiLatch
  | .out => t.out = s.out
  | .freeCount => t.free = s.free
  | .mem => t.mem = s.mem
  | .fills => t.fills = s.fills
  | .plots => t.plots = s.plots
  | .quar => t.quar = s.quar
  | .plotDue => t.plotDue = s.plotDue
  | .deadFrames => t.deadFrames = s.deadFrames
  | .unbacked => t.unbacked = s.unbacked
  | .flights => t.flights = s.flights
  | .nextId => t.nextId = s.nextId
  | .order => t.order = s.order
  | .locks => t.locks = s.locks
  | .credits => t.credits = s.credits
  | .slices => t.slices = s.slices
  | .waitSeen => t.waitSeen = s.waitSeen
  | .pcs => t.pcs = s.pcs
  | .holds => t.holds = s.holds
  | .throttles => t.throttles = s.throttles
  | .thrOff => t.thrOff = s.thrOff
  | .rgHits => t.rgHits = s.rgHits
  | .trkWindow => t.trkWindow = s.trkWindow
  | .hotNext => t.hotNext = s.hotNext
  | .windows => t.windows = s.windows
  | .triggers => t.triggers = s.triggers
  | .rtrFrom => t.rtrFrom = s.rtrFrom
  | .narrow => t.narrow = s.narrow
  | .groups => t.groups = s.groups
  | .groupsDue => t.groupsDue = s.groupsDue
  | .gateOn => t.gateOn = s.gateOn
  | .gateOff => t.gateOff = s.gateOff
  | .calWait => t.calWait = s.calWait
  | .latokDue => t.latokDue = s.latokDue
  | .refilled => t.refilled = s.refilled
  | .sampled => t.sampled = s.sampled
  | .histClear => t.histClear = s.histClear
  | .burstCuts => t.burstCuts = s.burstCuts
  | .stackTemp => t.stackTemp = s.stackTemp
  | .goodTemp => t.goodTemp = s.goodTemp
  | .sampleAt => t.sampleAt = s.sampleAt
  | .capUsed => t.capUsed = s.capUsed
  | .recs => t.recs = s.recs
  | .recTick => t.recTick = s.recTick
  | .recLast => t.recLast = s.recLast
  | .hist => t.hist = s.hist
  | .histFlash => t.histFlash = s.histFlash
  | .migs => t.migs = s.migs
  | .migSeq => t.migSeq = s.migSeq
  | .passes => t.passes = s.passes
  | .frzOps => t.frzOps = s.frzOps
  | .migWant => t.migWant = s.migWant
  | .pprRows => t.pprRows = s.pprRows
  | .tests => t.tests = s.tests
  | .scrubs => t.scrubs = s.scrubs
  | .rings => t.rings = s.rings
  | .lnts => t.lnts = s.lnts
  | .posies => t.posies = s.posies
  | .pmus => t.pmus = s.pmus
  | .fw => t.fw = s.fw
  | .pw => t.pw = s.pw
  | .mir => t.mir = s.mir
  | .advised => t.advised = s.advised
  | .sec => { t.sec with auditQ := [] } = { s.sec with auditQ := [] }
  | .auditQ => t.sec.auditQ = s.sec.auditQ

/-- From `s` to `t` only the parts of `l` may change. -/
def State.keptBut (s t : State) (l : List Part) : Prop := ∀ p, p ∉ l → s.kept t p

/-- Every register of `t` but the elements of `l` holds what it holds in `s` (indices count modulo 2^14). -/
def State.onlyRegs (s t : State) (l : List (RegName × Nat × Nat)) : Prop :=
  ∀ r i j, (r, i % 2 ^ 14, j % 2 ^ 14) ∉ l → t.reg r i j = s.reg r i j

/-- From `s` to `t` nothing changes but the registers of `l` and the audit queue. -/
def State.regsOnly (s t : State) (l : List (RegName × Nat × Nat)) : Prop := s.keptBut t [.regs, .auditQ] ∧ s.onlyRegs t l

/-- Every register is as it was. -/
def State.sameRegs (s t : State) : Prop := ∀ r i j, t.reg r i j = s.reg r i j

/-- From `s` to `t` SEC has answered function `f`'s mailbox: RESULT `r`, DETAIL `d` and data, in session `sess` where one is given. -/
def State.answered (s t : State) (f : Nat) (sess : Option Nat) (r d : Nat) (data : List Byte) : Prop :=
  t.out = s.out ++ [.mailbox f sess r d data] ∧ t.bit F.MBX_STATUS.BUSY f = false ∧ t.bit F.MBX_STATUS.DONE f = true ∧
    t.rd F.MBX_STATUS.STATUS f % 16 = r % 16

/-- An audit entry of a change that takes effect now, stamped by SEC's replica (R45, R594), waits in the queue of `t`. -/
def State.queued (s t : State) (okind oid obj place old new : Nat) : Prop :=
  ∃ d, (⟨s.nowAt 12, okind, oid, obj, place, old, new, d⟩ : AuditEnt) ∈ t.sec.auditQ

end Sys2Proof.Machine
end

