-- ==== Sys2Proof/Certificates/Slice0/Obligations.lean ====
section
/-! DEFINITION. The statements for the provers: what the rules of the spec say the commands do. -/

open Sys2Proof Sys2Proof.Machine

/-- The queue is the model's: a step takes the command at its front (notes/assumptions/1), and with no command a tick passes (R42). -/
def Obligations.StepRunsTheFront : Prop := ∀ s : State,
  (∀ c rest, s.pending = c :: rest → step s = exec c { s with pending := rest }) ∧
  (∀ c, step { s with pending := c :: s.pending } = exec c s) ∧
  (s.pending = [] → ∃ t, step s = .next t ∧ (s.clk.running = false → t = s))

/-- No command's meaning stops (the list of commands gives each its effect); what an interface cannot carry changes nothing. -/
def Obligations.EveryCommandCompletes : Prop :=
  (∀ (c : Instr) (s : State), ∃ t, exec c s = .next t) ∧ (∀ s : State, ∃ t, step s = .next t)

/-- R13: an invariant of every step. -/
def Obligations.IdentityNeverChanges : Prop := ∀ s t : State, s.identified → step s = .next t →
  t.reg .GLOBAL_ID = s.reg .GLOBAL_ID ∧ t.reg .GLOBAL_PROTO = s.reg .GLOBAL_PROTO

/-- An invariant of every step: no location of the DRAM holds two lines. The form is the model's; that a location holds one line is the
spec's (R80, R607). -/
def Obligations.MemoryKeepsItsForm : Prop := ∀ s t : State, Memory.wf s.mem = true → step s = .next t → Memory.wf t.mem = true

/-- R13, R42, R689: the state after reset meets the premises of the invariants. -/
def Obligations.ResetHoldsTheInvariants : Prop :=
  State.reset.identified ∧ Memory.wf State.reset.mem = true ∧ State.reset.mem = [] ∧ State.reset.pending = [] ∧
  State.reset.reg .GLOBAL_ID = 0x5B101220 ∧ State.reset.reg .GLOBAL_PROTO = 0x00100202 ∧ State.reset.inBoot = true ∧
  State.reset.now = 0 ∧ State.reset.clk.running = false ∧ (∀ c, c < 15 → State.reset.coreSt c = coreHeld)

/-- R475, R477, R479, R480, R482, R484, R485, R510, R511: the commands POSY_TAKE, POSY_EVICT, POSY_PLOT_FREE and POSY_CFG_WRITE. -/
def Obligations.PosyRows : Prop := ∀ (s : State) (k : Cluster),
  (∀ f rest, s.posyIn k = f :: rest → s.nmcEdge = true → (s.posy k).edge ≠ s.now + 1 →
    (s.bit F.LNT_CTL.FENCED k = true → ∃ t, exec (.posyTake k) s = .next t ∧
      t.flights = s.flights.map (fun g => if g.id == f.id then { g with stage := .replying (s.now + 16), result := rRETRY } else g) ∧
      (t.posy k).ents = (s.posy k).ents ∧ s.keptBut t [.posies, .regs, .flights, .pmus] ∧ s.onlyRegs t [(.POSY_STAT0, k, 0)]) ∧
    (s.bit F.LNT_CTL.FENCED k = false →
      crc64 (((List.range (hLen f.hdr)).map fun i => f.beats.getD i 0).flatMap fun l => leBytes l 64) ≠ f.trailer.extractLsb' 0 64 →
      ∃ t, exec (.posyTake k) s = .next t ∧
      t.flights = s.flights.map (fun g => if g.id == f.id then { g with stage := .replying (s.now + 16), result := rCHECK } else g) ∧
      (t.posy k).ents = (s.posy k).ents ∧ s.keptBut t [.posies, .regs, .flights, .pmus] ∧ s.onlyRegs t [(.POSY_STAT0, k, 0)]) ∧
    (∀ i key, s.bit F.LNT_CTL.FENCED k = false → crc64 (leBytes (f.beats.getD 0 0) 64) = f.trailer.extractLsb' 0 64 →
      hLen f.hdr = 1 → hCfmt f.hdr = 0 → key = ⟨paField (hLine f.hdr / 64), false, hOpnd f.hdr >>> 48 % 65536⟩ → (s.posy k).find key = none →
      leastBelow 512 (fun i => ((s.posy k).ent i).isNone) = some i → 1 + s.rd0 F.POSY_CFG.RESERVE k ≤ (s.posy k).room →
      ∃ t, exec (.posyTake k) s = .next t ∧
      t.flights = s.flights.map (fun g => if g.id == f.id then { g with stage := .replying (s.now + 16), result := rOK } else g) ∧
      (t.posy k).ent i = some ((((PosyEnt.new key 0).addLine (f.beats.getD 0 0)).count1 (hOpnd f.hdr >>> 32 % 65536) s.now).declare
        (of64 (f.trailer.extractLsb' 64 64))) ∧
      (∀ n, n ≠ i → (t.posy k).ent n = (s.posy k).ent n) ∧
      t.rd F.POSY_TAKEN.COUNT k = (s.rd F.POSY_TAKEN.COUNT k + 1) % 2 ^ F.POSY_TAKEN.COUNT.len ∧
      s.keptBut t [.posies, .regs, .flights, .pmus] ∧ s.onlyRegs t [(.POSY_TAKEN, k, 0)])) ∧
  (∀ (i : Fin 512) e, s.nmcEdge = true → (s.posy k).ent i = some e → e.held = false → s.posyFirst k [e.line] = false →
    e.last + usTicks (s.rd0 F.POSY_CFG.IDLE_US k) ≤ s.now →
    ∃ t, exec (.posyEvict k i) s = .next t ∧ (t.posy k).ent i = none ∧ (∀ n, n ≠ i.val → (t.posy k).ent n = (s.posy k).ent n) ∧
      t.rd F.POSY_STAT1.EVICTS k = min (2 ^ F.POSY_STAT1.EVICTS.len - 1) (s.rd F.POSY_STAT1.EVICTS k + 1) ∧
      s.keptBut t [.posies, .regs, .recs, .recTick, .recLast]) ∧
  (∀ (n : Fin 4096) m, s.nmcEdge = true → (s.posy k).free.find? (·.1 == n.val) = some (n.val, m) →
    (∀ f ∈ s.flights, f.k = k.val → hOp f.hdr = opCONTRIB → f.plot = n.val → m ≤ f.id) →
    ∃ t, exec (.posyPlotFree k n) s = .next t ∧ (∀ e ∈ (t.posy k).ents, ∀ x, e.2 = some x → x.line >>> 22 % 4096 ≠ n.val) ∧
      s.keptBut t [.posies]) ∧
  (∀ v : W32, s.pfHeld = false → ∃ t, exec (.posyCfgWrite k v) s = .next t ∧
    t.rd F.POSY_CFG.RESERVE k = (if v.toNat / 2 ^ 23 ≤ 256 then v.toNat / 2 ^ 23 else s.rd F.POSY_CFG.RESERVE k) ∧
    t.rd F.POSY_CFG.IDLE_US k = (if 1 ≤ v.toNat % 2 ^ 20 ∧ v.toNat % 2 ^ 20 ≤ 1000000 then v.toNat % 2 ^ 20 else s.rd F.POSY_CFG.IDLE_US k) ∧
    s.regsOnly t [(.POSY_CFG, k, 0)])

/-- R42, R41: the commands PLL_MAIN_LOCK and PLL_MAIN_UNLOCK. R40, R57: the commands PHY_PLL_UNLOCK and PHY_PLL_LOCK. -/
def Obligations.PllsLockAndUnlock : Prop := (
  ∀ s : State,
  (s.clk.running = false → s.clk.mainLost = false → ∃ t, exec .pllMainLock s = .next t ∧
    t.clk.running = true ∧ t.clk.now = 0 ∧ t.bit F.CLOCK_STATUS.MAIN_LOCK = true ∧
    s.keptBut t [.clk, .regs, .regs0, .regs1] ∧ s.onlyRegs t [(.CLOCK_STATUS, 0, 0)]) ∧
  (s.bit F.CLOCK_STATUS.MAIN_LOCK = true → ∃ t, exec .pllMainUnlock s = .next t ∧
    t.bit F.CLOCK_STATUS.MAIN_LOCK = false ∧ t.clk.mainLost = true ∧ t.out = s.out ++ [.hub .coldAsk] ∧
    (∀ k p, (s.pc k p).st.live = true → (t.pc k p).st = .selfRefresh) ∧
    (∀ k p, (s.pc k p).st.live = true ∨ (s.pc k p).st = .frozen ∨ (s.pc k p).st = .retired → (t.pc k p).sr = .asleep) ∧
    s.keptBut t [.clk, .regs, .pcs, .out])) ∧ (
  ∀ (s : State) (n : Cluster),
  (nbit (s.rd F.CLOCK_STATUS.PHY_LOCK) n = true → ∃ t, exec (.phyPllUnlock n) s = .next t ∧
    nbit (t.rd F.CLOCK_STATUS.PHY_LOCK) n = false ∧ t.bit F.CLOCK_PHYPLL.LOCK n = false ∧
    nbit (t.rd F.CLOCK_ERR.PHY_UNLOCK) n = true ∧
    (∀ p, p < 64 → (s.pc n p).st.canFreeze = true → (t.pc n p).st = .frozen) ∧
    (∀ k p, k ≠ n.val → p < 64 → t.pc k p = s.pc k p) ∧ t.mem = s.mem ∧ t.plots = s.plots) ∧
  (nbit (s.rd F.CLOCK_STATUS.PHY_LOCK) n = false → s.rd F.CLOCK_PHYPLL.MULT n ≠ 0 → ∃ t, exec (.phyPllLock n) s = .next t ∧
    nbit (t.rd F.CLOCK_STATUS.PHY_LOCK) n = true ∧ t.bit F.CLOCK_PHYPLL.LOCK n = true ∧
    s.keptBut t [.clk, .regs, .freeCount] ∧ s.onlyRegs t [(.CLOCK_STATUS, 0, 0), (.CLOCK_PHYPLL, n, 0)]))

/-- R35, R34, R54: the commands FCLK_STOP and FCLK_RETURN. R39: the command NMC_DIVIDER_CHANGE. -/
def Obligations.FabricAndNmcClocks : Prop := (
  ∀ s : State,
  (s.bit F.CLOCK_STATUS.FCLK_PRESENT = true → ∃ t, exec .fclkStop s = .next t ∧
    t.bit F.CLOCK_STATUS.FCLK_PRESENT = false ∧ t.rd F.CLOCK_FCLK.FREQ_MHZ = 0 ∧
    t.bit F.CLOCK_ERR.FCLK_LOST = (s.doorkeeperBusy || s.bit F.CLOCK_ERR.FCLK_LOST) ∧ t.flights = s.flights ∧
    s.regsOnly t [(.CLOCK_STATUS, 0, 0), (.CLOCK_ERR, 0, 0), (.CLOCK_FCLK, 0, 0)]) ∧
  (∀ mhz : BitVec 16, 800 ≤ mhz.toNat → mhz.toNat ≤ 2000 → ∃ t, exec (.fclkReturn mhz) s = .next t ∧
    t.bit F.CLOCK_STATUS.FCLK_PRESENT = true ∧ t.rd F.CLOCK_FCLK.FREQ_MHZ = mhz.toNat ∧
    s.regsOnly t [(.CLOCK_STATUS, 0, 0), (.CLOCK_FCLK, 0, 0)])) ∧ (
  ∀ (s : State) (h : Bool), s.clk.nmcAsk = some h →
  (s.now % 10 = 0 → s.nmcEdge = true → ∃ t, exec .nmcDividerChange s = .next t ∧
    t.bit F.CLOCK_STATUS.NMC_HALF = h ∧ t.clk.nmcAsk = none ∧ t.clk.nmcOrigin = s.now ∧ s.keptBut t [.clk, .regs, .lnts] ∧
    s.onlyRegs t [(.CLOCK_STATUS, 0, 0)]) ∧
  ((s.now % 10 ≠ 0 ∨ s.nmcEdge = false) → exec .nmcDividerChange s = .next s))

/-- R54, R58, R59, R44, R45: the commands TS_CAPTURE, TS_CHECK_ENABLE and TS_REPLICA_CHECK. -/
def Obligations.Timestamp : Prop := ∀ s : State,
  (s.pfHeld = false → ∃ t, exec .tsCapture s = .next t ∧ t.reg .TS_CAPT = s.clk.now ∧
    s.queued t 1 0 0 0x100100 (s.reg .TS_CAPT).toNat s.now ∧ s.regsOnly t [(.TS_CAPT, 0, 0)]) ∧
  (s.pfHeld = false → s.bit F.TS_CTRL.CHECK_EN = false → ∃ t, exec .tsCheckEnable s = .next t ∧
    t.bit F.TS_CTRL.CHECK_EN = true ∧ t.clk.nextCheck = (s.now / 1024 + 1) * 1024 ∧ s.queued t 1 0 0 0x100100 0 2 ∧
    s.keptBut t [.clk, .regs, .auditQ] ∧ s.onlyRegs t [(.TS_CTRL, 0, 0)]) ∧
  (∀ skews : List W64, s.clk.running = true → s.bit F.TS_CTRL.CHECK_EN = true → s.now % 1024 = 0 →
    s.clk.nextCheck ≤ s.now → ∃ t, exec (.tsReplicaCheck skews) s = .next t ∧
    t.clk.nextCheck = s.now + 1024 ∧ t.clk.now = s.clk.now ∧ t.clk.skew = [] ∧ t.mem = s.mem ∧
    ((∃ i, i < 13 ∧ tget 0 s.clk.skew i + skews.getD i 0 ≠ 0) → t.bit F.CLOCK_ERR.TS_REPLICA = true) ∧
    ((∀ i, i < 13 → tget 0 s.clk.skew i + skews.getD i 0 = 0) → s.keptBut t [.clk])) ∧
  (∀ skews : List W64, (s.clk.running = false ∨ s.bit F.TS_CTRL.CHECK_EN = false ∨ s.now % 1024 ≠ 0 ∨ s.now < s.clk.nextCheck) →
    ∃ t, exec (.tsReplicaCheck skews) s = .next t ∧ s.keptBut t [.clk] ∧ t.now = s.now ∧
      ∀ i, i < 13 → t.nowAt i = (s.clk.now + (tget 0 s.clk.skew i + skews.getD i 0)).toNat)

/-- R55 whole; R56 and R57 in the accepted case: the command PHY_MULT_WRITE. -/
def Obligations.PhyMultRule : Prop := ∀ (s : State) (n : Cluster) (m : Byte),
  (s.pfHeld && !s.siteStarting n) = false →
  ((m.toNat ≠ 0 ∧ (m.toNat < 32 ∨ 48 < m.toNat)) → ∃ t, exec (.phyMultWrite n m) s = .next t ∧
    t.bit F.CLOCK_ERR.PHYMULT_REJ = true ∧ t.rd F.CLOCK_PHYPLL.MULT n = s.rd F.CLOCK_PHYPLL.MULT n ∧
    s.regsOnly t [(.CLOCK_ERR, 0, 0)]) ∧
  ((m.toNat = 0 ∨ (32 ≤ m.toNat ∧ m.toNat ≤ 48)) → (s.anyPc n PcState.live = false ∨ s.siteStarting n = true) →
    m.toNat ≠ s.rd F.CLOCK_PHYPLL.MULT n → ∃ t, exec (.phyMultWrite n m) s = .next t ∧
    t.rd F.CLOCK_PHYPLL.MULT n = m.toNat ∧ t.bit F.CLOCK_PHYPLL.LOCK n = false ∧
    nbit (t.rd F.CLOCK_STATUS.PHY_LOCK) n = false ∧
    s.regsOnly t [(.CLOCK_PHYPLL, n, 0), (.CLOCK_STATUS, 0, 0), (.PHY_STATUS, n, 0), (.REF_PERIOD, n, 0)])

/-- R520, R521, R524 to R530, R532: the commands SQ_DOORBELL, CQ_DOORBELL, RING_FETCH, ENTRY_CHECK, JOB_DISPATCH, RECORD_WRITE, MSIX_SEND
and MSIX_PENDING_CLEAR. -/
def Obligations.RingFlow : Prop := ∀ s : State,
  (∀ (f : FnIx) (r : RingIx) (d : BitVec 16) (i : Nat), i = 64 * f.val + r.val → s.accepted f = true → s.ringSt i ≠ ringResetting →
    s.auditFull = false →
    (sub16 d.toNat (s.rd F.RING_PTRS.PROD i) ≤ 256 → sub16 d.toNat (s.rd F.RING_PTRS.CHEAD i) ≤ 256 →
      ∃ t, exec (.sqDoorbell f r d) s = .next t ∧ t.rd F.RING_PTRS.PROD i = d.toNat ∧ t.rd F.FN_SQDB.VALUE f r = d.toNat ∧
        s.regsOnly t [(.RING_PTRS, i, 0), (.FN_SQDB, f, r)]) ∧
    (256 < sub16 d.toNat (s.rd F.RING_PTRS.PROD i) → ∃ t, exec (.sqDoorbell f r d) s = .next t ∧ t.bit F.RING_ERR.BAD_DB i = true ∧
      s.keptBut t [.regs] ∧ s.onlyRegs t [(.RING_ERR, i, 0)]) ∧
    (sub16 d.toNat (s.rd F.RING_PTRS.CHEAD i) ≤ sub16 (s.rd F.RING_PTRS.CDONE i) (s.rd F.RING_PTRS.CHEAD i) →
      ∃ t, exec (.cqDoorbell f r d) s = .next t ∧ t.rd F.RING_PTRS.CHEAD i = d.toNat ∧ t.rd F.FN_CQDB.VALUE f r = d.toNat ∧
        s.regsOnly t [(.RING_PTRS, i, 0), (.FN_CQDB, f, r)])) ∧
  (∀ i, s.fetchable = [i] → s.schUp = true → s.rings.fetched ≠ s.now + 1 → s.rings.entries.length < 256 →
    ∃ t e, exec .ringFetch s = .next t ∧ t.rings.entries = s.rings.entries ++ [e] ∧ e.ring = i ∧ e.seq = s.rd F.RING_PTRS.FETCHED i ∧
      e.fl = s.nextId ∧ t.rd F.RING_PTRS.FETCHED i = (s.rd F.RING_PTRS.FETCHED i + 1) % 2 ^ F.RING_PTRS.FETCHED.len ∧
      t.rd F.RING_STATE.TENANT i = (s.fnTenant (i / 64)).getD 0 % 2 ^ F.RING_STATE.TENANT.len ∧
      s.keptBut t [.rings, .regs, .flights, .nextId, .freeCount, .pmus] ∧ s.onlyRegs t [(.RING_PTRS, i % 2 ^ 14, 0), (.RING_STATE, i % 2 ^ 14, 0)]) ∧
  (∀ (r : Fin 8192) e, s.rings.entries.find? (fun e => e.ring == r.val && e.at_ != 0 && !e.checked) = some e → s.schUp = true →
    (s.entryBad e = none → ∃ t, exec (.entryCheck r) s = .next t ∧
      t.rings.entries = s.rings.entries.map (fun y => if y.ring == e.ring && y.seq == e.seq
        then { y with checked := true, tenant := (s.fnTenant (r.val / 64)).getD 0 } else y) ∧
      s.keptBut t [.rings]) ∧
    (∀ res x, s.entryBad e = some (res, x) → s.fifoLen (r.val % 12) < 256 → ∃ t c, exec (.entryCheck r) s = .next t ∧
      t.rings.entries = s.rings.entries.filter (fun y => !(y.ring == e.ring && y.seq == e.seq)) ∧
      t.rings.fifos = s.rings.fifos ++ [c] ∧ c.ring = r.val ∧
      t.rd F.RING_ERR.REFUSED r = min (2 ^ F.RING_ERR.REFUSED.len - 1) (s.rd F.RING_ERR.REFUSED r + 1) ∧
      s.keptBut t [.rings, .regs, .pmus] ∧ s.onlyRegs t [(.RING_ERR, r, 0)])) ∧
  (∀ (r : Fin 8192) e j c, s.dispatchable r = some (e, j, c) → s.schUp = true → s.rings.sent ≠ s.now + 1 → e.form1 = false →
    ∃ t b, exec (.jobDispatch r) s = .next t ∧ (t.ctx j c).job = some b ∧ b.ring = e.ring ∧ b.seq = e.seq ∧ b.tenant = e.tenant ∧
      (t.ctx j c).st = .running ∧ (t.ctx j c).ready = s.now + 8 ∧ (t.ctx j c).prog.ip = 0 ∧
      t.rings.entries = s.rings.entries.filter (fun y => !(y.ring == e.ring && y.seq == e.seq)) ∧
      s.keptBut t [.rings, .regs, .lnts, .pmus]) ∧
  (∀ r, s.nextRec = some r → s.rings.wrote ≠ s.now + 1 → r.epoch = s.rd F.RING_STATE.EPOCH r.ring → s.pausedRing r.ring = false →
    ∃ t, exec .recordWrite s = .next t ∧ t.rings.fifos = s.rings.fifos.erase r ∧
      t.rd F.RING_PTRS.CDONE r.ring = (s.rd F.RING_PTRS.CDONE r.ring + 1) % 2 ^ F.RING_PTRS.CDONE.len ∧
      t.nextId = s.nextId + 1 ∧ s.keptBut t [.rings, .regs, .flights, .nextId, .freeCount, .pmus]) ∧
  (∀ m, s.rings.msgs.find? (fun m => m.2.2 == 0) = some m →
    m.2.1 < 64 → ∃ t, exec .msixSend s = .next t ∧ t.rings.msgs = s.rings.msgs.erase m ∧
      (if s.msixHeld m.1 m.2.1 = true ∨ (Config.freeBits s.free).getLsbD 0 = true
        then nbit (t.rd F.FN_MSIX_PBA.PENDING m.1) m.2.1 = true ∧ s.keptBut t [.rings, .regs, .freeCount] ∧ s.onlyRegs t [(.FN_MSIX_PBA, m.1, 0)]
        else t.out = s.out ++ [.msix m.1 m.2.1 (s.reg .FN_MSIX_ADDR m.1 m.2.1) (BitVec.ofNat 32 (s.rd F.FN_MSIX_DATA.DATA m.1 m.2.1))] ∧
          s.keptBut t [.rings, .out, .pmus, .freeCount])) ∧
  (∀ (f : FnIx) (v : RingIx), nbit (s.rd F.FN_MSIX_PBA.PENDING f) v = true → s.bit F.FN_MSIX_CTL.MASK f v = false →
    (∀ j, j < 12 → (s.lnt j).hqueue = []) → ∃ t, exec (.msixPendingClear f v) s = .next t ∧
      t.out = s.out ++ [.msix f v (s.reg .FN_MSIX_ADDR f v) (BitVec.ofNat 32 (s.rd F.FN_MSIX_DATA.DATA f v))] ∧
      nbit (t.rd F.FN_MSIX_PBA.PENDING f) v = false ∧ t.rings.bmeOff.contains f.val = false ∧
      s.keptBut t [.rings, .out, .pmus, .regs] ∧ s.onlyRegs t [(.FN_MSIX_PBA, f, 0)])

/-- R537, R539 to R547, R553: the commands HANDSHAKE, HEARTBEAT, HOST_DRIVER_LOST, RING_RESUME, RING_RESET, RING_RESET_DONE,
RING_ENABLE_WRITE, L1_IDLE_EXPIRY, BUS_MASTER_CLEAR, VF_FLR, PF_FLR and VF_ENABLE_CLEAR. -/
def Obligations.RingControl : Prop := ∀ s : State,
  (s.auditFull = false →
    (∀ (f : FnIx) (v : W32), 0 < f.val → ∃ t, exec (.handshake f v) s = .next t ∧ (t.reg .FN_DRVVER f).toNat = v.toNat % 65536 ∧
      t.rd F.FN_STATUS.VER f = (if bitsOf v 15 8 = s.rd F.GLOBAL_IFVER.MAJOR ∧ bitsOf v 7 0 ≤ s.rd F.GLOBAL_IFVER.MINOR then 1 else 2) ∧
      s.regsOnly t [(.FN_DRVVER, f, 0), (.FN_STATUS, f, 0)]) ∧
    (∀ v : W32, bitsOf v 15 8 = s.rd F.GLOBAL_IFVER.MAJOR → bitsOf v 7 0 ≤ s.rd F.GLOBAL_IFVER.MINOR → ∃ t, exec (.handshake 0 v) s = .next t ∧
      (t.reg .GLOBAL_DRVVER).toNat = v.toNat % 65536 ∧ t.rd F.FN_STATUS.VER 0 = 1 ∧
      (s.inHold = true → t.inReady = true) ∧ t.attn 0x9 = false ∧
      (s.fw.stepWaits = false → s.rings.resumes = [] → s.keptBut t [.regs, .rings, .auditQ] ∧
        s.onlyRegs t [(.GLOBAL_DRVVER, 0, 0), (.FN_STATUS, 0, 0), (.GLOBAL_STATE, 0, 0), (.GLOBAL_ATTN_PENDING, 0, 0)]) ∧
      (s.fw.stepWaits = true → t.fw.stepWaits = false ∧ (s.bit F.RAS_MGCTL.PENDING = false → t.reg .RAS_MGSTEP = s.clk.now))) ∧
    (∀ v : W32, s.rd F.GLOBAL_HBEAT.COUNT ≠ v.toNat → ∃ t, exec (.heartbeat v) s = .next t ∧ t.rd F.GLOBAL_HBEAT.COUNT = v.toNat ∧
      (s.rings.beat ≠ 0 → t.rings.beat = s.now + 1) ∧ s.keptBut t [.regs, .rings, .auditQ] ∧ s.onlyRegs t [(.GLOBAL_HBEAT, 0, 0)]) ∧
    (∀ (f : FnIx) (r : RingIx) (i : Nat), i = 64 * f.val + r.val → s.accepted f = true →
      (((s.ringSt i = ringPaused ∨ s.ringSt i = ringHalted) ∧ (f.val = 0 → s.attn 0x9 = false) ∧
          (s.bit F.RING_STATE.HALT i = true → s.rings.bmeOff.contains f.val = false)) →
        ∃ t, exec (.ringResume f r) s = .next t ∧ t.ringSt i = ringRunning ∧ t.bit F.RING_STATE.HALT i = false ∧ t.mem = s.mem ∧ t.plots = s.plots) ∧
      (s.ringSt i ≠ ringResetting → ∃ t, exec (.ringReset f r) s = .next t ∧ t.ringSt i = ringResetting ∧
        t.rd F.RING_STATE.EPOCH i = (s.rd F.RING_STATE.EPOCH i + 1) % 2 ^ F.RING_STATE.EPOCH.len ∧
        (∀ e ∈ t.rings.entries, e.ring ≠ i) ∧ t.rd F.RING_PTRS.PROD i = s.rd0 F.RING_PTRS.PROD i ∧
        t.rd F.RING_PTRS.CHEAD i = s.rd0 F.RING_PTRS.CHEAD i ∧ s.keptBut t [.regs, .lnts, .rings, .auditQ] ∧
        s.onlyRegs t [(.RING_STATE, i, 0), (.RING_PTRS, i, 0), (.FN_SQDB, f, r), (.FN_CQDB, f, r)]) ∧
      ((s.fnTenant f).isSome = true → s.sec.ringZero.contains f.val = false → ∃ t, exec (.ringEnableWrite f r true) s = .next t ∧
        t.bit F.FN_RINGCTL.EN f r = true ∧ (s.ringSt i = ringDisabled → t.ringSt i = (if s.lostRing i then ringPaused else ringRunning)) ∧
        s.regsOnly t [(.FN_RINGCTL, f, r), (.RING_STATE, i, 0)]))) ∧
  (∀ ms, ms = s.rd0 F.RINGS_HOST.HB_MS → ms ≠ 0 → s.schUp = true → s.rings.beat ≠ 0 → s.rings.beat - 1 + 1200000 * ms < s.now →
    ∃ t, exec .hostDriverLost s = .next t ∧ (∀ i, i < 64 → t.ringSt i ≠ ringRunning) ∧ t.attn 0x9 = true ∧ t.rings.beat = 0 ∧
      t.mem = s.mem ∧ t.plots = s.plots) ∧
  (∀ r : Fin 8192, s.ringSt r = ringResetting → s.ringJobs r = 0 → ∃ t, exec (.ringResetDone r) s = .next t ∧ t.ringSt r = ringDisabled ∧
    t.rd F.RING_PTRS.PROD r = 0 ∧ t.rd F.RING_PTRS.CDONE r = 0 ∧ s.regsOnly t [(.RING_PTRS, r, 0), (.RING_STATE, r, 0)]) ∧
  (s.rings.l1Us ≠ 0 → s.rings.l1 = false → s.hostIdle = true → s.rings.idleAt + usTicks s.rings.l1Us ≤ s.now →
    ∃ t, exec .l1IdleExpiry s = .next t ∧ t.out = s.out ++ [.hub .l1Ask] ∧ t.rings.l1 = true ∧ s.keptBut t [.out, .rings]) ∧
  (∀ f : FnIx,
    (∃ t, exec (.busMasterClear f) s = .next t ∧ t.rings.bmeOff.contains f.val = true ∧ t.mem = s.mem ∧ t.plots = s.plots) ∧
    (0 < f.val → ∃ t, exec (.vfFlr f) s = .next t ∧ t.rd F.FN_STATUS.VER f = 0 ∧
      (∀ r, r < 64 → t.ringSt (64 * f.val + r) = ringResetting) ∧ t.mem = s.mem ∧ t.plots = s.plots)) ∧
  (∃ t, exec .pfFlr s = .next t ∧ t.rd F.FN_STATUS.VER 0 = 0 ∧ (∀ r, r < 64 → t.ringSt r = ringResetting) ∧ t.attn 0x9 = true ∧
    t.rings.beat = 0 ∧ t.mem = s.mem ∧ t.plots = s.plots) ∧
  (∃ t, exec .vfEnableClear s = .next t ∧ (∀ f, 0 < f → f < 128 → t.rd F.FN_STATUS.VER f = 0) ∧
    (∀ f r, 0 < f → f < 128 → r < 64 → t.ringSt (64 * f + r) = ringResetting) ∧ t.mem = s.mem ∧ t.plots = s.plots)

/-- R516, R517: the commands HOST_MRD, HOST_MWR, HOST_FETCHADD, HOST_CAS and HOST_ATOMIC_UNSUPPORTED. -/
def Obligations.HostRequests : Prop := ∀ (s : State) (f : FnIx) (addr len : Nat) (bytes : List Byte) (v w : W64),
  (hostWf addr len = false → exec (.hostMrd f addr len) s = .next s) ∧
  (hostWf addr bytes.length = false → exec (.hostMwr f addr bytes) s = .next s) ∧
  ((addr % 8 ≠ 0 ∨ hostWf addr 8 = false) →
    exec (.hostFetchadd f addr v) s = .next s ∧ exec (.hostCas f addr v w) s = .next s) ∧
  (∃ t, exec (.hostAtomicUnsupported f) s = .next t ∧ t.out = s.out ++ [.unsupported f] ∧ s.keptBut t [.out]) ∧
  (hostWf addr len = true → hostWf addr bytes.length = true → hostWf addr 8 = true → addr % 8 = 0 → s.hostOk = true →
    (s.hostBarred2 f = true → ∀ c ∈ [Instr.hostMrd f addr len, .hostMwr f addr bytes, .hostFetchadd f addr v, .hostCas f addr v w],
      ∃ t, exec c s = .next t ∧ t.out = s.out ++ [.unsupported f] ∧ s.keptBut t [.out]) ∧
    (s.hostBarred2 f = false →
      ∀ c ∈ [(Instr.hostMrd f addr len, 0, len, (lineRuns (hostLines addr len)).map fun r => (⟨opRD, r.1 * 64, r.2, 0, 0, []⟩ : HostReq)),
          (.hostMwr f addr bytes, 2, bytes.length, hostWrites addr bytes),
          (.hostFetchadd f addr v, 1, 8, [⟨opAADD, addr / 64 * 64, 1, v.toNat, addr / 8 % 8, []⟩]),
          (.hostCas f addr v w, 1, 8, [⟨opACAS, addr / 64 * 64, 1, v.toNat, addr / 8 % 8, [putWord 0 (addr / 8 % 8) w]⟩])],
        s.hostCredits c.2.2.2 = true → ∃ t l, exec c.1 s = .next t ∧ t.flights = s.flights ++ l ∧ l.length = c.2.2.2.length ∧
          (∀ g ∈ l, g.req = 24 ∧ g.fn = f.val ∧ ∃ n, g.why = .host s.rings.hostNext n) ∧
          t.rings.host = s.rings.host ++ [⟨s.rings.hostNext, f.val, c.2.1, c.2.2.1, addr % 64, c.2.2.2.map fun _ => none⟩] ∧
          s.keptBut t [.rings, .flights, .nextId, .credits, .regs, .throttles]))

/-- R561, R567 to R570, R599, R601 to R603, R606: the commands TENANT_CREATE, TENANT_DELETE, BIND_OFFER, UNBIND, AUDIT_ACK, AUDIT_HEAD and
CKPT_GET. The detail values of a reply are those of the spec's table; the layout of the audit queue is the model's. -/
def Obligations.TenantCommands : Prop := ∀ s : State, s.secUp = true → s.mbxRetry = false →
  (∀ (f : FnIx) (t : Byte) (digest : BitVec 384), s.mbxOk f 0x10 0x01 ([t] ++ List.replicate 7 0 ++ leBytes digest 48) = true →
    (f.val ≠ 0 → ∃ u, exec (.tenantCreate f t digest) s = .next u ∧ s.answered u f none rDENIED 2 [] ∧
      u.sec = { s.sec with mbxQ := s.sec.mbxQ.filter (· != f.val) } ∧ s.keptBut u [.regs, .bytes, .sec, .out, .pmus] ∧
      s.onlyRegs u [(.MBX_STATUS, f, 0)]) ∧
    (f.val = 0 → t ≠ 0 → s.tenantExists t.toNat = false → s.auditFull = true → exec (.tenantCreate f t digest) s = .next s) ∧
    (f.val = 0 → t ≠ 0 → s.tenantExists t.toNat = false → s.auditFull = false →
      ∃ u, exec (.tenantCreate f t digest) s = .next u ∧ s.answered u 0 none rOK 0 [] ∧
      u.sec = { s.sec with
        mbxQ := s.sec.mbxQ.filter (· != 0), auditQ := u.sec.auditQ,
        tenants := tset none s.sec.tenants t.toNat (some ⟨digest, none⟩) } ∧
      s.queued u 1 0 5 t.toNat 0 1 ∧ s.keptBut u [.regs, .bytes, .sec, .auditQ, .out, .pmus] ∧ s.onlyRegs u [(.MBX_STATUS, 0, 0)])) ∧
  (∀ (f : FnIx) (t : Byte), s.mbxOk f 0x10 0x02 [t] = true →
    (f.val ≠ 0 → ∃ u, exec (.tenantDelete f t) s = .next u ∧ s.answered u f none rDENIED 2 [] ∧
      u.sec = { s.sec with mbxQ := s.sec.mbxQ.filter (· != f.val) } ∧ s.keptBut u [.regs, .bytes, .sec, .out, .pmus]) ∧
    (f.val = 0 → t ≠ 0 → s.tenantExists t.toNat = true → s.sessionsOf t.toNat = 0 → (∀ e ∈ s.sec.binds, (e.2.bound && e.2.tenant == t.toNat) = false ∧
        (e.2.offered && e.2.offerTenant == t.toNat) = false) → s.slotsOf t.toNat = [] →
      (∀ e ∈ s.plots, e.2.owner = t.toNat → e.2.state = .free) → s.auditFull = false →
      ∃ u, exec (.tenantDelete f t) s = .next u ∧ s.answered u 0 none rOK 0 [] ∧ u.tenant t.toNat = none ∧
        u.sec = { s.sec with mbxQ := s.sec.mbxQ.filter (· != 0), auditQ := u.sec.auditQ, tenants := tset none s.sec.tenants t.toNat none } ∧
        s.queued u 1 0 5 t.toNat 1 0 ∧ s.keptBut u [.regs, .bytes, .sec, .auditQ, .out, .pmus] ∧ s.onlyRegs u [(.MBX_STATUS, 0, 0)])) ∧
  (∀ (f : FnIx) (target : Fin 256) (t : Byte), s.mbxOk f 0x10 0x03 [BitVec.ofNat 8 target.val, t] = true →
    (f.val ≠ 0 → ∃ u, exec (.bindOffer f target t) s = .next u ∧ s.answered u f none rDENIED 2 [] ∧ u.sec.binds = s.sec.binds) ∧
    (f.val = 0 → bindable target = true → s.tenantExists t.toNat = true → t ≠ 0 → (s.bind target).bound = false → s.auditFull = false →
      ∃ u, exec (.bindOffer f target t) s = .next u ∧ s.answered u 0 none rOK 0 [] ∧ u.bind target = ⟨false, 0, true, t.toNat⟩ ∧
        (∀ n, n ≠ target.val → u.bind n = s.bind n) ∧ u.sec.tenants = s.sec.tenants ∧ u.sec.slots = s.sec.slots ∧
        s.keptBut u [.regs, .bytes, .sec, .auditQ, .out, .pmus, .latokDue] ∧
        s.onlyRegs u [(.MBX_STATUS, 0, 0), (.PORT_BIND, target, 0)]) ∧
    (f.val = 0 → bindable target = true → s.tenantExists t.toNat = true → (s.bind target).bound = true →
      ∃ u, exec (.bindOffer f target t) s = .next u ∧ s.answered u 0 none rDENIED 4 [] ∧ u.sec.binds = s.sec.binds)) ∧
  (∀ target : Fin 256, s.mbxOk 0 0x10 0x04 [BitVec.ofNat 8 target.val] = true → bindable target = true → s.auditFull = false →
    ((s.bind target).bound = false → (s.bind target).offered = true → ∃ u, exec (.unbind none 0 target) s = .next u ∧
      s.answered u 0 none rOK 0 [] ∧ u.bind target = ⟨false, 0, false, 0⟩ ∧ (∀ n, n ≠ target.val → u.bind n = s.bind n) ∧
      s.keptBut u [.regs, .bytes, .sec, .auditQ, .out, .pmus, .latokDue] ∧
      s.onlyRegs u [(.MBX_STATUS, 0, 0), (.PORT_BIND, target, 0)]) ∧
    ((s.bind target).bound = true → target.val < 24 → (s.flights.filter fun f => f.req == target.val && f.unissued && !f.dead) = [] →
      ∃ u, exec (.unbind none 0 target) s = .next u ∧ s.answered u 0 none rOK 0 [] ∧ u.bind target = ⟨false, 0, false, 0⟩ ∧
        u.bit F.PORT_BIND.BOUND target = false ∧ (∀ n, n ≠ target.val → u.bind n = s.bind n) ∧
        (∀ l ∈ s.locks, l.owner = target.val → l.broken = false → { l with breaking := true } ∈ u.locks) ∧
        s.keptBut u [.regs, .bytes, .sec, .auditQ, .out, .pmus, .locks, .holds, .latokDue])) ∧
  (∀ (f : FnIx) (q : W64), s.mbxOk f 0x10 0x05 (leBytes q 8) = true →
    (f.val ≠ 0 → ∃ u, exec (.auditAck f q) s = .next u ∧ s.answered u f none rDENIED 2 [] ∧
      u.rd F.AUDIT_ACK.VALUE = s.rd F.AUDIT_ACK.VALUE ∧ s.onlyRegs u [(.MBX_STATUS, f, 0)]) ∧
    (f.val = 0 → s.rd F.AUDIT_ACK.VALUE ≤ q.toNat → q.toNat ≤ s.rd F.AUDIT_SEQ.VALUE → s.auditFull = false →
      ∃ u, exec (.auditAck f q) s = .next u ∧
      s.answered u 0 none rOK 0 [] ∧ u.rd F.AUDIT_ACK.VALUE = q.toNat ∧ s.keptBut u [.regs, .bytes, .sec, .auditQ, .out, .pmus] ∧
      s.onlyRegs u [(.MBX_STATUS, 0, 0), (.AUDIT_ACK, 0, 0)])) ∧
  (∀ f : FnIx, s.mbxOk f 0x10 0x06 [] = true → ∃ u, exec (.auditHead f) s = .next u ∧
    s.answered u f none rOK 0 (leBytes (BitVec.ofNat 64 (s.rd F.AUDIT_SEQ.VALUE - 1)) 8 ++ leBytes (BitVec.ofNat 64 s.sec.headStamp) 8 ++
      leBytes s.sec.head 48 ++ leBytes (BitVec.ofNat 64 s.sec.ckptLast) 8) ∧
    s.keptBut u [.regs, .bytes, .sec, .out, .pmus] ∧ s.onlyRegs u [(.MBX_STATUS, f, 0)]) ∧
  (∀ (f : FnIx) (slot : BitVec 16), s.mbxOk f 0x10 0x07 (leBytes slot 2) = true →
    ∃ u, exec (.ckptGet f slot) s = .next u ∧ s.keptBut u [.regs, .bytes, .sec, .out, .pmus] ∧ s.onlyRegs u [(.MBX_STATUS, f, 0)] ∧
      (slot.toNat < 512 → s.answered u f none rOK 0 (leBytes ((tget none s.sec.ckpts slot.toNat).getD 0) 256)) ∧
      (512 ≤ slot.toNat → s.answered u f none rUNSUP 1 []))

/-- R558, R560, R562 to R566, R568, R569, R602, R798, R799: the commands SPDM_REQUEST, SECURED_MESSAGE, KEY_EXCHANGE, END_SESSION,
SESSION_HEARTBEAT_EXPIRY, BIND_ACCEPT, SLOT_QUERY and COUNTERS. The responder's own bytes are free (notes/assumptions/8), and the heartbeat's
time-out is PRESUMED (notes/assumptions/17). -/
def Obligations.Sessions : Prop := ∀ s : State, s.secUp = true →
  (∀ f : FnIx, s.mbxRetry = false → s.bit F.MBX_STATUS.BUSY f = true → s.mbxOk f 0x01 0 [] = true → s.rd F.SEC_STATUS.ID = 1 →
    ∀ m n, m = (s.mbxReq f).drop 8 → n = tget 0 s.sec.conns f → ∃ u, exec (.spdmRequest f) s = .next u ∧
    (m.getD 1 0 = 0x84 → s.answered u f none rOK 0 spdmVersions ∧ tget 0 u.sec.conns f = 0) ∧
    (m.getD 1 0 = 0xE1 → (m.headD 0 = 0x12 ∨ m.headD 0 = 0x13) → s.answered u f none rOK 0 (spdmCaps (m.headD 0) s.fresh.1) ∧
      tget 0 u.sec.conns f = (m.headD 0).toNat) ∧
    (m.getD 1 0 ≠ 0x84 → (m.getD 1 0 ≠ 0xE1 ∨ (m.headD 0 ≠ 0x12 ∧ m.headD 0 ≠ 0x13)) → u.free = s.free + 1 ∧ u.sec.conns = s.sec.conns ∧
      s.answered u f none rOK 0 (if n ≠ 0 ∧ n ≠ (m.headD 0).toNat then Config.spdmError (s.free + 1) (s.mbxReq f) 0x41
        else Config.spdmReply (s.free + 1) (s.mbxReq f) (s.measures none))) ∧
    s.keptBut u [.regs, .bytes, .sec, .out, .pmus, .freeCount] ∧ s.onlyRegs u [(.MBX_STATUS, f, 0)]) ∧
  (∀ (f : FnIx) (i : Nat) (x : Session), s.mbxRetry = false → s.bit F.MBX_STATUS.BUSY f = true → s.mbxOk f 0x02 0 [] = true →
    s.sec.sessions.find? (fun e => e.2.any (·.id == BitVec.ofNat 32 (leNat (((s.mbxReq f).drop 8).take 4)))) = some (i, some x) →
    (f.val = 0 ∨ (s.fnReceiver f).tenant = some x.tenant → ∃ u, exec (.securedMessage f) s = .next u ∧ s.answered u f (some i) rOK 0
      (Config.spdmReply s.free (s.mbxReq f) (s.measures (some x.tenant))) ∧ u.session i = some { x with beat := s.now + beatTicks } ∧
      (∀ n, n ≠ i → u.session n = s.session n) ∧ s.keptBut u [.regs, .bytes, .sec, .out, .pmus, .freeCount]) ∧
    (f.val ≠ 0 → (s.fnReceiver f).tenant ≠ some x.tenant → ∃ u, exec (.securedMessage f) s = .next u ∧ s.answered u f none rDENIED 2 [] ∧
      u.sec.sessions = s.sec.sessions ∧ s.keptBut u [.regs, .bytes, .sec, .out, .pmus])) ∧
  (∀ (f : FnIx) (digest : BitVec 384) (t i : Nat) (v : Option Tenant), s.mbxRetry = false → s.mbxOk f 0x01 0 [] = true → s.rd F.SEC_STATUS.ID = 1 →
    s.sec.tenants.find? (fun e => e.2.any (·.digest == digest)) = some (t, v) → leastBelow 64 (fun i => (s.session i).isNone) = some i →
    s.sessionsOf t < 4 → ∃ u x, exec (.keyExchange f digest true) s = .next u ∧ u.session i = some x ∧ x.tenant = t ∧ x.fn = f.val ∧
      x.beat = s.now + beatTicks ∧ (∀ n, n ≠ i → u.session n = s.session n) ∧ u.bit F.MBX_STATUS.DONE f = true ∧
      (∀ p, (s.plot p).owner = t → (s.plot p).state = .sealed → s.plotChanged p = false → (u.plot p).state = .openPlot) ∧
      s.queued u 2 0 4 i 0 1 ∧ s.keptBut u [.regs, .bytes, .sec, .auditQ, .out, .pmus, .freeCount, .plots, .plotDue] ∧
      s.onlyRegs u [(.MBX_STATUS, f, 0)]) ∧
  (∀ (i : SessIx) x, s.session i = some x →
    (∃ u, exec (.endSession i) s = .next u ∧ u.session i = none ∧ (∀ n, n ≠ i.val → u.session n = s.session n) ∧
      s.queued u 3 (x.tenant * 256 + i) 4 i 1 0 ∧ s.keptBut u [.sec, .auditQ, .plots, .posies, .plotDue] ∧
      (u.sessionsOf x.tenant = 0 → ∀ p, (s.plot p).owner = x.tenant → (s.plot p).state = .openPlot →
        (s.plotChanged p = false → (u.plot p).state = .sealed) ∧ (s.plotChanged p = true → (p, PlotChange.turn .openPlot .sealed) ∈ u.plotDue)) ∧
      (u.sessionsOf x.tenant ≠ 0 → u.plots = s.plots)) ∧
    (x.beat ≤ s.now → ∃ u, exec (.sessionHeartbeatExpiry i) s = .next u ∧ u.session i = none ∧
      (∀ n, n ≠ i.val → u.session n = s.session n) ∧ s.queued u 2 0 4 i 1 0 ∧ s.keptBut u [.sec, .auditQ, .plots, .posies, .plotDue]) ∧
    (s.now < x.beat → ∃ u, exec (.sessionHeartbeatExpiry i) s = .next u ∧ s.keptBut u [])) ∧
  (∀ (i : SessIx) x f, s.session i = some x → s.mbxRetry = false → f = s.sessFn x → s.sessBarred f x = false →
    (∀ target : Fin 256, target.val < 24 → s.auditFull = false → s.mbxOk f 0x02 0x20 [] = true → s.bind target = ⟨false, 0, true, x.tenant⟩ →
      ∃ u, exec (.bindAccept i target) s = .next u ∧ s.answered u f (some i.val) rOK 0 [] ∧ u.bind target = ⟨true, x.tenant, false, 0⟩ ∧
        u.bit F.PORT_BIND.BOUND target = true ∧ u.rd F.PORT_BIND.TENANT target = x.tenant % 2 ^ F.PORT_BIND.TENANT.len ∧
        (∀ n, n ≠ target.val → u.bind n = s.bind n) ∧ s.keptBut u [.regs, .bytes, .sec, .auditQ, .out, .pmus, .freeCount, .latokDue]) ∧
    (s.mbxOk f 0x02 0x26 [] = true → ∃ u, exec (.slotQuery i) s = .next u ∧
      s.answered u f (some i.val) rOK 0 ((s.slotsOf x.tenant).flatMap fun n => slotBytes n ++ [BitVec.ofNat 8 (s.slot n).state.code] ++
        slotBytes (s.plots.filter fun e => e.2.keyslot == n && e.2.state != .free).length) ∧
      s.keptBut u [.regs, .bytes, .sec, .out, .pmus, .freeCount] ∧ s.onlyRegs u [(.MBX_STATUS, f % 2 ^ 14, 0)]) ∧
    (∀ (set : Fin 16) (a b : Byte) d, s.mbxOk f 0x02 0x27 [] = true → s.counterSet x.tenant set a.toNat b.toNat = .ok d →
      ∃ u, exec (.counters i set a b) s = .next u ∧ s.answered u f (some i.val) rOK 0 (leBytes s.clk.now 8 ++ d) ∧
        s.keptBut u [.regs, .bytes, .sec, .out, .pmus, .freeCount] ∧ s.onlyRegs u [(.MBX_STATUS, f % 2 ^ 14, 0)]) ∧
    (∀ (set : Fin 16) (a b : Byte), s.mbxOk f 0x02 0x27 [] = true → s.counterSet x.tenant set a.toNat b.toNat = .error 2 →
      ∃ u, exec (.counters i set a b) s = .next u ∧ s.answered u f (some i.val) rDENIED 2 []))

/-- R576 to R578, R582 to R587, R593 to R595, R598, R599, R805: the commands KEY_GENERATE, KEY_UNWRAP, KEY_ROTATE, SET_ALLOC_SLOT,
KEY_DESTROY, ROTATION_CHUNK_COMMIT, SLOT_DESTROY_DONE, KEY_COPY_REPAIR, RING_AREA_ZEROING_DONE, AUDIT_APPEND and AUDIT_CHECKPOINT. The key
drawn is free (notes/assumptions/7), and so is the signature's per-message secret (notes/assumptions/8). -/
def Obligations.KeysAndChain : Prop := ∀ s : State,
  (s.secUp = true → s.mbxRetry = false → s.auditFull = false → ∀ (i : SessIx) x f, s.session i = some x →
    f = s.sessFn x → s.sessBarred f x = false →
    (s.mbxOk f 0x02 0x22 [] = true →
      (∀ n, s.slotFor x.tenant = some n → ∃ u, exec (.keyGenerate i) s = .next u ∧ s.answered u f (some i.val) rOK 0 (slotBytes n) ∧
        (u.slot n).state = .active ∧ (u.slot n).owner = x.tenant ∧ (u.slot n).cur = false ∧
        (u.slot n).half0.map (·.1) = some (Config.random s.free) ∧ (∀ m, m ≠ n → u.slot m = s.slot m) ∧
        s.keptBut u [.regs, .bytes, .sec, .auditQ, .out, .pmus, .freeCount]) ∧
      (s.slotFor x.tenant = none → ∃ u, exec (.keyGenerate i) s = .next u ∧ s.answered u f (some i.val) rDENIED 5 [] ∧
        u.sec.slots = s.sec.slots)) ∧
    (∀ wrapped n, s.mbxOk f 0x02 0x23 [] = true → s.slotFor x.tenant = some n → ∃ u, exec (.keyUnwrap i wrapped) s = .next u ∧
      (match kwUnwrap (kdf (leBytes x.ems 48) (ascii "MYR-KW") 256) (leBytes wrapped 72) with
      | none => s.answered u f (some i.val) rUNSUP 1 [] ∧ u.sec.slots = s.sec.slots
      | some pair =>
        if pair.take 32 = pair.drop 32 then s.answered u f (some i.val) rDENIED 5 [] ∧ u.sec.slots = s.sec.slots
        else s.answered u f (some i.val) rOK 0 (slotBytes n) ∧ (u.slot n).state = .active ∧ (u.slot n).owner = x.tenant ∧
          (u.slot n).half0.map (·.1) = some (BitVec.ofNat 512 (leNat pair))) ∧
      (∀ m, m ≠ n → u.slot m = s.slot m) ∧ s.keptBut u [.regs, .bytes, .sec, .auditQ, .out, .pmus, .freeCount]) ∧
    (∀ slot : Fin 512, s.ownSlot x.tenant slot = true →
      (s.mbxOk f 0x02 0x24 [] = true →
        ((s.slot slot).state = .active → s.sec.rotation = none → ∃ u r, exec (.keyRotate i slot) s = .next u ∧
          s.answered u f (some i.val) rOK 0 [] ∧ u.sec.rotation = some r ∧ r.slot = slot.val ∧ r.old = (s.slot slot).cur ∧
          r.freed = none ∧ (u.slot slot).state = .rotating ∧ (u.slot slot).cur = (s.slot slot).cur ∧
          ((u.slot slot).half (!(s.slot slot).cur)).map (·.1) = some (Config.random s.free)) ∧
        (s.sec.rotation ≠ none → ∃ u, exec (.keyRotate i slot) s = .next u ∧ s.answered u f (some i.val) rRETRY 8 [] ∧
          u.sec.slots = s.sec.slots ∧ u.sec.rotation = s.sec.rotation)) ∧
      (s.mbxOk f 0x02 0x25 [] = true → (s.slot slot).state = .active → ∀ y, s.tenant x.tenant = some y →
        ∃ u, exec (.setAllocSlot i slot) s = .next u ∧ s.answered u f (some i.val) rOK 0 [] ∧
          u.tenant x.tenant = some { y with allocSlot := some slot.val } ∧ u.sec.slots = s.sec.slots ∧
          (y.allocSlot ≠ some slot.val → s.queued u 3 (x.tenant * 256 + i) 5 x.tenant (y.allocSlot.getD 0) slot) ∧ s.keptBut u [.regs, .bytes, .sec, .auditQ, .out, .pmus, .freeCount]) ∧
      (s.mbxOk f 0x02 0x28 [] = true → (s.slot slot).state ≠ .faulty →
        (s.naming slot = [] → s.ringNames slot = false → ∃ u, exec (.keyDestroy i slot) s = .next u ∧
          s.answered u f (some i.val) rOK 0 [] ∧ u.slot slot = { s.slot slot with state := .destroying } ∧
          (∀ m, m ≠ slot.val → u.slot m = s.slot m) ∧ s.keptBut u [.regs, .bytes, .sec, .auditQ, .out, .pmus, .freeCount]) ∧
        (s.naming slot ≠ [] → ∃ u, exec (.keyDestroy i slot) s = .next u ∧ s.answered u f (some i.val) rDENIED 6 [] ∧
          u.sec.slots = s.sec.slots)))) ∧
  (∀ r errs, s.sec.rotation = some r → s.secUp = true → (s.slot r.slot).state = .rotating → s.rotStragglers r = false → s.rotFrozen r = false →
    (s.naming r.slot ≠ [] ∨ s.ringNames r.slot = true) →
    (r.plot ≠ 0xFFE → (s.plot r.plot).keyslot = r.slot → (s.plot r.plot).rotating = true → (s.plot r.plot).state = .openPlot →
      r.wm + 1 < 4096 → ∃ u, exec (.rotationChunkCommit errs) s = .next u ∧
        u.sec.rotation = some { r with wm := r.wm + 1, rseq := (s.sec.rotSeq + 1) % 2 ^ 32 } ∧ u.sec.slots = s.sec.slots ∧ u.plots = s.plots) ∧
    (r.plot = 0xFFE → s.rotRing r = none → s.sec.waitFrees = [] → ∃ u, exec (.rotationChunkCommit errs) s = .next u ∧
      u.sec.rotation = none ∧ (u.slot r.slot).state = .active ∧ (u.slot r.slot).cur = !r.old ∧ (u.slot r.slot).half r.old = none ∧
      (∀ m, m ≠ r.slot → u.slot m = s.slot m) ∧ u.mem = s.mem ∧
      (∀ p, (s.plot p).keyslot = r.slot → (s.plot p).rotating = true → s.plotChanged p = false → (u.plot p).rotating = false))) ∧
  (∀ slot : Fin 272, (s.slot slot).state = .destroying → s.secUp = true → s.sec.waitFrees = [] →
    ∃ u, exec (.slotDestroyDone slot) s = .next u ∧ (u.slot slot).state = .free ∧ (u.slot slot).half0 = none ∧ (u.slot slot).half1 = none ∧
      (u.slot slot).lastKc = ((s.slot slot).half (s.slot slot).cur).map (·.2) ∧ (∀ m, m ≠ slot.val → u.slot m = s.slot m) ∧
      s.keptBut u [.sec, .auditQ, .quar, .hist]) ∧
  (∀ (slot : Fin 272) (h : Bool), s.secUp = true → (s.slot slot).half h ≠ none →
    ((s.slot slot).diffs = 0 → ∃ u, exec (.keyCopyRepair slot h true) s = .next u ∧ u.slot slot = { s.slot slot with diffs := 1 } ∧
      (∀ m, m ≠ slot.val → u.slot m = s.slot m) ∧ s.keptBut u [.sec]) ∧
    (∀ i, (s.slot slot).diffs ≠ 0 → (List.range 16).find? (fun i => (s.slot (256 + i)).state == .free) = some i → slot.val ≠ 256 + i →
      ∃ u, exec (.keyCopyRepair slot h true) s = .next u ∧ u.slot (256 + i) = { s.slot slot with diffs := 0 } ∧
        (u.slot slot).state = .faulty ∧ (u.slot slot).half0 = none ∧ (u.slot slot).half1 = none ∧
        (∀ p, (s.plot p).keyslot = slot.val → (s.plot p).state ≠ .free → s.plotChanged p = false → (u.plot p).keyslot = 256 + i) ∧
        s.keptBut u [.sec, .auditQ, .plots, .posies, .plotDue, .flights, .pcs, .hist])) ∧
  (∀ f : FnIx, f.val ∈ s.sec.ringZero → ∃ u, exec (.ringAreaZeroingDone f) s = .next u ∧ f.val ∉ u.sec.ringZero ∧
    (tget none u.fills (4096 + f.val)).isSome = true ∧ u.sec.slots = s.sec.slots ∧ s.keptBut u [.sec, .fills, .mem]) ∧
  (∀ e rest, s.sec.auditQ = e :: rest → (s.plot 0xFFF).state = .openPlot → s.sec.auditLast + 160 ≤ s.now → e.stamp < s.nowAt 12 →
    ∃ u, exec .auditAppend s = .next u ∧ u.sec.auditQ = rest ∧
      u.rd F.AUDIT_SEQ.VALUE = (s.rd F.AUDIT_SEQ.VALUE + 1) % 2 ^ F.AUDIT_SEQ.VALUE.len ∧
      u.sec.head = digestOf (e.bytes (s.rd F.AUDIT_SEQ.VALUE) s.sec.head) ∧ u.sec.headStamp = e.stamp ∧ u.sec.auditLast = s.now ∧
      u.sec.ckptDue = s.sec.ckptDue ++ (if s.rd F.AUDIT_SEQ.VALUE % 4096 = 4095 then [(s.rd F.AUDIT_SEQ.VALUE, e.stamp, u.sec.head)] else []) ∧
      s.keptBut u [.regs, .mem, .sec, .auditQ]) ∧
  (∀ n stamp head rest, s.sec.ckptDue = (n, stamp, head) :: rest → s.secUp = true → ∃ u, exec .auditCheckpoint s = .next u ∧
    u.sec = { s.sec with ckptDue := rest, ckptLast := n, ckpts := u.sec.ckpts } ∧
    (∀ body, body = leBytes (BitVec.ofNat 64 n) 8 ++ leBytes (BitVec.ofNat 64 stamp) 8 ++ leBytes head 48 →
      tget none u.sec.ckpts (n / 4096 % 512) = some (BitVec.ofNat 2048 (leNat (body ++ leBytes (ecdsaSign s.sec.alias_.toNat
        ((Config.random s.free).toNat % (p384n - 1) + 1) (digestOf body)) 96)))) ∧ s.keptBut u [.sec, .freeCount])

/-- R620, R621, R623, R637, R652, R806, R809: the commands CA_PARITY_ERROR, STATE_CHECK_FAIL, THAW, RETIRE_COPY, RETIRE_NOW,
FREEZE_OP_DONE and FREEZE_AUTO_DECISION. -/
def Obligations.FreezeAndThaw : Prop := ∀ (s : State) (k : Cluster) (p : PcIx),
  ((s.pc k p).st = .serving ∨ (s.pc k p).st = .spare ∨ (s.pc k p).st = .training →
    ((s.pc k p).caTries < 2 → ∃ t, exec (.caParityError k p) s = .next t ∧
      t.pc k p = { s.pc k p with caTries := (s.pc k p).caTries + 1 } ∧ (∀ j q, q < 64 → (j, q) ≠ (k.val, p.val) → t.pc j q = s.pc j q) ∧
      t.rd F.RAS_CNT2.CA_REPLAY k = min (2 ^ F.RAS_CNT2.CA_REPLAY.len - 1) (s.rd F.RAS_CNT2.CA_REPLAY k + 1) ∧
      (s.rd F.RAS_RECHEAD.VALUE < s.rd F.RAS_RECACK.VALUE + 1024 → s.recTick.1 ≠ s.now + 1 →
        ∃ e, tget none t.recs (s.rd F.RAS_RECHEAD.VALUE % 1024) = some e ∧ e.cls = 5 ∧ e.cluster = k.val ∧ e.ppc = p.val) ∧
      s.keptBut t [.pcs, .regs, .recs, .recTick, .recLast]) ∧
    (2 ≤ (s.pc k p).caTries → ∃ t, exec (.caParityError k p) s = .next t ∧ (t.pc k p).st = .frozen ∧
      (t.pc k p).freeze = some ⟨6, s.now, !s.bit F.RAS_CFG.AUTO, 0⟩ ∧ (t.pc k p).rq = (s.pc k p).rq ∧ (t.pc k p).wq = (s.pc k p).wq ∧
      (∀ j q, q < 64 → (j, q) ≠ (k.val, p.val) → t.pc j q = s.pc j q) ∧
      t.rd F.RAS_CNT2.FREEZES k = min (2 ^ F.RAS_CNT2.FREEZES.len - 1) (s.rd F.RAS_CNT2.FREEZES k + 1) ∧ t.plots = s.plots ∧
      t.flights = s.flights)) ∧
  ((s.pc k p).st.canFreeze = true → ∃ t, exec (.stateCheckFail k p) s = .next t ∧ (t.pc k p).st = .frozen ∧
    (t.pc k p).freeze = some ⟨7, s.now, !s.bit F.RAS_CFG.AUTO, 0⟩ ∧ (t.pc k p).rq = (s.pc k p).rq ∧ (t.pc k p).wq = (s.pc k p).wq ∧
    (∀ j q, q < 64 → (j, q) ≠ (k.val, p.val) → t.pc j q = s.pc j q) ∧ t.plots = s.plots ∧ t.flights = s.flights) ∧
  (s.pfHeld = false → ∀ ok : Bool,
    (s.bit F.RAS_FRZCTL.BUSY k = false → (s.pc k p).st = .frozen → ∃ t, exec (.thaw k p ok) s = .next t ∧
      t.bit F.RAS_FRZCTL.BUSY k = ok ∧ t.rd F.RAS_FRZCTL.RESULT k = (if ok then 0 else 4) ∧
      (ok = true → tget none t.frzOps k.val = some ⟨1, p, false⟩) ∧ s.keptBut t [.regs, .auditQ, .frzOps] ∧
      s.onlyRegs t [(.RAS_FRZCTL, k, 0)]) ∧
    (s.bit F.RAS_FRZCTL.BUSY k = false → (s.pc k p).st ≠ .frozen → ∃ t, exec (.thaw k p ok) s = .next t ∧ t.rd F.RAS_FRZCTL.RESULT k = 1 ∧
      s.regsOnly t [(.RAS_FRZCTL, k, 0)]) ∧
    (s.bit F.RAS_FRZCTL.BUSY k = true → ∃ t, exec (.thaw k p ok) s = .next t ∧ t.rd F.RAS_FRZCTL.RESULT k = 3 ∧
      s.regsOnly t [(.RAS_FRZCTL, k, 0)]) ∧
    (s.bit F.RAS_FRZCTL.BUSY k = false → (s.pc k p).st = .frozen → s.migCheck k = 0 → ∃ t, exec (.retireCopy k p ok) s = .next t ∧
      t.bit F.RAS_FRZCTL.BUSY k = ok ∧ t.rd F.RAS_FRZCTL.RESULT k = (if ok then 0 else 4) ∧
      (ok = true → tget none t.frzOps k.val = some ⟨2, p, false⟩) ∧ s.keptBut t [.regs, .auditQ, .frzOps] ∧
      s.onlyRegs t [(.RAS_FRZCTL, k, 0)]) ∧
    (s.bit F.RAS_FRZCTL.BUSY k = false → (s.pc k p).st = .frozen → s.migCheck k ≠ 0 → ∃ t, exec (.retireCopy k p ok) s = .next t ∧
      t.rd F.RAS_FRZCTL.RESULT k = s.migCheck k ∧ s.regsOnly t [(.RAS_FRZCTL, k, 0)])) ∧
  (s.pfHeld = false → s.bit F.RAS_FRZCTL.BUSY k = false → (s.pc k p).st = .frozen → s.bit F.CLU_MIG.ACTIVE k = false →
    ∃ t, exec (.retireNow k p) s = .next t ∧ (t.pc k p).st = .retired ∧ t.rd F.RAS_FRZCTL.RESULT k = 0 ∧ (k.val, p.val) ∈ t.hist.retired ∧
      (∀ j q, q < 64 → (j, q) ≠ (k.val, p.val) → t.pc j q = s.pc j q) ∧ t.mem = s.mem ∧
      (∀ l rest, upTo 64 (fun l => s.bit F.CLU_PCMAP.VALID k l && s.phys k l == p.val) = l :: rest →
        t.bit F.CLU_PCMAP.VALID k l = false ∧ (k.val, l) ∈ t.unbacked ∧
        (∀ n, s.plotChanged n = false → ((s.plot n).state = .openPlot ∨ (s.plot n).state = .sealed) → (s.plot n).rsvd = false →
          ((s.plot n).wide = true ∨ (s.plot n).stack = k.val) → (t.plot n).state = .retired))) ∧
  (∀ o, tget none s.frzOps k.val = some o → (s.pc k o.pc).st = .frozen → s.linkReady k = true → s.cccUp k = true →
    (∃ t, exec (.freezeOpDone k true) s = .next t ∧ t.bit F.RAS_FRZCTL.BUSY k = false ∧ t.rd F.RAS_FRZCTL.RESULT k = 0 ∧
      tget none t.frzOps k.val = none ∧ (t.pc k o.pc).st = (if (s.pc k o.pc).sr.down then .selfRefresh else if (s.pc k o.pc).wasSpare then .spare else .serving) ∧
      (t.pc k o.pc).freeze = none ∧ (t.pc k o.pc).rq = (s.pc k o.pc).rq ∧ (t.pc k o.pc).wq = (s.pc k o.pc).wq ∧ t.plots = s.plots) ∧
    (∃ t, exec (.freezeOpDone k false) s = .next t ∧ t.bit F.RAS_FRZCTL.BUSY k = false ∧ t.rd F.RAS_FRZCTL.RESULT k = 4 ∧
      tget none t.frzOps k.val = none ∧ s.keptBut t [.regs, .frzOps] ∧ s.onlyRegs t [(.RAS_FRZCTL, k, 0)])) ∧
  (∀ z, (s.pc k p).freeze = some z → z.chosen = false → s.bit F.RAS_FRZCTL.BUSY k = false → (s.pc k p).st = .frozen →
    s.cccUp k = true → ∃ t, exec (.freezeAutoDecision k p true) s = .next t ∧ t.bit F.RAS_FRZCTL.BUSY k = true ∧
      (t.pc k p).freeze = some { z with chosen := true } ∧
      tget none t.frzOps k.val = some ⟨if (s.migWant.any fun w => w.1 == k.val && w.2.1 == p.val) && s.migCheck k == 0 then 2 else 1, p, true⟩ ∧
      s.keptBut t [.regs, .auditQ, .frzOps, .pcs, .migWant] ∧ s.onlyRegs t [(.RAS_FRZCTL, k, 0)])

/-- R88, R614, R630, R636 to R642, R646, R652: the commands START, MIG_CHUNK_COMMIT, MIG_END, HISTORY_COMMIT, PATROL_SCRUB, TARGETED_SCRUB and
HISTORY_READ. -/
def Obligations.MigrationAndScrub : Prop := ∀ (s : State) (k : Cluster),
  (∀ lpc : PcIx, s.pfHeld = false →
    (∀ q rest, s.bit F.RAS_MIGCTL.BUSY k = false → s.bit F.CLU_PCMAP.VALID k lpc = true → s.freeSpares k = q :: rest →
      ∃ t, exec (.start k lpc) s = .next t ∧ t.bit F.CLU_MIG.ACTIVE k = true ∧ t.bit F.RAS_MIGCTL.BUSY k = true ∧
        t.rd F.CLU_MIG.TARGET k = q ∧ t.rd F.CLU_MIG.LPC k = lpc.val ∧ t.rd F.CLU_MIG.WATERMARK k = 0 ∧ t.rd F.RAS_MIGCTL.RESULT k = 0 ∧
        q ∉ t.freeSpares k ∧ (0, k.val, s.phys k lpc) ∈ t.histFlash.marks ∧
        (∀ (l : Loc) d, Loc.ofKey l.key = l → ¬(l.k = k.val ∧ l.pc = q) → rising s.mem = true → tget d t.mem l.key = tget d s.mem l.key) ∧
        s.keptBut t [.regs, .auditQ, .migs, .mem, .hist, .histFlash] ∧
        s.onlyRegs t [(.CLU_MIG, k, 0), (.RAS_MIGCTL, k, 0), (.CLU_PCSPARE, k, 0)]) ∧
    (s.bit F.RAS_MIGCTL.BUSY k = false → s.bit F.CLU_PCMAP.VALID k lpc = true → s.freeSpares k = [] →
      ∃ t, exec (.start k lpc) s = .next t ∧ t.rd F.RAS_MIGCTL.RESULT k = 2 ∧ s.regsOnly t [(.RAS_MIGCTL, k, 0)]) ∧
    (s.bit F.RAS_MIGCTL.BUSY k = false → s.bit F.CLU_PCMAP.VALID k lpc = false →
      ∃ t, exec (.start k lpc) s = .next t ∧ t.rd F.RAS_MIGCTL.RESULT k = 5 ∧ s.regsOnly t [(.RAS_MIGCTL, k, 0)]) ∧
    (s.bit F.RAS_MIGCTL.BUSY k = true →
      ∃ t, exec (.start k lpc) s = .next t ∧ t.rd F.RAS_MIGCTL.RESULT k = 3 ∧ s.regsOnly t [(.RAS_MIGCTL, k, 0)])) ∧
  (∀ errs, s.chunkReady k = true →
    (s.rd F.CLU_MIG.WATERMARK k + 1 < s.chunks k → ∃ t, exec (.migChunkCommit k errs) s = .next t ∧
      t.rd F.CLU_MIG.WATERMARK k = (s.rd F.CLU_MIG.WATERMARK k + 1) % 2 ^ F.CLU_MIG.WATERMARK.len ∧ t.bit F.CLU_MIG.ACTIVE k = true ∧
      t.plots = s.plots ∧ ∀ j q, (t.pc j q).st = (s.pc j q).st ∧ (t.pc j q).rq = (s.pc j q).rq ∧ (t.pc j q).wq = (s.pc j q).wq) ∧
    (s.rd F.CLU_MIG.WATERMARK k + 1 = s.chunks k → ∃ t, exec (.migEnd k errs) s = .next t ∧
      t.rd F.CLU_PCMAP.PHYS k (s.rd F.CLU_MIG.LPC k) = s.rd F.CLU_MIG.TARGET k % 2 ^ F.CLU_PCMAP.PHYS.len ∧
      (t.pc k (s.phys k (s.rd F.CLU_MIG.LPC k))).st = .retired ∧
      (s.phys k (s.rd F.CLU_MIG.LPC k) ≠ s.rd F.CLU_MIG.TARGET k → (s.pc k (s.rd F.CLU_MIG.TARGET k)).st = .spare →
        (t.pc k (s.rd F.CLU_MIG.TARGET k)).st = .serving) ∧
      (k.val, s.phys k (s.rd F.CLU_MIG.LPC k)) ∈ t.histFlash.retired ∧ t.plots = s.plots)) ∧
  (∃ t, exec .historyCommit s = .next t ∧ t.histFlash = { s.hist with hours := s.hours } ∧ s.keptBut t [.histFlash]) ∧
  (∀ (p : PcIx) (line : Nat), line < 2 ^ 26 →
    (∃ t, exec (.patrolScrub k p line []) s = .next t ∧ s.keptBut t [.regs, .recs, .recTick, .recLast, .passes, .pcs, .rgHits, .trkWindow] ∧
      ∀ j q, (t.pc j q).st = (s.pc j q).st ∧ (t.pc j q).rq = (s.pc j q).rq ∧ (t.pc j q).wq = (s.pc j q).wq) ∧
    (∀ e, (s.scrubPass k).1 = 0 → ∃ t, exec (.patrolScrub k p line e) s = .next t ∧ s.keptBut t [])) ∧
  (∀ (p : PcIx) (row : Nat) errs q, s.scrubs.find? (fun q => q.1 == k.val && q.2.1 == p.val && q.2.2.2 == row) = some q →
    s.scrubbable k p = true → ∃ t, exec (.targetedScrub k p row errs) s = .next t ∧ q ∉ t.scrubs ∧ t.plots = s.plots ∧ t.clk = s.clk) ∧
  (∀ index : BitVec 20, s.pfHeld = false → s.bit F.RAS_HISTCTL.BUSY = false → ∃ t, exec (.historyRead index) s = .next t ∧
    t.rd F.RAS_HISTCTL.INDEX = index.toNat ∧ t.bit F.RAS_HISTCTL.VALID = decide (index.toNat < s.hist.units.length) ∧
    s.keptBut t [.regs, .bytes, .auditQ, .freeCount] ∧ s.onlyRegs t [(.RAS_HISTCTL, 0, 0)] ∧
    (∀ key, (key < 0x2C04100 ∨ 0x2C04140 ≤ key) → tget 0 t.bytes key = tget 0 s.bytes key))

/-- R470, R471, R667, R670, R671, R673, R674, R680, R681: the commands TEST, MARIGOLD_ROUND_END, TEST_SPARE_DEADLINE, MG_STEP, MG_SWEEP
and SWEEP_END. -/
def Obligations.MarigoldTests : Prop := ∀ (s : State) (j : Cluster),
  (∀ (c : CtxIx) x w, s.ctx j c = x → s.issuer j = some c.val → x.word x.prog.ip = some w → x.prog.n ≠ 2 ^ 24 → wordBad w = false →
    iOp w = 0x38 → bitsOf w 45 40 < 52 → s.role j (bitsOf w 45 40) ≠ 4 → s.bit F.LNT_CTL.FENCED j = false → ∃ t, exec (.test j c) s = .next t ∧
      (∃ o, (t.ctx j c).op = .test o ∧ o.arrays = [bitsOf w 45 40] ∧ o.bad = 0 ∧ o.ran = true ∧
        o.dl = s.now + (x.regs.s.getD (iF w 2) 0).toNat) ∧ (t.ctx j c).regs = x.regs ∧
      (∃ u ∈ (t.lnt j).tests, u.arr = bitsOf w 45 40 ∧ u.why = .instr c ∧ u.rounds = bitsOf w 55 48) ∧ t.mem = s.mem ∧ t.plots = s.plots) ∧
  (∀ (a : ArrIx) u, s.nmcEdge = true → (s.lnt j).tests.find? (fun t => t.arr == a.val && t.running) = some u → u.at_ ≤ s.now → u.refs = 0 → u.out = 0 →
    s.bit F.LNT_CTL.FENCED j = false → 1 < u.rounds → s.role j a ≠ 4 →
    (∃ t, exec (.marigoldRoundEnd j a false false) s = .next t ∧
      (t.lnt j).tests = (s.lnt j).tests.map (fun y => if y == u then { u with rounds := u.rounds - 1, at_ := s.now + s.cyc 1024, refs := 16 } else y) ∧
      s.keptBut t [.lnts]) ∧
    (u.why = .repeat_ → ∃ t, exec (.marigoldRoundEnd j a true false) s = .next t ∧
      (t.lnt j).tests = (s.lnt j).tests.map (fun y => if y == u
        then { u with rounds := u.rounds - 1, at_ := s.now + s.cyc 1024, bad := true, refs := 16 } else y) ∧
      t.rd F.RAS_SECNT2.MG_MISMATCH j = min (2 ^ F.RAS_SECNT2.MG_MISMATCH.len - 1) (s.rd F.RAS_SECNT2.MG_MISMATCH j + 1) ∧
      s.keptBut t [.lnts, .regs, .recs, .recTick, .recLast])) ∧
  (∀ (a : ArrIx) u n, s.nmcEdge = true → s.spareFrees j = false → a.val ∉ (s.lnt j).late → (s.lnt j).tests = [u] → u.arr = a.val → u.running = false → u.deadline = some n → n ≤ s.now → u.why = .sweep →
    ((s.lnt j).arr a) = none → s.replaying j a = false → s.role j a = 0 → s.spares j = [] →
    ∃ t, exec (.testSpareDeadline j a) s = .next t ∧ t.role j a = 3 ∧ (∃ y, (t.lnt j).tests = [y] ∧ y.arr = a.val ∧ y.running = true ∧
      y.stand = none ∧ y.was = 0) ∧ s.keptBut t [.lnts, .regs] ∧ s.onlyRegs t [(.LNT_ARRAY, j, a)]) ∧
  (s.auditFull = false → s.inBoot = true →
    (s.bit F.RAS_MGCTL.BUSY = true → ∃ t, exec .mgStep s = .next t ∧ t.fw = { s.fw with stepWaits := true } ∧ s.keptBut t [.fw]) ∧
    (s.bit F.RAS_MGCTL.BUSY = false → exec .mgStep s = .next s)) ∧
  (s.pfHeld = false →
    (s.bit F.RAS_MGCTL.PENDING = true → ∃ t, exec .mgStep s = .next t ∧
      t.rd F.RAS_MGSTAT.OVERRUNS = min (2 ^ F.RAS_MGSTAT.OVERRUNS.len - 1) (s.rd F.RAS_MGSTAT.OVERRUNS + 1) ∧ s.keptBut t [.regs, .recs, .recTick, .recLast]) ∧
    (s.bit F.RAS_MGCTL.PENDING = false → (s.bit F.RAS_SECFG.STEP_EN = false ∨ s.bit F.RAS_MGCTL.BUSY = true) → ∃ t, exec .mgStep s = .next t ∧
      t.rd F.RAS_MGSTEP.STAMP = s.now ∧ t.rd F.RAS_MGSTEP_PREV.STAMP = s.rd F.RAS_MGSTEP.STAMP ∧
      t.bit F.RAS_MGCTL.PENDING = s.bit F.RAS_SECFG.STEP_EN ∧
      s.regsOnly t [(.RAS_MGSTEP, 0, 0), (.RAS_MGSTEP_PREV, 0, 0), (.RAS_MGCTL, 0, 0)])) ∧
  (∀ v : W32, s.pfHeld = false → v.getLsbD 27 = true →
    (s.bit F.RAS_MGCTL.BUSY = true → ∃ t, exec (.mgSweep v) s = .next t ∧ t.bit F.RAS_MGCTL.REJ = true ∧
      s.regsOnly t [(.RAS_MGCTL, 0, 0)]) ∧
    (s.bit F.RAS_MGCTL.BUSY = false → v.toNat / 2 ^ 12 % 16 = j.val → s.bit F.LNT_CTL.FENCED j = false → v.toNat % 256 ≠ 0 →
      ∃ t, exec (.mgSweep v) s = .next t ∧ t.bit F.RAS_MGCTL.BUSY = true ∧ nbit (t.rd F.RAS_MGSTAT.IN_SWEEP) j = true ∧
        (∃ w, (t.lnt j).sweep = some w ∧ w.rounds = v.toNat % 256 ∧ w.rep = false) ∧ t.mem = s.mem ∧ t.plots = s.plots)) ∧
  (∀ (ds : List W64) (v : W64), ds.length = 12 → s.bit F.RAS_MGCTL.BUSY = true → s.bit F.RAS_MGCTL.PENDING = false →
    (∀ t ∈ s.tests, t.2.cls ≠ 5) →
    (∀ i ∈ s.inSweep, ds.getD i 0 = v ∧ (∀ t ∈ (s.lnt i).tests, t.why ≠ .sweep) ∧
      ∃ w, (s.lnt i).sweep = some w ∧ w.queue = [] ∧ w.bad = false ∧ w.rep = false ∧ w.hits = []) →
    ∃ t, exec (.sweepEnd ds) s = .next t ∧ t.bit F.RAS_MGCTL.BUSY = false ∧ t.rd F.RAS_MGSTAT.IN_SWEEP = 0 ∧
      (∀ i ∈ s.inSweep, t.reg .RAS_MGDIG i = v ∧ (t.lnt i).sweep = none) ∧ s.keptBut t [.regs, .lnts, .advised])

/-- R321, R661, R663 to R665: the commands FENCE_ARRAY and FENCE_LANTERN. -/
def Obligations.Fences : Prop := ∀ (s : State) (k : Cluster), s.pfHeld = false →
  (∀ a : ArrIx,
    (s.bit F.RAS_FENCECTL.BUSY k = false → s.role k a ≠ 4 → ((s.lnt k).arr a).isSome = true → ∃ t, exec (.fenceArray k a) s = .next t ∧
      t.rd F.RAS_FENCECTL.RESULT k = 0 ∧ t.bit F.RAS_FENCECTL.BUSY k = true ∧ t.rd F.RAS_FENCECTL.ARRAY k = a.val ∧
      (t.lnt k).fence = (s.lnt k).fence ++ [(a.val, true)] ∧ s.keptBut t [.regs, .lnts, .hist, .auditQ] ∧
      s.onlyRegs t [(.RAS_FENCECTL, k, 0)]) ∧
    (s.bit F.RAS_FENCECTL.BUSY k = false → s.role k a = 4 → ∃ t, exec (.fenceArray k a) s = .next t ∧
      t.rd F.RAS_FENCECTL.RESULT k = 1 ∧ s.regsOnly t [(.RAS_FENCECTL, k, 0)]) ∧
    (s.bit F.RAS_FENCECTL.BUSY k = true → ∃ t, exec (.fenceArray k a) s = .next t ∧
      t.rd F.RAS_FENCECTL.RESULT k = 2 ∧ s.regsOnly t [(.RAS_FENCECTL, k, 0)])) ∧
  (s.bit F.RAS_FENCECTL.BUSY k = false → s.bit F.LNT_CTL.FENCED k = false → ∃ t, exec (.fenceLantern k) s = .next t ∧
    t.rd F.RAS_FENCECTL.RESULT k = 0 ∧ t.bit F.LNT_CTL.FENCED k = true ∧ (t.posy k).ents = [] ∧
    (t.lnt k).tests = [] ∧ (t.lnt k).sweep = none ∧
    (∀ c, c < 8 → (s.ctx k c).job.isSome = true → (s.ctx k c).st ≠ .draining → (s.ctx k c).st ≠ .idle → (t.ctx k c).abort = true) ∧
    t.mem = s.mem ∧ t.plots = s.plots) ∧
  (s.bit F.RAS_FENCECTL.BUSY k = false → s.bit F.LNT_CTL.FENCED k = true → ∃ t, exec (.fenceLantern k) s = .next t ∧
    t.rd F.RAS_FENCECTL.RESULT k = 1 ∧ s.regsOnly t [(.RAS_FENCECTL, k, 0)]) ∧
  (s.bit F.RAS_FENCECTL.BUSY k = true → ∃ t, exec (.fenceLantern k) s = .next t ∧
    t.rd F.RAS_FENCECTL.RESULT k = 2 ∧ s.regsOnly t [(.RAS_FENCECTL, k, 0)])

/-- R21, R22, with R15, R516 and R701: the commands REG64_LOW_READ, RC_FIELD_READ, UNDEFINED_OFFSET_ACCESS, and REGISTER_WRITE at an offset
that names nothing. -/
def Obligations.RegisterAccess : Prop := ∀ (s : State) (f : FnIx) (off : Nat),
  (placeOf f off = none → ∃ t, t = { s with out := s.out ++ [.unsupported f] } ∧
    (∀ w, exec (.undefinedOffsetAccess f off w) s = .next t) ∧ exec (.rcFieldRead f off) s = .next t ∧
    (∀ wide v, exec (.registerWrite (.fn f) off wide v) s = .next t)) ∧
  (∀ w : BarAccess, ((w.len ≠ 4 ∧ w.len ≠ 8) ∨ off % w.len ≠ 0) →
    exec (.undefinedOffsetAccess f off w) s = .next { s with out := s.out ++ [.unsupported f] }) ∧
  (s.inBoot = true → bootOpen f off = false → placeOf f off ≠ none →
    exec (.rcFieldRead f off) s = .next { s with out := s.out ++ [.regRead f 0] }) ∧
  (∀ r i j, placeOf f off = some (.reg r i j false) → (s.inBoot = false ∨ bootOpen f off = true) →
    (r.desc.wide = false → ∃ t, exec (.rcFieldRead f off) s = .next t ∧
      t.out = s.out ++ [.regRead f (BitVec.ofNat 64 (s.seen r i j).toNat)] ∧
      ((∀ x ∈ r.desc.fields, x.acc ≠ .rc) → s.keptBut t [.out]) ∧
      (∀ x ∈ r.desc.fields, x.acc = .rc → x.lo + x.len ≤ 64 →
        (t.reg r i j).toNat >>> x.lo % 2 ^ x.len = (tget 0 s.events (regKey r i j)).toNat >>> x.lo % 2 ^ x.len)) ∧
    (r.desc.wide = true → ∃ t, exec (.reg64LowRead f off) s = .next t ∧ exec (.rcFieldRead f off) s = .next t ∧
      t.out = s.out ++ [.regRead f (BitVec.ofNat 64 ((s.seen r i j).toNat % 2 ^ 32))] ∧
      t.latched f (regKey r i j) = some (BitVec.ofNat 32 ((s.seen r i j).toNat / 2 ^ 32)) ∧ s.keptBut t [.out, .hiLatch, .regs, .regs0] ∧
      (∀ (u : State) (hi : Nat), u.hiLatch = t.hiLatch → placeOf f hi = some (.reg r i j true) → (u.inBoot = false ∨ bootOpen f hi = true) →
        ∃ v, exec (.rcFieldRead f hi) u = .next v ∧ v.out = u.out ++ [.regRead f (BitVec.ofNat 64 ((s.seen r i j).toNat / 2 ^ 32))] ∧
          v.latched f (regKey r i j) = none)))

/-- R15, R23, R598, R701: the command REGISTER_WRITE. -/
def Obligations.RegisterWrites : Prop := ∀ (s : State) (off : Nat) (v : W64) (r : RegName) (i j : Nat),
  (∀ a wide, ∃ t, exec (.registerWrite a off wide v) s = .next t) ∧
  (placeOf 0 off = some (.reg r i j false) → r.desc.wide = false →
  (s.inBoot = true → bootOpen 0 off = false → exec (.registerWrite (.fn 0) off false v) s = .next s) ∧
  ((s.inBoot = false ∨ bootOpen 0 off = true) → s.actWrite1 (.fn 0) r i j (v.toNat % 2 ^ 32) = none →
    s.actWrite2 (.fn 0) r i j (v.toNat % 2 ^ 32) = none → s.actWrite3 (.fn 0) r i j (v.toNat % 2 ^ 32) = none →
    s.shut r i j (s.putFields (.fn 0) r i j (v.toNat % 2 ^ 32) true false).toNat = false →
    (s.auditFull = true → s.putFields (.fn 0) r i j (v.toNat % 2 ^ 32) true false = s.reg r i j →
      exec (.registerWrite (.fn 0) off false v) s = .next s) ∧
    (s.auditFull = true → s.putFields (.fn 0) r i j (v.toNat % 2 ^ 32) true false ≠ s.reg r i j →
      exec (.registerWrite (.fn 0) off false v) s = .next { s with endpoint := s.endpoint ++ [.registerWrite (.fn 0) off false v] }) ∧
    (s.auditFull = false → ∃ t, exec (.registerWrite (.fn 0) off false v) s = .next t ∧ t.reg r i j = s.putFields (.fn 0) r i j (v.toNat % 2 ^ 32) true false ∧
      s.regsOnly t [(r, i % 2 ^ 14, j % 2 ^ 14)] ∧
      (t.reg r i j ≠ s.reg r i j → s.queued t 1 0 0 (placeWhere r i j) (s.reg r i j).toNat (t.reg r i j).toNat) ∧
      (t.reg r i j = s.reg r i j → t = s) ∧
      (∀ x ∈ r.desc.fields, x.acc = .rw1c → x.lo + x.len ≤ 32 → agentWrites (.fn 0) r i = true →
        (∀ y ∈ r.desc.fields, y = x ∨ y.lo + y.len ≤ x.lo ∨ x.lo + x.len ≤ y.lo) →
        (t.reg r i j).toNat >>> x.lo % 2 ^ x.len = (s.reg r i j).toNat >>> x.lo % 2 ^ x.len -
          (((s.reg r i j).toNat >>> x.lo % 2 ^ x.len &&& (v.toNat % 2 ^ 32) >>> x.lo % 2 ^ x.len) -
            ((s.reg r i j).toNat >>> x.lo % 2 ^ x.len &&& (v.toNat % 2 ^ 32) >>> x.lo % 2 ^ x.len &&&
              (tget 0 s.events (regKey r i j)).toNat >>> x.lo % 2 ^ x.len))))) ∧
  (∀ a, (∀ f, a ≠ .fn f) → agentWrites a r i = true → s.actWriteCore a r i j (v.toNat % 2 ^ 32) = none →
    s.shut r i j (s.putFields a r i j (v.toNat % 2 ^ 32) true false).toNat = false →
    ∃ t, exec (.registerWrite a off false v) s = .next t ∧ t.reg r i j = s.putFields a r i j (v.toNat % 2 ^ 32) true false ∧
      s.regsOnly t [(r, i % 2 ^ 14, j % 2 ^ 14)]))

/-- R146, R536, R686 to R689, R693, R696, R698, R700, R702, R703: the commands COLD_RESET, SCH_RELEASE, BOOT_PHASE_FAIL, WARM_RESET_REQUEST and
WARM_RESET. The timing of the phases is the model's (notes/assumptions/22). -/
def Obligations.ResetsAndBoot : Prop := ∀ s : State,
  (∀ e : ColdEnv, ∃ t, exec (.coldReset e) s = .next t ∧ t.inBoot = true ∧ t.mem = [] ∧ t.plots = State.reset.plots ∧ t.flights = [] ∧
    t.fw.flash = s.fw.flash ∧ t.hist.boots = s.histFlash.boots + 1 ∧ t.pending = s.pending ∧ t.out.take s.out.length = s.out ∧
    t.rd F.SEC_STATUS.ID = (if s.fw.flash.puf = some (digestOf (leBytes e.puf 32)) then 1 else 2) ∧ t.coreSt 2 = coreHeld ∧
    ((e.bootHost = true ∨ s.fw.bootSlot e.badSlots = none) → t.bit F.FW_BOOT.WAIT_HOST = true ∧ t.rd F.FW_BOOT.STAGE = 3) ∧
    (∀ i, e.bootHost = false → s.fw.bootSlot e.badSlots = some i → t.rd F.FW_BOOT.STAGE = 6 ∧ t.rd F.FW_BOOT.SOURCE = i ∧
      t.coreSt 0 = coreRunning ∧ t.coreSt 1 = coreRunning ∧ t.bit F.GLOBAL_CFGLOCK.LOCK = true ∧ t.bit F.SNF_LOCK.LOCK = true)) ∧
  (s.inBoot = true → s.fw.failed = false → s.fw.quiet = false → s.rd F.FW_BOOT.STAGE = (if s.bit F.FW_BOOT.WARM then 5 else 8) →
    s.bit F.RAS_MGCTL.BUSY = false → ∃ t, exec .schRelease s = .next t ∧ t.inHold = true ∧ t.coreSt 2 = coreRunning ∧
      t.rd F.FW_BOOT.STAGE = (if s.bit F.FW_BOOT.WARM then 6 else 9) ∧
      t.rd F.GLOBAL_IFVER.MAJOR = (tget FwImg.blank s.fw.imgs 2).ifver / 256 % 2 ^ F.GLOBAL_IFVER.MAJOR.len ∧
      t.mem = s.mem ∧ t.plots = s.plots ∧ t.flights = s.flights) ∧
  (∀ (phase : Fin 16) (err : Option (Fin 9)),
    (s.inBoot = true → s.fw.failed = false → s.rd F.FW_BOOT.STAGE = phase.val → ∃ t, exec (.bootPhaseFail phase err) s = .next t ∧
      t.rd F.FW_BOOT.ERR = (match err with | some e => e.val + 1 | none => 0x20 + phase.val) ∧ t.fw = { s.fw with failed := true } ∧ s.keptBut t [.regs, .fw] ∧ s.onlyRegs t [(.FW_BOOT, 0, 0)])) ∧
  (s.inBoot = false → s.fw.warm = none → s.bit F.SNF_STAT.SHUTDOWN = false → ∃ t, exec .warmResetRequest s = .next t ∧
    t.fw.warm = some s.now ∧ t.fw.quiet = true ∧ t.histFlash = { s.hist with hours := s.hours } ∧ t.mem = s.mem ∧ t.plots = s.plots ∧
    (∀ p, p < 39 → p ≠ 25 → p ≠ 26 → t.bit F.PORT_LINK.UP p = false)) ∧
  (∀ (e : WarmEnv) (since : Nat), s.fw.warm = some since → s.bit F.SNF_STAT.SHUTDOWN = false →
    (s.quiesced = true → ∃ t, exec (.warmReset e) s = .next t ∧ .hub .warmAck ∈ t.out ∧ t.inBoot = true ∧ t.bit F.FW_BOOT.WARM = true ∧
      t.rd F.FW_BOOT.STAGE = 5 ∧ t.fw.warm = none ∧ t.fw.quiet = false ∧ t.flights = [] ∧ (∀ i, i < 64 → t.session i = none) ∧
      t.rd F.FW_BOOT.ERR = 0 ∧ t.pending = s.pending) ∧
    (s.quiesced = false → s.now < since + 2400000 → exec (.warmReset e) s = .next s) ∧
    (s.quiesced = false → since + 2400000 ≤ s.now → ∃ t, exec (.warmReset e) s = .next t ∧ t.inBoot = true ∧ t.bit F.FW_BOOT.WARM = true ∧
      t.flights = []))

/-- R565, R685, R704, R708, R709: the commands WATCHDOG_EXPIRY, CORE_TRAP, CORE_RESTART and CORE_RELEASE. -/
def Obligations.CoreRestarts : Prop := ∀ (s : State) (c : Fin 15),
  (∀ cause x, (cause = causeWatchdog ∧ s.coreSt c = coreRunning ∧ tget 0 s.fw.since c + usTicks (1000 * s.rd F.FW_CTL.WDOG_MS c) ≤ s.now ∧
        x = Instr.watchdogExpiry c) ∨ (cause = causeTrap ∧ s.coreSt c = coreRunning ∧ x = .coreTrap c) ∨
      (cause = causePf0 ∧ s.auditFull = false ∧ s.coreSt c ≠ coreRestarting ∧ s.coreSt c ≠ 1 ∧ x = .coreRestart c true) →
    ∃ t, exec x s = .next t ∧ t.mem = s.mem ∧ t.plots = s.plots ∧ t.flights = s.flights ∧
      ((c.val = 0 ∨ s.coreSt 0 ≠ coreRestarting) → t.rd F.FW_LASTCAUSE.CAUSE c = cause ∧ t.rd F.FW_LASTSTAMP.STAMP c = s.now ∧
        t.bit F.FW_EVT.RESTART = true ∧
        t.rd F.FW_STATE.RESTARTS c = min (2 ^ F.FW_STATE.RESTARTS.len - 1) (s.rd F.FW_STATE.RESTARTS c + 1) ∧
        t.coreSt c = (if ((tget [] s.fw.falls c).filter fun u => decide (s.now < u + 12000000000)).length + (if cause = causePf0 then 0 else 1) < 3
          then coreRestarting else coreFault) ∧
        (∀ d, d < 15 → d ≠ c.val → t.coreSt d = s.coreSt d) ∧ s.queued t 0 0 0 (regOff .FW_STATE c) (s.reg .FW_STATE c).toNat (t.reg .FW_STATE c).toNat) ∧
      (c.val ≠ 0 → s.coreSt 0 = coreRestarting → (s.fw.owed.any fun o => o.1 == c.val) = false →
        t.fw.owed = s.fw.owed ++ [(c.val, cause)] ∧ t.coreSt c = s.coreSt c)) ∧
  (∀ ok, s.auditFull = false → s.coreSt c ≠ coreRestarting → s.coreSt c ≠ 1 → ∃ t, exec (.coreRestart c ok) s = .next t ∧
    (ok = false → tget FwImg.blank t.fw.imgs c = s.bootImg c false)) ∧
  (s.coreSt c = coreRestarting → s.fw.owed = [] → ∃ t, exec (.coreRelease c) s = .next t ∧ t.coreSt c = coreRunning ∧
    tget 0 t.fw.since c = s.now ∧ (∀ d, d < 15 → d ≠ c.val → t.coreSt d = s.coreSt d) ∧
    (c.val ≠ 0 → t.mem = s.mem ∧ t.plots = s.plots ∧ t.sec.sessions = s.sec.sessions) ∧
    (c.val = 0 → s.bit F.PLOT_CMD.BUSY = false → t.mem = s.mem ∧ t.plots = s.plots ∧ ∀ i x, s.session i = some x →
      t.session i = some { x with beat := x.beat + (s.now - s.rd F.FW_LASTSTAMP.STAMP 0) }))

/-- R696, R697, R700, R710 to R716, R718: the commands STAGE_CHUNK, STAGE_END, REC_WRITE, TRN_SAVE, ACTIVATE, CANCEL, ACTIVATION_BEGIN,
ACTIVATION_CORE_RESTART, ACTIVATION_START_FAIL and ACTIVATION_END (notes/assumptions/23). -/
def Obligations.FirmwareUpdate : Prop := ∀ s : State,
  (s.inBoot = false → s.secUp = true → s.auditFull = false →
    (∀ (off : W32) (data : List Byte), data ≠ [] → data.length ≤ 1000 →
      s.mbxOk 0 0x10 0x10 ([1, 0, 0, 0] ++ leBytes off 4 ++ leBytes (BitVec.ofNat 16 data.length) 2 ++
        List.replicate 6 0 ++ data) = true → off.toNat + data.length ≤ 4194304 →
      (s.updSt = 1 → ∃ t, exec (.stageChunk 0 1 off data) s = .next t ∧ s.answered t 0 none rOK 0 [] ∧
        t.fw = { s.fw with buf1 := bufPut s.fw.buf1 off.toNat data } ∧ s.keptBut t [.regs, .bytes, .sec, .out, .pmus, .fw]) ∧
      (s.updSt ≠ 1 → s.updSt ≠ 3 → s.updSt ≠ 4 → ∃ t, exec (.stageChunk 0 1 off data) s = .next t ∧ s.answered t 0 none rOK 0 [] ∧
        t.updSt = 1 ∧ t.fw.buf1 = bufPut [] off.toNat data ∧ (∀ x, t.fw.flash.slots[1 - s.fw.slot]? = some x → x.valid = false)) ∧
      (s.updSt = 4 → ∃ t, exec (.stageChunk 0 1 off data) s = .next t ∧ s.answered t 0 none rCHECK 0x16 [] ∧ t.fw = s.fw)) ∧
    (∀ total : W32, total.toNat ≤ 4194304 → s.mbxOk 0 0x10 0x11 ([1, 0, 0, 0] ++ leBytes total 4) = true → s.updSt ≠ 3 → s.updSt ≠ 4 →
      ∀ b, b = (List.range total.toNat).map (tget 0 s.fw.buf1) →
      ∃ t, exec (.stageEnd 0 1 total) s = .next t ∧
        (s.payCheck b true = 0 → s.answered t 0 none rOK 0 [] ∧ t.updSt = 2 ∧ t.fw.slot = s.fw.slot ∧
          (∀ x, t.fw.flash.slots[1 - s.fw.slot]? = some x → x = ⟨true, 0, payImgs b, payTrn b⟩)) ∧
        (s.payCheck b true ≠ 0 → s.answered t 0 none rCHECK (0x10 + s.payCheck b true) [] ∧ t.updSt = 6 ∧
          t.rd F.FW_UPDSTAT.RESULT = s.payCheck b true % 2 ^ F.FW_UPDSTAT.RESULT.len ∧ t.fw.flash = s.fw.flash)) ∧
    (∀ body : List Byte, body.length = 208 → s.mbxOk 0 0x10 0x12 ([1] ++ List.replicate 7 0 ++ body) = true → recNat body 0 4 = 0x43464731 →
      (∀ c, c < 4 → s.fw.minSvn c ≤ (parseCfg body).minSvn.getD c 0) → (∀ o, s.fw.flash.cfg = some o → o.rseq < (parseCfg body).rseq) →
      ∃ t, exec (.recWrite 0 1 body) s = .next t ∧ s.answered t 0 none rOK 0 [] ∧ t.fw.flash.cfg = some (parseCfg body) ∧
        s.keptBut t [.regs, .bytes, .sec, .out, .pmus, .fw] ∧ s.onlyRegs t [(.MBX_STATUS, 0, 0)]) ∧
    (∀ k : Cluster, s.mbxOk 0 0x10 0x13 [BitVec.ofNat 8 k.val] = true → ∃ t, exec (.trnSave 0 k) s = .next t ∧ s.answered t 0 none rOK 0 [] ∧
      tget none t.fw.flash.trn k = some ((List.range 4096).map (s.imgByte k)) ∧ s.keptBut t [.regs, .bytes, .sec, .out, .pmus, .fw]) ∧
    (∀ (f : FnIx) (k : Cluster), f.val ≠ 0 → s.mbxOk f 0x10 0x13 [BitVec.ofNat 8 k.val] = true → ∃ t, exec (.trnSave f k) s = .next t ∧
      s.answered t f none rDENIED 2 [] ∧ t.fw = s.fw)) ∧
  (s.auditFull = false →
    (s.updSt ≠ 2 → ∃ t, exec .activate s = .next t ∧ t.rd F.FW_UPDSTAT.RESULT = 7 ∧ t.updSt = s.updSt ∧ s.regsOnly t [(.FW_UPDSTAT, 0, 0)]) ∧
    (s.updSt = 2 → s.emergency = true → ∃ t, exec .activate s = .next t ∧ t.updSt = 3 ∧ t.bit F.FW_EVT.DEFERRED = true ∧ t.fw.act = [] ∧ t.fw.clear = s.now) ∧
    (s.updSt = 2 → s.emergency = false → ∃ t, exec .activate s = .next t ∧ t.updSt = 4 ∧ t.fw.acted = [] ∧
      t.fw.act = ([1] ++ (List.range 12).map (· + 3) ++ [2]).filter (nbit (s.rd F.FW_UPDCTL.CORES)) ∧
      t.rd F.FW_UPDSTAT.NEXT = t.fw.act.headD 0 ∧ s.keptBut t [.regs, .auditQ, .fw])) ∧
  (s.updSt = 3 →
    (s.auditFull = false → ∃ t, exec .cancel s = .next t ∧ t.updSt = 2 ∧ t.rd F.FW_UPDSTAT.RESULT = 9 ∧ s.regsOnly t [(.FW_UPDSTAT, 0, 0)]) ∧
    (s.inBoot = false → s.emergency = false → s.fw.clear + 1200000000 < s.now → ∃ t, exec .activationBegin s = .next t ∧ t.updSt = 4 ∧
      t.fw.act = ([1] ++ (List.range 12).map (· + 3) ++ [2]).filter (nbit (s.rd F.FW_UPDCTL.CORES)) ∧ s.keptBut t [.regs, .fw])) ∧
  (s.updSt = 4 → s.fw.actAt ≠ s.now + 1 → s.secUp = true →
    (∀ c rest, s.fw.act = c :: rest → c < 15 → s.coreSt c ≠ coreRestarting → (∀ d ∈ s.fw.acted, s.coreSt d = coreRunning) →
      ∃ t, exec .activationCoreRestart s = .next t ∧ t.fw.act = rest ∧ t.fw.acted = s.fw.acted ++ [c] ∧ t.rd F.FW_UPDSTAT.NEXT = c ∧
        t.rd F.FW_LASTCAUSE.CAUSE c = causeActivation ∧ t.mem = s.mem ∧ t.plots = s.plots) ∧
    (∀ c, s.fw.acted.getLast? = some c → s.coreSt c = coreFault → ∃ t, exec .activationStartFail s = .next t ∧ t.updSt = 6 ∧
      t.rd F.FW_UPDSTAT.RESULT = 8 ∧ t.bit F.FW_EVT.FAILED = true ∧ t.fw.act = [] ∧ t.fw.acted = [] ∧ t.fw.slot = s.fw.slot ∧
      t.fw.flash = s.fw.flash) ∧
    (s.fw.act = [] → (∀ d ∈ s.fw.acted, s.coreSt d = coreRunning) → ∃ t, exec .activationEnd s = .next t ∧
      t.updSt = (if nbit (s.rd F.FW_UPDCTL.CORES) 0 then 7 else 5) ∧ t.fw.slot = 1 - s.fw.slot ∧ t.fw.acted = [] ∧
      t.bit F.FW_EVT.ACTIVATED = true ∧ s.keptBut t [.regs, .fw, .histFlash]))

/-- R720, R723, R724, R743, R744, R747: the commands RAIL_POLL, PM_ALERT, VSET_WRITE and PMC_VOLTAGE_STEP (notes/assumptions/6,
notes/assumptions/24). -/
def Obligations.RailsAndSetpoints : Prop := ∀ s : State,
  (∀ (r : Fin 50) (status vout iout : BitVec 16),
    (s.bit F.PM_RAIL_CFG.ON r = false ∨ (statusFault status = false ∧ (14 ≤ r.val → iout.toNat ≤ s.railLimit r)) →
      ∃ t, exec (.railPoll r true status vout iout) s = .next t ∧ t.rd F.PM_RAIL_MEAS.VOUT_MV r = vout.toNat ∧
        t.rd F.PM_RAIL_MEAS.IOUT_DA r = iout.toNat ∧ tget 0 t.pw.missed r = 0 ∧ r.val ∉ t.pw.polls ∧ s.keptBut t [.regs, .pw] ∧
        s.onlyRegs t [(.PM_RAIL_MEAS, r, 0)]) ∧
    (s.bit F.PM_RAIL_CFG.ON r = true → statusFault status = true →
      ∃ t, exec (.railPoll r true status vout iout) s = .next t ∧ nbit (t.rd F.PM_FAULT.RAIL) r = true ∧ t.mem = s.mem ∧ t.plots = s.plots ∧
        (r.val < 2 → t.bit F.SNF_STAT.SHUTDOWN = true ∧ t.attn 0xF = (s.attn 0xF || !s.bit F.SNF_STAT.SHUTDOWN) ∧
          (s.bit F.SNF_STAT.SHUTDOWN = false → t.pw.shutAt = some s.now ∧
            t.pw.notice = some (s.now + msTicks (s.rd F.THM_CFG.NOTICE_MS)))) ∧
        (2 ≤ r.val → (∀ q ∈ siteRails (railSite r), tget 0 s.pw.faults q = 0) → tget 0 t.pw.faults r = s.now + 1 ∧
          (∀ p, p < 64 → (s.pc (railSite r) p).st.canFreeze = true → (t.pc (railSite r) p).st = .frozen) ∧
          (s.rd F.PHY_STATUS.SITE (railSite r) = 3 → t.rd F.PHY_STATUS.SITE (railSite r) = 2))) ∧
    (tget 0 s.pw.missed r < 2 → ∃ t, exec (.railPoll r false status vout iout) s = .next t ∧
      tget 0 t.pw.missed r = tget 0 s.pw.missed r + 1 ∧ s.keptBut t [.pw]) ∧
    (2 ≤ tget 0 s.pw.missed r → s.bit F.PM_RAIL_CFG.ON r = true → ∃ t, exec (.railPoll r false status vout iout) s = .next t ∧
      nbit (t.rd F.PM_FAULT.RAIL) r = true ∧ tget 0 t.pw.missed r = 0)) ∧
  (∃ t, exec .pmAlert s = .next t ∧ t.pw = { s.pw with polls := List.range 50 } ∧ s.keptBut t [.pw]) ∧
  (∀ (r : Fin 50) (mv : BitVec 16), s.pmcUp = true → tget 0 s.pw.faults r ≠ s.now + 1 → ∃ t, exec (.vsetWrite r mv) s = .next t ∧
    t.rd F.PM_RAIL_CFG.VSET_MV r = mv.toNat ∧
    t.out = s.out ++ [.pmbus r (min (s.railWindow r).2 (max (s.railWindow r).1 mv.toNat))] ∧
    t.rd F.SNF_STAT.CLAMPS = (if min (s.railWindow r).2 (max (s.railWindow r).1 mv.toNat) = mv.toNat then s.rd F.SNF_STAT.CLAMPS
      else min (2 ^ F.SNF_STAT.CLAMPS.len - 1) (s.rd F.SNF_STAT.CLAMPS + 1)) ∧
    s.keptBut t [.regs, .auditQ, .out] ∧ s.onlyRegs t [(.PM_RAIL_CFG, r, 0), (.SNF_STAT, 0, 0)]) ∧
  (∀ a b : List Nat, (s.pmcUp = true → s.clk.running = true → s.pw.stepped ≠ s.pw.start + 1 →
      ∃ t, exec (.pmcVoltageStep a b) s = .next t ∧ t.pw = { s.pw with stepped := s.pw.start + 1 } ∧
        ((∃ m ∈ a, m < 8) → s.rd F.PM_RAIL_CFG.VSET_MV 0 ≠ 0 →
          t.rd F.PM_RAIL_CFG.VSET_MV 0 = (s.rd F.PM_RAIL_CFG.VSET_MV 0 + 5) % 2 ^ F.PM_RAIL_CFG.VSET_MV.len) ∧
        ((∃ m ∈ b, m < 8) → s.rd F.PM_RAIL_CFG.VSET_MV 1 ≠ 0 →
          t.rd F.PM_RAIL_CFG.VSET_MV 1 = (s.rd F.PM_RAIL_CFG.VSET_MV 1 + 5) % 2 ^ F.PM_RAIL_CFG.VSET_MV.len) ∧
        s.keptBut t [.regs, .auditQ, .out, .pw, .freeCount] ∧ s.onlyRegs t [(.PM_RAIL_CFG, 0, 0), (.PM_RAIL_CFG, 1, 0), (.SNF_STAT, 0, 0)]) ∧
    (s.pw.stepped = s.pw.start + 1 → exec (.pmcVoltageStep a b) s = .next s))

/-- R252, R253, R725, R727, R730 to R732, R736, R737, R740: the commands HK_SAMPLE, STACK_TEMP_READ, STACK_TEMP_TIMEOUT, THRESHOLD_WRITE,
GRACE_EXPIRY, SHUTDOWN_NOTICE_END and PWROFF_REQUEST. -/
def Obligations.HeatAndShutdown : Prop := ∀ s : State,
  (∀ (ch : Fin 64) (raw : BitVec 16), s.clk.running = true → ch.val = s.pw.next →
    (s.pw.start + convTicks * (ch.val + 1) ≤ s.now → ∃ t, exec (.hkSample ch raw) s = .next t ∧
      t.pw.next = (ch.val + 1) % 64 ∧ t.pw.start = (if ch.val = 63 then s.pw.start + roundTicks else s.pw.start) ∧
      (ch.val = 63 → t.rd F.HK_ROUND.STAMP = s.pw.start % 2 ^ F.HK_ROUND.STAMP.len) ∧
      (32 ≤ ch.val → t.rd F.HK_CH.VALUE ch = raw.toNat) ∧
      tget 0 t.sampleAt ch = s.pw.start + convTicks * (ch.val + 1) ∧ t.mem = s.mem ∧ t.plots = s.plots ∧
      (16 ≤ ch.val → ch.val < 32 → s.rd F.THM_SENS_CFG.MODE ch ≠ 0 → t.bit F.THM_SENS_READ.VALID ch = true ∧
        t.rd F.THM_SENS_READ.TEMP ch = raw.toNat ∧
        nbit (t.levels ch) 1 = levelStep (nbit (s.levels ch) 1) (sext16 raw.toNat) (s.rd0 F.THM_SENS_THR.THROT_C ch)
          (s.rd0 F.THM_SENS_HYS.THROT_H ch))) ∧
    (s.now < s.pw.start + convTicks * (ch.val + 1) → exec (.hkSample ch raw) s = .next s)) ∧
  (∀ (k : Cluster) (temp : Byte), 1 ≤ s.rd F.PHY_STATUS.SITE k → s.rd F.PHY_STATUS.SITE k < 4 → s.rd F.THM_SENS_CFG.MODE (32 + k) ≠ 0 →
    (∃ t, exec (.stackTempRead k temp true) s = .next t ∧ t.bit F.THM_SENS_READ.VALID (32 + k) = true ∧
      t.rd F.THM_SENS_READ.TEMP (32 + k) = 8 * temp.toNat ∧ tget 0 t.stackTemp k = temp.toNat + 2 ∧ tget 0 t.sampleAt (64 + k) = s.now ∧ t.mem = s.mem ∧ t.pcs = s.pcs) ∧
    (∀ x, x = .stackTempRead k temp false ∨ x = .stackTempTimeout k → ∃ t, exec x s = .next t ∧
      t.bit F.THM_SENS_READ.VALID (32 + k) = false ∧ t.rd F.THM_SENS_READ.LEVEL (32 + k) = 2 ∧ tget 0 t.stackTemp k = 1) ∧
    (∃ t, exec (.stackTempTimeout k) s = .next t ∧ t.mem = s.mem ∧ t.pcs = s.pcs)) ∧
  (∀ (i : Fin 44) (v : W32) (shut throt warn : Nat), s.pfHeld = false → shut = v.toNat / 65536 % 256 → throt = v.toNat / 256 % 256 →
    warn = v.toNat % 256 →
    (shut ≤ s.rd F.SNF_TCEIL.SHUT_C → throt ≤ s.rd F.SNF_TCEIL.THROT_C → warn < throt → throt < shut →
      ∃ t, exec (.thresholdWrite i v) s = .next t ∧ t.rd F.THM_SENS_THR.SHUT_C i = shut ∧ t.rd F.THM_SENS_THR.THROT_C i = throt ∧
        t.rd F.THM_SENS_THR.WARN_C i = warn ∧ s.regsOnly t [(.THM_SENS_THR, i, 0)]) ∧
    (s.rd F.SNF_TCEIL.SHUT_C < shut ∨ s.rd F.SNF_TCEIL.THROT_C < throt ∨ throt ≤ warn ∨ shut ≤ throt →
      ∃ t, exec (.thresholdWrite i v) s = .next t ∧ t.bit F.THM_EVT.REJ = true ∧ s.keptBut t [.regs] ∧ s.onlyRegs t [(.THM_EVT, 0, 0)])) ∧
  (∀ g, s.pw.grace = some g →
    (g < s.now → ∃ t, exec .graceExpiry s = .next t ∧ t.bit F.SNF_STAT.ENFORCED = true ∧ t.bit F.THM_EVT.ENFORCED = true ∧
      t.attn 0x1 = false ∧ t.attn 0x2 = true ∧ t.pw = { s.pw with grace := none } ∧ t.clk = { s.clk with nmcAsk := some true } ∧
      s.keptBut t [.regs, .clk, .pw, .recs, .recTick, .recLast, .capUsed]) ∧
    (s.now ≤ g → exec .graceExpiry s = .next s)) ∧
  (∀ n, s.pw.notice = some n →
    (n ≤ s.now → ∃ t, exec .shutdownNoticeEnd s = .next t ∧ t.fw.quiet = true ∧ t.pw.notice = none ∧ t.mem = s.mem ∧ t.plots = s.plots ∧
      t.histFlash = { s.hist with hours := s.hours }) ∧
    (s.now < n → exec .shutdownNoticeEnd s = .next s)) ∧
  (∀ b, s.pw.shutAt = some b →
    (s.pw.off = false → (s.pw.notice = none ∧ s.pcsStill = true) ∨ b + 60000000 ≤ s.now → ∃ t, exec .pwroffRequest s = .next t ∧
      t.out = s.out ++ [.hub .pwroffReq] ∧ t.pw = { s.pw with off := true } ∧ s.keptBut t [.out, .pw]) ∧
    (s.pw.off = true → exec .pwroffRequest s = .next s))

/-- R752 to R755, R758, R774 to R779, R782: the commands PAIR, PAIR_FORMED, UNPAIR, TAKEOVER, PARTNER_LOSS, PAIR_KEY_UPDATE, HELLO, HEART,
DOWN, PROBE, PROBE_REPLY, PROBE_SEND and HEART_SEND (notes/assumptions/25). -/
def Obligations.PairForming : Prop := ∀ s : State,
  (s.pfHeld = false →
    (s.rd F.MIR_PAIR.STATE = 0 → ∃ t, exec .pair s = .next t ∧ s.regsOnly t [(.MIR_PAIR, 0, 0)] ∧
      (s.mir.link ≠ [] → t.rd F.MIR_PAIR.STATE = 1 ∧ t.rd F.MIR_PAIR.RESULT = 0) ∧
      (s.mir.link = [] → t.rd F.MIR_PAIR.STATE = 0 ∧ t.rd F.MIR_PAIR.RESULT = 3)) ∧
    (∀ x, (x = .pair ∧ s.rd F.MIR_PAIR.STATE ≠ 0) ∨ (x = .unpair ∧ s.rd F.MIR_PAIR.STATE ≠ 2) ∨ (x = .takeover ∧ s.rd F.MIR_PAIR.STATE ≠ 3) →
      ∃ t, exec x s = .next t ∧ t.rd F.MIR_PAIR.RESULT = 2 ∧ t.rd F.MIR_PAIR.STATE = s.rd F.MIR_PAIR.STATE ∧
        s.regsOnly t [(.MIR_PAIR, 0, 0)]) ∧
    (s.rd F.MIR_PAIR.STATE = 2 → s.mir.writes = [] → (∀ f ∈ s.flights, f.req ≠ 25 ∧ f.req ≠ 26) → ∃ t, exec .unpair s = .next t ∧
      t.rd F.MIR_PAIR.STATE = 0 ∧ (∀ w, w < 16 → t.winState w = 0) ∧ t.mirUp 0 = false ∧ t.mirUp 1 = false ∧ t.mem = s.mem ∧
      t.plots = s.plots) ∧
    (s.rd F.MIR_PAIR.STATE = 3 → ∃ t, exec .takeover s = .next t ∧ t.rd F.MIR_PAIR.STATE = 0 ∧ t.rd F.MIR_PAIR.RESULT = 0 ∧
      t.mir.ems = 0 ∧ t.mem = s.mem ∧ t.plots = s.plots)) ∧
  (s.rd F.MIR_PAIR.STATE = 1 → s.secUp = true → s.mir.link ≠ [] →
    (∃ t, exec (.pairFormed true s.peerDigest) s = .next t ∧ t.paired = true ∧ t.rd F.MIR_PAIR.RESULT = 0 ∧
      t.mirVer = s.rd F.GLOBAL_PROTO.MIRROR_PROTO % 2 ^ F.MIR_PAIR.VER.len ∧ t.mir.ems = Config.pairSecret s.free ∧
      t.mir.heard = s.now ∧ (∀ p ∈ s.mir.link, t.mirUp p = true) ∧ t.mem = s.mem ∧ t.plots = s.plots) ∧
    (∀ ok d, ok = false ∨ d ≠ s.peerDigest → ∃ t, exec (.pairFormed ok d) s = .next t ∧ t.rd F.MIR_PAIR.STATE = 0 ∧
      t.rd F.MIR_PAIR.RESULT = 1 ∧ (∀ w, w < 16 → t.winState w = 0) ∧ t.mir.writes = [])) ∧
  (s.paired = true →
    (s.mir.back = none → s.mir.heard + usTicks (s.rd F.MIR_CFG.LOSS_US) < s.now → ∃ t, exec .partnerLoss s = .next t ∧
      t.rd F.MIR_PAIR.STATE = 3 ∧ (∀ w, w < 16 → s.winState w ≠ 0 → t.winState w = 4) ∧ t.mir.writes = [] ∧ t.mirUp 0 = false ∧
      t.mirUp 1 = false ∧ t.mem = s.mem ∧ t.plots = s.plots) ∧
    (s.mir.back = none → s.now ≤ s.mir.heard + usTicks (s.rd F.MIR_CFG.LOSS_US) → exec .partnerLoss s = .next s) ∧
    (s.secUp = true → ∃ t, exec .pairKeyUpdate s = .next t ∧ s.keptBut t [.mir, .freeCount] ∧
      t.mir = { s.mir with frames := [], tx := trafficKeys (Config.keyUpdate s.mir.ems s.free) s.lowerDigest }) ∧
    (s.mirUp 0 = true → s.mirUp 1 = true →
      (s.mir.probeAt + 1200000 ≤ s.now → ∃ t a b, exec .probeSend s = .next t ∧
        t.out = s.out ++ [.frame 0 (s.controlPrefix 0 a), .mirror 0 (.probe s.now), .frame 1 (s.controlPrefix 1 b), .mirror 1 (.probe s.now)] ∧ t.mir.probeAt = s.now ∧ s.keptBut t [.out, .mir]) ∧
      (s.mir.heartAt + 120000 ≤ s.now → ∃ t a b, exec .heartSend s = .next t ∧
        t.out = s.out ++ [.frame 0 (s.controlPrefix 0 a), .mirror 0 .heart, .frame 1 (s.controlPrefix 1 b), .mirror 1 .heart] ∧ t.mir.heartAt = s.now ∧ s.keptBut t [.out, .mir]))) ∧
  (∀ port : Fin 2,
    (s.mirUp port = false → exec (.heart port) s = .next s) ∧
    (s.mirUp port = true →
      (∃ t, exec (.heart port) s = .next t ∧ t.mir = { s.mir with heard := s.now } ∧ s.keptBut t [.mir]) ∧
      (∀ (proto : Byte) (width : Fin 8), ∃ t, exec (.hello port proto width) s = .next t ∧ t.mir.heard = s.now ∧
        t.mirVer = min (s.rd F.GLOBAL_PROTO.MIRROR_PROTO) proto.toNat % 2 ^ F.MIR_PAIR.VER.len ∧
        t.rd F.MIR_PORT.PWIDTH port = width.val % 2 ^ F.MIR_PORT.PWIDTH.len ∧ t.mem = s.mem ∧ t.plots = s.plots) ∧
      (∃ t, exec (.down port 1) s = .next t ∧ t.rd F.MIR_PAIR.STATE = 3 ∧ (∀ w, w < 16 → s.winState w ≠ 0 → t.winState w = 4) ∧
        t.mirUp 0 = false ∧ t.mirUp 1 = false) ∧
      (∃ t, exec (.down port 0) s = .next t ∧ (∀ w, w < 16 → s.winState w = 1 ∨ s.winState w = 2 → t.winState w = 3) ∧
        t.mir.back ≠ none ∧ t.mirUp 0 = false ∧ t.mirUp 1 = false ∧ t.rd F.MIR_PAIR.STATE = s.rd F.MIR_PAIR.STATE) ∧
      (∀ t1 : W64, ∃ t a, exec (.probe port t1) s = .next t ∧ t.out = s.out ++ [.frame port (s.controlPrefix port a), .mirror port (.probeReply t1.toNat s.now s.now)] ∧
        s.keptBut t [.out, .mir]) ∧
      (∀ t1 t2 t3 : W64, s.mir.probes = [] → ∃ t, exec (.probeReply port t1 t2 t3) s = .next t ∧
        t.reg .MIR_TSOFF = BitVec.ofInt 64 (Int.tdiv (((t2.toNat : Int) - t1.toNat) + ((t3.toNat : Int) - s.now)) 2) ∧
        s.keptBut t [.regs, .mir] ∧ s.onlyRegs t [(.MIR_TSOFF, 0, 0), (.MIR_TSERR, 0, 0)])))

/-- R757, R759, R761, R767 to R769, R771 to R773: the commands DATA_REQUEST, DATA_REPLY, STATE, EPOCH, MIR_WINDOW_COMMIT, MIR_WINDOW_APPLY,
SYNC_PASS_DONE and MIRROR_PORT_SWITCH. -/
def Obligations.MirroredWrites : Prop := ∀ s : State,
  (∀ port : Fin 2, s.mirUp port = true →
    (∀ x window ep owner k m tag gen result,
      (x = .dataRequest port false window ep owner k m ∧ (hcrcOk m.hdr && !frameWf m) = false) ∨ x = .dataReply port false tag gen result →
      ∃ t, exec x s = .next t ∧
        t.rd F.MIR_STAT.AUTH_FAILS = min (2 ^ F.MIR_STAT.AUTH_FAILS.len - 1) (s.rd F.MIR_STAT.AUTH_FAILS + 1) ∧ t.mirUp port = false ∧
        t.mem = s.mem ∧ t.plots = s.plots) ∧
    (∀ (window : Fin 16) (ep : BitVec 16) (owner : Byte) (k : Cluster) m, hcrcOk m.hdr = true → frameWf m = true →
      newerEpoch (s.rd F.MIR_PEPOCH.EPOCH) ep.toNat = false → s.bit F.CLOCK_STATUS.FCLK_PRESENT = true → s.bit F.PORT_LINK.UP (25 + port.val) = true →
      s.inBoot = false → s.hasCredit k (25 + port.val) m.hdr m.beats = true → s.preCheck k (25 + port.val) m.hdr = none →
      s.access (25 + port.val) 0 (s.tenantOf (25 + port.val) 0 none) m.hdr = .accept →
      s.mapTenant owner.toNat = some (s.plot (hPlot m.hdr)).owner → (s.place (hLine m.hdr) (s.plot (hPlot m.hdr))).1 = k.val →
      ((path (s.plot (hPlot m.hdr)).owner (hCls m.hdr) (25 + port.val)).filter fun b => s.bEn b && !s.bShape b) = [] → s.throttles = [] →
      ∃ t g, exec (.dataRequest port true window ep owner k m) s = .next t ∧ t.flights = s.flights ++ [g] ∧ g.id = s.nextId ∧ g.hdr = m.hdr ∧
        g.beats = m.beats ∧ g.stage = .queued ∧ g.k = k.val ∧ g.req = 25 + port.val ∧ g.why = .mirror window owner.toNat ∧
        t.rd F.MIR_PLAST.RTS window = hRts m.hdr ∧ t.mir.heard = s.now ∧ t.mem = s.mem ∧ t.plots = s.plots ∧
        t.credit k (25 + port.val) = ⟨(s.credit k (25 + port.val)).hdr - 1,
          (s.credit k (25 + port.val)).data - dataCredits m.hdr m.beats, (s.credit k (25 + port.val)).resp⟩) ∧
    (∀ window (ep : BitVec 16) owner k m, (hcrcOk m.hdr && !frameWf m) = false → ∃ t, exec (.dataRequest port true window ep owner k m) s = .next t ∧
      t.mir.heard = s.now ∧ t.plots = s.plots ∧
      t.rd F.MIR_PEPOCH.EPOCH = (if newerEpoch ep.toNat (s.rd F.MIR_PEPOCH.EPOCH) then ep.toNat else s.rd F.MIR_PEPOCH.EPOCH)) ∧
    (∀ tag (gen result : Fin 16) q, s.mir.writes.find? (fun q => q.st == .sent && q.port == port.val && q.tag == tag && q.gen == gen.val) = some q →
      s.mir.leave = none →
      (result.val = rOK → ∃ t, exec (.dataReply port true tag gen result) s = .next t ∧ (∀ o ∈ t.mir.writes, o.n ≠ q.n) ∧ t.mem = s.mem ∧
        t.plots = s.plots) ∧
      (result.val ≠ rOK → result.val ≠ rSTALE → s.winState q.w = 1 ∨ s.winState q.w = 2 ∨ s.winState q.w = 3 →
        ∃ t, exec (.dataReply port true tag gen result) s = .next t ∧ t.winState q.w = 4 ∧ (∀ o ∈ t.mir.writes, o.n ≠ q.n) ∧
          t.rd F.MIR_STAT.DIVERGES = min (2 ^ F.MIR_STAT.DIVERGES.len - 1) (s.rd F.MIR_STAT.DIVERGES + 1))) ∧
    (∀ (seq stamp : W64) item,
      (seq.toNat = s.mir.stateRx → s.mir.early = [] → ∃ t, exec (.stateMessage port seq stamp item) s = .next t ∧
        t.mir.stateRx = s.mir.stateRx + 1 ∧ t.mir.early = [] ∧ t.mir.heard = s.now ∧
        (∀ n e, item = .plot n e → t.mir.image = { s.mir.image with plots := tset 0 s.mir.image.plots n e }) ∧
        (∀ n e, item = .binding n e → t.mir.image = { s.mir.image with binds := tset 0 s.mir.image.binds n e.toNat }) ∧
        (∀ n e, item = .tenant n e → t.mir.image = { s.mir.image with tenants := tset none s.mir.image.tenants n.toNat e }) ∧
        (∀ q u h, item = .auditHead q u h → t.mir.image = { s.mir.image with head := some ⟨q, u, h⟩ } ∧ t.reg .MIR_PSEQ = q) ∧
        (∀ e ws, item = .windows e ws → t.mir.image = { s.mir.image with wins := ws, winEpoch := e.toNat }) ∧
        s.keptBut t [.mir, .regs]) ∧
      (seq.toNat < s.mir.stateRx → ∃ t, exec (.stateMessage port seq stamp item) s = .next t ∧ t.mir = { s.mir with heard := s.now } ∧
        s.keptBut t [.mir])) ∧
    (∀ (ep : BitVec 16) set, ∃ t, exec (.epoch port ep set) s = .next t ∧ s.keptBut t [.mir, .regs, .auditQ] ∧
      s.onlyRegs t [(.MIR_PEPOCH, 0, 0)] ∧
      (newerEpoch ep.toNat (s.rd F.MIR_PEPOCH.EPOCH) = true → t.rd F.MIR_PEPOCH.EPOCH = ep.toNat ∧ t.mir.image.wins = set) ∧
      (newerEpoch ep.toNat (s.rd F.MIR_PEPOCH.EPOCH) = false → t.rd F.MIR_PEPOCH.EPOCH = s.rd F.MIR_PEPOCH.EPOCH ∧
        t.mir.image = s.mir.image))) ∧
  (s.pfHeld = false →
    (s.winsBad = false → ∃ t, exec .mirWindowCommit s = .next t ∧ t.bit F.MIR_WCTL.PENDING = true ∧
      t.mir.pend = some ((List.range 16).map s.shadowWin) ∧ t.mir.commitAt = s.now ∧ s.keptBut t [.regs, .auditQ, .mir, .out] ∧
      (∀ p : Fin 2, s.mirUp p = true →
        .mirror p (.epoch ((s.rd F.MIR_WCTL.EPOCH + 1) % 65536) (winList ((List.range 16).map s.shadowWin))) ∈ t.out) ∧
      s.onlyRegs t [(.MIR_WCTL, 0, 0)]) ∧
    (s.winsBad = true → ∃ t, exec .mirWindowCommit s = .next t ∧ t.bit F.MIR_WCTL.REJ = true ∧ s.regsOnly t [(.MIR_WCTL, 0, 0)])) ∧
  (∀ ws, s.mir.pend = some ws → s.mir.writes = [] → ws.length = 16 → ∃ t, exec .mirWindowApply s = .next t ∧ t.mir.pend = none ∧
    t.bit F.MIR_WCTL.PENDING = false ∧ t.rd F.MIR_WCTL.EPOCH = (s.rd F.MIR_WCTL.EPOCH + 1) % 2 ^ F.MIR_WCTL.EPOCH.len ∧
    (∀ w n, w < 16 → ws[w]? = some n → t.bit F.MIR_ACT_CTL.EN w = n.en ∧ t.bit F.MIR_ACT_CTL.SYNC w = n.sync ∧
      t.rd F.MIR_ACT_BASE.ADDR w = n.base / 65536 % 2 ^ F.MIR_ACT_BASE.ADDR.len ∧
      t.rd F.MIR_ACT_SIZE.UNITS w = n.units % 2 ^ F.MIR_ACT_SIZE.UNITS.len ∧
      (n.en = false → s.winState w ≠ 4 → t.winState w = 0) ∧ (s.winState w = 4 → (n.en && n.sync) = false → t.winState w = 4)) ∧
    s.keptBut t [.regs, .mir, .out]) ∧
  (∀ w : Fin 16, s.paired = true → s.winState w = 1 → (s.actWin w).units * 1024 ≤ tget 0 s.mir.sync w →
    (∀ q ∈ s.mir.writes, (q.copy && q.w == w.val) = false) → ∃ t, exec (.syncPassDone w) s = .next t ∧ t.winState w = 2 ∧
    s.keptBut t [.regs] ∧ s.onlyRegs t [(.MIR_ACT_CTL, w, 0)]) ∧
  (∀ p : Fin 2, s.paired = true → s.mirUp p = false → ∃ t, exec (.mirrorPortSwitch p) s = .next t ∧
    (∀ o ∈ t.mir.writes, o.st = .sent → o.port ≠ p.val) ∧ t.mem = s.mem ∧ t.plots = s.plots ∧ t.flights = s.flights)

/-- R789, R792 to R797, R800, R801: the commands SNAP, SNAPSHOT_TAKE, FREEZE_WRITE, FREEZE_APPLY and PMU_SEL_WRITE. -/
def Obligations.CountersAndSnapshots : Prop := ∀ s : State,
  (s.pfHeld = false →
    (s.bit F.PMU_CTL.BUSY = false → ∃ t n, exec .snap s = .next t ∧ t.bit F.PMU_CTL.BUSY = true ∧ t.pmus = { s.pmus with snapAt := some n } ∧
      n % 64 = 0 ∧ s.now + 64 ≤ n ∧ n < s.now + 128 ∧ s.keptBut t [.regs, .auditQ, .pmus] ∧ s.onlyRegs t [(.PMU_CTL, 0, 0)]) ∧
    (s.bit F.PMU_CTL.BUSY = true → ∃ t, exec .snap s = .next t ∧ t.bit F.PMU_CTL.SNAP_REJ = true ∧ s.regsOnly t [(.PMU_CTL, 0, 0)]) ∧
    (∀ b, ∃ t n, exec (.freezeWrite b) s = .next t ∧ t.bit F.PMU_CTL.FREEZE = b ∧ t.pmus = { s.pmus with frzAt := some (n, b) } ∧
      n % 64 = 0 ∧ s.now + 64 ≤ n ∧ n < s.now + 128 ∧ t.bit F.PMU_CTL.FROZEN = s.bit F.PMU_CTL.FROZEN ∧
      s.keptBut t [.regs, .auditQ, .pmus] ∧ s.onlyRegs t [(.PMU_CTL, 0, 0)]) ∧
    (∀ (u : Fin 28) (i : Fin 8) (v : W32), ∃ t, exec (.pmuSelWrite u i v) s = .next t ∧ t.reg (cntReg u) (unitIx u) i = 0 ∧
      (t.reg (selReg u) (unitIx u) i).toNat % 256 = v.toNat % 256 ∧ (t.reg (selReg u) (unitIx u) i).toNat / 2 ^ 30 = v.toNat / 2 ^ 30 ∧
      (u.val < 12 → (t.reg (selReg u) (unitIx u) i).toNat / 65536 % 256 = v.toNat / 65536 % 256) ∧
      (12 ≤ u.val → (t.reg (selReg u) (unitIx u) i).toNat / 65536 % 256 = (s.reg (selReg u) (unitIx u) i).toNat / 65536 % 256) ∧
      s.keptBut t [.regs, .auditQ, .pmus] ∧ s.onlyRegs t [(selReg u, unitIx u, i), (cntReg u, unitIx u, i)])) ∧
  (∀ n, s.pmus.snapAt = some n →
    (n ≤ s.now → ∃ t, exec .snapshotTake s = .next t ∧ t.bit F.PMU_CTL.BUSY = false ∧ t.rd F.PMU_SNAPTS.STAMP = n % 2 ^ F.PMU_SNAPTS.STAMP.len ∧
      t.pmus = { s.pmus with snapAt := none, stash := [] } ∧
      (∀ e ∈ shadowed, ∀ i j, i < e.1.desc.iN → j < e.1.desc.jN * e.1.desc.lN → 
        t.reg e.2 i j = tget (e.1.reset i j) s.pmus.stash (regKey e.1 i j) ∧ t.reg e.1 i j = s.reg e.1 i j) ∧
      s.keptBut t [.regs, .pmus]) ∧
    (s.now < n → exec .snapshotTake s = .next s)) ∧
  (∀ n b, s.pmus.frzAt = some (n, b) →
    (n ≤ s.now → (∀ m, s.pmus.snapAt = some m → n < m) → ∃ t, exec .freezeApply s = .next t ∧ t.bit F.PMU_CTL.FROZEN = b ∧
      t.rd F.PMU_FREEZETS.STAMP = n % 2 ^ F.PMU_FREEZETS.STAMP.len ∧ t.pmus = { s.pmus with frzAt := none } ∧ s.keptBut t [.regs, .pmus] ∧
      s.onlyRegs t [(.PMU_CTL, 0, 0), (.PMU_FREEZETS, 0, 0)]) ∧
    (s.now < n → exec .freezeApply s = .next s) ∧
    (∀ m, s.pmus.snapAt = some m → m ≤ n → exec .freezeApply s = .next s))

/-- R96, R72, R93: the command ALLOC. The owner's allocation slot is what `allocSlotOf` says (R577). -/
def Obligations.PlotAllocates : Prop := ∀ (s : State) (i : Fin 4096) (slot : Nat),
  s.bit F.PLOT_CMD.BUSY = false → s.pfHeld = false → s.plotWaits 1 i = false →
  i.val < 0xFFA → (s.plot i).state = .free →
  s.placeBad (s.bit F.PLOT_ARG0.MODE) (if s.bit F.PLOT_ARG0.MODE then 0 else s.rd F.PLOT_ARG0.STACK) (s.rd F.PLOT_ARG0.FRAME)
    (if s.bit F.PLOT_ARG0.MODE then s.rd F.PLOT_ARG0.MEMBER else 0) = false →
  s.placeUsed (s.bit F.PLOT_ARG0.MODE) (if s.bit F.PLOT_ARG0.MODE then 0 else s.rd F.PLOT_ARG0.STACK) (s.rd F.PLOT_ARG0.FRAME)
    (if s.bit F.PLOT_ARG0.MODE then s.rd F.PLOT_ARG0.MEMBER else 0) = false →
  s.hasSession (s.rd F.PLOT_ARG0.OWNER) = true → (s.allocSlotOf (s.rd F.PLOT_ARG0.OWNER)).1 = some slot →
  ∃ t, exec (.alloc i) s = .next t ∧
    t.rd F.PLOT_STATUS.RESULT = 0 ∧ t.rd F.PLOT_STATUS.INDEX = i.val ∧ t.bit F.PLOT_STATUS.DONE = true ∧
    t.bit F.PLOT_CMD.BUSY = false ∧
    (t.plot i).state = .quarantine ∧ (t.plot i).next = true ∧ (t.plot i).owner = s.rd F.PLOT_ARG0.OWNER ∧
    (t.plot i).keyslot = slot ∧ (t.plot i).gen = (s.plot i).gen + 1 ∧ (t.plot i).frame = s.rd F.PLOT_ARG0.FRAME ∧
    (t.plot i).wide = s.bit F.PLOT_ARG0.MODE ∧ (t.plot i).rights.toNat = s.rd F.PLOT_ARG1.RIGHTS ∧
    (∀ j, j ≠ i.val → t.plot j = s.plot j) ∧ t.mem = s.mem ∧ s.onlyRegs t [(.PLOT_STATUS, 0, 0), (.PLOT_CMD, 0, 0)]

/-- R98, R74, R92: the command FREE. -/
def Obligations.PlotFrees : Prop := ∀ (s : State) (i : Fin 4096),
  s.bit F.PLOT_CMD.BUSY = false → s.pfHeld = false → s.plotWaits 2 i = false → i.val < 0xFFA →
  rising s.plots = true →
  (((s.plot i).state = .openPlot ∨ (s.plot i).state = .sealed ∨ (s.plot i).state = .retired) →
    ∃ t, exec (.free i) s = .next t ∧ t.rd F.PLOT_STATUS.RESULT = 0 ∧ t.rd F.PLOT_STATUS.INDEX = i.val ∧
    (t.plot i).state = .quarantine ∧ (t.plot i).next = false ∧
    ∃ q, tget none t.quar i = some q ∧ q.mark = s.nextId ∧ q.wasRetired = ((s.plot i).state == .retired)) ∧
  (((s.plot i).state = .free ∨ (s.plot i).state = .quarantine) →
    ∃ t, exec (.free i) s = .next t ∧ t.rd F.PLOT_STATUS.RESULT = 2 ∧ t.rd F.PLOT_STATUS.INDEX = i.val ∧
    s.regsOnly t [(.PLOT_STATUS, 0, 0), (.PLOT_CMD, 0, 0)])

/-- R97, R93: the commands SETRIGHTS, SETMIRROR and PLOT_CMD_BAD_OP. R72, R73, R74, R75: the commands ALLOC_ZEROING_DONE and PLOT_QUARANTINE_END. -/
def Obligations.PlotEditsAndQuarantine : Prop := (
  ∀ (s : State) (i : Fin 4096),
  s.bit F.PLOT_CMD.BUSY = false → s.pfHeld = false →
  (∀ c op, (c, op) ∈ [(Instr.alloc i, 1), (.free i, 2), (.setrights i, 3), (.setmirror i, 4)] →
    (s.plotWaits op i = true → ∃ t, exec c s = .next t ∧ t.bit F.PLOT_CMD.BUSY = true ∧ t.rd F.PLOT_CMD.OP = op ∧
      t.rd F.PLOT_CMD.INDEX = i.val ∧ s.keptBut t [.regs] ∧ s.onlyRegs t [(.PLOT_CMD, 0, 0)]) ∧
    (s.plotWaits op i = false → 0xFFA ≤ i.val → ∃ t, exec c s = .next t ∧ t.rd F.PLOT_STATUS.RESULT = 3 ∧
      t.rd F.PLOT_STATUS.INDEX = i.val ∧ s.keptBut t [.regs] ∧ s.onlyRegs t [(.PLOT_STATUS, 0, 0), (.PLOT_CMD, 0, 0)])) ∧
  (s.plotChanged i = false → i.val < 0xFFA → ((s.plot i).state = .openPlot ∨ (s.plot i).state = .sealed) →
    (∃ t, exec (.setrights i) s = .next t ∧ t.rd F.PLOT_STATUS.RESULT = 0 ∧
      t.plot i = { s.plot i with rights := BitVec.ofNat 16 (s.rd F.PLOT_ARG1.RIGHTS), stamp := s.clk.now } ∧
      (∀ j, j ≠ i.val → t.plot j = s.plot j) ∧ s.keptBut t [.regs, .plots, .auditQ] ∧
      s.onlyRegs t [(.PLOT_STATUS, 0, 0), (.PLOT_CMD, 0, 0)]) ∧
    (∃ t, exec (.setmirror i) s = .next t ∧ t.rd F.PLOT_STATUS.RESULT = 0 ∧
      t.plot i = { s.plot i with mirror := s.bit F.PLOT_ARG0.MIRROR, stamp := s.clk.now } ∧
      (∀ j, j ≠ i.val → t.plot j = s.plot j) ∧ s.keptBut t [.regs, .plots, .auditQ] ∧
      s.onlyRegs t [(.PLOT_STATUS, 0, 0), (.PLOT_CMD, 0, 0)])) ∧
  (s.plotChanged i = false → i.val < 0xFFA → (s.plot i).state ≠ .openPlot → (s.plot i).state ≠ .sealed →
    (∃ t, exec (.setrights i) s = .next t ∧ t.rd F.PLOT_STATUS.RESULT = 2 ∧ s.regsOnly t [(.PLOT_STATUS, 0, 0), (.PLOT_CMD, 0, 0)]) ∧
    (∃ t, exec (.setmirror i) s = .next t ∧ t.rd F.PLOT_STATUS.RESULT = 2 ∧ s.regsOnly t [(.PLOT_STATUS, 0, 0), (.PLOT_CMD, 0, 0)])) ∧
  (∀ op : Fin 16, 4 < op.val → s.plotChanged i = false → ∃ t, exec (.plotCmdBadOp op i) s = .next t ∧ t.rd F.PLOT_STATUS.RESULT = 1 ∧
    t.rd F.PLOT_STATUS.INDEX = i.val ∧ s.regsOnly t [(.PLOT_STATUS, 0, 0), (.PLOT_CMD, 0, 0)])) ∧ (
  ∀ (s : State) (i : Fin 4096), (s.plot i).state = .quarantine → s.plotChanged i = false →
  ((s.plot i).next = true → ∃ t, exec (.allocZeroingDone i) s = .next t ∧
    (t.plot i).state = (if s.hasSession (s.plot i).owner then .openPlot else .sealed) ∧ (t.plot i).next = false ∧
    (∀ j, j ≠ i.val → t.plot j = s.plot j) ∧ (∀ e ∈ t.mem, e ∈ s.mem ∧ s.inPlot (s.plot i) (fun _ => true) e.1 = false) ∧
    s.keptBut t [.plots, .fills, .mem, .auditQ]) ∧
  (∀ q, tget none s.quar i = some q → (s.plot i).next = false → q.keyDone = true → s.drained i q.mark = true →
    ∃ t, exec (.plotQuarantineEnd i) s = .next t ∧ (t.plot i).state = .free ∧ tget none t.quar i = none ∧
    (∀ j, j ≠ i.val → t.plot j = s.plot j) ∧
    t.deadFrames = (if q.wasRetired then s.deadFrames ++ [(if (s.plot i).wide then 16 + (s.plot i).member else (s.plot i).stack, (s.plot i).frame)]
      else s.deadFrames) ∧
    s.keptBut t [.plots, .quar, .deadFrames, .auditQ]))

/-- R288 to R295: the commands BUCKET_REFILL and TRF_BUCKET_WRITE, at every word of every bucket. -/
def Obligations.Buckets : Prop := (
  ∀ s : State, s.now % 75 = 0 → s.clk.running = true → s.refilled ≠ s.now + 1 →
  ∃ t, exec .bucketRefill s = .next t ∧ t.refilled = s.now + 1 ∧
    (∀ b ∈ allBkts, t.bTokens b = if s.bEn b then min (s.bTokens b + s.bRate b) (256 * s.bBurst0 b) else s.bTokens b) ∧
    s.keptBut t [.regs, .refilled] ∧
    (∀ r i j, r ≠ .TRF_SUB_TOKENS → r ≠ .TRF_SVC_TOKENS → r ≠ .TRF_PORT_TOKENS → t.reg r i j = s.reg r i j)) ∧ (
  ∀ (s : State) (off : Nat) (v : W32) (b : Bkt) (w : Nat), s.pfHeld = false → bktAt off = some (b, w) →
  (w = 0 → ∃ t, exec (.trfBucketWrite off v) s = .next t ∧
    (t.bCtl b).toNat % 2 ^ 24 = v.toNat % 2 ^ 24 ∧ t.bEn b = decide (2 ^ 31 ≤ v.toNat) ∧
    (t.bCtl b).toNat >>> 30 % 2 = v.toNat >>> 30 % 2 ∧
    s.refillDue.keptBut t [.regs, .flights, .groupsDue, .auditQ, .capUsed, .throttles, .credits] ∧
    ((s.bEn b = true ∨ v.toNat < 2 ^ 31 ∨ ((s.owesNow b).map fun f => hLen f.hdr).sum ≤ s.bBurst0 b) →
      (∀ c ∈ allBkts, t.bTokens c = if c = b ∧ s.bEn b = false ∧ 2 ^ 31 ≤ v.toNat
        then 256 * s.bBurst0 b - 256 * ((s.owesNow b).map fun f => hLen f.hdr).sum else s.refillDue.bTokens c) ∧
      s.refillDue.keptBut t [.regs, .flights, .groupsDue, .auditQ] ∧
      (∀ r i j, r ∉ [RegName.TRF_SUB_CTL, .TRF_SVC_CTL, .TRF_PORT_CTL, .TRF_SUB_TOKENS, .TRF_SVC_TOKENS, .TRF_PORT_TOKENS] →
        t.reg r i j = s.reg r i j))) ∧
  (w ≠ 0 → 4 ≤ v.toNat % 2 ^ 16 → ∃ t, exec (.trfBucketWrite off v) s = .next t ∧
    t.bBurst b = v.toNat % 2 ^ 16 ∧ (∀ c ∈ allBkts, c ≠ b → t.bBurst c = s.bBurst c) ∧
    (∀ c ∈ allBkts, t.bTokens c = s.refillDue.bTokens c) ∧ s.refillDue.keptBut t [.regs, .burstCuts, .auditQ] ∧
    (s.burstCuts = [] → ∀ c ∈ allBkts, t.cutBursts.bTokens c =
      if c = b then min (s.refillDue.bTokens c) (256 * (v.toNat % 2 ^ 16)) else s.refillDue.bTokens c)) ∧
  (w ≠ 0 → v.toNat % 2 ^ 16 < 4 → exec (.trfBucketWrite off v) s = .next s))

/-- R297, R298, R299, R312: the commands GATE_SLOT_BOUNDARY, GUARD_BAND_START and GATE_START. R307, R309 to R313: the commands GATE_COMMIT, GATE_COMMIT_APPLY, GATE_ENABLE and GATE_DISABLE. -/
def Obligations.Gate : Prop := (
  ∀ s : State,
  (s.gateEn = true → s.inCycle s.now = s.slotStart (s.slotAt s.now) → s.slotAt s.now < 64 →
    ∃ t, exec .gateSlotBoundary s = .next t ∧ t.rd F.TRF_GATE_STATUS.SLOT = s.slotAt s.now ∧ t.bit F.TRF_GATE_STATUS.IN_GUARD = false ∧
    (∀ x, x < 256 → t.groupOf x = s.rd0 F.TRF_SUB_CTL.GROUP x) ∧
    s.keptBut t [.regs, .groups, .latokDue] ∧ s.onlyRegs t [(.TRF_GATE_STATUS, 0, 0)]) ∧
  (s.gateEn = true → s.inCycle s.now + s.rd F.TRF_GATE_GUARD.ACTIVE = s.slotStart (s.slotAt s.now + 1) →
    ∃ t, exec .guardBandStart s = .next t ∧ t.bit F.TRF_GATE_STATUS.IN_GUARD = true ∧
    s.keptBut t [.regs] ∧ s.onlyRegs t [(.TRF_GATE_STATUS, 0, 0)]) ∧
  (s.bit F.TRF_GATE_CTL.EN = true → s.gateOn = false → s.now = s.origin →
    ∃ t, exec .gateStart s = .next t ∧ t.gateOn = true ∧ t.rd F.TRF_GATE_STATUS.SLOT = 0 ∧
    (∀ x, x < 256 → t.groupOf x = s.rd0 F.TRF_SUB_CTL.GROUP x) ∧
    s.keptBut t [.regs, .groups, .gateOn, .latokDue] ∧ s.onlyRegs t [(.TRF_GATE_STATUS, 0, 0)])) ∧ (
  ∀ s : State,
  (s.pfHeld = false →
    (s.commitBad = true → ∃ t, exec .gateCommit s = .next t ∧ t.bit F.TRF_GATE_CTL.REJ = true ∧ s.regsOnly t [(.TRF_GATE_CTL, 0, 0)]) ∧
    (s.commitBad = false → s.bit F.TRF_GATE_CTL.EN = true → ∃ t, exec .gateCommit s = .next t ∧
      t.bit F.TRF_GATE_CTL.PENDING = true ∧ t.calWait = some s.shadow ∧ s.keptBut t [.regs, .calWait, .auditQ] ∧
      s.onlyRegs t [(.TRF_GATE_CTL, 0, 0)]) ∧
    (s.commitBad = false → s.bit F.TRF_GATE_CTL.EN = false → ∃ t, exec .gateCommit s = .next t ∧
      (∀ i, i < 64 → t.reg .TRF_GATE_ACT i = s.reg .TRF_GATE_SLOT i) ∧
      t.rd F.TRF_GATE_STATUS.NSLOT = s.rd F.TRF_GATE_CTL.NSLOT ∧ t.rd F.TRF_GATE_GUARD.ACTIVE = s.rd F.TRF_GATE_GUARD.SHADOW ∧
      s.keptBut t [.regs, .calWait, .latokDue, .auditQ])) ∧
  (∀ c, s.calWait = some c → s.gateEn = true → s.inCycle s.now = 0 → s.windowConflict c s.now = false →
    ∃ t, exec .gateCommitApply s = .next t ∧ (∀ i, i < 64 → t.reg .TRF_GATE_ACT i = c.slots.getD i 0) ∧
      t.rd F.TRF_GATE_STATUS.NSLOT = c.n % 128 ∧ t.bit F.TRF_GATE_CTL.PENDING = false ∧ t.calWait = none ∧ t.origin = s.now ∧
      s.keptBut t [.regs, .calWait, .latokDue]) ∧
  (s.pfHeld = false → s.bit F.TRF_GATE_CTL.EN = false →
    (s.actN ≠ 0 → ∃ t, exec .gateEnable s = .next t ∧ t.bit F.TRF_GATE_CTL.EN = true ∧
      t.origin = (s.now + 2399) / 1200 * 1200 % 2 ^ 64 ∧ s.regsOnly t [(.TRF_GATE_CTL, 0, 0), (.TRF_GATE_ORIGIN, 0, 0)]) ∧
    (s.actN = 0 → ∃ t, exec .gateEnable s = .next t ∧ t.bit F.TRF_GATE_CTL.REJ = true ∧ s.regsOnly t [(.TRF_GATE_CTL, 0, 0)])) ∧
  (s.pfHeld = false → s.bit F.TRF_GATE_CTL.EN = true → ∃ t, exec .gateDisable s = .next t ∧
    t.bit F.TRF_GATE_CTL.EN = false ∧ t.gateBegins.gateOn = false ∧ t.gateBegins.bit F.TRF_GATE_STATUS.IN_GUARD = false ∧
    s.keptBut t [.regs, .gateOff, .auditQ] ∧ s.onlyRegs t [(.TRF_GATE_CTL, 0, 0)]))

/-- R316, R319: the commands HIST_SAMPLE and HIST_CLEAR. -/
def Obligations.Histograms : Prop := ∀ s : State,
  (s.now % 1024 = 0 → s.sampled ≠ s.now + 1 → s.bit F.TRF_HIST_CTL.EN = true → s.clk.running = true → s.frozenNow = false →
    ∃ t, exec .histSample s = .next t ∧
      (∀ k r b, k < 12 → r < 40 → b < 16 → t.rd F.TRF_DEP.COUNT k (r * 16 + b) =
        (if depthBin (s.ungranted k r).length = b then min (2 ^ F.TRF_DEP.COUNT.len - 1) (s.rd F.TRF_DEP.COUNT k (r * 16 + b) + 1)
          else s.rd F.TRF_DEP.COUNT k (r * 16 + b))) ∧
      s.keptBut t [.regs, .sampled] ∧ t.sampled = s.now + 1 ∧ (∀ q i j, q ≠ .TRF_DEP → q ≠ .TRF_DLY → t.reg q i j = s.reg q i j)) ∧
  (s.pfHeld = false → rising s.events = true → ∃ t, exec .histClear s = .next t ∧
    t.histClear = true ∧ s.keptBut t [.histClear, .auditQ] ∧
    (∀ k n, t.clearBins.rd F.TRF_DEP.COUNT k n = s.eventsOf F.TRF_DEP.COUNT k n ∧
      t.clearBins.rd F.TRF_DLY.COUNT k n = s.eventsOf F.TRF_DLY.COUNT k n) ∧
    (∀ q i j, q ≠ .TRF_DEP → q ≠ .TRF_DLY → t.clearBins.reg q i j = s.reg q i j))

/-- R204, R206 to R208, R227, R235: the commands REFRESH_DUE, REFAB_ISSUE and REFRESH_STALL_END. -/
def Obligations.RefreshSequence : Prop := ∀ (s : State) (k : Cluster) (p : PcIx),
  (s.isDue k p s.now = true → ∃ t, exec (.refreshDue k p) s = .next t ∧
    (∀ x ∈ t.throttles, x.k = k.val → x.pc = p.val → x.tokens = s.rd F.RG_CFG.BUDGET k) ∧ s.keptBut t [.pcs, .throttles] ∧
    (s.honours k p = true → (s.pc k p).ref = .idle → t.pc k p = { s.pc k p with ref := .closing s.now } ∧
      (∀ j q, q < 64 → (j, q) ≠ (k.val, p.val) → t.pc j q = s.pc j q)) ∧
    (s.honours k p = false → t.pcs = s.pcs)) ∧
  (∀ due, (s.pc k p).ref = .closing due → s.dramOk = true → (∀ b ∈ (s.pc k p).banks, b.2.busy ≤ s.phy k s.now) →
    ∃ t, exec (.refabIssue k p) s = .next t ∧
    t.pc k p = { s.pc k p with ref := .stall (s.now + s.rd F.REF_PERIOD.TRFC_TS k) } ∧
    (∀ j q, q < 64 → (j, q) ≠ (k.val, p.val) → t.pc j q = s.pc j q) ∧
    (s.frozenNow = false → (t.reg .PMU_PC k (p * 32 + 9)).toNat = ((s.reg .PMU_PC k (p * 32 + 9)).toNat + 1) % 2 ^ 48) ∧
    s.keptBut t [.pcs, .regs] ∧ s.onlyRegs t [(.PMU_PC, k, p * 32 + 9)]) ∧
  (∀ n, (s.pc k p).ref = .stall n → n ≤ s.now → ∃ t, exec (.refreshStallEnd k p) s = .next t ∧
    t.pc k p = { s.pc k p with ref := .idle } ∧ (∀ j q, q < 64 → (j, q) ≠ (k.val, p.val) → t.pc j q = s.pc j q) ∧
    s.keptBut t [.pcs, .regs] ∧ s.onlyRegs t [(.PMU_PC, k, p * 32 + 10)])

/-- R205, R213, R240: the commands REF_PERIOD_SWITCH and REF_CTRL_WRITE. -/
def Obligations.RefreshPeriod : Prop := ∀ (s : State) (k : Cluster),
  (s.rd F.REF_NEXTSW.STAMP k ≠ 0 → s.now = s.rd F.REF_NEXTSW.STAMP k → ∃ t, exec (.refPeriodSwitch k) s = .next t ∧
    t.rd F.REF_ORIGIN.STAMP k = s.now ∧ t.bit F.REF_CTRL.HOT k = s.hotNext.contains k.val ∧
    t.rd F.REF_PERIOD.TREFI_TS k = (if t.bit F.REF_CTRL.HOT k then 2340 else 4680) ∧ t.rd F.REF_NEXTSW.STAMP k = 0 ∧
    t.hotNext = s.hotNext.filter (· ≠ k.val) ∧
    s.keptBut t [.regs, .hotNext] ∧ s.onlyRegs t [(.REF_ORIGIN, k, 0), (.REF_PERIOD, k, 0), (.REF_CTRL, k, 0), (.REF_NEXTSW, k, 0)]) ∧
  (∀ v : W32, s.pfHeld = false → ∃ t, exec (.refCtrlWrite k v) s = .next t ∧
    t.bit F.REF_CTRL.FORCE_HOT k = v.getLsbD 30 ∧
    t.rd F.REF_CTRL.HOT_EXIT_C k = (if v.toNat % 256 ≤ 85 then v.toNat % 256 else s.rd F.REF_CTRL.HOT_EXIT_C k) ∧
    t.bit F.REF_CTRL.HOT k = s.bit F.REF_CTRL.HOT k ∧
    t.bit F.REF_CTRL.REJ k = (s.bit F.REF_CTRL.REJ k && !(v.getLsbD 29 && s.eventsOf F.REF_CTRL.REJ k == 0)) ∧
    s.keptBut t [.regs, .hotNext, .auditQ] ∧ s.onlyRegs t [(.REF_CTRL, k, 0), (.REF_NEXTSW, k, 0)])

/-- R221, R224, R228, R229, R241 to R243: the commands TRACKER_WINDOW_END, RFM_ISSUE and RG_CFG_WRITE. -/
def Obligations.RowGuard : Prop := ∀ s : State,
  (s.now % 38400000 = 0 → s.clk.running = true →
    (s.now / 38400000 ≠ s.trkWindow → ∃ t, exec .trackerWindowEnd s = .next t ∧ t.throttles = [] ∧ t.thrOff = [] ∧
      t.trkWindow = s.now / 38400000 ∧ (∀ e ∈ t.pcs, ∀ b ∈ e.2.banks, b.2.trk = [] ∧ b.2.overflow = false) ∧
      (∀ k p, (t.pc k p) = { s.pc k p with
        banks := (s.pc k p).banks.map fun (b : Nat × Bank) => (b.1, { b.2 with trk := [], overflow := false }) }) ∧
      s.keptBut t [.pcs, .throttles, .thrOff, .trkWindow]) ∧
    (s.now / 38400000 = s.trkWindow → exec .trackerWindowEnd s = .next s)) ∧
  (∀ (k : Cluster) (p : PcIx) (sid : Fin 4) (b : Fin 16), 0 < ((s.pc k p).bank sid b).owed → s.mayAct k p = true →
    ((s.pc k p).bank sid b).busy ≤ s.phy k s.now → (∀ l, ((s.pc k p).bank sid b).lastAct = some l → l + s.trc k ≤ s.phy k s.now) →
    (((s.pc k p).bank sid b).owed = 15 ∨ s.class1Waits (s.pc k p) sid b = false) →
    s.phyTicks k (s.rd F.REF_TIM.TRFMPB k) < s.toDue k p s.now →
    ∃ t, exec (.rfmIssue k p sid b) s = .next t ∧
      t.pc k p = (s.pc k p).setBank sid b { (s.pc k p).bank sid b with
        owed := ((s.pc k p).bank sid b).owed - 1, busy := s.phy k s.now + s.rd F.REF_TIM.TRFMPB k } ∧
      (∀ j q, q < 64 → (j, q) ≠ (k.val, p.val) → t.pc j q = s.pc j q) ∧
      t.rd F.RG_STAT.RFMS k = min (2 ^ F.RG_STAT.RFMS.len - 1) (s.rd F.RG_STAT.RFMS k + 1) ∧
      s.keptBut t [.pcs, .regs] ∧ s.onlyRegs t [(.RG_STAT, k, 0), (.PMU_PC, k, p * 32 + 11)]) ∧
  (∀ (k : Cluster) (v : W32), s.pfHeld = false → ∃ t, exec (.rgCfgWrite k v) s = .next t ∧
    t.bit F.RG_CFG.THR_EN k = v.getLsbD 31 ∧
    t.rd F.RG_CFG.NR_K k = (if 4 ≤ v.toNat / 2 ^ 24 % 32 ∧ v.toNat / 2 ^ 24 % 32 ≤ 16 then v.toNat / 2 ^ 24 % 32 else s.rd F.RG_CFG.NR_K k) ∧
    t.rd F.RG_CFG.BUDGET k = (if v.toNat / 2 ^ 20 % 16 = 0 then s.rd F.RG_CFG.BUDGET k else v.toNat / 2 ^ 20 % 16) ∧
    t.rd F.RG_CFG.ACT_LIMIT k = (if 256 ≤ v.toNat % 65536 ∧ v.toNat % 65536 ≤ 32768 then v.toNat % 65536 else s.rd F.RG_CFG.ACT_LIMIT k) ∧
    t.throttles = (if s.bit F.RG_CFG.THR_EN k = true ∧ v.getLsbD 31 = false then s.throttles.filter (·.k ≠ k.val) else s.throttles) ∧
    s.keptBut t [.regs, .throttles, .thrOff, .auditQ] ∧ s.onlyRegs t [(.RG_CFG, k, 0)])

/-- R214 to R216, R218, R264: the commands WINDOW_PUBLISH, WINDOW_START and WINDOW_END. -/
def Obligations.MaintenanceWindows : Prop := ∀ (s : State) (k : Cluster),
  (∀ (kind : Fin 3) (p : PcIx) (len start : Nat), s.cccUp k = true → s.bit F.REF_MAINT.VALID k = false →
    s.windowFits start (usTicks len) = true → start < 2 ^ 64 →
    ((kind = 0 ∧ s.triggers.contains k.val = true ∧ len = 40) ∨
      (kind = 1 ∧ (∃ x ∈ s.tests, x.1 = k.val ∧ x.2.pc = p.val) ∧ 1 ≤ len ∧ len ≤ 40) ∨
      (kind = 2 ∧ (∃ u ∈ s.hist.units, u.cls = 0 ∧ u.cluster = k.val ∧ u.permanent = true ∧ u.hardRepair = false ∧ u.pc = p.val) ∧
        1 ≤ len ∧ len ≤ 40)) →
    ∃ t, exec (.windowPublish k kind p len start) s = .next t ∧ t.bit F.REF_MAINT.VALID k = true ∧ t.rd F.REF_MAINT.KIND k = kind.val ∧
      t.rd F.REF_MAINT.PC k = (if kind = 0 then 0 else p.val) ∧ t.rd F.REF_MAINT.LEN_US k = len ∧
      t.rd F.REF_MAINT_START.STAMP k = start ∧ (kind = 0 → t.triggers.contains k.val = false) ∧
      s.keptBut t [.regs, .windows, .triggers] ∧ s.onlyRegs t [(.REF_MAINT, k, 0), (.REF_MAINT_START, k, 0)]) ∧
  (∀ w fails bad, tget none s.windows k = some w → w.running = false → s.bit F.REF_MAINT.VALID k = true →
    s.now = s.rd F.REF_MAINT_START.STAMP k → ∃ t, exec (.windowStart k fails bad) s = .next t ∧
      (∃ x, tget none t.windows k = some x ∧ x.running = true) ∧
      (∀ p, p < 64 → (s.rd F.REF_MAINT.KIND k = 0 ∨ p = s.rd F.REF_MAINT.PC k) →
        (t.pc k p).st = (if (s.pc k p).st = .serving ∨ (s.pc k p).st = .spare ∨ (s.pc k p).st = .selfRefresh then .training
          else (s.pc k p).st)) ∧
      (∀ j p, p < 64 → (j ≠ k.val ∨ (s.rd F.REF_MAINT.KIND k ≠ 0 ∧ p ≠ s.rd F.REF_MAINT.PC k)) → t.pc j p = s.pc j p) ∧
      s.keptBut t [.windows, .pcs]) ∧
  (∀ w, tget none s.windows k = some w → w.running = true → s.rd F.REF_MAINT_START.STAMP k + s.windowLen k ≤ s.now →
    ∃ t, exec (.windowEnd k) s = .next t ∧ tget none t.windows k = none ∧ t.bit F.REF_MAINT.VALID k = false ∧
      (∀ p, p < 64 → (s.rd F.REF_MAINT.KIND k = 0 ∨ p = s.rd F.REF_MAINT.PC k) → (t.pc k p).st ≠ .training) ∧
      (s.rd F.REF_MAINT.KIND k = 0 → s.keptBut t [.regs, .windows, .rtrFrom, .pcs] ∧
        s.onlyRegs t [(.REF_MAINT, k, 0), (.REF_MAINT_START, k, 0)]))

/-- R209, R230 to R235, R244, R245, R687: the commands SR_ASK, SR_ENTRY_BEGIN, SR_ENTRY_COMPLETE, SR_EXIT_START, SR_EXIT_COMPLETE and
SR_CFG_WRITE. -/
def Obligations.SelfRefresh : Prop := (
  ∀ (s : State) (k : Cluster) (p : PcIx),
  (((s.pcIdle k p = true ∧ s.windowSoon k p = false ∧ (s.fw.quiet = true ∨
      (s.bit F.SR_CFG.SR_EN k = true ∧ s.idleFrom k p + 1200 * s.rd0 F.SR_CFG.SR_IDLE_US k ≤ s.now))) ∨ s.retiredIdle k p = true) →
    (s.pc k p).sr = .awake → (s.pc k p).ref = .idle → 300 < s.toDue k p s.now →
    ∃ t, exec (.srAsk k p) s = .next t ∧ t.pc k p = { s.pc k p with sr := .asking } ∧
      (∀ j q, q < 64 → (j, q) ≠ (k.val, p.val) → t.pc j q = s.pc j q) ∧ s.keptBut t [.pcs]) ∧
  ((s.pc k p).sr = .asking → ((s.pcIdle k p = true ∧ (s.fw.quiet = true ∨ s.bit F.SR_CFG.SR_EN k = true)) ∨ s.retiredIdle k p = true) →
    (s.pc k p).ref = .idle → s.honours k p = false → s.anyPresented k p = false →
    ∃ t, exec (.srEntryBegin k p) s = .next t ∧
      (t.pc k p).st = (if (s.pc k p).st = .retired then .retired else .selfRefresh) ∧
      (t.pc k p).sr = .entering (s.now + s.phyTicks k 299) false ∧ (t.pc k p).wasSpare = ((s.pc k p).st == .spare) ∧
      t.rd F.SR_STAT.ENTRIES k = min (2 ^ F.SR_STAT.ENTRIES.len - 1) (s.rd F.SR_STAT.ENTRIES k + 1) ∧
      (∀ j q, q < 64 → (j, q) ≠ (k.val, p.val) → t.pc j q = s.pc j q) ∧
      s.keptBut t [.pcs, .regs] ∧ s.onlyRegs t [(.SR_STAT, k, 0), (.PMU_PC, k, p * 32 + 22)]) ∧
  (∀ n leave, (s.pc k p).sr = .entering n leave → n ≤ s.now → ∃ t, exec (.srEntryComplete k p) s = .next t ∧
    t.pc k p = { s.pc k p with
      sr := if s.wakeable k = true ∧ (leave = true ∨ s.srLeaves k p = true) then .exiting (s.now + s.exitTicks k) else .asleep } ∧
    (∀ j q, q < 64 → (j, q) ≠ (k.val, p.val) → t.pc j q = s.pc j q) ∧ s.keptBut t [.pcs])) ∧ (
  ∀ (s : State) (k : Cluster),
  (∀ p : PcIx, (s.pc k p).sr = .asleep → s.wakeable k = true → ((s.pc k p).st = .training ∨ s.srLeaves k p = true) →
    ∃ t, exec (.srExitStart k p) s = .next t ∧
      t.pc k p = { s.pc k p with sr := .exiting (s.now + s.exitTicks k) } ∧
      (∀ j q, q < 64 → (j, q) ≠ (k.val, p.val) → t.pc j q = s.pc j q) ∧ s.keptBut t [.pcs]) ∧
  (∀ (p : PcIx) n, (s.pc k p).sr = .exiting n → n ≤ s.now → s.wakeable k = true →
    ∃ t, exec (.srExitComplete k p) s = .next t ∧
      t.pc k p = { s.pc k p with
        st := if (s.pc k p).st = .selfRefresh then (if s.windowOn k p then .training else if (s.pc k p).wasSpare then .spare else .serving)
          else (s.pc k p).st
        sr := .awake, skipUntil := s.now + 1200, idleSince := s.now } ∧
      (∀ j q, q < 64 → (j, q) ≠ (k.val, p.val) → t.pc j q = s.pc j q) ∧
      s.keptBut t [.pcs, .regs] ∧ s.onlyRegs t [(.PMU_PC, k, p * 32 + 21)]) ∧
  (∀ v : W32, s.pfHeld = false → ∃ t, exec (.srCfgWrite k v) s = .next t ∧
    t.bit F.SR_CFG.SR_EN k = v.getLsbD 31 ∧
    t.rd F.SR_CFG.SR_IDLE_US k = (if 10 ≤ v.toNat % 2 ^ 14 ∧ v.toNat % 2 ^ 14 ≤ 10000 then v.toNat % 2 ^ 14 else s.rd F.SR_CFG.SR_IDLE_US k) ∧
    (v.getLsbD 31 = true → t.pcs = s.pcs) ∧
    (v.getLsbD 31 = false → ∀ j p, p < 64 → t.pc j p = if j = k.val ∧ (s.pc j p).st ≠ .retired
      then { s.pc j p with sr := (s.pc j p).sr.leaving (s.wakeable k) (s.now + s.exitTicks k) } else s.pc j p) ∧
    s.keptBut t [.regs, .pcs, .auditQ] ∧ s.onlyRegs t [(.SR_CFG, k, 0)]))

/-- R163, R168: the command CROSSBAR_GRANT. -/
def Obligations.CrossbarGrants : Prop := ∀ (s : State) (k : Cluster) (x : Fin 66), s.clk.running = true →
  ((s.slice k x).last = some s.now → exec (.crossbarGrant k x) s = .next s) ∧
  ((s.slice k x).last ≠ some s.now → ∃ t, exec (.crossbarGrant k x) s = .next t ∧
    (t.slice k x).last = some s.now ∧ t.mem = s.mem ∧ t.plots = s.plots ∧ t.holds = s.holds ∧
    (∀ j q, q < 64 → (t.pc j q).st = (s.pc j q).st) ∧
    (∀ f, s.candidates k x = [f] → s.gateEn = false → s.holdOn k x = none →
      (t.slice k x).owner = some f.req ∧
      ∃ g, t.flight f.id = some g ∧ g.counted = true ∧ g.stage ≠ .queued ∧ ∀ r, g.stage ≠ .released r))

/-- R183, R184, R186, R188, R191, R579: the command ACCESS_ISSUE. -/
def Obligations.AccessIssues : Prop := ∀ (s : State) (k : Cluster) (p : PcIx) (bad : List Nat) (q : Pc) (d : Bool),
  q = (s.live k p).stage (s.phy k s.now) → d = s.drainMode k p q →
  ((s.mayAct k p = false ∨ s.select k { q with drain := d } d (s.phy k s.now) = none) → ∃ t, exec (.accessIssue k p bad) s = .next t ∧
    t.pc k p = { q with drain := d } ∧ s.keptBut t [.pcs, .regs] ∧ s.onlyRegs t [(.PMU_PC, k, p * 32 + 18)]) ∧
  (∀ a, s.mayAct k p = true → s.select k { q with drain := d } d (s.phy k s.now) = some a → ∃ t, exec (.accessIssue k p bad) s = .next t ∧
    ((t.pc k p).bank a.loc.sid a.loc.bank).lastAct = some (s.phy k s.now) ∧ (t.pc k p).drain = d ∧ (t.pc k p).st = (s.pc k p).st ∧
    t.plots = s.plots ∧ t.flights = s.flights ∧
    (a.write = false → t.mem = s.mem ∧ (a.again = false → ∀ r ∈ q.rq, a.ids.contains r.fl = true → r.issued = false → q.blocked r = false →
      ∃ x ∈ (t.pc k p).rq, x.fl = r.fl ∧ x.ln = r.ln ∧ x.issued = true ∧ x.got = s.fetched r)) ∧
    (a.write = true → (∀ w ∈ (t.pc k p).wq, a.ids.contains w.id = true →
        w.out = some ((s.colTicks k (s.phy k s.now) a.cols.length).getD (2 * a.ids.findIdx (· == w.id)) (s.phy k s.now),
          (s.colTicks k (s.phy k s.now) a.cols.length).getD (2 * a.ids.findIdx (· == w.id) + 1) (s.phy k s.now))) ∧
      ∀ w, (q.wq.filter fun x => a.ids.contains x.id) = [w] → w.poison = false → bad.contains w.loc.col = false →
        t.mem = (s.putLine w.loc w.plot w.pa (s.encLine w.slot w.epoch w.fmt w.data)).mem))

/-- R176, R187, R193, R220, R611: the command READ_DATA_RETURN. -/
def Obligations.ReadReturns : Prop := ∀ (s : State) (k : Cluster) (p : PcIx) (errs : List ReadErr) (e : REnt) (f : Flight) (y : Option LineSt × State),
  (s.pc k p).st ≠ .frozen →
  ((s.live k p).rq.filter fun e => e.issued && e.handed.isNone && decide (e.dataAt ≤ s.now)) = [e] →
  s.flight e.fl = some f → e.fwd = none → e.rmw = false →
  y = s.readLine f e.loc (hLine f.hdr + 64 * e.ln) (e.got.getD (s.lineAt e.loc f.plot (hLine f.hdr + 64 * e.ln)))
    (if f.req = 39 then 1 else 0) e.tries (errs.getD 0 ReadErr.clean) →
  ∃ t, exec (.readDataReturn k p errs) s = .next t ∧ t.mem = s.mem ∧ t.plots = s.plots ∧
    (∀ v, y.1 = some v → (∀ r ∈ (t.pc k p).rq, r.fl = e.fl → r.ln = e.ln → 
        r.handed = some (s.now + s.afterDecode k ((y.2.pc k p).aesFree - s.phy k e.dataAt))) ∧
      ∃ g, t.flight e.fl = some g ∧ g.lines = f.lines.set e.ln v) ∧
    (y.1 = none → t.flights = s.flights ∧ ∃ r ∈ (t.pc k p).rq, r.fl = e.fl ∧ r.ln = e.ln ∧ r.tries = e.tries + 1 ∧
      (e.secondAt = none → r.retry = true ∧ r.issued = false))

/-- R169, R172 to R175, R196: the commands ARB_HOLD_SET, ARB_HOLD_RELEASE, ARB_HOLD_LEASE_EXPIRY and ARB_HOLD_BREAK. -/
def Obligations.ArbHolds : Prop := ∀ (s : State) (h : Fin 8) (a : Agent), holdWaits a s = false → (∀ f, a = .fn f → s.auditFull = false) →
  (∀ v : W32, v.getLsbD 27 = true → v.getLsbD 26 = false → tget none s.holds h = none →
    holdWriter a (bitsOf v 19 16) (bitsOf v 13 8) = true →
    (s.holdOn (bitsOf v 19 16) (bitsOf v 25 20) = none → bitsOf v 19 16 < 12 →
      ((bitsOf v 13 8 ≤ 26 ∧ s.bit F.PORT_LINK.UP (bitsOf v 13 8) = true) ∨ bitsOf v 13 8 = 39) →
      ∃ t, exec (.arbHoldSet a h v) s = .next t ∧ t.rd F.ARB_HOLD_CTL.RESULT h = (if s.bit F.ARB_HOLD_CTL.BROKEN h then 1 else 0) ∧
        t.bit F.ARB_HOLD_CTL.ACTIVE h = true ∧ t.bit F.ARB_HOLD_CTL.BROKEN h = false ∧
        tget none t.holds h = some ⟨bitsOf v 19 16, bitsOf v 25 20, bitsOf v 13 8,
          if bitsOf v 13 8 = 39 then 0 else s.rd F.PORT_LINK.EPOCH (bitsOf v 13 8),
          s.now + usTicks (s.rd F.ARB_HOLD_LEASE.LEASE_US h), false⟩ ∧
        s.keptBut t [.regs, .holds, .auditQ] ∧ s.onlyRegs t [(.ARB_HOLD_CTL, h, 0), (.ARB_HOLD_OWNER, h, 0)]) ∧
    ((s.holdOn (bitsOf v 19 16) (bitsOf v 25 20)).isSome = true →
      ∃ t, exec (.arbHoldSet a h v) s = .next t ∧ t.rd F.ARB_HOLD_CTL.RESULT h = 2 ∧
        s.regsOnly t [(.ARB_HOLD_CTL, h, 0)])) ∧
  (∀ x, tget none s.holds h = some x →
    (holdWriter a x.k x.req = true → x.breaking = false → ∃ t, exec (.arbHoldRelease a h) s = .next t ∧
      t.bit F.ARB_HOLD_CTL.ACTIVE h = false ∧ tget none t.holds h = none ∧
      (∀ j q, { t.pc j q with idleSince := 0 } = { s.pc j q with idleSince := 0 }) ∧
      s.keptBut t [.regs, .holds, .pcs, .auditQ] ∧ s.onlyRegs t [(.ARB_HOLD_CTL, h, 0)]) ∧
    (x.until_ ≤ s.now → ∃ t, exec (.arbHoldLeaseExpiry h) s = .next t ∧
      tget none t.holds h = some { x with breaking := true } ∧ s.keptBut t [.holds]) ∧
    (x.breaking = true → ∃ t, exec (.arbHoldBreak h) s = .next t ∧ t.bit F.ARB_HOLD_CTL.ACTIVE h = false ∧
      t.bit F.ARB_HOLD_CTL.BROKEN h = true ∧ tget none t.holds h = none ∧
      (∀ j q, { t.pc j q with idleSince := 0 } = { s.pc j q with idleSince := 0 }) ∧
      s.keptBut t [.regs, .holds, .pcs] ∧ s.onlyRegs t [(.ARB_HOLD_CTL, h, 0)]))

/-- R165, R166, R196, R200, R238, R239: the commands ARB_PRIO_WRITE and TIMING_REGISTER_WRITE. -/
def Obligations.ArbiterAndTiming : Prop := ∀ (s : State) (v : W32),
  (∀ r : Fin 40, s.pfHeld = false → ∃ t, exec (.arbPrioWrite r v) s = .next t ∧
    t.rd F.ARB_REQ.PRIO r = v.toNat / 256 % 2 ^ F.ARB_REQ.PRIO.len ∧
    t.rd F.ARB_REQ.BURST r = (if 1 ≤ v.toNat % 128 ∧ v.toNat % 128 ≤ 64 then v.toNat % 128 else s.rd F.ARB_REQ.BURST r) ∧
    s.keptBut t [.regs, .latokDue, .auditQ] ∧ s.onlyRegs t [(.ARB_REQ, r, 0)]) ∧
  (∀ k : Cluster,
    (s.anyPc k PcState.live = true → s.siteStarting k = false →
      (∀ x, x ≠ TimReg.refTim → ∃ t, exec (.timingRegisterWrite k x v) s = .next t ∧ t.bit F.CLU_TIM2.REJ k = true ∧
        s.rd F.CLU_TIM2.TWR k = t.rd F.CLU_TIM2.TWR k ∧ s.regsOnly t [(.CLU_TIM2, k, 0)]) ∧
      ∃ t, exec (.timingRegisterWrite k .refTim v) s = .next t ∧ t.bit F.REF_CTRL.REJ k = true ∧
        s.bit F.REF_CTRL.HOT k = t.bit F.REF_CTRL.HOT k ∧ s.regsOnly t [(.REF_CTRL, k, 0)]) ∧
    ((s.anyPc k PcState.live = false ∨ s.siteStarting k = true) →
      (∃ t, exec (.timingRegisterWrite k .tim0 v) s = .next t ∧ (t.reg .CLU_TIM0 k).toNat = v.toNat ∧ s.regsOnly t [(.CLU_TIM0, k, 0)]) ∧
      (∃ t, exec (.timingRegisterWrite k .tim1 v) s = .next t ∧ (t.reg .CLU_TIM1 k).toNat = v.toNat ∧ s.regsOnly t [(.CLU_TIM1, k, 0)]) ∧
      (∃ t, exec (.timingRegisterWrite k .tim2 v) s = .next t ∧ (t.reg .CLU_TIM2 k).toNat / 16 = v.toNat / 16 ∧
        t.bit F.CLU_TIM2.REJ k = (s.bit F.CLU_TIM2.REJ k && !(v.getLsbD 0 && s.eventsOf F.CLU_TIM2.REJ k == 0)) ∧
        s.regsOnly t [(.CLU_TIM2, k, 0)]) ∧
      (∃ t, exec (.timingRegisterWrite k .refTim v) s = .next t ∧
        t.rd F.REF_TIM.TRFMPB k = v.toNat / 2 ^ 16 % 2 ^ 11 ∧
        t.rd F.REF_TIM.TRFCAB k = (if v.toNat % 2 ^ 11 * 40 ≤ 1300 * s.rd F.CLOCK_PHYPLL.MULT k then v.toNat % 2 ^ 11
          else s.rd F.REF_TIM.TRFCAB k) ∧
        t.rd F.REF_PERIOD.TRFC_TS k = s.phyTicks k (t.rd F.REF_TIM.TRFCAB k) % 2 ^ F.REF_PERIOD.TRFC_TS.len ∧
        s.regsOnly t [(.REF_TIM, k, 0), (.REF_PERIOD, k, 0)])))

/-- R76, R120, R147, R148, R152, R807, R811: the commands RD, WR, WRP, AADD, ACAS, CONTRIB, LKACQ, LKREL, STAMP and
UNKNOWN_OPCODE_REQUEST. -/
def Obligations.FabricRequestsRefused : Prop := ∀ (s : State) (k : Cluster) (p : Fin 25) (f : FnIx) (m : Msg),
  s.bit F.CLOCK_STATUS.FCLK_PRESENT = true →
  (∀ c ∈ [(Instr.rd, opRD), (.wr, opWR), (.wrp, opWRP), (.aadd, opAADD), (.acas, opACAS), (.contrib, opCONTRIB), (.lkacq, opLKACQ),
      (.lkrel, opLKREL), (.stamp, opSTAMP)],
    (hcrcOk m.hdr = true → msgWf c.2 m = false → exec (c.1 k p f m) s = .next s) ∧
    ((hcrcOk m.hdr = false ∨ msgWf c.2 m = true) → (s.inBoot = true ∨ (s.bit F.PORT_LINK.UP p = true ∧
        (hcrcOk m.hdr = false ∨ s.hasCredit k p m.hdr m.beats = false))) →
      ∃ t, exec (c.1 k p f m) s = .next t ∧
        t.rd F.PORT_ERRCNT.HDR_CRC p = min (2 ^ F.PORT_ERRCNT.HDR_CRC.len - 1) (s.rd F.PORT_ERRCNT.HDR_CRC p + 1) ∧
        s.keptBut t [.regs] ∧ s.onlyRegs t [(.PORT_ERRCNT, p, 0)]) ∧
    (s.bit F.PORT_LINK.UP p = true → s.inBoot = false → msgWf c.2 m = true → s.hasCredit k p m.hdr m.beats = true → hcrcOk m.hdr = true →
      ∀ r d, (s.preCheck k p m.hdr = some (r, d) ∨
          (s.preCheck k p m.hdr = none ∧ s.access p f (s.tenantOf p f none) m.hdr = .deny r d)) →
        ∃ t g, exec (c.1 k p f m) s = .next t ∧ t.flights = s.flights ++ [g] ∧ g.hdr = m.hdr ∧ g.stage = .replying (s.now + 12) ∧
          g.result = r ∧ g.detail = d ∧ s.keptBut t [.flights, .nextId, .regs] ∧ s.onlyRegs t [(.PORT_ERRCNT, p, 0)])) ∧
  (s.bit F.PORT_LINK.UP p = true → s.inBoot = false → unknownWf m = true → 0 < (s.credit k p).hdr → hcrcOk m.hdr = true →
    s.inHold = false → s.bit F.PORT_CFG.ENABLE p = true →
    mustBeZero m.hdr (s.rd F.PORT_EFF.TAGBITS p) = false → ∃ t g, exec (.unknownOpcodeRequest k p f m) s = .next t ∧
      t.flights = s.flights ++ [g] ∧ g.hdr = m.hdr ∧ g.result = rUNSUP ∧ g.detail = 4 ∧ s.keptBut t [.flights, .nextId])

/-- R76, R120, R70, R146, R285: the commands RD, WR, WRP, AADD, ACAS, CONTRIB, LKACQ, LKREL and STAMP. -/
def Obligations.FabricRequestsAccepted : Prop := ∀ (s : State) (k : Cluster) (p : Fin 25) (f : FnIx) (m : Msg),
  s.bit F.CLOCK_STATUS.FCLK_PRESENT = true → s.bit F.PORT_LINK.UP p = true → s.inBoot = false →
  ∀ c ∈ [(Instr.rd, opRD), (.wr, opWR), (.wrp, opWRP), (.aadd, opAADD), (.acas, opACAS), (.contrib, opCONTRIB), (.lkacq, opLKACQ),
      (.lkrel, opLKREL), (.stamp, opSTAMP)],
    msgWf c.2 m = true → s.hasCredit k p m.hdr m.beats = true → hcrcOk m.hdr = true →
    s.preCheck k p m.hdr = none → s.access p f (s.tenantOf p f none) m.hdr = .accept →
    (s.place (hLine m.hdr) (s.plot (hPlot m.hdr))).1 = k.val →
    ((path ((s.tenantOf p f none).getD 0) (hCls m.hdr) p).filter fun b => s.bEn b && !s.bShape b) = [] → s.throttles = [] →
    ∃ t g, exec (c.1 k p f m) s = .next t ∧ t.flights = s.flights ++ [g] ∧
      g.id = s.nextId ∧ g.hdr = m.hdr ∧ g.beats = m.beats ∧ g.stamp = s.now ∧ g.stage = .queued ∧ g.k = k.val ∧ g.req = p.val ∧
      g.tenant = s.tenantOf p f none ∧ g.isSealed = false ∧ g.lines.length = hLen m.hdr ∧
      (hPlot m.hdr ≠ 0xFFE → g.slot = (s.plot (hPlot m.hdr)).keyslot ∧ g.epoch = (s.plot (hPlot m.hdr)).epoch) ∧
      t.credit k p = ⟨(s.credit k p).hdr - 1, (s.credit k p).data - dataCredits m.hdr m.beats, (s.credit k p).resp⟩ ∧
      t.nextId = s.nextId + 1 ∧ s.refillDue.trkClear.keptBut t [.flights, .nextId, .credits]

/-- R285, R300, R737, R122: the commands INGRESS_RELEASE and REQUEST_TIMEOUT. -/
def Obligations.ReleaseAndTimeout : Prop := ∀ s r : State, r = s.refillDue →
  (∀ (k : Cluster) (q : Fin 40) (c : Fin 4) (f : Flight), s.queueHead k q c = some f →
    (s.bit F.CLOCK_STATUS.FCLK_PRESENT = true ∨ q.val = 27 + k.val) →
    (s.releasedNow k q c = false → (∀ b ∈ r.shapers f, 256 * hLen f.hdr ≤ r.bTokens b) → r.gateAdmits (r.chargeTenant f) r.now = true →
      r.capOk k q (hLen f.hdr) = true → ∃ t, exec (.ingressRelease k q c) s = .next t ∧
        t.flights = s.flights.map (fun x => if x.id == f.id then { x with stage := .released s.now } else x) ∧
        r.keptBut t [.flights, .regs, .capUsed] ∧ (r.shapers f = [] → t.regs = r.regs)) ∧
    ((s.releasedNow k q c = true ∨ ∃ b ∈ r.shapers f, r.bTokens b < 256 * hLen f.hdr) → exec (.ingressRelease k q c) s = .next r)) ∧
  (∀ id f, s.flight id = some f → f.unissued = true → f.tmo ≠ 0 → f.stamp + f.tmo ≤ s.now →
    ∃ t, exec (.requestTimeout id) s = .next t ∧
      t.flights = s.flights.map (fun g => if g.id == f.id
        then { g with stage := .replying (s.now + 12), result := rTIMEOUT, skipFloor := true } else g) ∧
      (t.credit f.k f.req).hdr = (s.credit f.k f.req).hdr + (if directPath f.k f.req then 0 else 1) ∧
      t.rd F.PORT_TMO.TIMEOUTS f.req = min (2 ^ F.PORT_TMO.TIMEOUTS.len - 1) (s.rd F.PORT_TMO.TIMEOUTS f.req + 1) ∧
      s.keptBut t [.flights, .credits, .regs] ∧ s.onlyRegs t [(.PORT_TMO, f.req % 2 ^ 14, 0)])

/-- R139, R142, R146, R149 to R152: the commands PORT_LINK_UP, PORT_LINK_DOWN, LINK_RETRY_REPORT and FABRIC_RESPONSE_CREDIT. -/
def Obligations.Links : Prop := ∀ (s : State) (p : PortIx),
  (∀ d : W64, p.val < 25 → s.bit F.PORT_LINK.UP p = false → ∃ t, exec (.portLinkUp p d) s = .next t ∧
    t.bit F.PORT_LINK.UP p = true ∧ t.rd F.PORT_LINK.EPOCH p = (s.rd F.PORT_LINK.EPOCH p + 1) % 2 ^ F.PORT_LINK.EPOCH.len ∧
    t.reg .PORT_CAP p = (if p.val < 24 then d else ownDesc p 0) ∧
    (s.inBoot = false → ∀ k, k < 12 → (t.credit k p).hdr = 64 ∧ (t.credit k p).data = 256) ∧
    s.keptBut t [.regs, .credits] ∧ s.onlyRegs t [(.PORT_LINK, p, 0), (.PORT_CAP, p, 0), (.PORT_EFF, p, 0)]) ∧
  (p.val ≠ 25 → p.val ≠ 26 → s.bit F.PORT_LINK.UP p = true → ∃ t, exec (.portLinkDown p) s = .next t ∧
    t.bit F.PORT_LINK.UP p = false ∧
    t.rd F.PORT_LINKCNT.DOWNS p = min (2 ^ F.PORT_LINKCNT.DOWNS.len - 1) (s.rd F.PORT_LINKCNT.DOWNS p + 1) ∧
    t.flights = (s.flights.filter fun f => !(f.req == p.val && f.unissued)).map (fun f => if f.req == p.val then { f with dead := true } else f) ∧
    (∀ k, k < 12 → t.credit k p = ⟨0, 0, 0⟩) ∧ (∀ k q, k < 12 → q < 39 → q ≠ p.val → t.credit k q = s.credit k q) ∧
    (∀ l ∈ t.locks, l.owner = p.val → l.broken = true ∨ l.breaking = true) ∧
    (∀ e ∈ t.holds, ∀ h, e.2 = some h → h.req = p.val → h.breaking = true) ∧
    s.keptBut t [.regs, .flights, .credits, .locks, .holds] ∧ s.onlyRegs t [(.PORT_LINK, p, 0), (.PORT_LINKCNT, p, 0)]) ∧
  (∃ t, exec (.linkRetryReport p) s = .next t ∧
    t.rd F.PORT_LINKCNT.RETRIES p = min (2 ^ F.PORT_LINKCNT.RETRIES.len - 1) (s.rd F.PORT_LINKCNT.RETRIES p + 1) ∧
    s.keptBut t [.regs] ∧ s.onlyRegs t [(.PORT_LINKCNT, p, 0)]) ∧
  (∀ (k : Cluster) (n : Nat), ∃ t, exec (.fabricResponseCredit k p n) s = .next t ∧
    t.credit k p = { s.credit k p with resp := (s.credit k p).resp + n } ∧
    (∀ j q, j < 12 → q < 39 → (j, q) ≠ (k.val, p.val) → t.credit j q = s.credit j q) ∧ s.keptBut t [.credits])

/-- R134, R136 to R138, R140: the lock-table update of a grant, and the commands LOCK_LEASE_EXPIRY and LOCK_BREAK. -/
def Obligations.Locks : Prop := ∀ s : State,
  (∀ f : Flight, s.lockOf f.k (hLkPlot f.hdr) (if hLkPlot f.hdr then f.plot else hLine f.hdr) = none →
    (hOp f.hdr = opLKACQ → s.locksIn f.k < 256 → ∃ t, s.lockStep f = (t, rOK, 0, 0) ∧
      t.locks = s.locks ++ [⟨f.k, hLkPlot f.hdr, if hLkPlot f.hdr then f.plot else hLine f.hdr, f.req, s.rd F.PORT_LINK.EPOCH f.req,
        s.now + usTicks f.lease, false, false⟩] ∧ s.keptBut t [.locks, .regs]) ∧
    (hOp f.hdr = opLKREL → s.lockStep f = (s, rDENIED, 0x17, 0))) ∧
  (∀ (k : Cluster) (b : Bool) (n : Nat) (l : Lock), s.lockOf k b n = some l → l.broken = false →
    (l.lease ≤ s.now → ∃ t, exec (.lockLeaseExpiry k b n) s = .next t ∧
      t.locks = s.locks.map (fun x => if x == l then { x with breaking := true } else x) ∧ s.keptBut t [.locks]) ∧
    (l.breaking = true → ∃ t, exec (.lockBreak k b n) s = .next t ∧
      t.lockOf k b n = some { l with broken := true, breaking := false } ∧
      t.rd F.PORT_LOCK.BREAKS k = min (2 ^ F.PORT_LOCK.BREAKS.len - 1) (s.rd F.PORT_LOCK.BREAKS k + 1) ∧
      s.keptBut t [.locks, .regs] ∧ s.onlyRegs t [(.PORT_LOCK, k, 0)]))

/-- R106, R108, R132, R149, R194, R807: the command REPLY_HANDOVER. -/
def Obligations.ReplyHandover : Prop := ∀ (s : State) (id : Nat) (f : Flight), s.flight id = some f →
  (s.mayReply f = false → exec (.replyHandover id) s = .next s) ∧
  (s.bit F.CLOCK_STATUS.FCLK_PRESENT = false → directPath f.k f.req = false → f.dead = false → exec (.replyHandover id) s = .next s) ∧
  (s.mayReply f = true → f.dead = true → ∃ t, exec (.replyHandover id) s = .next t ∧ t.flight id = none ∧
    t.out = s.out ∧ s.keptBut t [.flights]) ∧
  (s.mayReply f = true → f.dead = false → f.why = .port → f.req < 25 → s.bit F.CLOCK_STATUS.FCLK_PRESENT = true →
    ∃ t, exec (.replyHandover id) s = .next t ∧
      t.out = s.out ++ [.reply f.req f.k (s.replyOf f) (if replyData (hOp f.hdr) f.result then f.lines.map LineSt.out else [])] ∧
      t.flight id = none ∧ (t.credit f.k f.req).resp = (s.credit f.k f.req).resp - 1 ∧
      s.keptBut t [.flights, .credits, .regs, .out] ∧
      (∀ r i j, r ≠ .PMU_ARB → r ≠ .PMU_PC → t.reg r i j = s.reg r i j))

/-- R28, R40, R250, R254, R255, R261, R262, R266: the commands TRAINING_COMPLETE and DEVICE_ID_TIMEOUT. -/
def Obligations.TrainingOfItsOwnAccord : Prop := ∀ (s : State) (k : Cluster) (e : SiteEnv), s.cccUp k = true → s.dramOk = true →
  (∀ d, e.id = some d → s.rd F.PHY_STATUS.SITE k = 1 → s.imagePresent k = false →
    ∃ t, exec (.trainingComplete k e) s = .next t ∧ t.reg .PHY_SERIAL k = d.serial ∧
      t.rd F.PHY_VENDOR.VENDOR k = d.vendor.toNat ∧
      (t.rd F.PHY_STATUS.SITE k = 3 ∨ t.rd F.PHY_STATUS.SITE k = 4 ∨ t.rd F.PHY_STATUS.SITE k = 5)) ∧
  (s.rd F.PHY_STATUS.SITE k = 2 → nbit (s.rd F.CLOCK_STATUS.PHY_LOCK) k = true → s.rateOk k = true → s.imagePresent k = false →
    ∃ t, exec (.trainingComplete k e) s = .next t ∧ t.rd F.PHY_RTR_LAST.STAMP k = s.now ∧
      t.rd F.PHY_TRN_STATUS.TIME_US k = e.timeUs.toNat ∧ (t.rd F.PHY_STATUS.SITE k = 3 ∨ t.rd F.PHY_STATUS.SITE k = 4)) ∧
  (s.rd F.PHY_STATUS.SITE k = 3 → nbit (s.rd F.CLOCK_STATUS.PHY_LOCK) k = true → s.clk.relocking.contains k.val = true →
    ∃ t, exec (.trainingComplete k e) s = .next t ∧ t.clk.relocking.contains k.val = false ∧
      t.rd F.PHY_RTR_LAST.STAMP k = s.now ∧ t.rd F.PHY_TRN_STATUS.TIME_US k = e.timeUs.toNat ∧
      (t.rd F.PHY_STATUS.SITE k = 3 ∨ t.rd F.PHY_STATUS.SITE k = 4)) ∧
  (s.rd F.PHY_STATUS.SITE k = 1 → (∃ j, j < 12 ∧ j ≠ k.val ∧ s.siteStarting j = true) →
    ∃ t, exec (.deviceIdTimeout k) s = .next t ∧ t.rd F.PHY_STATUS.SITE k = 0 ∧
      (∀ r ∈ [2 + k.val, 14 + 3 * k, 15 + 3 * k, 16 + 3 * k], t.bit F.PM_RAIL_CFG.ON r = false) ∧
      t.out = s.out ++ [.pmbus (2 + k.val) 0, .pmbus (14 + 3 * k) 0, .pmbus (15 + 3 * k) 0, .pmbus (16 + 3 * k) 0] ∧
      s.keptBut t [.regs, .out] ∧
      s.onlyRegs t [(.PHY_STATUS, k, 0), (.PLOT_GEOM, 0, 0), (.PM_RAIL_CFG, 2 + k.val, 0), (.PM_RAIL_CFG, 14 + 3 * k, 0),
        (.PM_RAIL_CFG, 15 + 3 * k, 0), (.PM_RAIL_CFG, 16 + 3 * k, 0)])

/-- R255, R266, R272 to R274, R279, R280: the commands TRAIN, RESTORE, VERIFY and TRN_IMAGE_WRITE. -/
def Obligations.TrainingCommands : Prop := ∀ (s : State) (k : Cluster) (e : SiteEnv) (v : VerifyEnv),
  (s.auditFull = false → s.dramOk = true → (s.inReady = true ∨ s.inHold = true) → s.rd F.PHY_STATUS.SITE k ≠ 1 → s.rd F.PHY_STATUS.SITE k ≠ 2 →
    (s.stackIdle k = false → ∀ c ∈ [Instr.train k e, .restore k e v, .verify k v], ∃ t, exec c s = .next t ∧
      t.bit F.PHY_TRN_CTRL.REJ k = true ∧ s.keptBut t [.regs] ∧ s.onlyRegs t [(.PHY_TRN_CTRL, k, 0)]) ∧
    (s.stackIdle k = true →
      (∃ t, exec (.train k e) s = .next t ∧ t.rd F.PHY_RTR_LAST.STAMP k = s.now ∧ t.rd F.PHY_TRN_STATUS.TIME_US k = e.timeUs.toNat) ∧
      (s.imageOk k e = true → v = [] → ∃ t, exec (.restore k e v) s = .next t ∧ t.bit F.PHY_STATUS.RESTORED k = true ∧
        t.rd F.PHY_TRN_STATUS.RESULT k = 0 ∧ t.rd F.PHY_CALZ.ZPU k = s.imgNat k 24 1 ∧ t.rd F.PHY_CALZ.ZPD k = s.imgNat k 25 1 ∧
        s.keptBut t [.regs, .auditQ]) ∧
      (∃ t, exec (.verify k v) s = .next t ∧ t.rd F.PHY_TRN_STATUS.RESULT k = (if v.isEmpty then 0 else 5) ∧
        s.regsOnly t [(.PHY_TRN_STATUS, k, 0)]))) ∧
  (∀ (off : Fin 1024) (w : W32), s.stackIdle k = true → s.pfHeld = false → ∃ t, exec (.trnImageWrite k off w) s = .next t ∧
    (∀ i, i < 4 → t.imgByte k (4 * off + i) = w.extractLsb' (8 * i) 8) ∧
    (∀ a, (∀ i, i < 4 → a ≠ imgBase k + (4 * off + i)) → tget 0 t.bytes a = tget 0 s.bytes a) ∧ s.keptBut t [.bytes, .auditQ])

/-- R263 to R266: the commands RETRAIN_TRIGGER and RETRAIN_APPLY. -/
def Obligations.Retraining : Prop := ∀ (s : State) (k : Cluster),
  (s.bit F.PHY_RTR_CFG.EN k = true → s.rd F.PHY_STATUS.SITE k = 3 → s.cccUp k = true → (s.rtrPeriodUp k = true ∨ s.drifted k = true) →
    (s.bit F.REF_MAINT.VALID k && s.rd F.REF_MAINT.KIND k == 0) = false → s.triggers.contains k.val = false →
    ∃ t, exec (.retrainTrigger k) s = .next t ∧ t.triggers = s.triggers ++ [k.val] ∧ s.keptBut t [.triggers]) ∧
  (∀ e w, tget none s.windows k = some w → w.running = true → s.rd F.REF_MAINT.KIND k = 0 → w.tested = some false → s.dramOk = true →
    ∃ t, exec (.retrainApply k e) s = .next t ∧
      t.rd F.PHY_RTR_STAT.RETRAINS k = min (2 ^ F.PHY_RTR_STAT.RETRAINS.len - 1) (s.rd F.PHY_RTR_STAT.RETRAINS k + 1) ∧
      t.rd F.PHY_RTR_LAST.STAMP k = s.now ∧ tget none t.windows k = some { w with tested := none } ∧ t.plots = s.plots)

/-- R343, R347, R352, R367, R368, R389, R392, R419, R529: the commands JOB_END, JOB_ABORT, CONTEXT_DRAIN_END, CONTEXT_CLEAR_DONE
and PAIRED_WRITE. -/
def Obligations.JobsEnd : Prop := ∀ (s : State) (j : Cluster) (c : CtxIx) (x : Ctx), s.ctx j c = x →
  (∀ b f, s.nmcEdge = true → x.job = some b → x.fin = some f → f.sent = false → s.fw.quiet = false → s.fifoLen j < 256 →
    (f.fence = true → x.fenced true true = true ∧ x.pfail = none ∧ x.ready ≤ s.now) → (f.fence = false → x.st = .draining) →
    ∃ t r, exec (.jobEnd j c) s = .next t ∧ t.rings.fifos = s.rings.fifos ++ [r] ∧ r.fifo = j.val ∧ r.ring = b.ring ∧
      r.data = recordData b.start (if f.fence then s.nowAt j else f.at_) b.fetch b.seq (s.attnFor (s.fnReceiver b.fn) * 16 + f.result) f.instr j c f.detail ∧
      t.ctx j c = { x with st := .draining, fin := some { f with fence := false, at_ := (if f.fence then s.nowAt j else f.at_), sent := true } } ∧ s.keptBut t [.lnts, .rings]) ∧
  (s.nmcEdge = true → x.abort = true → x.job.isSome = true → x.st ≠ .draining → x.st ≠ .idle → x.atBoundary = true →
    ∃ t, exec (.jobAbort j c) s = .next t ∧ (t.ctx j c).st = .draining ∧ (∃ f, (t.ctx j c).fin = some f ∧ f.result = rABORTED) ∧
      s.keptBut t [.lnts, .posies]) ∧
  (s.nmcEdge = true → x.st = .draining → (∃ f, x.fin = some f ∧ f.sent = true) → s.ctxQuiet j c = true →
    ∃ t, exec (.contextDrainEnd j c) s = .next t ∧ t.ctx j c = { x with st := .idle, clear := some (s.now + s.cyc 512) } ∧
      s.keptBut t [.lnts]) ∧
  (∀ n, s.nmcEdge = true → x.clear = some n → n ≤ s.now → ∃ t, exec (.contextClearDone j c) s = .next t ∧ t.ctx j c = Ctx.blank ∧
    (∀ d, d ≠ c → t.ctx j d = s.ctx j d) ∧ s.keptBut t [.lnts]) ∧
  (∀ b, s.pfHeld = false → ∃ t, exec (.pairedWrite j b) s = .next t ∧ t.bit F.LNT_CTL.PAIRED j = b ∧ s.regsOnly t [(.LNT_CTL, j, 0)])

/-- R373, R374, R394 to R396, R398 to R400, R402 to R404, R423: the commands NOP, BR, LOOP, CALL, RET, STAMP_INSTR, FENCE and
INSTR_RESERVED_OPCODE. -/
def Obligations.ControlInstructions : Prop := ∀ (s : State) (j : Cluster) (c : CtxIx) (x : Ctx) (w : BitVec 128),
  s.ctx j c = x → s.issuer j = some c.val → x.word x.prog.ip = some w → x.prog.n ≠ 2 ^ 24 → x.prog.loops = [] →
  (opsKnown.contains (iOp w) = false → ∃ t f, exec (.instrReservedOpcode j c) s = .next t ∧ (t.ctx j c).st = .draining ∧
    (t.ctx j c).fin = some f ∧ f.result = rUNSUP ∧ s.keptBut t [.lnts, .pmus, .regs, .posies] ∧ s.onlyRegs t [(.PMU_CTX, j, c * 8)]) ∧
  (wordBad w = false → x.prog.ip + 1 < x.image.words.length →
    (iOp w = 0x00 → ∃ t, exec (.nop j c) s = .next t ∧ (t.ctx j c).prog = { x.prog with ip := x.prog.ip + 1, n := x.prog.n + 1 } ∧
      (t.ctx j c).regs = x.regs ∧ (t.ctx j c).st = .running ∧ (t.ctx j c).ready = s.now + s.cyc 1 ∧ (∀ d, d ≠ c → t.ctx j d = s.ctx j d) ∧
      s.keptBut t [.lnts, .pmus, .regs] ∧ s.onlyRegs t [(.PMU_CTX, j, c * 8)]) ∧
    (iOp w = 0x02 →
      (brCond w x.regs = false → ∃ t, exec (.br j c) s = .next t ∧
        (t.ctx j c).prog = { x.prog with ip := x.prog.ip + 1, n := x.prog.n + 1 } ∧ (t.ctx j c).regs = x.regs ∧
        (∀ d, d ≠ c → t.ctx j d = s.ctx j d) ∧ s.keptBut t [.lnts, .pmus, .regs] ∧ s.onlyRegs t [(.PMU_CTX, j, c * 8)]) ∧
      (∀ target : Nat, brCond w x.regs = true → (target : Int) = (x.prog.ip : Int) + sextN (bitsOf w 51 32) 20 →
        target < x.image.words.length → ∃ t, exec (.br j c) s = .next t ∧
        (t.ctx j c).prog = { x.prog with ip := target, n := x.prog.n + 1 } ∧ (t.ctx j c).ready = s.now + s.cyc 3 ∧
        (∀ d, d ≠ c → t.ctx j d = s.ctx j d) ∧ s.keptBut t [.lnts, .pmus, .regs] ∧ s.onlyRegs t [(.PMU_CTX, j, c * 8)])) ∧
    (iOp w = 0x01 → w.getLsbD 8 = false → bitsOf w 83 52 ≠ 0 → bitsOf w 35 24 ≠ 0 →
      x.prog.ip + 1 + bitsOf w 35 24 ≤ x.image.words.length → ∃ t e, exec (.loop j c) s = .next t ∧
      (t.ctx j c).prog = { x.prog with ip := x.prog.ip + 1, n := x.prog.n + 1, loops := [e] } ∧ e.start = x.prog.ip + 1 ∧
      e.stop = x.prog.ip + 1 + bitsOf w 35 24 ∧ e.left = bitsOf w 83 52 ∧ e.index = 0 ∧ e.depth = x.prog.calls.length ∧
      (∀ d, d ≠ c → t.ctx j d = s.ctx j d) ∧ s.keptBut t [.lnts, .pmus, .regs] ∧ s.onlyRegs t [(.PMU_CTX, j, c * 8)]) ∧
    (∀ e, iOp w = 0x03 → x.word (x.prog.ip + 1) = some e → extBad w e = false → w.getLsbD 8 = true → w.getLsbD 9 = true →
      frameBytes w = 0 → x.prog.calls.length < 8 →
      (if bitsOf w 31 16 = 0xFFFF then x.image.entry else bitsOf w 31 16) < x.image.words.length →
      ∃ t, exec (.call j c) s = .next t ∧ (t.ctx j c).prog.calls = ⟨x.prog.img, x.prog.ip + 2, 0⟩ :: x.prog.calls ∧
      (t.ctx j c).prog.ip = (if bitsOf w 31 16 = 0xFFFF then x.image.entry else bitsOf w 31 16) ∧ (t.ctx j c).regs = x.regs ∧
      (∀ d, d ≠ c → t.ctx j d = s.ctx j d) ∧ s.keptBut t [.lnts, .pmus, .regs] ∧ s.onlyRegs t [(.PMU_CTX, j, c * 8)]) ∧
    (iOp w = 0x04 → x.prog.calls = [] → ∃ t, exec (.ret j c) s = .next t ∧
      (t.ctx j c).fin = some ⟨rOK, 0, x.prog.n % 65536, s.nowAt j, true, false⟩ ∧ (t.ctx j c).regs = x.regs ∧
      (∀ d, d ≠ c → t.ctx j d = s.ctx j d) ∧ s.keptBut t [.lnts, .pmus, .regs] ∧ s.onlyRegs t [(.PMU_CTX, j, c * 8)]) ∧
    (iOp w = 0x08 → w.getLsbD 8 = false → ∃ t, exec (.stampInstr j c) s = .next t ∧
      (t.ctx j c).regs = x.regs.setS (iF w 1) s.clk.now ∧ (t.ctx j c).prog = { x.prog with ip := x.prog.ip + 1, n := x.prog.n + 1 } ∧
      (∀ d, d ≠ c → t.ctx j d = s.ctx j d) ∧ s.keptBut t [.lnts, .pmus, .regs] ∧ s.onlyRegs t [(.PMU_CTX, j, c * 8)]) ∧
    (iOp w = 0x07 → ∃ t, exec (.fence j c) s = .next t ∧
      (x.fenced (w.getLsbD 8) (w.getLsbD 9) = true →
        (t.ctx j c).prog = { x.prog with ip := x.prog.ip + 1, n := x.prog.n + 1 } ∧ (t.ctx j c).op = .none) ∧
      (x.fenced (w.getLsbD 8) (w.getLsbD 9) = false → (t.ctx j c).op = .fence (w.getLsbD 8) (w.getLsbD 9)) ∧
      (∀ d, d ≠ c → t.ctx j d = s.ctx j d) ∧ s.keptBut t [.lnts, .pmus, .regs] ∧ s.onlyRegs t [(.PMU_CTX, j, c * 8)]))

/-- R349, R381 to R383, R406, R407, R412, R419, R423, R428: the commands WAIT, SIGNAL, MOVE, FILL, GATHER, SCATTER, CAST, QUANT, DEQ, EW,
OPT, MMA, NORM, CHECK, DIGEST, CONTRIB_INSTR and COLLECT. -/
def Obligations.MemoryInstructions : Prop := ∀ (s : State) (j : Cluster) (c : CtxIx) (x : Ctx) (w : BitVec 128),
  s.ctx j c = x → s.issuer j = some c.val → x.word x.prog.ip = some w → x.prog.n ≠ 2 ^ 24 → wordBad w = false →
  (iOp w = 0x05 → s.semaBad x (iF w 0) = none → ∃ t y, exec (.wait j c) s = .next t ∧ (t.ctx j c).st = .waiting ∧
    (t.ctx j c).op = .wait y ∧ y.w = w ∧ y.out = true ∧ t.mem = s.mem ∧ t.plots = s.plots) ∧
  (iOp w = 0x06 → w.getLsbD 11 = false → s.semaBad x (iF w 0) = none → ∃ t, exec (.signal j c) s = .next t ∧
    (t.ctx j c).op = .sema none ∧ t.mem = s.mem ∧ t.plots = s.plots) ∧
  (∀ i ∈ [(Instr.move, 0x10), (.fill, 0x11), (.gather, 0x12), (.scatter, 0x13), (.cast, 0x18), (.quant, 0x19), (.deq, 0x1A),
      (.ew, 0x20), (.opt, 0x21), (.mma, 0x22), (.norm, 0x23), (.check, 0x28), (.digest, 0x29), (.contribInstr, 0x30), (.collect, 0x31)],
    iOp w = i.2 → ∀ e b, (if extReq i.2 then x.word (x.prog.ip + 1) = some e ∧ extBad w e = false else e = 0) → x.job = some b →
    (∀ f, s.descsBad b.fn w x = some f → ∃ t g, exec (i.1 j c) s = .next t ∧ (t.ctx j c).st = .draining ∧ (t.ctx j c).fin = some g ∧
      g.result = excResult f ∧ t.mem = s.mem ∧ t.plots = s.plots) ∧
    (s.descsBad b.fn w x = none → s.remoteBad j ((s.markIssue j c).denvOf j c w) (dataBad ((s.markIssue j c).denvOf j c w)) = none →
      (i.2 = 0x31 → w.getLsbD 8 = false ∧ s.collectDenied j c ((s.markIssue j c).denvOf j c w) 0 = none) →
      ∃ t d, exec (i.1 j c) s = .next t ∧ (t.ctx j c).op = .data d ∧ d.code = i.2 ∧ d.w = w ∧ d.x = e ∧
        d.total = (chunkPlan ((s.markIssue j c).denvOf j c w)).2 ∧ t.mem = s.mem ∧ t.plots = s.plots))

/-- R126, R386, R391, R403, R407 to R409, R413, R414: the commands FENCE_COMPLETE, WAIT_POLL, WAIT_POLL_REPLY, WAIT_DEADLINE,
CALL_LOAD_COMPLETE, POSTED_REPLY and LANTERN_REPLY_ARRIVAL. -/
def Obligations.WaitsAndReplies : Prop := ∀ (s : State) (j : Cluster) (c : CtxIx) (x : Ctx), s.ctx j c = x →
  (s.nmcEdge = true → x.prog.loops = [] → x.pfail = none → x.prog.ip + 1 < x.image.words.length → ∀ m g, x.op = .fence m g → x.fenced m g = true →
    ∃ t, exec (.fenceComplete j c) s = .next t ∧ (t.ctx j c).prog = { x.prog with ip := x.prog.ip + 1 } ∧ (t.ctx j c).op = .none ∧
      (t.ctx j c).regs = x.regs ∧ s.keptBut t [.lnts]) ∧
  (∀ y, s.nmcEdge = true → x.op = .wait y →
    (s.mayPoll j c = true → y.out = false → y.reply = none → ((∃ u, y.again = some u ∧ u ≤ s.now) ∨ y.next ≤ s.now) →
      ∃ t z, exec (.waitPoll j c) s = .next t ∧ (t.ctx j c).op = .wait z ∧ z.out = true ∧ z.next = s.now + s.cyc 128 ∧ z.num = y.num + 1 ∧ z.again = none ∧ t.mem = s.mem) ∧
    (∀ v, x.st = .waiting → y.reply = some (rOK, v) →
      (waitCond y.w x.regs v = true → x.prog.loops = [] → x.pfail = none → x.prog.ip + 1 < x.image.words.length →
        ∃ t, exec (.waitPollReply j c) s = .next t ∧ (t.ctx j c).regs = x.regs.setS (iF y.w 4) v ∧
          (t.ctx j c).prog = { x.prog with ip := x.prog.ip + 1 } ∧ (t.ctx j c).op = .none ∧ s.keptBut t [.lnts]) ∧
      (waitCond y.w x.regs v = false → y.final = false → ∃ t, exec (.waitPollReply j c) s = .next t ∧
        t.ctx j c = { x with op := .wait { y with reply := none, last := v } } ∧ s.keptBut t [.lnts])) ∧
    (∀ d, x.st = .waiting → y.final = false → y.deadline = some d → d ≤ s.now → y.reply = none →
      (s.mayPoll j c = false → exec (.waitDeadline j c) s = .next s) ∧
      (s.mayPoll j c = true → y.out = true → ∃ t, exec (.waitDeadline j c) s = .next t ∧ t.ctx j c = { x with op := .wait { y with final := true } } ∧ s.keptBut t [.lnts]))) ∧
  (∀ l pa, s.nmcEdge = true → x.op = .load l → l.need = 0 → l.fail = none → l.image = some pa → l.body = true → l.call = false →
    crc32c (loadBytes l.got pa 0 60 ++ loadBytes l.got pa 64 (16 * loadNat l.got pa 8 2)) = BitVec.ofNat 32 (loadNat l.got pa 60 4) →
    ∃ t, exec (.callLoadComplete j c) s = .next t ∧ (t.ctx j c).prog.img = some pa ∧ (t.ctx j c).prog.ip = loadNat l.got pa 10 2 ∧
      (t.ctx j c).st = (if x.hold then .held else .running) ∧ (t.ctx j c).op = .none ∧ s.keptBut t [.lnts]) ∧
  (∀ p, s.nmcEdge = true → x.answered = some (p, rOK) → x.op = .none → x.pfail = none →
    ∃ t, exec (.postedReply j c) s = .next t ∧ (t.ctx j c).posted = x.posted.erase p ∧ s.keptBut t [.lnts]) ∧
  (∀ r rest, s.nmcEdge = true → (s.lnt j).inbox = r :: rest →
    ((s.lnt j).req r.path r.tag = none → ∃ t, exec (.lanternReplyArrival j) s = .next t ∧ (t.lnt j).inbox = rest ∧
      t.rd F.PORT_TMO.LATE_DROP (27 + j) = min (2 ^ F.PORT_TMO.LATE_DROP.len - 1) (s.rd F.PORT_TMO.LATE_DROP (27 + j) + 1) ∧ t.mem = s.mem) ∧
    (∀ q, (s.lnt j).req r.path r.tag = some q → q.kind = .journal → q.gen = r.gen →
      tget 0 (s.lnt j).gens (r.path * 4096 + r.tag) = r.gen → (s.lnt j).queue = [] →
      ∃ t, exec (.lanternReplyArrival j) s = .next t ∧ (t.lnt j).inbox = rest ∧ (t.lnt j).req r.path r.tag = none ∧ s.keptBut t [.lnts]))

/-- R126, R350, R354, R357, R358, R436, R493, R494, R506, R533, R653, R656: the commands ARRAY_OP_DISPATCH, ARRAY_OP_END, CHUNK_VERDICT,
REPLAY_DECIDE, CHUNK_COMMIT, CHUNK_WRITE_FAIL, DROPPED_RESEND, CONTRIB_RESEND, COLLECT_WAIT_END and HOST_READ_COMPLETION. -/
def Obligations.ChunksGoOn : Prop := ∀ (s : State) (j : Cluster) (c : CtxIx), s.nmcEdge = true →
  (∀ a rest d m i, (s.lnt j).disp ≠ s.now + 1 → s.bit F.LNT_CTL.PAIRED j = false → s.freeArrays j = a :: rest →
    s.refReady j none = none → (((List.range 8).map fun i => ((s.lnt j).rrd + 1 + i) % 8).find? fun c =>
      (s.opReady j c).isSome || (s.refReady j (some c)).isSome) = some d → s.opReady j d = some (m, i) →
    ∃ t o, exec (.arrayOpDispatch j) s = .next t ∧ (t.lnt j).arr a = some o ∧ o.ctx = d ∧ o.m = m ∧ o.i = i ∧ (t.lnt j).rrd = d ∧
      t.mem = s.mem ∧ t.plots = s.plots) ∧
  (∀ (a : ArrIx) o, (s.lnt j).arr a = some o → o.at_ ≤ s.now → (s.lnt j).fence = [] → (s.lnt j).tests = [] →
    ∃ t, exec (.arrayOpEnd j a) s = .next t ∧ (t.lnt j).arr a = none ∧ a.val ∈ (t.lnt j).ended ∧ t.mem = s.mem ∧ t.plots = s.plots ∧
      (100 ≤ o.pair ∨ s.dop j o.ctx = none → s.keptBut t [.lnts])) ∧
  (∀ d, s.dop j c = some d →
    (∀ ch, d.due s.now = some ch → ch.m ≠ d.next → s.hostBarred j c d = false → (s.ctx j c).abort = false →
      ((s.chunkCalc j c d ch).bad = none → (s.chunkCalc j c d ch).exc = none → iOp d.w ≠ 0x30 →
        dHost ((s.denvOf j c d.w).d 0) = false →
        ((outsOf d.w).flatMap fun f => outLines (iF d.w f) (tget [] (s.chunkCalc j c d ch).outs f)) ≠ [] →
        ∃ t e x, exec (.chunkVerdict j c ⟨none, 0, false⟩) s = .next t ∧ t.dop j c = some e ∧ x ∈ e.chunks ∧ x.m = ch.m ∧ x.st = .writing ∧
          x.outs = ((outsOf d.w).flatMap fun f => outLines (iF d.w f) (tget [] (s.chunkCalc j c d ch).outs f)) ∧ t.mem = s.mem) ∧
      (∀ b, (s.chunkCalc j c d ch).bad = some b → ∃ t e x a n, exec (.chunkVerdict j c ⟨none, 0, false⟩) s = .next t ∧
        t.rd F.RAS_SECNT.VERDICT_FAILS j = min (2 ^ F.RAS_SECNT.VERDICT_FAILS.len - 1) (s.rd F.RAS_SECNT.VERDICT_FAILS j + 1) ∧
        t.dop j c = some e ∧ x ∈ e.chunks ∧ x.m = ch.m ∧ x.st = .replay a n ∧ t.mem = s.mem)) ∧
    (∀ ch rest n a f, d.chunks = ch :: rest → ch.st = .replay a n → n ≤ s.now → ch.fail = none → ch.bad = none → ch.flag = some f →
      f.1 < 6 → (s.ctx j c).abort = false → s.hostBarred j c d = false → ch.partner f.2.2 = none → (s.chunkCalc j c d ch).bad = none → (s.lnt j).tests = [] → ∀ v : ReplayResult, v.flag = none → v.same = true →
      ∃ t g, exec (.replayDecide j c v) s = .next t ∧
        t.rd F.RAS_SECNT.DATA_RANGE j = min (2 ^ F.RAS_SECNT.DATA_RANGE.len - 1) (s.rd F.RAS_SECNT.DATA_RANGE j + 1) ∧
        (t.ctx j c).st = .draining ∧ (t.ctx j c).fin = some g ∧ g.result = rCHECK) ∧
    (∀ ch, d.chunks = [ch] → d.next = d.total → ch.st = .writing → ch.fail = none → ch.bad = none → (ch.outs.all fun o => o.acked) = true →
      s.writesOut j c ch.m true = false →
      (List.range c).any (s.commitReady j) = false → (s.ctx j c).prog.loops = [] → (s.ctx j c).pfail = none →
      (s.ctx j c).prog.ip + 2 < (s.ctx j c).image.words.length → ∃ t, exec (.chunkCommit j c) s = .next t ∧ (t.ctx j c).op = .none ∧
        (t.ctx j c).prog.ip = (s.ctx j c).prog.ip + (if iExt d.w then 2 else 1) ∧ (t.ctx j c).regs = endRegs d (s.ctx j c).regs ∧
        t.mem = s.mem) ∧
    (∀ ch rest e, d.chunks = ch :: rest → ch.fail = some e → ch.st = .writing → s.writesOut j c ch.m false = false →
      ∃ t g, exec (.chunkWriteFail j c) s = .next t ∧ (t.ctx j c).st = .draining ∧ (t.ctx j c).fin = some g ∧
        g.result = excResult e ∧ t.mem = s.mem) ∧
    (∀ tag q m, (s.lnt j).req (tag / 4096) (tag % 4096) = some q → q.ctx = c.val → q.kind = .contrib m → q.st = .refused → s.mayTransmit j q = true →
      ∃ t p, exec (.contribResend j c tag) s = .next t ∧ p ∈ (t.lnt j).reqs ∧ p.path = q.path ∧ p.tag = q.tag ∧ p.st = .sent ∧
        p.gen = (tget 0 (s.lnt j).gens (q.path * 4096 + q.tag) + 1) % 16 ∧ t.mem = s.mem) ∧
    (∀ ch rest since, iOp d.w = 0x31 → d.chunks = ch :: rest → ch.st = .collect since → ch.fail = none → ch.bad = none →
      since + ((s.denvOf j c d.w).s (iF d.w 3)).toNat ≤ s.now →
      s.posyFirst j ((collectKeys (s.denvOf j c d.w) d.x ch.m).map (·.line)) = false → ∃ t, exec (.collectWaitEnd j c) s = .next t ∧ t.mem = s.mem ∧
        ((∃ e x n, t.dop j c = some e ∧ x ∈ e.chunks ∧ x.m = ch.m ∧ x.st = .verdict n) ∨
          ∃ g, (t.ctx j c).st = .draining ∧ (t.ctx j c).fin = some g))) ∧
  (∀ tag q, (s.lnt j).req (tag / 4096) (tag % 4096) = some q → q.st = .dropped → s.now % 75 = 0 → s.clk.running = true →
    s.mayTransmit j q = true →
    ∃ t p, exec (.droppedResend j tag) s = .next t ∧ p ∈ (t.lnt j).reqs ∧ p.path = q.path ∧ p.tag = q.tag ∧ p.st = .sent ∧
      p.gen = (tget 0 (s.lnt j).gens (q.path * 4096 + q.tag) + 1) % 16 ∧ t.mem = s.mem) ∧
  (∀ (tag : HostTag) result bytes, tget 0 (s.lnt j).hgens tag.tag ≠ tag.gen.val → ∃ t, exec (.hostReadCompletion j tag result bytes) s = .next t ∧
    t.rd F.PORT_TMO.LATE_DROP 24 = min (2 ^ F.PORT_TMO.LATE_DROP.len - 1) (s.rd F.PORT_TMO.LATE_DROP 24 + 1) ∧
    ((s.lnt j).hqueue = [] → (t.lnt j).hreqs = (s.lnt j).hreqs.filter fun h => !(h.tag == tag.tag && h.gen == tag.gen.val)) ∧ t.mem = s.mem) ∧
  (∀ (tag : HostTag) h ch bytes, tget 0 (s.lnt j).hgens tag.tag = tag.gen.val → (s.lnt j).hreqs.find? (·.tag == tag.tag) = some h → bytes.length = h.len * 64 → (s.lnt j).hqueue = [] →
    s.chunk j h.ctx h.m = some ch → h.len < ch.need → ∃ t, exec (.hostReadCompletion j tag 0 bytes) s = .next t ∧
      t.chunk j h.ctx h.m = some { ch with
        ins := ch.ins ++ (List.range h.len).map (fun i => (h.line + i, lineOf ((bytes.drop (64 * i)).take 64)))
        need := ch.need - h.len } ∧
      (∀ r ∈ (t.lnt j).hreqs, r.tag ≠ tag.tag) ∧ s.keptBut t [.lnts, .rings])
end

