-- ==== Sys2Proof/Laws/State.lean ====
section
/-! SUPPORT. What each update of the state leaves as it was, one lemma per update and field. -/

namespace Sys2Proof.Machine

@[simp] theorem setReg_pending (s : State) (r : RegName) (i j : Nat) (v : W64) : (s.setReg r i j v).pending = s.pending := rfl
@[simp] theorem setReg_endpoint (s : State) (r : RegName) (i j : Nat) (v : W64) : (s.setReg r i j v).endpoint = s.endpoint := rfl
@[simp] theorem setReg_clk (s : State) (r : RegName) (i j : Nat) (v : W64) : (s.setReg r i j v).clk = s.clk := rfl
@[simp] theorem setReg_regs0 (s : State) (r : RegName) (i j : Nat) (v : W64) : (s.setReg r i j v).regs0 = s.regs0 := rfl
@[simp] theorem setReg_regs1 (s : State) (r : RegName) (i j : Nat) (v : W64) : (s.setReg r i j v).regs1 = s.regs1 := rfl
@[simp] theorem setReg_events (s : State) (r : RegName) (i j : Nat) (v : W64) : (s.setReg r i j v).events = s.events := rfl
@[simp] theorem setReg_bytes (s : State) (r : RegName) (i j : Nat) (v : W64) : (s.setReg r i j v).bytes = s.bytes := rfl
@[simp] theorem setReg_hiLatch (s : State) (r : RegName) (i j : Nat) (v : W64) : (s.setReg r i j v).hiLatch = s.hiLatch := rfl
@[simp] theorem setReg_out (s : State) (r : RegName) (i j : Nat) (v : W64) : (s.setReg r i j v).out = s.out := rfl
@[simp] theorem setReg_free (s : State) (r : RegName) (i j : Nat) (v : W64) : (s.setReg r i j v).free = s.free := rfl
@[simp] theorem setReg_mem (s : State) (r : RegName) (i j : Nat) (v : W64) : (s.setReg r i j v).mem = s.mem := rfl
@[simp] theorem setReg_fills (s : State) (r : RegName) (i j : Nat) (v : W64) : (s.setReg r i j v).fills = s.fills := rfl
@[simp] theorem setReg_plots (s : State) (r : RegName) (i j : Nat) (v : W64) : (s.setReg r i j v).plots = s.plots := rfl
@[simp] theorem setReg_quar (s : State) (r : RegName) (i j : Nat) (v : W64) : (s.setReg r i j v).quar = s.quar := rfl
@[simp] theorem setReg_plotDue (s : State) (r : RegName) (i j : Nat) (v : W64) : (s.setReg r i j v).plotDue = s.plotDue := rfl
@[simp] theorem setReg_deadFrames (s : State) (r : RegName) (i j : Nat) (v : W64) : (s.setReg r i j v).deadFrames = s.deadFrames := rfl
@[simp] theorem setReg_unbacked (s : State) (r : RegName) (i j : Nat) (v : W64) : (s.setReg r i j v).unbacked = s.unbacked := rfl
@[simp] theorem setReg_flights (s : State) (r : RegName) (i j : Nat) (v : W64) : (s.setReg r i j v).flights = s.flights := rfl
@[simp] theorem setReg_nextId (s : State) (r : RegName) (i j : Nat) (v : W64) : (s.setReg r i j v).nextId = s.nextId := rfl
@[simp] theorem setReg_order (s : State) (r : RegName) (i j : Nat) (v : W64) : (s.setReg r i j v).order = s.order := rfl
@[simp] theorem setReg_locks (s : State) (r : RegName) (i j : Nat) (v : W64) : (s.setReg r i j v).locks = s.locks := rfl
@[simp] theorem setReg_credits (s : State) (r : RegName) (i j : Nat) (v : W64) : (s.setReg r i j v).credits = s.credits := rfl
@[simp] theorem setReg_slices (s : State) (r : RegName) (i j : Nat) (v : W64) : (s.setReg r i j v).slices = s.slices := rfl
@[simp] theorem setReg_waitSeen (s : State) (r : RegName) (i j : Nat) (v : W64) : (s.setReg r i j v).waitSeen = s.waitSeen := rfl
@[simp] theorem setReg_pcs (s : State) (r : RegName) (i j : Nat) (v : W64) : (s.setReg r i j v).pcs = s.pcs := rfl
@[simp] theorem setReg_holds (s : State) (r : RegName) (i j : Nat) (v : W64) : (s.setReg r i j v).holds = s.holds := rfl
@[simp] theorem setReg_throttles (s : State) (r : RegName) (i j : Nat) (v : W64) : (s.setReg r i j v).throttles = s.throttles := rfl
@[simp] theorem setReg_thrOff (s : State) (r : RegName) (i j : Nat) (v : W64) : (s.setReg r i j v).thrOff = s.thrOff := rfl
@[simp] theorem setReg_rgHits (s : State) (r : RegName) (i j : Nat) (v : W64) : (s.setReg r i j v).rgHits = s.rgHits := rfl
@[simp] theorem setReg_trkWindow (s : State) (r : RegName) (i j : Nat) (v : W64) : (s.setReg r i j v).trkWindow = s.trkWindow := rfl
@[simp] theorem setReg_hotNext (s : State) (r : RegName) (i j : Nat) (v : W64) : (s.setReg r i j v).hotNext = s.hotNext := rfl
@[simp] theorem setReg_windows (s : State) (r : RegName) (i j : Nat) (v : W64) : (s.setReg r i j v).windows = s.windows := rfl
@[simp] theorem setReg_triggers (s : State) (r : RegName) (i j : Nat) (v : W64) : (s.setReg r i j v).triggers = s.triggers := rfl
@[simp] theorem setReg_rtrFrom (s : State) (r : RegName) (i j : Nat) (v : W64) : (s.setReg r i j v).rtrFrom = s.rtrFrom := rfl
@[simp] theorem setReg_narrow (s : State) (r : RegName) (i j : Nat) (v : W64) : (s.setReg r i j v).narrow = s.narrow := rfl
@[simp] theorem setReg_groups (s : State) (r : RegName) (i j : Nat) (v : W64) : (s.setReg r i j v).groups = s.groups := rfl
@[simp] theorem setReg_groupsDue (s : State) (r : RegName) (i j : Nat) (v : W64) : (s.setReg r i j v).groupsDue = s.groupsDue := rfl
@[simp] theorem setReg_gateOn (s : State) (r : RegName) (i j : Nat) (v : W64) : (s.setReg r i j v).gateOn = s.gateOn := rfl
@[simp] theorem setReg_gateOff (s : State) (r : RegName) (i j : Nat) (v : W64) : (s.setReg r i j v).gateOff = s.gateOff := rfl
@[simp] theorem setReg_calWait (s : State) (r : RegName) (i j : Nat) (v : W64) : (s.setReg r i j v).calWait = s.calWait := rfl
@[simp] theorem setReg_latokDue (s : State) (r : RegName) (i j : Nat) (v : W64) : (s.setReg r i j v).latokDue = s.latokDue := rfl
@[simp] theorem setReg_refilled (s : State) (r : RegName) (i j : Nat) (v : W64) : (s.setReg r i j v).refilled = s.refilled := rfl
@[simp] theorem setReg_sampled (s : State) (r : RegName) (i j : Nat) (v : W64) : (s.setReg r i j v).sampled = s.sampled := rfl
@[simp] theorem setReg_histClear (s : State) (r : RegName) (i j : Nat) (v : W64) : (s.setReg r i j v).histClear = s.histClear := rfl
@[simp] theorem setReg_burstCuts (s : State) (r : RegName) (i j : Nat) (v : W64) : (s.setReg r i j v).burstCuts = s.burstCuts := rfl
@[simp] theorem setReg_stackTemp (s : State) (r : RegName) (i j : Nat) (v : W64) : (s.setReg r i j v).stackTemp = s.stackTemp := rfl
@[simp] theorem setReg_goodTemp (s : State) (r : RegName) (i j : Nat) (v : W64) : (s.setReg r i j v).goodTemp = s.goodTemp := rfl
@[simp] theorem setReg_sampleAt (s : State) (r : RegName) (i j : Nat) (v : W64) : (s.setReg r i j v).sampleAt = s.sampleAt := rfl
@[simp] theorem setReg_capUsed (s : State) (r : RegName) (i j : Nat) (v : W64) : (s.setReg r i j v).capUsed = s.capUsed := rfl
@[simp] theorem setReg_recs (s : State) (r : RegName) (i j : Nat) (v : W64) : (s.setReg r i j v).recs = s.recs := rfl
@[simp] theorem setReg_recTick (s : State) (r : RegName) (i j : Nat) (v : W64) : (s.setReg r i j v).recTick = s.recTick := rfl
@[simp] theorem setReg_recLast (s : State) (r : RegName) (i j : Nat) (v : W64) : (s.setReg r i j v).recLast = s.recLast := rfl
@[simp] theorem setReg_hist (s : State) (r : RegName) (i j : Nat) (v : W64) : (s.setReg r i j v).hist = s.hist := rfl
@[simp] theorem setReg_histFlash (s : State) (r : RegName) (i j : Nat) (v : W64) : (s.setReg r i j v).histFlash = s.histFlash := rfl
@[simp] theorem setReg_migs (s : State) (r : RegName) (i j : Nat) (v : W64) : (s.setReg r i j v).migs = s.migs := rfl
@[simp] theorem setReg_migSeq (s : State) (r : RegName) (i j : Nat) (v : W64) : (s.setReg r i j v).migSeq = s.migSeq := rfl
@[simp] theorem setReg_passes (s : State) (r : RegName) (i j : Nat) (v : W64) : (s.setReg r i j v).passes = s.passes := rfl
@[simp] theorem setReg_frzOps (s : State) (r : RegName) (i j : Nat) (v : W64) : (s.setReg r i j v).frzOps = s.frzOps := rfl
@[simp] theorem setReg_migWant (s : State) (r : RegName) (i j : Nat) (v : W64) : (s.setReg r i j v).migWant = s.migWant := rfl
@[simp] theorem setReg_pprRows (s : State) (r : RegName) (i j : Nat) (v : W64) : (s.setReg r i j v).pprRows = s.pprRows := rfl
@[simp] theorem setReg_tests (s : State) (r : RegName) (i j : Nat) (v : W64) : (s.setReg r i j v).tests = s.tests := rfl
@[simp] theorem setReg_scrubs (s : State) (r : RegName) (i j : Nat) (v : W64) : (s.setReg r i j v).scrubs = s.scrubs := rfl
@[simp] theorem setReg_sec (s : State) (r : RegName) (i j : Nat) (v : W64) : (s.setReg r i j v).sec = s.sec := rfl
@[simp] theorem setReg_rings (s : State) (r : RegName) (i j : Nat) (v : W64) : (s.setReg r i j v).rings = s.rings := rfl
@[simp] theorem setReg_lnts (s : State) (r : RegName) (i j : Nat) (v : W64) : (s.setReg r i j v).lnts = s.lnts := rfl
@[simp] theorem setReg_posies (s : State) (r : RegName) (i j : Nat) (v : W64) : (s.setReg r i j v).posies = s.posies := rfl
@[simp] theorem setReg_pmus (s : State) (r : RegName) (i j : Nat) (v : W64) : (s.setReg r i j v).pmus = s.pmus := rfl
@[simp] theorem setReg_fw (s : State) (r : RegName) (i j : Nat) (v : W64) : (s.setReg r i j v).fw = s.fw := rfl
@[simp] theorem setReg_pw (s : State) (r : RegName) (i j : Nat) (v : W64) : (s.setReg r i j v).pw = s.pw := rfl
@[simp] theorem setReg_mir (s : State) (r : RegName) (i j : Nat) (v : W64) : (s.setReg r i j v).mir = s.mir := rfl
@[simp] theorem setReg_advised (s : State) (r : RegName) (i j : Nat) (v : W64) : (s.setReg r i j v).advised = s.advised := rfl

@[simp] theorem wr_pending (s : State) (f : Fld) (v i j : Nat) : (s.wr f v i j).pending = s.pending := rfl
@[simp] theorem wr_endpoint (s : State) (f : Fld) (v i j : Nat) : (s.wr f v i j).endpoint = s.endpoint := rfl
@[simp] theorem wr_clk (s : State) (f : Fld) (v i j : Nat) : (s.wr f v i j).clk = s.clk := rfl
@[simp] theorem wr_regs0 (s : State) (f : Fld) (v i j : Nat) : (s.wr f v i j).regs0 = s.regs0 := rfl
@[simp] theorem wr_regs1 (s : State) (f : Fld) (v i j : Nat) : (s.wr f v i j).regs1 = s.regs1 := rfl
@[simp] theorem wr_events (s : State) (f : Fld) (v i j : Nat) : (s.wr f v i j).events = s.events := rfl
@[simp] theorem wr_bytes (s : State) (f : Fld) (v i j : Nat) : (s.wr f v i j).bytes = s.bytes := rfl
@[simp] theorem wr_hiLatch (s : State) (f : Fld) (v i j : Nat) : (s.wr f v i j).hiLatch = s.hiLatch := rfl
@[simp] theorem wr_out (s : State) (f : Fld) (v i j : Nat) : (s.wr f v i j).out = s.out := rfl
@[simp] theorem wr_free (s : State) (f : Fld) (v i j : Nat) : (s.wr f v i j).free = s.free := rfl
@[simp] theorem wr_mem (s : State) (f : Fld) (v i j : Nat) : (s.wr f v i j).mem = s.mem := rfl
@[simp] theorem wr_fills (s : State) (f : Fld) (v i j : Nat) : (s.wr f v i j).fills = s.fills := rfl
@[simp] theorem wr_plots (s : State) (f : Fld) (v i j : Nat) : (s.wr f v i j).plots = s.plots := rfl
@[simp] theorem wr_quar (s : State) (f : Fld) (v i j : Nat) : (s.wr f v i j).quar = s.quar := rfl
@[simp] theorem wr_plotDue (s : State) (f : Fld) (v i j : Nat) : (s.wr f v i j).plotDue = s.plotDue := rfl
@[simp] theorem wr_deadFrames (s : State) (f : Fld) (v i j : Nat) : (s.wr f v i j).deadFrames = s.deadFrames := rfl
@[simp] theorem wr_unbacked (s : State) (f : Fld) (v i j : Nat) : (s.wr f v i j).unbacked = s.unbacked := rfl
@[simp] theorem wr_flights (s : State) (f : Fld) (v i j : Nat) : (s.wr f v i j).flights = s.flights := rfl
@[simp] theorem wr_nextId (s : State) (f : Fld) (v i j : Nat) : (s.wr f v i j).nextId = s.nextId := rfl
@[simp] theorem wr_order (s : State) (f : Fld) (v i j : Nat) : (s.wr f v i j).order = s.order := rfl
@[simp] theorem wr_locks (s : State) (f : Fld) (v i j : Nat) : (s.wr f v i j).locks = s.locks := rfl
@[simp] theorem wr_credits (s : State) (f : Fld) (v i j : Nat) : (s.wr f v i j).credits = s.credits := rfl
@[simp] theorem wr_slices (s : State) (f : Fld) (v i j : Nat) : (s.wr f v i j).slices = s.slices := rfl
@[simp] theorem wr_waitSeen (s : State) (f : Fld) (v i j : Nat) : (s.wr f v i j).waitSeen = s.waitSeen := rfl
@[simp] theorem wr_pcs (s : State) (f : Fld) (v i j : Nat) : (s.wr f v i j).pcs = s.pcs := rfl
@[simp] theorem wr_holds (s : State) (f : Fld) (v i j : Nat) : (s.wr f v i j).holds = s.holds := rfl
@[simp] theorem wr_throttles (s : State) (f : Fld) (v i j : Nat) : (s.wr f v i j).throttles = s.throttles := rfl
@[simp] theorem wr_thrOff (s : State) (f : Fld) (v i j : Nat) : (s.wr f v i j).thrOff = s.thrOff := rfl
@[simp] theorem wr_rgHits (s : State) (f : Fld) (v i j : Nat) : (s.wr f v i j).rgHits = s.rgHits := rfl
@[simp] theorem wr_trkWindow (s : State) (f : Fld) (v i j : Nat) : (s.wr f v i j).trkWindow = s.trkWindow := rfl
@[simp] theorem wr_hotNext (s : State) (f : Fld) (v i j : Nat) : (s.wr f v i j).hotNext = s.hotNext := rfl
@[simp] theorem wr_windows (s : State) (f : Fld) (v i j : Nat) : (s.wr f v i j).windows = s.windows := rfl
@[simp] theorem wr_triggers (s : State) (f : Fld) (v i j : Nat) : (s.wr f v i j).triggers = s.triggers := rfl
@[simp] theorem wr_rtrFrom (s : State) (f : Fld) (v i j : Nat) : (s.wr f v i j).rtrFrom = s.rtrFrom := rfl
@[simp] theorem wr_narrow (s : State) (f : Fld) (v i j : Nat) : (s.wr f v i j).narrow = s.narrow := rfl
@[simp] theorem wr_groups (s : State) (f : Fld) (v i j : Nat) : (s.wr f v i j).groups = s.groups := rfl
@[simp] theorem wr_groupsDue (s : State) (f : Fld) (v i j : Nat) : (s.wr f v i j).groupsDue = s.groupsDue := rfl
@[simp] theorem wr_gateOn (s : State) (f : Fld) (v i j : Nat) : (s.wr f v i j).gateOn = s.gateOn := rfl
@[simp] theorem wr_gateOff (s : State) (f : Fld) (v i j : Nat) : (s.wr f v i j).gateOff = s.gateOff := rfl
@[simp] theorem wr_calWait (s : State) (f : Fld) (v i j : Nat) : (s.wr f v i j).calWait = s.calWait := rfl
@[simp] theorem wr_latokDue (s : State) (f : Fld) (v i j : Nat) : (s.wr f v i j).latokDue = s.latokDue := rfl
@[simp] theorem wr_refilled (s : State) (f : Fld) (v i j : Nat) : (s.wr f v i j).refilled = s.refilled := rfl
@[simp] theorem wr_sampled (s : State) (f : Fld) (v i j : Nat) : (s.wr f v i j).sampled = s.sampled := rfl
@[simp] theorem wr_histClear (s : State) (f : Fld) (v i j : Nat) : (s.wr f v i j).histClear = s.histClear := rfl
@[simp] theorem wr_burstCuts (s : State) (f : Fld) (v i j : Nat) : (s.wr f v i j).burstCuts = s.burstCuts := rfl
@[simp] theorem wr_stackTemp (s : State) (f : Fld) (v i j : Nat) : (s.wr f v i j).stackTemp = s.stackTemp := rfl
@[simp] theorem wr_goodTemp (s : State) (f : Fld) (v i j : Nat) : (s.wr f v i j).goodTemp = s.goodTemp := rfl
@[simp] theorem wr_sampleAt (s : State) (f : Fld) (v i j : Nat) : (s.wr f v i j).sampleAt = s.sampleAt := rfl
@[simp] theorem wr_capUsed (s : State) (f : Fld) (v i j : Nat) : (s.wr f v i j).capUsed = s.capUsed := rfl
@[simp] theorem wr_recs (s : State) (f : Fld) (v i j : Nat) : (s.wr f v i j).recs = s.recs := rfl
@[simp] theorem wr_recTick (s : State) (f : Fld) (v i j : Nat) : (s.wr f v i j).recTick = s.recTick := rfl
@[simp] theorem wr_recLast (s : State) (f : Fld) (v i j : Nat) : (s.wr f v i j).recLast = s.recLast := rfl
@[simp] theorem wr_hist (s : State) (f : Fld) (v i j : Nat) : (s.wr f v i j).hist = s.hist := rfl
@[simp] theorem wr_histFlash (s : State) (f : Fld) (v i j : Nat) : (s.wr f v i j).histFlash = s.histFlash := rfl
@[simp] theorem wr_migs (s : State) (f : Fld) (v i j : Nat) : (s.wr f v i j).migs = s.migs := rfl
@[simp] theorem wr_migSeq (s : State) (f : Fld) (v i j : Nat) : (s.wr f v i j).migSeq = s.migSeq := rfl
@[simp] theorem wr_passes (s : State) (f : Fld) (v i j : Nat) : (s.wr f v i j).passes = s.passes := rfl
@[simp] theorem wr_frzOps (s : State) (f : Fld) (v i j : Nat) : (s.wr f v i j).frzOps = s.frzOps := rfl
@[simp] theorem wr_migWant (s : State) (f : Fld) (v i j : Nat) : (s.wr f v i j).migWant = s.migWant := rfl
@[simp] theorem wr_pprRows (s : State) (f : Fld) (v i j : Nat) : (s.wr f v i j).pprRows = s.pprRows := rfl
@[simp] theorem wr_tests (s : State) (f : Fld) (v i j : Nat) : (s.wr f v i j).tests = s.tests := rfl
@[simp] theorem wr_scrubs (s : State) (f : Fld) (v i j : Nat) : (s.wr f v i j).scrubs = s.scrubs := rfl
@[simp] theorem wr_sec (s : State) (f : Fld) (v i j : Nat) : (s.wr f v i j).sec = s.sec := rfl
@[simp] theorem wr_rings (s : State) (f : Fld) (v i j : Nat) : (s.wr f v i j).rings = s.rings := rfl
@[simp] theorem wr_lnts (s : State) (f : Fld) (v i j : Nat) : (s.wr f v i j).lnts = s.lnts := rfl
@[simp] theorem wr_posies (s : State) (f : Fld) (v i j : Nat) : (s.wr f v i j).posies = s.posies := rfl
@[simp] theorem wr_pmus (s : State) (f : Fld) (v i j : Nat) : (s.wr f v i j).pmus = s.pmus := rfl
@[simp] theorem wr_fw (s : State) (f : Fld) (v i j : Nat) : (s.wr f v i j).fw = s.fw := rfl
@[simp] theorem wr_pw (s : State) (f : Fld) (v i j : Nat) : (s.wr f v i j).pw = s.pw := rfl
@[simp] theorem wr_mir (s : State) (f : Fld) (v i j : Nat) : (s.wr f v i j).mir = s.mir := rfl
@[simp] theorem wr_advised (s : State) (f : Fld) (v i j : Nat) : (s.wr f v i j).advised = s.advised := rfl

@[simp] theorem incSat_pending (s : State) (f : Fld) (i j n : Nat) : (s.incSat f i j n).pending = s.pending := rfl
@[simp] theorem incSat_endpoint (s : State) (f : Fld) (i j n : Nat) : (s.incSat f i j n).endpoint = s.endpoint := rfl
@[simp] theorem incSat_clk (s : State) (f : Fld) (i j n : Nat) : (s.incSat f i j n).clk = s.clk := rfl
@[simp] theorem incSat_regs0 (s : State) (f : Fld) (i j n : Nat) : (s.incSat f i j n).regs0 = s.regs0 := rfl
@[simp] theorem incSat_regs1 (s : State) (f : Fld) (i j n : Nat) : (s.incSat f i j n).regs1 = s.regs1 := rfl
@[simp] theorem incSat_events (s : State) (f : Fld) (i j n : Nat) : (s.incSat f i j n).events = s.events := rfl
@[simp] theorem incSat_bytes (s : State) (f : Fld) (i j n : Nat) : (s.incSat f i j n).bytes = s.bytes := rfl
@[simp] theorem incSat_hiLatch (s : State) (f : Fld) (i j n : Nat) : (s.incSat f i j n).hiLatch = s.hiLatch := rfl
@[simp] theorem incSat_out (s : State) (f : Fld) (i j n : Nat) : (s.incSat f i j n).out = s.out := rfl
@[simp] theorem incSat_free (s : State) (f : Fld) (i j n : Nat) : (s.incSat f i j n).free = s.free := rfl
@[simp] theorem incSat_mem (s : State) (f : Fld) (i j n : Nat) : (s.incSat f i j n).mem = s.mem := rfl
@[simp] theorem incSat_fills (s : State) (f : Fld) (i j n : Nat) : (s.incSat f i j n).fills = s.fills := rfl
@[simp] theorem incSat_plots (s : State) (f : Fld) (i j n : Nat) : (s.incSat f i j n).plots = s.plots := rfl
@[simp] theorem incSat_quar (s : State) (f : Fld) (i j n : Nat) : (s.incSat f i j n).quar = s.quar := rfl
@[simp] theorem incSat_plotDue (s : State) (f : Fld) (i j n : Nat) : (s.incSat f i j n).plotDue = s.plotDue := rfl
@[simp] theorem incSat_deadFrames (s : State) (f : Fld) (i j n : Nat) : (s.incSat f i j n).deadFrames = s.deadFrames := rfl
@[simp] theorem incSat_unbacked (s : State) (f : Fld) (i j n : Nat) : (s.incSat f i j n).unbacked = s.unbacked := rfl
@[simp] theorem incSat_flights (s : State) (f : Fld) (i j n : Nat) : (s.incSat f i j n).flights = s.flights := rfl
@[simp] theorem incSat_nextId (s : State) (f : Fld) (i j n : Nat) : (s.incSat f i j n).nextId = s.nextId := rfl
@[simp] theorem incSat_order (s : State) (f : Fld) (i j n : Nat) : (s.incSat f i j n).order = s.order := rfl
@[simp] theorem incSat_locks (s : State) (f : Fld) (i j n : Nat) : (s.incSat f i j n).locks = s.locks := rfl
@[simp] theorem incSat_credits (s : State) (f : Fld) (i j n : Nat) : (s.incSat f i j n).credits = s.credits := rfl
@[simp] theorem incSat_slices (s : State) (f : Fld) (i j n : Nat) : (s.incSat f i j n).slices = s.slices := rfl
@[simp] theorem incSat_waitSeen (s : State) (f : Fld) (i j n : Nat) : (s.incSat f i j n).waitSeen = s.waitSeen := rfl
@[simp] theorem incSat_pcs (s : State) (f : Fld) (i j n : Nat) : (s.incSat f i j n).pcs = s.pcs := rfl
@[simp] theorem incSat_holds (s : State) (f : Fld) (i j n : Nat) : (s.incSat f i j n).holds = s.holds := rfl
@[simp] theorem incSat_throttles (s : State) (f : Fld) (i j n : Nat) : (s.incSat f i j n).throttles = s.throttles := rfl
@[simp] theorem incSat_thrOff (s : State) (f : Fld) (i j n : Nat) : (s.incSat f i j n).thrOff = s.thrOff := rfl
@[simp] theorem incSat_rgHits (s : State) (f : Fld) (i j n : Nat) : (s.incSat f i j n).rgHits = s.rgHits := rfl
@[simp] theorem incSat_trkWindow (s : State) (f : Fld) (i j n : Nat) : (s.incSat f i j n).trkWindow = s.trkWindow := rfl
@[simp] theorem incSat_hotNext (s : State) (f : Fld) (i j n : Nat) : (s.incSat f i j n).hotNext = s.hotNext := rfl
@[simp] theorem incSat_windows (s : State) (f : Fld) (i j n : Nat) : (s.incSat f i j n).windows = s.windows := rfl
@[simp] theorem incSat_triggers (s : State) (f : Fld) (i j n : Nat) : (s.incSat f i j n).triggers = s.triggers := rfl
@[simp] theorem incSat_rtrFrom (s : State) (f : Fld) (i j n : Nat) : (s.incSat f i j n).rtrFrom = s.rtrFrom := rfl
@[simp] theorem incSat_narrow (s : State) (f : Fld) (i j n : Nat) : (s.incSat f i j n).narrow = s.narrow := rfl
@[simp] theorem incSat_groups (s : State) (f : Fld) (i j n : Nat) : (s.incSat f i j n).groups = s.groups := rfl
@[simp] theorem incSat_groupsDue (s : State) (f : Fld) (i j n : Nat) : (s.incSat f i j n).groupsDue = s.groupsDue := rfl
@[simp] theorem incSat_gateOn (s : State) (f : Fld) (i j n : Nat) : (s.incSat f i j n).gateOn = s.gateOn := rfl
@[simp] theorem incSat_gateOff (s : State) (f : Fld) (i j n : Nat) : (s.incSat f i j n).gateOff = s.gateOff := rfl
@[simp] theorem incSat_calWait (s : State) (f : Fld) (i j n : Nat) : (s.incSat f i j n).calWait = s.calWait := rfl
@[simp] theorem incSat_latokDue (s : State) (f : Fld) (i j n : Nat) : (s.incSat f i j n).latokDue = s.latokDue := rfl
@[simp] theorem incSat_refilled (s : State) (f : Fld) (i j n : Nat) : (s.incSat f i j n).refilled = s.refilled := rfl
@[simp] theorem incSat_sampled (s : State) (f : Fld) (i j n : Nat) : (s.incSat f i j n).sampled = s.sampled := rfl
@[simp] theorem incSat_histClear (s : State) (f : Fld) (i j n : Nat) : (s.incSat f i j n).histClear = s.histClear := rfl
@[simp] theorem incSat_burstCuts (s : State) (f : Fld) (i j n : Nat) : (s.incSat f i j n).burstCuts = s.burstCuts := rfl
@[simp] theorem incSat_stackTemp (s : State) (f : Fld) (i j n : Nat) : (s.incSat f i j n).stackTemp = s.stackTemp := rfl
@[simp] theorem incSat_goodTemp (s : State) (f : Fld) (i j n : Nat) : (s.incSat f i j n).goodTemp = s.goodTemp := rfl
@[simp] theorem incSat_sampleAt (s : State) (f : Fld) (i j n : Nat) : (s.incSat f i j n).sampleAt = s.sampleAt := rfl
@[simp] theorem incSat_capUsed (s : State) (f : Fld) (i j n : Nat) : (s.incSat f i j n).capUsed = s.capUsed := rfl
@[simp] theorem incSat_recs (s : State) (f : Fld) (i j n : Nat) : (s.incSat f i j n).recs = s.recs := rfl
@[simp] theorem incSat_recTick (s : State) (f : Fld) (i j n : Nat) : (s.incSat f i j n).recTick = s.recTick := rfl
@[simp] theorem incSat_recLast (s : State) (f : Fld) (i j n : Nat) : (s.incSat f i j n).recLast = s.recLast := rfl
@[simp] theorem incSat_hist (s : State) (f : Fld) (i j n : Nat) : (s.incSat f i j n).hist = s.hist := rfl
@[simp] theorem incSat_histFlash (s : State) (f : Fld) (i j n : Nat) : (s.incSat f i j n).histFlash = s.histFlash := rfl
@[simp] theorem incSat_migs (s : State) (f : Fld) (i j n : Nat) : (s.incSat f i j n).migs = s.migs := rfl
@[simp] theorem incSat_migSeq (s : State) (f : Fld) (i j n : Nat) : (s.incSat f i j n).migSeq = s.migSeq := rfl
@[simp] theorem incSat_passes (s : State) (f : Fld) (i j n : Nat) : (s.incSat f i j n).passes = s.passes := rfl
@[simp] theorem incSat_frzOps (s : State) (f : Fld) (i j n : Nat) : (s.incSat f i j n).frzOps = s.frzOps := rfl
@[simp] theorem incSat_migWant (s : State) (f : Fld) (i j n : Nat) : (s.incSat f i j n).migWant = s.migWant := rfl
@[simp] theorem incSat_pprRows (s : State) (f : Fld) (i j n : Nat) : (s.incSat f i j n).pprRows = s.pprRows := rfl
@[simp] theorem incSat_tests (s : State) (f : Fld) (i j n : Nat) : (s.incSat f i j n).tests = s.tests := rfl
@[simp] theorem incSat_scrubs (s : State) (f : Fld) (i j n : Nat) : (s.incSat f i j n).scrubs = s.scrubs := rfl
@[simp] theorem incSat_sec (s : State) (f : Fld) (i j n : Nat) : (s.incSat f i j n).sec = s.sec := rfl
@[simp] theorem incSat_rings (s : State) (f : Fld) (i j n : Nat) : (s.incSat f i j n).rings = s.rings := rfl
@[simp] theorem incSat_lnts (s : State) (f : Fld) (i j n : Nat) : (s.incSat f i j n).lnts = s.lnts := rfl
@[simp] theorem incSat_posies (s : State) (f : Fld) (i j n : Nat) : (s.incSat f i j n).posies = s.posies := rfl
@[simp] theorem incSat_pmus (s : State) (f : Fld) (i j n : Nat) : (s.incSat f i j n).pmus = s.pmus := rfl
@[simp] theorem incSat_fw (s : State) (f : Fld) (i j n : Nat) : (s.incSat f i j n).fw = s.fw := rfl
@[simp] theorem incSat_pw (s : State) (f : Fld) (i j n : Nat) : (s.incSat f i j n).pw = s.pw := rfl
@[simp] theorem incSat_mir (s : State) (f : Fld) (i j n : Nat) : (s.incSat f i j n).mir = s.mir := rfl
@[simp] theorem incSat_advised (s : State) (f : Fld) (i j n : Nat) : (s.incSat f i j n).advised = s.advised := rfl

@[simp] theorem raise_pending (s : State) (f : Fld) (i j : Nat) : (s.raise f i j).pending = s.pending := rfl
@[simp] theorem raise_endpoint (s : State) (f : Fld) (i j : Nat) : (s.raise f i j).endpoint = s.endpoint := rfl
@[simp] theorem raise_clk (s : State) (f : Fld) (i j : Nat) : (s.raise f i j).clk = s.clk := rfl
@[simp] theorem raise_regs0 (s : State) (f : Fld) (i j : Nat) : (s.raise f i j).regs0 = s.regs0 := rfl
@[simp] theorem raise_regs1 (s : State) (f : Fld) (i j : Nat) : (s.raise f i j).regs1 = s.regs1 := rfl
@[simp] theorem raise_bytes (s : State) (f : Fld) (i j : Nat) : (s.raise f i j).bytes = s.bytes := rfl
@[simp] theorem raise_hiLatch (s : State) (f : Fld) (i j : Nat) : (s.raise f i j).hiLatch = s.hiLatch := rfl
@[simp] theorem raise_out (s : State) (f : Fld) (i j : Nat) : (s.raise f i j).out = s.out := rfl
@[simp] theorem raise_free (s : State) (f : Fld) (i j : Nat) : (s.raise f i j).free = s.free := rfl
@[simp] theorem raise_mem (s : State) (f : Fld) (i j : Nat) : (s.raise f i j).mem = s.mem := rfl
@[simp] theorem raise_fills (s : State) (f : Fld) (i j : Nat) : (s.raise f i j).fills = s.fills := rfl
@[simp] theorem raise_plots (s : State) (f : Fld) (i j : Nat) : (s.raise f i j).plots = s.plots := rfl
@[simp] theorem raise_quar (s : State) (f : Fld) (i j : Nat) : (s.raise f i j).quar = s.quar := rfl
@[simp] theorem raise_plotDue (s : State) (f : Fld) (i j : Nat) : (s.raise f i j).plotDue = s.plotDue := rfl
@[simp] theorem raise_deadFrames (s : State) (f : Fld) (i j : Nat) : (s.raise f i j).deadFrames = s.deadFrames := rfl
@[simp] theorem raise_unbacked (s : State) (f : Fld) (i j : Nat) : (s.raise f i j).unbacked = s.unbacked := rfl
@[simp] theorem raise_flights (s : State) (f : Fld) (i j : Nat) : (s.raise f i j).flights = s.flights := rfl
@[simp] theorem raise_nextId (s : State) (f : Fld) (i j : Nat) : (s.raise f i j).nextId = s.nextId := rfl
@[simp] theorem raise_order (s : State) (f : Fld) (i j : Nat) : (s.raise f i j).order = s.order := rfl
@[simp] theorem raise_locks (s : State) (f : Fld) (i j : Nat) : (s.raise f i j).locks = s.locks := rfl
@[simp] theorem raise_credits (s : State) (f : Fld) (i j : Nat) : (s.raise f i j).credits = s.credits := rfl
@[simp] theorem raise_slices (s : State) (f : Fld) (i j : Nat) : (s.raise f i j).slices = s.slices := rfl
@[simp] theorem raise_waitSeen (s : State) (f : Fld) (i j : Nat) : (s.raise f i j).waitSeen = s.waitSeen := rfl
@[simp] theorem raise_pcs (s : State) (f : Fld) (i j : Nat) : (s.raise f i j).pcs = s.pcs := rfl
@[simp] theorem raise_holds (s : State) (f : Fld) (i j : Nat) : (s.raise f i j).holds = s.holds := rfl
@[simp] theorem raise_throttles (s : State) (f : Fld) (i j : Nat) : (s.raise f i j).throttles = s.throttles := rfl
@[simp] theorem raise_thrOff (s : State) (f : Fld) (i j : Nat) : (s.raise f i j).thrOff = s.thrOff := rfl
@[simp] theorem raise_rgHits (s : State) (f : Fld) (i j : Nat) : (s.raise f i j).rgHits = s.rgHits := rfl
@[simp] theorem raise_trkWindow (s : State) (f : Fld) (i j : Nat) : (s.raise f i j).trkWindow = s.trkWindow := rfl
@[simp] theorem raise_hotNext (s : State) (f : Fld) (i j : Nat) : (s.raise f i j).hotNext = s.hotNext := rfl
@[simp] theorem raise_windows (s : State) (f : Fld) (i j : Nat) : (s.raise f i j).windows = s.windows := rfl
@[simp] theorem raise_triggers (s : State) (f : Fld) (i j : Nat) : (s.raise f i j).triggers = s.triggers := rfl
@[simp] theorem raise_rtrFrom (s : State) (f : Fld) (i j : Nat) : (s.raise f i j).rtrFrom = s.rtrFrom := rfl
@[simp] theorem raise_narrow (s : State) (f : Fld) (i j : Nat) : (s.raise f i j).narrow = s.narrow := rfl
@[simp] theorem raise_groups (s : State) (f : Fld) (i j : Nat) : (s.raise f i j).groups = s.groups := rfl
@[simp] theorem raise_groupsDue (s : State) (f : Fld) (i j : Nat) : (s.raise f i j).groupsDue = s.groupsDue := rfl
@[simp] theorem raise_gateOn (s : State) (f : Fld) (i j : Nat) : (s.raise f i j).gateOn = s.gateOn := rfl
@[simp] theorem raise_gateOff (s : State) (f : Fld) (i j : Nat) : (s.raise f i j).gateOff = s.gateOff := rfl
@[simp] theorem raise_calWait (s : State) (f : Fld) (i j : Nat) : (s.raise f i j).calWait = s.calWait := rfl
@[simp] theorem raise_latokDue (s : State) (f : Fld) (i j : Nat) : (s.raise f i j).latokDue = s.latokDue := rfl
@[simp] theorem raise_refilled (s : State) (f : Fld) (i j : Nat) : (s.raise f i j).refilled = s.refilled := rfl
@[simp] theorem raise_sampled (s : State) (f : Fld) (i j : Nat) : (s.raise f i j).sampled = s.sampled := rfl
@[simp] theorem raise_histClear (s : State) (f : Fld) (i j : Nat) : (s.raise f i j).histClear = s.histClear := rfl
@[simp] theorem raise_burstCuts (s : State) (f : Fld) (i j : Nat) : (s.raise f i j).burstCuts = s.burstCuts := rfl
@[simp] theorem raise_stackTemp (s : State) (f : Fld) (i j : Nat) : (s.raise f i j).stackTemp = s.stackTemp := rfl
@[simp] theorem raise_goodTemp (s : State) (f : Fld) (i j : Nat) : (s.raise f i j).goodTemp = s.goodTemp := rfl
@[simp] theorem raise_sampleAt (s : State) (f : Fld) (i j : Nat) : (s.raise f i j).sampleAt = s.sampleAt := rfl
@[simp] theorem raise_capUsed (s : State) (f : Fld) (i j : Nat) : (s.raise f i j).capUsed = s.capUsed := rfl
@[simp] theorem raise_recs (s : State) (f : Fld) (i j : Nat) : (s.raise f i j).recs = s.recs := rfl
@[simp] theorem raise_recTick (s : State) (f : Fld) (i j : Nat) : (s.raise f i j).recTick = s.recTick := rfl
@[simp] theorem raise_recLast (s : State) (f : Fld) (i j : Nat) : (s.raise f i j).recLast = s.recLast := rfl
@[simp] theorem raise_hist (s : State) (f : Fld) (i j : Nat) : (s.raise f i j).hist = s.hist := rfl
@[simp] theorem raise_histFlash (s : State) (f : Fld) (i j : Nat) : (s.raise f i j).histFlash = s.histFlash := rfl
@[simp] theorem raise_migs (s : State) (f : Fld) (i j : Nat) : (s.raise f i j).migs = s.migs := rfl
@[simp] theorem raise_migSeq (s : State) (f : Fld) (i j : Nat) : (s.raise f i j).migSeq = s.migSeq := rfl
@[simp] theorem raise_passes (s : State) (f : Fld) (i j : Nat) : (s.raise f i j).passes = s.passes := rfl
@[simp] theorem raise_frzOps (s : State) (f : Fld) (i j : Nat) : (s.raise f i j).frzOps = s.frzOps := rfl
@[simp] theorem raise_migWant (s : State) (f : Fld) (i j : Nat) : (s.raise f i j).migWant = s.migWant := rfl
@[simp] theorem raise_pprRows (s : State) (f : Fld) (i j : Nat) : (s.raise f i j).pprRows = s.pprRows := rfl
@[simp] theorem raise_tests (s : State) (f : Fld) (i j : Nat) : (s.raise f i j).tests = s.tests := rfl
@[simp] theorem raise_scrubs (s : State) (f : Fld) (i j : Nat) : (s.raise f i j).scrubs = s.scrubs := rfl
@[simp] theorem raise_sec (s : State) (f : Fld) (i j : Nat) : (s.raise f i j).sec = s.sec := rfl
@[simp] theorem raise_rings (s : State) (f : Fld) (i j : Nat) : (s.raise f i j).rings = s.rings := rfl
@[simp] theorem raise_lnts (s : State) (f : Fld) (i j : Nat) : (s.raise f i j).lnts = s.lnts := rfl
@[simp] theorem raise_posies (s : State) (f : Fld) (i j : Nat) : (s.raise f i j).posies = s.posies := rfl
@[simp] theorem raise_pmus (s : State) (f : Fld) (i j : Nat) : (s.raise f i j).pmus = s.pmus := rfl
@[simp] theorem raise_fw (s : State) (f : Fld) (i j : Nat) : (s.raise f i j).fw = s.fw := rfl
@[simp] theorem raise_pw (s : State) (f : Fld) (i j : Nat) : (s.raise f i j).pw = s.pw := rfl
@[simp] theorem raise_mir (s : State) (f : Fld) (i j : Nat) : (s.raise f i j).mir = s.mir := rfl
@[simp] theorem raise_advised (s : State) (f : Fld) (i j : Nat) : (s.raise f i j).advised = s.advised := rfl

@[simp] theorem raiseBit_pending (s : State) (f : Fld) (b i j : Nat) : (s.raiseBit f b i j).pending = s.pending := rfl
@[simp] theorem raiseBit_endpoint (s : State) (f : Fld) (b i j : Nat) : (s.raiseBit f b i j).endpoint = s.endpoint := rfl
@[simp] theorem raiseBit_clk (s : State) (f : Fld) (b i j : Nat) : (s.raiseBit f b i j).clk = s.clk := rfl
@[simp] theorem raiseBit_regs0 (s : State) (f : Fld) (b i j : Nat) : (s.raiseBit f b i j).regs0 = s.regs0 := rfl
@[simp] theorem raiseBit_regs1 (s : State) (f : Fld) (b i j : Nat) : (s.raiseBit f b i j).regs1 = s.regs1 := rfl
@[simp] theorem raiseBit_bytes (s : State) (f : Fld) (b i j : Nat) : (s.raiseBit f b i j).bytes = s.bytes := rfl
@[simp] theorem raiseBit_hiLatch (s : State) (f : Fld) (b i j : Nat) : (s.raiseBit f b i j).hiLatch = s.hiLatch := rfl
@[simp] theorem raiseBit_out (s : State) (f : Fld) (b i j : Nat) : (s.raiseBit f b i j).out = s.out := rfl
@[simp] theorem raiseBit_free (s : State) (f : Fld) (b i j : Nat) : (s.raiseBit f b i j).free = s.free := rfl
@[simp] theorem raiseBit_mem (s : State) (f : Fld) (b i j : Nat) : (s.raiseBit f b i j).mem = s.mem := rfl
@[simp] theorem raiseBit_fills (s : State) (f : Fld) (b i j : Nat) : (s.raiseBit f b i j).fills = s.fills := rfl
@[simp] theorem raiseBit_plots (s : State) (f : Fld) (b i j : Nat) : (s.raiseBit f b i j).plots = s.plots := rfl
@[simp] theorem raiseBit_quar (s : State) (f : Fld) (b i j : Nat) : (s.raiseBit f b i j).quar = s.quar := rfl
@[simp] theorem raiseBit_plotDue (s : State) (f : Fld) (b i j : Nat) : (s.raiseBit f b i j).plotDue = s.plotDue := rfl
@[simp] theorem raiseBit_deadFrames (s : State) (f : Fld) (b i j : Nat) : (s.raiseBit f b i j).deadFrames = s.deadFrames := rfl
@[simp] theorem raiseBit_unbacked (s : State) (f : Fld) (b i j : Nat) : (s.raiseBit f b i j).unbacked = s.unbacked := rfl
@[simp] theorem raiseBit_flights (s : State) (f : Fld) (b i j : Nat) : (s.raiseBit f b i j).flights = s.flights := rfl
@[simp] theorem raiseBit_nextId (s : State) (f : Fld) (b i j : Nat) : (s.raiseBit f b i j).nextId = s.nextId := rfl
@[simp] theorem raiseBit_order (s : State) (f : Fld) (b i j : Nat) : (s.raiseBit f b i j).order = s.order := rfl
@[simp] theorem raiseBit_locks (s : State) (f : Fld) (b i j : Nat) : (s.raiseBit f b i j).locks = s.locks := rfl
@[simp] theorem raiseBit_credits (s : State) (f : Fld) (b i j : Nat) : (s.raiseBit f b i j).credits = s.credits := rfl
@[simp] theorem raiseBit_slices (s : State) (f : Fld) (b i j : Nat) : (s.raiseBit f b i j).slices = s.slices := rfl
@[simp] theorem raiseBit_waitSeen (s : State) (f : Fld) (b i j : Nat) : (s.raiseBit f b i j).waitSeen = s.waitSeen := rfl
@[simp] theorem raiseBit_pcs (s : State) (f : Fld) (b i j : Nat) : (s.raiseBit f b i j).pcs = s.pcs := rfl
@[simp] theorem raiseBit_holds (s : State) (f : Fld) (b i j : Nat) : (s.raiseBit f b i j).holds = s.holds := rfl
@[simp] theorem raiseBit_throttles (s : State) (f : Fld) (b i j : Nat) : (s.raiseBit f b i j).throttles = s.throttles := rfl
@[simp] theorem raiseBit_thrOff (s : State) (f : Fld) (b i j : Nat) : (s.raiseBit f b i j).thrOff = s.thrOff := rfl
@[simp] theorem raiseBit_rgHits (s : State) (f : Fld) (b i j : Nat) : (s.raiseBit f b i j).rgHits = s.rgHits := rfl
@[simp] theorem raiseBit_trkWindow (s : State) (f : Fld) (b i j : Nat) : (s.raiseBit f b i j).trkWindow = s.trkWindow := rfl
@[simp] theorem raiseBit_hotNext (s : State) (f : Fld) (b i j : Nat) : (s.raiseBit f b i j).hotNext = s.hotNext := rfl
@[simp] theorem raiseBit_windows (s : State) (f : Fld) (b i j : Nat) : (s.raiseBit f b i j).windows = s.windows := rfl
@[simp] theorem raiseBit_triggers (s : State) (f : Fld) (b i j : Nat) : (s.raiseBit f b i j).triggers = s.triggers := rfl
@[simp] theorem raiseBit_rtrFrom (s : State) (f : Fld) (b i j : Nat) : (s.raiseBit f b i j).rtrFrom = s.rtrFrom := rfl
@[simp] theorem raiseBit_narrow (s : State) (f : Fld) (b i j : Nat) : (s.raiseBit f b i j).narrow = s.narrow := rfl
@[simp] theorem raiseBit_groups (s : State) (f : Fld) (b i j : Nat) : (s.raiseBit f b i j).groups = s.groups := rfl
@[simp] theorem raiseBit_groupsDue (s : State) (f : Fld) (b i j : Nat) : (s.raiseBit f b i j).groupsDue = s.groupsDue := rfl
@[simp] theorem raiseBit_gateOn (s : State) (f : Fld) (b i j : Nat) : (s.raiseBit f b i j).gateOn = s.gateOn := rfl
@[simp] theorem raiseBit_gateOff (s : State) (f : Fld) (b i j : Nat) : (s.raiseBit f b i j).gateOff = s.gateOff := rfl
@[simp] theorem raiseBit_calWait (s : State) (f : Fld) (b i j : Nat) : (s.raiseBit f b i j).calWait = s.calWait := rfl
@[simp] theorem raiseBit_latokDue (s : State) (f : Fld) (b i j : Nat) : (s.raiseBit f b i j).latokDue = s.latokDue := rfl
@[simp] theorem raiseBit_refilled (s : State) (f : Fld) (b i j : Nat) : (s.raiseBit f b i j).refilled = s.refilled := rfl
@[simp] theorem raiseBit_sampled (s : State) (f : Fld) (b i j : Nat) : (s.raiseBit f b i j).sampled = s.sampled := rfl
@[simp] theorem raiseBit_histClear (s : State) (f : Fld) (b i j : Nat) : (s.raiseBit f b i j).histClear = s.histClear := rfl
@[simp] theorem raiseBit_burstCuts (s : State) (f : Fld) (b i j : Nat) : (s.raiseBit f b i j).burstCuts = s.burstCuts := rfl
@[simp] theorem raiseBit_stackTemp (s : State) (f : Fld) (b i j : Nat) : (s.raiseBit f b i j).stackTemp = s.stackTemp := rfl
@[simp] theorem raiseBit_goodTemp (s : State) (f : Fld) (b i j : Nat) : (s.raiseBit f b i j).goodTemp = s.goodTemp := rfl
@[simp] theorem raiseBit_sampleAt (s : State) (f : Fld) (b i j : Nat) : (s.raiseBit f b i j).sampleAt = s.sampleAt := rfl
@[simp] theorem raiseBit_capUsed (s : State) (f : Fld) (b i j : Nat) : (s.raiseBit f b i j).capUsed = s.capUsed := rfl
@[simp] theorem raiseBit_recs (s : State) (f : Fld) (b i j : Nat) : (s.raiseBit f b i j).recs = s.recs := rfl
@[simp] theorem raiseBit_recTick (s : State) (f : Fld) (b i j : Nat) : (s.raiseBit f b i j).recTick = s.recTick := rfl
@[simp] theorem raiseBit_recLast (s : State) (f : Fld) (b i j : Nat) : (s.raiseBit f b i j).recLast = s.recLast := rfl
@[simp] theorem raiseBit_hist (s : State) (f : Fld) (b i j : Nat) : (s.raiseBit f b i j).hist = s.hist := rfl
@[simp] theorem raiseBit_histFlash (s : State) (f : Fld) (b i j : Nat) : (s.raiseBit f b i j).histFlash = s.histFlash := rfl
@[simp] theorem raiseBit_migs (s : State) (f : Fld) (b i j : Nat) : (s.raiseBit f b i j).migs = s.migs := rfl
@[simp] theorem raiseBit_migSeq (s : State) (f : Fld) (b i j : Nat) : (s.raiseBit f b i j).migSeq = s.migSeq := rfl
@[simp] theorem raiseBit_passes (s : State) (f : Fld) (b i j : Nat) : (s.raiseBit f b i j).passes = s.passes := rfl
@[simp] theorem raiseBit_frzOps (s : State) (f : Fld) (b i j : Nat) : (s.raiseBit f b i j).frzOps = s.frzOps := rfl
@[simp] theorem raiseBit_migWant (s : State) (f : Fld) (b i j : Nat) : (s.raiseBit f b i j).migWant = s.migWant := rfl
@[simp] theorem raiseBit_pprRows (s : State) (f : Fld) (b i j : Nat) : (s.raiseBit f b i j).pprRows = s.pprRows := rfl
@[simp] theorem raiseBit_tests (s : State) (f : Fld) (b i j : Nat) : (s.raiseBit f b i j).tests = s.tests := rfl
@[simp] theorem raiseBit_scrubs (s : State) (f : Fld) (b i j : Nat) : (s.raiseBit f b i j).scrubs = s.scrubs := rfl
@[simp] theorem raiseBit_sec (s : State) (f : Fld) (b i j : Nat) : (s.raiseBit f b i j).sec = s.sec := rfl
@[simp] theorem raiseBit_rings (s : State) (f : Fld) (b i j : Nat) : (s.raiseBit f b i j).rings = s.rings := rfl
@[simp] theorem raiseBit_lnts (s : State) (f : Fld) (b i j : Nat) : (s.raiseBit f b i j).lnts = s.lnts := rfl
@[simp] theorem raiseBit_posies (s : State) (f : Fld) (b i j : Nat) : (s.raiseBit f b i j).posies = s.posies := rfl
@[simp] theorem raiseBit_pmus (s : State) (f : Fld) (b i j : Nat) : (s.raiseBit f b i j).pmus = s.pmus := rfl
@[simp] theorem raiseBit_fw (s : State) (f : Fld) (b i j : Nat) : (s.raiseBit f b i j).fw = s.fw := rfl
@[simp] theorem raiseBit_pw (s : State) (f : Fld) (b i j : Nat) : (s.raiseBit f b i j).pw = s.pw := rfl
@[simp] theorem raiseBit_mir (s : State) (f : Fld) (b i j : Nat) : (s.raiseBit f b i j).mir = s.mir := rfl
@[simp] theorem raiseBit_advised (s : State) (f : Fld) (b i j : Nat) : (s.raiseBit f b i j).advised = s.advised := rfl

@[simp] theorem maxRc_pending (s : State) (f : Fld) (v i j : Nat) : (s.maxRc f v i j).pending = s.pending := rfl
@[simp] theorem maxRc_endpoint (s : State) (f : Fld) (v i j : Nat) : (s.maxRc f v i j).endpoint = s.endpoint := rfl
@[simp] theorem maxRc_clk (s : State) (f : Fld) (v i j : Nat) : (s.maxRc f v i j).clk = s.clk := rfl
@[simp] theorem maxRc_regs0 (s : State) (f : Fld) (v i j : Nat) : (s.maxRc f v i j).regs0 = s.regs0 := rfl
@[simp] theorem maxRc_regs1 (s : State) (f : Fld) (v i j : Nat) : (s.maxRc f v i j).regs1 = s.regs1 := rfl
@[simp] theorem maxRc_bytes (s : State) (f : Fld) (v i j : Nat) : (s.maxRc f v i j).bytes = s.bytes := rfl
@[simp] theorem maxRc_hiLatch (s : State) (f : Fld) (v i j : Nat) : (s.maxRc f v i j).hiLatch = s.hiLatch := rfl
@[simp] theorem maxRc_out (s : State) (f : Fld) (v i j : Nat) : (s.maxRc f v i j).out = s.out := rfl
@[simp] theorem maxRc_free (s : State) (f : Fld) (v i j : Nat) : (s.maxRc f v i j).free = s.free := rfl
@[simp] theorem maxRc_mem (s : State) (f : Fld) (v i j : Nat) : (s.maxRc f v i j).mem = s.mem := rfl
@[simp] theorem maxRc_fills (s : State) (f : Fld) (v i j : Nat) : (s.maxRc f v i j).fills = s.fills := rfl
@[simp] theorem maxRc_plots (s : State) (f : Fld) (v i j : Nat) : (s.maxRc f v i j).plots = s.plots := rfl
@[simp] theorem maxRc_quar (s : State) (f : Fld) (v i j : Nat) : (s.maxRc f v i j).quar = s.quar := rfl
@[simp] theorem maxRc_plotDue (s : State) (f : Fld) (v i j : Nat) : (s.maxRc f v i j).plotDue = s.plotDue := rfl
@[simp] theorem maxRc_deadFrames (s : State) (f : Fld) (v i j : Nat) : (s.maxRc f v i j).deadFrames = s.deadFrames := rfl
@[simp] theorem maxRc_unbacked (s : State) (f : Fld) (v i j : Nat) : (s.maxRc f v i j).unbacked = s.unbacked := rfl
@[simp] theorem maxRc_flights (s : State) (f : Fld) (v i j : Nat) : (s.maxRc f v i j).flights = s.flights := rfl
@[simp] theorem maxRc_nextId (s : State) (f : Fld) (v i j : Nat) : (s.maxRc f v i j).nextId = s.nextId := rfl
@[simp] theorem maxRc_order (s : State) (f : Fld) (v i j : Nat) : (s.maxRc f v i j).order = s.order := rfl
@[simp] theorem maxRc_locks (s : State) (f : Fld) (v i j : Nat) : (s.maxRc f v i j).locks = s.locks := rfl
@[simp] theorem maxRc_credits (s : State) (f : Fld) (v i j : Nat) : (s.maxRc f v i j).credits = s.credits := rfl
@[simp] theorem maxRc_slices (s : State) (f : Fld) (v i j : Nat) : (s.maxRc f v i j).slices = s.slices := rfl
@[simp] theorem maxRc_waitSeen (s : State) (f : Fld) (v i j : Nat) : (s.maxRc f v i j).waitSeen = s.waitSeen := rfl
@[simp] theorem maxRc_pcs (s : State) (f : Fld) (v i j : Nat) : (s.maxRc f v i j).pcs = s.pcs := rfl
@[simp] theorem maxRc_holds (s : State) (f : Fld) (v i j : Nat) : (s.maxRc f v i j).holds = s.holds := rfl
@[simp] theorem maxRc_throttles (s : State) (f : Fld) (v i j : Nat) : (s.maxRc f v i j).throttles = s.throttles := rfl
@[simp] theorem maxRc_thrOff (s : State) (f : Fld) (v i j : Nat) : (s.maxRc f v i j).thrOff = s.thrOff := rfl
@[simp] theorem maxRc_rgHits (s : State) (f : Fld) (v i j : Nat) : (s.maxRc f v i j).rgHits = s.rgHits := rfl
@[simp] theorem maxRc_trkWindow (s : State) (f : Fld) (v i j : Nat) : (s.maxRc f v i j).trkWindow = s.trkWindow := rfl
@[simp] theorem maxRc_hotNext (s : State) (f : Fld) (v i j : Nat) : (s.maxRc f v i j).hotNext = s.hotNext := rfl
@[simp] theorem maxRc_windows (s : State) (f : Fld) (v i j : Nat) : (s.maxRc f v i j).windows = s.windows := rfl
@[simp] theorem maxRc_triggers (s : State) (f : Fld) (v i j : Nat) : (s.maxRc f v i j).triggers = s.triggers := rfl
@[simp] theorem maxRc_rtrFrom (s : State) (f : Fld) (v i j : Nat) : (s.maxRc f v i j).rtrFrom = s.rtrFrom := rfl
@[simp] theorem maxRc_narrow (s : State) (f : Fld) (v i j : Nat) : (s.maxRc f v i j).narrow = s.narrow := rfl
@[simp] theorem maxRc_groups (s : State) (f : Fld) (v i j : Nat) : (s.maxRc f v i j).groups = s.groups := rfl
@[simp] theorem maxRc_groupsDue (s : State) (f : Fld) (v i j : Nat) : (s.maxRc f v i j).groupsDue = s.groupsDue := rfl
@[simp] theorem maxRc_gateOn (s : State) (f : Fld) (v i j : Nat) : (s.maxRc f v i j).gateOn = s.gateOn := rfl
@[simp] theorem maxRc_gateOff (s : State) (f : Fld) (v i j : Nat) : (s.maxRc f v i j).gateOff = s.gateOff := rfl
@[simp] theorem maxRc_calWait (s : State) (f : Fld) (v i j : Nat) : (s.maxRc f v i j).calWait = s.calWait := rfl
@[simp] theorem maxRc_latokDue (s : State) (f : Fld) (v i j : Nat) : (s.maxRc f v i j).latokDue = s.latokDue := rfl
@[simp] theorem maxRc_refilled (s : State) (f : Fld) (v i j : Nat) : (s.maxRc f v i j).refilled = s.refilled := rfl
@[simp] theorem maxRc_sampled (s : State) (f : Fld) (v i j : Nat) : (s.maxRc f v i j).sampled = s.sampled := rfl
@[simp] theorem maxRc_histClear (s : State) (f : Fld) (v i j : Nat) : (s.maxRc f v i j).histClear = s.histClear := rfl
@[simp] theorem maxRc_burstCuts (s : State) (f : Fld) (v i j : Nat) : (s.maxRc f v i j).burstCuts = s.burstCuts := rfl
@[simp] theorem maxRc_stackTemp (s : State) (f : Fld) (v i j : Nat) : (s.maxRc f v i j).stackTemp = s.stackTemp := rfl
@[simp] theorem maxRc_goodTemp (s : State) (f : Fld) (v i j : Nat) : (s.maxRc f v i j).goodTemp = s.goodTemp := rfl
@[simp] theorem maxRc_sampleAt (s : State) (f : Fld) (v i j : Nat) : (s.maxRc f v i j).sampleAt = s.sampleAt := rfl
@[simp] theorem maxRc_capUsed (s : State) (f : Fld) (v i j : Nat) : (s.maxRc f v i j).capUsed = s.capUsed := rfl
@[simp] theorem maxRc_recs (s : State) (f : Fld) (v i j : Nat) : (s.maxRc f v i j).recs = s.recs := rfl
@[simp] theorem maxRc_recTick (s : State) (f : Fld) (v i j : Nat) : (s.maxRc f v i j).recTick = s.recTick := rfl
@[simp] theorem maxRc_recLast (s : State) (f : Fld) (v i j : Nat) : (s.maxRc f v i j).recLast = s.recLast := rfl
@[simp] theorem maxRc_hist (s : State) (f : Fld) (v i j : Nat) : (s.maxRc f v i j).hist = s.hist := rfl
@[simp] theorem maxRc_histFlash (s : State) (f : Fld) (v i j : Nat) : (s.maxRc f v i j).histFlash = s.histFlash := rfl
@[simp] theorem maxRc_migs (s : State) (f : Fld) (v i j : Nat) : (s.maxRc f v i j).migs = s.migs := rfl
@[simp] theorem maxRc_migSeq (s : State) (f : Fld) (v i j : Nat) : (s.maxRc f v i j).migSeq = s.migSeq := rfl
@[simp] theorem maxRc_passes (s : State) (f : Fld) (v i j : Nat) : (s.maxRc f v i j).passes = s.passes := rfl
@[simp] theorem maxRc_frzOps (s : State) (f : Fld) (v i j : Nat) : (s.maxRc f v i j).frzOps = s.frzOps := rfl
@[simp] theorem maxRc_migWant (s : State) (f : Fld) (v i j : Nat) : (s.maxRc f v i j).migWant = s.migWant := rfl
@[simp] theorem maxRc_pprRows (s : State) (f : Fld) (v i j : Nat) : (s.maxRc f v i j).pprRows = s.pprRows := rfl
@[simp] theorem maxRc_tests (s : State) (f : Fld) (v i j : Nat) : (s.maxRc f v i j).tests = s.tests := rfl
@[simp] theorem maxRc_scrubs (s : State) (f : Fld) (v i j : Nat) : (s.maxRc f v i j).scrubs = s.scrubs := rfl
@[simp] theorem maxRc_sec (s : State) (f : Fld) (v i j : Nat) : (s.maxRc f v i j).sec = s.sec := rfl
@[simp] theorem maxRc_rings (s : State) (f : Fld) (v i j : Nat) : (s.maxRc f v i j).rings = s.rings := rfl
@[simp] theorem maxRc_lnts (s : State) (f : Fld) (v i j : Nat) : (s.maxRc f v i j).lnts = s.lnts := rfl
@[simp] theorem maxRc_posies (s : State) (f : Fld) (v i j : Nat) : (s.maxRc f v i j).posies = s.posies := rfl
@[simp] theorem maxRc_pmus (s : State) (f : Fld) (v i j : Nat) : (s.maxRc f v i j).pmus = s.pmus := rfl
@[simp] theorem maxRc_fw (s : State) (f : Fld) (v i j : Nat) : (s.maxRc f v i j).fw = s.fw := rfl
@[simp] theorem maxRc_pw (s : State) (f : Fld) (v i j : Nat) : (s.maxRc f v i j).pw = s.pw := rfl
@[simp] theorem maxRc_mir (s : State) (f : Fld) (v i j : Nat) : (s.maxRc f v i j).mir = s.mir := rfl
@[simp] theorem maxRc_advised (s : State) (f : Fld) (v i j : Nat) : (s.maxRc f v i j).advised = s.advised := rfl

@[simp] theorem incRc_pending (s : State) (f : Fld) (i j n : Nat) : (s.incRc f i j n).pending = s.pending := rfl
@[simp] theorem incRc_endpoint (s : State) (f : Fld) (i j n : Nat) : (s.incRc f i j n).endpoint = s.endpoint := rfl
@[simp] theorem incRc_clk (s : State) (f : Fld) (i j n : Nat) : (s.incRc f i j n).clk = s.clk := rfl
@[simp] theorem incRc_regs0 (s : State) (f : Fld) (i j n : Nat) : (s.incRc f i j n).regs0 = s.regs0 := rfl
@[simp] theorem incRc_regs1 (s : State) (f : Fld) (i j n : Nat) : (s.incRc f i j n).regs1 = s.regs1 := rfl
@[simp] theorem incRc_bytes (s : State) (f : Fld) (i j n : Nat) : (s.incRc f i j n).bytes = s.bytes := rfl
@[simp] theorem incRc_hiLatch (s : State) (f : Fld) (i j n : Nat) : (s.incRc f i j n).hiLatch = s.hiLatch := rfl
@[simp] theorem incRc_out (s : State) (f : Fld) (i j n : Nat) : (s.incRc f i j n).out = s.out := rfl
@[simp] theorem incRc_free (s : State) (f : Fld) (i j n : Nat) : (s.incRc f i j n).free = s.free := rfl
@[simp] theorem incRc_mem (s : State) (f : Fld) (i j n : Nat) : (s.incRc f i j n).mem = s.mem := rfl
@[simp] theorem incRc_fills (s : State) (f : Fld) (i j n : Nat) : (s.incRc f i j n).fills = s.fills := rfl
@[simp] theorem incRc_plots (s : State) (f : Fld) (i j n : Nat) : (s.incRc f i j n).plots = s.plots := rfl
@[simp] theorem incRc_quar (s : State) (f : Fld) (i j n : Nat) : (s.incRc f i j n).quar = s.quar := rfl
@[simp] theorem incRc_plotDue (s : State) (f : Fld) (i j n : Nat) : (s.incRc f i j n).plotDue = s.plotDue := rfl
@[simp] theorem incRc_deadFrames (s : State) (f : Fld) (i j n : Nat) : (s.incRc f i j n).deadFrames = s.deadFrames := rfl
@[simp] theorem incRc_unbacked (s : State) (f : Fld) (i j n : Nat) : (s.incRc f i j n).unbacked = s.unbacked := rfl
@[simp] theorem incRc_flights (s : State) (f : Fld) (i j n : Nat) : (s.incRc f i j n).flights = s.flights := rfl
@[simp] theorem incRc_nextId (s : State) (f : Fld) (i j n : Nat) : (s.incRc f i j n).nextId = s.nextId := rfl
@[simp] theorem incRc_order (s : State) (f : Fld) (i j n : Nat) : (s.incRc f i j n).order = s.order := rfl
@[simp] theorem incRc_locks (s : State) (f : Fld) (i j n : Nat) : (s.incRc f i j n).locks = s.locks := rfl
@[simp] theorem incRc_credits (s : State) (f : Fld) (i j n : Nat) : (s.incRc f i j n).credits = s.credits := rfl
@[simp] theorem incRc_slices (s : State) (f : Fld) (i j n : Nat) : (s.incRc f i j n).slices = s.slices := rfl
@[simp] theorem incRc_waitSeen (s : State) (f : Fld) (i j n : Nat) : (s.incRc f i j n).waitSeen = s.waitSeen := rfl
@[simp] theorem incRc_pcs (s : State) (f : Fld) (i j n : Nat) : (s.incRc f i j n).pcs = s.pcs := rfl
@[simp] theorem incRc_holds (s : State) (f : Fld) (i j n : Nat) : (s.incRc f i j n).holds = s.holds := rfl
@[simp] theorem incRc_throttles (s : State) (f : Fld) (i j n : Nat) : (s.incRc f i j n).throttles = s.throttles := rfl
@[simp] theorem incRc_thrOff (s : State) (f : Fld) (i j n : Nat) : (s.incRc f i j n).thrOff = s.thrOff := rfl
@[simp] theorem incRc_rgHits (s : State) (f : Fld) (i j n : Nat) : (s.incRc f i j n).rgHits = s.rgHits := rfl
@[simp] theorem incRc_trkWindow (s : State) (f : Fld) (i j n : Nat) : (s.incRc f i j n).trkWindow = s.trkWindow := rfl
@[simp] theorem incRc_hotNext (s : State) (f : Fld) (i j n : Nat) : (s.incRc f i j n).hotNext = s.hotNext := rfl
@[simp] theorem incRc_windows (s : State) (f : Fld) (i j n : Nat) : (s.incRc f i j n).windows = s.windows := rfl
@[simp] theorem incRc_triggers (s : State) (f : Fld) (i j n : Nat) : (s.incRc f i j n).triggers = s.triggers := rfl
@[simp] theorem incRc_rtrFrom (s : State) (f : Fld) (i j n : Nat) : (s.incRc f i j n).rtrFrom = s.rtrFrom := rfl
@[simp] theorem incRc_narrow (s : State) (f : Fld) (i j n : Nat) : (s.incRc f i j n).narrow = s.narrow := rfl
@[simp] theorem incRc_groups (s : State) (f : Fld) (i j n : Nat) : (s.incRc f i j n).groups = s.groups := rfl
@[simp] theorem incRc_groupsDue (s : State) (f : Fld) (i j n : Nat) : (s.incRc f i j n).groupsDue = s.groupsDue := rfl
@[simp] theorem incRc_gateOn (s : State) (f : Fld) (i j n : Nat) : (s.incRc f i j n).gateOn = s.gateOn := rfl
@[simp] theorem incRc_gateOff (s : State) (f : Fld) (i j n : Nat) : (s.incRc f i j n).gateOff = s.gateOff := rfl
@[simp] theorem incRc_calWait (s : State) (f : Fld) (i j n : Nat) : (s.incRc f i j n).calWait = s.calWait := rfl
@[simp] theorem incRc_latokDue (s : State) (f : Fld) (i j n : Nat) : (s.incRc f i j n).latokDue = s.latokDue := rfl
@[simp] theorem incRc_refilled (s : State) (f : Fld) (i j n : Nat) : (s.incRc f i j n).refilled = s.refilled := rfl
@[simp] theorem incRc_sampled (s : State) (f : Fld) (i j n : Nat) : (s.incRc f i j n).sampled = s.sampled := rfl
@[simp] theorem incRc_histClear (s : State) (f : Fld) (i j n : Nat) : (s.incRc f i j n).histClear = s.histClear := rfl
@[simp] theorem incRc_burstCuts (s : State) (f : Fld) (i j n : Nat) : (s.incRc f i j n).burstCuts = s.burstCuts := rfl
@[simp] theorem incRc_stackTemp (s : State) (f : Fld) (i j n : Nat) : (s.incRc f i j n).stackTemp = s.stackTemp := rfl
@[simp] theorem incRc_goodTemp (s : State) (f : Fld) (i j n : Nat) : (s.incRc f i j n).goodTemp = s.goodTemp := rfl
@[simp] theorem incRc_sampleAt (s : State) (f : Fld) (i j n : Nat) : (s.incRc f i j n).sampleAt = s.sampleAt := rfl
@[simp] theorem incRc_capUsed (s : State) (f : Fld) (i j n : Nat) : (s.incRc f i j n).capUsed = s.capUsed := rfl
@[simp] theorem incRc_recs (s : State) (f : Fld) (i j n : Nat) : (s.incRc f i j n).recs = s.recs := rfl
@[simp] theorem incRc_recTick (s : State) (f : Fld) (i j n : Nat) : (s.incRc f i j n).recTick = s.recTick := rfl
@[simp] theorem incRc_recLast (s : State) (f : Fld) (i j n : Nat) : (s.incRc f i j n).recLast = s.recLast := rfl
@[simp] theorem incRc_hist (s : State) (f : Fld) (i j n : Nat) : (s.incRc f i j n).hist = s.hist := rfl
@[simp] theorem incRc_histFlash (s : State) (f : Fld) (i j n : Nat) : (s.incRc f i j n).histFlash = s.histFlash := rfl
@[simp] theorem incRc_migs (s : State) (f : Fld) (i j n : Nat) : (s.incRc f i j n).migs = s.migs := rfl
@[simp] theorem incRc_migSeq (s : State) (f : Fld) (i j n : Nat) : (s.incRc f i j n).migSeq = s.migSeq := rfl
@[simp] theorem incRc_passes (s : State) (f : Fld) (i j n : Nat) : (s.incRc f i j n).passes = s.passes := rfl
@[simp] theorem incRc_frzOps (s : State) (f : Fld) (i j n : Nat) : (s.incRc f i j n).frzOps = s.frzOps := rfl
@[simp] theorem incRc_migWant (s : State) (f : Fld) (i j n : Nat) : (s.incRc f i j n).migWant = s.migWant := rfl
@[simp] theorem incRc_pprRows (s : State) (f : Fld) (i j n : Nat) : (s.incRc f i j n).pprRows = s.pprRows := rfl
@[simp] theorem incRc_tests (s : State) (f : Fld) (i j n : Nat) : (s.incRc f i j n).tests = s.tests := rfl
@[simp] theorem incRc_scrubs (s : State) (f : Fld) (i j n : Nat) : (s.incRc f i j n).scrubs = s.scrubs := rfl
@[simp] theorem incRc_sec (s : State) (f : Fld) (i j n : Nat) : (s.incRc f i j n).sec = s.sec := rfl
@[simp] theorem incRc_rings (s : State) (f : Fld) (i j n : Nat) : (s.incRc f i j n).rings = s.rings := rfl
@[simp] theorem incRc_lnts (s : State) (f : Fld) (i j n : Nat) : (s.incRc f i j n).lnts = s.lnts := rfl
@[simp] theorem incRc_posies (s : State) (f : Fld) (i j n : Nat) : (s.incRc f i j n).posies = s.posies := rfl
@[simp] theorem incRc_pmus (s : State) (f : Fld) (i j n : Nat) : (s.incRc f i j n).pmus = s.pmus := rfl
@[simp] theorem incRc_fw (s : State) (f : Fld) (i j n : Nat) : (s.incRc f i j n).fw = s.fw := rfl
@[simp] theorem incRc_pw (s : State) (f : Fld) (i j n : Nat) : (s.incRc f i j n).pw = s.pw := rfl
@[simp] theorem incRc_mir (s : State) (f : Fld) (i j n : Nat) : (s.incRc f i j n).mir = s.mir := rfl
@[simp] theorem incRc_advised (s : State) (f : Fld) (i j n : Nat) : (s.incRc f i j n).advised = s.advised := rfl

@[simp] theorem incWrap_pending (s : State) (f : Fld) (i j n : Nat) : (s.incWrap f i j n).pending = s.pending := rfl
@[simp] theorem incWrap_endpoint (s : State) (f : Fld) (i j n : Nat) : (s.incWrap f i j n).endpoint = s.endpoint := rfl
@[simp] theorem incWrap_clk (s : State) (f : Fld) (i j n : Nat) : (s.incWrap f i j n).clk = s.clk := rfl
@[simp] theorem incWrap_regs0 (s : State) (f : Fld) (i j n : Nat) : (s.incWrap f i j n).regs0 = s.regs0 := rfl
@[simp] theorem incWrap_regs1 (s : State) (f : Fld) (i j n : Nat) : (s.incWrap f i j n).regs1 = s.regs1 := rfl
@[simp] theorem incWrap_events (s : State) (f : Fld) (i j n : Nat) : (s.incWrap f i j n).events = s.events := rfl
@[simp] theorem incWrap_bytes (s : State) (f : Fld) (i j n : Nat) : (s.incWrap f i j n).bytes = s.bytes := rfl
@[simp] theorem incWrap_hiLatch (s : State) (f : Fld) (i j n : Nat) : (s.incWrap f i j n).hiLatch = s.hiLatch := rfl
@[simp] theorem incWrap_out (s : State) (f : Fld) (i j n : Nat) : (s.incWrap f i j n).out = s.out := rfl
@[simp] theorem incWrap_free (s : State) (f : Fld) (i j n : Nat) : (s.incWrap f i j n).free = s.free := rfl
@[simp] theorem incWrap_mem (s : State) (f : Fld) (i j n : Nat) : (s.incWrap f i j n).mem = s.mem := rfl
@[simp] theorem incWrap_fills (s : State) (f : Fld) (i j n : Nat) : (s.incWrap f i j n).fills = s.fills := rfl
@[simp] theorem incWrap_plots (s : State) (f : Fld) (i j n : Nat) : (s.incWrap f i j n).plots = s.plots := rfl
@[simp] theorem incWrap_quar (s : State) (f : Fld) (i j n : Nat) : (s.incWrap f i j n).quar = s.quar := rfl
@[simp] theorem incWrap_plotDue (s : State) (f : Fld) (i j n : Nat) : (s.incWrap f i j n).plotDue = s.plotDue := rfl
@[simp] theorem incWrap_deadFrames (s : State) (f : Fld) (i j n : Nat) : (s.incWrap f i j n).deadFrames = s.deadFrames := rfl
@[simp] theorem incWrap_unbacked (s : State) (f : Fld) (i j n : Nat) : (s.incWrap f i j n).unbacked = s.unbacked := rfl
@[simp] theorem incWrap_flights (s : State) (f : Fld) (i j n : Nat) : (s.incWrap f i j n).flights = s.flights := rfl
@[simp] theorem incWrap_nextId (s : State) (f : Fld) (i j n : Nat) : (s.incWrap f i j n).nextId = s.nextId := rfl
@[simp] theorem incWrap_order (s : State) (f : Fld) (i j n : Nat) : (s.incWrap f i j n).order = s.order := rfl
@[simp] theorem incWrap_locks (s : State) (f : Fld) (i j n : Nat) : (s.incWrap f i j n).locks = s.locks := rfl
@[simp] theorem incWrap_credits (s : State) (f : Fld) (i j n : Nat) : (s.incWrap f i j n).credits = s.credits := rfl
@[simp] theorem incWrap_slices (s : State) (f : Fld) (i j n : Nat) : (s.incWrap f i j n).slices = s.slices := rfl
@[simp] theorem incWrap_waitSeen (s : State) (f : Fld) (i j n : Nat) : (s.incWrap f i j n).waitSeen = s.waitSeen := rfl
@[simp] theorem incWrap_pcs (s : State) (f : Fld) (i j n : Nat) : (s.incWrap f i j n).pcs = s.pcs := rfl
@[simp] theorem incWrap_holds (s : State) (f : Fld) (i j n : Nat) : (s.incWrap f i j n).holds = s.holds := rfl
@[simp] theorem incWrap_throttles (s : State) (f : Fld) (i j n : Nat) : (s.incWrap f i j n).throttles = s.throttles := rfl
@[simp] theorem incWrap_thrOff (s : State) (f : Fld) (i j n : Nat) : (s.incWrap f i j n).thrOff = s.thrOff := rfl
@[simp] theorem incWrap_rgHits (s : State) (f : Fld) (i j n : Nat) : (s.incWrap f i j n).rgHits = s.rgHits := rfl
@[simp] theorem incWrap_trkWindow (s : State) (f : Fld) (i j n : Nat) : (s.incWrap f i j n).trkWindow = s.trkWindow := rfl
@[simp] theorem incWrap_hotNext (s : State) (f : Fld) (i j n : Nat) : (s.incWrap f i j n).hotNext = s.hotNext := rfl
@[simp] theorem incWrap_windows (s : State) (f : Fld) (i j n : Nat) : (s.incWrap f i j n).windows = s.windows := rfl
@[simp] theorem incWrap_triggers (s : State) (f : Fld) (i j n : Nat) : (s.incWrap f i j n).triggers = s.triggers := rfl
@[simp] theorem incWrap_rtrFrom (s : State) (f : Fld) (i j n : Nat) : (s.incWrap f i j n).rtrFrom = s.rtrFrom := rfl
@[simp] theorem incWrap_narrow (s : State) (f : Fld) (i j n : Nat) : (s.incWrap f i j n).narrow = s.narrow := rfl
@[simp] theorem incWrap_groups (s : State) (f : Fld) (i j n : Nat) : (s.incWrap f i j n).groups = s.groups := rfl
@[simp] theorem incWrap_groupsDue (s : State) (f : Fld) (i j n : Nat) : (s.incWrap f i j n).groupsDue = s.groupsDue := rfl
@[simp] theorem incWrap_gateOn (s : State) (f : Fld) (i j n : Nat) : (s.incWrap f i j n).gateOn = s.gateOn := rfl
@[simp] theorem incWrap_gateOff (s : State) (f : Fld) (i j n : Nat) : (s.incWrap f i j n).gateOff = s.gateOff := rfl
@[simp] theorem incWrap_calWait (s : State) (f : Fld) (i j n : Nat) : (s.incWrap f i j n).calWait = s.calWait := rfl
@[simp] theorem incWrap_latokDue (s : State) (f : Fld) (i j n : Nat) : (s.incWrap f i j n).latokDue = s.latokDue := rfl
@[simp] theorem incWrap_refilled (s : State) (f : Fld) (i j n : Nat) : (s.incWrap f i j n).refilled = s.refilled := rfl
@[simp] theorem incWrap_sampled (s : State) (f : Fld) (i j n : Nat) : (s.incWrap f i j n).sampled = s.sampled := rfl
@[simp] theorem incWrap_histClear (s : State) (f : Fld) (i j n : Nat) : (s.incWrap f i j n).histClear = s.histClear := rfl
@[simp] theorem incWrap_burstCuts (s : State) (f : Fld) (i j n : Nat) : (s.incWrap f i j n).burstCuts = s.burstCuts := rfl
@[simp] theorem incWrap_stackTemp (s : State) (f : Fld) (i j n : Nat) : (s.incWrap f i j n).stackTemp = s.stackTemp := rfl
@[simp] theorem incWrap_goodTemp (s : State) (f : Fld) (i j n : Nat) : (s.incWrap f i j n).goodTemp = s.goodTemp := rfl
@[simp] theorem incWrap_sampleAt (s : State) (f : Fld) (i j n : Nat) : (s.incWrap f i j n).sampleAt = s.sampleAt := rfl
@[simp] theorem incWrap_capUsed (s : State) (f : Fld) (i j n : Nat) : (s.incWrap f i j n).capUsed = s.capUsed := rfl
@[simp] theorem incWrap_recs (s : State) (f : Fld) (i j n : Nat) : (s.incWrap f i j n).recs = s.recs := rfl
@[simp] theorem incWrap_recTick (s : State) (f : Fld) (i j n : Nat) : (s.incWrap f i j n).recTick = s.recTick := rfl
@[simp] theorem incWrap_recLast (s : State) (f : Fld) (i j n : Nat) : (s.incWrap f i j n).recLast = s.recLast := rfl
@[simp] theorem incWrap_hist (s : State) (f : Fld) (i j n : Nat) : (s.incWrap f i j n).hist = s.hist := rfl
@[simp] theorem incWrap_histFlash (s : State) (f : Fld) (i j n : Nat) : (s.incWrap f i j n).histFlash = s.histFlash := rfl
@[simp] theorem incWrap_migs (s : State) (f : Fld) (i j n : Nat) : (s.incWrap f i j n).migs = s.migs := rfl
@[simp] theorem incWrap_migSeq (s : State) (f : Fld) (i j n : Nat) : (s.incWrap f i j n).migSeq = s.migSeq := rfl
@[simp] theorem incWrap_passes (s : State) (f : Fld) (i j n : Nat) : (s.incWrap f i j n).passes = s.passes := rfl
@[simp] theorem incWrap_frzOps (s : State) (f : Fld) (i j n : Nat) : (s.incWrap f i j n).frzOps = s.frzOps := rfl
@[simp] theorem incWrap_migWant (s : State) (f : Fld) (i j n : Nat) : (s.incWrap f i j n).migWant = s.migWant := rfl
@[simp] theorem incWrap_pprRows (s : State) (f : Fld) (i j n : Nat) : (s.incWrap f i j n).pprRows = s.pprRows := rfl
@[simp] theorem incWrap_tests (s : State) (f : Fld) (i j n : Nat) : (s.incWrap f i j n).tests = s.tests := rfl
@[simp] theorem incWrap_scrubs (s : State) (f : Fld) (i j n : Nat) : (s.incWrap f i j n).scrubs = s.scrubs := rfl
@[simp] theorem incWrap_sec (s : State) (f : Fld) (i j n : Nat) : (s.incWrap f i j n).sec = s.sec := rfl
@[simp] theorem incWrap_rings (s : State) (f : Fld) (i j n : Nat) : (s.incWrap f i j n).rings = s.rings := rfl
@[simp] theorem incWrap_lnts (s : State) (f : Fld) (i j n : Nat) : (s.incWrap f i j n).lnts = s.lnts := rfl
@[simp] theorem incWrap_posies (s : State) (f : Fld) (i j n : Nat) : (s.incWrap f i j n).posies = s.posies := rfl
@[simp] theorem incWrap_pmus (s : State) (f : Fld) (i j n : Nat) : (s.incWrap f i j n).pmus = s.pmus := rfl
@[simp] theorem incWrap_fw (s : State) (f : Fld) (i j n : Nat) : (s.incWrap f i j n).fw = s.fw := rfl
@[simp] theorem incWrap_pw (s : State) (f : Fld) (i j n : Nat) : (s.incWrap f i j n).pw = s.pw := rfl
@[simp] theorem incWrap_mir (s : State) (f : Fld) (i j n : Nat) : (s.incWrap f i j n).mir = s.mir := rfl
@[simp] theorem incWrap_advised (s : State) (f : Fld) (i j n : Nat) : (s.incWrap f i j n).advised = s.advised := rfl

@[simp] theorem setMap_pending (s : State) (f : Fld) (b : Nat) (v : Bool) (i j : Nat) : (s.setMap f b v i j).pending = s.pending := rfl
@[simp] theorem setMap_endpoint (s : State) (f : Fld) (b : Nat) (v : Bool) (i j : Nat) : (s.setMap f b v i j).endpoint = s.endpoint := rfl
@[simp] theorem setMap_clk (s : State) (f : Fld) (b : Nat) (v : Bool) (i j : Nat) : (s.setMap f b v i j).clk = s.clk := rfl
@[simp] theorem setMap_regs0 (s : State) (f : Fld) (b : Nat) (v : Bool) (i j : Nat) : (s.setMap f b v i j).regs0 = s.regs0 := rfl
@[simp] theorem setMap_regs1 (s : State) (f : Fld) (b : Nat) (v : Bool) (i j : Nat) : (s.setMap f b v i j).regs1 = s.regs1 := rfl
@[simp] theorem setMap_events (s : State) (f : Fld) (b : Nat) (v : Bool) (i j : Nat) : (s.setMap f b v i j).events = s.events := rfl
@[simp] theorem setMap_bytes (s : State) (f : Fld) (b : Nat) (v : Bool) (i j : Nat) : (s.setMap f b v i j).bytes = s.bytes := rfl
@[simp] theorem setMap_hiLatch (s : State) (f : Fld) (b : Nat) (v : Bool) (i j : Nat) : (s.setMap f b v i j).hiLatch = s.hiLatch := rfl
@[simp] theorem setMap_out (s : State) (f : Fld) (b : Nat) (v : Bool) (i j : Nat) : (s.setMap f b v i j).out = s.out := rfl
@[simp] theorem setMap_free (s : State) (f : Fld) (b : Nat) (v : Bool) (i j : Nat) : (s.setMap f b v i j).free = s.free := rfl
@[simp] theorem setMap_mem (s : State) (f : Fld) (b : Nat) (v : Bool) (i j : Nat) : (s.setMap f b v i j).mem = s.mem := rfl
@[simp] theorem setMap_fills (s : State) (f : Fld) (b : Nat) (v : Bool) (i j : Nat) : (s.setMap f b v i j).fills = s.fills := rfl
@[simp] theorem setMap_plots (s : State) (f : Fld) (b : Nat) (v : Bool) (i j : Nat) : (s.setMap f b v i j).plots = s.plots := rfl
@[simp] theorem setMap_quar (s : State) (f : Fld) (b : Nat) (v : Bool) (i j : Nat) : (s.setMap f b v i j).quar = s.quar := rfl
@[simp] theorem setMap_plotDue (s : State) (f : Fld) (b : Nat) (v : Bool) (i j : Nat) : (s.setMap f b v i j).plotDue = s.plotDue := rfl
@[simp] theorem setMap_deadFrames (s : State) (f : Fld) (b : Nat) (v : Bool) (i j : Nat) : (s.setMap f b v i j).deadFrames = s.deadFrames := rfl
@[simp] theorem setMap_unbacked (s : State) (f : Fld) (b : Nat) (v : Bool) (i j : Nat) : (s.setMap f b v i j).unbacked = s.unbacked := rfl
@[simp] theorem setMap_flights (s : State) (f : Fld) (b : Nat) (v : Bool) (i j : Nat) : (s.setMap f b v i j).flights = s.flights := rfl
@[simp] theorem setMap_nextId (s : State) (f : Fld) (b : Nat) (v : Bool) (i j : Nat) : (s.setMap f b v i j).nextId = s.nextId := rfl
@[simp] theorem setMap_order (s : State) (f : Fld) (b : Nat) (v : Bool) (i j : Nat) : (s.setMap f b v i j).order = s.order := rfl
@[simp] theorem setMap_locks (s : State) (f : Fld) (b : Nat) (v : Bool) (i j : Nat) : (s.setMap f b v i j).locks = s.locks := rfl
@[simp] theorem setMap_credits (s : State) (f : Fld) (b : Nat) (v : Bool) (i j : Nat) : (s.setMap f b v i j).credits = s.credits := rfl
@[simp] theorem setMap_slices (s : State) (f : Fld) (b : Nat) (v : Bool) (i j : Nat) : (s.setMap f b v i j).slices = s.slices := rfl
@[simp] theorem setMap_waitSeen (s : State) (f : Fld) (b : Nat) (v : Bool) (i j : Nat) : (s.setMap f b v i j).waitSeen = s.waitSeen := rfl
@[simp] theorem setMap_pcs (s : State) (f : Fld) (b : Nat) (v : Bool) (i j : Nat) : (s.setMap f b v i j).pcs = s.pcs := rfl
@[simp] theorem setMap_holds (s : State) (f : Fld) (b : Nat) (v : Bool) (i j : Nat) : (s.setMap f b v i j).holds = s.holds := rfl
@[simp] theorem setMap_throttles (s : State) (f : Fld) (b : Nat) (v : Bool) (i j : Nat) : (s.setMap f b v i j).throttles = s.throttles := rfl
@[simp] theorem setMap_thrOff (s : State) (f : Fld) (b : Nat) (v : Bool) (i j : Nat) : (s.setMap f b v i j).thrOff = s.thrOff := rfl
@[simp] theorem setMap_rgHits (s : State) (f : Fld) (b : Nat) (v : Bool) (i j : Nat) : (s.setMap f b v i j).rgHits = s.rgHits := rfl
@[simp] theorem setMap_trkWindow (s : State) (f : Fld) (b : Nat) (v : Bool) (i j : Nat) : (s.setMap f b v i j).trkWindow = s.trkWindow := rfl
@[simp] theorem setMap_hotNext (s : State) (f : Fld) (b : Nat) (v : Bool) (i j : Nat) : (s.setMap f b v i j).hotNext = s.hotNext := rfl
@[simp] theorem setMap_windows (s : State) (f : Fld) (b : Nat) (v : Bool) (i j : Nat) : (s.setMap f b v i j).windows = s.windows := rfl
@[simp] theorem setMap_triggers (s : State) (f : Fld) (b : Nat) (v : Bool) (i j : Nat) : (s.setMap f b v i j).triggers = s.triggers := rfl
@[simp] theorem setMap_rtrFrom (s : State) (f : Fld) (b : Nat) (v : Bool) (i j : Nat) : (s.setMap f b v i j).rtrFrom = s.rtrFrom := rfl
@[simp] theorem setMap_narrow (s : State) (f : Fld) (b : Nat) (v : Bool) (i j : Nat) : (s.setMap f b v i j).narrow = s.narrow := rfl
@[simp] theorem setMap_groups (s : State) (f : Fld) (b : Nat) (v : Bool) (i j : Nat) : (s.setMap f b v i j).groups = s.groups := rfl
@[simp] theorem setMap_groupsDue (s : State) (f : Fld) (b : Nat) (v : Bool) (i j : Nat) : (s.setMap f b v i j).groupsDue = s.groupsDue := rfl
@[simp] theorem setMap_gateOn (s : State) (f : Fld) (b : Nat) (v : Bool) (i j : Nat) : (s.setMap f b v i j).gateOn = s.gateOn := rfl
@[simp] theorem setMap_gateOff (s : State) (f : Fld) (b : Nat) (v : Bool) (i j : Nat) : (s.setMap f b v i j).gateOff = s.gateOff := rfl
@[simp] theorem setMap_calWait (s : State) (f : Fld) (b : Nat) (v : Bool) (i j : Nat) : (s.setMap f b v i j).calWait = s.calWait := rfl
@[simp] theorem setMap_latokDue (s : State) (f : Fld) (b : Nat) (v : Bool) (i j : Nat) : (s.setMap f b v i j).latokDue = s.latokDue := rfl
@[simp] theorem setMap_refilled (s : State) (f : Fld) (b : Nat) (v : Bool) (i j : Nat) : (s.setMap f b v i j).refilled = s.refilled := rfl
@[simp] theorem setMap_sampled (s : State) (f : Fld) (b : Nat) (v : Bool) (i j : Nat) : (s.setMap f b v i j).sampled = s.sampled := rfl
@[simp] theorem setMap_histClear (s : State) (f : Fld) (b : Nat) (v : Bool) (i j : Nat) : (s.setMap f b v i j).histClear = s.histClear := rfl
@[simp] theorem setMap_burstCuts (s : State) (f : Fld) (b : Nat) (v : Bool) (i j : Nat) : (s.setMap f b v i j).burstCuts = s.burstCuts := rfl
@[simp] theorem setMap_stackTemp (s : State) (f : Fld) (b : Nat) (v : Bool) (i j : Nat) : (s.setMap f b v i j).stackTemp = s.stackTemp := rfl
@[simp] theorem setMap_goodTemp (s : State) (f : Fld) (b : Nat) (v : Bool) (i j : Nat) : (s.setMap f b v i j).goodTemp = s.goodTemp := rfl
@[simp] theorem setMap_sampleAt (s : State) (f : Fld) (b : Nat) (v : Bool) (i j : Nat) : (s.setMap f b v i j).sampleAt = s.sampleAt := rfl
@[simp] theorem setMap_capUsed (s : State) (f : Fld) (b : Nat) (v : Bool) (i j : Nat) : (s.setMap f b v i j).capUsed = s.capUsed := rfl
@[simp] theorem setMap_recs (s : State) (f : Fld) (b : Nat) (v : Bool) (i j : Nat) : (s.setMap f b v i j).recs = s.recs := rfl
@[simp] theorem setMap_recTick (s : State) (f : Fld) (b : Nat) (v : Bool) (i j : Nat) : (s.setMap f b v i j).recTick = s.recTick := rfl
@[simp] theorem setMap_recLast (s : State) (f : Fld) (b : Nat) (v : Bool) (i j : Nat) : (s.setMap f b v i j).recLast = s.recLast := rfl
@[simp] theorem setMap_hist (s : State) (f : Fld) (b : Nat) (v : Bool) (i j : Nat) : (s.setMap f b v i j).hist = s.hist := rfl
@[simp] theorem setMap_histFlash (s : State) (f : Fld) (b : Nat) (v : Bool) (i j : Nat) : (s.setMap f b v i j).histFlash = s.histFlash := rfl
@[simp] theorem setMap_migs (s : State) (f : Fld) (b : Nat) (v : Bool) (i j : Nat) : (s.setMap f b v i j).migs = s.migs := rfl
@[simp] theorem setMap_migSeq (s : State) (f : Fld) (b : Nat) (v : Bool) (i j : Nat) : (s.setMap f b v i j).migSeq = s.migSeq := rfl
@[simp] theorem setMap_passes (s : State) (f : Fld) (b : Nat) (v : Bool) (i j : Nat) : (s.setMap f b v i j).passes = s.passes := rfl
@[simp] theorem setMap_frzOps (s : State) (f : Fld) (b : Nat) (v : Bool) (i j : Nat) : (s.setMap f b v i j).frzOps = s.frzOps := rfl
@[simp] theorem setMap_migWant (s : State) (f : Fld) (b : Nat) (v : Bool) (i j : Nat) : (s.setMap f b v i j).migWant = s.migWant := rfl
@[simp] theorem setMap_pprRows (s : State) (f : Fld) (b : Nat) (v : Bool) (i j : Nat) : (s.setMap f b v i j).pprRows = s.pprRows := rfl
@[simp] theorem setMap_tests (s : State) (f : Fld) (b : Nat) (v : Bool) (i j : Nat) : (s.setMap f b v i j).tests = s.tests := rfl
@[simp] theorem setMap_scrubs (s : State) (f : Fld) (b : Nat) (v : Bool) (i j : Nat) : (s.setMap f b v i j).scrubs = s.scrubs := rfl
@[simp] theorem setMap_sec (s : State) (f : Fld) (b : Nat) (v : Bool) (i j : Nat) : (s.setMap f b v i j).sec = s.sec := rfl
@[simp] theorem setMap_rings (s : State) (f : Fld) (b : Nat) (v : Bool) (i j : Nat) : (s.setMap f b v i j).rings = s.rings := rfl
@[simp] theorem setMap_lnts (s : State) (f : Fld) (b : Nat) (v : Bool) (i j : Nat) : (s.setMap f b v i j).lnts = s.lnts := rfl
@[simp] theorem setMap_posies (s : State) (f : Fld) (b : Nat) (v : Bool) (i j : Nat) : (s.setMap f b v i j).posies = s.posies := rfl
@[simp] theorem setMap_pmus (s : State) (f : Fld) (b : Nat) (v : Bool) (i j : Nat) : (s.setMap f b v i j).pmus = s.pmus := rfl
@[simp] theorem setMap_fw (s : State) (f : Fld) (b : Nat) (v : Bool) (i j : Nat) : (s.setMap f b v i j).fw = s.fw := rfl
@[simp] theorem setMap_pw (s : State) (f : Fld) (b : Nat) (v : Bool) (i j : Nat) : (s.setMap f b v i j).pw = s.pw := rfl
@[simp] theorem setMap_mir (s : State) (f : Fld) (b : Nat) (v : Bool) (i j : Nat) : (s.setMap f b v i j).mir = s.mir := rfl
@[simp] theorem setMap_advised (s : State) (f : Fld) (b : Nat) (v : Bool) (i j : Nat) : (s.setMap f b v i j).advised = s.advised := rfl

@[simp] theorem clearReg_pending (s : State) (r : RegName) (i j : Nat) : (s.clearReg r i j).pending = s.pending := rfl
@[simp] theorem clearReg_endpoint (s : State) (r : RegName) (i j : Nat) : (s.clearReg r i j).endpoint = s.endpoint := rfl
@[simp] theorem clearReg_clk (s : State) (r : RegName) (i j : Nat) : (s.clearReg r i j).clk = s.clk := rfl
@[simp] theorem clearReg_regs0 (s : State) (r : RegName) (i j : Nat) : (s.clearReg r i j).regs0 = s.regs0 := rfl
@[simp] theorem clearReg_regs1 (s : State) (r : RegName) (i j : Nat) : (s.clearReg r i j).regs1 = s.regs1 := rfl
@[simp] theorem clearReg_events (s : State) (r : RegName) (i j : Nat) : (s.clearReg r i j).events = s.events := rfl
@[simp] theorem clearReg_bytes (s : State) (r : RegName) (i j : Nat) : (s.clearReg r i j).bytes = s.bytes := rfl
@[simp] theorem clearReg_hiLatch (s : State) (r : RegName) (i j : Nat) : (s.clearReg r i j).hiLatch = s.hiLatch := rfl
@[simp] theorem clearReg_out (s : State) (r : RegName) (i j : Nat) : (s.clearReg r i j).out = s.out := rfl
@[simp] theorem clearReg_free (s : State) (r : RegName) (i j : Nat) : (s.clearReg r i j).free = s.free := rfl
@[simp] theorem clearReg_mem (s : State) (r : RegName) (i j : Nat) : (s.clearReg r i j).mem = s.mem := rfl
@[simp] theorem clearReg_fills (s : State) (r : RegName) (i j : Nat) : (s.clearReg r i j).fills = s.fills := rfl
@[simp] theorem clearReg_plots (s : State) (r : RegName) (i j : Nat) : (s.clearReg r i j).plots = s.plots := rfl
@[simp] theorem clearReg_quar (s : State) (r : RegName) (i j : Nat) : (s.clearReg r i j).quar = s.quar := rfl
@[simp] theorem clearReg_plotDue (s : State) (r : RegName) (i j : Nat) : (s.clearReg r i j).plotDue = s.plotDue := rfl
@[simp] theorem clearReg_deadFrames (s : State) (r : RegName) (i j : Nat) : (s.clearReg r i j).deadFrames = s.deadFrames := rfl
@[simp] theorem clearReg_unbacked (s : State) (r : RegName) (i j : Nat) : (s.clearReg r i j).unbacked = s.unbacked := rfl
@[simp] theorem clearReg_flights (s : State) (r : RegName) (i j : Nat) : (s.clearReg r i j).flights = s.flights := rfl
@[simp] theorem clearReg_nextId (s : State) (r : RegName) (i j : Nat) : (s.clearReg r i j).nextId = s.nextId := rfl
@[simp] theorem clearReg_order (s : State) (r : RegName) (i j : Nat) : (s.clearReg r i j).order = s.order := rfl
@[simp] theorem clearReg_locks (s : State) (r : RegName) (i j : Nat) : (s.clearReg r i j).locks = s.locks := rfl
@[simp] theorem clearReg_credits (s : State) (r : RegName) (i j : Nat) : (s.clearReg r i j).credits = s.credits := rfl
@[simp] theorem clearReg_slices (s : State) (r : RegName) (i j : Nat) : (s.clearReg r i j).slices = s.slices := rfl
@[simp] theorem clearReg_waitSeen (s : State) (r : RegName) (i j : Nat) : (s.clearReg r i j).waitSeen = s.waitSeen := rfl
@[simp] theorem clearReg_pcs (s : State) (r : RegName) (i j : Nat) : (s.clearReg r i j).pcs = s.pcs := rfl
@[simp] theorem clearReg_holds (s : State) (r : RegName) (i j : Nat) : (s.clearReg r i j).holds = s.holds := rfl
@[simp] theorem clearReg_throttles (s : State) (r : RegName) (i j : Nat) : (s.clearReg r i j).throttles = s.throttles := rfl
@[simp] theorem clearReg_thrOff (s : State) (r : RegName) (i j : Nat) : (s.clearReg r i j).thrOff = s.thrOff := rfl
@[simp] theorem clearReg_rgHits (s : State) (r : RegName) (i j : Nat) : (s.clearReg r i j).rgHits = s.rgHits := rfl
@[simp] theorem clearReg_trkWindow (s : State) (r : RegName) (i j : Nat) : (s.clearReg r i j).trkWindow = s.trkWindow := rfl
@[simp] theorem clearReg_hotNext (s : State) (r : RegName) (i j : Nat) : (s.clearReg r i j).hotNext = s.hotNext := rfl
@[simp] theorem clearReg_windows (s : State) (r : RegName) (i j : Nat) : (s.clearReg r i j).windows = s.windows := rfl
@[simp] theorem clearReg_triggers (s : State) (r : RegName) (i j : Nat) : (s.clearReg r i j).triggers = s.triggers := rfl
@[simp] theorem clearReg_rtrFrom (s : State) (r : RegName) (i j : Nat) : (s.clearReg r i j).rtrFrom = s.rtrFrom := rfl
@[simp] theorem clearReg_narrow (s : State) (r : RegName) (i j : Nat) : (s.clearReg r i j).narrow = s.narrow := rfl
@[simp] theorem clearReg_groups (s : State) (r : RegName) (i j : Nat) : (s.clearReg r i j).groups = s.groups := rfl
@[simp] theorem clearReg_groupsDue (s : State) (r : RegName) (i j : Nat) : (s.clearReg r i j).groupsDue = s.groupsDue := rfl
@[simp] theorem clearReg_gateOn (s : State) (r : RegName) (i j : Nat) : (s.clearReg r i j).gateOn = s.gateOn := rfl
@[simp] theorem clearReg_gateOff (s : State) (r : RegName) (i j : Nat) : (s.clearReg r i j).gateOff = s.gateOff := rfl
@[simp] theorem clearReg_calWait (s : State) (r : RegName) (i j : Nat) : (s.clearReg r i j).calWait = s.calWait := rfl
@[simp] theorem clearReg_latokDue (s : State) (r : RegName) (i j : Nat) : (s.clearReg r i j).latokDue = s.latokDue := rfl
@[simp] theorem clearReg_refilled (s : State) (r : RegName) (i j : Nat) : (s.clearReg r i j).refilled = s.refilled := rfl
@[simp] theorem clearReg_sampled (s : State) (r : RegName) (i j : Nat) : (s.clearReg r i j).sampled = s.sampled := rfl
@[simp] theorem clearReg_histClear (s : State) (r : RegName) (i j : Nat) : (s.clearReg r i j).histClear = s.histClear := rfl
@[simp] theorem clearReg_burstCuts (s : State) (r : RegName) (i j : Nat) : (s.clearReg r i j).burstCuts = s.burstCuts := rfl
@[simp] theorem clearReg_stackTemp (s : State) (r : RegName) (i j : Nat) : (s.clearReg r i j).stackTemp = s.stackTemp := rfl
@[simp] theorem clearReg_goodTemp (s : State) (r : RegName) (i j : Nat) : (s.clearReg r i j).goodTemp = s.goodTemp := rfl
@[simp] theorem clearReg_sampleAt (s : State) (r : RegName) (i j : Nat) : (s.clearReg r i j).sampleAt = s.sampleAt := rfl
@[simp] theorem clearReg_capUsed (s : State) (r : RegName) (i j : Nat) : (s.clearReg r i j).capUsed = s.capUsed := rfl
@[simp] theorem clearReg_recs (s : State) (r : RegName) (i j : Nat) : (s.clearReg r i j).recs = s.recs := rfl
@[simp] theorem clearReg_recTick (s : State) (r : RegName) (i j : Nat) : (s.clearReg r i j).recTick = s.recTick := rfl
@[simp] theorem clearReg_recLast (s : State) (r : RegName) (i j : Nat) : (s.clearReg r i j).recLast = s.recLast := rfl
@[simp] theorem clearReg_hist (s : State) (r : RegName) (i j : Nat) : (s.clearReg r i j).hist = s.hist := rfl
@[simp] theorem clearReg_histFlash (s : State) (r : RegName) (i j : Nat) : (s.clearReg r i j).histFlash = s.histFlash := rfl
@[simp] theorem clearReg_migs (s : State) (r : RegName) (i j : Nat) : (s.clearReg r i j).migs = s.migs := rfl
@[simp] theorem clearReg_migSeq (s : State) (r : RegName) (i j : Nat) : (s.clearReg r i j).migSeq = s.migSeq := rfl
@[simp] theorem clearReg_passes (s : State) (r : RegName) (i j : Nat) : (s.clearReg r i j).passes = s.passes := rfl
@[simp] theorem clearReg_frzOps (s : State) (r : RegName) (i j : Nat) : (s.clearReg r i j).frzOps = s.frzOps := rfl
@[simp] theorem clearReg_migWant (s : State) (r : RegName) (i j : Nat) : (s.clearReg r i j).migWant = s.migWant := rfl
@[simp] theorem clearReg_pprRows (s : State) (r : RegName) (i j : Nat) : (s.clearReg r i j).pprRows = s.pprRows := rfl
@[simp] theorem clearReg_tests (s : State) (r : RegName) (i j : Nat) : (s.clearReg r i j).tests = s.tests := rfl
@[simp] theorem clearReg_scrubs (s : State) (r : RegName) (i j : Nat) : (s.clearReg r i j).scrubs = s.scrubs := rfl
@[simp] theorem clearReg_sec (s : State) (r : RegName) (i j : Nat) : (s.clearReg r i j).sec = s.sec := rfl
@[simp] theorem clearReg_rings (s : State) (r : RegName) (i j : Nat) : (s.clearReg r i j).rings = s.rings := rfl
@[simp] theorem clearReg_lnts (s : State) (r : RegName) (i j : Nat) : (s.clearReg r i j).lnts = s.lnts := rfl
@[simp] theorem clearReg_posies (s : State) (r : RegName) (i j : Nat) : (s.clearReg r i j).posies = s.posies := rfl
@[simp] theorem clearReg_pmus (s : State) (r : RegName) (i j : Nat) : (s.clearReg r i j).pmus = s.pmus := rfl
@[simp] theorem clearReg_fw (s : State) (r : RegName) (i j : Nat) : (s.clearReg r i j).fw = s.fw := rfl
@[simp] theorem clearReg_pw (s : State) (r : RegName) (i j : Nat) : (s.clearReg r i j).pw = s.pw := rfl
@[simp] theorem clearReg_mir (s : State) (r : RegName) (i j : Nat) : (s.clearReg r i j).mir = s.mir := rfl
@[simp] theorem clearReg_advised (s : State) (r : RegName) (i j : Nat) : (s.clearReg r i j).advised = s.advised := rfl

@[simp] theorem send_pending (s : State) (o : Output) : (s.send o).pending = s.pending := rfl
@[simp] theorem send_endpoint (s : State) (o : Output) : (s.send o).endpoint = s.endpoint := rfl
@[simp] theorem send_clk (s : State) (o : Output) : (s.send o).clk = s.clk := rfl
@[simp] theorem send_regs (s : State) (o : Output) : (s.send o).regs = s.regs := rfl
@[simp] theorem send_regs0 (s : State) (o : Output) : (s.send o).regs0 = s.regs0 := rfl
@[simp] theorem send_regs1 (s : State) (o : Output) : (s.send o).regs1 = s.regs1 := rfl
@[simp] theorem send_events (s : State) (o : Output) : (s.send o).events = s.events := rfl
@[simp] theorem send_bytes (s : State) (o : Output) : (s.send o).bytes = s.bytes := rfl
@[simp] theorem send_hiLatch (s : State) (o : Output) : (s.send o).hiLatch = s.hiLatch := rfl
@[simp] theorem send_free (s : State) (o : Output) : (s.send o).free = s.free := rfl
@[simp] theorem send_mem (s : State) (o : Output) : (s.send o).mem = s.mem := rfl
@[simp] theorem send_fills (s : State) (o : Output) : (s.send o).fills = s.fills := rfl
@[simp] theorem send_plots (s : State) (o : Output) : (s.send o).plots = s.plots := rfl
@[simp] theorem send_quar (s : State) (o : Output) : (s.send o).quar = s.quar := rfl
@[simp] theorem send_plotDue (s : State) (o : Output) : (s.send o).plotDue = s.plotDue := rfl
@[simp] theorem send_deadFrames (s : State) (o : Output) : (s.send o).deadFrames = s.deadFrames := rfl
@[simp] theorem send_unbacked (s : State) (o : Output) : (s.send o).unbacked = s.unbacked := rfl
@[simp] theorem send_flights (s : State) (o : Output) : (s.send o).flights = s.flights := rfl
@[simp] theorem send_nextId (s : State) (o : Output) : (s.send o).nextId = s.nextId := rfl
@[simp] theorem send_order (s : State) (o : Output) : (s.send o).order = s.order := rfl
@[simp] theorem send_locks (s : State) (o : Output) : (s.send o).locks = s.locks := rfl
@[simp] theorem send_credits (s : State) (o : Output) : (s.send o).credits = s.credits := rfl
@[simp] theorem send_slices (s : State) (o : Output) : (s.send o).slices = s.slices := rfl
@[simp] theorem send_waitSeen (s : State) (o : Output) : (s.send o).waitSeen = s.waitSeen := rfl
@[simp] theorem send_pcs (s : State) (o : Output) : (s.send o).pcs = s.pcs := rfl
@[simp] theorem send_holds (s : State) (o : Output) : (s.send o).holds = s.holds := rfl
@[simp] theorem send_throttles (s : State) (o : Output) : (s.send o).throttles = s.throttles := rfl
@[simp] theorem send_thrOff (s : State) (o : Output) : (s.send o).thrOff = s.thrOff := rfl
@[simp] theorem send_rgHits (s : State) (o : Output) : (s.send o).rgHits = s.rgHits := rfl
@[simp] theorem send_trkWindow (s : State) (o : Output) : (s.send o).trkWindow = s.trkWindow := rfl
@[simp] theorem send_hotNext (s : State) (o : Output) : (s.send o).hotNext = s.hotNext := rfl
@[simp] theorem send_windows (s : State) (o : Output) : (s.send o).windows = s.windows := rfl
@[simp] theorem send_triggers (s : State) (o : Output) : (s.send o).triggers = s.triggers := rfl
@[simp] theorem send_rtrFrom (s : State) (o : Output) : (s.send o).rtrFrom = s.rtrFrom := rfl
@[simp] theorem send_narrow (s : State) (o : Output) : (s.send o).narrow = s.narrow := rfl
@[simp] theorem send_groups (s : State) (o : Output) : (s.send o).groups = s.groups := rfl
@[simp] theorem send_groupsDue (s : State) (o : Output) : (s.send o).groupsDue = s.groupsDue := rfl
@[simp] theorem send_gateOn (s : State) (o : Output) : (s.send o).gateOn = s.gateOn := rfl
@[simp] theorem send_gateOff (s : State) (o : Output) : (s.send o).gateOff = s.gateOff := rfl
@[simp] theorem send_calWait (s : State) (o : Output) : (s.send o).calWait = s.calWait := rfl
@[simp] theorem send_latokDue (s : State) (o : Output) : (s.send o).latokDue = s.latokDue := rfl
@[simp] theorem send_refilled (s : State) (o : Output) : (s.send o).refilled = s.refilled := rfl
@[simp] theorem send_sampled (s : State) (o : Output) : (s.send o).sampled = s.sampled := rfl
@[simp] theorem send_histClear (s : State) (o : Output) : (s.send o).histClear = s.histClear := rfl
@[simp] theorem send_burstCuts (s : State) (o : Output) : (s.send o).burstCuts = s.burstCuts := rfl
@[simp] theorem send_stackTemp (s : State) (o : Output) : (s.send o).stackTemp = s.stackTemp := rfl
@[simp] theorem send_goodTemp (s : State) (o : Output) : (s.send o).goodTemp = s.goodTemp := rfl
@[simp] theorem send_sampleAt (s : State) (o : Output) : (s.send o).sampleAt = s.sampleAt := rfl
@[simp] theorem send_capUsed (s : State) (o : Output) : (s.send o).capUsed = s.capUsed := rfl
@[simp] theorem send_recs (s : State) (o : Output) : (s.send o).recs = s.recs := rfl
@[simp] theorem send_recTick (s : State) (o : Output) : (s.send o).recTick = s.recTick := rfl
@[simp] theorem send_recLast (s : State) (o : Output) : (s.send o).recLast = s.recLast := rfl
@[simp] theorem send_hist (s : State) (o : Output) : (s.send o).hist = s.hist := rfl
@[simp] theorem send_histFlash (s : State) (o : Output) : (s.send o).histFlash = s.histFlash := rfl
@[simp] theorem send_migs (s : State) (o : Output) : (s.send o).migs = s.migs := rfl
@[simp] theorem send_migSeq (s : State) (o : Output) : (s.send o).migSeq = s.migSeq := rfl
@[simp] theorem send_passes (s : State) (o : Output) : (s.send o).passes = s.passes := rfl
@[simp] theorem send_frzOps (s : State) (o : Output) : (s.send o).frzOps = s.frzOps := rfl
@[simp] theorem send_migWant (s : State) (o : Output) : (s.send o).migWant = s.migWant := rfl
@[simp] theorem send_pprRows (s : State) (o : Output) : (s.send o).pprRows = s.pprRows := rfl
@[simp] theorem send_tests (s : State) (o : Output) : (s.send o).tests = s.tests := rfl
@[simp] theorem send_scrubs (s : State) (o : Output) : (s.send o).scrubs = s.scrubs := rfl
@[simp] theorem send_sec (s : State) (o : Output) : (s.send o).sec = s.sec := rfl
@[simp] theorem send_rings (s : State) (o : Output) : (s.send o).rings = s.rings := rfl
@[simp] theorem send_lnts (s : State) (o : Output) : (s.send o).lnts = s.lnts := rfl
@[simp] theorem send_posies (s : State) (o : Output) : (s.send o).posies = s.posies := rfl
@[simp] theorem send_pmus (s : State) (o : Output) : (s.send o).pmus = s.pmus := rfl
@[simp] theorem send_fw (s : State) (o : Output) : (s.send o).fw = s.fw := rfl
@[simp] theorem send_pw (s : State) (o : Output) : (s.send o).pw = s.pw := rfl
@[simp] theorem send_mir (s : State) (o : Output) : (s.send o).mir = s.mir := rfl
@[simp] theorem send_advised (s : State) (o : Output) : (s.send o).advised = s.advised := rfl
@[simp] theorem reg_send (s : State) (o : Output) (r : RegName) (x y : Nat) : (s.send o).reg r x y = s.reg r x y := rfl
@[simp] theorem rd_send (s : State) (o : Output) (fd : Fld) (x y : Nat) : (s.send o).rd fd x y = s.rd fd x y := rfl
@[simp] theorem bit_send (s : State) (o : Output) (fd : Fld) (x y : Nat) : (s.send o).bit fd x y = s.bit fd x y := rfl

@[simp] theorem audit_pending (s : State) (a b c d e f : Nat) (g : BitVec 256) : (s.audit a b c d e f g).pending = s.pending := rfl
@[simp] theorem audit_endpoint (s : State) (a b c d e f : Nat) (g : BitVec 256) : (s.audit a b c d e f g).endpoint = s.endpoint := rfl
@[simp] theorem audit_clk (s : State) (a b c d e f : Nat) (g : BitVec 256) : (s.audit a b c d e f g).clk = s.clk := rfl
@[simp] theorem audit_regs (s : State) (a b c d e f : Nat) (g : BitVec 256) : (s.audit a b c d e f g).regs = s.regs := rfl
@[simp] theorem audit_regs0 (s : State) (a b c d e f : Nat) (g : BitVec 256) : (s.audit a b c d e f g).regs0 = s.regs0 := rfl
@[simp] theorem audit_regs1 (s : State) (a b c d e f : Nat) (g : BitVec 256) : (s.audit a b c d e f g).regs1 = s.regs1 := rfl
@[simp] theorem audit_events (s : State) (a b c d e f : Nat) (g : BitVec 256) : (s.audit a b c d e f g).events = s.events := rfl
@[simp] theorem audit_bytes (s : State) (a b c d e f : Nat) (g : BitVec 256) : (s.audit a b c d e f g).bytes = s.bytes := rfl
@[simp] theorem audit_hiLatch (s : State) (a b c d e f : Nat) (g : BitVec 256) : (s.audit a b c d e f g).hiLatch = s.hiLatch := rfl
@[simp] theorem audit_out (s : State) (a b c d e f : Nat) (g : BitVec 256) : (s.audit a b c d e f g).out = s.out := rfl
@[simp] theorem audit_free (s : State) (a b c d e f : Nat) (g : BitVec 256) : (s.audit a b c d e f g).free = s.free := rfl
@[simp] theorem audit_mem (s : State) (a b c d e f : Nat) (g : BitVec 256) : (s.audit a b c d e f g).mem = s.mem := rfl
@[simp] theorem audit_fills (s : State) (a b c d e f : Nat) (g : BitVec 256) : (s.audit a b c d e f g).fills = s.fills := rfl
@[simp] theorem audit_plots (s : State) (a b c d e f : Nat) (g : BitVec 256) : (s.audit a b c d e f g).plots = s.plots := rfl
@[simp] theorem audit_quar (s : State) (a b c d e f : Nat) (g : BitVec 256) : (s.audit a b c d e f g).quar = s.quar := rfl
@[simp] theorem audit_plotDue (s : State) (a b c d e f : Nat) (g : BitVec 256) : (s.audit a b c d e f g).plotDue = s.plotDue := rfl
@[simp] theorem audit_deadFrames (s : State) (a b c d e f : Nat) (g : BitVec 256) : (s.audit a b c d e f g).deadFrames = s.deadFrames := rfl
@[simp] theorem audit_unbacked (s : State) (a b c d e f : Nat) (g : BitVec 256) : (s.audit a b c d e f g).unbacked = s.unbacked := rfl
@[simp] theorem audit_flights (s : State) (a b c d e f : Nat) (g : BitVec 256) : (s.audit a b c d e f g).flights = s.flights := rfl
@[simp] theorem audit_nextId (s : State) (a b c d e f : Nat) (g : BitVec 256) : (s.audit a b c d e f g).nextId = s.nextId := rfl
@[simp] theorem audit_order (s : State) (a b c d e f : Nat) (g : BitVec 256) : (s.audit a b c d e f g).order = s.order := rfl
@[simp] theorem audit_locks (s : State) (a b c d e f : Nat) (g : BitVec 256) : (s.audit a b c d e f g).locks = s.locks := rfl
@[simp] theorem audit_credits (s : State) (a b c d e f : Nat) (g : BitVec 256) : (s.audit a b c d e f g).credits = s.credits := rfl
@[simp] theorem audit_slices (s : State) (a b c d e f : Nat) (g : BitVec 256) : (s.audit a b c d e f g).slices = s.slices := rfl
@[simp] theorem audit_waitSeen (s : State) (a b c d e f : Nat) (g : BitVec 256) : (s.audit a b c d e f g).waitSeen = s.waitSeen := rfl
@[simp] theorem audit_pcs (s : State) (a b c d e f : Nat) (g : BitVec 256) : (s.audit a b c d e f g).pcs = s.pcs := rfl
@[simp] theorem audit_holds (s : State) (a b c d e f : Nat) (g : BitVec 256) : (s.audit a b c d e f g).holds = s.holds := rfl
@[simp] theorem audit_throttles (s : State) (a b c d e f : Nat) (g : BitVec 256) : (s.audit a b c d e f g).throttles = s.throttles := rfl
@[simp] theorem audit_thrOff (s : State) (a b c d e f : Nat) (g : BitVec 256) : (s.audit a b c d e f g).thrOff = s.thrOff := rfl
@[simp] theorem audit_rgHits (s : State) (a b c d e f : Nat) (g : BitVec 256) : (s.audit a b c d e f g).rgHits = s.rgHits := rfl
@[simp] theorem audit_trkWindow (s : State) (a b c d e f : Nat) (g : BitVec 256) : (s.audit a b c d e f g).trkWindow = s.trkWindow := rfl
@[simp] theorem audit_hotNext (s : State) (a b c d e f : Nat) (g : BitVec 256) : (s.audit a b c d e f g).hotNext = s.hotNext := rfl
@[simp] theorem audit_windows (s : State) (a b c d e f : Nat) (g : BitVec 256) : (s.audit a b c d e f g).windows = s.windows := rfl
@[simp] theorem audit_triggers (s : State) (a b c d e f : Nat) (g : BitVec 256) : (s.audit a b c d e f g).triggers = s.triggers := rfl
@[simp] theorem audit_rtrFrom (s : State) (a b c d e f : Nat) (g : BitVec 256) : (s.audit a b c d e f g).rtrFrom = s.rtrFrom := rfl
@[simp] theorem audit_narrow (s : State) (a b c d e f : Nat) (g : BitVec 256) : (s.audit a b c d e f g).narrow = s.narrow := rfl
@[simp] theorem audit_groups (s : State) (a b c d e f : Nat) (g : BitVec 256) : (s.audit a b c d e f g).groups = s.groups := rfl
@[simp] theorem audit_groupsDue (s : State) (a b c d e f : Nat) (g : BitVec 256) : (s.audit a b c d e f g).groupsDue = s.groupsDue := rfl
@[simp] theorem audit_gateOn (s : State) (a b c d e f : Nat) (g : BitVec 256) : (s.audit a b c d e f g).gateOn = s.gateOn := rfl
@[simp] theorem audit_gateOff (s : State) (a b c d e f : Nat) (g : BitVec 256) : (s.audit a b c d e f g).gateOff = s.gateOff := rfl
@[simp] theorem audit_calWait (s : State) (a b c d e f : Nat) (g : BitVec 256) : (s.audit a b c d e f g).calWait = s.calWait := rfl
@[simp] theorem audit_latokDue (s : State) (a b c d e f : Nat) (g : BitVec 256) : (s.audit a b c d e f g).latokDue = s.latokDue := rfl
@[simp] theorem audit_refilled (s : State) (a b c d e f : Nat) (g : BitVec 256) : (s.audit a b c d e f g).refilled = s.refilled := rfl
@[simp] theorem audit_sampled (s : State) (a b c d e f : Nat) (g : BitVec 256) : (s.audit a b c d e f g).sampled = s.sampled := rfl
@[simp] theorem audit_histClear (s : State) (a b c d e f : Nat) (g : BitVec 256) : (s.audit a b c d e f g).histClear = s.histClear := rfl
@[simp] theorem audit_burstCuts (s : State) (a b c d e f : Nat) (g : BitVec 256) : (s.audit a b c d e f g).burstCuts = s.burstCuts := rfl
@[simp] theorem audit_stackTemp (s : State) (a b c d e f : Nat) (g : BitVec 256) : (s.audit a b c d e f g).stackTemp = s.stackTemp := rfl
@[simp] theorem audit_goodTemp (s : State) (a b c d e f : Nat) (g : BitVec 256) : (s.audit a b c d e f g).goodTemp = s.goodTemp := rfl
@[simp] theorem audit_sampleAt (s : State) (a b c d e f : Nat) (g : BitVec 256) : (s.audit a b c d e f g).sampleAt = s.sampleAt := rfl
@[simp] theorem audit_capUsed (s : State) (a b c d e f : Nat) (g : BitVec 256) : (s.audit a b c d e f g).capUsed = s.capUsed := rfl
@[simp] theorem audit_recs (s : State) (a b c d e f : Nat) (g : BitVec 256) : (s.audit a b c d e f g).recs = s.recs := rfl
@[simp] theorem audit_recTick (s : State) (a b c d e f : Nat) (g : BitVec 256) : (s.audit a b c d e f g).recTick = s.recTick := rfl
@[simp] theorem audit_recLast (s : State) (a b c d e f : Nat) (g : BitVec 256) : (s.audit a b c d e f g).recLast = s.recLast := rfl
@[simp] theorem audit_hist (s : State) (a b c d e f : Nat) (g : BitVec 256) : (s.audit a b c d e f g).hist = s.hist := rfl
@[simp] theorem audit_histFlash (s : State) (a b c d e f : Nat) (g : BitVec 256) : (s.audit a b c d e f g).histFlash = s.histFlash := rfl
@[simp] theorem audit_migs (s : State) (a b c d e f : Nat) (g : BitVec 256) : (s.audit a b c d e f g).migs = s.migs := rfl
@[simp] theorem audit_migSeq (s : State) (a b c d e f : Nat) (g : BitVec 256) : (s.audit a b c d e f g).migSeq = s.migSeq := rfl
@[simp] theorem audit_passes (s : State) (a b c d e f : Nat) (g : BitVec 256) : (s.audit a b c d e f g).passes = s.passes := rfl
@[simp] theorem audit_frzOps (s : State) (a b c d e f : Nat) (g : BitVec 256) : (s.audit a b c d e f g).frzOps = s.frzOps := rfl
@[simp] theorem audit_migWant (s : State) (a b c d e f : Nat) (g : BitVec 256) : (s.audit a b c d e f g).migWant = s.migWant := rfl
@[simp] theorem audit_pprRows (s : State) (a b c d e f : Nat) (g : BitVec 256) : (s.audit a b c d e f g).pprRows = s.pprRows := rfl
@[simp] theorem audit_tests (s : State) (a b c d e f : Nat) (g : BitVec 256) : (s.audit a b c d e f g).tests = s.tests := rfl
@[simp] theorem audit_scrubs (s : State) (a b c d e f : Nat) (g : BitVec 256) : (s.audit a b c d e f g).scrubs = s.scrubs := rfl
@[simp] theorem audit_rings (s : State) (a b c d e f : Nat) (g : BitVec 256) : (s.audit a b c d e f g).rings = s.rings := rfl
@[simp] theorem audit_lnts (s : State) (a b c d e f : Nat) (g : BitVec 256) : (s.audit a b c d e f g).lnts = s.lnts := rfl
@[simp] theorem audit_posies (s : State) (a b c d e f : Nat) (g : BitVec 256) : (s.audit a b c d e f g).posies = s.posies := rfl
@[simp] theorem audit_pmus (s : State) (a b c d e f : Nat) (g : BitVec 256) : (s.audit a b c d e f g).pmus = s.pmus := rfl
@[simp] theorem audit_fw (s : State) (a b c d e f : Nat) (g : BitVec 256) : (s.audit a b c d e f g).fw = s.fw := rfl
@[simp] theorem audit_pw (s : State) (a b c d e f : Nat) (g : BitVec 256) : (s.audit a b c d e f g).pw = s.pw := rfl
@[simp] theorem audit_mir (s : State) (a b c d e f : Nat) (g : BitVec 256) : (s.audit a b c d e f g).mir = s.mir := rfl
@[simp] theorem audit_advised (s : State) (a b c d e f : Nat) (g : BitVec 256) : (s.audit a b c d e f g).advised = s.advised := rfl
@[simp] theorem reg_audit (s : State) (a b c d e f : Nat) (g : BitVec 256) (r : RegName) (x y : Nat) : (s.audit a b c d e f g).reg r x y = s.reg r x y := rfl
@[simp] theorem rd_audit (s : State) (a b c d e f : Nat) (g : BitVec 256) (fd : Fld) (x y : Nat) : (s.audit a b c d e f g).rd fd x y = s.rd fd x y := rfl
@[simp] theorem bit_audit (s : State) (a b c d e f : Nat) (g : BitVec 256) (fd : Fld) (x y : Nat) : (s.audit a b c d e f g).bit fd x y = s.bit fd x y := rfl

@[simp] theorem setPc_pending (s : State) (k p : Nat) (v : Pc) : (s.setPc k p v).pending = s.pending := rfl
@[simp] theorem setPc_endpoint (s : State) (k p : Nat) (v : Pc) : (s.setPc k p v).endpoint = s.endpoint := rfl
@[simp] theorem setPc_clk (s : State) (k p : Nat) (v : Pc) : (s.setPc k p v).clk = s.clk := rfl
@[simp] theorem setPc_regs (s : State) (k p : Nat) (v : Pc) : (s.setPc k p v).regs = s.regs := rfl
@[simp] theorem setPc_regs0 (s : State) (k p : Nat) (v : Pc) : (s.setPc k p v).regs0 = s.regs0 := rfl
@[simp] theorem setPc_regs1 (s : State) (k p : Nat) (v : Pc) : (s.setPc k p v).regs1 = s.regs1 := rfl
@[simp] theorem setPc_events (s : State) (k p : Nat) (v : Pc) : (s.setPc k p v).events = s.events := rfl
@[simp] theorem setPc_bytes (s : State) (k p : Nat) (v : Pc) : (s.setPc k p v).bytes = s.bytes := rfl
@[simp] theorem setPc_hiLatch (s : State) (k p : Nat) (v : Pc) : (s.setPc k p v).hiLatch = s.hiLatch := rfl
@[simp] theorem setPc_out (s : State) (k p : Nat) (v : Pc) : (s.setPc k p v).out = s.out := rfl
@[simp] theorem setPc_free (s : State) (k p : Nat) (v : Pc) : (s.setPc k p v).free = s.free := rfl
@[simp] theorem setPc_mem (s : State) (k p : Nat) (v : Pc) : (s.setPc k p v).mem = s.mem := rfl
@[simp] theorem setPc_fills (s : State) (k p : Nat) (v : Pc) : (s.setPc k p v).fills = s.fills := rfl
@[simp] theorem setPc_plots (s : State) (k p : Nat) (v : Pc) : (s.setPc k p v).plots = s.plots := rfl
@[simp] theorem setPc_quar (s : State) (k p : Nat) (v : Pc) : (s.setPc k p v).quar = s.quar := rfl
@[simp] theorem setPc_plotDue (s : State) (k p : Nat) (v : Pc) : (s.setPc k p v).plotDue = s.plotDue := rfl
@[simp] theorem setPc_deadFrames (s : State) (k p : Nat) (v : Pc) : (s.setPc k p v).deadFrames = s.deadFrames := rfl
@[simp] theorem setPc_unbacked (s : State) (k p : Nat) (v : Pc) : (s.setPc k p v).unbacked = s.unbacked := rfl
@[simp] theorem setPc_flights (s : State) (k p : Nat) (v : Pc) : (s.setPc k p v).flights = s.flights := rfl
@[simp] theorem setPc_nextId (s : State) (k p : Nat) (v : Pc) : (s.setPc k p v).nextId = s.nextId := rfl
@[simp] theorem setPc_order (s : State) (k p : Nat) (v : Pc) : (s.setPc k p v).order = s.order := rfl
@[simp] theorem setPc_locks (s : State) (k p : Nat) (v : Pc) : (s.setPc k p v).locks = s.locks := rfl
@[simp] theorem setPc_credits (s : State) (k p : Nat) (v : Pc) : (s.setPc k p v).credits = s.credits := rfl
@[simp] theorem setPc_slices (s : State) (k p : Nat) (v : Pc) : (s.setPc k p v).slices = s.slices := rfl
@[simp] theorem setPc_waitSeen (s : State) (k p : Nat) (v : Pc) : (s.setPc k p v).waitSeen = s.waitSeen := rfl
@[simp] theorem setPc_holds (s : State) (k p : Nat) (v : Pc) : (s.setPc k p v).holds = s.holds := rfl
@[simp] theorem setPc_throttles (s : State) (k p : Nat) (v : Pc) : (s.setPc k p v).throttles = s.throttles := rfl
@[simp] theorem setPc_thrOff (s : State) (k p : Nat) (v : Pc) : (s.setPc k p v).thrOff = s.thrOff := rfl
@[simp] theorem setPc_rgHits (s : State) (k p : Nat) (v : Pc) : (s.setPc k p v).rgHits = s.rgHits := rfl
@[simp] theorem setPc_trkWindow (s : State) (k p : Nat) (v : Pc) : (s.setPc k p v).trkWindow = s.trkWindow := rfl
@[simp] theorem setPc_hotNext (s : State) (k p : Nat) (v : Pc) : (s.setPc k p v).hotNext = s.hotNext := rfl
@[simp] theorem setPc_windows (s : State) (k p : Nat) (v : Pc) : (s.setPc k p v).windows = s.windows := rfl
@[simp] theorem setPc_triggers (s : State) (k p : Nat) (v : Pc) : (s.setPc k p v).triggers = s.triggers := rfl
@[simp] theorem setPc_rtrFrom (s : State) (k p : Nat) (v : Pc) : (s.setPc k p v).rtrFrom = s.rtrFrom := rfl
@[simp] theorem setPc_narrow (s : State) (k p : Nat) (v : Pc) : (s.setPc k p v).narrow = s.narrow := rfl
@[simp] theorem setPc_groups (s : State) (k p : Nat) (v : Pc) : (s.setPc k p v).groups = s.groups := rfl
@[simp] theorem setPc_groupsDue (s : State) (k p : Nat) (v : Pc) : (s.setPc k p v).groupsDue = s.groupsDue := rfl
@[simp] theorem setPc_gateOn (s : State) (k p : Nat) (v : Pc) : (s.setPc k p v).gateOn = s.gateOn := rfl
@[simp] theorem setPc_gateOff (s : State) (k p : Nat) (v : Pc) : (s.setPc k p v).gateOff = s.gateOff := rfl
@[simp] theorem setPc_calWait (s : State) (k p : Nat) (v : Pc) : (s.setPc k p v).calWait = s.calWait := rfl
@[simp] theorem setPc_latokDue (s : State) (k p : Nat) (v : Pc) : (s.setPc k p v).latokDue = s.latokDue := rfl
@[simp] theorem setPc_refilled (s : State) (k p : Nat) (v : Pc) : (s.setPc k p v).refilled = s.refilled := rfl
@[simp] theorem setPc_sampled (s : State) (k p : Nat) (v : Pc) : (s.setPc k p v).sampled = s.sampled := rfl
@[simp] theorem setPc_histClear (s : State) (k p : Nat) (v : Pc) : (s.setPc k p v).histClear = s.histClear := rfl
@[simp] theorem setPc_burstCuts (s : State) (k p : Nat) (v : Pc) : (s.setPc k p v).burstCuts = s.burstCuts := rfl
@[simp] theorem setPc_stackTemp (s : State) (k p : Nat) (v : Pc) : (s.setPc k p v).stackTemp = s.stackTemp := rfl
@[simp] theorem setPc_goodTemp (s : State) (k p : Nat) (v : Pc) : (s.setPc k p v).goodTemp = s.goodTemp := rfl
@[simp] theorem setPc_sampleAt (s : State) (k p : Nat) (v : Pc) : (s.setPc k p v).sampleAt = s.sampleAt := rfl
@[simp] theorem setPc_capUsed (s : State) (k p : Nat) (v : Pc) : (s.setPc k p v).capUsed = s.capUsed := rfl
@[simp] theorem setPc_recs (s : State) (k p : Nat) (v : Pc) : (s.setPc k p v).recs = s.recs := rfl
@[simp] theorem setPc_recTick (s : State) (k p : Nat) (v : Pc) : (s.setPc k p v).recTick = s.recTick := rfl
@[simp] theorem setPc_recLast (s : State) (k p : Nat) (v : Pc) : (s.setPc k p v).recLast = s.recLast := rfl
@[simp] theorem setPc_hist (s : State) (k p : Nat) (v : Pc) : (s.setPc k p v).hist = s.hist := rfl
@[simp] theorem setPc_histFlash (s : State) (k p : Nat) (v : Pc) : (s.setPc k p v).histFlash = s.histFlash := rfl
@[simp] theorem setPc_migs (s : State) (k p : Nat) (v : Pc) : (s.setPc k p v).migs = s.migs := rfl
@[simp] theorem setPc_migSeq (s : State) (k p : Nat) (v : Pc) : (s.setPc k p v).migSeq = s.migSeq := rfl
@[simp] theorem setPc_passes (s : State) (k p : Nat) (v : Pc) : (s.setPc k p v).passes = s.passes := rfl
@[simp] theorem setPc_frzOps (s : State) (k p : Nat) (v : Pc) : (s.setPc k p v).frzOps = s.frzOps := rfl
@[simp] theorem setPc_migWant (s : State) (k p : Nat) (v : Pc) : (s.setPc k p v).migWant = s.migWant := rfl
@[simp] theorem setPc_pprRows (s : State) (k p : Nat) (v : Pc) : (s.setPc k p v).pprRows = s.pprRows := rfl
@[simp] theorem setPc_tests (s : State) (k p : Nat) (v : Pc) : (s.setPc k p v).tests = s.tests := rfl
@[simp] theorem setPc_scrubs (s : State) (k p : Nat) (v : Pc) : (s.setPc k p v).scrubs = s.scrubs := rfl
@[simp] theorem setPc_sec (s : State) (k p : Nat) (v : Pc) : (s.setPc k p v).sec = s.sec := rfl
@[simp] theorem setPc_rings (s : State) (k p : Nat) (v : Pc) : (s.setPc k p v).rings = s.rings := rfl
@[simp] theorem setPc_lnts (s : State) (k p : Nat) (v : Pc) : (s.setPc k p v).lnts = s.lnts := rfl
@[simp] theorem setPc_posies (s : State) (k p : Nat) (v : Pc) : (s.setPc k p v).posies = s.posies := rfl
@[simp] theorem setPc_pmus (s : State) (k p : Nat) (v : Pc) : (s.setPc k p v).pmus = s.pmus := rfl
@[simp] theorem setPc_fw (s : State) (k p : Nat) (v : Pc) : (s.setPc k p v).fw = s.fw := rfl
@[simp] theorem setPc_pw (s : State) (k p : Nat) (v : Pc) : (s.setPc k p v).pw = s.pw := rfl
@[simp] theorem setPc_mir (s : State) (k p : Nat) (v : Pc) : (s.setPc k p v).mir = s.mir := rfl
@[simp] theorem setPc_advised (s : State) (k p : Nat) (v : Pc) : (s.setPc k p v).advised = s.advised := rfl
@[simp] theorem reg_setPc (s : State) (k p : Nat) (v : Pc) (r : RegName) (x y : Nat) : (s.setPc k p v).reg r x y = s.reg r x y := rfl
@[simp] theorem rd_setPc (s : State) (k p : Nat) (v : Pc) (fd : Fld) (x y : Nat) : (s.setPc k p v).rd fd x y = s.rd fd x y := rfl
@[simp] theorem bit_setPc (s : State) (k p : Nat) (v : Pc) (fd : Fld) (x y : Nat) : (s.setPc k p v).bit fd x y = s.bit fd x y := rfl

@[simp] theorem setCredit_pending (s : State) (k p : Nat) (c : Credit) : (s.setCredit k p c).pending = s.pending := rfl
@[simp] theorem setCredit_endpoint (s : State) (k p : Nat) (c : Credit) : (s.setCredit k p c).endpoint = s.endpoint := rfl
@[simp] theorem setCredit_clk (s : State) (k p : Nat) (c : Credit) : (s.setCredit k p c).clk = s.clk := rfl
@[simp] theorem setCredit_regs (s : State) (k p : Nat) (c : Credit) : (s.setCredit k p c).regs = s.regs := rfl
@[simp] theorem setCredit_regs0 (s : State) (k p : Nat) (c : Credit) : (s.setCredit k p c).regs0 = s.regs0 := rfl
@[simp] theorem setCredit_regs1 (s : State) (k p : Nat) (c : Credit) : (s.setCredit k p c).regs1 = s.regs1 := rfl
@[simp] theorem setCredit_events (s : State) (k p : Nat) (c : Credit) : (s.setCredit k p c).events = s.events := rfl
@[simp] theorem setCredit_bytes (s : State) (k p : Nat) (c : Credit) : (s.setCredit k p c).bytes = s.bytes := rfl
@[simp] theorem setCredit_hiLatch (s : State) (k p : Nat) (c : Credit) : (s.setCredit k p c).hiLatch = s.hiLatch := rfl
@[simp] theorem setCredit_out (s : State) (k p : Nat) (c : Credit) : (s.setCredit k p c).out = s.out := rfl
@[simp] theorem setCredit_free (s : State) (k p : Nat) (c : Credit) : (s.setCredit k p c).free = s.free := rfl
@[simp] theorem setCredit_mem (s : State) (k p : Nat) (c : Credit) : (s.setCredit k p c).mem = s.mem := rfl
@[simp] theorem setCredit_fills (s : State) (k p : Nat) (c : Credit) : (s.setCredit k p c).fills = s.fills := rfl
@[simp] theorem setCredit_plots (s : State) (k p : Nat) (c : Credit) : (s.setCredit k p c).plots = s.plots := rfl
@[simp] theorem setCredit_quar (s : State) (k p : Nat) (c : Credit) : (s.setCredit k p c).quar = s.quar := rfl
@[simp] theorem setCredit_plotDue (s : State) (k p : Nat) (c : Credit) : (s.setCredit k p c).plotDue = s.plotDue := rfl
@[simp] theorem setCredit_deadFrames (s : State) (k p : Nat) (c : Credit) : (s.setCredit k p c).deadFrames = s.deadFrames := rfl
@[simp] theorem setCredit_unbacked (s : State) (k p : Nat) (c : Credit) : (s.setCredit k p c).unbacked = s.unbacked := rfl
@[simp] theorem setCredit_flights (s : State) (k p : Nat) (c : Credit) : (s.setCredit k p c).flights = s.flights := rfl
@[simp] theorem setCredit_nextId (s : State) (k p : Nat) (c : Credit) : (s.setCredit k p c).nextId = s.nextId := rfl
@[simp] theorem setCredit_order (s : State) (k p : Nat) (c : Credit) : (s.setCredit k p c).order = s.order := rfl
@[simp] theorem setCredit_locks (s : State) (k p : Nat) (c : Credit) : (s.setCredit k p c).locks = s.locks := rfl
@[simp] theorem setCredit_slices (s : State) (k p : Nat) (c : Credit) : (s.setCredit k p c).slices = s.slices := rfl
@[simp] theorem setCredit_waitSeen (s : State) (k p : Nat) (c : Credit) : (s.setCredit k p c).waitSeen = s.waitSeen := rfl
@[simp] theorem setCredit_pcs (s : State) (k p : Nat) (c : Credit) : (s.setCredit k p c).pcs = s.pcs := rfl
@[simp] theorem setCredit_holds (s : State) (k p : Nat) (c : Credit) : (s.setCredit k p c).holds = s.holds := rfl
@[simp] theorem setCredit_throttles (s : State) (k p : Nat) (c : Credit) : (s.setCredit k p c).throttles = s.throttles := rfl
@[simp] theorem setCredit_thrOff (s : State) (k p : Nat) (c : Credit) : (s.setCredit k p c).thrOff = s.thrOff := rfl
@[simp] theorem setCredit_rgHits (s : State) (k p : Nat) (c : Credit) : (s.setCredit k p c).rgHits = s.rgHits := rfl
@[simp] theorem setCredit_trkWindow (s : State) (k p : Nat) (c : Credit) : (s.setCredit k p c).trkWindow = s.trkWindow := rfl
@[simp] theorem setCredit_hotNext (s : State) (k p : Nat) (c : Credit) : (s.setCredit k p c).hotNext = s.hotNext := rfl
@[simp] theorem setCredit_windows (s : State) (k p : Nat) (c : Credit) : (s.setCredit k p c).windows = s.windows := rfl
@[simp] theorem setCredit_triggers (s : State) (k p : Nat) (c : Credit) : (s.setCredit k p c).triggers = s.triggers := rfl
@[simp] theorem setCredit_rtrFrom (s : State) (k p : Nat) (c : Credit) : (s.setCredit k p c).rtrFrom = s.rtrFrom := rfl
@[simp] theorem setCredit_narrow (s : State) (k p : Nat) (c : Credit) : (s.setCredit k p c).narrow = s.narrow := rfl
@[simp] theorem setCredit_groups (s : State) (k p : Nat) (c : Credit) : (s.setCredit k p c).groups = s.groups := rfl
@[simp] theorem setCredit_groupsDue (s : State) (k p : Nat) (c : Credit) : (s.setCredit k p c).groupsDue = s.groupsDue := rfl
@[simp] theorem setCredit_gateOn (s : State) (k p : Nat) (c : Credit) : (s.setCredit k p c).gateOn = s.gateOn := rfl
@[simp] theorem setCredit_gateOff (s : State) (k p : Nat) (c : Credit) : (s.setCredit k p c).gateOff = s.gateOff := rfl
@[simp] theorem setCredit_calWait (s : State) (k p : Nat) (c : Credit) : (s.setCredit k p c).calWait = s.calWait := rfl
@[simp] theorem setCredit_latokDue (s : State) (k p : Nat) (c : Credit) : (s.setCredit k p c).latokDue = s.latokDue := rfl
@[simp] theorem setCredit_refilled (s : State) (k p : Nat) (c : Credit) : (s.setCredit k p c).refilled = s.refilled := rfl
@[simp] theorem setCredit_sampled (s : State) (k p : Nat) (c : Credit) : (s.setCredit k p c).sampled = s.sampled := rfl
@[simp] theorem setCredit_histClear (s : State) (k p : Nat) (c : Credit) : (s.setCredit k p c).histClear = s.histClear := rfl
@[simp] theorem setCredit_burstCuts (s : State) (k p : Nat) (c : Credit) : (s.setCredit k p c).burstCuts = s.burstCuts := rfl
@[simp] theorem setCredit_stackTemp (s : State) (k p : Nat) (c : Credit) : (s.setCredit k p c).stackTemp = s.stackTemp := rfl
@[simp] theorem setCredit_goodTemp (s : State) (k p : Nat) (c : Credit) : (s.setCredit k p c).goodTemp = s.goodTemp := rfl
@[simp] theorem setCredit_sampleAt (s : State) (k p : Nat) (c : Credit) : (s.setCredit k p c).sampleAt = s.sampleAt := rfl
@[simp] theorem setCredit_capUsed (s : State) (k p : Nat) (c : Credit) : (s.setCredit k p c).capUsed = s.capUsed := rfl
@[simp] theorem setCredit_recs (s : State) (k p : Nat) (c : Credit) : (s.setCredit k p c).recs = s.recs := rfl
@[simp] theorem setCredit_recTick (s : State) (k p : Nat) (c : Credit) : (s.setCredit k p c).recTick = s.recTick := rfl
@[simp] theorem setCredit_recLast (s : State) (k p : Nat) (c : Credit) : (s.setCredit k p c).recLast = s.recLast := rfl
@[simp] theorem setCredit_hist (s : State) (k p : Nat) (c : Credit) : (s.setCredit k p c).hist = s.hist := rfl
@[simp] theorem setCredit_histFlash (s : State) (k p : Nat) (c : Credit) : (s.setCredit k p c).histFlash = s.histFlash := rfl
@[simp] theorem setCredit_migs (s : State) (k p : Nat) (c : Credit) : (s.setCredit k p c).migs = s.migs := rfl
@[simp] theorem setCredit_migSeq (s : State) (k p : Nat) (c : Credit) : (s.setCredit k p c).migSeq = s.migSeq := rfl
@[simp] theorem setCredit_passes (s : State) (k p : Nat) (c : Credit) : (s.setCredit k p c).passes = s.passes := rfl
@[simp] theorem setCredit_frzOps (s : State) (k p : Nat) (c : Credit) : (s.setCredit k p c).frzOps = s.frzOps := rfl
@[simp] theorem setCredit_migWant (s : State) (k p : Nat) (c : Credit) : (s.setCredit k p c).migWant = s.migWant := rfl
@[simp] theorem setCredit_pprRows (s : State) (k p : Nat) (c : Credit) : (s.setCredit k p c).pprRows = s.pprRows := rfl
@[simp] theorem setCredit_tests (s : State) (k p : Nat) (c : Credit) : (s.setCredit k p c).tests = s.tests := rfl
@[simp] theorem setCredit_scrubs (s : State) (k p : Nat) (c : Credit) : (s.setCredit k p c).scrubs = s.scrubs := rfl
@[simp] theorem setCredit_sec (s : State) (k p : Nat) (c : Credit) : (s.setCredit k p c).sec = s.sec := rfl
@[simp] theorem setCredit_rings (s : State) (k p : Nat) (c : Credit) : (s.setCredit k p c).rings = s.rings := rfl
@[simp] theorem setCredit_lnts (s : State) (k p : Nat) (c : Credit) : (s.setCredit k p c).lnts = s.lnts := rfl
@[simp] theorem setCredit_posies (s : State) (k p : Nat) (c : Credit) : (s.setCredit k p c).posies = s.posies := rfl
@[simp] theorem setCredit_pmus (s : State) (k p : Nat) (c : Credit) : (s.setCredit k p c).pmus = s.pmus := rfl
@[simp] theorem setCredit_fw (s : State) (k p : Nat) (c : Credit) : (s.setCredit k p c).fw = s.fw := rfl
@[simp] theorem setCredit_pw (s : State) (k p : Nat) (c : Credit) : (s.setCredit k p c).pw = s.pw := rfl
@[simp] theorem setCredit_mir (s : State) (k p : Nat) (c : Credit) : (s.setCredit k p c).mir = s.mir := rfl
@[simp] theorem setCredit_advised (s : State) (k p : Nat) (c : Credit) : (s.setCredit k p c).advised = s.advised := rfl
@[simp] theorem reg_setCredit (s : State) (k p : Nat) (c : Credit) (r : RegName) (x y : Nat) : (s.setCredit k p c).reg r x y = s.reg r x y := rfl
@[simp] theorem rd_setCredit (s : State) (k p : Nat) (c : Credit) (fd : Fld) (x y : Nat) : (s.setCredit k p c).rd fd x y = s.rd fd x y := rfl
@[simp] theorem bit_setCredit (s : State) (k p : Nat) (c : Credit) (fd : Fld) (x y : Nat) : (s.setCredit k p c).bit fd x y = s.bit fd x y := rfl

@[simp] theorem modFlight_pending (s : State) (id : Nat) (f : Flight → Flight) : (s.modFlight id f).pending = s.pending := rfl
@[simp] theorem modFlight_endpoint (s : State) (id : Nat) (f : Flight → Flight) : (s.modFlight id f).endpoint = s.endpoint := rfl
@[simp] theorem modFlight_clk (s : State) (id : Nat) (f : Flight → Flight) : (s.modFlight id f).clk = s.clk := rfl
@[simp] theorem modFlight_regs (s : State) (id : Nat) (f : Flight → Flight) : (s.modFlight id f).regs = s.regs := rfl
@[simp] theorem modFlight_regs0 (s : State) (id : Nat) (f : Flight → Flight) : (s.modFlight id f).regs0 = s.regs0 := rfl
@[simp] theorem modFlight_regs1 (s : State) (id : Nat) (f : Flight → Flight) : (s.modFlight id f).regs1 = s.regs1 := rfl
@[simp] theorem modFlight_events (s : State) (id : Nat) (f : Flight → Flight) : (s.modFlight id f).events = s.events := rfl
@[simp] theorem modFlight_bytes (s : State) (id : Nat) (f : Flight → Flight) : (s.modFlight id f).bytes = s.bytes := rfl
@[simp] theorem modFlight_hiLatch (s : State) (id : Nat) (f : Flight → Flight) : (s.modFlight id f).hiLatch = s.hiLatch := rfl
@[simp] theorem modFlight_out (s : State) (id : Nat) (f : Flight → Flight) : (s.modFlight id f).out = s.out := rfl
@[simp] theorem modFlight_free (s : State) (id : Nat) (f : Flight → Flight) : (s.modFlight id f).free = s.free := rfl
@[simp] theorem modFlight_mem (s : State) (id : Nat) (f : Flight → Flight) : (s.modFlight id f).mem = s.mem := rfl
@[simp] theorem modFlight_fills (s : State) (id : Nat) (f : Flight → Flight) : (s.modFlight id f).fills = s.fills := rfl
@[simp] theorem modFlight_plots (s : State) (id : Nat) (f : Flight → Flight) : (s.modFlight id f).plots = s.plots := rfl
@[simp] theorem modFlight_quar (s : State) (id : Nat) (f : Flight → Flight) : (s.modFlight id f).quar = s.quar := rfl
@[simp] theorem modFlight_plotDue (s : State) (id : Nat) (f : Flight → Flight) : (s.modFlight id f).plotDue = s.plotDue := rfl
@[simp] theorem modFlight_deadFrames (s : State) (id : Nat) (f : Flight → Flight) : (s.modFlight id f).deadFrames = s.deadFrames := rfl
@[simp] theorem modFlight_unbacked (s : State) (id : Nat) (f : Flight → Flight) : (s.modFlight id f).unbacked = s.unbacked := rfl
@[simp] theorem modFlight_nextId (s : State) (id : Nat) (f : Flight → Flight) : (s.modFlight id f).nextId = s.nextId := rfl
@[simp] theorem modFlight_order (s : State) (id : Nat) (f : Flight → Flight) : (s.modFlight id f).order = s.order := rfl
@[simp] theorem modFlight_locks (s : State) (id : Nat) (f : Flight → Flight) : (s.modFlight id f).locks = s.locks := rfl
@[simp] theorem modFlight_credits (s : State) (id : Nat) (f : Flight → Flight) : (s.modFlight id f).credits = s.credits := rfl
@[simp] theorem modFlight_slices (s : State) (id : Nat) (f : Flight → Flight) : (s.modFlight id f).slices = s.slices := rfl
@[simp] theorem modFlight_waitSeen (s : State) (id : Nat) (f : Flight → Flight) : (s.modFlight id f).waitSeen = s.waitSeen := rfl
@[simp] theorem modFlight_pcs (s : State) (id : Nat) (f : Flight → Flight) : (s.modFlight id f).pcs = s.pcs := rfl
@[simp] theorem modFlight_holds (s : State) (id : Nat) (f : Flight → Flight) : (s.modFlight id f).holds = s.holds := rfl
@[simp] theorem modFlight_throttles (s : State) (id : Nat) (f : Flight → Flight) : (s.modFlight id f).throttles = s.throttles := rfl
@[simp] theorem modFlight_thrOff (s : State) (id : Nat) (f : Flight → Flight) : (s.modFlight id f).thrOff = s.thrOff := rfl
@[simp] theorem modFlight_rgHits (s : State) (id : Nat) (f : Flight → Flight) : (s.modFlight id f).rgHits = s.rgHits := rfl
@[simp] theorem modFlight_trkWindow (s : State) (id : Nat) (f : Flight → Flight) : (s.modFlight id f).trkWindow = s.trkWindow := rfl
@[simp] theorem modFlight_hotNext (s : State) (id : Nat) (f : Flight → Flight) : (s.modFlight id f).hotNext = s.hotNext := rfl
@[simp] theorem modFlight_windows (s : State) (id : Nat) (f : Flight → Flight) : (s.modFlight id f).windows = s.windows := rfl
@[simp] theorem modFlight_triggers (s : State) (id : Nat) (f : Flight → Flight) : (s.modFlight id f).triggers = s.triggers := rfl
@[simp] theorem modFlight_rtrFrom (s : State) (id : Nat) (f : Flight → Flight) : (s.modFlight id f).rtrFrom = s.rtrFrom := rfl
@[simp] theorem modFlight_narrow (s : State) (id : Nat) (f : Flight → Flight) : (s.modFlight id f).narrow = s.narrow := rfl
@[simp] theorem modFlight_groups (s : State) (id : Nat) (f : Flight → Flight) : (s.modFlight id f).groups = s.groups := rfl
@[simp] theorem modFlight_groupsDue (s : State) (id : Nat) (f : Flight → Flight) : (s.modFlight id f).groupsDue = s.groupsDue := rfl
@[simp] theorem modFlight_gateOn (s : State) (id : Nat) (f : Flight → Flight) : (s.modFlight id f).gateOn = s.gateOn := rfl
@[simp] theorem modFlight_gateOff (s : State) (id : Nat) (f : Flight → Flight) : (s.modFlight id f).gateOff = s.gateOff := rfl
@[simp] theorem modFlight_calWait (s : State) (id : Nat) (f : Flight → Flight) : (s.modFlight id f).calWait = s.calWait := rfl
@[simp] theorem modFlight_latokDue (s : State) (id : Nat) (f : Flight → Flight) : (s.modFlight id f).latokDue = s.latokDue := rfl
@[simp] theorem modFlight_refilled (s : State) (id : Nat) (f : Flight → Flight) : (s.modFlight id f).refilled = s.refilled := rfl
@[simp] theorem modFlight_sampled (s : State) (id : Nat) (f : Flight → Flight) : (s.modFlight id f).sampled = s.sampled := rfl
@[simp] theorem modFlight_histClear (s : State) (id : Nat) (f : Flight → Flight) : (s.modFlight id f).histClear = s.histClear := rfl
@[simp] theorem modFlight_burstCuts (s : State) (id : Nat) (f : Flight → Flight) : (s.modFlight id f).burstCuts = s.burstCuts := rfl
@[simp] theorem modFlight_stackTemp (s : State) (id : Nat) (f : Flight → Flight) : (s.modFlight id f).stackTemp = s.stackTemp := rfl
@[simp] theorem modFlight_goodTemp (s : State) (id : Nat) (f : Flight → Flight) : (s.modFlight id f).goodTemp = s.goodTemp := rfl
@[simp] theorem modFlight_sampleAt (s : State) (id : Nat) (f : Flight → Flight) : (s.modFlight id f).sampleAt = s.sampleAt := rfl
@[simp] theorem modFlight_capUsed (s : State) (id : Nat) (f : Flight → Flight) : (s.modFlight id f).capUsed = s.capUsed := rfl
@[simp] theorem modFlight_recs (s : State) (id : Nat) (f : Flight → Flight) : (s.modFlight id f).recs = s.recs := rfl
@[simp] theorem modFlight_recTick (s : State) (id : Nat) (f : Flight → Flight) : (s.modFlight id f).recTick = s.recTick := rfl
@[simp] theorem modFlight_recLast (s : State) (id : Nat) (f : Flight → Flight) : (s.modFlight id f).recLast = s.recLast := rfl
@[simp] theorem modFlight_hist (s : State) (id : Nat) (f : Flight → Flight) : (s.modFlight id f).hist = s.hist := rfl
@[simp] theorem modFlight_histFlash (s : State) (id : Nat) (f : Flight → Flight) : (s.modFlight id f).histFlash = s.histFlash := rfl
@[simp] theorem modFlight_migs (s : State) (id : Nat) (f : Flight → Flight) : (s.modFlight id f).migs = s.migs := rfl
@[simp] theorem modFlight_migSeq (s : State) (id : Nat) (f : Flight → Flight) : (s.modFlight id f).migSeq = s.migSeq := rfl
@[simp] theorem modFlight_passes (s : State) (id : Nat) (f : Flight → Flight) : (s.modFlight id f).passes = s.passes := rfl
@[simp] theorem modFlight_frzOps (s : State) (id : Nat) (f : Flight → Flight) : (s.modFlight id f).frzOps = s.frzOps := rfl
@[simp] theorem modFlight_migWant (s : State) (id : Nat) (f : Flight → Flight) : (s.modFlight id f).migWant = s.migWant := rfl
@[simp] theorem modFlight_pprRows (s : State) (id : Nat) (f : Flight → Flight) : (s.modFlight id f).pprRows = s.pprRows := rfl
@[simp] theorem modFlight_tests (s : State) (id : Nat) (f : Flight → Flight) : (s.modFlight id f).tests = s.tests := rfl
@[simp] theorem modFlight_scrubs (s : State) (id : Nat) (f : Flight → Flight) : (s.modFlight id f).scrubs = s.scrubs := rfl
@[simp] theorem modFlight_sec (s : State) (id : Nat) (f : Flight → Flight) : (s.modFlight id f).sec = s.sec := rfl
@[simp] theorem modFlight_rings (s : State) (id : Nat) (f : Flight → Flight) : (s.modFlight id f).rings = s.rings := rfl
@[simp] theorem modFlight_lnts (s : State) (id : Nat) (f : Flight → Flight) : (s.modFlight id f).lnts = s.lnts := rfl
@[simp] theorem modFlight_posies (s : State) (id : Nat) (f : Flight → Flight) : (s.modFlight id f).posies = s.posies := rfl
@[simp] theorem modFlight_pmus (s : State) (id : Nat) (f : Flight → Flight) : (s.modFlight id f).pmus = s.pmus := rfl
@[simp] theorem modFlight_fw (s : State) (id : Nat) (f : Flight → Flight) : (s.modFlight id f).fw = s.fw := rfl
@[simp] theorem modFlight_pw (s : State) (id : Nat) (f : Flight → Flight) : (s.modFlight id f).pw = s.pw := rfl
@[simp] theorem modFlight_mir (s : State) (id : Nat) (f : Flight → Flight) : (s.modFlight id f).mir = s.mir := rfl
@[simp] theorem modFlight_advised (s : State) (id : Nat) (f : Flight → Flight) : (s.modFlight id f).advised = s.advised := rfl
@[simp] theorem reg_modFlight (s : State) (id : Nat) (f : Flight → Flight) (r : RegName) (x y : Nat) : (s.modFlight id f).reg r x y = s.reg r x y := rfl
@[simp] theorem rd_modFlight (s : State) (id : Nat) (f : Flight → Flight) (fd : Fld) (x y : Nat) : (s.modFlight id f).rd fd x y = s.rd fd x y := rfl
@[simp] theorem bit_modFlight (s : State) (id : Nat) (f : Flight → Flight) (fd : Fld) (x y : Nat) : (s.modFlight id f).bit fd x y = s.bit fd x y := rfl

@[simp] theorem dropFlight_pending (s : State) (id : Nat) : (s.dropFlight id).pending = s.pending := rfl
@[simp] theorem dropFlight_endpoint (s : State) (id : Nat) : (s.dropFlight id).endpoint = s.endpoint := rfl
@[simp] theorem dropFlight_clk (s : State) (id : Nat) : (s.dropFlight id).clk = s.clk := rfl
@[simp] theorem dropFlight_regs (s : State) (id : Nat) : (s.dropFlight id).regs = s.regs := rfl
@[simp] theorem dropFlight_regs0 (s : State) (id : Nat) : (s.dropFlight id).regs0 = s.regs0 := rfl
@[simp] theorem dropFlight_regs1 (s : State) (id : Nat) : (s.dropFlight id).regs1 = s.regs1 := rfl
@[simp] theorem dropFlight_events (s : State) (id : Nat) : (s.dropFlight id).events = s.events := rfl
@[simp] theorem dropFlight_bytes (s : State) (id : Nat) : (s.dropFlight id).bytes = s.bytes := rfl
@[simp] theorem dropFlight_hiLatch (s : State) (id : Nat) : (s.dropFlight id).hiLatch = s.hiLatch := rfl
@[simp] theorem dropFlight_out (s : State) (id : Nat) : (s.dropFlight id).out = s.out := rfl
@[simp] theorem dropFlight_free (s : State) (id : Nat) : (s.dropFlight id).free = s.free := rfl
@[simp] theorem dropFlight_mem (s : State) (id : Nat) : (s.dropFlight id).mem = s.mem := rfl
@[simp] theorem dropFlight_fills (s : State) (id : Nat) : (s.dropFlight id).fills = s.fills := rfl
@[simp] theorem dropFlight_plots (s : State) (id : Nat) : (s.dropFlight id).plots = s.plots := rfl
@[simp] theorem dropFlight_quar (s : State) (id : Nat) : (s.dropFlight id).quar = s.quar := rfl
@[simp] theorem dropFlight_plotDue (s : State) (id : Nat) : (s.dropFlight id).plotDue = s.plotDue := rfl
@[simp] theorem dropFlight_deadFrames (s : State) (id : Nat) : (s.dropFlight id).deadFrames = s.deadFrames := rfl
@[simp] theorem dropFlight_unbacked (s : State) (id : Nat) : (s.dropFlight id).unbacked = s.unbacked := rfl
@[simp] theorem dropFlight_nextId (s : State) (id : Nat) : (s.dropFlight id).nextId = s.nextId := rfl
@[simp] theorem dropFlight_order (s : State) (id : Nat) : (s.dropFlight id).order = s.order := rfl
@[simp] theorem dropFlight_locks (s : State) (id : Nat) : (s.dropFlight id).locks = s.locks := rfl
@[simp] theorem dropFlight_credits (s : State) (id : Nat) : (s.dropFlight id).credits = s.credits := rfl
@[simp] theorem dropFlight_slices (s : State) (id : Nat) : (s.dropFlight id).slices = s.slices := rfl
@[simp] theorem dropFlight_waitSeen (s : State) (id : Nat) : (s.dropFlight id).waitSeen = s.waitSeen := rfl
@[simp] theorem dropFlight_pcs (s : State) (id : Nat) : (s.dropFlight id).pcs = s.pcs := rfl
@[simp] theorem dropFlight_holds (s : State) (id : Nat) : (s.dropFlight id).holds = s.holds := rfl
@[simp] theorem dropFlight_throttles (s : State) (id : Nat) : (s.dropFlight id).throttles = s.throttles := rfl
@[simp] theorem dropFlight_thrOff (s : State) (id : Nat) : (s.dropFlight id).thrOff = s.thrOff := rfl
@[simp] theorem dropFlight_rgHits (s : State) (id : Nat) : (s.dropFlight id).rgHits = s.rgHits := rfl
@[simp] theorem dropFlight_trkWindow (s : State) (id : Nat) : (s.dropFlight id).trkWindow = s.trkWindow := rfl
@[simp] theorem dropFlight_hotNext (s : State) (id : Nat) : (s.dropFlight id).hotNext = s.hotNext := rfl
@[simp] theorem dropFlight_windows (s : State) (id : Nat) : (s.dropFlight id).windows = s.windows := rfl
@[simp] theorem dropFlight_triggers (s : State) (id : Nat) : (s.dropFlight id).triggers = s.triggers := rfl
@[simp] theorem dropFlight_rtrFrom (s : State) (id : Nat) : (s.dropFlight id).rtrFrom = s.rtrFrom := rfl
@[simp] theorem dropFlight_narrow (s : State) (id : Nat) : (s.dropFlight id).narrow = s.narrow := rfl
@[simp] theorem dropFlight_groups (s : State) (id : Nat) : (s.dropFlight id).groups = s.groups := rfl
@[simp] theorem dropFlight_groupsDue (s : State) (id : Nat) : (s.dropFlight id).groupsDue = s.groupsDue := rfl
@[simp] theorem dropFlight_gateOn (s : State) (id : Nat) : (s.dropFlight id).gateOn = s.gateOn := rfl
@[simp] theorem dropFlight_gateOff (s : State) (id : Nat) : (s.dropFlight id).gateOff = s.gateOff := rfl
@[simp] theorem dropFlight_calWait (s : State) (id : Nat) : (s.dropFlight id).calWait = s.calWait := rfl
@[simp] theorem dropFlight_latokDue (s : State) (id : Nat) : (s.dropFlight id).latokDue = s.latokDue := rfl
@[simp] theorem dropFlight_refilled (s : State) (id : Nat) : (s.dropFlight id).refilled = s.refilled := rfl
@[simp] theorem dropFlight_sampled (s : State) (id : Nat) : (s.dropFlight id).sampled = s.sampled := rfl
@[simp] theorem dropFlight_histClear (s : State) (id : Nat) : (s.dropFlight id).histClear = s.histClear := rfl
@[simp] theorem dropFlight_burstCuts (s : State) (id : Nat) : (s.dropFlight id).burstCuts = s.burstCuts := rfl
@[simp] theorem dropFlight_stackTemp (s : State) (id : Nat) : (s.dropFlight id).stackTemp = s.stackTemp := rfl
@[simp] theorem dropFlight_goodTemp (s : State) (id : Nat) : (s.dropFlight id).goodTemp = s.goodTemp := rfl
@[simp] theorem dropFlight_sampleAt (s : State) (id : Nat) : (s.dropFlight id).sampleAt = s.sampleAt := rfl
@[simp] theorem dropFlight_capUsed (s : State) (id : Nat) : (s.dropFlight id).capUsed = s.capUsed := rfl
@[simp] theorem dropFlight_recs (s : State) (id : Nat) : (s.dropFlight id).recs = s.recs := rfl
@[simp] theorem dropFlight_recTick (s : State) (id : Nat) : (s.dropFlight id).recTick = s.recTick := rfl
@[simp] theorem dropFlight_recLast (s : State) (id : Nat) : (s.dropFlight id).recLast = s.recLast := rfl
@[simp] theorem dropFlight_hist (s : State) (id : Nat) : (s.dropFlight id).hist = s.hist := rfl
@[simp] theorem dropFlight_histFlash (s : State) (id : Nat) : (s.dropFlight id).histFlash = s.histFlash := rfl
@[simp] theorem dropFlight_migs (s : State) (id : Nat) : (s.dropFlight id).migs = s.migs := rfl
@[simp] theorem dropFlight_migSeq (s : State) (id : Nat) : (s.dropFlight id).migSeq = s.migSeq := rfl
@[simp] theorem dropFlight_passes (s : State) (id : Nat) : (s.dropFlight id).passes = s.passes := rfl
@[simp] theorem dropFlight_frzOps (s : State) (id : Nat) : (s.dropFlight id).frzOps = s.frzOps := rfl
@[simp] theorem dropFlight_migWant (s : State) (id : Nat) : (s.dropFlight id).migWant = s.migWant := rfl
@[simp] theorem dropFlight_pprRows (s : State) (id : Nat) : (s.dropFlight id).pprRows = s.pprRows := rfl
@[simp] theorem dropFlight_tests (s : State) (id : Nat) : (s.dropFlight id).tests = s.tests := rfl
@[simp] theorem dropFlight_scrubs (s : State) (id : Nat) : (s.dropFlight id).scrubs = s.scrubs := rfl
@[simp] theorem dropFlight_sec (s : State) (id : Nat) : (s.dropFlight id).sec = s.sec := rfl
@[simp] theorem dropFlight_rings (s : State) (id : Nat) : (s.dropFlight id).rings = s.rings := rfl
@[simp] theorem dropFlight_lnts (s : State) (id : Nat) : (s.dropFlight id).lnts = s.lnts := rfl
@[simp] theorem dropFlight_posies (s : State) (id : Nat) : (s.dropFlight id).posies = s.posies := rfl
@[simp] theorem dropFlight_pmus (s : State) (id : Nat) : (s.dropFlight id).pmus = s.pmus := rfl
@[simp] theorem dropFlight_fw (s : State) (id : Nat) : (s.dropFlight id).fw = s.fw := rfl
@[simp] theorem dropFlight_pw (s : State) (id : Nat) : (s.dropFlight id).pw = s.pw := rfl
@[simp] theorem dropFlight_mir (s : State) (id : Nat) : (s.dropFlight id).mir = s.mir := rfl
@[simp] theorem dropFlight_advised (s : State) (id : Nat) : (s.dropFlight id).advised = s.advised := rfl
@[simp] theorem reg_dropFlight (s : State) (id : Nat) (r : RegName) (x y : Nat) : (s.dropFlight id).reg r x y = s.reg r x y := rfl
@[simp] theorem rd_dropFlight (s : State) (id : Nat) (fd : Fld) (x y : Nat) : (s.dropFlight id).rd fd x y = s.rd fd x y := rfl
@[simp] theorem bit_dropFlight (s : State) (id : Nat) (fd : Fld) (x y : Nat) : (s.dropFlight id).bit fd x y = s.bit fd x y := rfl

@[simp] theorem putLine_pending (s : State) (l : Loc) (a b : Nat) (v : Line) : (s.putLine l a b v).pending = s.pending := rfl
@[simp] theorem putLine_endpoint (s : State) (l : Loc) (a b : Nat) (v : Line) : (s.putLine l a b v).endpoint = s.endpoint := rfl
@[simp] theorem putLine_clk (s : State) (l : Loc) (a b : Nat) (v : Line) : (s.putLine l a b v).clk = s.clk := rfl
@[simp] theorem putLine_regs (s : State) (l : Loc) (a b : Nat) (v : Line) : (s.putLine l a b v).regs = s.regs := rfl
@[simp] theorem putLine_regs0 (s : State) (l : Loc) (a b : Nat) (v : Line) : (s.putLine l a b v).regs0 = s.regs0 := rfl
@[simp] theorem putLine_regs1 (s : State) (l : Loc) (a b : Nat) (v : Line) : (s.putLine l a b v).regs1 = s.regs1 := rfl
@[simp] theorem putLine_events (s : State) (l : Loc) (a b : Nat) (v : Line) : (s.putLine l a b v).events = s.events := rfl
@[simp] theorem putLine_bytes (s : State) (l : Loc) (a b : Nat) (v : Line) : (s.putLine l a b v).bytes = s.bytes := rfl
@[simp] theorem putLine_hiLatch (s : State) (l : Loc) (a b : Nat) (v : Line) : (s.putLine l a b v).hiLatch = s.hiLatch := rfl
@[simp] theorem putLine_out (s : State) (l : Loc) (a b : Nat) (v : Line) : (s.putLine l a b v).out = s.out := rfl
@[simp] theorem putLine_free (s : State) (l : Loc) (a b : Nat) (v : Line) : (s.putLine l a b v).free = s.free := rfl
@[simp] theorem putLine_fills (s : State) (l : Loc) (a b : Nat) (v : Line) : (s.putLine l a b v).fills = s.fills := rfl
@[simp] theorem putLine_plots (s : State) (l : Loc) (a b : Nat) (v : Line) : (s.putLine l a b v).plots = s.plots := rfl
@[simp] theorem putLine_quar (s : State) (l : Loc) (a b : Nat) (v : Line) : (s.putLine l a b v).quar = s.quar := rfl
@[simp] theorem putLine_plotDue (s : State) (l : Loc) (a b : Nat) (v : Line) : (s.putLine l a b v).plotDue = s.plotDue := rfl
@[simp] theorem putLine_deadFrames (s : State) (l : Loc) (a b : Nat) (v : Line) : (s.putLine l a b v).deadFrames = s.deadFrames := rfl
@[simp] theorem putLine_unbacked (s : State) (l : Loc) (a b : Nat) (v : Line) : (s.putLine l a b v).unbacked = s.unbacked := rfl
@[simp] theorem putLine_flights (s : State) (l : Loc) (a b : Nat) (v : Line) : (s.putLine l a b v).flights = s.flights := rfl
@[simp] theorem putLine_nextId (s : State) (l : Loc) (a b : Nat) (v : Line) : (s.putLine l a b v).nextId = s.nextId := rfl
@[simp] theorem putLine_order (s : State) (l : Loc) (a b : Nat) (v : Line) : (s.putLine l a b v).order = s.order := rfl
@[simp] theorem putLine_locks (s : State) (l : Loc) (a b : Nat) (v : Line) : (s.putLine l a b v).locks = s.locks := rfl
@[simp] theorem putLine_credits (s : State) (l : Loc) (a b : Nat) (v : Line) : (s.putLine l a b v).credits = s.credits := rfl
@[simp] theorem putLine_slices (s : State) (l : Loc) (a b : Nat) (v : Line) : (s.putLine l a b v).slices = s.slices := rfl
@[simp] theorem putLine_waitSeen (s : State) (l : Loc) (a b : Nat) (v : Line) : (s.putLine l a b v).waitSeen = s.waitSeen := rfl
@[simp] theorem putLine_pcs (s : State) (l : Loc) (a b : Nat) (v : Line) : (s.putLine l a b v).pcs = s.pcs := rfl
@[simp] theorem putLine_holds (s : State) (l : Loc) (a b : Nat) (v : Line) : (s.putLine l a b v).holds = s.holds := rfl
@[simp] theorem putLine_throttles (s : State) (l : Loc) (a b : Nat) (v : Line) : (s.putLine l a b v).throttles = s.throttles := rfl
@[simp] theorem putLine_thrOff (s : State) (l : Loc) (a b : Nat) (v : Line) : (s.putLine l a b v).thrOff = s.thrOff := rfl
@[simp] theorem putLine_rgHits (s : State) (l : Loc) (a b : Nat) (v : Line) : (s.putLine l a b v).rgHits = s.rgHits := rfl
@[simp] theorem putLine_trkWindow (s : State) (l : Loc) (a b : Nat) (v : Line) : (s.putLine l a b v).trkWindow = s.trkWindow := rfl
@[simp] theorem putLine_hotNext (s : State) (l : Loc) (a b : Nat) (v : Line) : (s.putLine l a b v).hotNext = s.hotNext := rfl
@[simp] theorem putLine_windows (s : State) (l : Loc) (a b : Nat) (v : Line) : (s.putLine l a b v).windows = s.windows := rfl
@[simp] theorem putLine_triggers (s : State) (l : Loc) (a b : Nat) (v : Line) : (s.putLine l a b v).triggers = s.triggers := rfl
@[simp] theorem putLine_rtrFrom (s : State) (l : Loc) (a b : Nat) (v : Line) : (s.putLine l a b v).rtrFrom = s.rtrFrom := rfl
@[simp] theorem putLine_narrow (s : State) (l : Loc) (a b : Nat) (v : Line) : (s.putLine l a b v).narrow = s.narrow := rfl
@[simp] theorem putLine_groups (s : State) (l : Loc) (a b : Nat) (v : Line) : (s.putLine l a b v).groups = s.groups := rfl
@[simp] theorem putLine_groupsDue (s : State) (l : Loc) (a b : Nat) (v : Line) : (s.putLine l a b v).groupsDue = s.groupsDue := rfl
@[simp] theorem putLine_gateOn (s : State) (l : Loc) (a b : Nat) (v : Line) : (s.putLine l a b v).gateOn = s.gateOn := rfl
@[simp] theorem putLine_gateOff (s : State) (l : Loc) (a b : Nat) (v : Line) : (s.putLine l a b v).gateOff = s.gateOff := rfl
@[simp] theorem putLine_calWait (s : State) (l : Loc) (a b : Nat) (v : Line) : (s.putLine l a b v).calWait = s.calWait := rfl
@[simp] theorem putLine_latokDue (s : State) (l : Loc) (a b : Nat) (v : Line) : (s.putLine l a b v).latokDue = s.latokDue := rfl
@[simp] theorem putLine_refilled (s : State) (l : Loc) (a b : Nat) (v : Line) : (s.putLine l a b v).refilled = s.refilled := rfl
@[simp] theorem putLine_sampled (s : State) (l : Loc) (a b : Nat) (v : Line) : (s.putLine l a b v).sampled = s.sampled := rfl
@[simp] theorem putLine_histClear (s : State) (l : Loc) (a b : Nat) (v : Line) : (s.putLine l a b v).histClear = s.histClear := rfl
@[simp] theorem putLine_burstCuts (s : State) (l : Loc) (a b : Nat) (v : Line) : (s.putLine l a b v).burstCuts = s.burstCuts := rfl
@[simp] theorem putLine_stackTemp (s : State) (l : Loc) (a b : Nat) (v : Line) : (s.putLine l a b v).stackTemp = s.stackTemp := rfl
@[simp] theorem putLine_goodTemp (s : State) (l : Loc) (a b : Nat) (v : Line) : (s.putLine l a b v).goodTemp = s.goodTemp := rfl
@[simp] theorem putLine_sampleAt (s : State) (l : Loc) (a b : Nat) (v : Line) : (s.putLine l a b v).sampleAt = s.sampleAt := rfl
@[simp] theorem putLine_capUsed (s : State) (l : Loc) (a b : Nat) (v : Line) : (s.putLine l a b v).capUsed = s.capUsed := rfl
@[simp] theorem putLine_recs (s : State) (l : Loc) (a b : Nat) (v : Line) : (s.putLine l a b v).recs = s.recs := rfl
@[simp] theorem putLine_recTick (s : State) (l : Loc) (a b : Nat) (v : Line) : (s.putLine l a b v).recTick = s.recTick := rfl
@[simp] theorem putLine_recLast (s : State) (l : Loc) (a b : Nat) (v : Line) : (s.putLine l a b v).recLast = s.recLast := rfl
@[simp] theorem putLine_hist (s : State) (l : Loc) (a b : Nat) (v : Line) : (s.putLine l a b v).hist = s.hist := rfl
@[simp] theorem putLine_histFlash (s : State) (l : Loc) (a b : Nat) (v : Line) : (s.putLine l a b v).histFlash = s.histFlash := rfl
@[simp] theorem putLine_migs (s : State) (l : Loc) (a b : Nat) (v : Line) : (s.putLine l a b v).migs = s.migs := rfl
@[simp] theorem putLine_migSeq (s : State) (l : Loc) (a b : Nat) (v : Line) : (s.putLine l a b v).migSeq = s.migSeq := rfl
@[simp] theorem putLine_passes (s : State) (l : Loc) (a b : Nat) (v : Line) : (s.putLine l a b v).passes = s.passes := rfl
@[simp] theorem putLine_frzOps (s : State) (l : Loc) (a b : Nat) (v : Line) : (s.putLine l a b v).frzOps = s.frzOps := rfl
@[simp] theorem putLine_migWant (s : State) (l : Loc) (a b : Nat) (v : Line) : (s.putLine l a b v).migWant = s.migWant := rfl
@[simp] theorem putLine_pprRows (s : State) (l : Loc) (a b : Nat) (v : Line) : (s.putLine l a b v).pprRows = s.pprRows := rfl
@[simp] theorem putLine_tests (s : State) (l : Loc) (a b : Nat) (v : Line) : (s.putLine l a b v).tests = s.tests := rfl
@[simp] theorem putLine_scrubs (s : State) (l : Loc) (a b : Nat) (v : Line) : (s.putLine l a b v).scrubs = s.scrubs := rfl
@[simp] theorem putLine_sec (s : State) (l : Loc) (a b : Nat) (v : Line) : (s.putLine l a b v).sec = s.sec := rfl
@[simp] theorem putLine_rings (s : State) (l : Loc) (a b : Nat) (v : Line) : (s.putLine l a b v).rings = s.rings := rfl
@[simp] theorem putLine_lnts (s : State) (l : Loc) (a b : Nat) (v : Line) : (s.putLine l a b v).lnts = s.lnts := rfl
@[simp] theorem putLine_posies (s : State) (l : Loc) (a b : Nat) (v : Line) : (s.putLine l a b v).posies = s.posies := rfl
@[simp] theorem putLine_pmus (s : State) (l : Loc) (a b : Nat) (v : Line) : (s.putLine l a b v).pmus = s.pmus := rfl
@[simp] theorem putLine_fw (s : State) (l : Loc) (a b : Nat) (v : Line) : (s.putLine l a b v).fw = s.fw := rfl
@[simp] theorem putLine_pw (s : State) (l : Loc) (a b : Nat) (v : Line) : (s.putLine l a b v).pw = s.pw := rfl
@[simp] theorem putLine_mir (s : State) (l : Loc) (a b : Nat) (v : Line) : (s.putLine l a b v).mir = s.mir := rfl
@[simp] theorem putLine_advised (s : State) (l : Loc) (a b : Nat) (v : Line) : (s.putLine l a b v).advised = s.advised := rfl
@[simp] theorem reg_putLine (s : State) (l : Loc) (a b : Nat) (v : Line) (r : RegName) (x y : Nat) : (s.putLine l a b v).reg r x y = s.reg r x y := rfl
@[simp] theorem rd_putLine (s : State) (l : Loc) (a b : Nat) (v : Line) (fd : Fld) (x y : Nat) : (s.putLine l a b v).rd fd x y = s.rd fd x y := rfl
@[simp] theorem bit_putLine (s : State) (l : Loc) (a b : Nat) (v : Line) (fd : Fld) (x y : Nat) : (s.putLine l a b v).bit fd x y = s.bit fd x y := rfl

@[simp] theorem zeroPlot_pending (s : State) (i : Nat) (f : Fill) : (s.zeroPlot i f).pending = s.pending := rfl
@[simp] theorem zeroPlot_endpoint (s : State) (i : Nat) (f : Fill) : (s.zeroPlot i f).endpoint = s.endpoint := rfl
@[simp] theorem zeroPlot_clk (s : State) (i : Nat) (f : Fill) : (s.zeroPlot i f).clk = s.clk := rfl
@[simp] theorem zeroPlot_regs (s : State) (i : Nat) (f : Fill) : (s.zeroPlot i f).regs = s.regs := rfl
@[simp] theorem zeroPlot_regs0 (s : State) (i : Nat) (f : Fill) : (s.zeroPlot i f).regs0 = s.regs0 := rfl
@[simp] theorem zeroPlot_regs1 (s : State) (i : Nat) (f : Fill) : (s.zeroPlot i f).regs1 = s.regs1 := rfl
@[simp] theorem zeroPlot_events (s : State) (i : Nat) (f : Fill) : (s.zeroPlot i f).events = s.events := rfl
@[simp] theorem zeroPlot_bytes (s : State) (i : Nat) (f : Fill) : (s.zeroPlot i f).bytes = s.bytes := rfl
@[simp] theorem zeroPlot_hiLatch (s : State) (i : Nat) (f : Fill) : (s.zeroPlot i f).hiLatch = s.hiLatch := rfl
@[simp] theorem zeroPlot_out (s : State) (i : Nat) (f : Fill) : (s.zeroPlot i f).out = s.out := rfl
@[simp] theorem zeroPlot_free (s : State) (i : Nat) (f : Fill) : (s.zeroPlot i f).free = s.free := rfl
@[simp] theorem zeroPlot_plots (s : State) (i : Nat) (f : Fill) : (s.zeroPlot i f).plots = s.plots := rfl
@[simp] theorem zeroPlot_quar (s : State) (i : Nat) (f : Fill) : (s.zeroPlot i f).quar = s.quar := rfl
@[simp] theorem zeroPlot_plotDue (s : State) (i : Nat) (f : Fill) : (s.zeroPlot i f).plotDue = s.plotDue := rfl
@[simp] theorem zeroPlot_deadFrames (s : State) (i : Nat) (f : Fill) : (s.zeroPlot i f).deadFrames = s.deadFrames := rfl
@[simp] theorem zeroPlot_unbacked (s : State) (i : Nat) (f : Fill) : (s.zeroPlot i f).unbacked = s.unbacked := rfl
@[simp] theorem zeroPlot_flights (s : State) (i : Nat) (f : Fill) : (s.zeroPlot i f).flights = s.flights := rfl
@[simp] theorem zeroPlot_nextId (s : State) (i : Nat) (f : Fill) : (s.zeroPlot i f).nextId = s.nextId := rfl
@[simp] theorem zeroPlot_order (s : State) (i : Nat) (f : Fill) : (s.zeroPlot i f).order = s.order := rfl
@[simp] theorem zeroPlot_locks (s : State) (i : Nat) (f : Fill) : (s.zeroPlot i f).locks = s.locks := rfl
@[simp] theorem zeroPlot_credits (s : State) (i : Nat) (f : Fill) : (s.zeroPlot i f).credits = s.credits := rfl
@[simp] theorem zeroPlot_slices (s : State) (i : Nat) (f : Fill) : (s.zeroPlot i f).slices = s.slices := rfl
@[simp] theorem zeroPlot_waitSeen (s : State) (i : Nat) (f : Fill) : (s.zeroPlot i f).waitSeen = s.waitSeen := rfl
@[simp] theorem zeroPlot_pcs (s : State) (i : Nat) (f : Fill) : (s.zeroPlot i f).pcs = s.pcs := rfl
@[simp] theorem zeroPlot_holds (s : State) (i : Nat) (f : Fill) : (s.zeroPlot i f).holds = s.holds := rfl
@[simp] theorem zeroPlot_throttles (s : State) (i : Nat) (f : Fill) : (s.zeroPlot i f).throttles = s.throttles := rfl
@[simp] theorem zeroPlot_thrOff (s : State) (i : Nat) (f : Fill) : (s.zeroPlot i f).thrOff = s.thrOff := rfl
@[simp] theorem zeroPlot_rgHits (s : State) (i : Nat) (f : Fill) : (s.zeroPlot i f).rgHits = s.rgHits := rfl
@[simp] theorem zeroPlot_trkWindow (s : State) (i : Nat) (f : Fill) : (s.zeroPlot i f).trkWindow = s.trkWindow := rfl
@[simp] theorem zeroPlot_hotNext (s : State) (i : Nat) (f : Fill) : (s.zeroPlot i f).hotNext = s.hotNext := rfl
@[simp] theorem zeroPlot_windows (s : State) (i : Nat) (f : Fill) : (s.zeroPlot i f).windows = s.windows := rfl
@[simp] theorem zeroPlot_triggers (s : State) (i : Nat) (f : Fill) : (s.zeroPlot i f).triggers = s.triggers := rfl
@[simp] theorem zeroPlot_rtrFrom (s : State) (i : Nat) (f : Fill) : (s.zeroPlot i f).rtrFrom = s.rtrFrom := rfl
@[simp] theorem zeroPlot_narrow (s : State) (i : Nat) (f : Fill) : (s.zeroPlot i f).narrow = s.narrow := rfl
@[simp] theorem zeroPlot_groups (s : State) (i : Nat) (f : Fill) : (s.zeroPlot i f).groups = s.groups := rfl
@[simp] theorem zeroPlot_groupsDue (s : State) (i : Nat) (f : Fill) : (s.zeroPlot i f).groupsDue = s.groupsDue := rfl
@[simp] theorem zeroPlot_gateOn (s : State) (i : Nat) (f : Fill) : (s.zeroPlot i f).gateOn = s.gateOn := rfl
@[simp] theorem zeroPlot_gateOff (s : State) (i : Nat) (f : Fill) : (s.zeroPlot i f).gateOff = s.gateOff := rfl
@[simp] theorem zeroPlot_calWait (s : State) (i : Nat) (f : Fill) : (s.zeroPlot i f).calWait = s.calWait := rfl
@[simp] theorem zeroPlot_latokDue (s : State) (i : Nat) (f : Fill) : (s.zeroPlot i f).latokDue = s.latokDue := rfl
@[simp] theorem zeroPlot_refilled (s : State) (i : Nat) (f : Fill) : (s.zeroPlot i f).refilled = s.refilled := rfl
@[simp] theorem zeroPlot_sampled (s : State) (i : Nat) (f : Fill) : (s.zeroPlot i f).sampled = s.sampled := rfl
@[simp] theorem zeroPlot_histClear (s : State) (i : Nat) (f : Fill) : (s.zeroPlot i f).histClear = s.histClear := rfl
@[simp] theorem zeroPlot_burstCuts (s : State) (i : Nat) (f : Fill) : (s.zeroPlot i f).burstCuts = s.burstCuts := rfl
@[simp] theorem zeroPlot_stackTemp (s : State) (i : Nat) (f : Fill) : (s.zeroPlot i f).stackTemp = s.stackTemp := rfl
@[simp] theorem zeroPlot_goodTemp (s : State) (i : Nat) (f : Fill) : (s.zeroPlot i f).goodTemp = s.goodTemp := rfl
@[simp] theorem zeroPlot_sampleAt (s : State) (i : Nat) (f : Fill) : (s.zeroPlot i f).sampleAt = s.sampleAt := rfl
@[simp] theorem zeroPlot_capUsed (s : State) (i : Nat) (f : Fill) : (s.zeroPlot i f).capUsed = s.capUsed := rfl
@[simp] theorem zeroPlot_recs (s : State) (i : Nat) (f : Fill) : (s.zeroPlot i f).recs = s.recs := rfl
@[simp] theorem zeroPlot_recTick (s : State) (i : Nat) (f : Fill) : (s.zeroPlot i f).recTick = s.recTick := rfl
@[simp] theorem zeroPlot_recLast (s : State) (i : Nat) (f : Fill) : (s.zeroPlot i f).recLast = s.recLast := rfl
@[simp] theorem zeroPlot_hist (s : State) (i : Nat) (f : Fill) : (s.zeroPlot i f).hist = s.hist := rfl
@[simp] theorem zeroPlot_histFlash (s : State) (i : Nat) (f : Fill) : (s.zeroPlot i f).histFlash = s.histFlash := rfl
@[simp] theorem zeroPlot_migs (s : State) (i : Nat) (f : Fill) : (s.zeroPlot i f).migs = s.migs := rfl
@[simp] theorem zeroPlot_migSeq (s : State) (i : Nat) (f : Fill) : (s.zeroPlot i f).migSeq = s.migSeq := rfl
@[simp] theorem zeroPlot_passes (s : State) (i : Nat) (f : Fill) : (s.zeroPlot i f).passes = s.passes := rfl
@[simp] theorem zeroPlot_frzOps (s : State) (i : Nat) (f : Fill) : (s.zeroPlot i f).frzOps = s.frzOps := rfl
@[simp] theorem zeroPlot_migWant (s : State) (i : Nat) (f : Fill) : (s.zeroPlot i f).migWant = s.migWant := rfl
@[simp] theorem zeroPlot_pprRows (s : State) (i : Nat) (f : Fill) : (s.zeroPlot i f).pprRows = s.pprRows := rfl
@[simp] theorem zeroPlot_tests (s : State) (i : Nat) (f : Fill) : (s.zeroPlot i f).tests = s.tests := rfl
@[simp] theorem zeroPlot_scrubs (s : State) (i : Nat) (f : Fill) : (s.zeroPlot i f).scrubs = s.scrubs := rfl
@[simp] theorem zeroPlot_sec (s : State) (i : Nat) (f : Fill) : (s.zeroPlot i f).sec = s.sec := rfl
@[simp] theorem zeroPlot_rings (s : State) (i : Nat) (f : Fill) : (s.zeroPlot i f).rings = s.rings := rfl
@[simp] theorem zeroPlot_lnts (s : State) (i : Nat) (f : Fill) : (s.zeroPlot i f).lnts = s.lnts := rfl
@[simp] theorem zeroPlot_posies (s : State) (i : Nat) (f : Fill) : (s.zeroPlot i f).posies = s.posies := rfl
@[simp] theorem zeroPlot_pmus (s : State) (i : Nat) (f : Fill) : (s.zeroPlot i f).pmus = s.pmus := rfl
@[simp] theorem zeroPlot_fw (s : State) (i : Nat) (f : Fill) : (s.zeroPlot i f).fw = s.fw := rfl
@[simp] theorem zeroPlot_pw (s : State) (i : Nat) (f : Fill) : (s.zeroPlot i f).pw = s.pw := rfl
@[simp] theorem zeroPlot_mir (s : State) (i : Nat) (f : Fill) : (s.zeroPlot i f).mir = s.mir := rfl
@[simp] theorem zeroPlot_advised (s : State) (i : Nat) (f : Fill) : (s.zeroPlot i f).advised = s.advised := rfl
@[simp] theorem reg_zeroPlot (s : State) (i : Nat) (f : Fill) (r : RegName) (x y : Nat) : (s.zeroPlot i f).reg r x y = s.reg r x y := rfl
@[simp] theorem rd_zeroPlot (s : State) (i : Nat) (f : Fill) (fd : Fld) (x y : Nat) : (s.zeroPlot i f).rd fd x y = s.rd fd x y := rfl
@[simp] theorem bit_zeroPlot (s : State) (i : Nat) (f : Fill) (fd : Fld) (x y : Nat) : (s.zeroPlot i f).bit fd x y = s.bit fd x y := rfl

@[simp] theorem zeroRings_pending (s : State) (f : Nat) : (s.zeroRings f).pending = s.pending := rfl
@[simp] theorem zeroRings_endpoint (s : State) (f : Nat) : (s.zeroRings f).endpoint = s.endpoint := rfl
@[simp] theorem zeroRings_clk (s : State) (f : Nat) : (s.zeroRings f).clk = s.clk := rfl
@[simp] theorem zeroRings_regs (s : State) (f : Nat) : (s.zeroRings f).regs = s.regs := rfl
@[simp] theorem zeroRings_regs0 (s : State) (f : Nat) : (s.zeroRings f).regs0 = s.regs0 := rfl
@[simp] theorem zeroRings_regs1 (s : State) (f : Nat) : (s.zeroRings f).regs1 = s.regs1 := rfl
@[simp] theorem zeroRings_events (s : State) (f : Nat) : (s.zeroRings f).events = s.events := rfl
@[simp] theorem zeroRings_bytes (s : State) (f : Nat) : (s.zeroRings f).bytes = s.bytes := rfl
@[simp] theorem zeroRings_hiLatch (s : State) (f : Nat) : (s.zeroRings f).hiLatch = s.hiLatch := rfl
@[simp] theorem zeroRings_out (s : State) (f : Nat) : (s.zeroRings f).out = s.out := rfl
@[simp] theorem zeroRings_free (s : State) (f : Nat) : (s.zeroRings f).free = s.free := rfl
@[simp] theorem zeroRings_plots (s : State) (f : Nat) : (s.zeroRings f).plots = s.plots := rfl
@[simp] theorem zeroRings_quar (s : State) (f : Nat) : (s.zeroRings f).quar = s.quar := rfl
@[simp] theorem zeroRings_plotDue (s : State) (f : Nat) : (s.zeroRings f).plotDue = s.plotDue := rfl
@[simp] theorem zeroRings_deadFrames (s : State) (f : Nat) : (s.zeroRings f).deadFrames = s.deadFrames := rfl
@[simp] theorem zeroRings_unbacked (s : State) (f : Nat) : (s.zeroRings f).unbacked = s.unbacked := rfl
@[simp] theorem zeroRings_flights (s : State) (f : Nat) : (s.zeroRings f).flights = s.flights := rfl
@[simp] theorem zeroRings_nextId (s : State) (f : Nat) : (s.zeroRings f).nextId = s.nextId := rfl
@[simp] theorem zeroRings_order (s : State) (f : Nat) : (s.zeroRings f).order = s.order := rfl
@[simp] theorem zeroRings_locks (s : State) (f : Nat) : (s.zeroRings f).locks = s.locks := rfl
@[simp] theorem zeroRings_credits (s : State) (f : Nat) : (s.zeroRings f).credits = s.credits := rfl
@[simp] theorem zeroRings_slices (s : State) (f : Nat) : (s.zeroRings f).slices = s.slices := rfl
@[simp] theorem zeroRings_waitSeen (s : State) (f : Nat) : (s.zeroRings f).waitSeen = s.waitSeen := rfl
@[simp] theorem zeroRings_pcs (s : State) (f : Nat) : (s.zeroRings f).pcs = s.pcs := rfl
@[simp] theorem zeroRings_holds (s : State) (f : Nat) : (s.zeroRings f).holds = s.holds := rfl
@[simp] theorem zeroRings_throttles (s : State) (f : Nat) : (s.zeroRings f).throttles = s.throttles := rfl
@[simp] theorem zeroRings_thrOff (s : State) (f : Nat) : (s.zeroRings f).thrOff = s.thrOff := rfl
@[simp] theorem zeroRings_rgHits (s : State) (f : Nat) : (s.zeroRings f).rgHits = s.rgHits := rfl
@[simp] theorem zeroRings_trkWindow (s : State) (f : Nat) : (s.zeroRings f).trkWindow = s.trkWindow := rfl
@[simp] theorem zeroRings_hotNext (s : State) (f : Nat) : (s.zeroRings f).hotNext = s.hotNext := rfl
@[simp] theorem zeroRings_windows (s : State) (f : Nat) : (s.zeroRings f).windows = s.windows := rfl
@[simp] theorem zeroRings_triggers (s : State) (f : Nat) : (s.zeroRings f).triggers = s.triggers := rfl
@[simp] theorem zeroRings_rtrFrom (s : State) (f : Nat) : (s.zeroRings f).rtrFrom = s.rtrFrom := rfl
@[simp] theorem zeroRings_narrow (s : State) (f : Nat) : (s.zeroRings f).narrow = s.narrow := rfl
@[simp] theorem zeroRings_groups (s : State) (f : Nat) : (s.zeroRings f).groups = s.groups := rfl
@[simp] theorem zeroRings_groupsDue (s : State) (f : Nat) : (s.zeroRings f).groupsDue = s.groupsDue := rfl
@[simp] theorem zeroRings_gateOn (s : State) (f : Nat) : (s.zeroRings f).gateOn = s.gateOn := rfl
@[simp] theorem zeroRings_gateOff (s : State) (f : Nat) : (s.zeroRings f).gateOff = s.gateOff := rfl
@[simp] theorem zeroRings_calWait (s : State) (f : Nat) : (s.zeroRings f).calWait = s.calWait := rfl
@[simp] theorem zeroRings_latokDue (s : State) (f : Nat) : (s.zeroRings f).latokDue = s.latokDue := rfl
@[simp] theorem zeroRings_refilled (s : State) (f : Nat) : (s.zeroRings f).refilled = s.refilled := rfl
@[simp] theorem zeroRings_sampled (s : State) (f : Nat) : (s.zeroRings f).sampled = s.sampled := rfl
@[simp] theorem zeroRings_histClear (s : State) (f : Nat) : (s.zeroRings f).histClear = s.histClear := rfl
@[simp] theorem zeroRings_burstCuts (s : State) (f : Nat) : (s.zeroRings f).burstCuts = s.burstCuts := rfl
@[simp] theorem zeroRings_stackTemp (s : State) (f : Nat) : (s.zeroRings f).stackTemp = s.stackTemp := rfl
@[simp] theorem zeroRings_goodTemp (s : State) (f : Nat) : (s.zeroRings f).goodTemp = s.goodTemp := rfl
@[simp] theorem zeroRings_sampleAt (s : State) (f : Nat) : (s.zeroRings f).sampleAt = s.sampleAt := rfl
@[simp] theorem zeroRings_capUsed (s : State) (f : Nat) : (s.zeroRings f).capUsed = s.capUsed := rfl
@[simp] theorem zeroRings_recs (s : State) (f : Nat) : (s.zeroRings f).recs = s.recs := rfl
@[simp] theorem zeroRings_recTick (s : State) (f : Nat) : (s.zeroRings f).recTick = s.recTick := rfl
@[simp] theorem zeroRings_recLast (s : State) (f : Nat) : (s.zeroRings f).recLast = s.recLast := rfl
@[simp] theorem zeroRings_hist (s : State) (f : Nat) : (s.zeroRings f).hist = s.hist := rfl
@[simp] theorem zeroRings_histFlash (s : State) (f : Nat) : (s.zeroRings f).histFlash = s.histFlash := rfl
@[simp] theorem zeroRings_migs (s : State) (f : Nat) : (s.zeroRings f).migs = s.migs := rfl
@[simp] theorem zeroRings_migSeq (s : State) (f : Nat) : (s.zeroRings f).migSeq = s.migSeq := rfl
@[simp] theorem zeroRings_passes (s : State) (f : Nat) : (s.zeroRings f).passes = s.passes := rfl
@[simp] theorem zeroRings_frzOps (s : State) (f : Nat) : (s.zeroRings f).frzOps = s.frzOps := rfl
@[simp] theorem zeroRings_migWant (s : State) (f : Nat) : (s.zeroRings f).migWant = s.migWant := rfl
@[simp] theorem zeroRings_pprRows (s : State) (f : Nat) : (s.zeroRings f).pprRows = s.pprRows := rfl
@[simp] theorem zeroRings_tests (s : State) (f : Nat) : (s.zeroRings f).tests = s.tests := rfl
@[simp] theorem zeroRings_scrubs (s : State) (f : Nat) : (s.zeroRings f).scrubs = s.scrubs := rfl
@[simp] theorem zeroRings_sec (s : State) (f : Nat) : (s.zeroRings f).sec = s.sec := rfl
@[simp] theorem zeroRings_rings (s : State) (f : Nat) : (s.zeroRings f).rings = s.rings := rfl
@[simp] theorem zeroRings_lnts (s : State) (f : Nat) : (s.zeroRings f).lnts = s.lnts := rfl
@[simp] theorem zeroRings_posies (s : State) (f : Nat) : (s.zeroRings f).posies = s.posies := rfl
@[simp] theorem zeroRings_pmus (s : State) (f : Nat) : (s.zeroRings f).pmus = s.pmus := rfl
@[simp] theorem zeroRings_fw (s : State) (f : Nat) : (s.zeroRings f).fw = s.fw := rfl
@[simp] theorem zeroRings_pw (s : State) (f : Nat) : (s.zeroRings f).pw = s.pw := rfl
@[simp] theorem zeroRings_mir (s : State) (f : Nat) : (s.zeroRings f).mir = s.mir := rfl
@[simp] theorem zeroRings_advised (s : State) (f : Nat) : (s.zeroRings f).advised = s.advised := rfl
@[simp] theorem reg_zeroRings (s : State) (f : Nat) (r : RegName) (x y : Nat) : (s.zeroRings f).reg r x y = s.reg r x y := rfl
@[simp] theorem rd_zeroRings (s : State) (f : Nat) (fd : Fld) (x y : Nat) : (s.zeroRings f).rd fd x y = s.rd fd x y := rfl
@[simp] theorem bit_zeroRings (s : State) (f : Nat) (fd : Fld) (x y : Nat) : (s.zeroRings f).bit fd x y = s.bit fd x y := rfl

@[simp] theorem evt_pending (s : State) (u e c : Nat) : (s.evt u e c).pending = s.pending := rfl
@[simp] theorem evt_endpoint (s : State) (u e c : Nat) : (s.evt u e c).endpoint = s.endpoint := rfl
@[simp] theorem evt_clk (s : State) (u e c : Nat) : (s.evt u e c).clk = s.clk := rfl
@[simp] theorem evt_regs (s : State) (u e c : Nat) : (s.evt u e c).regs = s.regs := rfl
@[simp] theorem evt_regs0 (s : State) (u e c : Nat) : (s.evt u e c).regs0 = s.regs0 := rfl
@[simp] theorem evt_regs1 (s : State) (u e c : Nat) : (s.evt u e c).regs1 = s.regs1 := rfl
@[simp] theorem evt_events (s : State) (u e c : Nat) : (s.evt u e c).events = s.events := rfl
@[simp] theorem evt_bytes (s : State) (u e c : Nat) : (s.evt u e c).bytes = s.bytes := rfl
@[simp] theorem evt_hiLatch (s : State) (u e c : Nat) : (s.evt u e c).hiLatch = s.hiLatch := rfl
@[simp] theorem evt_out (s : State) (u e c : Nat) : (s.evt u e c).out = s.out := rfl
@[simp] theorem evt_free (s : State) (u e c : Nat) : (s.evt u e c).free = s.free := rfl
@[simp] theorem evt_mem (s : State) (u e c : Nat) : (s.evt u e c).mem = s.mem := rfl
@[simp] theorem evt_fills (s : State) (u e c : Nat) : (s.evt u e c).fills = s.fills := rfl
@[simp] theorem evt_plots (s : State) (u e c : Nat) : (s.evt u e c).plots = s.plots := rfl
@[simp] theorem evt_quar (s : State) (u e c : Nat) : (s.evt u e c).quar = s.quar := rfl
@[simp] theorem evt_plotDue (s : State) (u e c : Nat) : (s.evt u e c).plotDue = s.plotDue := rfl
@[simp] theorem evt_deadFrames (s : State) (u e c : Nat) : (s.evt u e c).deadFrames = s.deadFrames := rfl
@[simp] theorem evt_unbacked (s : State) (u e c : Nat) : (s.evt u e c).unbacked = s.unbacked := rfl
@[simp] theorem evt_flights (s : State) (u e c : Nat) : (s.evt u e c).flights = s.flights := rfl
@[simp] theorem evt_nextId (s : State) (u e c : Nat) : (s.evt u e c).nextId = s.nextId := rfl
@[simp] theorem evt_order (s : State) (u e c : Nat) : (s.evt u e c).order = s.order := rfl
@[simp] theorem evt_locks (s : State) (u e c : Nat) : (s.evt u e c).locks = s.locks := rfl
@[simp] theorem evt_credits (s : State) (u e c : Nat) : (s.evt u e c).credits = s.credits := rfl
@[simp] theorem evt_slices (s : State) (u e c : Nat) : (s.evt u e c).slices = s.slices := rfl
@[simp] theorem evt_waitSeen (s : State) (u e c : Nat) : (s.evt u e c).waitSeen = s.waitSeen := rfl
@[simp] theorem evt_pcs (s : State) (u e c : Nat) : (s.evt u e c).pcs = s.pcs := rfl
@[simp] theorem evt_holds (s : State) (u e c : Nat) : (s.evt u e c).holds = s.holds := rfl
@[simp] theorem evt_throttles (s : State) (u e c : Nat) : (s.evt u e c).throttles = s.throttles := rfl
@[simp] theorem evt_thrOff (s : State) (u e c : Nat) : (s.evt u e c).thrOff = s.thrOff := rfl
@[simp] theorem evt_rgHits (s : State) (u e c : Nat) : (s.evt u e c).rgHits = s.rgHits := rfl
@[simp] theorem evt_trkWindow (s : State) (u e c : Nat) : (s.evt u e c).trkWindow = s.trkWindow := rfl
@[simp] theorem evt_hotNext (s : State) (u e c : Nat) : (s.evt u e c).hotNext = s.hotNext := rfl
@[simp] theorem evt_windows (s : State) (u e c : Nat) : (s.evt u e c).windows = s.windows := rfl
@[simp] theorem evt_triggers (s : State) (u e c : Nat) : (s.evt u e c).triggers = s.triggers := rfl
@[simp] theorem evt_rtrFrom (s : State) (u e c : Nat) : (s.evt u e c).rtrFrom = s.rtrFrom := rfl
@[simp] theorem evt_narrow (s : State) (u e c : Nat) : (s.evt u e c).narrow = s.narrow := rfl
@[simp] theorem evt_groups (s : State) (u e c : Nat) : (s.evt u e c).groups = s.groups := rfl
@[simp] theorem evt_groupsDue (s : State) (u e c : Nat) : (s.evt u e c).groupsDue = s.groupsDue := rfl
@[simp] theorem evt_gateOn (s : State) (u e c : Nat) : (s.evt u e c).gateOn = s.gateOn := rfl
@[simp] theorem evt_gateOff (s : State) (u e c : Nat) : (s.evt u e c).gateOff = s.gateOff := rfl
@[simp] theorem evt_calWait (s : State) (u e c : Nat) : (s.evt u e c).calWait = s.calWait := rfl
@[simp] theorem evt_latokDue (s : State) (u e c : Nat) : (s.evt u e c).latokDue = s.latokDue := rfl
@[simp] theorem evt_refilled (s : State) (u e c : Nat) : (s.evt u e c).refilled = s.refilled := rfl
@[simp] theorem evt_sampled (s : State) (u e c : Nat) : (s.evt u e c).sampled = s.sampled := rfl
@[simp] theorem evt_histClear (s : State) (u e c : Nat) : (s.evt u e c).histClear = s.histClear := rfl
@[simp] theorem evt_burstCuts (s : State) (u e c : Nat) : (s.evt u e c).burstCuts = s.burstCuts := rfl
@[simp] theorem evt_stackTemp (s : State) (u e c : Nat) : (s.evt u e c).stackTemp = s.stackTemp := rfl
@[simp] theorem evt_goodTemp (s : State) (u e c : Nat) : (s.evt u e c).goodTemp = s.goodTemp := rfl
@[simp] theorem evt_sampleAt (s : State) (u e c : Nat) : (s.evt u e c).sampleAt = s.sampleAt := rfl
@[simp] theorem evt_capUsed (s : State) (u e c : Nat) : (s.evt u e c).capUsed = s.capUsed := rfl
@[simp] theorem evt_recs (s : State) (u e c : Nat) : (s.evt u e c).recs = s.recs := rfl
@[simp] theorem evt_recTick (s : State) (u e c : Nat) : (s.evt u e c).recTick = s.recTick := rfl
@[simp] theorem evt_recLast (s : State) (u e c : Nat) : (s.evt u e c).recLast = s.recLast := rfl
@[simp] theorem evt_hist (s : State) (u e c : Nat) : (s.evt u e c).hist = s.hist := rfl
@[simp] theorem evt_histFlash (s : State) (u e c : Nat) : (s.evt u e c).histFlash = s.histFlash := rfl
@[simp] theorem evt_migs (s : State) (u e c : Nat) : (s.evt u e c).migs = s.migs := rfl
@[simp] theorem evt_migSeq (s : State) (u e c : Nat) : (s.evt u e c).migSeq = s.migSeq := rfl
@[simp] theorem evt_passes (s : State) (u e c : Nat) : (s.evt u e c).passes = s.passes := rfl
@[simp] theorem evt_frzOps (s : State) (u e c : Nat) : (s.evt u e c).frzOps = s.frzOps := rfl
@[simp] theorem evt_migWant (s : State) (u e c : Nat) : (s.evt u e c).migWant = s.migWant := rfl
@[simp] theorem evt_pprRows (s : State) (u e c : Nat) : (s.evt u e c).pprRows = s.pprRows := rfl
@[simp] theorem evt_tests (s : State) (u e c : Nat) : (s.evt u e c).tests = s.tests := rfl
@[simp] theorem evt_scrubs (s : State) (u e c : Nat) : (s.evt u e c).scrubs = s.scrubs := rfl
@[simp] theorem evt_sec (s : State) (u e c : Nat) : (s.evt u e c).sec = s.sec := rfl
@[simp] theorem evt_rings (s : State) (u e c : Nat) : (s.evt u e c).rings = s.rings := rfl
@[simp] theorem evt_lnts (s : State) (u e c : Nat) : (s.evt u e c).lnts = s.lnts := rfl
@[simp] theorem evt_posies (s : State) (u e c : Nat) : (s.evt u e c).posies = s.posies := rfl
@[simp] theorem evt_fw (s : State) (u e c : Nat) : (s.evt u e c).fw = s.fw := rfl
@[simp] theorem evt_pw (s : State) (u e c : Nat) : (s.evt u e c).pw = s.pw := rfl
@[simp] theorem evt_mir (s : State) (u e c : Nat) : (s.evt u e c).mir = s.mir := rfl
@[simp] theorem evt_advised (s : State) (u e c : Nat) : (s.evt u e c).advised = s.advised := rfl
@[simp] theorem reg_evt (s : State) (u e c : Nat) (r : RegName) (x y : Nat) : (s.evt u e c).reg r x y = s.reg r x y := rfl
@[simp] theorem rd_evt (s : State) (u e c : Nat) (fd : Fld) (x y : Nat) : (s.evt u e c).rd fd x y = s.rd fd x y := rfl
@[simp] theorem bit_evt (s : State) (u e c : Nat) (fd : Fld) (x y : Nat) : (s.evt u e c).bit fd x y = s.bit fd x y := rfl

end Sys2Proof.Machine
end

