-- ==== Sys2Proof/Laws/Kept.lean ====
section
/-! SUPPORT. Frames: which parts of the state an update keeps. -/

namespace Sys2Proof.Machine

theorem keptBut_refl (s : State) (l : List Part) : s.keptBut s l := by
  intro p _; cases p
  case regs => exact ⟨rfl, rfl⟩
  all_goals rfl

theorem keptBut_trans {s t u : State} {l : List Part} (h : s.keptBut t l) (g : t.keptBut u l) : s.keptBut u l := by
  intro p hp
  have h := h p hp
  have g := g p hp
  cases p
  case regs => exact ⟨g.1.trans h.1, g.2.trans h.2⟩
  all_goals exact Eq.trans g h

theorem keptBut_mono {s t : State} {l m : List Part} (h : s.keptBut t l) (hm : ∀ p ∈ l, p ∈ m) : s.keptBut t m :=
  fun p hp => h p fun q => hp (hm p q)

theorem keptBut_ite {s t u : State} {l : List Part} {c : Prop} [Decidable c] (h : s.keptBut t l) (g : s.keptBut u l) :
    s.keptBut (if c then t else u) l := by split <;> assumption

theorem keptBut_onlyIf {s t u : State} {l : List Part} (c : Bool) (h : s.keptBut t l) (g : s.keptBut u l) :
    s.keptBut (onlyIf c t u) l := keptBut_ite h g

theorem keptBut_foldl {α : Type} {s t : State} {l : List Part} (xs : List α) (f : State → α → State)
    (hf : ∀ (u : State) x, u.keptBut (f u x) l) (h : s.keptBut t l) : s.keptBut (xs.foldl f t) l := by
  induction xs generalizing t with
  | nil => exact h
  | cons a xs ih => exact ih (keptBut_trans h (hf t a))

theorem keptBut_setReg {s t : State} {L : List Part} (h : s.keptBut t L) (r : RegName) (i j : Nat) (v : W64) (m0 : Part.regs ∈ L) :
    s.keptBut (t.setReg r i j v) L := by
  intro p hp
  have h := h p hp
  cases p
  case regs => exact absurd m0 hp
  all_goals exact h

theorem keptBut_wr {s t : State} {L : List Part} (h : s.keptBut t L) (f : Fld) (v i j : Nat) (m0 : Part.regs ∈ L) :
    s.keptBut (t.wr f v i j) L := by
  intro p hp
  have h := h p hp
  cases p
  case regs => exact absurd m0 hp
  all_goals exact h

theorem keptBut_incSat {s t : State} {L : List Part} (h : s.keptBut t L) (f : Fld) (i j n : Nat) (m0 : Part.regs ∈ L) :
    s.keptBut (t.incSat f i j n) L := by
  intro p hp
  have h := h p hp
  cases p
  case regs => exact absurd m0 hp
  all_goals exact h

theorem keptBut_raise {s t : State} {L : List Part} (h : s.keptBut t L) (f : Fld) (i j : Nat) (m0 : Part.regs ∈ L) :
    s.keptBut (t.raise f i j) L := by
  intro p hp
  have h := h p hp
  cases p
  case regs => exact absurd m0 hp
  all_goals exact h

theorem keptBut_raiseBit {s t : State} {L : List Part} (h : s.keptBut t L) (f : Fld) (b i j : Nat) (m0 : Part.regs ∈ L) :
    s.keptBut (t.raiseBit f b i j) L := by
  intro p hp
  have h := h p hp
  cases p
  case regs => exact absurd m0 hp
  all_goals exact h

theorem keptBut_maxRc {s t : State} {L : List Part} (h : s.keptBut t L) (f : Fld) (v i j : Nat) (m0 : Part.regs ∈ L) :
    s.keptBut (t.maxRc f v i j) L := by
  intro p hp
  have h := h p hp
  cases p
  case regs => exact absurd m0 hp
  all_goals exact h

theorem keptBut_incRc {s t : State} {L : List Part} (h : s.keptBut t L) (f : Fld) (i j n : Nat) (m0 : Part.regs ∈ L) :
    s.keptBut (t.incRc f i j n) L := by
  intro p hp
  have h := h p hp
  cases p
  case regs => exact absurd m0 hp
  all_goals exact h

theorem keptBut_incWrap {s t : State} {L : List Part} (h : s.keptBut t L) (f : Fld) (i j n : Nat) (m0 : Part.regs ∈ L) :
    s.keptBut (t.incWrap f i j n) L := by
  intro p hp
  have h := h p hp
  cases p
  case regs => exact absurd m0 hp
  all_goals exact h

theorem keptBut_setMap {s t : State} {L : List Part} (h : s.keptBut t L) (f : Fld) (b : Nat) (v : Bool) (i j : Nat) (m0 : Part.regs ∈ L) :
    s.keptBut (t.setMap f b v i j) L := by
  intro p hp
  have h := h p hp
  cases p
  case regs => exact absurd m0 hp
  all_goals exact h

theorem keptBut_clearReg {s t : State} {L : List Part} (h : s.keptBut t L) (r : RegName) (i j : Nat) (m0 : Part.regs ∈ L) :
    s.keptBut (t.clearReg r i j) L := by
  intro p hp
  have h := h p hp
  cases p
  case regs => exact absurd m0 hp
  all_goals exact h

theorem keptBut_send {s t : State} {L : List Part} (h : s.keptBut t L) (o : Output) (m0 : Part.out ∈ L) :
    s.keptBut (t.send o) L := by
  intro p hp
  have h := h p hp
  cases p
  case out => exact absurd m0 hp
  all_goals exact h

theorem keptBut_audit {s t : State} {L : List Part} (h : s.keptBut t L) (a b c d e f : Nat) (g : BitVec 256) (m0 : Part.auditQ ∈ L) :
    s.keptBut (t.audit a b c d e f g) L := by
  intro p hp
  have h := h p hp
  cases p
  case auditQ => exact absurd m0 hp
  all_goals exact h

theorem keptBut_setPc {s t : State} {L : List Part} (h : s.keptBut t L) (k p : Nat) (v : Pc) (m0 : Part.pcs ∈ L) :
    s.keptBut (t.setPc k p v) L := by
  intro p hp
  have h := h p hp
  cases p
  case pcs => exact absurd m0 hp
  all_goals exact h

theorem keptBut_setCredit {s t : State} {L : List Part} (h : s.keptBut t L) (k p : Nat) (c : Credit) (m0 : Part.credits ∈ L) :
    s.keptBut (t.setCredit k p c) L := by
  intro p hp
  have h := h p hp
  cases p
  case credits => exact absurd m0 hp
  all_goals exact h

theorem keptBut_modFlight {s t : State} {L : List Part} (h : s.keptBut t L) (id : Nat) (f : Flight → Flight) (m0 : Part.flights ∈ L) :
    s.keptBut (t.modFlight id f) L := by
  intro p hp
  have h := h p hp
  cases p
  case flights => exact absurd m0 hp
  all_goals exact h

theorem keptBut_dropFlight {s t : State} {L : List Part} (h : s.keptBut t L) (id : Nat) (m0 : Part.flights ∈ L) :
    s.keptBut (t.dropFlight id) L := by
  intro p hp
  have h := h p hp
  cases p
  case flights => exact absurd m0 hp
  all_goals exact h

theorem keptBut_putLine {s t : State} {L : List Part} (h : s.keptBut t L) (l : Loc) (a b : Nat) (v : Line) (m0 : Part.mem ∈ L) :
    s.keptBut (t.putLine l a b v) L := by
  intro p hp
  have h := h p hp
  cases p
  case mem => exact absurd m0 hp
  all_goals exact h

theorem keptBut_zeroPlot {s t : State} {L : List Part} (h : s.keptBut t L) (i : Nat) (f : Fill) (m0 : Part.fills ∈ L) (m1 : Part.mem ∈ L) :
    s.keptBut (t.zeroPlot i f) L := by
  intro p hp
  have h := h p hp
  cases p
  case mem => exact absurd m1 hp
  case fills => exact absurd m0 hp
  all_goals exact h

theorem keptBut_zeroRings {s t : State} {L : List Part} (h : s.keptBut t L) (f : Nat) (m0 : Part.fills ∈ L) (m1 : Part.mem ∈ L) :
    s.keptBut (t.zeroRings f) L := by
  intro p hp
  have h := h p hp
  cases p
  case mem => exact absurd m1 hp
  case fills => exact absurd m0 hp
  all_goals exact h

theorem keptBut_evt {s t : State} {L : List Part} (h : s.keptBut t L) (u e c : Nat) (m0 : Part.pmus ∈ L) :
    s.keptBut (t.evt u e c) L := by
  intro p hp
  have h := h p hp
  cases p
  case pmus => exact absurd m0 hp
  all_goals exact h

end Sys2Proof.Machine
end

