-- ==== Sys2Proof/Laws/Tbl.lean ====
section
/-! SUPPORT. The laws of sparse tables: a read after a write, and that every write keeps the keys rising. -/

namespace Sys2Proof.Machine

variable {α : Type}

@[simp] theorem tget_nil (d : α) (k : Nat) : tget d [] k = d := rfl

@[simp] theorem tget_tdel_same (d : α) (t : Tbl α) (k : Nat) : tget d (tdel t k) k = d := by
  induction t with
  | nil => rfl
  | cons e t ih =>
    obtain ⟨j, v⟩ := e
    simp only [tdel]
    split
    · exact ih
    · simp only [tget, if_neg ‹¬j = k›, ih]

theorem tget_tdel_other (d : α) (t : Tbl α) {k m : Nat} (h : m ≠ k) : tget d (tdel t k) m = tget d t m := by
  induction t with
  | nil => rfl
  | cons e t ih =>
    obtain ⟨j, v⟩ := e
    simp only [tdel, tget]
    split
    · rw [ih, if_neg (by omega)]
    · simp only [tget, ih]

@[simp] theorem tget_tins_same (d v : α) (t : Tbl α) (k : Nat) : tget d (tins v t k) k = v := by
  induction t with
  | nil => simp [tins, tget]
  | cons e t ih =>
    obtain ⟨j, w⟩ := e
    simp only [tins]
    split
    · simp [tget]
    · split
      · simp [tget]
      · simp only [tget, if_neg ‹¬j = k›, ih]

theorem tget_tins_other (d v : α) (t : Tbl α) {k m : Nat} (h : m ≠ k) : tget d (tins v t k) m = tget d t m := by
  induction t with
  | nil => simp [tins, tget, Ne.symm h]
  | cons e t ih =>
    obtain ⟨j, w⟩ := e
    simp only [tins]
    split
    · simp [tget, Ne.symm h]
    · split
      · rename_i _ hj
        simp only [tget]
        rw [if_neg (Ne.symm h), if_neg (by omega)]
      · simp only [tget, ih]

theorem tset_eq [DecidableEq α] (d : α) (t : Tbl α) (k : Nat) (v : α) :
    tset d t k v = if v = d then tdel t k else tins v t k := by
  cases t <;> rfl

/-- A read of the key just written gives what was written. -/
@[simp] theorem tget_tset_same [DecidableEq α] (d v : α) (t : Tbl α) (k : Nat) : tget d (tset d t k v) k = v := by
  rw [tset_eq]
  split
  · simp_all
  · simp

/-- A write leaves every other key as it was. -/
theorem tget_tset_other [DecidableEq α] (d e v : α) (t : Tbl α) {k m : Nat} (h : m ≠ k) :
    tget e (tset d t k v) m = tget e t m := by
  rw [tset_eq]
  split
  · exact tget_tdel_other e t h
  · exact tget_tins_other e v t h

theorem risingFrom_le {lo lo' : Nat} {t : Tbl α} (h : risingFrom lo' t = true) (hl : lo ≤ lo') : risingFrom lo t = true := by
  cases t with
  | nil => rfl
  | cons e t =>
    obtain ⟨j, v⟩ := e
    simp only [risingFrom, Bool.and_eq_true, decide_eq_true_eq] at *
    exact ⟨by omega, h.2⟩

theorem risingFrom_filter (p : Nat × α → Bool) {lo : Nat} {t : Tbl α} (h : risingFrom lo t = true) :
    risingFrom lo (t.filter p) = true := by
  induction t generalizing lo with
  | nil => rfl
  | cons e t ih =>
    obtain ⟨j, v⟩ := e
    simp only [risingFrom, Bool.and_eq_true, decide_eq_true_eq] at h
    simp only [List.filter_cons]
    split
    · simp only [risingFrom, Bool.and_eq_true, decide_eq_true_eq]
      exact ⟨h.1, ih h.2⟩
    · exact risingFrom_le (ih h.2) (by omega)

theorem risingFrom_tdel {lo : Nat} {t : Tbl α} (k : Nat) (h : risingFrom lo t = true) : risingFrom lo (tdel t k) = true := by
  induction t generalizing lo with
  | nil => rfl
  | cons e t ih =>
    obtain ⟨j, v⟩ := e
    simp only [risingFrom, Bool.and_eq_true, decide_eq_true_eq] at h
    simp only [tdel]
    split
    · exact risingFrom_le (ih h.2) (by omega)
    · simp only [risingFrom, Bool.and_eq_true, decide_eq_true_eq]
      exact ⟨h.1, ih h.2⟩

theorem risingFrom_tins {lo : Nat} {t : Tbl α} (v : α) (k : Nat) (hk : lo ≤ k) (h : risingFrom lo t = true) :
    risingFrom lo (tins v t k) = true := by
  induction t generalizing lo with
  | nil => simp [tins, risingFrom, hk]
  | cons e t ih =>
    obtain ⟨j, w⟩ := e
    simp only [risingFrom, Bool.and_eq_true, decide_eq_true_eq] at h
    simp only [tins]
    split
    · simp only [risingFrom, Bool.and_eq_true, decide_eq_true_eq]
      exact ⟨hk, by omega, h.2⟩
    · split
      · rename_i _ hj
        subst hj
        simp only [risingFrom, Bool.and_eq_true, decide_eq_true_eq]
        exact ⟨hk, h.2⟩
      · simp only [risingFrom, Bool.and_eq_true, decide_eq_true_eq]
        exact ⟨h.1, ih (by omega) h.2⟩

/-- A write keeps the keys rising. -/
theorem rising_tset [DecidableEq α] (d v : α) {t : Tbl α} (k : Nat) (h : rising t = true) : rising (tset d t k v) = true := by
  rw [tset_eq]
  split
  · exact risingFrom_tdel k h
  · exact risingFrom_tins v k (Nat.zero_le k) h

/-- Dropping keys keeps the rest rising. -/
theorem rising_tdropWhere (p : Nat → Bool) {t : Tbl α} (h : rising t = true) : rising (tdropWhere p t) = true :=
  risingFrom_filter _ h

theorem lset_getD_same {α : Type} (d : α) (l : List α) (i : Nat) (v : α) : (lset d l i v).getD i d = v := by
  have h : i < (l ++ List.replicate (i + 1 - l.length) d).length := by simp; omega
  simp [lset, List.getD_eq_getElem?_getD, List.getElem?_set_self h]

theorem lset_getD_other {α : Type} (d : α) (l : List α) {i j : Nat} (v : α) (h : j ≠ i) : (lset d l i v).getD j d = l.getD j d := by
  simp only [lset, List.getD_eq_getElem?_getD, List.getElem?_set_ne (Ne.symm h), List.getElem?_append]
  split
  · rfl
  · rename_i g
    rw [List.getElem?_eq_none (Nat.le_of_not_lt g), List.getElem?_replicate]
    split <;> rfl

end Sys2Proof.Machine
end

