-- ==== Sys2Proof/Laws/Regs.lean ====
section
/-! SUPPORT. The laws of the register file: one home per register, a field reads what was written to it, and nothing else moves. -/

namespace Sys2Proof.Machine

theorem RegName.ctorIdx_inj {r q : RegName} (h : r.ctorIdx = q.ctorIdx) : r = q := by
  rw [← RegName.ofNat_ctorIdx r, ← RegName.ofNat_ctorIdx q, h]

/-- Two elements share a key only when they are the same element (indices count modulo 2^14). -/
theorem regKey_inj {r q : RegName} {i j i' j' : Nat} (h : regKey r i j = regKey q i' j') :
    r = q ∧ i % 2 ^ 14 = i' % 2 ^ 14 ∧ j % 2 ^ 14 = j' % 2 ^ 14 := by
  simp only [regKey] at h
  have hi := Nat.mod_lt i (show 0 < 2 ^ 14 by decide)
  have hi' := Nat.mod_lt i' (show 0 < 2 ^ 14 by decide)
  have hj := Nat.mod_lt j (show 0 < 2 ^ 14 by decide)
  have hj' := Nat.mod_lt j' (show 0 < 2 ^ 14 by decide)
  exact ⟨RegName.ctorIdx_inj (by omega), by omega, by omega⟩

theorem regKey_ne_of_reg {r q : RegName} (h : r ≠ q) (i j i' j' : Nat) : regKey r i j ≠ regKey q i' j' :=
  fun e => h (regKey_inj e).1

/-! ### The register file as a table

The laws below are about the table `s.regs` alone; `State.reg_eq`, `State.rd_eq` and `State.bit_eq` carry a read of the state to it, and
the lemmas `<update>_regs` say what an update does to it. -/

/-- The word of a register. -/
@[irreducible] def regIn (T : Tbl W64) (r : RegName) (i j : Nat) : W64 := tget (r.reset i j) T (regKey r i j)
/-- The table with a register written. -/
@[irreducible] def putIn (T : Tbl W64) (r : RegName) (i j : Nat) (v : W64) : Tbl W64 := tset (r.reset i j) T (regKey r i j) v
/-- The value of a field. -/
@[irreducible] def rdIn (T : Tbl W64) (f : Fld) (i j : Nat) : Nat := (regIn T f.reg i j).toNat >>> f.lo % 2 ^ f.len
/-- The table with a field written. -/
@[irreducible] def wrIn (T : Tbl W64) (f : Fld) (v i j : Nat) : Tbl W64 :=
  putIn T f.reg i j (putBits (regIn T f.reg i j) f.lo f.len v)
/-- The table with one bit of a field written. -/
@[irreducible] def mapIn (T : Tbl W64) (f : Fld) (b : Nat) (v : Bool) (i j : Nat) : Tbl W64 :=
  wrIn T f (if v then rdIn T f i j - (rdIn T f i j >>> b % 2) <<< b + 1 <<< b else rdIn T f i j - (rdIn T f i j >>> b % 2) <<< b) i j

theorem State.reg_eq (s : State) (r : RegName) (i j : Nat) : s.reg r i j = regIn s.regs r i j := by unfold regIn; rfl
theorem State.rd_eq (s : State) (f : Fld) (i j : Nat) : s.rd f i j = rdIn s.regs f i j := by unfold rdIn regIn; rfl
theorem State.bit_eq (s : State) (f : Fld) (i j : Nat) : s.bit f i j = (rdIn s.regs f i j == 1) := by rw [State.bit, State.rd_eq]

@[simp] theorem setReg_regs (s : State) (r : RegName) (i j : Nat) (v : W64) : (s.setReg r i j v).regs = putIn s.regs r i j v := by
  unfold putIn; rfl
@[simp] theorem wr_regs (s : State) (f : Fld) (v i j : Nat) : (s.wr f v i j).regs = wrIn s.regs f v i j := by
  rw [State.wr, setReg_regs, State.reg_eq]; unfold wrIn; rfl
@[simp] theorem setMap_regs (s : State) (f : Fld) (b : Nat) (v : Bool) (i j : Nat) : (s.setMap f b v i j).regs = mapIn s.regs f b v i j := by
  rw [State.setMap, wr_regs, State.rd_eq]; unfold mapIn; rfl
@[simp] theorem incSat_regs (s : State) (f : Fld) (i j n : Nat) :
    (s.incSat f i j n).regs = wrIn s.regs f (min (2 ^ f.len - 1) (rdIn s.regs f i j + n)) i j := by
  rw [State.incSat, wr_regs, State.rd_eq]
@[simp] theorem incWrap_regs (s : State) (f : Fld) (i j n : Nat) :
    (s.incWrap f i j n).regs = wrIn s.regs f (rdIn s.regs f i j + n) i j := by
  rw [State.incWrap, wr_regs, State.rd_eq]
@[simp] theorem clearReg_regs (s : State) (r : RegName) (i j : Nat) : (s.clearReg r i j).regs = tdel s.regs (regKey r i j) := rfl

@[simp] theorem regIn_putIn_same (T : Tbl W64) (r : RegName) (i j : Nat) (v : W64) : regIn (putIn T r i j v) r i j = v := by
  unfold regIn putIn; simp

theorem regIn_putIn_key (T : Tbl W64) {r q : RegName} {i j i' j' : Nat} (v : W64) (h : regKey q i' j' ≠ regKey r i j) :
    regIn (putIn T r i j v) q i' j' = regIn T q i' j' := by
  unfold regIn putIn; exact tget_tset_other _ _ _ _ h

/-- Writing a register leaves every other family as it was. -/
theorem regIn_putIn_other (T : Tbl W64) {r q : RegName} (h : q ≠ r) (i j i' j' : Nat) (v : W64) :
    regIn (putIn T r i j v) q i' j' = regIn T q i' j' := regIn_putIn_key T v (regKey_ne_of_reg h _ _ _ _)

/-- Writing a register leaves every other element of its family as it was. -/
theorem regIn_putIn_elem (T : Tbl W64) (r : RegName) {i j i' j' : Nat} (v : W64)
    (h : i' % 2 ^ 14 ≠ i % 2 ^ 14 ∨ j' % 2 ^ 14 ≠ j % 2 ^ 14) : regIn (putIn T r i j v) r i' j' = regIn T r i' j' :=
  regIn_putIn_key T v fun e => by have := regKey_inj e; omega

theorem regIn_tdel_other (T : Tbl W64) {r q : RegName} (h : q ≠ r) (i j i' j' : Nat) :
    regIn (tdel T (regKey r i j)) q i' j' = regIn T q i' j' := by
  unfold regIn; exact tget_tdel_other _ _ (regKey_ne_of_reg h _ _ _ _)

theorem regIn_tdel_same (T : Tbl W64) (r : RegName) (i j : Nat) : regIn (tdel T (regKey r i j)) r i j = r.reset i j := by
  unfold regIn; simp

theorem putBits_toNat (w : W64) {lo len : Nat} (v : Nat) (h : lo + len ≤ 64) :
    (putBits w lo len v).toNat = w.toNat % 2 ^ lo + v % 2 ^ len * 2 ^ lo + w.toNat / 2 ^ (lo + len) * 2 ^ (lo + len) := by
  have hw := w.isLt
  have h1 := Nat.mod_lt w.toNat (show 0 < 2 ^ lo by positivity)
  have h2 := Nat.mod_lt v (show 0 < 2 ^ len by positivity)
  have h3 : w.toNat / 2 ^ (lo + len) * 2 ^ (lo + len) + 2 ^ (lo + len) ≤ 2 ^ 64 := by
    have : w.toNat / 2 ^ (lo + len) < 2 ^ (64 - (lo + len)) := by
      rw [Nat.div_lt_iff_lt_mul (by positivity), ← pow_add]
      simpa [Nat.sub_add_cancel h] using hw
    calc _ = (w.toNat / 2 ^ (lo + len) + 1) * 2 ^ (lo + len) := by ring
      _ ≤ 2 ^ (64 - (lo + len)) * 2 ^ (lo + len) := Nat.mul_le_mul_right _ this
      _ = 2 ^ 64 := by rw [← pow_add, Nat.sub_add_cancel h]
  have h4 : w.toNat % 2 ^ lo + v % 2 ^ len * 2 ^ lo < 2 ^ (lo + len) := by
    have : (v % 2 ^ len + 1) * 2 ^ lo ≤ 2 ^ len * 2 ^ lo := Nat.mul_le_mul_right _ h2
    rw [← pow_add, Nat.add_comm len lo, Nat.add_mul] at this
    omega
  rw [putBits, BitVec.toNat_ofNat, Nat.mod_eq_of_lt (by omega)]

/-- A field reads what was put in it. -/
theorem putBits_same (w : W64) {lo len : Nat} (v : Nat) (h : lo + len ≤ 64) :
    (putBits w lo len v).toNat >>> lo % 2 ^ len = v % 2 ^ len := by
  rw [putBits_toNat w v h, Nat.shiftRight_eq_div_pow]
  have h1 : w.toNat / 2 ^ (lo + len) * 2 ^ (lo + len) = w.toNat / 2 ^ (lo + len) * 2 ^ len * 2 ^ lo := by
    rw [pow_add]; ring
  rw [h1, Nat.add_assoc, ← Nat.add_mul, Nat.add_mul_div_right _ _ (by positivity),
    Nat.div_eq_of_lt (Nat.mod_lt _ (by positivity)), Nat.zero_add, Nat.add_mul_mod_self_right, Nat.mod_mod]

/-- A field below the one written keeps its value. -/
theorem putBits_below (w : W64) {lo len lo' len' : Nat} (v : Nat) (h : lo + len ≤ 64) (hb : lo' + len' ≤ lo) :
    (putBits w lo len v).toNat >>> lo' % 2 ^ len' = w.toNat >>> lo' % 2 ^ len' := by
  rw [putBits_toNat w v h, Nat.shiftRight_eq_div_pow, Nat.shiftRight_eq_div_pow]
  obtain ⟨m, rfl⟩ : ∃ m, lo = lo' + len' + m := ⟨lo - (lo' + len'), by omega⟩
  have e1 : v % 2 ^ len * 2 ^ (lo' + len' + m) = v % 2 ^ len * 2 ^ m * 2 ^ len' * 2 ^ lo' := by simp only [pow_add]; ring
  have e2 : w.toNat / 2 ^ (lo' + len' + m + len) * 2 ^ (lo' + len' + m + len) =
      w.toNat / 2 ^ (lo' + len' + m + len) * 2 ^ (m + len) * 2 ^ len' * 2 ^ lo' := by simp only [pow_add]; ring
  rw [e1, e2, Nat.add_assoc, ← Nat.add_mul, ← Nat.add_mul, Nat.add_mul_div_right _ _ (by positivity), Nat.add_mul_mod_self_right]
  have e3 : (2 : Nat) ^ (lo' + len' + m) = 2 ^ lo' * (2 ^ len' * 2 ^ m) := by simp only [pow_add]; ring
  rw [e3, Nat.mod_mul_right_div_self, Nat.mod_mod_of_dvd _ (dvd_mul_right _ _)]

/-- A field above the one written keeps its value. -/
theorem putBits_above (w : W64) {lo len lo' len' : Nat} (v : Nat) (h : lo + len ≤ 64) (hb : lo + len ≤ lo') :
    (putBits w lo len v).toNat >>> lo' % 2 ^ len' = w.toNat >>> lo' % 2 ^ len' := by
  rw [putBits_toNat w v h, Nat.shiftRight_eq_div_pow, Nat.shiftRight_eq_div_pow]
  obtain ⟨m, rfl⟩ : ∃ m, lo' = lo + len + m := ⟨lo' - (lo + len), by omega⟩
  have h1 := Nat.mod_lt w.toNat (show 0 < 2 ^ lo by positivity)
  have h2 := Nat.mod_lt v (show 0 < 2 ^ len by positivity)
  have h4 : w.toNat % 2 ^ lo + v % 2 ^ len * 2 ^ lo < 2 ^ (lo + len) := by
    have : (v % 2 ^ len + 1) * 2 ^ lo ≤ 2 ^ len * 2 ^ lo := Nat.mul_le_mul_right _ h2
    rw [← pow_add, Nat.add_comm len lo, Nat.add_mul] at this
    omega
  rw [pow_add (2 : Nat) (lo + len) m, ← Nat.div_div_eq_div_mul, Nat.add_mul_div_right _ _ (by positivity),
    Nat.div_eq_of_lt h4, Nat.zero_add, Nat.div_div_eq_div_mul]

/-- A field reads what was written to it, cut to its width. -/
theorem rdIn_wrIn_same (T : Tbl W64) (f : Fld) (v i j : Nat) (h : f.lo + f.len ≤ 64) : rdIn (wrIn T f v i j) f i j = v % 2 ^ f.len := by
  unfold rdIn wrIn
  rw [regIn_putIn_same]
  exact putBits_same _ _ h

/-- Writing a field leaves every other register as it was. -/
theorem regIn_wrIn_other (T : Tbl W64) (f : Fld) {q : RegName} (v i j i' j' : Nat) (h : q ≠ f.reg) :
    regIn (wrIn T f v i j) q i' j' = regIn T q i' j' := by unfold wrIn; exact regIn_putIn_other T h ..

theorem rdIn_wrIn_other (T : Tbl W64) (f g : Fld) (v i j i' j' : Nat) (h : g.reg ≠ f.reg) :
    rdIn (wrIn T f v i j) g i' j' = rdIn T g i' j' := by
  unfold rdIn; rw [regIn_wrIn_other T f v i j i' j' h]

/-- Writing a field of an element leaves every other element as it was. -/
theorem rdIn_wrIn_elem (T : Tbl W64) (f g : Fld) (v : Nat) {i j i' j' : Nat}
    (h : i' % 2 ^ 14 ≠ i % 2 ^ 14 ∨ j' % 2 ^ 14 ≠ j % 2 ^ 14) : rdIn (wrIn T f v i j) g i' j' = rdIn T g i' j' := by
  by_cases hr : g.reg = f.reg
  · unfold rdIn wrIn; rw [hr, regIn_putIn_elem T f.reg _ h]
  · exact rdIn_wrIn_other T f g v i j i' j' hr

/-- Writing a field leaves the disjoint fields of its register as they were. -/
theorem rdIn_wrIn_disjoint (T : Tbl W64) (f g : Fld) (v i j : Nat) (h : f.lo + f.len ≤ 64) (hr : g.reg = f.reg)
    (hd : g.lo + g.len ≤ f.lo ∨ f.lo + f.len ≤ g.lo) : rdIn (wrIn T f v i j) g i j = rdIn T g i j := by
  unfold rdIn wrIn
  rw [hr, regIn_putIn_same]
  rcases hd with hd | hd
  · exact putBits_below _ _ h hd
  · exact putBits_above _ _ h hd

theorem rdIn_putIn_other (T : Tbl W64) (g : Fld) {r : RegName} (v : W64) (i j i' j' : Nat) (h : g.reg ≠ r) :
    rdIn (putIn T r i j v) g i' j' = rdIn T g i' j' := by
  unfold rdIn; rw [regIn_putIn_other T h]

theorem rdIn_tdel_other (T : Tbl W64) (g : Fld) {r : RegName} (i j i' j' : Nat) (h : g.reg ≠ r) :
    rdIn (tdel T (regKey r i j)) g i' j' = rdIn T g i' j' := by
  unfold rdIn; rw [regIn_tdel_other T h]

theorem rdIn_lt (T : Tbl W64) (f : Fld) (i j : Nat) : rdIn T f i j < 2 ^ f.len := by
  unfold rdIn; exact Nat.mod_lt _ (by positivity)

/-! ### Bit maps -/

theorem nbit_eq_testBit (w b : Nat) : nbit w b = w.testBit b := by
  simp [nbit, Nat.testBit, Nat.shiftRight_eq_div_pow, Nat.and_comm 1, Nat.and_one_is_mod, bne]
  rcases Nat.mod_two_eq_zero_or_one (w / 2 ^ b) with h | h <;> simp [h]

/-- Clearing bit `b` of a number and setting it to `v`. -/
theorem nbit_put (w b c : Nat) (v : Bool) :
    nbit (if v then w - (w >>> b % 2) <<< b + 1 <<< b else w - (w >>> b % 2) <<< b) c = if c = b then v else nbit w c := by
  have hw : w = w % 2 ^ b + (w >>> b % 2) * 2 ^ b + w / 2 ^ (b + 1) * 2 ^ (b + 1) := by
    have h1 := Nat.div_add_mod w (2 ^ b)
    have h2 := Nat.div_add_mod (w / 2 ^ b) 2
    rw [Nat.div_div_eq_div_mul, ← pow_succ] at h2
    rw [Nat.shiftRight_eq_div_pow]
    have h3 : w / 2 ^ b * 2 ^ b = (2 * (w / 2 ^ (b + 1)) + w / 2 ^ b % 2) * 2 ^ b := by rw [h2]
    rw [Nat.add_mul, show 2 * (w / 2 ^ (b + 1)) * 2 ^ b = w / 2 ^ (b + 1) * 2 ^ (b + 1) by rw [pow_succ]; ring] at h3
    rw [Nat.mul_comm] at h1
    omega
  have hc : w - (w >>> b % 2) <<< b = w % 2 ^ b + w / 2 ^ (b + 1) * 2 ^ (b + 1) := by
    rw [Nat.shiftLeft_eq]; omega
  have key (x : Nat) (hx : x < 2) :
      nbit (w % 2 ^ b + x * 2 ^ b + w / 2 ^ (b + 1) * 2 ^ (b + 1)) c = if c = b then x == 1 else nbit w c := by
    have hp : (0 : Nat) < 2 ^ b := by positivity
    have hm := Nat.mod_lt w hp
    rw [nbit, nbit, Nat.shiftRight_eq_div_pow, Nat.shiftRight_eq_div_pow]
    rcases Nat.lt_trichotomy c b with h | h | h
    · obtain ⟨m, rfl⟩ : ∃ m, b = c + 1 + m := ⟨b - c - 1, by omega⟩
      rw [if_neg (by omega)]
      congr 1
      have e1 : x * 2 ^ (c + 1 + m) = x * 2 ^ m * 2 * 2 ^ c := by simp only [pow_add, pow_one]; ring
      have e2 : w / 2 ^ (c + 1 + m + 1) * 2 ^ (c + 1 + m + 1) = w / 2 ^ (c + 1 + m + 1) * 2 ^ (m + 1) * 2 * 2 ^ c := by
        simp only [pow_add, pow_one]; ring
      rw [e1, e2, Nat.add_assoc, ← Nat.add_mul, ← Nat.add_mul, Nat.add_mul_div_right _ _ (by positivity), Nat.add_mul_mod_self_right]
      have e3 : (2 : Nat) ^ (c + 1 + m) = 2 ^ c * (2 * 2 ^ m) := by simp only [pow_add, pow_one]; ring
      rw [e3, Nat.mod_mul_right_div_self, Nat.mod_mod_of_dvd _ (dvd_mul_right _ _)]
    · subst h
      rw [if_pos rfl]
      have e2 : w / 2 ^ (c + 1) * 2 ^ (c + 1) = w / 2 ^ (c + 1) * 2 * 2 ^ c := by simp only [pow_add, pow_one]; ring
      rw [e2, Nat.add_assoc, ← Nat.add_mul, Nat.add_mul_div_right _ _ hp, Nat.div_eq_of_lt hm, Nat.zero_add,
        Nat.add_mul_mod_self_right, Nat.mod_eq_of_lt hx]
    · obtain ⟨m, rfl⟩ : ∃ m, c = b + 1 + m := ⟨c - b - 1, by omega⟩
      rw [if_neg (by omega)]
      congr 1
      have hs : w % 2 ^ b + x * 2 ^ b < 2 ^ (b + 1) := by
        have : x * 2 ^ b ≤ 1 * 2 ^ b := Nat.mul_le_mul_right _ (by omega)
        rw [pow_succ]; omega
      rw [pow_add (2 : Nat) (b + 1) m, ← Nat.div_div_eq_div_mul, Nat.add_mul_div_right _ _ (by positivity), Nat.div_eq_of_lt hs,
        Nat.zero_add, Nat.div_div_eq_div_mul]
  rw [hc]
  cases v
  · simpa using key 0 (by omega)
  · have := key 1 (by omega)
    simp only [if_true, Nat.shiftLeft_eq, Nat.one_mul] at *
    rw [show w % 2 ^ b + w / 2 ^ (b + 1) * 2 ^ (b + 1) + 2 ^ b = w % 2 ^ b + 2 ^ b + w / 2 ^ (b + 1) * 2 ^ (b + 1) by omega, this]
    rfl

theorem nbit_mod (w n c : Nat) (h : c < n) : nbit (w % 2 ^ n) c = nbit w c := by
  rw [nbit_eq_testBit, nbit_eq_testBit, Nat.testBit_mod_two_pow]
  simp [h]

/-- A bit map reads what was written to one of its bits; its other bits are as they were. -/
theorem nbit_mapIn (T : Tbl W64) (f : Fld) (b c : Nat) (v : Bool) (i j : Nat) (h : f.lo + f.len ≤ 64) (hc : c < f.len) :
    nbit (rdIn (mapIn T f b v i j) f i j) c = if c = b then v else nbit (rdIn T f i j) c := by
  unfold mapIn
  rw [rdIn_wrIn_same T f _ i j h, nbit_mod _ _ _ hc, nbit_put]

theorem regIn_mapIn_other (T : Tbl W64) (f : Fld) {q : RegName} (b : Nat) (v : Bool) (i j i' j' : Nat) (h : q ≠ f.reg) :
    regIn (mapIn T f b v i j) q i' j' = regIn T q i' j' := by unfold mapIn; exact regIn_wrIn_other T f _ i j i' j' h

theorem rdIn_mapIn_other (T : Tbl W64) (f g : Fld) (b : Nat) (v : Bool) (i j i' j' : Nat) (h : g.reg ≠ f.reg) :
    rdIn (mapIn T f b v i j) g i' j' = rdIn T g i' j' := by unfold mapIn; exact rdIn_wrIn_other T f g _ i j i' j' h

theorem rdIn_mapIn_disjoint (T : Tbl W64) (f g : Fld) (b : Nat) (v : Bool) (i j : Nat) (h : f.lo + f.len ≤ 64) (hr : g.reg = f.reg)
    (hd : g.lo + g.len ≤ f.lo ∨ f.lo + f.len ≤ g.lo) : rdIn (mapIn T f b v i j) g i j = rdIn T g i j := by
  unfold mapIn; exact rdIn_wrIn_disjoint T f g _ i j h hr hd

theorem rdIn_mapIn_elem (T : Tbl W64) (f g : Fld) (b : Nat) (v : Bool) {i j i' j' : Nat}
    (h : i' % 2 ^ 14 ≠ i % 2 ^ 14 ∨ j' % 2 ^ 14 ≠ j % 2 ^ 14) : rdIn (mapIn T f b v i j) g i' j' = rdIn T g i' j' := by
  unfold mapIn; exact rdIn_wrIn_elem T f g _ h

/-! ### Frames -/

/-- Every register but the elements of `l` reads in `U` as in `T`. -/
def onlyIn (T U : Tbl W64) (l : List (RegName × Nat × Nat)) : Prop :=
  ∀ r i j, (r, i % 2 ^ 14, j % 2 ^ 14) ∉ l → regIn U r i j = regIn T r i j

theorem State.onlyRegs_eq (s t : State) (l : List (RegName × Nat × Nat)) : s.onlyRegs t l ↔ onlyIn s.regs t.regs l := by
  simp only [State.onlyRegs, onlyIn, State.reg_eq]

theorem onlyIn_refl (T : Tbl W64) (l : List (RegName × Nat × Nat)) : onlyIn T T l := fun _ _ _ _ => rfl

theorem onlyIn_trans {T U V : Tbl W64} {l : List (RegName × Nat × Nat)} (h : onlyIn T U l) (g : onlyIn U V l) : onlyIn T V l :=
  fun r i j n => (g r i j n).trans (h r i j n)

theorem onlyIn_putIn {T U : Tbl W64} {l : List (RegName × Nat × Nat)} (h : onlyIn T U l) (r : RegName) (i j : Nat) (v : W64)
    (m : (r, i % 2 ^ 14, j % 2 ^ 14) ∈ l) : onlyIn T (putIn U r i j v) l := by
  intro q i' j' n
  rw [regIn_putIn_key, h q i' j' n]
  intro e
  obtain ⟨rfl, hi, hj⟩ := regKey_inj e
  exact n (by rwa [hi, hj])

theorem onlyIn_wrIn {T U : Tbl W64} {l : List (RegName × Nat × Nat)} (h : onlyIn T U l) (f : Fld) (v i j : Nat)
    (m : (f.reg, i % 2 ^ 14, j % 2 ^ 14) ∈ l) : onlyIn T (wrIn U f v i j) l := by
  unfold wrIn; exact onlyIn_putIn h f.reg i j _ m

theorem onlyIn_mapIn {T U : Tbl W64} {l : List (RegName × Nat × Nat)} (h : onlyIn T U l) (f : Fld) (b : Nat) (v : Bool) (i j : Nat)
    (m : (f.reg, i % 2 ^ 14, j % 2 ^ 14) ∈ l) : onlyIn T (mapIn U f b v i j) l := by
  unfold mapIn; exact onlyIn_wrIn h f _ i j m

theorem onlyIn_tdel {T U : Tbl W64} {l : List (RegName × Nat × Nat)} (h : onlyIn T U l) (r : RegName) (i j : Nat)
    (m : (r, i % 2 ^ 14, j % 2 ^ 14) ∈ l) : onlyIn T (tdel U (regKey r i j)) l := by
  intro q i' j' n
  rw [← h q i' j' n]
  unfold regIn
  refine tget_tdel_other _ _ fun e => ?_
  obtain ⟨rfl, hi, hj⟩ := regKey_inj e
  exact n (by rwa [hi, hj])


/-- The entry an audited change queues is in the queue. -/
theorem audit_queued (s : State) (a b c d e f : Nat) (g : BitVec 256) :
    (⟨s.nowAt 12, a, b, c, d, e, f, g⟩ : AuditEnt) ∈ (s.audit a b c d e f g).sec.auditQ := by
  simp [State.audit]

/-- A fold keeps what each of its steps keeps. -/
theorem foldl_keep {α β : Type} (p : State → β) (l : List α) (g : State → α → State) (h : ∀ s x, p (g s x) = p s) (s : State) :
    p (l.foldl g s) = p s := by
  induction l generalizing s with
  | nil => rfl
  | cons a l ih => rw [List.foldl_cons, ih, h]

/-- A fold keeps a property that each of its steps keeps. -/
theorem foldl_inv {α : Type} (p : State → Prop) (l : List α) (g : State → α → State) (h : ∀ s x, x ∈ l → p s → p (g s x)) (s : State)
    (hs : p s) : p (l.foldl g s) := by
  induction l generalizing s with
  | nil => exact hs
  | cons a l ih =>
    rw [List.foldl_cons]
    exact ih (fun s x m => h s x (List.mem_cons_of_mem a m)) _ (h s a (by simp) hs)

end Sys2Proof.Machine
end

