-- ==== Sys2Proof/Tests/Slice0.lean ====
section
/-! SUPPORT. The model's own tests: the check of ill-formed commands, and for every statement with hypotheses a state and operands
that meet them. -/

set_option Elab.async false

namespace Sys2Proof.Machine

/-- Writes fields: (field, value, i, j); the tick began with them. -/
def State.put (s : State) (l : List (Fld × Nat × Nat × Nat)) : State :=
  let s : State := l.foldl (fun s e => s.wr e.1 e.2.1 e.2.2.1 e.2.2.2) s
  { s with regs0 := s.regs, events := [] }

end Sys2Proof.Machine

namespace Sys2Proof.Tests

open Sys2Proof Sys2Proof.Machine

/-- A block in HOLD whose clocks run at stamp `n`, with every core running and every link up. -/
def base (n : Nat) : State :=
  let s : State := { State.reset with clk := { Clk.reset with now := BitVec.ofNat 64 n, running := true } }
  let s := s.put ([(F.CLOCK_STATUS.MAIN_LOCK, 1, 0, 0), (F.CLOCK_STATUS.FCLK_PRESENT, 1, 0, 0), (F.CLOCK_STATUS.PHY_LOCK, 4095, 0, 0),
    (F.GLOBAL_STATE.STATE, 1, 0, 0)] ++ (List.range 12).map (fun k => (F.CLOCK_PHYPLL.MULT, 48, k, 0)) ++
    (List.range 15).map (fun c => (F.FW_STATE.STATE, 2, c, 0)))
  s

/-! ### Witnesses: clocks, plots, traffic -/

theorem witness_PllsLockAndUnlock :
    State.reset.clk.running = false ∧ State.reset.clk.mainLost = false ∧ (base 10).bit F.CLOCK_STATUS.MAIN_LOCK = true ∧
    nbit ((base 10).rd F.CLOCK_STATUS.PHY_LOCK) 11 = true ∧ nbit (((base 10).put [(F.CLOCK_STATUS.PHY_LOCK, 0, 0, 0)]).rd F.CLOCK_STATUS.PHY_LOCK) 11 = false ∧
    (base 10).rd F.CLOCK_PHYPLL.MULT 11 ≠ 0 := by decide +kernel

/-- CLK_NMC is asked to halve. -/
def asked (n : Nat) : State := { base n with clk := { (base n).clk with nmcAsk := some true } }

theorem witness_FabricAndNmcClocks :
    (base 10).bit F.CLOCK_STATUS.FCLK_PRESENT = true ∧ 800 ≤ (1200 : BitVec 16).toNat ∧ (1200 : BitVec 16).toNat ≤ 2000 ∧
    (asked 20).clk.nmcAsk = some true ∧ (asked 20).now % 10 = 0 ∧ (asked 20).nmcEdge = true ∧ (asked 21).clk.nmcAsk = some true ∧
    (asked 21).now % 10 ≠ 0 := by decide +kernel

/-- A check of the timestamp's replicas is due. -/
def checking : State :=
  let s := (base 2048).put [(F.TS_CTRL.CHECK_EN, 1, 0, 0)]
  { s with clk := { s.clk with nextCheck := 2048 } }

theorem witness_Timestamp :
    (base 10).pfHeld = false ∧ ((base 10).put [(F.TS_CTRL.CHECK_EN, 0, 0, 0)]).bit F.TS_CTRL.CHECK_EN = false ∧ (List.replicate 12 (0 : W64) ++ [5]).length = 13 ∧
    checking.clk.running = true ∧ checking.bit F.TS_CTRL.CHECK_EN = true ∧ checking.now % 1024 = 0 ∧ checking.clk.nextCheck ≤ checking.now := by
  decide +kernel

theorem witness_PhyMultRule :
    ((base 10).pfHeld && !(base 10).siteStarting 2) = false ∧ ((31 : Byte).toNat ≠ 0 ∧ ((31 : Byte).toNat < 32 ∨ 48 < (31 : Byte).toNat)) ∧
    (32 ≤ (40 : Byte).toNat ∧ (40 : Byte).toNat ≤ 48) ∧ (base 10).anyPc 2 PcState.live = false ∧
    (40 : Byte).toNat ≠ (base 10).rd F.CLOCK_PHYPLL.MULT 2 := by decide +kernel

/-- Stack 0 is populated with 16 frames; plot 3 is in state `st`, at frame 2, with a FREE under way in QUARANTINE. -/
def plotted (st : PlotState) (next : Bool) : State :=
  { (base 100).put [(F.PLOT_GEOM.POPULATED, 1, 0, 0), (F.PLOT_STACKGEOM.FRAMES, 16, 0, 0), (F.PLOT_ARG1.RIGHTS, 0x0F, 0, 0)] with
    plots := [(3, { Plot.blank with state := st, frame := 2, next := next })], quar := [(3, some ⟨0, true, false⟩)] }

theorem witness_PlotAllocates :
    let s := plotted .openPlot false
    s.bit F.PLOT_CMD.BUSY = false ∧ s.pfHeld = false ∧ s.plotWaits 1 7 = false ∧ (s.plot 7).state = .free ∧
    s.bit F.PLOT_ARG0.MODE = false ∧ s.placeBad false 0 0 0 = false ∧ s.placeUsed false 0 0 0 = false ∧
    s.hasSession (s.rd F.PLOT_ARG0.OWNER) = true ∧ (s.allocSlotOf (s.rd F.PLOT_ARG0.OWNER)).1 = some 0 := by
  refine ⟨?_, ?_, ?_, ?_, ?_, ?_, ?_, ?_, ?_⟩ <;> decide +kernel

theorem witness_PlotFrees :
    let s := plotted .openPlot false
    s.bit F.PLOT_CMD.BUSY = false ∧ s.pfHeld = false ∧ s.plotWaits 2 3 = false ∧ rising s.plots = true ∧
    (s.plot 3).state = .openPlot ∧ (s.plot 0xFF9).state = .free := by
  refine ⟨?_, ?_, ?_, ?_, ?_, ?_⟩ <;> decide +kernel

theorem witness_PlotEditsAndQuarantine :
    (plotted .sealed false).bit F.PLOT_CMD.BUSY = false ∧ (plotted .sealed false).pfHeld = false ∧ (plotted .sealed false).plotChanged 3 = false ∧
    (plotted .sealed false).plotWaits 3 0xFFA = false ∧ { plotted .sealed false with plots := [(3, { Plot.blank with stamp := 100 })] }.plotWaits 3 3 = true ∧ ((plotted .sealed false).plot 3).state = .sealed ∧
    ((plotted .sealed false).plot 4).state = .free ∧ 4 < (5 : Fin 16).val ∧ ((plotted .quarantine true).plot 3).state = .quarantine ∧ (plotted .quarantine true).plotChanged 3 = false ∧
    ((plotted .quarantine true).plot 3).next = true ∧ ((plotted .quarantine false).plot 3).next = false ∧
    tget none (plotted .quarantine false).quar 3 = some ⟨0, true, false⟩ ∧ (plotted .quarantine false).drained 3 0 = true := by decide +kernel

theorem witness_Buckets :
    (base 75).now % 75 = 0 ∧ (base 75).clk.running = true ∧ (base 75).refilled ≠ (base 75).now + 1 ∧ (base 75).pfHeld = false ∧ (base 75).burstCuts = [] ∧
    bktAt (regOff .TRF_PORT_CTL 38 0) = some (.port 38, 0) ∧ bktAt (regOff .TRF_PORT_BURST 38 0) = some (.port 38, 1) ∧ 4 ≤ (4 : W32).toNat % 2 ^ 16 ∧
    (3 : W32).toNat % 2 ^ 16 < 4 ∧ 2 ^ 31 ≤ (0x80000001 : W32).toNat ∧ (base 75).bEn (.port 38) = false ∧ (base 75).owesNow (.port 38) = [] := by decide +kernel

/-- A gate calendar of two slots of 2,000 ticks is active from stamp 0, with a guard band of 700 ticks; `on` whether it runs, `en` whether
it is enabled, `pend` whether a commit waits. -/
def gated (n : Nat) (on en pend : Bool) : State :=
  { (base n).put [(F.TRF_GATE_CTL.EN, en.toNat, 0, 0), (F.TRF_GATE_STATUS.NSLOT, 2, 0, 0), (F.TRF_GATE_CTL.NSLOT, 2, 0, 0),
      (F.TRF_GATE_ACT.LEN, 2000, 0, 0), (F.TRF_GATE_ACT.LEN, 2000, 1, 0), (F.TRF_GATE_SLOT.LEN, 2000, 0, 0),
      (F.TRF_GATE_SLOT.LEN, 2000, 1, 0), (F.TRF_GATE_GUARD.ACTIVE, 700, 0, 0), (F.TRF_GATE_GUARD.SHADOW, 700, 0, 0),
      (F.TRF_GATE_CTL.PENDING, pend.toNat, 0, 0)] with
    gateOn := on, calWait := if pend then some ⟨2, 700, List.replicate 64 2000, 5, 0⟩ else none }

theorem witness_Gate :
    (gated 2000 true true false).gateEn = true ∧ (gated 2000 true true false).inCycle 2000 = (gated 2000 true true false).slotStart 1 ∧
    (gated 2000 true true false).slotAt 2000 = 1 ∧ (gated 1300 true true false).inCycle 1300 + 700 = (gated 1300 true true false).slotStart 1 ∧
    (gated 1300 true true false).slotAt 1300 = 0 ∧ (gated 0 false true false).now = (gated 0 false true false).origin ∧
    (base 10).pfHeld = false ∧ (base 10).commitBad = true ∧ (gated 5 true true false).commitBad = false ∧
    (gated 5 false false false).commitBad = false ∧ (gated 4000 true true true).calWait = some ⟨2, 700, List.replicate 64 2000, 5, 0⟩ ∧
    (gated 4000 true true true).gateEn = true ∧ (gated 4000 true true true).inCycle 4000 = 0 ∧
    (gated 4000 true true true).windowConflict ⟨2, 700, List.replicate 64 2000, 5, 0⟩ 4000 = false ∧ (gated 5 false false false).actN ≠ 0 ∧ (base 10).actN = 0 ∧
    (base 10).bit F.TRF_GATE_CTL.EN = false ∧ (gated 0 false true false).bit F.TRF_GATE_CTL.EN = true ∧ (gated 5 true true false).gateOn = true ∧
    (gated 0 false true false).gateOn = false := by decide +kernel

theorem witness_Histograms :
    let s := (base 1024).put [(F.TRF_HIST_CTL.EN, 1, 0, 0)]
    s.now % 1024 = 0 ∧ s.sampled ≠ s.now + 1 ∧ s.bit F.TRF_HIST_CTL.EN = true ∧ s.clk.running = true ∧ s.frozenNow = false ∧ s.pfHeld = false ∧ rising s.events = true := by
  decide +kernel

/-! ### Witnesses: refresh, row guard, windows, self-refresh -/

/-- Stack 0 runs 64 pseudo-channels with the timing of an HBM4 stack; PC 0 is as given, PC 1 serves. -/
def stacked (n : Nat) (p : Pc) : State :=
  ((((base n).put [(F.PHY_ID.PCS, 64, 0, 0), (F.REF_PERIOD.TREFI_TS, 4680, 0, 0), (F.REF_PERIOD.TRFC_TS, 420, 0, 0), (F.REF_TIM.TRFCAB, 700, 0, 0),
    (F.REF_TIM.TRFMPB, 400, 0, 0), (F.PC_QCFG.WQ_HI, 48, 0, 0), (F.PC_QCFG.WQ_LO, 16, 0, 0), (F.PHY_STATUS.SITE, 3, 0, 0)])).setPc 0 0 p).setPc 0 1 { Pc.blank with st := .serving }

def serving : Pc := { Pc.blank with st := .serving }

theorem witness_RefreshSequence :
    (stacked 4680 serving).isDue 0 0 4680 = true ∧ (stacked 4680 serving).honours 0 0 = true ∧
    ((stacked 4680 serving).pc 0 0).ref = .idle ∧ (stacked 4680 { serving with skipUntil := 4680 }).honours 0 0 = false ∧ (stacked 4680 serving).dramOk = true ∧
    ((stacked 4690 { serving with ref := .closing 4680 }).pc 0 0).ref = .closing 4680 ∧
    (∀ b ∈ ((stacked 4690 { serving with ref := .closing 4680 }).pc 0 0).banks, b.2.busy ≤ 4690) ∧
    ((stacked 5200 { serving with ref := .stall 5110 }).pc 0 0).ref = .stall 5110 := by decide +kernel

theorem witness_RefreshPeriod :
    let s := (stacked 9360 serving).put [(F.REF_NEXTSW.STAMP, 9360, 0, 0)]
    s.rd F.REF_NEXTSW.STAMP 0 ≠ 0 ∧ s.now = s.rd F.REF_NEXTSW.STAMP 0 ∧ s.pfHeld = false ∧ (80 : W32).toNat % 256 ≤ 85 ∧ ¬(86 : W32).toNat % 256 ≤ 85 := by
  decide +kernel

/-- One bank of PC 0 owes an RFM; it was last opened at CLK_PHY tick 10. -/
def owing : Pc := { serving with banks := [(0, ⟨some 10, [⟨7, 300, []⟩], true, 2, 0⟩)] }

theorem witness_RowGuard :
    let s := (stacked 38400000 owing).put [(F.RG_CFG.THR_EN, 1, 0, 0)]
    s.now % 38400000 = 0 ∧ s.clk.running = true ∧ s.now / 38400000 ≠ s.trkWindow ∧ 0 < ((s.pc 0 0).bank 0 0).owed ∧ s.mayAct 0 0 = true ∧ ((s.pc 0 0).bank 0 0).busy ≤ s.phy 0 s.now ∧
    (∀ l, ((s.pc 0 0).bank 0 0).lastAct = some l → l + s.trc 0 ≤ s.phy 0 s.now) ∧ s.class1Waits (s.pc 0 0) 0 0 = false ∧
    s.phyTicks 0 (s.rd F.REF_TIM.TRFMPB 0) < s.toDue 0 0 s.now ∧ s.pfHeld = false ∧ s.bit F.RG_CFG.THR_EN 0 = true ∧
    (256 ≤ (0x400 : W32).toNat % 65536 ∧ (0x400 : W32).toNat % 65536 ≤ 32768) := by
  refine ⟨?_, ?_, ?_, ?_, ?_, ?_, ?_, ?_, ?_, ?_, ?_, ?_⟩ <;> decide +kernel

/-- A trigger waits at stack 0; with `run` given, a RETRAIN window of 40 µs is published for stamp 1,300,000 and runs or not. -/
def windowed (n : Nat) (run : Option Bool) : State :=
  let s := stacked n (if run = some true then { serving with st := .training } else serving)
  match run with
  | none => { s with triggers := [0] }
  | some r => { s.put [(F.REF_MAINT.VALID, 1, 0, 0), (F.REF_MAINT.LEN_US, 40, 0, 0), (F.REF_MAINT_START.STAMP, 1300000, 0, 0)] with
      windows := [(0, some ⟨r, [], none, false, false⟩)] }

theorem witness_MaintenanceWindows :
    (windowed 1000 none).triggers.contains 0 = true ∧ (windowed 1000 none).bit F.REF_MAINT.VALID 0 = false ∧ 1000 + 1200000 ≤ 1300000 ∧
    (windowed 1000 none).windowFits 1300000 (usTicks 40) = true ∧ (windowed 1000 none).cccUp 0 = true ∧
    tget none (windowed 1300000 (some false)).windows 0 = some ⟨false, [], none, false, false⟩ ∧ (windowed 1300000 (some false)).bit F.REF_MAINT.VALID 0 = true ∧
    (windowed 1300000 (some false)).now = (windowed 1300000 (some false)).rd F.REF_MAINT_START.STAMP 0 ∧
    (windowed 1300000 (some false)).rd F.REF_MAINT.KIND 0 = 0 ∧ tget none (windowed 1348000 (some true)).windows 0 = some ⟨true, [], none, false, false⟩ ∧
    (windowed 1348000 (some true)).rd F.REF_MAINT_START.STAMP 0 + (windowed 1348000 (some true)).windowLen 0 ≤ 1348000 := by decide +kernel

/-- Self-refresh is enabled after 10 µs. -/
def dozing (p : Pc) : State := (stacked 200000 p).put [(F.SR_CFG.SR_EN, 1, 0, 0), (F.SR_CFG.SR_IDLE_US, 10, 0, 0)]

theorem witness_SelfRefresh :
    (dozing serving).pcIdle 0 0 = true ∧ (dozing serving).windowSoon 0 0 = false ∧ (dozing serving).bit F.SR_CFG.SR_EN 0 = true ∧
    (dozing serving).idleFrom 0 0 + 1200 * (dozing serving).rd0 F.SR_CFG.SR_IDLE_US 0 ≤ 200000 ∧
    300 < (dozing serving).toDue 0 0 200000 ∧ (dozing { serving with sr := .asking }).pcIdle 0 0 = true ∧
    (dozing { serving with sr := .asking }).anyPresented 0 0 = false ∧
    ((dozing { serving with st := .selfRefresh, sr := .entering 199999 false }).pc 0 0).sr = .entering 199999 false ∧ (dozing serving).honours 0 0 = false ∧
    ((dozing { serving with st := .selfRefresh, sr := .asleep }).put [(F.SR_CFG.SR_EN, 0, 0, 0)]).bit F.SR_CFG.SR_EN 0 = false ∧
    (stacked 200000 serving).wakeable 0 = true ∧ ((dozing { serving with st := .selfRefresh, sr := .asleep }).put [(F.SR_CFG.SR_EN, 0, 0, 0)]).srLeaves 0 0 = true ∧
    (dozing { serving with st := .retired }).retiredIdle 0 0 = true ∧
    ((dozing { serving with st := .selfRefresh, sr := .exiting 200000 }).pc 0 0).sr = .exiting 200000 ∧ (dozing serving).pfHeld = false ∧
    (10 ≤ (0x80000064 : W32).toNat % 2 ^ 14 ∧ (0x80000064 : W32).toNat % 2 ^ 14 ≤ 10000) := by decide +kernel
/-! ### Witnesses: requests, the crossbar, the PC controller, holds -/

/-- Plot 3 lies open in stack 0 at frame 0, for tenant 5, to whom port 0 is bound; port 0 is UP and has its credits. -/
def fabric (n : Nat) (p : Pc) : State :=
  { (stacked n p).put [(F.GLOBAL_STATE.STATE, 2, 0, 0), (F.PLOT_GEOM.POPULATED, 1, 0, 0), (F.PLOT_STACKGEOM.FRAMES, 16, 0, 0),
      (F.PLOT_STACKGEOM.NDATA, 63, 0, 0), (F.PLOT_STACKGEOM.SIDS, 2, 0, 0), (F.PORT_LINK.UP, 1, 0, 0), (F.PORT_LINK.EPOCH, 3, 0, 0),
      (F.PORT_CFG.ENABLE, 1, 0, 0), (F.PORT_CFG.TMO_US, 100, 0, 0), (F.PORT_EFF.VER, 2, 0, 0), (F.PORT_EFF.TAGBITS, 12, 0, 0),
      (F.PORT_EFF.CLASSES, 7, 0, 0), (F.PORT_EFF.OPS, 0x1FF, 0, 0), (F.PORT_EFF.ORD_OK, 1, 0, 0), (F.PORT_BIND.BOUND, 1, 0, 0),
      (F.PORT_BIND.TENANT, 5, 0, 0)] with
    plots := [(3, { Plot.blank with state := .openPlot, rights := 0xFFFF, owner := 5 })], credits := [(0, ⟨64, 256, 4⟩)] }

/-- A message of opcode `op` for line `l` of plot 3, with the operand `o`. -/
def msg (op cls tag len l o : Nat) (beats : List LineData := []) : Msg :=
  ⟨mkHdr op len tag 0 cls false (3 * 2 ^ 28 + 64 * l) 77 o 0 0, beats, 0⟩

/-- `s` with one more request of port 0 at stack 0, in the stage given. -/
def withReq (s : State) (m : Msg) (st : Stage) : State := s.addFlight { s.mkFlight 0 0 0 (some 5) .port m with stage := st }

/-- The request `n` of a state. -/
def theReq (s : State) (n : Nat) : Flight := s.flights.getD n (s.mkFlight 0 0 0 none .port ⟨0, [], 0⟩)

/-- A read that has been released is presented to slice 0. -/
def presenting : State := withReq (fabric 5000 serving) (msg opRD 1 9 1 0 0) (.released 4990)

theorem witness_CrossbarGrants :
    presenting.clk.running = true ∧ (presenting.slice 0 0).last ≠ some presenting.now ∧ presenting.gateEn = false ∧
    presenting.holdOn 0 0 = none ∧ presenting.candidates 0 0 = [theReq presenting 0] ∧
    ((presenting.setSlice 0 0 { Slice.blank with last := some 5000 }).slice 0 0).last = some presenting.now := by decide +kernel

/-- One read entry of PC 0, for request 0. -/
def rent (issued : Bool) (at_ : Nat) : REnt := ⟨0, 0, ⟨0, 0, 0, 0, 0, 0⟩, 0, 0, issued, none, false, none, false, 0,
  if issued then some Line.blank else none, at_, none, none, none⟩
/-- One write entry of PC 0, for request 1. -/
def went : WEnt := ⟨4, 1, 3 * 2 ^ 28 + 64, ⟨0, 0, 1, 2, 0, 1⟩, 1, 0, 0xABC, false, 0, 0, false, 3, 0, true, [], some 4900, none⟩

/-- A granted read or write waits in PC 0's queues. -/
def waiting (rq : List REnt) (wq : List WEnt) : State :=
  withReq (withReq (fabric 5000 { serving with rq := rq, wq := wq }) (msg opRD 1 9 1 0 0) (.granted 4990)) (msg opWR 1 10 1 1 0 [0xABC]) (.granted 4990)

/-- The access selected in `waiting`. -/
def chosen (rq : List REnt) (wq : List WEnt) : Option Access1 :=
  let s := waiting rq wq
  let q := (s.live 0 0).stage (s.phy 0 s.now)
  let d := s.drainMode 0 0 q
  s.select 0 { q with drain := d } d (s.phy 0 s.now)

theorem witness_AccessIssues :
    (waiting [rent false 0] []).mayAct 0 0 = true ∧ (chosen [rent false 0] []).any (!·.write) = true ∧
    (chosen [] [went]).any (·.write) = true ∧ chosen [] [] = none ∧ (base 10).mayAct 0 0 = false ∧
    ((chosen [] [went]).map (·.ids)).getD [] = [4] := by decide +kernel

theorem witness_ReadReturns :
    let s := waiting [rent true 5000] []
    (s.pc 0 0).st ≠ .frozen ∧ ((s.live 0 0).rq.filter fun e => e.issued && e.handed.isNone && decide (e.dataAt ≤ s.now)) = [rent true 5000] ∧
    s.flight 0 = some (theReq s 0) ∧ (s.readLine (theReq s 0) ⟨0, 0, 0, 0, 0, 0⟩ (3 * 2 ^ 28) Line.blank 0 2 ReadErr.clean).1.isSome = true ∧
    (s.readLine (theReq s 0) ⟨0, 0, 0, 0, 0, 0⟩ (3 * 2 ^ 28) Line.blank 0 0 { ReadErr.clean with parity := true }).1.isNone = true := by
  refine ⟨?_, ?_, ?_, ?_, ?_⟩ <;> decide +kernel

/-- Hold 2 is in force for port 0 on slice 4 of cluster 1, or breaks. -/
def heldSlice (breaking : Bool) : State :=
  { (fabric 5000 serving).put [(F.ARB_HOLD_CTL.ACTIVE, 1, 2, 0), (F.ARB_HOLD_LEASE.LEASE_US, 10, 3, 0)] with
    holds := [(2, some ⟨1, 4, 0, 3, 4000, breaking⟩)] }

theorem witness_ArbHolds :
    holdWaits (.fn 0) (heldSlice false) = false ∧ (0x08410000 : W32).getLsbD 27 = true ∧ (0x08410000 : W32).getLsbD 26 = false ∧
    tget none (heldSlice false).holds 3 = none ∧ ((heldSlice false).holdOn 1 4).isSome = true ∧
    bitsOf (0x08410000 : W32) 19 16 = 1 ∧ bitsOf (0x08410000 : W32) 25 20 = 4 ∧ (heldSlice false).holdOn 0 4 = none ∧
    bitsOf (0x08400000 : W32) 19 16 < 12 ∧ bitsOf (0x08400000 : W32) 13 8 ≤ 26 ∧ (heldSlice false).bit F.PORT_LINK.UP 0 = true ∧
    (heldSlice false).bit F.ARB_HOLD_CTL.BROKEN 3 = false ∧ tget none (heldSlice true).holds 2 = some ⟨1, 4, 0, 3, 4000, true⟩ ∧
    4000 ≤ (heldSlice false).now := by decide +kernel

theorem witness_ArbiterAndTiming :
    (base 10).pfHeld = false ∧ (1 ≤ (4 : W32).toNat % 128 ∧ (4 : W32).toNat % 128 ≤ 64) ∧ (stacked 10 serving).anyPc 0 PcState.live = true ∧
    (stacked 10 serving).siteStarting 0 = false ∧ (base 10).anyPc 0 PcState.live = false ∧
    (0x01900300 : W32).toNat % 2 ^ 11 * 40 ≤ 1300 * (base 10).rd F.CLOCK_PHYPLL.MULT 0 := by decide +kernel
/-! ### Witnesses: the port protocol -/

theorem witness_FabricRequestsRefused :
    let s := fabric 5000 serving
    s.bit F.CLOCK_STATUS.FCLK_PRESENT = true ∧ s.bit F.PORT_LINK.UP 0 = true ∧ s.inBoot = false ∧ msgWf opRD (msg opWR 0 1 1 0 0 [1]) = false ∧
    msgWf opWR (msg opWR 0 1 1 0 0 [1]) = true ∧ s.hasCredit 1 0 (msg opWR 0 1 1 0 0 [1]).hdr [1] = false ∧ s.hasCredit 0 0 (msg opWR 0 1 1 0 1 [1]).hdr [1] = true ∧ 0 < (s.credit 0 0).hdr ∧ hcrcOk (msg opWR 0 1 1 0 0 [1]).hdr = true ∧
    s.preCheck 0 0 (msg opWR 0 1 1 0 1 [1]).hdr = some (rUNSUP, 1) ∧ s.preCheck 0 0 (msg opRD 0 1 4 1 0).hdr = none ∧
    s.access 0 0 (s.tenantOf 0 0 none) (msg opRD 0 1 4 1 0).hdr = .deny rUNSUP 2 ∧ unknownWf (msg 0x3F 0 1 1 0 0) = true ∧
    s.inHold = false ∧ s.bit F.PORT_CFG.ENABLE 0 = true ∧ mustBeZero (msg 0x3F 0 1 1 0 0).hdr (s.rd F.PORT_EFF.TAGBITS 0) = false := by
  refine ⟨?_, ?_, ?_, ?_, ?_, ?_, ?_, ?_, ?_, ?_, ?_, ?_, ?_, ?_, ?_, ?_⟩ <;> decide +kernel

theorem witness_FabricRequestsAccepted :
    let s := fabric 5000 serving
    let m := msg opWR 0 1 2 1 0 [1, 2]
    s.bit F.CLOCK_STATUS.FCLK_PRESENT = true ∧ msgWf opWR m = true ∧ s.hasCredit 0 0 m.hdr m.beats = true ∧ hcrcOk m.hdr = true ∧
    s.preCheck 0 0 m.hdr = none ∧ s.access 0 0 (s.tenantOf 0 0 none) m.hdr = .accept ∧
    (s.place (hLine m.hdr) (s.plot (hPlot m.hdr))).1 = 0 ∧
    ((path ((s.tenantOf 0 0 none).getD 0) (hCls m.hdr) 0).filter fun b => s.bEn b && !s.bShape b) = [] ∧ s.throttles = [] := by
  refine ⟨?_, ?_, ?_, ?_, ?_, ?_, ?_, ?_, ?_⟩ <;> decide +kernel

/-- A read waits in an ingress queue of port 0. -/
def queued (n : Nat) : State := withReq (fabric n serving) (msg opRD 1 9 1 0 0) .queued

theorem witness_ReleaseAndTimeout :
    (queued 5000).queueHead 0 0 1 = some (theReq (queued 5000) 0) ∧ (queued 5000).shapers (theReq (queued 5000) 0) = [] ∧
    (queued 5000).gateAdmits ((queued 5000).chargeTenant (theReq (queued 5000) 0)) 5000 = true ∧ (queued 5000).capOk 0 0 1 = true ∧ (queued 5000).releasedNow 0 0 1 = false ∧
    (queued 5000).bit F.CLOCK_STATUS.FCLK_PRESENT = true ∧ (queued 5000).refillDue.refilled = 0 ∧
    (((queued 5000).put [(F.TRF_PORT_CTL.EN, 1, 0, 0), (F.TRF_PORT_CTL.ACTION, 1, 0, 0), (F.TRF_PORT_TOKENS.TOKENS, 0, 0, 0)]).shapers (theReq (queued 5000) 0)).all
      (fun b => decide (((queued 5000).put [(F.TRF_PORT_CTL.EN, 1, 0, 0), (F.TRF_PORT_CTL.ACTION, 1, 0, 0), (F.TRF_PORT_TOKENS.TOKENS, 0, 0, 0)]).bTokens b < 256)) = true ∧
    (theReq (queued 5000) 0).unissued = true ∧ (theReq (queued 5000) 0).tmo = 120000 ∧ (theReq (queued 5000) 0).stamp = 5000 ∧
    5000 + 120000 ≤ 125000 ∧ (theReq (queued 5000) 0).req = 0 := by decide +kernel

theorem witness_Links :
    (fabric 5000 serving).bit F.PORT_LINK.UP 1 = false ∧ (fabric 5000 serving).bit F.PORT_LINK.UP 0 = true ∧ (fabric 5000 serving).inBoot = false := by
  decide +kernel

/-- A lock of line 0 of plot 3, held by port 0. -/
def locked (breaking : Bool) : State := { fabric 5000 serving with locks := [⟨0, false, 3 * 2 ^ 28, 0, 3, 4000, false, breaking⟩] }

theorem witness_Locks :
    let f := theReq (withReq (fabric 5000 serving) (msg opLKACQ 0 9 1 0 0) (.granted 4990)) 0
    let r := theReq (withReq (fabric 5000 serving) (msg opLKREL 0 9 1 0 0) (.granted 4990)) 0
    (fabric 5000 serving).lockOf 0 (hLkPlot f.hdr) (if hLkPlot f.hdr then f.plot else hLine f.hdr) = none ∧ hOp f.hdr = opLKACQ ∧
    hOp r.hdr = opLKREL ∧ (fabric 5000 serving).locksIn 0 < 256 ∧
    (locked false).lockOf 0 false (3 * 2 ^ 28) = some ⟨0, false, 3 * 2 ^ 28, 0, 3, 4000, false, false⟩ ∧
    (locked true).lockOf 0 false (3 * 2 ^ 28) = some ⟨0, false, 3 * 2 ^ 28, 0, 3, 4000, false, true⟩ ∧ 4000 ≤ (locked false).now := by
  refine ⟨?_, ?_, ?_, ?_, ?_, ?_, ?_⟩ <;> decide +kernel

/-- A read has its answer. -/
def replying : State :=
  let s := withReq (fabric 5000 serving) (msg opRD 1 9 1 0 0) (.replying 5500)
  { s with clk := { s.clk with now := 6000 } }

theorem witness_ReplyHandover :
    replying.mayReply (theReq replying 0) = true ∧ (theReq replying 0).dead = false ∧ (theReq replying 0).why = .port ∧ replying.bit F.CLOCK_STATUS.FCLK_PRESENT = true ∧ directPath 0 0 = false ∧
    (theReq replying 0).req = 0 ∧ (queued 5000).mayReply (theReq (queued 5000) 0) = false ∧
    replying.mayReply { theReq replying 0 with dead := true } = true := by decide +kernel
/-! ### Witnesses: training -/

/-- What a training meets: an HBM4 stack of 24 GiB whose lanes pass at every tap. -/
def siteEnv : SiteEnv :=
  let w : LaneSweep := ⟨List.replicate 32 (BitVec.allOnes 128), List.replicate 32 (BitVec.allOnes 128)⟩
  ⟨some ⟨0, 8, 2, 6, 3, 1, 7, 99⟩, [], w, 24000, 40, 41, 900, [], []⟩

/-- Sites 0 and 1 in a phase, at stamp 2,000,000; relocking or not. -/
def sited (phase : Nat) (relock : List Nat) : State :=
  let s := (base 2000000).put [(F.PHY_STATUS.SITE, phase, 0, 0), (F.PHY_STATUS.SITE, phase, 1, 0), (F.PHY_ID.PCS, 64, 0, 0),
    (F.PHY_RTR_CFG.EN, 1, 0, 0), (F.PHY_RTR_CFG.PERIOD_MS, 1, 0, 0), (F.PHY_RTR_LAST.STAMP, 5, 0, 0)]
  { s with clk := { s.clk with relocking := relock }, stackTemp := [(0, 47)], goodTemp := [(0, 45)] }

/-- Phase 2 at 6.4 Gb/s. -/
def phase2 : State := (sited 2 []).put [(F.CLOCK_PHYPLL.MULT, 32, 0, 0)]

theorem witness_TrainingOfItsOwnAccord :
    (sited 1 []).cccUp 0 = true ∧ (sited 1 []).dramOk = true ∧ phase2.rateOk 0 = true ∧ phase2.cccUp 0 = true ∧ phase2.dramOk = true ∧ (sited 3 [0]).dramOk = true ∧ siteEnv.id = some ⟨0, 8, 2, 6, 3, 1, 7, 99⟩ ∧ (sited 1 []).rd F.PHY_STATUS.SITE 0 = 1 ∧
    (sited 1 []).imagePresent 0 = false ∧ phase2.rd F.PHY_STATUS.SITE 0 = 2 ∧ nbit (phase2.rd F.CLOCK_STATUS.PHY_LOCK) 0 = true ∧ phase2.imagePresent 0 = false ∧ (sited 3 [0]).rd F.PHY_STATUS.SITE 0 = 3 ∧ nbit ((sited 3 [0]).rd F.CLOCK_STATUS.PHY_LOCK) 0 = true ∧
    (sited 3 [0]).clk.relocking.contains 0 = true ∧ (sited 3 [0]).cccUp 0 = true ∧ (sited 1 []).siteStarting 1 = true := by decide +kernel

/-- An image for site 0 without its CRC, and with it. -/
def imaged0 : State :=
  { sited 3 [] with bytes := [(imgBase 0, 0x31), (imgBase 0 + 1, 0x54), (imgBase 0 + 2, 0x59), (imgBase 0 + 3, 0x4D), (imgBase 0 + 4, 1),
      (imgBase 0 + 6, 48), (imgBase 0 + 7, 50)] }
/-- Every PC of site 0 is frozen. -/
def still : State := (List.range 64).foldl (fun s p => s.setPc 0 p { Pc.blank with st := .frozen }) (sited 3 [])
def imageCrc : W32 := crc32c ((List.range 4092).map (imaged0.imgByte 0))
def imaged : State :=
  { still with bytes := tset 0 (tset 0 (tset 0 (tset 0 imaged0.bytes (imgBase 0 + 4092) (imageCrc.extractLsb' 0 8)) (imgBase 0 + 4093)
      (imageCrc.extractLsb' 8 8)) (imgBase 0 + 4094) (imageCrc.extractLsb' 16 8)) (imgBase 0 + 4095) (imageCrc.extractLsb' 24 8) }

theorem imaged_byte (i : Nat) (h : i < 4092) : imaged.imgByte 0 i = imaged0.imgByte 0 i := by
  have h1 : imgBase 0 + i ≠ imgBase 0 + 4092 := by omega
  have h2 : imgBase 0 + i ≠ imgBase 0 + 4093 := by omega
  have h3 : imgBase 0 + i ≠ imgBase 0 + 4094 := by omega
  have h4 : imgBase 0 + i ≠ imgBase 0 + 4095 := by omega
  simp only [State.imgByte, imaged, tget_tset_other _ _ _ _ h1, tget_tset_other _ _ _ _ h2, tget_tset_other _ _ _ _ h3,
    tget_tset_other _ _ _ _ h4]

theorem imaged_crc : imaged.imgNat 0 4092 4 = (crc32c ((List.range 4092).map (imaged.imgByte 0))).toNat := by
  have h : (List.range 4092).map (imaged.imgByte 0) = (List.range 4092).map (imaged0.imgByte 0) :=
    List.map_congr_left fun i hi => imaged_byte i (List.mem_range.mp hi)
  have b (c : W32) (a : Nat) (t : Tbl Byte) :
      leNat ((List.range 4).map fun d => tget 0 (tset 0 (tset 0 (tset 0 (tset 0 t (a + 4092) (c.extractLsb' 0 8)) (a + 4093) (c.extractLsb' 8 8)) (a + 4094)
        (c.extractLsb' 16 8)) (a + 4095) (c.extractLsb' 24 8)) (a + (4092 + d))) = c.toNat := by
    simp [List.range_succ, leNat, tget_tset_other, BitVec.extractLsb'_toNat, Nat.shiftRight_eq_div_pow]
    omega
  have e : imaged.imgNat 0 4092 4 = imageCrc.toNat := by
    simp only [State.imgNat, State.imgByte, imaged]
    generalize imageCrc = c
    exact b c (imgBase 0) imaged0.bytes
  rw [h, e, imageCrc]

theorem witness_TrainingCommands :
    imaged.auditFull = false ∧ imaged.inHold = true ∧ imaged.rd F.PHY_STATUS.SITE 0 = 3 ∧ imaged.stackIdle 0 = true ∧
    ((sited 3 []).setPc 0 0 serving).stackIdle 0 = false ∧ imaged.pfHeld = false ∧ imaged.dramOk = true ∧ (sited 3 []).dramOk = true := by
  refine ⟨?_, ?_, ?_, ?_, ?_, ?_, ?_, ?_⟩ <;> decide +kernel

theorem witness_TrainingCommands_image : imaged.imageOk 0 siteEnv = true := by
  have r (i n : Nat) (h : i + n ≤ 4092) : imaged.imgNat 0 i n = imaged0.imgNat 0 i n := by
    simp only [State.imgNat]
    exact congrArg leNat (List.map_congr_left fun d hd => imaged_byte (i + d) (by have := List.mem_range.mp hd; omega))
  have c : imaged.imgNat 0 4092 4 = (crc32c ((List.range 4092).map (imaged.imgByte 0))).toNat := imaged_crc
  have p : ((List.range 64).all fun p => imaged.imgNat 0 (1600 + 4 * p) 4 == imaged.stackRepair 0 siteEnv p) = true := by
    rw [List.all_eq_true]
    intro p hp
    have := List.mem_range.mp hp
    rw [r (1600 + 4 * p) 4 (by omega)]
    revert p
    decide +kernel
  simp only [State.imageOk, c, p, r 7 1 (by omega), r 0 4 (by omega), r 4 2 (by omega), r 8 8 (by omega), r 6 1 (by omega), beq_self_eq_true]
  decide +kernel

/-- A RETRAIN window of stack 0 runs; its searches go on. -/
def retraining : State := { sited 3 [] with windows := [(0, some ⟨true, [], some false, false, false⟩)] }

theorem witness_Retraining :
    (sited 3 []).bit F.PHY_RTR_CFG.EN 0 = true ∧ (sited 3 []).rd F.PHY_STATUS.SITE 0 = 3 ∧ (sited 3 []).cccUp 0 = true ∧ (sited 3 []).rtrPeriodUp 0 = true ∧
    ((sited 3 []).bit F.REF_MAINT.VALID 0 && (sited 3 []).rd F.REF_MAINT.KIND 0 == 0) = false ∧ (sited 3 []).triggers.contains 0 = false ∧
    tget none retraining.windows 0 = some ⟨true, [], some false, false, false⟩ ∧ retraining.rd F.REF_MAINT.KIND 0 = 0 ∧ retraining.dramOk = true := by decide +kernel
/-! ### Witnesses: the Lanterns -/

/-- A stream descriptor: format, base in plot 3, elements a row, rows, elements from row to row. -/
def sd (fmt base n0 n1 str1 : Nat) (scale : Nat := 0) : BitVec 256 :=
  BitVec.ofNat 256 (3 * 2 ^ 28 + base + fmt <<< 43 + n0 <<< 48 + 1 <<< 80 + n1 <<< 112 + str1 <<< 132 + scale <<< 212)

/-- Registers of a context: streams of plot 3, and s4 = 100 where a rule wants a positive number. -/
def streams : CtxRegs :=
  { CtxRegs.blank with
    d := [sd 0 0 16 1 0, sd 0 1024 16 1 0, sd 0xC 2048 1 1 0, sd 5 4096 32 1 0 (3 * 2 ^ 28 + 8192), sd 0 12288 32 1 0, sd 0 16384 4 4 4,
      sd 0 20480 16 4 16, sd 0 24576 16 4 16, sd 0 32768 64 1 0, sd 0 36864 64 1 0, sd 0 40960 16 1 0] ++ List.replicate 5 0
    s := (CtxRegs.blank.s.set 4 100) }

/-- An instruction word: opcode, register fields, other bits. -/
def iw (op : Nat) (fs : List Nat) (more : Nat := 0) : BitVec 128 :=
  BitVec.ofNat 128 (op + ((fs.zipIdx).map fun e => e.1 <<< (16 + 4 * e.2)).sum + more)

/-- Bit 15: an extension word follows. -/
def ext : Nat := 2 ^ 15

/-- A context that runs these code words for tenant 5. -/
def running (ws : List (BitVec 128)) : Ctx :=
  { Ctx.blank with st := .running, job := some ⟨5, 0, 3, 7, 0, false, 100, 0⟩, regs := streams,
                   prog := { Prog.blank with imgs := [⟨none, ws, 0, 0⟩] } }

/-- Lantern 0 at stamp 6000, its context 0 as given. -/
def lantern (x : Ctx) : State :=
  { fabric 6000 serving with lnts := [(0, { Lantern.blank with ctxs := List.replicate 8 Ctx.blank |>.set 0 x })] }

/-- A job's end. -/
def ended (fence sent : Bool) : JobFin := ⟨rOK, 0, 4, 5900, fence, sent⟩

theorem witness_JobsEnd :
    (lantern Ctx.blank).nmcEdge = true ∧ ({ running [0] with fin := some (ended false false) }).job = some ⟨5, 0, 3, 7, 0, false, 100, 0⟩ ∧
    (lantern { running [0] with fin := some (ended false false) }).fw.quiet = false ∧
    (lantern { running [0] with fin := some (ended false false) }).fifoLen 0 < 256 ∧
    ({ running [0] with abort := true }).atBoundary = true ∧ ({ running [0] with abort := true }).job.isSome = true ∧
    (lantern { running [0] with st := .draining, fin := some (ended false true) }).ctxQuiet 0 0 = true ∧
    ({ Ctx.blank with clear := some 5990 }).clear = some 5990 ∧ (lantern Ctx.blank).pfHeld = false := by decide +kernel

theorem witness_JobsEnd_fence :
    let x : Ctx := { running [0] with fin := some (ended true false) }
    x.fenced true true = true ∧ x.pfail = none ∧ x.ready ≤ (lantern x).now ∧
    ({ running [0] with st := .draining, fin := some (ended false false) } : Ctx).st = .draining := by
  refine ⟨?_, ?_, ?_, ?_⟩ <;> decide +kernel

/-- A word of each control instruction of ControlInstructions, with the word after it. -/
def controls : List (List (BitVec 128)) :=
  [[iw 0xFF [], 0], [iw 0 [], 0], [iw 2 [] (2 * 256 + 1 * 2 ^ 32), 0], [iw 2 [] (1 * 2 ^ 32), 0], [iw 1 [] (5 * 2 ^ 52 + 1 * 2 ^ 24), 0],
   [iw 3 [] (ext + 256 + 512), 0, 0], [iw 4 [], 0], [iw 8 [0, 3], 0], [iw 7 [] 256, 0]]

theorem witness_ControlInstructions :
    (controls.all fun ws => (lantern (running ws)).issuer 0 == some 0 && (running ws).word 0 == ws.head? && (running ws).prog.loops.isEmpty) = true ∧
    opsKnown.contains (iOp (iw 0xFF [])) = false ∧ ((controls.drop 1).all fun ws => !wordBad (ws.getD 0 0) && decide (1 < ws.length)) = true ∧
    brCond (iw 2 [] (2 * 256 + 1 * 2 ^ 32)) streams = false ∧ brCond (iw 2 [] (1 * 2 ^ 32)) streams = true ∧
    (1 : Int) = (0 : Int) + sextN (bitsOf (iw 2 [] (1 * 2 ^ 32)) 51 32) 20 ∧ bitsOf (iw 1 [] (5 * 2 ^ 52 + 1 * 2 ^ 24)) 83 52 = 5 ∧
    bitsOf (iw 1 [] (5 * 2 ^ 52 + 1 * 2 ^ 24)) 35 24 = 1 ∧ extBad (iw 3 [] (ext + 256 + 512)) 0 = false ∧ frameBytes (iw 3 [] (ext + 256 + 512)) = 0 ∧
    (running [iw 7 [] 256, 0]).fenced true false = true ∧
    ({ running [iw 7 [] 256, 0] with posted := [⟨0, 0, 0, 0, 5, none⟩] }).fenced true false = false := by
  refine ⟨?_, ?_, ?_, ?_, ?_, ?_, ?_, ?_, ?_, ?_, ?_, ?_⟩ <;> decide +kernel

/-- A word of each of the data instructions of MemoryInstructions. -/
def dataWords : List (List (BitVec 128)) :=
  [[iw 0x10 [0, 1]], [iw 0x11 [0]], [iw 0x12 [0, 1, 2]], [iw 0x13 [0, 1, 2]], [iw 0x18 [0, 1]], [iw 0x19 [3, 4]], [iw 0x1A [4, 3]],
   [iw 0x20 [0, 1]], [iw 0x21 [0, 1, 10]], [iw 0x22 [5, 6, 7]], [iw 0x23 [0, 1]], [iw 0x28 [0, 1] 256], [iw 0x29 [0, 1]],
   [iw 0x30 [0, 1] ext, 0], [iw 0x31 [9, 8, 4, 4] ext, 0]]

theorem witness_MemoryInstructions :
    (lantern (running [iw 5 [0]])).issuer 0 = some 0 ∧ (running [iw 5 [0]]).word 0 = some (iw 5 [0]) ∧ wordBad (iw 5 [0]) = false ∧
    (lantern (running [iw 5 [0]])).semaBad (running [iw 5 [0]]) 0 = none ∧ wordBad (iw 6 [0]) = false ∧ (iw 6 [0]).getLsbD 11 = false ∧
    (dataWords.all fun ws => !wordBad (ws.getD 0 0) && (!extReq (iOp (ws.getD 0 0)) || !extBad (ws.getD 0 0) (ws.getD 1 0)) &&
      ((lantern (running ws)).descsBad 0 (ws.getD 0 0) (running ws)).isNone && (lantern (running ws)).issuer 0 == some 0) = true ∧
    ((lantern (running [iw 0x10 [0, 15]])).descsBad 0 (iw 0x10 [0, 15]) (running [iw 0x10 [0, 15]])).isSome = true := by
  refine ⟨?_, ?_, ?_, ?_, ?_, ?_, ?_, ?_⟩ <;> decide +kernel

/-- The data words pass their own checks, and a COLLECT's lines the access check. -/
theorem witness_MemoryInstructions_checks :
    (dataWords.all fun ws =>
      let E := ((lantern (running ws)).markIssue 0 0).denvOf 0 0 (ws.getD 0 0)
      ((lantern (running ws)).remoteBad 0 E (dataBad E)).isNone && ((lantern (running ws)).collectDenied 0 0 E 0).isNone) = true := by
  decide +kernel

/-- Context 0 as it waits, loads, or has an answer. -/
def waits (y : Wait) : Ctx := { running [iw 5 [0, 1, 0, 0, 2], 0] with st := .waiting, op := .wait y }
def polling (out : Bool) (reply : Option (Nat × W64)) : Wait := ⟨5128, 0, iw 5 [0, 1, 0, 0, 2], some 5999, out, reply, none, false, 0⟩

/-- An image of one NOP at line 0 of plot 3. -/
def header : LineData :=
  let h : List Byte := [0x41, 0x4D, 0x4E, 0x42, 1, 0, 0x10, 0, 1, 0, 0, 0] ++ List.replicate 48 0
  lineOf (h ++ leBytes (4120351150 : W32) 4)
def loading : Load := ⟨false, some (3 * 2 ^ 28), none, 0, 0, [(3 * 2 ^ 22, header), (3 * 2 ^ 22 + 1, 0)], 0, true, none⟩

/-- A journal write of tag 5 with generation 2. -/
def journalReq : LReq := { LReq.new 0 .journal opWR (3 * 2 ^ 28) 1 0 with tag := 5, gen := 2 }
def answers (l : Lantern → Lantern) : State :=
  let s := lantern (running [0])
  s.setLnt 0 (l { s.lnt 0 with inbox := [⟨0, 5, 2, rOK, [], 0, 0⟩] })

theorem crc_split (l : List Byte) (n : Nat) (c : W32) :
    l.foldl (crcReflByte 0x82F63B78) c = (l.drop n).foldl (crcReflByte 0x82F63B78) ((l.take n).foldl (crcReflByte 0x82F63B78) c) := by
  rw [← List.foldl_append, List.take_append_drop]

/-- The image's CRC is right (evaluated in three parts). -/
theorem witness_WaitsAndReplies_image :
    crc32c (loadBytes loading.got (3 * 2 ^ 28) 0 60 ++ loadBytes loading.got (3 * 2 ^ 28) 64 (16 * loadNat loading.got (3 * 2 ^ 28) 8 2)) =
      BitVec.ofNat 32 (loadNat loading.got (3 * 2 ^ 28) 60 4) := by
  generalize hl : (loadBytes loading.got (3 * 2 ^ 28) 0 60 ++ loadBytes loading.got (3 * 2 ^ 28) 64 (16 * loadNat loading.got (3 * 2 ^ 28) 8 2)) = l
  have h1 : (l.take 25).foldl (crcReflByte 0x82F63B78) (0xFFFFFFFF : W32) = 1901398991 := by subst hl; decide +kernel
  have h2 : ((l.drop 25).take 25).foldl (crcReflByte 0x82F63B78) (1901398991 : W32) = 3734197438 := by subst hl; decide +kernel
  have h3 : ((l.drop 25).drop 25).foldl (crcReflByte 0x82F63B78) (3734197438 : W32) ^^^ 0xFFFFFFFF =
      BitVec.ofNat 32 (loadNat loading.got (3 * 2 ^ 28) 60 4) := by subst hl; decide +kernel
  rw [crc32c, crc_split l 25, h1, crc_split _ 25, h2, h3]

theorem witness_WaitsAndReplies :
    (lantern Ctx.blank).nmcEdge = true ∧ ({ running [iw 7 [] 256, 0] with op := .fence true false }).fenced true false = true ∧
    (lantern (waits (polling false none))).mayPoll 0 0 = true ∧ 5000 + (lantern (waits (polling false none))).cyc 128 ≤ 6000 ∧
    waitCond (iw 5 [0, 1, 0, 0, 2]) streams 0 = true ∧ waitCond (iw 5 [0, 1, 0, 0, 2]) streams 1 = false ∧
    ((polling true none).deadline = some 5999 ∧ (polling true none).final = false) ∧ loading.need = 0 ∧
    ({ running [0] with posted := [⟨1, 0, 0, 0, 5, some rOK⟩] }).answered = some (⟨1, 0, 0, 0, 5, some rOK⟩, rOK) ∧
    ((answers id).lnt 0).inbox = [⟨0, 5, 2, rOK, [], 0, 0⟩] ∧ ((answers id).lnt 0).req 0 5 = none ∧
    ((answers fun l => { l with reqs := [journalReq], gens := [(5, 2)] }).lnt 0).req 0 5 = some journalReq ∧ journalReq.kind = .journal ∧
    tget 0 ((answers fun l => { l with reqs := [journalReq], gens := [(5, 2)] }).lnt 0).gens (0 * 4096 + 5) = 2 := by
  refine ⟨?_, ?_, ?_, ?_, ?_, ?_, ?_, ?_, ?_, ?_, ?_, ?_, ?_, ?_⟩ <;> decide +kernel

theorem witness_WaitsAndReplies_deadline :
    let s := lantern (waits (polling true none))
    s.mayPoll 0 0 = true ∧ (waits (polling true none)).st = .waiting ∧ (polling true none).out = true ∧ (polling true none).reply = none ∧
    5999 ≤ s.now ∧ (lantern { waits (polling true none) with job := none }).mayPoll 0 0 = false := by
  refine ⟨?_, ?_, ?_, ?_, ?_, ?_⟩ <;> decide +kernel

/-- A data instruction with chunk 0 in the store. -/
def working (w : BitVec 128) (ch : Chunk) : Ctx :=
  { running [w, 0, 0] with op := .data ⟨iOp w, w, 0, 1024, 1, 1, [ch], 0, ⟨[], 0, 0, [], 0, 0, none, 0, []⟩⟩, prog := { (running [w, 0, 0]).prog with n := 1 } }
/-- Chunk 0 with its input lines, the second of one value `v` sixteen times. -/
def chunk0 (st : ChunkSt) (v : Nat) : Chunk :=
  { Chunk.new 0 with st := st, ins := [(3 * 2 ^ 22, 0), (3 * 2 ^ 22 + 16, BitVec.ofNat 512 (v * (2 ^ 512 - 1) / (2 ^ 32 - 1))), (3 * 2 ^ 22 + 640, 0)] }
def moveW : BitVec 128 := iw 0x10 [0, 1]
def optW : BitVec 128 := iw 0x21 [0, 1, 10]
def collectW : BitVec 128 := iw 0x31 [9, 8, 4, 3] ext
def nan32 : Nat := 0x7FC00000

/-- Array operation 0 of chunk 0 runs in array 3. -/
def arrBusy : State :=
  let s := lantern (working optW { chunk0 .compute 1 with ops := 1, todo := 1 })
  s.setLnt 0 { s.lnt 0 with arrs := [(3, some ⟨0, 0, 0, 0xFF, 5990⟩)] }
/-- Request 5 of the path is out for chunk 0, in the state given. -/
def asking (k : LKind) (st : LSt) (ch : Chunk) (w : BitVec 128) : State :=
  let s := lantern (working w ch)
  s.setLnt 0 { s.lnt 0 with reqs := [{ LReq.new 0 k opRD (3 * 2 ^ 28) 1 0 with tag := 5, gen := 2, st := st }], gens := [(5, 2)] }
/-- A host-window read of one line of chunk 0, which waits for two. -/
def hostReading : State :=
  let s := lantern (working moveW { chunk0 .fetch 1 with ins := [], need := 2 })
  s.setLnt 0 { s.lnt 0 with hreqs := [⟨9, 0, 0, 0, 1, 3 * 2 ^ 22, 1⟩] }
def replayed : Chunk := { chunk0 (.replay 3 5990) 1 with flag := some (0, 0, 5), who := [(0, 5)] }
def written : Chunk := { chunk0 .writing 1 with outs := [⟨3 * 2 ^ 22, 0, 0, 0, true⟩] }

/-- What CHUNK_VERDICT needs of context 0's first chunk, and whether a check of its own fails. -/
def verdictNeeds (s : State) (fails : Bool) : Bool := match s.dop 0 0 with
  | none => false
  | some d => match d.due s.now with
    | none => false
    | some ch =>
      let r := s.chunkCalc 0 0 d ch
      !s.hostBarred 0 0 d && ch.m != d.next && r.bad.isSome == fails && r.exc.isNone && iOp d.w != 0x30 && !dHost ((s.denvOf 0 0 d.w).d 0) &&
        !((outsOf d.w).flatMap fun f => outLines (iF d.w f) (tget [] r.outs f)).isEmpty

theorem witness_ChunksGoOn_arrays :
    let s := lantern (working optW { chunk0 .compute 1 with ops := 1 })
    s.nmcEdge = true ∧ (s.lnt 0).disp ≠ s.now + 1 ∧ s.bit F.LNT_CTL.PAIRED 0 = false ∧ s.freeArrays 0 ≠ [] ∧
    s.refReady 0 none = none ∧ (((List.range 8).map fun i => ((s.lnt 0).rrd + 1 + i) % 8).find? fun c =>
      (s.opReady 0 c).isSome || (s.refReady 0 (some c)).isSome) = some 0 ∧ s.opReady 0 0 = some (0, 0) ∧
    (arrBusy.lnt 0).arr 3 = some ⟨0, 0, 0, 0xFF, 5990⟩ ∧ (arrBusy.lnt 0).fence = [] ∧ (arrBusy.lnt 0).tests = [] := by
  refine ⟨?_, ?_, ?_, ?_, ?_, ?_, ?_, ?_, ?_, ?_⟩ <;> decide +kernel

theorem witness_ChunksGoOn_verdicts :
    verdictNeeds (lantern (working moveW (chunk0 (.verdict 5990) 1))) false = true ∧
    verdictNeeds (lantern (working optW (chunk0 (.verdict 5990) nan32))) true = true ∧
    ((lantern (working moveW replayed)).dop 0 0).any (fun d => d.chunks == [replayed] && ((lantern (working moveW replayed)).chunkCalc 0 0 d replayed).bad.isNone) = true ∧
    replayed.partner 5 = none ∧ ((lantern (working moveW replayed)).lnt 0).tests = [] ∧
    ((lantern (working moveW written)).dop 0 0).any (fun d => d.chunks == [written] && d.next == d.total) = true ∧
    (lantern (working moveW written)).writesOut 0 0 0 true = false ∧ 0 + 2 < (working moveW written).image.words.length ∧
    (lantern (working moveW { written with fail := some ⟨0x29, 0, 0, 0⟩ })).writesOut 0 0 0 false = false := by
  refine ⟨?_, ?_, ?_, ?_, ?_, ?_, ?_, ?_, ?_⟩ <;> decide +kernel

theorem witness_ChunksGoOn_requests :
    (((asking (.contrib 0) .refused written (iw 0x30 [0, 1] ext)).lnt 0).req 0 5).any (fun q => q.ctx == 0 && q.kind == .contrib 0 && q.st == .refused &&
      (asking (.contrib 0) .refused written (iw 0x30 [0, 1] ext)).mayTransmit 0 q) = true ∧
    (((asking (.data 0 1) .dropped (chunk0 .fetch 1) moveW).lnt 0).req 0 5).any (fun q => q.st == .dropped && (asking (.data 0 1) .dropped (chunk0 .fetch 1) moveW).mayTransmit 0 q) = true ∧ 6000 % 75 = 0 ∧
    (lantern (working collectW (chunk0 (.collect 5990) 1))).posyFirst 0 [0, 1, 2, 3] = false ∧
    ((lantern (working collectW (chunk0 (.collect 5990) 1))).dop 0 0).any (fun d => d.chunks == [chunk0 (.collect 5990) 1] && iOp d.w == 0x31) = true ∧
    5990 + (((lantern (working collectW (chunk0 (.collect 5990) 1))).denvOf 0 0 collectW).s (iF collectW 3)).toNat ≤ 6000 ∧
    (hostReading.lnt 0).hreqs.find? (·.tag == 9) = some ⟨9, 0, 0, 0, 1, 3 * 2 ^ 22, 1⟩ ∧ (hostReading.lnt 0).hqueue = [] ∧
    tget 0 (hostReading.lnt 0).hgens 9 = 0 ∧ tget 0 (hostReading.lnt 0).hgens 9 ≠ (3 : Fin 16).val ∧
    (hostReading.chunk 0 0 0).any (fun ch => decide (1 < ch.need)) = true := by
  refine ⟨?_, ?_, ?_, ?_, ?_, ?_, ?_, ?_, ?_, ?_⟩ <;> decide +kernel
/-! ### Witnesses: the Posy -/

/-- A CONTRIB of one line of zeros with the trailer `t` has been granted at cluster 0. -/
def contribIn (t : BitVec 128) : State :=
  let s := withReq (fabric 6000 serving) { msg opCONTRIB 2 5 1 0 (2 ^ 32) [0] with trailer := t } (.granted 5990)
  s.put [(F.POSY_CFG.RESERVE, 16, 0, 0)]

/-- Entry 7 of Posy 0 is idle since stamp 1000. -/
def posyIdle : State :=
  ({ fabric 5000000 serving with
    posies := [(0, { Posy.blank with ents := [(7, some { PosyEnt.new ⟨3 * 2 ^ 22, false, 1⟩ 0 with last := 1000 })], free := [(3, 0)] })] }).put
    [(F.POSY_CFG.IDLE_US, 1000, 0, 0)]

theorem witness_PosyRows :
    (contribIn 0).posyIn 0 = [theReq (contribIn 0) 0] ∧ (contribIn 0).nmcEdge = true ∧ ((contribIn 0).posy 0).edge ≠ (contribIn 0).now + 1 ∧
    ((contribIn 0).put [(F.LNT_CTL.FENCED, 1, 0, 0)]).bit F.LNT_CTL.FENCED 0 = true ∧ (contribIn 0).bit F.LNT_CTL.FENCED 0 = false ∧
    hLen (theReq (contribIn 0) 0).hdr = 1 ∧ hCfmt (theReq (contribIn 0) 0).hdr = 0 ∧
    ((contribIn 0).posy 0).find ⟨3 * 2 ^ 22, false, 0⟩ = none ∧ leastBelow 512 (fun i => (((contribIn 0).posy 0).ent i).isNone) = some 0 ∧
    1 + (contribIn 0).rd0 F.POSY_CFG.RESERVE 0 ≤ ((contribIn 0).posy 0).room ∧
    (posyIdle.posy 0).ent 7 = some { PosyEnt.new ⟨3 * 2 ^ 22, false, 1⟩ 0 with last := 1000 } ∧
    1000 + usTicks (posyIdle.rd0 F.POSY_CFG.IDLE_US 0) ≤ posyIdle.now ∧ posyIdle.nmcEdge = true ∧ posyIdle.posyFirst 0 [3 * 2 ^ 22] = false ∧ (posyIdle.posy 0).free.find? (·.1 == 3) = some (3, 0) ∧ posyIdle.flights = [] ∧
    posyIdle.pfHeld = false := by
  refine ⟨?_, ?_, ?_, ?_, ?_, ?_, ?_, ?_, ?_, ?_, ?_, ?_, ?_, ?_, ?_, ?_, ?_⟩ <;> decide +kernel

theorem crc64_split (l : List Byte) (n : Nat) (c : W64) :
    l.foldl (crcByte 0x42F0E1EBA9EA3693) c = (l.drop n).foldl (crcByte 0x42F0E1EBA9EA3693) ((l.take n).foldl (crcByte 0x42F0E1EBA9EA3693) c) := by
  rw [← List.foldl_append, List.take_append_drop]

/-- The payload of zeros has the CRC-64 0 of its trailer, and not the one of the other trailer. -/
theorem witness_PosyRows_crc : crc64 (leBytes ((theReq (contribIn 0) 0).beats.getD 0 0) 64) = (theReq (contribIn 0) 0).trailer.extractLsb' 0 64 ∧
    crc64 (((List.range 1).map fun i => (theReq (contribIn 1) 0).beats.getD i 0).flatMap fun l => leBytes l 64) ≠
      (theReq (contribIn 1) 0).trailer.extractLsb' 0 64 := by
  have z : crc64 (leBytes (0 : LineData) 64) = 0 := by
    generalize hl : leBytes (0 : LineData) 64 = l
    have h1 : (l.take 22).foldl (crcByte 0x42F0E1EBA9EA3693) (0 : W64) = 0 := by subst hl; decide +kernel
    have h2 : ((l.drop 22).take 22).foldl (crcByte 0x42F0E1EBA9EA3693) (0 : W64) = 0 := by subst hl; decide +kernel
    have h3 : ((l.drop 22).drop 22).foldl (crcByte 0x42F0E1EBA9EA3693) (0 : W64) = 0 := by subst hl; decide +kernel
    rw [crc64, crc64_split l 22, h1, crc64_split _ 22, h2, h3]
  have b0 : (theReq (contribIn 0) 0).beats.getD 0 0 = 0 ∧ (theReq (contribIn 0) 0).trailer.extractLsb' 0 64 = 0 := by decide +kernel
  have b1 : (((List.range 1).map fun i => (theReq (contribIn 1) 0).beats.getD i 0).flatMap fun l => leBytes l 64) = leBytes (0 : LineData) 64 ∧
      (theReq (contribIn 1) 0).trailer.extractLsb' 0 64 = 1 := by decide +kernel
  rw [b0.1, b0.2, b1.1, b1.2, z]
  exact ⟨rfl, by decide⟩
/-! ### Witnesses: rings and the host -/

/-- PF0 and VF1 are ACCEPTED; ring 0 of PF0 is in the state given and holds `prod` entries of which `done` have records. -/
def ringed (n st prod : Nat) : State :=
  (base n).put [(F.GLOBAL_STATE.STATE, 2, 0, 0), (F.FN_STATUS.VER, 1, 0, 0), (F.FN_STATUS.VER, 1, 1, 0), (F.RING_STATE.STATE, st, 0, 0),
    (F.FN_RINGCTL.EN, 1, 0, 0), (F.RING_CFG.MAXCTX, 8, 0, 0), (F.GLOBAL_IFVER.MAJOR, 1, 0, 0), (F.RING_PTRS.PROD, prod, 0, 0), (F.RING_PTRS.CDONE, 1, 0, 0)]

/-- A submission entry of ring 0: sequence number, code words, `checked` or not. -/
def entry (seq words : Nat) (checked : Bool) : RingEnt :=
  ⟨0, seq, 5, 90, checked, 0, BitVec.ofNat 512 (words + 15 <<< 36 + seq <<< 48), rOK⟩
def withEntry (n st : Nat) (e : RingEnt) : State := { ringed n st 2 with rings := { Rings.reset with entries := [e] } }

/-- A completion record of ring 0 in FIFO 0. -/
def record0 : Rec := ⟨0, 0, 0, true, 77⟩
def recorded : State := { ringed 100 1 2 with rings := { Rings.reset with fifos := [record0] } }
/-- A message of PF0's vector 3 is due; `held` masks it. -/
def message (held : Bool) : State :=
  { (ringed 100 1 2).put [(F.FN_MSIX_CTL.MASK, held.toNat, 0, 3), (F.FN_MSIX_PBA.PENDING, 16, 0, 0), (F.FN_MSIX_CTL.MASK, 0, 0, 4)] with
    rings := { Rings.reset with msgs := [(0, 3, 0)] } }

theorem witness_RingFlow_doorbells :
    let s := ringed 100 1 2
    s.accepted 0 = true ∧ s.ringSt 0 ≠ ringResetting ∧ s.auditFull = false ∧ sub16 5 (s.rd F.RING_PTRS.PROD 0) ≤ 256 ∧
    sub16 5 (s.rd F.RING_PTRS.CHEAD 0) ≤ 256 ∧ 256 < sub16 1 (s.rd F.RING_PTRS.PROD 0) ∧
    sub16 1 (s.rd F.RING_PTRS.CHEAD 0) ≤ sub16 (s.rd F.RING_PTRS.CDONE 0) (s.rd F.RING_PTRS.CHEAD 0) := by
  refine ⟨?_, ?_, ?_, ?_, ?_, ?_, ?_⟩ <;> decide +kernel

theorem witness_RingFlow_entries :
    (ringed 100 1 2).fetchable = [0] ∧ (ringed 100 1 2).schUp = true ∧ (ringed 100 1 2).rings.fetched ≠ 101 ∧ (ringed 100 1 2).rings.entries.length < 256 ∧
    (withEntry 100 1 (entry 1 1 false)).rings.entries.find? (fun e => e.ring == 0 && e.at_ != 0 && !e.checked) = some (entry 1 1 false) ∧
    (withEntry 100 1 (entry 1 1 false)).entryBad (entry 1 1 false) = none ∧ ((withEntry 100 1 (entry 1 0 false)).entryBad (entry 1 0 false)).isSome = true ∧
    (withEntry 100 1 (entry 1 0 false)).fifoLen 0 < 256 ∧ (withEntry 100 1 (entry 1 1 true)).dispatchable 0 = some (entry 1 1 true, 0, 0) ∧
    (entry 1 1 true).form1 = false ∧ (withEntry 100 1 (entry 1 1 true)).rings.sent ≠ 101 := by
  refine ⟨?_, ?_, ?_, ?_, ?_, ?_, ?_, ?_, ?_, ?_, ?_⟩ <;> decide +kernel

theorem witness_RingFlow_records :
    recorded.pausedRing 0 = false ∧ recorded.nextRec = some record0 ∧ recorded.rings.wrote ≠ 101 ∧ record0.epoch = recorded.rd F.RING_STATE.EPOCH 0 ∧ recorded.ringSt 0 ≠ ringPaused ∧
    (message false).rings.msgs.find? (fun m => m.2.2 == 0) = some (0, 3, 0) ∧ (message false).msixHeld 0 3 = false ∧ (message true).msixHeld 0 3 = true ∧
    nbit ((message false).rd F.FN_MSIX_PBA.PENDING 0) 4 = true ∧ (message false).bit F.FN_MSIX_CTL.MASK 0 4 = false ∧ (message false).lnts = [] := by
  refine ⟨?_, ?_, ?_, ?_, ?_, ?_, ?_, ?_, ?_, ?_, ?_⟩ <;> decide +kernel

/-- A watch runs since stamp 0 with HB_MS 1; the link is idle since then with L1 allowed after 5 µs. -/
def watched : State :=
  { (ringed 2000000 1 2).put [(F.RINGS_HOST.HB_MS, 1, 0, 0)] with rings := { Rings.reset with beat := 1, idleAt := 0, l1Us := 5 } }

/-- MG_STEP waits for READY while the block is in HOLD. -/
def stepping : State := { base 100 with fw := { (base 100).fw with stepWaits := true } }

theorem witness_RingControl_step :
    stepping.auditFull = false ∧ stepping.fw.stepWaits = true ∧ stepping.bit F.RAS_MGCTL.PENDING = false ∧ (ringed 100 1 2).fw.stepWaits = false ∧
    (ringed 100 1 2).rings.resumes = [] ∧ (ringed 100 0 0).lostRing 0 = false := by
  refine ⟨?_, ?_, ?_, ?_, ?_, ?_⟩ <;> decide +kernel

theorem witness_RingControl :
    (ringed 100 1 2).auditFull = false ∧ bitsOf (0x100 : W32) 15 8 = (ringed 100 1 2).rd F.GLOBAL_IFVER.MAJOR ∧ bitsOf (0x100 : W32) 7 0 ≤ (ringed 100 1 2).rd F.GLOBAL_IFVER.MINOR ∧
    (ringed 100 1 2).rd F.GLOBAL_HBEAT.COUNT ≠ 7 ∧ (ringed 100 1 2).accepted 0 = true ∧ (ringed 100 ringPaused 2).ringSt 0 = ringPaused ∧
    (ringed 100 ringPaused 2).attn 0x9 = false ∧ (ringed 100 ringHalted 2).ringSt 0 = ringHalted ∧
    (ringed 100 ringHalted 2).rings.bmeOff.contains 0 = false ∧ (ringed 100 1 2).ringSt 0 ≠ ringResetting ∧ ((ringed 100 0 0).fnTenant 0).isSome = true ∧
    (ringed 100 0 0).sec.ringZero.contains 0 = false ∧ (ringed 100 0 0).ringSt 0 = ringDisabled ∧ watched.rd0 F.RINGS_HOST.HB_MS = 1 ∧
    watched.schUp = true ∧ watched.rings.beat - 1 + 1200000 * 1 < watched.now ∧ (ringed 100 ringResetting 2).ringSt 0 = ringResetting ∧
    (ringed 100 ringResetting 2).ringJobs 0 = 0 ∧ watched.rings.l1 = false ∧ watched.hostIdle = true ∧ watched.rings.idleAt + usTicks 5 ≤ watched.now := by
  refine ⟨?_, ?_, ?_, ?_, ?_, ?_, ?_, ?_, ?_, ?_, ?_, ?_, ?_, ?_, ?_, ?_, ?_, ?_, ?_, ?_, ?_⟩ <;> decide +kernel

/-- Port H is up with its credits; PF0 is ACCEPTED, VF2 is not. -/
def hosted : State := { (ringed 100 1 2).put [(F.PORT_LINK.UP, 1, 24, 0)] with credits := (List.range 12).map fun k => (k * 39 + 24, ⟨64, 256, 64⟩) }

theorem witness_HostRequests :
    hostWf 0x30000001 0 = false ∧ hostWf 0x30000040 64 = true ∧ hostWf 0x30000040 8 = true ∧ 0x30000040 % 8 = 0 ∧ hosted.hostOk = true ∧
    hosted.hostBarred2 2 = true ∧ hosted.hostBarred2 0 = false ∧
    hosted.hostCredits ((lineRuns (hostLines 0x30000040 64)).map fun r => (⟨opRD, r.1 * 64, r.2, 0, 0, []⟩ : HostReq)) = true ∧
    hosted.hostCredits (hostWrites 0x30000040 (List.replicate 64 7)) = true ∧ hosted.hostCredits [⟨opAADD, 0x30000040, 1, 5, 0, []⟩] = true ∧
    hosted.hostCredits [⟨opACAS, 0x30000040, 1, 5, 0, [1]⟩] = true ∧ (0x30000041 % 8 ≠ 0) := by
  refine ⟨?_, ?_, ?_, ?_, ?_, ?_, ?_, ?_, ?_, ?_, ?_, ?_⟩ <;> decide +kernel
/-! ### Witnesses: tenants, sessions, keys and the audit chain -/

/-- READY with SEC running: tenant 5 exists and has session 2, formed at VF1's mailbox; tenant 6 exists with nothing of its own. -/
def secured (f : Sec → Sec) : State :=
  { (base 1000).put [(F.GLOBAL_STATE.STATE, 2, 0, 0), (F.SEC_STATUS.ID, 1, 0, 0), (F.AUDIT_SEQ.VALUE, 9, 0, 0)] with
    sec := f { Sec.reset with
      tenants := [(5, some ⟨0xD1, some 3⟩), (6, some ⟨0xD2, none⟩)], sessions := [(2, some ⟨5, 1, 77, 9, 5000⟩)],
      slots := [(3, { KeySlot.blank with state := .active, owner := 5, half0 := some (11, 7) })], binds := [(129, ⟨true, 5, false, 0⟩)] } }

/-- The same with a request waiting in PF0's mailbox. -/
def mailed (bytes : List Byte) : State :=
  let s := secured fun x => { x with mbxQ := [0] }
  { s.put [(F.MBX_STATUS.BUSY, 1, 0, 0), (F.MBX_CTL.LEN, bytes.length, 0, 0)] with
    bytes := bytes.zipIdx.map fun e => (mbxKey 0 (0x800 + e.2), e.1) }

theorem witness_TenantCommands :
    (secured id).secUp = true ∧ (secured id).mbxRetry = false ∧ (secured id).mbxOk 0 0x10 0x01 [] = true ∧ (secured id).tenantExists 7 = false ∧
    (secured id).tenantExists 6 = true ∧ (secured id).sessionsOf 6 = 0 ∧ (secured fun x => { x with binds := [] }).sec.binds = [] ∧ (secured id).slotsOf 6 = [] ∧ (secured id).plots = [] ∧
    bindable 4 = true ∧ ((secured id).bind 4).bound = false ∧ ((secured fun x => { x with binds := [(4, ⟨true, 5, false, 0⟩)] }).bind 4).bound = true ∧
    ((secured fun x => { x with binds := [(4, ⟨false, 0, true, 6⟩)] }).bind 4).offered = true ∧ (secured id).flights = [] ∧
    (secured id).rd F.AUDIT_ACK.VALUE ≤ (5 : W64).toNat ∧ (5 : W64).toNat ≤ (secured id).rd F.AUDIT_SEQ.VALUE := by
  refine ⟨?_, ?_, ?_, ?_, ?_, ?_, ?_, ?_, ?_, ?_, ?_, ?_, ?_, ?_, ?_, ?_⟩ <;> decide +kernel

theorem witness_Sessions :
    (mailed [1]).bit F.MBX_STATUS.BUSY 0 = true ∧ (mailed [1]).mbxOk 0 0x01 0 [] = true ∧ (mailed [1]).mbxRetry = false ∧ (mailed [1]).secUp = true ∧
    (mailed [2, 0, 0, 0, 0, 0, 0, 0, 77]).mbxOk 0 0x02 0 [] = true ∧
    (mailed [2, 0, 0, 0, 0, 0, 0, 0, 77]).sec.sessions.find? (fun e => e.2.any (·.id == BitVec.ofNat 32 (leNat
      ((((mailed [2, 0, 0, 0, 0, 0, 0, 0, 77]).mbxReq 0).drop 8).take 4)))) = some (2, some ⟨5, 1, 77, 9, 5000⟩) ∧
    ((mailed [2]).fnReceiver 2).tenant ≠ some 5 ∧ (secured id).rd F.SEC_STATUS.ID = 1 ∧
    (secured id).sec.tenants.find? (fun e => e.2.any (·.digest == 0xD2)) = some (6, some ⟨0xD2, none⟩) ∧
    leastBelow 64 (fun i => ((secured id).session i).isNone) = some 0 ∧ (secured id).sessionsOf 6 < 4 ∧
    (secured id).session 2 = some ⟨5, 1, 77, 9, 5000⟩ ∧ ¬5000 ≤ (secured id).now ∧ (secured id).sessFn ⟨5, 1, 77, 9, 5000⟩ = 1 ∧
    (secured id).sessBarred 1 ⟨5, 1, 77, 9, 5000⟩ = false ∧
    (secured fun x => { x with binds := [(4, ⟨false, 0, true, 5⟩)] }).bind 4 = ⟨false, 0, true, 5⟩ ∧ (secured id).mbxOk 1 0x02 0x20 [] = true := by
  refine ⟨?_, ?_, ?_, ?_, ?_, ?_, ?_, ?_, ?_, ?_, ?_, ?_, ?_, ?_, ?_, ?_, ?_⟩ <;> decide +kernel

theorem witness_TenantCommands_room :
    (secured id).auditFull = false ∧ ({ secured id with endpoint := [.histClear] } : State).auditFull = true ∧
    ({ secured id with endpoint := [.histClear] } : State).mbxOk 0 0x10 0x01 [] = true ∧
    ({ secured id with endpoint := [.histClear] } : State).tenantExists 7 = false := by
  refine ⟨?_, ?_, ?_, ?_⟩ <;> decide +kernel

/-- An SPDM message with version and code, after the mailbox header. -/
def spdmMail (v c : Byte) : State := mailed [1, 0, 0, 0, 0, 0, 0, 0, v, c]

theorem witness_Sessions_spdm :
    (spdmMail 0x10 0x84).mbxOk 0 0x01 0 [] = true ∧ (((spdmMail 0x10 0x84).mbxReq 0).drop 8).getD 1 0 = 0x84 ∧
    (((spdmMail 0x12 0xE1).mbxReq 0).drop 8).getD 1 0 = 0xE1 ∧ (((spdmMail 0x12 0xE1).mbxReq 0).drop 8).headD 0 = 0x12 ∧
    (((spdmMail 0x13 0xE3).mbxReq 0).drop 8).getD 1 0 ≠ 0x84 ∧ (((spdmMail 0x13 0xE3).mbxReq 0).drop 8).getD 1 0 ≠ 0xE1 := by
  refine ⟨?_, ?_, ?_, ?_, ?_, ?_⟩ <;> decide +kernel

theorem witness_Sessions_plots :
    let s (t : W64) : State := { secured id with plots := [(7, { Plot.blank with state := .openPlot, owner := 5, stamp := t })] }
    (s 0).plotChanged 7 = false ∧ (s 1000).plotChanged 7 = true ∧ ((s 0).plot 7).owner = 5 ∧ ((s 0).plot 7).state = .openPlot := by
  refine ⟨?_, ?_, ?_, ?_⟩ <;> decide +kernel

theorem witness_Sessions_counters : (∃ d, (secured id).counterSet 5 0 0 0 = .ok d) ∧ (secured id).counterSet 5 1 0 0 = .error 2 := by
  constructor
  · exact ⟨_, rfl⟩
  · rfl

/-- A rotation of slot 3 that has reached plot 9, or the ring areas. -/
def rotating (plot : Nat) : State :=
  { secured fun x => { x with
      slots := [(3, { KeySlot.blank with state := .rotating, owner := 5, half0 := some (11, 7), half1 := some (12, 8) })]
      rotation := some ⟨3, false, none, plot, 0, 1, 0⟩ } with
    plots := [(9, { Plot.blank with state := .openPlot, owner := 5, keyslot := 3, rotating := true, epoch := true })] }

/-- A slot on its way to be destroyed, an audit entry, a checkpoint and a zeroing that wait; the log's plot is OPEN. -/
def chained : State :=
  { secured fun x => { x with
      slots := [(3, { KeySlot.blank with state := .destroying, owner := 5, half0 := some (11, 7), diffs := 1 })], ringZero := [4]
      auditQ := [⟨900, 1, 0, 0, 0x38, 0, 1, 0⟩], auditLast := 800, ckptDue := [(4095, 700, 5)] } with
    plots := [(0xFFF, { Plot.blank with state := .openPlot, rsvd := true })] }

theorem witness_KeysAndChain_slots :
    (secured id).session 2 = some ⟨5, 1, 77, 9, 5000⟩ ∧ (secured id).mbxOk ((secured id).sessFn ⟨5, 1, 77, 9, 5000⟩) 0x02 0x22 [] = true ∧ (secured id).slotFor 5 = some 1 ∧
    (secured fun x => { x with slots := (List.range 8).map fun i => (i + 1, { KeySlot.blank with state := .active, owner := 5 }) }).slotFor 5 = none ∧
    (secured id).ownSlot 5 3 = true ∧ ((secured id).slot 3).state = .active ∧ (secured id).sec.rotation = none ∧ (rotating 9).sec.rotation ≠ none ∧
    (rotating 9).ownSlot 5 3 = true ∧ (secured id).tenant 5 ≠ none ∧ (secured id).naming 3 = [] ∧ (secured id).ringNames 3 = false ∧
    (rotating 9).naming 3 ≠ [] := by
  refine ⟨?_, ?_, ?_, ?_, ?_, ?_, ?_, ?_, ?_, ?_, ?_, ?_, ?_⟩ <;> decide +kernel

theorem witness_KeysAndChain_rest :
    (rotating 9).rotStragglers ⟨3, false, none, 9, 0, 1, 0⟩ = false ∧ (rotating 9).rotFrozen ⟨3, false, none, 9, 0, 1, 0⟩ = false ∧
    ((rotating 9).plot 9).keyslot = 3 ∧ ((rotating 9).plot 9).rotating = true ∧ ((rotating 9).plot 9).state = .openPlot ∧
    (rotating 0xFFE).sec.waitFrees = [] ∧ (rotating 0xFFE).sec.ringSlot = [] ∧ (rotating 0xFFE).rotFrozen ⟨3, false, none, 0xFFE, 0, 1, 0⟩ = false ∧
    (chained.slot 3).state = .destroying ∧ (chained.slot 3).half false ≠ none ∧ (chained.slot 3).diffs ≠ 0 ∧ ((secured id).slot 3).diffs = 0 ∧
    (List.range 16).find? (fun i => (chained.slot (256 + i)).state == .free) = some 0 ∧ 4 ∈ chained.sec.ringZero ∧
    chained.sec.auditQ = [⟨900, 1, 0, 0, 0x38, 0, 1, 0⟩] ∧ (chained.plot 0xFFF).state = .openPlot ∧ chained.sec.auditLast + 160 ≤ chained.now ∧
    chained.sec.ckptDue = [(4095, 700, 5)] ∧ chained.secUp = true ∧ 900 < chained.nowAt 12 ∧ ((rotating 9).slot 3).state = .rotating ∧
    (rotating 0xFFE).naming 3 ≠ [] ∧ (rotating 9).plotChanged 9 = false := by
  refine ⟨?_, ?_, ?_, ?_, ?_, ?_, ?_, ?_, ?_, ?_, ?_, ?_, ?_, ?_, ?_, ?_, ?_, ?_, ?_, ?_, ?_, ?_, ?_⟩ <;> decide +kernel

/-- No ring area is under slot 3 while no function has a ring slot. -/
theorem witness_KeysAndChain_rings : (rotating 0xFFE).rotRing ⟨3, false, none, 0xFFE, 0, 1, 0⟩ = none := by
  have h : (rotating 0xFFE).sec.ringSlot = [] := by decide +kernel
  have o : (rotating 0xFFE).sec.opSlot = 0 := by decide +kernel
  simp [State.rotRing, State.ringsUnder, upTo, State.ringSlotOf, h, o]
/-! ### Witnesses: errors, freezes, migration, the history -/

/-- PC 0 as given, serving logical PC 0; PC 5 is a spare if there is one; the stack has 4096 chunks. -/
def failing (p : Pc) (spare : Bool := true) : State :=
  let s := (stacked 6000 p).put [(F.GLOBAL_STATE.STATE, 2, 0, 0), (F.CLU_PCMAP.VALID, 1, 0, 0), (F.CLU_PCSPARE.MAP, if spare then 32 else 0, 0, 0),
    (F.PLOT_STACKGEOM.PC_UNITS, 1, 0, 0), (F.PHY_STATUS.SITE, 3, 0, 0), (F.RAS_CFG.SCRUB_H, 24, 0, 0)]
  { s.setPc 0 5 { Pc.blank with st := .spare, wasSpare := true } with
    plots := [(3, { Plot.blank with state := .openPlot, owner := 5 }), (4, { Plot.blank with state := .sealed, owner := 5 })] }

/-- PC 0 is frozen; CCCk has made its choice or not. -/
def frozen (chosen : Bool) : State := failing { serving with st := .frozen, freeze := some ⟨6, 5000, chosen, 0⟩, rq := [rent false 0] }

/-- A VERIFY runs in cluster 0. -/
def verifying (op : Nat) : State :=
  { (frozen true).put [(F.RAS_FRZCTL.BUSY, 1, 0, 0)] with frzOps := [(0, some ⟨op, 0, false⟩)] }

theorem witness_FreezeAndThaw_freezes :
    ((failing serving).pc 0 0).st = .serving ∧ ((failing serving).pc 0 0).caTries < 2 ∧ ((failing serving).pc 0 5).st = .spare ∧
    ((failing { serving with st := .training }).pc 0 0).st = .training ∧ 2 ≤ ((failing { serving with caTries := 2 }).pc 0 0).caTries ∧
    (failing serving).rd F.RAS_RECHEAD.VALUE < (failing serving).rd F.RAS_RECACK.VALUE + 1024 ∧ (failing serving).recTick.1 ≠ (failing serving).now + 1 ∧
    ((failing serving).pc 0 0).st.canFreeze = true := by decide +kernel

theorem witness_FreezeAndThaw_ends :
    (frozen true).pfHeld = false ∧ (frozen true).bit F.RAS_FRZCTL.BUSY 0 = false ∧ ((frozen true).pc 0 0).st = .frozen ∧
    ((frozen true).pc 0 1).st ≠ .frozen ∧ (verifying 1).bit F.RAS_FRZCTL.BUSY 0 = true ∧ (frozen true).migCheck 0 = 0 ∧
    (failing serving false).migCheck 0 ≠ 0 ∧ (frozen true).bit F.CLU_MIG.ACTIVE 0 = false ∧
    upTo 64 (fun l => (frozen true).bit F.CLU_PCMAP.VALID 0 l && (frozen true).phys 0 l == 0) = [0] ∧
    (((frozen true).plot 3).state = .openPlot ∧ ((frozen true).plot 3).rsvd = false ∧ ((frozen true).plot 3).stack = 0) ∧
    tget none (verifying 1).frzOps 0 = some ⟨1, 0, false⟩ ∧ ((verifying 1).pc 0 0).st = .frozen ∧ (verifying 1).linkReady 0 = true ∧ (verifying 1).cccUp 0 = true ∧
    (frozen false).bit F.RAS_FRZCTL.BUSY 0 = false ∧
    ((frozen false).pc 0 0).freeze = some ⟨6, 5000, false, 0⟩ := by
  refine ⟨?_, ?_, ?_, ?_, ?_, ?_, ?_, ?_, ?_, ?_, ?_, ?_, ?_, ?_, ?_, ?_⟩ <;> decide +kernel

/-- A migration of logical PC 0 to PC 5 has committed the chunks below `wm`. -/
def migrating (wm : Nat) : State :=
  { (failing serving).put [(F.CLU_MIG.ACTIVE, 1, 0, 0), (F.CLU_MIG.TARGET, 5, 0, 0), (F.CLU_MIG.WATERMARK, wm, 0, 0), (F.RAS_MIGCTL.BUSY, 1, 0, 0),
      (F.CLU_PCSPARE.MAP, 0, 0, 0)] with
    migs := [(0, some ⟨1⟩)], hist := { Hist.blank with marks := [(0, 0, 0)] }
    histFlash := { Hist.blank with marks := [(0, 0, 0)] } }

/-- A row of PC 0 waits for its targeted scrub, and the history has one unit. -/
def scrubbing : State :=
  { failing serving with scrubs := [(0, 0, 7, 7)], hist := { Hist.blank with units := [⟨0, 0, 0, 7, 2, [0, 0], false, false, 0⟩] } }

theorem witness_MigrationAndScrub :
    (failing serving).pfHeld = false ∧ (failing serving).bit F.RAS_MIGCTL.BUSY 0 = false ∧ (failing serving).bit F.CLU_PCMAP.VALID 0 0 = true ∧
    (failing serving).bit F.CLU_PCMAP.VALID 0 3 = false ∧ (failing serving).freeSpares 0 = [5] ∧ (failing serving false).freeSpares 0 = [] ∧
    (migrating 7).bit F.RAS_MIGCTL.BUSY 0 = true ∧ Loc.ofKey (Loc.key ⟨0, 1, 2, 3, 4, 5⟩) = ⟨0, 1, 2, 3, 4, 5⟩ ∧ rising (failing serving).mem = true ∧
    (migrating 7).chunkReady 0 = true ∧ (migrating 7).rd F.CLU_MIG.WATERMARK 0 + 1 < (migrating 7).chunks 0 ∧
    (migrating 4095).chunkReady 0 = true ∧ (migrating 4095).rd F.CLU_MIG.WATERMARK 0 + 1 = (migrating 4095).chunks 0 ∧
    (((base 10).put [(F.RAS_CFG.SCRUB_H, 0, 0, 0)]).scrubPass 0).1 = 0 ∧ scrubbing.scrubs.find? (fun q => q.1 == 0 && q.2.1 == 0 && q.2.2.2 == 7) = some (0, 0, 7, 7) ∧
    scrubbing.scrubbable 0 0 = true ∧ scrubbing.bit F.RAS_HISTCTL.BUSY = false ∧ (0 : BitVec 20).toNat < scrubbing.hist.units.length := by
  refine ⟨?_, ?_, ?_, ?_, ?_, ?_, ?_, ?_, ?_, ?_, ?_, ?_, ?_, ?_, ?_, ?_, ?_, ?_⟩ <;> decide +kernel

/-! ### Witnesses: silent errors -/

/-- TEST of array 5 with two rounds. -/
def testW : BitVec 128 := iw 0x38 [] (5 * 2 ^ 40 + 2 * 2 ^ 48)

/-- Lantern 0 with a test of array 5. -/
def tested (t : ATest) : State :=
  let s := (lantern Ctx.blank).put [(F.LNT_ARRAY.ROLE, 0, 0, 5)]
  s.setLnt 0 { s.lnt 0 with tests := [t] }

/-- Lanterns 0 and 1 are being swept and have tested their arrays; a sweep is pending or not. -/
def swept (pending : Bool) : State :=
  let s := (lantern Ctx.blank).put [(F.RAS_MGCTL.BUSY, 1, 0, 0), (F.RAS_MGSTAT.IN_SWEEP, 3, 0, 0), (F.RAS_MGCTL.PENDING, pending.toNat, 0, 0)]
  (s.setLnt 0 { s.lnt 0 with sweep := some ⟨2, [], false, false, false, [], 0⟩ }).setLnt 1 { s.lnt 1 with sweep := some ⟨2, [], false, false, false, [], 0⟩ }

theorem witness_MarigoldTests_arrays :
    (lantern (running [testW])).issuer 0 = some 0 ∧ (running [testW]).word 0 = some testW ∧ (running [testW]).prog.n ≠ 2 ^ 24 ∧
    wordBad testW = false ∧ iOp testW = 0x38 ∧ bitsOf testW 45 40 < 52 ∧ (lantern (running [testW])).role 0 (bitsOf testW 45 40) ≠ 4 ∧
    (lantern Ctx.blank).nmcEdge = true ∧ ((tested ⟨5, .repeat_, 3, some 50, 0, none, true, 5990, false, 0, 0⟩).lnt 0).tests.find? (fun t => t.arr == 5 && t.running) =
      some ⟨5, .repeat_, 3, some 50, 0, none, true, 5990, false, 0, 0⟩ ∧
    (tested ⟨5, .repeat_, 3, some 50, 0, none, true, 5990, false, 0, 0⟩).bit F.LNT_CTL.FENCED 0 = false ∧
    (tested ⟨5, .repeat_, 3, some 50, 0, none, true, 5990, false, 0, 0⟩).role 0 5 ≠ 4 := by
  refine ⟨?_, ?_, ?_, ?_, ?_, ?_, ?_, ?_, ?_, ?_, ?_⟩ <;> decide +kernel

theorem witness_MarigoldTests_deadline :
    let s := (tested ⟨5, .sweep, 3, none, 0, some 5990, false, 0, false, 0, 0⟩).put ((List.range 4).map fun i => (F.LNT_ARRAY.ROLE, 4, 0, 48 + i))
    ((s.lnt 0).arr 5) = none ∧ s.replaying 0 5 = false ∧ s.role 0 5 = 0 ∧ s.spares 0 = [] ∧
    (s.lnt 0).tests = [⟨5, .sweep, 3, none, 0, some 5990, false, 0, false, 0, 0⟩] ∧ 5990 ≤ s.now := by
  refine ⟨?_, ?_, ?_, ?_, ?_, ?_⟩ <;> decide +kernel

theorem witness_MarigoldTests_sweeps :
    (lantern Ctx.blank).pfHeld = false ∧ (lantern Ctx.blank).inReady = true ∧ (swept true).bit F.RAS_MGCTL.PENDING = true ∧
    (swept false).bit F.RAS_MGCTL.PENDING = false ∧ (swept false).bit F.RAS_MGCTL.BUSY = true ∧
    (0x08000003 : W32).getLsbD 27 = true ∧ (0x08000003 : W32).toNat / 2 ^ 12 % 16 = 0 ∧ (0x08000003 : W32).toNat % 256 ≠ 0 ∧
    (lantern Ctx.blank).bit F.RAS_MGCTL.BUSY = false ∧ (lantern Ctx.blank).bit F.LNT_CTL.FENCED 0 = false ∧
    (swept false).tests = [] ∧ (swept false).inSweep = [0, 1] ∧
    ((swept false).inSweep.all fun i => ((swept false).lnt i).tests.isEmpty && decide (((swept false).lnt i).sweep = some ⟨2, [], false, false, false, [], 0⟩)) =
      true := by
  refine ⟨?_, ?_, ?_, ?_, ?_, ?_, ?_, ?_, ?_, ?_, ?_, ?_, ?_⟩ <;> decide +kernel

theorem witness_Fences :
    arrBusy.pfHeld = false ∧ arrBusy.bit F.RAS_FENCECTL.BUSY 0 = false ∧ arrBusy.role 0 3 ≠ 4 ∧ ((arrBusy.lnt 0).arr 3).isSome = true ∧
    (arrBusy.put [(F.LNT_ARRAY.ROLE, 4, 0, 3)]).role 0 3 = 4 ∧ (arrBusy.put [(F.RAS_FENCECTL.BUSY, 1, 0, 0)]).bit F.RAS_FENCECTL.BUSY 0 = true ∧
    arrBusy.bit F.LNT_CTL.FENCED 0 = false ∧ (arrBusy.put [(F.LNT_CTL.FENCED, 1, 0, 0)]).bit F.LNT_CTL.FENCED 0 = true ∧
    (arrBusy.ctx 0 0).job.isSome = true ∧ (arrBusy.ctx 0 0).st ≠ .draining ∧ (arrBusy.ctx 0 0).st ≠ .idle := by
  refine ⟨?_, ?_, ?_, ?_, ?_, ?_, ?_, ?_, ?_, ?_, ?_⟩ <;> decide +kernel

/-! ### Witnesses: register accesses, resets, cores, firmware -/

theorem witness_RegisterAccess :
    placeOf 3 0xFFC = none ∧ bootOpen 0 42008576 = false ∧ placeOf 0 42008576 = some (.reg .AUDIT_SEQ 0 0 false) ∧
    RegName.AUDIT_SEQ.desc.wide = true ∧ State.reset.inBoot = true ∧ (base 10).inBoot = false ∧ bootOpen 0 54530080 = true ∧
    placeOf 0 42008580 = some (.reg .AUDIT_SEQ 0 0 true) ∧ placeOf 0 54530080 = some (.reg .FW_EVT 0 0 false) ∧
    RegName.FW_EVT.desc.wide = false ∧ (∀ x ∈ RegName.FW_EVT.desc.fields, x.acc ≠ .rc) ∧
    (∃ x ∈ RegName.PORT_ERRCNT.desc.fields, x.acc = .rc ∧ x.lo + x.len ≤ 64) ∧ (2 ≠ 4 ∧ 2 ≠ 8) ∧ 42008580 % 8 ≠ 0 := by
  refine ⟨?_, ?_, ?_, ?_, ?_, ?_, ?_, ?_, ?_, ?_, ?_, ?_, ?_, ?_⟩ <;> decide +kernel

/-- FW_EVT with every event. -/
def events : State := (base 10).put [(F.FW_EVT.RESTART, 1, 0, 0), (F.FW_EVT.FAILED, 1, 0, 0)]

/-- A write waits at the hub's endpoint for a place in the audit queue. -/
def queueing : State := { events with endpoint := [.mgStep] }

theorem witness_RegisterWrites_full :
    queueing.auditFull = true ∧ queueing.inBoot = false ∧ (queueing.actWrite1 (.fn 0) .FW_EVT 0 0 3).isNone = true ∧
    (queueing.actWrite2 (.fn 0) .FW_EVT 0 0 3).isNone = true ∧ (queueing.actWrite3 (.fn 0) .FW_EVT 0 0 3).isNone = true ∧
    queueing.shut .FW_EVT 0 0 (queueing.putFields (.fn 0) .FW_EVT 0 0 3 true false).toNat = false ∧
    queueing.putFields (.fn 0) .FW_EVT 0 0 3 true false ≠ queueing.reg .FW_EVT ∧
    queueing.putFields (.fn 0) .FW_EVT 0 0 0 true false = queueing.reg .FW_EVT := by
  refine ⟨?_, ?_, ?_, ?_, ?_, ?_, ?_, ?_⟩ <;> decide +kernel

theorem witness_RegisterWrites :
    placeOf 0 54530080 = some (.reg .FW_EVT 0 0 false) ∧ RegName.FW_EVT.desc.wide = false ∧ events.auditFull = false ∧
    events.inBoot = false ∧ State.reset.inBoot = true ∧ placeOf 0 42008584 ≠ none ∧ bootOpen 0 42008584 = false ∧ (events.actWrite1 (.fn 0) .FW_EVT 0 0 3).isNone = true ∧
    (events.actWrite2 (.fn 0) .FW_EVT 0 0 3).isNone = true ∧ (events.actWrite3 (.fn 0) .FW_EVT 0 0 3).isNone = true ∧
    events.shut .FW_EVT 0 0 (events.putFields (.fn 0) .FW_EVT 0 0 3 true false).toNat = false ∧
    events.putFields (.fn 0) .FW_EVT 0 0 3 true false ≠ events.reg .FW_EVT ∧ events.putFields (.fn 0) .FW_EVT 0 0 0 true false = events.reg .FW_EVT ∧
    (∃ x ∈ RegName.FW_EVT.desc.fields, x.acc = .rw1c ∧ x.lo + x.len ≤ 32 ∧
      ∀ y ∈ RegName.FW_EVT.desc.fields, y = x ∨ y.lo + y.len ≤ x.lo ∨ x.lo + x.len ≤ y.lo) ∧ agentWrites (.fn 0) .FW_EVT 0 = true ∧
    agentWrites .pmc .PM_FAULT 0 = true ∧ (events.actWriteCore .pmc .PM_FAULT 0 0 1).isNone = true ∧
    events.shut .PM_FAULT 0 0 (events.putFields .pmc .PM_FAULT 0 0 1 true false).toNat = false := by
  refine ⟨?_, ?_, ?_, ?_, ?_, ?_, ?_, ?_, ?_, ?_, ?_, ?_, ?_, ?_, ?_, ?_, ?_, ?_⟩ <;> decide +kernel

/-- A boot that has come to a stage, warm or cold. -/
def booting (stage : Nat) (warm : Bool) : State :=
  (base 10).put [(F.GLOBAL_STATE.STATE, 0, 0, 0), (F.FW_BOOT.STAGE, stage, 0, 0), (F.FW_BOOT.WARM, warm.toNat, 0, 0), (F.FW_STATE.STATE, 0, 2, 0)]
/-- HUB_WARM_REQ has risen at stamp 1000; PC 0 of stack 0 is still or not. -/
def quiescing (n : Nat) (st : PcState) : State :=
  let s := (base n).setPc 0 0 { Pc.blank with st := st, sr := .asleep }
  { s with fw := { s.fw with warm := some 1000, quiet := true } }

theorem witness_ResetsAndBoot :
    (base 10).fw.bootSlot [0] = none ∧ (base 10).fw.bootSlot [] = some 0 ∧ (booting 8 false).inBoot = true ∧ (booting 8 false).fw.failed = false ∧
    (booting 8 false).fw.quiet = false ∧ (booting 8 false).rd F.FW_BOOT.STAGE = 8 ∧ (booting 5 true).rd F.FW_BOOT.STAGE = 5 ∧
    (booting 8 false).bit F.RAS_MGCTL.BUSY = false ∧ (1 ≤ (6 : Byte).toNat ∧ (6 : Byte).toNat ≤ 9) ∧ (0x28 : Byte).toNat = 0x20 + (8 : Fin 16).val ∧
    (base 10).inBoot = false ∧ (base 10).fw.warm = none ∧ (base 10).bit F.SNF_STAT.SHUTDOWN = false ∧
    (quiescing 2000 .selfRefresh).fw.warm = some 1000 ∧
    (quiescing 2000 .selfRefresh).quiesced = true ∧ (quiescing 2000 .serving).quiesced = false ∧ (quiescing 2000 .serving).now < 1000 + 2400000 ∧
    1000 + 2400000 ≤ (quiescing 2401000 .serving).now := by
  refine ⟨?_, ?_, ?_, ?_, ?_, ?_, ?_, ?_, ?_, ?_, ?_, ?_, ?_, ?_, ?_, ?_, ?_, ?_⟩ <;> decide +kernel

/-- A core in a state, and SEC in a state. -/
def cores (c st sec : Nat) : State := (base 200000000000).put [(F.FW_STATE.STATE, sec, 0, 0), (F.FW_STATE.STATE, st, c, 0)]

theorem witness_CoreRestarts :
    (cores 4 coreRunning coreRunning).coreSt 4 = coreRunning ∧
    tget 0 (cores 4 coreRunning coreRunning).fw.since 4 + usTicks (1000 * (cores 4 coreRunning coreRunning).rd F.FW_CTL.WDOG_MS 4) ≤
      (cores 4 coreRunning coreRunning).now ∧ (cores 4 coreRunning coreRunning).auditFull = false ∧
    (cores 4 coreRunning coreRestarting).coreSt 0 = coreRestarting ∧ ((cores 4 coreRunning coreRestarting).fw.owed.any fun o => o.1 == 4) = false ∧ (cores 4 coreRunning coreRestarting).fw.owed = [] ∧
    (cores 4 coreFault coreRunning).coreSt 4 ≠ coreRestarting ∧ (cores 4 coreFault coreRunning).coreSt 4 ≠ 1 ∧
    (cores 4 coreRestarting coreRunning).coreSt 4 = coreRestarting ∧ (cores 4 coreRunning coreRestarting).bit F.PLOT_CMD.BUSY = false ∧
    ({ cores 4 coreRunning coreRestarting with sec := { Sec.reset with sessions := [(2, some ⟨5, 1, 77, 9, 5000⟩)] } }).session 2 =
      some ⟨5, 1, 77, 9, 5000⟩ := by
  refine ⟨?_, ?_, ?_, ?_, ?_, ?_, ?_, ?_, ?_, ?_, ?_⟩ <;> decide +kernel

/-- An update in a state; the cores an activation has still to restart, and those it has restarted. -/
def updating (st : Nat) (act acted : List Nat) : State :=
  let s := (base 2000000000).put [(F.FW_UPDSTAT.STATE, st, 0, 0), (F.FW_UPDCTL.CORES, 0x1F, 0, 0)]
  { s with fw := { s.fw with act := act, acted := acted } }
/-- A configuration record of RSEQ 3. -/
def record : List Byte := [0x31, 0x47, 0x46, 0x43, 3] ++ List.replicate 203 0

theorem witness_FirmwareUpdate_mailbox :
    (updating 1 [] []).inBoot = false ∧ (updating 1 [] []).secUp = true ∧ (updating 1 [] []).mbxOk 0 0x10 0x10 [] = true ∧
    (updating 1 [] []).updSt = 1 ∧ (updating 0 [] []).updSt = 0 ∧ (updating 4 [] []).updSt = 4 ∧
    (updating 1 [] []).mbxOk 0 0x10 0x11 ([1, 0, 0, 0] ++ leBytes (BitVec.ofNat 32 0) 4) = true ∧
    (updating 1 [] []).payCheck ((List.range 0).map (tget 0 (updating 1 [] []).fw.buf1)) true ≠ 0 ∧ record.length = 208 ∧
    (updating 1 [] []).mbxOk 0 0x10 0x12 ([1] ++ List.replicate 7 0 ++ record) = true ∧ recNat record 0 4 = 0x43464731 ∧
    (∀ c, c < 4 → (updating 1 [] []).fw.minSvn c ≤ (parseCfg record).minSvn.getD c 0) ∧ (updating 1 [] []).fw.flash.cfg = none ∧
    (updating 1 [] []).mbxOk 2 0x10 0x13 [BitVec.ofNat 8 7] = true ∧ (updating 1 [] []).mbxOk 0 0x10 0x13 [BitVec.ofNat 8 7] = true ∧
    (updating 1 [] []).mbxOk 0 0x10 0x10 ([1, 0, 0, 0] ++ leBytes (0 : W32) 4 ++ leBytes (BitVec.ofNat 16 1) 2 ++ List.replicate 6 0 ++ [7]) = true := by
  refine ⟨?_, ?_, ?_, ?_, ?_, ?_, ?_, ?_, ?_, ?_, ?_, ?_, ?_, ?_, ?_, ?_⟩ <;> decide +kernel

/-- An update in a state under an emergency. -/
def urgent (st : Nat) : State := (updating st [] []).setAttn 0x1 true

theorem witness_FirmwareUpdate_activation :
    (updating 4 [] [1, 3, 2]).fw.actAt ≠ (updating 4 [] [1, 3, 2]).now + 1 ∧ (updating 3 [] []).inBoot = false ∧ (updating 3 [] []).emergency = false ∧
    (updating 2 [] []).auditFull = false ∧ (updating 2 [] []).updSt = 2 ∧ (updating 2 [] []).emergency = false ∧
    (urgent 2).emergency = true ∧ (urgent 2).updSt = 2 ∧ (updating 3 [] []).updSt = 3 ∧ (updating 3 [] []).fw.clear + 1200000000 < (updating 3 [] []).now ∧
    (updating 4 [3, 2] [1]).fw.act = [3, 2] ∧ (updating 4 [3, 2] [1]).secUp = true ∧ (updating 4 [3, 2] [1]).coreSt 3 ≠ coreRestarting ∧
    (∀ d ∈ (updating 4 [3, 2] [1]).fw.acted, (updating 4 [3, 2] [1]).coreSt d = coreRunning) ∧
    ((updating 4 [2] [1, 3]).put [(F.FW_STATE.STATE, coreFault, 3, 0)]).fw.acted.getLast? = some 3 ∧
    ((updating 4 [2] [1, 3]).put [(F.FW_STATE.STATE, coreFault, 3, 0)]).coreSt 3 = coreFault ∧
    (updating 4 [] [1, 3, 2]).fw.act = [] ∧ (∀ d ∈ (updating 4 [] [1, 3, 2]).fw.acted, (updating 4 [] [1, 3, 2]).coreSt d = coreRunning) := by
  refine ⟨?_, ?_, ?_, ?_, ?_, ?_, ?_, ?_, ?_, ?_, ?_, ?_, ?_, ?_, ?_, ?_, ?_⟩ <;> decide +kernel

/-! ### Witnesses: power and heat -/

/-- PMC runs; rails 1 and 20 are on, rail 20 (of site 1) limited to 100; site 1 is READY and its PC 0 serves; rail `r` has missed polls. -/
def powered (r missed : Nat) : State :=
  let s := ((base 1000000).put [(F.PM_RAIL_CFG.ON, 1, 0, 0), (F.PM_RAIL_CFG.ON, 1, 1, 0), (F.PM_RAIL_CFG.ON, 1, 20, 0), (F.PHY_STATUS.SITE, 3, 0, 0),
    (F.PHY_STATUS.SITE, 3, 1, 0), (F.PHY_STATUS.SITE, 3, 2, 0), (F.PM_RAIL_CFG.VSET_MV, 750, 0, 0), (F.PM_RAIL_CFG.VSET_MV, 750, 1, 0)]).setPc
      (railSite 20) 0 serving
  { s with pw := { s.pw with missed := [(r, missed)], start := 900000 } }

theorem witness_RailsAndSetpoints :
    (powered 0 0).bit F.PM_RAIL_CFG.ON 5 = false ∧ (powered 0 0).bit F.PM_RAIL_CFG.ON 20 = true ∧ statusFault 0 = false ∧ statusFault 0xFFFF = true ∧
    (0 : BitVec 16).toNat ≤ (powered 0 0).railLimit 20 ∧ (∀ q ∈ siteRails (railSite 20), tget 0 (powered 0 0).pw.faults q = 0) ∧
    ((powered 0 0).pc (railSite 20) 0).st.canFreeze = true ∧ (powered 0 0).rd F.PHY_STATUS.SITE (railSite 20) = 3 ∧
    (powered 0 0).bit F.SNF_STAT.SHUTDOWN = false ∧
    tget 0 (powered 0 1).pw.missed 0 < 2 ∧ 2 ≤ tget 0 (powered 20 2).pw.missed 20 ∧ (powered 0 0).pmcUp = true ∧
    tget 0 (powered 0 0).pw.faults 1 ≠ (powered 0 0).now + 1 ∧ (powered 0 0).clk.running = true ∧
    (powered 0 0).pw.stepped ≠ (powered 0 0).pw.start + 1 ∧ (powered 0 0).rd F.PM_RAIL_CFG.VSET_MV 0 ≠ 0 := by
  refine ⟨?_, ?_, ?_, ?_, ?_, ?_, ?_, ?_, ?_, ?_, ?_, ?_, ?_, ?_, ?_, ?_⟩ <;> decide +kernel

/-- The round begun at stamp 0 has come to channel `ch`; site 0 is populated. -/
def measuring (n ch : Nat) : State :=
  let s := (base n).put [(F.PHY_STATUS.SITE, 3, 0, 0), (F.THM_SENS_CFG.MODE, 1, 32, 0), (F.THM_SENS_CFG.MODE, 1, 20, 0)]
  { s with pw := { s.pw with next := ch } }
/-- A grace time, a shut-down's notice and a shut-down end or began at these stamps. -/
def hot (g n b : Option Nat) : State :=
  let s := base 100000000
  { s with pw := { s.pw with grace := g, notice := n, shutAt := b } }

theorem witness_HeatAndShutdown :
    (measuring 100000000 20).clk.running = true ∧ (measuring 100000000 20).pw.next = 20 ∧ 0 + convTicks * (20 + 1) ≤ (measuring 100000000 20).now ∧
    0 + convTicks * (63 + 1) ≤ (measuring 100000000 63).now ∧ (measuring 10 20).now < 0 + convTicks * (20 + 1) ∧
    (measuring 100000000 20).rd F.THM_SENS_CFG.MODE 20 ≠ 0 ∧ 1 ≤ (measuring 10 20).rd F.PHY_STATUS.SITE 0 ∧
    (measuring 10 20).rd F.PHY_STATUS.SITE 0 < 4 ∧ (measuring 10 20).rd F.THM_SENS_CFG.MODE (32 + 0) ≠ 0 ∧ (base 10).pfHeld = false ∧
    80 ≤ (base 10).rd F.SNF_TCEIL.SHUT_C ∧ 70 ≤ (base 10).rd F.SNF_TCEIL.THROT_C ∧ (0x00504637 : W32).toNat / 65536 % 256 = 80 ∧
    (0x00504637 : W32).toNat / 256 % 256 = 70 ∧ (0x00504637 : W32).toNat % 256 = 55 ∧ (hot (some 90) none none).pw.grace = some 90 ∧
    (hot (some 90) none none).now ≥ 90 ∧ (hot none (some 90) none).pw.notice = some 90 ∧ (hot none none (some 5)).pw.shutAt = some 5 ∧
    (hot none none (some 5)).pw.off = false ∧ (hot none none (some 5)).pcsStill = true ∧ 5 + 60000000 ≤ (hot none none (some 5)).now ∧
    (hot (some 100000001) none none).now < 100000001 := by
  refine ⟨?_, ?_, ?_, ?_, ?_, ?_, ?_, ?_, ?_, ?_, ?_, ?_, ?_, ?_, ?_, ?_, ?_, ?_, ?_, ?_, ?_, ?_, ?_⟩ <;> decide +kernel

/-! ### Witnesses: the mirror pair and the counters -/

/-- STATE of the pair, with both ports up or neither; window 0 SYNCING, window 1 ACTIVE; a write of window 1 is on port 0. -/
def mirrored (n st : Nat) (up writes : Bool) : State :=
  let s := (base n).put [(F.GLOBAL_STATE.STATE, 2, 0, 0), (F.MIR_PAIR.STATE, st, 0, 0), (F.MIR_PAIR.VER, 2, 0, 0), (F.MIR_PORT.UP, up.toNat, 0, 0),
    (F.MIR_PORT.UP, up.toNat, 1, 0), (F.MIR_ACT_CTL.STATE, 1, 0, 0), (F.MIR_ACT_CTL.EN, 1, 0, 0), (F.MIR_ACT_SIZE.UNITS, 2, 0, 0),
    (F.MIR_ACT_CTL.STATE, 2, 1, 0), (F.MIR_ACT_CTL.EN, 1, 1, 0), (F.MIR_PEPOCH.EPOCH, 7, 0, 0)]
  { s with mir := { s.mir with
    link := [0, 1], ems := 9, heard := 10, next := 3, sync := [(0, 4096)]
    writes := if writes then [⟨2, 0, 1, 3 * 2 ^ 28, [1], 20, 5, false, .sent, 0, 6, 2, 7⟩] else [] } }

theorem witness_PairForming :
    (mirrored 100 0 false false).pfHeld = false ∧ (mirrored 100 0 false false).rd F.MIR_PAIR.STATE = 0 ∧ (mirrored 100 0 false false).mir.link ≠ [] ∧
    (base 10).rd F.MIR_PAIR.STATE = 0 ∧ (base 10).mir.link = [] ∧ (mirrored 100 2 true false).rd F.MIR_PAIR.STATE = 2 ∧
    (mirrored 100 2 true false).mir.writes = [] ∧ (mirrored 100 2 true false).flights = [] ∧ (mirrored 100 3 false false).rd F.MIR_PAIR.STATE = 3 ∧
    (mirrored 100 1 false false).rd F.MIR_PAIR.STATE = 1 ∧ (mirrored 100 1 false false).secUp = true ∧ (1 : BitVec 384) ≠ (mirrored 100 1 false false).peerDigest ∧
    (mirrored 100 2 true false).paired = true ∧ (mirrored 100 2 true false).mir.back = none ∧
    (mirrored 9000000 2 true false).mir.heard + usTicks ((mirrored 9000000 2 true false).rd F.MIR_CFG.LOSS_US) < (mirrored 9000000 2 true false).now ∧
    (mirrored 100 2 true false).now ≤ (mirrored 100 2 true false).mir.heard + usTicks ((mirrored 100 2 true false).rd F.MIR_CFG.LOSS_US) ∧
    (mirrored 100 2 true false).mirUp 0 = true ∧ (mirrored 100 2 true false).mirUp 1 = true ∧ (mirrored 9000000 2 true false).mir.probeAt + 1200000 ≤ 9000000 ∧
    (mirrored 9000000 2 true false).mir.heartAt + 120000 ≤ 9000000 ∧ (base 10).mirUp 0 = false ∧ (mirrored 100 2 true false).mir.probes = [] := by
  refine ⟨?_, ?_, ?_, ?_, ?_, ?_, ?_, ?_, ?_, ?_, ?_, ?_, ?_, ?_, ?_, ?_, ?_, ?_, ?_, ?_, ?_, ?_⟩ <;> decide +kernel

/-- A committed window set waits: window 2 enabled. -/
def committing : State :=
  let s := mirrored 100 2 true false
  { s with mir := { s.mir with pend := some ((List.range 16).map fun w => if w = 2 then ⟨0, 0, 1, true, false⟩ else ⟨0, 0, 0, false, false⟩) } }

/-- Paired, and mirror port 0 may bring writes of the partner's tenant 9, which is tenant 5 here, to plot 3. -/
def bringing : State :=
  let s := (fabric 5000 serving).put [(F.MIR_PAIR.STATE, 2, 0, 0), (F.MIR_PAIR.VER, 2, 0, 0), (F.MIR_PORT.UP, 1, 0, 0), (F.MIR_PEPOCH.EPOCH, 7, 0, 0),
    (F.PORT_LINK.UP, 1, 25, 0), (F.PORT_CFG.ENABLE, 1, 25, 0), (F.PORT_EFF.VER, 2, 25, 0), (F.PORT_EFF.TAGBITS, 12, 25, 0),
    (F.PORT_EFF.CLASSES, 15, 25, 0), (F.PORT_EFF.OPS, 0x1FF, 25, 0)]
  { s with
    credits := [(25, ⟨64, 256, 4⟩)]
    sec := { s.sec with tenants := [(5, some ⟨0xD1, none⟩)] }
    plots := [(3, { Plot.blank with state := .openPlot, rights := 0xFFFF, owner := 5, mirror := true })]
    mir := { s.mir with image := { s.mir.image with tenants := [(9, some 0xD1)] } } }

/-- A data frame that mirror port 0 brings: a write of line 0 of the partner's plot 3. -/
def mirrorMsg : Msg := ⟨mkHdr opWR 1 9 0 3 false (3 * 2 ^ 28) 77 0 0 0 true, [0xABC], 0⟩

theorem witness_MirroredWrites :
    (mirrored 100 2 true true).mirUp 0 = true ∧ (hcrcOk (msg opWR 1 6 1 0 0 [0xABC]).hdr && !frameWf (msg opWR 1 6 1 0 0 [0xABC])) = false ∧ newerEpoch 8 7 = true ∧ newerEpoch 7 7 = false ∧
    (mirrored 100 2 true true).mir.writes.find? (fun q => q.st == .sent && q.port == 0 && q.tag == 6 && q.gen == 2) =
      some ⟨2, 0, 1, 3 * 2 ^ 28, [1], 20, 5, false, .sent, 0, 6, 2, 7⟩ ∧ (mirrored 100 2 true true).mir.leave = none ∧
    (mirrored 100 2 true true).winState 1 = 2 ∧ (0 : W64).toNat = (mirrored 100 2 true true).mir.stateRx ∧ (mirrored 100 2 true true).mir.early = [] ∧
    (mirrored 100 2 true false).pfHeld = false ∧ (mirrored 100 2 true false).winsBad = false ∧ (mirrored 100 0 true false).winsBad = true ∧
    committing.mir.pend.isSome = true ∧ committing.mir.writes = [] ∧ (committing.mir.pend.map (·.length)) = some 16 ∧
    (mirrored 100 2 true true).paired = true ∧ (mirrored 100 2 true true).winState 0 = 1 ∧
    ((mirrored 100 2 true true).actWin 0).units * 1024 ≤ tget 0 (mirrored 100 2 true true).mir.sync 0 ∧
    (∀ q ∈ (mirrored 100 2 true true).mir.writes, (q.copy && q.w == 0) = false) ∧ (mirrored 100 2 false true).mirUp 0 = false := by
  refine ⟨?_, ?_, ?_, ?_, ?_, ?_, ?_, ?_, ?_, ?_, ?_, ?_, ?_, ?_, ?_, ?_, ?_, ?_, ?_, ?_⟩ <;> decide +kernel

/-- A mirrored write that is accepted. -/
theorem witness_MirroredWrites_accepted :
    bringing.mirUp 0 = true ∧ hcrcOk mirrorMsg.hdr = true ∧ frameWf mirrorMsg = true ∧ newerEpoch (bringing.rd F.MIR_PEPOCH.EPOCH) 7 = false ∧
    bringing.bit F.CLOCK_STATUS.FCLK_PRESENT = true ∧ bringing.bit F.PORT_LINK.UP 25 = true ∧ bringing.inBoot = false ∧
    bringing.hasCredit 0 25 mirrorMsg.hdr mirrorMsg.beats = true ∧ bringing.preCheck 0 25 mirrorMsg.hdr = none ∧
    bringing.access 25 0 (bringing.tenantOf 25 0 none) mirrorMsg.hdr = .accept ∧
    bringing.mapTenant 9 = some (bringing.plot (hPlot mirrorMsg.hdr)).owner ∧
    (bringing.place (hLine mirrorMsg.hdr) (bringing.plot (hPlot mirrorMsg.hdr))).1 = 0 ∧
    ((path (bringing.plot (hPlot mirrorMsg.hdr)).owner (hCls mirrorMsg.hdr) 25).filter fun b => bringing.bEn b && !bringing.bShape b) = [] ∧
    bringing.throttles = [] := by
  refine ⟨?_, ?_, ?_, ?_, ?_, ?_, ?_, ?_, ?_, ?_, ?_, ?_, ?_, ?_⟩ <;> decide +kernel

/-- STATE 0 has been applied. -/
theorem witness_MirroredWrites_old :
    (0 : W64).toNat < ({ mirrored 100 2 true true with mir := { (mirrored 100 2 true true).mir with stateRx := 1 } }).mir.stateRx := by decide +kernel

/-- A snapshot and a freeze wait for these ticks. -/
def counting (sn fr : Option Nat) : State :=
  let s := base 6400
  { s.put [(F.PMU_CTL.BUSY, sn.isSome.toNat, 0, 0)] with pmus := { s.pmus with snapAt := sn, frzAt := fr.map fun n => (n, true) } }

theorem witness_CountersAndSnapshots :
    (counting none none).pfHeld = false ∧ (counting none none).bit F.PMU_CTL.BUSY = false ∧ (counting (some 6400) none).bit F.PMU_CTL.BUSY = true ∧
    (counting (some 6400) none).pmus.snapAt = some 6400 ∧ 6400 ≤ (counting (some 6400) none).now ∧ (counting (some 6464) none).now < 6464 ∧
    (counting none (some 6400)).pmus.frzAt = some (6400, true) ∧ (counting none (some 6400)).pmus.snapAt = none ∧
    (counting (some 6464) (some 6400)).pmus.snapAt = some 6464 ∧ (counting (some 6400) (some 6464)).pmus.frzAt = some (6464, true) := by
  refine ⟨?_, ?_, ?_, ?_, ?_, ?_, ?_, ?_, ?_, ?_⟩ <;> decide +kernel

/-! ### Witnesses: every command, and the invariants -/

theorem witness_StepRunsTheFront :
    ({ State.reset with pending := [Instr.snap] }).pending = Instr.snap :: [] ∧ State.reset.pending = [] ∧ State.reset.clk.running = false := by
  decide +kernel

theorem witness_IdentityNeverChanges : State.reset.identified ∧ ∃ t, step { State.reset with pending := [Instr.snap] } = .next t :=
  ⟨by unfold State.identified; decide +kernel, _, rfl⟩

theorem witness_MemoryKeepsItsForm : Memory.wf State.reset.mem = true ∧ ∃ t, step { State.reset with pending := [Instr.pair] } = .next t :=
  ⟨by decide +kernel, _, rfl⟩

/-! ### Ill-formed commands are refused -/

/-- A command for each check of WellFormed, which the check refuses. -/
def illFormed : List Instr :=
  [.fclkReturn 799, .fclkReturn 2001, .tsReplicaCheck [0],
   .rd 0 0 0 (msg opWR 1 9 1 0 0 [1]), .rd 0 0 0 (msg opRD 1 9 1 0 0 [1]), .wr 0 0 0 (msg opWR 1 9 2 0 0 [1]), .wrp 0 0 0 (msg opRD 1 9 1 0 0),
   .aadd 0 0 0 (msg opACAS 1 9 1 0 0), .acas 0 0 0 (msg opAADD 1 9 1 0 0), .contrib 0 0 0 (msg opRD 1 9 1 0 0), .lkacq 0 0 0 (msg opLKREL 1 9 1 0 0),
   .lkrel 0 0 0 (msg opLKACQ 1 9 1 0 0), .stamp 0 0 0 (msg opRD 1 9 1 0 0), .stamp 0 0 0 { msg opSTAMP 1 9 1 0 0 with trailer := 1 },
   .unknownOpcodeRequest 0 0 0 (msg opRD 1 9 1 0 0), .hostMrd 0 0x30000001 0, .hostMwr 0 0x30000000 [], .hostFetchadd 0 0x30000004 1,
   .hostCas 0 0x30000004 1 2, .sweepEnd [0], .stageChunk 0 1 0 [], .stageChunk 0 1 0 (List.replicate 1001 0), .recWrite 0 1 (List.replicate 1009 0),
   .dataRequest 0 true 0 0 0 0 (msg opWR 1 9 1 0 0), .trainingComplete 0 { siteEnv with other := ⟨[], []⟩ }, .train 0 { siteEnv with other := ⟨[], []⟩ },
   .restore 0 { siteEnv with other := ⟨[], []⟩ } [], .retrainApply 0 { siteEnv with other := ⟨[], []⟩ }, .warmReset ⟨[], [⟨0, [], { siteEnv with other := ⟨[], []⟩ }⟩]⟩]

theorem test_illFormed_wf : (illFormed.all fun c => !c.wf) = true := by decide +kernel
end Sys2Proof.Tests
end

section
/-! The identification registers never change (R13), and memory keeps its form (R80).

Nothing but the register file and the memory matters here, so a change of any other part of the state keeps both at once (`keeps_mk`), a
write of any other register does (`Keeps.of_regs`), and so does a change of memory that keeps its keys rising (`Keeps.of_mem`). From these
there is one rule per operation of the model, `keeps_<operation>`, in the order of the definitions: what is kept of the state it starts from
is kept of the state it leaves. A proof cites the rules of the operations called, along the branches of the definition; `keeps_exec` and
`keeps_tick` are the last two. -/

set_option Elab.async false

namespace Sys2Proof.Machine

/-- From `s` to `t` the identification registers stay as their tables have them (R13), and memory keeps its form. -/
structure Keeps (s t : State) : Prop where
  ident : s.identified → t.identified
  form : Memory.wf s.mem = true → Memory.wf t.mem = true

/-- Every next state of an outcome is kept. -/
def KeepsRes (s : State) (r : Res) : Prop := ∀ t, r = .next t → Keeps s t

/-- The state an operation answers, if any, is kept. -/
def KeepsOpt (s : State) (o : Option State) : Prop := ∀ t, o = some t → Keeps s t

section
variable {s₀ s t : State}

/-! ### Rules about outcomes, branches and folds, and the changes of registers and memory -/

theorem keeps_refl (s : State) : Keeps s s := ⟨id, id⟩

theorem Keeps.trans (h : Keeps s₀ s) (g : Keeps s t) : Keeps s₀ t := ⟨g.ident ∘ h.ident, g.form ∘ h.form⟩

/-- Only the registers and the memory count: any other change keeps what is kept. -/
theorem keeps_mk
    {pending endpoint : List Instr} {clk : Clk} {regs0 regs1 events : Tbl W64} {bytes : Tbl Byte}
    {hiLatch : List (Nat × Nat × W32)} {out : List Output} {free nextId order trkWindow refilled sampled : Nat}
    {fills : Tbl (Option Fill)} {plots : Tbl Plot} {quar : Tbl (Option Quarantine)} {plotDue : List (Nat × PlotChange)}
    {deadFrames unbacked : List (Nat × Nat)} {flights : List Flight} {locks : List Lock} {credits : Tbl Credit}
    {slices : Tbl Slice} {waitSeen rtrFrom groups stackTemp goodTemp sampleAt capUsed migSeq pprRows : Tbl Nat} {pcs : Tbl Pc}
    {holds : Tbl (Option Hold)} {throttles : List Throttle} {thrOff hotNext triggers groupsDue burstCuts advised : List Nat}
    {rgHits : List RgHit} {windows : Tbl (Option Window)} {narrow : Tbl (List Nat)} {gateOn gateOff latokDue histClear : Bool}
    {calWait : Option Calendar} {recs : Tbl (Option ErrRec)} {recTick recLast : Nat × Nat} {hist histFlash : Hist}
    {migs : Tbl (Option Mig)} {passes : Tbl (Nat × Nat)} {frzOps : Tbl (Option FrzOp)} {migWant : List (Nat × Nat × Nat)}
    {tests : List (Nat × HistUnit)} {scrubs : List (Nat × Nat × Nat × Nat)} {sec : Sec} {rings : Rings} {lnts : Tbl Lantern}
    {posies : Tbl Posy} {pmus : Pmu} {fw : Fw} {pw : Pw} {mir : Mir}
    (h : Keeps s₀ s) :
    Keeps s₀
      ⟨pending, endpoint, clk, s.regs, regs0, regs1, events, bytes, hiLatch, out, free, s.mem, fills, plots, quar, plotDue,
       deadFrames, unbacked, flights, nextId, order, locks, credits, slices, waitSeen, pcs, holds, throttles, thrOff, rgHits,
       trkWindow, hotNext, windows, triggers, rtrFrom, narrow, groups, groupsDue, gateOn, gateOff, calWait, latokDue, refilled,
       sampled, histClear, burstCuts, stackTemp, goodTemp, sampleAt, capUsed, recs, recTick, recLast, hist, histFlash, migs, migSeq,
       passes, frzOps, migWant, pprRows, tests, scrubs, sec, rings, lnts, posies, pmus, fw, pw, mir, advised⟩ :=
  ⟨h.ident, h.form⟩

theorem keeps_ite {p : Prop} [Decidable p] (h : Keeps s₀ s) (g : Keeps s₀ t) : Keeps s₀ (if p then s else t) := by
  split <;> assumption

theorem keepsRes_ite {p : Prop} [Decidable p] {r q : Res} (h : KeepsRes s₀ r) (g : KeepsRes s₀ q) :
    KeepsRes s₀ (if p then r else q) := by
  split <;> assumption

theorem keepsOpt_ite {p : Prop} [Decidable p] {o q : Option State} (h : KeepsOpt s₀ o) (g : KeepsOpt s₀ q) :
    KeepsOpt s₀ (if p then o else q) := by
  split <;> assumption

theorem keepsFst_ite {α : Type} {p : Prop} [Decidable p] {a b : State × α} (h : Keeps s₀ a.1) (g : Keeps s₀ b.1) :
    Keeps s₀ (if p then a else b).1 := by
  split <;> assumption

theorem keepsSnd_ite {α : Type} {p : Prop} [Decidable p] {a b : α × State} (h : Keeps s₀ a.2) (g : Keeps s₀ b.2) :
    Keeps s₀ (if p then a else b).2 := by
  split <;> assumption

theorem keepsRes_next (h : Keeps s₀ s) : KeepsRes s₀ (.next s) := by
  rintro t ⟨⟩
  exact h

theorem keepsRes_fault {f : Fault} : KeepsRes s₀ (.fault f) := by
  rintro t ⟨⟩

theorem keepsRes_refused {r : Refusal} : KeepsRes s₀ (.refused r) := by
  rintro t ⟨⟩

theorem keepsOpt_some (h : Keeps s₀ s) : KeepsOpt s₀ (some s) := by
  rintro t ⟨⟩
  exact h

theorem keepsOpt_none : KeepsOpt s₀ none := by
  rintro t ⟨⟩

theorem keepsOpt_orElse {o q : Option State} (h : KeepsOpt s₀ o) (g : KeepsOpt s₀ q) : KeepsOpt s₀ (o.orElse fun _ => q) := by
  cases o with
  | none => exact g
  | some u => exact h

theorem keeps_getD {o : Option State} (h : KeepsOpt s₀ o) (g : Keeps s₀ s) : Keeps s₀ (o.getD s) := by
  cases o with
  | none => exact g
  | some u => exact h u rfl

theorem Keeps.of_fst {α : Type} {p : State × α} {x : α} (h : Keeps s₀ p.1) (e : p = (s, x)) : Keeps s₀ s := by
  subst e
  exact h

theorem Keeps.of_snd {α : Type} {p : α × State} {x : α} (h : Keeps s₀ p.2) (e : p = (x, s)) : Keeps s₀ s := by
  subst e
  exact h

theorem keeps_onlyIf {b : Bool} (h : Keeps s₀ s) (g : Keeps s₀ t) : Keeps s₀ (onlyIf b s t) := keeps_ite h g

theorem keeps_after {r : Res} (h : KeepsRes s₀ r) (g : Keeps s₀ s) : Keeps s₀ (after r s) := by
  cases r with
  | next t => exact h t rfl
  | fault f => exact g
  | refused f => exact g

theorem keeps_foldl {α : Type} {xs : List α} {f : State → α → State} (h : Keeps s₀ s)
    (hf : ∀ t x, Keeps s₀ t → Keeps s₀ (f t x)) : Keeps s₀ (xs.foldl f s) := by
  induction xs generalizing s with
  | nil => exact h
  | cons x xs ih => exact ih (hf s x h)

theorem keepsFst_foldl {α β : Type} {xs : List α} {f : State × β → α → State × β} {p : State × β} (h : Keeps s₀ p.1)
    (hf : ∀ q x, Keeps s₀ q.1 → Keeps s₀ (f q x).1) : Keeps s₀ (xs.foldl f p).1 := by
  induction xs generalizing p with
  | nil => exact h
  | cons x xs ih => exact ih (hf p x h)

/-- A register other than the identification registers. -/
def RegName.free (r : RegName) : Bool := r != .GLOBAL_ID && r != .GLOBAL_PROTO

/-- A change of the registers other than the identification registers. -/
theorem Keeps.of_regs (h : Keeps s₀ s) (hr : ∀ r, r.free = false → t.reg r = s.reg r) (hm : t.mem = s.mem) : Keeps s₀ t := by
  refine ⟨fun hc => ?_, fun hc => hm ▸ h.form hc⟩
  obtain ⟨hi, hp⟩ := h.ident hc
  exact ⟨(hr _ rfl).trans hi, (hr _ rfl).trans hp⟩

/-- A change of the memory that keeps the keys rising. -/
theorem Keeps.of_mem (h : Keeps s₀ s) (hr : t.regs = s.regs) (hm : Memory.wf s.mem = true → Memory.wf t.mem = true) : Keeps s₀ t := by
  refine ⟨fun hc => ?_, fun hc => hm (h.form hc)⟩
  have := h.ident hc
  simpa only [State.identified, State.reg, hr] using this

theorem keepsFst_mk {α : Type} {x : α} (h : Keeps s₀ s) : Keeps s₀ (s, x).1 := h

theorem keeps_foldl_mem {α : Type} {xs : List α} {f : State → α → State} (h : Keeps s₀ s)
    (hf : ∀ t x, x ∈ xs → Keeps s₀ t → Keeps s₀ (f t x)) : Keeps s₀ (xs.foldl f s) :=
  foldl_inv (Keeps s₀) xs f hf s h

theorem RegName.ne_of_free_of_not {r q : RegName} (hr : r.free = true) (hq : q.free = false) : q ≠ r := by
  rintro rfl
  rw [hr] at hq
  cases hq

theorem keeps_reset : Keeps s₀ State.reset := ⟨fun _ => ⟨rfl, rfl⟩, fun _ => rfl⟩

/-- The identification registers have RO fields alone. -/
theorem RegName.ro_of_not_free {r : RegName} (hr : ¬r.free = true) : ∀ x ∈ r.desc.fields, x.acc = .ro := by
  have h : r = .GLOBAL_ID ∨ r = .GLOBAL_PROTO := by
    simpa [RegName.free, or_iff_not_imp_left] using hr
  rcases h with rfl | rfl <;> decide

theorem foldl_eq_of_mem {α β : Type} {l : List α} {f : β → α → β} (b : β) (h : ∀ b x, x ∈ l → f b x = b) : l.foldl f b = b := by
  induction l with
  | nil => rfl
  | cons a l ih => rw [List.foldl_cons, h b a (by simp), ih fun b x hx => h b x (List.mem_cons_of_mem a hx)]

/-- A write leaves the word of an identification register as it is. -/
theorem putFields_of_not_free {r : RegName} (hr : ¬r.free = true) (a : Agent) (i j v : Nat) (lo32 hi32 : Bool) :
    s.putFields a r i j v lo32 hi32 = s.reg r i j := by
  refine foldl_eq_of_mem _ fun w x hx => ?_
  simp only [RegName.ro_of_not_free hr x hx, ite_self]

theorem tget_tdropWhere_other {α : Type} {d : α} {p : Nat → Bool} {t : Tbl α} {k : Nat} (h : p k = false) :
    tget d (tdropWhere p t) k = tget d t k := by
  induction t with
  | nil => rfl
  | cons e t ih =>
    obtain ⟨j, v⟩ := e
    simp only [tdropWhere, List.filter_cons] at ih ⊢
    by_cases hj : p j = true
    · have hjk : j ≠ k := by rintro rfl; simp [h] at hj
      simp [hj, tget, hjk, ih]
    · simp [hj, tget, ih]

/-- No histogram bin is an identification register. -/
theorem isBin_regKey {r : RegName} (hr : r.free = false) : isBin (regKey r 0 0) = false := by
  have h : r = .GLOBAL_ID ∨ r = .GLOBAL_PROTO := by
    simpa [RegName.free, or_iff_not_imp_left] using hr
  rcases h with rfl | rfl <;> decide

theorem tget_foldl_tset_other {α : Type} [DecidableEq α] {d e : α} {l t : Tbl α} {k : Nat} (h : ∀ x ∈ l, x.1 ≠ k) :
    tget d (l.foldl (fun t x => tset e t x.1 x.2) t) k = tget d t k := by
  induction l generalizing t with
  | nil => rfl
  | cons x l ih =>
    rw [List.foldl_cons, ih fun y hy => h y (List.mem_cons_of_mem x hy), tget_tset_other _ _ _ _ (h x (by simp)).symm]

theorem shadowed_free {x : RegName × RegName} (hx : x ∈ shadowed) : x.2.free = true := by
  revert x
  decide

theorem keepsSnd_mk {α : Type} {x : α} (h : Keeps s₀ s) : Keeps s₀ (x, s).2 := h

/-- A register that returns to its reset value keeps an identification register's value, which is that. -/
theorem Keeps.of_tdel (h : Keeps s₀ s) {k : Nat} (hr : t.regs = tdel s.regs k) (hm : t.mem = s.mem) : Keeps s₀ t := by
  have hval {r : RegName} (hi : s.reg r = r.reset 0 0) : t.reg r = r.reset 0 0 := by
    unfold State.reg at hi ⊢
    rw [hr]
    by_cases hk : regKey r 0 0 = k
    · rw [hk, tget_tdel_same]
    · rw [tget_tdel_other _ _ hk, hi]
  exact ⟨fun hc => ⟨hval (h.ident hc).1, hval (h.ident hc).2⟩, fun hc => hm ▸ h.form hc⟩

theorem laneReg_free {wr : Bool} : (laneReg wr).free = true := by cases wr <;> rfl

theorem selReg_free {u : Nat} : (selReg u).free = true := by unfold selReg; split <;> rfl

theorem cntReg_free {u : Nat} : (cntReg u).free = true := by unfold cntReg; split <;> rfl

theorem cycleReg_free {u : Nat} : (cycleReg u).free = true := by unfold cycleReg; split <;> rfl

/-! ### `Sys2Proof/Machine/Ops.lean` -/

theorem keeps_setReg {r : RegName} {i j : Nat} {v : W64} (hs : Keeps s₀ s) (hr : r.free = true := by rfl) :
    Keeps s₀ (s.setReg r i j v) := by
  refine hs.of_regs (fun q hq => ?_) rfl
  rw [State.reg_eq, setReg_regs, regIn_putIn_other _ (RegName.ne_of_free_of_not hr hq), State.reg_eq]

theorem keeps_wr {f : Fld} {v i j : Nat} (hs : Keeps s₀ s) (hr : f.reg.free = true := by rfl) : Keeps s₀ (s.wr f v i j) :=
  keeps_setReg hs hr

theorem keeps_incSat {f : Fld} {i j n : Nat} (hs : Keeps s₀ s) (hr : f.reg.free = true := by rfl) : Keeps s₀ (s.incSat f i j n) :=
  keeps_wr hs hr

theorem keeps_incWrap {f : Fld} {i j n : Nat} (hs : Keeps s₀ s) (hr : f.reg.free = true := by rfl) : Keeps s₀ (s.incWrap f i j n) :=
  keeps_wr hs hr

theorem keeps_setMap {f : Fld} {b : Nat} {v : Bool} {i j : Nat} (hs : Keeps s₀ s) (hr : f.reg.free = true := by rfl) :
    Keeps s₀ (s.setMap f b v i j) :=
  keeps_wr hs hr

theorem keeps_setEvents {f : Fld} {v i j : Nat} (hs : Keeps s₀ s) : Keeps s₀ (s.setEvents f v i j) := keeps_mk hs

theorem keeps_raise {f : Fld} {i j : Nat} (hs : Keeps s₀ s) (hr : f.reg.free = true := by rfl) : Keeps s₀ (s.raise f i j) :=
  keeps_setEvents (keeps_wr hs hr)

theorem keeps_raiseBit {f : Fld} {b i j : Nat} (hs : Keeps s₀ s) (hr : f.reg.free = true := by rfl) : Keeps s₀ (s.raiseBit f b i j) :=
  keeps_setEvents (keeps_setMap hs hr)

theorem keeps_incRc {f : Fld} {i j n : Nat} (hs : Keeps s₀ s) (hr : f.reg.free = true := by rfl) : Keeps s₀ (s.incRc f i j n) :=
  keeps_setEvents (keeps_incSat hs hr)

theorem keeps_maxRc {f : Fld} {v i j : Nat} (hs : Keeps s₀ s) (hr : f.reg.free = true := by rfl) : Keeps s₀ (s.maxRc f v i j) :=
  keeps_setEvents (keeps_wr hs hr)

theorem keeps_ack {f : Fld} {i j : Nat} (hs : Keeps s₀ s) (hr : f.reg.free = true := by rfl) : Keeps s₀ (s.ack f i j) :=
  keeps_onlyIf (keeps_wr hs hr) hs

theorem keeps_clearReg {r : RegName} {i j : Nat} (hs : Keeps s₀ s) : Keeps s₀ (s.clearReg r i j) := hs.of_tdel rfl rfl

theorem keeps_send {o : Output} (hs : Keeps s₀ s) : Keeps s₀ (s.send o) := keeps_mk hs

theorem keeps_fresh (hs : Keeps s₀ s) : Keeps s₀ s.fresh.2 := keeps_mk hs

theorem keeps_draw (hs : Keeps s₀ s) : Keeps s₀ s.draw.2 := keeps_mk hs

theorem keeps_pmu {r : RegName} {i j n : Nat} (hs : Keeps s₀ s) (hr : r.free = true := by rfl) : Keeps s₀ (s.pmu r i j n) :=
  keeps_ite hs (keeps_setReg hs hr)

theorem keeps_pmuPc {k p e n : Nat} (hs : Keeps s₀ s) : Keeps s₀ (s.pmuPc k p e n) := keeps_pmu hs

theorem keeps_pmuAes {k p e n : Nat} (hs : Keeps s₀ s) : Keeps s₀ (s.pmuAes k p e n) := keeps_pmu hs

theorem keeps_pmuArb {k r e n : Nat} (hs : Keeps s₀ s) : Keeps s₀ (s.pmuArb k r e n) := keeps_pmu hs

theorem keeps_evt {unit e ctx : Nat} (hs : Keeps s₀ s) : Keeps s₀ (s.evt unit e ctx) := keeps_mk hs

theorem keeps_pmuCtx {j c i n : Nat} (hs : Keeps s₀ s) : Keeps s₀ (s.pmuCtx j c i n) := keeps_pmu hs

theorem keeps_record {e : ErrRec} (hs : Keeps s₀ s) : Keeps s₀ (s.record e) := by
  unfold State.record
  extract_lets _ _ _ _ _ s1 s2 s3
  have hs1 : Keeps s₀ s1 := keeps_wr hs
  have hs2 : Keeps s₀ s2 := keeps_incRc hs
  have hs3 : Keeps s₀ s3 := keeps_mk hs2
  refine keeps_ite (keeps_mk hs1) ?_
  refine keeps_ite ?_ hs3
  split
  · exact keeps_mk hs3
  · exact hs3

theorem keeps_audit {okind oid obj where_ old new : Nat} {detail : BitVec 256} (hs : Keeps s₀ s) :
    Keeps s₀ (s.audit okind oid obj where_ old new detail) :=
  keeps_mk hs

theorem keeps_orWait {c : Instr} {run : State → Res} (hs : Keeps s₀ s) (hrun : ∀ u, Keeps s₀ u → KeepsRes s₀ (run u)) :
    KeepsRes s₀ (s.orWait c run) := by
  unfold State.orWait
  refine keepsRes_ite (hrun _ hs) ?_
  split
  · rename_i t ht
    exact keepsRes_next (keeps_ite (keeps_mk (hrun _ (keeps_mk hs) t ht)) (keeps_mk hs))
  · exact keepsRes_fault
  · exact keepsRes_refused

theorem keeps_posyLeave {i : Nat} (hs : Keeps s₀ s) : Keeps s₀ (s.posyLeave i) := keeps_mk hs

theorem keeps_setPlot {o : Origin} {i : Nat} {p : Plot} (hs : Keeps s₀ s) : Keeps s₀ (s.setPlot o i p) := by
  unfold State.setPlot
  extract_lets _ s1
  have hs1 : Keeps s₀ s1 := keeps_onlyIf (keeps_posyLeave hs) hs
  exact keeps_audit (keeps_mk hs1)

theorem keeps_turnSlot {old new : Nat} (hs : Keeps s₀ s) : Keeps s₀ (s.turnSlot old new) := keeps_mk hs

theorem keeps_makeChange {i : Nat} {c : PlotChange} (hs : Keeps s₀ s) : Keeps s₀ (s.makeChange i c) := by
  unfold State.makeChange
  extract_lets
  split
  · exact keeps_onlyIf (keeps_setPlot hs) hs
  · exact keeps_onlyIf (keeps_setPlot hs) hs
  · exact keeps_onlyIf (keeps_setPlot hs) hs
  · exact keeps_onlyIf (keeps_setPlot hs) hs
  · exact keeps_onlyIf (keeps_setPlot (keeps_turnSlot hs)) hs

theorem keeps_change {i : Nat} {c : PlotChange} (hs : Keeps s₀ s) : Keeps s₀ (s.change i c) := keeps_ite (keeps_mk hs) (keeps_makeChange hs)

theorem keeps_changesDue (hs : Keeps s₀ s) : Keeps s₀ s.changesDue := keeps_foldl (keeps_mk hs) (fun _ _ h1 => keeps_change h1)

theorem keeps_putLine {l : Loc} {plot pa : Nat} {v : Line} (hs : Keeps s₀ s) : Keeps s₀ (s.putLine l plot pa v) :=
  hs.of_mem rfl (rising_tset _ v l.key)

theorem keeps_zeroPlot {i : Nat} {f : Fill} (hs : Keeps s₀ s) : Keeps s₀ (s.zeroPlot i f) := hs.of_mem rfl (rising_tdropWhere _)

theorem keeps_zeroRings {fn : Nat} (hs : Keeps s₀ s) : Keeps s₀ (s.zeroRings fn) := hs.of_mem rfl (rising_tdropWhere _)

theorem keeps_blockWrite {pa : Nat} {d : LineData} (hs : Keeps s₀ s) : Keeps s₀ (s.blockWrite pa d) := by
  unfold State.blockWrite
  extract_lets
  split
  split
  exact keeps_ite hs (keeps_foldl hs (fun _ _ h1 => keeps_putLine h1))

theorem keeps_setPc {k p : Nat} {v : Pc} (hs : Keeps s₀ s) : Keeps s₀ (s.setPc k p v) := keeps_mk hs

theorem keeps_touch {k p : Nat} (hs : Keeps s₀ s) : Keeps s₀ (s.touch k p) := keeps_onlyIf (keeps_setPc hs) hs

theorem keeps_trkClear (hs : Keeps s₀ s) : Keeps s₀ s.trkClear := keeps_ite hs (keeps_mk hs)

theorem keeps_siteOff {k : Nat} (hs : Keeps s₀ s) : Keeps s₀ (s.siteOff k) := keeps_foldl hs (fun _ _ h1 => keeps_send (keeps_wr h1))

theorem keeps_syncFrz {k p : Nat} (hs : Keeps s₀ s) : Keeps s₀ (s.syncFrz k p) := keeps_setMap hs

theorem keeps_modFlight {id : Nat} {f : Flight → Flight} (hs : Keeps s₀ s) : Keeps s₀ (s.modFlight id f) := keeps_mk hs

theorem keeps_dropFlight {id : Nat} (hs : Keeps s₀ s) : Keeps s₀ (s.dropFlight id) := keeps_mk hs

theorem keeps_setCredit {k p : Nat} {c : Credit} (hs : Keeps s₀ s) : Keeps s₀ (s.setCredit k p c) := keeps_mk hs

/-! ### `Sys2Proof/Machine/Flags.lean` -/

theorem keeps_setAttn {v : Nat} {b : Bool} (hs : Keeps s₀ s) : Keeps s₀ (s.setAttn v b) := keeps_setMap hs

/-! ### `Sys2Proof/Machine/History.lean` -/

theorem keeps_setHist {u : HistUnit} (hs : Keeps s₀ s) : Keeps s₀ (s.setHist u) := keeps_mk hs

theorem keeps_commitHist (hs : Keeps s₀ s) : Keeps s₀ s.commitHist := keeps_mk hs

theorem keeps_beginMigration {k lpc reason : Nat} (hs : Keeps s₀ s) : Keeps s₀ (s.beginMigration k lpc reason) := by
  unfold State.beginMigration
  split
  · exact hs
  · rename_i t _ _
    extract_lets s1 s2 _ s3
    have hs2 : Keeps s₀ s2 := keeps_wr (keeps_setMap (keeps_wr (keeps_wr (keeps_wr (keeps_wr hs)))))
    exact keeps_commitHist (hs2.of_mem rfl (rising_tdropWhere fun n => (Loc.ofKey n).k == k && (Loc.ofKey n).pc == t))

theorem keeps_startWanted {k : Nat} (hs : Keeps s₀ s) : Keeps s₀ (s.startWanted k) := by
  unfold State.startWanted
  refine keeps_ite hs ?_
  split
  · exact hs
  · extract_lets s1
    have hs1 : Keeps s₀ s1 := keeps_mk hs
    split
    · exact hs1
    · exact keeps_beginMigration hs1

theorem keeps_markPermanent {u : HistUnit} {sub d : Nat} {rec_ : Bool} (hs : Keeps s₀ s) : Keeps s₀ (s.markPermanent u sub d rec_) := by
  unfold State.markPermanent
  extract_lets _ s1 s2
  have hs1 : Keeps s₀ s1 := keeps_record hs
  have hs2 : Keeps s₀ s2 := keeps_commitHist (keeps_setHist hs1)
  exact keeps_ite (keeps_startWanted (keeps_mk hs2)) hs2

theorem keeps_event1 {cls cluster a b d : Nat} {rec_ : Bool} (hs : Keeps s₀ s) : Keeps s₀ (s.event1 cls cluster a b d rec_) := by
  unfold State.event1
  extract_lets _ _ s1
  have hs1 : Keeps s₀ s1 := keeps_setHist hs
  exact keeps_ite hs (keeps_ite (keeps_mk hs) (keeps_ite (keeps_markPermanent hs1) hs1))

theorem keeps_rowPermanent {u : HistUnit} {sub : Nat} {rec_ : Bool} (hs : Keeps s₀ s) : Keeps s₀ (s.rowPermanent u sub rec_) := by
  unfold State.rowPermanent
  extract_lets _ s1 s2
  have hs1 : Keeps s₀ s1 := keeps_markPermanent hs
  have hs2 : Keeps s₀ s2 := keeps_event1 hs1
  exact keeps_ite (keeps_markPermanent hs2) hs2

theorem keeps_judge {u : HistUnit} {sub : Nat} (hs : Keeps s₀ s) : Keeps s₀ (s.judge u sub) :=
  keeps_ite (keeps_rowPermanent hs) (keeps_markPermanent hs)

theorem keeps_event {cls cluster a b : Nat} (hs : Keeps s₀ s) : Keeps s₀ (s.event cls cluster a b) := by
  unfold State.event
  extract_lets _ _ s1
  have hs1 : Keeps s₀ s1 := keeps_setHist hs
  exact keeps_ite (keeps_event1 hs) (keeps_ite hs (keeps_ite (keeps_mk hs) (keeps_ite (keeps_rowPermanent hs1) hs1)))

theorem keeps_retirePc {k p lpc : Nat} {drain : Bool} {d : Nat} (hs : Keeps s₀ s) : Keeps s₀ (s.retirePc k p lpc drain d) := by
  unfold State.retirePc
  extract_lets _ _ s1 s2 s3 s4 _ s5
  have hs1 : Keeps s₀ s1 := keeps_setPc hs
  have hs2 : Keeps s₀ s2 := keeps_onlyIf (keeps_pmuPc (keeps_incRc hs1)) hs1
  have hs3 : Keeps s₀ s3 := keeps_setMap (keeps_setMap hs2)
  have hs4 : Keeps s₀ s4 := keeps_syncFrz hs3
  have hs5 : Keeps s₀ s5 := keeps_mk hs4
  exact keeps_commitHist (keeps_record hs5)

theorem keeps_retirePlots {k : Nat} (hs : Keeps s₀ s) : Keeps s₀ (s.retirePlots k) := keeps_foldl hs (fun _ _ h1 => keeps_change h1)

theorem keeps_loseBacking {k lpc : Nat} (hs : Keeps s₀ s) : Keeps s₀ (s.loseBacking k lpc) := by
  unfold State.loseBacking
  extract_lets s1
  have hs1 : Keeps s₀ s1 := keeps_wr (keeps_retirePlots hs)
  exact keeps_mk hs1

/-! ### `Sys2Proof/Machine/Traffic.lean` -/

theorem keeps_setTokens {v : Nat} {x : Bkt} (hs : Keeps s₀ s) : Keeps s₀ (s.setTokens v x) := by
  unfold State.setTokens
  split <;> exact keeps_wr hs

theorem keeps_debit {bs : List Bkt} {n : Nat} (hs : Keeps s₀ s) : Keeps s₀ (s.debit bs n) :=
  keeps_foldl hs (fun _ _ h1 => keeps_setTokens h1)

theorem keeps_refill {b : Bkt} (hs : Keeps s₀ s) : Keeps s₀ (s.refill b) := keeps_onlyIf (keeps_setTokens hs) hs

theorem keeps_refillDue (hs : Keeps s₀ s) : Keeps s₀ s.refillDue := by
  unfold State.refillDue
  extract_lets s1
  have hs1 : Keeps s₀ s1 := keeps_foldl hs (fun _ _ h1 => keeps_refill h1)
  exact keeps_ite (keeps_mk hs1) hs

theorem keeps_cutBursts (hs : Keeps s₀ s) : Keeps s₀ s.cutBursts := by
  unfold State.cutBursts
  extract_lets s1
  have hs1 : Keeps s₀ s1 := by
    unfold s1
    refine keeps_foldl hs (fun _ _ h1 => ?_)
    extract_lets
    exact keeps_setTokens h1
  exact keeps_mk hs1

theorem keeps_countDrop {tenant req : Nat} (hs : Keeps s₀ s) : Keeps s₀ (s.countDrop tenant req) := keeps_incRc (keeps_incRc hs)

theorem keeps_recalcLatok (hs : Keeps s₀ s) : Keeps s₀ s.recalcLatok := keeps_wr hs

theorem keeps_applyCalendar {c : Calendar} (hs : Keeps s₀ s) : Keeps s₀ (s.applyCalendar c) := by
  unfold State.applyCalendar
  extract_lets s1 s2 s3
  have hs1 : Keeps s₀ s1 := keeps_foldl hs (fun _ _ h1 => keeps_setReg h1)
  have hs2 : Keeps s₀ s2 := keeps_wr (keeps_wr hs1)
  have hs3 : Keeps s₀ s3 := keeps_wr hs2
  exact keeps_mk hs3

theorem keeps_takeGroups (hs : Keeps s₀ s) : Keeps s₀ s.takeGroups := keeps_mk hs

theorem keeps_gateBegins (hs : Keeps s₀ s) : Keeps s₀ s.gateBegins := by
  unfold State.gateBegins
  extract_lets s1 s2 s3 s4 s5
  have hs1 : Keeps s₀ s1 := keeps_ite hs (keeps_mk hs)
  have hs2 : Keeps s₀ s2 := keeps_recalcLatok hs1
  have hs3 : Keeps s₀ s3 := keeps_ite (keeps_mk hs2) hs1
  have hs4 : Keeps s₀ s4 := keeps_wr (keeps_takeGroups hs3)
  have hs5 : Keeps s₀ s5 := keeps_mk hs4
  refine keeps_ite hs3 ?_
  split
  · exact keeps_applyCalendar hs5
  · exact hs5

theorem keeps_execBucketRefill (hs : Keeps s₀ s) : KeepsRes s₀ (execBucketRefill s) := keepsRes_next (keeps_refillDue hs)

theorem keeps_setBCtl {v : Nat} {x : Bkt} (hs : Keeps s₀ s) : Keeps s₀ (s.setBCtl v x) := by
  unfold State.setBCtl
  split <;> exact keeps_setReg hs

theorem keeps_setBBurst {v : Nat} {x : Bkt} (hs : Keeps s₀ s) : Keeps s₀ (s.setBBurst v x) := by
  unfold State.setBBurst
  split <;> exact keeps_wr hs

theorem keeps_takeCredit {k p : Nat} {m : Msg} (hs : Keeps s₀ s) : Keeps s₀ (s.takeCredit k p m) := keeps_ite hs (keeps_setCredit hs)

theorem keeps_giveCredit {f : Flight} (hs : Keeps s₀ s) : Keeps s₀ (s.giveCredit f) := keeps_ite hs (keeps_setCredit hs)

theorem keeps_refund {bs : List Bkt} {n : Nat} (hs : Keeps s₀ s) : Keeps s₀ (s.refund bs n) :=
  keeps_foldl hs (fun _ _ h1 => keeps_setTokens h1)

theorem keeps_judgeAgain {b : Bkt} {f : Flight} (hs : Keeps s₀ s) : Keeps s₀ (s.judgeAgain b f) := by
  unfold State.judgeAgain
  extract_lets _ _ _ _ _ _ s1 s2 s3 s4
  have hs1 : Keeps s₀ s1 := keeps_refund hs
  have hs2 : Keeps s₀ s2 := keeps_ite (keeps_onlyIf (keeps_mk (keeps_refund hs1)) (keeps_refund hs1)) hs1
  have hs3 : Keeps s₀ s3 := keeps_mk hs2
  have hs4 : Keeps s₀ s4 := keeps_mk hs3
  exact keeps_ite (keeps_modFlight (keeps_debit hs)) (keeps_ite (keeps_modFlight (keeps_onlyIf (keeps_mk (keeps_refund hs)) (keeps_refund
      hs))) (keeps_countDrop (keeps_giveCredit hs4)))

theorem keeps_execTrfBucketWrite {off : Nat} {v : W32} (hs : Keeps s₀ s) : KeepsRes s₀ (execTrfBucketWrite off v s) := by
  unfold execTrfBucketWrite
  extract_lets
  refine keeps_orWait hs (fun _ h1 => ?_)
  split
  · exact keepsRes_next h1
  · extract_lets _ _ _ _ s1
    have hs1 : Keeps s₀ s1 := by
      unfold s1
      split
      · exact keeps_onlyIf (keeps_mk (keeps_ite (keeps_setBCtl (keeps_refillDue h1)) (keeps_foldl (keeps_setTokens (keeps_setBCtl
          (keeps_refillDue h1))) (fun _ _ h2 => keeps_judgeAgain h2)))) (keeps_ite (keeps_setBCtl (keeps_refillDue h1)) (keeps_foldl
          (keeps_setTokens (keeps_setBCtl (keeps_refillDue h1))) (fun _ _ h3 => keeps_judgeAgain h3)))
      · exact keeps_ite (keeps_setBCtl (keeps_refillDue h1)) (keeps_foldl (keeps_setTokens (keeps_setBCtl (keeps_refillDue h1))) (fun _ _ h4
          => keeps_judgeAgain h4))
      · exact keeps_ite (keeps_setBCtl (keeps_refillDue h1)) (keeps_foldl (keeps_setTokens (keeps_setBCtl (keeps_refillDue h1))) (fun _ _ h5
          => keeps_judgeAgain h5))
    exact keepsRes_ite (keepsRes_next h1) (keepsRes_next (keeps_onlyIf (keeps_audit hs1) hs1))
  · extract_lets _ s2 s3
    have hs2 : Keeps s₀ s2 := keeps_setBBurst (keeps_refillDue h1)
    have hs3 : Keeps s₀ s3 := keeps_mk hs2
    exact keepsRes_ite (keepsRes_next h1) (keepsRes_ite (keepsRes_next h1) (keepsRes_next (keeps_onlyIf (keeps_audit hs3) hs3)))

theorem keeps_execGateSlotBoundary (hs : Keeps s₀ s) : KeepsRes s₀ (execGateSlotBoundary s) :=
  keepsRes_next (keeps_onlyIf (keeps_wr (keeps_wr (keeps_takeGroups hs))) hs)

theorem keeps_execGuardBandStart (hs : Keeps s₀ s) : KeepsRes s₀ (execGuardBandStart s) := keepsRes_next (keeps_onlyIf (keeps_wr hs) hs)

theorem keeps_execGateCommit (hs : Keeps s₀ s) : KeepsRes s₀ (execGateCommit s) := by
  unfold execGateCommit
  refine keeps_orWait hs (fun _ h1 => ?_)
  extract_lets s1
  have hs1 : Keeps s₀ s1 := keeps_wr h1
  exact keepsRes_ite (keepsRes_next h1) (keepsRes_ite (keepsRes_next (keeps_raise h1)) (keepsRes_ite (keepsRes_next (keeps_audit (keeps_mk
      hs1))) (keepsRes_next (keeps_audit (keeps_applyCalendar h1)))))

theorem keeps_execGateCommitApply (hs : Keeps s₀ s) : KeepsRes s₀ (execGateCommitApply s) := by
  unfold execGateCommitApply
  split
  · exact keepsRes_next hs
  · exact keepsRes_ite (keepsRes_next hs) (keepsRes_ite (keepsRes_next (keeps_mk hs)) (keepsRes_next (keeps_wr (keeps_wr
      (keeps_applyCalendar hs)))))

theorem keeps_execGateEnable (hs : Keeps s₀ s) : KeepsRes s₀ (execGateEnable s) :=
  keeps_orWait hs (fun _ h1 => keepsRes_ite (keepsRes_next h1) (keepsRes_ite (keepsRes_next (keeps_raise h1)) (keepsRes_next (keeps_audit
      (keeps_wr (keeps_wr h1))))))

theorem keeps_execGateStart (hs : Keeps s₀ s) : KeepsRes s₀ (execGateStart s) := by
  unfold execGateStart
  extract_lets s1
  have hs1 : Keeps s₀ s1 := keeps_takeGroups hs
  exact keepsRes_next (keeps_onlyIf (keeps_wr (keeps_mk hs1)) hs)

theorem keeps_execGateDisable (hs : Keeps s₀ s) : KeepsRes s₀ (execGateDisable s) := by
  unfold execGateDisable
  refine keeps_orWait hs (fun _ h1 => ?_)
  extract_lets s1
  have hs1 : Keeps s₀ s1 := keeps_wr h1
  exact keepsRes_ite (keepsRes_next (keeps_audit (keeps_mk hs1))) (keepsRes_next h1)

theorem keeps_execHistSample (hs : Keeps s₀ s) : KeepsRes s₀ (execHistSample s) := by
  unfold execHistSample
  refine keepsRes_next (keeps_onlyIf ?_ hs)
  refine keeps_foldl (keeps_mk hs) (fun _ _ h1 => ?_)
  extract_lets _ _ q s1
  have hs1 : Keeps s₀ s1 := keeps_incRc h1
  cases q with
  | nil => exact hs1
  | cons => exact keeps_incRc hs1

theorem keeps_execHistClear (hs : Keeps s₀ s) : KeepsRes s₀ (execHistClear s) := by
  unfold execHistClear
  refine keeps_orWait hs (fun _ h1 => ?_)
  extract_lets
  exact keepsRes_ite (keepsRes_next h1) (keepsRes_next (keeps_audit (keeps_mk h1)))

theorem keeps_clearBins (hs : Keeps s₀ s) : Keeps s₀ s.clearBins := by
  unfold State.clearBins
  extract_lets now
  refine keeps_ite (hs.of_regs (fun r hr => ?_) rfl) hs
  have hk := isBin_regKey hr
  refine (tget_foldl_tset_other fun x hx e => ?_).trans (tget_tdropWhere_other hk)
  rw [← e, (List.mem_filter.1 hx).2] at hk
  cases hk

/-! ### `Sys2Proof/Machine/Fabric.lean` -/

theorem keeps_addFlight {f : Flight} (hs : Keeps s₀ s) : Keeps s₀ (s.addFlight f) := keeps_mk hs

theorem keeps_answer {f : Flight} {result detail : Nat} (hs : Keeps s₀ s) : Keeps s₀ (s.answer f result detail) := keeps_addFlight hs

theorem keeps_police {f : Flight} (hs : Keeps s₀ s) : Keeps s₀ (s.police f) := by
  unfold State.police
  extract_lets s1 _ _ _ thr s2 s3
  have hs1 : Keeps s₀ s1 := keeps_trkClear (keeps_refillDue hs)
  have hs2 : Keeps s₀ s2 := keeps_debit hs1
  have hs3 : Keeps s₀ s3 := by
    unfold s3
    cases thr with
    | none => exact hs2
    | some t => exact keeps_mk hs2
  exact keeps_ite (keeps_addFlight hs) (keeps_ite (keeps_answer (keeps_countDrop hs1)) (keeps_ite (keeps_answer (keeps_incRc
      (keeps_countDrop hs1))) (keeps_addFlight hs3)))

theorem keeps_markMirror {why : Purpose} {h : Header} (hs : Keeps s₀ s) : Keeps s₀ (s.markMirror why h) := by
  unfold State.markMirror
  split
  · exact keeps_wr hs
  · exact hs

theorem keeps_accept {k req fn : Nat} {tenant : Option Nat} {why : Purpose} {m : Msg} (hs : Keeps s₀ s) :
    Keeps s₀ (s.accept k req fn tenant why m) := by
  unfold State.accept
  extract_lets
  split
  · extract_lets s1
    have hs1 : Keeps s₀ s1 := keeps_onlyIf (keeps_incRc hs) hs
    exact keeps_answer hs1
  · split
    · exact keeps_answer hs
    · extract_lets _ s2
      have hs2 : Keeps s₀ s2 := keeps_police hs
      refine keeps_ite (keeps_answer (keeps_wr (keeps_incRc hs))) ?_
      split
      · exact keeps_ite hs2 (keeps_takeCredit (keeps_markMirror hs2))
      · exact hs2

theorem keeps_arrive {k req fn : Nat} {why : Purpose} {m : Msg} {stale : Bool} (hs : Keeps s₀ s) :
    Keeps s₀ (s.arrive k req fn why m stale) :=
  keeps_ite hs (keeps_ite (keeps_incRc hs) (keeps_ite (keeps_incRc hs) (keeps_ite (keeps_answer hs) (keeps_accept hs))))

theorem keeps_fabricRow {op k p f : Nat} {m : Msg} (hs : Keeps s₀ s) : KeepsRes s₀ (fabricRow op k p f m s) :=
  keepsRes_next (keeps_onlyIf (keeps_arrive hs) hs)

theorem keeps_execRd {k : Cluster} {p : Fin 25} {f : FnIx} {m : Msg} (hs : Keeps s₀ s) : KeepsRes s₀ (execRd k p f m s) :=
  keeps_fabricRow hs

theorem keeps_execWr {k : Cluster} {p : Fin 25} {f : FnIx} {m : Msg} (hs : Keeps s₀ s) : KeepsRes s₀ (execWr k p f m s) :=
  keeps_fabricRow hs

theorem keeps_execWrp {k : Cluster} {p : Fin 25} {f : FnIx} {m : Msg} (hs : Keeps s₀ s) : KeepsRes s₀ (execWrp k p f m s) :=
  keeps_fabricRow hs

theorem keeps_execAadd {k : Cluster} {p : Fin 25} {f : FnIx} {m : Msg} (hs : Keeps s₀ s) : KeepsRes s₀ (execAadd k p f m s) :=
  keeps_fabricRow hs

theorem keeps_execAcas {k : Cluster} {p : Fin 25} {f : FnIx} {m : Msg} (hs : Keeps s₀ s) : KeepsRes s₀ (execAcas k p f m s) :=
  keeps_fabricRow hs

theorem keeps_execContrib {k : Cluster} {p : Fin 25} {f : FnIx} {m : Msg} (hs : Keeps s₀ s) : KeepsRes s₀ (execContrib k p f m s) :=
  keeps_fabricRow hs

theorem keeps_execLkacq {k : Cluster} {p : Fin 25} {f : FnIx} {m : Msg} (hs : Keeps s₀ s) : KeepsRes s₀ (execLkacq k p f m s) :=
  keeps_fabricRow hs

theorem keeps_execLkrel {k : Cluster} {p : Fin 25} {f : FnIx} {m : Msg} (hs : Keeps s₀ s) : KeepsRes s₀ (execLkrel k p f m s) :=
  keeps_fabricRow hs

theorem keeps_execStamp {k : Cluster} {p : Fin 25} {f : FnIx} {m : Msg} (hs : Keeps s₀ s) : KeepsRes s₀ (execStamp k p f m s) :=
  keeps_fabricRow hs

theorem keeps_execUnknownOpcodeRequest {k : Cluster} {p : Fin 25} {f : FnIx} {m : Msg} (hs : Keeps s₀ s) :
    KeepsRes s₀ (execUnknownOpcodeRequest k p f m s) :=
  keepsRes_next (keeps_onlyIf (keeps_arrive hs) hs)

theorem keeps_execIngressRelease {k : Cluster} {req : Fin 40} {cls : Fin 4} (hs : Keeps s₀ s) :
    KeepsRes s₀ (execIngressRelease k req cls s) := by
  unfold execIngressRelease
  extract_lets s1
  have hs1 : Keeps s₀ s1 := keeps_refillDue hs
  split
  · exact keepsRes_next hs
  · extract_lets _ _ s2
    have hs2 : Keeps s₀ s2 := keeps_debit hs1
    exact keepsRes_next (keeps_onlyIf (keeps_modFlight (keeps_mk hs2)) hs1)

theorem keeps_withdraw {f : Flight} {result : Nat} (hs : Keeps s₀ s) : Keeps s₀ (s.withdraw f result) :=
  keeps_modFlight (keeps_giveCredit hs)

theorem keeps_execRequestTimeout {id : Nat} (hs : Keeps s₀ s) : KeepsRes s₀ (execRequestTimeout id s) := by
  unfold execRequestTimeout
  split
  · exact keepsRes_next hs
  · exact keepsRes_next (keeps_onlyIf (keeps_incRc (keeps_withdraw hs)) hs)

theorem keeps_breakOwned {p : Nat} (hs : Keeps s₀ s) : Keeps s₀ (s.breakOwned p) := keeps_mk hs

theorem keeps_linkDown {p : Nat} (hs : Keeps s₀ s) : Keeps s₀ (s.linkDown p) := by
  unfold State.linkDown
  extract_lets s1 s2
  have hs1 : Keeps s₀ s1 := keeps_incRc (keeps_wr hs)
  have hs2 : Keeps s₀ s2 := keeps_mk hs1
  exact keeps_breakOwned (keeps_foldl hs2 (fun _ _ h1 => keeps_setCredit h1))

theorem keeps_setEff {p : Nat} {d : W64} (hs : Keeps s₀ s) : Keeps s₀ (s.setEff p d) :=
  keeps_ite (keeps_clearReg hs) (keeps_wr (keeps_wr (keeps_wr (keeps_wr (keeps_wr hs)))))

theorem keeps_grantCredits {p : Nat} (hs : Keeps s₀ s) : Keeps s₀ (s.grantCredits p) := by
  unfold State.grantCredits
  refine keeps_foldl hs (fun _ _ h1 => ?_)
  extract_lets
  exact keeps_setCredit h1

theorem keeps_linkUp {p : Nat} {d : W64} (hs : Keeps s₀ s) : Keeps s₀ (s.linkUp p d) := by
  unfold State.linkUp
  extract_lets s1 s2
  have hs1 : Keeps s₀ s1 := keeps_incWrap (keeps_wr hs)
  have hs2 : Keeps s₀ s2 := keeps_setEff (keeps_setReg hs1)
  exact keeps_onlyIf (keeps_grantCredits hs2) hs2

theorem keeps_execLinkRetryReport {p : PortIx} (hs : Keeps s₀ s) : KeepsRes s₀ (execLinkRetryReport p s) := keepsRes_next (keeps_incRc hs)

theorem keeps_syncLocks {k : Nat} (hs : Keeps s₀ s) : Keeps s₀ (s.syncLocks k) := keeps_wr hs

theorem keeps_breakLock {l : Lock} (hs : Keeps s₀ s) : Keeps s₀ (s.breakLock l) := keeps_incRc (keeps_mk hs)

theorem keeps_lockStep {f : Flight} (hs : Keeps s₀ s) : Keeps s₀ (s.lockStep f).1 := by
  unfold State.lockStep
  extract_lets _ _ _ _ _ s1
  have hs1 : Keeps s₀ s1 := by
    unfold s1
    split
    · exact keeps_onlyIf (keeps_breakLock hs) hs
    · exact hs
  split
  · exact keepsFst_ite hs1 (keepsFst_ite (keeps_syncLocks (keeps_mk hs1)) hs1)
  · extract_lets
    exact keepsFst_ite (keepsFst_ite (keeps_mk hs1) hs1) (keepsFst_ite (keepsFst_ite (keeps_mk hs1) hs1) (keepsFst_ite (keeps_syncLocks
        (keeps_mk hs1)) hs1))

theorem keeps_execLockLeaseExpiry {k : Cluster} {plotScope : Bool} {name : Nat} (hs : Keeps s₀ s) :
    KeepsRes s₀ (execLockLeaseExpiry k plotScope name s) := by
  unfold execLockLeaseExpiry
  split
  · exact keepsRes_next hs
  · exact keepsRes_next (keeps_onlyIf (keeps_mk hs) hs)

theorem keeps_execLockBreak {k : Cluster} {plotScope : Bool} {name : Nat} (hs : Keeps s₀ s) :
    KeepsRes s₀ (execLockBreak k plotScope name s) := by
  unfold execLockBreak
  split
  · exact keepsRes_next hs
  · exact keepsRes_next (keeps_onlyIf (keeps_breakLock hs) hs)

theorem keeps_execFabricResponseCredit {k : Cluster} {p : PortIx} {n : Nat} (hs : Keeps s₀ s) :
    KeepsRes s₀ (execFabricResponseCredit k p n s) :=
  keepsRes_next (keeps_setCredit hs)

/-! ### `Sys2Proof/Machine/Tap.lean` -/

theorem keeps_modMir {f : Mir → Mir} (hs : Keeps s₀ s) : Keeps s₀ (s.modMir f) := keeps_mk hs

theorem keeps_frameOut {p kind win epoch owner blen : Nat} {o : Output} (hs : Keeps s₀ s) :
    Keeps s₀ (s.frameOut p kind win epoch owner blen o) := by
  unfold State.frameOut
  extract_lets
  exact keeps_modMir (keeps_send (keeps_send hs))

theorem keeps_sendFrame {p : Nat} {m : MirMsg} (hs : Keeps s₀ s) : Keeps s₀ (s.sendFrame p m) := by
  unfold State.sendFrame
  extract_lets
  refine keeps_onlyIf ?_ hs
  split <;> exact keeps_frameOut hs

theorem keeps_sendControl {m : MirMsg} (hs : Keeps s₀ s) : Keeps s₀ (s.sendControl m) := keeps_ite (keeps_sendFrame hs) (keeps_sendFrame hs)

theorem keeps_setWinState {w v : Nat} (hs : Keeps s₀ s) : Keeps s₀ (s.setWinState w v) := keeps_wr hs

theorem keeps_missTap {t : Nat} (hs : Keeps s₀ s) : Keeps s₀ (s.missTap t) := keeps_modMir hs

theorem keeps_diverge {w : Nat} (hs : Keeps s₀ s) : Keeps s₀ (s.diverge w) := by
  unfold State.diverge
  extract_lets _ s1
  have hs1 : Keeps s₀ s1 := keeps_foldl (keeps_setWinState hs) (fun _ _ h1 => keeps_missTap h1)
  exact keeps_ite hs (keeps_modMir hs1)

theorem keeps_pauseWins (hs : Keeps s₀ s) : Keeps s₀ s.pauseWins := by
  unfold State.pauseWins
  refine keeps_foldl hs (fun _ _ h1 => ?_)
  extract_lets
  exact keeps_ite (keeps_modMir (keeps_setWinState h1)) h1

theorem keeps_resumeWins (hs : Keeps s₀ s) : Keeps s₀ s.resumeWins := by
  unfold State.resumeWins
  refine keeps_foldl hs (fun _ _ h1 => ?_)
  extract_lets
  exact keeps_ite (keeps_modMir (keeps_setWinState h1)) h1

theorem keeps_sendMirror {q : MirWrite} (hs : Keeps s₀ s) : Keeps s₀ (s.sendMirror q) := by
  unfold State.sendMirror
  extract_lets
  split
  · exact hs
  · extract_lets _ _ s1
    have hs1 : Keeps s₀ s1 := keeps_modMir hs
    exact keeps_sendFrame hs1

theorem keeps_mirPump (hs : Keeps s₀ s) : Keeps s₀ s.mirPump := keeps_foldl hs (fun _ _ h1 => keeps_sendMirror h1)

theorem keeps_addMirror {k w pa owner : Nat} {lines : List LineData} {copy : Bool} {st : MirSt} (hs : Keeps s₀ s) :
    Keeps s₀ (s.addMirror k w pa owner lines copy st) :=
  keeps_foldl hs (fun _ _ h1 => keeps_modMir h1)

theorem keeps_tap {f : Flight} {lines : List LineData} (hs : Keeps s₀ s) : Keeps s₀ (s.tap f lines) := by
  unfold State.tap
  extract_lets
  refine keeps_ite hs ?_
  split
  · split
    · exact keeps_ite (keeps_addMirror hs) (keeps_missTap (keeps_diverge hs))
    · exact keeps_ite (keeps_addMirror hs) hs
  · split
    · exact hs
    · exact keeps_ite (keeps_addMirror hs) (keeps_missTap (keeps_diverge hs))

theorem keeps_syncDegraded (hs : Keeps s₀ s) : Keeps s₀ s.syncDegraded := keeps_setAttn hs

theorem keeps_mirWidths (hs : Keeps s₀ s) : Keeps s₀ s.mirWidths := keeps_ite hs (keeps_ite (keeps_pauseWins hs) (keeps_resumeWins hs))

theorem keeps_mirStart {p : Nat} (hs : Keeps s₀ s) : Keeps s₀ (s.mirStart p) := by
  unfold State.mirStart
  extract_lets _ s1
  have hs1 : Keeps s₀ s1 := keeps_linkUp (keeps_wr (keeps_wr hs))
  exact keeps_sendFrame hs1

theorem keeps_mirStop {p : Nat} (hs : Keeps s₀ s) : Keeps s₀ (s.mirStop p) :=
  keeps_onlyIf (keeps_syncDegraded (keeps_linkDown (keeps_wr (keeps_wr hs)))) hs

theorem keeps_execPortLinkUp {p : PortIx} {desc : W64} (hs : Keeps s₀ s) : KeepsRes s₀ (execPortLinkUp p desc s) := by
  unfold execPortLinkUp
  extract_lets _ _ _ s1
  have hs1 : Keeps s₀ s1 := keeps_modMir hs
  exact keepsRes_ite (keepsRes_next (keeps_onlyIf (keeps_linkUp hs) hs)) (keepsRes_ite (keepsRes_ite (keepsRes_next (keeps_onlyIf
      (keeps_mirPump (keeps_syncDegraded (keeps_mirWidths (keeps_sendFrame (keeps_wr (keeps_modMir hs)))))) hs)) (keepsRes_next
      (keeps_mirPump (keeps_syncDegraded (keeps_onlyIf (keeps_mirStart hs1) hs1))))) (keepsRes_next hs))

theorem keeps_execPortLinkDown {p : PortIx} (hs : Keeps s₀ s) : KeepsRes s₀ (execPortLinkDown p s) :=
  keepsRes_ite (keepsRes_next (keeps_mirStop (keeps_modMir hs))) (keepsRes_next (keeps_onlyIf (keeps_linkDown hs) hs))

/-! ### `Sys2Proof/Machine/Pc.lean` -/

theorem keeps_setSlice {k x : Nat} {v : Slice} (hs : Keeps s₀ s) : Keeps s₀ (s.setSlice k x v) := keeps_mk hs

theorem keeps_setLine {id i : Nat} {v : LineSt} (hs : Keeps s₀ s) : Keeps s₀ (s.setLine id i v) := keeps_modFlight hs

theorem keeps_finishIf {id d : Nat} (hs : Keeps s₀ s) : Keeps s₀ (s.finishIf id d) := by
  unfold State.finishIf
  split
  · exact hs
  · exact keeps_ite (keeps_modFlight hs) hs

theorem keeps_setQueues {k p : Nat} {v : Pc} (hs : Keeps s₀ s) : Keeps s₀ (s.setQueues k p v) := keeps_setPc hs

theorem keeps_enterRead {f : Flight} {i : Nat} {rmw : Bool} {lead : Nat} (hs : Keeps s₀ s) : Keeps s₀ (s.enterRead f i rmw lead) := by
  unfold State.enterRead
  extract_lets _ _ _ s1
  have hs1 : Keeps s₀ s1 := keeps_pmuPc (keeps_incRc hs)
  split
  · exact keeps_setPc hs
  · extract_lets
    exact keeps_ite (keeps_setPc hs) (keeps_ite (keeps_setPc hs1) (keeps_setLine (keeps_setPc hs1)))

theorem keeps_enterWrite {f : Flight} {pc i : Nat} {d : LineData} (hs : Keeps s₀ s) : Keeps s₀ (s.enterWrite f pc i d) := by
  unfold State.enterWrite
  extract_lets _ _ _ s1 _ _ _ s2
  have hs1 : Keeps s₀ s1 := keeps_pmuPc (keeps_incRc hs)
  have hs2 : Keeps s₀ s2 := keeps_setQueues hs
  split
  · extract_lets s3
    have hs3 : Keeps s₀ s3 := keeps_onlyIf (keeps_putLine hs1) hs1
    exact keeps_setQueues hs3
  · exact keeps_mk hs2

theorem keeps_enterRmw {f : Flight} {lead : Nat} (hs : Keeps s₀ s) : Keeps s₀ (s.enterRmw f lead) := by
  unfold State.enterRmw
  extract_lets s1 _ s2
  have hs1 : Keeps s₀ s1 := keeps_enterRead hs
  have hs2 : Keeps s₀ s2 := by
    unfold s2
    refine keeps_foldl hs1 (fun _ _ h1 => ?_)
    extract_lets _ _ _ _ _ s3
    have hs3 : Keeps s₀ s3 := keeps_setPc h1
    exact keeps_mk hs3
  exact keeps_setPc hs2

theorem keeps_await {f : Flight} {i : Nat} (hs : Keeps s₀ s) : Keeps s₀ (s.await f i) := by
  unfold State.await
  extract_lets _ _ _ s1
  have hs1 : Keeps s₀ s1 := keeps_setPc hs
  exact keeps_ite hs1 (keeps_foldl hs1 (fun _ _ h1 => keeps_setPc h1))

theorem keeps_unwait {f : Flight} {i : Nat} (hs : Keeps s₀ s) : Keeps s₀ (s.unwait f i) := by
  unfold State.unwait
  refine keeps_foldl hs (fun _ _ h1 => ?_)
  extract_lets
  exact keeps_setPc h1

theorem keeps_enterLine {f : Flight} {i lead : Nat} (hs : Keeps s₀ s) : Keeps s₀ (s.enterLine f i lead) :=
  keeps_ite (keeps_await hs) (keeps_ite (keeps_enterRead hs) (keeps_ite (keeps_setLine (keeps_foldl hs (fun _ _ h1 => keeps_enterWrite h1)))
      (keeps_enterRmw hs)))

theorem keeps_enterPc {f : Flight} (hs : Keeps s₀ s) : Keeps s₀ (s.enterPc f) := by
  unfold State.enterPc
  extract_lets _ _ _ _ s1
  have hs1 : Keeps s₀ s1 := keeps_ite (keeps_pmuPc hs) (keeps_ite (keeps_tap (keeps_pmuPc hs)) (keeps_pmuPc (keeps_pmuPc hs)))
  exact keeps_ite (keeps_finishIf (keeps_modFlight hs)) (keeps_finishIf (keeps_foldl hs1 (fun _ _ h1 => keeps_enterLine h1)))

theorem keeps_grant {k x : Nat} {f : Flight} (hs : Keeps s₀ s) : Keeps s₀ (s.grant k x f) := by
  unfold State.grant
  extract_lets _ s1 s2 s3 s4 s5 _ s6 _ s7 s8 _ s9
  have hs1 : Keeps s₀ s1 := keeps_ite hs (keeps_giveCredit hs)
  have hs2 : Keeps s₀ s2 := keeps_pmuArb (keeps_pmuArb (keeps_pmu hs1))
  have hs3 : Keeps s₀ s3 := keeps_onlyIf (keeps_pmuArb hs2) hs2
  have hs4 : Keeps s₀ s4 := keeps_onlyIf (keeps_pmuPc hs3) hs3
  have hs5 : Keeps s₀ s5 := keeps_onlyIf (keeps_pmuPc hs4) hs4
  have hs6 : Keeps s₀ s6 := keeps_onlyIf (keeps_maxRc hs5) hs5
  have hs7 : Keeps s₀ s7 := keeps_modFlight hs6
  have hs8 : Keeps s₀ s8 := keeps_mk hs7
  have hs9 : Keeps s₀ s9 := keeps_setPc hs8
  refine keeps_ite ?_ (keeps_ite hs8 (keeps_ite (keeps_modFlight hs9) (keeps_enterPc hs9)))
  split
  rename_i x1 _ _ _ x2
  have hx3 : Keeps s₀ x1 := Keeps.of_fst (keeps_lockStep hs8) x2
  exact keeps_modFlight hx3

theorem keeps_countWait {k r : Nat} (hs : Keeps s₀ s) : Keeps s₀ (s.countWait k r) := by
  unfold State.countWait
  extract_lets s1
  have hs1 : Keeps s₀ s1 := keeps_pmuArb (keeps_pmu hs)
  exact keeps_ite hs (keeps_mk hs1)

theorem keeps_crossbar {k x : Nat} (hs : Keeps s₀ s) : Keeps s₀ (s.crossbar k x) := by
  unfold State.crossbar
  extract_lets _ _ _ s1 _ _ s2
  have hs1 : Keeps s₀ s1 := keeps_onlyIf (keeps_setPc hs) hs
  have hs2 : Keeps s₀ s2 := keeps_mk hs1
  refine keeps_ite hs ?_
  split
  extract_lets s3 _ s4
  have hs3 : Keeps s₀ s3 := keeps_foldl hs2 (fun _ _ h1 => keeps_countWait h1)
  have hs4 : Keeps s₀ s4 := keeps_foldl hs3 (fun _ _ h2 => keeps_pmuArb h2)
  split
  · exact keeps_setSlice hs4
  · extract_lets _ _ _ _ s5 s6
    have hs5 : Keeps s₀ s5 := keeps_setSlice hs4
    have hs6 : Keeps s₀ s6 := keeps_onlyIf (keeps_pmuArb hs5) hs5
    exact keeps_grant hs6

theorem keeps_execCrossbarGrant {k : Cluster} {x : Fin 66} (hs : Keeps s₀ s) : KeepsRes s₀ (execCrossbarGrant k x s) :=
  keepsRes_ite (keepsRes_next (keeps_crossbar hs)) (keepsRes_next hs)

theorem keeps_startThrottle {k p sid b q : Nat} (hs : Keeps s₀ s) : Keeps s₀ (s.startThrottle k p sid b q).1 := by
  unfold State.startThrottle
  extract_lets s1 s2
  have hs1 : Keeps s₀ s1 := keeps_mk hs
  have hs2 : Keeps s₀ s2 := keeps_pmuPc (keeps_incRc hs1)
  exact keepsFst_ite hs (keepsFst_ite hs (keeps_wr (keeps_wr (keeps_wr (keeps_wr hs2)))))

theorem keeps_fallBack {k p sid b : Nat} {t : Bank} (hs : Keeps s₀ s) : Keeps s₀ (s.fallBack k p sid b t) := by
  unfold State.fallBack
  split
  exact keeps_setPc hs

theorem keeps_onAct {k p sid b row q : Nat} (hs : Keeps s₀ s) : Keeps s₀ (s.onAct k p sid b row q) := by
  unfold State.onAct
  extract_lets s1
  have hs1 : Keeps s₀ s1 := keeps_trkClear hs
  refine keeps_ite (keeps_fallBack hs1) ?_
  refine keeps_ite (keeps_fallBack (keeps_incRc hs1)) ?_
  split
  extract_lets _ _ _ s2
  have hs2 : Keeps s₀ s2 := keeps_setPc hs1
  exact keeps_ite (keeps_setPc hs1) (keeps_mk hs2)

theorem keeps_settleHit {h : RgHit} (hs : Keeps s₀ s) : Keeps s₀ (s.settleHit h) := by
  unfold State.settleHit
  extract_lets
  refine keeps_ite (keeps_fallBack hs) ?_
  split
  rename_i x1 _ x2
  have hx3 : Keeps s₀ x1 := Keeps.of_fst (keeps_startThrottle (keeps_setPc hs)) x2
  extract_lets
  exact keeps_ite hx3 (keeps_incRc (keeps_setPc hx3))

theorem keeps_settleHits (hs : Keeps s₀ s) : Keeps s₀ s.settleHits := by
  unfold State.settleHits
  extract_lets s1
  have hs1 : Keeps s₀ s1 := keeps_foldl hs (fun _ _ h1 => keeps_settleHit h1)
  exact keeps_mk hs1

theorem keeps_drainLine {w : WEnt} {bad : Bool} (hs : Keeps s₀ s) : Keeps s₀ (s.drainLine w bad) := by
  unfold State.drainLine
  extract_lets _ s1 s2 s3
  have hs1 : Keeps s₀ s1 := keeps_putLine hs
  have hs2 : Keeps s₀ s2 := keeps_pmuAes (keeps_pmuAes (keeps_pmuPc hs1))
  have hs3 : Keeps s₀ s3 := keeps_onlyIf (keeps_pmuAes hs2) hs2
  exact keeps_ite (keeps_incRc (keeps_record hs3)) hs3

theorem keeps_actAt {k pcn : Nat} {a : Access1} {t : Nat} (hs : Keeps s₀ s) : Keeps s₀ (s.actAt k pcn a t) := by
  unfold State.actAt
  extract_lets _ _ _ _ _ _ s1
  have hs1 : Keeps s₀ s1 := keeps_setPc hs
  exact keeps_pmuPc (keeps_pmuPc hs1)

theorem keeps_issueWrite {k pcn : Nat} {a : Access1} {t : Nat} {parity : List Nat} (hs : Keeps s₀ s) :
    Keeps s₀ (s.issueWrite k pcn a t parity) := by
  unfold State.issueWrite
  extract_lets _ _ s1
  have hs1 : Keeps s₀ s1 := keeps_foldl hs (fun _ _ h1 => keeps_drainLine h1)
  exact keeps_setQueues hs1

theorem keeps_issueRead {k pcn : Nat} {a : Access1} {t : Nat} (hs : Keeps s₀ s) : Keeps s₀ (s.issueRead k pcn a t) := by
  unfold State.issueRead
  extract_lets _ _ _ _ _ s1
  have hs1 : Keeps s₀ s1 := keeps_setQueues hs
  exact keeps_pmuPc (keeps_onlyIf (keeps_pmuPc hs1) hs1)

theorem keeps_execAccessIssue {k : Cluster} {pcn : PcIx} {parity : List Nat} (hs : Keeps s₀ s) :
    KeepsRes s₀ (execAccessIssue k pcn parity s) := by
  unfold execAccessIssue
  extract_lets _ _ _ _ s1
  have hs1 : Keeps s₀ s1 := keeps_onlyIf (keeps_pmuPc (keeps_setPc hs)) (keeps_setPc hs)
  refine keepsRes_ite (keepsRes_next hs1) ?_
  split
  · exact keepsRes_next hs1
  · extract_lets s2 s3
    have hs2 : Keeps s₀ s2 := keeps_actAt hs1
    have hs3 : Keeps s₀ s3 := keeps_ite (keeps_issueWrite hs2) (keeps_issueRead hs2)
    exact keepsRes_next (keeps_onAct hs3)

theorem keeps_decodeLine {l : Line} {e : ReadErr} (hs : Keeps s₀ s) : Keeps s₀ (s.decodeLine l e).2 := by
  unfold State.decodeLine
  extract_lets
  refine keepsSnd_ite hs ?_
  refine keepsSnd_ite hs ?_
  split
  rename_i x1 x2
  have hx3 : Keeps s₀ x1 := Keeps.of_snd (keeps_fresh hs) x2
  exact keepsSnd_ite hx3 hx3

theorem keeps_decodeTries {l : Line} {es : List ReadErr} {tries x : Nat} (hs : Keeps s₀ s) : Keeps s₀ (s.decodeTries l es tries x).2 := by
  induction x generalizing s es tries with
  | zero => exact keeps_decodeLine hs
  | succ n ih =>
    unfold State.decodeTries
    split
    · rename_i ht
      exact ih (Keeps.of_snd (keeps_decodeLine hs) ht)
    · rename_i ht
      exact Keeps.of_snd (keeps_decodeLine hs) ht

theorem keeps_poisonWrite {f : Flight} {l : Loc} {pa : Nat} (hs : Keeps s₀ s) : Keeps s₀ (s.poisonWrite f l pa) := by
  unfold State.poisonWrite
  extract_lets _ _ _ s1
  have hs1 : Keeps s₀ s1 := keeps_setQueues hs
  exact keeps_ite hs (keeps_mk hs1)

theorem keeps_lineRecord {f : Flight} {l : Loc} {pa sev cls origin syms result fmt : Nat} {detail : List Byte} (hs : Keeps s₀ s) :
    Keeps s₀ (s.lineRecord f l pa sev cls origin syms result fmt detail) := by
  unfold State.lineRecord
  exact keeps_record hs

theorem keeps_readLine {f : Flight} {l : Loc} {pa : Nat} {stored : Line} {origin tries : Nat} {e : ReadErr} (hs : Keeps s₀ s) :
    Keeps s₀ (s.readLine f l pa stored origin tries e).2 := by
  unfold State.readLine
  split
  · rename_i x1 x2
    have hx3 : Keeps s₀ x1 := Keeps.of_snd (keeps_decodeLine hs) x2
    extract_lets s1 s2 s3
    have hs1 : Keeps s₀ s1 := keeps_poisonWrite hx3
    have hs2 : Keeps s₀ s2 := keeps_pmuPc (keeps_incRc hs1)
    have hs3 : Keeps s₀ s3 := keeps_lineRecord hs2
    refine keepsSnd_ite hx3 ?_
    show Keeps s₀ (s3.event 0 l.k (rowKey l) l.row)
    exact keeps_event hs3
  · rename_i x4 x5
    have hx6 : Keeps s₀ x4 := Keeps.of_snd (keeps_decodeLine hs) x5
    extract_lets _ s4 _ s5 s6 s7 s8 s9 s10
    have hs4 : Keeps s₀ s4 := keeps_pmuAes (keeps_incRc hx6)
    have hs5 : Keeps s₀ s5 := keeps_onlyIf (keeps_pmuPc (keeps_incRc hx6)) hx6
    have hs6 : Keeps s₀ s6 := keeps_onlyIf (keeps_lineRecord hs5) hs5
    have hs7 : Keeps s₀ s7 := keeps_onlyIf (keeps_event (keeps_mk hs6)) hs6
    have hs8 : Keeps s₀ s8 := keeps_onlyIf (keeps_lineRecord (keeps_incRc hs7)) hs7
    have hs9 : Keeps s₀ s9 := keeps_pmuAes (keeps_ite (keeps_pmuAes hs8) (keeps_pmuAes hs8))
    have hs10 : Keeps s₀ s10 := keeps_onlyIf (keeps_pmuAes hs9) hs9
    split
    exact keepsSnd_ite (keepsSnd_mk (keeps_pmuPc (keeps_incRc hx6))) (keepsSnd_ite (keepsSnd_mk (keeps_lineRecord hs4)) hs10)

theorem keeps_admitWaiting {k pcn : Nat} (hs : Keeps s₀ s) : Keeps s₀ (s.admitWaiting k pcn) := by
  unfold State.admitWaiting
  refine keeps_foldl hs (fun _ _ h1 => ?_)
  extract_lets
  split
  · exact keeps_setPc h1
  · exact keeps_ite h1 (keeps_finishIf (keeps_enterLine (keeps_unwait h1)))

theorem keeps_rmwMerge {f : Flight} {v : LineSt} {lead : Nat} (hs : Keeps s₀ s) : Keeps s₀ (s.rmwMerge f v lead) := by
  unfold State.rmwMerge
  extract_lets _ _ s1
  have hs1 : Keeps s₀ s1 := by
    unfold s1
    split
    · exact hs
    · extract_lets
      split
      extract_lets s2
      have hs2 : Keeps s₀ s2 := by
        unfold s2
        refine keeps_foldl hs (fun _ _ h1 => ?_)
        extract_lets
        exact keeps_setQueues h1
      exact keeps_modFlight (keeps_onlyIf (keeps_tap hs2) hs2)
  exact keeps_finishIf (keeps_admitWaiting hs1)

theorem keeps_modRead {k pcn : Nat} {e : REnt} {g : REnt → REnt} (hs : Keeps s₀ s) : Keeps s₀ (s.modRead k pcn e g) := keeps_setPc hs

theorem keeps_handOver {k pcn : Nat} {e : REnt} {lead : Nat} (hs : Keeps s₀ s) : Keeps s₀ (s.handOver k pcn e lead) := keeps_modRead hs

theorem keeps_decrypts {k pcn at_ : Nat} (hs : Keeps s₀ s) : Keeps s₀ (s.decrypts k pcn at_).2 := keeps_setPc hs

theorem keeps_readReturn {k pcn : Nat} {e : REnt} {err : ReadErr} (hs : Keeps s₀ s) : Keeps s₀ (s.readReturn k pcn e err) := by
  unfold State.readReturn
  extract_lets
  split
  · exact keeps_setPc hs
  · extract_lets
    split
    · exact keeps_rmwMerge (keeps_handOver hs)
    · split
      · rename_i x1 x2
        have hx3 : Keeps s₀ x1 := Keeps.of_snd (keeps_readLine hs) x2
        exact keeps_modRead hx3
      · rename_i x4 x5
        have hx6 : Keeps s₀ x4 := Keeps.of_snd (keeps_readLine hs) x5
        split
        rename_i x7 x8
        have hx9 : Keeps s₀ x7 := Keeps.of_snd (keeps_decrypts hx6) x8
        extract_lets _ s1
        have hs1 : Keeps s₀ s1 := keeps_handOver hx9
        exact keeps_ite (keeps_rmwMerge hs1) (keeps_finishIf (keeps_setLine hs1))

theorem keeps_execReadDataReturn {k : Cluster} {pcn : PcIx} {errs : List ReadErr} (hs : Keeps s₀ s) :
    KeepsRes s₀ (execReadDataReturn k pcn errs s) :=
  keepsRes_ite (keepsRes_next hs) (keepsRes_next (keeps_foldl hs (fun _ _ h1 => keeps_readReturn h1)))

theorem keeps_execArbPrioWrite {r : Fin 40} {v : W32} (hs : Keeps s₀ s) : KeepsRes s₀ (execArbPrioWrite r v s) := by
  unfold execArbPrioWrite
  extract_lets
  refine keeps_orWait hs (fun _ h1 => ?_)
  extract_lets _ s1 s2 _ s3
  have hs1 : Keeps s₀ s1 := keeps_wr h1
  have hs2 : Keeps s₀ s2 := keeps_ite hs1 (keeps_wr hs1)
  have hs3 : Keeps s₀ s3 := keeps_audit hs2
  exact keepsRes_ite (keepsRes_next h1) (keepsRes_next (keeps_onlyIf (keeps_mk hs3) h1))

theorem keeps_endHold {h : Nat} {x : Hold} (hs : Keeps s₀ s) : Keeps s₀ (s.endHold h x) := by
  unfold State.endHold
  extract_lets s1
  have hs1 : Keeps s₀ s1 := keeps_touch (keeps_wr hs)
  exact keeps_mk hs1

theorem keeps_breakHold {h : Nat} {x : Hold} (hs : Keeps s₀ s) : Keeps s₀ (s.breakHold h x) := keeps_wr (keeps_endHold hs)

theorem keeps_settleHold {h : Nat} (hs : Keeps s₀ s) : Keeps s₀ (s.settleHold h) := by
  unfold State.settleHold
  split
  · exact keeps_onlyIf (keeps_breakHold hs) hs
  · exact hs

theorem keeps_holdWrite {a : Agent} {h : Fin 8} {c : Instr} {run : State → State} (hs : Keeps s₀ s) (hrun : ∀ u, Keeps s₀ u → Keeps s₀ (run
    u)) :
    KeepsRes s₀ (s.holdWrite a h c run) := by
  unfold State.holdWrite
  extract_lets go
  have hgo : ∀ u, Keeps s₀ u → KeepsRes s₀ (go u) := fun u hu =>
    have ht := hrun _ (keeps_settleHold hu)
    keepsRes_ite (keepsRes_next hu) (keepsRes_next (keeps_onlyIf (keeps_audit ht) ht))
  split
  · exact keeps_orWait hs hgo
  all_goals exact hgo s hs

theorem keeps_execArbHoldSet {a : Agent} {h : Fin 8} {v : W32} (hs : Keeps s₀ s) : KeepsRes s₀ (execArbHoldSet a h v s) := by
  unfold execArbHoldSet
  extract_lets
  refine keepsRes_ite (keepsRes_next hs) ?_
  refine keeps_holdWrite hs (fun _ h1 => ?_)
  extract_lets s1 _ s2 _ s3
  have hs1 : Keeps s₀ s1 := keeps_wr (keeps_wr (keeps_wr h1))
  have hs2 : Keeps s₀ s2 := keeps_wr hs1
  have hs3 : Keeps s₀ s3 := keeps_mk hs2
  exact keeps_ite hs2 (keeps_wr (keeps_wr (keeps_wr (keeps_wr hs3))))

theorem keeps_execArbHoldRelease {a : Agent} {h : Fin 8} (hs : Keeps s₀ s) : KeepsRes s₀ (execArbHoldRelease a h s) := by
  unfold execArbHoldRelease
  refine keeps_holdWrite hs (fun _ h1 => ?_)
  split
  · exact h1
  · exact keeps_onlyIf (keeps_endHold h1) h1

theorem keeps_execArbHoldLeaseExpiry {h : Fin 8} (hs : Keeps s₀ s) : KeepsRes s₀ (execArbHoldLeaseExpiry h s) := by
  unfold execArbHoldLeaseExpiry
  split
  · exact keepsRes_next hs
  · exact keepsRes_next (keeps_onlyIf (keeps_mk hs) hs)

theorem keeps_execArbHoldBreak {h : Fin 8} (hs : Keeps s₀ s) : KeepsRes s₀ (execArbHoldBreak h s) := keepsRes_next (keeps_settleHold hs)

theorem keeps_execTimingRegisterWrite {k : Cluster} {t : TimReg} {v : W32} (hs : Keeps s₀ s) :
    KeepsRes s₀ (execTimingRegisterWrite k t v s) := by
  unfold execTimingRegisterWrite
  extract_lets
  split
  · refine keepsRes_next ?_
    refine keeps_ite ?_ (keeps_raise hs)
    extract_lets
    exact keeps_onlyIf (keeps_audit (keeps_setReg hs)) hs
  · refine keepsRes_next ?_
    refine keeps_ite ?_ (keeps_raise hs)
    extract_lets
    exact keeps_onlyIf (keeps_audit (keeps_setReg hs)) hs
  · refine keepsRes_next ?_
    refine keeps_ite ?_ (keeps_raise hs)
    extract_lets
    exact keeps_onlyIf (keeps_audit (keeps_setReg hs)) hs
  · refine keepsRes_ite (keepsRes_next (keeps_raise hs)) ?_
    refine keepsRes_next ?_
    refine keeps_wr ?_
    extract_lets
    exact keeps_onlyIf (keeps_audit (keeps_setReg hs)) hs

/-! ### `Sys2Proof/Machine/Refresh.lean` -/

theorem keeps_refillThrottles {k p : Nat} (hs : Keeps s₀ s) : Keeps s₀ (s.refillThrottles k p) := keeps_mk hs

theorem keeps_execRefreshDue {k : Cluster} {p : PcIx} (hs : Keeps s₀ s) : KeepsRes s₀ (execRefreshDue k p s) := by
  unfold execRefreshDue
  extract_lets _ s1
  have hs1 : Keeps s₀ s1 := keeps_onlyIf (keeps_refillThrottles hs) hs
  exact keepsRes_next (keeps_onlyIf (keeps_setPc hs1) hs1)

theorem keeps_execRefabIssue {k : Cluster} {p : PcIx} (hs : Keeps s₀ s) : KeepsRes s₀ (execRefabIssue k p s) :=
  keepsRes_next (keeps_onlyIf (keeps_pmuPc (keeps_setPc hs)) hs)

theorem keeps_execRefreshStallEnd {k : Cluster} {p : PcIx} (hs : Keeps s₀ s) : KeepsRes s₀ (execRefreshStallEnd k p s) :=
  keepsRes_next (keeps_onlyIf (keeps_pmuPc (keeps_setPc hs)) hs)

theorem keeps_decideHot {k : Nat} (hs : Keeps s₀ s) : Keeps s₀ (s.decideHot k) := by
  unfold State.decideHot
  extract_lets _ _ _ _ _ _ s1
  have hs1 : Keeps s₀ s1 := keeps_wr hs
  exact keeps_ite hs (keeps_mk hs1)

theorem keeps_execRefPeriodSwitch {k : Cluster} (hs : Keeps s₀ s) : KeepsRes s₀ (execRefPeriodSwitch k s) := by
  unfold execRefPeriodSwitch
  extract_lets _ _ s1
  have hs1 : Keeps s₀ s1 := keeps_wr (keeps_wr (keeps_wr (keeps_wr hs)))
  exact keepsRes_next (keeps_onlyIf (keeps_mk hs1) hs)

theorem keeps_auditReg {off old new : Nat} (hs : Keeps s₀ s) : Keeps s₀ (s.auditReg off old new) := keeps_onlyIf (keeps_audit hs) hs

theorem keeps_execRefCtrlWrite {k : Cluster} {v : W32} (hs : Keeps s₀ s) : KeepsRes s₀ (execRefCtrlWrite k v s) := by
  unfold execRefCtrlWrite
  refine keeps_orWait hs (fun _ h1 => ?_)
  extract_lets _ s1 s2 s3
  have hs1 : Keeps s₀ s1 := keeps_wr h1
  have hs2 : Keeps s₀ s2 := keeps_onlyIf (keeps_wr hs1) hs1
  have hs3 : Keeps s₀ s3 := keeps_onlyIf (keeps_ack hs2) hs2
  exact keepsRes_ite (keepsRes_next h1) (keepsRes_next (keeps_decideHot (keeps_auditReg hs3)))

theorem keeps_execTrackerWindowEnd (hs : Keeps s₀ s) : KeepsRes s₀ (execTrackerWindowEnd s) :=
  keepsRes_next (keeps_onlyIf (keeps_trkClear hs) hs)

theorem keeps_execRfmIssue {k : Cluster} {p : PcIx} {sid : Fin 4} {b : Fin 16} (hs : Keeps s₀ s) : KeepsRes s₀ (execRfmIssue k p sid b s) :=
  keepsRes_next (keeps_onlyIf (keeps_pmuPc (keeps_incRc (keeps_setPc hs))) hs)

theorem keeps_execRgCfgWrite {k : Cluster} {v : W32} (hs : Keeps s₀ s) : KeepsRes s₀ (execRgCfgWrite k v s) := by
  unfold execRgCfgWrite
  extract_lets
  refine keeps_orWait hs (fun _ h1 => ?_)
  extract_lets _ _ s1 s2 s3 s4 s5 s6
  have hs1 : Keeps s₀ s1 := keeps_wr h1
  have hs2 : Keeps s₀ s2 := keeps_onlyIf (keeps_wr hs1) hs1
  have hs3 : Keeps s₀ s3 := keeps_onlyIf (keeps_wr hs2) hs2
  have hs4 : Keeps s₀ s4 := keeps_onlyIf (keeps_wr hs3) hs3
  have hs5 : Keeps s₀ s5 := keeps_onlyIf (keeps_mk hs4) hs4
  have hs6 : Keeps s₀ s6 := keeps_onlyIf (keeps_mk hs5) hs5
  exact keepsRes_ite (keepsRes_next h1) (keepsRes_next (keeps_auditReg hs6))

theorem keeps_execWindowPublish {k : Cluster} {kind : Fin 3} {p : PcIx} {lenUs start : Nat} (hs : Keeps s₀ s) :
    KeepsRes s₀ (execWindowPublish k kind p lenUs start s) := by
  unfold execWindowPublish
  extract_lets _ _ s1
  have hs1 : Keeps s₀ s1 := keeps_mk hs
  exact keepsRes_next (keeps_onlyIf (keeps_wr (keeps_wr (keeps_wr (keeps_wr (keeps_wr hs1))))) hs)

theorem keeps_takePc {k p : Nat} (hs : Keeps s₀ s) : Keeps s₀ (s.takePc k p) := keeps_ite (keeps_setPc hs) (keeps_ite (keeps_setPc hs) hs)

theorem keeps_rowActs {k p sid b row : Nat} (hs : Keeps s₀ s) : Keeps s₀ (s.rowActs k p sid b row) :=
  keeps_foldl hs (fun _ _ h1 => keeps_onAct h1)

theorem keeps_rewriteRow {k p sid b row : Nat} {bad : List Nat} (hs : Keeps s₀ s) : Keeps s₀ (s.rewriteRow k p sid b row bad) := by
  unfold State.rewriteRow
  refine keeps_foldl hs (fun _ _ h1 => ?_)
  extract_lets
  split
  extract_lets
  exact keeps_putLine h1

theorem keeps_patternTest {k p : Nat} {fails : Bool} {bad : List Nat} (hs : Keeps s₀ s) : Keeps s₀ (s.patternTest k p fails bad) := by
  unfold State.patternTest
  split
  · exact hs
  · extract_lets s1
    have hs1 : Keeps s₀ s1 := keeps_mk hs
    split
    extract_lets s2
    have hs2 : Keeps s₀ s2 := keeps_ite (keeps_rewriteRow hs1) hs1
    exact keeps_ite (keeps_judge hs2) (keeps_setHist hs2)

theorem keeps_softRepair {k p : Nat} {bad : List Nat} (hs : Keeps s₀ s) : Keeps s₀ (s.softRepair k p bad) := by
  unfold State.softRepair
  extract_lets
  split
  · exact hs
  · split
    exact keeps_record (keeps_setHist (keeps_rewriteRow hs))

theorem keeps_actWindow {k : Nat} (hs : Keeps s₀ s) : Keeps s₀ (s.actWindow k) := by
  unfold State.actWindow
  extract_lets
  split
  · exact hs
  · extract_lets s1
    have hs1 : Keeps s₀ s1 := keeps_mk hs
    refine keeps_ite hs ?_
    split
    · split
      exact keeps_onlyIf (keeps_rowActs (keeps_rowActs hs1)) hs1
    · exact hs1

theorem keeps_putBack {k p kind : Nat} {bad : List Nat} (hs : Keeps s₀ s) : Keeps s₀ (s.putBack k p kind bad) := by
  unfold State.putBack
  split
  · exact hs
  · split
    exact keeps_onlyIf (keeps_rewriteRow hs) hs

theorem keeps_execWindowStart {k : Cluster} {fails : Bool} {bad : List Nat} (hs : Keeps s₀ s) :
    KeepsRes s₀ (execWindowStart k fails bad s) := by
  unfold execWindowStart
  extract_lets
  split
  · exact keepsRes_next hs
  · extract_lets s1
    have hs1 : Keeps s₀ s1 := keeps_mk hs
    exact keepsRes_ite (keepsRes_next hs) (keepsRes_next (keeps_ite (keeps_foldl hs1 (fun _ _ h1 => keeps_takePc h1)) (keeps_takePc hs1)))

theorem keeps_returnPc {k p : Nat} (hs : Keeps s₀ s) : Keeps s₀ (s.returnPc k p) := keeps_ite (keeps_setPc hs) hs

theorem keeps_windowWork {k p kind : Nat} {w : Window} (hs : Keeps s₀ s) : Keeps s₀ (s.windowWork k p kind w) :=
  keeps_ite hs (keeps_ite (keeps_putBack hs) (keeps_ite (keeps_patternTest hs) (keeps_softRepair hs)))

theorem keeps_execWindowEnd {k : Cluster} (hs : Keeps s₀ s) : KeepsRes s₀ (execWindowEnd k s) := by
  unfold execWindowEnd
  split
  · exact keepsRes_next hs
  · extract_lets s1 s2 _ s3
    have hs1 : Keeps s₀ s1 := keeps_mk hs
    have hs2 : Keeps s₀ s2 := keeps_windowWork hs1
    have hs3 : Keeps s₀ s3 := keeps_foldl hs2 (fun _ _ h1 => keeps_returnPc h1)
    exact keepsRes_ite (keepsRes_next hs) (keepsRes_next (keeps_clearReg (keeps_clearReg hs3)))

theorem keeps_execSrAsk {k : Cluster} {p : PcIx} (hs : Keeps s₀ s) : KeepsRes s₀ (execSrAsk k p s) :=
  keepsRes_next (keeps_onlyIf (keeps_setPc hs) hs)

theorem keeps_beginEntry {k p : Nat} (hs : Keeps s₀ s) : Keeps s₀ (s.beginEntry k p) := keeps_pmuPc (keeps_incRc (keeps_setPc hs))

theorem keeps_execSrEntryBegin {k : Cluster} {p : PcIx} (hs : Keeps s₀ s) : KeepsRes s₀ (execSrEntryBegin k p s) :=
  keepsRes_next (keeps_onlyIf (keeps_beginEntry hs) hs)

theorem keeps_execSrEntryComplete {k : Cluster} {p : PcIx} (hs : Keeps s₀ s) : KeepsRes s₀ (execSrEntryComplete k p s) := by
  unfold execSrEntryComplete
  extract_lets
  split
  · exact keepsRes_next (keeps_onlyIf (keeps_setPc hs) hs)
  · exact keepsRes_next hs
  · exact keepsRes_next hs
  · exact keepsRes_next hs
  · exact keepsRes_next hs
  · exact keepsRes_next hs

theorem keeps_execSrExitStart {k : Cluster} {p : PcIx} (hs : Keeps s₀ s) : KeepsRes s₀ (execSrExitStart k p s) :=
  keepsRes_next (keeps_onlyIf (keeps_setPc hs) hs)

theorem keeps_execSrExitComplete {k : Cluster} {p : PcIx} (hs : Keeps s₀ s) : KeepsRes s₀ (execSrExitComplete k p s) := by
  unfold execSrExitComplete
  extract_lets
  split
  · exact keepsRes_next (keeps_onlyIf (keeps_pmuPc (keeps_setPc hs)) hs)
  · exact keepsRes_next hs
  · exact keepsRes_next hs
  · exact keepsRes_next hs
  · exact keepsRes_next hs
  · exact keepsRes_next hs

theorem keeps_execSrCfgWrite {k : Cluster} {v : W32} (hs : Keeps s₀ s) : KeepsRes s₀ (execSrCfgWrite k v s) := by
  unfold execSrCfgWrite
  extract_lets
  refine keeps_orWait hs (fun _ h1 => ?_)
  extract_lets _ s1 s2 s3
  have hs1 : Keeps s₀ s1 := keeps_wr h1
  have hs2 : Keeps s₀ s2 := keeps_onlyIf (keeps_wr hs1) hs1
  have hs3 : Keeps s₀ s3 := keeps_ite hs2 (keeps_mk hs2)
  exact keepsRes_ite (keepsRes_next h1) (keepsRes_next (keeps_auditReg hs3))

/-! ### `Sys2Proof/Machine/Ras.lean` -/

theorem keeps_auditWrite {off old new : Nat} (hs : Keeps s₀ s) : Keeps s₀ (s.auditWrite off old new) := keeps_audit hs

theorem keeps_freeDetail (hs : Keeps s₀ s) : Keeps s₀ s.freeDetail.2 := by
  unfold State.freeDetail
  split
  rename_i x1 x2
  have hx3 : Keeps s₀ x1 := Keeps.of_snd (keeps_fresh hs) x2
  exact hx3

theorem keeps_freezePc {k p cls : Nat} (hs : Keeps s₀ s) : Keeps s₀ (s.freezePc k p cls) := by
  unfold State.freezePc
  extract_lets _ s1
  have hs1 : Keeps s₀ s1 := keeps_setPc hs
  exact keeps_syncFrz hs1

theorem keeps_freezeFor {k p cls : Nat} (hs : Keeps s₀ s) : Keeps s₀ (s.freezeFor k p cls) := by
  unfold State.freezeFor
  split
  rename_i x1 x2
  have hx3 : Keeps s₀ x1 := Keeps.of_snd (keeps_freeDetail (keeps_freezePc hs)) x2
  extract_lets _ s1
  have hs1 : Keeps s₀ s1 := keeps_incRc (keeps_record hx3)
  exact keeps_event hs1

theorem keeps_execCaParityError {k : Cluster} {p : PcIx} (hs : Keeps s₀ s) : KeepsRes s₀ (execCaParityError k p s) := by
  unfold execCaParityError
  extract_lets _ s1
  have hs1 : Keeps s₀ s1 := keeps_pmuPc (keeps_setPc hs)
  exact keepsRes_ite (keepsRes_next hs) (keepsRes_ite (keepsRes_next hs) (keepsRes_ite (keepsRes_next (keeps_incRc (keeps_record hs1)))
      (keepsRes_next (keeps_freezeFor hs))))

theorem keeps_execStateCheckFail {k : Cluster} {p : PcIx} (hs : Keeps s₀ s) : KeepsRes s₀ (execStateCheckFail k p s) :=
  keepsRes_next (keeps_onlyIf (keeps_freezeFor hs) hs)

theorem keeps_thawPc {k p : Nat} (hs : Keeps s₀ s) : Keeps s₀ (s.thawPc k p) := by
  unfold State.thawPc
  extract_lets _ s1
  have hs1 : Keeps s₀ s1 := keeps_setPc hs
  exact keeps_record (keeps_syncFrz hs1)

theorem keeps_answerHeld {k p : Nat} (hs : Keeps s₀ s) : Keeps s₀ (s.answerHeld k p) := keeps_mk hs

theorem keeps_abortMigration {k d : Nat} (hs : Keeps s₀ s) : Keeps s₀ (s.abortMigration k d) := by
  unfold State.abortMigration
  extract_lets _ _ _ s1 _ s2
  have hs1 : Keeps s₀ s1 := keeps_wr (keeps_wr hs)
  have hs2 : Keeps s₀ s2 := keeps_mk hs1
  exact keeps_loseBacking (keeps_retirePc (keeps_retirePc (keeps_answerHeld (keeps_answerHeld hs2))))

theorem keeps_retireNow {k p : Nat} (hs : Keeps s₀ s) : Keeps s₀ (s.retireNow k p) := by
  unfold State.retireNow
  refine keeps_ite (keeps_abortMigration hs) ?_
  split
  · exact keeps_retirePc (keeps_answerHeld hs)
  · exact keeps_loseBacking (keeps_retirePc (keeps_answerHeld hs))

theorem keeps_chosen {k p : Nat} (hs : Keeps s₀ s) : Keeps s₀ (s.chosen k p) := keeps_setPc hs

theorem keeps_frzWrite {k p op : Nat} {parityOk auto : Bool} (hs : Keeps s₀ s) : Keeps s₀ (s.frzWrite k p op parityOk auto) := by
  unfold State.frzWrite
  extract_lets s1 s2 _ s3
  have hs1 : Keeps s₀ s1 := keeps_wr hs
  have hs2 : Keeps s₀ s2 := keeps_onlyIf (keeps_chosen hs1) hs1
  have hs3 : Keeps s₀ s3 := keeps_wr (keeps_wr hs2)
  exact keeps_ite (keeps_wr hs1) (keeps_ite (keeps_retireNow (keeps_wr hs2)) (keeps_ite (keeps_wr hs2) (keeps_ite (keeps_wr hs2) (keeps_mk
      hs3))))

theorem keeps_migBusy {o : Origin} {k : Nat} (hs : Keeps s₀ s) : Keeps s₀ (s.migBusy o k) := by
  unfold State.migBusy
  extract_lets s1
  have hs1 : Keeps s₀ s1 := keeps_wr hs
  exact keeps_onlyIf (keeps_audit hs1) hs

theorem keeps_frzBusy {o : Origin} {k : Nat} (hs : Keeps s₀ s) : Keeps s₀ (s.frzBusy o k) := by
  unfold State.frzBusy
  extract_lets s1
  have hs1 : Keeps s₀ s1 := keeps_wr hs
  exact keeps_onlyIf (keeps_audit hs1) hs

theorem keeps_frzCommand {k : Cluster} {p : PcIx} {op : Nat} {parityOk : Bool} (hs : Keeps s₀ s) :
    Keeps s₀ (s.frzCommand k p op parityOk) :=
  keeps_ite hs (keeps_ite (keeps_frzBusy hs) (keeps_auditWrite (keeps_frzWrite hs)))

theorem keeps_execThaw {k : Cluster} {p : PcIx} {parityOk : Bool} (hs : Keeps s₀ s) : KeepsRes s₀ (execThaw k p parityOk s) :=
  keeps_orWait hs (fun _ h1 => keepsRes_next (keeps_frzCommand h1))

theorem keeps_execRetireCopy {k : Cluster} {p : PcIx} {parityOk : Bool} (hs : Keeps s₀ s) : KeepsRes s₀ (execRetireCopy k p parityOk s) :=
  keeps_orWait hs (fun _ h1 => keepsRes_next (keeps_frzCommand h1))

theorem keeps_execRetireNow {k : Cluster} {p : PcIx} (hs : Keeps s₀ s) : KeepsRes s₀ (execRetireNow k p s) :=
  keeps_orWait hs (fun _ h1 => keepsRes_next (keeps_frzCommand h1))

theorem keeps_execFreezeOpDone {k : Cluster} {verifyOk : Bool} (hs : Keeps s₀ s) : KeepsRes s₀ (execFreezeOpDone k verifyOk s) := by
  unfold execFreezeOpDone
  extract_lets s1 s2
  have hs1 : Keeps s₀ s1 := keeps_wr hs
  have hs2 : Keeps s₀ s2 := keeps_mk hs1
  split
  · exact keepsRes_next hs
  · extract_lets s3
    have hs3 : Keeps s₀ s3 := keeps_thawPc (keeps_wr hs2)
    exact keepsRes_ite (keepsRes_next hs) (keepsRes_ite (keepsRes_next (keeps_wr hs2)) (keepsRes_next (keeps_startWanted (keeps_onlyIf
        (keeps_beginMigration hs3) hs3))))

theorem keeps_execFreezeAutoDecision {k : Cluster} {p : PcIx} {parityOk : Bool} (hs : Keeps s₀ s) :
    KeepsRes s₀ (execFreezeAutoDecision k p parityOk s) := by
  unfold execFreezeAutoDecision
  extract_lets _ _ s1
  have hs1 : Keeps s₀ s1 := keeps_onlyIf (keeps_mk hs) hs
  split
  · exact keepsRes_next hs
  · exact keepsRes_ite (keepsRes_next hs) (keepsRes_next (keeps_audit (keeps_frzWrite hs1)))

theorem keeps_execStart {k : Cluster} {lpc : PcIx} (hs : Keeps s₀ s) : KeepsRes s₀ (execStart k lpc s) := by
  unfold execStart
  refine keeps_orWait hs (fun _ h1 => ?_)
  extract_lets _ s1
  have hs1 : Keeps s₀ s1 := keeps_auditWrite (keeps_wr h1)
  exact keepsRes_ite (keepsRes_next h1) (keepsRes_ite (keepsRes_next (keeps_migBusy h1)) (keepsRes_ite (keepsRes_next (keeps_wr hs1))
      (keepsRes_ite (keepsRes_next (keeps_wr hs1)) (keepsRes_next (keeps_beginMigration (keeps_wr hs1))))))

theorem keeps_corrected {f : Flight} {l : Loc} {pa origin n tries fmt : Nat} (hs : Keeps s₀ s) :
    Keeps s₀ (s.corrected f l pa origin n tries fmt) := by
  unfold State.corrected
  extract_lets s1 s2
  have hs1 : Keeps s₀ s1 := keeps_onlyIf (keeps_lineRecord (keeps_pmuPc (keeps_incRc hs))) hs
  have hs2 : Keeps s₀ s2 := keeps_onlyIf (keeps_lineRecord (keeps_incRc hs1)) hs1
  exact keeps_onlyIf (keeps_event hs2) hs2

theorem keeps_uncorrectable {f : Flight} {l : Loc} {pa origin : Nat} {e : ReadErr} (hs : Keeps s₀ s) :
    Keeps s₀ (s.uncorrectable f l pa origin e) := by
  unfold State.uncorrectable
  extract_lets s1
  have hs1 : Keeps s₀ s1 := keeps_lineRecord (keeps_pmuPc (keeps_incRc hs))
  exact keeps_event hs1

theorem keeps_copyLine {l : Loc} {tgt : Nat} {es : List ReadErr} (hs : Keeps s₀ s) : Keeps s₀ (s.copyLine l tgt es) := by
  unfold State.copyLine
  extract_lets
  split
  extract_lets
  split
  · extract_lets
    exact keeps_putLine hs
  · refine keeps_ite (keeps_ite hs (keeps_putLine hs)) ?_
    split
    · rename_i x1 x2
      have hx3 : Keeps s₀ x1 := Keeps.of_snd (keeps_decodeTries hs) x2
      exact keeps_putLine (keeps_uncorrectable hx3)
    · rename_i x4 x5
      have hx6 : Keeps s₀ x4 := Keeps.of_snd (keeps_decodeTries hs) x5
      exact keeps_putLine (keeps_corrected hx6)

theorem keeps_chunkActs {k p wm : Nat} (hs : Keeps s₀ s) : Keeps s₀ (s.chunkActs k p wm) := by
  unfold State.chunkActs
  refine keeps_foldl hs (fun _ _ h1 => ?_)
  extract_lets
  exact keeps_foldl h1 (fun _ _ h2 => keeps_onAct h2)

theorem keeps_copyChunk {k : Nat} {errs : List (Fin 1024 × ReadErr)} (hs : Keeps s₀ s) : Keeps s₀ (s.copyChunk k errs) := by
  unfold State.copyChunk
  extract_lets _ _ _ _ _ s1
  have hs1 : Keeps s₀ s1 := keeps_chunkActs (keeps_chunkActs hs)
  exact keeps_foldl hs1 (fun _ _ h1 => keeps_copyLine h1)

theorem keeps_migJournal {k wm : Nat} (hs : Keeps s₀ s) : Keeps s₀ (s.migJournal k wm) := by
  unfold State.migJournal
  extract_lets
  split
  · exact hs
  · extract_lets _ s1
    have hs1 : Keeps s₀ s1 := keeps_blockWrite (keeps_blockWrite hs)
    exact keeps_mk hs1

theorem keeps_execMigChunkCommit {k : Cluster} {errs : List (Fin 1024 × ReadErr)} (hs : Keeps s₀ s) :
    KeepsRes s₀ (execMigChunkCommit k errs s) :=
  keepsRes_next (keeps_onlyIf (keeps_wr (keeps_migJournal (keeps_copyChunk hs))) hs)

theorem keeps_execMigEnd {k : Cluster} {errs : List (Fin 1024 × ReadErr)} (hs : Keeps s₀ s) : KeepsRes s₀ (execMigEnd k errs s) := by
  unfold execMigEnd
  extract_lets _ _ _ _ s1 s2 _ s3 s4 s5 _ s6 _ s7
  have hs1 : Keeps s₀ s1 := keeps_migJournal (keeps_copyChunk hs)
  have hs2 : Keeps s₀ s2 := keeps_wr (keeps_wr (keeps_wr (keeps_wr hs1)))
  have hs3 : Keeps s₀ s3 := keeps_setPc hs2
  have hs4 : Keeps s₀ s4 := keeps_retirePc hs3
  have hs5 : Keeps s₀ s5 := keeps_mk hs4
  have hs6 : Keeps s₀ s6 := keeps_record hs5
  have hs7 : Keeps s₀ s7 := keeps_mk hs6
  exact keepsRes_ite (keepsRes_next hs) (keepsRes_next (keeps_startWanted (keeps_commitHist hs7)))

theorem keeps_execHistoryCommit (hs : Keeps s₀ s) : KeepsRes s₀ (execHistoryCommit s) := keepsRes_next (keeps_commitHist hs)

theorem keeps_scrubLine {l : Loc} {es : List ReadErr} {always acts : Bool} (hs : Keeps s₀ s) : Keeps s₀ (s.scrubLine l es always acts) := by
  unfold State.scrubLine
  extract_lets s1 _ s2
  have hs1 : Keeps s₀ s1 := keeps_pmuPc (keeps_pmuPc hs)
  have hs2 : Keeps s₀ s2 := keeps_onlyIf (keeps_onAct hs1) hs1
  split
  extract_lets
  refine keeps_ite hs ?_
  split
  · rename_i x1 x2
    have hx3 : Keeps s₀ x1 := Keeps.of_snd (keeps_decodeTries hs2) x2
    exact keeps_uncorrectable (keeps_poisonWrite hx3)
  · rename_i x4 x5
    have hx6 : Keeps s₀ x4 := Keeps.of_snd (keeps_decodeTries hs2) x5
    extract_lets s3
    have hs3 : Keeps s₀ s3 := keeps_corrected hx6
    split
    exact keeps_ite (keeps_pmuPc (keeps_incRc hx6)) (keeps_ite (keeps_lineRecord (keeps_pmuAes (keeps_incRc hx6))) (keeps_onlyIf
        (keeps_pmuPc (keeps_onlyIf (keeps_onAct (keeps_putLine hs3)) (keeps_putLine hs3))) hs3))

theorem keeps_execPatrolScrub {k : Cluster} {p : PcIx} {line : Nat} {errs : List ReadErr} (hs : Keeps s₀ s) :
    KeepsRes s₀ (execPatrolScrub k p line errs s) := by
  unfold execPatrolScrub
  extract_lets _ _ s1
  have hs1 : Keeps s₀ s1 := keeps_scrubLine hs
  exact keepsRes_next (keeps_onlyIf (keeps_mk hs1) hs)

theorem keeps_execTargetedScrub {k : Cluster} {p : PcIx} {row : Nat} {errs : List (Fin 16 × ReadErr)} (hs : Keeps s₀ s) :
    KeepsRes s₀ (execTargetedScrub k p row errs s) := by
  unfold execTargetedScrub
  split
  · exact keepsRes_next hs
  · extract_lets s1
    have hs1 : Keeps s₀ s1 := keeps_mk hs
    exact keepsRes_ite (keepsRes_next hs) (keepsRes_next (keeps_foldl hs1 (fun _ _ h1 => keeps_scrubLine h1)))

theorem keeps_execHistoryRead {index : BitVec 20} (hs : Keeps s₀ s) : KeepsRes s₀ (execHistoryRead index s) := by
  unfold execHistoryRead
  refine keeps_orWait hs (fun _ h1 => ?_)
  extract_lets _ s1
  have hs1 : Keeps s₀ s1 := keeps_auditReg (keeps_wr h1)
  refine keepsRes_ite (keepsRes_next h1) ?_
  refine keepsRes_ite ?_ (keepsRes_next (keeps_wr hs1))
  split
  rename_i x1 x2
  have hx3 : Keeps s₀ x1 := Keeps.of_snd (keeps_fresh hs1) x2
  exact keepsRes_next (keeps_foldl (keeps_wr hx3) (fun _ _ h2 => keeps_mk h2))

/-! ### `Sys2Proof/Machine/Clocks.lean` -/

theorem keeps_execPllMainLock (hs : Keeps s₀ s) : KeepsRes s₀ (execPllMainLock s) := by
  unfold execPllMainLock
  extract_lets s1
  have hs1 : Keeps s₀ s1 := keeps_wr hs
  exact keepsRes_next (keeps_onlyIf (keeps_mk hs1) hs)

theorem keeps_execPllMainUnlock (hs : Keeps s₀ s) : KeepsRes s₀ (execPllMainUnlock s) := by
  unfold execPllMainUnlock
  extract_lets s1 _ s2
  have hs1 : Keeps s₀ s1 := keeps_wr hs
  have hs2 : Keeps s₀ s2 := keeps_mk hs1
  exact keepsRes_ite (keepsRes_next hs) (keepsRes_next (keeps_send hs2))

theorem keeps_execPhyPllUnlock {n : Cluster} (hs : Keeps s₀ s) : KeepsRes s₀ (execPhyPllUnlock n s) := by
  unfold execPhyPllUnlock
  extract_lets s1 s2 _ s3 s4
  have hs1 : Keeps s₀ s1 := keeps_raiseBit (keeps_setMap hs)
  have hs2 : Keeps s₀ s2 := keeps_wr hs1
  have hs3 : Keeps s₀ s3 := keeps_mk hs2
  have hs4 : Keeps s₀ s4 := keeps_record hs3
  exact keepsRes_ite (keepsRes_next hs) (keepsRes_next (keeps_foldl hs4 (fun _ _ h1 => keeps_onlyIf (keeps_freezePc h1) h1)))

theorem keeps_lockPhy {k : Nat} (hs : Keeps s₀ s) : Keeps s₀ (s.lockPhy k) := by
  unfold State.lockPhy
  split
  rename_i x1 x2
  have hx3 : Keeps s₀ x1 := Keeps.of_snd (keeps_fresh hs) x2
  extract_lets s1
  have hs1 : Keeps s₀ s1 := keeps_wr (keeps_setMap hx3)
  exact keeps_mk hs1

theorem keeps_execPhyPllLock {n : Cluster} (hs : Keeps s₀ s) : KeepsRes s₀ (execPhyPllLock n s) :=
  keepsRes_next (keeps_onlyIf (keeps_lockPhy hs) hs)

theorem keeps_execFclkStop (hs : Keeps s₀ s) : KeepsRes s₀ (execFclkStop s) :=
  keepsRes_next (keeps_onlyIf (keeps_wr (keeps_wr (keeps_onlyIf (keeps_raise hs) hs))) hs)

theorem keeps_execFclkReturn {mhz : BitVec 16} (hs : Keeps s₀ s) : KeepsRes s₀ (execFclkReturn mhz s) :=
  keepsRes_next (keeps_wr (keeps_wr hs))

theorem keeps_replicaOff {i : Nat} (hs : Keeps s₀ s) : Keeps s₀ (s.replicaOff i) := by
  unfold State.replicaOff
  exact keeps_record (keeps_raise (keeps_wr (keeps_incRc hs)))

theorem keeps_drift {skews : List W64} (hs : Keeps s₀ s) : Keeps s₀ (s.drift skews) := keeps_mk hs

theorem keeps_execTsReplicaCheck {skews : List W64} (hs : Keeps s₀ s) : KeepsRes s₀ (execTsReplicaCheck skews s) := by
  unfold execTsReplicaCheck
  extract_lets s1 _ _ s2
  have hs1 : Keeps s₀ s1 := keeps_drift hs
  have hs2 : Keeps s₀ s2 := keeps_foldl (keeps_mk hs1) (fun _ _ h1 => keeps_replicaOff h1)
  exact keepsRes_ite (keepsRes_next hs1) (keepsRes_next (keeps_mk hs2))

theorem keeps_execTsCapture (hs : Keeps s₀ s) : KeepsRes s₀ (execTsCapture s) :=
  keeps_orWait hs (fun _ h1 => keepsRes_ite (keepsRes_next h1) (keepsRes_next (keeps_audit (keeps_setReg h1))))

theorem keeps_execTsCheckEnable (hs : Keeps s₀ s) : KeepsRes s₀ (execTsCheckEnable s) := by
  unfold execTsCheckEnable
  refine keeps_orWait hs (fun _ h1 => ?_)
  extract_lets s1
  have hs1 : Keeps s₀ s1 := keeps_audit (keeps_wr h1)
  exact keepsRes_ite (keepsRes_next h1) (keepsRes_next (keeps_mk hs1))

theorem keeps_multWrite {o : Origin} {n m : Nat} (hs : Keeps s₀ s) : Keeps s₀ (s.multWrite o n m) := by
  unfold State.multWrite
  extract_lets _ s1 s2
  have hs1 : Keeps s₀ s1 := keeps_setMap (keeps_wr (keeps_wr (keeps_onlyIf (keeps_wr hs) hs)))
  have hs2 : Keeps s₀ s2 := keeps_onlyIf (keeps_wr hs1) hs1
  exact keeps_ite (keeps_raise hs) (keeps_ite hs (keeps_audit hs2))

theorem keeps_execPhyMultWrite {n : Cluster} {mult : Byte} (hs : Keeps s₀ s) : KeepsRes s₀ (execPhyMultWrite n mult s) :=
  keepsRes_ite (keepsRes_next (keeps_multWrite hs)) (keeps_orWait hs (fun _ h1 => keepsRes_next (keeps_onlyIf (keeps_multWrite h1) h1)))

theorem keeps_execNmcDividerChange (hs : Keeps s₀ s) : KeepsRes s₀ (execNmcDividerChange s) := by
  unfold execNmcDividerChange
  extract_lets
  split
  · exact keepsRes_next hs
  · extract_lets _ s1
    have hs1 : Keeps s₀ s1 := keeps_wr hs
    exact keepsRes_next (keeps_onlyIf (keeps_mk hs1) hs)

/-! ### `Sys2Proof/Machine/RingOps.lean` -/

theorem keeps_setLnt {j : Nat} {l : Lantern} (hs : Keeps s₀ s) : Keeps s₀ (s.setLnt j l) := keeps_mk hs

theorem keeps_setCtx {j c : Nat} {x : Ctx} (hs : Keeps s₀ s) : Keeps s₀ (s.setCtx j c x) := keeps_setLnt hs

theorem keeps_abortJobs {p : Job → Bool} (hs : Keeps s₀ s) : Keeps s₀ (s.abortJobs p) := by
  unfold State.abortJobs
  refine keeps_foldl hs (fun _ _ h1 => ?_)
  extract_lets
  split
  · exact keeps_ite (keeps_setCtx h1) h1
  · exact h1

theorem keeps_setRing {o : Origin} {r v : Nat} (hs : Keeps s₀ s) : Keeps s₀ (s.setRing o r v) := keeps_onlyIf (keeps_audit (keeps_wr hs)) hs

theorem keeps_resetRing {o : Origin} {r : Nat} (hs : Keeps s₀ s) : Keeps s₀ (s.resetRing o r) := by
  unfold State.resetRing
  extract_lets s1 s2
  have hs1 : Keeps s₀ s1 := keeps_incWrap (keeps_wr (keeps_setRing hs))
  have hs2 : Keeps s₀ s2 := keeps_abortJobs hs1
  exact keeps_mk hs2

theorem keeps_resetRings {o : Origin} {f : Nat} (hs : Keeps s₀ s) : Keeps s₀ (s.resetRings o f) :=
  keeps_foldl hs (fun _ _ h1 => keeps_resetRing h1)

/-! ### `Sys2Proof/Machine/LntMem.lean` -/

theorem keeps_modLnt {j : Nat} {f : Lantern → Lantern} (hs : Keeps s₀ s) : Keeps s₀ (s.modLnt j f) := keeps_setLnt hs

theorem keeps_modCtx {j c : Nat} {f : Ctx → Ctx} (hs : Keeps s₀ s) : Keeps s₀ (s.modCtx j c f) := keeps_setCtx hs

theorem keeps_transmit {j : Nat} {q : LReq} (hs : Keeps s₀ s) : Keeps s₀ (s.transmit j q) := by
  unfold State.transmit
  extract_lets
  split
  extract_lets
  exact keeps_ite (keeps_evt (keeps_takeCredit (keeps_addFlight hs))) (keeps_accept hs)

theorem keeps_tryIssue {j : Nat} {r : LReq} (hs : Keeps s₀ s) : Keeps s₀ (s.tryIssue j r) := by
  unfold State.tryIssue
  extract_lets
  split
  · exact hs
  · extract_lets
    exact keeps_ite hs (keeps_transmit (keeps_setLnt hs))

theorem keeps_pump {j : Nat} (hs : Keeps s₀ s) : Keeps s₀ (s.pump j) := keeps_foldl hs (fun _ _ h1 => keeps_tryIssue h1)

theorem keeps_ask {j : Nat} {rs : List LReq} (hs : Keeps s₀ s) : Keeps s₀ (s.ask j rs) := keeps_pump (keeps_modLnt hs)

theorem keeps_resend {j : Nat} {q : LReq} (hs : Keeps s₀ s) : Keeps s₀ (s.resend j q) := keeps_ite hs (keeps_transmit (keeps_modLnt hs))

theorem keeps_freeTag {j : Nat} {q : LReq} (hs : Keeps s₀ s) : Keeps s₀ (s.freeTag j q) := keeps_pump (keeps_modLnt hs)

theorem keeps_setReq {j : Nat} {q q' : LReq} (hs : Keeps s₀ s) : Keeps s₀ (s.setReq j q q') := keeps_modLnt hs

theorem keeps_setRole {j a r : Nat} (hs : Keeps s₀ s) : Keeps s₀ (s.setRole j a r) := keeps_wr hs

theorem keeps_replayOver {j a : Nat} (hs : Keeps s₀ s) : Keeps s₀ (s.replayOver j a) := keeps_onlyIf (keeps_setRole hs) hs

theorem keeps_releaseHeld {j : Nat} {es : List Nat} (hs : Keeps s₀ s) : Keeps s₀ (s.releaseHeld j es) := keeps_mk hs

theorem keeps_drainCtx {j c : Nat} {fin : JobFin} (hs : Keeps s₀ s) : Keeps s₀ (s.drainCtx j c fin) := by
  unfold State.drainCtx
  extract_lets _ _ s1
  have hs1 : Keeps s₀ s1 := keeps_foldl (keeps_releaseHeld hs) (fun _ _ h1 => keeps_replayOver h1)
  exact keeps_modLnt hs1

theorem keeps_failAt {j c : Nat} {e : Exc} {n ip depth : Nat} (hs : Keeps s₀ s) : Keeps s₀ (s.failAt j c e n ip depth) := keeps_drainCtx hs

theorem keeps_failInstr {j c : Nat} {e : Exc} (hs : Keeps s₀ s) : Keeps s₀ (s.failInstr j c e) := keeps_failAt hs

theorem keeps_journalRec {j c : Nat} {r : BitVec 256} (hs : Keeps s₀ s) : Keeps s₀ (s.journalRec j c r) := by
  unfold State.journalRec
  extract_lets _ _ _ _ _ _ s1 s2 _ s3 s4 s5
  have hs1 : Keeps s₀ s1 := keeps_wr hs
  have hs2 : Keeps s₀ s2 := keeps_ite (keeps_incWrap hs1) hs1
  have hs3 : Keeps s₀ s3 := keeps_setLnt hs2
  have hs4 : Keeps s₀ s4 := keeps_wr hs3
  have hs5 : Keeps s₀ s5 := keeps_modCtx hs4
  exact keeps_ask hs5

theorem keeps_journal {j c arrays m : Nat} {replayed partial_ : Bool} {streams : List (Nat × List Nat)} (hs : Keeps s₀ s) :
    Keeps s₀ (s.journal j c arrays m replayed partial_ streams) := by
  unfold State.journal
  extract_lets
  refine keeps_ite hs ?_
  split
  · exact hs
  · refine keeps_foldl hs (fun _ _ h1 => ?_)
    split
    exact keeps_journalRec h1

/-! ### `Sys2Proof/Machine/Sec.lean` -/

theorem keeps_mbxPost {f : Nat} {sess : Option Nat} {typ cmd result detail : Nat} {data : List Byte} (hs : Keeps s₀ s) :
    Keeps s₀ (s.mbxPost f sess typ cmd result detail data) := by
  unfold State.mbxPost
  extract_lets _ s1 s2 _ s3
  have hs1 : Keeps s₀ s1 := keeps_wr (keeps_raise (keeps_wr hs))
  have hs2 : Keeps s₀ s2 := keeps_wr hs1
  have hs3 : Keeps s₀ s3 := keeps_mk hs2
  exact keeps_evt (keeps_send hs3)

theorem keeps_served {run : State → State} (hs : Keeps s₀ s) (hrun : ∀ u, Keeps s₀ u → Keeps s₀ (run u)) : Keeps s₀ (s.served run) := by
  unfold State.served
  extract_lets _ s1
  have hs1 : Keeps s₀ s1 := hrun _ (keeps_mk hs)
  exact keeps_ite (hrun _ hs) (keeps_ite (keeps_mk hs1) hs)

theorem keeps_serve {f cmd : Nat} {args : List Byte} {run : State → State × Nat × Nat × List Byte} (hs : Keeps s₀ s) (hrun : ∀ u, Keeps s₀ u
    → Keeps s₀ (run u).1) :
    Keeps s₀ (s.serve f cmd args run) := by
  unfold State.serve
  refine keeps_ite hs ?_
  refine keeps_ite (keeps_mbxPost hs) ?_
  refine keeps_ite hs ?_
  refine keeps_served hs (fun _ h1 => ?_)
  split
  rename_i x1 _ _ _ x2
  have hx3 : Keeps s₀ x1 := Keeps.of_fst (hrun _ h1) x2
  exact keeps_mbxPost hx3

theorem keeps_serveT {i cmd : Nat} {run : State → Session → State × Nat × Nat × List Byte} (hs : Keeps s₀ s) (hrun : ∀ u v, Keeps s₀ u →
    Keeps s₀ (run u v).1) :
    Keeps s₀ (s.serveT i cmd run) := by
  unfold State.serveT
  split
  · exact hs
  · extract_lets
    refine keeps_ite hs ?_
    refine keeps_ite (keeps_mbxPost hs) ?_
    refine keeps_ite hs ?_
    refine keeps_ite (keeps_mbxPost hs) ?_
    refine keeps_served hs (fun _ h1 => ?_)
    extract_lets _ s1
    have hs1 : Keeps s₀ s1 := keeps_mk h1
    split
    rename_i x1 _ _ _ x2
    have hx3 : Keeps s₀ x1 := Keeps.of_fst (hrun _ _ hs1) x2
    extract_lets s2 _ s3
    have hs2 : Keeps s₀ s2 := keeps_mk hx3
    have hs3 : Keeps s₀ s3 := keeps_mbxPost hs2
    exact keeps_mk hs3

theorem keeps_turnPlots {t : Nat} {a b : PlotState} (hs : Keeps s₀ s) : Keeps s₀ (s.turnPlots t a b) :=
  keeps_foldl hs (fun _ _ h1 => keeps_change h1)

theorem keeps_endSession {o : Origin} {i : Nat} (hs : Keeps s₀ s) : Keeps s₀ (s.endSession o i) := by
  unfold State.endSession
  extract_lets _ s1 s2
  have hs1 : Keeps s₀ s1 := keeps_mk hs
  have hs2 : Keeps s₀ s2 := keeps_audit hs1
  split
  · exact hs
  · exact keeps_ite (keeps_turnPlots hs2) hs2

theorem keeps_execKeyExchange {f : FnIx} {digest : BitVec 384} {ok : Bool} (hs : Keeps s₀ s) :
    KeepsRes s₀ (execKeyExchange f digest ok s) := by
  unfold execKeyExchange
  extract_lets err
  have herr : ∀ u r d code, Keeps s₀ u → Keeps s₀ (err u r d code) := fun _ _ _ _ hu => keeps_mbxPost (keeps_mk hu)
  refine keepsRes_ite (keepsRes_next hs) (keepsRes_ite (keepsRes_next (keeps_mbxPost hs)) (keepsRes_ite (keepsRes_next hs) ?_))
  refine keepsRes_ite (keepsRes_next (herr _ _ _ _ hs)) ?_
  split
  · exact keepsRes_next (herr _ _ _ _ hs)
  · refine keepsRes_ite (keepsRes_next (herr _ _ _ _ hs)) ?_
    split
    · exact keepsRes_next (herr _ _ _ _ hs)
    · refine keepsRes_ite (keepsRes_next (herr _ _ _ _ hs)) ?_
      split
      rename_i u hu
      have hu : Keeps s₀ u := Keeps.of_snd (keeps_fresh hs) hu
      exact keepsRes_next (keeps_mbxPost (keeps_mk (keeps_turnPlots (keeps_audit (keeps_mk hu)))))

theorem keeps_execEndSession {i : SessIx} (hs : Keeps s₀ s) : KeepsRes s₀ (execEndSession i s) :=
  keepsRes_next (keeps_onlyIf (keeps_endSession hs) hs)

theorem keeps_execSessionHeartbeatExpiry {i : SessIx} (hs : Keeps s₀ s) : KeepsRes s₀ (execSessionHeartbeatExpiry i s) :=
  keepsRes_next (keeps_onlyIf (keeps_endSession hs) hs)

theorem keeps_spdmAnswer {f : Nat} (hs : Keeps s₀ s) : Keeps s₀ (s.spdmAnswer f).1 := by
  unfold State.spdmAnswer
  extract_lets _ _ _ _ s1
  have hs1 : Keeps s₀ s1 := keeps_mk hs
  refine keepsFst_ite (keeps_mk hs) (keepsFst_ite ?_ hs1)
  split
  rename_i x1
  exact keeps_mk (Keeps.of_snd (keeps_fresh hs) x1)

theorem keeps_execSpdmRequest {f : FnIx} (hs : Keeps s₀ s) : KeepsRes s₀ (execSpdmRequest f s) := by
  unfold execSpdmRequest
  extract_lets s1
  have hs1 : Keeps s₀ s1 := keeps_mk hs
  refine keepsRes_ite (keepsRes_next hs) ?_
  refine keepsRes_ite (keepsRes_next (keeps_mbxPost hs)) ?_
  refine keepsRes_ite (keepsRes_next hs) ?_
  refine keepsRes_next ?_
  refine keeps_ite ?_ (keeps_mbxPost hs1)
  split
  rename_i x1 _ x2
  have hx3 : Keeps s₀ x1 := Keeps.of_fst (keeps_spdmAnswer hs) x2
  exact keeps_mbxPost hx3

theorem keeps_execSecuredMessage {f : FnIx} (hs : Keeps s₀ s) : KeepsRes s₀ (execSecuredMessage f s) := by
  unfold execSecuredMessage
  extract_lets
  refine keepsRes_ite (keepsRes_next hs) ?_
  refine keepsRes_ite (keepsRes_next (keeps_mbxPost hs)) ?_
  refine keepsRes_ite (keepsRes_next hs) ?_
  split
  · exact keepsRes_next (keeps_mbxPost hs)
  · exact keepsRes_next (keeps_mbxPost hs)
  · extract_lets _ s1
    have hs1 : Keeps s₀ s1 := keeps_mk hs
    exact keepsRes_ite (keepsRes_next (keeps_mbxPost hs)) (keepsRes_next (keeps_mbxPost hs1))

theorem keeps_setSlot {o : Origin} {i : Nat} {k : KeySlot} (hs : Keeps s₀ s) : Keeps s₀ (s.setSlot o i k) := keeps_audit (keeps_mk hs)

theorem keeps_newKey {o : Origin} {i t : Nat} {key : BitVec 512} (hs : Keeps s₀ s) : Keeps s₀ (s.newKey o i t key) := keeps_setSlot hs

theorem keeps_setAlloc {o : Origin} {t : Nat} {v : Option Nat} (hs : Keeps s₀ s) : Keeps s₀ (s.setAlloc o t v) := by
  unfold State.setAlloc
  extract_lets
  split
  · exact hs
  · exact keeps_onlyIf (keeps_audit (keeps_mk hs)) hs

theorem keeps_moveAlloc {slot : Nat} {v : Option Nat} (hs : Keeps s₀ s) : Keeps s₀ (s.moveAlloc slot v) :=
  keeps_foldl hs (fun _ _ h1 => keeps_setAlloc h1)

theorem keeps_allocSlotOf {t : Nat} (hs : Keeps s₀ s) : Keeps s₀ (s.allocSlotOf t).2 := by
  unfold State.allocSlotOf
  refine keepsSnd_ite hs ?_
  split
  · exact hs
  · split
    · exact hs
    · split
      · exact hs
      · split
        rename_i x1 x2
        have hx3 : Keeps s₀ x1 := Keeps.of_snd (keeps_draw hs) x2
        exact keeps_setAlloc (keeps_newKey hx3)

theorem keeps_destroySlot {o : Origin} {slot : Nat} (hs : Keeps s₀ s) : Keeps s₀ (s.destroySlot o slot) := keeps_setSlot hs

theorem keeps_rotJournal {r : Rotation} (hs : Keeps s₀ s) : Keeps s₀ (s.rotJournal r) := by
  unfold State.rotJournal
  extract_lets _ _ s1
  have hs1 : Keeps s₀ s1 := keeps_blockWrite (keeps_blockWrite hs)
  exact keeps_mk hs1

theorem keeps_startRotation {o : Origin} {slot : Nat} {freed : Option Nat} (hs : Keeps s₀ s) : Keeps s₀ (s.startRotation o slot freed) := by
  unfold State.startRotation
  extract_lets
  split
  rename_i x1 x2
  have hx3 : Keeps s₀ x1 := Keeps.of_snd (keeps_draw hs) x2
  extract_lets _ _ s1 _ s2
  have hs1 : Keeps s₀ s1 := keeps_setSlot hx3
  have hs2 : Keeps s₀ s2 := keeps_foldl hs1 (fun _ _ h1 => keeps_change h1)
  split
  extract_lets s3
  have hs3 : Keeps s₀ s3 := keeps_mk hs2
  exact keeps_rotJournal (keeps_commitHist hs3)

theorem keeps_keyAction {i : Nat} (hs : Keeps s₀ s) : Keeps s₀ (s.keyAction i) := by
  unfold State.keyAction
  extract_lets
  refine keeps_ite (keeps_mk hs) ?_
  refine keeps_ite hs ?_
  refine keeps_ite (keeps_destroySlot hs) ?_
  split
  · exact keeps_mk hs
  · exact keeps_startRotation hs

theorem keeps_reportSlot {slot : Nat} (hs : Keeps s₀ s) : Keeps s₀ (s.reportSlot slot) := keeps_mk hs

theorem keeps_endRotation {r : Rotation} (hs : Keeps s₀ s) : Keeps s₀ (s.endRotation r) := by
  unfold State.endRotation
  extract_lets _ _ _ _ _ s1 _ _ s2 _ _ s3
  have hs1 : Keeps s₀ s1 := keeps_setSlot hs
  have hs2 : Keeps s₀ s2 := keeps_foldl hs1 (fun _ _ h1 => keeps_change h1)
  have hs3 : Keeps s₀ s3 := keeps_mk hs2
  exact keeps_foldl (keeps_commitHist hs3) (fun _ _ h2 => keeps_keyAction h2)

theorem keeps_reencrypt {r : Rotation} {l : Loc} {i pa : Nat} {es : List ReadErr} (hs : Keeps s₀ s) :
    Keeps s₀ (s.reencrypt r l i pa es) := by
  unfold State.reencrypt
  extract_lets _ _ _ put
  have hput : ∀ u ln, Keeps s₀ u → Keeps s₀ (put u ln) := by
    intro u ln hu
    unfold put
    split
    exact keeps_ite (keeps_putLine hu) (keeps_ite (keeps_lineRecord (keeps_pmuAes (keeps_incRc hu))) (keeps_ite hu (keeps_putLine hu)))
  split
  · rename_i ht
    exact keeps_putLine (keeps_uncorrectable (Keeps.of_snd (keeps_decodeTries hs) ht))
  · rename_i ht
    exact hput _ _ (keeps_corrected (Keeps.of_snd (keeps_decodeTries hs) ht))

theorem keeps_lineActs {base n : Nat} (hs : Keeps s₀ s) : Keeps s₀ (s.lineActs base n) := by
  unfold State.lineActs
  refine keeps_foldl hs (fun _ _ h1 => ?_)
  extract_lets
  exact keeps_onAct h1

theorem keeps_rotChunk {r : Rotation} {errs : List (Fin 1024 × ReadErr)} (hs : Keeps s₀ s) : Keeps s₀ (s.rotChunk r errs) := by
  unfold State.rotChunk
  extract_lets _ _ _ s1 _ _ _ s2
  have hs1 : Keeps s₀ s1 := keeps_lineActs hs
  have hs2 : Keeps s₀ s2 := keeps_foldl hs1 (fun _ _ h1 => keeps_reencrypt h1)
  exact keeps_mk hs2

theorem keeps_execRotationChunkCommit {errs : List (Fin 1024 × ReadErr)} (hs : Keeps s₀ s) :
    KeepsRes s₀ (execRotationChunkCommit errs s) := by
  unfold execRotationChunkCommit
  extract_lets
  split
  · exact keepsRes_next hs
  · extract_lets _ s1 _ s2
    have hs1 : Keeps s₀ s1 := keeps_rotChunk hs
    have hs2 : Keeps s₀ s2 := keeps_rotJournal hs1
    refine keepsRes_ite (keepsRes_next hs) ?_
    refine keepsRes_ite (keepsRes_next (keeps_destroySlot hs)) ?_
    refine keepsRes_ite ?_ ?_
    · split
      · exact keepsRes_next (keeps_endRotation hs)
      · extract_lets _ s3
        have hs3 : Keeps s₀ s3 := keeps_rotJournal (keeps_rotChunk hs)
        refine keepsRes_next ?_
        split
        · exact keeps_endRotation hs3
        · exact hs3
        · exact hs3
    · refine keepsRes_ite (keepsRes_next (keeps_mk hs)) ?_
      refine keepsRes_next ?_
      refine keeps_ite ?_ hs2
      split
      · exact keeps_endRotation hs2
      · exact hs2

theorem keeps_execSlotDestroyDone {slot : Fin 272} (hs : Keeps s₀ s) : KeepsRes s₀ (execSlotDestroyDone slot s) := by
  unfold execSlotDestroyDone
  extract_lets _ _ _ _ s1 s2 _ s3 _ s4
  have hs1 : Keeps s₀ s1 := keeps_setSlot hs
  have hs2 : Keeps s₀ s2 := keeps_moveAlloc (keeps_reportSlot hs1)
  have hs3 : Keeps s₀ s3 := keeps_mk hs2
  have hs4 : Keeps s₀ s4 := keeps_ite (keeps_commitHist (keeps_mk hs3)) hs3
  refine keepsRes_ite (keepsRes_next hs) ?_
  split
  · exact keepsRes_next hs4
  · exact keepsRes_next (keeps_foldl (keeps_mk hs4) (fun _ _ h1 => keeps_keyAction h1))

theorem keeps_execKeyCopyRepair {slot : Fin 272} {half differs : Bool} (hs : Keeps s₀ s) :
    KeepsRes s₀ (execKeyCopyRepair slot half differs s) := by
  unfold execKeyCopyRepair
  extract_lets
  refine keepsRes_ite (keepsRes_next hs) ?_
  refine keepsRes_ite (keepsRes_next (keeps_mk hs)) ?_
  split
  · exact keepsRes_next hs
  · extract_lets _ s1 s2 _ s3 _ _ s4
    have hs1 : Keeps s₀ s1 := keeps_setSlot hs
    have hs2 : Keeps s₀ s2 := keeps_foldl hs1 (fun _ _ h1 => keeps_change h1)
    have hs3 : Keeps s₀ s3 := keeps_turnSlot hs2
    have hs4 : Keeps s₀ s4 := keeps_mk hs3
    exact keepsRes_next (keeps_setSlot (keeps_moveAlloc hs4))

theorem keeps_execKeyGenerate {i : SessIx} (hs : Keeps s₀ s) : KeepsRes s₀ (execKeyGenerate i s) := by
  unfold execKeyGenerate
  refine keepsRes_next ?_
  refine keeps_serveT hs (fun _ _ h1 => ?_)
  split
  · exact h1
  · split
    rename_i x1 x2
    have hx3 : Keeps s₀ x1 := Keeps.of_snd (keeps_draw h1) x2
    exact keeps_newKey hx3

theorem keeps_execKeyUnwrap {i : SessIx} {wrapped : BitVec 576} (hs : Keeps s₀ s) : KeepsRes s₀ (execKeyUnwrap i wrapped s) := by
  unfold execKeyUnwrap
  refine keepsRes_next (keeps_serveT hs (fun _ x h1 => ?_))
  cases ho : kwUnwrap (kdf (leBytes x.ems 48) (ascii "MYR-KW") 256) (leBytes wrapped 72) with
  | none => simpa only [ho] using h1
  | some pair =>
    simp only [ho]
    refine keepsFst_ite h1 ?_
    split
    · exact h1
    · exact keeps_newKey h1

theorem keeps_execKeyRotate {i : SessIx} {slot : Fin 512} (hs : Keeps s₀ s) : KeepsRes s₀ (execKeyRotate i slot s) :=
  keepsRes_next (keeps_serveT hs (fun _ _ h1 => keepsFst_ite h1 (keepsFst_ite h1 (keepsFst_ite h1 (keeps_startRotation h1)))))

theorem keeps_execSetAllocSlot {i : SessIx} {slot : Fin 512} (hs : Keeps s₀ s) : KeepsRes s₀ (execSetAllocSlot i slot s) :=
  keepsRes_next (keeps_serveT hs (fun _ _ h1 => keepsFst_ite h1 (keeps_setAlloc h1)))

theorem keeps_execSlotQuery {i : SessIx} (hs : Keeps s₀ s) : KeepsRes s₀ (execSlotQuery i s) :=
  keepsRes_next (keeps_serveT hs (fun _ _ h1 => h1))

theorem keeps_execKeyDestroy {i : SessIx} {slot : Fin 512} (hs : Keeps s₀ s) : KeepsRes s₀ (execKeyDestroy i slot s) :=
  keepsRes_next (keeps_serveT hs (fun _ _ h1 => keepsFst_ite h1 (keepsFst_ite h1 (keeps_destroySlot h1))))

theorem keeps_execTenantCreate {f : FnIx} {t : Byte} {digest : BitVec 384} (hs : Keeps s₀ s) :
    KeepsRes s₀ (execTenantCreate f t digest s) := by
  unfold execTenantCreate
  refine keepsRes_next ?_
  refine keeps_serve hs (fun _ h1 => ?_)
  extract_lets _ s1
  have hs1 : Keeps s₀ s1 := keeps_mk h1
  exact keepsFst_ite h1 (keepsFst_ite h1 (keepsFst_ite h1 (keeps_audit hs1)))

theorem keeps_execTenantDelete {f : FnIx} {t : Byte} (hs : Keeps s₀ s) : KeepsRes s₀ (execTenantDelete f t s) := by
  unfold execTenantDelete
  extract_lets
  refine keepsRes_next ?_
  refine keeps_serve hs (fun _ h1 => ?_)
  extract_lets _ s1
  have hs1 : Keeps s₀ s1 := keeps_mk h1
  exact keepsFst_ite h1 (keepsFst_ite h1 (keepsFst_ite h1 (keepsFst_ite h1 (keeps_audit hs1))))

theorem keeps_setBind {o : Origin} {t : Nat} {b : Bind} (hs : Keeps s₀ s) : Keeps s₀ (s.setBind o t b) := by
  unfold State.setBind
  extract_lets _ _ s1 s2 s3
  have hs1 : Keeps s₀ s1 := keeps_mk hs
  have hs2 : Keeps s₀ s2 := keeps_wr (keeps_wr hs1)
  have hs3 : Keeps s₀ s3 := keeps_ite (keeps_mk hs2) hs1
  exact keeps_audit hs3

theorem keeps_startRingZero {f : Nat} (hs : Keeps s₀ s) : Keeps s₀ (s.startRingZero f) := keeps_mk hs

theorem keeps_bindTo {o : Origin} {target t : Nat} (hs : Keeps s₀ s) : KeepsOpt s₀ (s.bindTo o target t) := by
  unfold State.bindTo
  extract_lets
  refine keepsOpt_ite (keepsOpt_some (keeps_setBind hs)) ?_
  split
  · rename_i x1 x2
    have hx3 : Keeps s₀ x1 := Keeps.of_snd (keeps_allocSlotOf hs) x2
    exact keepsOpt_none
  · rename_i x4 x5
    have hx6 : Keeps s₀ x4 := Keeps.of_snd (keeps_allocSlotOf hs) x5
    extract_lets _ s1
    have hs1 : Keeps s₀ s1 := keeps_mk hx6
    exact keepsOpt_some (keeps_startRingZero (keeps_resetRings (keeps_setBind hs1)))

theorem keeps_execBindOffer {f : FnIx} {target : Fin 256} {t : Byte} (hs : Keeps s₀ s) : KeepsRes s₀ (execBindOffer f target t s) := by
  unfold execBindOffer
  refine keepsRes_next (keeps_serve hs (fun _ h1 => ?_))
  refine keepsFst_ite h1 (keepsFst_ite h1 (keepsFst_ite h1 (keepsFst_ite h1 (keepsFst_ite ?_ (keeps_setBind h1)))))
  exact keeps_getD (keeps_bindTo h1) h1

theorem keeps_execBindAccept {i : SessIx} {target : Fin 256} (hs : Keeps s₀ s) : KeepsRes s₀ (execBindAccept i target s) := by
  unfold execBindAccept
  refine keepsRes_next ?_
  refine keeps_serveT hs (fun _ _ h1 => ?_)
  extract_lets
  refine keepsFst_ite h1 ?_
  refine keepsFst_ite h1 ?_
  refine keepsFst_ite h1 ?_
  split
  · exact h1
  · rename_i x1 x2
    have hx3 : Keeps s₀ x1 := keeps_bindTo h1 _ x2
    exact hx3

theorem keeps_unbindTarget {o : Origin} {target : Nat} (hs : Keeps s₀ s) : Keeps s₀ (s.unbindTarget o target) := by
  unfold State.unbindTarget
  extract_lets _ s1 _ _ _ s2
  have hs1 : Keeps s₀ s1 := keeps_setBind hs
  have hs2 : Keeps s₀ s2 := keeps_mk hs1
  exact keeps_ite hs1 (keeps_ite (keeps_breakOwned (keeps_foldl hs1 (fun _ _ h1 => keeps_withdraw h1))) (keeps_startRingZero
      (keeps_resetRings hs2)))

theorem keeps_execUnbind {sess : Option SessIx} {f : FnIx} {target : Fin 256} (hs : Keeps s₀ s) :
    KeepsRes s₀ (execUnbind sess f target s) := by
  unfold execUnbind
  split
  · exact keepsRes_next (keeps_serveT hs (fun _ _ h1 => keepsFst_ite h1 (keepsFst_ite h1 (keeps_unbindTarget h1))))
  · exact keepsRes_next (keeps_serve hs (fun _ h2 => keepsFst_ite h2 (keepsFst_ite h2 (keepsFst_ite h2 (keeps_unbindTarget h2)))))

theorem keeps_execRingAreaZeroingDone {f : FnIx} (hs : Keeps s₀ s) : KeepsRes s₀ (execRingAreaZeroingDone f s) := by
  unfold execRingAreaZeroingDone
  extract_lets s1
  have hs1 : Keeps s₀ s1 := keeps_zeroRings hs
  exact keepsRes_next (keeps_onlyIf (keeps_mk hs1) hs)

theorem keeps_writeEntry {seq : Nat} {bytes : List Byte} (hs : Keeps s₀ s) : Keeps s₀ (s.writeEntry seq bytes) :=
  keeps_blockWrite (keeps_blockWrite hs)

theorem keeps_chainEntry {stamp : Nat} {bytes : List Byte} (hs : Keeps s₀ s) : Keeps s₀ (s.chainEntry stamp bytes) := by
  unfold State.chainEntry
  extract_lets _ _ s1
  have hs1 : Keeps s₀ s1 := keeps_foldl (keeps_wr hs) (fun _ _ h1 => keeps_wr h1)
  exact keeps_mk hs1

theorem keeps_appendEntry {e : AuditEnt} {link : BitVec 384} (hs : Keeps s₀ s) : Keeps s₀ (s.appendEntry e link) := by
  unfold State.appendEntry
  extract_lets _ _ s1
  have hs1 : Keeps s₀ s1 := keeps_onlyIf (keeps_incRc hs) hs
  exact keeps_chainEntry (keeps_writeEntry hs1)

theorem keeps_execAuditCheckpoint (hs : Keeps s₀ s) : KeepsRes s₀ (execAuditCheckpoint s) := by
  unfold execAuditCheckpoint
  split
  · exact keepsRes_next hs
  · extract_lets
    refine keepsRes_ite (keepsRes_next hs) ?_
    split
    rename_i x1 x2
    have hx3 : Keeps s₀ x1 := Keeps.of_snd (keeps_draw hs) x2
    extract_lets
    exact keepsRes_next (keeps_mk hx3)

theorem keeps_execAuditAck {f : FnIx} {seq : W64} (hs : Keeps s₀ s) : KeepsRes s₀ (execAuditAck f seq s) := by
  unfold execAuditAck
  refine keepsRes_next ?_
  refine keeps_serve hs (fun _ h1 => ?_)
  extract_lets
  exact keepsFst_ite h1 (keepsFst_ite h1 (keeps_auditReg (keeps_wr h1)))

theorem keeps_execAuditHead {f : FnIx} (hs : Keeps s₀ s) : KeepsRes s₀ (execAuditHead f s) :=
  keepsRes_next (keeps_serve hs (fun _ h1 => h1))

theorem keeps_execCkptGet {f : FnIx} {slot : BitVec 16} (hs : Keeps s₀ s) : KeepsRes s₀ (execCkptGet f slot s) :=
  keepsRes_next (keeps_serve hs (fun _ h1 => keepsFst_ite h1 h1))

/-! ### `Sys2Proof/Machine/Lantern.lean` -/

theorem keeps_retire {j c n : Nat} (hs : Keeps s₀ s) : Keeps s₀ (s.retire j c n) := by
  unfold State.retire
  extract_lets
  split
  extract_lets _ s1
  have hs1 : Keeps s₀ s1 := keeps_setCtx hs
  split
  · exact keeps_drainCtx hs1
  · exact keeps_ite hs1 (keeps_ite (keeps_setCtx hs1) (keeps_failAt hs1))

theorem keeps_advanceIp {j c words cycles : Nat} (hs : Keeps s₀ s) : Keeps s₀ (s.advanceIp j c words cycles) :=
  keeps_retire (keeps_modCtx hs)

theorem keeps_markIssue {j c : Nat} (hs : Keeps s₀ s) : Keeps s₀ (s.markIssue j c) := by
  unfold State.markIssue
  extract_lets s1 _ s2
  have hs1 : Keeps s₀ s1 := keeps_modLnt hs
  have hs2 : Keeps s₀ s2 := keeps_modCtx hs1
  exact keeps_evt (keeps_pmuCtx hs2)

theorem keeps_issue {j c : Nat} {p : Nat → Bool} {run : State → BitVec 128 → BitVec 128 → State} (hs : Keeps s₀ s) (hrun : ∀ u v w, Keeps s₀
    u → Keeps s₀ (run u v w)) :
    KeepsRes s₀ (s.issue j c p run) := by
  unfold State.issue
  extract_lets _ s1
  have hs1 : Keeps s₀ s1 := keeps_markIssue hs
  split
  · exact keepsRes_next hs
  · refine keepsRes_next ?_
    refine keeps_onlyIf ?_ hs
    refine keeps_ite (keeps_failAt (keeps_modLnt hs)) ?_
    refine keeps_ite (keeps_failInstr hs1) ?_
    refine keeps_ite (keeps_failInstr hs1) ?_
    refine keeps_ite ?_ (hrun _ _ _ hs1)
    split
    · exact keeps_failInstr hs1
    · exact keeps_ite (keeps_failInstr hs1) (hrun _ _ _ hs1)

theorem keeps_postRecord {j c : Nat} {b : Job} {f : JobFin} (hs : Keeps s₀ s) : Keeps s₀ (s.postRecord j c b f) := by
  unfold State.postRecord
  extract_lets _ _ s1
  have hs1 : Keeps s₀ s1 := keeps_modCtx hs
  exact keeps_ite (keeps_modCtx hs) (keeps_ite (keeps_mk hs1) hs)

theorem keeps_execJobEnd {j : Cluster} {c : CtxIx} (hs : Keeps s₀ s) : KeepsRes s₀ (execJobEnd j c s) := by
  unfold execJobEnd
  extract_lets
  refine keepsRes_ite (keepsRes_next hs) ?_
  split
  · extract_lets
    exact keepsRes_ite (keepsRes_next hs) (keepsRes_ite (keepsRes_ite (keepsRes_next (keeps_postRecord (keeps_modCtx hs))) (keepsRes_next
        hs)) (keepsRes_next (keeps_postRecord hs)))
  · exact keepsRes_next hs
  · exact keepsRes_next hs
  · exact keepsRes_next hs

theorem keeps_execJobAbort {j : Cluster} {c : CtxIx} (hs : Keeps s₀ s) : KeepsRes s₀ (execJobAbort j c s) :=
  keepsRes_ite (keepsRes_next hs) (keepsRes_next (keeps_onlyIf (keeps_failAt hs) hs))

theorem keeps_execContextDrainEnd {j : Cluster} {c : CtxIx} (hs : Keeps s₀ s) : KeepsRes s₀ (execContextDrainEnd j c s) :=
  keepsRes_ite (keepsRes_next hs) (keepsRes_next (keeps_onlyIf (keeps_setCtx hs) hs))

theorem keeps_execContextClearDone {j : Cluster} {c : CtxIx} (hs : Keeps s₀ s) : KeepsRes s₀ (execContextClearDone j c s) := by
  unfold execContextClearDone
  refine keepsRes_ite (keepsRes_next hs) ?_
  split
  · exact keepsRes_next hs
  · exact keepsRes_next (keeps_onlyIf (keeps_setCtx hs) hs)

theorem keeps_execPairedWrite {j : Cluster} {b : Bool} (hs : Keeps s₀ s) : KeepsRes s₀ (execPairedWrite j b s) := by
  unfold execPairedWrite
  refine keeps_orWait hs (fun _ h1 => ?_)
  extract_lets _ s1
  have hs1 : Keeps s₀ s1 := keeps_wr h1
  exact keepsRes_ite (keepsRes_next h1) (keepsRes_next (keeps_onlyIf (keeps_audit hs1) hs1))

/-! ### `Sys2Proof/Machine/Posy.lean` -/

theorem keeps_setPosy {k : Nat} {p : Posy} (hs : Keeps s₀ s) : Keeps s₀ (s.setPosy k p) := keeps_mk hs

theorem keeps_posyTake {k : Nat} {f : Flight} (hs : Keeps s₀ s) : Keeps s₀ (s.posyTake k f).1 := by
  unfold State.posyTake
  extract_lets
  refine keepsFst_ite (keeps_incRc hs) ?_
  refine keepsFst_ite (keeps_incRc hs) ?_
  split
  · extract_lets s1 s2
    have hs1 : Keeps s₀ s1 := keeps_ite hs (keeps_incRc hs)
    have hs2 : Keeps s₀ s2 := keeps_ite hs (keeps_incRc hs)
    exact keepsFst_ite (keeps_incRc hs) (keepsFst_ite (keeps_incRc (keeps_setPosy hs1)) (keeps_incRc (keeps_setPosy hs2)))
  · exact keepsFst_ite (keeps_incRc hs) (keepsFst_ite (keeps_incRc hs) (keeps_incWrap (keeps_setPosy hs)))

theorem keeps_execPosyTake {k : Cluster} (hs : Keeps s₀ s) : KeepsRes s₀ (execPosyTake k s) := by
  unfold execPosyTake
  extract_lets
  split
  · exact keepsRes_next hs
  · extract_lets _ s1
    have hs1 : Keeps s₀ s1 := keeps_setPosy hs
    refine keepsRes_next ?_
    refine keeps_onlyIf ?_ hs
    split
    rename_i x1 _ x2
    have hx3 : Keeps s₀ x1 := Keeps.of_fst (keeps_posyTake hs1) x2
    extract_lets s2
    have hs2 : Keeps s₀ s2 := keeps_onlyIf (keeps_evt hx3) hx3
    exact keeps_modFlight hs2

theorem keeps_execPosyEvict {k : Cluster} {i : Fin 512} (hs : Keeps s₀ s) : KeepsRes s₀ (execPosyEvict k i s) := by
  unfold execPosyEvict
  extract_lets
  refine keepsRes_ite (keepsRes_next hs) ?_
  split
  · exact keepsRes_next hs
  · exact keepsRes_next (keeps_onlyIf (keeps_record (keeps_incRc (keeps_setPosy hs))) hs)

theorem keeps_freeEnts {k : Nat} {p : PosyEnt → Bool} (hs : Keeps s₀ s) : Keeps s₀ (s.freeEnts k p) := by
  unfold State.freeEnts
  extract_lets _ _ s1
  have hs1 : Keeps s₀ s1 := keeps_setPosy hs
  exact keeps_modLnt hs1

theorem keeps_execPosyPlotFree {k : Cluster} {index : Fin 4096} (hs : Keeps s₀ s) : KeepsRes s₀ (execPosyPlotFree k index s) := by
  unfold execPosyPlotFree
  extract_lets
  refine keepsRes_ite (keepsRes_next hs) ?_
  split
  · exact keepsRes_next hs
  · extract_lets
    exact keepsRes_next (keeps_onlyIf (keeps_freeEnts (keeps_setPosy hs)) hs)

theorem keeps_emptyPosy {k : Nat} (hs : Keeps s₀ s) : Keeps s₀ (s.emptyPosy k) := keeps_freeEnts hs

theorem keeps_execPosyCfgWrite {k : Cluster} {v : W32} (hs : Keeps s₀ s) : KeepsRes s₀ (execPosyCfgWrite k v s) := by
  unfold execPosyCfgWrite
  extract_lets
  refine keeps_orWait hs (fun _ h1 => ?_)
  extract_lets _ s1 s2
  have hs1 : Keeps s₀ s1 := keeps_onlyIf (keeps_wr h1) h1
  have hs2 : Keeps s₀ s2 := keeps_onlyIf (keeps_wr hs1) hs1
  exact keepsRes_ite (keepsRes_next h1) (keepsRes_next (keeps_auditReg hs2))

/-! ### `Sys2Proof/Machine/Silent.lean` -/

theorem keeps_standIn {j a : Nat} (hs : Keeps s₀ s) : Keeps s₀ (s.standIn j a).1 := by
  unfold State.standIn
  split
  · exact hs
  · exact keeps_wr (keeps_setRole hs)

theorem keeps_standDown {j : Nat} {x : Option Nat} (hs : Keeps s₀ s) : Keeps s₀ (s.standDown j x) := by
  unfold State.standDown
  split
  · exact hs
  · exact keeps_wr (keeps_setRole hs)

theorem keeps_silentRec {cls sev j arr stand sub elem chunk result : Nat} {detecting journaled : Bool} {c : Option Nat} {unit : Option (Nat
    × Nat)} {follows : Bool} (hs : Keeps s₀ s) :
    Keeps s₀ (s.silentRec cls sev j arr stand sub elem chunk result detecting journaled c unit follows) := by
  unfold State.silentRec
  exact keeps_record hs

theorem keeps_choose {j a : Nat} (hs : Keeps s₀ s) : Keeps s₀ (s.choose j a) := keeps_ite (keeps_modLnt hs) hs

theorem keeps_startTest {j : Nat} {t : ATest} (hs : Keeps s₀ s) : Keeps s₀ (s.startTest j t) := by
  unfold State.startTest
  extract_lets
  refine keeps_ite hs ?_
  refine keeps_ite (keeps_modLnt (keeps_setRole hs)) ?_
  refine keeps_ite ?_ hs
  split
  · refine keeps_modLnt ?_
    refine keeps_setRole ?_
    split
    · exact keeps_modCtx hs
    · exact hs
  · split
    rename_i x1 _ x2
    have hx3 : Keeps s₀ x1 := Keeps.of_fst (keeps_standIn hs) x2
    exact keeps_modLnt (keeps_setRole hx3)
  · exact hs

theorem keeps_tryTests {j : Nat} (hs : Keeps s₀ s) : Keeps s₀ (s.tryTests j) := keeps_foldl hs (fun _ _ h1 => keeps_startTest h1)

theorem keeps_addTest {j : Nat} {t : ATest} (hs : Keeps s₀ s) : Keeps s₀ (s.addTest j t) := keeps_tryTests (keeps_modLnt (keeps_choose hs))

theorem keeps_testStep {j c : Nat} (hs : Keeps s₀ s) : Keeps s₀ (s.testStep j c) := by
  unfold State.testStep
  extract_lets
  refine keeps_ite hs ?_
  split
  · extract_lets
    split
    · extract_lets s1
      have hs1 : Keeps s₀ s1 := keeps_setCtx hs
      exact keeps_addTest hs1
    · exact keeps_ite (keeps_failInstr hs) (keeps_advanceIp (keeps_setCtx hs))
  · exact hs

theorem keeps_testNext {j c a : Nat} (hs : Keeps s₀ s) : Keeps s₀ (s.testNext j c a) := by
  unfold State.testNext
  extract_lets
  split
  · exact keeps_ite (keeps_testStep (keeps_setCtx hs)) hs
  · exact hs
  · exact hs
  · exact hs
  · exact hs
  · exact hs
  · exact hs
  · exact hs

theorem keeps_testBad {j c a : Nat} (hs : Keeps s₀ s) : Keeps s₀ (s.testBad j c a) := keeps_modCtx hs

theorem keeps_fenceLantern {j : Nat} {follows : Bool} (hs : Keeps s₀ s) : Keeps s₀ (s.fenceLantern j follows) := by
  unfold State.fenceLantern
  extract_lets s1 s2 s3 s4 s5 s6
  have hs1 : Keeps s₀ s1 := keeps_wr (keeps_wr hs)
  have hs2 : Keeps s₀ s2 := by
    unfold s2
    refine keeps_foldl hs1 (fun _ _ h1 => ?_)
    extract_lets
    exact keeps_ite (keeps_setCtx h1) h1
  have hs3 : Keeps s₀ s3 := keeps_emptyPosy hs2
  have hs4 : Keeps s₀ s4 := keeps_foldl hs3 (fun _ _ h2 => keeps_ite (keeps_standDown (keeps_setRole h2)) h2)
  have hs5 : Keeps s₀ s5 := keeps_modLnt hs4
  have hs6 : Keeps s₀ s6 := keeps_setMap hs5
  exact keeps_ite hs (keeps_silentRec hs6)

theorem keeps_fenceNow {j a : Nat} {pf0 : Bool} (hs : Keeps s₀ s) : Keeps s₀ (s.fenceNow j a pf0) := by
  unfold State.fenceNow
  extract_lets _ _ _ s1 _ s2
  have hs1 : Keeps s₀ s1 := keeps_modLnt hs
  have hs2 : Keeps s₀ s2 := keeps_setMap (keeps_wr (keeps_setRole hs1))
  split
  rename_i x1 _ x2
  have hx3 : Keeps s₀ x1 := Keeps.of_fst (by
      split
      · exact keeps_wr hs2
      · exact keepsFst_ite (keeps_standIn hs2) hs2
      ) x2
  extract_lets s3 s4 s5
  have hs3 : Keeps s₀ s3 := keeps_silentRec hx3
  have hs4 : Keeps s₀ s4 := keeps_onlyIf (keeps_wr hs3) hs3
  have hs5 : Keeps s₀ s5 := keeps_onlyIf (keeps_fenceLantern hs4) hs4
  refine keeps_foldl hs5 (fun _ _ h1 => ?_)
  split
  · exact keeps_testNext h1
  · exact h1

theorem keeps_fenceArr {j a : Nat} {pf0 : Bool} (hs : Keeps s₀ s) : Keeps s₀ (s.fenceArr j a pf0) := by
  unfold State.fenceArr
  extract_lets s1
  have hs1 : Keeps s₀ s1 := keeps_choose hs
  exact keeps_ite hs (keeps_ite (keeps_modLnt hs1) (keeps_fenceNow hs1))

theorem keeps_settleFences {j : Nat} (hs : Keeps s₀ s) : Keeps s₀ (s.settleFences j) :=
  keeps_foldl hs (fun _ _ h1 => keeps_ite h1 (keeps_fenceNow h1))

theorem keeps_sweepGo {j : Nat} {x : List Nat} (hs : Keeps s₀ s) : Keeps s₀ (s.sweepGo j x) := by
  induction x generalizing s with
  | nil => exact hs
  | cons a q ih =>
    unfold State.sweepGo
    split
    · exact hs
    · extract_lets _ _ s1
      have hs1 : Keeps s₀ s1 := keeps_modLnt hs
      exact keeps_ite (ih hs1) (keeps_ite hs (ih (keeps_addTest hs1)))

theorem keeps_sweepStep {j : Nat} (hs : Keeps s₀ s) : Keeps s₀ (s.sweepStep j) := by
  unfold State.sweepStep
  split
  · exact hs
  · exact keeps_sweepGo hs

theorem keeps_startSweep {js : List Nat} {rounds : Nat} {rep : Option Nat} (hs : Keeps s₀ s) : Keeps s₀ (s.startSweep js rounds rep) := by
  unfold State.startSweep
  extract_lets
  refine keeps_ite hs ?_
  refine keeps_foldl (keeps_wr hs) (fun _ _ h1 => ?_)
  extract_lets _ s1 s2 s3
  have hs1 : Keeps s₀ s1 := keeps_modLnt h1
  have hs2 : Keeps s₀ s2 := keeps_setMap hs1
  have hs3 : Keeps s₀ s3 := keeps_foldl hs2 (fun _ _ h2 => keeps_addTest h2)
  exact keeps_sweepStep hs3

theorem keeps_repeatSweep {j : Nat} (hs : Keeps s₀ s) : Keeps s₀ (s.repeatSweep j) := keeps_startSweep hs

theorem keeps_countUnit {u : HistUnit} (hs : Keeps s₀ s) : Keeps s₀ (s.countUnit u).1 := keeps_setHist hs

theorem keeps_arrayEvent {j a : Nat} {rec_ : Bool} (hs : Keeps s₀ s) : Keeps s₀ (s.arrayEvent j a rec_) := by
  unfold State.arrayEvent
  extract_lets s1 _ s2
  have hs1 : Keeps s₀ s1 := keeps_incRc hs
  have hs2 : Keeps s₀ s2 := keeps_ite hs1 (keeps_mk hs1)
  refine keeps_ite hs1 ?_
  refine keeps_ite (keeps_ite hs1 (keeps_addTest hs1)) ?_
  split
  rename_i x1 _ x2
  have hx3 : Keeps s₀ x1 := Keeps.of_fst (keeps_countUnit hs2) x2
  exact keeps_ite (keeps_fenceArr (keeps_markPermanent hx3)) hx3

theorem keeps_lanternEvent {j : Nat} {rec_ : Bool} (hs : Keeps s₀ s) : Keeps s₀ (s.lanternEvent j rec_) := by
  unfold State.lanternEvent
  extract_lets s1 _ s2 s3
  have hs1 : Keeps s₀ s1 := keeps_incRc hs
  have hs2 : Keeps s₀ s2 := keeps_mk hs1
  have hs3 : Keeps s₀ s3 := keeps_ite hs1 (keeps_mk hs1)
  refine keeps_ite hs1 ?_
  refine keeps_ite (keeps_ite hs1 (keeps_ite hs2 (keeps_repeatSweep hs2))) ?_
  split
  rename_i x1 _ x2
  have hx3 : Keeps s₀ x1 := Keeps.of_fst (keeps_countUnit hs3) x2
  exact keeps_ite (keeps_fenceLantern (keeps_markPermanent hx3)) hx3

theorem keeps_execTest {j : Cluster} {c : CtxIx} (hs : Keeps s₀ s) : KeepsRes s₀ (execTest j c s) := by
  unfold execTest
  refine keeps_issue hs (fun _ _ _ h1 => ?_)
  extract_lets
  exact keeps_testStep (keeps_modCtx h1)

theorem keeps_finishTest {j : Nat} {t : ATest} (hs : Keeps s₀ s) : Keeps s₀ (s.finishTest j t) := by
  unfold State.finishTest
  extract_lets drop back then_ _ s1
  have hback : ∀ u, Keeps s₀ u → Keeps s₀ (back u) := fun u hu => keeps_standDown (keeps_setRole (keeps_modLnt hu))
  have hthen : ∀ u, Keeps s₀ u → Keeps s₀ (then_ u) := by
    intro u hu
    unfold then_
    split
    · exact keeps_modLnt (keeps_modLnt hu)
    · exact hback u hu
  split
  · exact keeps_ite (keeps_tryTests (keeps_fenceNow (keeps_markPermanent hs))) (keeps_tryTests (keeps_countUnit (hback s hs)))
  · exact keeps_sweepStep (keeps_tryTests (hthen _ (keeps_modLnt hs)))
  · exact keeps_testNext (keeps_tryTests (hthen s hs))

theorem keeps_execMarigoldRoundEnd {j : Cluster} {a : ArrIx} {mismatch parity : Bool} (hs : Keeps s₀ s) :
    KeepsRes s₀ (execMarigoldRoundEnd j a mismatch parity s) := by
  unfold execMarigoldRoundEnd
  refine keepsRes_ite (keepsRes_next hs) ?_
  split
  · exact keepsRes_next hs
  · extract_lets s1 s2 s3 _ s4 s5 _ s6
    have hs1 : Keeps s₀ s1 := by
      unfold s1
      split
      · exact keeps_onlyIf (keeps_testBad hs) hs
      · exact hs
    have hs2 : Keeps s₀ s2 := keeps_onlyIf (keeps_incRc hs1) hs1
    have hs3 : Keeps s₀ s3 := keeps_onlyIf (keeps_silentRec (keeps_incRc hs2)) hs2
    have hs4 : Keeps s₀ s4 := keeps_onlyIf (keeps_arrayEvent hs3) hs3
    have hs5 : Keeps s₀ s5 := keeps_ite hs4 (keeps_ite (keeps_modLnt hs4) (keeps_arrayEvent hs4))
    have hs6 : Keeps s₀ s6 := keeps_modLnt hs5
    exact keepsRes_next (keeps_onlyIf (keeps_ite hs6 (keeps_ite (keeps_finishTest hs6) hs6)) hs)

theorem keeps_execTestSpareDeadline {j : Cluster} {a : ArrIx} (hs : Keeps s₀ s) : KeepsRes s₀ (execTestSpareDeadline j a s) := by
  unfold execTestSpareDeadline
  refine keepsRes_ite (keepsRes_next hs) ?_
  split
  · exact keepsRes_next hs
  · exact keepsRes_ite (keepsRes_next hs) (keepsRes_next (keeps_tryTests (keeps_modLnt hs)))

theorem keeps_stepSweep (hs : Keeps s₀ s) : Keeps s₀ s.stepSweep := keeps_startSweep hs

theorem keeps_stepMark (hs : Keeps s₀ s) : Keeps s₀ s.stepMark := by
  unfold State.stepMark
  extract_lets _ s1 s2
  have hs1 : Keeps s₀ s1 := keeps_wr (keeps_wr hs)
  have hs2 : Keeps s₀ s2 := keeps_auditReg hs1
  exact keeps_ite (keeps_silentRec (keeps_incRc hs)) (keeps_ite hs2 (keeps_ite (keeps_wr hs2) (keeps_stepSweep hs2)))

theorem keeps_execMgStep (hs : Keeps s₀ s) : KeepsRes s₀ (execMgStep s) := by
  unfold execMgStep
  refine keeps_orWait hs (fun _ h1 => ?_)
  extract_lets
  exact keepsRes_ite (keepsRes_next (keeps_stepMark h1)) (keepsRes_next (keeps_onlyIf (keeps_mk h1) h1))

theorem keeps_execMgSweep {v : W32} (hs : Keeps s₀ s) : KeepsRes s₀ (execMgSweep v s) := by
  unfold execMgSweep
  refine keeps_orWait hs (fun _ h1 => ?_)
  extract_lets _ s1 s2 s3 _ s4
  have hs1 : Keeps s₀ s1 := keeps_onlyIf (keeps_ack h1) h1
  have hs2 : Keeps s₀ s2 := keeps_wr hs1
  have hs3 : Keeps s₀ s3 := keeps_onlyIf (keeps_wr hs2) hs2
  have hs4 : Keeps s₀ s4 := keeps_ite hs3 (keeps_ite (keeps_raise hs3) (keeps_startSweep hs3))
  exact keepsRes_ite (keepsRes_next h1) (keepsRes_next (keeps_auditReg hs4))

theorem keeps_afterSweep (hs : Keeps s₀ s) : Keeps s₀ s.afterSweep := by
  unfold State.afterSweep
  refine keeps_ite (keeps_stepSweep (keeps_wr hs)) ?_
  split
  · exact keeps_repeatSweep hs
  · exact hs

theorem keeps_execSweepEnd {digests : List W64} (hs : Keeps s₀ s) : KeepsRes s₀ (execSweepEnd digests s) := by
  unfold execSweepEnd
  extract_lets _ _ _ _ _ _ s1 s2 s3 s4 s5 s6
  have hs1 : Keeps s₀ s1 := keeps_foldl hs (fun _ _ h1 => keeps_setReg h1)
  have hs2 : Keeps s₀ s2 := keeps_wr (keeps_wr (keeps_incWrap hs1))
  have hs3 : Keeps s₀ s3 := keeps_foldl hs2 (fun _ _ h2 => keeps_modLnt h2)
  have hs4 : Keeps s₀ s4 := keeps_ite (keeps_silentRec hs3) hs3
  have hs5 : Keeps s₀ s5 := by
    unfold s5
    refine keeps_foldl hs4 (fun _ _ h3 => ?_)
    extract_lets _ _ s7 s8 _ s9
    have hs7 : Keeps s₀ s7 := keeps_ite (keeps_mk h3) h3
    have hs8 : Keeps s₀ s8 := keeps_mk hs7
    have hs9 : Keeps s₀ s9 := keeps_silentRec hs8
    exact keeps_ite (keeps_ite (keeps_fenceLantern (keeps_markPermanent hs9)) (keeps_countUnit hs8)) (keeps_ite (keeps_lanternEvent
        (keeps_silentRec hs7)) hs7)
  have hs6 : Keeps s₀ s6 := keeps_foldl hs5 (fun _ _ h4 => keeps_ite h4 (keeps_foldl h4 (fun _ _ h5 => keeps_arrayEvent h5)))
  exact keepsRes_ite (keepsRes_next hs) (keepsRes_next (keeps_ite hs6 (keeps_afterSweep hs6)))

theorem keeps_fenceEvent {cls j a : Nat} (hs : Keeps s₀ s) : Keeps s₀ (s.fenceEvent cls j a) := keeps_countUnit hs

theorem keeps_fenceCtl {k op a : Nat} (hs : Keeps s₀ s) : Keeps s₀ (s.fenceCtl k op a) := by
  unfold State.fenceCtl
  extract_lets _ _ s1 s2
  have hs1 : Keeps s₀ s1 := keeps_wr hs
  have hs2 : Keeps s₀ s2 := keeps_ite hs1 (keeps_ite (keeps_wr hs1) (keeps_ite (keeps_ite (keeps_wr hs1) (keeps_fenceLantern (keeps_wr
      (keeps_fenceEvent hs1)))) (keeps_ite (keeps_wr hs1) (keeps_ite (keeps_wr hs1) (keeps_fenceArr (keeps_wr (keeps_wr (keeps_fenceEvent
      hs1))))))))
  exact keeps_ite hs (keeps_auditReg hs2)

theorem keeps_execFenceArray {k : Cluster} {a : ArrIx} (hs : Keeps s₀ s) : KeepsRes s₀ (execFenceArray k a s) :=
  keeps_orWait hs (fun _ h1 => keepsRes_next (keeps_fenceCtl h1))

theorem keeps_execFenceLantern {k : Cluster} (hs : Keeps s₀ s) : KeepsRes s₀ (execFenceLantern k s) :=
  keeps_orWait hs (fun _ h1 => keepsRes_next (keeps_fenceCtl h1))

/-! ### `Sys2Proof/Machine/Chunks.lean` -/

theorem keeps_setDop {j c : Nat} {d : DOp} (hs : Keeps s₀ s) : Keeps s₀ (s.setDop j c d) := keeps_modCtx hs

theorem keeps_modDop {j c : Nat} {f : DOp → DOp} (hs : Keeps s₀ s) : Keeps s₀ (s.modDop j c f) := by
  unfold State.modDop
  split
  · exact keeps_setDop hs
  · exact hs

theorem keeps_modChunk {j c m : Nat} {f : Chunk → Chunk} (hs : Keeps s₀ s) : Keeps s₀ (s.modChunk j c m f) := keeps_modDop hs

theorem keeps_stopSends {j c m : Nat} (hs : Keeps s₀ s) : Keeps s₀ (s.stopSends j c m) := keeps_modLnt hs

theorem keeps_chunkFails {j c m : Nat} {e : Exc} (hs : Keeps s₀ s) : Keeps s₀ (s.chunkFails j c m e) := by
  unfold State.chunkFails
  extract_lets s1
  have hs1 : Keeps s₀ s1 := keeps_modChunk hs
  split
  · exact keeps_ite hs (keeps_ite (keeps_stopSends hs1) (keeps_ite (keeps_failInstr hs1) (keeps_modChunk (keeps_releaseHeld hs1))))
  · exact hs
  · exact hs

theorem keeps_pumpHost {j : Nat} (hs : Keeps s₀ s) : Keeps s₀ (s.pumpHost j) := by
  unfold State.pumpHost
  refine keeps_foldl hs (fun _ _ h1 => ?_)
  extract_lets
  split
  · extract_lets
    exact keeps_ite h1 (keeps_ite (keeps_chunkFails (keeps_setLnt h1)) (keeps_send (keeps_setLnt h1)))
  · exact h1
  · exact h1

theorem keeps_toCompute {j c m : Nat} (hs : Keeps s₀ s) : Keeps s₀ (s.toCompute j c m) := by
  unfold State.toCompute
  split
  · exact hs
  · extract_lets
    exact keeps_modChunk hs

theorem keeps_fetch {j c m : Nat} {lines : List (Nat × List Nat)} (hs : Keeps s₀ s) : Keeps s₀ (s.fetch j c m lines) := by
  unfold State.fetch
  split
  · extract_lets
    split
    extract_lets _ s1 _ _ s2
    have hs1 : Keeps s₀ s1 := keeps_modChunk hs
    have hs2 : Keeps s₀ s2 := keeps_ask (keeps_pumpHost (keeps_modLnt hs1))
    exact keeps_ite (keeps_toCompute hs2) hs2
  · exact hs
  · exact hs

theorem keeps_startChunk {j c m : Nat} (hs : Keeps s₀ s) : Keeps s₀ (s.startChunk j c m) := by
  unfold State.startChunk
  extract_lets _ s1
  have hs1 : Keeps s₀ s1 := keeps_modChunk hs
  split
  · exact hs
  · extract_lets
    refine keeps_ite (keeps_modChunk (keeps_fetch hs)) ?_
    refine keeps_ite ?_ (keeps_fetch hs)
    split
    · exact keeps_chunkFails hs1
    · exact hs1

theorem keeps_beginChunk {j c : Nat} (hs : Keeps s₀ s) : Keeps s₀ (s.beginChunk j c) := by
  unfold State.beginChunk
  split
  · exact hs
  · exact keeps_ite (keeps_startChunk (keeps_setDop hs)) hs

theorem keeps_beginChunks {j c : Nat} (hs : Keeps s₀ s) : Keeps s₀ (s.beginChunks j c) := keeps_beginChunk (keeps_beginChunk hs)

theorem keeps_inputsDone {j c m : Nat} (hs : Keeps s₀ s) : Keeps s₀ (s.inputsDone j c m) := by
  unfold State.inputsDone
  split
  · extract_lets
    split
    · split
      · exact keeps_chunkFails hs
      · exact keeps_fetch hs
    · exact keeps_toCompute hs
    · exact hs
    · exact hs
    · exact hs
    · exact hs
    · exact hs
  · exact hs
  · exact hs

theorem keeps_giveLines {j c m : Nat} {ls : List (Nat × LineData)} (hs : Keeps s₀ s) : Keeps s₀ (s.giveLines j c m ls) := by
  unfold State.giveLines
  split
  · exact hs
  · extract_lets _ s1
    have hs1 : Keeps s₀ s1 := keeps_modChunk hs
    exact keeps_ite (keeps_beginChunks (keeps_inputsDone hs1)) hs1

theorem keeps_freeKeys {j : Nat} {ks : List PosyKey} (hs : Keeps s₀ s) : Keeps s₀ (s.freeKeys j ks) := keeps_setPosy hs

theorem keeps_discard {j c : Nat} {E : DEnv} {x : BitVec 128} {total : Nat} (hs : Keeps s₀ s) : Keeps s₀ (s.discard j c E x total) := by
  unfold State.discard
  split
  rename_i u _ hu
  have hk : Keeps s₀ u := by
    refine Keeps.of_fst (keepsFst_foldl hs fun a m h1 => ?_) hu
    refine keepsFst_ite h1 ?_
    split
    · exact h1
    · exact keeps_freeKeys h1
  split
  · exact keeps_failInstr hk
  · exact keeps_advanceIp (keeps_modCtx hk)

theorem keeps_startData {j c : Nat} {w x : BitVec 128} (hs : Keeps s₀ s) : Keeps s₀ (s.startData j c w x) := by
  unfold State.startData
  extract_lets
  split
  · exact hs
  · split
    · exact keeps_failInstr hs
    · split
      · exact keeps_failInstr hs
      · split
        exact keeps_ite (keeps_discard hs) (keeps_beginChunks (keeps_setDop hs))

theorem keeps_execMove {j : Cluster} {c : CtxIx} (hs : Keeps s₀ s) : KeepsRes s₀ (execMove j c s) :=
  keeps_issue hs (fun _ _ _ h1 => keeps_startData h1)

theorem keeps_execFill {j : Cluster} {c : CtxIx} (hs : Keeps s₀ s) : KeepsRes s₀ (execFill j c s) :=
  keeps_issue hs (fun _ _ _ h1 => keeps_startData h1)

theorem keeps_execGather {j : Cluster} {c : CtxIx} (hs : Keeps s₀ s) : KeepsRes s₀ (execGather j c s) :=
  keeps_issue hs (fun _ _ _ h1 => keeps_startData h1)

theorem keeps_execScatter {j : Cluster} {c : CtxIx} (hs : Keeps s₀ s) : KeepsRes s₀ (execScatter j c s) :=
  keeps_issue hs (fun _ _ _ h1 => keeps_startData h1)

theorem keeps_execCast {j : Cluster} {c : CtxIx} (hs : Keeps s₀ s) : KeepsRes s₀ (execCast j c s) :=
  keeps_issue hs (fun _ _ _ h1 => keeps_startData h1)

theorem keeps_execQuant {j : Cluster} {c : CtxIx} (hs : Keeps s₀ s) : KeepsRes s₀ (execQuant j c s) :=
  keeps_issue hs (fun _ _ _ h1 => keeps_startData h1)

theorem keeps_execDeq {j : Cluster} {c : CtxIx} (hs : Keeps s₀ s) : KeepsRes s₀ (execDeq j c s) :=
  keeps_issue hs (fun _ _ _ h1 => keeps_startData h1)

theorem keeps_execEw {j : Cluster} {c : CtxIx} (hs : Keeps s₀ s) : KeepsRes s₀ (execEw j c s) :=
  keeps_issue hs (fun _ _ _ h1 => keeps_startData h1)

theorem keeps_execOpt {j : Cluster} {c : CtxIx} (hs : Keeps s₀ s) : KeepsRes s₀ (execOpt j c s) :=
  keeps_issue hs (fun _ _ _ h1 => keeps_startData h1)

theorem keeps_execMma {j : Cluster} {c : CtxIx} (hs : Keeps s₀ s) : KeepsRes s₀ (execMma j c s) :=
  keeps_issue hs (fun _ _ _ h1 => keeps_startData h1)

theorem keeps_execNorm {j : Cluster} {c : CtxIx} (hs : Keeps s₀ s) : KeepsRes s₀ (execNorm j c s) :=
  keeps_issue hs (fun _ _ _ h1 => keeps_startData h1)

theorem keeps_execCheck {j : Cluster} {c : CtxIx} (hs : Keeps s₀ s) : KeepsRes s₀ (execCheck j c s) :=
  keeps_issue hs (fun _ _ _ h1 => keeps_startData h1)

theorem keeps_execDigest {j : Cluster} {c : CtxIx} (hs : Keeps s₀ s) : KeepsRes s₀ (execDigest j c s) :=
  keeps_issue hs (fun _ _ _ h1 => keeps_startData h1)

theorem keeps_execContribInstr {j : Cluster} {c : CtxIx} (hs : Keeps s₀ s) : KeepsRes s₀ (execContribInstr j c s) :=
  keeps_issue hs (fun _ _ _ h1 => keeps_startData h1)

theorem keeps_execCollect {j : Cluster} {c : CtxIx} (hs : Keeps s₀ s) : KeepsRes s₀ (execCollect j c s) :=
  keeps_issue hs (fun _ _ _ h1 => keeps_startData h1)

theorem keeps_handOp {j c m i : Nat} {arrs : List Nat} (hs : Keeps s₀ s) : Keeps s₀ (s.handOp j c m i arrs) := by
  unfold State.handOp
  extract_lets
  split
  · exact hs
  · extract_lets _ _ _ s1 s2
    have hs1 : Keeps s₀ s1 := keeps_modLnt hs
    have hs2 : Keeps s₀ s2 := keeps_modChunk hs1
    exact keeps_evt (keeps_pmuCtx hs2)

theorem keeps_handRef {j : Nat} {t : ATest} {arrs : List Nat} (hs : Keeps s₀ s) : Keeps s₀ (s.handRef j t arrs) := by
  unfold State.handRef
  extract_lets
  exact keeps_modLnt hs

theorem keeps_execArrayOpDispatch {j : Cluster} (hs : Keeps s₀ s) : KeepsRes s₀ (execArrayOpDispatch j s) := by
  unfold execArrayOpDispatch
  extract_lets
  refine keepsRes_ite (keepsRes_next hs) ?_
  refine keepsRes_ite (keepsRes_next hs) ?_
  split
  · exact keepsRes_next (keeps_handRef hs)
  · split
    · exact keepsRes_next hs
    · split
      · exact keepsRes_next (keeps_handOp hs)
      · exact keepsRes_next (keeps_handRef hs)
      · exact keepsRes_next hs

theorem keeps_execArrayOpEnd {j : Cluster} {a : ArrIx} (hs : Keeps s₀ s) : KeepsRes s₀ (execArrayOpEnd j a s) := by
  unfold execArrayOpEnd
  extract_lets s1
  have hs1 : Keeps s₀ s1 := keeps_modLnt hs
  refine keepsRes_ite (keepsRes_next hs) ?_
  split
  · exact keepsRes_next hs
  · extract_lets _ s2
    have hs2 : Keeps s₀ s2 := keeps_ite (keeps_modLnt hs1) (keeps_ite hs1 (keeps_beginChunks (keeps_modChunk hs1)))
    exact keepsRes_next (keeps_onlyIf (keeps_tryTests (keeps_settleFences (keeps_modLnt hs2))) hs)

theorem keeps_sendOuts {j c : Nat} {d : DOp} {m : Nat} {outs : List OutLine} (hs : Keeps s₀ s) : Keeps s₀ (s.sendOuts j c d m outs) := by
  unfold State.sendOuts
  extract_lets _ _ s1
  have hs1 : Keeps s₀ s1 := keeps_modChunk hs
  refine keeps_ite (keeps_chunkFails hs) ?_
  refine keeps_ite ?_ (keeps_ask hs1)
  split
  · exact hs1
  · extract_lets
    exact keeps_modChunk (keeps_foldl hs1 (fun _ _ h1 => keeps_foldl h1 (fun _ _ h2 => keeps_send h2)))

theorem keeps_journalChunk {j c : Nat} {d : DOp} {ch : Chunk} {partial_ : Bool} {p : OutLine → Bool} (hs : Keeps s₀ s) :
    Keeps s₀ (s.journalChunk j c d ch partial_ p) :=
  keeps_ite hs (keeps_journal hs)

theorem keeps_endData {j c : Nat} {d : DOp} (hs : Keeps s₀ s) : Keeps s₀ (s.endData j c d) := keeps_advanceIp (keeps_modCtx hs)

theorem keeps_commitChunk {j c : Nat} (hs : Keeps s₀ s) : Keeps s₀ (s.commitChunk j c) := by
  unfold State.commitChunk
  split
  · exact hs
  · split
    · exact hs
    · extract_lets s1 _ s2
      have hs1 : Keeps s₀ s1 := keeps_journalChunk hs
      have hs2 : Keeps s₀ s2 := keeps_ite hs1 (keeps_setPosy hs1)
      split
      · exact keeps_ite (keeps_endData (keeps_evt (keeps_pmuCtx (keeps_setDop hs2)))) (keeps_beginChunks (keeps_evt (keeps_pmuCtx
          (keeps_setDop hs2))))
      · split
        · exact keeps_ite (keeps_evt (keeps_pmuCtx (keeps_setDop hs2))) (keeps_failInstr (keeps_evt (keeps_pmuCtx (keeps_setDop hs2))))
        · exact keeps_beginChunks (keeps_evt (keeps_pmuCtx (keeps_setDop hs2)))

theorem keeps_passChunk {j c : Nat} {d : DOp} {ch : Chunk} {r : DRes} (hs : Keeps s₀ s) : Keeps s₀ (s.passChunk j c d ch r) := by
  unfold State.passChunk
  extract_lets _ _ _ _ s1
  have hs1 : Keeps s₀ s1 := keeps_modDop hs
  split
  · exact keeps_chunkFails hs
  · exact keeps_ite (keeps_beginChunk (keeps_ask (keeps_modChunk hs1))) (keeps_ite (keeps_commitChunk (keeps_modChunk hs1))
      (keeps_beginChunk (keeps_sendOuts hs1)))

theorem keeps_replayArr {j : Nat} {ch : Chunk} (hs : Keeps s₀ s) : Keeps s₀ (s.replayArr j ch).1 := by
  unfold State.replayArr
  extract_lets
  split
  · exact keeps_setRole hs
  · exact hs

theorem keeps_failVerdict {j c : Nat} {d : DOp} {ch : Chunk} {first : Nat × Nat × Nat} (hs : Keeps s₀ s) :
    Keeps s₀ (s.failVerdict j c d ch first) := by
  unfold State.failVerdict
  extract_lets _ _ s1
  have hs1 : Keeps s₀ s1 := keeps_evt (keeps_incRc hs)
  split
  rename_i x1 _ _ x2
  have hx3 : Keeps s₀ x1 := Keeps.of_fst (keeps_replayArr hs1) x2
  extract_lets
  exact keeps_modChunk hx3

theorem keeps_holdReplays {j : Nat} (hs : Keeps s₀ s) : Keeps s₀ (s.holdReplays j) := by
  unfold State.holdReplays
  extract_lets s1
  have hs1 : Keeps s₀ s1 := keeps_modLnt hs
  refine keeps_foldl hs1 (fun _ _ h1 => ?_)
  split
  · exact keeps_ite (keeps_setDop h1) h1
  · exact h1

theorem keeps_storeErrs {j : Nat} {f : ChunkFault} (hs : Keeps s₀ s) : Keeps s₀ (s.storeErrs j f) := by
  unfold State.storeErrs
  extract_lets s1
  have hs1 : Keeps s₀ s1 := keeps_ite hs (keeps_incRc hs)
  exact keeps_onlyIf (keeps_lanternEvent (keeps_incRc hs1)) hs1

theorem keeps_flagged {j : Nat} {f : Option (Fin 9 × Nat × ArrIx)} (hs : Keeps s₀ s) : Keeps s₀ (s.flagged j f) := by
  unfold State.flagged
  split
  · exact hs
  · exact keeps_ite (keeps_arrayEvent (keeps_incRc hs)) (keeps_ite (keeps_incRc hs) hs)

theorem keeps_again {j c : Nat} {d : DOp} {ch : Chunk} (hs : Keeps s₀ s) : Keeps s₀ (s.again j c d ch) := by
  unfold State.again
  extract_lets _ s1
  have hs1 : Keeps s₀ s1 := keeps_modLnt hs
  refine keeps_ite (keeps_startChunk (keeps_modChunk hs1)) ?_
  split
  · exact keeps_modChunk hs
  · exact hs
  · exact hs
  · exact hs
  · exact hs
  · exact hs
  · exact hs

theorem keeps_execChunkVerdict {j : Cluster} {c : CtxIx} {f : ChunkFault} (hs : Keeps s₀ s) : KeepsRes s₀ (execChunkVerdict j c f s) := by
  unfold execChunkVerdict
  extract_lets s1
  have hs1 : Keeps s₀ s1 := keeps_storeErrs hs
  refine keepsRes_ite (keepsRes_next hs) ?_
  split
  · exact keepsRes_next hs
  · split
    · split
      · exact keepsRes_next hs
      · exact keepsRes_next (keeps_ite hs1 (keeps_ite (keeps_chunkFails hs1) (keeps_again hs1)))
    · extract_lets
      refine keepsRes_ite (keepsRes_next hs) ?_
      refine keepsRes_ite (keepsRes_next (keeps_again hs1)) ?_
      split
      · exact keepsRes_next (keeps_passChunk hs1)
      · exact keepsRes_next (keeps_failVerdict (keeps_flagged hs1))

theorem keeps_chargeArr {j a : Nat} (hs : Keeps s₀ s) : Keeps s₀ (s.chargeArr j a) := keeps_ite (keeps_arrayEvent hs) hs

theorem keeps_rangeFail {j c m code e : Nat} (hs : Keeps s₀ s) : Keeps s₀ (s.rangeFail j c m code e) := keeps_chunkFails hs

theorem keeps_replayedRec {j c m : Nat} {first : Nat × Nat × Nat} {charged : Bool} (hs : Keeps s₀ s) :
    Keeps s₀ (s.replayedRec j c m first charged) :=
  keeps_silentRec (keeps_incRc hs)

theorem keeps_rangeRec {j c m : Nat} {first : Nat × Nat × Nat} (hs : Keeps s₀ s) : Keeps s₀ (s.rangeRec j c m first) :=
  keeps_silentRec (keeps_incRc hs)

theorem keeps_unresolvedRec {j c m : Nat} {first : Nat × Nat × Nat} {lantern : Bool} (hs : Keeps s₀ s) :
    Keeps s₀ (s.unresolvedRec j c m first lantern) :=
  keeps_silentRec (keeps_incRc hs)

theorem keeps_replayPass {j c : Nat} {d : DOp} {ch : Chunk} {arr : Nat} {r : DRes} (hs : Keeps s₀ s) :
    Keeps s₀ (s.replayPass j c d ch arr r) := by
  unfold State.replayPass
  extract_lets _ s1 s2
  have hs1 : Keeps s₀ s1 := keeps_modChunk hs
  have hs2 : Keeps s₀ s2 := keeps_modDop hs1
  exact keeps_passChunk hs2

theorem keeps_unresolved {j c m code e : Nat} (hs : Keeps s₀ s) : Keeps s₀ (s.unresolved j c m code e) := keeps_rangeFail (keeps_mk hs)

theorem keeps_differs {j c m : Nat} {first : Nat × Nat × Nat} {code2 e2 : Nat} (hs : Keeps s₀ s) :
    Keeps s₀ (s.differs j c m first code2 e2) := by
  unfold State.differs
  extract_lets _ s1
  have hs1 : Keeps s₀ s1 := keeps_unresolvedRec hs
  exact keeps_unresolved (keeps_ite (keeps_lanternEvent hs1) (keeps_chargeArr hs1))

theorem keeps_identical {j c m : Nat} {first : Nat × Nat × Nat} (hs : Keeps s₀ s) : Keeps s₀ (s.identical j c m first) := by
  unfold State.identical
  extract_lets s1
  have hs1 : Keeps s₀ s1 := keeps_rangeRec hs
  exact keeps_rangeFail (keeps_onlyIf (keeps_chargeArr hs1) hs1)

theorem keeps_execReplayDecide {j : Cluster} {c : CtxIx} {v : ReplayResult} (hs : Keeps s₀ s) : KeepsRes s₀ (execReplayDecide j c v s) := by
  unfold execReplayDecide
  refine keepsRes_ite (keepsRes_next hs) ?_
  split
  · exact keepsRes_next hs
  · refine keepsRes_ite (keepsRes_next hs) ?_
    split
    · exact keepsRes_next hs
    · extract_lets _ s1
      have hs1 : Keeps s₀ s1 := keeps_replayOver hs
      split
      extract_lets s2
      have hs2 : Keeps s₀ s2 := by
        unfold s2
        split
        · extract_lets _ _ s3 s4
          have hs3 : Keeps s₀ s3 := keeps_onlyIf (keeps_chargeArr (keeps_replayedRec hs1)) (keeps_replayedRec hs1)
          have hs4 : Keeps s₀ s4 := keeps_onlyIf (keeps_chargeArr hs3) hs3
          exact keeps_ite (keeps_replayPass hs4) (keeps_ite (keeps_identical hs1) (keeps_replayPass (keeps_chargeArr (keeps_replayedRec
              hs1))))
        · exact keeps_ite (keeps_unresolved (keeps_lanternEvent (keeps_unresolvedRec hs1))) (keeps_ite (keeps_identical hs1) (keeps_differs
            hs1))
        · exact keeps_ite (keeps_identical hs1) (keeps_replayPass (keeps_chargeArr (keeps_replayedRec hs1)))
        · exact keeps_ite (keeps_identical hs1) (keeps_differs hs1)
      exact keepsRes_next (keeps_tryTests (keeps_settleFences hs2))

theorem keeps_execChunkCommit {j : Cluster} {c : CtxIx} (hs : Keeps s₀ s) : KeepsRes s₀ (execChunkCommit j c s) :=
  keepsRes_ite (keepsRes_next hs) (keepsRes_next (keeps_onlyIf (keeps_commitChunk hs) hs))

theorem keeps_execChunkWriteFail {j : Cluster} {c : CtxIx} (hs : Keeps s₀ s) : KeepsRes s₀ (execChunkWriteFail j c s) := by
  unfold execChunkWriteFail
  refine keepsRes_ite (keepsRes_next hs) ?_
  split
  · exact keepsRes_next hs
  · split
    · exact keepsRes_next hs
    · split
      · exact keepsRes_next hs
      · exact keepsRes_next (keeps_onlyIf (keeps_failInstr (keeps_foldl hs (fun _ _ h1 => keeps_journalChunk h1))) hs)

theorem keeps_execDroppedResend {j : Cluster} {tag : Nat} (hs : Keeps s₀ s) : KeepsRes s₀ (execDroppedResend j tag s) := by
  unfold execDroppedResend
  split
  · exact keepsRes_next hs
  · exact keepsRes_next (keeps_onlyIf (keeps_evt (keeps_resend hs)) hs)

theorem keeps_execContribResend {j : Cluster} {c : CtxIx} {tag : Nat} (hs : Keeps s₀ s) : KeepsRes s₀ (execContribResend j c tag s) := by
  unfold execContribResend
  refine keepsRes_ite (keepsRes_next hs) ?_
  split
  · extract_lets
    refine keepsRes_ite (keepsRes_next hs) ?_
    split
    · exact keepsRes_next (keeps_ite (keeps_chunkFails (keeps_freeTag hs)) (keeps_ite (keeps_resend hs) hs))
    · exact keepsRes_next (keeps_resend hs)
    · exact keepsRes_next hs
    · exact keepsRes_next hs
    · exact keepsRes_next hs
    · exact keepsRes_next hs
    · exact keepsRes_next hs
    · exact keepsRes_next hs
    · exact keepsRes_next hs
    · exact keepsRes_next hs
    · exact keepsRes_next hs
  · exact keepsRes_next hs
  · exact keepsRes_next hs

theorem keeps_execCollectWaitEnd {j : Cluster} {c : CtxIx} (hs : Keeps s₀ s) : KeepsRes s₀ (execCollectWaitEnd j c s) := by
  unfold execCollectWaitEnd
  extract_lets
  refine keepsRes_ite (keepsRes_next hs) ?_
  split
  · exact keepsRes_next hs
  · extract_lets
    split
    · exact keepsRes_next hs
    · extract_lets _ _ _ s1 _ _ _ s2
      have hs1 : Keeps s₀ s1 := keeps_setPosy hs
      have hs2 : Keeps s₀ s2 := keeps_modChunk hs1
      refine keepsRes_next ?_
      refine keeps_onlyIf ?_ hs
      split
      · exact keeps_chunkFails hs2
      · exact keeps_beginChunks hs2

theorem keeps_dataReply {j : Nat} {q : LReq} {m reg : Nat} {r : LReply} (hs : Keeps s₀ s) : Keeps s₀ (s.dataReply j q m reg r) := by
  unfold State.dataReply
  extract_lets s1
  have hs1 : Keeps s₀ s1 := keeps_freeTag hs
  exact keeps_ite (keeps_setReq hs) (keeps_ite (keeps_giveLines (keeps_pmuCtx hs1)) (keeps_chunkFails hs1))

theorem keeps_outReply {j : Nat} {q : LReq} {m : Nat} {r : LReply} (hs : Keeps s₀ s) : Keeps s₀ (s.outReply j q m r) := by
  unfold State.outReply
  extract_lets s1
  have hs1 : Keeps s₀ s1 := keeps_freeTag hs
  refine keeps_ite (keeps_setReq hs) ?_
  refine keeps_ite (keeps_modChunk (keeps_pmuCtx hs1)) ?_
  split
  · exact hs1
  · extract_lets
    exact keeps_ite hs1 (keeps_stopSends (keeps_modChunk hs1))

theorem keeps_contribReply {j : Nat} {q : LReq} {m : Nat} {r : LReply} (hs : Keeps s₀ s) : Keeps s₀ (s.contribReply j q m r) := by
  unfold State.contribReply
  extract_lets
  split
  · exact keeps_freeTag hs
  · extract_lets
    exact keeps_ite (keeps_setReq hs) (keeps_ite (keeps_ite (keeps_chunkFails (keeps_freeTag hs)) (keeps_setReq hs)) (keeps_ite (keeps_ite
        (keeps_chunkFails (keeps_freeTag hs)) (keeps_setReq hs)) (keeps_outReply hs)))

theorem keeps_lateHost {j tag gen : Nat} (hs : Keeps s₀ s) : Keeps s₀ (s.lateHost j tag gen) := by
  unfold State.lateHost
  extract_lets _ s1
  have hs1 : Keeps s₀ s1 := keeps_record (keeps_incRc hs)
  exact keeps_pumpHost (keeps_modLnt hs1)

theorem keeps_execHostReadCompletion {j : Cluster} {tag : HostTag} {result : Fin 4} {data : List Byte} (hs : Keeps s₀ s) :
    KeepsRes s₀ (execHostReadCompletion j tag result data s) := by
  unfold execHostReadCompletion
  extract_lets s1
  have hs1 : Keeps s₀ s1 := keeps_pumpHost (keeps_modLnt hs)
  refine keepsRes_ite (keepsRes_next (keeps_lateHost hs)) ?_
  split
  · exact keepsRes_next hs
  · extract_lets s2
    have hs2 : Keeps s₀ s2 := keeps_mk hs1
    refine keepsRes_ite (keepsRes_next hs) ?_
    refine keepsRes_next ?_
    split
    · exact hs2
    · exact keeps_ite (keeps_giveLines hs2) (keeps_chunkFails hs2)

/-! ### `Sys2Proof/Machine/Amnubo.lean` -/

theorem keeps_execInstrReservedOpcode {j : Cluster} {c : CtxIx} (hs : Keeps s₀ s) : KeepsRes s₀ (execInstrReservedOpcode j c s) :=
  keeps_issue hs (fun _ _ _ h1 => h1)

theorem keeps_execNop {j : Cluster} {c : CtxIx} (hs : Keeps s₀ s) : KeepsRes s₀ (execNop j c s) :=
  keeps_issue hs (fun _ _ _ h1 => keeps_advanceIp h1)

theorem keeps_doLoop {j c : Nat} {w : BitVec 128} (hs : Keeps s₀ s) : Keeps s₀ (s.doLoop j c w) :=
  keeps_ite (keeps_failInstr hs) (keeps_ite (keeps_retire (keeps_modCtx hs)) (keeps_ite (keeps_failInstr hs) (keeps_ite (keeps_failInstr hs)
      (keeps_retire (keeps_setCtx hs)))))

theorem keeps_execLoop {j : Cluster} {c : CtxIx} (hs : Keeps s₀ s) : KeepsRes s₀ (execLoop j c s) :=
  keeps_issue hs (fun _ _ _ h1 => keeps_doLoop h1)

theorem keeps_execBr {j : Cluster} {c : CtxIx} (hs : Keeps s₀ s) : KeepsRes s₀ (execBr j c s) := by
  unfold execBr
  refine keeps_issue hs (fun _ _ _ h1 => ?_)
  extract_lets
  refine keeps_ite (keeps_advanceIp h1) ?_
  refine keeps_ite (keeps_failInstr h1) ?_
  split
  exact keeps_retire (keeps_setCtx h1)

theorem keeps_endJob {j c : Nat} (hs : Keeps s₀ s) : Keeps s₀ (s.endJob j c) := by
  unfold State.endJob
  extract_lets
  split
  · exact keeps_drainCtx hs
  · exact keeps_setCtx hs

theorem keeps_execRet {j : Cluster} {c : CtxIx} (hs : Keeps s₀ s) : KeepsRes s₀ (execRet j c s) := by
  unfold execRet
  refine keeps_issue hs (fun _ _ _ h1 => ?_)
  extract_lets
  refine keeps_ite (keeps_failInstr h1) ?_
  split
  · exact keeps_endJob h1
  · exact keeps_retire (keeps_setCtx h1)

theorem keeps_readLoad {j c : Nat} {l : Load} {rs : List LReq} (hs : Keeps s₀ s) : Keeps s₀ (s.readLoad j c l rs) :=
  keeps_ask (keeps_modCtx hs)

theorem keeps_enterCall {j c : Nat} {w x : BitVec 128} {img : Option Image} {got : List (Nat × LineData)} {cycles : Nat} (hs : Keeps s₀ s) :
    Keeps s₀ (s.enterCall j c w x img got cycles) := by
  unfold State.enterCall
  extract_lets
  refine keeps_ite (keeps_advanceIp (keeps_setCtx hs)) ?_
  split
  · exact hs
  · extract_lets
    exact keeps_retire (keeps_setCtx hs)

theorem keeps_execCall {j : Cluster} {c : CtxIx} (hs : Keeps s₀ s) : KeepsRes s₀ (execCall j c s) := by
  unfold execCall
  refine keeps_issue hs (fun _ _ _ h1 => ?_)
  refine keeps_ite (keeps_failInstr h1) (keeps_ite (keeps_failInstr h1) (keeps_ite (keeps_readLoad h1) ?_))
  split
  · exact keeps_enterCall h1
  · exact keeps_readLoad h1

theorem keeps_failLoad {j c : Nat} {l : Load} {e : Exc} (hs : Keeps s₀ s) : Keeps s₀ (s.failLoad j c l e) :=
  keeps_ite (keeps_failInstr hs) (keeps_failAt hs)

theorem keeps_execCallLoadComplete {j : Cluster} {c : CtxIx} (hs : Keeps s₀ s) : KeepsRes s₀ (execCallLoadComplete j c s) := by
  unfold execCallLoadComplete
  extract_lets
  refine keepsRes_ite (keepsRes_next hs) ?_
  split
  · extract_lets
    refine keepsRes_ite (keepsRes_next hs) ?_
    split
    · exact keepsRes_next (keeps_failLoad hs)
    · split
      · exact keepsRes_next (keeps_enterCall hs)
      · extract_lets
        refine keepsRes_ite ?_ ?_
        · split
          · exact keepsRes_next (keeps_failLoad hs)
          · exact keepsRes_ite (keepsRes_next (keeps_failLoad hs)) (keepsRes_next (keeps_readLoad hs))
        · refine keepsRes_ite (keepsRes_next (keeps_failLoad hs)) ?_
          refine keepsRes_ite (keepsRes_next (keeps_setCtx hs)) ?_
          refine keepsRes_ite (keepsRes_next (keeps_failLoad hs)) ?_
          split
          · exact keepsRes_next (keeps_enterCall hs)
          · exact keepsRes_next (keeps_readLoad (keeps_setCtx hs))
  · exact keepsRes_next hs
  · exact keepsRes_next hs
  · exact keepsRes_next hs
  · exact keepsRes_next hs
  · exact keepsRes_next hs
  · exact keepsRes_next hs
  · exact keepsRes_next hs

theorem keeps_poll {j c : Nat} (hs : Keeps s₀ s) : Keeps s₀ (s.poll j c) := by
  unfold State.poll
  extract_lets
  split
  · extract_lets
    exact keeps_ask (keeps_setCtx hs)
  · exact hs
  · exact hs
  · exact hs
  · exact hs
  · exact hs
  · exact hs
  · exact hs

theorem keeps_execWait {j : Cluster} {c : CtxIx} (hs : Keeps s₀ s) : KeepsRes s₀ (execWait j c s) := by
  unfold execWait
  refine keeps_issue hs (fun _ _ _ h1 => ?_)
  extract_lets
  split
  · exact keeps_failInstr h1
  · exact keeps_poll (keeps_setCtx h1)

theorem keeps_execWaitPoll {j : Cluster} {c : CtxIx} (hs : Keeps s₀ s) : KeepsRes s₀ (execWaitPoll j c s) := by
  unfold execWaitPoll
  refine keepsRes_ite (keepsRes_next hs) ?_
  split
  · exact keepsRes_next (keeps_onlyIf (keeps_poll hs) hs)
  · exact keepsRes_next hs
  · exact keepsRes_next hs
  · exact keepsRes_next hs
  · exact keepsRes_next hs
  · exact keepsRes_next hs
  · exact keepsRes_next hs
  · exact keepsRes_next hs

theorem keeps_endWait {j c : Nat} {w : BitVec 128} {v : W64} {timeout : Bool} (hs : Keeps s₀ s) : Keeps s₀ (s.endWait j c w v timeout) :=
  keeps_advanceIp (keeps_modCtx hs)

theorem keeps_execWaitPollReply {j : Cluster} {c : CtxIx} (hs : Keeps s₀ s) : KeepsRes s₀ (execWaitPollReply j c s) := by
  unfold execWaitPollReply
  extract_lets
  refine keepsRes_ite (keepsRes_next hs) ?_
  split
  · split
    · exact keepsRes_next hs
    · extract_lets
      exact keepsRes_ite (keepsRes_next hs) (keepsRes_ite (keepsRes_next (keeps_endWait hs)) (keepsRes_ite (keepsRes_next (keeps_failInstr
          hs)) (keepsRes_ite (keepsRes_next (keeps_ite (keeps_endWait hs) (keeps_failInstr hs))) (keepsRes_next (keeps_setCtx hs)))))
  · exact keepsRes_next hs
  · exact keepsRes_next hs
  · exact keepsRes_next hs
  · exact keepsRes_next hs
  · exact keepsRes_next hs
  · exact keepsRes_next hs
  · exact keepsRes_next hs

theorem keeps_execWaitDeadline {j : Cluster} {c : CtxIx} (hs : Keeps s₀ s) : KeepsRes s₀ (execWaitDeadline j c s) := by
  unfold execWaitDeadline
  extract_lets
  refine keepsRes_ite (keepsRes_next hs) ?_
  split
  · extract_lets _ s1
    have hs1 : Keeps s₀ s1 := keeps_setCtx hs
    exact keepsRes_ite (keepsRes_next hs) (keepsRes_next (keeps_ite hs (keeps_ite hs1 (keeps_poll hs1))))
  · exact keepsRes_next hs
  · exact keepsRes_next hs
  · exact keepsRes_next hs
  · exact keepsRes_next hs
  · exact keepsRes_next hs
  · exact keepsRes_next hs
  · exact keepsRes_next hs

theorem keeps_localWake {j line : Nat} (hs : Keeps s₀ s) : Keeps s₀ (s.localWake j line) := by
  unfold State.localWake
  extract_lets
  refine keeps_foldl hs (fun _ _ h1 => ?_)
  extract_lets
  split
  · exact keeps_ite (keeps_setCtx h1) h1
  · exact h1
  · exact h1
  · exact h1
  · exact h1
  · exact h1
  · exact h1
  · exact h1

theorem keeps_holdCtx {j c : Nat} (hs : Keeps s₀ s) : Keeps s₀ (s.holdCtx j c) := by
  unfold State.holdCtx
  extract_lets
  split
  · exact keeps_ite (keeps_setCtx hs) (keeps_setCtx hs)
  · split
    · exact keeps_setCtx hs
    · exact hs
    · exact hs
    · exact hs
    · exact hs
    · exact hs
    · exact hs
    · exact hs
  · exact hs
  · exact hs
  · exact hs

theorem keeps_releaseCtx {j c : Nat} (hs : Keeps s₀ s) : Keeps s₀ (s.releaseCtx j c) := by
  unfold State.releaseCtx
  extract_lets
  refine keeps_ite (keeps_setCtx hs) ?_
  split
  · extract_lets s1
    have hs1 : Keeps s₀ s1 := keeps_setCtx hs
    exact keeps_ite (keeps_poll hs1) hs1
  · exact keeps_setCtx hs
  · exact keeps_setCtx hs
  · exact keeps_setCtx hs
  · exact keeps_setCtx hs
  · exact keeps_setCtx hs
  · exact keeps_setCtx hs
  · exact keeps_setCtx hs

theorem keeps_postSema {j c : Nat} {w : BitVec 128} (hs : Keeps s₀ s) : Keeps s₀ (s.postSema j c w) :=
  keeps_advanceIp (keeps_ask (keeps_setCtx hs))

theorem keeps_sendSema {j c : Nat} {w : BitVec 128} {post : Bool} {dst : Option Nat} {pre : Option (Nat × W64)} (hs : Keeps s₀ s) :
    Keeps s₀ (s.sendSema j c w post dst pre) := by
  unfold State.sendSema
  extract_lets
  split
  · exact keeps_failInstr hs
  · exact keeps_ite (keeps_ite (keeps_postSema hs) (keeps_setCtx hs)) (keeps_ask (keeps_setCtx hs))

theorem keeps_execSignal {j : Cluster} {c : CtxIx} (hs : Keeps s₀ s) : KeepsRes s₀ (execSignal j c s) :=
  keeps_issue hs (fun _ _ _ h1 => keeps_sendSema h1)

theorem keeps_execStampInstr {j : Cluster} {c : CtxIx} (hs : Keeps s₀ s) : KeepsRes s₀ (execStampInstr j c s) := by
  unfold execStampInstr
  refine keeps_issue hs (fun _ _ _ h1 => ?_)
  extract_lets _ s1
  have hs1 : Keeps s₀ s1 := keeps_modCtx h1
  refine keeps_ite ?_ (keeps_advanceIp hs1)
  split
  · exact keeps_failInstr h1
  · exact keeps_ite (keeps_sendSema hs1) (keeps_sendSema h1)

theorem keeps_execPostedReply {j : Cluster} {c : CtxIx} (hs : Keeps s₀ s) : KeepsRes s₀ (execPostedReply j c s) := by
  unfold execPostedReply
  refine keepsRes_ite (keepsRes_next hs) ?_
  split
  · exact keepsRes_next hs
  · extract_lets _ _ s1 s2
    have hs1 : Keeps s₀ s1 := keeps_modCtx hs
    have hs2 : Keeps s₀ s2 := keeps_localWake hs1
    refine keepsRes_next ?_
    split
    · split
      · exact keeps_drainCtx hs2
      · exact hs2
    · exact keeps_postSema hs2
    · exact hs2
    · exact hs2
    · exact hs2
    · exact hs2
    · exact hs2
    · exact hs2

theorem keeps_execFence {j : Cluster} {c : CtxIx} (hs : Keeps s₀ s) : KeepsRes s₀ (execFence j c s) := by
  unfold execFence
  refine keeps_issue hs (fun _ _ _ h1 => ?_)
  extract_lets
  exact keeps_ite (keeps_advanceIp h1) (keeps_setCtx h1)

theorem keeps_execFenceComplete {j : Cluster} {c : CtxIx} (hs : Keeps s₀ s) : KeepsRes s₀ (execFenceComplete j c s) := by
  unfold execFenceComplete
  extract_lets
  refine keepsRes_ite (keepsRes_next hs) ?_
  split
  · exact keepsRes_next (keeps_onlyIf (keeps_advanceIp hs) hs)
  · exact keepsRes_next hs
  · exact keepsRes_next hs
  · exact keepsRes_next hs
  · exact keepsRes_next hs
  · exact keepsRes_next hs
  · exact keepsRes_next hs
  · exact keepsRes_next hs

theorem keeps_codeReply {j : Nat} {q : LReq} {r : LReply} (hs : Keeps s₀ s) : Keeps s₀ (s.codeReply j q r) := by
  unfold State.codeReply
  extract_lets
  exact keeps_modCtx (keeps_freeTag hs)

theorem keeps_pollReply {j : Nat} {q : LReq} {r : LReply} (hs : Keeps s₀ s) : Keeps s₀ (s.pollReply j q r) := by
  unfold State.pollReply
  extract_lets
  exact keeps_modCtx (keeps_freeTag hs)

theorem keeps_semaReply {j : Nat} {q : LReq} {dst : Option Nat} {r : LReply} (hs : Keeps s₀ s) : Keeps s₀ (s.semaReply j q dst r) := by
  unfold State.semaReply
  extract_lets s1
  have hs1 : Keeps s₀ s1 := keeps_localWake (keeps_freeTag hs)
  exact keeps_ite (keeps_advanceIp (keeps_setCtx hs1)) (keeps_failInstr hs1)

theorem keeps_lateReply {j : Nat} {r : LReply} (hs : Keeps s₀ s) : Keeps s₀ (s.lateReply j r) := by
  unfold State.lateReply
  extract_lets _ s1
  have hs1 : Keeps s₀ s1 := keeps_record (keeps_incRc hs)
  split
  · exact keeps_ite (keeps_freeTag hs1) hs1
  · exact hs1

theorem keeps_execLanternReplyArrival {j : Cluster} (hs : Keeps s₀ s) : KeepsRes s₀ (execLanternReplyArrival j s) := by
  unfold execLanternReplyArrival
  refine keepsRes_ite (keepsRes_next hs) ?_
  split
  · exact keepsRes_next hs
  · extract_lets s1
    have hs1 : Keeps s₀ s1 := keeps_modLnt hs
    split
    · exact keepsRes_next (keeps_lateReply hs1)
    · extract_lets s2 s3
      have hs2 : Keeps s₀ s2 := keeps_onlyIf (keeps_pmuCtx hs1) hs1
      have hs3 : Keeps s₀ s3 := keeps_onlyIf (keeps_pmuCtx hs1) hs1
      refine keepsRes_ite (keepsRes_next (keeps_lateReply hs1)) ?_
      refine keepsRes_next ?_
      split
      · exact keeps_codeReply hs2
      · exact keeps_pollReply hs2
      · exact keeps_semaReply hs3
      · exact keeps_modCtx (keeps_freeTag hs3)
      · exact keeps_dataReply hs1
      · exact keeps_outReply hs1
      · exact keeps_contribReply hs1
      · exact keeps_modCtx (keeps_freeTag hs1)

/-! ### `Sys2Proof/Machine/Rings.lean` -/

theorem keeps_auditFn {f off old new : Nat} (hs : Keeps s₀ s) : Keeps s₀ (s.auditFn f off old new) := keeps_onlyIf (keeps_audit hs) hs

theorem keeps_modRings {f : Rings → Rings} (hs : Keeps s₀ s) : Keeps s₀ (s.modRings f) := keeps_mk hs

theorem keeps_execSqDoorbell {f : FnIx} {r : RingIx} {d : BitVec 16} (hs : Keeps s₀ s) : KeepsRes s₀ (execSqDoorbell f r d s) :=
  keeps_orWait hs (fun _ h1 => keepsRes_ite (keepsRes_next h1) (keepsRes_ite (keepsRes_next (keeps_auditFn (keeps_wr (keeps_wr h1))))
      (keepsRes_next (keeps_raise h1))))

theorem keeps_execCqDoorbell {f : FnIx} {r : RingIx} {d : BitVec 16} (hs : Keeps s₀ s) : KeepsRes s₀ (execCqDoorbell f r d s) := by
  unfold execCqDoorbell
  extract_lets
  refine keeps_orWait hs (fun _ h1 => ?_)
  extract_lets
  exact keepsRes_ite (keepsRes_next h1) (keepsRes_ite (keepsRes_next (keeps_auditFn (keeps_wr (keeps_wr h1)))) (keepsRes_next (keeps_raise
      h1)))

theorem keeps_blockReq {op pa job : Nat} {beats : List LineData} (hs : Keeps s₀ s) : Keeps s₀ (s.blockReq op pa job beats) :=
  keeps_addFlight hs

theorem keeps_lineNow {pa : Nat} (hs : Keeps s₀ s) : Keeps s₀ (s.lineNow pa).2 := by
  unfold State.lineNow
  extract_lets _ s1
  have hs1 : Keeps s₀ s1.2 := keeps_fresh hs
  split
  · exact hs
  · split
    · exact keepsSnd_ite hs1 hs
    · split
      · exact hs
      · exact hs1

theorem keeps_execRingFetch (hs : Keeps s₀ s) : KeepsRes s₀ (execRingFetch s) := by
  unfold execRingFetch
  extract_lets
  split
  · exact keepsRes_next hs
  · extract_lets
    exact keepsRes_next (keeps_onlyIf (keeps_modRings (keeps_evt (keeps_incWrap (keeps_wr (keeps_blockReq hs))))) hs)

theorem keeps_modEntry {e : RingEnt} {g : RingEnt → Option RingEnt} (hs : Keeps s₀ s) : Keeps s₀ (s.modEntry e g) := keeps_modRings hs

theorem keeps_execEntryCheck {ring : Fin 8192} (hs : Keeps s₀ s) : KeepsRes s₀ (execEntryCheck ring s) := by
  unfold execEntryCheck
  extract_lets
  split
  · exact keepsRes_next hs
  · split
    · exact keepsRes_next (keeps_onlyIf (keeps_modEntry hs) hs)
    · extract_lets
      exact keepsRes_ite (keepsRes_next hs) (keepsRes_next (keeps_modRings (keeps_evt (keeps_incRc (keeps_modEntry hs)))))

theorem keeps_startJob {e : RingEnt} {j c : Nat} (hs : Keeps s₀ s) : Keeps s₀ (s.startJob e j c) := by
  unfold State.startJob
  extract_lets _ _ _ _ _ _ s1 s2
  have hs1 : Keeps s₀ s1 := keeps_wr (keeps_setCtx hs)
  have hs2 : Keeps s₀ s2 := keeps_foldl hs1 (fun _ _ h1 => keeps_clearReg h1)
  exact keeps_ite (keeps_readLoad hs2) hs2

theorem keeps_execJobDispatch {ring : Fin 8192} (hs : Keeps s₀ s) : KeepsRes s₀ (execJobDispatch ring s) := by
  unfold execJobDispatch
  extract_lets
  split
  · exact keepsRes_next hs
  · exact keepsRes_next (keeps_onlyIf (keeps_evt (keeps_startJob (keeps_modRings (keeps_modEntry hs)))) hs)

theorem keeps_writeRecord {r : Rec} (hs : Keeps s₀ s) : Keeps s₀ (s.writeRecord r) := by
  unfold State.writeRecord
  extract_lets
  split
  rename_i x1 x2
  have hx3 : Keeps s₀ x1 := Keeps.of_snd (keeps_lineNow hs) x2
  extract_lets _ _ _ s1 s2 s3
  have hs1 : Keeps s₀ s1 := keeps_incWrap (keeps_blockReq hx3)
  have hs2 : Keeps s₀ s2 := keeps_wr hs1
  have hs3 : Keeps s₀ s3 := keeps_evt (keeps_wr hs2)
  exact keeps_onlyIf (keeps_modRings hs3) hs3

theorem keeps_execRecordWrite (hs : Keeps s₀ s) : KeepsRes s₀ (execRecordWrite s) := by
  unfold execRecordWrite
  extract_lets
  split
  · exact keepsRes_next hs
  · extract_lets s1
    have hs1 : Keeps s₀ s1 := keeps_modRings hs
    exact keepsRes_ite (keepsRes_next hs) (keepsRes_ite (keepsRes_next (keeps_incRc hs1)) (keepsRes_ite (keepsRes_next (keeps_modRings hs1))
        (keepsRes_next (keeps_writeRecord hs1))))

theorem keeps_sendMsix {f vec : Nat} (hs : Keeps s₀ s) : Keeps s₀ (s.sendMsix f vec) := keeps_evt (keeps_send hs)

theorem keeps_execMsixSend (hs : Keeps s₀ s) : KeepsRes s₀ (execMsixSend s) := by
  unfold execMsixSend
  split
  · exact keepsRes_next hs
  · split
    rename_i x1 x2
    have hx3 : Keeps s₀ x1 := Keeps.of_snd (keeps_fresh (keeps_modRings hs)) x2
    extract_lets
    exact keepsRes_next (keeps_ite (keeps_setMap hx3) (keeps_sendMsix hx3))

theorem keeps_execMsixPendingClear {f : FnIx} {vec : RingIx} (hs : Keeps s₀ s) : KeepsRes s₀ (execMsixPendingClear f vec s) := by
  unfold execMsixPendingClear
  extract_lets s1 s2
  have hs1 : Keeps s₀ s1 := keeps_modRings hs
  have hs2 : Keeps s₀ s2 := keeps_foldl hs1 (fun _ _ h1 => keeps_pumpHost h1)
  exact keepsRes_next (keeps_onlyIf (keeps_sendMsix (keeps_setMap hs2)) hs2)

theorem keeps_holdJobs {p : Job → Bool} (hs : Keeps s₀ s) : Keeps s₀ (s.holdJobs p) :=
  keeps_foldl hs (fun _ _ h1 => keeps_ite (keeps_holdCtx h1) h1)

theorem keeps_releaseJobs {p : Job → Bool} (hs : Keeps s₀ s) : Keeps s₀ (s.releaseJobs p) :=
  keeps_foldl hs (fun _ _ h1 => keeps_ite (keeps_releaseCtx h1) h1)

theorem keeps_resumeRing {i : Nat} (hs : Keeps s₀ s) : Keeps s₀ (s.resumeRing i) := by
  unfold State.resumeRing
  extract_lets _ s1
  have hs1 : Keeps s₀ s1 := keeps_modRings (keeps_wr (keeps_setRing hs))
  exact keeps_releaseJobs (keeps_foldl hs1 (fun _ _ h1 => keeps_writeRecord h1))

theorem keeps_execHandshake {f : FnIx} {v : W32} (hs : Keeps s₀ s) : KeepsRes s₀ (execHandshake f v s) := by
  unfold execHandshake
  extract_lets
  refine keeps_orWait hs (fun _ h1 => ?_)
  extract_lets _ _ _ s1 _ s2 _ s3 s4 _ s5
  have hs1 : Keeps s₀ s1 := keeps_ite (keeps_onlyIf (keeps_audit (keeps_setReg h1)) h1) (keeps_auditFn (keeps_setReg h1))
  have hs2 : Keeps s₀ s2 := keeps_wr hs1
  have hs3 : Keeps s₀ s3 := keeps_onlyIf (keeps_wr hs2) hs2
  have hs4 : Keeps s₀ s4 := keeps_modRings (keeps_setAttn hs3)
  have hs5 : Keeps s₀ s5 := keeps_onlyIf (keeps_stepMark (keeps_mk hs4)) hs4
  exact keepsRes_ite (keepsRes_next (keeps_foldl hs5 (fun _ _ h2 => keeps_onlyIf (keeps_resumeRing h2) h2))) (keepsRes_next hs2)

theorem keeps_execHeartbeat {v : W32} (hs : Keeps s₀ s) : KeepsRes s₀ (execHeartbeat v s) := by
  unfold execHeartbeat
  refine keeps_orWait hs (fun _ h1 => ?_)
  extract_lets
  exact keepsRes_ite (keepsRes_next h1) (keepsRes_next (keeps_modRings (keeps_audit (keeps_wr h1))))

theorem keeps_execHostDriverLost (hs : Keeps s₀ s) : KeepsRes s₀ (execHostDriverLost s) :=
  keepsRes_next (keeps_onlyIf (keeps_modRings (keeps_setAttn (keeps_holdJobs (keeps_foldl hs (fun _ _ h1 => keeps_onlyIf (keeps_setRing h1)
      h1))))) hs)

theorem keeps_execRingResume {f : FnIx} {r : RingIx} (hs : Keeps s₀ s) : KeepsRes s₀ (execRingResume f r s) :=
  keeps_orWait hs (fun _ h1 => keepsRes_ite (keepsRes_next (keeps_onlyIf (keeps_modRings h1) h1)) (keepsRes_next (keeps_resumeRing h1)))

theorem keeps_oldDoorbells {f r : Nat} (hs : Keeps s₀ s) : Keeps s₀ (s.oldDoorbells f r) := keeps_wr (keeps_wr (keeps_wr (keeps_wr hs)))

theorem keeps_execRingReset {f : FnIx} {r : RingIx} (hs : Keeps s₀ s) : KeepsRes s₀ (execRingReset f r s) :=
  keeps_orWait hs (fun _ h1 => keepsRes_next (keeps_onlyIf (keeps_resetRing (keeps_oldDoorbells h1)) h1))

theorem keeps_execRingResetDone {ring : Fin 8192} (hs : Keeps s₀ s) : KeepsRes s₀ (execRingResetDone ring s) :=
  keepsRes_next (keeps_onlyIf (keeps_setRing (keeps_clearReg hs)) hs)

theorem keeps_settleRing {o : Origin} {i : Nat} (hs : Keeps s₀ s) : Keeps s₀ (s.settleRing o i) :=
  keeps_onlyIf (keeps_wr (keeps_setRing hs)) hs

theorem keeps_execRingEnableWrite {f : FnIx} {r : RingIx} {en : Bool} (hs : Keeps s₀ s) : KeepsRes s₀ (execRingEnableWrite f r en s) := by
  unfold execRingEnableWrite
  extract_lets
  refine keeps_orWait hs (fun _ h1 => ?_)
  extract_lets _ s1 s2
  have hs1 : Keeps s₀ s1 := keeps_wr h1
  have hs2 : Keeps s₀ s2 := keeps_auditFn hs1
  exact keepsRes_ite (keepsRes_next h1) (keepsRes_ite (keepsRes_next h1) (keepsRes_next (keeps_ite (keeps_onlyIf (keeps_setRing hs2) hs2)
      (keeps_settleRing hs2))))

theorem keeps_execL1IdleExpiry (hs : Keeps s₀ s) : KeepsRes s₀ (execL1IdleExpiry s) :=
  keepsRes_next (keeps_onlyIf (keeps_modRings (keeps_send hs)) hs)

theorem keeps_l1Tick (hs : Keeps s₀ s) : Keeps s₀ s.l1Tick := keeps_ite hs (keeps_modRings (keeps_onlyIf (keeps_send hs) hs))

theorem keeps_execBusMasterClear {f : FnIx} (hs : Keeps s₀ s) : KeepsRes s₀ (execBusMasterClear f s) := by
  unfold execBusMasterClear
  extract_lets s1
  have hs1 : Keeps s₀ s1 := keeps_modRings hs
  refine keepsRes_next ?_
  refine keeps_foldl hs1 (fun _ _ h1 => ?_)
  split
  extract_lets s2 s3
  have hs2 : Keeps s₀ s2 := keeps_modLnt h1
  have hs3 : Keeps s₀ s3 := keeps_failInstr hs2
  split
  · exact h1
  · refine keeps_ite h1 ?_
    split
    · exact hs2
    · exact keeps_onlyIf (keeps_wr (keeps_setRing hs3)) hs3

theorem keeps_resetPage {f : Nat} (hs : Keeps s₀ s) : Keeps s₀ (s.resetPage f) := by
  unfold State.resetPage
  extract_lets _ _ s1 s2
  have hs1 : Keeps s₀ s1 := keeps_foldl hs (fun _ _ h1 => keeps_foldl h1 (fun _ _ h2 => keeps_clearReg h2))
  have hs2 : Keeps s₀ s2 := keeps_foldl hs1 (fun _ _ h3 => keeps_clearReg h3)
  exact keeps_ite hs2 (keeps_mk hs2)

theorem keeps_flr {f : Nat} (hs : Keeps s₀ s) : Keeps s₀ (s.flr f) := by
  unfold State.flr
  extract_lets s1 s2
  have hs1 : Keeps s₀ s1 := keeps_resetPage (keeps_resetRings hs)
  have hs2 : Keeps s₀ s2 := keeps_modRings hs1
  refine keeps_foldl hs2 (fun _ _ h1 => ?_)
  extract_lets
  exact keeps_modLnt h1

theorem keeps_execVfFlr {f : FnIx} (hs : Keeps s₀ s) : KeepsRes s₀ (execVfFlr f s) := keepsRes_next (keeps_onlyIf (keeps_flr hs) hs)

theorem keeps_execPfFlr (hs : Keeps s₀ s) : KeepsRes s₀ (execPfFlr s) := by
  unfold execPfFlr
  extract_lets _ s1
  have hs1 : Keeps s₀ s1 := keeps_clearReg (keeps_flr hs)
  exact keepsRes_next (keeps_modRings (keeps_audit (keeps_setAttn hs1)))

theorem keeps_execVfEnableClear (hs : Keeps s₀ s) : KeepsRes s₀ (execVfEnableClear s) :=
  keepsRes_next (keeps_foldl hs (fun _ _ h1 => keeps_flr h1))

/-! ### `Sys2Proof/Machine/HostPort.lean` -/

theorem keeps_hostSend {f : Nat} {why : Purpose} {r : HostReq} (hs : Keeps s₀ s) : Keeps s₀ (s.hostSend f why r) := by
  unfold State.hostSend
  extract_lets _ _ s1
  have hs1 : Keeps s₀ s1 := keeps_modRings hs
  exact keeps_accept hs1

theorem keeps_hostBegin {f kind addr len : Nat} {rs : List HostReq} (hs : Keeps s₀ s) : Keeps s₀ (s.hostBegin f kind addr len rs) := by
  unfold State.hostBegin
  extract_lets _ s1
  have hs1 : Keeps s₀ s1 := keeps_modRings hs
  exact keeps_ite hs (keeps_ite (keeps_send hs) (keeps_ite hs (keeps_foldl hs1 (fun _ _ h1 => keeps_hostSend h1))))

theorem keeps_execHostMrd {f : FnIx} {addr len : Nat} (hs : Keeps s₀ s) : KeepsRes s₀ (execHostMrd f addr len s) :=
  keepsRes_next (keeps_onlyIf (keeps_hostBegin hs) hs)

theorem keeps_execHostMwr {f : FnIx} {addr : Nat} {bytes : List Byte} (hs : Keeps s₀ s) : KeepsRes s₀ (execHostMwr f addr bytes s) :=
  keepsRes_next (keeps_onlyIf (keeps_hostBegin hs) hs)

theorem keeps_execHostFetchadd {f : FnIx} {addr : Nat} {v : W64} (hs : Keeps s₀ s) : KeepsRes s₀ (execHostFetchadd f addr v s) :=
  keepsRes_next (keeps_onlyIf (keeps_hostBegin hs) hs)

theorem keeps_execHostCas {f : FnIx} {addr : Nat} {cmp swap : W64} (hs : Keeps s₀ s) : KeepsRes s₀ (execHostCas f addr cmp swap s) :=
  keepsRes_next (keeps_onlyIf (keeps_hostBegin hs) hs)

theorem keeps_execHostAtomicUnsupported {f : FnIx} (hs : Keeps s₀ s) : KeepsRes s₀ (execHostAtomicUnsupported f s) :=
  keepsRes_next (keeps_send hs)

theorem keeps_hostDone {o : HostOp} {ps : List HostPart} (hs : Keeps s₀ s) : Keeps s₀ (s.hostDone o ps) := by
  unfold State.hostDone
  extract_lets
  refine keeps_ite ?_ (keeps_ite (keeps_send hs) (keeps_ite (keeps_send hs) (keeps_send hs)))
  split
  · exact hs
  · exact keeps_incRc (keeps_wr hs)

theorem keeps_hostPart {id part : Nat} {p : HostPart} (hs : Keeps s₀ s) : Keeps s₀ (s.hostPart id part p) := by
  unfold State.hostPart
  split
  · exact hs
  · extract_lets
    exact keeps_ite (keeps_hostDone (keeps_modRings hs)) (keeps_modRings hs)

theorem keeps_takeResp {f : Flight} (hs : Keeps s₀ s) : Keeps s₀ (s.takeResp f) := keeps_ite hs (keeps_setCredit hs)

theorem keeps_deliver {f : Flight} {h : Header} (hs : Keeps s₀ s) : Keeps s₀ (s.deliver f h) := by
  unfold State.deliver
  extract_lets
  split
  · exact keeps_send hs
  · exact keeps_frameOut hs
  · exact keeps_hostPart hs
  · extract_lets
    exact keeps_modLnt hs
  · exact keeps_ite (keeps_modRings hs) (keeps_modRings hs)

theorem keeps_countReply {f : Flight} (hs : Keeps s₀ s) : Keeps s₀ (s.countReply f) := by
  unfold State.countReply
  extract_lets s1
  have hs1 : Keeps s₀ s1 := keeps_pmuArb (keeps_pmuArb hs)
  refine keeps_ite hs ?_
  split
  · exact keeps_onlyIf (keeps_pmuPc hs1) hs1
  · exact hs1
  · exact hs1
  · exact hs1

theorem keeps_execReplyHandover {id : Nat} (hs : Keeps s₀ s) : KeepsRes s₀ (execReplyHandover id s) := by
  unfold execReplyHandover
  split
  · exact keepsRes_next hs
  · extract_lets
    exact keepsRes_ite (keepsRes_next hs) (keepsRes_ite (keepsRes_next (keeps_dropFlight hs)) (keepsRes_next (keeps_deliver
        (keeps_countReply (keeps_takeResp (keeps_dropFlight hs))))))

/-! ### `Sys2Proof/Machine/Train.lean` -/

theorem keeps_setEye {k l : Nat} {wr : Bool} {e : Eye} (hs : Keeps s₀ s) : Keeps s₀ (s.setEye k l wr e) := keeps_setReg hs laneReg_free

theorem keeps_coreWrite {c : Nat} {r : RegName} {i j w : Nat} (hs : Keeps s₀ s) (hr : r.free = true := by rfl) :
    Keeps s₀ (s.coreWrite c r i j w) :=
  keeps_onlyIf (keeps_audit (keeps_setReg hs hr)) hs

theorem keeps_coreField {c : Nat} {f : Fld} {v i j : Nat} (hs : Keeps s₀ s) (hr : f.reg.free = true := by rfl) :
    Keeps s₀ (s.coreField c f v i j) :=
  keeps_coreWrite hs hr

theorem keeps_writeTimes {k : Nat} {ts : List Nat} (hs : Keeps s₀ s) : Keeps s₀ (s.writeTimes k ts) := by
  unfold State.writeTimes
  extract_lets _ _ _ s1 s2 s3 s4
  have hs1 : Keeps s₀ s1 := keeps_coreWrite hs
  have hs2 : Keeps s₀ s2 := keeps_coreWrite hs1
  have hs3 : Keeps s₀ s3 := keeps_coreWrite hs2
  have hs4 : Keeps s₀ s4 := keeps_coreWrite hs3
  exact keeps_wr hs4

theorem keeps_calibrate {k : Nat} {e : SiteEnv} (hs : Keeps s₀ s) : Keeps s₀ (s.calibrate k e) := by
  unfold State.calibrate
  extract_lets s1
  have hs1 : Keeps s₀ s1 := keeps_wr hs
  refine keeps_ite (keeps_wr (keeps_wr hs1)) ?_
  split
  rename_i x1 x2
  have hx3 : Keeps s₀ x1 := Keeps.of_snd (keeps_fresh hs1) x2
  extract_lets s2
  have hs2 : Keeps s₀ s2 := keeps_wr (keeps_wr (keeps_wr hx3))
  exact keeps_record hs2

theorem keeps_trainLane {k : Nat} {e : SiteEnv} {l n : Nat} (hs : Keeps s₀ s) : Keeps s₀ (s.trainLane k e l n).1 := by
  unfold State.trainLane
  extract_lets
  split
  · exact keeps_setEye (keeps_setEye hs)
  · exact hs

theorem keeps_setRepair {k p i lane : Nat} {hard : Bool} (hs : Keeps s₀ s) : Keeps s₀ (s.setRepair k p i lane hard) := keeps_setReg hs

theorem keeps_repairRound {k : Nat} {e : SiteEnv} {n : Nat} {t : Trained} (hs : Keeps s₀ s) : Keeps s₀ (s.repairRound k e n t).1 := by
  unfold State.repairRound
  refine keepsFst_foldl hs (fun a _ h1 => ?_)
  obtain ⟨u, t⟩ := a
  dsimp only
  split
  · exact h1
  · exact keeps_trainLane (keeps_event1 (keeps_setRepair h1))

theorem keeps_trainLanes {k : Nat} {e : SiteEnv} {ls : List Nat} (hs : Keeps s₀ s) : Keeps s₀ (s.trainLanes k e ls).1 := by
  unfold State.trainLanes
  extract_lets s1
  have hs1 : Keeps s₀ s1.1 := by
    unfold s1
    refine keepsFst_foldl hs (fun _ _ h1 => ?_)
    extract_lets
    split
    rename_i x1 _ x2
    have hx3 : Keeps s₀ x1 := Keeps.of_fst (keeps_trainLane h1) x2
    exact hx3
  exact keepsFst_foldl hs1 (fun _ _ h2 => keeps_repairRound h2)

theorem keeps_pcLost {k : Nat} {bad : List Nat} {p : Nat} (hs : Keeps s₀ s) : Keeps s₀ (s.pcLost k bad p) := keeps_event (keeps_record hs)

theorem keeps_trainPcs {k : Nat} {e : SiteEnv} {ps : List Nat} {base : Nat} (hs : Keeps s₀ s) : Keeps s₀ (s.trainPcs k e ps base).1 := by
  unfold State.trainPcs
  split
  rename_i x1 _ x2
  have hx3 : Keeps s₀ x1 := Keeps.of_fst (keeps_trainLanes hs) x2
  extract_lets _ _ s1 _ s2
  have hs1 : Keeps s₀ s1 := keeps_foldl hx3 (fun _ _ h1 => keeps_pcLost h1)
  have hs2 : Keeps s₀ s2 := keeps_wr (keeps_wr (keeps_wr hs1))
  exact keeps_wr (keeps_wr hs2)

theorem keeps_putBytes {base : Nat} {bs : List Byte} (hs : Keeps s₀ s) : Keeps s₀ (s.putBytes base bs) := keeps_mk hs

theorem keeps_freeBytes {x : Nat} (hs : Keeps s₀ s) : Keeps s₀ (s.freeBytes x).1 := by
  induction x generalizing s with
  | zero => exact hs
  | succ n ih => exact ih (keeps_fresh hs)

theorem keeps_writeImage {k : Nat} (hs : Keeps s₀ s) : Keeps s₀ (s.writeImage k) := by
  unfold State.writeImage
  extract_lets
  split
  rename_i x1 _ x2
  have hx3 : Keeps s₀ x1 := Keeps.of_fst (keeps_freeBytes hs) x2
  extract_lets
  exact keeps_putBytes hx3

theorem keeps_settle {k : Nat} {image : Bool} (hs : Keeps s₀ s) : Keeps s₀ (s.settle k image) := by
  unfold State.settle
  extract_lets s1
  have hs1 : Keeps s₀ s1 := keeps_wr (keeps_wr hs)
  exact keeps_onlyIf (keeps_writeImage hs1) hs1

theorem keeps_loadImage {k : Nat} {ps : List Nat} (hs : Keeps s₀ s) : Keeps s₀ (s.loadImage k ps) := by
  unfold State.loadImage
  extract_lets s1
  have hs1 : Keeps s₀ s1 := keeps_wr (keeps_wr hs)
  refine keeps_foldl hs1 (fun _ _ h1 => ?_)
  refine keeps_foldl h1 (fun _ _ h2 => ?_)
  extract_lets
  exact keeps_setEye (keeps_setEye h2)

theorem keeps_postVerify {k : Nat} {v : VerifyEnv} (hs : Keeps s₀ s) : Keeps s₀ (s.postVerify k v) := keeps_wr (keeps_wr (keeps_wr hs))

theorem keeps_restorePcs {k : Nat} {e : SiteEnv} {v : VerifyEnv} {ps : List Nat} (hs : Keeps s₀ s) :
    Keeps s₀ (s.restorePcs k e v ps).1 := by
  unfold State.restorePcs
  extract_lets s1
  have hs1 : Keeps s₀ s1 := keeps_loadImage hs
  exact keepsFst_ite (keeps_trainPcs hs) (keepsFst_ite (keeps_trainPcs hs1) (keeps_wr (keeps_wr (keeps_postVerify (keeps_wr hs1)))))

theorem keeps_startPc {k p : Nat} {st : PcState} (hs : Keeps s₀ s) : Keeps s₀ (s.startPc k p st) := by
  unfold State.startPc
  extract_lets
  split
  rename_i x1 x2
  have hx3 : Keeps s₀ x1 := Keeps.of_snd (keeps_draw hs) x2
  exact keeps_setPc hx3

theorem keeps_buildMap {k : Nat} {lost : List Nat} (hs : Keeps s₀ s) : Keeps s₀ (s.buildMap k lost) := by
  unfold State.buildMap
  extract_lets _ _ _ _ s1 s2 s3
  have hs1 : Keeps s₀ s1 := keeps_foldl hs (fun _ _ h1 => keeps_ite (keeps_wr (keeps_wr h1)) (keeps_clearReg h1))
  have hs2 : Keeps s₀ s2 := keeps_setReg (keeps_setReg hs1)
  have hs3 : Keeps s₀ s3 := keeps_foldl hs2 (fun _ _ h2 => keeps_startPc h2)
  exact keeps_setReg hs3

theorem keeps_geometry (hs : Keeps s₀ s) : Keeps s₀ s.geometry := keeps_setReg hs

theorem keeps_reservePlot {r : Nat} (hs : Keeps s₀ s) : Keeps s₀ (s.reservePlot r) := keeps_zeroPlot (keeps_setPlot hs)

theorem keeps_phase8 (hs : Keeps s₀ s) : Keeps s₀ s.phase8 := by
  unfold State.phase8
  extract_lets s1 s2 _ s3 s4
  have hs1 : Keeps s₀ s1 := keeps_wr hs
  have hs2 : Keeps s₀ s2 := keeps_wr hs1
  have hs3 : Keeps s₀ s3 := keeps_foldl hs1 (fun _ _ h1 => keeps_reservePlot h1)
  have hs4 : Keeps s₀ s4 := keeps_writeEntry hs3
  exact keeps_ite hs (keeps_ite (keeps_mk hs2) (keeps_onlyIf (keeps_startSweep hs4) hs4))

theorem keeps_hardPpr {k : Nat} (hs : Keeps s₀ s) : Keeps s₀ (s.hardPpr k) := by
  unfold State.hardPpr
  refine keeps_foldl hs (fun _ _ h1 => ?_)
  extract_lets
  refine keeps_ite ?_ (keeps_event1 h1)
  split
  exact keeps_record (keeps_setHist h1)

theorem keeps_histHard {k p lane : Nat} (hs : Keeps s₀ s) : Keeps s₀ (s.histHard k p lane) := keeps_setHist hs

theorem keeps_addHard {k : Nat} {hard : List (PcIx × Nat)} (hs : Keeps s₀ s) : Keeps s₀ (s.addHard k hard) := by
  unfold State.addHard
  refine keeps_foldl hs (fun _ _ h1 => ?_)
  extract_lets s1
  have hs1 : Keeps s₀ s1 := by
    unfold s1
    split
    · exact keeps_setRepair h1
    · exact h1
  exact keeps_ite h1 (keeps_record (keeps_histHard hs1))

theorem keeps_hardLanes {k : Nat} (hs : Keeps s₀ s) : Keeps s₀ (s.hardLanes k) := by
  unfold State.hardLanes
  refine keeps_foldl hs (fun _ _ h1 => ?_)
  split
  · exact h1
  · exact keeps_setHist (keeps_setRepair h1)

theorem keeps_siteOut {k st : Nat} (hs : Keeps s₀ s) : Keeps s₀ (s.siteOut k st) := keeps_wr (keeps_wr hs)

theorem keeps_excludePc {k p : Nat} (hs : Keeps s₀ s) : Keeps s₀ (s.excludePc k p) := by
  unfold State.excludePc
  extract_lets _ _ s1 s2
  have hs1 : Keeps s₀ s1 := keeps_setPc (keeps_answerHeld hs)
  have hs2 : Keeps s₀ s2 := keeps_setMap (keeps_syncFrz hs1)
  exact keeps_ite (keeps_abortMigration hs) (keeps_foldl hs2 (fun _ _ h1 => keeps_loseBacking h1))

theorem keeps_siteDead {k : Nat} (hs : Keeps s₀ s) : Keeps s₀ (s.siteDead k) := by
  unfold State.siteDead
  extract_lets s1
  have hs1 : Keeps s₀ s1 := keeps_foldl hs (fun _ _ h1 => keeps_excludePc h1)
  exact keeps_record (keeps_siteOut (keeps_siteOff hs1))

theorem keeps_identify {k : Nat} {d : StackId} (hs : Keeps s₀ s) : Keeps s₀ (s.identify k d).1 := by
  unfold State.identify
  extract_lets _ _ _ _ _ s1 s2 s3
  have hs1 : Keeps s₀ s1 := keeps_setReg (keeps_setReg hs)
  have hs2 : Keeps s₀ s2 := keeps_wr (keeps_wr (keeps_wr hs1))
  have hs3 : Keeps s₀ s3 := keeps_mk hs2
  exact hs3

theorem keeps_bringUp {k : Nat} {e : SiteEnv} {d : StackId} {v : Option VerifyEnv} (hs : Keeps s₀ s) : Keeps s₀ (s.bringUp k e d v) := by
  unfold State.bringUp
  split
  rename_i x1 _ _ _ x2
  have hx3 : Keeps s₀ x1 := Keeps.of_fst (keeps_identify hs) x2
  extract_lets s1 s2 s3
  have hs1 : Keeps s₀ s1 := keeps_foldl (keeps_coreField hx3) (fun _ _ h1 => keeps_send (keeps_coreField h1))
  have hs2 : Keeps s₀ s2 := keeps_wr (keeps_lockPhy hs1)
  have hs3 : Keeps s₀ s3 := keeps_addHard (keeps_hardLanes (keeps_hardPpr (keeps_writeTimes (keeps_calibrate hs2))))
  refine keeps_ite (keeps_siteOut hx3) ?_
  split
  rename_i x4 _ x5
  have hx6 : Keeps s₀ x4 := by
    refine Keeps.of_fst ?_ x5
    cases v with
    | none => exact keeps_trainPcs hs3
    | some w => exact keeps_restorePcs hs3
  exact keeps_ite (keeps_siteDead (keeps_wr hx6)) (keeps_settle (keeps_buildMap (keeps_wr hx6)))

theorem keeps_outOfUse {k : Nat} {ps lost : List Nat} (hs : Keeps s₀ s) : Keeps s₀ (s.outOfUse k ps lost) := by
  unfold State.outOfUse
  extract_lets s1
  have hs1 : Keeps s₀ s1 := keeps_foldl hs (fun _ _ h1 => keeps_excludePc h1)
  exact keeps_onlyIf (keeps_siteDead hs1) hs1

theorem keeps_retrainAll {k : Nat} {e : SiteEnv} (hs : Keeps s₀ s) : Keeps s₀ (s.retrainAll k e) := by
  unfold State.retrainAll
  extract_lets
  split
  rename_i x1 _ x2
  have hx3 : Keeps s₀ x1 := Keeps.of_fst (keeps_trainPcs hs) x2
  exact keeps_outOfUse (keeps_settle hx3)

theorem keeps_trainedAgain {k : Nat} {train : State → State × List Nat} (hs : Keeps s₀ s) (hrun : ∀ u, Keeps s₀ u → Keeps s₀ (train u).1) :
    Keeps s₀ (s.trainedAgain k train) := by
  unfold State.trainedAgain
  extract_lets
  split
  rename_i x1 _ x2
  have hx3 : Keeps s₀ x1 := Keeps.of_fst (hrun _ hs) x2
  extract_lets s1 _ s2
  have hs1 : Keeps s₀ s1 := keeps_outOfUse (keeps_settle hx3)
  have hs2 : Keeps s₀ s2 := keeps_mk hs1
  exact keeps_foldl hs2 (fun _ _ h1 => keeps_thawPc h1)

theorem keeps_relockTrain {k : Nat} {e : SiteEnv} (hs : Keeps s₀ s) : Keeps s₀ (s.relockTrain k e) :=
  keeps_trainedAgain hs (fun _ h1 => keeps_trainPcs h1)

theorem keeps_fromPhase2 {k : Nat} {e : SiteEnv} {train : State → State × List Nat} (hs : Keeps s₀ s) (hrun : ∀ u, Keeps s₀ u → Keeps s₀
    (train u).1) :
    Keeps s₀ (s.fromPhase2 k e train) := by
  unfold State.fromPhase2
  extract_lets _ s1
  have hs1 : Keeps s₀ s1 := keeps_trainedAgain (keeps_writeTimes (keeps_calibrate hs)) hrun
  exact keeps_onlyIf (keeps_wr hs1) hs1

theorem keeps_execTrainingComplete {k : Cluster} {e : SiteEnv} (hs : Keeps s₀ s) : KeepsRes s₀ (execTrainingComplete k e s) := by
  unfold execTrainingComplete
  refine keepsRes_ite (keepsRes_next hs) ?_
  refine keepsRes_ite ?_ (keepsRes_ite (keepsRes_next hs) (keepsRes_ite (keepsRes_next (keeps_onlyIf (keeps_fromPhase2 hs (fun _ h1 =>
      keeps_trainPcs h1)) hs)) (keepsRes_next (keeps_onlyIf (keeps_relockTrain hs) hs))))
  split
  · exact keepsRes_next hs
  · exact keepsRes_next (keeps_onlyIf (keeps_phase8 (keeps_geometry (keeps_bringUp hs))) hs)

theorem keeps_execDeviceIdTimeout {k : Cluster} (hs : Keeps s₀ s) : KeepsRes s₀ (execDeviceIdTimeout k s) :=
  keepsRes_next (keeps_onlyIf (keeps_phase8 (keeps_geometry (keeps_siteOff (keeps_wr hs)))) hs)

theorem keeps_trnOp {k op : Nat} {run : State → State} (hs : Keeps s₀ s) (hrun : ∀ u, Keeps s₀ u → Keeps s₀ (run u)) :
    Keeps s₀ (s.trnOp k op run) :=
  keeps_ite hs (keeps_ite (keeps_raise hs) (keeps_audit (hrun _ hs)))

theorem keeps_execTrain {k : Cluster} {e : SiteEnv} (hs : Keeps s₀ s) : KeepsRes s₀ (execTrain k e s) :=
  keeps_orWait hs (fun _ h1 => keepsRes_next (keeps_trnOp h1 (fun _ h2 => keeps_retrainAll h2)))

theorem keeps_execRestore {k : Cluster} {e : SiteEnv} {v : VerifyEnv} (hs : Keeps s₀ s) : KeepsRes s₀ (execRestore k e v s) := by
  unfold execRestore
  extract_lets
  refine keepsRes_ite ?_ ?_
  · split
    · exact keepsRes_next hs
    · exact keepsRes_next (keeps_phase8 (keeps_geometry (keeps_bringUp hs)))
  · refine keepsRes_ite (keepsRes_next (keeps_onlyIf (keeps_fromPhase2 hs (fun _ h1 => keeps_restorePcs h1)) hs)) ?_
    refine keeps_orWait hs (fun _ h2 => ?_)
    refine keepsRes_next ?_
    refine keeps_trnOp h2 (fun _ h3 => ?_)
    extract_lets
    split
    rename_i x1 _ x2
    have hx3 : Keeps s₀ x1 := Keeps.of_fst (keeps_restorePcs h3) x2
    exact keeps_outOfUse (keeps_settle hx3)

theorem keeps_execVerify {k : Cluster} {v : VerifyEnv} (hs : Keeps s₀ s) : KeepsRes s₀ (execVerify k v s) :=
  keeps_orWait hs (fun _ h1 => keepsRes_next (keeps_trnOp h1 (fun _ h2 => keeps_postVerify h2)))

theorem keeps_execTrnImageWrite {k : Cluster} {off : Fin 1024} {v : W32} (hs : Keeps s₀ s) : KeepsRes s₀ (execTrnImageWrite k off v s) :=
  keeps_orWait hs (fun _ h1 => keepsRes_next (keeps_onlyIf (keeps_auditReg (keeps_putBytes h1)) h1))

theorem keeps_execRetrainTrigger {k : Cluster} (hs : Keeps s₀ s) : KeepsRes s₀ (execRetrainTrigger k s) :=
  keepsRes_next (keeps_onlyIf (keeps_mk hs) hs)

theorem keeps_narrowLane {k l : Nat} (hs : Keeps s₀ s) : Keeps s₀ (s.narrowLane k l) := by
  unfold State.narrowLane
  extract_lets _ _ s1 _ s2
  have hs1 : Keeps s₀ s1 := keeps_incRc hs
  have hs2 : Keeps s₀ s2 := keeps_record hs1
  exact keeps_ite (keeps_mk hs2) (keeps_event (keeps_mk hs2))

theorem keeps_retrainLane {k : Nat} {e : SiteEnv} {l : Nat} (hs : Keeps s₀ s) : Keeps s₀ (s.retrainLane k e l) := by
  unfold State.retrainLane
  extract_lets _ _ _ _ _ s1
  have hs1 : Keeps s₀ s1 := keeps_setEye (keeps_setEye hs)
  exact keeps_onlyIf (keeps_narrowLane hs1) hs1

theorem keeps_execRetrainApply {k : Cluster} {e : SiteEnv} (hs : Keeps s₀ s) : KeepsRes s₀ (execRetrainApply k e s) := by
  unfold execRetrainApply
  extract_lets _ s1
  have hs1 : Keeps s₀ s1 := keeps_calibrate hs
  split
  · exact keepsRes_next hs
  · extract_lets s2 s3
    have hs2 : Keeps s₀ s2 := keeps_mk hs1
    have hs3 : Keeps s₀ s3 := keeps_foldl hs2 (fun _ _ h1 => keeps_foldl h1 (fun _ _ h2 => keeps_retrainLane h2))
    exact keepsRes_ite (keepsRes_next hs) (keepsRes_next (keeps_settle (keeps_incRc hs3)))

/-! ### `Sys2Proof/Machine/Boot.lean` -/

theorem keeps_modFw {f : Fw → Fw} (hs : Keeps s₀ s) : Keeps s₀ (s.modFw f) := keeps_mk hs

theorem keeps_setCore {c v : Nat} (hs : Keeps s₀ s) : Keeps s₀ (s.setCore c v) := keeps_wr hs

theorem keeps_loadImg {c : Nat} {g : FwImg} (hs : Keeps s₀ s) : Keeps s₀ (s.loadImg c g) := by
  unfold State.loadImg
  extract_lets s1 s2 s3
  have hs1 : Keeps s₀ s1 := keeps_wr (keeps_wr (keeps_wr hs))
  have hs2 : Keeps s₀ s2 := keeps_wr (keeps_wr hs1)
  have hs3 : Keeps s₀ s3 := keeps_foldl hs2 (fun _ _ h1 => keeps_wr h1)
  exact keeps_modFw hs3

theorem keeps_runCore {c : Nat} (hs : Keeps s₀ s) : Keeps s₀ (s.runCore c) := by
  unfold State.runCore
  extract_lets
  exact keeps_modFw (keeps_setCore hs)

theorem keeps_coldState : Keeps s₀ s.coldState := keeps_mk keeps_reset

theorem keeps_rebuildId {puf : BitVec 256} (hs : Keeps s₀ s) : Keeps s₀ (s.rebuildId puf) := by
  unfold State.rebuildId
  extract_lets
  split
  rename_i x1 x2
  have hx3 : Keeps s₀ x1 := Keeps.of_snd (keeps_draw hs) x2
  split
  rename_i x4 x5
  have hx6 : Keeps s₀ x4 := Keeps.of_snd (keeps_draw hx3) x5
  split
  rename_i x7 x8
  have hx9 : Keeps s₀ x7 := Keeps.of_snd (keeps_draw hx6) x8
  extract_lets s1 s2
  have hs1 : Keeps s₀ s1 := keeps_coreWrite (keeps_newKey hx9)
  have hs2 : Keeps s₀ s2 := keeps_wr hs1
  refine keeps_ite (keeps_mk hs2) ?_
  split
  rename_i x10 x11
  have hx12 : Keeps s₀ x10 := Keeps.of_snd (keeps_fresh hs2) x11
  extract_lets
  exact keeps_record (keeps_mk hx12)

theorem keeps_secWrite {r : RegName} {i w : Nat} (hs : Keeps s₀ s) (hr : r.free = true := by rfl) : Keeps s₀ (s.secWrite r i w) :=
  keeps_coreWrite hs hr

theorem keeps_lockConfig (hs : Keeps s₀ s) : Keeps s₀ s.lockConfig := by
  unfold State.lockConfig
  extract_lets s1 s2 s3
  have hs1 : Keeps s₀ s1 := by
    unfold s1
    split
    · exact hs
    · extract_lets s4 s5 s6
      have hs4 : Keeps s₀ s4 := keeps_foldl hs (fun _ _ h1 => keeps_coreField (keeps_coreField h1))
      have hs5 : Keeps s₀ s5 := keeps_coreField hs4
      have hs6 : Keeps s₀ s6 := keeps_foldl hs5 (fun _ _ h2 => keeps_wr h2)
      exact keeps_secWrite (keeps_secWrite (keeps_secWrite (keeps_secWrite (keeps_secWrite (keeps_secWrite (keeps_secWrite hs6))))))
  have hs2 : Keeps s₀ s2 := keeps_coreField (keeps_coreField hs1)
  have hs3 : Keeps s₀ s3 := keeps_modFw hs2
  exact keeps_ite hs (keeps_onlyIf (keeps_mk hs3) hs3)

theorem keeps_railsOn (hs : Keeps s₀ s) : Keeps s₀ s.railsOn := by
  unfold State.railsOn
  split
  rename_i x1 x2
  have hx3 : Keeps s₀ x1 := Keeps.of_snd (keeps_fresh hs) x2
  refine keeps_foldl hx3 (fun _ _ h1 => ?_)
  extract_lets s1
  have hs1 : Keeps s₀ s1 := keeps_wr h1
  exact keeps_ite hs1 (keeps_send (keeps_coreField hs1))

theorem keeps_bootFences (hs : Keeps s₀ s) : Keeps s₀ s.bootFences := by
  unfold State.bootFences
  extract_lets _ s1 s2
  have hs1 : Keeps s₀ s1 := by
    unfold s1
    refine keeps_foldl hs (fun _ _ h1 => ?_)
    extract_lets _ _ s3
    have hs3 : Keeps s₀ s3 := keeps_setMap (keeps_wr (keeps_setRole h1))
    exact keeps_ite h1 (keeps_ite (keeps_standIn hs3) hs3)
  have hs2 : Keeps s₀ s2 := keeps_foldl hs1 (fun _ _ h2 => keeps_wr (keeps_wr h2))
  exact keeps_foldl hs2 (fun _ _ h3 => keeps_onlyIf (keeps_wr (keeps_wr h3)) h3)

theorem keeps_bootOn {imgs : List FwImg} {trn : Tbl (Option (List Byte))} (hs : Keeps s₀ s) : Keeps s₀ (s.bootOn imgs trn) := by
  unfold State.bootOn
  extract_lets s1 s2
  have hs1 : Keeps s₀ s1 := keeps_foldl hs (fun _ _ h1 => keeps_loadImg h1)
  have hs2 : Keeps s₀ s2 := by
    unfold s2
    refine keeps_foldl (keeps_runCore hs1) (fun _ _ h2 => ?_)
    split
    · exact keeps_putBytes h2
    · exact h2
  split
  rename_i x1 x2
  have hx3 : Keeps s₀ x1 := Keeps.of_snd (keeps_fresh hs2) x2
  extract_lets _ s3 _ s4 s5
  have hs3 : Keeps s₀ s3 := keeps_lockConfig hx3
  have hs4 : Keeps s₀ s4 := keeps_mk hs3
  have hs5 : Keeps s₀ s5 := keeps_chainEntry hs4
  exact keeps_wr (keeps_bootFences (keeps_runCore (keeps_railsOn hs5)))

theorem keeps_vrefCheck {milli : Nat} (hs : Keeps s₀ s) : Keeps s₀ (s.vrefCheck milli) :=
  keeps_ite hs (keeps_record (keeps_foldl hs (fun _ _ h1 => keeps_wr h1)))

theorem keeps_execColdReset {e : ColdEnv} : KeepsRes s₀ (execColdReset e s) := by
  unfold execColdReset
  extract_lets s1
  have hs1 : Keeps s₀ s1 := keeps_wr (keeps_vrefCheck (keeps_rebuildId keeps_coldState))
  split
  · exact keepsRes_next (keeps_setCore (keeps_wr hs1))
  · extract_lets
    exact keepsRes_next (keeps_bootOn (keeps_modFw (keeps_wr hs1)))

theorem keeps_releaseCccs (hs : Keeps s₀ s) : Keeps s₀ s.releaseCccs :=
  keeps_foldl (keeps_wr hs) (fun _ _ h1 => keeps_wr (keeps_runCore h1))

theorem keeps_execBootPhaseFail {phase : Fin 16} {err : Option (Fin 9)} (hs : Keeps s₀ s) :
    KeepsRes s₀ (execBootPhaseFail phase err s) := by
  unfold execBootPhaseFail
  extract_lets _ s1
  have hs1 : Keeps s₀ s1 := keeps_wr hs
  exact keepsRes_next (keeps_onlyIf (keeps_mk hs1) hs)

theorem keeps_execSchRelease (hs : Keeps s₀ s) : KeepsRes s₀ (execSchRelease s) := by
  unfold execSchRelease
  extract_lets _ _ s1 s2 _ s3 s4
  have hs1 : Keeps s₀ s1 := keeps_wr (keeps_wr hs)
  have hs2 : Keeps s₀ s2 := keeps_wr (keeps_wr (keeps_runCore hs1))
  have hs3 : Keeps s₀ s3 := keeps_modFw (keeps_wr hs2)
  have hs4 : Keeps s₀ s4 := keeps_foldl hs3 (fun _ _ h1 => keeps_onlyIf (keeps_grantCredits h1) h1)
  exact keepsRes_next (keeps_onlyIf (keeps_foldl hs4 (fun _ _ h2 => keeps_ite (keeps_grantCredits h2) (keeps_linkUp h2))) hs)

theorem keeps_quiescePort {p : Nat} (hs : Keeps s₀ s) : Keeps s₀ (s.quiescePort p) :=
  keeps_onlyIf (keeps_ite (keeps_mirStop hs) (keeps_linkDown hs)) hs

theorem keeps_mirLeave {cause : Nat} (hs : Keeps s₀ s) : Keeps s₀ (s.mirLeave cause) := by
  unfold State.mirLeave
  extract_lets s1 s2
  have hs1 : Keeps s₀ s1 := keeps_foldl hs (fun _ _ h1 => keeps_sendFrame h1)
  have hs2 : Keeps s₀ s2 := keeps_foldl hs1 (fun _ _ h2 => keeps_diverge h2)
  exact keeps_ite hs (keeps_modMir hs2)

theorem keeps_quiesce {cause : Nat} (hs : Keeps s₀ s) : Keeps s₀ (s.quiesce cause) := by
  unfold State.quiesce
  extract_lets s1
  have hs1 : Keeps s₀ s1 := keeps_foldl (keeps_mirLeave hs) (fun _ _ h1 => keeps_quiescePort h1)
  exact keeps_syncDegraded (keeps_modFw (keeps_commitHist (keeps_abortJobs hs1)))

theorem keeps_execWarmResetRequest (hs : Keeps s₀ s) : KeepsRes s₀ (execWarmResetRequest s) :=
  keepsRes_next (keeps_onlyIf (keeps_modFw (keeps_quiesce hs)) hs)

theorem keeps_resumeRotation (hs : Keeps s₀ s) : Keeps s₀ s.resumeRotation := by
  unfold State.resumeRotation
  extract_lets
  split
  · exact hs
  · extract_lets _ s1
    have hs1 : Keeps s₀ s1 := keeps_mk hs
    exact keeps_wr (keeps_wr hs1)

theorem keeps_resumeMigration {k : Nat} (hs : Keeps s₀ s) : Keeps s₀ (s.resumeMigration k) := by
  unfold State.resumeMigration
  extract_lets
  refine keeps_ite hs ?_
  split
  · exact keeps_wr hs
  · exact hs

theorem keeps_warmSite {k : Nat} {w : Option WarmSite} (hs : Keeps s₀ s) : Keeps s₀ (s.warmSite k w) := by
  unfold State.warmSite
  extract_lets _ s1 _ _ ps
  have hs1 : Keeps s₀ s1 := by
    unfold s1
    split
    · exact keeps_addHard hs
    · exact hs
  clear_value s1
  split
  rename_i u _ hu
  have hu : Keeps s₀ u := by
    refine Keeps.of_fst ?_ hu
    cases w with
    | none => exact keeps_wr (keeps_postVerify hs1)
    | some w => exact keepsFst_ite (keeps_trainPcs hs1) (keepsFst_ite (keeps_wr (keeps_postVerify hs1)) (keeps_trainPcs hs1))
  extract_lets s2
  have hs2 : Keeps s₀ s2 := keeps_foldl hu fun _ _ h1 =>
    keeps_ite (keeps_excludePc h1) (keeps_ite (keeps_ite (keeps_setPc h1) (keeps_thawPc (keeps_setPc h1))) (keeps_setPc h1))
  exact keeps_onlyIf (keeps_siteDead (keeps_settle hs2)) (keeps_settle hs2)

theorem keeps_warmLantern {j : Nat} (hs : Keeps s₀ s) : Keeps s₀ (s.warmLantern j) := by
  unfold State.warmLantern
  extract_lets s1 s2
  have hs1 : Keeps s₀ s1 := keeps_foldl hs (fun _ _ h1 => keeps_ite (keeps_standDown (keeps_setRole h1)) h1)
  have hs2 : Keeps s₀ s2 := keeps_foldl hs1 (fun _ _ h2 => keeps_foldl h2 (fun _ _ h3 => keeps_replayOver h3))
  exact keeps_emptyPosy (keeps_setLnt hs2)

theorem keeps_warmState (hs : Keeps s₀ s) : Keeps s₀ s.warmState := by
  unfold State.warmState
  extract_lets _ s1 _ s2 s3 s4 s5 s6 s7 _ _ s8
  have hs1 : Keeps s₀ s1 := keeps_incRc hs
  have hs2 : Keeps s₀ s2 := keeps_mk hs1
  have hs3 : Keeps s₀ s3 := keeps_foldl hs2 (fun _ _ h1 => keeps_endSession h1)
  have hs4 : Keeps s₀ s4 := keeps_foldl hs3 (fun _ _ h2 => keeps_warmLantern h2)
  have hs5 : Keeps s₀ s5 := keeps_foldl hs4 (fun _ _ h3 => keeps_incWrap (keeps_wr (keeps_clearReg (keeps_setRing h3))))
  have hs6 : Keeps s₀ s6 := keeps_foldl hs5 (fun _ _ h4 => keeps_wr h4)
  have hs7 : Keeps s₀ s7 := keeps_wr (keeps_wr (keeps_wr hs6))
  have hs8 : Keeps s₀ s8 := keeps_setAttn hs7
  exact keeps_mk hs8

theorem keeps_warmCores {bad : List (Fin 15)} (hs : Keeps s₀ s) : Keeps s₀ (s.warmCores bad) := by
  unfold State.warmCores
  refine keeps_foldl (keeps_modFw hs) (fun _ _ h1 => ?_)
  extract_lets s1
  have hs1 : Keeps s₀ s1 := keeps_ite (keeps_loadImg h1) (keeps_ite (keeps_loadImg h1) h1)
  exact keeps_ite (keeps_setCore hs1) (keeps_runCore hs1)

/-! ### `Sys2Proof/Machine/Plots.lean` -/

theorem keeps_plotResult {i r : Nat} (hs : Keeps s₀ s) : Keeps s₀ (s.plotResult i r) := keeps_wr (keeps_raise (keeps_wr (keeps_wr hs)))

theorem keeps_allocPlot {i : Nat} (hs : Keeps s₀ s) : Keeps s₀ (s.allocPlot i).1 := by
  unfold State.allocPlot
  extract_lets
  refine keepsFst_ite hs ?_
  refine keepsFst_ite hs ?_
  refine keepsFst_ite hs ?_
  refine keepsFst_ite hs ?_
  refine keepsFst_ite hs ?_
  split
  · rename_i x1 x2
    have hx3 : Keeps s₀ x1 := Keeps.of_snd (keeps_allocSlotOf hs) x2
    exact hx3
  · rename_i x4 x5
    have hx6 : Keeps s₀ x4 := Keeps.of_snd (keeps_allocSlotOf hs) x5
    extract_lets
    exact keeps_setPlot hx6

theorem keeps_freePlot {i : Nat} (hs : Keeps s₀ s) : Keeps s₀ (s.freePlot i).1 := by
  unfold State.freePlot
  extract_lets _ s1
  have hs1 : Keeps s₀ s1 := keeps_setPlot hs
  exact keepsFst_ite hs (keepsFst_ite hs (keeps_keyAction (keeps_mk hs1)))

theorem keeps_editPlot {i : Nat} {f : Plot → Plot} (hs : Keeps s₀ s) : Keeps s₀ (s.editPlot i f).1 :=
  keepsFst_ite hs (keepsFst_ite (keeps_setPlot hs) hs)

theorem keeps_plotRun {op i : Nat} (hs : Keeps s₀ s) : Keeps s₀ (s.plotRun op i) := by
  unfold State.plotRun
  split
  rename_i x1 _ x2
  have hx3 : Keeps s₀ x1 := Keeps.of_fst (keepsFst_ite (keeps_allocPlot hs) (keepsFst_ite (keeps_freePlot hs) (keepsFst_ite (keeps_editPlot
      hs) (keepsFst_ite (keeps_editPlot hs) hs)))) x2
  exact keeps_plotResult hx3

theorem keeps_plotCmd {op i : Nat} (hs : Keeps s₀ s) : Keeps s₀ (s.plotCmd op i) :=
  keeps_ite (keeps_raise hs) (keeps_ite hs (keeps_ite (keeps_wr (keeps_wr (keeps_wr hs))) (keeps_plotRun hs)))

theorem keeps_plotResume (hs : Keeps s₀ s) : Keeps s₀ s.plotResume := keeps_onlyIf (keeps_clearReg (keeps_plotRun hs)) hs

theorem keeps_execAlloc {i : Fin 4096} (hs : Keeps s₀ s) : KeepsRes s₀ (execAlloc i s) :=
  keeps_orWait hs (fun _ h1 => keepsRes_next (keeps_plotCmd h1))

theorem keeps_execFree {i : Fin 4096} (hs : Keeps s₀ s) : KeepsRes s₀ (execFree i s) :=
  keeps_orWait hs (fun _ h1 => keepsRes_next (keeps_plotCmd h1))

theorem keeps_execSetrights {i : Fin 4096} (hs : Keeps s₀ s) : KeepsRes s₀ (execSetrights i s) :=
  keeps_orWait hs (fun _ h1 => keepsRes_next (keeps_plotCmd h1))

theorem keeps_execSetmirror {i : Fin 4096} (hs : Keeps s₀ s) : KeepsRes s₀ (execSetmirror i s) :=
  keeps_orWait hs (fun _ h1 => keepsRes_next (keeps_plotCmd h1))

theorem keeps_execPlotCmdBadOp {op : Fin 16} {i : Fin 4096} (hs : Keeps s₀ s) : KeepsRes s₀ (execPlotCmdBadOp op i s) :=
  keeps_orWait hs (fun _ h1 => keepsRes_next (keeps_plotCmd h1))

theorem keeps_execAllocZeroingDone {i : Fin 4096} (hs : Keeps s₀ s) : KeepsRes s₀ (execAllocZeroingDone i s) :=
  keepsRes_next (keeps_onlyIf (keeps_setPlot (keeps_zeroPlot hs)) hs)

theorem keeps_execPlotQuarantineEnd {i : Fin 4096} (hs : Keeps s₀ s) : KeepsRes s₀ (execPlotQuarantineEnd i s) := by
  unfold execPlotQuarantineEnd
  extract_lets
  split
  · exact keepsRes_next hs
  · exact keepsRes_next (keeps_onlyIf (keeps_setPlot (keeps_mk hs)) hs)

/-! ### `Sys2Proof/Machine/Firmware.lean` -/

theorem keeps_coreStops {c : Nat} (hs : Keeps s₀ s) : Keeps s₀ (s.coreStops c) := by
  unfold State.coreStops
  extract_lets _ s1
  have hs1 : Keeps s₀ s1 := keeps_mk hs
  exact keeps_ite (keeps_holdJobs hs) (keeps_ite hs hs1)

theorem keeps_holdCore {c cause : Nat} (hs : Keeps s₀ s) : Keeps s₀ (s.holdCore c cause) := by
  unfold State.holdCore
  extract_lets _ _ _ s1 s2
  have hs1 : Keeps s₀ s1 := keeps_wr (keeps_setCore hs)
  have hs2 : Keeps s₀ s2 := keeps_onlyIf (keeps_raise hs1) hs1
  exact keeps_modFw hs2

theorem keeps_restartNow {c cause : Nat} (hs : Keeps s₀ s) : Keeps s₀ (s.restartNow c cause) := by
  unfold State.restartNow
  extract_lets _ _ s1
  have hs1 : Keeps s₀ s1 := keeps_raise (keeps_wr (keeps_incRc (keeps_holdCore hs)))
  exact keeps_coreStops (keeps_audit hs1)

theorem keeps_restart {c cause : Nat} (hs : Keeps s₀ s) : Keeps s₀ (s.restart c cause) :=
  keeps_ite (keeps_ite hs (keeps_modFw hs)) (keeps_restartNow hs)

theorem keeps_execWatchdogExpiry {c : Fin 15} (hs : Keeps s₀ s) : KeepsRes s₀ (execWatchdogExpiry c s) :=
  keepsRes_ite (keepsRes_next (keeps_ite (keeps_restart hs) (keeps_onlyIf (keeps_holdCore hs) hs))) (keepsRes_next hs)

theorem keeps_execCoreTrap {c : Fin 15} (hs : Keeps s₀ s) : KeepsRes s₀ (execCoreTrap c s) :=
  keepsRes_next (keeps_onlyIf (keeps_restart (keeps_evt hs)) hs)

theorem keeps_execCoreRestart {c : Fin 15} {imageOk : Bool} (hs : Keeps s₀ s) : KeepsRes s₀ (execCoreRestart c imageOk s) := by
  unfold execCoreRestart
  refine keeps_orWait hs (fun _ h1 => ?_)
  extract_lets s1
  have hs1 : Keeps s₀ s1 := keeps_restart (keeps_audit h1)
  exact keepsRes_ite (keepsRes_next h1) (keepsRes_next (keeps_ite hs1 (keeps_loadImg hs1)))

theorem keeps_execCoreRelease {c : Fin 15} (hs : Keeps s₀ s) : KeepsRes s₀ (execCoreRelease c s) := by
  unfold execCoreRelease
  extract_lets s1 s2 _ _ _ s3
  have hs1 : Keeps s₀ s1 := keeps_ite (keeps_modFw (keeps_loadImg hs)) hs
  have hs2 : Keeps s₀ s2 := keeps_runCore hs1
  have hs3 : Keeps s₀ s3 := keeps_mk hs2
  exact keepsRes_ite (keepsRes_next hs) (keepsRes_next (keeps_ite (keeps_foldl (keeps_modFw (keeps_plotResume hs3)) (fun _ _ h1 =>
      keeps_restartNow h1)) (keeps_ite (keeps_modRings (keeps_releaseJobs hs2)) hs2)))

theorem keeps_setUpd {st r : Nat} (hs : Keeps s₀ s) : Keeps s₀ (s.setUpd st r) := keeps_wr (keeps_wr hs)

theorem keeps_serveFw {f cmd : Nat} {args : List Byte} {boot : Bool} {run : State → State × Nat × Nat} (hs : Keeps s₀ s) (hrun : ∀ u, Keeps
    s₀ u → Keeps s₀ (run u).1) :
    Keeps s₀ (s.serveFw f cmd args boot run) := by
  unfold State.serveFw
  refine keeps_ite hs ?_
  refine keeps_ite (keeps_mbxPost hs) ?_
  refine keeps_ite hs ?_
  split
  rename_i x1 _ _ x2
  have hx3 : Keeps s₀ x1 := Keeps.of_fst (keepsFst_ite hs (hrun _ hs)) x2
  exact keeps_mbxPost hx3

theorem keeps_execStageChunk {f : FnIx} {dest : Fin 4} {off : W32} {data : List Byte} (hs : Keeps s₀ s) :
    KeepsRes s₀ (execStageChunk f dest off data s) := by
  unfold execStageChunk
  refine keepsRes_next (keeps_serveFw hs (fun _ h1 => ?_))
  refine keepsFst_ite h1 (keepsFst_ite (keepsFst_mk (keeps_modFw h1)) (keepsFst_ite (keeps_wr h1) (keepsFst_mk (keeps_modFw ?_))))
  exact keeps_ite h1 (keeps_modFw (keeps_setUpd h1))

theorem keeps_execStageEnd {f : FnIx} {dest : Fin 4} {total : W32} (hs : Keeps s₀ s) : KeepsRes s₀ (execStageEnd f dest total s) := by
  unfold execStageEnd
  refine keepsRes_next (keeps_serveFw hs (fun _ h1 => ?_))
  extract_lets _ _ _ _ s1
  have hs1 : Keeps s₀ s1 := keeps_modFw h1
  refine keepsFst_ite h1 (keepsFst_ite (keepsFst_ite h1 ?_) (keepsFst_ite (keeps_wr h1) (keepsFst_ite (keeps_setUpd hs1) ?_)))
  · exact keeps_bootOn (keeps_modFw (keeps_wr (keeps_wr h1)))
  · exact keepsFst_mk (keeps_modFw (keeps_setUpd hs1))

theorem keeps_execRecWrite {f : FnIx} {kind : Byte} {body : List Byte} (hs : Keeps s₀ s) : KeepsRes s₀ (execRecWrite f kind body s) := by
  unfold execRecWrite
  refine keepsRes_next (keeps_serveFw hs (fun _ h1 => ?_))
  exact keepsFst_ite (keepsFst_ite h1 (keepsFst_ite h1 (keepsFst_mk (keeps_modFw h1))))
    (keepsFst_ite (keepsFst_ite h1 (keepsFst_ite h1 (keepsFst_mk (keeps_modFw h1)))) h1)

theorem keeps_execTrnSave {f : FnIx} {site : Cluster} (hs : Keeps s₀ s) : KeepsRes s₀ (execTrnSave f site s) := by
  unfold execTrnSave
  refine keepsRes_next (keeps_serveFw hs (fun _ h1 => ?_))
  exact keepsFst_mk (keeps_modFw h1)

theorem keeps_setNext (hs : Keeps s₀ s) : Keeps s₀ s.setNext := keeps_wr hs

theorem keeps_beginActivation (hs : Keeps s₀ s) : Keeps s₀ s.beginActivation := keeps_setNext (keeps_modFw (keeps_setUpd hs))

theorem keeps_deferAct (hs : Keeps s₀ s) : Keeps s₀ s.deferAct := by
  unfold State.deferAct
  extract_lets
  exact keeps_modFw (keeps_raise (keeps_setUpd hs))

theorem keeps_deferLate (hs : Keeps s₀ s) : Keeps s₀ s.deferLate := keeps_onlyIf (keeps_wr (keeps_deferAct hs)) hs

theorem keeps_execActivate (hs : Keeps s₀ s) : KeepsRes s₀ (execActivate s) := by
  unfold execActivate
  refine keeps_orWait hs (fun _ h1 => ?_)
  extract_lets s1
  have hs1 : Keeps s₀ s1 := keeps_audit h1
  exact keepsRes_ite (keepsRes_next (keeps_wr hs1)) (keepsRes_ite (keepsRes_next (keeps_deferAct hs1)) (keepsRes_next (keeps_beginActivation
      hs1)))

theorem keeps_execCancel (hs : Keeps s₀ s) : KeepsRes s₀ (execCancel s) :=
  keeps_orWait hs (fun _ h1 => keepsRes_next (keeps_onlyIf (keeps_audit (keeps_setUpd h1)) h1))

theorem keeps_execActivationBegin (hs : Keeps s₀ s) : KeepsRes s₀ (execActivationBegin s) :=
  keepsRes_next (keeps_onlyIf (keeps_beginActivation hs) hs)

theorem keeps_execActivationCoreRestart (hs : Keeps s₀ s) : KeepsRes s₀ (execActivationCoreRestart s) := by
  unfold execActivationCoreRestart
  split
  · exact keepsRes_next hs
  · extract_lets
    exact keepsRes_next (keeps_onlyIf (keeps_wr (keeps_modFw (keeps_ite (keeps_wr hs) (keeps_restartNow hs)))) hs)

theorem keeps_execActivationStartFail (hs : Keeps s₀ s) : KeepsRes s₀ (execActivationStartFail s) := by
  unfold execActivationStartFail
  extract_lets _ s1
  have hs1 : Keeps s₀ s1 := keeps_foldl hs (fun _ _ h1 => keeps_restartNow (keeps_loadImg h1))
  split
  · exact keepsRes_next hs
  · extract_lets
    exact keepsRes_ite (keepsRes_next hs) (keepsRes_next (keeps_modFw (keeps_wr (keeps_raise (keeps_setUpd hs1)))))

theorem keeps_endActivation (hs : Keeps s₀ s) : Keeps s₀ s.endActivation := by
  unfold State.endActivation
  extract_lets _ _ _ _ _ _ _ s1 s2 s3
  have hs1 : Keeps s₀ s1 := keeps_foldl hs (fun _ _ h1 => keeps_wr h1)
  have hs2 : Keeps s₀ s2 := keeps_modFw hs1
  have hs3 : Keeps s₀ s3 := keeps_raise (keeps_wr (keeps_setUpd hs2))
  exact keeps_commitHist hs3

theorem keeps_execActivationEnd (hs : Keeps s₀ s) : KeepsRes s₀ (execActivationEnd s) :=
  keepsRes_next (keeps_onlyIf (keeps_endActivation hs) hs)

theorem keeps_mirWarm (hs : Keeps s₀ s) : Keeps s₀ s.mirWarm := keeps_ite hs (keeps_pauseWins (keeps_wr hs))

theorem keeps_execWarmReset {e : WarmEnv} (hs : Keeps s₀ s) : KeepsRes s₀ (execWarmReset e s) := by
  unfold execWarmReset
  extract_lets s1 _ s2 s3 s4 s5 s6
  have hs1 : Keeps s₀ s1 := keeps_onlyIf (keeps_send hs) hs
  have hs2 : Keeps s₀ s2 := keeps_modFw (keeps_warmCores (keeps_warmState (keeps_mirWarm hs1)))
  have hs3 : Keeps s₀ s3 := keeps_wr (keeps_wr (keeps_wr hs2))
  have hs4 : Keeps s₀ s4 := keeps_ite (keeps_endActivation (keeps_modFw hs3)) hs3
  have hs5 : Keeps s₀ s5 := keeps_foldl hs4 (fun _ _ h1 => keeps_warmSite h1)
  have hs6 : Keeps s₀ s6 := keeps_foldl (keeps_resumeRotation hs5) (fun _ _ h2 => keeps_resumeMigration h2)
  split
  · exact keepsRes_next hs
  · exact keepsRes_ite (keepsRes_next hs) (keepsRes_next (keeps_syncDegraded (keeps_onlyIf (keeps_startSweep hs6) hs6)))

/-! ### `Sys2Proof/Machine/Power.lean` -/

theorem keeps_modPw {f : Pw → Pw} (hs : Keeps s₀ s) : Keeps s₀ (s.modPw f) := keeps_mk hs

theorem keeps_heatRecord {sev cls n : Nat} {reading : Int} {last : Nat} (hs : Keeps s₀ s) :
    Keeps s₀ (s.heatRecord sev cls n reading last) :=
  keeps_record hs

theorem keeps_reading {i raw : Nat} {x : SensConf} (hs : Keeps s₀ s) : Keeps s₀ (s.reading i raw x).2 := by
  unfold State.reading
  extract_lets
  refine keepsSnd_ite hs ?_
  refine keepsSnd_ite hs ?_
  refine keepsSnd_ite hs ?_
  split
  rename_i x1 x2
  have hx3 : Keeps s₀ x1 := Keeps.of_snd (keeps_fresh hs) x2
  exact hx3

theorem keeps_beginShutdown {n : Nat} {reading : Int} {last : Nat} (hs : Keeps s₀ s) : Keeps s₀ (s.beginShutdown n reading last) := by
  unfold State.beginShutdown
  extract_lets _ s1
  have hs1 : Keeps s₀ s1 := keeps_heatRecord (keeps_wr (keeps_setAttn hs))
  exact keeps_ite hs (keeps_modPw (keeps_commitHist hs1))

theorem keeps_sense {i : Nat} {t : Option Int} {x : SensConf} (hs : Keeps s₀ s) : Keeps s₀ (s.sense i t x) := by
  unfold State.sense
  extract_lets
  refine keeps_ite (keeps_modPw (keeps_wr (keeps_wr hs))) ?_
  split
  · exact keeps_modPw (keeps_wr (keeps_wr hs))
  · extract_lets _ _ _ _ s1 s2 s3
    have hs1 : Keeps s₀ s1 := keeps_wr (keeps_wr (keeps_wr hs))
    have hs2 : Keeps s₀ s2 := keeps_modPw hs1
    have hs3 : Keeps s₀ s3 := keeps_onlyIf (keeps_heatRecord hs2) hs2
    exact keeps_ite (keeps_modFw (keeps_beginShutdown hs3)) hs3

theorem keeps_askNmc {half : Bool} (hs : Keeps s₀ s) : Keeps s₀ (s.askNmc half) := keeps_mk hs

theorem keeps_settleHeat {t : Nat} (hs : Keeps s₀ s) : Keeps s₀ (s.settleHeat t) := by
  unfold State.settleHeat
  extract_lets s1
  have hs1 : Keeps s₀ s1 := keeps_onlyIf (keeps_raise hs) hs
  exact keeps_ite hs1 (keeps_modPw (keeps_setAttn hs1))

theorem keeps_heatLeaves (hs : Keeps s₀ s) : Keeps s₀ s.heatLeaves := by
  unfold State.heatLeaves
  extract_lets s1 _ s2
  have hs1 : Keeps s₀ s1 := keeps_onlyIf (keeps_modPw (keeps_setAttn hs)) hs
  have hs2 : Keeps s₀ s2 := keeps_askNmc (keeps_wr (keeps_setAttn hs1))
  exact keeps_ite hs (keeps_onlyIf (keeps_mk hs2) hs1)

theorem keeps_railFault {r mv status : Nat} (hs : Keeps s₀ s) : Keeps s₀ (s.railFault r mv status) := by
  unfold State.railFault
  extract_lets s1 _ _ _ s2 s3
  have hs1 : Keeps s₀ s1 := keeps_heatRecord (keeps_raiseBit (keeps_wr hs))
  have hs2 : Keeps s₀ s2 := keeps_modPw hs1
  have hs3 : Keeps s₀ s3 := keeps_foldl hs2 (fun _ _ h1 => keeps_onlyIf (keeps_freezePc h1) h1)
  exact keeps_ite (keeps_beginShutdown hs1) (keeps_ite (keeps_siteDead hs3) (keeps_onlyIf (keeps_wr hs3) (keeps_send (keeps_send hs3))))

theorem keeps_sendRail {r mv : Nat} (hs : Keeps s₀ s) : Keeps s₀ (s.sendRail r mv) := keeps_send (keeps_onlyIf (keeps_incRc hs) hs)

theorem keeps_execVsetWrite {r : Fin 50} {mv : BitVec 16} (hs : Keeps s₀ s) : KeepsRes s₀ (execVsetWrite r mv s) :=
  keepsRes_next (keeps_onlyIf (keeps_sendRail (keeps_coreField hs)) hs)

theorem keeps_execRailPoll {r : Fin 50} {answered : Bool} {status vout iout : BitVec 16} (hs : Keeps s₀ s) :
    KeepsRes s₀ (execRailPoll r answered status vout iout s) := by
  unfold execRailPoll
  extract_lets _ s1 _ s2 s3 s4
  have hs1 : Keeps s₀ s1 := keeps_modPw hs
  have hs2 : Keeps s₀ s2 := keeps_modPw hs1
  have hs3 : Keeps s₀ s3 := keeps_wr (keeps_wr hs1)
  have hs4 : Keeps s₀ s4 := keeps_modPw hs3
  exact keepsRes_ite (keepsRes_next (keeps_onlyIf (keeps_railFault hs2) hs2)) (keepsRes_next (keeps_onlyIf (keeps_railFault hs4) hs4))

theorem keeps_execPmAlert (hs : Keeps s₀ s) : KeepsRes s₀ (execPmAlert s) := keepsRes_next (keeps_modPw hs)

theorem keeps_power (hs : Keeps s₀ s) : Keeps s₀ s.power := by
  unfold State.power
  extract_lets _ _ _ s1
  have hs1 : Keeps s₀ s1 := keeps_wr hs
  exact keeps_ite (keeps_wr hs1) (keeps_ite (keeps_wr hs1) hs1)

theorem keeps_convert {ch raw : Nat} (hs : Keeps s₀ s) : Keeps s₀ (s.convert ch raw) := by
  unfold State.convert
  extract_lets _ s1 _ _ _ s2
  have hs1 : Keeps s₀ s1 := keeps_wr hs
  have hs2 : Keeps s₀ s2 := keeps_modPw hs1
  refine keeps_ite (keeps_ite (keeps_sense hs) ?_) (keeps_ite ?_ (keeps_ite ?_ hs1))
  · split
    rename_i u hu
    have hk : Keeps s₀ u := Keeps.of_snd (keeps_reading hs) hu
    refine keeps_sense ?_
    split
    · exact keeps_wr hk
    · exact hk
  · split
    rename_i u hu
    have hk : Keeps s₀ u := Keeps.of_snd (keeps_fresh hs2) hu
    exact keeps_onlyIf (keeps_railFault hk) hk
  · split
    rename_i u hu
    have hk : Keeps s₀ u := Keeps.of_snd (keeps_fresh hs1) hu
    extract_lets s3
    have hs3 : Keeps s₀ s3 := keeps_onlyIf (keeps_railFault hk) hk
    exact keeps_onlyIf (keeps_power hs3) hs3

theorem keeps_bootCool (hs : Keeps s₀ s) : Keeps s₀ s.bootCool := keeps_ite (keeps_releaseCccs (keeps_modFw hs)) hs

theorem keeps_execHkSample {ch : Fin 64} {raw : BitVec 16} (hs : Keeps s₀ s) : KeepsRes s₀ (execHkSample ch raw s) := by
  unfold execHkSample
  extract_lets _ s1
  have hs1 : Keeps s₀ s1 := keeps_settleHeat (keeps_convert (keeps_mk hs))
  exact keepsRes_ite (keepsRes_next hs) (keepsRes_next (keeps_ite (keeps_modPw hs1) (keeps_bootCool (keeps_modPw (keeps_wr hs1)))))

theorem keeps_siteTemp {k : Nat} {t : Option Nat} (hs : Keeps s₀ s) : Keeps s₀ (s.siteTemp k t) := by
  unfold State.siteTemp
  extract_lets _ s1
  have hs1 : Keeps s₀ s1 := keeps_mk hs
  exact keeps_ite hs (keeps_settleHeat (keeps_decideHot (keeps_sense hs1)))

theorem keeps_execStackTempRead {k : Cluster} {temp : Byte} {valid : Bool} (hs : Keeps s₀ s) :
    KeepsRes s₀ (execStackTempRead k temp valid s) :=
  keepsRes_next (keeps_siteTemp hs)

theorem keeps_execStackTempTimeout {k : Cluster} (hs : Keeps s₀ s) : KeepsRes s₀ (execStackTempTimeout k s) :=
  keepsRes_next (keeps_siteTemp hs)

theorem keeps_execGraceExpiry (hs : Keeps s₀ s) : KeepsRes s₀ (execGraceExpiry s) := by
  unfold execGraceExpiry
  extract_lets _ _ s1 s2 s3
  have hs1 : Keeps s₀ s1 := keeps_raise (keeps_wr (keeps_setAttn (keeps_setAttn hs)))
  have hs2 : Keeps s₀ s2 := keeps_heatRecord (keeps_askNmc hs1)
  have hs3 : Keeps s₀ s3 := keeps_modPw hs2
  split
  · exact keepsRes_next hs
  · exact keepsRes_ite (keepsRes_next hs) (keepsRes_next (keeps_mk hs3))

theorem keeps_execShutdownNoticeEnd (hs : Keeps s₀ s) : KeepsRes s₀ (execShutdownNoticeEnd s) := by
  unfold execShutdownNoticeEnd
  split
  · exact keepsRes_next hs
  · exact keepsRes_next (keeps_onlyIf (keeps_modPw (keeps_quiesce hs)) hs)

theorem keeps_execPwroffRequest (hs : Keeps s₀ s) : KeepsRes s₀ (execPwroffRequest s) := by
  unfold execPwroffRequest
  split
  · exact keepsRes_next hs
  · extract_lets
    exact keepsRes_next (keeps_onlyIf (keeps_modPw (keeps_send hs)) hs)

theorem keeps_execThresholdWrite {i : Fin 44} {v : W32} (hs : Keeps s₀ s) : KeepsRes s₀ (execThresholdWrite i v s) := by
  unfold execThresholdWrite
  extract_lets
  refine keeps_orWait hs (fun _ h1 => ?_)
  extract_lets _ s1
  have hs1 : Keeps s₀ s1 := keeps_wr (keeps_wr (keeps_wr h1))
  exact keepsRes_ite (keepsRes_next h1) (keepsRes_ite (keepsRes_next (keeps_raise h1)) (keepsRes_next (keeps_auditReg hs1)))

theorem keeps_stepRail {r : Nat} {margins : List Nat} (hs : Keeps s₀ s) : Keeps s₀ (s.stepRail r margins) := by
  unfold State.stepRail
  split
  rename_i x1 x2
  have hx3 : Keeps s₀ x1 := Keeps.of_snd (keeps_fresh hs) x2
  extract_lets
  exact keeps_onlyIf (keeps_sendRail (keeps_coreField hx3)) hx3

theorem keeps_execPmcVoltageStep {marginLogic marginNmc : List Nat} (hs : Keeps s₀ s) :
    KeepsRes s₀ (execPmcVoltageStep marginLogic marginNmc s) :=
  keepsRes_next (keeps_onlyIf (keeps_modPw (keeps_stepRail (keeps_stepRail hs))) hs)

/-! ### `Sys2Proof/Machine/Mirror.lean` -/

theorem keeps_auditMirror {p off old new : Nat} (hs : Keeps s₀ s) : Keeps s₀ (s.auditMirror p off old new) :=
  keeps_onlyIf (keeps_audit hs) hs

theorem keeps_heard (hs : Keeps s₀ s) : Keeps s₀ s.heard := by
  unfold State.heard
  extract_lets
  exact keeps_modMir hs

theorem keeps_onFrame {p : Nat} {f : State → State} (hs : Keeps s₀ s) (hrun : ∀ u, Keeps s₀ u → Keeps s₀ (f u)) :
    Keeps s₀ (s.onFrame p f) :=
  keeps_onlyIf (hrun _ (keeps_heard hs)) hs

theorem keeps_authFail {p : Nat} (hs : Keeps s₀ s) : Keeps s₀ (s.authFail p) := keeps_onlyIf (keeps_mirStop (keeps_incRc hs)) hs

theorem keeps_holdAck (hs : Keeps s₀ s) : Keeps s₀ s.holdAck := keeps_wr hs

theorem keeps_mirLost (hs : Keeps s₀ s) : Keeps s₀ s.mirLost := by
  unfold State.mirLost
  extract_lets s1
  have hs1 : Keeps s₀ s1 := keeps_foldl (keeps_wr (keeps_holdAck hs)) (fun _ _ h1 => keeps_diverge h1)
  exact keeps_syncDegraded (keeps_mirStop (keeps_mirStop (keeps_modMir hs1)))

theorem keeps_unpaired (hs : Keeps s₀ s) : Keeps s₀ s.unpaired := by
  unfold State.unpaired
  extract_lets s1 s2
  have hs1 : Keeps s₀ s1 := keeps_foldl (keeps_wr (keeps_holdAck hs)) (fun _ _ h1 => keeps_setWinState h1)
  have hs2 : Keeps s₀ s2 := keeps_modMir (keeps_wr hs1)
  exact keeps_syncDegraded (keeps_mirStop (keeps_mirStop hs2))

theorem keeps_mirLeft (hs : Keeps s₀ s) : Keeps s₀ s.mirLeft := by
  unfold State.mirLeft
  split
  · exact hs
  · exact keeps_onlyIf (keeps_unpaired hs) hs

theorem keeps_beginLeave (hs : Keeps s₀ s) : Keeps s₀ s.beginLeave := by
  unfold State.beginLeave
  extract_lets
  exact keeps_mirLeft (keeps_modMir hs)

theorem keeps_pairOp {op : Nat} {ok : Bool} {run : State → State} (hs : Keeps s₀ s) (hrun : ∀ u, Keeps s₀ u → Keeps s₀ (run u)) :
    Keeps s₀ (s.pairOp op ok run) := by
  unfold State.pairOp
  extract_lets _ s1
  have hs1 : Keeps s₀ s1 := keeps_audit hs
  exact keeps_ite hs (keeps_ite (hrun _ (keeps_wr hs1)) (keeps_wr hs1))

theorem keeps_execPair (hs : Keeps s₀ s) : KeepsRes s₀ (execPair s) :=
  keeps_orWait hs (fun _ h1 => keepsRes_next (keeps_pairOp h1 (fun _ h2 => keeps_ite (keeps_wr h2) (keeps_wr h2))))

theorem keeps_execPairFormed {ok : Bool} {peerDigest : BitVec 384} (hs : Keeps s₀ s) : KeepsRes s₀ (execPairFormed ok peerDigest s) := by
  unfold execPairFormed
  extract_lets _ _ _ s1 _ s2 s3
  have hs1 : Keeps s₀ s1 := keeps_wr (keeps_wr (keeps_wr hs))
  have hs2 : Keeps s₀ s2 := keeps_mk hs1
  have hs3 : Keeps s₀ s3 := keeps_foldl hs2 (fun _ _ h1 => keeps_mirStart h1)
  exact keepsRes_ite (keepsRes_next hs) (keepsRes_ite (keepsRes_next (keeps_wr (keeps_unpaired hs))) (keepsRes_next (keeps_mirPump
      (keeps_syncDegraded (keeps_resumeWins hs3)))))

theorem keeps_execUnpair (hs : Keeps s₀ s) : KeepsRes s₀ (execUnpair s) :=
  keeps_orWait hs (fun _ h1 => keepsRes_next (keeps_pairOp h1 (fun _ h2 => keeps_beginLeave (keeps_sendFrame (keeps_sendFrame h2)))))

theorem keeps_adoptKey {slot owner : Nat} {w : BitVec 576} (hs : Keeps s₀ s) : Keeps s₀ (s.adoptKey slot owner w) := by
  unfold State.adoptKey
  generalize s.mapTenant owner = m
  generalize kwUnwrap s.wrapKey (leBytes w 72) = o
  generalize s.slotFor = free
  cases m with
  | none => exact hs
  | some t =>
    cases o with
    | none => exact keeps_record hs
    | some pair =>
      dsimp only
      generalize free t = n
      cases n with
      | none => exact keeps_record hs
      | some i => exact keeps_ite (keeps_record hs) (keeps_newKey hs)

theorem keeps_adoptHead (hs : Keeps s₀ s) : Keeps s₀ s.adoptHead := by
  unfold State.adoptHead
  split
  · exact hs
  · exact keeps_foldl (keeps_audit hs) (fun _ _ h1 => keeps_audit h1)

theorem keeps_execTakeover (hs : Keeps s₀ s) : KeepsRes s₀ (execTakeover s) := by
  unfold execTakeover
  refine keeps_orWait hs (fun _ h1 => ?_)
  refine keepsRes_next ?_
  refine keeps_pairOp h1 (fun _ h2 => ?_)
  extract_lets s1 s2
  have hs1 : Keeps s₀ s1 := keeps_adoptHead h2
  have hs2 : Keeps s₀ s2 := by
    unfold s2
    refine keeps_ite hs1 ?_
    refine keeps_foldl hs1 (fun _ _ h3 => ?_)
    split
    · exact h3
    · refine keeps_foldl h3 (fun _ _ h4 => ?_)
      split
      · exact keeps_adoptKey h4
      · exact h4
  exact keeps_syncDegraded (keeps_modMir (keeps_wr hs2))

theorem keeps_execPartnerLoss (hs : Keeps s₀ s) : KeepsRes s₀ (execPartnerLoss s) := keepsRes_next (keeps_onlyIf (keeps_mirLost hs) hs)

theorem keeps_execPairKeyUpdate (hs : Keeps s₀ s) : KeepsRes s₀ (execPairKeyUpdate s) := by
  unfold execPairKeyUpdate
  extract_lets _ s1
  have hs1 : Keeps s₀ s1 := keeps_modMir hs
  exact keepsRes_next (keeps_onlyIf (keeps_mk hs1) hs)

theorem keeps_execHello {port : Fin 2} {proto : Byte} {width : Fin 8} (hs : Keeps s₀ s) : KeepsRes s₀ (execHello port proto width s) := by
  unfold execHello
  refine keepsRes_next ?_
  refine keeps_onFrame hs (fun _ h1 => ?_)
  extract_lets _ _ _ s1 s2 s3 _ s4 s5 _ s6
  have hs1 : Keeps s₀ s1 := keeps_wr h1
  have hs2 : Keeps s₀ s2 := keeps_auditMirror hs1
  have hs3 : Keeps s₀ s3 := keeps_foldl hs2 (fun _ _ h2 => keeps_onlyIf (keeps_setEff (keeps_setReg h2)) h2)
  have hs4 : Keeps s₀ s4 := keeps_wr hs3
  have hs5 : Keeps s₀ s5 := keeps_auditMirror hs4
  have hs6 : Keeps s₀ s6 := keeps_onlyIf (keeps_send hs5) hs5
  exact keeps_mirPump (keeps_syncDegraded (keeps_mirWidths hs6))

theorem keeps_execHeart {port : Fin 2} (hs : Keeps s₀ s) : KeepsRes s₀ (execHeart port s) :=
  keepsRes_next (keeps_onFrame hs (fun _ h1 => h1))

theorem keeps_execDown {port : Fin 2} {cause : Fin 4} (hs : Keeps s₀ s) : KeepsRes s₀ (execDown port cause s) := by
  unfold execDown
  refine keepsRes_next ?_
  refine keeps_onFrame hs (fun _ h1 => ?_)
  extract_lets
  exact keeps_ite (keeps_syncDegraded (keeps_mirStop (keeps_mirStop (keeps_modMir (keeps_pauseWins h1))))) (keeps_ite (keeps_mirLost h1)
      (keeps_ite (keeps_beginLeave h1) h1))

theorem keeps_execProbe {port : Fin 2} {t1 : W64} (hs : Keeps s₀ s) : KeepsRes s₀ (execProbe port t1 s) :=
  keepsRes_next (keeps_onFrame hs (fun _ h1 => keeps_sendFrame h1))

theorem keeps_execProbeReply {port : Fin 2} {t1 t2 t3 : W64} (hs : Keeps s₀ s) : KeepsRes s₀ (execProbeReply port t1 t2 t3 s) := by
  unfold execProbeReply
  extract_lets
  refine keepsRes_next ?_
  refine keeps_onFrame hs (fun _ h1 => ?_)
  extract_lets _ s1
  have hs1 : Keeps s₀ s1 := keeps_modMir h1
  split
  · exact hs1
  · extract_lets
    exact keeps_setReg (keeps_setReg hs1)

theorem keeps_execProbeSend (hs : Keeps s₀ s) : KeepsRes s₀ (execProbeSend s) :=
  keepsRes_next (keeps_onlyIf (keeps_modMir (keeps_sendFrame (keeps_sendFrame hs))) hs)

theorem keeps_execHeartSend (hs : Keeps s₀ s) : KeepsRes s₀ (execHeartSend s) :=
  keepsRes_next (keeps_onlyIf (keeps_modMir (keeps_sendFrame (keeps_sendFrame hs))) hs)

theorem keeps_takeEpoch {p e : Nat} (hs : Keeps s₀ s) : Keeps s₀ (s.takeEpoch p e) := keeps_onlyIf (keeps_auditMirror (keeps_wr hs)) hs

theorem keeps_execEpoch {port : Fin 2} {ep : BitVec 16} {set : List (Nat × Nat × Nat × Nat)} (hs : Keeps s₀ s) :
    KeepsRes s₀ (execEpoch port ep set s) := by
  unfold execEpoch
  refine keepsRes_next ?_
  refine keeps_onFrame hs (fun _ h1 => ?_)
  extract_lets _ s1
  have hs1 : Keeps s₀ s1 := keeps_takeEpoch h1
  exact keeps_onlyIf (keeps_modMir hs1) hs1

theorem keeps_applyItem {i : MirItem} (hs : Keeps s₀ s) : Keeps s₀ (s.applyItem i) := by
  unfold State.applyItem
  extract_lets
  split
  · exact keeps_modMir hs
  · exact keeps_modMir hs
  · exact keeps_modMir hs
  · exact keeps_modMir hs
  · extract_lets s1
    have hs1 : Keeps s₀ s1 := keeps_setReg (keeps_modMir hs)
    exact keeps_foldl hs1 (fun _ _ h1 => keeps_setReg h1)
  · exact keeps_modMir hs
  · exact keeps_modMir hs
  · exact keeps_modMir hs

theorem keeps_applyEarly {x : Nat} (hs : Keeps s₀ s) : Keeps s₀ (State.applyEarly x s) := by
  induction x generalizing s with
  | zero => exact hs
  | succ n ih =>
    unfold State.applyEarly
    split
    · exact hs
    · exact ih (keeps_modMir (keeps_applyItem hs))

theorem keeps_execStateMessage {port : Fin 2} {seq stamp : W64} {item : MirItem} (hs : Keeps s₀ s) :
    KeepsRes s₀ (execStateMessage port seq stamp item s) := by
  unfold execStateMessage
  extract_lets
  refine keepsRes_next ?_
  refine keeps_onFrame hs (fun _ h1 => ?_)
  extract_lets s1
  have hs1 : Keeps s₀ s1 := keeps_modMir h1
  exact keeps_ite h1 (keeps_applyEarly hs1)

theorem keeps_sendItems (hs : Keeps s₀ s) : Keeps s₀ s.sendItems := by
  unfold State.sendItems
  extract_lets _ _ s1
  have hs1 : Keeps s₀ s1 := keeps_foldl hs (fun _ _ h1 => keeps_modMir (keeps_sendControl h1))
  exact keeps_ite hs (keeps_modMir hs1)

theorem keeps_execDataRequest {port : Fin 2} {authOk : Bool} {window : Fin 16} {ep : BitVec 16} {owner : Byte} {k : Cluster} {m : Msg} (hs :
    Keeps s₀ s) :
    KeepsRes s₀ (execDataRequest port authOk window ep owner k m s) := by
  unfold execDataRequest
  refine keepsRes_ite (keepsRes_next hs) ?_
  refine keepsRes_ite (keepsRes_next (keeps_authFail hs)) ?_
  refine keepsRes_next ?_
  refine keeps_onFrame hs (fun _ h1 => ?_)
  extract_lets s1
  have hs1 : Keeps s₀ s1 := keeps_takeEpoch h1
  exact keeps_arrive hs1

theorem keeps_retranslate {q : MirWrite} (hs : Keeps s₀ s) : Keeps s₀ (s.retranslate q) := by
  unfold State.retranslate
  extract_lets s1
  have hs1 : Keeps s₀ s1 := keeps_onlyIf (keeps_incRc hs) hs
  split
  · exact keeps_modMir hs1
  · exact keeps_modMir hs

theorem keeps_mirReply {q : MirWrite} {result : Nat} (hs : Keeps s₀ s) : Keeps s₀ (s.mirReply q result) := by
  unfold State.mirReply
  extract_lets _ s1 _ s2
  have hs1 : Keeps s₀ s1 := keeps_modMir hs
  have hs2 : Keeps s₀ s2 := keeps_missTap (keeps_modMir hs)
  exact keeps_ite (keeps_modMir hs) (keeps_ite (keeps_ite hs1 (keeps_retranslate hs1)) (keeps_onlyIf (keeps_record (keeps_incRc
      (keeps_diverge hs2))) hs2))

theorem keeps_lateMirror {p : Nat} (hs : Keeps s₀ s) : Keeps s₀ (s.lateMirror p) := keeps_record (keeps_incRc hs)

theorem keeps_execDataReply {port : Fin 2} {authOk : Bool} {tag : Nat} {gen result : Fin 16} (hs : Keeps s₀ s) :
    KeepsRes s₀ (execDataReply port authOk tag gen result s) := by
  unfold execDataReply
  refine keepsRes_ite (keepsRes_next (keeps_authFail hs)) ?_
  refine keepsRes_next ?_
  refine keeps_onFrame hs (fun _ h1 => ?_)
  split
  · exact keeps_onlyIf (keeps_lateMirror h1) h1
  · exact keeps_mirLeft (keeps_mirPump (keeps_syncDegraded (keeps_mirReply h1)))

theorem keeps_execMirrorPortSwitch {p : Fin 2} (hs : Keeps s₀ s) : KeepsRes s₀ (execMirrorPortSwitch p s) :=
  keepsRes_next (keeps_onlyIf (keeps_mirPump (keeps_modMir hs)) hs)

theorem keeps_execMirWindowCommit (hs : Keeps s₀ s) : KeepsRes s₀ (execMirWindowCommit s) := by
  unfold execMirWindowCommit
  refine keeps_orWait hs (fun _ h1 => ?_)
  extract_lets _ s1 _ _ _ s2
  have hs1 : Keeps s₀ s1 := keeps_audit h1
  have hs2 : Keeps s₀ s2 := keeps_modMir (keeps_wr hs1)
  exact keepsRes_ite (keepsRes_next h1) (keepsRes_ite (keepsRes_next (keeps_raise hs1)) (keepsRes_next (keeps_sendFrame (keeps_sendFrame
      hs2))))

theorem keeps_applyWin {w : Nat} {n : MirWin} (hs : Keeps s₀ s) : Keeps s₀ (s.applyWin w n) := by
  unfold State.applyWin
  extract_lets _ _ _ s1 s2
  have hs1 : Keeps s₀ s1 := keeps_wr (keeps_wr (keeps_wr hs))
  have hs2 : Keeps s₀ s2 := keeps_modMir (keeps_wr (keeps_wr hs1))
  exact keeps_ite (keeps_modMir hs2) (keeps_modMir (keeps_setWinState hs2))

theorem keeps_execMirWindowApply (hs : Keeps s₀ s) : KeepsRes s₀ (execMirWindowApply s) := by
  unfold execMirWindowApply
  extract_lets _ s1
  have hs1 : Keeps s₀ s1 := keeps_modMir (keeps_incWrap (keeps_wr hs))
  split
  · exact keepsRes_next hs
  · extract_lets s2 s3
    have hs2 : Keeps s₀ s2 := keeps_foldl hs1 (fun _ _ h1 => keeps_applyWin h1)
    have hs3 : Keeps s₀ s3 := keeps_foldl hs2 (fun _ _ h2 => keeps_retranslate h2)
    exact keepsRes_ite (keepsRes_next hs) (keepsRes_next (keeps_mirPump (keeps_syncDegraded (keeps_mirWidths hs3))))

theorem keeps_syncLine {w : Nat} (hs : Keeps s₀ s) : Keeps s₀ (s.syncLine w) := by
  unfold State.syncLine
  extract_lets _ _ _ _ _ _ _ s1 s2
  have hs1 : Keeps s₀ s1 := keeps_onlyIf (keeps_onAct hs) hs
  have hs2 : Keeps s₀ s2 := keeps_modMir hs1
  refine keeps_ite hs ?_
  refine keeps_ite hs ?_
  split
  · exact hs2
  · exact keeps_mirPump (keeps_addMirror hs2)

theorem keeps_syncLines (hs : Keeps s₀ s) : Keeps s₀ s.syncLines := keeps_ite hs (keeps_foldl hs (fun _ _ h1 => keeps_syncLine h1))

theorem keeps_execSyncPassDone {w : Fin 16} (hs : Keeps s₀ s) : KeepsRes s₀ (execSyncPassDone w s) :=
  keepsRes_next (keeps_onlyIf (keeps_setWinState hs) hs)

/-! ### `Sys2Proof/Machine/Counting.lean` -/

theorem keeps_execSnap (hs : Keeps s₀ s) : KeepsRes s₀ (execSnap s) := by
  unfold execSnap
  refine keeps_orWait hs (fun _ h1 => ?_)
  extract_lets _ _ s1
  have hs1 : Keeps s₀ s1 := keeps_wr h1
  exact keepsRes_ite (keepsRes_next h1) (keepsRes_ite (keepsRes_next (keeps_raise h1)) (keepsRes_next (keeps_audit (keeps_mk hs1))))

theorem keeps_copyShadow {a b : RegName} (hs : Keeps s₀ s) (hr : b.free = true := by rfl) : Keeps s₀ (s.copyShadow a b) :=
  keeps_foldl hs (fun _ _ h1 => keeps_foldl h1 (fun _ _ h2 => keeps_setReg h2 hr))

theorem keeps_execSnapshotTake (hs : Keeps s₀ s) : KeepsRes s₀ (execSnapshotTake s) := by
  unfold execSnapshotTake
  split
  · exact keepsRes_next hs
  · extract_lets s1 s2
    have hs1 : Keeps s₀ s1 := keeps_foldl_mem hs fun _ x hx h => keeps_copyShadow h (shadowed_free hx)
    exact keepsRes_ite (keepsRes_next hs) (keepsRes_next (keeps_mk (keeps_wr (keeps_wr hs1))))

theorem keeps_execFreezeWrite {b : Bool} (hs : Keeps s₀ s) : KeepsRes s₀ (execFreezeWrite b s) := by
  unfold execFreezeWrite
  refine keeps_orWait hs (fun _ h1 => ?_)
  extract_lets _ _ s1
  have hs1 : Keeps s₀ s1 := keeps_auditReg (keeps_wr h1)
  exact keepsRes_ite (keepsRes_next h1) (keepsRes_next (keeps_mk hs1))

theorem keeps_execFreezeApply (hs : Keeps s₀ s) : KeepsRes s₀ (execFreezeApply s) := by
  unfold execFreezeApply
  extract_lets
  split
  · exact keepsRes_next hs
  · extract_lets s1
    have hs1 : Keeps s₀ s1 := keeps_wr (keeps_wr hs)
    exact keepsRes_ite (keepsRes_next hs) (keepsRes_next (keeps_mk hs1))

theorem keeps_execPmuSelWrite {u : Fin 28} {i : Fin 8} {v : W32} (hs : Keeps s₀ s) : KeepsRes s₀ (execPmuSelWrite u i v s) := by
  unfold execPmuSelWrite
  refine keeps_orWait hs (fun _ h1 => ?_)
  extract_lets _ _ _ _ _ _ s1 s2
  have hs1 : Keeps s₀ s1 := keeps_setReg (keeps_setReg h1 selReg_free) cntReg_free
  have hs2 : Keeps s₀ s2 := keeps_onlyIf (keeps_audit hs1) hs1
  exact keepsRes_ite (keepsRes_next h1) (keepsRes_next (keeps_mk hs2))

theorem keeps_sampleUnit {u : Nat} {cycle : Bool} (hs : Keeps s₀ s) : Keeps s₀ (s.sampleUnit u cycle) := by
  unfold State.sampleUnit
  extract_lets _ s1 _ _ s2
  have hs1 : Keeps s₀ s1 := keeps_onlyIf (keeps_pmu hs cycleReg_free) hs
  have hs2 : Keeps s₀ s2 := keeps_foldl hs1 (fun _ _ h1 => keeps_pmu h1 cntReg_free)
  exact keeps_mk hs2

theorem keeps_countCtxs {j : Nat} (hs : Keeps s₀ s) : Keeps s₀ (s.countCtxs j) := by
  unfold State.countCtxs
  refine keeps_foldl hs (fun _ _ h1 => ?_)
  extract_lets
  exact keeps_ite (keeps_pmuCtx h1) (keeps_ite (keeps_pmuCtx h1) (keeps_ite (keeps_pmuCtx h1) h1))

theorem keeps_sampleUnits (hs : Keeps s₀ s) : Keeps s₀ s.sampleUnits := by
  unfold State.sampleUnits
  extract_lets s1 _ _ s2
  have hs1 : Keeps s₀ s1 := keeps_sampleUnit hs
  have hs2 : Keeps s₀ s2 := keeps_onlyIf (keeps_foldl hs1 (fun _ _ h1 => keeps_sampleUnit (keeps_countCtxs h1))) hs1
  exact keeps_onlyIf (keeps_foldl hs2 (fun _ _ h2 => keeps_sampleUnit h2)) hs2

theorem keeps_countPc {k p : Nat} (hs : Keeps s₀ s) : Keeps s₀ (s.countPc k p) := by
  unfold State.countPc
  extract_lets _ _ _ _ _ s1 s2 s3 s4 s5 s6
  have hs1 : Keeps s₀ s1 := keeps_onlyIf (keeps_pmuPc hs) hs
  have hs2 : Keeps s₀ s2 := keeps_onlyIf (keeps_pmuPc hs1) hs1
  have hs3 : Keeps s₀ s3 := keeps_pmuPc hs2
  have hs4 : Keeps s₀ s4 := keeps_onlyIf (keeps_pmuAes hs3) hs3
  have hs5 : Keeps s₀ s5 := keeps_onlyIf (keeps_pmuPc hs4) hs4
  have hs6 : Keeps s₀ s6 := keeps_onlyIf (keeps_pmuPc hs5) hs5
  exact keeps_pmuPc (keeps_pmuPc hs6)

theorem keeps_countPcs (hs : Keeps s₀ s) : Keeps s₀ s.countPcs := keeps_foldl hs (fun _ _ h1 => keeps_countPc h1)

theorem keeps_execCounters {i : SessIx} {set : Fin 16} {a b : Byte} (hs : Keeps s₀ s) : KeepsRes s₀ (execCounters i set a b s) := by
  unfold execCounters
  refine keepsRes_next ?_
  refine keeps_serveT hs (fun _ _ h1 => ?_)
  split
  · exact keepsFst_ite h1 h1
  · exact h1

theorem keeps_execAuditAppend (hs : Keeps s₀ s) : KeepsRes s₀ (execAuditAppend s) := by
  unfold execAuditAppend
  extract_lets
  split
  · exact keepsRes_next hs
  · exact keepsRes_ite (keepsRes_next hs) (keepsRes_next (keeps_appendEntry (keeps_mk hs)))

/-! ### `Sys2Proof/Machine/RegView.lean` -/

theorem keeps_clearRc {r : RegName} {i j : Nat} {hi : Bool} (hs : Keeps s₀ s) : Keeps s₀ (s.clearRc r i j hi) := by
  unfold State.clearRc
  extract_lets _ clear new s1
  have hs1 : Keeps s₀ s1 := by
    by_cases hr : r.free = true
    · exact keeps_ite hs (keeps_setReg hs hr)
    · have hnew : new = s.reg r i j :=
        foldl_eq_of_mem _ fun w x hx => if_neg fun h => by simp [RegName.ro_of_not_free hr x hx] at h
      have h : s1 = s := if_pos hnew
      exact h ▸ hs
  exact keeps_ite hs1 (keeps_mk hs1)

theorem keeps_unlatch {f key : Nat} (hs : Keeps s₀ s) : Keeps s₀ (s.unlatch f key) := keeps_mk hs

theorem keeps_readWord {f off : Nat} (hs : Keeps s₀ s) : Keeps s₀ (s.readWord f off) := by
  unfold State.readWord
  split
  · exact keeps_send hs
  · refine keeps_ite (keeps_send hs) ?_
    split
    · exact keeps_send hs
    · extract_lets _ _ s1 s2
      have hs1 : Keeps s₀ s1 := keeps_unlatch hs
      have hs2 : Keeps s₀ s2 := keeps_clearRc hs1
      exact keeps_ite (keeps_send (keeps_clearRc hs)) (keeps_ite (keeps_send (keeps_mk hs2)) (keeps_send (keeps_clearRc (keeps_unlatch
          hs))))

theorem keeps_execReg64LowRead {f : FnIx} {off : Nat} (hs : Keeps s₀ s) : KeepsRes s₀ (execReg64LowRead f off s) := by
  unfold execReg64LowRead
  split
  · exact keepsRes_next (keeps_onlyIf (keeps_readWord hs) hs)
  · exact keepsRes_next hs
  · exact keepsRes_next hs
  · exact keepsRes_next hs

theorem keeps_execRcFieldRead {f : FnIx} {off : Nat} (hs : Keeps s₀ s) : KeepsRes s₀ (execRcFieldRead f off s) :=
  keepsRes_next (keeps_readWord hs)

theorem keeps_execUndefinedOffsetAccess {f : FnIx} {off : Nat} {access : BarAccess} (hs : Keeps s₀ s) :
    KeepsRes s₀ (execUndefinedOffsetAccess f off access s) :=
  keepsRes_next (keeps_onlyIf (keeps_send hs) hs)

/-! ### `Sys2Proof/Machine/Regs.lean` -/

theorem keeps_plainWrite {a : Agent} {r : RegName} {i j v : Nat} {lo32 hi32 : Bool} (hs : Keeps s₀ s) :
    Keeps s₀ (s.plainWrite a r i j v lo32 hi32) := by
  unfold State.plainWrite
  extract_lets _ new
  by_cases hr : r.free = true
  · exact keeps_ite hs (keeps_audit (keeps_setReg hs hr))
  · rw [if_pos (Or.inl (putFields_of_not_free hr a i j v lo32 hi32))]
    exact hs

theorem keeps_actWrite1 {a : Agent} {r : RegName} {i j v : Nat} (hs : Keeps s₀ s) : KeepsOpt s₀ (s.actWrite1 a r i j v) := by
  unfold State.actWrite1
  extract_lets _ _ s1 s2 _ s3 _ s4 s5 s6 s7 _ s8
  have hs1 : Keeps s₀ s1 := keeps_plainWrite hs
  have hs2 : Keeps s₀ s2 := keeps_ite (keeps_after (keeps_execTsCheckEnable hs) hs) hs1
  have hs3 : Keeps s₀ s3 := keeps_ite hs1 hs
  have hs4 : Keeps s₀ s4 := keeps_wr hs
  have hs5 : Keeps s₀ s5 := keeps_onlyIf (keeps_ack hs4) hs4
  have hs6 : Keeps s₀ s6 := keeps_auditReg hs5
  have hs7 : Keeps s₀ s7 := keeps_ite (keeps_after (keeps_execGateCommit hs6) hs6) hs6
  have hs8 : Keeps s₀ s8 := keeps_mk hs1
  exact keepsOpt_ite (keepsOpt_some (keeps_multWrite hs)) (keepsOpt_ite (keepsOpt_some (keeps_ite (keeps_after (keeps_execTsCapture hs2)
      hs2) hs2)) (keepsOpt_ite (keepsOpt_some (keeps_plotCmd hs)) (keepsOpt_ite (keepsOpt_some (keeps_after (keeps_execArbPrioWrite hs) hs))
      (keepsOpt_ite (keepsOpt_some (keeps_ite hs (keeps_ite (keeps_after (keeps_execArbHoldSet hs) hs) (keeps_ite (keeps_after
      (keeps_execArbHoldRelease hs3) hs3) hs3)))) (keepsOpt_ite (keepsOpt_some (keeps_after (keeps_execRefCtrlWrite hs) hs)) (keepsOpt_ite
      (keepsOpt_some (keeps_after (keeps_execRgCfgWrite hs) hs)) (keepsOpt_ite (keepsOpt_some (keeps_after (keeps_execSrCfgWrite hs) hs))
      (keepsOpt_ite (keepsOpt_some (keeps_after (keeps_execTrfBucketWrite hs) hs)) (keepsOpt_ite (keepsOpt_some (keeps_ite (keeps_after
      (keeps_execGateEnable hs7) hs7) (keeps_after (keeps_execGateDisable hs7) hs7))) (keepsOpt_ite (keepsOpt_some (keeps_ite (keeps_after
      (keeps_execHistClear hs1) hs1) hs1)) (keepsOpt_ite (keepsOpt_some (keeps_ite (keeps_after (keeps_execTrain hs8) hs1) (keeps_ite
      (keeps_after (keeps_execRestore hs8) hs1) (keeps_ite (keeps_after (keeps_execVerify hs8) hs1) hs1)))) (keepsOpt_ite (keepsOpt_some
      (keeps_after (keeps_execPairedWrite hs) hs)) (keepsOpt_ite (keepsOpt_some (keeps_after (keeps_execPosyCfgWrite hs) hs))
      keepsOpt_none)))))))))))))

theorem keeps_actWrite2 {a : Agent} {r : RegName} {i j v : Nat} (hs : Keeps s₀ s) : KeepsOpt s₀ (s.actWrite2 a r i j v) := by
  unfold State.actWrite2
  extract_lets _ _ _ _ s1 s2 _ s3 s4 _ s5
  have hs1 : Keeps s₀ s1 := keeps_ite (keeps_after (keeps_execRingResume hs) hs) (keeps_ite (keeps_after (keeps_execRingReset hs) hs) hs)
  have hs2 : Keeps s₀ s2 := keeps_after (keeps_execRingEnableWrite hs1) hs1
  have hs3 : Keeps s₀ s3 := keeps_wr hs2
  have hs4 : Keeps s₀ s4 := keeps_plainWrite hs
  have hs5 : Keeps s₀ s5 := keeps_wr hs4
  exact keepsOpt_ite (keepsOpt_some (keeps_after (keeps_execHandshake hs) hs)) (keepsOpt_ite (keepsOpt_some (keeps_after
      (keeps_execHandshake hs) hs)) (keepsOpt_ite (keepsOpt_some (keeps_after (keeps_execHeartbeat hs) hs)) (keepsOpt_ite (keepsOpt_some
      (keeps_after (keeps_execSqDoorbell hs) hs)) (keepsOpt_ite (keepsOpt_some (keeps_after (keeps_execCqDoorbell hs) hs)) (keepsOpt_ite
      (keepsOpt_some (keeps_ite hs1 (keeps_auditFn hs3))) (keepsOpt_ite (keepsOpt_some (keeps_ite (keeps_audit (keeps_mk hs5)) hs4))
      keepsOpt_none))))))

theorem keeps_actWrite3 {a : Agent} {r : RegName} {i j v : Nat} (hs : Keeps s₀ s) : KeepsOpt s₀ (s.actWrite3 a r i j v) := by
  unfold State.actWrite3
  extract_lets _ _ s1 _ _ s2 s3 _ s4 s5
  have hs1 : Keeps s₀ s1 := keeps_plainWrite hs
  have hs2 : Keeps s₀ s2 := keeps_ite (keeps_after (keeps_execMgStep hs) hs) hs
  have hs3 : Keeps s₀ s3 := keeps_ite (keeps_after (keeps_execCancel hs1) hs1) hs1
  have hs4 : Keeps s₀ s4 := keeps_onlyIf (keeps_auditReg (keeps_ack hs)) hs
  have hs5 : Keeps s₀ s5 := keeps_ite hs4 (keeps_after (keeps_execFreezeWrite hs4) hs4)
  refine keepsOpt_ite ?_ ?_
  · split
    rename_i x1 x2
    have hx3 : Keeps s₀ x1 := Keeps.of_snd (keeps_fresh hs) x2
    exact keepsOpt_some (keeps_ite (keeps_ite (keeps_frzBusy hs) hs1) (keeps_ite (keeps_after (keeps_execThaw hx3) hs) (keeps_ite
        (keeps_after (keeps_execRetireCopy hx3) hs) (keeps_after (keeps_execRetireNow hs) hs))))
  · refine keepsOpt_ite (keepsOpt_some (keeps_ite (keeps_migBusy hs) (keeps_ite (keeps_after (keeps_execStart hs) hs) hs1))) ?_
    refine keepsOpt_ite (keepsOpt_some (keeps_after (keeps_execHistoryRead hs) hs)) ?_
    refine keepsOpt_ite (keepsOpt_some (keeps_after (keeps_execMgSweep hs2) hs2)) ?_
    refine keepsOpt_ite (keepsOpt_some (keeps_fenceCtl hs)) ?_
    refine keepsOpt_ite ?_ (keepsOpt_ite (keepsOpt_some (keeps_ite (keeps_after (keeps_execActivate hs3) hs3) hs3)) (keepsOpt_ite
        (keepsOpt_some (keeps_after (keeps_execThresholdWrite hs) hs)) (keepsOpt_ite (keepsOpt_some (keeps_onlyIf (keeps_raise hs1) hs1))
        (keepsOpt_ite (keepsOpt_some (keeps_ite (keeps_after (keeps_execPair hs) hs) (keeps_ite (keeps_after (keeps_execUnpair hs) hs)
        (keeps_ite (keeps_after (keeps_execTakeover hs) hs) hs)))) (keepsOpt_ite (keepsOpt_some (keeps_ite (keeps_after
        (keeps_execMirWindowCommit hs1) hs1) hs1)) (keepsOpt_ite (keepsOpt_some (keeps_ite (keeps_after (keeps_execSnap hs5) hs5) hs5))
        (keepsOpt_ite (keepsOpt_some (keeps_after (keeps_execPmuSelWrite hs) hs)) (keepsOpt_ite (keepsOpt_some (keeps_after
        (keeps_execPmuSelWrite hs) hs)) keepsOpt_none))))))))
    split
    rename_i x4 x5
    have hx6 : Keeps s₀ x4 := Keeps.of_snd (keeps_fresh hs1) x5
    exact keepsOpt_some (keeps_ite (keeps_after (keeps_execCoreRestart hx6) hs1) hs1)

theorem keeps_actWriteCore {a : Agent} {r : RegName} {i j v : Nat} (hs : Keeps s₀ s) : KeepsOpt s₀ (s.actWriteCore a r i j v) :=
  keepsOpt_ite (keeps_actWrite1 hs) (keepsOpt_ite (keepsOpt_some (keeps_after (keeps_execTimingRegisterWrite hs) hs)) (keepsOpt_ite
      (keepsOpt_some (keeps_after (keeps_execTimingRegisterWrite hs) hs)) (keepsOpt_ite (keepsOpt_some (keeps_after
      (keeps_execTimingRegisterWrite hs) hs)) (keepsOpt_ite (keepsOpt_some (keeps_after (keeps_execTimingRegisterWrite hs) hs))
      (keepsOpt_ite (keeps_actWrite1 hs) (keepsOpt_ite (keepsOpt_some (keeps_onlyIf (keeps_plainWrite hs) hs)) (keepsOpt_ite
      (keeps_actWrite3 hs) (keepsOpt_ite (keepsOpt_some (keeps_after (keeps_execVsetWrite hs) hs)) keepsOpt_none))))))))

theorem keeps_seedWrite {j c v : Nat} {lo32 hi32 : Bool} (hs : Keeps s₀ s) : Keeps s₀ (s.seedWrite j c v lo32 hi32) :=
  keeps_onlyIf (keeps_wr hs) hs

theorem keeps_writeReg {a : Agent} {r : RegName} {i j v : Nat} {lo32 hi32 : Bool} (hs : Keeps s₀ s) :
    Keeps s₀ (s.writeReg a r i j v lo32 hi32) := by
  unfold State.writeReg
  extract_lets plain
  have hplain : Keeps s₀ plain := keeps_plainWrite hs
  refine keeps_ite (keeps_getD ?_ hplain) (keeps_ite (keeps_seedWrite hs) (keeps_ite (keeps_getD (keeps_actWriteCore hs) hplain) hplain))
  exact keepsOpt_orElse (keeps_actWrite1 hs) (keepsOpt_orElse (keeps_actWrite2 hs) (keeps_actWrite3 hs))

theorem keeps_writeWin {f : Nat} {w : Win} {off v : Nat} (hs : Keeps s₀ s) : Keeps s₀ (s.writeWin f w off v) := by
  unfold State.writeWin
  extract_lets
  split
  · exact keeps_ite hs (keeps_audit (keeps_mk hs))
  · exact keeps_after (keeps_execTrnImageWrite hs) hs
  · exact hs
  · exact hs
  · exact hs
  · exact hs
  · exact hs

theorem keeps_writeWord {a : Agent} {f : Nat} {p : Place} {v : Nat} (hs : Keeps s₀ s) : Keeps s₀ (s.writeWord a f p v) := by
  unfold State.writeWord
  split
  · exact keeps_writeWin hs
  · exact keeps_writeReg hs

theorem keeps_fnWrite {f : FnIx} {off : Nat} {wide : Bool} {v : W64} (hs : Keeps s₀ s) : Keeps s₀ (s.fnWrite f off wide v) := by
  unfold State.fnWrite
  split
  · exact keeps_send hs
  · refine keeps_ite (keeps_send hs) (keeps_ite hs (keeps_ite (keeps_writeWord hs) ?_))
    split
    · exact keeps_writeReg hs
    · exact keeps_writeWord (keeps_writeWord hs)
    · exact hs

theorem keeps_coreWord {a : Agent} {p : Place} {v : Nat} (hs : Keeps s₀ s) : Keeps s₀ (s.coreWord a p v) := by
  unfold State.coreWord
  split
  · exact hs
  · exact keeps_writeReg hs

theorem keeps_coreAt {a : Agent} {off : Nat} {wide : Bool} {v : W64} (hs : Keeps s₀ s) : Keeps s₀ (s.coreAt a off wide v) := by
  unfold State.coreAt
  split
  · exact hs
  · refine keeps_ite hs (keeps_ite (keeps_coreWord hs) ?_)
    split
    · exact keeps_writeReg hs
    · exact keeps_coreWord (keeps_coreWord hs)
    · exact hs

theorem keeps_execRegisterWrite {a : Agent} {off : Nat} {wide : Bool} {v : W64} (hs : Keeps s₀ s) :
    KeepsRes s₀ (execRegisterWrite a off wide v s) := by
  unfold execRegisterWrite
  split
  · exact keeps_orWait hs (fun _ h1 => keepsRes_next (keeps_fnWrite h1))
  · exact keepsRes_next (keeps_coreAt hs)
  · exact keepsRes_next (keeps_coreAt hs)
  · exact keepsRes_next (keeps_coreAt hs)
  · exact keepsRes_next (keeps_coreAt hs)

/-! ### `Sys2Proof/Machine/Dispatch.lean` -/

theorem keeps_exec {i : Instr} (hs : Keeps s₀ s) : KeepsRes s₀ (exec i s) := by
  unfold exec
  cases i with
  | coldReset => exact keeps_execColdReset
  | pllMainLock => exact keeps_execPllMainLock hs
  | schRelease => exact keeps_execSchRelease hs
  | bootPhaseFail => exact keeps_execBootPhaseFail hs
  | warmResetRequest => exact keeps_execWarmResetRequest hs
  | warmReset => exact keeps_execWarmReset hs
  | pllMainUnlock => exact keeps_execPllMainUnlock hs
  | phyPllUnlock => exact keeps_execPhyPllUnlock hs
  | fclkStop => exact keeps_execFclkStop hs
  | fclkReturn => exact keeps_execFclkReturn hs
  | tsReplicaCheck => exact keeps_execTsReplicaCheck hs
  | tsCapture => exact keeps_execTsCapture hs
  | tsCheckEnable => exact keeps_execTsCheckEnable hs
  | phyMultWrite => exact keeps_execPhyMultWrite hs
  | nmcDividerChange => exact keeps_execNmcDividerChange hs
  | reg64LowRead => exact keeps_execReg64LowRead hs
  | rcFieldRead => exact keeps_execRcFieldRead hs
  | registerWrite => exact keeps_execRegisterWrite hs
  | undefinedOffsetAccess => exact keeps_execUndefinedOffsetAccess hs
  | alloc => exact keeps_execAlloc hs
  | free => exact keeps_execFree hs
  | setrights => exact keeps_execSetrights hs
  | setmirror => exact keeps_execSetmirror hs
  | plotCmdBadOp => exact keeps_execPlotCmdBadOp hs
  | allocZeroingDone => exact keeps_execAllocZeroingDone hs
  | plotQuarantineEnd => exact keeps_execPlotQuarantineEnd hs
  | rd => exact keeps_execRd hs
  | wr => exact keeps_execWr hs
  | wrp => exact keeps_execWrp hs
  | aadd => exact keeps_execAadd hs
  | acas => exact keeps_execAcas hs
  | contrib => exact keeps_execContrib hs
  | lkacq => exact keeps_execLkacq hs
  | lkrel => exact keeps_execLkrel hs
  | stamp => exact keeps_execStamp hs
  | unknownOpcodeRequest => exact keeps_execUnknownOpcodeRequest hs
  | ingressRelease => exact keeps_execIngressRelease hs
  | requestTimeout => exact keeps_execRequestTimeout hs
  | portLinkDown => exact keeps_execPortLinkDown hs
  | portLinkUp => exact keeps_execPortLinkUp hs
  | linkRetryReport => exact keeps_execLinkRetryReport hs
  | fabricResponseCredit => exact keeps_execFabricResponseCredit hs
  | lockLeaseExpiry => exact keeps_execLockLeaseExpiry hs
  | lockBreak => exact keeps_execLockBreak hs
  | crossbarGrant => exact keeps_execCrossbarGrant hs
  | accessIssue => exact keeps_execAccessIssue hs
  | readDataReturn => exact keeps_execReadDataReturn hs
  | replyHandover => exact keeps_execReplyHandover hs
  | arbHoldSet => exact keeps_execArbHoldSet hs
  | arbHoldRelease => exact keeps_execArbHoldRelease hs
  | arbHoldLeaseExpiry => exact keeps_execArbHoldLeaseExpiry hs
  | arbHoldBreak => exact keeps_execArbHoldBreak hs
  | arbPrioWrite => exact keeps_execArbPrioWrite hs
  | timingRegisterWrite => exact keeps_execTimingRegisterWrite hs
  | refreshDue => exact keeps_execRefreshDue hs
  | refabIssue => exact keeps_execRefabIssue hs
  | refreshStallEnd => exact keeps_execRefreshStallEnd hs
  | refPeriodSwitch => exact keeps_execRefPeriodSwitch hs
  | refCtrlWrite => exact keeps_execRefCtrlWrite hs
  | trackerWindowEnd => exact keeps_execTrackerWindowEnd hs
  | rfmIssue => exact keeps_execRfmIssue hs
  | rgCfgWrite => exact keeps_execRgCfgWrite hs
  | windowPublish => exact keeps_execWindowPublish hs
  | windowStart => exact keeps_execWindowStart hs
  | windowEnd => exact keeps_execWindowEnd hs
  | srAsk => exact keeps_execSrAsk hs
  | srEntryBegin => exact keeps_execSrEntryBegin hs
  | srEntryComplete => exact keeps_execSrEntryComplete hs
  | srExitStart => exact keeps_execSrExitStart hs
  | srExitComplete => exact keeps_execSrExitComplete hs
  | srCfgWrite => exact keeps_execSrCfgWrite hs
  | trainingComplete => exact keeps_execTrainingComplete hs
  | deviceIdTimeout => exact keeps_execDeviceIdTimeout hs
  | retrainTrigger => exact keeps_execRetrainTrigger hs
  | retrainApply => exact keeps_execRetrainApply hs
  | train => exact keeps_execTrain hs
  | restore => exact keeps_execRestore hs
  | verify => exact keeps_execVerify hs
  | trnImageWrite => exact keeps_execTrnImageWrite hs
  | stackTempRead => exact keeps_execStackTempRead hs
  | stackTempTimeout => exact keeps_execStackTempTimeout hs
  | bucketRefill => exact keeps_execBucketRefill hs
  | trfBucketWrite => exact keeps_execTrfBucketWrite hs
  | gateSlotBoundary => exact keeps_execGateSlotBoundary hs
  | guardBandStart => exact keeps_execGuardBandStart hs
  | gateCommit => exact keeps_execGateCommit hs
  | gateCommitApply => exact keeps_execGateCommitApply hs
  | gateEnable => exact keeps_execGateEnable hs
  | gateStart => exact keeps_execGateStart hs
  | gateDisable => exact keeps_execGateDisable hs
  | histSample => exact keeps_execHistSample hs
  | histClear => exact keeps_execHistClear hs
  | arrayOpDispatch => exact keeps_execArrayOpDispatch hs
  | arrayOpEnd => exact keeps_execArrayOpEnd hs
  | chunkVerdict => exact keeps_execChunkVerdict hs
  | replayDecide => exact keeps_execReplayDecide hs
  | chunkCommit => exact keeps_execChunkCommit hs
  | chunkWriteFail => exact keeps_execChunkWriteFail hs
  | droppedResend => exact keeps_execDroppedResend hs
  | lanternReplyArrival => exact keeps_execLanternReplyArrival hs
  | jobAbort => exact keeps_execJobAbort hs
  | contextDrainEnd => exact keeps_execContextDrainEnd hs
  | contextClearDone => exact keeps_execContextClearDone hs
  | pairedWrite => exact keeps_execPairedWrite hs
  | instrReservedOpcode => exact keeps_execInstrReservedOpcode hs
  | nop => exact keeps_execNop hs
  | loop => exact keeps_execLoop hs
  | br => exact keeps_execBr hs
  | call => exact keeps_execCall hs
  | callLoadComplete => exact keeps_execCallLoadComplete hs
  | ret => exact keeps_execRet hs
  | wait => exact keeps_execWait hs
  | waitPoll => exact keeps_execWaitPoll hs
  | waitPollReply => exact keeps_execWaitPollReply hs
  | waitDeadline => exact keeps_execWaitDeadline hs
  | signal => exact keeps_execSignal hs
  | postedReply => exact keeps_execPostedReply hs
  | fence => exact keeps_execFence hs
  | fenceComplete => exact keeps_execFenceComplete hs
  | stampInstr => exact keeps_execStampInstr hs
  | jobEnd => exact keeps_execJobEnd hs
  | move => exact keeps_execMove hs
  | fill => exact keeps_execFill hs
  | gather => exact keeps_execGather hs
  | scatter => exact keeps_execScatter hs
  | cast => exact keeps_execCast hs
  | quant => exact keeps_execQuant hs
  | deq => exact keeps_execDeq hs
  | ew => exact keeps_execEw hs
  | opt => exact keeps_execOpt hs
  | mma => exact keeps_execMma hs
  | norm => exact keeps_execNorm hs
  | check => exact keeps_execCheck hs
  | digest => exact keeps_execDigest hs
  | test => exact keeps_execTest hs
  | testSpareDeadline => exact keeps_execTestSpareDeadline hs
  | contribInstr => exact keeps_execContribInstr hs
  | contribResend => exact keeps_execContribResend hs
  | collect => exact keeps_execCollect hs
  | collectWaitEnd => exact keeps_execCollectWaitEnd hs
  | posyTake => exact keeps_execPosyTake hs
  | posyEvict => exact keeps_execPosyEvict hs
  | posyPlotFree => exact keeps_execPosyPlotFree hs
  | posyCfgWrite => exact keeps_execPosyCfgWrite hs
  | sqDoorbell => exact keeps_execSqDoorbell hs
  | cqDoorbell => exact keeps_execCqDoorbell hs
  | ringFetch => exact keeps_execRingFetch hs
  | entryCheck => exact keeps_execEntryCheck hs
  | jobDispatch => exact keeps_execJobDispatch hs
  | recordWrite => exact keeps_execRecordWrite hs
  | msixSend => exact keeps_execMsixSend hs
  | msixPendingClear => exact keeps_execMsixPendingClear hs
  | hostMrd => exact keeps_execHostMrd hs
  | hostMwr => exact keeps_execHostMwr hs
  | hostFetchadd => exact keeps_execHostFetchadd hs
  | hostCas => exact keeps_execHostCas hs
  | hostAtomicUnsupported => exact keeps_execHostAtomicUnsupported hs
  | hostReadCompletion => exact keeps_execHostReadCompletion hs
  | handshake => exact keeps_execHandshake hs
  | heartbeat => exact keeps_execHeartbeat hs
  | hostDriverLost => exact keeps_execHostDriverLost hs
  | ringResume => exact keeps_execRingResume hs
  | ringReset => exact keeps_execRingReset hs
  | ringResetDone => exact keeps_execRingResetDone hs
  | ringEnableWrite => exact keeps_execRingEnableWrite hs
  | l1IdleExpiry => exact keeps_execL1IdleExpiry hs
  | busMasterClear => exact keeps_execBusMasterClear hs
  | vfFlr => exact keeps_execVfFlr hs
  | pfFlr => exact keeps_execPfFlr hs
  | vfEnableClear => exact keeps_execVfEnableClear hs
  | spdmRequest => exact keeps_execSpdmRequest hs
  | securedMessage => exact keeps_execSecuredMessage hs
  | keyExchange => exact keeps_execKeyExchange hs
  | endSession => exact keeps_execEndSession hs
  | sessionHeartbeatExpiry => exact keeps_execSessionHeartbeatExpiry hs
  | tenantCreate => exact keeps_execTenantCreate hs
  | tenantDelete => exact keeps_execTenantDelete hs
  | bindOffer => exact keeps_execBindOffer hs
  | unbind => exact keeps_execUnbind hs
  | bindAccept => exact keeps_execBindAccept hs
  | ringAreaZeroingDone => exact keeps_execRingAreaZeroingDone hs
  | auditAck => exact keeps_execAuditAck hs
  | auditHead => exact keeps_execAuditHead hs
  | ckptGet => exact keeps_execCkptGet hs
  | keyGenerate => exact keeps_execKeyGenerate hs
  | keyUnwrap => exact keeps_execKeyUnwrap hs
  | keyRotate => exact keeps_execKeyRotate hs
  | rotationChunkCommit => exact keeps_execRotationChunkCommit hs
  | setAllocSlot => exact keeps_execSetAllocSlot hs
  | slotQuery => exact keeps_execSlotQuery hs
  | keyDestroy => exact keeps_execKeyDestroy hs
  | slotDestroyDone => exact keeps_execSlotDestroyDone hs
  | keyCopyRepair => exact keeps_execKeyCopyRepair hs
  | counters => exact keeps_execCounters hs
  | auditAppend => exact keeps_execAuditAppend hs
  | auditCheckpoint => exact keeps_execAuditCheckpoint hs
  | caParityError => exact keeps_execCaParityError hs
  | stateCheckFail => exact keeps_execStateCheckFail hs
  | thaw => exact keeps_execThaw hs
  | retireCopy => exact keeps_execRetireCopy hs
  | retireNow => exact keeps_execRetireNow hs
  | freezeOpDone => exact keeps_execFreezeOpDone hs
  | freezeAutoDecision => exact keeps_execFreezeAutoDecision hs
  | start => exact keeps_execStart hs
  | migChunkCommit => exact keeps_execMigChunkCommit hs
  | migEnd => exact keeps_execMigEnd hs
  | historyCommit => exact keeps_execHistoryCommit hs
  | patrolScrub => exact keeps_execPatrolScrub hs
  | targetedScrub => exact keeps_execTargetedScrub hs
  | historyRead => exact keeps_execHistoryRead hs
  | mgStep => exact keeps_execMgStep hs
  | mgSweep => exact keeps_execMgSweep hs
  | marigoldRoundEnd => exact keeps_execMarigoldRoundEnd hs
  | sweepEnd => exact keeps_execSweepEnd hs
  | fenceArray => exact keeps_execFenceArray hs
  | fenceLantern => exact keeps_execFenceLantern hs
  | watchdogExpiry => exact keeps_execWatchdogExpiry hs
  | coreTrap => exact keeps_execCoreTrap hs
  | coreRestart => exact keeps_execCoreRestart hs
  | coreRelease => exact keeps_execCoreRelease hs
  | stageChunk => exact keeps_execStageChunk hs
  | stageEnd => exact keeps_execStageEnd hs
  | recWrite => exact keeps_execRecWrite hs
  | trnSave => exact keeps_execTrnSave hs
  | activate => exact keeps_execActivate hs
  | cancel => exact keeps_execCancel hs
  | activationBegin => exact keeps_execActivationBegin hs
  | activationCoreRestart => exact keeps_execActivationCoreRestart hs
  | activationStartFail => exact keeps_execActivationStartFail hs
  | activationEnd => exact keeps_execActivationEnd hs
  | hkSample => exact keeps_execHkSample hs
  | graceExpiry => exact keeps_execGraceExpiry hs
  | shutdownNoticeEnd => exact keeps_execShutdownNoticeEnd hs
  | pwroffRequest => exact keeps_execPwroffRequest hs
  | railPoll => exact keeps_execRailPoll hs
  | pmAlert => exact keeps_execPmAlert hs
  | vsetWrite => exact keeps_execVsetWrite hs
  | pmcVoltageStep => exact keeps_execPmcVoltageStep hs
  | thresholdWrite => exact keeps_execThresholdWrite hs
  | pair => exact keeps_execPair hs
  | pairFormed => exact keeps_execPairFormed hs
  | unpair => exact keeps_execUnpair hs
  | takeover => exact keeps_execTakeover hs
  | dataRequest => exact keeps_execDataRequest hs
  | dataReply => exact keeps_execDataReply hs
  | hello => exact keeps_execHello hs
  | stateMessage => exact keeps_execStateMessage hs
  | epoch => exact keeps_execEpoch hs
  | probe => exact keeps_execProbe hs
  | probeReply => exact keeps_execProbeReply hs
  | heart => exact keeps_execHeart hs
  | down => exact keeps_execDown hs
  | probeSend => exact keeps_execProbeSend hs
  | heartSend => exact keeps_execHeartSend hs
  | partnerLoss => exact keeps_execPartnerLoss hs
  | pairKeyUpdate => exact keeps_execPairKeyUpdate hs
  | mirWindowCommit => exact keeps_execMirWindowCommit hs
  | mirWindowApply => exact keeps_execMirWindowApply hs
  | syncPassDone => exact keeps_execSyncPassDone hs
  | mirrorPortSwitch => exact keeps_execMirrorPortSwitch hs
  | snap => exact keeps_execSnap hs
  | snapshotTake => exact keeps_execSnapshotTake hs
  | freezeWrite => exact keeps_execFreezeWrite hs
  | freezeApply => exact keeps_execFreezeApply hs
  | pmuSelWrite => exact keeps_execPmuSelWrite hs
  | phyPllLock => exact keeps_execPhyPllLock hs

/-! ### `Sys2Proof/Machine/Tick.lean` -/

theorem keeps_refillCap {k : Nat} (hs : Keeps s₀ s) : Keeps s₀ (s.refillCap k) := keeps_mk hs

theorem keeps_present (hs : Keeps s₀ s) : Keeps s₀ s.present := by
  unfold State.present
  extract_lets s1 s2 s3 _ s4 s5 s6 s7
  have hs1 : Keeps s₀ s1 := keeps_settleHits (keeps_cutBursts (keeps_foldl hs (fun _ _ h1 => keeps_actWindow h1)))
  have hs2 : Keeps s₀ s2 := keeps_sampleUnits (keeps_countPcs hs1)
  have hs3 : Keeps s₀ s3 := keeps_onlyIf (keeps_foldl hs2 (fun _ _ h2 => keeps_refillCap h2)) hs2
  have hs4 : Keeps s₀ s4 := keeps_deferLate hs3
  have hs5 : Keeps s₀ s5 := keeps_onlyIf (keeps_modFw hs4) hs4
  have hs6 : Keeps s₀ s6 := keeps_foldl hs5 (fun _ _ h3 => keeps_holdReplays (keeps_onlyIf (keeps_pump h3) h3))
  have hs7 : Keeps s₀ s7 := keeps_clearBins (keeps_l1Tick (keeps_mirLeft (keeps_syncLines (keeps_sendItems (keeps_heatLeaves hs6)))))
  exact keeps_foldl hs7 (fun _ _ h4 => keeps_settleRing h4)

theorem keeps_turn (hs : Keeps s₀ s) : Keeps s₀ s.turn := keeps_mk hs

theorem keeps_nmcBegins (hs : Keeps s₀ s) : Keeps s₀ s.nmcBegins := by
  unfold State.nmcBegins
  refine keeps_ite hs ?_
  refine keeps_foldl hs (fun _ _ h1 => ?_)
  extract_lets
  exact keeps_ite h1 (keeps_tryTests (keeps_settleFences (keeps_modLnt h1)))

theorem keeps_retryWrites (hs : Keeps s₀ s) : Keeps s₀ s.retryWrites := keeps_mk hs

theorem keeps_begins (hs : Keeps s₀ s) : Keeps s₀ s.begins :=
  keeps_retryWrites (keeps_mirPump (keeps_nmcBegins (keeps_plotResume (keeps_changesDue (keeps_gateBegins (keeps_onlyIf (keeps_mk hs)
      hs))))))

theorem keeps_tick (hs : Keeps s₀ s) : Keeps s₀ s.tick := keeps_ite (keeps_begins (keeps_turn (keeps_present hs))) hs

theorem keeps_step : KeepsRes s (step s) := by
  unfold step
  split
  · exact keepsRes_next (keeps_tick (keeps_refl s))
  · exact keeps_exec (keeps_mk (keeps_refl s))

end

/-- Settles O3: a step keeps what the registers of R13 hold, by the rule of each command and of the tick. -/
theorem identityNeverChanges : Obligations.IdentityNeverChanges := by
  unfold Obligations.IdentityNeverChanges
  intro s t hid hstep
  obtain ⟨hsId, hsProto⟩ := hid
  obtain ⟨htId, htProto⟩ := (keeps_step t hstep).ident ⟨hsId, hsProto⟩
  exact ⟨htId.trans hsId.symm, htProto.trans hsProto.symm⟩

end Sys2Proof.Machine
end

section
/-! What a reset leaves, and the accesses of the register map (R15, R19 to R23, R598, R701). -/

set_option Elab.async false

namespace Sys2Proof.Machine

/-! ### The state after reset -/

theorem reset_cores_held : ∀ c, c < 15 → State.reset.coreSt c = coreHeld := by decide +kernel

/-- Settles O5, by evaluating the state after reset. -/
theorem resetHoldsTheInvariants : Obligations.ResetHoldsTheInvariants := by
  unfold Obligations.ResetHoldsTheInvariants
  exact ⟨⟨rfl, rfl⟩, rfl, rfl, rfl, rfl, rfl, rfl, rfl, rfl, reset_cores_held⟩

section
variable {s t u : State} {f : FnIx} {off : Nat} {r : RegName} {i j : Nat}

/-! ### The fields of a register -/

theorem RegName.mem_all (r : RegName) : r ∈ RegName.all := by
  cases r <;> decide +kernel

/-- Two fields share no bit. -/
abbrev FieldDesc.apart (x y : FieldDesc) : Prop := x.lo + x.len ≤ y.lo ∨ y.lo + y.len ≤ x.lo

/-- The value of a field in a register word. -/
def FieldDesc.of (x : FieldDesc) (w : W64) : Nat := w.toNat >>> x.lo % 2 ^ x.len

theorem fields_apart (r : RegName) : r.desc.fields.Pairwise FieldDesc.apart := by
  have h : ∀ r ∈ RegName.all, r.desc.fields.Pairwise FieldDesc.apart := by decide +kernel
  exact h r r.mem_all

theorem field_fits {x : FieldDesc} (hx : x ∈ r.desc.fields) : x.lo + x.len ≤ 64 := by
  have h : ∀ r ∈ RegName.all, ∀ x ∈ r.desc.fields, x.lo + x.len ≤ 64 := by decide +kernel
  exact h r r.mem_all x hx

theorem rcField_low {x : FieldDesc} (hw : r.desc.wide = false) (hx : x ∈ r.desc.fields) (ha : x.acc = .rc) : x.lo < 32 := by
  have h : ∀ r ∈ RegName.all, r.desc.wide = false → ∀ x ∈ r.desc.fields, x.acc = .rc → x.lo < 32 := by decide +kernel
  exact h r r.mem_all hw x hx ha

theorem of_putBits_same {x : FieldDesc} (h : x.lo + x.len ≤ 64) (w : W64) (v : Nat) :
    x.of (putBits w x.lo x.len v) = v % 2 ^ x.len :=
  putBits_same w v h

theorem of_putBits_apart {x y : FieldDesc} (h : y.lo + y.len ≤ 64) (ha : y.apart x) (w : W64) (v : Nat) :
    x.of (putBits w y.lo y.len v) = x.of w :=
  ha.elim (putBits_above w v h) (putBits_below w v h)

/-- A fold over fields that share no bit changes field `x` by the step at `x` alone. -/
theorem of_foldl {x : FieldDesc} {l : List FieldDesc} {g : W64 → FieldDesc → W64} {p : Nat → Nat}
    (hl : l.Pairwise FieldDesc.apart) (hx : x ∈ l) (hother : ∀ w, ∀ y ∈ l, y.apart x → x.of (g w y) = x.of w)
    (hsame : ∀ w, x.of (g w x) = p (x.of w)) (w : W64) :
    x.of (l.foldl g w) = p (x.of w) := by
  induction l generalizing w with
  | nil => cases hx
  | cons y l ih =>
    obtain ⟨hy, hl⟩ := List.pairwise_cons.1 hl
    rw [List.foldl_cons]
    rcases List.mem_cons.1 hx with rfl | hx
    · have hrest : ∀ w, x.of (l.foldl g w) = x.of w := fun w =>
        List.foldlRecOn l g (motive := fun u => x.of u = x.of w) rfl fun u hu z hz =>
          (hother u z (List.mem_cons_of_mem x hz) (hy z hz).symm).trans hu
      rw [hrest, hsame]
    · rw [ih hl hx (fun w z hz => hother w z (List.mem_cons_of_mem y hz)), hother w y List.mem_cons_self (hy x hx)]

/-! ### The RC fields clear -/

/-- The word `w` of a register once the RC fields of one half hold what `keep` has. -/
def RegDesc.cleared (d : RegDesc) (hi : Bool) (keep : Nat) (w : W64) : W64 :=
  d.fields.foldl (fun w x => if x.acc = .rc ∧ (decide (32 ≤ x.lo) = (d.wide && hi)) then putBits w x.lo x.len (keep >>> x.lo) else w) w

theorem cleared_of_no_rc {d : RegDesc} (h : ∀ x ∈ d.fields, x.acc ≠ .rc) (hi : Bool) (keep : Nat) (w : W64) :
    d.cleared hi keep w = w :=
  foldl_eq_of_mem w fun _ x hx => if_neg fun hc => h x hx hc.1

/-- An RC field of a 32-bit register holds what it keeps. -/
theorem of_cleared {x : FieldDesc} (hw : r.desc.wide = false) (hx : x ∈ r.desc.fields) (ha : x.acc = .rc) (hi : Bool) (keep : Nat)
    (w : W64) : x.of (r.desc.cleared hi keep w) = keep >>> x.lo % 2 ^ x.len := by
  have hlow : ¬32 ≤ x.lo := Nat.not_le.2 (rcField_low hw hx ha)
  refine of_foldl (p := fun _ => keep >>> x.lo % 2 ^ x.len) (fields_apart r) hx (fun w y hy hyx => ?_) (fun w => ?_) w
  · split
    · exact of_putBits_apart (field_fits hy) hyx w _
    · rfl
  · rw [if_pos ⟨ha, by simp [hw, hlow]⟩, of_putBits_same (field_fits hx)]

theorem clearRc_reg (hi : Bool) :
    (s.clearRc r i j hi).reg r i j = r.desc.cleared hi (tget 0 s.events (regKey r i j)).toNat (s.reg r i j) := by
  unfold State.clearRc
  extract_lets e clear new t first
  have ht : t.reg r i j = new := by
    unfold t
    split
    · next h => exact h.symm
    · rw [State.reg_eq, setReg_regs, regIn_putIn_same]
  split <;> exact ht

theorem keptBut_regs0 {L : List Part} (h : s.keptBut t L) (T : Tbl W64) (m0 : Part.regs0 ∈ L) : s.keptBut { t with regs0 := T } L := by
  intro p hp
  have h := h p hp
  cases p
  case regs0 => exact absurd m0 hp
  all_goals exact h

theorem keptBut_hiLatch {L : List Part} (h : s.keptBut t L) (l : List (Nat × Nat × W32)) (m0 : Part.hiLatch ∈ L) :
    s.keptBut { t with hiLatch := l } L := by
  intro p hp
  have h := h p hp
  cases p
  case hiLatch => exact absurd m0 hp
  all_goals exact h

theorem keptBut_clearRc {L : List Part} (h : s.keptBut t L) (hi : Bool) (m0 : Part.regs ∈ L) (m1 : Part.regs0 ∈ L) :
    s.keptBut (t.clearRc r i j hi) L := by
  unfold State.clearRc
  extract_lets e clear new u first
  have hu : s.keptBut u L := by
    unfold u
    exact keptBut_ite h (keptBut_setReg h r i j new m0)
  clear_value u
  exact keptBut_ite hu (keptBut_regs0 hu _ m1)

/-- The clearing of RC fields touches the registers alone. -/
theorem clearRc_kept (hi : Bool) : s.keptBut (s.clearRc r i j hi) [.regs, .regs0] :=
  keptBut_clearRc (keptBut_refl s _) hi (by decide) (by decide)

@[simp] theorem clearRc_out (hi : Bool) : (s.clearRc r i j hi).out = s.out := clearRc_kept hi .out (by decide)

@[simp] theorem clearRc_hiLatch (hi : Bool) : (s.clearRc r i j hi).hiLatch = s.hiLatch := clearRc_kept hi .hiLatch (by decide)

/-- A register without RC fields has nothing to clear. -/
theorem clearRc_of_no_rc (h : ∀ x ∈ r.desc.fields, x.acc ≠ .rc) (hi : Bool) : s.clearRc r i j hi = s := by
  have hc := cleared_of_no_rc h hi
  unfold State.clearRc
  extract_lets e clear new t first
  have hnew : new = s.reg r i j := hc _ _
  have hfirst : first = s.reg0 r i j := hc _ _
  have ht : t = s := if_pos hnew
  rw [if_pos hfirst, ht]

/-! ### Reads -/

theorem readWord_none (h : placeOf f off = none) : s.readWord f off = s.send (.unsupported f) := by
  simp only [State.readWord, h]

theorem readWord_in_boot (h : placeOf f off ≠ none) (hb : s.inBoot = true) (ho : bootOpen f off = false) :
    s.readWord f off = s.send (.regRead f 0) := by
  obtain ⟨p, hp⟩ := Option.ne_none_iff_exists'.1 h
  simp only [State.readWord, hp, hb, ho, Bool.not_false, Bool.and_self, if_true]

/-- An access that BOOT does not shut out (R701). -/
theorem not_shut_by_boot (h : s.inBoot = false ∨ bootOpen f off = true) : ¬(s.inBoot && !bootOpen f off) = true := by
  rcases h with h | h <;> simp [h]

theorem readWord_narrow {hi : Bool} (hp : placeOf f off = some (.reg r i j hi)) (ho : s.inBoot = false ∨ bootOpen f off = true)
    (hw : r.desc.wide = false) :
    s.readWord f off = (s.clearRc r i j false).send (.regRead f (BitVec.ofNat 64 (s.seen r i j).toNat)) := by
  simp only [State.readWord, hp, if_neg (not_shut_by_boot ho), hw, Bool.not_false, if_true]

theorem readWord_low (hp : placeOf f off = some (.reg r i j false)) (ho : s.inBoot = false ∨ bootOpen f off = true)
    (hw : r.desc.wide = true) :
    s.readWord f off =
      { (s.unlatch f (regKey r i j)).clearRc r i j false with
        hiLatch := (f.val, regKey r i j, BitVec.ofNat 32 ((s.seen r i j).toNat / 2 ^ 32)) :: (s.unlatch f (regKey r i j)).hiLatch }.send
        (.regRead f (BitVec.ofNat 64 ((s.seen r i j).toNat % 2 ^ 32))) := by
  simp only [State.readWord, hp, if_neg (not_shut_by_boot ho), hw, Bool.not_true, Bool.not_false, Bool.false_eq_true, if_false, if_true]

theorem readWord_high {w : W32} (hp : placeOf f off = some (.reg r i j true)) (ho : s.inBoot = false ∨ bootOpen f off = true)
    (hw : r.desc.wide = true) (hl : s.latched f (regKey r i j) = some w) :
    s.readWord f off = ((s.unlatch f (regKey r i j)).clearRc r i j true).send (.regRead f (BitVec.ofNat 64 w.toNat)) := by
  simp only [State.readWord, hp, if_neg (not_shut_by_boot ho), hw, hl, Bool.not_true, Bool.false_eq_true, if_false]

theorem latched_congr (h : s.hiLatch = t.hiLatch) (f key : Nat) : s.latched f key = t.latched f key := by
  unfold State.latched
  rw [h]

theorem latched_of_cons {key : Nat} {w : W32} {l : List (Nat × Nat × W32)} (h : s.hiLatch = (f.val, key, w) :: l) :
    s.latched f key = some w := by
  simp [State.latched, h]

theorem latched_unlatch (f key : Nat) : (s.unlatch f key).latched f key = none := by
  simp only [State.latched, State.unlatch, Option.map_eq_none_iff, List.find?_eq_none]
  intro e he
  simpa only [Bool.not_eq_true, Bool.not_eq_true'] using (List.mem_filter.1 he).2

/-- The upper half of a word comes back whole from the 32 bits it is latched in. -/
theorem toNat_high_half (w : W64) : (BitVec.ofNat 32 (w.toNat / 2 ^ 32)).toNat = w.toNat / 2 ^ 32 := by
  rw [BitVec.toNat_ofNat]
  omega

theorem exec_rcFieldRead : exec (.rcFieldRead f off) s = .next (s.readWord f off) := rfl

theorem exec_reg64LowRead_wide (hp : placeOf f off = some (.reg r i j false)) (hw : r.desc.wide = true) :
    exec (.reg64LowRead f off) s = .next (s.readWord f off) := by
  show execReg64LowRead f off s = _
  simp only [execReg64LowRead, hp, hw, onlyIf, if_true]

theorem exec_undefinedOffsetAccess_bad {w : BarAccess} (h : accessBad f off w.len = true) :
    exec (.undefinedOffsetAccess f off w) s = .next (s.send (.unsupported f)) := by
  show execUndefinedOffsetAccess f off w s = _
  simp only [execUndefinedOffsetAccess, h, onlyIf, if_true]

theorem accessBad_of_none (h : placeOf f off = none) (len : Nat) : accessBad f off len = true := by
  simp [accessBad, h]

theorem accessBad_of_len {len : Nat} (h : (len ≠ 4 ∧ len ≠ 8) ∨ off % len ≠ 0) : accessBad f off len = true := by
  rcases h with ⟨h4, h8⟩ | h
  · simp [accessBad, h4, h8]
  · simp [accessBad, h]

/-! ### Writes that may wait (R598) -/

/-- The state on which a write is tried that may have to wait: nothing is queued. -/
def State.emptied (s : State) : State := { s with endpoint := [], sec := { s.sec with auditQ := [] } }

/-- The state with the queues of `s`. -/
def State.requeued (t s : State) : State := { t with endpoint := s.endpoint, sec := { t.sec with auditQ := s.sec.auditQ } }

variable {wide : Bool} {v : W64}

theorem exec_registerWrite_open (h : s.auditFull = false) :
    exec (.registerWrite (.fn f) off wide v) s = .next (s.fnWrite f off wide v) := by
  show execRegisterWrite (.fn f) off wide v s = _
  simp only [execRegisterWrite, State.orWait, h, Bool.not_false, if_true]

theorem exec_registerWrite_full (h : s.auditFull = true) :
    exec (.registerWrite (.fn f) off wide v) s = .next (if (s.emptied.fnWrite f off wide v).sec.auditQ.isEmpty
      then (s.emptied.fnWrite f off wide v).requeued s else { s with endpoint := s.endpoint ++ [.registerWrite (.fn f) off wide v] }) := by
  show execRegisterWrite (.fn f) off wide v s = _
  simp only [execRegisterWrite, State.orWait, h, Bool.not_true, Bool.false_eq_true, if_false]
  rfl

theorem fnWrite_none (h : placeOf f off = none) : s.fnWrite f off wide v = s.send (.unsupported f) := by
  simp only [State.fnWrite, h]

/-- A write where nothing lies is answered at once, whether or not the audit queue is full. -/
theorem exec_registerWrite_none (h : placeOf f off = none) :
    exec (.registerWrite (.fn f) off wide v) s = .next (s.send (.unsupported f)) := by
  cases hq : s.auditFull with
  | false => rw [exec_registerWrite_open hq, fnWrite_none h]
  | true =>
    rw [exec_registerWrite_full hq, fnWrite_none h]
    rfl

end

/-- Settles O21: the read of a place, case by case, and a latched half that a read of the high half takes. -/
theorem registerAccess : Obligations.RegisterAccess := by
  unfold Obligations.RegisterAccess
  intro s f off
  refine ⟨fun hp => ⟨_, rfl, fun w => ?_, ?_, fun wide v => ?_⟩, fun w hw => ?_, fun hb ho hp => ?_,
    fun r i j hp ho => ⟨fun hw => ?_, fun hw => ?_⟩⟩
  · exact exec_undefinedOffsetAccess_bad (accessBad_of_none hp w.len)
  · rw [exec_rcFieldRead, readWord_none hp]
    rfl
  · exact exec_registerWrite_none hp
  · exact exec_undefinedOffsetAccess_bad (accessBad_of_len hw)
  · rw [exec_rcFieldRead, readWord_in_boot hp hb ho]
    rfl
  · refine ⟨_, by rw [exec_rcFieldRead, readWord_narrow hp ho hw], ?_, fun hrc => ?_, fun x hx ha _ => ?_⟩
    · exact congrArg (· ++ _) (clearRc_out false)
    · rw [clearRc_of_no_rc hrc]
      exact keptBut_send (keptBut_refl s _) _ (by decide)
    · have hreg := of_cleared hw hx ha false (tget 0 s.events (regKey r i j)).toNat (s.reg r i j)
      rwa [← clearRc_reg] at hreg
  · refine ⟨_, by rw [exec_reg64LowRead_wide hp hw, readWord_low hp ho hw], by rw [exec_rcFieldRead, readWord_low hp ho hw], ?_,
      latched_of_cons rfl, ?_, fun u hi hu hph huo => ?_⟩
    · exact congrArg (· ++ _) (clearRc_out false)
    · have hun := keptBut_hiLatch (keptBut_refl s [.out, .hiLatch, .regs, .regs0]) (s.unlatch f (regKey r i j)).hiLatch (by decide)
      exact keptBut_send (keptBut_hiLatch (keptBut_clearRc hun false (by decide) (by decide)) _ (by decide)) _ (by decide)
    · have hl : u.latched f (regKey r i j) = _ := (latched_congr hu f _).trans (latched_of_cons rfl)
      refine ⟨_, by rw [exec_rcFieldRead, readWord_high hph huo hw hl, toNat_high_half], ?_, ?_⟩
      · exact congrArg (· ++ _) (clearRc_out true)
      · exact (latched_congr (clearRc_hiLatch true) f _).trans (latched_unlatch f.val _)

end Sys2Proof.Machine
end

section
/-! Register writes (R15, R23, R598, R701). -/

set_option Elab.async false

namespace Sys2Proof.Machine
section
variable {s : State} {a : Agent} {f : FnIx} {off : Nat} {r : RegName} {i j v : Nat} {lo32 hi32 wide : Bool}

/-! ### The fields of a write -/

/-- What a RW1C field that reads `cur` holds after a write of `val`: the bits written 1 are cleared, but for those the events `now` of the
tick have. -/
def acked (cur val now : Nat) : Nat := cur - ((cur &&& val) - (cur &&& val &&& now))

/-- A RW1C field of the half written takes the write. -/
theorem of_putFields_rw1c {x : FieldDesc} (hx : x ∈ r.desc.fields) (ha : x.acc = .rw1c) (hlen : x.lo + x.len ≤ 32)
    (hw : agentWrites a r i = true) :
    x.of (s.putFields a r i j v true hi32) =
      acked (x.of (s.reg r i j)) (v >>> x.lo % 2 ^ x.len) ((tget 0 s.events (regKey r i j)).toNat >>> x.lo % 2 ^ x.len) := by
  unfold State.putFields
  refine of_foldl (p := fun c => acked c _ _) (fields_apart r) hx (fun w y hy hyx => ?_) (fun w => ?_) _
  · extract_lets touched cur val cross val' ack now
    have hput (n : Nat) : x.of (putBits w y.lo y.len n) = x.of w := of_putBits_apart (field_fits hy) hyx w n
    have hputIf {c : Prop} {_ : Decidable c} {n : Nat} : x.of (if c then putBits w y.lo y.len n else w) = x.of w := by
      split
      · exact hput n
      · rfl
    split
    · rfl
    · cases y.acc with
      | rw => exact hputIf
      | rw1c => exact hput _
      | rwl => exact hputIf
      | ro => rfl
      | rc => rfl
      | wo => rfl
  · extract_lets touched cur val cross val' ack now
    have hinside : ¬(x.lo < 32 ∧ 32 < x.lo + x.len ∧ (!(true && hi32)) = true) := fun h => absurd h.2.1 (Nat.not_lt.2 hlen)
    have hval : val' = val := if_neg hinside
    have hack : ack = (cur &&& val) := congrArg (cur &&& ·) ((if_neg hinside).trans hval)
    rcases Nat.lt_or_ge x.lo 32 with hlo | hlo
    · have ht : touched = true := if_pos ⟨hlo, hlen⟩
      have hlt : cur - (ack - (ack &&& now)) < 2 ^ x.len := (Nat.sub_le _ _).trans_lt (Nat.mod_lt _ (by positivity))
      simp only [ht, Bool.not_true, Bool.false_eq_true, if_false, ha, hw, if_true]
      rw [of_putBits_same (field_fits hx), Nat.mod_eq_of_lt hlt, hack]
      rfl
    · have h0 : x.len = 0 := by omega
      simp only [FieldDesc.of, acked, h0, pow_zero, Nat.mod_one, Nat.zero_sub]

/-! ### A write that has no action of its own -/

theorem plainWrite_of_eq (h : s.putFields a r i j v lo32 hi32 = s.reg r i j) : s.plainWrite a r i j v lo32 hi32 = s := if_pos (.inl h)

theorem plainWrite_of_ne (h : s.putFields a r i j v lo32 hi32 ≠ s.reg r i j)
    (hs : s.shut r i j (s.putFields a r i j v lo32 hi32).toNat = false) :
    s.plainWrite a r i j v lo32 hi32 = (s.setReg r i j (s.putFields a r i j v lo32 hi32)).audit (agentOrigin a).kind (agentOrigin a).id 0
      (placeWhere r i j) (s.reg r i j).toNat (s.putFields a r i j v lo32 hi32).toNat :=
  if_neg (not_or.2 ⟨h, by simp [hs]⟩)

theorem plainWrite_reg (hs : s.shut r i j (s.putFields a r i j v lo32 hi32).toNat = false) :
    (s.plainWrite a r i j v lo32 hi32).reg r i j = s.putFields a r i j v lo32 hi32 := by
  by_cases h : s.putFields a r i j v lo32 hi32 = s.reg r i j
  · rw [plainWrite_of_eq h, h]
  · rw [plainWrite_of_ne h hs]
    show (s.setReg r i j _).reg r i j = _
    rw [State.reg_eq, setReg_regs, regIn_putIn_same]

theorem plainWrite_regsOnly : s.regsOnly (s.plainWrite a r i j v lo32 hi32) [(r, i % 2 ^ 14, j % 2 ^ 14)] := by
  unfold State.plainWrite
  extract_lets old new
  split
  · exact ⟨keptBut_refl s _, fun _ _ _ _ => rfl⟩
  · refine ⟨keptBut_audit (keptBut_setReg (keptBut_refl s _) r i j new (by decide)) _ _ _ _ _ _ _ (by decide), ?_⟩
    rw [State.onlyRegs_eq]
    show onlyIn s.regs (s.setReg r i j new).regs _
    rw [setReg_regs]
    exact onlyIn_putIn (onlyIn_refl s.regs _) r i j new (by simp)

theorem plainWrite_queued (h : (s.plainWrite a r i j v lo32 hi32).reg r i j ≠ s.reg r i j)
    (hs : s.shut r i j (s.putFields a r i j v lo32 hi32).toNat = false) :
    s.queued (s.plainWrite a r i j v lo32 hi32) (agentOrigin a).kind (agentOrigin a).id 0 (placeWhere r i j) (s.reg r i j).toNat
      ((s.plainWrite a r i j v lo32 hi32).reg r i j).toNat := by
  rw [plainWrite_reg hs] at h ⊢
  rw [plainWrite_of_ne h hs]
  exact ⟨0, audit_queued (s.setReg r i j _) _ _ _ _ _ _ _⟩

theorem ite_some_eq_none {α : Type} {c : Prop} [Decidable c] {x : α} {o : Option α} :
    (if c then some x else o) = none ↔ ¬c ∧ o = none := by
  by_cases hc : c <;> simp [hc]

/-! Whether a write acts is a matter of the register alone. -/

theorem actWrite1_none_of_none (h : s.actWrite1 a r i j v = none) (t : State) : t.actWrite1 a r i j v = none := by
  simp only [State.actWrite1, ite_some_eq_none] at h ⊢
  exact h

theorem actWrite2_none_of_none (h : s.actWrite2 a r i j v = none) (t : State) : t.actWrite2 a r i j v = none := by
  simp only [State.actWrite2, ite_some_eq_none] at h ⊢
  exact h

theorem actWrite3_none_of_none (h : s.actWrite3 a r i j v = none) (t : State) : t.actWrite3 a r i j v = none := by
  simp only [State.actWrite3, State.fresh, ite_some_eq_none] at h ⊢
  exact h

theorem writeReg_fn_plain (h1 : s.actWrite1 (.fn f) r i j v = none) (h2 : s.actWrite2 (.fn f) r i j v = none)
    (h3 : s.actWrite3 (.fn f) r i j v = none) : s.writeReg (.fn f) r i j v lo32 hi32 = s.plainWrite (.fn f) r i j v lo32 hi32 := by
  simp [State.writeReg, agentIsFn, h1, h2, h3]

theorem writeReg_core_plain (ha : ∀ f, a ≠ .fn f) (hw : agentWrites a r i = true) (h : s.actWriteCore a r i j v = none) :
    s.writeReg a r i j v lo32 hi32 = s.plainWrite a r i j v lo32 hi32 := by
  have hfn : agentIsFn a = false := by
    cases a with
    | fn f => exact absurd rfl (ha f)
    | _ => rfl
  have hsch : ¬(a = .sch ∧ r = .LNT_CTX_SEED) := by
    rintro ⟨rfl, -⟩
    cases hw
  simp only [State.writeReg, hfn, Bool.false_eq_true, if_false, if_neg hsch, hw, if_true, h, Option.getD_none]

theorem fnWrite_in_boot {v : W64} (hp : placeOf f off = some (.reg r i j false)) (hb : s.inBoot = true) (ho : bootOpen f off = false) :
    s.fnWrite f off false v = s := by
  simp only [State.fnWrite, hp, hb, ho, Bool.false_and, Bool.false_eq_true, if_false, Bool.not_false, Bool.and_self, if_true]

theorem fnWrite_low {v : W64} (hp : placeOf f off = some (.reg r i j false)) (ho : s.inBoot = false ∨ bootOpen f off = true) :
    s.fnWrite f off false v = s.writeReg (.fn f) r i j (v.toNat % 2 ^ 32) true false := by
  simp only [State.fnWrite, hp, if_neg (not_shut_by_boot ho), State.writeWord, Bool.false_and, Bool.false_eq_true, if_false, Bool.not_false,
    if_true, Bool.and_false]

theorem coreAt_low {v : W64} (hp : placeOf 0 off = some (.reg r i j false)) :
    s.coreAt a off false v = s.writeReg a r i j (v.toNat % 2 ^ 32) true false := by
  simp only [State.coreAt, hp, State.coreWord, Bool.false_and, Bool.false_eq_true, if_false, Bool.not_false, if_true, Bool.and_false]

theorem exec_registerWrite_core {v : W64} (ha : ∀ f, a ≠ .fn f) :
    exec (.registerWrite a off wide v) s = .next (s.coreAt a off wide v) := by
  cases a with
  | fn f => exact absurd rfl (ha f)
  | _ => rfl

theorem exec_registerWrite_next (s : State) (a : Agent) (off : Nat) (wide : Bool) (v : W64) :
    ∃ t, exec (.registerWrite a off wide v) s = .next t := by
  cases a with
  | fn f =>
    cases hq : s.auditFull with
    | false => exact ⟨_, exec_registerWrite_open hq⟩
    | true => exact ⟨_, exec_registerWrite_full hq⟩
  | _ => exact ⟨_, rfl⟩

/-! ### A write while the audit queue is full: it is tried on emptied queues -/

theorem exec_registerWrite_full_same {v : W64} (h : s.auditFull = true) (hsame : s.emptied.fnWrite f off wide v = s.emptied) :
    exec (.registerWrite (.fn f) off wide v) s = .next s := by
  rw [exec_registerWrite_full h, hsame]
  rfl

theorem exec_registerWrite_full_waits {v : W64} (h : s.auditFull = true) {e : AuditEnt}
    (he : e ∈ (s.emptied.fnWrite f off wide v).sec.auditQ) :
    exec (.registerWrite (.fn f) off wide v) s = .next { s with endpoint := s.endpoint ++ [.registerWrite (.fn f) off wide v] } := by
  have hne : ¬(s.emptied.fnWrite f off wide v).sec.auditQ.isEmpty = true := by
    rw [List.isEmpty_iff]
    exact List.ne_nil_of_mem he
  rw [exec_registerWrite_full h, if_neg hne]

theorem exec_registerWrite_in_boot {v : W64} (hp : placeOf f off = some (.reg r i j false)) (hb : s.inBoot = true)
    (ho : bootOpen f off = false) : exec (.registerWrite (.fn f) off false v) s = .next s := by
  cases hq : s.auditFull with
  | false => rw [exec_registerWrite_open hq, fnWrite_in_boot hp hb ho]
  | true => exact exec_registerWrite_full_same hq (fnWrite_in_boot hp hb ho)

end

/-- Settles O22: a plain write is the write of the fields, tried on emptied queues while the audit queue is full. -/
theorem registerWrites : Obligations.RegisterWrites := by
  unfold Obligations.RegisterWrites
  intro s off v r i j
  refine ⟨fun a wide => exec_registerWrite_next s a off wide v, fun hp hwide => ⟨exec_registerWrite_in_boot (f := 0) hp, ?_, ?_⟩⟩
  · intro ho h1 h2 h3 hs
    have hlow (u : State) (hu : u.inBoot = s.inBoot) :
        u.fnWrite 0 off false v = u.plainWrite (.fn 0) r i j (v.toNat % 2 ^ 32) true false := by
      rw [fnWrite_low (f := 0) hp (hu ▸ ho),
        writeReg_fn_plain (actWrite1_none_of_none h1 u) (actWrite2_none_of_none h2 u) (actWrite3_none_of_none h3 u)]
    have hempty := hlow s.emptied rfl
    refine ⟨fun hq heq => ?_, fun hq hne => ?_, fun hq => ?_⟩
    · exact exec_registerWrite_full_same hq (hempty.trans (plainWrite_of_eq heq))
    · rw [plainWrite_of_ne (s := s.emptied) hne hs] at hempty
      exact exec_registerWrite_full_waits hq (hempty ▸ audit_queued _ _ _ _ _ _ _ _)
    · refine ⟨_, (exec_registerWrite_open hq).trans (congrArg _ (hlow s rfl)), plainWrite_reg hs, plainWrite_regsOnly,
        fun hne => plainWrite_queued hne hs, fun heq => ?_, fun x hx ha hlen hw _ => ?_⟩
      · exact plainWrite_of_eq ((plainWrite_reg hs).symm.trans heq)
      · rw [plainWrite_reg hs]
        exact of_putFields_rw1c hx ha hlen hw
  · intro a ha hw hact hs
    exact ⟨_, by rw [exec_registerWrite_core ha, coreAt_low hp, writeReg_core_plain ha hw hact], plainWrite_reg hs, plainWrite_regsOnly⟩

end Sys2Proof.Machine
end

section
/-! The register file and the frames at the level of the state: what a field reads after a write, and which registers an update touches. -/

set_option Elab.async false

namespace Sys2Proof.Machine
section
variable {s t : State} {L : List Part} {l : List (RegName × Nat × Nat)} {f g : Fld} {r : RegName} {i j : Nat}

/-! ### Reads after writes -/

/-- A field lies within its word. -/
abbrev Fld.fits (f : Fld) : Prop := f.lo + f.len ≤ 64

/-- Two fields share no bit. -/
abbrev Fld.apart (f g : Fld) : Prop := g.reg ≠ f.reg ∨ g.lo + g.len ≤ f.lo ∨ f.lo + f.len ≤ g.lo

theorem reg_setReg_same (v : W64) : (s.setReg r i j v).reg r i j = v := by
  rw [State.reg_eq, setReg_regs, regIn_putIn_same]

theorem reg_setReg_other {q : RegName} (h : q ≠ r) (v : W64) (i' j' : Nat) : (s.setReg r i j v).reg q i' j' = s.reg q i' j' := by
  rw [State.reg_eq, setReg_regs, regIn_putIn_other _ h, State.reg_eq]

theorem reg_wr_other (h : r ≠ f.reg) (v i' j' : Nat) : (s.wr f v i j).reg r i' j' = s.reg r i' j' :=
  reg_setReg_other h _ i' j'

theorem rd_setReg_other (h : g.reg ≠ r) (v : W64) (i' j' : Nat) : (s.setReg r i j v).rd g i' j' = s.rd g i' j' := by
  unfold State.rd
  rw [reg_setReg_other h]

theorem rd_wr_same (h : f.fits) (v : Nat) : (s.wr f v i j).rd f i j = v % 2 ^ f.len := by
  rw [State.rd_eq, wr_regs, rdIn_wrIn_same _ _ _ _ _ h]

theorem rd_wr_other (h : g.reg ≠ f.reg) (v i' j' : Nat) : (s.wr f v i j).rd g i' j' = s.rd g i' j' :=
  rd_setReg_other h _ i' j'

theorem rd_wr_apart (h : f.fits) (ha : f.apart g) (v : Nat) : (s.wr f v i j).rd g i j = s.rd g i j := by
  rcases ha with hr | hd
  · exact rd_wr_other hr v i j
  · by_cases hr : g.reg = f.reg
    · rw [State.rd_eq, wr_regs, rdIn_wrIn_disjoint _ _ _ _ _ _ h hr hd, State.rd_eq]
    · exact rd_wr_other hr v i j

/-- Writing a field of an element leaves the other elements as they were. -/
theorem rd_wr_elem {i' : Nat} (hi : i < 2 ^ 14) (hi' : i' < 2 ^ 14) (h : i' ≠ i) (v j' : Nat) :
    (s.wr f v i j).rd g i' j' = s.rd g i' j' := by
  have hmod : i' % 2 ^ 14 ≠ i % 2 ^ 14 := by rwa [Nat.mod_eq_of_lt hi, Nat.mod_eq_of_lt hi']
  rw [State.rd_eq, wr_regs, rdIn_wrIn_elem _ _ _ _ (.inl hmod), State.rd_eq]

theorem rd_setMap_other (h : g.reg ≠ f.reg) (b : Nat) (v : Bool) (i' j' : Nat) : (s.setMap f b v i j).rd g i' j' = s.rd g i' j' :=
  rd_wr_other h _ i' j'

theorem nbit_rd_setMap (h : f.fits) {b c : Nat} (hc : c < f.len) (v : Bool) :
    nbit ((s.setMap f b v i j).rd f i j) c = if c = b then v else nbit (s.rd f i j) c := by
  rw [State.rd_eq, setMap_regs, nbit_mapIn _ _ _ _ _ _ _ h hc, State.rd_eq]

theorem bit_wr_same (h : f.fits) (hlen : f.len = 1) (v : Nat) : (s.wr f v i j).bit f i j = (v % 2 == 1) := by
  rw [State.bit, rd_wr_same h, hlen, pow_one]

theorem bit_wr_other (h : g.reg ≠ f.reg) (v i' j' : Nat) : (s.wr f v i j).bit g i' j' = s.bit g i' j' := by
  rw [State.bit, rd_wr_other h, State.bit]

@[simp] theorem rd_raise (s : State) (f g : Fld) (i j i' j' : Nat) : (s.raise f i j).rd g i' j' = (s.wr f 1 i j).rd g i' j' := rfl

@[simp] theorem rd_raiseBit (s : State) (f g : Fld) (b i j i' j' : Nat) :
    (s.raiseBit f b i j).rd g i' j' = (s.setMap f b true i j).rd g i' j' := rfl

theorem onlyIf_pos {c : Bool} (h : c = true) (t u : State) : onlyIf c t u = t := if_pos h

theorem onlyIf_neg {c : Bool} (h : c = false) (t u : State) : onlyIf c t u = u := if_neg (by simp [h])

/-! ### Registers an update touches -/

theorem onlyRegs_refl (s : State) (l : List (RegName × Nat × Nat)) : s.onlyRegs s l := fun _ _ _ _ => rfl

theorem onlyRegs_setReg (h : s.onlyRegs t l) (r : RegName) (i j : Nat) (v : W64) (m : (r, i % 2 ^ 14, j % 2 ^ 14) ∈ l) :
    s.onlyRegs (t.setReg r i j v) l := by
  rw [State.onlyRegs_eq, setReg_regs]
  exact onlyIn_putIn ((s.onlyRegs_eq t l).1 h) r i j v m

theorem onlyRegs_wr (h : s.onlyRegs t l) (f : Fld) (v i j : Nat) (m : (f.reg, i % 2 ^ 14, j % 2 ^ 14) ∈ l) :
    s.onlyRegs (t.wr f v i j) l :=
  onlyRegs_setReg h f.reg i j _ m

theorem onlyRegs_setMap (h : s.onlyRegs t l) (f : Fld) (b : Nat) (v : Bool) (i j : Nat) (m : (f.reg, i % 2 ^ 14, j % 2 ^ 14) ∈ l) :
    s.onlyRegs (t.setMap f b v i j) l :=
  onlyRegs_wr h f _ i j m

theorem onlyRegs_raise (h : s.onlyRegs t l) (f : Fld) (i j : Nat) (m : (f.reg, i % 2 ^ 14, j % 2 ^ 14) ∈ l) :
    s.onlyRegs (t.raise f i j) l :=
  onlyRegs_wr h f 1 i j m

theorem onlyRegs_onlyIf {u : State} (c : Bool) (h : s.onlyRegs t l) (g : s.onlyRegs u l) : s.onlyRegs (onlyIf c t u) l := by
  cases c
  · exact g
  · exact h

/-- An index below 2^14 counts as itself. -/
theorem mem_elem (hi : i < 2 ^ 14) (h : (r, i, 0) ∈ l) : (r, i % 2 ^ 14, 0 % 2 ^ 14) ∈ l := by
  rw [Nat.mod_eq_of_lt hi]
  exact h

theorem onlyRegs_wr_elem (h : s.onlyRegs t l) (f : Fld) (v : Nat) (n : Cluster) (m : (f.reg, n.val, 0) ∈ l) :
    s.onlyRegs (t.wr f v n) l :=
  onlyRegs_wr h f v n 0 (mem_elem (n.isLt.trans (by decide)) m)

/-! ### Frames of the fields that are no register -/

theorem keptBut_clk (h : s.keptBut t L) (c : Clk) (m0 : Part.clk ∈ L) : s.keptBut { t with clk := c } L := by
  intro p hp
  have h := h p hp
  cases p
  case clk => exact absurd m0 hp
  all_goals exact h

theorem keptBut_pcs (h : s.keptBut t L) (T : Tbl Pc) (m0 : Part.pcs ∈ L) : s.keptBut { t with pcs := T } L := by
  intro p hp
  have h := h p hp
  cases p
  case pcs => exact absurd m0 hp
  all_goals exact h

theorem keptBut_lnts (h : s.keptBut t L) (T : Tbl Lantern) (m0 : Part.lnts ∈ L) : s.keptBut { t with lnts := T } L := by
  intro p hp
  have h := h p hp
  cases p
  case lnts => exact absurd m0 hp
  all_goals exact h

theorem keptBut_free (h : s.keptBut t L) (n : Nat) (m0 : Part.freeCount ∈ L) : s.keptBut { t with free := n } L := by
  intro p hp
  have h := h p hp
  cases p
  case freeCount => exact absurd m0 hp
  all_goals exact h

/-! ### Error records and PC controllers -/

theorem reg_record {e : ErrRec} (h1 : r ≠ .RAS_RECHEAD) (h2 : r ≠ .RAS_RECLOST) (i j : Nat) :
    (s.record e).reg r i j = s.reg r i j := by
  have hlost : (s.incRc F.RAS_RECLOST.COUNT).reg r i j = s.reg r i j := reg_wr_other (f := F.RAS_RECLOST.COUNT) h2 _ i j
  unfold State.record
  extract_lets e head ack base later s'
  split
  · exact reg_wr_other (f := F.RAS_RECHEAD.VALUE) h1 _ i j
  · split
    · split <;> exact hlost
    · exact hlost

theorem rd_record {e : ErrRec} (h1 : g.reg ≠ .RAS_RECHEAD) (h2 : g.reg ≠ .RAS_RECLOST) (i j : Nat) :
    (s.record e).rd g i j = s.rd g i j := by
  unfold State.rd
  rw [reg_record h1 h2]

/-- The queue of records and what orders it. -/
theorem keptBut_queue (h : s.keptBut t L) (q : Tbl (Option ErrRec)) (tick last : Nat × Nat) (m0 : Part.recs ∈ L) (m1 : Part.recTick ∈ L)
    (m2 : Part.recLast ∈ L) : s.keptBut { t with recs := q, recTick := tick, recLast := last } L := by
  intro p hp
  have h := h p hp
  cases p
  case recs => exact absurd m0 hp
  case recTick => exact absurd m1 hp
  case recLast => exact absurd m2 hp
  all_goals exact h

/-- A record touches the queue of records and its registers alone. -/
theorem record_kept (e : ErrRec) : s.keptBut (s.record e) [.regs, .recs, .recTick, .recLast] := by
  have hhead (n : Nat) := keptBut_wr (keptBut_refl s [.regs, .recs, .recTick, .recLast]) F.RAS_RECHEAD.VALUE n 0 0 (by decide)
  have hlost := keptBut_incRc (keptBut_refl s [.regs, .recs, .recTick, .recLast]) F.RAS_RECLOST.COUNT 0 0 1 (by decide)
  unfold State.record
  extract_lets e head ack base later s'
  refine keptBut_ite (keptBut_queue (hhead _) _ _ _ (by decide) (by decide) (by decide)) (keptBut_ite ?_ ?_)
  · split <;> exact keptBut_queue hlost _ _ _ (by decide) (by decide) (by decide)
  · exact keptBut_queue hlost _ _ _ (by decide) (by decide) (by decide)

theorem pc_setPc_same (k p : Nat) (v : Pc) : (s.setPc k p v).pc k p = v := tget_tset_same _ _ _ _

theorem pc_setPc_other {k p k' p' : Nat} (v : Pc) (h : k' * 64 + p' ≠ k * 64 + p) : (s.setPc k p v).pc k' p' = s.pc k' p' :=
  tget_tset_other _ _ _ _ h

end
end Sys2Proof.Machine
end

section
/-! The clocks and the timestamp (chapter "Clusters, clocks and the timestamp"). -/

set_option Elab.async false

namespace Sys2Proof.Machine

/-! ### A step -/

theorem tick_of_held {s : State} (h : s.clk.running = false) : s.tick = s := by
  simp [State.tick, h]

theorem step_cons {s : State} {c : Instr} {rest : List Instr} (h : s.pending = c :: rest) :
    step s = exec c { s with pending := rest } := by
  simp only [step, h]

theorem step_nil {s : State} (h : s.pending = []) : step s = .next s.tick := by
  simp only [step, h]

/-- Settles O1: a step looks at the queue, and a tick of a held timestamp changes nothing. -/
theorem stepRunsTheFront : Obligations.StepRunsTheFront := by
  unfold Obligations.StepRunsTheFront
  exact fun s => ⟨fun c rest h => step_cons h, fun c => step_cons rfl, fun h => ⟨s.tick, step_nil h, tick_of_held⟩⟩

section
variable {s : State} {n : Cluster}

/-! ### The PLLs (R40 to R42, R57) -/

/-- The state as PLL_MAIN first reports lock: the count is 0, and the tick begins. -/
def State.mainLocked (s : State) : State :=
  { s.wr F.CLOCK_STATUS.MAIN_LOCK 1 with
    clk := { s.clk with running := true, now := 0, nextCheck := 1024, skew := [] }, regs0 := s.regs, regs1 := s.regs, events := [] }

theorem exec_pllMainLock (hrun : s.clk.running = false) (hlost : s.clk.mainLost = false) :
    exec .pllMainLock s = .next s.mainLocked :=
  congrArg Host.Outcome.next (onlyIf_pos (by simp [hrun, hlost]) _ _)

theorem mainLocked_kept (s : State) : s.keptBut s.mainLocked [.clk, .regs, .regs0, .regs1] := by
  intro p hp
  cases p
  case clk => exact absurd (by decide) hp
  case regs => exact absurd (by decide) hp
  case regs0 => exact absurd (by decide) hp
  case regs1 => exact absurd (by decide) hp
  all_goals rfl

/-- A PC controller once PLL_MAIN has lost lock (R41). -/
def Pc.unclocked (p : Pc) : Pc :=
  if p.st.live then { p with wasSpare := p.st == .spare || (p.st == .training && p.wasSpare), st := .selfRefresh, sr := .asleep }
  else if p.st == .frozen || p.st == .retired then { p with sr := .asleep } else p

/-- The state as PLL_MAIN loses its lock. -/
def State.mainUnlocked (s : State) : State :=
  { s.wr F.CLOCK_STATUS.MAIN_LOCK 0 with
    clk := { s.clk with mainLost := true }, pcs := s.pcs.map fun e : Nat × Pc => (e.1, e.2.unclocked) }.send (.hub .coldAsk)

theorem exec_pllMainUnlock (h : s.bit F.CLOCK_STATUS.MAIN_LOCK = true) : exec .pllMainUnlock s = .next s.mainUnlocked := by
  have hmap : (fun e : Nat × Pc => if e.2.st.live then (e.1, { e.2 with
      wasSpare := e.2.st == .spare || (e.2.st == .training && e.2.wasSpare), st := .selfRefresh, sr := .asleep })
      else if e.2.st == .frozen || e.2.st == .retired then (e.1, { e.2 with sr := .asleep }) else e) =
      fun e => (e.1, e.2.unclocked) := by
    funext e
    unfold Pc.unclocked
    split
    · rfl
    · split <;> rfl
  show execPllMainUnlock s = _
  simp only [execPllMainUnlock, h, Bool.not_true, Bool.false_eq_true, if_false, hmap]
  rfl

theorem mainUnlocked_kept (s : State) : s.keptBut s.mainUnlocked [.clk, .regs, .pcs, .out] := by
  have hclk := keptBut_clk (keptBut_wr (keptBut_refl s [.clk, .regs, .pcs, .out]) F.CLOCK_STATUS.MAIN_LOCK 0 0 0 (by decide))
    { s.clk with mainLost := true } (by decide)
  exact keptBut_send (keptBut_pcs hclk _ (by decide)) _ (by decide)

theorem tget_map_snd {α : Type} (d : α) (f : α → α) (hd : f d = d) (T : Tbl α) (k : Nat) :
    tget d (T.map fun e => (e.1, f e.2)) k = f (tget d T k) := by
  induction T with
  | nil => exact hd.symm
  | cons e T ih =>
    simp only [List.map_cons, tget]
    split
    · rfl
    · exact ih

theorem st_unclocked_of_live {p : Pc} (h : p.st.live = true) : p.unclocked.st = .selfRefresh := by
  simp [Pc.unclocked, h]

theorem sr_unclocked {p : Pc} (h : p.st.live = true ∨ p.st = .frozen ∨ p.st = .retired) : p.unclocked.sr = .asleep := by
  unfold Pc.unclocked
  split
  · rfl
  · next hlive => rw [if_pos (by simpa [hlive] using h)]

/-! ### The PLL of a stack loses its lock (R40) -/

/-- PLL_PHYn has lost its lock. -/
def State.phyDropped (s : State) (n : Nat) : State :=
  let s := (s.setMap F.CLOCK_STATUS.PHY_LOCK n false).raiseBit F.CLOCK_ERR.PHY_UNLOCK n
  { s.wr F.CLOCK_PHYPLL.LOCK 0 n with clk := { s.clk with relocking := s.clk.relocking ++ [n] } }

/-- The state once PLL_PHYn has lost its lock, with its record, before the PCs of the stack freeze. -/
def State.phyLost (s : State) (n : Nat) : State := (s.phyDropped n).record (ErrRec.make (s.phyDropped n).now sevFatal 0x12 n)

/-- A PC that can freeze does, when its stack's PLL has lost its lock. -/
def State.freezeAble (s : State) (n p : Nat) : State := onlyIf (s.pc n p).st.canFreeze (s.freezePc n p 0x12) s

theorem exec_phyPllUnlock (h : nbit (s.rd F.CLOCK_STATUS.PHY_LOCK) n = true) :
    exec (.phyPllUnlock n) s = .next ((List.range 64).foldl (fun s p => s.freezeAble n p) (s.phyLost n)) := by
  show execPhyPllUnlock n s = _
  simp only [execPhyPllUnlock, h, Bool.not_true, Bool.false_eq_true, if_false]
  rfl

/-- The bits of a PLL that has lost its lock. -/
theorem phyLost_bits (s : State) (n : Cluster) :
    nbit ((s.phyLost n).rd F.CLOCK_STATUS.PHY_LOCK) n = false ∧ (s.phyLost n).bit F.CLOCK_PHYPLL.LOCK n = false ∧
      nbit ((s.phyLost n).rd F.CLOCK_ERR.PHY_UNLOCK) n = true := by
  have hrd (g : Fld) (h1 : g.reg ≠ .RAS_RECHEAD) (h2 : g.reg ≠ .RAS_RECLOST) (i : Nat) : (s.phyLost n).rd g i =
      (((s.setMap F.CLOCK_STATUS.PHY_LOCK n false).raiseBit F.CLOCK_ERR.PHY_UNLOCK n).wr F.CLOCK_PHYPLL.LOCK 0 n).rd g i := by
    unfold State.phyLost
    exact rd_record h1 h2 i 0
  refine ⟨?_, ?_, ?_⟩
  · rw [hrd _ (by decide) (by decide), rd_wr_other (by decide), rd_raiseBit, rd_setMap_other (by decide), nbit_rd_setMap (by decide) n.isLt,
      if_pos rfl]
  · rw [State.bit, hrd _ (by decide) (by decide), rd_wr_same (by decide), Nat.zero_mod]
    rfl
  · rw [hrd _ (by decide) (by decide), rd_wr_other (by decide), rd_raiseBit, nbit_rd_setMap (by decide) n.isLt, if_pos rfl]

theorem phyLost_kept (s : State) (n : Nat) : s.keptBut (s.phyLost n) [.clk, .regs, .recs, .recTick, .recLast] := by
  unfold State.phyLost
  refine keptBut_trans ?_ (keptBut_mono (record_kept _) (by decide))
  unfold State.phyDropped
  exact keptBut_clk (keptBut_wr (keptBut_raiseBit (keptBut_setMap (keptBut_refl s _) _ _ _ _ _ (by decide)) _ _ _ _ (by decide)) _ _ _ _
    (by decide)) _ (by decide)

theorem freezePc_kept (s : State) (k p cls : Nat) : s.keptBut (s.freezePc k p cls) [.pcs, .regs] :=
  keptBut_setMap (keptBut_setPc (keptBut_refl s _) _ _ _ (by decide)) _ _ _ _ _ (by decide)

theorem freezeAble_kept (s : State) (n p : Nat) : s.keptBut (s.freezeAble n p) [.pcs, .regs] :=
  keptBut_onlyIf _ (freezePc_kept s n p 0x12) (keptBut_refl s _)

theorem rd_freezeAble {g : Fld} (h : g.reg ≠ .RAS_FRZ) (s : State) (n p i j : Nat) : (s.freezeAble n p).rd g i j = s.rd g i j := by
  unfold State.freezeAble onlyIf
  split
  · exact rd_setMap_other (f := F.RAS_FRZ.FROZEN) h _ _ i j
  · rfl

theorem st_freezeAble {s : State} {n p : Nat} (h : (s.pc n p).st.canFreeze = true) : ((s.freezeAble n p).pc n p).st = .frozen := by
  unfold State.freezeAble onlyIf
  rw [if_pos h]
  exact congrArg Pc.st (pc_setPc_same n p _)

theorem pc_freezeAble_other (s : State) {n p k q : Nat} (h : k * 64 + q ≠ n * 64 + p) : (s.freezeAble n p).pc k q = s.pc k q := by
  unfold State.freezeAble onlyIf
  split
  · exact pc_setPc_other _ h
  · rfl

theorem rd_freezeAbles {g : Fld} (h : g.reg ≠ .RAS_FRZ) (s : State) (n : Nat) (l : List Nat) (i j : Nat) :
    (l.foldl (fun s p => s.freezeAble n p) s).rd g i j = s.rd g i j :=
  foldl_keep (fun u => u.rd g i j) l _ (fun u p => rd_freezeAble h u n p i j) s

/-- Of a stack's PCs those that can freeze are frozen, and a PC named in none of the steps is as it was. -/
theorem pc_freezeAbles (s : State) (n m : Nat) :
    (∀ p, p < m → (s.pc n p).st.canFreeze = true → (((List.range m).foldl (fun s p => s.freezeAble n p) s).pc n p).st = .frozen) ∧
      (∀ k q, (∀ p, p < m → k * 64 + q ≠ n * 64 + p) → ((List.range m).foldl (fun s p => s.freezeAble n p) s).pc k q = s.pc k q) := by
  induction m with
  | zero => exact ⟨fun p hp => absurd hp (Nat.not_lt_zero p), fun _ _ _ => rfl⟩
  | succ m ih =>
    obtain ⟨hfroz, hother⟩ := ih
    rw [List.range_succ, List.foldl_append, List.foldl_cons, List.foldl_nil]
    refine ⟨fun p hp hc => ?_, fun k q h => ?_⟩
    · rcases Nat.lt_or_eq_of_le (Nat.le_of_lt_succ hp) with hlt | rfl
      · rw [pc_freezeAble_other _ (by omega)]
        exact hfroz p hlt hc
      · refine st_freezeAble ?_
        rwa [hother n p (by omega)]
    · rw [pc_freezeAble_other _ (h m (Nat.lt_succ_self m))]
      exact hother k q fun p hp => h p (Nat.lt_succ_of_lt hp)

/-! ### The PLL of a stack locks (R57, R802) -/

theorem exec_phyPllLock (h : nbit (s.rd F.CLOCK_STATUS.PHY_LOCK) n = false) (hm : s.rd F.CLOCK_PHYPLL.MULT n ≠ 0) :
    exec (.phyPllLock n) s = .next (s.lockPhy n) := by
  show execPhyPllLock n s = _
  simp [execPhyPllLock, onlyIf, h, hm]

theorem lockPhy_regs (s : State) (k : Nat) :
    (s.lockPhy k).regs = wrIn (mapIn s.regs F.CLOCK_STATUS.PHY_LOCK k true 0 0) F.CLOCK_PHYPLL.LOCK 1 k 0 := by
  unfold State.lockPhy
  show (State.wr _ F.CLOCK_PHYPLL.LOCK 1 k).regs = _
  rw [wr_regs, setMap_regs]
  rfl

theorem rd_lockPhy (s : State) (k : Nat) (g : Fld) (i j : Nat) :
    (s.lockPhy k).rd g i j = ((s.setMap F.CLOCK_STATUS.PHY_LOCK k true).wr F.CLOCK_PHYPLL.LOCK 1 k).rd g i j := by
  rw [State.rd_eq, lockPhy_regs, State.rd_eq, wr_regs, setMap_regs]

theorem lockPhy_kept (s : State) (k : Nat) : s.keptBut (s.lockPhy k) [.clk, .regs, .freeCount] := by
  unfold State.lockPhy
  exact keptBut_clk (keptBut_wr (keptBut_setMap (keptBut_free (keptBut_refl s _) _ (by decide)) _ _ _ _ _ (by decide)) _ _ _ _
    (by decide)) _ (by decide)

theorem lockPhy_onlyRegs (s : State) (n : Cluster) : s.onlyRegs (s.lockPhy n) [(.CLOCK_STATUS, 0, 0), (.CLOCK_PHYPLL, n, 0)] := by
  rw [State.onlyRegs_eq, lockPhy_regs]
  exact onlyIn_wrIn (onlyIn_mapIn (onlyIn_refl s.regs _) F.CLOCK_STATUS.PHY_LOCK n true 0 0 List.mem_cons_self) F.CLOCK_PHYPLL.LOCK 1 n 0
    (mem_elem (n.isLt.trans (by decide)) (List.mem_cons_of_mem _ List.mem_cons_self))

end

/-- Settles O7. The frames say what each lock and loss of lock touches; the freeze after an unlock goes PC by PC. -/
theorem pllsLockAndUnlock : Obligations.PllsLockAndUnlock := by
  unfold Obligations.PllsLockAndUnlock
  refine ⟨fun s => ⟨fun hrun hlost => ?_, fun hlock => ?_⟩, fun s n => ⟨fun hlock => ?_, fun hlock hmult => ?_⟩⟩
  · refine ⟨_, exec_pllMainLock hrun hlost, rfl, rfl, ?_, ?_, ?_⟩
    · exact bit_wr_same (by decide) rfl 1
    · exact mainLocked_kept s
    · exact onlyRegs_wr (onlyRegs_refl s _) F.CLOCK_STATUS.MAIN_LOCK 1 0 0 (by decide)
  · have hpc (k p : Nat) : tget Pc.blank (s.pcs.map fun e => (e.1, e.2.unclocked)) (k * 64 + p) = (s.pc k p).unclocked :=
      tget_map_snd _ _ rfl _ _
    refine ⟨_, exec_pllMainUnlock hlock, ?_, rfl, rfl, fun k p h => ?_, fun k p h => ?_, ?_⟩
    · exact bit_wr_same (by decide) rfl 0
    · exact (congrArg Pc.st (hpc k p)).trans (st_unclocked_of_live h)
    · exact (congrArg Pc.sr (hpc k p)).trans (sr_unclocked h)
    · exact mainUnlocked_kept s
  · obtain ⟨hstat, hpll, herr⟩ := phyLost_bits s n
    obtain ⟨hfroz, hother⟩ := pc_freezeAbles (s.phyLost n) n 64
    have hkept := phyLost_kept s n
    have hpc (k p : Nat) : (s.phyLost n).pc k p = s.pc k p := congrArg (tget Pc.blank · _) (hkept .pcs (by decide))
    have hfold := keptBut_foldl (List.range 64) (fun s p => s.freezeAble n p) (fun u p => freezeAble_kept u n p)
      (keptBut_refl (s.phyLost n) _)
    refine ⟨_, exec_phyPllUnlock hlock, ?_, ?_, ?_, fun p hp hc => hfroz p hp (by rwa [hpc]), fun k p hk hp => ?_,
      (hfold .mem (by decide)).trans (hkept .mem (by decide)), (hfold .plots (by decide)).trans (hkept .plots (by decide))⟩
    · rwa [rd_freezeAbles (by decide)]
    · rwa [State.bit, rd_freezeAbles (by decide)]
    · rwa [rd_freezeAbles (by decide)]
    · rw [hother k p fun p' hp' => by omega, hpc]
  · refine ⟨_, exec_phyPllLock hlock hmult, ?_, ?_, lockPhy_kept s n, lockPhy_onlyRegs s n⟩
    · rw [rd_lockPhy, rd_wr_other (by decide), nbit_rd_setMap (by decide) n.isLt, if_pos rfl]
    · rw [State.bit, rd_lockPhy, rd_wr_same (by decide)]
      rfl

section
variable {s : State}

/-! ### FCLK (R34, R35) -/

theorem exec_fclkStop (h : s.bit F.CLOCK_STATUS.FCLK_PRESENT = true) : exec .fclkStop s = .next
    (((onlyIf s.doorkeeperBusy (s.raise F.CLOCK_ERR.FCLK_LOST) s).wr F.CLOCK_STATUS.FCLK_PRESENT 0).wr F.CLOCK_FCLK.FREQ_MHZ 0) := by
  show execFclkStop s = _
  simp only [execFclkStop, h, onlyIf, if_true]

theorem exec_fclkReturn (mhz : BitVec 16) : exec (.fclkReturn mhz) s =
    .next ((s.wr F.CLOCK_STATUS.FCLK_PRESENT 1).wr F.CLOCK_FCLK.FREQ_MHZ mhz.toNat) := rfl

/-- FCLK_LOST is set when a doorkeeper keeps a request, and is as it was when none does. -/
theorem bit_fclkLost (c : Bool) : (onlyIf c (s.raise F.CLOCK_ERR.FCLK_LOST) s).bit F.CLOCK_ERR.FCLK_LOST =
    (c || s.bit F.CLOCK_ERR.FCLK_LOST) := by
  cases c
  · rfl
  · exact bit_wr_same (by decide) rfl 1

/-! ### The divider of CLK_NMC (R39) -/

/-- The state after the divider has become what was asked for (`half`): what the Lanterns time goes on in the new cycles. -/
def State.nmcDivided (s : State) (half : Bool) : State :=
  { s.wr F.CLOCK_STATUS.NMC_HALF half.toNat with
    clk := { s.clk with nmcAsk := none, nmcOrigin := s.now }
    lnts := s.lnts.map fun e => (e.1, Lantern.stretch (if half == s.bit F.CLOCK_STATUS.NMC_HALF then id else stretch half s.now) e.2) }

theorem nmcDivided_kept (half : Bool) : s.keptBut (s.nmcDivided half) [.clk, .regs, .lnts] := by
  have hclk := keptBut_clk (keptBut_wr (keptBut_refl s [.clk, .regs, .lnts]) F.CLOCK_STATUS.NMC_HALF half.toNat 0 0 (by decide))
    { s.clk with nmcAsk := none, nmcOrigin := s.now } (by decide)
  exact keptBut_lnts hclk _ (by decide)

theorem exec_nmcDividerChange {half : Bool} (h : s.clk.nmcAsk = some half) :
    exec .nmcDividerChange s = .next (onlyIf (s.now % 10 == 0 && s.nmcEdge) (s.nmcDivided half) s) := by
  show execNmcDividerChange s = _
  simp only [execNmcDividerChange, h]
  rfl

end

/-- Settles O8. Each command writes its fields and nothing more. -/
theorem fabricAndNmcClocks : Obligations.FabricAndNmcClocks := by
  unfold Obligations.FabricAndNmcClocks
  refine ⟨fun s => ⟨fun hp => ?_, fun mhz _ _ => ?_⟩, fun s half hask => ⟨fun htick hedge => ?_, fun hoff => ?_⟩⟩
  · have hkept {L : List Part} (m0 : Part.regs ∈ L) : s.keptBut (onlyIf s.doorkeeperBusy (s.raise F.CLOCK_ERR.FCLK_LOST) s) L :=
      keptBut_onlyIf _ (keptBut_raise (keptBut_refl s L) _ _ _ m0) (keptBut_refl s L)
    refine ⟨_, exec_fclkStop hp, ?_, ?_, ?_, hkept (L := [.regs]) (by decide) .flights (by decide), ?_, ?_⟩
    · rw [bit_wr_other (by decide), bit_wr_same (by decide) rfl]
      rfl
    · rw [rd_wr_same (by decide), Nat.zero_mod]
    · rw [bit_wr_other (by decide), bit_wr_other (by decide), bit_fclkLost]
    · exact keptBut_wr (keptBut_wr (hkept (by decide)) _ _ _ _ (by decide)) _ _ _ _ (by decide)
    · exact onlyRegs_wr (onlyRegs_wr (onlyRegs_onlyIf _ (onlyRegs_raise (onlyRegs_refl s _) _ _ _ (by decide)) (onlyRegs_refl s _))
        _ _ _ _ (by decide)) _ _ _ _ (by decide)
  · refine ⟨_, exec_fclkReturn mhz, ?_, ?_, ?_, ?_⟩
    · rw [bit_wr_other (by decide), bit_wr_same (by decide) rfl]
      rfl
    · rw [rd_wr_same (by decide)]
      exact Nat.mod_eq_of_lt mhz.isLt
    · exact keptBut_wr (keptBut_wr (keptBut_refl s _) _ _ _ _ (by decide)) _ _ _ _ (by decide)
    · exact onlyRegs_wr (onlyRegs_wr (onlyRegs_refl s _) _ _ _ _ (by decide)) _ _ _ _ (by decide)
  · refine ⟨s.nmcDivided half, ?_, ?_, rfl, rfl, ?_, ?_⟩
    · rw [exec_nmcDividerChange hask]
      simp only [htick, hedge, onlyIf, BEq.rfl, Bool.and_self, if_true]
    · refine (bit_wr_same (s := s) (f := F.CLOCK_STATUS.NMC_HALF) (by decide) rfl half.toNat).trans ?_
      cases half <;> rfl
    · exact nmcDivided_kept half
    · exact onlyRegs_wr (onlyRegs_refl s _) F.CLOCK_STATUS.NMC_HALF half.toNat 0 0 (by decide)
  · have hc : (s.now % 10 == 0 && s.nmcEdge) = false := by
      rcases hoff with h | h <;> simp [h]
    rw [exec_nmcDividerChange hask, hc]
    rfl

section
variable {s : State}

/-! ### Writes of PF0 that need not wait (R598, R701) -/

theorem pfHeld_false (h : s.pfHeld = false) : s.auditFull = false ∧ s.inBoot = false := by
  simpa [State.pfHeld] using h

theorem orWait_open (h : s.auditFull = false) (c : Instr) (run : State → Res) : s.orWait c run = run s := by
  simp only [State.orWait, h, Bool.not_false, if_true]

/-! ### The timestamp and its replicas (R44, R45, R54, R58, R59) -/

theorem exec_tsCapture (h : s.pfHeld = false) : exec .tsCapture s =
    .next ((s.setReg .TS_CAPT 0 0 s.clk.now).audit 1 0 0 0x100100 (s.reg .TS_CAPT).toNat s.now) := by
  obtain ⟨hq, hb⟩ := pfHeld_false h
  show execTsCapture s = _
  simp only [execTsCapture, orWait_open hq, hb, Bool.false_eq_true, if_false]

theorem exec_tsCheckEnable (h : s.pfHeld = false) (he : s.bit F.TS_CTRL.CHECK_EN = false) : exec .tsCheckEnable s =
    .next { (s.wr F.TS_CTRL.CHECK_EN 1).audit 1 0 0 0x100100 0 2 with
      clk := { s.clk with nextCheck := (s.now / 1024 + 1) * 1024 } } := by
  obtain ⟨hq, hb⟩ := pfHeld_false h
  show execTsCheckEnable s = _
  simp only [execTsCheckEnable, orWait_open hq, hb, he, Bool.or_self, Bool.false_eq_true, if_false]
  rfl

/-- A table whose first `m` entries have each grown by their share. -/
theorem tget_foldl_add (T : Tbl W64) (a : Nat → W64) (m i : Nat) :
    tget 0 ((List.range m).foldl (fun t i => tset 0 t i (tget 0 t i + a i)) T) i = if i < m then tget 0 T i + a i else tget 0 T i := by
  induction m with
  | zero => rfl
  | succ m ih =>
    rw [List.range_succ, List.foldl_append, List.foldl_cons, List.foldl_nil]
    rcases Nat.lt_trichotomy i m with h | rfl | h
    · rw [tget_tset_other _ _ _ _ (Nat.ne_of_lt h), ih, if_pos h, if_pos (Nat.lt_succ_of_lt h)]
    · rw [tget_tset_same, ih, if_neg (Nat.lt_irrefl i), if_pos (Nat.lt_succ_self i)]
    · rw [tget_tset_other _ _ _ _ (Nat.ne_of_gt h), ih, if_neg (Nat.lt_asymm h), if_neg (by omega)]

theorem skew_drift (skews : List W64) {i : Nat} (h : i < 13) :
    tget 0 (s.drift skews).clk.skew i = tget 0 s.clk.skew i + skews.getD i 0 :=
  (tget_foldl_add s.clk.skew (fun i => skews.getD i 0) 13 i).trans (if_pos h)

theorem drift_kept (skews : List W64) : s.keptBut (s.drift skews) [.clk] := keptBut_clk (keptBut_refl s _) _ (by decide)

/-- A replica's mismatch touches TS_REPL, CLOCK_ERR and the queue of records alone. -/
theorem replicaOff_kept (s : State) (i : Nat) : s.keptBut (s.replicaOff i) [.regs, .recs, .recTick, .recLast] := by
  unfold State.replicaOff
  exact keptBut_trans (keptBut_raise (keptBut_wr (keptBut_incRc (keptBut_refl s _) _ _ _ _ (by decide)) _ _ _ _ (by decide)) _ _ _
    (by decide)) (record_kept _)

theorem bit_replicaOff (s : State) (i : Nat) : (s.replicaOff i).bit F.CLOCK_ERR.TS_REPLICA = true := by
  unfold State.replicaOff State.bit
  rw [rd_record (by decide) (by decide), rd_raise, rd_wr_same (by decide)]
  rfl

/-- The replicas of `s` that differ from the master. -/
def State.badReplicas (s : State) : List Nat := upTo 13 fun i => tget 0 s.clk.skew i != 0

theorem mem_badReplicas {i : Nat} : i ∈ s.badReplicas ↔ i < 13 ∧ tget 0 s.clk.skew i ≠ 0 := by
  simp [State.badReplicas, upTo]

/-- The state after a check has reloaded the replicas. -/
def State.replicasChecked (s : State) : State :=
  s.badReplicas.foldl State.replicaOff { s with clk := { s.clk with skew := [] } }

theorem replicasChecked_kept (s : State) : s.keptBut s.replicasChecked [.clk, .regs, .recs, .recTick, .recLast] :=
  keptBut_foldl _ _ (fun u i => keptBut_mono (replicaOff_kept u i) (by decide)) (keptBut_clk (keptBut_refl s _) _ (by decide))

theorem replicasChecked_clk (s : State) : s.replicasChecked.clk = { s.clk with skew := [] } :=
  foldl_keep State.clk _ _ (fun u i => replicaOff_kept u i .clk (by decide)) _

theorem replicasChecked_of_none (h : s.badReplicas = []) : s.replicasChecked = { s with clk := { s.clk with skew := [] } } := by
  rw [State.replicasChecked, h]
  rfl

theorem bit_replicasChecked (h : s.badReplicas ≠ []) : s.replicasChecked.bit F.CLOCK_ERR.TS_REPLICA = true := by
  obtain hnil | ⟨l, i, hl⟩ := List.eq_nil_or_concat s.badReplicas
  · exact absurd hnil h
  · rw [State.replicasChecked, hl, List.concat_eq_append, List.foldl_append]
    exact bit_replicaOff _ i

theorem exec_tsReplicaCheck_early {skews : List W64}
    (h : s.clk.running = false ∨ s.bit F.TS_CTRL.CHECK_EN = false ∨ s.now % 1024 ≠ 0 ∨ s.now < s.clk.nextCheck) :
    exec (.tsReplicaCheck skews) s = .next (s.drift skews) := by
  have hc : (!s.clk.running || !s.bit F.TS_CTRL.CHECK_EN || s.now % 1024 != 0 || decide (s.now < s.clk.nextCheck)) = true := by
    rcases h with h | h | h | h <;> simp [h]
  exact if_pos hc

theorem exec_tsReplicaCheck_due {skews : List W64} (hrun : s.clk.running = true) (hen : s.bit F.TS_CTRL.CHECK_EN = true)
    (hmul : s.now % 1024 = 0) (hdue : s.clk.nextCheck ≤ s.now) :
    exec (.tsReplicaCheck skews) s = .next { (s.drift skews).replicasChecked with
      clk := { s.clk with skew := [], nextCheck := s.now + 1024, lastGood := List.replicate 13 s.now } } := by
  have hc : ¬(!s.clk.running || !s.bit F.TS_CTRL.CHECK_EN || s.now % 1024 != 0 || decide (s.now < s.clk.nextCheck)) = true := by
    simp [hrun, hen, hmul, hdue]
  have hclk := replicasChecked_clk (s.drift skews)
  refine (if_neg hc).trans ?_
  show Host.Outcome.next { (s.drift skews).replicasChecked with
    clk := { (s.drift skews).replicasChecked.clk with
      nextCheck := (s.drift skews).replicasChecked.now + 1024, lastGood := List.replicate 13 (s.drift skews).replicasChecked.now } } = _
  rw [State.now, hclk]
  rfl

end

/-- Settles O9. At a check that is due the replicas that differ are those whose skew with the new drift is not 0. -/
theorem timestamp : Obligations.Timestamp := by
  unfold Obligations.Timestamp
  intro s
  refine ⟨fun hheld => ?_, fun hheld hen => ?_, fun skews hrun hen hmul hdue => ?_, fun skews hoff => ?_⟩
  · refine ⟨_, exec_tsCapture hheld, ?_, ⟨0, audit_queued (s.setReg .TS_CAPT 0 0 s.clk.now) _ _ _ _ _ _ _⟩, ?_, ?_⟩
    · rw [reg_audit, reg_setReg_same]
    · exact keptBut_audit (keptBut_setReg (keptBut_refl s _) _ _ _ _ (by decide)) _ _ _ _ _ _ _ (by decide)
    · exact onlyRegs_setReg (onlyRegs_refl s _) .TS_CAPT 0 0 s.clk.now (by decide)
  · refine ⟨_, exec_tsCheckEnable hheld hen, ?_, rfl, ⟨0, audit_queued (s.wr F.TS_CTRL.CHECK_EN 1) _ _ _ _ _ _ _⟩, ?_, ?_⟩
    · exact bit_wr_same (by decide) rfl 1
    · exact keptBut_clk (keptBut_audit (keptBut_wr (keptBut_refl s _) _ _ _ _ (by decide)) _ _ _ _ _ _ _ (by decide)) _ (by decide)
    · exact onlyRegs_wr (onlyRegs_refl s _) F.TS_CTRL.CHECK_EN 1 0 0 (by decide)
  · refine ⟨_, exec_tsReplicaCheck_due hrun hen hmul hdue, rfl, rfl, rfl, ?_, fun ⟨i, hi, hoff⟩ => ?_, fun hnone => ?_⟩
    · exact (replicasChecked_kept _ .mem (by decide)).trans (drift_kept skews .mem (by decide))
    · refine bit_replicasChecked (s := s.drift skews) (List.ne_nil_of_mem (a := i) (mem_badReplicas.2 ⟨hi, ?_⟩))
      rwa [skew_drift skews hi]
    · have hbad : (s.drift skews).badReplicas = [] := by
        refine List.eq_nil_iff_forall_not_mem.2 fun i hi => ?_
        obtain ⟨hlt, hne⟩ := mem_badReplicas.1 hi
        exact hne ((skew_drift skews hlt).trans (hnone i hlt))
      rw [replicasChecked_of_none hbad]
      exact keptBut_clk (keptBut_refl s _) _ (by decide)
  · refine ⟨_, exec_tsReplicaCheck_early hoff, drift_kept skews, rfl, fun i hi => ?_⟩
    rw [State.nowAt, skew_drift skews hi]
    rfl

section
variable {s : State}

/-! ### Writes of MULT (R55 to R57, R262) -/

theorem exec_phyMultWrite {n : Cluster} (h : (s.pfHeld && !s.siteStarting n) = false) (m : Byte) :
    ∃ o, exec (.phyMultWrite n m) s = .next (s.multWrite o n m.toNat) := by
  by_cases hstart : s.siteStarting n = true
  · exact ⟨Origin.core (3 + n.val), if_pos hstart⟩
  · obtain ⟨hq, hb⟩ := pfHeld_false (s := s) (by simpa [hstart] using h)
    refine ⟨Origin.fn 0, ?_⟩
    show execPhyMultWrite n m s = _
    simp only [execPhyMultWrite, if_neg hstart, orWait_open hq, hb, onlyIf, Bool.not_false, if_true]

theorem multWrite_rejected (o : Origin) (n : Nat) {m : Nat} (h : m ≠ 0 ∧ (m < 32 ∨ 48 < m)) :
    s.multWrite o n m = s.raise F.CLOCK_ERR.PHYMULT_REJ := by
  unfold State.multWrite
  exact if_pos (by simp [h])

/-- The registers once MULT has changed: the PLL has lost its lock, and a trained site is to be trained again. -/
def State.multChanged (s : State) (n m : Nat) : State :=
  (((onlyIf (s.rd F.PHY_STATUS.SITE n == 3) (s.wr F.PHY_STATUS.SITE 2 n) s).wr F.CLOCK_PHYPLL.MULT m n).wr
    F.CLOCK_PHYPLL.LOCK 0 n).setMap F.CLOCK_STATUS.PHY_LOCK n false

/-- The same with the period registers in CLK_TS ticks of the new rate (R238). -/
def State.multTimed (s : State) (n m : Nat) : State :=
  onlyIf (m != 0) ((s.multChanged n m).wr F.REF_PERIOD.TRFC_TS
    ((s.multChanged n m).phyTicks n ((s.multChanged n m).rd F.REF_TIM.TRFCAB n)) n) (s.multChanged n m)

theorem multWrite_accepted (o : Origin) {n m : Nat} (hm : m = 0 ∨ (32 ≤ m ∧ m ≤ 48))
    (hpc : s.anyPc n PcState.live = false ∨ s.siteStarting n = true) (hne : m ≠ s.rd F.CLOCK_PHYPLL.MULT n) :
    s.multWrite o n m = (s.multTimed n m).audit o.kind o.id 0 (0x100040 + 4 * n) (s.reg .CLOCK_PHYPLL n).toNat
      ((s.multTimed n m).reg .CLOCK_PHYPLL n).toNat := by
  have hc : ¬((m != 0 && (decide (m < 32) || decide (48 < m))) || (s.anyPc n PcState.live && !s.siteStarting n)) = true := by
    have h1 : (m != 0 && (decide (m < 32) || decide (48 < m))) = false := by
      rcases hm with rfl | ⟨hlo, hhi⟩
      · rfl
      · simp [Nat.not_lt.2 hlo, Nat.not_lt.2 hhi]
    rcases hpc with h | h <;> simp [h1, h]
  unfold State.multWrite
  exact (if_neg hc).trans (if_neg hne)

theorem rd_multTimed {g : Fld} (h : g.reg ≠ .REF_PERIOD) (n m i : Nat) : (s.multTimed n m).rd g i = (s.multChanged n m).rd g i := by
  unfold State.multTimed onlyIf
  split
  · exact rd_wr_other (f := F.REF_PERIOD.TRFC_TS) h _ i 0
  · rfl

theorem mult_multChanged (n m : Nat) : (s.multChanged n m).rd F.CLOCK_PHYPLL.MULT n = m % 2 ^ F.CLOCK_PHYPLL.MULT.len := by
  rw [State.multChanged, rd_setMap_other (by decide), rd_wr_apart (by decide) (by decide), rd_wr_same (by decide)]

theorem lock_multChanged (n m : Nat) : (s.multChanged n m).rd F.CLOCK_PHYPLL.LOCK n = 0 := by
  rw [State.multChanged, rd_setMap_other (by decide), rd_wr_same (by decide), Nat.zero_mod]

theorem phyLock_multChanged (n : Cluster) (m : Nat) : nbit ((s.multChanged n m).rd F.CLOCK_STATUS.PHY_LOCK) n = false := by
  rw [State.multChanged, nbit_rd_setMap (by decide) n.isLt, if_pos rfl]

theorem multTimed_kept (n m : Nat) : s.keptBut (s.multTimed n m) [.regs, .auditQ] := by
  have h : s.keptBut (s.multChanged n m) [.regs, .auditQ] :=
    keptBut_setMap (keptBut_wr (keptBut_wr (keptBut_onlyIf _ (keptBut_wr (keptBut_refl s _) _ _ _ _ (by decide)) (keptBut_refl s _))
      _ _ _ _ (by decide)) _ _ _ _ (by decide)) _ _ _ _ _ (by decide)
  exact keptBut_onlyIf _ (keptBut_wr h _ _ _ _ (by decide)) h

theorem multTimed_onlyRegs (n : Cluster) (m : Nat) : s.onlyRegs (s.multTimed n m)
    [(.CLOCK_PHYPLL, n, 0), (.CLOCK_STATUS, 0, 0), (.PHY_STATUS, n, 0), (.REF_PERIOD, n, 0)] := by
  have hsite := onlyRegs_onlyIf (s.rd F.PHY_STATUS.SITE n == 3)
    (onlyRegs_wr_elem (l := [(.CLOCK_PHYPLL, n, 0), (.CLOCK_STATUS, 0, 0), (.PHY_STATUS, n, 0), (.REF_PERIOD, n, 0)]) (onlyRegs_refl s _)
      F.PHY_STATUS.SITE 2 n (by simp [F.PHY_STATUS.SITE])) (onlyRegs_refl s _)
  have h := onlyRegs_setMap (onlyRegs_wr_elem (onlyRegs_wr_elem hsite F.CLOCK_PHYPLL.MULT m n (by simp [F.CLOCK_PHYPLL.MULT]))
    F.CLOCK_PHYPLL.LOCK 0 n (by simp [F.CLOCK_PHYPLL.LOCK])) F.CLOCK_STATUS.PHY_LOCK n false 0 0 (by simp [F.CLOCK_STATUS.PHY_LOCK])
  exact onlyRegs_onlyIf _ (onlyRegs_wr_elem h F.REF_PERIOD.TRFC_TS _ n (by simp [F.REF_PERIOD.TRFC_TS])) h

end

/-- Settles O10. A value out of range is rejected before anything else; an accepted change writes MULT and drops the lock. -/
theorem phyMultRule : Obligations.PhyMultRule := by
  unfold Obligations.PhyMultRule
  intro s n m hheld
  obtain ⟨o, hexec⟩ := exec_phyMultWrite hheld m
  refine ⟨fun hbad => ?_, fun hm hpc hne => ?_⟩
  · rw [multWrite_rejected o n.val hbad] at hexec
    refine ⟨_, hexec, ?_, ?_, ?_, ?_⟩
    · exact bit_wr_same (by decide) rfl 1
    · exact rd_wr_other (f := F.CLOCK_ERR.PHYMULT_REJ) (by decide) 1 n 0
    · exact keptBut_raise (keptBut_refl s _) _ _ _ (by decide)
    · exact onlyRegs_raise (onlyRegs_refl s _) _ _ _ (by decide)
  · rw [multWrite_accepted o hm hpc hne] at hexec
    refine ⟨_, hexec, ?_, ?_, ?_, ?_, ?_⟩
    · rw [rd_audit, rd_multTimed (by decide), mult_multChanged]
      exact Nat.mod_eq_of_lt m.isLt
    · rw [bit_audit, State.bit, rd_multTimed (by decide), lock_multChanged]
      rfl
    · rw [rd_audit, rd_multTimed (by decide), phyLock_multChanged]
    · exact keptBut_audit (multTimed_kept n.val m.toNat) _ _ _ _ _ _ _ (by decide)
    · exact multTimed_onlyRegs n m.toNat

end Sys2Proof.Machine
end

section
/-! What the training of a site leaves of the site's identity, state and stamps (R28, R40, R250 to R266).

A site is seen through `State.siteView`. Most operations of the model leave every site's view as it is (`SameSite`); for these there is one
rule per operation, `sameSite_<operation>`, in the order of the definitions. The operations of a training that do change the view have an
equation each, `siteView_<operation>`, and the commands follow from these. -/

set_option Elab.async false

namespace Sys2Proof.Machine

/-- What the statement about trainings sees of site `k`: the count, the sites that wait for the training of a relock, and the site's
identity, state and last training. -/
structure SiteView where
  now : W64
  relocking : List Nat
  serial : W64
  vendor : Nat
  site : Nat
  stamp : Nat
  timeUs : Nat

def State.siteView (s : State) (k : Nat) : SiteView where
  now := s.clk.now
  relocking := s.clk.relocking
  serial := s.reg .PHY_SERIAL k
  vendor := s.rd F.PHY_VENDOR.VENDOR k
  site := s.rd F.PHY_STATUS.SITE k
  stamp := s.rd F.PHY_RTR_LAST.STAMP k
  timeUs := s.rd F.PHY_TRN_STATUS.TIME_US k

def SiteView.identified (w : SiteView) (serial : W64) (vendor : Nat) : SiteView := { w with serial := serial, vendor := vendor }
def SiteView.inSite (w : SiteView) (st : Nat) : SiteView := { w with site := st }
def SiteView.stampedAt (w : SiteView) (t : Nat) : SiteView := { w with stamp := t }
def SiteView.lasting (w : SiteView) (us : Nat) : SiteView := { w with timeUs := us }
def SiteView.relocked (w : SiteView) (k : Nat) : SiteView := { w with relocking := w.relocking.filter (· != k) }

/-- The registers of the view. -/
def RegName.ofSite (r : RegName) : Bool :=
  r == .PHY_SERIAL || r == .PHY_VENDOR || r == .PHY_STATUS || r == .PHY_RTR_LAST || r == .PHY_TRN_STATUS

/-- What a view says of the state it is a view of. -/
theorem siteView_reads {s : State} {k : Nat} {w : SiteView} (h : s.siteView k = w) :
    s.now = w.now.toNat ∧ s.clk.relocking = w.relocking ∧ s.reg .PHY_SERIAL k = w.serial ∧ s.rd F.PHY_VENDOR.VENDOR k = w.vendor ∧
      s.rd F.PHY_STATUS.SITE k = w.site ∧ s.rd F.PHY_RTR_LAST.STAMP k = w.stamp ∧ s.rd F.PHY_TRN_STATUS.TIME_US k = w.timeUs := by
  subst h
  exact ⟨rfl, rfl, rfl, rfl, rfl, rfl, rfl⟩

/-- From `s` to `t` the view of site `k` stays. -/
def SameSite (k : Nat) (s t : State) : Prop := t.siteView k = s.siteView k

section
variable {k : Nat} {s₀ s t : State}

theorem sameSite_refl (s : State) : SameSite k s s := rfl

theorem SameSite.trans (h : SameSite k s₀ s) (g : SameSite k s t) : SameSite k s₀ t := Eq.trans g h

/-- Only the register file and the clocks count. -/
theorem SameSite.of_eq (h : SameSite k s₀ s) (hr : t.regs = s.regs := by rfl) (hc : t.clk = s.clk := by rfl) : SameSite k s₀ t := by
  refine Eq.trans ?_ h
  simp only [State.siteView, State.rd, State.reg, hr, hc]

theorem siteView_congr (hnow : t.clk.now = s.clk.now) (hrel : t.clk.relocking = s.clk.relocking)
    (h : ∀ r, r.ofSite = true → t.reg r k = s.reg r k) : t.siteView k = s.siteView k := by
  simp only [State.siteView, State.rd, hnow, hrel, h .PHY_SERIAL rfl, h F.PHY_VENDOR.VENDOR.reg rfl, h F.PHY_STATUS.SITE.reg rfl,
    h F.PHY_RTR_LAST.STAMP.reg rfl, h F.PHY_TRN_STATUS.TIME_US.reg rfl]

theorem sameSite_ite {p : Prop} [Decidable p] (h : SameSite k s₀ s) (g : SameSite k s₀ t) : SameSite k s₀ (if p then s else t) := by
  split <;> assumption

theorem sameSite_onlyIf {b : Bool} (h : SameSite k s₀ s) (g : SameSite k s₀ t) : SameSite k s₀ (onlyIf b s t) := sameSite_ite h g

theorem sameSite_foldl {α : Type} {xs : List α} {f : State → α → State} (h : SameSite k s₀ s)
    (hf : ∀ t x, SameSite k s₀ t → SameSite k s₀ (f t x)) : SameSite k s₀ (xs.foldl f s) :=
  foldl_inv (SameSite k s₀) xs f (fun t x _ => hf t x) s h

theorem sameSite_foldl_fst {α β : Type} {xs : List α} {f : State × β → α → State × β} {p : State × β} (h : SameSite k s₀ p.1)
    (hf : ∀ q x, SameSite k s₀ q.1 → SameSite k s₀ (f q x).1) : SameSite k s₀ (xs.foldl f p).1 := by
  induction xs generalizing p with
  | nil => exact h
  | cons x xs ih => exact ih (hf p x h)

/-! ### Registers, records and the audit queue (`Ops`) -/

theorem RegName.ne_of_ofSite {r q : RegName} (hr : r.ofSite = false) (hq : q.ofSite = true) : q ≠ r := by
  rintro rfl
  rw [hr] at hq
  cases hq

theorem sameSite_setReg {r : RegName} {i j : Nat} {v : W64} (h : SameSite k s₀ s) (hr : r.ofSite = false := by rfl) :
    SameSite k s₀ (s.setReg r i j v) :=
  h.trans (siteView_congr rfl rfl fun _ hq => reg_setReg_other (RegName.ne_of_ofSite hr hq) v k 0)

theorem sameSite_wr {f : Fld} {v i j : Nat} (h : SameSite k s₀ s) (hr : f.reg.ofSite = false := by rfl) : SameSite k s₀ (s.wr f v i j) :=
  sameSite_setReg h hr

theorem sameSite_setMap {f : Fld} {b : Nat} {v : Bool} {i j : Nat} (h : SameSite k s₀ s) (hr : f.reg.ofSite = false := by rfl) :
    SameSite k s₀ (s.setMap f b v i j) :=
  sameSite_wr h hr

theorem sameSite_incRc {f : Fld} {i j n : Nat} (h : SameSite k s₀ s) (hr : f.reg.ofSite = false := by rfl) :
    SameSite k s₀ (s.incRc f i j n) :=
  (sameSite_wr h hr).of_eq

theorem sameSite_clearReg {r : RegName} {i j : Nat} (h : SameSite k s₀ s) (hr : r.ofSite = false := by rfl) :
    SameSite k s₀ (s.clearReg r i j) :=
  h.trans (siteView_congr rfl rfl fun q hq => by
    rw [State.reg_eq, clearReg_regs, regIn_tdel_other _ (RegName.ne_of_ofSite hr hq), State.reg_eq])

theorem sameSite_send {o : Output} (h : SameSite k s₀ s) : SameSite k s₀ (s.send o) := h.of_eq

theorem sameSite_pmuPc {i p e n : Nat} (h : SameSite k s₀ s) : SameSite k s₀ (s.pmuPc i p e n) := sameSite_ite h (sameSite_setReg h)

theorem sameSite_record {e : ErrRec} (h : SameSite k s₀ s) : SameSite k s₀ (s.record e) := by
  have hclk : (s.record e).clk = s.clk := record_kept e .clk (by decide)
  exact h.trans (siteView_congr (congrArg Clk.now hclk) (congrArg Clk.relocking hclk) fun _ hq =>
    reg_record (RegName.ne_of_ofSite rfl hq) (RegName.ne_of_ofSite rfl hq) k 0)

theorem sameSite_audit {a b c d e f : Nat} {g : BitVec 256} (h : SameSite k s₀ s) : SameSite k s₀ (s.audit a b c d e f g) := h.of_eq

/-! ### Plots, lines and PCs (`Ops`) -/

theorem sameSite_setPlot {o : Origin} {i : Nat} {p : Plot} (h : SameSite k s₀ s) : SameSite k s₀ (s.setPlot o i p) := by
  unfold State.setPlot
  extract_lets _ s1
  have h1 : SameSite k s₀ s1 := sameSite_onlyIf h.of_eq h
  exact sameSite_audit h1.of_eq

theorem sameSite_makeChange {i : Nat} {c : PlotChange} (h : SameSite k s₀ s) : SameSite k s₀ (s.makeChange i c) := by
  cases c with
  | keyslot old new =>
    have h1 : SameSite k s₀ (s.turnSlot old new) := h.of_eq
    exact sameSite_onlyIf (sameSite_setPlot h1) h
  | _ => exact sameSite_onlyIf (sameSite_setPlot h) h

theorem sameSite_change {i : Nat} {c : PlotChange} (h : SameSite k s₀ s) : SameSite k s₀ (s.change i c) :=
  sameSite_ite h.of_eq (sameSite_makeChange h)

theorem sameSite_zeroPlot {i : Nat} {f : Fill} (h : SameSite k s₀ s) : SameSite k s₀ (s.zeroPlot i f) := h.of_eq

theorem sameSite_blockWrite {pa : Nat} {d : LineData} (h : SameSite k s₀ s) : SameSite k s₀ (s.blockWrite pa d) :=
  sameSite_ite h (sameSite_foldl h fun _ _ h1 => h1.of_eq)

theorem sameSite_setPc {i p : Nat} {v : Pc} (h : SameSite k s₀ s) : SameSite k s₀ (s.setPc i p v) := h.of_eq

theorem sameSite_siteOff {i : Nat} (h : SameSite k s₀ s) : SameSite k s₀ (s.siteOff i) :=
  sameSite_foldl h fun _ _ h1 => sameSite_send (sameSite_wr h1)

theorem sameSite_syncFrz {i p : Nat} (h : SameSite k s₀ s) : SameSite k s₀ (s.syncFrz i p) := sameSite_setMap h

/-! ### The history and the retirement of PCs (`History`, `Ras`) -/

theorem sameSite_setHist {u : HistUnit} (h : SameSite k s₀ s) : SameSite k s₀ (s.setHist u) := h.of_eq

theorem sameSite_commitHist (h : SameSite k s₀ s) : SameSite k s₀ s.commitHist := h.of_eq

theorem sameSite_beginMigration {i lpc reason : Nat} (h : SameSite k s₀ s) : SameSite k s₀ (s.beginMigration i lpc reason) := by
  unfold State.beginMigration
  split
  · exact h
  · extract_lets s1 s2 _ s3
    have h2 : SameSite k s₀ s2 := sameSite_wr (sameSite_setMap (sameSite_wr (sameSite_wr (sameSite_wr (sameSite_wr h)))))
    exact sameSite_commitHist h2.of_eq

theorem sameSite_startWanted {i : Nat} (h : SameSite k s₀ s) : SameSite k s₀ (s.startWanted i) := by
  unfold State.startWanted
  refine sameSite_ite h ?_
  split
  · exact h
  · extract_lets s1
    have h1 : SameSite k s₀ s1 := h.of_eq
    split
    · exact h1
    · exact sameSite_beginMigration h1

theorem sameSite_markPermanent {u : HistUnit} {sub d : Nat} {rec_ : Bool} (h : SameSite k s₀ s) :
    SameSite k s₀ (s.markPermanent u sub d rec_) := by
  unfold State.markPermanent
  extract_lets _ s1 s2
  have h2 : SameSite k s₀ s2 := sameSite_commitHist (sameSite_setHist (sameSite_record h))
  exact sameSite_ite (sameSite_startWanted h2.of_eq) h2

theorem sameSite_event1 {cls cluster a b d : Nat} {rec_ : Bool} (h : SameSite k s₀ s) :
    SameSite k s₀ (s.event1 cls cluster a b d rec_) := by
  unfold State.event1
  extract_lets _ _ s1
  have h1 : SameSite k s₀ s1 := sameSite_setHist h
  exact sameSite_ite h (sameSite_ite h.of_eq (sameSite_ite (sameSite_markPermanent h1) h1))

theorem sameSite_rowPermanent {u : HistUnit} {sub : Nat} {rec_ : Bool} (h : SameSite k s₀ s) :
    SameSite k s₀ (s.rowPermanent u sub rec_) := by
  unfold State.rowPermanent
  extract_lets _ s1 s2
  have h2 : SameSite k s₀ s2 := sameSite_event1 (sameSite_markPermanent h)
  exact sameSite_ite (sameSite_markPermanent h2) h2

theorem sameSite_event {cls cluster a b : Nat} (h : SameSite k s₀ s) : SameSite k s₀ (s.event cls cluster a b) := by
  unfold State.event
  extract_lets _ _ s1
  have h1 : SameSite k s₀ s1 := sameSite_setHist h
  exact sameSite_ite (sameSite_event1 h) (sameSite_ite h (sameSite_ite h.of_eq (sameSite_ite (sameSite_rowPermanent h1) h1)))

theorem sameSite_retirePc {i p lpc : Nat} {drain : Bool} {d : Nat} (h : SameSite k s₀ s) :
    SameSite k s₀ (s.retirePc i p lpc drain d) := by
  unfold State.retirePc
  extract_lets _ _ s1 s2 s3 s4 _ s5
  have h1 : SameSite k s₀ s1 := sameSite_setPc h
  have h2 : SameSite k s₀ s2 := sameSite_onlyIf (sameSite_pmuPc (sameSite_incRc h1)) h1
  have h4 : SameSite k s₀ s4 := sameSite_syncFrz (sameSite_setMap (sameSite_setMap h2))
  have h5 : SameSite k s₀ s5 := h4.of_eq
  exact sameSite_commitHist (sameSite_record h5)

theorem sameSite_loseBacking {i lpc : Nat} (h : SameSite k s₀ s) : SameSite k s₀ (s.loseBacking i lpc) := by
  have h1 : SameSite k s₀ (s.retirePlots i) := sameSite_foldl h fun _ _ g => sameSite_change g
  have h2 : SameSite k s₀ ((s.retirePlots i).wr F.CLU_PCMAP.VALID 0 i lpc) := sameSite_wr h1
  exact h2.of_eq

theorem sameSite_thawPc {i p : Nat} (h : SameSite k s₀ s) : SameSite k s₀ (s.thawPc i p) := by
  unfold State.thawPc
  extract_lets _ s1
  have h1 : SameSite k s₀ s1 := sameSite_setPc h
  exact sameSite_record (sameSite_syncFrz h1)

theorem sameSite_answerHeld {i p : Nat} (h : SameSite k s₀ s) : SameSite k s₀ (s.answerHeld i p) := h.of_eq

theorem sameSite_abortMigration {i d : Nat} (h : SameSite k s₀ s) : SameSite k s₀ (s.abortMigration i d) := by
  unfold State.abortMigration
  extract_lets _ _ _ s1 _ s2
  have h1 : SameSite k s₀ s1 := sameSite_wr (sameSite_wr h)
  have h2 : SameSite k s₀ s2 := h1.of_eq
  exact sameSite_loseBacking (sameSite_retirePc (sameSite_retirePc (sameSite_answerHeld (sameSite_answerHeld h2))))

/-! ### The sweep of the Lanterns at the end of start-up (`Silent`) -/

theorem sameSite_modLnt {j : Nat} {f : Lantern → Lantern} (h : SameSite k s₀ s) : SameSite k s₀ (s.modLnt j f) := h.of_eq

theorem sameSite_modCtx {j c : Nat} {f : Ctx → Ctx} (h : SameSite k s₀ s) : SameSite k s₀ (s.modCtx j c f) := h.of_eq

theorem sameSite_setRole {j a r : Nat} (h : SameSite k s₀ s) : SameSite k s₀ (s.setRole j a r) := sameSite_wr h

theorem sameSite_standIn {j a : Nat} (h : SameSite k s₀ s) : SameSite k s₀ (s.standIn j a).1 := by
  unfold State.standIn
  split
  · exact h
  · exact sameSite_wr (sameSite_setRole h)

theorem sameSite_startTest {j : Nat} {t : ATest} (h : SameSite k s₀ s) : SameSite k s₀ (s.startTest j t) := by
  unfold State.startTest
  refine sameSite_ite h ?_
  extract_lets r go
  have hgo {u : State} {o : Option Nat} (hu : SameSite k s₀ u) : SameSite k s₀ (go u o) := sameSite_modLnt (sameSite_setRole hu)
  refine sameSite_ite (hgo h) (sameSite_ite ?_ h)
  split
  · refine hgo ?_
    split
    · exact sameSite_modCtx h
    · exact h
  · exact hgo (sameSite_standIn h)
  · exact h

theorem sameSite_addTest {j : Nat} {t : ATest} (h : SameSite k s₀ s) : SameSite k s₀ (s.addTest j t) := by
  have h1 : SameSite k s₀ (s.choose j t.arr) := sameSite_ite (sameSite_modLnt h) h
  exact sameSite_foldl (sameSite_modLnt h1) fun _ _ g => sameSite_startTest g

theorem sameSite_sweepGo {j : Nat} {x : List Nat} (h : SameSite k s₀ s) : SameSite k s₀ (s.sweepGo j x) := by
  induction x generalizing s with
  | nil => exact h
  | cons a q ih =>
    unfold State.sweepGo
    split
    · exact h
    · extract_lets _ _ s1
      have h1 : SameSite k s₀ s1 := sameSite_modLnt h
      exact sameSite_ite (ih h1) (sameSite_ite h (ih (sameSite_addTest h1)))

theorem sameSite_sweepStep {j : Nat} (h : SameSite k s₀ s) : SameSite k s₀ (s.sweepStep j) := by
  unfold State.sweepStep
  split
  · exact h
  · exact sameSite_sweepGo h

theorem sameSite_startSweep {js : List Nat} {rounds : Nat} {rep : Option Nat} (h : SameSite k s₀ s) :
    SameSite k s₀ (s.startSweep js rounds rep) := by
  unfold State.startSweep
  extract_lets
  refine sameSite_ite h (sameSite_foldl (sameSite_wr h) fun _ _ g => ?_)
  extract_lets _ s1 s2 s3
  have h2 : SameSite k s₀ s2 := sameSite_setMap (sameSite_modLnt g)
  have h3 : SameSite k s₀ s3 := sameSite_foldl h2 fun _ _ g2 => sameSite_addTest g2
  exact sameSite_sweepStep h3

/-! ### Eyes, lanes, the map and phase 8 (`Train`) -/

theorem sameSite_setEye {i l : Nat} {wr : Bool} {e : Eye} (h : SameSite k s₀ s) : SameSite k s₀ (s.setEye i l wr e) :=
  sameSite_setReg h (by cases wr <;> rfl)

theorem sameSite_coreWrite {c : Nat} {r : RegName} {i j w : Nat} (h : SameSite k s₀ s) (hr : r.ofSite = false := by rfl) :
    SameSite k s₀ (s.coreWrite c r i j w) :=
  sameSite_onlyIf (sameSite_audit (sameSite_setReg h hr)) h

theorem sameSite_coreField {c : Nat} {f : Fld} {v i j : Nat} (h : SameSite k s₀ s) (hr : f.reg.ofSite = false := by rfl) :
    SameSite k s₀ (s.coreField c f v i j) :=
  sameSite_coreWrite h hr

theorem sameSite_writeTimes {i : Nat} {ts : List Nat} (h : SameSite k s₀ s) : SameSite k s₀ (s.writeTimes i ts) := by
  unfold State.writeTimes
  extract_lets _ _ _ s1 s2 s3 s4
  have h4 : SameSite k s₀ s4 := sameSite_coreWrite (sameSite_coreWrite (sameSite_coreWrite (sameSite_coreWrite h)))
  exact sameSite_wr h4

theorem sameSite_trainLane {i : Nat} {e : SiteEnv} {l n : Nat} (h : SameSite k s₀ s) : SameSite k s₀ (s.trainLane i e l n).1 := by
  unfold State.trainLane
  extract_lets
  split
  · exact sameSite_setEye (sameSite_setEye h)
  · exact h

theorem sameSite_setRepair {i p n lane : Nat} {hard : Bool} (h : SameSite k s₀ s) : SameSite k s₀ (s.setRepair i p n lane hard) :=
  sameSite_setReg h

theorem sameSite_repairRound {i : Nat} {e : SiteEnv} {n : Nat} {t : Trained} (h : SameSite k s₀ s) :
    SameSite k s₀ (s.repairRound i e n t).1 := by
  unfold State.repairRound
  refine sameSite_foldl_fst h fun a _ h1 => ?_
  obtain ⟨u, t⟩ := a
  dsimp only
  split
  · exact h1
  · exact sameSite_trainLane (sameSite_event1 (sameSite_setRepair h1))

theorem sameSite_trainLanes {i : Nat} {e : SiteEnv} {ls : List Nat} (h : SameSite k s₀ s) : SameSite k s₀ (s.trainLanes i e ls).1 := by
  unfold State.trainLanes
  exact sameSite_foldl_fst (sameSite_foldl_fst h fun _ _ h1 => sameSite_trainLane h1) fun _ _ h2 => sameSite_repairRound h2

theorem sameSite_pcLost {i : Nat} {bad : List Nat} {p : Nat} (h : SameSite k s₀ s) : SameSite k s₀ (s.pcLost i bad p) :=
  sameSite_event (sameSite_record h)

theorem sameSite_freeBytes {n : Nat} (h : SameSite k s₀ s) : SameSite k s₀ (s.freeBytes n).1 := by
  induction n generalizing s with
  | zero => exact h
  | succ n ih =>
    have h1 : SameSite k s₀ s.fresh.2 := h.of_eq
    exact ih h1

theorem sameSite_writeImage {i : Nat} (h : SameSite k s₀ s) : SameSite k s₀ (s.writeImage i) := (sameSite_freeBytes (n := 4) h).of_eq

theorem sameSite_buildMap {i : Nat} {lost : List Nat} (h : SameSite k s₀ s) : SameSite k s₀ (s.buildMap i lost) := by
  unfold State.buildMap
  extract_lets _ _ _ _ s1 s2 s3
  have h1 : SameSite k s₀ s1 := sameSite_foldl h fun _ _ g => sameSite_ite (sameSite_wr (sameSite_wr g)) (sameSite_clearReg g)
  have h2 : SameSite k s₀ s2 := sameSite_setReg (sameSite_setReg h1)
  have h3 : SameSite k s₀ s3 := sameSite_foldl h2 fun _ _ g => g.of_eq
  exact sameSite_setReg h3

theorem sameSite_geometry (h : SameSite k s₀ s) : SameSite k s₀ s.geometry := sameSite_setReg h

theorem sameSite_reservePlot {r : Nat} (h : SameSite k s₀ s) : SameSite k s₀ (s.reservePlot r) := sameSite_zeroPlot (sameSite_setPlot h)

theorem sameSite_writeEntry {seq : Nat} {bytes : List Byte} (h : SameSite k s₀ s) : SameSite k s₀ (s.writeEntry seq bytes) :=
  sameSite_blockWrite (sameSite_blockWrite h)

theorem sameSite_phase8 (h : SameSite k s₀ s) : SameSite k s₀ s.phase8 := by
  unfold State.phase8
  extract_lets s1 s2 _ s3 s4
  have h1 : SameSite k s₀ s1 := sameSite_wr h
  have h2 : SameSite k s₀ s2 := sameSite_wr h1
  have h3 : SameSite k s₀ s3 := sameSite_foldl h1 fun _ _ g => sameSite_reservePlot g
  have h4 : SameSite k s₀ s4 := sameSite_writeEntry h3
  exact sameSite_ite h (sameSite_ite h2.of_eq (sameSite_onlyIf (sameSite_startSweep h4) h4))

theorem sameSite_hardPpr {i : Nat} (h : SameSite k s₀ s) : SameSite k s₀ (s.hardPpr i) := by
  unfold State.hardPpr
  refine sameSite_foldl h fun _ _ g => ?_
  extract_lets
  exact sameSite_ite (sameSite_record (sameSite_setHist g)) (sameSite_event1 g)

theorem sameSite_addHard {i : Nat} {hard : List (PcIx × Nat)} (h : SameSite k s₀ s) : SameSite k s₀ (s.addHard i hard) := by
  refine sameSite_foldl h fun u x g => sameSite_ite g (sameSite_record (sameSite_setHist ?_))
  split
  · exact sameSite_setRepair g
  · exact g

theorem sameSite_hardLanes {i : Nat} (h : SameSite k s₀ s) : SameSite k s₀ (s.hardLanes i) := by
  refine sameSite_foldl h fun _ _ g => ?_
  split
  · exact g
  · exact sameSite_setHist (sameSite_setRepair g)

theorem sameSite_excludePc {i p : Nat} (h : SameSite k s₀ s) : SameSite k s₀ (s.excludePc i p) := by
  unfold State.excludePc
  extract_lets _ _ s1 s2
  have h2 : SameSite k s₀ s2 := sameSite_setMap (sameSite_syncFrz (sameSite_setPc (sameSite_answerHeld h)))
  exact sameSite_ite (sameSite_abortMigration h) (sameSite_foldl h2 fun _ _ g => sameSite_loseBacking g)

end

section
variable {s : State} {k : Nat}

/-! ### Writes of the view's registers -/

/-- A write of a field of the site's registers that the view does not show. -/
theorem siteView_wr_apart (f : Fld) (v : Nat) (hf : f.fits := by decide) (h0 : RegName.PHY_SERIAL ≠ f.reg := by decide)
    (h1 : f.apart F.PHY_VENDOR.VENDOR := by decide) (h2 : f.apart F.PHY_STATUS.SITE := by decide)
    (h3 : f.apart F.PHY_RTR_LAST.STAMP := by decide) (h4 : f.apart F.PHY_TRN_STATUS.TIME_US := by decide) :
    (s.wr f v k).siteView k = s.siteView k := by
  simp only [State.siteView, SiteView.mk.injEq]
  exact ⟨rfl, rfl, reg_wr_other h0 v k 0, rd_wr_apart hf h1 v, rd_wr_apart hf h2 v, rd_wr_apart hf h3 v, rd_wr_apart hf h4 v⟩

theorem siteView_setSerial (v : W64) : (s.setReg .PHY_SERIAL k 0 v).siteView k = (s.siteView k).identified v (s.siteView k).vendor := by
  rw [SiteView.identified]
  simp only [State.siteView, SiteView.mk.injEq]
  exact ⟨rfl, rfl, reg_setReg_same v, rd_setReg_other (by decide) v k 0, rd_setReg_other (by decide) v k 0,
    rd_setReg_other (by decide) v k 0, rd_setReg_other (by decide) v k 0⟩

theorem siteView_wr_vendor (v : Nat) :
    (s.wr F.PHY_VENDOR.VENDOR v k).siteView k = (s.siteView k).identified (s.siteView k).serial (v % 2 ^ 8) := by
  rw [SiteView.identified]
  simp only [State.siteView, SiteView.mk.injEq]
  exact ⟨rfl, rfl, reg_wr_other (by decide) v k 0, rd_wr_same (by decide) v, rd_wr_other (by decide) v k 0,
    rd_wr_other (by decide) v k 0, rd_wr_other (by decide) v k 0⟩

theorem siteView_wr_site (v : Nat) : (s.wr F.PHY_STATUS.SITE v k).siteView k = (s.siteView k).inSite (v % 2 ^ 3) := by
  rw [SiteView.inSite]
  simp only [State.siteView, SiteView.mk.injEq]
  exact ⟨rfl, rfl, reg_wr_other (by decide) v k 0, rd_wr_other (by decide) v k 0, rd_wr_same (by decide) v,
    rd_wr_other (by decide) v k 0, rd_wr_other (by decide) v k 0⟩

theorem siteView_wr_stamp (v : Nat) : (s.wr F.PHY_RTR_LAST.STAMP v k).siteView k = (s.siteView k).stampedAt (v % 2 ^ 64) := by
  rw [SiteView.stampedAt]
  simp only [State.siteView, SiteView.mk.injEq]
  exact ⟨rfl, rfl, reg_wr_other (by decide) v k 0, rd_wr_other (by decide) v k 0, rd_wr_other (by decide) v k 0,
    rd_wr_same (by decide) v, rd_wr_other (by decide) v k 0⟩

theorem siteView_wr_timeUs (v : Nat) : (s.wr F.PHY_TRN_STATUS.TIME_US v k).siteView k = (s.siteView k).lasting (v % 2 ^ 16) := by
  rw [SiteView.lasting]
  simp only [State.siteView, SiteView.mk.injEq]
  exact ⟨rfl, rfl, reg_wr_other (by decide) v k 0, rd_wr_other (by decide) v k 0, rd_wr_other (by decide) v k 0,
    rd_wr_other (by decide) v k 0, rd_wr_same (by decide) v⟩

end

end Sys2Proof.Machine
end

section
/-! The trainings that CCCk makes of its own accord, and a site that does not answer (R28, R40, R250 to R266). -/

set_option Elab.async false

namespace Sys2Proof.Machine
section
variable {s t : State} {k : Nat} {e : SiteEnv}

/-! ### What the operations of a training leave of the site's view -/

theorem siteView_identify (s : State) (k : Nat) (d : StackId) :
    (s.identify k d).1.siteView k = (s.siteView k).identified d.serial d.vendor.toNat := by
  unfold State.identify
  extract_lets r pick mult ts id s1 s2 s3
  have h3 : s3.siteView k = s2.siteView k := (sameSite_refl s2).of_eq
  have h0 : (s.setReg .PHY_ID k 0 (BitVec.ofNat 64 id)).siteView k = s.siteView k := sameSite_setReg (sameSite_refl s)
  have hv : d.vendor.toNat % 2 ^ 8 = d.vendor.toNat := Nat.mod_eq_of_lt d.vendor.isLt
  show s3.siteView k = _
  rw [h3, siteView_wr_apart F.PHY_STATUS.DEFAULT_PARAMS, siteView_wr_apart F.PHY_VENDOR.PART, siteView_wr_vendor, siteView_setSerial,
    h0, hv]
  rfl

theorem siteView_lockPhy (s : State) (k : Nat) : (s.lockPhy k).siteView k = s.siteView k := by
  refine siteView_congr rfl rfl fun r hr => ?_
  rw [State.reg_eq, lockPhy_regs, regIn_wrIn_other _ _ _ _ _ _ _ (RegName.ne_of_ofSite rfl hr),
    regIn_mapIn_other _ _ _ _ _ _ _ _ (RegName.ne_of_ofSite rfl hr), State.reg_eq]

theorem siteView_calibrate (s : State) (k : Nat) (e : SiteEnv) : (s.calibrate k e).siteView k = s.siteView k := by
  unfold State.calibrate
  extract_lets s1
  have h1 : SameSite k s s1 := sameSite_wr (sameSite_refl s)
  split
  · exact sameSite_wr (sameSite_wr h1)
  · dsimp only [State.fresh]
    refine sameSite_record ?_
    refine Eq.trans (siteView_wr_apart F.PHY_STATUS.CAL_FAULT 1) ?_
    exact sameSite_wr (sameSite_wr h1.of_eq)

theorem siteView_trainPcs (s : State) (k : Nat) (e : SiteEnv) (ps : List Nat) (base : Nat) :
    (s.trainPcs k e ps base).1.siteView k = (s.siteView k).lasting e.timeUs.toNat := by
  unfold State.trainPcs
  split
  rename_i u tr hu
  extract_lets bad lost s1 res s2
  have h0 : u.siteView k = s.siteView k := by
    rw [← sameSite_trainLanes (sameSite_refl s), hu]
  have h1 : s1.siteView k = u.siteView k := sameSite_foldl (sameSite_refl u) fun _ _ g => sameSite_pcLost g
  have h2 : s2.siteView k = s1.siteView k := by
    unfold s2
    rw [siteView_wr_apart F.PHY_TRN_STATUS.FAIL_LANE, siteView_wr_apart F.PHY_TRN_STATUS.ROUNDS, siteView_wr_apart F.PHY_TRN_STATUS.RESULT]
  have ht : e.timeUs.toNat % 2 ^ 16 = e.timeUs.toNat := Nat.mod_eq_of_lt e.timeUs.isLt
  rw [siteView_wr_apart F.PHY_STATUS.RESTORED, siteView_wr_timeUs, h2, h1, h0, ht]

theorem siteView_settle (s : State) (k : Nat) (image : Bool) :
    (s.settle k image).siteView k = (s.siteView k).stampedAt s.now := by
  unfold State.settle
  extract_lets s1
  have h1 : s1.siteView k = (s.siteView k).stampedAt s.now := by
    have hg : s1.siteView k = (s.wr F.PHY_RTR_LAST.STAMP s.now k).siteView k := sameSite_wr (sameSite_refl _)
    have hnow : s.now % 2 ^ 64 = s.now := Nat.mod_eq_of_lt s.clk.now.isLt
    rw [hg, siteView_wr_stamp, hnow]
  cases image
  · exact h1
  · exact Eq.trans (sameSite_writeImage (sameSite_refl s1)) h1

theorem siteView_siteOut (s : State) (k st : Nat) : (s.siteOut k st).siteView k = (s.siteView k).inSite (st % 2 ^ 3) := by
  have h : (s.siteOut k st).siteView k = (s.wr F.PHY_STATUS.SITE st k).siteView k := sameSite_wr (sameSite_refl _)
  rw [h, siteView_wr_site]

theorem siteView_siteDead (s : State) (k : Nat) : (s.siteDead k).siteView k = (s.siteView k).inSite 4 := by
  unfold State.siteDead
  extract_lets s1
  have h1 : s1.siteView k = s.siteView k := sameSite_foldl (sameSite_refl s) fun _ _ g => sameSite_excludePc g
  have h2 : (s1.siteOff k).siteView k = s1.siteView k := sameSite_siteOff (sameSite_refl s1)
  refine Eq.trans (sameSite_record (sameSite_refl _)) ?_
  rw [siteView_siteOut, h2, h1, Nat.mod_eq_of_lt (by decide)]

/-- The PCs that have not trained leave; the site stays as it is, or is FAILED. -/
theorem siteView_outOfUse (s : State) (k : Nat) (ps lost : List Nat) :
    ∃ st, (st = (s.siteView k).site ∨ st = 4) ∧ (s.outOfUse k ps lost).siteView k = (s.siteView k).inSite st := by
  unfold State.outOfUse
  extract_lets s1
  have h1 : s1.siteView k = s.siteView k := sameSite_foldl (sameSite_refl s) fun _ _ g => sameSite_excludePc g
  cases (!ps.isEmpty && lost.length == ps.length)
  · exact ⟨_, .inl rfl, h1⟩
  · exact ⟨4, .inr rfl, (siteView_siteDead s1 k).trans (by rw [h1])⟩

/-! ### The start-up of a site -/

/-- A site that has been brought up with the stack `d`: READY, FAILED or UNUSED. -/
structure SiteView.Up (w : SiteView) (d : StackId) : Prop where
  serial : w.serial = d.serial
  vendor : w.vendor = d.vendor.toNat
  site : w.site = 3 ∨ w.site = 4 ∨ w.site = 5

theorem bringUp_up (s : State) (k : Nat) (e : SiteEnv) (d : StackId) : ((s.bringUp k e d none).siteView k).Up d := by
  unfold State.bringUp
  split
  rename_i u mult ts usable hu
  have h0 : u.siteView k = (s.siteView k).identified d.serial d.vendor.toNat := by
    rw [← siteView_identify, hu]
  extract_lets s1 s2 s3
  have h1 : s1.siteView k = u.siteView k :=
    sameSite_foldl (sameSite_coreField (sameSite_refl u)) fun _ _ g => sameSite_send (sameSite_coreField g)
  have h2 : s2.siteView k = (u.siteView k).inSite 2 := by
    unfold s2
    rw [siteView_wr_site, siteView_lockPhy, h1, Nat.mod_eq_of_lt (by decide)]
  have h3 : s3.siteView k = s2.siteView k :=
    sameSite_addHard (sameSite_hardLanes (sameSite_hardPpr (sameSite_writeTimes (siteView_calibrate s2 k e))))
  split
  · rw [siteView_siteOut, h0]
    exact ⟨rfl, rfl, .inr (.inr rfl)⟩
  · split
    rename_i w lost hw
    have hw' : w.siteView k = (s3.siteView k).lasting e.timeUs.toNat := by
      rw [← siteView_trainPcs s3 k e (s3.healthy k) 0]
      exact congrArg (fun p => p.1.siteView k) hw.symm
    split
    · rw [siteView_siteDead, siteView_wr_apart F.PHY_TRN_STATUS.RESULT, hw', h3, h2, h0]
      exact ⟨rfl, rfl, .inr (.inl rfl)⟩
    · have hmap : ((w.wr F.PHY_STATUS.SITE 3 k).buildMap k lost).siteView k = (w.wr F.PHY_STATUS.SITE 3 k).siteView k :=
        sameSite_buildMap (sameSite_refl _)
      rw [siteView_settle, hmap, siteView_wr_site, hw', h3, h2, h0]
      exact ⟨rfl, rfl, .inl rfl⟩

/-! ### A training of a stack in use -/

/-- What a training of a stack in use leaves: its stamp and its length, no relock that waits, and the site as it was or FAILED. -/
theorem siteView_trainedAgain (s : State) (k : Nat) (train : State → State × List Nat) (time : Nat)
    (htrain : ∀ u, (train u).1.siteView k = (u.siteView k).lasting time) :
    ∃ st, (st = (s.siteView k).site ∨ st = 4) ∧ (s.trainedAgain k train).siteView k =
      ((((s.siteView k).lasting time).stampedAt s.now).inSite st).relocked k := by
  unfold State.trainedAgain
  extract_lets ps
  split
  rename_i u lost hu
  have h0 : u.siteView k = (s.siteView k).lasting time := by
    rw [← htrain, hu]
  have hnow : u.now = s.now := (siteView_reads h0).1
  extract_lets s1 thaw s2
  obtain ⟨st, hst, h1⟩ := siteView_outOfUse (u.settle k (!u.bit F.PHY_STATUS.RESTORED k)) k ps lost
  rw [siteView_settle, h0, hnow] at h1
  rw [siteView_settle, h0] at hst
  refine ⟨st, hst, ?_⟩
  have h2 : s2.siteView k = (s1.siteView k).relocked k := rfl
  refine Eq.trans (sameSite_foldl (sameSite_refl s2) fun _ _ g => sameSite_thawPc g) ?_
  rw [h2, h1]

/-- From phase 2 on the site is READY unless no PC has trained. -/
theorem siteView_fromPhase2 (s : State) (k : Nat) (e : SiteEnv) (train : State → State × List Nat) (time : Nat)
    (hsite : (s.siteView k).site = 2) (htrain : ∀ u, (train u).1.siteView k = (u.siteView k).lasting time) :
    ∃ st, (st = 3 ∨ st = 4) ∧ (s.fromPhase2 k e train).siteView k =
      ((((s.siteView k).lasting time).stampedAt s.now).inSite st).relocked k := by
  unfold State.fromPhase2
  extract_lets ts t
  have h0 : ((s.calibrate k e).writeTimes k ts).siteView k = s.siteView k := sameSite_writeTimes (siteView_calibrate s k e)
  obtain ⟨st, hst, ht⟩ := siteView_trainedAgain ((s.calibrate k e).writeTimes k ts) k train time htrain
  have hnow : ((s.calibrate k e).writeTimes k ts).now = s.now := (siteView_reads h0).1
  rw [h0, hnow] at ht
  rw [h0, hsite] at hst
  obtain ⟨-, -, -, -, htsite, -, -⟩ := siteView_reads ht
  have htst : t.rd F.PHY_STATUS.SITE k = st := htsite
  rw [htst]
  rcases hst with rfl | rfl
  · refine ⟨3, .inl rfl, ?_⟩
    have hready : (t.wr F.PHY_STATUS.SITE 3 k).siteView k = (t.siteView k).inSite 3 := siteView_wr_site 3
    have hc : ((2 : Nat) == 2) = true := rfl
    rw [onlyIf_pos hc, hready, ht]
    rfl
  · have hc : ((4 : Nat) == 2) = false := rfl
    exact ⟨4, .inr rfl, by rw [onlyIf_neg hc, ht]⟩

theorem siteView_relockTrain (s : State) (k : Nat) (e : SiteEnv) : ∃ st, (st = (s.siteView k).site ∨ st = 4) ∧
    (s.relockTrain k e).siteView k = ((((s.siteView k).lasting e.timeUs.toNat).stampedAt s.now).inSite st).relocked k :=
  siteView_trainedAgain s k (fun u => u.trainPcs k e (u.trainable k) 0) e.timeUs.toNat fun u => siteView_trainPcs u k e (u.trainable k) 0

/-! ### TRAINING_COMPLETE -/

theorem exec_trainingComplete_starting {k : Cluster} {d : StackId} (hup : s.cccUp k = true) (hdram : s.dramOk = true)
    (hsite : s.rd F.PHY_STATUS.SITE k = 1) (hid : e.id = some d) (himg : s.imagePresent k = false) :
    exec (.trainingComplete k e) s = .next ((s.bringUp k e d none).geometry).phase8 := by
  show execTrainingComplete k e s = _
  simp [execTrainingComplete, hup, hdram, hsite, hid, himg, onlyIf]

theorem exec_trainingComplete_phase2 {k : Cluster} (hup : s.cccUp k = true) (hdram : s.dramOk = true)
    (hsite : s.rd F.PHY_STATUS.SITE k = 2) (hlock : nbit (s.rd F.CLOCK_STATUS.PHY_LOCK) k = true) (hrate : s.rateOk k = true)
    (himg : s.imagePresent k = false) :
    exec (.trainingComplete k e) s = .next (s.fromPhase2 k e fun t => t.trainPcs k e (t.trainable k) 0) := by
  show execTrainingComplete k e s = _
  simp [execTrainingComplete, hup, hdram, hsite, hlock, hrate, himg, onlyIf]

theorem exec_trainingComplete_relock {k : Cluster} (hup : s.cccUp k = true) (hdram : s.dramOk = true)
    (hsite : s.rd F.PHY_STATUS.SITE k = 3) (hlock : nbit (s.rd F.CLOCK_STATUS.PHY_LOCK) k = true)
    (hrel : s.clk.relocking.contains k.val = true) : exec (.trainingComplete k e) s = .next (s.relockTrain k e) := by
  show execTrainingComplete k e s = _
  simp only [execTrainingComplete, hup, hdram, hsite, hlock, hrel, onlyIf]
  rfl

/-- No relock of the site waits any more. -/
theorem relocked_contains (w : SiteView) (k : Nat) : (w.relocked k).relocking.contains k = false := by
  simp [SiteView.relocked]

/-! ### DEVICE_ID_TIMEOUT -/

theorem phase8_of_starting {j : Nat} (hj : j < 12) (h : s.siteStarting j = true) : s.phase8 = s := by
  have hany : (List.range 12).any (fun k => s.siteStarting k) = true := List.any_eq_true.2 ⟨j, List.mem_range.2 hj, h⟩
  unfold State.phase8
  exact if_pos (by simp [hany])

theorem geometry_out (s : State) : s.geometry.out = s.out := setReg_out ..

/-- A rail is switched off, and its regulator told. -/
def State.railOff (s : State) (r : Nat) : State := (s.wr F.PM_RAIL_CFG.ON 0 r).send (.pmbus r 0)

theorem siteOff_eq (s : State) (k : Nat) : s.siteOff k = (siteRails k).foldl State.railOff s := rfl

/-- The rails of a list are off, and the others as they were. -/
theorem on_foldl_railOff (l : List Nat) (s : State) {r : Nat} (hr : r < 2 ^ 14) (hl : ∀ x ∈ l, x < 2 ^ 14) :
    (l.foldl State.railOff s).bit F.PM_RAIL_CFG.ON r = (!l.contains r && s.bit F.PM_RAIL_CFG.ON r) := by
  induction l generalizing s with
  | nil => rfl
  | cons x l ih =>
    have hx : (s.railOff x).bit F.PM_RAIL_CFG.ON r = (!(r == x) && s.bit F.PM_RAIL_CFG.ON r) := by
      rw [State.railOff, bit_send]
      by_cases h : r = x
      · rw [h, bit_wr_same (by decide) rfl, BEq.rfl]
        rfl
      · rw [State.bit, rd_wr_elem (hl x List.mem_cons_self) hr h, beq_eq_false_iff_ne.2 h]
        rfl
    rw [List.foldl_cons, ih _ fun y hy => hl y (List.mem_cons_of_mem x hy), hx, List.contains_cons, Bool.not_or, ← Bool.and_assoc,
      Bool.and_comm (!l.contains r)]

theorem rd_siteOff {g : Fld} (h : g.reg ≠ .PM_RAIL_CFG) (i j : Nat) : (s.siteOff k).rd g i j = s.rd g i j :=
  foldl_keep (fun u => u.rd g i j) (siteRails k) State.railOff (fun _ _ => rd_wr_other (f := F.PM_RAIL_CFG.ON) h 0 i j) s

theorem out_foldl_railOff (l : List Nat) (s : State) : (l.foldl State.railOff s).out = s.out ++ l.map (.pmbus · 0) := by
  induction l generalizing s with
  | nil => exact (List.append_nil _).symm
  | cons r l ih =>
    have hr : (s.railOff r).out = s.out ++ [.pmbus r 0] := rfl
    rw [List.foldl_cons, ih, hr, List.append_assoc, List.map_cons, List.singleton_append]

/-- The registers that a site without an answer changes. -/
def emptyRegs (k : Nat) : List (RegName × Nat × Nat) :=
  [(.PHY_STATUS, k, 0), (.PLOT_GEOM, 0, 0), (.PM_RAIL_CFG, 2 + k, 0), (.PM_RAIL_CFG, 14 + 3 * k, 0), (.PM_RAIL_CFG, 15 + 3 * k, 0),
    (.PM_RAIL_CFG, 16 + 3 * k, 0)]

/-- The site is EMPTY, and its rails are off. -/
def State.siteEmptied (s : State) (k : Nat) : State := ((s.wr F.PHY_STATUS.SITE 0 k).siteOff k).geometry

theorem rail_lt {r : Nat} (k : Cluster) (h : r ∈ siteRails k) : r < 2 ^ 14 := by
  have hk := k.isLt
  simp only [siteRails, List.mem_cons, List.not_mem_nil, or_false] at h
  omega

theorem siteEmptied_onlyRegs (s : State) (k : Cluster) : s.onlyRegs (s.siteEmptied k) (emptyRegs k) := by
  refine onlyRegs_setReg ?_ .PLOT_GEOM 0 0 _ (by simp [emptyRegs])
  have h0 := onlyRegs_wr_elem (l := emptyRegs k) (onlyRegs_refl s _) F.PHY_STATUS.SITE 0 k (by simp [emptyRegs, F.PHY_STATUS.SITE])
  refine foldl_inv (fun u => s.onlyRegs u (emptyRegs k)) (siteRails k) State.railOff (fun u r hr hu => ?_) _ h0
  refine onlyRegs_wr hu F.PM_RAIL_CFG.ON 0 r 0 (mem_elem (rail_lt k hr) ?_)
  simp only [siteRails, List.mem_cons, List.not_mem_nil, or_false] at hr
  rcases hr with rfl | rfl | rfl | rfl <;> simp [emptyRegs, F.PM_RAIL_CFG.ON, Nat.add_comm]

theorem siteEmptied_kept (s : State) (k : Nat) : s.keptBut (s.siteEmptied k) [.regs, .out] := by
  refine keptBut_setReg (keptBut_foldl _ _ (fun u r => ?_) (keptBut_wr (keptBut_refl s _) _ _ _ _ (by decide))) _ _ _ _ (by decide)
  exact keptBut_send (keptBut_wr (keptBut_refl u _) _ _ _ _ (by decide)) _ (by decide)

theorem out_siteEmptied (s : State) (k : Nat) : (s.siteEmptied k).out =
    s.out ++ [.pmbus (2 + k) 0, .pmbus (14 + 3 * k) 0, .pmbus (15 + 3 * k) 0, .pmbus (16 + 3 * k) 0] := by
  rw [State.siteEmptied, geometry_out, siteOff_eq, out_foldl_railOff, siteRails, Nat.add_comm k 2]
  simp only [List.map_cons, List.map_nil, wr_out]

theorem on_siteEmptied (s : State) (k : Cluster) {r : Nat} (h : r ∈ siteRails k) :
    (s.siteEmptied k).bit F.PM_RAIL_CFG.ON r = false := by
  have hgeo : (s.siteEmptied k).bit F.PM_RAIL_CFG.ON r = ((s.wr F.PHY_STATUS.SITE 0 k).siteOff k).bit F.PM_RAIL_CFG.ON r :=
    congrArg (· == 1) (rd_setReg_other (by decide) _ r 0)
  rw [hgeo, siteOff_eq, on_foldl_railOff _ _ (rail_lt k h) fun x => rail_lt k, List.contains_iff_mem.2 h]
  rfl

theorem site_siteEmptied (s : State) (k j : Nat) :
    (s.siteEmptied k).rd F.PHY_STATUS.SITE j = (s.wr F.PHY_STATUS.SITE 0 k).rd F.PHY_STATUS.SITE j := by
  have hgeo : (s.siteEmptied k).rd F.PHY_STATUS.SITE j = ((s.wr F.PHY_STATUS.SITE 0 k).siteOff k).rd F.PHY_STATUS.SITE j :=
    rd_setReg_other (by decide) _ j 0
  rw [hgeo, rd_siteOff (by decide)]

theorem exec_deviceIdTimeout {k : Cluster} (hup : s.cccUp k = true) (hsite : s.rd F.PHY_STATUS.SITE k = 1) {j : Nat} (hj : j < 12)
    (hne : j ≠ k.val) (hstart : s.siteStarting j = true) : exec (.deviceIdTimeout k) s = .next (s.siteEmptied k) := by
  have hkeep : (s.siteEmptied k).siteStarting j = true := by
    have hrd : (s.siteEmptied k).rd F.PHY_STATUS.SITE j = s.rd F.PHY_STATUS.SITE j := by
      rw [site_siteEmptied, rd_wr_elem (k.isLt.trans (by decide)) (hj.trans (by decide)) hne]
    rwa [State.siteStarting, hrd]
  have hexec : exec (.deviceIdTimeout k) s = .next (s.siteEmptied k).phase8 :=
    congrArg Host.Outcome.next (onlyIf_pos (by simp [hup, hsite]) _ _)
  rw [hexec, phase8_of_starting hj hkeep]

end

/-- Settles O53. The view of the site after each training; a site that does not answer is followed rail by rail. -/
theorem trainingOfItsOwnAccord : Obligations.TrainingOfItsOwnAccord := by
  unfold Obligations.TrainingOfItsOwnAccord
  intro s k e hup hdram
  refine ⟨fun d hid hsite himg => ?_, fun hsite hlock hrate himg => ?_, fun hsite hlock hrel => ?_, fun hsite ⟨j, hj, hne, hstart⟩ => ?_⟩
  · refine ⟨_, exec_trainingComplete_starting hup hdram hsite hid himg, ?_⟩
    have hend := sameSite_phase8 (sameSite_geometry (sameSite_refl (k := k) (s.bringUp k e d none)))
    obtain ⟨-, -, hserial, hvendor, hst, -, -⟩ := siteView_reads hend
    have hview := bringUp_up s k e d
    rw [hserial, hvendor, hst]
    exact ⟨hview.serial, hview.vendor, hview.site⟩
  · refine ⟨_, exec_trainingComplete_phase2 hup hdram hsite hlock hrate himg, ?_⟩
    obtain ⟨st, hst, hview⟩ := siteView_fromPhase2 s k e (fun t => t.trainPcs k e (t.trainable k) 0) e.timeUs.toNat hsite
      fun u => siteView_trainPcs u k e (u.trainable k) 0
    obtain ⟨-, -, -, -, hsite', hstamp, htime⟩ := siteView_reads hview
    rw [hsite', hstamp, htime]
    exact ⟨rfl, rfl, hst⟩
  · refine ⟨_, exec_trainingComplete_relock hup hdram hsite hlock hrel, ?_⟩
    obtain ⟨st, hst, hview⟩ := siteView_relockTrain s k e
    obtain ⟨-, hrel', -, -, hsite', hstamp, htime⟩ := siteView_reads hview
    obtain ⟨-, -, -, -, hwas, -, -⟩ := siteView_reads (rfl : s.siteView k = _)
    rw [hrel', hsite', hstamp, htime]
    exact ⟨relocked_contains _ _, rfl, rfl, by rwa [← hwas, hsite] at hst⟩
  · refine ⟨_, exec_deviceIdTimeout hup hsite hj hne hstart, ?_, fun r hr => on_siteEmptied s k ?_, out_siteEmptied s k,
      siteEmptied_kept s k, siteEmptied_onlyRegs s k⟩
    · rw [site_siteEmptied, rd_wr_same (by decide), Nat.zero_mod]
    · simpa only [siteRails, Nat.add_comm] using hr

end Sys2Proof.Machine
end

section
/-! Memory keeps its form (R80, R607), and a patrol scrub that opens a tracker window (R221, R224, R646). -/

set_option Elab.async false

namespace Sys2Proof.Machine

/-- Settles O4: the rule of each command and of the tick keeps the keys of memory rising (`keeps_step`). -/
theorem memoryKeepsItsForm : Obligations.MemoryKeepsItsForm := by
  unfold Obligations.MemoryKeepsItsForm
  exact fun s t hwf hstep => (keeps_step t hstep).form hwf

/-- The first tick of the second tracker window (R221), in READY: stack 0 is in service with 64 PCs and refreshes, PC 0 serves logical PC 0
and plot 3 is OPEN there, a scrub pass of 24 hours has begun, and port 3 is still throttled from the window before. -/
def State.windowTurn : State :=
  let s := [(F.GLOBAL_STATE.STATE, 2, 0), (F.FW_STATE.STATE, 2, 3), (F.CLOCK_STATUS.PHY_LOCK, 1, 0), (F.CLOCK_PHYPLL.MULT, 48, 0),
    (F.PHY_ID.PCS, 64, 0), (F.PHY_STATUS.SITE, 3, 0), (F.REF_PERIOD.TREFI_TS, 4680, 0), (F.PLOT_STACKGEOM.SIDS, 4, 0),
    (F.PLOT_STACKGEOM.NDATA, 60, 0), (F.CLU_PCMAP.VALID, 1, 0)].foldl (fun s e => s.wr e.1 e.2.1 e.2.2) State.reset
  { s with
    clk := { Clk.reset with now := 38400000, running := true }
    plots := [(3, { Plot.blank with state := .openPlot })]
    pcs := [(0, { Pc.blank with st := .serving })]
    passes := [(0, (24, 38400000))]
    throttles := [⟨0, 0, 0, 0, 3, 5⟩] }

/-- The ACT of the scrubbed line is the first of the new window, and ends the throttles (R224). -/
theorem patrolScrub_windowTurn (t : State) (h : exec (.patrolScrub 0 0 0 []) State.windowTurn = .next t) : t.throttles = [] := by
  obtain rfl := Host.Outcome.next.inj h
  decide +kernel

/-- Refutes O18: a PATROL_SCRUB of a line that meets no error does change another part of the state than the statement lists. Its ACT counts
in the row trackers, and as the first ACT of a tracker window it ends every throttle (`State.trkClear`). -/
theorem not_migrationAndScrub : ¬ Obligations.MigrationAndScrub := by
  unfold Obligations.MigrationAndScrub
  intro h
  obtain ⟨-, -, -, hpatrol, -⟩ := h State.windowTurn 0
  obtain ⟨⟨t, hexec, hkept, -⟩, -⟩ := hpatrol 0 0 (by decide)
  have hsame : t.throttles = [⟨0, 0, 0, 0, 3, 5⟩] := hkept .throttles (by decide)
  rw [patrolScrub_windowTurn t hexec] at hsame
  exact absurd hsame (by decide)

end Sys2Proof.Machine
end

section
/-! The plot commands ALLOC and FREE (R72, R74, R92, R93, R96, R98). -/

set_option Elab.async false

namespace Sys2Proof.Machine

section
variable {α : Type}

/-! ### A table with rising keys lists a key once -/

theorem key_ge_of_risingFrom {lo k : Nat} {v : α} {t : Tbl α} (h : risingFrom lo t = true) (hm : (k, v) ∈ t) : lo ≤ k := by
  induction t generalizing lo with
  | nil => cases hm
  | cons e t ih =>
    obtain ⟨j, w⟩ := e
    obtain ⟨hj, ht⟩ : lo ≤ j ∧ risingFrom (j + 1) t = true := by simpa [risingFrom] using h
    rcases List.mem_cons.1 hm with heq | hm
    · obtain ⟨rfl, -⟩ := Prod.mk.inj heq
      exact hj
    · have := ih ht hm
      omega

theorem tget_of_mem {lo k : Nat} (d : α) {v : α} {t : Tbl α} (h : risingFrom lo t = true) (hm : (k, v) ∈ t) : tget d t k = v := by
  induction t generalizing lo with
  | nil => cases hm
  | cons e t ih =>
    obtain ⟨j, w⟩ := e
    obtain ⟨-, ht⟩ : lo ≤ j ∧ risingFrom (j + 1) t = true := by simpa [risingFrom] using h
    rcases List.mem_cons.1 hm with heq | hm
    · obtain ⟨rfl, rfl⟩ := Prod.mk.inj heq
      exact if_pos rfl
    · have hlt := key_ge_of_risingFrom ht hm
      rw [tget, if_neg (by omega), ih ht hm]

end

section
variable {s t u : State} {L : List Part} {i j : Nat}

/-! ### Frames -/

theorem rd_lt (s : State) (f : Fld) (i j : Nat) : s.rd f i j < 2 ^ f.len := Nat.mod_lt _ (Nat.two_pow_pos _)

theorem rd_of_regs (h : t.regs = s.regs) (f : Fld) (i j : Nat) : t.rd f i j = s.rd f i j := by
  rw [State.rd_eq, h, State.rd_eq]

theorem bit_of_regs (h : t.regs = s.regs) (f : Fld) (i j : Nat) : t.bit f i j = s.bit f i j := by
  rw [State.bit, rd_of_regs h, State.bit]

theorem onlyRegs_of_regs {l : List (RegName × Nat × Nat)} (h : t.regs = s.regs) (hu : t.onlyRegs u l) : s.onlyRegs u l := by
  rw [State.onlyRegs_eq] at hu ⊢
  rwa [← h]

theorem keptBut_sec (h : s.keptBut t L) (x : Sec) (m0 : Part.sec ∈ L) (m1 : Part.auditQ ∈ L) : s.keptBut { t with sec := x } L := by
  intro p hp
  have h := h p hp
  cases p
  case sec => exact absurd m0 hp
  case auditQ => exact absurd m1 hp
  all_goals exact h

theorem keptBut_plots (h : s.keptBut t L) (T : Tbl Plot) (m0 : Part.plots ∈ L) : s.keptBut { t with plots := T } L := by
  intro p hp
  have h := h p hp
  cases p
  case plots => exact absurd m0 hp
  all_goals exact h

theorem keptBut_posies (h : s.keptBut t L) (T : Tbl Posy) (m0 : Part.posies ∈ L) : s.keptBut { t with posies := T } L := by
  intro p hp
  have h := h p hp
  cases p
  case posies => exact absurd m0 hp
  all_goals exact h

/-! ### The result of a plot command (R93) -/

theorem plotResult_kept (i r : Nat) : s.keptBut (s.plotResult i r) [.regs] :=
  keptBut_wr (keptBut_raise (keptBut_wr (keptBut_wr (keptBut_refl s _) _ _ _ _ (by decide)) _ _ _ _ (by decide)) _ _ _ (by decide))
    _ _ _ _ (by decide)

theorem plotResult_onlyRegs (i r : Nat) : s.onlyRegs (s.plotResult i r) [(.PLOT_STATUS, 0, 0), (.PLOT_CMD, 0, 0)] :=
  onlyRegs_wr (onlyRegs_raise (onlyRegs_wr (onlyRegs_wr (onlyRegs_refl s _) _ _ _ _ (by decide)) _ _ _ _ (by decide)) _ _ _ (by decide))
    _ _ _ _ (by decide)

@[simp] theorem plotResult_plot (i r j : Nat) : (s.plotResult i r).plot j = s.plot j := rfl

@[simp] theorem plotResult_quar (i r : Nat) : (s.plotResult i r).quar = s.quar := rfl

theorem result_plotResult (i r : Nat) : (s.plotResult i r).rd F.PLOT_STATUS.RESULT = r % 16 := by
  unfold State.plotResult
  rw [rd_wr_other (by decide), rd_raise, rd_wr_apart (by decide) (by decide), rd_wr_apart (by decide) (by decide), rd_wr_same (by decide)]
  rfl

theorem index_plotResult (i : Fin 4096) (r : Nat) : (s.plotResult i r).rd F.PLOT_STATUS.INDEX = i := by
  unfold State.plotResult
  rw [rd_wr_other (by decide), rd_raise, rd_wr_apart (by decide) (by decide), rd_wr_same (by decide)]
  exact Nat.mod_eq_of_lt i.isLt

theorem done_plotResult (i r : Nat) : (s.plotResult i r).bit F.PLOT_STATUS.DONE = true := by
  unfold State.plotResult
  rw [bit_wr_other (by decide), State.bit, rd_raise, rd_wr_same (by decide)]
  rfl

theorem busy_plotResult (i r : Nat) : (s.plotResult i r).bit F.PLOT_CMD.BUSY = false := bit_wr_same (by decide) rfl 0

/-! ### A command that runs at once -/

theorem plotCmd_runs {op : Nat} (hop : op ≠ 0) (hbusy : s.bit F.PLOT_CMD.BUSY = false) (hboot : s.inBoot = false)
    (hwait : s.plotWaits op i = false) : s.plotCmd op i = s.plotRun op i := by
  simp [State.plotCmd, hop, hbusy, hboot, hwait]

theorem exec_alloc {i : Fin 4096} (hbusy : s.bit F.PLOT_CMD.BUSY = false) (hheld : s.pfHeld = false) (hwait : s.plotWaits 1 i = false) :
    exec (.alloc i) s = .next ((s.allocPlot i).1.plotResult i (s.allocPlot i).2) := by
  obtain ⟨hfull, hboot⟩ := pfHeld_false hheld
  show execAlloc i s = _
  rw [execAlloc, orWait_open hfull, plotCmd_runs (by decide) hbusy hboot hwait]
  rfl

theorem exec_free {i : Fin 4096} (hbusy : s.bit F.PLOT_CMD.BUSY = false) (hheld : s.pfHeld = false) (hwait : s.plotWaits 2 i = false) :
    exec (.free i) s = .next ((s.freePlot i).1.plotResult i (s.freePlot i).2) := by
  obtain ⟨hfull, hboot⟩ := pfHeld_false hheld
  show execFree i s = _
  rw [execFree, orWait_open hfull, plotCmd_runs (by decide) hbusy hboot hwait]
  rfl

/-! ### A change of a plot entry (R69) -/

theorem keptBut_setPlot (h : s.keptBut t L) (o : Origin) (i : Nat) (p : Plot) (m0 : Part.plots ∈ L) (m1 : Part.posies ∈ L)
    (m2 : Part.auditQ ∈ L) : s.keptBut (t.setPlot o i p) L := by
  unfold State.setPlot
  exact keptBut_audit (keptBut_plots (keptBut_onlyIf _ (keptBut_posies h _ m1) h) _ m0) _ _ _ _ _ _ _ m2

theorem setPlot_plots (o : Origin) (i : Nat) (p : Plot) :
    (s.setPlot o i p).plots = tset Plot.blank s.plots i { p with stamp := s.clk.now } := by
  have hplots (c : Bool) : (onlyIf c (s.posyLeave i) s).plots = s.plots := by cases c <;> rfl
  unfold State.setPlot
  exact congrArg (tset Plot.blank · i _) (hplots _)

theorem plot_setPlot_same (o : Origin) (i : Nat) (p : Plot) : (s.setPlot o i p).plot i = { p with stamp := s.clk.now } := by
  rw [State.plot, setPlot_plots, tget_tset_same]

theorem plot_setPlot_other (o : Origin) (p : Plot) (h : j ≠ i) : (s.setPlot o i p).plot j = s.plot j := by
  rw [State.plot, setPlot_plots, tget_tset_other _ _ _ _ h]
  rfl

/-! ### The allocation slot of an owner (R577) -/

theorem keptBut_setSlot (h : s.keptBut t L) (o : Origin) (i : Nat) (k : KeySlot) (m0 : Part.sec ∈ L) (m1 : Part.auditQ ∈ L) :
    s.keptBut (t.setSlot o i k) L :=
  keptBut_audit (keptBut_sec h _ m0 m1) _ _ _ _ _ _ _ m1

theorem keptBut_setAlloc (h : s.keptBut t L) (o : Origin) (n : Nat) (v : Option Nat) (m0 : Part.sec ∈ L) (m1 : Part.auditQ ∈ L) :
    s.keptBut (t.setAlloc o n v) L := by
  unfold State.setAlloc
  split
  · exact h
  · exact keptBut_onlyIf _ (keptBut_audit (keptBut_sec h _ m0 m1) _ _ _ _ _ _ _ m1) h

theorem allocSlotOf_kept (s : State) (n : Nat) : s.keptBut (s.allocSlotOf n).2 [.sec, .auditQ, .freeCount] := by
  have hs := keptBut_refl s [.sec, .auditQ, .freeCount]
  unfold State.allocSlotOf
  split
  · exact hs
  · split
    · exact hs
    · split
      · exact hs
      · split
        · exact hs
        · exact keptBut_setAlloc (keptBut_setSlot (keptBut_free hs (s.free + 1) (by decide)) _ _ _ (by decide) (by decide)) _ _ _
            (by decide) (by decide)

/-! ### ALLOC (R72, R96) -/

/-- The place that PLOT_ARG0 names within its frame: the stack of a plot in one stack, the member of a set. -/
def State.argStack (s : State) : Nat := if s.bit F.PLOT_ARG0.MODE then 0 else s.rd F.PLOT_ARG0.STACK
def State.argMember (s : State) : Nat := if s.bit F.PLOT_ARG0.MODE then s.rd F.PLOT_ARG0.MEMBER else 0

/-- The entry that ALLOC makes of plot `i` under key slot `slot`, whose half in use is `half`. -/
def State.allocEntry (s : State) (i slot : Nat) (half : Bool) : Plot :=
  { stamp := 0, gen := (s.plot i).gen + 1, rights := BitVec.ofNat 16 (s.rd F.PLOT_ARG1.RIGHTS), member := s.argMember
    frame := s.rd F.PLOT_ARG0.FRAME, stack := s.argStack, rsvd := false, next := true, keyslot := slot
    owner := s.rd F.PLOT_ARG0.OWNER, rotating := false, epoch := half, mirror := s.bit F.PLOT_ARG0.MIRROR
    wide := s.bit F.PLOT_ARG0.MODE, state := .quarantine }

theorem allocPlot_ok {slot : Nat} (hi : i < 0xFFA) (hfree : (s.plot i).state = .free)
    (hbad : s.placeBad (s.bit F.PLOT_ARG0.MODE) s.argStack (s.rd F.PLOT_ARG0.FRAME) s.argMember = false)
    (hused : s.placeUsed (s.bit F.PLOT_ARG0.MODE) s.argStack (s.rd F.PLOT_ARG0.FRAME) s.argMember = false)
    (hsess : s.hasSession (s.rd F.PLOT_ARG0.OWNER) = true) (hslot : (s.allocSlotOf (s.rd F.PLOT_ARG0.OWNER)).1 = some slot) :
    ∃ u, s.keptBut u [.sec, .auditQ, .freeCount] ∧
      s.allocPlot i = (u.setPlot (Origin.fn 0) i (s.allocEntry i slot (u.curHalf slot)), pcOK) := by
  obtain ⟨u, hu⟩ : ∃ u, s.allocSlotOf (s.rd F.PLOT_ARG0.OWNER) = (some slot, u) := ⟨_, Prod.ext hslot rfl⟩
  have hkept : s.keptBut u [.sec, .auditQ, .freeCount] := by
    simpa only [hu] using allocSlotOf_kept s (s.rd F.PLOT_ARG0.OWNER)
  have hregs : u.regs = s.regs := (hkept .regs (by decide)).1
  unfold State.argStack State.argMember at hbad hused
  refine ⟨u, hkept, ?_⟩
  simp only [State.allocPlot, Nat.not_le.2 hi, hfree, hbad, hused, hsess, hu, bne_self_eq_false, Bool.not_true, Bool.false_eq_true,
    if_false, rd_of_regs hregs, bit_of_regs hregs]
  rfl

end

/-- Settles O31: the command runs at once, SEC gives the slot, and one entry is written. -/
theorem plotAllocates : Obligations.PlotAllocates := by
  unfold Obligations.PlotAllocates
  intro s i slot hbusy hheld hwait hi hfree hbad hused hsess hslot
  obtain ⟨u, hkept, hok⟩ := allocPlot_ok hi hfree hbad hused hsess hslot
  have hplots : u.plots = s.plots := hkept .plots (by decide)
  have hset := keptBut_setPlot (keptBut_refl u [.plots, .posies, .auditQ]) (Origin.fn 0) i (s.allocEntry i slot (u.curHalf slot))
    (by decide) (by decide) (by decide)
  have hregs : (u.setPlot (Origin.fn 0) i (s.allocEntry i slot (u.curHalf slot))).regs = s.regs :=
    (hset .regs (by decide)).1.trans (hkept .regs (by decide)).1
  refine ⟨_, exec_alloc hbusy hheld hwait, ?_⟩
  rw [hok]
  simp only [plotResult_plot, plot_setPlot_same]
  refine ⟨result_plotResult _ _, index_plotResult i _, done_plotResult _ _, busy_plotResult _ _, rfl, rfl, rfl, rfl, rfl, rfl, rfl, ?_,
    fun j hj => ?_, ?_, onlyRegs_of_regs hregs (plotResult_onlyRegs _ _)⟩
  · exact Nat.mod_eq_of_lt (rd_lt s F.PLOT_ARG1.RIGHTS 0 0)
  · rw [plot_setPlot_other _ _ hj, State.plot, hplots, State.plot]
  · exact (hset .mem (by decide)).trans (hkept .mem (by decide))

section
variable {s t u : State} {i : Nat}

/-! ### What SEC does for the FREE of a plot leaves the plot's entry as it is (R74, R578, R584) -/

/-- Plot `i` and the drains of freed plots are as they were. -/
structure SamePlot (i : Nat) (s t : State) : Prop where
  plot : t.plot i = s.plot i
  quar : t.quar = s.quar

theorem samePlot_refl (i : Nat) (s : State) : SamePlot i s s := ⟨rfl, rfl⟩

theorem SamePlot.trans (h : SamePlot i s t) (g : SamePlot i t u) : SamePlot i s u := ⟨g.plot.trans h.plot, g.quar.trans h.quar⟩

theorem SamePlot.of_kept {L : List Part} (h : s.keptBut t L) (hp : Part.plots ∉ L := by decide) (hq : Part.quar ∉ L := by decide) :
    SamePlot i s t :=
  ⟨congrArg (tget Plot.blank · i) (h .plots hp), h .quar hq⟩

theorem samePlot_setPlot {o : Origin} {j : Nat} {p : Plot} (h : i ≠ j) : SamePlot i s (s.setPlot o j p) :=
  ⟨plot_setPlot_other o p h, keptBut_setPlot (keptBut_refl s [.plots, .posies, .auditQ]) o j p (by decide) (by decide) (by decide) .quar
    (by decide)⟩

theorem samePlot_onlyIf {c : Bool} (h : SamePlot i s t) (g : SamePlot i s u) : SamePlot i s (onlyIf c t u) := by
  cases c
  · exact g
  · exact h

theorem samePlot_makeChange {j : Nat} (h : i ≠ j) (c : PlotChange) : SamePlot i s (s.makeChange j c) := by
  cases c with
  | turn was now => exact samePlot_onlyIf (samePlot_setPlot h) (samePlot_refl i s)
  | retire core => exact samePlot_onlyIf (samePlot_setPlot h) (samePlot_refl i s)
  | epoch slot e => exact samePlot_onlyIf (samePlot_setPlot h) (samePlot_refl i s)
  | rotated slot => exact samePlot_onlyIf (samePlot_setPlot h) (samePlot_refl i s)
  | keyslot old new =>
    have hturn : SamePlot i s (s.turnSlot old new) := ⟨rfl, rfl⟩
    exact samePlot_onlyIf (hturn.trans (samePlot_setPlot h)) (samePlot_refl i s)

/-- A change of another entry, at once or due in the next tick (R71). -/
theorem samePlot_change {j : Nat} (h : i ≠ j) (c : PlotChange) : SamePlot i s (s.change j c) := by
  unfold State.change
  split
  · exact ⟨rfl, rfl⟩
  · exact samePlot_makeChange h c

theorem samePlot_changes {l : List Nat} (h : i ∉ l) (c : PlotChange) : SamePlot i s (l.foldl (fun s j => s.change j c) s) :=
  foldl_inv (SamePlot i s) l _ (fun _ _ hj hs => hs.trans (samePlot_change (fun he : i = _ => h (he.symm ▸ hj)) c)) s (samePlot_refl i s)

/-- A plot whose FREE is pending does not name its slot (R578). -/
theorem not_naming (hrise : rising s.plots = true) (hstate : (s.plot i).state = .quarantine) (hnext : (s.plot i).next = false)
    (slot : Nat) : i ∉ (s.naming slot).map (·.1) := by
  intro hi
  obtain ⟨e, he, rfl⟩ := List.mem_map.1 hi
  obtain ⟨hmem, hcond⟩ := List.mem_filter.1 he
  have hentry : s.plot e.1 = e.2 := tget_of_mem _ hrise hmem
  rw [hentry] at hstate hnext
  simp [hstate, hnext] at hcond

theorem blockWrite_kept (s : State) (pa : Nat) (d : LineData) : s.keptBut (s.blockWrite pa d) [.mem] := by
  unfold State.blockWrite
  exact keptBut_ite (keptBut_refl s _) (keptBut_foldl _ _ (fun u l => keptBut_putLine (keptBut_refl u _) _ _ _ _ (by decide)) (keptBut_refl s _))

theorem samePlot_rotJournal (s : State) (r : Rotation) : SamePlot i s (s.rotJournal r) := by
  unfold State.rotJournal
  extract_lets r' base s'
  exact (SamePlot.of_kept (keptBut_trans (blockWrite_kept _ _ _) (blockWrite_kept _ _ _))).trans ⟨rfl, rfl⟩

theorem samePlot_startRotation (hrise : rising s.plots = true) (hstate : (s.plot i).state = .quarantine) (hnext : (s.plot i).next = false)
    (o : Origin) (slot : Nat) (freed : Option Nat) : SamePlot i s (s.startRotation o slot freed) := by
  unfold State.startRotation
  extract_lets
  split
  rename_i t ht
  extract_lets _ k' s1 covered s2
  have hdraw : t.plots = s.plots ∧ t.quar = s.quar := by
    cases ht
    exact ⟨rfl, rfl⟩
  have hslot := keptBut_setSlot (keptBut_refl t [.sec, .auditQ]) o slot k' (by decide) (by decide)
  have hplots : s1.plots = s.plots := (hslot .plots (by decide)).trans hdraw.1
  have hquar : s1.quar = s.quar := (hslot .quar (by decide)).trans hdraw.2
  clear_value s1
  have hplot : s1.plot i = s.plot i := congrArg (tget Plot.blank · i) hplots
  rw [← hplots] at hrise
  rw [← hplot] at hstate hnext
  have hs1 : SamePlot i s s1 := ⟨hplot, hquar⟩
  have hs2 : SamePlot i s s2 := hs1.trans (samePlot_changes (not_naming hrise hstate hnext slot) _)
  clear_value s2
  split
  extract_lets s3
  have hs3 : SamePlot i s2 s3.commitHist := ⟨rfl, rfl⟩
  exact (hs2.trans hs3).trans (samePlot_rotJournal _ _)

/-- What SEC does for the FREE of plot `i`: the entry stays, and the drain may only learn that the key action is done (R578). -/
theorem keyAction_quarantine (hrise : rising s.plots = true) (hstate : (s.plot i).state = .quarantine) (hnext : (s.plot i).next = false)
    {q : Quarantine} (hq : tget none s.quar i = some q) :
    (s.keyAction i).plot i = s.plot i ∧ ∃ done, tget none (s.keyAction i).quar i = some { q with keyDone := done } := by
  have hsame {t : State} (h : SamePlot i s t) : t.plot i = s.plot i ∧ ∃ done, tget none t.quar i = some { q with keyDone := done } :=
    ⟨h.plot, q.keyDone, by rw [h.quar, hq]⟩
  unfold State.keyAction
  extract_lets slot report
  split
  · exact ⟨rfl, true, by simp [report, hq]⟩
  · split
    · exact hsame (samePlot_refl i s)
    · split
      · exact hsame ⟨rfl, rfl⟩
      · split
        · exact hsame ⟨rfl, rfl⟩
        · exact hsame (samePlot_startRotation hrise hstate hnext _ _ _)

/-! ### FREE (R74, R92, R98) -/

/-- The state in which SEC takes up the FREE of plot `i`: the entry is in QUARANTINE, and the drain counts the requests so far. -/
def State.freed (s : State) (i : Nat) : State :=
  { s.setPlot (Origin.fn 0) i { s.plot i with state := .quarantine, next := false } with
    quar := tset none s.quar i (some ⟨s.nextId, false, (s.plot i).state == .retired⟩) }

theorem freed_plots (s : State) (i : Nat) : (s.freed i).plots =
    tset Plot.blank s.plots i { s.plot i with state := .quarantine, next := false, stamp := s.clk.now } := setPlot_plots (Origin.fn 0) i _

theorem plot_freed (s : State) (i : Nat) :
    (s.freed i).plot i = { s.plot i with state := .quarantine, next := false, stamp := s.clk.now } := plot_setPlot_same (Origin.fn 0) i _

theorem quar_freed (s : State) (i : Nat) : tget none (s.freed i).quar i = some ⟨s.nextId, false, (s.plot i).state == .retired⟩ :=
  tget_tset_same _ _ _ _

theorem freePlot_ok (hi : i < 0xFFA) (h : (s.plot i).state = .openPlot ∨ (s.plot i).state = .sealed ∨ (s.plot i).state = .retired) :
    s.freePlot i = ((s.freed i).keyAction i, pcOK) := by
  have hset := keptBut_setPlot (keptBut_refl s [.plots, .posies, .auditQ]) (Origin.fn 0) i { s.plot i with state := .quarantine, next := false }
    (by decide) (by decide) (by decide)
  have hquar := hset .quar (by decide)
  have hid := hset .nextId (by decide)
  have hlive : ((s.plot i).state == .free || (s.plot i).state == .quarantine) = false := by
    rcases h with h | h | h <;> rw [h] <;> rfl
  simp only [State.freePlot, Nat.not_le.2 hi, hlive, Bool.false_eq_true, if_false]
  rw [State.freed, ← show _ = s.nextId from hid, ← show _ = s.quar from hquar]

theorem freePlot_badState (hi : i < 0xFFA) (h : (s.plot i).state = .free ∨ (s.plot i).state = .quarantine) :
    s.freePlot i = (s, pcBadState) := by
  have hnot : ((s.plot i).state == .free || (s.plot i).state == .quarantine) = true := by
    rcases h with h | h <;> rw [h] <;> rfl
  simp only [State.freePlot, Nat.not_le.2 hi, hnot, if_false, if_true]

end

/-- Settles O32: the entry is written before SEC's key action, which leaves it as it is. -/
theorem plotFrees : Obligations.PlotFrees := by
  unfold Obligations.PlotFrees
  intro s i hbusy hheld hwait hi hrise
  refine ⟨fun hstate => ?_, fun hstate => ?_⟩
  · have hplot := plot_freed s i
    have hfreed : rising (s.freed i).plots = true := freed_plots s i ▸ rising_tset _ _ _ hrise
    obtain ⟨hsame, done, hdone⟩ := keyAction_quarantine hfreed (congrArg Plot.state hplot) (congrArg Plot.next hplot) (quar_freed s i)
    have hentry := hsame.trans hplot
    refine ⟨_, exec_free hbusy hheld hwait, ?_⟩
    rw [freePlot_ok hi hstate]
    simp only [plotResult_plot, plotResult_quar]
    exact ⟨result_plotResult _ _, index_plotResult i _, congrArg Plot.state hentry, congrArg Plot.next hentry, _, hdone, rfl, rfl⟩
  · refine ⟨_, exec_free hbusy hheld hwait, ?_⟩
    rw [freePlot_badState hi hstate]
    exact ⟨result_plotResult _ _, index_plotResult i _, keptBut_mono (plotResult_kept _ _) (by decide), plotResult_onlyRegs _ _⟩

end Sys2Proof.Machine
end

section
/-! A request of a fabric port arrives at a doorkeeper and is counted, answered or queued (R70, R76, R120, R146 to R148, R152, R285, R807,
R811). -/

set_option Elab.async false

namespace Sys2Proof.Machine

/-- The rows of the opcode table that bring a request of a fabric port, each with its opcode. -/
def fabricRows : List ((Cluster → Fin 25 → FnIx → Msg → Instr) × Nat) :=
  [(Instr.rd, opRD), (.wr, opWR), (.wrp, opWRP), (.aadd, opAADD), (.acas, opACAS), (.contrib, opCONTRIB), (.lkacq, opLKACQ),
    (.lkrel, opLKREL), (.stamp, opSTAMP)]

section
variable {s t : State} {L : List Part} {l : List (RegName × Nat × Nat)} {k : Cluster} {p : Fin 25} {fn : FnIx} {m : Msg}

/-! ### Counters -/

theorem rd_incRc_same {g : Fld} (h : g.fits) (i j n : Nat) : (s.incRc g i j n).rd g i j = min (2 ^ g.len - 1) (s.rd g i j + n) := by
  have hpos := Nat.two_pow_pos g.len
  exact (rd_wr_same (s := s) h _).trans (Nat.mod_eq_of_lt (by omega))

theorem onlyRegs_incRc (h : s.onlyRegs t l) (g : Fld) (i j n : Nat) (hm : (g.reg, i % 2 ^ 14, j % 2 ^ 14) ∈ l) :
    s.onlyRegs (t.incRc g i j n) l :=
  onlyRegs_wr h g _ i j hm

theorem portCounter_mem (p : Fin 25) : (RegName.PORT_ERRCNT, p.val % 2 ^ 14, 0 % 2 ^ 14) ∈ [(RegName.PORT_ERRCNT, p.val, 0)] :=
  mem_elem (p.isLt.trans (by decide)) List.mem_cons_self

/-! ### The rows, and the arrival (R120, R147, R148, R152) -/

theorem exec_fabricRow {c : (Cluster → Fin 25 → FnIx → Msg → Instr) × Nat} (hc : c ∈ fabricRows) :
    exec (c.1 k p fn m) s = fabricRow c.2 k p fn m s := by
  revert c
  simp only [fabricRows, List.forall_mem_cons]
  exact ⟨rfl, rfl, rfl, rfl, rfl, rfl, rfl, rfl, rfl, fun _ h => absurd h List.not_mem_nil⟩

theorem fabricRow_ignored {op : Nat} (hcrc : hcrcOk m.hdr = true) (hwf : msgWf op m = false) : fabricRow op k p fn m s = .next s := by
  simp [fabricRow, onlyIf, hcrc, hwf]

theorem fabricRow_arrives {op : Nat} (h : hcrcOk m.hdr = false ∨ msgWf op m = true) :
    fabricRow op k p fn m s = .next (s.arrive k p fn .port m) := by
  rcases h with h | h <;> simp [fabricRow, onlyIf, h]

theorem arrive_counted {why : Purpose} {req : Nat} (hclk : s.bit F.CLOCK_STATUS.FCLK_PRESENT = true)
    (h : s.inBoot = true ∨ (s.bit F.PORT_LINK.UP req = true ∧ (hcrcOk m.hdr = false ∨ s.hasCredit k req m.hdr m.beats = false))) :
    s.arrive k req fn why m = s.incRc F.PORT_ERRCNT.HDR_CRC req := by
  rcases h with hboot | ⟨hup, hcrc | hcredit⟩
  · simp [State.arrive, hclk, hboot]
  · simp [State.arrive, hclk, hup, hcrc]
  · simp [State.arrive, hclk, hup, hcredit]

theorem arrive_accept {why : Purpose} {req : Nat} (hclk : s.bit F.CLOCK_STATUS.FCLK_PRESENT = true)
    (hup : s.bit F.PORT_LINK.UP req = true) (hboot : s.inBoot = false) (hcredit : s.hasCredit k req m.hdr m.beats = true)
    (hcrc : hcrcOk m.hdr = true) : s.arrive k req fn why m = s.accept k req fn (s.tenantOf req fn none) why m := by
  simp [State.arrive, hclk, hup, hboot, hcredit, hcrc]

/-! ### Answers at acceptance (R807) -/

theorem keptBut_addFlight (h : s.keptBut t L) (f : Flight) (m0 : Part.flights ∈ L) (m1 : Part.nextId ∈ L) :
    s.keptBut (t.addFlight f) L := by
  intro p hp
  have h := h p hp
  cases p
  case flights => exact absurd m0 hp
  case nextId => exact absurd m1 hp
  all_goals exact h

/-- From `s` to `t` a request of port `p` with header `h` joins the requests, to be answered `r` and `d` 12 ticks from now, and nothing else
changes but, perhaps, the error counters of the port. -/
def State.answersPort (s t : State) (p : Fin 25) (h : Header) (r d : Nat) : Prop :=
  ∃ g, t.flights = s.flights ++ [g] ∧ g.hdr = h ∧ g.stage = .replying (s.now + 12) ∧ g.result = r ∧ g.detail = d ∧
    s.keptBut t [.flights, .nextId, .regs] ∧ s.onlyRegs t [(.PORT_ERRCNT, p, 0)]

theorem answer_answersPort (hkept : s.keptBut t [.regs]) (hregs : s.onlyRegs t [(.PORT_ERRCNT, p, 0)]) (f : Flight) (r d : Nat) :
    s.answersPort (t.answer f r d) p f.hdr r d := by
  have hflights : t.flights = s.flights := hkept .flights (by decide)
  have hnow : t.now = s.now := congrArg (fun c : Clk => c.now.toNat) (hkept .clk (by decide))
  exact ⟨_, congrArg (· ++ _) hflights, rfl, congrArg (fun n => Stage.replying (n + 12)) hnow, rfl, rfl,
    keptBut_addFlight (keptBut_mono hkept (by decide)) _ (by decide) (by decide), hregs⟩

theorem accept_preCheck {req : Nat} {tenant : Option Nat} {why : Purpose} {r d : Nat} (h : s.preCheck k req m.hdr = some (r, d)) :
    s.accept k req fn tenant why m =
      (onlyIf (d == 0x08) (s.incRc F.PORT_ERRCNT.TAG_REUSE req) s).answer (s.mkFlight k req fn tenant why m) r d := by
  simp only [State.accept, h]

theorem accept_denied {req : Nat} {tenant : Option Nat} {r d : Nat} (h : s.preCheck k req m.hdr = none)
    (ha : s.access req fn tenant m.hdr = .deny r d) :
    s.accept k req fn tenant .port m = s.answer (s.mkFlight k req fn tenant .port m) r d := by
  simp only [State.accept, h, ha, State.mirrorAccess]

/-- A request that fails a step of R120 before the access check, or the access check, is answered with that step's RESULT and DETAIL. -/
theorem accept_answersPort {tenant : Option Nat} {r d : Nat} (h : s.preCheck k p m.hdr = some (r, d) ∨
      (s.preCheck k p m.hdr = none ∧ s.access p fn tenant m.hdr = .deny r d)) :
    s.answersPort (s.accept k p fn tenant .port m) p m.hdr r d := by
  rcases h with h | ⟨hpre, h⟩
  · rw [accept_preCheck h]
    exact answer_answersPort (keptBut_onlyIf _ (keptBut_incRc (keptBut_refl s _) _ _ _ _ (by decide)) (keptBut_refl s _))
      (onlyRegs_onlyIf _ (onlyRegs_incRc (onlyRegs_refl s _) _ _ _ _ (portCounter_mem p)) (onlyRegs_refl s _)) _ r d
  · rw [accept_denied hpre h]
    exact answer_answersPort (keptBut_refl s _) (onlyRegs_refl s _) _ r d

/-! ### UNKNOWN_OPCODE_REQUEST (R811) -/

theorem exec_unknownOpcodeRequest (h : unknownWf m = true) :
    exec (.unknownOpcodeRequest k p fn m) s = .next (s.arrive k p fn .port m) := by
  show execUnknownOpcodeRequest k p fn m s = _
  simp [execUnknownOpcodeRequest, onlyIf, h]

/-- A message with an unknown opcode needs no data credit. -/
theorem hasCredit_unknown (h : unknownWf m = true) {req : Nat} (hc : 0 < (s.credit k req).hdr) : s.hasCredit k req m.hdr m.beats = true := by
  simp only [unknownWf, Bool.and_eq_true, Bool.not_eq_true', List.isEmpty_iff] at h
  obtain ⟨⟨hop, hbeats⟩, -⟩ := h
  have hcontrib : (hOp m.hdr == opCONTRIB) = false := by
    refine beq_eq_false_iff_ne.2 fun he => ?_
    rw [he] at hop
    exact absurd hop (by decide)
  simp [State.hasCredit, dataCredits, hbeats, hcontrib, hc]

theorem preCheck_unknown (h : unknownWf m = true) {req : Nat} (hhold : s.inHold = false) (hen : s.bit F.PORT_CFG.ENABLE req = true)
    (hzero : mustBeZero m.hdr (s.rd F.PORT_EFF.TAGBITS req) = false) : s.preCheck k req m.hdr = some (rUNSUP, 0x04) := by
  simp only [unknownWf, Bool.and_eq_true] at h
  obtain ⟨⟨hop, -⟩, -⟩ := h
  simp only [State.preCheck, hhold, hen, hzero, hop, Bool.not_true, Bool.false_eq_true, if_false, if_true]

theorem arrive_unknown (hclk : s.bit F.CLOCK_STATUS.FCLK_PRESENT = true) (hup : s.bit F.PORT_LINK.UP p = true) (hboot : s.inBoot = false)
    (hwf : unknownWf m = true) (hcredit : 0 < (s.credit k p).hdr) (hcrc : hcrcOk m.hdr = true) (hhold : s.inHold = false)
    (hen : s.bit F.PORT_CFG.ENABLE p = true) (hzero : mustBeZero m.hdr (s.rd F.PORT_EFF.TAGBITS p) = false) :
    s.arrive k p fn .port m = s.answer (s.mkFlight k p fn (s.tenantOf p fn none) .port m) rUNSUP 0x04 := by
  rw [arrive_accept hclk hup hboot (hasCredit_unknown hwf hcredit) hcrc, accept_preCheck (preCheck_unknown hwf hhold hen hzero)]
  rfl

end

/-- Settles O47: the arrival of a message, and what the first step that fails answers. -/
theorem fabricRequestsRefused : Obligations.FabricRequestsRefused := by
  unfold Obligations.FabricRequestsRefused
  intro s k p fn m hclk
  refine ⟨fun c hc => ⟨fun hcrc hwf => ?_, fun hcarried h => ?_, fun hup hboot hwf hcredit hcrc r d h => ?_⟩,
    fun hup hboot hwf hcredit hcrc hhold hen hzero => ?_⟩
  · exact (exec_fabricRow hc).trans (fabricRow_ignored hcrc hwf)
  · refine ⟨_, (exec_fabricRow hc).trans (fabricRow_arrives hcarried), ?_⟩
    rw [arrive_counted hclk h]
    exact ⟨rd_incRc_same (by decide) _ _ _, keptBut_incRc (keptBut_refl s _) _ _ _ _ (by decide),
      onlyRegs_incRc (onlyRegs_refl s _) _ _ _ _ (portCounter_mem p)⟩
  · obtain ⟨g, hg⟩ := accept_answersPort h
    refine ⟨_, g, (exec_fabricRow hc).trans (fabricRow_arrives (.inr hwf)), ?_⟩
    rwa [arrive_accept hclk hup hboot hcredit hcrc]
  · refine ⟨_, _, (exec_unknownOpcodeRequest hwf).trans (congrArg Host.Outcome.next
      (arrive_unknown hclk hup hboot hwf hcredit hcrc hhold hen hzero)), rfl, rfl, rfl, rfl, ?_⟩
    exact keptBut_addFlight (keptBut_refl s _) _ (by decide) (by decide)

section
variable {s t : State} {L : List Part}

/-! ### What is due before the charges of a tick (R221, R289, R290) -/

/-- The registers of the token counts. -/
def tokenRegs : List RegName := [.TRF_SUB_TOKENS, .TRF_SVC_TOKENS, .TRF_PORT_TOKENS]

theorem reg_setTokens {r : RegName} (h : r ∉ tokenRegs) (v : Nat) (b : Bkt) (i j : Nat) : (s.setTokens v b).reg r i j = s.reg r i j := by
  simp only [tokenRegs, List.mem_cons, List.not_mem_nil, or_false, not_or] at h
  obtain ⟨hsub, hsvc, hport⟩ := h
  cases b with
  | sub t => exact reg_wr_other (f := F.TRF_SUB_TOKENS.TOKENS) hsub _ _ _
  | svc t c => exact reg_wr_other (f := F.TRF_SVC_TOKENS.TOKENS) hsvc _ _ _
  | port p => exact reg_wr_other (f := F.TRF_PORT_TOKENS.TOKENS) hport _ _ _

theorem keptBut_setTokens (h : s.keptBut t L) (v : Nat) (b : Bkt) (m0 : Part.regs ∈ L) : s.keptBut (t.setTokens v b) L := by
  cases b with
  | sub t => exact keptBut_wr h _ _ _ _ m0
  | svc t c => exact keptBut_wr h _ _ _ _ m0
  | port p => exact keptBut_wr h _ _ _ _ m0

theorem reg_refillDue {r : RegName} (h : r ∉ tokenRegs) (i j : Nat) : s.refillDue.reg r i j = s.reg r i j := by
  have hrefill (u : State) (b : Bkt) : (u.refill b).reg r i j = u.reg r i j := by
    unfold State.refill onlyIf
    split
    · exact reg_setTokens h _ b i j
    · rfl
  have hset (u : State) (n : Nat) : ({ u with refilled := n } : State).reg r i j = u.reg r i j := rfl
  have hfold (l : List Bkt) : (l.foldl State.refill s).reg r i j = s.reg r i j := foldl_keep (fun u => u.reg r i j) l _ hrefill s
  unfold State.refillDue
  split
  · exact (hset _ _).trans (hfold allBkts)
  · rfl

theorem keptBut_refilled (h : s.keptBut t L) (n : Nat) (m0 : Part.refilled ∈ L) : s.keptBut { t with refilled := n } L := by
  intro p hp
  have h := h p hp
  cases p
  case refilled => exact absurd m0 hp
  all_goals exact h

theorem refillDue_kept (s : State) : s.keptBut s.refillDue [.regs, .refilled] := by
  have hfill (u : State) (b : Bkt) : u.keptBut (u.refill b) [.regs, .refilled] :=
    keptBut_onlyIf _ (keptBut_setTokens (keptBut_refl u _) _ b (by decide)) (keptBut_refl u _)
  exact keptBut_ite (keptBut_refilled (keptBut_foldl allBkts _ hfill (keptBut_refl s _)) _ (by decide)) (keptBut_refl s _)

theorem trkClear_kept (s : State) : s.keptBut s.trkClear [.pcs, .throttles, .thrOff, .trkWindow] := by
  unfold State.trkClear
  split
  · exact keptBut_refl s _
  · intro p hp
    cases p
    case pcs => exact absurd (by decide) hp
    case throttles => exact absurd (by decide) hp
    case thrOff => exact absurd (by decide) hp
    case trkWindow => exact absurd (by decide) hp
    case regs => exact ⟨rfl, rfl⟩
    all_goals rfl

theorem throttles_trkClear (h : s.throttles = []) : s.trkClear.throttles = [] := by
  unfold State.trkClear
  split
  · exact h
  · rfl

/-- The state that a request meets at the policing of its tick (R285): the refill and the clearing of the trackers that are due have been
made. -/
def State.due (s : State) : State := s.refillDue.trkClear

theorem due_kept (s : State) : s.keptBut s.due [.regs, .refilled, .pcs, .throttles, .thrOff, .trkWindow] :=
  keptBut_trans (keptBut_mono (refillDue_kept s) (by decide)) (keptBut_mono (trkClear_kept s.refillDue) (by decide))

theorem throttles_due (h : s.throttles = []) : s.due.throttles = [] :=
  throttles_trkClear ((refillDue_kept s .throttles (by decide)).trans h)

theorem reg_due {r : RegName} (h : r ∉ tokenRegs) (i j : Nat) : s.due.reg r i j = s.reg r i j := by
  have hregs : s.due.regs = s.refillDue.regs := (trkClear_kept s.refillDue .regs (by decide)).1
  rw [State.reg_eq, hregs, ← State.reg_eq, reg_refillDue h]

/-- A refill changes neither whether a bucket is enabled nor what it does. -/
theorem bEn_due (b : Bkt) : s.due.bEn b = s.bEn b := by
  have hctl : s.due.bCtl b = s.bCtl b := by
    cases b with
    | sub t => exact reg_due (by decide) t 0
    | svc t c => exact reg_due (by decide) t c
    | port p => exact reg_due (by decide) p 0
  unfold State.bEn
  rw [hctl]

theorem bShape_due (b : Bkt) : s.due.bShape b = s.bShape b := by
  have hreg (r : RegName) (i j : Nat) : s.due.reg0 r i j = s.reg0 r i j :=
    congrArg (tget (r.reset i j) · (regKey r i j)) (due_kept s .regs0 (by decide))
  have hctl : s.due.bCtl0 b = s.bCtl0 b := by
    cases b with
    | sub t => exact hreg _ t 0
    | svc t c => exact hreg _ t c
    | port p => exact hreg _ p 0
  unfold State.bShape
  rw [hctl]

/-- The buckets of a path that police. -/
def State.policing (s : State) (bs : List Bkt) : List Bkt := bs.filter fun b => s.bEn b && !s.bShape b

theorem policing_due (bs : List Bkt) : s.due.policing bs = s.policing bs := by
  simp only [State.policing, bEn_due, bShape_due]

/-- The request enters its ingress queue when no bucket polices it and no throttle is in force (R285). -/
theorem police_queued {f : Flight} (hport : f.req < 25) (hpol : s.policing (path (f.tenant.getD 0) (hCls f.hdr) f.req) = [])
    (hthr : s.throttles = []) : s.police f = s.due.addFlight { f with charged := [] } := by
  have htenant : s.due.chargeTenant f = f.tenant.getD 0 := by
    have h25 : (f.req == 25 || f.req == 26) = false := by simp; omega
    simp only [State.chargeTenant, h25, Bool.false_eq_true, if_false]
  have hnone : s.due.throttleOf f = none := by rw [State.throttleOf, throttles_due hthr, List.find?_nil]
  have hpol' : s.due.policing (path (s.due.chargeTenant f) (hCls f.hdr) f.req) = [] := by rw [policing_due, htenant, hpol]
  unfold State.due State.policing at hpol'
  unfold State.due at hnone
  unfold State.police
  rw [if_neg (by omega)]
  simp only [hpol', hnone, List.any_nil, Option.any_none, Bool.false_eq_true, if_false]
  rfl

end

section
variable {s t : State} {L : List Part} {k : Cluster} {p : Fin 25} {fn : FnIx} {m : Msg}

/-! ### A request that passes every step (R70, R76, R146) -/

theorem directPath_port (k : Cluster) (p : Fin 25) : directPath k p = false := by
  have hk : (p.val == 39) = false := by simp; omega
  have hp : (p.val == 27 + k.val) = false := by simp; omega
  simp [directPath, hk, hp]

theorem takeCredit_port (s : State) (k : Cluster) (p : Fin 25) (m : Msg) : s.takeCredit k p m = s.setCredit k p
    { s.credit k p with hdr := (s.credit k p).hdr - 1, data := (s.credit k p).data - dataCredits m.hdr m.beats } := by
  simp only [State.takeCredit, directPath_port, Bool.false_eq_true, if_false]

theorem credit_setCredit_same (k p : Nat) (c : Credit) : (s.setCredit k p c).credit k p = c := tget_tset_same _ _ _ _

theorem accept_queued (hpre : s.preCheck k p m.hdr = none) (hacc : s.access p fn (s.tenantOf p fn none) m.hdr = .accept)
    (hhome : (s.place (hLine m.hdr) (s.plot (hPlot m.hdr))).1 = k.val)
    (hpol : s.policing (path ((s.tenantOf p fn none).getD 0) (hCls m.hdr) p) = []) (hthr : s.throttles = []) :
    s.accept k p fn (s.tenantOf p fn none) .port m =
      (s.due.addFlight (s.mkFlight k p fn (s.tenantOf p fn none) .port m)).takeCredit k p m := by
  have hloc : (s.mkFlight k p fn (s.tenantOf p fn none) .port m).loc.k = k.val := hhome
  have hpolice : s.police (s.mkFlight k p fn (s.tenantOf p fn none) .port m) = s.due.addFlight (s.mkFlight k p fn (s.tenantOf p fn none) .port m) :=
    police_queued p.isLt hpol hthr
  have hresult : (s.mkFlight k p fn (s.tenantOf p fn none) .port m).result = rOK := rfl
  have hunsealed : (s.mkFlight k p fn (s.tenantOf p fn none) .port m).isSealed = false := rfl
  simp only [State.accept, hpre, hacc, State.mirrorAccess, hloc, ne_eq, not_true_eq_false, if_false]
  generalize s.mkFlight k p fn (s.tenantOf p fn none) .port m = f at hpolice hresult hunsealed ⊢
  have hsame : { f with isSealed := Access.accept == Access.sealed } = f := by
    cases f
    cases hunsealed
    rfl
  have hlast : (s.due.addFlight f).flights.getLast? = some f := List.getLast?_concat
  have hkept : (f.result == rDROPPED) = false := by
    rw [hresult]
    rfl
  simp only [hsame, hpolice, hlast, hkept, State.markMirror, Bool.false_eq_true, if_false]

end

/-- Settles O48: the arrival of a message that passes every step, and the queueing of its request in the state that is due. -/
theorem fabricRequestsAccepted : Obligations.FabricRequestsAccepted := by
  unfold Obligations.FabricRequestsAccepted
  intro s k p fn m hclk hup hboot c hc hwf hcredit hcrc hpre hacc hhome hpol hthr
  have harrive := (arrive_accept hclk hup hboot hcredit hcrc).trans (accept_queued hpre hacc hhome hpol hthr)
  refine ⟨_, s.mkFlight k p fn (s.tenantOf p fn none) .port m, (exec_fabricRow hc).trans (fabricRow_arrives (.inr hwf)), ?_⟩
  rw [harrive, takeCredit_port]
  have hflights : s.due.flights = s.flights := due_kept s .flights (by decide)
  have hid : s.due.nextId = s.nextId := due_kept s .nextId (by decide)
  have hcredits : s.due.credits = s.credits := due_kept s .credits (by decide)
  have hcr : (s.due.addFlight (s.mkFlight k p fn (s.tenantOf p fn none) .port m)).credit k p = s.credit k p :=
    congrArg (tget (⟨0, 0, 0⟩ : Credit) · (k.val * 39 + p.val)) hcredits
  refine ⟨congrArg (· ++ _) hflights, rfl, rfl, rfl, rfl, rfl, rfl, rfl, rfl, rfl, List.length_replicate, fun h => ?_, ?_, congrArg (· + 1) hid, ?_⟩
  · exact ⟨if_neg h, if_neg h⟩
  · rw [credit_setCredit_same, hcr]
  · exact keptBut_setCredit (keptBut_addFlight (keptBut_refl s.due _) _ (by decide) (by decide)) _ _ _ (by decide)

end Sys2Proof.Machine
end

section
/-! Links, locks and the hand-over of replies (R106, R132, R134 to R140, R149, R150, R153, R194). -/

set_option Elab.async false

namespace Sys2Proof.Machine

/-! ### The link of a Lantern's port -/

/-- The state after reset, taken to HOLD with the link of Lantern 0's port brought up, as the entry into HOLD does (R153, PORT_LINK.UP). -/
def State.lanternLinked : State := (State.reset.wr F.GLOBAL_STATE.STATE 1).linkUp 27 (ownDesc 27 0)

theorem up_lanternLinked : State.lanternLinked.bit F.PORT_LINK.UP 27 = true := by decide +kernel

/-- The link of a Lantern's port stays up until the next reset (R153, PORT_LINK.UP): PORT_LINK_DOWN of it changes nothing. -/
theorem exec_portLinkDown_lantern {s : State} {p : PortIx} (hp : 27 ≤ p.val) : exec (.portLinkDown p) s = .next s := by
  have hmirror : ¬(p.val = 25 ∨ p.val = 26) := by omega
  have hfabric : (decide (p.val < 25) && s.bit F.PORT_LINK.UP p) = false := by simp; omega
  change execPortLinkDown p s = _
  rw [execPortLinkDown, if_neg hmirror, onlyIf_neg hfabric]

/-- Refutes O50: the statement takes the link of a Lantern's port for one that PORT_LINK_DOWN takes down, as it excepts ports 25 and 26 only.
The link of port 27 is up, and the command leaves it so. -/
theorem not_links : ¬ Obligations.Links := by
  unfold Obligations.Links
  intro h
  obtain ⟨-, hdown, -⟩ := h State.lanternLinked 27
  obtain ⟨t, hexec, hup, -⟩ := hdown (by decide) (by decide) up_lanternLinked
  obtain rfl := Host.Outcome.next.inj ((exec_portLinkDown_lantern (by decide)).symm.trans hexec)
  exact absurd (up_lanternLinked.symm.trans hup) (by decide)

section
variable {s t : State} {L : List Part} {k : Nat} {b : Bool} {n : Nat} {l : Lock} {f : Flight}

/-! ### The lock table (R134, R136) -/

theorem keptBut_locks (h : s.keptBut t L) (T : List Lock) (m0 : Part.locks ∈ L) : s.keptBut { t with locks := T } L := by
  intro p hp
  have h := h p hp
  cases p
  case locks => exact absurd m0 hp
  all_goals exact h

theorem lockOf_cluster (h : s.lockOf k b n = some l) : l.k = k := by
  have hkey := List.find?_some h
  simp only [Bool.and_eq_true, beq_iff_eq] at hkey
  exact hkey.1.1

/-- An update of the entries that keeps their names commutes with the look-up of a name. -/
theorem lockOf_map {g : Lock → Lock} (hkey : ∀ x, (g x).k = x.k ∧ (g x).plotScope = x.plotScope ∧ (g x).name = x.name)
    (ht : t.locks = s.locks.map g) : t.lockOf k b n = (s.lockOf k b n).map g := by
  have hsame : (fun x => x.k == k && x.plotScope == b && x.name == n) ∘ g = fun x : Lock => x.k == k && x.plotScope == b && x.name == n := by
    funext x
    obtain ⟨hk, hscope, hname⟩ := hkey x
    simp only [Function.comp_apply, hk, hscope, hname]
  rw [State.lockOf, ht, List.find?_map, hsame, State.lockOf]

/-! ### A lock breaks (R138 to R140) -/

/-- The name of a broken lock finds it, broken and no longer about to break. -/
theorem lockOf_breakLock (h : s.lockOf k b n = some l) :
    (s.breakLock l).lockOf k b n = some { l with broken := true, breaking := false } := by
  have hmap := lockOf_map (s := s) (t := s.breakLock l) (k := k) (b := b) (n := n)
    (g := fun x => if x == l then { x with broken := true, breaking := false } else x)
    (fun x => by split <;> exact ⟨rfl, rfl, rfl⟩) rfl
  rw [hmap, h, Option.map_some, if_pos (beq_self_eq_true l)]

theorem breaks_breakLock (l : Lock) :
    (s.breakLock l).rd F.PORT_LOCK.BREAKS l.k = min (2 ^ F.PORT_LOCK.BREAKS.len - 1) (s.rd F.PORT_LOCK.BREAKS l.k + 1) :=
  rd_incRc_same (by decide) _ _ _

theorem breakLock_kept (l : Lock) : s.keptBut (s.breakLock l) [.locks, .regs] :=
  keptBut_incRc (keptBut_locks (keptBut_refl s _) _ (by decide)) _ _ _ _ (by decide)

theorem breakLock_onlyRegs (hl : l.k < 2 ^ 14) : s.onlyRegs (s.breakLock l) [(.PORT_LOCK, l.k, 0)] :=
  onlyRegs_incRc (fun _ _ _ _ => rfl) _ _ _ _ (mem_elem hl List.mem_cons_self)

theorem exec_lockBreak {k : Cluster} (h : s.lockOf k b n = some l) (hbreaking : l.breaking = true) (hbroken : l.broken = false) :
    exec (.lockBreak k b n) s = .next (s.breakLock l) := by
  change execLockBreak k b n s = _
  simp only [execLockBreak, h, hbreaking, hbroken, onlyIf, Bool.not_false, Bool.and_self, if_true]

theorem exec_lockLeaseExpiry {k : Cluster} (h : s.lockOf k b n = some l) (hbroken : l.broken = false) (hlease : l.lease ≤ s.now) :
    exec (.lockLeaseExpiry k b n) s =
      .next { s with locks := s.locks.map fun x => if x == l then { x with breaking := true } else x } := by
  change execLockLeaseExpiry k b n s = _
  simp only [execLockLeaseExpiry, h, hbroken, decide_eq_true hlease, onlyIf, Bool.not_false, Bool.and_self, if_true]

/-! ### The update of a grant (R137) -/

/-- The lock that a request acquires: its requester holds it with its port's epoch until the lease has run out. -/
def State.acquired (s : State) (f : Flight) : Lock :=
  ⟨f.k, hLkPlot f.hdr, if hLkPlot f.hdr then f.plot else hLine f.hdr, f.req, s.rd F.PORT_LINK.EPOCH f.req, s.now + usTicks f.lease, false, false⟩

theorem lockStep_acquire (hfree : s.lockOf f.k (hLkPlot f.hdr) (if hLkPlot f.hdr then f.plot else hLine f.hdr) = none)
    (hop : hOp f.hdr = opLKACQ) (hroom : s.locksIn f.k < 256) :
    s.lockStep f = (({ s with locks := s.locks ++ [s.acquired f] }).syncLocks f.k, rOK, 0, 0) := by
  have hacq : (hOp f.hdr == opLKACQ) = true := beq_iff_eq.2 hop
  simp only [State.lockStep, hfree, hacq, hroom, Bool.not_true, Bool.false_eq_true, if_false, if_true, State.acquired]

theorem lockStep_release (hfree : s.lockOf f.k (hLkPlot f.hdr) (if hLkPlot f.hdr then f.plot else hLine f.hdr) = none)
    (hop : hOp f.hdr = opLKREL) : s.lockStep f = (s, rDENIED, 0x17, 0) := by
  have hacq : (hOp f.hdr == opLKACQ) = false := by rw [hop]; rfl
  simp only [State.lockStep, hfree, hacq, Bool.not_false, if_true]

end

/-- Settles O51: what the update of a grant does to a name no entry has, and the lock that each of the two commands finds. -/
theorem locks : Obligations.Locks := by
  unfold Obligations.Locks
  refine fun s => ⟨fun f hfree => ⟨fun hop hroom => ?_, lockStep_release hfree⟩,
    fun k b n l hl hbroken => ⟨fun hlease => ?_, fun hbreaking => ?_⟩⟩
  · exact ⟨_, lockStep_acquire hfree hop hroom, rfl, keptBut_wr (keptBut_locks (keptBut_refl s _) _ (by decide)) _ _ _ _ (by decide)⟩
  · exact ⟨_, exec_lockLeaseExpiry hl hbroken hlease, rfl, keptBut_locks (keptBut_refl s _) _ (by decide)⟩
  · have hk : l.k = k.val := lockOf_cluster hl
    have hregs := breakLock_onlyRegs (s := s) (l := l) (hk ▸ k.isLt.trans (by decide))
    have hbreaks := breaks_breakLock (s := s) l
    rw [hk] at hregs hbreaks
    exact ⟨_, exec_lockBreak hl hbreaking hbroken, lockOf_breakLock hl, hbreaks, breakLock_kept l, hregs⟩

section
variable {s t : State} {L : List Part} {f : Flight} {id : Nat}

/-! ### The performance counters that a reply counts in (R786, R787) -/

theorem pmu_kept (r : RegName) (i j n : Nat) : s.keptBut (s.pmu r i j n) [.regs] :=
  keptBut_ite (keptBut_refl s _) (keptBut_setReg (keptBut_refl s _) r i j _ (by decide))

theorem reg_pmu_other {r q : RegName} (h : q ≠ r) (i j n i' j' : Nat) : (s.pmu r i j n).reg q i' j' = s.reg q i' j' := by
  unfold State.pmu
  split
  · rfl
  · exact reg_setReg_other h _ i' j'

/-- The two counters of the requester in which a reply counts. -/
def State.countPort (s : State) (f : Flight) : State := (s.pmuArb f.k f.req 6 1).pmuArb f.k f.req 7 (s.now - f.stamp)

/-- What the count of a reply can do: nothing, or the counters of the requester, or these and the counter of its PC for the floor. -/
theorem countReply_cases (s : State) (f : Flight) :
    s.countReply f = s ∨ s.countReply f = s.countPort f ∨ ∃ held, s.countReply f = (s.countPort f).pmuPc f.k f.loc.pc 25 held := by
  unfold State.countReply State.countPort onlyIf
  split
  · exact .inl rfl
  · right
    cases f.stage with
    | replying ready =>
      dsimp only
      split
      · exact .inr ⟨_, rfl⟩
      · exact .inl rfl
    | queued => exact .inl rfl
    | released r => exact .inl rfl
    | granted g => exact .inl rfl

theorem countReply_kept (s : State) (f : Flight) : s.keptBut (s.countReply f) [.regs] := by
  have hport : s.keptBut (s.countPort f) [.regs] := keptBut_trans (pmu_kept _ _ _ _) (pmu_kept _ _ _ _)
  obtain h | h | ⟨held, h⟩ := countReply_cases s f <;> rw [h]
  · exact keptBut_refl s _
  · exact hport
  · exact keptBut_trans hport (pmu_kept _ _ _ _)

theorem reg_countReply {r : RegName} (harb : r ≠ .PMU_ARB) (hpc : r ≠ .PMU_PC) (i j : Nat) : (s.countReply f).reg r i j = s.reg r i j := by
  have hport : (s.countPort f).reg r i j = s.reg r i j := (reg_pmu_other harb ..).trans (reg_pmu_other harb ..)
  obtain h | h | ⟨held, h⟩ := countReply_cases s f <;> rw [h]
  · exact hport
  · exact (reg_pmu_other hpc ..).trans hport

/-! ### The hand-over (R106, R149, R150) -/

theorem flight_dropFlight (s : State) (id : Nat) : (s.dropFlight id).flight id = none := by
  simp [State.flight, State.dropFlight]

theorem directPath_fabric {req : Nat} (k : Nat) (h : req < 25) : directPath k req = false := by
  have h39 : req ≠ 39 := by omega
  have hlantern : req ≠ 27 + k := by omega
  simp [directPath, h39, hlantern]

theorem exec_replyHandover (hf : s.flight id = some f) : exec (.replyHandover id) s =
    if !s.mayReply f || !(s.bit F.CLOCK_STATUS.FCLK_PRESENT || directPath f.k f.req || f.dead) then .next s
    else if f.dead then .next (s.dropFlight id)
    else .next ((((s.dropFlight id).takeResp f).countReply f).deliver f (s.replyOf f)) := by
  change execReplyHandover id s = _
  simp only [execReplyHandover, hf]

theorem takeResp_fabric (hreq : f.req < 25) :
    s.takeResp f = s.setCredit f.k f.req { s.credit f.k f.req with resp := (s.credit f.k f.req).resp - 1 } := by
  simp only [State.takeResp, directPath_fabric f.k hreq, Bool.false_eq_true, if_false]

theorem deliver_port (hwhy : f.why = .port) (h : Header) : s.deliver f h = s.send (.reply f.req f.k h f.outData) := by
  simp only [State.deliver, hwhy]

/-- The state in which the reply of a fabric port's request is sent: the request is gone, the response credit used, the reply counted. -/
def State.replied (s : State) (id : Nat) (f : Flight) : State :=
  ((s.dropFlight id).setCredit f.k f.req { s.credit f.k f.req with resp := (s.credit f.k f.req).resp - 1 }).countReply f

theorem exec_replyHandover_port (hf : s.flight id = some f) (hmay : s.mayReply f = true) (hdead : f.dead = false) (hwhy : f.why = .port)
    (hreq : f.req < 25) (hclk : s.bit F.CLOCK_STATUS.FCLK_PRESENT = true) :
    exec (.replyHandover id) s = .next ((s.replied id f).send (.reply f.req f.k (s.replyOf f) f.outData)) := by
  simp only [exec_replyHandover hf, hmay, hclk, hdead, Bool.not_true, Bool.true_or, Bool.or_self, Bool.false_eq_true, if_false, deliver_port hwhy,
    takeResp_fabric hreq]
  rfl

theorem replied_kept (s : State) (id : Nat) (f : Flight) : s.keptBut (s.replied id f) [.flights, .credits, .regs] :=
  keptBut_trans (keptBut_setCredit (keptBut_dropFlight (keptBut_refl s _) id (by decide)) _ _ _ (by decide))
    (keptBut_mono (countReply_kept _ f) (by decide))

theorem flight_replied (s : State) (id : Nat) (f : Flight) : (s.replied id f).flight id = none := by
  have hflights : (s.replied id f).flights = (s.dropFlight id).flights := countReply_kept _ f .flights (by decide)
  rw [State.flight, hflights, ← State.flight, flight_dropFlight]

theorem resp_replied (s : State) (id : Nat) (f : Flight) :
    ((s.replied id f).credit f.k f.req).resp = (s.credit f.k f.req).resp - 1 := by
  have hcredits := countReply_kept ((s.dropFlight id).setCredit f.k f.req
    { s.credit f.k f.req with resp := (s.credit f.k f.req).resp - 1 }) f .credits (by decide)
  rw [State.credit, State.replied, hcredits, ← State.credit, credit_setCredit_same]

end

/-- Settles O52: the four ways of a hand-over, and the frame of a reply that leaves. -/
theorem replyHandover : Obligations.ReplyHandover := by
  unfold Obligations.ReplyHandover
  refine fun s id f hf => ⟨fun hmay => ?_, fun hclk hdirect hdead => ?_, fun hmay hdead => ?_, fun hmay hdead hwhy hreq hclk => ?_⟩
  · simp [exec_replyHandover hf, hmay]
  · simp [exec_replyHandover hf, hclk, hdirect, hdead]
  · exact ⟨s.dropFlight id, by simp [exec_replyHandover hf, hmay, hdead], flight_dropFlight s id, rfl,
      keptBut_dropFlight (keptBut_refl s _) id (by decide)⟩
  · have hkept := replied_kept s id f
    have hout : (s.replied id f).out = s.out := hkept .out (by decide)
    exact ⟨_, exec_replyHandover_port hf hmay hdead hwhy hreq hclk, congrArg (· ++ _) hout, flight_replied s id f, resp_replied s id f,
      keptBut_send (keptBut_mono hkept (by decide)) _ (by decide), fun r i j harb hpc => reg_countReply harb hpc i j⟩

end Sys2Proof.Machine
end

section
/-! What a grant, the issue of an access and the return of a read do to stored memory and to a retry (R131, R179, R183, R187, R631,
R636). -/

set_option Elab.async false

namespace Sys2Proof.Machine

/-! ### A block with one request under way -/

/-- Where line 0 of plot 3 lies, and its address. -/
def lineLoc : Loc := ⟨0, 0, 0, 0, 0, 0⟩
def linePa : Nat := 3 * 2 ^ 28

/-- The line with the data `d`, as a write of the block stores it under a key half that holds no key. -/
def lineHolding (d : LineData) : Line := ⟨d, some 0, 0, 0⟩

/-- A CLASS 1 request of port 0 for the line, accepted at stamp 4,900. -/
def lineRequest (op : Nat) (beats : List LineData) (st : Stage) : Flight :=
  { State.reset.mkFlight 0 0 0 (some 0) .port ⟨mkHdr op 1 0 0 1 false linePa 0 0 0 0, beats, 0⟩ with
    stage := st, loc := lineLoc, stamp := 4900 }

/-- Stamp 5,000 in READY: stack 0 is in service with 64 PCs and CLK_PHY0 runs as fast as CLK_TS. PC 0 serves logical PC 0, PC 1 is a spare,
and plot 3 is OPEN in the stack. `f` is the one request under way, `p` gives the queues of PC 0, and `mem` is what the stack stores. -/
def State.oneRequest (f : Flight) (p : Pc) (mem : Tbl Line) : State :=
  let s := [(F.GLOBAL_STATE.STATE, 2, 0), (F.CLOCK_STATUS.FCLK_PRESENT, 1, 0), (F.CLOCK_STATUS.PHY_LOCK, 1, 0), (F.CLOCK_PHYPLL.MULT, 48, 0),
    (F.PHY_ID.PCS, 64, 0), (F.PHY_STATUS.SITE, 3, 0), (F.REF_PERIOD.TREFI_TS, 4680, 0), (F.PLOT_STACKGEOM.SIDS, 4, 0),
    (F.PLOT_STACKGEOM.NDATA, 60, 0), (F.CLU_PCMAP.VALID, 1, 0), (F.CLU_PCSPARE.MAP, 2, 0), (F.RAS_CLASS.THRESH, 1, 0)].foldl
      (fun s e => s.wr e.1 e.2.1 e.2.2) State.reset
  { s with
    clk := { Clk.reset with now := 5000, running := true }
    plots := [(3, { Plot.blank with state := .openPlot })]
    flights := [f]
    nextId := 1
    mem := mem
    pcs := [(0, { p with st := .serving }), (1, { Pc.blank with st := .spare })] }

/-! ### A write coalesces into an entry whose access has issued (R179) -/

/-- A write entry of the line whose access has issued, with its WR commands due at CLK_PHY ticks 5,010 and 5,012. -/
def issuedWrite : WEnt :=
  { id := 0, fl := 7, pa := linePa, loc := lineLoc, order := 0, prio := 0, data := 1, poison := false, fmt := 0, slot := 0, epoch := false,
    plot := 3, req := 1, ready := true, after := [], staged := some 4960, out := some (5010, 5012) }

/-- A WR of the line is presented to slice 0 between the issue of an older write of the line and that write's first WR command. -/
def State.lateWrite : State :=
  State.oneRequest (lineRequest opWR [2] (.released 4990)) { Pc.blank with wq := [issuedWrite] } [(lineLoc.key, lineHolding 1)]

theorem exec_crossbarGrant {s : State} {k : Cluster} {x : Fin 66} (h : s.clk.running = true) :
    exec (.crossbarGrant k x) s = .next (s.crossbar k x) := if_pos h

/-- The grant stores the new data in place of the older write's. -/
theorem crossbar_lateWrite : (State.lateWrite.crossbar 0 0).mem = [(lineLoc.key, lineHolding 2)] := by decide +kernel

/-- Refutes O42: a grant does change stored memory. A WR that coalesces into a write entry whose ACT has issued, but not its WR commands,
replaces the data that access brings to the stack, which the model stores when the access issues (`State.enterWrite`). -/
theorem not_crossbarGrants : ¬ Obligations.CrossbarGrants := by
  unfold Obligations.CrossbarGrants
  intro h
  obtain ⟨-, hgrant⟩ := h State.lateWrite 0 0 rfl
  obtain ⟨t, hexec, -, hmem, -⟩ := hgrant (by decide)
  obtain rfl := Host.Outcome.next.inj ((exec_crossbarGrant rfl).symm.trans hexec)
  exact absurd (crossbar_lateWrite.symm.trans hmem) (by decide +kernel)

/-! ### A retry brings the line as the first read found it (R131, R183) -/

/-- A read entry of the line: its first access found 1 there, and its data failed to decode. -/
def failedRead : REnt :=
  { fl := 0, ln := 0, loc := lineLoc, order := 0, prio := 0, issued := false, waitW := none, rmw := false, fwd := none, retry := true,
    tries := 1, got := some (lineHolding 1), dataAt := 4990, second := none, secondAt := none, handed := none }

/-- The retry of a read is due, and a write granted after the read has stored 2 in the line since. -/
def State.retryDue : State :=
  State.oneRequest (lineRequest opRD [] (.granted 4900)) { Pc.blank with rq := [failedRead] } [(lineLoc.key, lineHolding 2)]

/-- The access of the retry. -/
def theRetry : Access1 :=
  { write := false, retry := true, again := false, prio := 0, order := 0, loc := lineLoc, cols := [0], ids := [0], req := 0, passed := [] }

/-- PC 0 as the scheduler finds it in the tick. -/
def State.retryPc : Pc := (State.retryDue.live 0 0).stage (State.retryDue.phy 0 State.retryDue.now)

theorem select_retryDue :
    let d := State.retryDue.drainMode 0 0 State.retryPc
    State.retryDue.select 0 { State.retryPc with drain := d } d (State.retryDue.phy 0 State.retryDue.now) = some theRetry := by
  decide +kernel

theorem rq_retryPc : State.retryPc.rq = [failedRead] := by decide +kernel

theorem blocked_retryPc : State.retryPc.blocked failedRead = false := by decide +kernel

theorem fetched_retryDue : State.retryDue.fetched failedRead = some (lineHolding 2) := by decide +kernel

/-- The issue of the retry leaves the entry with the line that the first access found. -/
theorem accessIssue_retryDue (t : State) (h : exec (.accessIssue 0 0 []) State.retryDue = .next t) :
    (t.pc 0 0).rq.map (·.got) = [some (lineHolding 1)] := by
  have hgot : ((after (exec (.accessIssue 0 0 []) State.retryDue) State.retryDue).pc 0 0).rq.map (·.got) = [some (lineHolding 1)] := by
    decide +kernel
  rwa [h] at hgot

/-- Refutes O43: the issue of an unissued read entry does not always bring the line as it is stored now. The entry of a retry is unissued
again, and keeps the line that its first access found, so that no write granted after the read is seen by it (`State.issueRead`). -/
theorem not_accessIssues : ¬ Obligations.AccessIssues := by
  unfold Obligations.AccessIssues
  intro h
  obtain ⟨-, hissue⟩ := h State.retryDue 0 0 [] State.retryPc _ rfl rfl
  obtain ⟨t, hexec, -, -, -, -, -, hread, -⟩ := hissue theRetry (by decide +kernel) select_retryDue
  obtain ⟨-, hgot⟩ := hread rfl
  obtain ⟨x, hx, -, -, -, hfetched⟩ := hgot rfl failedRead (by simp [rq_retryPc]) rfl rfl blocked_retryPc
  have hold : x.got ∈ (t.pc 0 0).rq.map (·.got) := List.mem_map_of_mem hx
  rw [accessIssue_retryDue t hexec, hfetched, fetched_retryDue] at hold
  exact absurd hold (by decide +kernel)

/-! ### A read that wears out its bank starts a migration (R631, R636) -/

/-- The read entry of the line, whose data are due. -/
def dueRead : REnt := { failedRead with issued := true, retry := false, tries := 0 }

/-- A line of the spare PC 1. -/
def spareLoc : Loc := { lineLoc with pc := 1 }

/-- The data of the read are due. One event makes a row permanent, and its bank has no PPR row left. The spare PC still stores a line. -/
def State.wearingOut : State :=
  State.oneRequest (lineRequest opRD [] (.granted 4900)) { Pc.blank with rq := [dueRead] } [(spareLoc.key, lineHolding 3)]

/-- Two symbols of the line are wrong, which the outer decode corrects. -/
def twoSymbols : ReadErr := { ReadErr.clean with syms := [(0, 1), (1, 1)] }

theorem due_wearingOut : ((State.wearingOut.live 0 0).rq.filter fun e => e.issued && e.handed.isNone &&
    decide (e.dataAt ≤ State.wearingOut.now)) = [dueRead] := by decide +kernel

theorem mem_wearingOut (t : State) (h : exec (.readDataReturn 0 0 [twoSymbols]) State.wearingOut = .next t) : t.mem = [] := by
  obtain rfl := Host.Outcome.next.inj h
  decide +kernel

/-- Refutes O44: a read does change stored memory. An event of two wrong symbols that makes its row, and with it a bank without PPR rows,
permanent starts the migration of the PC in the same command, which clears the target (`State.beginMigration`). -/
theorem not_readReturns : ¬ Obligations.ReadReturns := by
  unfold Obligations.ReadReturns
  intro h
  obtain ⟨t, hexec, hmem, -⟩ := h State.wearingOut 0 0 [twoSymbols] dueRead (lineRequest opRD [] (.granted 4900)) _ (by decide +kernel)
    due_wearingOut (by decide +kernel) rfl rfl rfl
  exact absurd ((mem_wearingOut t hexec).symm.trans hmem) (by decide +kernel)

end Sys2Proof.Machine
end

section
/-! Writes of arbiter priorities and of timing registers (R165, R166, R196, R200, R238, R239). -/

set_option Elab.async false

namespace Sys2Proof.Machine

section
variable {s t u : State} {L : List Part} {r : RegName} {i j : Nat}

/-! ### Registers -/

theorem rd_of_reg {f : Fld} (h : t.reg f.reg i j = u.reg f.reg i j) : t.rd f i j = u.rd f i j := by
  rw [State.rd, h, State.rd]

theorem rd_of_word {f : Fld} {w : Nat} (h : (t.reg f.reg i j).toNat = w) : t.rd f i j = w >>> f.lo % 2 ^ f.len := by
  rw [State.rd, h]

theorem elem_mem (r : RegName) (h : i < 2 ^ 14) : (r, i % 2 ^ 14, 0 % 2 ^ 14) ∈ [(r, i, 0)] := mem_elem h (List.mem_singleton_self _)

/-- A write that is kept only when it changes its register leaves what it writes there. -/
theorem reg_onlyIf_changed (h : u.reg r i j = t.reg r i j) :
    (onlyIf ((s.reg r i j).toNat != (t.reg r i j).toNat) u s).reg r i j = t.reg r i j := by
  unfold onlyIf
  split
  · exact h
  · next hsame => exact BitVec.eq_of_toNat_eq (by simpa using hsame)

theorem keptBut_latokDue (h : s.keptBut t L) (b : Bool) (m0 : Part.latokDue ∈ L) : s.keptBut { t with latokDue := b } L := by
  intro p hp
  have h := h p hp
  cases p
  case latokDue => exact absurd m0 hp
  all_goals exact h

theorem raise_regsOnly (s : State) (f : Fld) (k : Cluster) : s.regsOnly (s.raise f k) [(f.reg, k, 0)] :=
  ⟨keptBut_raise (keptBut_refl s _) _ _ _ (by decide),
    onlyRegs_raise (onlyRegs_refl s _) f k 0 (elem_mem f.reg (k.isLt.trans (by decide)))⟩

theorem bit_raise_same {f : Fld} (h : f.fits) (hlen : f.len = 1) (k : Nat) : (s.raise f k).bit f k = true := by
  rw [State.bit, rd_raise, rd_wr_same h, hlen]
  rfl

theorem rd_raise_apart {f g : Fld} (h : f.fits) (ha : f.apart g) (k : Nat) : (s.raise f k).rd g k = s.rd g k := by
  rw [rd_raise, rd_wr_apart h ha]

/-! ### ARB_PRIO_WRITE (R165, R166, R196) -/

/-- ARB_REQr with PRIO and, where it is 1 to 64, BURST of the word `v`. -/
def State.arbWritten (s : State) (r v : Nat) : State :=
  let s := s.wr F.ARB_REQ.PRIO (v >>> 8) r
  if v % 128 = 0 ∨ 64 < v % 128 then s else s.wr F.ARB_REQ.BURST (v % 128) r

/-- The change of ARB_REQr from `old` is audited, and LATOK is to follow. -/
def State.arbAudited (s : State) (r old : Nat) : State :=
  { s.audit 1 0 0 (0xC00000 + 0x10 * r) old (s.reg .ARB_REQ r).toNat with latokDue := true }

theorem reg_arbAudited (s : State) (r old : Nat) (q : RegName) (i j : Nat) : (s.arbAudited r old).reg q i j = s.reg q i j := rfl

theorem exec_arbPrioWrite {r : Fin 40} {v : W32} (h : s.pfHeld = false) : exec (.arbPrioWrite r v) s = .next
    (onlyIf ((s.reg .ARB_REQ r).toNat != ((s.arbWritten r v.toNat).reg .ARB_REQ r).toNat)
      ((s.arbWritten r v.toNat).arbAudited r (s.reg .ARB_REQ r).toNat) s) := by
  obtain ⟨hfull, hboot⟩ := pfHeld_false h
  show execArbPrioWrite r v s = _
  simp only [execArbPrioWrite, orWait_open hfull, hboot, Bool.false_eq_true, if_false]
  rfl

theorem prio_arbWritten (s : State) (r v : Nat) : (s.arbWritten r v).rd F.ARB_REQ.PRIO r = v / 256 % 2 ^ F.ARB_REQ.PRIO.len := by
  have hprio : (s.wr F.ARB_REQ.PRIO (v >>> 8) r).rd F.ARB_REQ.PRIO r = v / 256 % 2 ^ F.ARB_REQ.PRIO.len := by
    rw [rd_wr_same (by decide), Nat.shiftRight_eq_div_pow]
  unfold State.arbWritten
  split
  · exact hprio
  · rwa [rd_wr_apart (by decide) (by decide)]

theorem burst_arbWritten (s : State) (r v : Nat) : (s.arbWritten r v).rd F.ARB_REQ.BURST r =
    if 1 ≤ v % 128 ∧ v % 128 ≤ 64 then v % 128 else s.rd F.ARB_REQ.BURST r := by
  unfold State.arbWritten
  split
  · next hout => rw [if_neg (by omega), rd_wr_apart (by decide) (by decide)]
  · next hin =>
    rw [if_pos (by omega), rd_wr_same (by decide)]
    exact Nat.mod_eq_of_lt (Nat.mod_lt v (by decide))

theorem arbWritten_kept (s : State) (r v : Nat) : s.keptBut (s.arbWritten r v) [.regs, .latokDue, .auditQ] := by
  have h := keptBut_wr (keptBut_refl s [.regs, .latokDue, .auditQ]) F.ARB_REQ.PRIO (v >>> 8) r 0 (by decide)
  exact keptBut_ite h (keptBut_wr h _ _ _ _ (by decide))

theorem arbWritten_onlyRegs (s : State) (r : Fin 40) (v : Nat) : s.onlyRegs (s.arbWritten r v) [(.ARB_REQ, r, 0)] := by
  have hm := elem_mem .ARB_REQ (r.isLt.trans (show 40 < 2 ^ 14 by decide))
  have h := onlyRegs_wr (onlyRegs_refl s _) F.ARB_REQ.PRIO (v >>> 8) r 0 hm
  unfold State.arbWritten
  split
  · exact h
  · exact onlyRegs_wr h F.ARB_REQ.BURST _ _ _ hm

/-- What a write of ARB_REQr leaves when it need not wait. -/
theorem arbPrioWrite_next {r : Fin 40} {v : W32} (h : s.pfHeld = false) : ∃ t, exec (.arbPrioWrite r v) s = .next t ∧
    t.reg .ARB_REQ r = (s.arbWritten r v.toNat).reg .ARB_REQ r ∧ s.keptBut t [.regs, .latokDue, .auditQ] ∧ s.onlyRegs t [(.ARB_REQ, r, 0)] := by
  have hkept : s.keptBut ((s.arbWritten r v.toNat).arbAudited r (s.reg .ARB_REQ r).toNat) [.regs, .latokDue, .auditQ] :=
    keptBut_latokDue (keptBut_audit (arbWritten_kept s r v.toNat) _ _ _ _ _ _ _ (by decide)) _ (by decide)
  have honly : s.onlyRegs ((s.arbWritten r v.toNat).arbAudited r (s.reg .ARB_REQ r).toNat) [(.ARB_REQ, r, 0)] := fun q i j hm =>
    (reg_arbAudited _ _ _ q i j).trans (arbWritten_onlyRegs s r v.toNat q i j hm)
  exact ⟨_, exec_arbPrioWrite h, reg_onlyIf_changed (reg_arbAudited ..), keptBut_onlyIf _ hkept (keptBut_refl s _),
    onlyRegs_onlyIf _ honly (onlyRegs_refl s _)⟩

/-! ### TIMING_REGISTER_WRITE (R200, R238, R239) -/

/-- The flag that a rejected write of a timing register sets. -/
def timingRej (x : TimReg) : Fld := match x with
  | .tim0 => F.CLU_TIM2.REJ
  | .tim1 => F.CLU_TIM2.REJ
  | .tim2 => F.CLU_TIM2.REJ
  | .refTim => F.REF_CTRL.REJ

theorem exec_timingRegisterWrite_rejected {k : Cluster} (hlive : s.anyPc k PcState.live = true) (hstart : s.siteStarting k = false)
    (x : TimReg) (v : W32) : exec (.timingRegisterWrite k x v) s = .next (s.raise (timingRej x) k) := by
  show execTimingRegisterWrite k x v s = _
  cases x <;> simp [execTimingRegisterWrite, hlive, hstart, timingRej]

/-- A timing register is written with `w`, and the change is audited. -/
def State.timingPut (s : State) (k : Cluster) (r : RegName) (off w : Nat) : State :=
  onlyIf ((s.reg r k).toNat != w) ((s.setReg r k 0 (BitVec.ofNat 64 w)).audit 2 (3 + k.val) 0 (0x1000000 + k.val * 0x100000 + off)
    (s.reg r k).toNat w) s

theorem toNat_reg_timingPut (s : State) (k : Cluster) (r : RegName) (off : Nat) {w : Nat} (hw : w < 2 ^ 64) :
    ((s.timingPut k r off w).reg r k).toNat = w := by
  unfold State.timingPut onlyIf
  split
  · rw [reg_audit, reg_setReg_same, BitVec.toNat_ofNat, Nat.mod_eq_of_lt hw]
  · next hsame => simpa using hsame

theorem timingPut_regsOnly (s : State) (k : Cluster) (r : RegName) (off w : Nat) : s.regsOnly (s.timingPut k r off w) [(r, k, 0)] := by
  have hm := elem_mem r (k.isLt.trans (show 12 < 2 ^ 14 by decide))
  exact ⟨keptBut_onlyIf _ (keptBut_audit (keptBut_setReg (keptBut_refl s _) _ _ _ _ (by decide)) _ _ _ _ _ _ _ (by decide)) (keptBut_refl s _),
    onlyRegs_onlyIf _ (onlyRegs_setReg (onlyRegs_refl s _) r k 0 _ hm) (onlyRegs_refl s _)⟩

/-- The TRFCAB that REF_TIM takes: it keeps its value when the new one is above 1,300 ns. -/
def State.trfcab (s : State) (k : Nat) (v : W32) : Nat :=
  if 1300 * s.rd F.CLOCK_PHYPLL.MULT k < bitsOf v 10 0 * 40 then s.rd F.REF_TIM.TRFCAB k else bitsOf v 10 0

theorem trfcab_lt (s : State) (k : Nat) (v : W32) : s.trfcab k v < 2 ^ 11 := by
  unfold State.trfcab
  split
  · exact rd_lt s F.REF_TIM.TRFCAB k 0
  · exact Nat.mod_lt _ (by decide)

theorem trfcab_eq (s : State) (k : Nat) (v : W32) : s.trfcab k v =
    if v.toNat % 2 ^ 11 * 40 ≤ 1300 * s.rd F.CLOCK_PHYPLL.MULT k then v.toNat % 2 ^ 11 else s.rd F.REF_TIM.TRFCAB k := by
  have hbits : bitsOf v 10 0 = v.toNat % 2 ^ 11 := rfl
  unfold State.trfcab
  rw [hbits]
  split
  · next habove => rw [if_neg (by omega)]
  · next hwithin => rw [if_pos (by omega)]

/-- The word that REF_TIM takes. -/
def State.refTimWord (s : State) (k : Nat) (v : W32) : Nat := bitsOf v 26 16 <<< 16 + s.trfcab k v

theorem refTimWord_eq (s : State) (k : Nat) (v : W32) : s.refTimWord k v = v.toNat / 2 ^ 16 % 2 ^ 11 * 2 ^ 16 + s.trfcab k v := by
  rw [State.refTimWord, bitsOf, Nat.shiftLeft_eq, Nat.shiftRight_eq_div_pow]

theorem refTimWord_lt (s : State) (k : Nat) (v : W32) : s.refTimWord k v < 2 ^ 64 := by
  have := trfcab_lt s k v
  rw [refTimWord_eq]
  omega

/-- The state after an accepted write of REF_TIM. -/
def State.refTimWritten (s : State) (k : Cluster) (v : W32) : State :=
  (s.timingPut k .REF_TIM 0x40004 (s.refTimWord k v)).wr F.REF_PERIOD.TRFC_TS (s.phyTicks k (s.trfcab k v)) k

/-- The REJ that a write of CLU_TIM2 leaves: a 1 clears it, unless it was set in this tick. -/
def State.rejLeft (s : State) (k v : Nat) : Nat := if v % 2 = 1 ∧ s.eventsOf F.CLU_TIM2.REJ k = 0 then 0 else s.rd F.CLU_TIM2.REJ k

theorem rejLeft_lt (s : State) (k v : Nat) : s.rejLeft k v < 2 := by
  unfold State.rejLeft
  split
  · decide
  · exact rd_lt s F.CLU_TIM2.REJ k 0

theorem rejLeft_eq_one (s : State) (k : Nat) (v : W32) : (s.rejLeft k v.toNat == 1) =
    (s.bit F.CLU_TIM2.REJ k && !(v.getLsbD 0 && s.eventsOf F.CLU_TIM2.REJ k == 0)) := by
  have hv : v.getLsbD 0 = decide (v.toNat % 2 = 1) := Nat.testBit_zero _
  rw [State.rejLeft, State.bit, hv]
  split
  · next hclear => simp [hclear]
  · next hkept =>
    have hkeeps : (decide (v.toNat % 2 = 1) && s.eventsOf F.CLU_TIM2.REJ k == 0) = false := by simpa using hkept
    simp [hkeeps]

/-- The word that CLU_TIM2 takes. -/
def State.tim2Word (s : State) (k v : Nat) : Nat := v >>> 4 <<< 4 + s.rejLeft k v

theorem tim2Word_eq (s : State) (k v : Nat) : s.tim2Word k v = v / 16 * 16 + s.rejLeft k v := by
  rw [State.tim2Word, Nat.shiftLeft_eq, Nat.shiftRight_eq_div_pow]

theorem tim2Word_lt (s : State) (k : Nat) (v : W32) : s.tim2Word k v.toNat < 2 ^ 64 := by
  have hrej := rejLeft_lt s k v.toNat
  rw [tim2Word_eq]
  omega

theorem tim2Word_timing (s : State) (k v : Nat) : s.tim2Word k v / 16 = v / 16 := by
  have hrej := rejLeft_lt s k v
  rw [tim2Word_eq]
  omega

theorem tim2Word_rej (s : State) (k v : Nat) : s.tim2Word k v >>> F.CLU_TIM2.REJ.lo % 2 ^ F.CLU_TIM2.REJ.len = s.rejLeft k v := by
  have hrej := rejLeft_lt s k v
  rw [tim2Word_eq]
  change (v / 16 * 16 + s.rejLeft k v) >>> 0 % 2 = s.rejLeft k v
  rw [Nat.shiftRight_zero]
  omega

section
variable {k : Cluster} (h : s.anyPc k PcState.live = false ∨ s.siteStarting k = true) (v : W32)
include h

theorem timing_open : (!s.anyPc k PcState.live || s.siteStarting k) = true := by
  rcases h with h | h <;> simp [h]

theorem exec_timingRegisterWrite_tim0 : exec (.timingRegisterWrite k .tim0 v) s = .next (s.timingPut k .CLU_TIM0 0x400 v.toNat) :=
  congrArg Host.Outcome.next (if_pos (timing_open h))

theorem exec_timingRegisterWrite_tim1 : exec (.timingRegisterWrite k .tim1 v) s = .next (s.timingPut k .CLU_TIM1 0x404 v.toNat) :=
  congrArg Host.Outcome.next (if_pos (timing_open h))

theorem exec_timingRegisterWrite_tim2 : exec (.timingRegisterWrite k .tim2 v) s =
    .next (s.timingPut k .CLU_TIM2 0x408 (s.tim2Word k v.toNat)) :=
  congrArg Host.Outcome.next (if_pos (timing_open h))

theorem exec_timingRegisterWrite_refTim : exec (.timingRegisterWrite k .refTim v) s =
    .next (s.refTimWritten k v) := by
  show execTimingRegisterWrite k .refTim v s = _
  simp only [execTimingRegisterWrite, timing_open h, Bool.not_true, Bool.false_eq_true, if_false]
  rfl

end

theorem rd_refTimWritten {f : Fld} (hf : f.reg = .REF_TIM) (s : State) (k : Cluster) (v : W32) : (s.refTimWritten k v).rd f k =
    (v.toNat / 2 ^ 16 % 2 ^ 11 * 2 ^ 16 + s.trfcab k v) / 2 ^ f.lo % 2 ^ f.len := by
  have hword := toNat_reg_timingPut s k .REF_TIM 0x40004 (refTimWord_lt s k v)
  rw [← hf] at hword
  rw [State.refTimWritten, rd_wr_other (by rw [hf]; decide), ← hf, rd_of_word hword, Nat.shiftRight_eq_div_pow, refTimWord_eq]

theorem trfmpb_refTimWritten (s : State) (k : Cluster) (v : W32) :
    (s.refTimWritten k v).rd F.REF_TIM.TRFMPB k = v.toNat / 2 ^ 16 % 2 ^ 11 := by
  have hcab := trfcab_lt s k v
  refine (rd_refTimWritten rfl s k v).trans ?_
  change (_ * 2 ^ 16 + _) / 2 ^ 16 % 2 ^ 11 = _
  omega

theorem trfcab_refTimWritten (s : State) (k : Cluster) (v : W32) : (s.refTimWritten k v).rd F.REF_TIM.TRFCAB k = s.trfcab k v := by
  have hcab := trfcab_lt s k v
  refine (rd_refTimWritten rfl s k v).trans ?_
  change (_ * 2 ^ 16 + _) / 2 ^ 0 % 2 ^ 11 = _
  omega

theorem trfcTs_refTimWritten (s : State) (k : Cluster) (v : W32) : (s.refTimWritten k v).rd F.REF_PERIOD.TRFC_TS k =
    s.phyTicks k (s.trfcab k v) % 2 ^ F.REF_PERIOD.TRFC_TS.len := rd_wr_same (by decide) _

theorem refTimWritten_regsOnly (s : State) (k : Cluster) (v : W32) :
    s.regsOnly (s.refTimWritten k v) [(.REF_TIM, k, 0), (.REF_PERIOD, k, 0)] := by
  obtain ⟨hkept, hregs⟩ := timingPut_regsOnly s k .REF_TIM 0x40004 (s.refTimWord k v)
  refine ⟨keptBut_wr hkept _ _ _ _ (by decide), onlyRegs_wr_elem (fun r i j hm => hregs r i j fun h => hm ?_) F.REF_PERIOD.TRFC_TS _ k ?_⟩
  · exact List.mem_cons.2 (.inl (List.mem_singleton.1 h))
  · exact List.mem_cons_of_mem _ (List.mem_singleton_self _)

end

/-- Settles O46: each write of ARB_REQr and of a timing register gives its word, and a rejected one sets a flag. -/
theorem arbiterAndTiming : Obligations.ArbiterAndTiming := by
  unfold Obligations.ArbiterAndTiming
  refine fun s v => ⟨fun r hheld => ?_, fun k => ⟨fun hlive hstart => ⟨fun x hx => ?_, ?_⟩, fun hopen => ⟨?_, ?_, ?_, ?_⟩⟩⟩
  · obtain ⟨t, hexec, hreg, hkept, honly⟩ := arbPrioWrite_next (r := r) (v := v) hheld
    exact ⟨t, hexec, (rd_of_reg (f := F.ARB_REQ.PRIO) hreg).trans (prio_arbWritten s r v.toNat),
      (rd_of_reg (f := F.ARB_REQ.BURST) hreg).trans (burst_arbWritten s r v.toNat), hkept, honly⟩
  · have hrej : timingRej x = F.CLU_TIM2.REJ := by
      cases x with
      | refTim => exact absurd rfl hx
      | _ => rfl
    refine ⟨_, exec_timingRegisterWrite_rejected hlive hstart x v, ?_⟩
    rw [hrej]
    exact ⟨bit_raise_same (by decide) rfl k, (rd_raise_apart (by decide) (by decide) k).symm, raise_regsOnly s F.CLU_TIM2.REJ k⟩
  · exact ⟨_, exec_timingRegisterWrite_rejected hlive hstart .refTim v, bit_raise_same (by decide) rfl k,
      congrArg (· == 1) (rd_raise_apart (by decide) (by decide) k).symm, raise_regsOnly s F.REF_CTRL.REJ k⟩
  · exact ⟨_, exec_timingRegisterWrite_tim0 hopen v, toNat_reg_timingPut s k _ _ (by omega), timingPut_regsOnly s k _ _ _⟩
  · exact ⟨_, exec_timingRegisterWrite_tim1 hopen v, toNat_reg_timingPut s k _ _ (by omega), timingPut_regsOnly s k _ _ _⟩
  · have hreg := toNat_reg_timingPut s k .CLU_TIM2 0x408 (tim2Word_lt s k v)
    refine ⟨_, exec_timingRegisterWrite_tim2 hopen v, ?_, ?_, timingPut_regsOnly s k _ _ _⟩
    · rw [hreg, tim2Word_timing]
    · rw [State.bit, rd_of_word (f := F.CLU_TIM2.REJ) hreg, tim2Word_rej, rejLeft_eq_one]
  · refine ⟨_, exec_timingRegisterWrite_refTim hopen v, trfmpb_refTimWritten s k v, ?_, ?_, refTimWritten_regsOnly s k v⟩
    · rw [trfcab_refTimWritten, trfcab_eq]
    · rw [trfcab_refTimWritten, trfcTs_refTimWritten]

end Sys2Proof.Machine
end

section
/-! Arbiter holds (R169 to R175, R196). -/

set_option Elab.async false

namespace Sys2Proof.Machine

section
variable {s t : State} {L : List Part} {a : Agent} {h : Fin 8} {x : Hold}

theorem bitsOf_single {n : Nat} (v : BitVec n) (i : Nat) : bitsOf v i i = (v.getLsbD i).toNat := by
  rw [bitsOf, BitVec.getLsbD, Nat.toNat_testBit, Nat.shiftRight_eq_div_pow, Nat.add_sub_cancel_left, pow_one]

theorem keptBut_holds (hkept : s.keptBut t L) (T : Tbl (Option Hold)) (m0 : Part.holds ∈ L) : s.keptBut { t with holds := T } L := by
  intro p hp
  have hkept := hkept p hp
  cases p
  case holds => exact absurd m0 hp
  all_goals exact hkept

theorem regs_of_kept (hkept : s.keptBut t L) (hr : Part.regs ∉ L) : t.regs = s.regs := (hkept .regs hr).1

theorem onlyRegs_regs {u : State} {l : List (RegName × Nat × Nat)} (hs : s.onlyRegs t l) (hu : u.regs = t.regs) : s.onlyRegs u l := by
  rw [State.onlyRegs_eq, hu, ← State.onlyRegs_eq]
  exact hs

theorem holdCtl_mem (h : Fin 8) (l : List (RegName × Nat × Nat)) : (RegName.ARB_HOLD_CTL, h.val % 2 ^ 14, 0 % 2 ^ 14) ∈ (.ARB_HOLD_CTL, h.val, 0) :: l :=
  mem_elem (h.isLt.trans (by decide)) List.mem_cons_self

theorem onlyRegs_wr_holdCtl {l : List (RegName × Nat × Nat)} (hs : s.onlyRegs t ((.ARB_HOLD_CTL, h.val, 0) :: l)) (f : Fld)
    (hf : f.reg = .ARB_HOLD_CTL) (v : Nat) : s.onlyRegs (t.wr f v h) ((.ARB_HOLD_CTL, h.val, 0) :: l) :=
  onlyRegs_wr hs f v h 0 (hf ▸ holdCtl_mem h l)

/-! ### The end of a hold (R172 to R174, R230, R231) -/

/-- A PC's idle time begins anew: nothing else of it changes. -/
theorem pc_touch (s : State) (k p j q : Nat) : { (s.touch k p).pc j q with idleSince := 0 } = { s.pc j q with idleSince := 0 } := by
  unfold State.touch onlyIf
  split
  · by_cases hkey : j * 64 + q = k * 64 + p
    · have hnew : (s.setPc k p { s.pc k p with idleSince := s.now }).pc j q = { s.pc k p with idleSince := s.now } := by
        rw [State.pc, hkey]
        exact pc_setPc_same (s := s) k p _
      have hold : s.pc j q = s.pc k p := by rw [State.pc, hkey, State.pc]
      rw [hnew, hold]
    · rw [pc_setPc_other _ hkey]
  · rfl

theorem touch_kept (s : State) (k p : Nat) : s.keptBut (s.touch k p) [.pcs] :=
  keptBut_onlyIf _ (keptBut_setPc (keptBut_refl s _) _ _ _ (by decide)) (keptBut_refl s _)

theorem endHold_regs (s : State) (h : Nat) (x : Hold) : (s.endHold h x).regs = (s.wr F.ARB_HOLD_CTL.ACTIVE 0 h).regs :=
  regs_of_kept (t := (s.wr F.ARB_HOLD_CTL.ACTIVE 0 h).touch x.k x.pc) (touch_kept _ x.k x.pc) (by decide)

theorem endHold_kept (s : State) (h : Nat) (x : Hold) : s.keptBut (s.endHold h x) [.regs, .holds, .pcs] :=
  keptBut_holds (keptBut_trans (keptBut_wr (keptBut_refl s _) F.ARB_HOLD_CTL.ACTIVE 0 h 0 (by decide))
    (keptBut_mono (touch_kept _ x.k x.pc) (by decide))) _ (by decide)

theorem pc_endHold (s : State) (h : Nat) (x : Hold) (j q : Nat) :
    { (s.endHold h x).pc j q with idleSince := 0 } = { s.pc j q with idleSince := 0 } :=
  pc_touch (s.wr F.ARB_HOLD_CTL.ACTIVE 0 h) x.k x.pc j q

theorem hold_endHold (s : State) (h : Nat) (x : Hold) : tget none (s.endHold h x).holds h = none := tget_tset_same ..

theorem active_endHold (s : State) (h : Nat) (x : Hold) : (s.endHold h x).bit F.ARB_HOLD_CTL.ACTIVE h = false := by
  rw [bit_of_regs (endHold_regs s h x), bit_wr_same (by decide) rfl]
  rfl

theorem endHold_onlyRegs (s : State) (h : Fin 8) (x : Hold) : s.onlyRegs (s.endHold h x) [(.ARB_HOLD_CTL, h, 0)] :=
  onlyRegs_regs (onlyRegs_wr_holdCtl (onlyRegs_refl s _) F.ARB_HOLD_CTL.ACTIVE rfl 0) (endHold_regs s h x)

theorem settleHold_none (hnone : tget none s.holds h = none) : s.settleHold h = s := by
  simp only [State.settleHold, hnone]

theorem settleHold_some (hx : tget none s.holds h = some x) : s.settleHold h = onlyIf x.breaking (s.breakHold h x) s := by
  simp only [State.settleHold, hx]

/-! ### A write of ARB_HOLDh_CTL that need not wait (R593, R598) -/

theorem holdWrite_runs (hwait : holdWaits a s = false) (hfull : ∀ f, a = .fn f → s.auditFull = false) (hsettled : s.settleHold h = s)
    (c : Instr) (run : State → State) : ∃ t, s.holdWrite a h c run = .next t ∧ (run s).keptBut t [.auditQ] := by
  have haudit (b : Bool) (okind oid wher old new : Nat) :
      (run s).keptBut (onlyIf b ((run s).audit okind oid 0 wher old new) (run s)) [.auditQ] :=
    keptBut_onlyIf _ (keptBut_audit (keptBut_refl _ _) _ _ _ _ _ _ _ (by decide)) (keptBut_refl _ _)
  unfold State.holdWrite
  cases a with
  | fn f =>
    simp only [orWait_open (hfull f rfl), hwait, hsettled, Bool.false_eq_true, if_false, Host.Outcome.next.injEq, exists_eq_left']
    exact haudit _ _ _ _ _ _
  | _ =>
    simp only [hwait, hsettled, Bool.false_eq_true, if_false, Host.Outcome.next.injEq, exists_eq_left']
    exact haudit _ _ _ _ _ _

/-! ### SET (R169, R173, R175) -/

section
variable {k pc req : Nat}

/-- ARB_HOLDh_CTL with the slice and the requester that a SET names. -/
def State.holdNamed (s : State) (h : Fin 8) (k pc req : Nat) : State :=
  ((s.wr F.ARB_HOLD_CTL.PC pc h).wr F.ARB_HOLD_CTL.CLUSTER k h).wr F.ARB_HOLD_CTL.REQ req h

/-- The same with the RESULT `r`. -/
def State.holdAnswered (s : State) (h : Fin 8) (k pc req r : Nat) : State := (s.holdNamed h k pc req).wr F.ARB_HOLD_CTL.RESULT r h

/-- The hold that a SET puts in force. -/
def State.newHold (s : State) (h : Fin 8) (k pc req : Nat) : Hold :=
  ⟨k, pc, req, if req = 39 then 0 else s.rd F.PORT_LINK.EPOCH req, s.now + usTicks (s.rd F.ARB_HOLD_LEASE.LEASE_US h), false⟩

/-- The hold `x` is in force in ARB_HOLDh. -/
def State.holdEntered (s : State) (h : Fin 8) (x : Hold) : State :=
  ((({ s with holds := tset none s.holds h.val (some x) }.wr F.ARB_HOLD_CTL.ACTIVE 1 h).wr F.ARB_HOLD_CTL.BROKEN 0 h).wr
    F.ARB_HOLD_OWNER.REQ x.req h).wr F.ARB_HOLD_OWNER.EPOCH x.epoch h

/-- What a SET does to ARB_HOLDh. -/
def State.holdTried (s : State) (h : Fin 8) (k pc req : Nat) : State :=
  let r := (s.holdNamed h k pc req).holdResult h k pc req
  let t := s.holdAnswered h k pc req r
  if r = 2 then t else t.holdEntered h (t.newHold h k pc req)

theorem exec_arbHoldSet {v : W32} (hset : v.getLsbD 27 = true) (hrel : v.getLsbD 26 = false)
    (hwriter : holdWriter a (bitsOf v 19 16) (bitsOf v 13 8) = true) : exec (.arbHoldSet a h v) s =
    s.holdWrite a h (.arbHoldSet a h v) fun s => s.holdTried h (bitsOf v 19 16) (bitsOf v 25 20) (bitsOf v 13 8) := by
  have hignored : ¬(bitsOf v 27 27 = 0 ∨ bitsOf v 26 26 = 1 ∨ holdWriter a (bitsOf v 19 16) (bitsOf v 13 8) = false) := by
    rw [bitsOf_single, bitsOf_single, hset, hrel, hwriter]
    decide
  exact if_neg hignored

theorem rd_holdNamed_apart {g : Fld} (hpc : F.ARB_HOLD_CTL.PC.apart g) (hk : F.ARB_HOLD_CTL.CLUSTER.apart g)
    (hreq : F.ARB_HOLD_CTL.REQ.apart g) : (s.holdNamed h k pc req).rd g h = s.rd g h := by
  rw [State.holdNamed, rd_wr_apart (by decide) hreq, rd_wr_apart (by decide) hk, rd_wr_apart (by decide) hpc]

theorem rd_holdNamed_other {g : Fld} (hg : g.reg ≠ .ARB_HOLD_CTL) (i j : Nat) : (s.holdNamed h k pc req).rd g i j = s.rd g i j := by
  rw [State.holdNamed, rd_wr_other (f := F.ARB_HOLD_CTL.REQ) hg, rd_wr_other (f := F.ARB_HOLD_CTL.CLUSTER) hg,
    rd_wr_other (f := F.ARB_HOLD_CTL.PC) hg]

theorem rd_holdAnswered_other {g : Fld} (hg : g.reg ≠ .ARB_HOLD_CTL) (r i j : Nat) :
    (s.holdAnswered h k pc req r).rd g i j = s.rd g i j := by
  rw [State.holdAnswered, rd_wr_other (f := F.ARB_HOLD_CTL.RESULT) hg, rd_holdNamed_other hg]

theorem holdAnswered_regsOnly (s : State) (h : Fin 8) (k pc req r : Nat) :
    s.regsOnly (s.holdAnswered h k pc req r) [(.ARB_HOLD_CTL, h, 0)] := by
  constructor
  · exact keptBut_wr (keptBut_wr (keptBut_wr (keptBut_wr (keptBut_refl s _) _ _ _ _ (by decide)) _ _ _ _ (by decide)) _ _ _ _ (by decide))
      _ _ _ _ (by decide)
  · exact onlyRegs_wr_holdCtl (onlyRegs_wr_holdCtl (onlyRegs_wr_holdCtl (onlyRegs_wr_holdCtl (onlyRegs_refl s _) F.ARB_HOLD_CTL.PC rfl pc)
      F.ARB_HOLD_CTL.CLUSTER rfl k) F.ARB_HOLD_CTL.REQ rfl req) F.ARB_HOLD_CTL.RESULT rfl r

theorem holdResult_named (s : State) (h : Fin 8) (k pc req : Nat) :
    (s.holdNamed h k pc req).holdResult h k pc req = s.holdResult h k pc req := by
  have hbroken : (s.holdNamed h k pc req).bit F.ARB_HOLD_CTL.BROKEN h = s.bit F.ARB_HOLD_CTL.BROKEN h := by
    rw [State.bit, rd_holdNamed_apart (by decide) (by decide) (by decide), State.bit]
  have hup : (s.holdNamed h k pc req).bit F.PORT_LINK.UP req = s.bit F.PORT_LINK.UP req := by
    rw [State.bit, rd_holdNamed_other (by decide), State.bit]
  rw [State.holdResult, hbroken, hup]
  rfl

theorem holdResult_free (hnone : tget none s.holds h = none) (hslice : s.holdOn k pc = none) (hk : k < 12)
    (hreq : (req ≤ 26 ∧ s.bit F.PORT_LINK.UP req = true) ∨ req = 39) :
    s.holdResult h k pc req = if s.bit F.ARB_HOLD_CTL.BROKEN h then 1 else 0 := by
  have hk' : ¬12 ≤ k := by omega
  rcases hreq with ⟨hport, hup⟩ | rfl
  · simp [State.holdResult, hnone, hslice, hk', hport, hup]
  · simp [State.holdResult, hnone, hslice, hk']

theorem holdResult_taken (hslice : (s.holdOn k pc).isSome = true) : s.holdResult h k pc req = 2 := by
  simp [State.holdResult, hslice]

theorem newHold_answered (s : State) (h : Fin 8) (k pc req r : Nat) : (s.holdAnswered h k pc req r).newHold h k pc req =
    s.newHold h k pc req := by
  rw [State.newHold, rd_holdAnswered_other (by decide), rd_holdAnswered_other (by decide)]
  rfl

theorem holdTried_taken (hslice : (s.holdOn k pc).isSome = true) : s.holdTried h k pc req = s.holdAnswered h k pc req 2 := by
  simp only [State.holdTried, holdResult_named, holdResult_taken hslice, if_true]

theorem holdTried_free (hnone : tget none s.holds h = none) (hslice : s.holdOn k pc = none) (hk : k < 12)
    (hreq : (req ≤ 26 ∧ s.bit F.PORT_LINK.UP req = true) ∨ req = 39) : s.holdTried h k pc req =
    (s.holdAnswered h k pc req (if s.bit F.ARB_HOLD_CTL.BROKEN h then 1 else 0)).holdEntered h (s.newHold h k pc req) := by
  have hgranted : (if s.bit F.ARB_HOLD_CTL.BROKEN h then 1 else 0) ≠ 2 := by split <;> decide
  simp only [State.holdTried, holdResult_named, holdResult_free hnone hslice hk hreq, newHold_answered, if_neg hgranted]

theorem result_holdAnswered (r : Nat) : (s.holdAnswered h k pc req r).rd F.ARB_HOLD_CTL.RESULT h = r % 4 := rd_wr_same (by decide) r

end

/-! ### A hold in force -/

theorem hold_holdEntered (s : State) (h : Fin 8) (x : Hold) : tget none (s.holdEntered h x).holds h = some x := tget_tset_same ..

theorem result_holdEntered (s : State) (h : Fin 8) (x : Hold) :
    (s.holdEntered h x).rd F.ARB_HOLD_CTL.RESULT h = s.rd F.ARB_HOLD_CTL.RESULT h := by
  rw [State.holdEntered, rd_wr_other (by decide), rd_wr_other (by decide), rd_wr_apart (by decide) (by decide),
    rd_wr_apart (by decide) (by decide)]
  rfl

theorem active_holdEntered (s : State) (h : Fin 8) (x : Hold) : (s.holdEntered h x).bit F.ARB_HOLD_CTL.ACTIVE h = true := by
  rw [State.holdEntered, bit_wr_other (by decide), bit_wr_other (by decide), State.bit, rd_wr_apart (by decide) (by decide),
    rd_wr_same (by decide)]
  rfl

theorem broken_holdEntered (s : State) (h : Fin 8) (x : Hold) : (s.holdEntered h x).bit F.ARB_HOLD_CTL.BROKEN h = false := by
  rw [State.holdEntered, bit_wr_other (by decide), bit_wr_other (by decide), bit_wr_same (by decide) rfl]
  rfl

theorem holdEntered_kept (hkept : s.keptBut t L) (h : Fin 8) (x : Hold) (m0 : Part.regs ∈ L) (m1 : Part.holds ∈ L) :
    s.keptBut (t.holdEntered h x) L :=
  keptBut_wr (keptBut_wr (keptBut_wr (keptBut_wr (keptBut_holds hkept _ m1) _ _ _ _ m0) _ _ _ _ m0) _ _ _ _ m0) _ _ _ _ m0

theorem holdEntered_onlyRegs (honly : s.onlyRegs t [(.ARB_HOLD_CTL, h, 0), (.ARB_HOLD_OWNER, h, 0)]) (x : Hold) :
    s.onlyRegs (t.holdEntered h x) [(.ARB_HOLD_CTL, h, 0), (.ARB_HOLD_OWNER, h, 0)] := by
  have howner : (RegName.ARB_HOLD_OWNER, h.val % 2 ^ 14, 0 % 2 ^ 14) ∈ [(RegName.ARB_HOLD_CTL, h.val, 0), (.ARB_HOLD_OWNER, h.val, 0)] :=
    List.mem_cons_of_mem _ (elem_mem .ARB_HOLD_OWNER (h.isLt.trans (by decide)))
  have hholds : s.onlyRegs { t with holds := tset none t.holds h.val (some x) } [(.ARB_HOLD_CTL, h, 0), (.ARB_HOLD_OWNER, h, 0)] :=
    onlyRegs_regs honly rfl
  exact onlyRegs_wr (onlyRegs_wr (onlyRegs_wr_holdCtl (onlyRegs_wr_holdCtl hholds F.ARB_HOLD_CTL.ACTIVE rfl 1) F.ARB_HOLD_CTL.BROKEN rfl 0)
    F.ARB_HOLD_OWNER.REQ _ _ _ howner) F.ARB_HOLD_OWNER.EPOCH _ _ _ howner

/-! ### The four commands -/

/-- A SET that puts a hold in force. -/
theorem holdTried_free_reads {k pc req : Nat} (hnone : tget none s.holds h = none) (hslice : s.holdOn k pc = none) (hk : k < 12)
    (hreq : (req ≤ 26 ∧ s.bit F.PORT_LINK.UP req = true) ∨ req = 39) :
    (s.holdTried h k pc req).rd F.ARB_HOLD_CTL.RESULT h = (if s.bit F.ARB_HOLD_CTL.BROKEN h then 1 else 0) ∧
    (s.holdTried h k pc req).bit F.ARB_HOLD_CTL.ACTIVE h = true ∧ (s.holdTried h k pc req).bit F.ARB_HOLD_CTL.BROKEN h = false ∧
    tget none (s.holdTried h k pc req).holds h = some (s.newHold h k pc req) ∧
    s.keptBut (s.holdTried h k pc req) [.regs, .holds, .auditQ] ∧
    s.onlyRegs (s.holdTried h k pc req) [(.ARB_HOLD_CTL, h, 0), (.ARB_HOLD_OWNER, h, 0)] := by
  rw [holdTried_free hnone hslice hk hreq]
  obtain ⟨hkept, honly⟩ := holdAnswered_regsOnly s h k pc req (if s.bit F.ARB_HOLD_CTL.BROKEN h then 1 else 0)
  refine ⟨?_, active_holdEntered .., broken_holdEntered .., hold_holdEntered .., ?_, ?_⟩
  · rw [result_holdEntered, result_holdAnswered]
    split <;> rfl
  · exact holdEntered_kept (keptBut_mono hkept (by decide)) _ _ (by decide) (by decide)
  · exact holdEntered_onlyRegs (fun r i j hm => honly r i j fun hin => hm (List.mem_cons.2 (.inl (List.mem_singleton.1 hin)))) _

theorem exec_arbHoldRelease (hx : tget none s.holds h = some x) (hwriter : holdWriter a x.k x.req = true) (hbreaking : x.breaking = false)
    (hwait : holdWaits a s = false) (hfull : ∀ f, a = .fn f → s.auditFull = false) :
    ∃ t, exec (.arbHoldRelease a h) s = .next t ∧ (s.endHold h x).keptBut t [.auditQ] := by
  have hsettled : s.settleHold h = s := by rw [settleHold_some hx, hbreaking]; rfl
  obtain ⟨t, hexec, hkept⟩ := holdWrite_runs hwait hfull hsettled (.arbHoldRelease a h) fun s => match tget none s.holds h.val with
    | none => s
    | some x => onlyIf (holdWriter a x.k x.req) (s.endHold h x) s
  simp only [hx, hwriter, onlyIf, if_true] at hkept
  exact ⟨t, hexec, hkept⟩

theorem exec_arbHoldLeaseExpiry (hx : tget none s.holds h = some x) (hlease : x.until_ ≤ s.now) : exec (.arbHoldLeaseExpiry h) s =
    .next { s with holds := tset none s.holds h.val (some { x with breaking := true }) } := by
  show execArbHoldLeaseExpiry h s = _
  simp [execArbHoldLeaseExpiry, hx, hlease, onlyIf]

theorem exec_arbHoldBreak (hx : tget none s.holds h = some x) (hbreaking : x.breaking = true) :
    exec (.arbHoldBreak h) s = .next (s.breakHold h x) :=
  congrArg Host.Outcome.next ((settleHold_some hx).trans (onlyIf_pos hbreaking _ _))

end

/-- Settles O45: a SET that finds its slice free or held, and the end of a hold by RELEASE or by its break. -/
theorem arbHolds : Obligations.ArbHolds := by
  unfold Obligations.ArbHolds
  refine fun s h a hwait hfull => ⟨fun v hset hrel hnone hwriter => ?_, fun x hx => ⟨fun hwriter hbreaking => ?_, fun hlease => ?_,
    fun hbreaking => ?_⟩⟩
  · obtain ⟨t, hexec, hkept⟩ := holdWrite_runs hwait hfull (settleHold_none hnone) (.arbHoldSet a h v) fun s =>
      s.holdTried h (bitsOf v 19 16) (bitsOf v 25 20) (bitsOf v 13 8)
    rw [← exec_arbHoldSet hset hrel hwriter] at hexec
    have hregs := regs_of_kept hkept (by decide)
    refine ⟨fun hslice hk hreq => ?_, fun hslice => ?_⟩
    · obtain ⟨hresult, hactive, hbroken, hhold, hframe, honly⟩ := holdTried_free_reads hnone hslice hk hreq
      refine ⟨t, hexec, ?_, ?_, ?_, ?_, ?_, onlyRegs_regs honly hregs⟩
      · rw [rd_of_regs hregs, hresult]
      · rw [bit_of_regs hregs, hactive]
      · rw [bit_of_regs hregs, hbroken]
      · exact (congrArg (tget none · h.val) (hkept .holds (by decide))).trans hhold
      · exact keptBut_trans hframe (keptBut_mono hkept (by decide))
    · rw [holdTried_taken hslice] at hkept hregs
      obtain ⟨hframe, honly⟩ := holdAnswered_regsOnly s h (bitsOf v 19 16) (bitsOf v 25 20) (bitsOf v 13 8) 2
      refine ⟨t, hexec, ?_, keptBut_trans hframe (keptBut_mono hkept (by decide)), onlyRegs_regs honly hregs⟩
      rw [rd_of_regs hregs, result_holdAnswered]
  · obtain ⟨t, hexec, hkept⟩ := exec_arbHoldRelease hx hwriter hbreaking hwait hfull
    have hregs := regs_of_kept hkept (by decide)
    have hpcs : t.pcs = (s.endHold h x).pcs := hkept .pcs (by decide)
    refine ⟨t, hexec, ?_, ?_, fun j q => ?_, ?_, onlyRegs_regs (endHold_onlyRegs s h x) hregs⟩
    · rw [bit_of_regs hregs, active_endHold]
    · exact (congrArg (tget none · h.val) (hkept .holds (by decide))).trans (hold_endHold s h x)
    · rw [State.pc, hpcs]
      exact pc_endHold s h x j q
    · exact keptBut_trans (keptBut_mono (endHold_kept s h x) (by decide)) (keptBut_mono hkept (by decide))
  · exact ⟨_, exec_arbHoldLeaseExpiry hx hlease, tget_tset_same .., keptBut_holds (keptBut_refl s _) _ (by decide)⟩
  · refine ⟨_, exec_arbHoldBreak hx hbreaking, ?_, ?_, hold_endHold s h x, fun j q => pc_endHold s h x j q, ?_, ?_⟩
    · rw [State.breakHold, State.bit, rd_wr_apart (by decide) (by decide), ← State.bit, active_endHold]
    · exact bit_wr_same (by decide) rfl 1
    · exact keptBut_wr (endHold_kept s h x) _ _ _ _ (by decide)
    · exact onlyRegs_wr_holdCtl (endHold_onlyRegs s h x) F.ARB_HOLD_CTL.BROKEN rfl 1

end Sys2Proof.Machine
end

section
/-! The refresh of a pseudo-channel (R204, R206 to R208, R227, R235, R784). -/

set_option Elab.async false

namespace Sys2Proof.Machine

section
variable {s t u : State} {L : List Part} {l : List (RegName × Nat × Nat)} {k : Cluster} {p : PcIx}

/-! ### One PC changes, and a counter of it counts -/

theorem pcKey_ne {j q : Nat} (hq : q < 64) (h : (j, q) ≠ (k.val, p.val)) : j * 64 + q ≠ k.val * 64 + p.val := by
  have hp := p.isLt
  intro hkey
  exact h (Prod.ext (show j = k.val by omega) (show q = p.val by omega))

theorem pc_of_pcs (h : t.pcs = u.pcs) (j q : Nat) : t.pc j q = u.pc j q := by
  rw [State.pc, h, State.pc]

/-- The PC written holds what was written, and the others are as they were. -/
theorem pc_setPc (s : State) (k : Cluster) (p : PcIx) (v : Pc) : (s.setPc k p v).pc k p = v ∧
    ∀ j q, q < 64 → (j, q) ≠ (k.val, p.val) → (s.setPc k p v).pc j q = s.pc j q :=
  ⟨pc_setPc_same _ _ v, fun _ _ hq h => pc_setPc_other v (pcKey_ne hq h)⟩

theorem pcs_pmuPc (s : State) (i q e n : Nat) : (s.pmuPc i q e n).pcs = s.pcs := pmu_kept _ _ _ _ .pcs (by decide)

theorem rd_pmuPc {f : Fld} (h : f.reg ≠ .PMU_PC) (s : State) (i q e n i' j' : Nat) : (s.pmuPc i q e n).rd f i' j' = s.rd f i' j' :=
  rd_of_reg (reg_pmu_other h ..)

theorem keptBut_pmuPc (h : s.keptBut t L) (i q e n : Nat) (m0 : Part.regs ∈ L) : s.keptBut (t.pmuPc i q e n) L :=
  keptBut_trans h (keptBut_mono (pmu_kept _ _ _ _) fun _ hx => List.mem_singleton.1 hx ▸ m0)

theorem onlyRegs_pmuPc (h : s.onlyRegs t l) {e : Nat} (he : e < 32) (n : Nat) (m : (RegName.PMU_PC, k.val, p.val * 32 + e) ∈ l) :
    s.onlyRegs (t.pmuPc k p e n) l := by
  have hk : k.val % 2 ^ 14 = k.val := Nat.mod_eq_of_lt (k.isLt.trans (by decide))
  have hp : (p.val * 32 + e) % 2 ^ 14 = p.val * 32 + e := Nat.mod_eq_of_lt (by omega)
  have hset := onlyRegs_setReg h .PMU_PC k (p * 32 + e) (BitVec.ofNat 64 (((t.reg .PMU_PC k (p * 32 + e)).toNat + n) % 2 ^ 48))
    (by rwa [hk, hp])
  unfold State.pmuPc State.pmu
  split
  · exact h
  · exact hset

theorem toNat_reg_pmuPc (h : s.frozenNow = false) (i q e n : Nat) :
    ((s.pmuPc i q e n).reg .PMU_PC i (q * 32 + e)).toNat = ((s.reg .PMU_PC i (q * 32 + e)).toNat + n) % 2 ^ 48 := by
  have hpmu : s.pmuPc i q e n = s.setReg .PMU_PC i (q * 32 + e) (BitVec.ofNat 64 (((s.reg .PMU_PC i (q * 32 + e)).toNat + n) % 2 ^ 48)) :=
    if_neg (by simp [h])
  rw [hpmu, reg_setReg_same, BitVec.toNat_ofNat]
  omega

theorem keptBut_throttles (h : s.keptBut t L) (T : List Throttle) (m0 : Part.throttles ∈ L) : s.keptBut { t with throttles := T } L := by
  intro x hx
  have h := h x hx
  cases x
  case throttles => exact absurd m0 hx
  all_goals exact h

/-! ### A refresh (R204, R206 to R208, R227) -/

/-- The refresh sequence of a PC has come to `r`. -/
def State.atRef (s : State) (k : Cluster) (p : PcIx) (r : RefSt) : State := s.setPc k p { s.pc k p with ref := r }

theorem exec_refreshDue (h : s.isDue k p s.now = true) : exec (.refreshDue k p) s = .next
    (onlyIf (s.honours k p && (s.pc k p).ref == .idle) ((s.refillThrottles k p).atRef k p (.closing s.now)) (s.refillThrottles k p)) := by
  show execRefreshDue k p s = _
  rw [execRefreshDue, onlyIf_pos h]
  rfl

theorem tokens_refillThrottles {x : Throttle} (hx : x ∈ (s.refillThrottles k p).throttles) (hk : x.k = k.val) (hp : x.pc = p.val) :
    x.tokens = s.rd F.RG_CFG.BUDGET k := by
  obtain ⟨y, -, rfl⟩ := List.mem_map.1 hx
  by_cases hy : (y.k == k.val && y.pc == p.val) = true
  · rw [if_pos hy]
  · rw [if_neg hy] at hk hp
    exact absurd (by simp [hk, hp]) hy

theorem refillThrottles_kept (s : State) (i q : Nat) : s.keptBut (s.refillThrottles i q) [.pcs, .throttles] :=
  keptBut_throttles (keptBut_refl s _) _ (by decide)

theorem exec_refabIssue {due : Nat} (href : (s.pc k p).ref = .closing due) (hdram : s.dramOk = true)
    (hbanks : ∀ b ∈ (s.pc k p).banks, b.2.busy ≤ s.phy k s.now) : exec (.refabIssue k p) s = .next
    ((s.atRef k p (.stall (s.now + s.rd F.REF_PERIOD.TRFC_TS k))).pmuPc k p 9 1) := by
  have hall : ((s.pc k p).banks.all fun b => decide (b.2.busy ≤ s.phy k s.now)) = true := by simpa using hbanks
  show execRefabIssue k p s = _
  simp only [execRefabIssue, href, hdram, hall, onlyIf, Bool.and_self, if_true]
  rfl

theorem exec_refreshStallEnd {n : Nat} (href : (s.pc k p).ref = .stall n) (hn : n ≤ s.now) : exec (.refreshStallEnd k p) s = .next
    ((s.atRef k p .idle).pmuPc k p 10 (s.rd F.REF_PERIOD.TRFC_TS k)) := by
  show execRefreshStallEnd k p s = _
  simp only [execRefreshStallEnd, href, hn, onlyIf, decide_true, if_true]
  rfl

/-- A PC's refresh goes on, and event `e` counts: one PC and one counter change. -/
theorem atRef_pmuPc (s : State) (k : Cluster) (p : PcIx) (r : RefSt) {e : Nat} (he : e < 32) (n : Nat) :
    ((s.atRef k p r).pmuPc k p e n).pc k p = { s.pc k p with ref := r } ∧
    (∀ j q, q < 64 → (j, q) ≠ (k.val, p.val) → ((s.atRef k p r).pmuPc k p e n).pc j q = s.pc j q) ∧
    s.keptBut ((s.atRef k p r).pmuPc k p e n) [.pcs, .regs] ∧ s.onlyRegs ((s.atRef k p r).pmuPc k p e n) [(.PMU_PC, k, p * 32 + e)] := by
  have hpcs := pcs_pmuPc (s.atRef k p r) k p e n
  obtain ⟨hpc, hothers⟩ := pc_setPc s k p { s.pc k p with ref := r }
  exact ⟨(pc_of_pcs hpcs _ _).trans hpc, fun j q hq hne => (pc_of_pcs hpcs j q).trans (hothers j q hq hne),
    keptBut_pmuPc (keptBut_setPc (keptBut_refl s _) _ _ _ (by decide)) _ _ _ _ (by decide),
    onlyRegs_pmuPc (t := s.atRef k p r) (onlyRegs_refl s _) he n (List.mem_singleton_self _)⟩

end

/-- Settles O37: the buckets are refilled, then one PC closes, stalls or is done, and counts it. -/
theorem refreshSequence : Obligations.RefreshSequence := by
  unfold Obligations.RefreshSequence
  refine fun s k p => ⟨fun hdue => ⟨_, exec_refreshDue hdue, fun x hx => ?_, ?_, fun hhon href => ?_, fun hskip => ?_⟩,
    fun due href hdram hbanks => ?_, fun n href hn => ?_⟩
  · refine tokens_refillThrottles ?_
    unfold onlyIf at hx
    split at hx <;> exact hx
  · exact keptBut_onlyIf _ (keptBut_setPc (refillThrottles_kept s k p) _ _ _ (by decide)) (refillThrottles_kept s k p)
  · rw [onlyIf_pos (by simp [hhon, href])]
    exact pc_setPc (s.refillThrottles k p) k p _
  · rw [onlyIf_neg (by simp [hskip])]
    rfl
  · obtain ⟨hpc, hothers, hkept, honly⟩ := atRef_pmuPc s k p (.stall (s.now + s.rd F.REF_PERIOD.TRFC_TS k)) (e := 9) (by decide) 1
    exact ⟨_, exec_refabIssue href hdram hbanks, hpc, hothers, fun hrun => toNat_reg_pmuPc (s := s.atRef k p _) hrun k p 9 1, hkept, honly⟩
  · exact ⟨_, exec_refreshStallEnd href hn, atRef_pmuPc s k p .idle (by decide) _⟩

end Sys2Proof.Machine
end

section
/-! The refresh period and HOT (R205, R211 to R213, R240). -/

set_option Elab.async false

namespace Sys2Proof.Machine

section
variable {s t : State} {L : List Part} {l : List (RegName × Nat × Nat)} {k : Cluster} {v : W32} {f g : Fld} {i j : Nat}

/-! ### Fields written where a condition holds -/

theorem rd_onlyIf_wr_same (h : f.fits) (c : Bool) (v : Nat) :
    (onlyIf c (s.wr f v i j) s).rd f i j = if c then v % 2 ^ f.len else s.rd f i j := by
  cases c
  · rfl
  · exact rd_wr_same h v

theorem rd_onlyIf_wr_apart (h : f.fits) (ha : f.apart g) (c : Bool) (v : Nat) : (onlyIf c (s.wr f v i j) s).rd g i j = s.rd g i j := by
  cases c
  · rfl
  · exact rd_wr_apart h ha v

theorem keptBut_onlyIf_wr (h : s.keptBut t L) (c : Bool) (f : Fld) (v i j : Nat) (m0 : Part.regs ∈ L) :
    s.keptBut (onlyIf c (t.wr f v i j) t) L :=
  keptBut_onlyIf c (keptBut_wr h f v i j m0) h

theorem onlyRegs_onlyIf_wr (h : s.onlyRegs t l) (c : Bool) (f : Fld) (v : Nat) (n : Cluster) (m : (f.reg, n.val, 0) ∈ l) :
    s.onlyRegs (onlyIf c (t.wr f v n) t) l :=
  onlyRegs_onlyIf c (onlyRegs_wr_elem h f v n m) h

theorem bne_eq_decide (a b : Nat) : (a != b) = decide (a ≠ b) := by by_cases h : a = b <;> simp [h]

theorem toNat_bit (b : Bool) : (b.toNat % 2 == 1) = b := by cases b <;> rfl

theorem toNat_beq_one (b : Bool) : (b.toNat == 1) = b := by cases b <;> rfl

theorem keptBut_hotNext (h : s.keptBut t L) (x : List Nat) (m0 : Part.hotNext ∈ L) : s.keptBut { t with hotNext := x } L := by
  intro p hp
  have h := h p hp
  cases p
  case hotNext => exact absurd m0 hp
  all_goals exact h

/-- An audited change of a cluster's register leaves the registers as they are. -/
theorem auditReg_regs (s : State) (off old new : Nat) : (s.auditReg off old new).regs = s.regs := by
  unfold State.auditReg onlyIf
  split <;> rfl

theorem keptBut_auditReg (h : s.keptBut t L) (off old new : Nat) (m0 : Part.auditQ ∈ L) : s.keptBut (t.auditReg off old new) L :=
  keptBut_onlyIf _ (keptBut_audit h _ _ _ _ _ _ _ m0) h

/-! ### REF_PERIOD_SWITCH (R205, R213) -/

/-- The origin is `b`, the period `per` and HOT `hot`, and no change is pending. -/
def State.periodSet (s : State) (k : Cluster) (b per : Nat) (hot : Bool) : State :=
  (((s.wr F.REF_ORIGIN.STAMP b k).wr F.REF_PERIOD.TREFI_TS per k).wr F.REF_CTRL.HOT hot.toNat k).wr F.REF_NEXTSW.STAMP 0 k

/-- What was decided for B has taken effect. -/
def State.periodSwitched (s : State) (k : Cluster) : State :=
  { s.periodSet k (s.rd F.REF_NEXTSW.STAMP k) (if s.hotNext.contains k.val then 2340 else 4680) (s.hotNext.contains k.val) with
    hotNext := s.hotNext.filter (· != k.val) }

theorem exec_refPeriodSwitch (hpend : s.rd F.REF_NEXTSW.STAMP k ≠ 0) (hnow : s.now = s.rd F.REF_NEXTSW.STAMP k) :
    exec (.refPeriodSwitch k) s = .next (s.periodSwitched k) := by
  have hdue : (s.rd F.REF_NEXTSW.STAMP k != 0 && s.now == s.rd F.REF_NEXTSW.STAMP k) = true := by simp [hpend, hnow]
  show execRefPeriodSwitch k s = _
  rw [execRefPeriodSwitch, onlyIf_pos hdue]
  rfl

theorem reads_periodSet (s : State) (k : Cluster) {b per : Nat} (hb : b < 2 ^ 64) (hper : per < 2 ^ 16) (hot : Bool) :
    (s.periodSet k b per hot).rd F.REF_ORIGIN.STAMP k = b ∧ (s.periodSet k b per hot).bit F.REF_CTRL.HOT k = hot ∧
    (s.periodSet k b per hot).rd F.REF_PERIOD.TREFI_TS k = per ∧ (s.periodSet k b per hot).rd F.REF_NEXTSW.STAMP k = 0 := by
  unfold State.periodSet
  refine ⟨?_, ?_, ?_, rd_wr_same (by decide) 0⟩
  · rw [rd_wr_other (by decide), rd_wr_other (by decide), rd_wr_other (by decide), rd_wr_same (by decide)]
    exact Nat.mod_eq_of_lt hb
  · rw [bit_wr_other (by decide), bit_wr_same (by decide) rfl, toNat_bit]
  · rw [rd_wr_other (by decide), rd_wr_other (by decide), rd_wr_same (by decide)]
    exact Nat.mod_eq_of_lt hper

theorem reads_periodSwitched (s : State) (k : Cluster) :
    (s.periodSwitched k).rd F.REF_ORIGIN.STAMP k = s.rd F.REF_NEXTSW.STAMP k ∧
    (s.periodSwitched k).bit F.REF_CTRL.HOT k = s.hotNext.contains k.val ∧
    (s.periodSwitched k).rd F.REF_PERIOD.TREFI_TS k = (if s.hotNext.contains k.val then 2340 else 4680) ∧
    (s.periodSwitched k).rd F.REF_NEXTSW.STAMP k = 0 := by
  have hregs : (s.periodSwitched k).regs = (s.periodSet k (s.rd F.REF_NEXTSW.STAMP k) (if s.hotNext.contains k.val then 2340 else 4680)
    (s.hotNext.contains k.val)).regs := rfl
  rw [rd_of_regs hregs, bit_of_regs hregs, rd_of_regs hregs, rd_of_regs hregs]
  exact reads_periodSet s k (rd_lt s F.REF_NEXTSW.STAMP k 0) (by split <;> decide) _

theorem periodSet_kept (s : State) (k : Cluster) (b per : Nat) (hot : Bool) : s.keptBut (s.periodSet k b per hot) [.regs, .hotNext] :=
  keptBut_wr (keptBut_wr (keptBut_wr (keptBut_wr (keptBut_refl s _) _ _ _ _ (by decide)) _ _ _ _ (by decide)) _ _ _ _ (by decide))
    _ _ _ _ (by decide)

theorem periodSet_onlyRegs (s : State) (k : Cluster) (b per : Nat) (hot : Bool) :
    s.onlyRegs (s.periodSet k b per hot) [(.REF_ORIGIN, k, 0), (.REF_PERIOD, k, 0), (.REF_CTRL, k, 0), (.REF_NEXTSW, k, 0)] := by
  have h := onlyRegs_wr_elem (onlyRegs_refl s [(.REF_ORIGIN, k, 0), (.REF_PERIOD, k, 0), (.REF_CTRL, k, 0), (.REF_NEXTSW, k, 0)])
    F.REF_ORIGIN.STAMP b k (by simp [F.REF_ORIGIN.STAMP])
  exact onlyRegs_wr_elem (onlyRegs_wr_elem (onlyRegs_wr_elem h F.REF_PERIOD.TREFI_TS per k (by simp [F.REF_PERIOD.TREFI_TS]))
    F.REF_CTRL.HOT hot.toNat k (by simp [F.REF_CTRL.HOT])) F.REF_NEXTSW.STAMP 0 k (by simp [F.REF_NEXTSW.STAMP])

/-! ### A decision about HOT (R211 to R213) -/

/-- A decision leaves the state, or puts a stamp in REF_NEXTSW and notes what HOT is to be. -/
theorem decideHot_cases (s : State) (i : Nat) :
    s.decideHot i = s ∨ ∃ b x, s.decideHot i = { s.wr F.REF_NEXTSW.STAMP b i with hotNext := x } := by
  unfold State.decideHot
  extract_lets
  split
  · exact .inl rfl
  · exact .inr ⟨_, _, rfl⟩

theorem rd_decideHot (hf : f.reg ≠ .REF_NEXTSW) (s : State) (i : Nat) : (s.decideHot i).rd f i = s.rd f i := by
  obtain h | ⟨b, x, h⟩ := decideHot_cases s i <;> rw [h]
  exact rd_wr_other (f := F.REF_NEXTSW.STAMP) hf b i 0

theorem keptBut_decideHot (h : s.keptBut t L) (i : Nat) (m0 : Part.regs ∈ L) (m1 : Part.hotNext ∈ L) : s.keptBut (t.decideHot i) L := by
  obtain ht | ⟨b, x, ht⟩ := decideHot_cases t i <;> rw [ht]
  · exact h
  · exact keptBut_hotNext (keptBut_wr h _ _ _ _ m0) _ m1

theorem onlyRegs_decideHot (h : s.onlyRegs t l) (m : (RegName.REF_NEXTSW, k.val, 0) ∈ l) : s.onlyRegs (t.decideHot k) l := by
  obtain ht | ⟨b, x, ht⟩ := decideHot_cases t k <;> rw [ht]
  · exact h
  · exact onlyRegs_wr_elem h F.REF_NEXTSW.STAMP b k m

/-! ### REF_CTRL_WRITE (R240) -/

/-- REF_CTRL with FORCE_HOT of the word `v`, and its HOT_EXIT_C when that is at most 85. -/
def State.refCtrlSet (s : State) (k : Cluster) (v : W32) : State :=
  let s := s.wr F.REF_CTRL.FORCE_HOT (bitsOf v 30 30) k
  onlyIf (decide (bitsOf v 7 0 ≤ 85)) (s.wr F.REF_CTRL.HOT_EXIT_C (bitsOf v 7 0) k) s

/-- The same with REJ cleared where a 1 is written to it, unless it was set in this tick. -/
def State.refCtrlWritten (s : State) (k : Cluster) (v : W32) : State :=
  let t := s.refCtrlSet k v
  onlyIf (v.getLsbD 29 && s.eventsOf F.REF_CTRL.REJ k == 0) (t.wr F.REF_CTRL.REJ 0 k) t

theorem events_refCtrlSet (s : State) (k : Cluster) (v : W32) : (s.refCtrlSet k v).events = s.events := by
  unfold State.refCtrlSet onlyIf
  dsimp only
  split <;> rfl

theorem exec_refCtrlWrite (h : s.pfHeld = false) : exec (.refCtrlWrite k v) s = .next
    (((s.refCtrlWritten k v).auditReg (0x1040000 + k.val * 0x100000) (s.reg .REF_CTRL k).toNat
      ((s.refCtrlWritten k v).reg .REF_CTRL k).toNat).decideHot k) := by
  obtain ⟨hfull, hboot⟩ := pfHeld_false h
  have hev : (s.refCtrlSet k v).eventsOf F.REF_CTRL.REJ k = s.eventsOf F.REF_CTRL.REJ k := by
    rw [State.eventsOf, events_refCtrlSet, State.eventsOf]
  have hrej : onlyIf (bitsOf v 29 29 == 1) ((s.refCtrlSet k v).ack F.REF_CTRL.REJ k) (s.refCtrlSet k v) = s.refCtrlWritten k v := by
    rw [bitsOf_single, toNat_beq_one, State.ack, hev, State.refCtrlWritten]
    cases v.getLsbD 29 <;> rfl
  show execRefCtrlWrite k v s = _
  rw [← hrej]
  simp only [execRefCtrlWrite, orWait_open hfull, hboot, Bool.false_eq_true, if_false]
  rfl

theorem forceHot_refCtrlWritten (s : State) (k : Cluster) (v : W32) : (s.refCtrlWritten k v).bit F.REF_CTRL.FORCE_HOT k = v.getLsbD 30 := by
  rw [State.refCtrlWritten, State.bit, rd_onlyIf_wr_apart (by decide) (by decide), State.refCtrlSet, rd_onlyIf_wr_apart (by decide) (by decide),
    rd_wr_same (by decide), bitsOf_single]
  exact toNat_bit _

theorem hotExit_refCtrlWritten (s : State) (k : Cluster) (v : W32) : (s.refCtrlWritten k v).rd F.REF_CTRL.HOT_EXIT_C k =
    if v.toNat % 256 ≤ 85 then v.toNat % 256 else s.rd F.REF_CTRL.HOT_EXIT_C k := by
  have hbits : bitsOf v 7 0 = v.toNat % 256 := rfl
  have hlen : v.toNat % 256 % 2 ^ F.REF_CTRL.HOT_EXIT_C.len = v.toNat % 256 := Nat.mod_mod _ _
  rw [State.refCtrlWritten, rd_onlyIf_wr_apart (by decide) (by decide), State.refCtrlSet, rd_onlyIf_wr_same (by decide),
    rd_wr_apart (by decide) (by decide), hbits, hlen]
  simp only [decide_eq_true_eq]

theorem hot_refCtrlWritten (s : State) (k : Cluster) (v : W32) : (s.refCtrlWritten k v).bit F.REF_CTRL.HOT k = s.bit F.REF_CTRL.HOT k := by
  rw [State.refCtrlWritten, State.bit, rd_onlyIf_wr_apart (by decide) (by decide), State.refCtrlSet, rd_onlyIf_wr_apart (by decide) (by decide),
    rd_wr_apart (by decide) (by decide), State.bit]

theorem rej_refCtrlWritten (s : State) (k : Cluster) (v : W32) : (s.refCtrlWritten k v).bit F.REF_CTRL.REJ k =
    (s.bit F.REF_CTRL.REJ k && !(v.getLsbD 29 && s.eventsOf F.REF_CTRL.REJ k == 0)) := by
  have hset : (s.refCtrlSet k v).rd F.REF_CTRL.REJ k = s.rd F.REF_CTRL.REJ k := by
    rw [State.refCtrlSet, rd_onlyIf_wr_apart (by decide) (by decide), rd_wr_apart (by decide) (by decide)]
  rw [State.refCtrlWritten, State.bit, rd_onlyIf_wr_same (by decide), hset, State.bit]
  cases v.getLsbD 29 && s.eventsOf F.REF_CTRL.REJ k == 0
  case false => simp
  case true => simp

theorem refCtrlWritten_regsOnly (s : State) (k : Cluster) (v : W32) : s.regsOnly (s.refCtrlWritten k v) [(.REF_CTRL, k, 0)] := by
  constructor
  · exact keptBut_onlyIf_wr (keptBut_onlyIf_wr (keptBut_wr (keptBut_refl s _) _ _ _ _ (by decide)) _ _ _ _ _ (by decide)) _ _ _ _ _ (by decide)
  · exact onlyRegs_onlyIf_wr (onlyRegs_onlyIf_wr (onlyRegs_wr_elem (onlyRegs_refl s _) F.REF_CTRL.FORCE_HOT _ k (List.mem_singleton_self _)) _
      F.REF_CTRL.HOT_EXIT_C _ k (List.mem_singleton_self _)) _ F.REF_CTRL.REJ _ k (List.mem_singleton_self _)

end

/-- Settles O38: the switch writes its four fields, and a write of REF_CTRL is followed by a decision that touches REF_NEXTSW alone. -/
theorem refreshPeriod : Obligations.RefreshPeriod := by
  unfold Obligations.RefreshPeriod
  refine fun s k => ⟨fun hpend hnow => ?_, fun v hheld => ?_⟩
  · obtain ⟨horg, hhot, hper, hnone⟩ := reads_periodSwitched s k
    refine ⟨_, exec_refPeriodSwitch hpend hnow, horg.trans hnow.symm, hhot, ?_, hnone, ?_,
      keptBut_hotNext (periodSet_kept s k _ _ _) _ (by decide), onlyRegs_regs (periodSet_onlyRegs s k _ _ _) rfl⟩
    · rw [hper, hhot]
    · exact List.filter_congr fun x _ => bne_eq_decide x k
  · have hregs := auditReg_regs (s.refCtrlWritten k v) (0x1040000 + k.val * 0x100000) (s.reg .REF_CTRL k).toNat
      ((s.refCtrlWritten k v).reg .REF_CTRL k).toNat
    have hrd {f : Fld} (hf : f.reg ≠ .REF_NEXTSW) := (rd_decideHot hf _ k).trans (rd_of_regs hregs f k 0)
    obtain ⟨hkept, honly⟩ := refCtrlWritten_regsOnly s k v
    refine ⟨_, exec_refCtrlWrite hheld, ?_, ?_, ?_, ?_, ?_, ?_⟩
    · rw [State.bit, hrd (by decide), ← State.bit, forceHot_refCtrlWritten]
    · rw [hrd (by decide), hotExit_refCtrlWritten]
    · rw [State.bit, hrd (by decide), ← State.bit, hot_refCtrlWritten]
    · rw [State.bit, hrd (by decide), ← State.bit, rej_refCtrlWritten]
    · exact keptBut_decideHot (keptBut_auditReg (keptBut_mono hkept (by decide)) _ _ _ (by decide)) _ (by decide) (by decide)
    · refine onlyRegs_decideHot (onlyRegs_regs (fun r i j hm => honly r i j fun hin => hm ?_) hregs) (by simp)
      exact List.mem_cons.2 (.inl (List.mem_singleton.1 hin))

end Sys2Proof.Machine
end

section
/-! Row disturbance (R221, R224, R228, R229, R238, R241 to R243). -/

set_option Elab.async false

namespace Sys2Proof.Machine

section
variable {s t : State} {L : List Part} {k : Cluster} {p : PcIx} {v : W32}

/-! ### TRACKER_WINDOW_END (R221, R224, R241) -/

theorem exec_trackerWindowEnd (htick : s.now % 38400000 = 0) (hrun : s.clk.running = true) : exec .trackerWindowEnd s = .next s.trkClear :=
  congrArg Host.Outcome.next (onlyIf_pos (by simp [htick, hrun]) _ _)

/-- A PC whose trackers are empty, with no bank in overflow. -/
def Pc.cleared (c : Pc) : Pc := { c with banks := c.banks.map fun (b : Nat × Bank) => (b.1, { b.2 with trk := [], overflow := false }) }

theorem banks_cleared (c : Pc) : ∀ b ∈ c.cleared.banks, b.2.trk = [] ∧ b.2.overflow = false := by
  intro b hb
  obtain ⟨b', -, rfl⟩ := List.mem_map.1 hb
  exact ⟨rfl, rfl⟩

theorem trkClear_of_new (h : s.now / 38400000 ≠ s.trkWindow) : s.trkClear =
    { s with pcs := s.pcs.map fun e => (e.1, e.2.cleared), throttles := [], thrOff := [], trkWindow := s.now / 38400000 } := if_neg h

/-! ### RFM_ISSUE (R228, R229) -/

/-- A bank once one of the RFMs it owes has been issued: it is busy for tRFMpb. -/
def State.rfmBank (s : State) (k : Cluster) (b : Bank) : Bank :=
  { b with owed := b.owed - 1, busy := s.phy k s.now + s.rd F.REF_TIM.TRFMPB k }

/-- The RFM of a bank is issued, before it is counted. -/
def State.rfmIssued (s : State) (k : Cluster) (p : PcIx) (sid : Fin 4) (b : Fin 16) : State :=
  (s.setPc k p ((s.pc k p).setBank sid b (s.rfmBank k ((s.pc k p).bank sid b)))).incRc F.RG_STAT.RFMS k

theorem exec_rfmIssue {sid : Fin 4} {b : Fin 16} (howed : 0 < ((s.pc k p).bank sid b).owed) (hact : s.mayAct k p = true)
    (hbusy : ((s.pc k p).bank sid b).busy ≤ s.phy k s.now)
    (htrc : ∀ l, ((s.pc k p).bank sid b).lastAct = some l → l + s.trc k ≤ s.phy k s.now)
    (hread : ((s.pc k p).bank sid b).owed = 15 ∨ s.class1Waits (s.pc k p) sid b = false)
    (hdue : s.phyTicks k (s.rd F.REF_TIM.TRFMPB k) < s.toDue k p s.now) :
    exec (.rfmIssue k p sid b) s = .next ((s.rfmIssued k p sid b).pmuPc k p 11 1) := by
  have hfree : (match ((s.pc k p).bank sid b).lastAct with | some l => decide (l + s.trc k ≤ s.phy k s.now) | none => true) = true := by
    cases hl : ((s.pc k p).bank sid b).lastAct with
    | none => rfl
    | some l => exact decide_eq_true (htrc l hl)
  have hread' : (((s.pc k p).bank sid b).owed == 15 || !s.class1Waits (s.pc k p) sid b) = true := by simpa using hread
  refine congrArg Host.Outcome.next (onlyIf_pos ?_ _ _)
  simp only [howed, hact, hbusy, hdue, hread', decide_true, Bool.true_and, Bool.and_true]
  exact hfree

theorem pcs_rfmIssued (s : State) (k : Cluster) (p : PcIx) (sid : Fin 4) (b : Fin 16) : (s.rfmIssued k p sid b).pcs =
    (s.setPc k p ((s.pc k p).setBank sid b (s.rfmBank k ((s.pc k p).bank sid b)))).pcs := rfl

/-! ### RG_CFG_WRITE (R238, R241 to R243) -/

theorem keptBut_thrOff (h : s.keptBut t L) (x : List Nat) (m0 : Part.thrOff ∈ L) : s.keptBut { t with thrOff := x } L := by
  intro p hp
  have h := h p hp
  cases p
  case thrOff => exact absurd m0 hp
  all_goals exact h

/-- RG_CFG with THR_EN of the word `v` and its other fields where they are in range. -/
def State.rgSet (s : State) (k : Cluster) (v : W32) : State :=
  let s := s.wr F.RG_CFG.THR_EN (v.getLsbD 31).toNat k
  let s := onlyIf (decide (4 ≤ bitsOf v 28 24 ∧ bitsOf v 28 24 ≤ 16)) (s.wr F.RG_CFG.NR_K (bitsOf v 28 24) k) s
  let s := onlyIf (bitsOf v 23 20 != 0) (s.wr F.RG_CFG.BUDGET (bitsOf v 23 20) k) s
  onlyIf (decide (256 ≤ bitsOf v 15 0 ∧ bitsOf v 15 0 ≤ 32768)) (s.wr F.RG_CFG.ACT_LIMIT (bitsOf v 15 0) k) s

/-- THR_EN has gone from `was` to `on`: its fall ends the cluster's throttles, its rise begins throttling with the next window. -/
def State.thrTurned (s : State) (k : Cluster) (was on : Bool) : State :=
  let s := onlyIf (was && !on) { s with throttles := s.throttles.filter (·.k != k.val) } s
  onlyIf (!was && on) { s with thrOff := s.thrOff ++ [k.val] } s

/-- The state after a write of RG_CFG, before it is audited. -/
def State.rgWritten (s : State) (k : Cluster) (v : W32) : State := (s.rgSet k v).thrTurned k (s.bit F.RG_CFG.THR_EN k) (v.getLsbD 31)

theorem exec_rgCfgWrite (h : s.pfHeld = false) : exec (.rgCfgWrite k v) s = .next
    ((s.rgWritten k v).auditReg (0x1040040 + k.val * 0x100000) (s.reg .RG_CFG k).toNat ((s.rgWritten k v).reg .RG_CFG k).toNat) := by
  obtain ⟨hfull, hboot⟩ := pfHeld_false h
  show execRgCfgWrite k v s = _
  simp only [execRgCfgWrite, orWait_open hfull, hboot, bitsOf_single, toNat_beq_one, Bool.false_eq_true, if_false]
  rfl

theorem thrEn_rgSet (s : State) (k : Cluster) (v : W32) : (s.rgSet k v).bit F.RG_CFG.THR_EN k = v.getLsbD 31 := by
  rw [State.rgSet, State.bit, rd_onlyIf_wr_apart (by decide) (by decide), rd_onlyIf_wr_apart (by decide) (by decide),
    rd_onlyIf_wr_apart (by decide) (by decide), rd_wr_same (by decide)]
  exact toNat_bit _

theorem nrK_rgSet (s : State) (k : Cluster) (v : W32) : (s.rgSet k v).rd F.RG_CFG.NR_K k =
    if 4 ≤ v.toNat / 2 ^ 24 % 32 ∧ v.toNat / 2 ^ 24 % 32 ≤ 16 then v.toNat / 2 ^ 24 % 32 else s.rd F.RG_CFG.NR_K k := by
  have hbits : bitsOf v 28 24 = v.toNat / 2 ^ 24 % 32 := congrArg (· % 32) (Nat.shiftRight_eq_div_pow ..)
  have hlen : v.toNat / 2 ^ 24 % 32 % 2 ^ F.RG_CFG.NR_K.len = v.toNat / 2 ^ 24 % 32 := Nat.mod_mod _ _
  rw [State.rgSet, rd_onlyIf_wr_apart (by decide) (by decide), rd_onlyIf_wr_apart (by decide) (by decide), rd_onlyIf_wr_same (by decide),
    rd_wr_apart (by decide) (by decide), hbits, hlen]
  simp only [decide_eq_true_eq]

theorem budget_rgSet (s : State) (k : Cluster) (v : W32) : (s.rgSet k v).rd F.RG_CFG.BUDGET k =
    if v.toNat / 2 ^ 20 % 16 = 0 then s.rd F.RG_CFG.BUDGET k else v.toNat / 2 ^ 20 % 16 := by
  have hbits : bitsOf v 23 20 = v.toNat / 2 ^ 20 % 16 := congrArg (· % 16) (Nat.shiftRight_eq_div_pow ..)
  have hlen : v.toNat / 2 ^ 20 % 16 % 2 ^ F.RG_CFG.BUDGET.len = v.toNat / 2 ^ 20 % 16 := Nat.mod_mod _ _
  rw [State.rgSet, rd_onlyIf_wr_apart (by decide) (by decide), rd_onlyIf_wr_same (by decide), rd_onlyIf_wr_apart (by decide) (by decide),
    rd_wr_apart (by decide) (by decide), hbits, hlen]
  simp only [bne_iff_ne, ne_eq, ite_not]

theorem actLimit_rgSet (s : State) (k : Cluster) (v : W32) : (s.rgSet k v).rd F.RG_CFG.ACT_LIMIT k =
    if 256 ≤ v.toNat % 65536 ∧ v.toNat % 65536 ≤ 32768 then v.toNat % 65536 else s.rd F.RG_CFG.ACT_LIMIT k := by
  have hbits : bitsOf v 15 0 = v.toNat % 65536 := rfl
  have hlen : v.toNat % 65536 % 2 ^ F.RG_CFG.ACT_LIMIT.len = v.toNat % 65536 := Nat.mod_mod _ _
  rw [State.rgSet, rd_onlyIf_wr_same (by decide), rd_onlyIf_wr_apart (by decide) (by decide), rd_onlyIf_wr_apart (by decide) (by decide),
    rd_wr_apart (by decide) (by decide), hbits, hlen]
  simp only [decide_eq_true_eq]

theorem rgSet_regsOnly (s : State) (k : Cluster) (v : W32) : s.keptBut (s.rgSet k v) [.regs] ∧ s.onlyRegs (s.rgSet k v) [(.RG_CFG, k, 0)] := by
  constructor
  · exact keptBut_onlyIf_wr (keptBut_onlyIf_wr (keptBut_onlyIf_wr (keptBut_wr (keptBut_refl s _) _ _ _ _ (by decide)) _ _ _ _ _ (by decide))
      _ _ _ _ _ (by decide)) _ _ _ _ _ (by decide)
  · exact onlyRegs_onlyIf_wr (onlyRegs_onlyIf_wr (onlyRegs_onlyIf_wr (onlyRegs_wr_elem (onlyRegs_refl s _) F.RG_CFG.THR_EN _ k
      (List.mem_singleton_self _)) _ F.RG_CFG.NR_K _ k (List.mem_singleton_self _)) _ F.RG_CFG.BUDGET _ k (List.mem_singleton_self _)) _
      F.RG_CFG.ACT_LIMIT _ k (List.mem_singleton_self _)

theorem thrTurned_kept (s : State) (k : Cluster) (was on : Bool) : s.keptBut (s.thrTurned k was on) [.throttles, .thrOff] := by
  have h := keptBut_onlyIf (was && !on) (keptBut_throttles (keptBut_refl s [.throttles, .thrOff])
    (s.throttles.filter (·.k != k.val)) (by decide)) (keptBut_refl s _)
  exact keptBut_onlyIf _ (keptBut_thrOff h _ (by decide)) h

theorem throttles_thrTurned (s : State) (k : Cluster) (was on : Bool) : (s.thrTurned k was on).throttles =
    if was = true ∧ on = false then s.throttles.filter (·.k ≠ k.val) else s.throttles := by
  have hne : (fun x : Throttle => x.k != k.val) = fun x => decide (x.k ≠ k.val) := funext fun x => bne_eq_decide x.k k
  cases was <;> cases on <;> simp only [State.thrTurned, ← hne] <;> rfl

end

/-- Settles O39: the end of a window, the issue of an RFM, and a write of RG_CFG, which is audited. -/
theorem rowGuard : Obligations.RowGuard := by
  unfold Obligations.RowGuard
  refine fun s => ⟨fun htick hrun => ⟨fun hnew => ?_, fun hold => ?_⟩,
    fun k p sid b howed hact hbusy htrc hread hdue => ?_, fun k v hheld => ?_⟩
  · have hkept := trkClear_kept s
    have hexec := exec_trackerWindowEnd htick hrun
    rw [trkClear_of_new hnew] at hkept hexec
    refine ⟨_, hexec, rfl, rfl, rfl, fun e he => ?_, fun k p => tget_map_snd Pc.blank Pc.cleared rfl s.pcs _, hkept⟩
    obtain ⟨e', -, rfl⟩ := List.mem_map.1 he
    exact banks_cleared e'.2
  · rw [exec_trackerWindowEnd htick hrun, State.trkClear, if_pos hold]
  · have hpcs : ((s.rfmIssued k p sid b).pmuPc k p 11 1).pcs = _ := (pcs_pmuPc _ _ _ _ _).trans (pcs_rfmIssued s k p sid b)
    obtain ⟨hpc, hothers⟩ := pc_setPc s k p ((s.pc k p).setBank sid b (s.rfmBank k ((s.pc k p).bank sid b)))
    refine ⟨_, exec_rfmIssue howed hact hbusy htrc hread hdue, (pc_of_pcs hpcs _ _).trans hpc,
      fun j q hq hne => (pc_of_pcs hpcs j q).trans (hothers j q hq hne), ?_, ?_, ?_⟩
    · rw [rd_pmuPc (by decide), State.rfmIssued, rd_incRc_same (by decide)]
      rfl
    · exact keptBut_pmuPc (keptBut_incRc (keptBut_setPc (keptBut_refl s _) _ _ _ (by decide)) _ _ _ _ (by decide)) _ _ _ _ (by decide)
    · have hcount : s.onlyRegs (s.rfmIssued k p sid b) [(.RG_STAT, k.val, 0), (.PMU_PC, k.val, p.val * 32 + 11)] :=
        onlyRegs_incRc (onlyRegs_refl s _) F.RG_STAT.RFMS k 0 1 (mem_elem (k.isLt.trans (by decide)) List.mem_cons_self)
      exact onlyRegs_pmuPc hcount (by decide) 1 (List.mem_cons_of_mem _ (List.mem_singleton_self _))
  · have hturned := thrTurned_kept (s.rgSet k v) k (s.bit F.RG_CFG.THR_EN k) (v.getLsbD 31)
    have hregs := (auditReg_regs (s.rgWritten k v) (0x1040040 + k.val * 0x100000) (s.reg .RG_CFG k).toNat
      ((s.rgWritten k v).reg .RG_CFG k).toNat).trans (regs_of_kept hturned (by decide))
    obtain ⟨hkept, honly⟩ := rgSet_regsOnly s k v
    have hkept' : s.keptBut (s.rgWritten k v) [.regs, .throttles, .thrOff, .auditQ] :=
      keptBut_trans (keptBut_mono hkept (by decide)) (keptBut_mono hturned (by decide))
    have hthr : (s.rgSet k v).throttles = s.throttles := hkept .throttles (by decide)
    refine ⟨_, exec_rgCfgWrite hheld, (bit_of_regs hregs _ _ _).trans (thrEn_rgSet s k v), (rd_of_regs hregs _ _ _).trans (nrK_rgSet s k v),
      (rd_of_regs hregs _ _ _).trans (budget_rgSet s k v), (rd_of_regs hregs _ _ _).trans (actLimit_rgSet s k v), ?_,
      keptBut_auditReg hkept' _ _ _ (by decide), onlyRegs_regs honly hregs⟩
    rw [keptBut_auditReg (keptBut_refl _ [.auditQ]) _ _ _ (by decide) .throttles (by decide), State.rgWritten, throttles_thrTurned, hthr]

end Sys2Proof.Machine
end

section
/-! Maintenance windows (R214 to R218, R264, R632, R634, R706, R707). -/

set_option Elab.async false

namespace Sys2Proof.Machine

/-- The PCs that a window of the kind `kind` named PC `q` takes: all of the stack for RETRAIN, else the one. -/
def windowPcs (kind q : Nat) : List Nat := if kind = 0 then List.range 64 else [q]

theorem mem_windowPcs {kind q p : Nat} (hp : p < 64) (h : kind = 0 ∨ p = q) : p ∈ windowPcs kind q := by
  unfold windowPcs
  split
  · exact List.mem_range.2 hp
  · next hkind => exact List.mem_singleton.2 (h.resolve_left hkind)

/-- A PC that no window of the kind takes shares its key with none that it takes. -/
theorem key_of_windowPcs {k kind q j p r : Nat} (hq : q < 64) (hp : p < 64) (hfree : j ≠ k ∨ (kind ≠ 0 ∧ p ≠ q))
    (hr : r ∈ windowPcs kind q) : j * 64 + p ≠ k * 64 + r := by
  unfold windowPcs at hr
  split at hr
  · have := List.mem_range.1 hr
    omega
  · have := List.mem_singleton.1 hr
    omega

theorem nodup_windowPcs (kind q : Nat) : (windowPcs kind q).Nodup := by
  unfold windowPcs
  split
  · exact List.nodup_range
  · exact List.nodup_singleton q

/-! ### Operations that change one PC -/

/-- Of a stack's PCs `g s p` changes at most PC `p`, which goes over as `R` says, and it changes nothing else. -/
def OnePc (R : Pc → Pc → Prop) (k : Nat) (g : State → Nat → State) : Prop :=
  ∀ s p, (g s p = s ∧ R (s.pc k p) (s.pc k p)) ∨ ∃ v, g s p = s.setPc k p v ∧ R (s.pc k p) v

section
variable {R : Pc → Pc → Prop} {k : Nat} {g : State → Nat → State} (hg : OnePc R k g)
include hg

theorem OnePc.same (s : State) (p : Nat) : R (s.pc k p) ((g s p).pc k p) := by
  obtain ⟨h, hR⟩ | ⟨v, h, hR⟩ := hg s p <;> rw [h]
  · exact hR
  · rwa [pc_setPc_same]

theorem OnePc.other (s : State) (p : Nat) {j q : Nat} (hne : j * 64 + q ≠ k * 64 + p) : (g s p).pc j q = s.pc j q := by
  obtain ⟨h, -⟩ | ⟨v, h, -⟩ := hg s p <;> rw [h]
  exact pc_setPc_other v hne

theorem OnePc.kept (s : State) (p : Nat) : s.keptBut (g s p) [.pcs] := by
  obtain ⟨h, -⟩ | ⟨v, h, -⟩ := hg s p <;> rw [h]
  · exact keptBut_refl s _
  · exact keptBut_setPc (keptBut_refl s _) _ _ _ (by decide)

theorem OnePc.foldl_kept (s : State) (l : List Nat) : s.keptBut (l.foldl g s) [.pcs] :=
  keptBut_foldl l g hg.kept (keptBut_refl s _)

theorem OnePc.foldl_other (s : State) (l : List Nat) {j q : Nat} (hne : ∀ p ∈ l, j * 64 + q ≠ k * 64 + p) :
    (l.foldl g s).pc j q = s.pc j q := by
  induction l generalizing s with
  | nil => rfl
  | cons p l ih =>
    obtain ⟨hp, hl⟩ := List.forall_mem_cons.1 hne
    rw [List.foldl_cons, ih (g s p) hl, hg.other s p hp]

theorem OnePc.foldl_same (s : State) {l : List Nat} (hl : l.Nodup) {p : Nat} (hp : p ∈ l) : R (s.pc k p) ((l.foldl g s).pc k p) := by
  induction l generalizing s with
  | nil => cases hp
  | cons q l ih =>
    obtain ⟨hq, hl⟩ := List.nodup_cons.1 hl
    rw [List.foldl_cons]
    rcases List.mem_cons.1 hp with rfl | hp
    · rw [hg.foldl_other _ l fun x hx hkey => hq (by rwa [show p = x by omega])]
      exact hg.same s p
    · have hne : p ≠ q := fun h => hq (h ▸ hp)
      have h := ih (g s q) hl hp
      rwa [hg.other s q (by omega)] at h

end

/-- A PC that serves or sleeps is taken for a window. -/
def PcState.taken (st : PcState) : PcState := if st = .serving ∨ st = .spare ∨ st = .selfRefresh then .training else st

theorem onePc_takePc (k : Nat) : OnePc (fun a b => b.st = a.st.taken) k (fun s p => s.takePc k p) := by
  intro s p
  simp only [State.takePc, Bool.or_eq_true, beq_iff_eq]
  split
  · next h => exact .inr ⟨_, rfl, (if_pos (h.imp_right .inl)).symm⟩
  · next h =>
    split
    · next hsr => exact .inr ⟨_, rfl, (if_pos (.inr (.inr hsr))).symm⟩
    · next hsr => exact .inl ⟨rfl, (if_neg fun hst => hst.elim (h ∘ .inl) fun hst => hst.elim (h ∘ .inr) hsr).symm⟩

theorem onePc_returnPc (k : Nat) : OnePc (fun _ b => b.st ≠ .training) k (fun s p => s.returnPc k p) := by
  intro s p
  simp only [State.returnPc, beq_iff_eq]
  split
  · refine .inr ⟨_, rfl, ?_⟩
    dsimp only
    split
    · decide
    · split <;> decide
  · next h => exact .inl ⟨rfl, h⟩

section
variable {s t s₀ : State} {L : List Part} {l : List (RegName × Nat × Nat)} {k : Cluster}

theorem keptBut_windows (h : s.keptBut t L) (T : Tbl (Option Window)) (m0 : Part.windows ∈ L) : s.keptBut { t with windows := T } L := by
  intro p hp
  have h := h p hp
  cases p
  case windows => exact absurd m0 hp
  all_goals exact h

/-! ### WINDOW_PUBLISH (R214 to R216, R264) -/

/-- A window that does not run yet, and the triggers that still wait. -/
def State.windowPut (s : State) (k : Cluster) (x : List Nat) : State :=
  { s with windows := tset none s.windows k.val (some ⟨false, [], none, false, false⟩), triggers := x }

/-- REF_MAINT and REF_MAINT_START name a window. -/
def State.windowNamed (s : State) (k : Cluster) (kind q len start : Nat) : State :=
  ((((s.wr F.REF_MAINT_START.STAMP start k).wr F.REF_MAINT.VALID 1 k).wr F.REF_MAINT.KIND kind k).wr F.REF_MAINT.PC q k).wr
    F.REF_MAINT.LEN_US len k

/-- The triggers that wait once a window of the kind `kind` is published. -/
def State.triggersLeft (s : State) (k : Cluster) (kind : Fin 3) : List Nat :=
  if kind = 0 then s.triggers.filter (· != k.val) else s.triggers

/-- What a window is published for: a trigger, a unit that waits for its test, or a permanent row. -/
def State.windowCause (s : State) (k : Cluster) (kind : Fin 3) (p : PcIx) (len : Nat) : Prop :=
  (kind = 0 ∧ s.triggers.contains k.val = true ∧ len = 40) ∨
    (kind = 1 ∧ (∃ x ∈ s.tests, x.1 = k.val ∧ x.2.pc = p.val) ∧ 1 ≤ len ∧ len ≤ 40) ∨
    (kind = 2 ∧ (∃ u ∈ s.hist.units, u.cls = 0 ∧ u.cluster = k.val ∧ u.permanent = true ∧ u.hardRepair = false ∧ u.pc = p.val) ∧
      1 ≤ len ∧ len ≤ 40)

theorem exec_windowPublish {kind : Fin 3} {p : PcIx} {len start : Nat} (hup : s.cccUp k = true) (hvalid : s.bit F.REF_MAINT.VALID k = false)
    (hfits : s.windowFits start (usTicks len) = true) (hwhy : s.windowCause k kind p len) : exec (.windowPublish k kind p len start) s =
    .next ((s.windowPut k (s.triggersLeft k kind)).windowNamed k kind (if kind = 0 then 0 else p.val) len start) := by
  refine congrArg Host.Outcome.next (onlyIf_pos ?_ _ _)
  simp only [hup, hvalid, hfits, Bool.true_and, Bool.not_false, Bool.and_true]
  rcases hwhy with ⟨rfl, htrig, rfl⟩ | ⟨rfl, ⟨x, hx, hk, hp⟩, hlo, hhi⟩ | ⟨rfl, ⟨u, hu, hcls, hk, hperm, hhard, hp⟩, hlo, hhi⟩
  · simpa using htrig
  · exact Bool.and_eq_true_iff.2 ⟨List.any_eq_true.2 ⟨x, hx, by simp [hk, hp]⟩, decide_eq_true ⟨hlo, hhi⟩⟩
  · exact Bool.and_eq_true_iff.2 ⟨List.any_eq_true.2 ⟨u, hu, by simp [hcls, hk, hperm, hhard, hp]⟩, decide_eq_true ⟨hlo, hhi⟩⟩

theorem contains_triggersLeft (s : State) (k : Cluster) : (s.triggersLeft k 0).contains k.val = false := by
  simp [State.triggersLeft]

theorem reads_windowNamed (s : State) (k : Cluster) {kind q len start : Nat} (hkind : kind < 4) (hq : q < 64) (hlen : len < 2 ^ 16)
    (hstart : start < 2 ^ 64) : (s.windowNamed k kind q len start).bit F.REF_MAINT.VALID k = true ∧
    (s.windowNamed k kind q len start).rd F.REF_MAINT.KIND k = kind ∧ (s.windowNamed k kind q len start).rd F.REF_MAINT.PC k = q ∧
    (s.windowNamed k kind q len start).rd F.REF_MAINT.LEN_US k = len ∧
    (s.windowNamed k kind q len start).rd F.REF_MAINT_START.STAMP k = start := by
  unfold State.windowNamed
  refine ⟨?_, ?_, ?_, ?_, ?_⟩
  · rw [State.bit, rd_wr_apart (by decide) (by decide), rd_wr_apart (by decide) (by decide), rd_wr_apart (by decide) (by decide),
      rd_wr_same (by decide)]
    rfl
  · rw [rd_wr_apart (by decide) (by decide), rd_wr_apart (by decide) (by decide), rd_wr_same (by decide)]
    exact Nat.mod_eq_of_lt hkind
  · rw [rd_wr_apart (by decide) (by decide), rd_wr_same (by decide)]
    exact Nat.mod_eq_of_lt hq
  · rw [rd_wr_same (by decide)]
    exact Nat.mod_eq_of_lt hlen
  · rw [rd_wr_other (by decide), rd_wr_other (by decide), rd_wr_other (by decide), rd_wr_other (by decide), rd_wr_same (by decide)]
    exact Nat.mod_eq_of_lt hstart

theorem keptBut_windowNamed (h : s.keptBut t L) (k : Cluster) (kind q len start : Nat) (m0 : Part.regs ∈ L) :
    s.keptBut (t.windowNamed k kind q len start) L :=
  keptBut_wr (keptBut_wr (keptBut_wr (keptBut_wr (keptBut_wr h _ _ _ _ m0) _ _ _ _ m0) _ _ _ _ m0) _ _ _ _ m0) _ _ _ _ m0

theorem onlyRegs_windowNamed (h : s.onlyRegs t [(.REF_MAINT, k.val, 0), (.REF_MAINT_START, k.val, 0)]) (kind q len start : Nat) :
    s.onlyRegs (t.windowNamed k kind q len start) [(.REF_MAINT, k.val, 0), (.REF_MAINT_START, k.val, 0)] := by
  have hmaint {u : State} (hu : s.onlyRegs u [(.REF_MAINT, k.val, 0), (.REF_MAINT_START, k.val, 0)]) (f : Fld) (hf : f.reg = .REF_MAINT)
      (v : Nat) := onlyRegs_wr_elem hu f v k (hf ▸ List.mem_cons_self)
  have hstart := onlyRegs_wr_elem h F.REF_MAINT_START.STAMP start k (List.mem_cons_of_mem _ (List.mem_singleton_self _))
  exact hmaint (hmaint (hmaint (hmaint hstart F.REF_MAINT.VALID rfl 1) F.REF_MAINT.KIND rfl kind) F.REF_MAINT.PC rfl q)
    F.REF_MAINT.LEN_US rfl len

theorem windowPut_kept (s : State) (k : Cluster) (x : List Nat) : s.keptBut (s.windowPut k x) [.regs, .windows, .triggers] := by
  intro p hp
  have hwin := keptBut_windows (keptBut_refl s [.regs, .windows, .triggers])
    (tset none s.windows k.val (some ⟨false, [], none, false, false⟩)) (by decide) p hp
  cases p
  case triggers => exact absurd (by decide) hp
  all_goals exact hwin

/-! ### WINDOW_START (R215, R218) -/

/-- The window runs; `bad` are the columns that could not be corrected, and `failed` is what its test is to find. -/
def Window.begun (w : Window) (bad : List Nat) (failed : Bool) : Window := { w with running := true, bad := bad, tested := some failed }

/-- The window of the stack is `w`. -/
def State.windowSet (s : State) (k : Cluster) (w : Option Window) : State := { s with windows := tset none s.windows k.val w }

theorem exec_windowStart {w : Window} {fails : Bool} {bad : List Nat} (hw : tget none s.windows k = some w) (hrun : w.running = false)
    (hvalid : s.bit F.REF_MAINT.VALID k = true) (hnow : s.now = s.rd F.REF_MAINT_START.STAMP k) : exec (.windowStart k fails bad) s = .next
    ((windowPcs (s.rd F.REF_MAINT.KIND k) (s.rd F.REF_MAINT.PC k)).foldl (fun s p => s.takePc k p) (s.windowSet k
      (some (w.begun bad (fails && s.rd F.REF_MAINT.KIND k != 0))))) := by
  show execWindowStart k fails bad s = _
  simp only [execWindowStart, hw, hrun, hvalid, hnow, Bool.not_true, Bool.or_false, bne_self_eq_false, Bool.false_eq_true, if_false,
    windowPcs]
  split <;> rfl

/-! ### The work of a window (R631 to R636, R707) leaves the windows and REF_MAINT as they are -/

/-- From `s` to `t` the windows and what REF_MAINT says of them stay. -/
def SameWindow (s t : State) : Prop := t.windows = s.windows ∧ ∀ i j, t.reg .REF_MAINT i j = s.reg .REF_MAINT i j

theorem sameWindow_refl (s : State) : SameWindow s s := ⟨rfl, fun _ _ => rfl⟩

theorem SameWindow.trans (h : SameWindow s₀ s) (g : SameWindow s t) : SameWindow s₀ t :=
  ⟨g.1.trans h.1, fun i j => (g.2 i j).trans (h.2 i j)⟩

theorem SameWindow.of_eq (h : SameWindow s₀ s) (hr : t.regs = s.regs := by rfl) (hw : t.windows = s.windows := by rfl) : SameWindow s₀ t :=
  h.trans ⟨hw, fun i j => by rw [State.reg, hr, State.reg]⟩

theorem sameWindow_ite {c : Prop} [Decidable c] (h : SameWindow s₀ s) (g : SameWindow s₀ t) : SameWindow s₀ (if c then s else t) := by
  split <;> assumption

theorem sameWindow_wr {f : Fld} {v i j : Nat} (h : SameWindow s₀ s) (hf : f.reg ≠ .REF_MAINT := by decide) :
    SameWindow s₀ (s.wr f v i j) :=
  h.trans ⟨rfl, fun i' j' => reg_wr_other (Ne.symm hf) v i' j'⟩

theorem sameWindow_record {e : ErrRec} (h : SameWindow s₀ s) : SameWindow s₀ (s.record e) :=
  h.trans ⟨record_kept e .windows (by decide), fun i j => reg_record (by decide) (by decide) i j⟩

theorem sameWindow_setHist {u : HistUnit} (h : SameWindow s₀ s) : SameWindow s₀ (s.setHist u) := h.of_eq

theorem sameWindow_commitHist (h : SameWindow s₀ s) : SameWindow s₀ s.commitHist := h.of_eq

theorem sameWindow_beginMigration {i lpc reason : Nat} (h : SameWindow s₀ s) : SameWindow s₀ (s.beginMigration i lpc reason) := by
  unfold State.beginMigration
  split
  · exact h
  · next x _ _ =>
    have hnamed : SameWindow s₀ ((((s.wr F.CLU_MIG.ACTIVE 1 i).wr F.CLU_MIG.LPC lpc i).wr F.CLU_MIG.TARGET x i).wr F.CLU_MIG.WATERMARK 0 i) :=
      sameWindow_wr (sameWindow_wr (sameWindow_wr (sameWindow_wr h)))
    have hbusy : SameWindow s₀ ((State.setMap _ F.CLU_PCSPARE.MAP x false i).wr F.RAS_MIGCTL.BUSY 1 i) := sameWindow_wr (sameWindow_wr hnamed)
    exact sameWindow_commitHist hbusy.of_eq

theorem sameWindow_startWanted {i : Nat} (h : SameWindow s₀ s) : SameWindow s₀ (s.startWanted i) := by
  unfold State.startWanted
  refine sameWindow_ite h ?_
  split
  · exact h
  · dsimp only
    split
    · exact h.of_eq
    · exact sameWindow_beginMigration h.of_eq

theorem sameWindow_markPermanent {u : HistUnit} {sub d : Nat} {rec_ : Bool} (h : SameWindow s₀ s) :
    SameWindow s₀ (s.markPermanent u sub d rec_) := by
  unfold State.markPermanent
  extract_lets _ s1 s2
  have h2 : SameWindow s₀ s2 := sameWindow_commitHist (sameWindow_setHist (sameWindow_record h))
  exact sameWindow_ite (sameWindow_startWanted h2.of_eq) h2

theorem sameWindow_event1 {cls cluster a b d : Nat} {rec_ : Bool} (h : SameWindow s₀ s) :
    SameWindow s₀ (s.event1 cls cluster a b d rec_) :=
  sameWindow_ite h (sameWindow_ite h.of_eq (sameWindow_ite (sameWindow_markPermanent (sameWindow_setHist h)) (sameWindow_setHist h)))

theorem sameWindow_rowPermanent {u : HistUnit} {sub : Nat} {rec_ : Bool} (h : SameWindow s₀ s) :
    SameWindow s₀ (s.rowPermanent u sub rec_) := by
  have hbank (cls cluster a b : Nat) : SameWindow s₀ ((s.markPermanent u sub 1 rec_).event1 cls cluster a b 2) :=
    sameWindow_event1 (sameWindow_markPermanent h)
  exact sameWindow_ite (sameWindow_markPermanent (hbank _ _ _ _)) (hbank _ _ _ _)

theorem sameWindow_judge {u : HistUnit} {sub : Nat} (h : SameWindow s₀ s) : SameWindow s₀ (s.judge u sub) :=
  sameWindow_ite (sameWindow_rowPermanent h) (sameWindow_markPermanent h)

theorem sameWindow_rewriteRow {i q sid b row : Nat} {bad : List Nat} (h : SameWindow s₀ s) :
    SameWindow s₀ (s.rewriteRow i q sid b row bad) :=
  foldl_inv (SameWindow s₀) _ _ (fun _ _ _ h => h.of_eq) s h

theorem sameWindow_patternTest {i q : Nat} {fails : Bool} {bad : List Nat} (h : SameWindow s₀ s) :
    SameWindow s₀ (s.patternTest i q fails bad) := by
  unfold State.patternTest
  split
  · exact h
  · have htests (x : List (Nat × HistUnit)) : SameWindow s₀ { s with tests := x } := h.of_eq
    have hrow {c : Prop} [Decidable c] (x : List (Nat × HistUnit)) (sid b row : Nat) :
        SameWindow s₀ (if c then State.rewriteRow { s with tests := x } i q sid b row bad else { s with tests := x }) :=
      sameWindow_ite (sameWindow_rewriteRow (htests x)) (htests x)
    exact sameWindow_ite (sameWindow_judge (hrow _ _ _ _)) (sameWindow_setHist (hrow _ _ _ _))

theorem sameWindow_softRepair {i q : Nat} {bad : List Nat} (h : SameWindow s₀ s) : SameWindow s₀ (s.softRepair i q bad) := by
  unfold State.softRepair
  split
  · exact h
  · exact sameWindow_record (sameWindow_setHist (sameWindow_rewriteRow h))

theorem sameWindow_putBack {i q kind : Nat} {bad : List Nat} (h : SameWindow s₀ s) : SameWindow s₀ (s.putBack i q kind bad) := by
  unfold State.putBack
  split
  · exact h
  · exact sameWindow_ite (sameWindow_rewriteRow h) h

theorem sameWindow_windowWork {i q kind : Nat} {w : Window} (h : SameWindow s₀ s) : SameWindow s₀ (s.windowWork i q kind w) :=
  sameWindow_ite h (sameWindow_ite (sameWindow_putBack h) (sameWindow_ite (sameWindow_patternTest h) (sameWindow_softRepair h)))

/-! ### WINDOW_END (R215, R218) -/

/-- The window is over; CCCk counts its next period from the end of a RETRAIN window whose results were not applied. -/
def State.windowOver (s : State) (k : Cluster) (w : Window) : State :=
  { s.windowSet k none with
    rtrFrom := if s.rd F.REF_MAINT.KIND k = 0 ∧ w.tested = some true then tset 0 s.rtrFrom k.val s.now else s.rtrFrom }

/-- The window is over and its work is made. -/
def State.windowDone (s : State) (k : Cluster) (w : Window) : State :=
  (s.windowOver k w).windowWork k (s.rd F.REF_MAINT.PC k) (s.rd F.REF_MAINT.KIND k) w

/-- Its PCs return to service. -/
def State.windowLeft (s : State) (k : Cluster) (w : Window) : State :=
  (windowPcs (s.rd F.REF_MAINT.KIND k) (s.rd F.REF_MAINT.PC k)).foldl (fun s p => s.returnPc k p) (s.windowDone k w)

theorem sameWindow_windowDone (s : State) (k : Cluster) (w : Window) : SameWindow (s.windowSet k none) (s.windowDone k w) :=
  sameWindow_windowWork (sameWindow_refl (s.windowSet k none)).of_eq

theorem rd_windowDone {f : Fld} (hf : f.reg = .REF_MAINT) (s : State) (k : Cluster) (w : Window) : (s.windowDone k w).rd f k = s.rd f k :=
  rd_of_reg (by rw [hf]; exact (sameWindow_windowDone s k w).2 k 0)

theorem exec_windowEnd {w : Window} (hw : tget none s.windows k = some w) (hrun : w.running = true)
    (hend : s.rd F.REF_MAINT_START.STAMP k + s.windowLen k ≤ s.now) :
    exec (.windowEnd k) s = .next (((s.windowLeft k w).clearReg .REF_MAINT k).clearReg .REF_MAINT_START k) := by
  have hover : ¬(!w.running || decide (s.now < s.rd F.REF_MAINT_START.STAMP k + s.windowLen k)) = true := by simp [hrun, hend]
  show execWindowEnd k s = _
  rw [State.windowLeft, ← rd_windowDone rfl s k w, ← rd_windowDone (f := F.REF_MAINT.PC) rfl s k w]
  simp only [execWindowEnd, hw, if_neg hover]
  rfl

theorem windowLeft_windows (s : State) (k : Cluster) (w : Window) : tget none (s.windowLeft k w).windows k = none := by
  have hfold : (s.windowLeft k w).windows = (s.windowDone k w).windows := (onePc_returnPc k).foldl_kept _ _ .windows (by decide)
  rw [hfold, (sameWindow_windowDone s k w).1]
  exact tget_tset_same ..

theorem valid_reset : ∀ k : Cluster,
    ((RegName.REF_MAINT.reset k 0).toNat >>> F.REF_MAINT.VALID.lo % 2 ^ F.REF_MAINT.VALID.len == 1) = false := by decide

theorem valid_cleared (s : State) (k : Cluster) : ((s.clearReg .REF_MAINT k).clearReg .REF_MAINT_START k).bit F.REF_MAINT.VALID k = false := by
  have hreg : ((s.clearReg .REF_MAINT k).clearReg .REF_MAINT_START k).reg F.REF_MAINT.VALID.reg k = RegName.REF_MAINT.reset k 0 := by
    rw [State.reg_eq, clearReg_regs, regIn_tdel_other _ (by decide), clearReg_regs]
    exact regIn_tdel_same _ _ _ _
  rw [State.bit, State.rd, hreg]
  exact valid_reset k

theorem onlyRegs_clearReg (h : s.onlyRegs t l) (r : RegName) (m : (r, k.val, 0) ∈ l) : s.onlyRegs (t.clearReg r k) l := by
  rw [State.onlyRegs_eq] at h ⊢
  exact onlyIn_tdel h r k 0 (mem_elem (k.isLt.trans (by decide)) m)

theorem windowDone_retrain (h : s.rd F.REF_MAINT.KIND k = 0) (w : Window) : s.windowDone k w = s.windowOver k w := if_pos (.inl h)

theorem windowOver_kept (s : State) (k : Cluster) (w : Window) : s.keptBut (s.windowOver k w) [.windows, .rtrFrom] := by
  intro p hp
  have hwin := keptBut_windows (keptBut_refl s [.windows, .rtrFrom]) (tset none s.windows k.val none) (by decide) p hp
  cases p
  case rtrFrom => exact absurd (by decide) hp
  all_goals exact hwin

theorem windowLeft_kept (h : s.rd F.REF_MAINT.KIND k = 0) (w : Window) : s.keptBut (s.windowLeft k w) [.windows, .rtrFrom, .pcs] := by
  have hfold := (onePc_returnPc k).foldl_kept (s.windowDone k w) (windowPcs (s.rd F.REF_MAINT.KIND k) (s.rd F.REF_MAINT.PC k))
  rw [windowDone_retrain h] at hfold
  rw [State.windowLeft, windowDone_retrain h]
  exact keptBut_trans (keptBut_mono (windowOver_kept s k w) (by decide)) (keptBut_mono hfold (by decide))

end

/-- Settles O40: a window is named, takes its PCs one by one, and gives them back when its work is made. -/
theorem maintenanceWindows : Obligations.MaintenanceWindows := by
  unfold Obligations.MaintenanceWindows
  refine fun s k => ⟨fun kind p len start hup hvalid hfits hstart hwhy => ?_, fun w fails bad hw hrun hvalid hnow => ?_,
    fun w hw hrun hend => ?_⟩
  · have hlen : len < 2 ^ 16 := by omega
    obtain ⟨hval, hkind, hpc, hlen, hstamp⟩ := reads_windowNamed (s.windowPut k (s.triggersLeft k kind)) k (kind := kind)
      (q := if kind = 0 then 0 else p.val) (by omega) (by split <;> omega) hlen hstart
    refine ⟨_, exec_windowPublish hup hvalid hfits hwhy, hval, hkind, hpc, hlen, hstamp, ?_,
      keptBut_windowNamed (windowPut_kept s k _) _ _ _ _ _ (by decide), onlyRegs_windowNamed (onlyRegs_refl s _) _ _ _ _⟩
    rintro rfl
    exact contains_triggersLeft s k
  · have htake := onePc_takePc k
    have hp64 := rd_lt s F.REF_MAINT.PC k 0
    have hfold := htake.foldl_kept (s.windowSet k (some (w.begun bad (fails && s.rd F.REF_MAINT.KIND k != 0))))
      (windowPcs (s.rd F.REF_MAINT.KIND k) (s.rd F.REF_MAINT.PC k))
    refine ⟨_, exec_windowStart hw hrun hvalid hnow, ⟨w.begun bad (fails && s.rd F.REF_MAINT.KIND k != 0), ?_, rfl⟩,
      fun p hp htaken => ?_, fun j p hp hfree => ?_, ?_⟩
    · exact (congrArg (tget none · k.val) (hfold .windows (by decide))).trans (tget_tset_same ..)
    · exact htake.foldl_same _ (nodup_windowPcs _ _) (mem_windowPcs hp htaken)
    · exact htake.foldl_other _ _ fun q hq => key_of_windowPcs hp64 hp hfree hq
    · exact keptBut_trans (keptBut_windows (keptBut_refl s _) _ (by decide)) (keptBut_mono hfold (by decide))
  · refine ⟨_, exec_windowEnd hw hrun hend, windowLeft_windows s k w, valid_cleared _ k, fun p hp htaken => ?_, fun h0 => ⟨?_, ?_⟩⟩
    · exact (onePc_returnPc k).foldl_same (s.windowDone k w) (nodup_windowPcs _ _) (mem_windowPcs hp htaken)
    · exact keptBut_clearReg (keptBut_clearReg (keptBut_mono (windowLeft_kept h0 w) (by decide)) _ _ _ (by decide)) _ _ _ (by decide)
    · have honly := onlyRegs_regs (onlyRegs_refl s [(.REF_MAINT, k.val, 0), (.REF_MAINT_START, k.val, 0)])
        (regs_of_kept (windowLeft_kept h0 w) (by decide))
      exact onlyRegs_clearReg (onlyRegs_clearReg honly .REF_MAINT List.mem_cons_self) .REF_MAINT_START (by simp)

end Sys2Proof.Machine
end

section
/-! Self-refresh: what an SR_ASK goes by in a tick of CLK_TS without an edge of CLK_PHY (R37, R231, R244). -/

set_option Elab.async false

namespace Sys2Proof.Machine

/-- Stamp 200,002 in READY: stack 0 is in service with 64 PCs at 6.4 Gb/s, so that CLK_PHY0 has two ticks in three of CLK_TS and none in this
one. PC 0 has been idle for 100,002 ticks, and SR_IDLE_US reads 100 µs. -/
def State.resting : State :=
  let s := [(F.GLOBAL_STATE.STATE, 2), (F.CLOCK_STATUS.PHY_LOCK, 1), (F.CLOCK_PHYPLL.MULT, 32), (F.PHY_ID.PCS, 64), (F.PHY_STATUS.SITE, 3),
    (F.REF_PERIOD.TREFI_TS, 4680), (F.SR_CFG.SR_EN, 1), (F.SR_CFG.SR_IDLE_US, 100)].foldl (fun s e => s.wr e.1 e.2) State.reset
  { s with
    clk := { Clk.reset with now := 200002, running := true }
    pcs := [(0, { Pc.blank with st := .serving, idleSince := 100000 })] }

/-- In the tick before, SR_IDLE_US has been written from 100 to 10. -/
def State.idleLowered : State :=
  let s := State.resting.wr F.SR_CFG.SR_IDLE_US 10
  { s with regs0 := s.regs, regs1 := State.resting.regs }

theorem idle_idleLowered : State.idleLowered.pcIdle 0 0 = true ∧ State.idleLowered.windowSoon 0 0 = false ∧
    State.idleLowered.bit F.SR_CFG.SR_EN 0 = true ∧
    State.idleLowered.idleFrom 0 0 + 1200 * State.idleLowered.rd0 F.SR_CFG.SR_IDLE_US 0 ≤ State.idleLowered.now := by decide +kernel

theorem toDue_idleLowered : 300 < State.idleLowered.toDue 0 0 State.idleLowered.now := by decide +kernel

/-- CLK_PHY0 goes by the 100 µs until its next tick, and the PC does not ask. -/
theorem srAsk_idleLowered (t : State) (h : exec (.srAsk 0 0) State.idleLowered = .next t) : (t.pc 0 0).sr = .awake := by
  obtain rfl := Host.Outcome.next.inj h
  decide +kernel

/-- Refutes O41: a new SR_IDLE_US applies from the next tick of CLK_PHY (R244, `State.rdPhy`), where the statement takes what the register held
as the tick of CLK_TS began. The two differ in the tick after a write when that tick has no edge of CLK_PHY. -/
theorem not_selfRefresh : ¬ Obligations.SelfRefresh := by
  unfold Obligations.SelfRefresh
  intro h
  obtain ⟨hfirst, -⟩ := h
  obtain ⟨hask, -⟩ := hfirst State.idleLowered 0 0
  obtain ⟨hidle, hwindow, hen, hlong⟩ := idle_idleLowered
  obtain ⟨t, hexec, hpc, -⟩ :=
    hask (.inl ⟨hidle, hwindow, .inr ⟨hen, hlong⟩⟩) (by decide +kernel) (by decide +kernel) toDue_idleLowered
  have hasking : (t.pc 0 0).sr = .asking := congrArg Pc.sr hpc
  exact absurd (hasking.symm.trans (srAsk_idleLowered t hexec)) (by decide)

end Sys2Proof.Machine
end

section
/-! The commands of PHY_TRN_CTRL and the writes of a training image (R255, R266, R272 to R274, R279, R280). -/

set_option Elab.async false

namespace Sys2Proof.Machine
section
variable {s t : State} {L : List Part} {k : Cluster} {e : SiteEnv} {v : VerifyEnv}

/-! ### A write of OP (R279) -/

/-- What OP runs, and its audit entry. -/
def State.trnRun (s : State) (k op : Nat) (run : State → State) : State :=
  (run s).audit 1 0 0 (0x1050020 + k * 0x100000) (s.reg .PHY_TRN_CTRL k).toNat op

theorem trnOp_open (hdram : s.dramOk = true) (hstate : s.inReady = true ∨ s.inHold = true) (k op : Nat) (run : State → State) :
    s.trnOp k op run = if !s.stackIdle k then s.raise F.PHY_TRN_CTRL.REJ k else s.trnRun k op run := by
  have hopen : ¬((!s.inReady && !s.inHold) || !s.dramOk) = true := by
    rcases hstate with h | h <;> simp [h, hdram]
  exact if_neg hopen

theorem trnOp_busy (hdram : s.dramOk = true) (hstate : s.inReady = true ∨ s.inHold = true) (hidle : s.stackIdle k = false) (op : Nat)
    (run : State → State) : s.trnOp k op run = s.raise F.PHY_TRN_CTRL.REJ k := by
  rw [trnOp_open hdram hstate, hidle]
  rfl

theorem trnOp_idle (hdram : s.dramOk = true) (hstate : s.inReady = true ∨ s.inHold = true) (hidle : s.stackIdle k = true) (op : Nat)
    (run : State → State) : s.trnOp k op run = s.trnRun k op run := by
  rw [trnOp_open hdram hstate, hidle]
  rfl

theorem rd_trnRun (s : State) (k op : Nat) (run : State → State) (g : Fld) (i j : Nat) :
    (s.trnRun k op run).rd g i j = (run s).rd g i j :=
  rd_of_regs rfl g i j

theorem trnRun_kept {op : Nat} {run : State → State} (h : s.keptBut (run s) [.regs]) : s.keptBut (s.trnRun k op run) [.regs, .auditQ] :=
  keptBut_audit (keptBut_mono h (by decide)) _ _ _ _ _ _ _ (by decide)

theorem trnRun_onlyRegs {op : Nat} {run : State → State} {l : List (RegName × Nat × Nat)} (h : s.onlyRegs (run s) l) :
    s.onlyRegs (s.trnRun k op run) l :=
  onlyRegs_regs h rfl

/-- RESTORE on a write of OP: the PCs in self-refresh or frozen take the image, or are trained. -/
def State.restoreAll (s : State) (k : Nat) (e : SiteEnv) (v : VerifyEnv) : State :=
  let p := s.restorePcs k e v (s.trainable k)
  (p.1.settle k (!p.1.bit F.PHY_STATUS.RESTORED k)).outOfUse k (s.trainable k) p.2

theorem exec_train (hfull : s.auditFull = false) :
    exec (.train k e) s = .next (s.trnOp k 1 fun s => s.retrainAll k e) :=
  orWait_open hfull (.train k e) fun s => .next (s.trnOp k 1 fun s => s.retrainAll k e)

theorem exec_restore (hfull : s.auditFull = false) (h1 : s.rd F.PHY_STATUS.SITE k ≠ 1) (h2 : s.rd F.PHY_STATUS.SITE k ≠ 2) :
    exec (.restore k e v) s = .next (s.trnOp k 2 fun s => s.restoreAll k e v) := by
  show execRestore k e v s = _
  simp only [execRestore, h1, h2, and_false, if_false]
  exact orWait_open hfull _ _

theorem exec_verify (hfull : s.auditFull = false) :
    exec (.verify k v) s = .next (s.trnOp k 3 fun s => s.postVerify k v) :=
  orWait_open hfull (.verify k v) fun s => .next (s.trnOp k 3 fun s => s.postVerify k v)

/-- Each of the three commands is a write of OP. -/
theorem exec_trnCommand (hfull : s.auditFull = false) (h1 : s.rd F.PHY_STATUS.SITE k ≠ 1) (h2 : s.rd F.PHY_STATUS.SITE k ≠ 2)
    {c : Instr} (hc : c ∈ [Instr.train k e, .restore k e v, .verify k v]) : ∃ op run, exec c s = .next (s.trnOp k op run) := by
  simp only [List.mem_cons, List.not_mem_nil, or_false] at hc
  rcases hc with rfl | rfl | rfl
  · exact ⟨_, _, exec_train hfull⟩
  · exact ⟨_, _, exec_restore hfull h1 h2⟩
  · exact ⟨_, _, exec_verify hfull⟩

/-! ### TRAIN (R255, R266) -/

theorem siteView_retrainAll (s : State) (k : Nat) (e : SiteEnv) : ∃ st,
    (s.retrainAll k e).siteView k = (((s.siteView k).lasting e.timeUs.toNat).stampedAt s.now).inSite st := by
  unfold State.retrainAll
  extract_lets ps
  split
  rename_i u lost hu
  have h0 : u.siteView k = (s.siteView k).lasting e.timeUs.toNat := by
    rw [← siteView_trainPcs s k e ps 0, hu]
  obtain ⟨hnow, -⟩ := siteView_reads h0
  obtain ⟨st, -, h1⟩ := siteView_outOfUse (u.settle k true) k ps lost
  refine ⟨st, ?_⟩
  rw [h1, siteView_settle, h0, hnow]
  rfl

/-! ### RESTORE of an accepted image (R266, R273, R274) -/

/-- No PC failed to train: none leaves. -/
theorem outOfUse_nil (s : State) (k : Nat) (ps : List Nat) : s.outOfUse k ps [] = s := by
  refine onlyIf_neg ?_ _ _
  cases ps <;> rfl

/-- The impedance codes of the image. -/
def State.imageCodes (s : State) (k : Nat) : State := (s.wr F.PHY_CALZ.ZPU (s.imgNat k 24 1) k).wr F.PHY_CALZ.ZPD (s.imgNat k 25 1) k

/-- The settings of the image, VERIFY of them, and what RESTORE posts of itself. -/
def State.imageVerified (s : State) (k : Nat) (e : SiteEnv) : State :=
  ((((s.loadImage k (s.trainable k)).wr F.PHY_TRN_STATUS.ROUNDS 0 k).postVerify k []).wr F.PHY_TRN_STATUS.TIME_US e.timeUs.toNat k).wr
    F.PHY_STATUS.RESTORED 1 k

/-- The image's settings are final. -/
def State.imageTaken (s : State) (k : Nat) (e : SiteEnv) : State := (s.imageVerified k e).settle k false

theorem restoreAll_accepted (himg : s.imageOk k e = true) : s.restoreAll k e [] = s.imageTaken k e := by
  have hpcs : s.restorePcs k e [] (s.trainable k) = (s.imageVerified k e, []) := by
    simp only [State.restorePcs, himg]
    rfl
  have hrestored : (s.imageVerified k e).bit F.PHY_STATUS.RESTORED k = true := bit_wr_same (by decide) rfl 1
  rw [State.restoreAll, hpcs, outOfUse_nil, hrestored]
  rfl

theorem reg_setEye (s : State) (k l : Nat) (wr : Bool) (y : Eye) {r : RegName} (hrd : r ≠ .PHY_LANE_RD) (hwr : r ≠ .PHY_LANE_WR)
    (i j : Nat) : (s.setEye k l wr y).reg r i j = s.reg r i j := by
  cases wr
  · exact reg_setReg_other hrd _ i j
  · exact reg_setReg_other hwr _ i j

/-- Apart from the impedance codes an image sets the registers of the byte lanes alone. -/
theorem reg_loadImage (s : State) (k : Nat) (ps : List Nat) {r : RegName} (hrd : r ≠ .PHY_LANE_RD) (hwr : r ≠ .PHY_LANE_WR)
    (i j : Nat) : (s.loadImage k ps).reg r i j = (s.imageCodes k).reg r i j := by
  refine foldl_keep (fun u => u.reg r i j) ps _ (fun u p => foldl_keep (fun u => u.reg r i j) (List.range 4) _ (fun u b => ?_) u) _
  exact (reg_setEye _ _ _ _ _ hrd hwr i j).trans (reg_setEye _ _ _ _ _ hrd hwr i j)

theorem keptBut_setEye (h : s.keptBut t L) (k l : Nat) (wr : Bool) (y : Eye) (m0 : Part.regs ∈ L) : s.keptBut (t.setEye k l wr y) L :=
  keptBut_setReg h _ _ _ _ m0

theorem loadImage_kept (s : State) (k : Nat) (ps : List Nat) : s.keptBut (s.loadImage k ps) [.regs] := by
  refine keptBut_foldl ps _ (fun u p => keptBut_foldl (List.range 4) _ (fun u b => ?_) (keptBut_refl u _)) ?_
  · exact keptBut_setEye (keptBut_setEye (keptBut_refl u _) _ _ _ _ (by decide)) _ _ _ _ (by decide)
  · exact keptBut_wr (keptBut_wr (keptBut_refl s _) _ _ _ _ (by decide)) _ _ _ _ (by decide)

theorem keptBut_postVerify (h : s.keptBut t L) (k : Nat) (v : VerifyEnv) (m0 : Part.regs ∈ L) : s.keptBut (t.postVerify k v) L :=
  keptBut_wr (keptBut_wr (keptBut_wr h _ _ _ _ m0) _ _ _ _ m0) _ _ _ _ m0

theorem result_postVerify (s : State) (k : Nat) (v : VerifyEnv) :
    (s.postVerify k v).rd F.PHY_TRN_STATUS.RESULT k = if v.isEmpty then 0 else 5 := by
  rw [State.postVerify, rd_wr_apart (by decide) (by decide), rd_wr_apart (by decide) (by decide), rd_wr_same (by decide)]
  split <;> rfl

theorem postVerify_onlyRegs (s : State) (k : Cluster) (v : VerifyEnv) : s.onlyRegs (s.postVerify k v) [(.PHY_TRN_STATUS, k, 0)] := by
  have hwr {u : State} (hu : s.onlyRegs u [(.PHY_TRN_STATUS, k.val, 0)]) (f : Fld) (hf : f.reg = .PHY_TRN_STATUS) (x : Nat) :=
    onlyRegs_wr_elem hu f x k (hf ▸ List.mem_singleton_self _)
  exact hwr (hwr (hwr (onlyRegs_refl s _) F.PHY_TRN_STATUS.RESULT rfl _) F.PHY_TRN_STATUS.FAIL_LANE rfl _) F.PHY_TRN_STATUS.TIME_US rfl _

theorem rd_postVerify_other {g : Fld} (h : g.reg ≠ .PHY_TRN_STATUS) (s : State) (k : Nat) (v : VerifyEnv) :
    (s.postVerify k v).rd g k = s.rd g k := by
  rw [State.postVerify, rd_wr_other h, rd_wr_other h, rd_wr_other h]

/-- The stamps of a training are in registers of their own. -/
theorem rd_settle_other {g : Fld} (h1 : g.reg ≠ .PHY_RTR_LAST) (h2 : g.reg ≠ .PHY_RTR_TEMP) (s : State) (k : Nat) :
    (s.settle k false).rd g k = s.rd g k :=
  (rd_wr_other (f := F.PHY_RTR_TEMP.TEMP_C) h2 _ k 0).trans (rd_wr_other (f := F.PHY_RTR_LAST.STAMP) h1 _ k 0)

theorem imageTaken_kept (s : State) (k : Nat) (e : SiteEnv) : s.keptBut (s.imageTaken k e) [.regs] := by
  have hload := keptBut_wr (loadImage_kept s k (s.trainable k)) F.PHY_TRN_STATUS.ROUNDS 0 k 0 (by decide)
  have htimed := keptBut_wr (keptBut_postVerify hload k [] (by decide)) F.PHY_TRN_STATUS.TIME_US e.timeUs.toNat k 0 (by decide)
  have hposted := keptBut_wr htimed F.PHY_STATUS.RESTORED 1 k 0 (by decide)
  exact keptBut_wr (keptBut_wr hposted _ _ _ _ (by decide)) _ _ _ _ (by decide)

theorem restored_imageTaken (s : State) (k : Nat) (e : SiteEnv) : (s.imageTaken k e).rd F.PHY_STATUS.RESTORED k = 1 := by
  rw [State.imageTaken, rd_settle_other (by decide) (by decide), State.imageVerified, rd_wr_same (by decide)]
  rfl

theorem result_imageTaken (s : State) (k : Nat) (e : SiteEnv) : (s.imageTaken k e).rd F.PHY_TRN_STATUS.RESULT k = 0 := by
  rw [State.imageTaken, rd_settle_other (by decide) (by decide), State.imageVerified, rd_wr_other (by decide),
    rd_wr_apart (by decide) (by decide), result_postVerify]
  rfl

theorem rd_calz_imageTaken {g : Fld} (h : g.reg = .PHY_CALZ) (s : State) (k : Nat) (e : SiteEnv) :
    (s.imageTaken k e).rd g k = (s.imageCodes k).rd g k := by
  have hne {r : RegName} (hr : RegName.PHY_CALZ ≠ r) : g.reg ≠ r := h ▸ hr
  rw [State.imageTaken, rd_settle_other (hne (by decide)) (hne (by decide)), State.imageVerified, rd_wr_other (hne (by decide)),
    rd_wr_other (hne (by decide)), rd_postVerify_other (hne (by decide)), rd_wr_other (hne (by decide))]
  exact rd_of_reg (reg_loadImage s k _ (hne (by decide)) (hne (by decide)) k 0)

theorem imgNat_byte_lt (s : State) (k i : Nat) : s.imgNat k i 1 < 2 ^ 8 := by
  have hbyte : s.imgNat k i 1 = (s.imgByte k i).toNat := rfl
  rw [hbyte]
  exact (s.imgByte k i).isLt

theorem zpu_imageTaken (s : State) (k : Nat) (e : SiteEnv) : (s.imageTaken k e).rd F.PHY_CALZ.ZPU k = s.imgNat k 24 1 := by
  rw [rd_calz_imageTaken rfl, State.imageCodes, rd_wr_apart (by decide) (by decide), rd_wr_same (by decide)]
  exact Nat.mod_eq_of_lt (imgNat_byte_lt s k 24)

theorem zpd_imageTaken (s : State) (k : Nat) (e : SiteEnv) : (s.imageTaken k e).rd F.PHY_CALZ.ZPD k = s.imgNat k 25 1 := by
  rw [rd_calz_imageTaken rfl, State.imageCodes, rd_wr_same (by decide)]
  exact Nat.mod_eq_of_lt (imgNat_byte_lt s k 25)

/-! ### TRN_IMAGE_WRITE (R280) -/

/-- A run of keys is stored one after another. -/
theorem tget_foldl_tset {α : Type} [DecidableEq α] (d : α) (T : Tbl α) (b : Nat) (g : Nat → α) (n a : Nat) :
    tget d ((List.range n).foldl (fun t i => tset d t (b + i) (g i)) T) a = if b ≤ a ∧ a < b + n then g (a - b) else tget d T a := by
  induction n with
  | zero => rw [if_neg (by omega)]; rfl
  | succ n ih =>
    rw [List.range_succ, List.foldl_append, List.foldl_cons, List.foldl_nil]
    by_cases ha : a = b + n
    · rw [ha, tget_tset_same, if_pos (by omega), Nat.add_sub_cancel_left]
    · rw [tget_tset_other _ _ _ _ ha, ih]
      exact if_congr (by omega) rfl rfl

theorem putBytes_kept (s : State) (base : Nat) (bs : List Byte) : s.keptBut (s.putBytes base bs) [.bytes] := by
  intro p hp
  cases p
  case bytes => exact absurd List.mem_cons_self hp
  case regs => exact ⟨rfl, rfl⟩
  all_goals rfl

/-- The image with a word written, and the audit entry of the change. -/
def State.imageWritten (s : State) (k : Cluster) (off : Fin 1024) (w : W32) : State :=
  (s.putBytes (imgBase k + 4 * off) (leBytes w 4)).auditReg (imgBase k + 4 * off) (s.imgNat k (4 * off) 4) w.toNat

theorem exec_trnImageWrite (hidle : s.stackIdle k = true) (hheld : s.pfHeld = false) (off : Fin 1024) (w : W32) :
    exec (.trnImageWrite k off w) s = .next (s.imageWritten k off w) := by
  obtain ⟨hfull, hboot⟩ := pfHeld_false hheld
  have hruns : (s.stackIdle k && !s.inBoot) = true := by rw [hidle, hboot]; rfl
  show execTrnImageWrite k off w s = _
  rw [execTrnImageWrite, orWait_open hfull]
  exact congrArg Host.Outcome.next (onlyIf_pos hruns _ _)

theorem auditReg_bytes (s : State) (off old new : Nat) : (s.auditReg off old new).bytes = s.bytes := by
  unfold State.auditReg onlyIf
  split <;> rfl

theorem tget_imageWritten (s : State) (k : Cluster) (off : Fin 1024) (w : W32) (a : Nat) :
    tget 0 (s.imageWritten k off w).bytes a = if imgBase k + 4 * off ≤ a ∧ a < imgBase k + 4 * off + 4 then
      (leBytes w 4).getD (a - (imgBase k + 4 * off)) 0 else tget 0 s.bytes a := by
  rw [State.imageWritten, auditReg_bytes]
  exact tget_foldl_tset 0 s.bytes _ (fun i => (leBytes w 4).getD i 0) 4 a

theorem imageWritten_kept (s : State) (k : Cluster) (off : Fin 1024) (w : W32) :
    s.keptBut (s.imageWritten k off w) [.bytes, .auditQ] :=
  keptBut_auditReg (keptBut_mono (putBytes_kept s _ _) (by decide)) _ _ _ (by decide)

theorem imgByte_imageWritten (s : State) (k : Cluster) (off : Fin 1024) (w : W32) {i : Nat} (hi : i < 4) :
    (s.imageWritten k off w).imgByte k (4 * off + i) = w.extractLsb' (8 * i) 8 := by
  rw [State.imgByte, tget_imageWritten, if_pos (by omega), ← Nat.add_assoc, Nat.add_sub_cancel_left]
  simp [leBytes, byteAt, hi]

theorem tget_imageWritten_other (s : State) (k : Cluster) (off : Fin 1024) (w : W32) {a : Nat}
    (ha : ∀ i, i < 4 → a ≠ imgBase k + (4 * off + i)) : tget 0 (s.imageWritten k off w).bytes a = tget 0 s.bytes a := by
  rw [tget_imageWritten, if_neg]
  rintro ⟨hlo, hhi⟩
  exact ha (a - (imgBase k + 4 * off)) (by omega) (by omega)

end

/-- Settles O54. A write of OP is refused on a stack that is not idle and runs on an idle one. TRAIN is seen through the site's view;
RESTORE of an accepted image is the image's settings and a VERIFY of them. -/
theorem trainingCommands : Obligations.TrainingCommands := by
  unfold Obligations.TrainingCommands
  intro s k e v
  refine ⟨fun hfull hdram hstate h1 h2 => ⟨fun hidle c hc => ?_, fun hidle => ⟨?_, ?_, ?_⟩⟩, fun off w hidle hheld => ?_⟩
  · obtain ⟨op, run, hexec⟩ := exec_trnCommand hfull h1 h2 hc
    obtain ⟨-, honly⟩ := raise_regsOnly s F.PHY_TRN_CTRL.REJ k
    rw [trnOp_busy hdram hstate hidle] at hexec
    exact ⟨_, hexec, bit_raise_same (by decide) rfl k, keptBut_raise (keptBut_refl s _) _ _ _ (by decide), honly⟩
  · obtain ⟨st, hview⟩ := siteView_retrainAll s k e
    obtain ⟨-, -, -, -, -, hstamp, htime⟩ := siteView_reads hview
    refine ⟨_, (exec_train hfull).trans (congrArg Host.Outcome.next (trnOp_idle hdram hstate hidle 1 _)), ?_, ?_⟩
    · rw [rd_trnRun, hstamp]
      rfl
    · rw [rd_trnRun, htime]
      rfl
  · rintro himg rfl
    have hrun := restoreAll_accepted himg
    refine ⟨_, (exec_restore hfull h1 h2).trans (congrArg Host.Outcome.next (trnOp_idle hdram hstate hidle 2 _)), ?_, ?_, ?_, ?_, ?_⟩
    · rw [State.bit, rd_trnRun, hrun, restored_imageTaken]
      rfl
    · rw [rd_trnRun, hrun, result_imageTaken]
    · rw [rd_trnRun, hrun, zpu_imageTaken]
    · rw [rd_trnRun, hrun, zpd_imageTaken]
    · exact trnRun_kept (hrun ▸ imageTaken_kept s k e)
  · refine ⟨_, (exec_verify hfull).trans (congrArg Host.Outcome.next (trnOp_idle hdram hstate hidle 3 _)), ?_, ?_, ?_⟩
    · rw [rd_trnRun, result_postVerify]
    · exact trnRun_kept (keptBut_postVerify (keptBut_refl s _) k v (by decide))
    · exact trnRun_onlyRegs (postVerify_onlyRegs s k v)
  · exact ⟨_, exec_trnImageWrite hidle hheld off w, fun i hi => imgByte_imageWritten s k off w hi,
      fun a ha => tget_imageWritten_other s k off w ha, imageWritten_kept s k off w⟩

end Sys2Proof.Machine
end

section
/-! A retraining is asked for and applied (R263 to R268). -/

set_option Elab.async false

namespace Sys2Proof.Machine

/-! ### What an event of the error history leaves (R631, R632, R636) -/

/-- `P` says nothing of the error records, the error history, what waits for a migration or a test, stored memory, and the registers of a
migration. -/
structure HistoryBlind (P : State → Prop) : Prop where
  record : ∀ s e, P s → P (s.record e)
  wr : ∀ s f v i j, f.reg = .CLU_MIG ∨ f.reg = .CLU_PCSPARE ∨ f.reg = .RAS_MIGCTL → P s → P (s.wr f v i j)
  parts : ∀ (s : State) hist flash want migs mem tests, P s →
    P { s with hist := hist, histFlash := flash, migWant := want, migs := migs, mem := mem, tests := tests }

section
variable {P : State → Prop} (hP : HistoryBlind P) {s : State}
include hP

theorem HistoryBlind.setHist (h : P s) (u : HistUnit) : P (s.setHist u) := hP.parts _ _ _ _ _ _ _ h

theorem HistoryBlind.commitHist (h : P s) : P s.commitHist := hP.parts _ _ _ _ _ _ _ h

theorem HistoryBlind.beginMigration (h : P s) (k lpc reason : Nat) : P (s.beginMigration k lpc reason) := by
  unfold State.beginMigration
  split
  · exact h
  · extract_lets s1 s2 s3
    have h1 : P s1 := hP.wr _ _ _ _ _ (.inl rfl) (hP.wr _ _ _ _ _ (.inl rfl) (hP.wr _ _ _ _ _ (.inl rfl) (hP.wr _ _ _ _ _ (.inl rfl) h)))
    have h2 : P s2 := hP.wr _ _ _ _ _ (.inr (.inr rfl)) (hP.wr _ F.CLU_PCSPARE.MAP _ _ _ (.inr (.inl rfl)) h1)
    exact hP.commitHist (hP.parts _ _ _ _ _ _ _ h2)

theorem HistoryBlind.startWanted (h : P s) (k : Nat) : P (s.startWanted k) := by
  unfold State.startWanted
  split
  · exact h
  · split
    · exact h
    · extract_lets s1
      have h1 : P s1 := hP.parts _ _ _ _ _ _ _ h
      split
      · exact h1
      · exact hP.beginMigration h1 _ _ _

theorem HistoryBlind.markPermanent (h : P s) (u : HistUnit) (sub d : Nat) (rec_ : Bool) : P (s.markPermanent u sub d rec_) := by
  unfold State.markPermanent
  extract_lets _ s1 s2
  have h2 : P s2 := hP.commitHist (hP.setHist (hP.record _ _ h) _)
  split
  · exact hP.startWanted (hP.parts _ _ _ _ _ _ _ h2) _
  · exact h2

theorem HistoryBlind.event1 (h : P s) (cls cluster a b d : Nat) (rec_ : Bool) : P (s.event1 cls cluster a b d rec_) := by
  unfold State.event1
  extract_lets _ _ s1
  have h1 : P s1 := hP.setHist h _
  split
  · exact h
  · split
    · exact hP.parts _ _ _ _ _ _ _ h
    · split
      · exact hP.markPermanent h1 _ _ _ _
      · exact h1

theorem HistoryBlind.rowPermanent (h : P s) (u : HistUnit) (sub : Nat) (rec_ : Bool) : P (s.rowPermanent u sub rec_) := by
  unfold State.rowPermanent
  extract_lets _ s1 s2
  have h2 : P s2 := hP.event1 (hP.markPermanent h _ _ _ _) _ _ _ _ _ _
  split
  · exact hP.markPermanent h2 _ _ _ _
  · exact h2

theorem HistoryBlind.event (h : P s) (cls cluster a b : Nat) : P (s.event cls cluster a b) := by
  unfold State.event
  extract_lets _ _ s1
  have h1 : P s1 := hP.setHist h _
  split
  · exact hP.event1 h _ _ _ _ _ _
  · split
    · exact h
    · split
      · exact hP.parts _ _ _ _ _ _ _ h
      · split
        · exact hP.rowPermanent h1 _ _ _
        · exact h1

end

section
variable {s₀ s t : State} {k : Nat}

/-! ### The work of a retraining on the byte lanes (R265, R267) -/

/-- From `s` to `t` the clocks, the windows and the plots stay, and the count of retrainings of stack `k`. -/
structure SameRetrain (k : Nat) (s t : State) : Prop where
  clk : t.clk = s.clk
  windows : t.windows = s.windows
  plots : t.plots = s.plots
  retrains : t.rd F.PHY_RTR_STAT.RETRAINS k = s.rd F.PHY_RTR_STAT.RETRAINS k

theorem sameRetrain_refl (s : State) : SameRetrain k s s := ⟨rfl, rfl, rfl, rfl⟩

theorem SameRetrain.trans (h : SameRetrain k s₀ s) (g : SameRetrain k s t) : SameRetrain k s₀ t :=
  ⟨g.clk.trans h.clk, g.windows.trans h.windows, g.plots.trans h.plots, g.retrains.trans h.retrains⟩

theorem SameRetrain.setReg (h : SameRetrain k s₀ s) {r : RegName} (hr : RegName.PHY_RTR_STAT ≠ r) (v : W64) (i j : Nat) :
    SameRetrain k s₀ (s.setReg r i j v) :=
  h.trans ⟨rfl, rfl, rfl, rd_setReg_other hr v k 0⟩

theorem SameRetrain.wr (h : SameRetrain k s₀ s) {f : Fld} (hf : RegName.PHY_RTR_STAT ≠ f.reg) (v i j : Nat) :
    SameRetrain k s₀ (s.wr f v i j) :=
  h.setReg hf _ i j

theorem SameRetrain.record (h : SameRetrain k s₀ s) (e : ErrRec) : SameRetrain k s₀ (s.record e) :=
  have hkept := record_kept (s := s) e
  h.trans ⟨hkept .clk (by decide), hkept .windows (by decide), hkept .plots (by decide), rd_record (by decide) (by decide) k 0⟩

theorem historyBlind_sameRetrain (k : Nat) (s₀ : State) : HistoryBlind (SameRetrain k s₀) where
  record _ e h := h.record e
  wr _ _ v i j hf h := h.wr (by rcases hf with hf | hf | hf <;> rw [hf] <;> decide) v i j
  parts _ _ _ _ _ _ _ h := h.trans ⟨rfl, rfl, rfl, rfl⟩

theorem SameRetrain.setEye (h : SameRetrain k s₀ s) (l : Nat) (wr : Bool) (y : Eye) : SameRetrain k s₀ (s.setEye k l wr y) :=
  h.setReg (by cases wr <;> decide) _ k l

theorem SameRetrain.narrow (h : SameRetrain k s₀ s) (x : Tbl (List Nat)) : SameRetrain k s₀ { s with narrow := x } :=
  h.trans ⟨rfl, rfl, rfl, rfl⟩

theorem SameRetrain.narrowLane (h : SameRetrain k s₀ s) (l : Nat) : SameRetrain k s₀ (s.narrowLane k l) := by
  unfold State.narrowLane
  extract_lets p e s1 recent s2
  have h1 : SameRetrain k s₀ s1 :=
    h.trans ⟨rfl, rfl, rfl, rd_wr_apart (f := F.PHY_RTR_STAT.NARROW) (g := F.PHY_RTR_STAT.RETRAINS) (by decide) (by decide) _⟩
  have h2 : SameRetrain k s₀ s2 := h1.record _
  split
  · exact h2.narrow _
  · exact (historyBlind_sameRetrain k s₀).event (h2.narrow _) 2 k p 0

theorem SameRetrain.retrainLane (h : SameRetrain k s₀ s) (e : SiteEnv) (l : Nat) : SameRetrain k s₀ (s.retrainLane k e l) := by
  unfold State.retrainLane
  extract_lets w r t r' t' s1
  have h1 : SameRetrain k s₀ s1 := (h.setEye l false r').setEye l true t'
  unfold onlyIf
  split
  · exact h1.narrowLane l
  · exact h1

theorem SameRetrain.calibrate (h : SameRetrain k s₀ s) (e : SiteEnv) : SameRetrain k s₀ (s.calibrate k e) := by
  unfold State.calibrate
  extract_lets s1
  have h1 : SameRetrain k s₀ s1 := h.wr (by decide) _ _ _
  have hcodes {u : State} (hu : SameRetrain k s₀ u) (a b : Nat) :
      SameRetrain k s₀ ((u.wr F.PHY_CALZ.ZPU a k).wr F.PHY_CALZ.ZPD b k) := (hu.wr (by decide) _ _ _).wr (by decide) _ _ _
  split
  · exact hcodes h1 _ _
  · have hfree : SameRetrain k s₀ s1.fresh.2 := h1.trans ⟨rfl, rfl, rfl, rfl⟩
    exact ((hcodes hfree _ _).wr (by decide) _ _ _).record _

/-! ### RETRAIN_TRIGGER (R263, R264) -/

theorem exec_retrainTrigger {k : Cluster} (hen : s.bit F.PHY_RTR_CFG.EN k = true) (hsite : s.rd F.PHY_STATUS.SITE k = 3)
    (hup : s.cccUp k = true) (hwhy : s.rtrPeriodUp k = true ∨ s.drifted k = true)
    (hnone : (s.bit F.REF_MAINT.VALID k && s.rd F.REF_MAINT.KIND k == 0) = false) (hwaits : s.triggers.contains k.val = false) :
    exec (.retrainTrigger k) s = .next { s with triggers := s.triggers ++ [k.val] } := by
  have hdue : (s.rtrPeriodUp k || s.drifted k) = true := Bool.or_eq_true_iff.2 hwhy
  refine congrArg Host.Outcome.next (onlyIf_pos ?_ _ _)
  rw [hen, hsite, hup, hdue, hnone, hwaits]
  rfl

theorem keptBut_triggers {L : List Part} (h : s.keptBut t L) (x : List Nat) (m0 : Part.triggers ∈ L) :
    s.keptBut { t with triggers := x } L := by
  intro p hp
  have h := h p hp
  cases p
  case triggers => exact absurd m0 hp
  all_goals exact h

/-! ### RETRAIN_APPLY (R265, R266) -/

/-- The impedance codes are new, and the window's results count as applied. -/
def State.retrainBegun (s : State) (k : Cluster) (e : SiteEnv) (w : Window) : State :=
  { s.calibrate k e with windows := tset none s.windows k.val (some { w with tested := none }) }

/-- The byte lanes of the PCs in TRAINING have their new taps. -/
def State.lanesRetrained (s : State) (k : Cluster) (e : SiteEnv) (w : Window) : State :=
  (upTo (s.pcCount k) fun p => (s.pc k p).st == .training).foldl
    (fun s p => (List.range 4).foldl (fun s b => s.retrainLane k e (4 * p + b)) s) (s.retrainBegun k e w)

/-- The retraining is counted, and the training stamped. -/
def State.retrained (s : State) (k : Cluster) (e : SiteEnv) (w : Window) : State :=
  ((s.lanesRetrained k e w).incRc F.PHY_RTR_STAT.RETRAINS k).settle k false

theorem exec_retrainApply {k : Cluster} {e : SiteEnv} {w : Window} (hw : tget none s.windows k = some w) (hrun : w.running = true)
    (hkind : s.rd F.REF_MAINT.KIND k = 0) (htested : w.tested = some false) (hdram : s.dramOk = true) :
    exec (.retrainApply k e) s = .next (s.retrained k e w) := by
  have hopen : ¬(!w.running || s.rd F.REF_MAINT.KIND k != 0 || w.tested != some false || !s.dramOk) = true := by
    simp [hrun, hkind, htested, hdram]
  show execRetrainApply k e s = _
  unfold execRetrainApply
  rw [hw]
  exact if_neg hopen

theorem sameRetrain_lanesRetrained (s : State) (k : Cluster) (e : SiteEnv) (w : Window) :
    SameRetrain k (s.retrainBegun k e w) (s.lanesRetrained k e w) := by
  refine foldl_inv (SameRetrain k _) _ _ (fun u p _ hu => ?_) _ (sameRetrain_refl _)
  exact foldl_inv (SameRetrain k _) _ _ (fun _ _ _ h => h.retrainLane e _) u hu

theorem retrains_lanesRetrained (s : State) (k : Cluster) (e : SiteEnv) (w : Window) :
    (s.lanesRetrained k e w).rd F.PHY_RTR_STAT.RETRAINS k = s.rd F.PHY_RTR_STAT.RETRAINS k :=
  (sameRetrain_lanesRetrained s k e w).retrains.trans ((sameRetrain_refl s).calibrate e).retrains

theorem now_lanesRetrained (s : State) (k : Cluster) (e : SiteEnv) (w : Window) : (s.lanesRetrained k e w).now = s.now :=
  congrArg (fun c : Clk => c.now.toNat) ((sameRetrain_lanesRetrained s k e w).clk.trans ((sameRetrain_refl s).calibrate e).clk)

theorem plots_lanesRetrained (s : State) (k : Cluster) (e : SiteEnv) (w : Window) : (s.lanesRetrained k e w).plots = s.plots :=
  (sameRetrain_lanesRetrained s k e w).plots.trans ((sameRetrain_refl (k := k) s).calibrate e).plots

theorem windows_lanesRetrained (s : State) (k : Cluster) (e : SiteEnv) (w : Window) :
    tget none (s.lanesRetrained k e w).windows k = some { w with tested := none } := by
  rw [(sameRetrain_lanesRetrained s k e w).windows]
  exact tget_tset_same ..

theorem retrains_retrained (s : State) (k : Cluster) (e : SiteEnv) (w : Window) : (s.retrained k e w).rd F.PHY_RTR_STAT.RETRAINS k =
    min (2 ^ F.PHY_RTR_STAT.RETRAINS.len - 1) (s.rd F.PHY_RTR_STAT.RETRAINS k + 1) := by
  rw [State.retrained, rd_settle_other (by decide) (by decide), rd_incRc_same (by decide), retrains_lanesRetrained]

theorem stamp_retrained (s : State) (k : Cluster) (e : SiteEnv) (w : Window) : (s.retrained k e w).rd F.PHY_RTR_LAST.STAMP k = s.now := by
  have hview := siteView_settle ((s.lanesRetrained k e w).incRc F.PHY_RTR_STAT.RETRAINS k) k false
  obtain ⟨-, -, -, -, -, hstamp, -⟩ := siteView_reads hview
  exact hstamp.trans (now_lanesRetrained s k e w)

end

/-- Settles O55. The search of the byte lanes, with the errors it may report, leaves the windows, the plots and the count of retrainings
as they are. -/
theorem retraining : Obligations.Retraining := by
  unfold Obligations.Retraining
  intro s k
  refine ⟨fun hen hsite hup hwhy hnone hwaits => ?_, fun e w hw hrun hkind htested hdram => ?_⟩
  · exact ⟨_, exec_retrainTrigger hen hsite hup hwhy hnone hwaits, rfl, keptBut_triggers (keptBut_refl s _) _ (by decide)⟩
  · exact ⟨_, exec_retrainApply hw hrun hkind htested hdram, retrains_retrained s k e w, stamp_retrained s k e w,
      windows_lanesRetrained s k e w, plots_lanesRetrained s k e w⟩

end Sys2Proof.Machine
end

section
/-! The traffic stage (chapter "Shaping, policing and tenant time gates"): what its operations leave as it was, the release of a request from
an ingress queue, and time-out (R122, R285, R300, R737). -/

set_option Elab.async false

namespace Sys2Proof.Machine

section
variable {s t u : State} {L : List Part}

/-! ### Frames -/

/-- The parts of the state that the operations of the traffic stage change beside the registers. -/
def trafficParts : List Part :=
  [.flights, .capUsed, .groups, .groupsDue, .gateOn, .gateOff, .calWait, .sampled, .histClear, .burstCuts]

/-- A change of the traffic stage's parts keeps the rest; each of these parts that may not change is to be kept. -/
theorem keptBut_traffic (h : s.keptBut t L)
    (hu : u = { t with
      flights := u.flights, capUsed := u.capUsed, groups := u.groups, groupsDue := u.groupsDue, gateOn := u.gateOn, gateOff := u.gateOff,
      calWait := u.calWait, sampled := u.sampled, histClear := u.histClear, burstCuts := u.burstCuts })
    (m : ∀ p ∈ trafficParts, p ∈ L ∨ t.kept u p) : s.keptBut u L := by
  refine keptBut_trans h fun p hp => ?_
  by_cases hpart : p ∈ trafficParts
  · exact (m p hpart).resolve_left hp
  · rw [hu]
    cases p
    case regs => exact ⟨rfl, rfl⟩
    case flights | capUsed | groups | groupsDue | gateOn | gateOff | calWait | sampled | histClear | burstCuts =>
      exact absurd (by decide) hpart
    all_goals rfl

theorem keptBut_flights (h : s.keptBut t L) (l : List Flight) (m0 : Part.flights ∈ L) : s.keptBut { t with flights := l } L :=
  keptBut_traffic h rfl (by simp [trafficParts, State.kept, m0])

theorem keptBut_capUsed (h : s.keptBut t L) (T : Tbl Nat) (m0 : Part.capUsed ∈ L) : s.keptBut { t with capUsed := T } L :=
  keptBut_traffic h rfl (by simp [trafficParts, State.kept, m0])

theorem keptBut_groups (h : s.keptBut t L) (T : Tbl Nat) (m0 : Part.groups ∈ L) : s.keptBut { t with groups := T } L :=
  keptBut_traffic h rfl (by simp [trafficParts, State.kept, m0])

theorem keptBut_groupsDue (h : s.keptBut t L) (l : List Nat) (m0 : Part.groupsDue ∈ L) : s.keptBut { t with groupsDue := l } L :=
  keptBut_traffic h rfl (by simp [trafficParts, State.kept, m0])

theorem keptBut_gateOn (h : s.keptBut t L) (b : Bool) (m0 : Part.gateOn ∈ L) : s.keptBut { t with gateOn := b } L :=
  keptBut_traffic h rfl (by simp [trafficParts, State.kept, m0])

theorem keptBut_gateOff (h : s.keptBut t L) (b : Bool) (m0 : Part.gateOff ∈ L) : s.keptBut { t with gateOff := b } L :=
  keptBut_traffic h rfl (by simp [trafficParts, State.kept, m0])

theorem keptBut_calWait (h : s.keptBut t L) (c : Option Calendar) (m0 : Part.calWait ∈ L) : s.keptBut { t with calWait := c } L :=
  keptBut_traffic h rfl (by simp [trafficParts, State.kept, m0])

theorem keptBut_sampled (h : s.keptBut t L) (n : Nat) (m0 : Part.sampled ∈ L) : s.keptBut { t with sampled := n } L :=
  keptBut_traffic h rfl (by simp [trafficParts, State.kept, m0])

theorem keptBut_histClear (h : s.keptBut t L) (b : Bool) (m0 : Part.histClear ∈ L) : s.keptBut { t with histClear := b } L :=
  keptBut_traffic h rfl (by simp [trafficParts, State.kept, m0])

theorem keptBut_burstCuts (h : s.keptBut t L) (l : List Nat) (m0 : Part.burstCuts ∈ L) : s.keptBut { t with burstCuts := l } L :=
  keptBut_traffic h rfl (by simp [trafficParts, State.kept, m0])

theorem now_of_kept (h : s.keptBut t L) (hc : Part.clk ∉ L) : t.now = s.now :=
  congrArg (fun c : Clk => c.now.toNat) (h .clk hc)

theorem debit_kept (s : State) (bs : List Bkt) (n : Nat) : s.keptBut (s.debit bs n) [.regs] :=
  keptBut_foldl bs _ (fun u b => keptBut_setTokens (keptBut_refl u _) _ b (by decide)) (keptBut_refl s _)

end

section
variable {s r : State} {k : Cluster} {q : Fin 40} {c : Fin 4} {f : Flight} {id : Nat}

/-! ### INGRESS_RELEASE (R285, R287, R300, R737) -/

/-- What lets the head of an ingress queue go: no other head of the queue has gone in the tick, its shaping buckets hold it, and the gate and
the cap bucket let it pass. -/
def State.admitsHead (r : State) (k q c : Nat) (f : Flight) : Bool :=
  !r.releasedNow k q c && (r.shapers f).all (fun b => decide (256 * hLen f.hdr ≤ r.bTokens b)) && r.gateAdmits (r.chargeTenant f) r.now &&
    r.capOk k q (hLen f.hdr)

/-- The head has been released and charged. -/
def State.headReleased (r : State) (k q : Nat) (f : Flight) : State :=
  { r.debit (r.shapers f) (hLen f.hdr) with
    capUsed := if r.bit F.SNF_STAT.ENFORCED && q != 39 then tset 0 r.capUsed k (tget 0 r.capUsed k + 192 * hLen f.hdr) else r.capUsed }.modFlight
      f.id fun g => { g with stage := .released r.now }

theorem exec_ingressRelease (hhead : s.queueHead k q c = some f)
    (hclk : s.bit F.CLOCK_STATUS.FCLK_PRESENT = true ∨ q.val = 27 + k.val) : exec (.ingressRelease k q c) s = .next
      (onlyIf (s.refillDue.admitsHead k q c f) (s.refillDue.headReleased k q f) s.refillDue) := by
  have hpresent : s.refillDue.bit F.CLOCK_STATUS.FCLK_PRESENT = s.bit F.CLOCK_STATUS.FCLK_PRESENT := by
    rw [State.bit, rd_of_reg (reg_refillDue (by decide) 0 0), State.bit]
  have hclocked : (s.refillDue.bit F.CLOCK_STATUS.FCLK_PRESENT || q.val == 27 + k.val) = true := by
    rcases hclk with h | h <;> simp [hpresent, h]
  show execIngressRelease k q c s = _
  simp only [execIngressRelease, hhead, hclocked, Bool.true_and]
  rfl

theorem flights_refillDue (s : State) : s.refillDue.flights = s.flights := refillDue_kept s .flights (by decide)

theorem now_refillDue (s : State) : s.refillDue.now = s.now := now_of_kept (refillDue_kept s) (by decide)

theorem releasedNow_refillDue (s : State) (k q c : Nat) : s.refillDue.releasedNow k q c = s.releasedNow k q c := by
  rw [State.releasedNow, flights_refillDue, now_refillDue, State.releasedNow]

theorem admitsHead_pos (hfirst : r.releasedNow k q c = false) (htokens : ∀ b ∈ r.shapers f, 256 * hLen f.hdr ≤ r.bTokens b)
    (hgate : r.gateAdmits (r.chargeTenant f) r.now = true) (hcap : r.capOk k q (hLen f.hdr) = true) : r.admitsHead k q c f = true := by
  have hall : (r.shapers f).all (fun b => decide (256 * hLen f.hdr ≤ r.bTokens b)) = true := by simpa using htokens
  simp only [State.admitsHead, hfirst, hall, hgate, hcap, Bool.not_false, Bool.and_self]

theorem admitsHead_neg (h : r.releasedNow k q c = true ∨ ∃ b ∈ r.shapers f, r.bTokens b < 256 * hLen f.hdr) :
    r.admitsHead k q c f = false := by
  rcases h with h | h
  · simp [State.admitsHead, h]
  · have hall : (r.shapers f).all (fun b => decide (256 * hLen f.hdr ≤ r.bTokens b)) = false := by simpa using h
    simp [State.admitsHead, hall]

theorem flights_headReleased (r : State) (k q : Nat) (f : Flight) : (r.headReleased k q f).flights =
    r.flights.map fun x => if x.id == f.id then { x with stage := .released r.now } else x :=
  congrArg (List.map _) (debit_kept r _ _ .flights (by decide))

theorem headReleased_kept (r : State) (k q : Nat) (f : Flight) : r.keptBut (r.headReleased k q f) [.flights, .regs, .capUsed] :=
  keptBut_modFlight (keptBut_capUsed (keptBut_mono (debit_kept r _ _) (by decide)) _ (by decide)) _ _ (by decide)

theorem regs_headReleased (h : r.shapers f = []) (k q : Nat) : (r.headReleased k q f).regs = r.regs := by
  have hdebit : (r.debit (r.shapers f) (hLen f.hdr)).regs = r.regs := by rw [h]; rfl
  exact hdebit

/-! ### REQUEST_TIMEOUT (R122) -/

/-- The request has been answered TIMEOUT, and its port counts it. -/
def State.timedOut (s : State) (f : Flight) : State := (s.withdraw f rTIMEOUT).incRc F.PORT_TMO.TIMEOUTS f.req

theorem exec_requestTimeout (hf : s.flight id = some f) (hun : f.unissued = true) (htmo : f.tmo ≠ 0) (hdue : f.stamp + f.tmo ≤ s.now) :
    exec (.requestTimeout id) s = .next (s.timedOut f) := by
  have hdo : (f.unissued && f.tmo != 0 && decide (f.stamp + f.tmo ≤ s.now)) = true := by simp [hun, htmo, hdue]
  show execRequestTimeout id s = _
  simp only [execRequestTimeout, hf, onlyIf_pos hdo]
  rfl

theorem giveCredit_kept (s : State) (f : Flight) : s.keptBut (s.giveCredit f) [.credits] :=
  keptBut_ite (keptBut_refl s _) (keptBut_setCredit (keptBut_refl s _) _ _ _ (by decide))

/-- A request's header credit comes back, unless the request has a direct path and took none. -/
theorem credit_giveCredit (s : State) (f : Flight) : ((s.giveCredit f).credit f.k f.req).hdr =
    (s.credit f.k f.req).hdr + (if directPath f.k f.req then 0 else 1) := by
  unfold State.giveCredit
  split
  · rfl
  · rw [credit_setCredit_same]

theorem timedOut_flights (s : State) (f : Flight) : (s.timedOut f).flights = s.flights.map fun g => if g.id == f.id
    then { g with stage := .replying (s.now + 12), result := rTIMEOUT, skipFloor := true } else g :=
  congrArg (List.map _) (giveCredit_kept s f .flights (by decide))

theorem withdraw_kept (s : State) (f : Flight) (x : Nat) : s.keptBut (s.withdraw f x) [.flights, .credits] :=
  keptBut_modFlight (keptBut_mono (giveCredit_kept s f) (by decide)) _ _ (by decide)

theorem timedOut_kept (s : State) (f : Flight) : s.keptBut (s.timedOut f) [.flights, .credits, .regs] :=
  keptBut_incRc (keptBut_mono (withdraw_kept s f _) (by decide)) _ _ _ _ (by decide)

theorem timeouts_timedOut (s : State) (f : Flight) : (s.timedOut f).rd F.PORT_TMO.TIMEOUTS f.req =
    min (2 ^ F.PORT_TMO.TIMEOUTS.len - 1) (s.rd F.PORT_TMO.TIMEOUTS f.req + 1) := by
  rw [State.timedOut, rd_incRc_same (by decide), rd_of_regs (regs_of_kept (withdraw_kept s f _) (by decide))]

theorem timedOut_onlyRegs (s : State) (f : Flight) : s.onlyRegs (s.timedOut f) [(.PORT_TMO, f.req % 2 ^ 14, 0)] :=
  onlyRegs_incRc (onlyRegs_regs (onlyRegs_refl s _) (regs_of_kept (withdraw_kept s f _) (by decide))) _ _ _ _ List.mem_cons_self

end

/-- Settles O49: the head meets the state after the refill that is due, which the release charges or which stays; a time-out withdraws its
request. -/
theorem releaseAndTimeout : Obligations.ReleaseAndTimeout := by
  unfold Obligations.ReleaseAndTimeout
  rintro s r rfl
  refine ⟨fun k q c f hhead hclk => ⟨fun hfirst htokens hgate hcap => ?_, fun hstays => ?_⟩, fun id f hf hun htmo hdue => ?_⟩
  · have hadmits := admitsHead_pos ((releasedNow_refillDue s k q c).trans hfirst) htokens hgate hcap
    refine ⟨s.refillDue.headReleased k q f, ?_, ?_, headReleased_kept _ k q f, fun h => regs_headReleased h k q⟩
    · rw [exec_ingressRelease hhead hclk, onlyIf_pos hadmits]
    · rw [flights_headReleased, flights_refillDue, now_refillDue]
  · rw [← releasedNow_refillDue] at hstays
    rw [exec_ingressRelease hhead hclk, onlyIf_neg (admitsHead_neg hstays)]
  · exact ⟨_, exec_requestTimeout hf hun htmo hdue, timedOut_flights s f, credit_giveCredit s f, timeouts_timedOut s f, timedOut_kept s f,
      timedOut_onlyRegs s f⟩

end Sys2Proof.Machine
end

section
/-! The queue histograms (R23, R316, R317, R319, R795). -/

set_option Elab.async false

namespace Sys2Proof.Machine

section
variable {s t : State} {L : List Part} {f : Fld} {i j : Nat}

/-! ### Folds of which one step changes what is looked at -/

/-- Of the steps of a fold over a list without repetitions the one at `x` alone changes `p`, to `v` of it. `I` is what the step at `x` rests
on, and every step keeps it. -/
theorem foldl_at {α β : Type} {l : List α} (hl : l.Nodup) {x : α} (hx : x ∈ l) {g : State → α → State} {I : State → Prop}
    {p : State → β} {v : β → β} (hI : ∀ u y, I u → I (g u y)) (hother : ∀ u y, y ∈ l → y ≠ x → p (g u y) = p u)
    (hsame : ∀ u, I u → p (g u x) = v (p u)) (hs : I s) : p (l.foldl g s) = v (p s) := by
  induction l generalizing s with
  | nil => cases hx
  | cons y l ih =>
    obtain ⟨hy, hl⟩ := List.nodup_cons.1 hl
    rw [List.foldl_cons]
    rcases List.mem_cons.1 hx with rfl | hx
    · have hrest : p (l.foldl g (g s x)) = p (g s x) :=
        foldl_inv (fun u => p u = p (g s x)) l g
          (fun u z hz hu => (hother u z (List.mem_cons_of_mem x hz) fun h => hy (h ▸ hz)).trans hu) _ rfl
      rw [hrest, hsame s hs]
    · have hne : y ≠ x := fun h => hy (h ▸ hx)
      rw [ih hl hx (fun u z hz => hother u z (List.mem_cons_of_mem y hz)) (hI s y hs), hother s y List.mem_cons_self hne]

theorem reg_incRc_other {r : RegName} (h : r ≠ f.reg) (n i' j' : Nat) : (s.incRc f i j n).reg r i' j' = s.reg r i' j' :=
  reg_wr_other h _ i' j'

/-- A count leaves the other elements of its register as they were. -/
theorem rd_incRc_elem {i' j' : Nat} (h : i' % 2 ^ 14 ≠ i % 2 ^ 14 ∨ j' % 2 ^ 14 ≠ j % 2 ^ 14) (g : Fld) (n : Nat) :
    (s.incRc f i j n).rd g i' j' = s.rd g i' j' := by
  change (s.wr f _ i j).rd g i' j' = _
  rw [State.rd_eq, wr_regs, rdIn_wrIn_elem _ _ _ _ h, State.rd_eq]

/-! ### HIST_SAMPLE (R316, R795) -/

/-- The delay of a queue's head counts in its bin. -/
def State.countDelay (s : State) (k r : Nat) : List Flight → State
  | [] => s
  | f :: _ => s.incRc F.TRF_DLY.COUNT k (r * 16 + delayBin (s.now - f.stamp))

/-- The sample of queue `n`, which is that of requester `n % 40` in cluster `n / 40`. -/
def State.sampleQueue (s : State) (n : Nat) : State :=
  (s.incRc F.TRF_DEP.COUNT (n / 40) (n % 40 * 16 + depthBin (s.ungranted (n / 40) (n % 40)).length)).countDelay (n / 40) (n % 40)
    (s.ungranted (n / 40) (n % 40))

/-- The sample of the tick has been taken. -/
def State.histSampled (s : State) : State := (List.range (12 * 40)).foldl State.sampleQueue { s with sampled := s.now + 1 }

theorem exec_histSample (hstamp : s.now % 1024 = 0) (hfirst : s.sampled ≠ s.now + 1) (hen : s.bit F.TRF_HIST_CTL.EN = true)
    (hrun : s.clk.running = true) (hcount : s.frozenNow = false) : exec .histSample s = .next s.histSampled := by
  have hdue : (s.now % 1024 == 0 && s.sampled != s.now + 1 && s.bit F.TRF_HIST_CTL.EN && s.clk.running && !s.frozenNow) = true := by
    simp [hstamp, hfirst, hen, hrun, hcount]
  show execHistSample s = _
  rw [execHistSample, onlyIf_pos hdue]
  refine congrArg Host.Outcome.next (List.foldl_ext _ _ _ fun u n _ => ?_)
  unfold State.sampleQueue
  dsimp only
  cases u.ungranted (n / 40) (n % 40) <;> rfl

theorem reg_countDelay {q : RegName} (h : q ≠ .TRF_DLY) (s : State) (k r : Nat) (l : List Flight) (i j : Nat) :
    (s.countDelay k r l).reg q i j = s.reg q i j := by
  cases l with
  | nil => rfl
  | cons f l => exact reg_incRc_other (f := F.TRF_DLY.COUNT) h 1 i j

theorem keptBut_countDelay (h : s.keptBut t L) (k r : Nat) (l : List Flight) (m0 : Part.regs ∈ L) : s.keptBut (t.countDelay k r l) L := by
  cases l with
  | nil => exact h
  | cons f l => exact keptBut_incRc h _ _ _ _ m0

theorem sampleQueue_kept (s : State) (n : Nat) : s.keptBut (s.sampleQueue n) [.regs] :=
  keptBut_countDelay (keptBut_incRc (keptBut_refl s _) _ _ _ _ (by decide)) _ _ _ (by decide)

theorem reg_sampleQueue {q : RegName} (h1 : q ≠ .TRF_DEP) (h2 : q ≠ .TRF_DLY) (s : State) (n i j : Nat) :
    (s.sampleQueue n).reg q i j = s.reg q i j :=
  (reg_countDelay h2 ..).trans (reg_incRc_other (f := F.TRF_DEP.COUNT) h1 1 i j)

theorem depthBin_lt (n : Nat) : depthBin n < 16 := by
  unfold depthBin
  split <;> omega

/-- A queue's sample leaves the DEP bins of the other queues as they were. -/
theorem dep_sampleQueue_other {k r b n : Nat} (hk : k < 12) (hr : r < 40) (hb : b < 16) (hn : n < 12 * 40) (hne : n ≠ k * 40 + r) (s : State) :
    (s.sampleQueue n).rd F.TRF_DEP.COUNT k (r * 16 + b) = s.rd F.TRF_DEP.COUNT k (r * 16 + b) := by
  have hbin := depthBin_lt (s.ungranted (n / 40) (n % 40)).length
  exact (rd_of_reg (reg_countDelay (by decide) ..)).trans (rd_incRc_elem (by omega) _ _)

/-- A queue's sample counts in the bin of its depth. -/
theorem dep_sampleQueue_same {k r b : Nat} (hr : r < 40) (hb : b < 16) (s : State) :
    (s.sampleQueue (k * 40 + r)).rd F.TRF_DEP.COUNT k (r * 16 + b) =
      if depthBin (s.ungranted k r).length = b then min (2 ^ F.TRF_DEP.COUNT.len - 1) (s.rd F.TRF_DEP.COUNT k (r * 16 + b) + 1)
      else s.rd F.TRF_DEP.COUNT k (r * 16 + b) := by
  have hk : (k * 40 + r) / 40 = k := by omega
  have hmod : (k * 40 + r) % 40 = r := by omega
  have hbin := depthBin_lt (s.ungranted k r).length
  unfold State.sampleQueue
  rw [rd_of_reg (reg_countDelay (by decide) ..), hk, hmod]
  split
  · next h => rw [h, rd_incRc_same (by decide)]
  · next h => exact rd_incRc_elem (by omega) _ _

theorem ungranted_of_flights (h : t.flights = s.flights) (k r : Nat) : t.ungranted k r = s.ungranted k r := by
  rw [State.ungranted, h, State.ungranted]

theorem dep_histSampled {k r b : Nat} (hk : k < 12) (hr : r < 40) (hb : b < 16) (s : State) :
    s.histSampled.rd F.TRF_DEP.COUNT k (r * 16 + b) =
      if depthBin (s.ungranted k r).length = b then min (2 ^ F.TRF_DEP.COUNT.len - 1) (s.rd F.TRF_DEP.COUNT k (r * 16 + b) + 1)
      else s.rd F.TRF_DEP.COUNT k (r * 16 + b) := by
  have hmem : k * 40 + r ∈ List.range (12 * 40) := List.mem_range.2 (by omega)
  refine foldl_at (s := { s with sampled := s.now + 1 }) List.nodup_range hmem (I := fun u => u.flights = s.flights)
    (p := fun u => u.rd F.TRF_DEP.COUNT k (r * 16 + b))
    (v := fun c => if depthBin (s.ungranted k r).length = b then min (2 ^ F.TRF_DEP.COUNT.len - 1) (c + 1) else c)
    (fun u n hu => (sampleQueue_kept u n .flights (by decide)).trans hu)
    (fun u n hn hne => dep_sampleQueue_other hk hr hb (List.mem_range.1 hn) hne u) (fun u hu => ?_) rfl
  rw [← ungranted_of_flights hu]
  exact dep_sampleQueue_same hr hb u

theorem sampling_kept (s : State) : ({ s with sampled := s.now + 1 } : State).keptBut s.histSampled [.regs] :=
  keptBut_foldl _ _ sampleQueue_kept (keptBut_refl _ _)

theorem histSampled_kept (s : State) : s.keptBut s.histSampled [.regs, .sampled] :=
  keptBut_trans (keptBut_sampled (keptBut_refl s _) _ (by decide)) (keptBut_mono (sampling_kept s) (by decide))

theorem reg_histSampled {q : RegName} (h1 : q ≠ .TRF_DEP) (h2 : q ≠ .TRF_DLY) (s : State) (i j : Nat) :
    s.histSampled.reg q i j = s.reg q i j :=
  foldl_keep (fun u => u.reg q i j) _ _ (fun u n => reg_sampleQueue h1 h2 u n i j) _

end

section
variable {s : State} {r : RegName} {i j : Nat}

/-! ### HIST_CLEAR and the end of its tick (R23, R317, R319) -/

/-- CLEAR has been written, and its audit entry is queued. -/
def State.histCleared (s : State) : State :=
  { s with histClear := true }.audit 1 0 0 0x809000 (s.reg .TRF_HIST_CTL).toNat ((s.reg .TRF_HIST_CTL).toNat + 2 ^ 30)

theorem exec_histClear (h : s.pfHeld = false) : exec .histClear s = .next s.histCleared := by
  obtain ⟨hfull, hboot⟩ := pfHeld_false h
  show execHistClear s = _
  simp only [execHistClear, orWait_open hfull, hboot, Bool.false_eq_true, if_false]
  rfl

theorem histCleared_kept (s : State) : s.keptBut s.histCleared [.histClear, .auditQ] :=
  keptBut_audit (keptBut_histClear (keptBut_refl s _) true (by decide)) _ _ _ _ _ _ _ (by decide)

/-- The keys of the histogram bins are those of their two families. -/
theorem isBin_regKey_eq (r : RegName) (i j : Nat) : isBin (regKey r i j) = (r == .TRF_DEP || r == .TRF_DLY) := by
  have hfamily : regKey r i j >>> 28 = r.ctorIdx := by
    rw [Nat.shiftRight_eq_div_pow, regKey]
    omega
  have heq (q : RegName) : (r.ctorIdx == q.ctorIdx) = (r == q) := by
    rw [Bool.eq_iff_iff, beq_iff_eq, beq_iff_eq]
    exact ⟨RegName.ctorIdx_inj, congrArg _⟩
  rw [isBin, hfamily, heq, heq]

theorem tget_tdropWhere_same {α : Type} (d : α) {p : Nat → Bool} (T : Tbl α) {k : Nat} (h : p k = true) : tget d (tdropWhere p T) k = d := by
  induction T with
  | nil => rfl
  | cons e T ih =>
    obtain ⟨m, v⟩ := e
    simp only [tdropWhere, List.filter_cons] at ih ⊢
    split
    · next hm =>
      have hne : m ≠ k := by rintro rfl; simp [h] at hm
      rw [tget, if_neg hne, ih]
    · exact ih

/-- The entries of a table whose keys rise, put into a table that has none of key `k`, read there as in the table. -/
theorem tget_foldl_tset_of_rising {α : Type} [DecidableEq α] (d : α) {lo k : Nat} {l T : Tbl α} (h : risingFrom lo l = true)
    (hT : tget d T k = d) : tget d (l.foldl (fun t e => tset d t e.1 e.2) T) k = tget d l k := by
  induction l generalizing lo T with
  | nil => exact hT
  | cons e l ih =>
    obtain ⟨m, v⟩ := e
    obtain ⟨-, hl⟩ : lo ≤ m ∧ risingFrom (m + 1) l = true := by simpa [risingFrom] using h
    rw [List.foldl_cons]
    by_cases hm : m = k
    · subst hm
      have hrest : ∀ x ∈ l, x.1 ≠ m := fun x hx heq => by
        have := key_ge_of_risingFrom hl (heq ▸ hx : (m, x.2) ∈ l)
        omega
      rw [tget_foldl_tset_other hrest, tget_tset_same, tget, if_pos rfl]
    · rw [ih hl ((tget_tset_other _ _ _ _ (Ne.symm hm)).trans hT), tget, if_neg hm]

/-- What ends a tick in which CLEAR was written leaves in a bin what was counted in it in that tick. -/
theorem reg_clearBins_bin (hclear : s.histClear = true) (hrise : rising s.events = true) (hbin : isBin (regKey r i j) = true)
    (hreset : r.reset i j = 0) : s.clearBins.reg r i j = tget 0 s.events (regKey r i j) := by
  have hnow : tget 0 (s.events.filter fun e => isBin e.1) (regKey r i j) = tget 0 s.events (regKey r i j) := by
    have hdrop := tget_tdropWhere_other (d := 0) (p := fun n => !isBin n) (t := s.events) (k := regKey r i j) (by simp [hbin])
    simpa only [tdropWhere, Bool.not_not] using hdrop
  rw [State.clearBins, if_pos hclear, State.reg, hreset, ← hnow]
  exact tget_foldl_tset_of_rising 0 (risingFrom_filter _ hrise) (tget_tdropWhere_same 0 _ hbin)

theorem reg_clearBins_other (hbin : isBin (regKey r i j) = false) : s.clearBins.reg r i j = s.reg r i j := by
  rw [State.clearBins]
  split
  · refine (tget_foldl_tset_other fun x hx hkey => ?_).trans (tget_tdropWhere_other hbin)
    rw [← hkey, (List.mem_filter.1 hx).2] at hbin
    cases hbin
  · rfl

theorem rd_clearBins_bin {f : Fld} (hclear : s.histClear = true) (hrise : rising s.events = true) (hbin : f.reg = .TRF_DEP ∨ f.reg = .TRF_DLY) :
    s.clearBins.rd f i j = s.eventsOf f i j := by
  have hkey : isBin (regKey f.reg i j) = true := by
    rw [isBin_regKey_eq]
    rcases hbin with h | h <;> rw [h] <;> rfl
  have hreset : f.reg.reset i j = 0 := by rcases hbin with h | h <;> rw [h] <;> rfl
  rw [State.rd, reg_clearBins_bin hclear hrise hkey hreset, State.eventsOf]

end

/-- Settles O36: each queue's sample is the one step of the fold that counts in the queue's bins; a clear is made as the tick ends, from the
events of the tick. -/
theorem histograms : Obligations.Histograms := by
  unfold Obligations.Histograms
  refine fun s => ⟨fun hstamp hfirst hen hrun hcount => ?_, fun hheld hrise => ?_⟩
  · exact ⟨_, exec_histSample hstamp hfirst hen hrun hcount, fun k r b hk hr hb => dep_histSampled hk hr hb s, histSampled_kept s,
      sampling_kept s .sampled (by decide), fun q i j h1 h2 => reg_histSampled h1 h2 s i j⟩
  · refine ⟨_, exec_histClear hheld, rfl, histCleared_kept s, fun k n => ⟨?_, ?_⟩, fun q i j h1 h2 => ?_⟩
    · exact rd_clearBins_bin (s := s.histCleared) rfl hrise (.inl rfl)
    · exact rd_clearBins_bin (s := s.histCleared) rfl hrise (.inr rfl)
    · exact reg_clearBins_other (s := s.histCleared) (by simp [isBin_regKey_eq, h1, h2])

end Sys2Proof.Machine
end

section
/-! The tenant time gates (R297 to R299, R303, R307 to R313). -/

set_option Elab.async false

namespace Sys2Proof.Machine

section
variable {s t : State} {L : List Part} {c : Calendar}

/-! ### The groups in force (R298) -/

/-- The groups in force once every GROUP of the tick before has been taken. -/
@[irreducible] def State.groupsTaken (s : State) : Tbl Nat :=
  (List.range 256).foldl (fun g t => tset 0 g t (s.rd0 F.TRF_SUB_CTL.GROUP t)) s.groups

theorem takeGroups_eq (s : State) : s.takeGroups = { s with groups := s.groupsTaken, latokDue := true } := by
  unfold State.takeGroups State.groupsTaken
  rfl

theorem takeGroups_kept (s : State) : s.keptBut s.takeGroups [.groups, .latokDue] := by
  have hgroups := keptBut_groups (keptBut_refl s [.groups, .latokDue]) s.groupsTaken (by decide)
  rw [takeGroups_eq]
  exact keptBut_latokDue hgroups true (by decide)

/-- A table whose first `n` entries have been written. -/
theorem tget_foldl_tset_range {α : Type} [DecidableEq α] (d : α) (T : Tbl α) (g : Nat → α) (n a : Nat) :
    tget d ((List.range n).foldl (fun t i => tset d t i (g i)) T) a = if a < n then g a else tget d T a := by
  simpa using tget_foldl_tset d T 0 g n a

theorem groupOf_takeGroups {x : Nat} (hx : x < 256) (s : State) : s.takeGroups.groupOf x = s.rd0 F.TRF_SUB_CTL.GROUP x := by
  rw [takeGroups_eq, State.groupOf]
  unfold State.groupsTaken
  rw [tget_foldl_tset_range, if_pos hx]

/-- A register of the gate alone is written after the groups have been taken. -/
theorem onlyRegs_takeGroups (s : State) (l : List (RegName × Nat × Nat)) : s.onlyRegs s.takeGroups l :=
  onlyRegs_regs (onlyRegs_refl s l) (regs_of_kept (takeGroups_kept s) (by decide))

/-! ### Slots, guard bands and the start of gating (R297 to R299, R312) -/

/-- A slot has begun. -/
def State.slotBegun (s : State) : State := (s.takeGroups.wr F.TRF_GATE_STATUS.SLOT (s.slotAt s.now)).wr F.TRF_GATE_STATUS.IN_GUARD 0

theorem exec_gateSlotBoundary (hen : s.gateEn = true) (hstart : s.inCycle s.now = s.slotStart (s.slotAt s.now)) :
    exec .gateSlotBoundary s = .next s.slotBegun :=
  congrArg Host.Outcome.next (onlyIf_pos (by simp [hen, hstart]) _ _)

theorem exec_guardBandStart (hen : s.gateEn = true)
    (hstart : s.inCycle s.now + s.rd F.TRF_GATE_GUARD.ACTIVE = s.slotStart (s.slotAt s.now + 1)) :
    exec .guardBandStart s = .next (s.wr F.TRF_GATE_STATUS.IN_GUARD 1) :=
  congrArg Host.Outcome.next (onlyIf_pos (by simp [hen, hstart]) _ _)

/-- Gating has started. -/
def State.gateStarted (s : State) : State := { s.takeGroups with gateOn := true }.wr F.TRF_GATE_STATUS.SLOT 0

theorem exec_gateStart (hen : s.bit F.TRF_GATE_CTL.EN = true) (hoff : s.gateOn = false) (horigin : s.now = s.origin) :
    exec .gateStart s = .next s.gateStarted :=
  congrArg Host.Outcome.next (onlyIf_pos (by simp [hen, hoff, horigin]) _ _)

theorem slot_slotBegun (h : s.slotAt s.now < 64) : s.slotBegun.rd F.TRF_GATE_STATUS.SLOT = s.slotAt s.now := by
  rw [State.slotBegun, rd_wr_apart (by decide) (by decide), rd_wr_same (by decide)]
  exact Nat.mod_eq_of_lt h

theorem inGuard_slotBegun (s : State) : s.slotBegun.bit F.TRF_GATE_STATUS.IN_GUARD = false := by
  rw [State.slotBegun, bit_wr_same (by decide) rfl]
  rfl

theorem slot_gateStarted (s : State) : s.gateStarted.rd F.TRF_GATE_STATUS.SLOT = 0 := by
  rw [State.gateStarted, rd_wr_same (by decide), Nat.zero_mod]

theorem slotBegun_kept (s : State) : s.keptBut s.slotBegun [.regs, .groups, .latokDue] :=
  keptBut_wr (keptBut_wr (keptBut_mono (takeGroups_kept s) (by decide)) _ _ _ _ (by decide)) _ _ _ _ (by decide)

theorem slotBegun_onlyRegs (s : State) : s.onlyRegs s.slotBegun [(.TRF_GATE_STATUS, 0, 0)] :=
  onlyRegs_wr (onlyRegs_wr (onlyRegs_takeGroups s _) F.TRF_GATE_STATUS.SLOT _ 0 0 (by decide)) F.TRF_GATE_STATUS.IN_GUARD 0 0 0 (by decide)

theorem gateStarted_kept (s : State) : s.keptBut s.gateStarted [.regs, .groups, .gateOn, .latokDue] :=
  keptBut_wr (keptBut_gateOn (t := s.takeGroups) (keptBut_mono (takeGroups_kept s) (by decide)) true (by decide)) _ _ _ _ (by decide)

theorem gateStarted_onlyRegs (s : State) : s.onlyRegs s.gateStarted [(.TRF_GATE_STATUS, 0, 0)] := by
  have hregs : s.gateStarted.regs = (s.takeGroups.wr F.TRF_GATE_STATUS.SLOT 0).regs := by rw [State.gateStarted, wr_regs, wr_regs]
  exact onlyRegs_regs (onlyRegs_wr (onlyRegs_takeGroups s _) F.TRF_GATE_STATUS.SLOT 0 0 0 (by decide)) hregs

/-- What takes the groups into force in its tick, and no later change of it, gives them. -/
theorem groupOf_of_taken (h : t.groups = s.takeGroups.groups) {x : Nat} (hx : x < 256) : t.groupOf x = s.rd0 F.TRF_SUB_CTL.GROUP x := by
  rw [State.groupOf, h, ← State.groupOf, groupOf_takeGroups hx]

theorem groups_slotBegun (s : State) : s.slotBegun.groups = s.takeGroups.groups := by
  rw [State.slotBegun, wr_groups, wr_groups]

theorem groups_gateStarted (s : State) : s.gateStarted.groups = s.takeGroups.groups := by
  rw [State.gateStarted, wr_groups]

/-! ### A calendar becomes active (R309 to R311) -/

/-- The active slots are those of a calendar. -/
@[irreducible] def State.slotsTaken (s : State) (c : Calendar) : State :=
  (List.range 64).foldl (fun s i => s.setReg .TRF_GATE_ACT i 0 (c.slots.getD i 0)) s

/-- The registers of the active calendar are those of `c`, and no commit is pending. -/
def State.calendarSet (s : State) (c : Calendar) : State :=
  (((s.slotsTaken c).wr F.TRF_GATE_STATUS.NSLOT c.n).wr F.TRF_GATE_GUARD.ACTIVE c.guard).wr F.TRF_GATE_CTL.PENDING 0

theorem applyCalendar_eq (s : State) (c : Calendar) : s.applyCalendar c = { s.calendarSet c with calWait := none, latokDue := true } := by
  unfold State.applyCalendar State.calendarSet State.slotsTaken
  rfl

theorem applyCalendar_regs (s : State) (c : Calendar) : (s.applyCalendar c).regs = (s.calendarSet c).regs := by rw [applyCalendar_eq]

/-- Writing an element of a register leaves the other elements as they were. -/
theorem reg_setReg_elem {r : RegName} {i j i' j' : Nat} (h : i' % 2 ^ 14 ≠ i % 2 ^ 14 ∨ j' % 2 ^ 14 ≠ j % 2 ^ 14) (v : W64) :
    (s.setReg r i j v).reg r i' j' = s.reg r i' j' := by
  rw [State.reg_eq, setReg_regs, regIn_putIn_elem _ _ _ h, State.reg_eq]

theorem act_slotsTaken {i : Nat} (hi : i < 64) (s : State) (c : Calendar) : (s.slotsTaken c).reg .TRF_GATE_ACT i = c.slots.getD i 0 := by
  unfold State.slotsTaken
  refine foldl_at (I := fun _ => True) (p := fun u => u.reg .TRF_GATE_ACT i) (v := fun _ => c.slots.getD i 0) List.nodup_range
    (List.mem_range.2 hi) (fun _ _ _ => trivial) (fun u n hn hne => ?_) (fun u _ => reg_setReg_same _) trivial
  have := List.mem_range.1 hn
  exact reg_setReg_elem (by omega) _

theorem reg_slotsTaken {q : RegName} (h : q ≠ .TRF_GATE_ACT) (s : State) (c : Calendar) (i j : Nat) : (s.slotsTaken c).reg q i j = s.reg q i j := by
  unfold State.slotsTaken
  exact foldl_keep (fun u => u.reg q i j) _ _ (fun _ _ => reg_setReg_other h _ _ _) s

theorem slotsTaken_kept (s : State) (c : Calendar) : s.keptBut (s.slotsTaken c) [.regs] := by
  unfold State.slotsTaken
  exact keptBut_foldl _ _ (fun u _ => keptBut_setReg (keptBut_refl u _) _ _ _ _ (by decide)) (keptBut_refl s _)

theorem act_applyCalendar {i : Nat} (hi : i < 64) (s : State) (c : Calendar) : (s.applyCalendar c).reg .TRF_GATE_ACT i = c.slots.getD i 0 := by
  rw [State.reg_eq, applyCalendar_regs, ← State.reg_eq, State.calendarSet, reg_wr_other (by decide), reg_wr_other (by decide),
    reg_wr_other (by decide), act_slotsTaken hi]

theorem nslot_applyCalendar (s : State) (c : Calendar) : (s.applyCalendar c).rd F.TRF_GATE_STATUS.NSLOT = c.n % 128 := by
  rw [rd_of_regs (applyCalendar_regs s c), State.calendarSet, rd_wr_other (by decide), rd_wr_other (by decide), rd_wr_same (by decide)]
  rfl

theorem guard_applyCalendar (s : State) (c : Calendar) : (s.applyCalendar c).rd F.TRF_GATE_GUARD.ACTIVE = c.guard % 2 ^ 16 := by
  rw [rd_of_regs (applyCalendar_regs s c), State.calendarSet, rd_wr_other (by decide), rd_wr_same (by decide)]
  rfl

theorem pending_applyCalendar (s : State) (c : Calendar) : (s.applyCalendar c).bit F.TRF_GATE_CTL.PENDING = false := by
  rw [bit_of_regs (applyCalendar_regs s c), State.calendarSet, bit_wr_same (by decide) rfl]
  rfl

theorem inGuard_applyCalendar (s : State) (c : Calendar) :
    (s.applyCalendar c).bit F.TRF_GATE_STATUS.IN_GUARD = s.bit F.TRF_GATE_STATUS.IN_GUARD := by
  rw [State.bit, rd_of_regs (applyCalendar_regs s c), State.calendarSet, rd_wr_other (by decide), rd_wr_other (by decide),
    rd_wr_apart (by decide) (by decide), rd_of_reg (reg_slotsTaken (by decide) s c 0 0), State.bit]

theorem calendarSet_kept (s : State) (c : Calendar) : s.keptBut (s.calendarSet c) [.regs] :=
  keptBut_wr (keptBut_wr (keptBut_wr (slotsTaken_kept s c) _ _ _ _ (by decide)) _ _ _ _ (by decide)) _ _ _ _ (by decide)

theorem applyCalendar_kept (s : State) (c : Calendar) : s.keptBut (s.applyCalendar c) [.regs, .calWait, .latokDue] := by
  rw [applyCalendar_eq]
  exact keptBut_latokDue (keptBut_calWait (keptBut_mono (calendarSet_kept s c) (by decide)) none (by decide)) true (by decide)

/-! ### GATE_COMMIT and GATE_COMMIT_APPLY (R307, R309 to R311, R314) -/

theorem exec_gateCommit_bad (h : s.pfHeld = false) (hbad : s.commitBad = true) :
    exec .gateCommit s = .next (s.raise F.TRF_GATE_CTL.REJ) := by
  obtain ⟨hfull, hboot⟩ := pfHeld_false h
  show execGateCommit s = _
  simp only [execGateCommit, orWait_open hfull, hboot, hbad, Bool.false_eq_true, if_false, if_true]

/-- The shadow calendar is pending. -/
def State.commitPends (s : State) : State :=
  { s.wr F.TRF_GATE_CTL.PENDING 1 with calWait := some s.shadow }.audit 1 0 0 0x808000 0 1

theorem exec_gateCommit_pends (h : s.pfHeld = false) (hgood : s.commitBad = false) (hen : s.bit F.TRF_GATE_CTL.EN = true) :
    exec .gateCommit s = .next s.commitPends := by
  obtain ⟨hfull, hboot⟩ := pfHeld_false h
  show execGateCommit s = _
  simp only [execGateCommit, orWait_open hfull, hboot, hgood, hen, Bool.false_eq_true, if_false, if_true]
  rfl

/-- The shadow calendar is active. -/
def State.commitApplied (s : State) : State := (s.applyCalendar s.shadow).audit 1 0 0 0x808000 0 1

theorem exec_gateCommit_applies (h : s.pfHeld = false) (hgood : s.commitBad = false) (hen : s.bit F.TRF_GATE_CTL.EN = false) :
    exec .gateCommit s = .next s.commitApplied := by
  obtain ⟨hfull, hboot⟩ := pfHeld_false h
  show execGateCommit s = _
  simp only [execGateCommit, orWait_open hfull, hboot, hgood, hen, Bool.false_eq_true, if_false]
  rfl

theorem commitPends_kept (s : State) : s.keptBut s.commitPends [.regs, .calWait, .auditQ] :=
  keptBut_audit (keptBut_calWait (keptBut_wr (keptBut_refl s _) _ _ _ _ (by decide)) _ (by decide)) _ _ _ _ _ _ _ (by decide)

theorem slots_shadow {i : Nat} (hi : i < 64) (s : State) : s.shadow.slots.getD i 0 = s.reg .TRF_GATE_SLOT i := by
  simp [State.shadow, List.getD_eq_getElem?_getD, hi]

theorem commitApplied_reads (s : State) : (∀ i, i < 64 → s.commitApplied.reg .TRF_GATE_ACT i = s.reg .TRF_GATE_SLOT i) ∧
    s.commitApplied.rd F.TRF_GATE_STATUS.NSLOT = s.rd F.TRF_GATE_CTL.NSLOT ∧
    s.commitApplied.rd F.TRF_GATE_GUARD.ACTIVE = s.rd F.TRF_GATE_GUARD.SHADOW := by
  have hregs : s.commitApplied.regs = (s.applyCalendar s.shadow).regs := by rw [State.commitApplied, audit_regs]
  refine ⟨fun i hi => ?_, ?_, ?_⟩
  · rw [State.reg_eq, hregs, ← State.reg_eq, act_applyCalendar hi, slots_shadow hi]
  · rw [rd_of_regs hregs, nslot_applyCalendar]
    exact Nat.mod_eq_of_lt (rd_lt s F.TRF_GATE_CTL.NSLOT 0 0)
  · rw [rd_of_regs hregs, guard_applyCalendar]
    exact Nat.mod_eq_of_lt (rd_lt s F.TRF_GATE_GUARD.SHADOW 0 0)

theorem commitApplied_kept (s : State) : s.keptBut s.commitApplied [.regs, .calWait, .latokDue, .auditQ] :=
  keptBut_audit (keptBut_mono (applyCalendar_kept s _) (by decide)) _ _ _ _ _ _ _ (by decide)

/-- The calendar that waited is active from now on. -/
def State.calendarBegun (s : State) (c : Calendar) : State :=
  ((s.applyCalendar c).wr F.TRF_GATE_ORIGIN.VALUE s.now).wr F.TRF_GATE_STATUS.SLOT 0

theorem exec_gateCommitApply (hwait : s.calWait = some c) (hen : s.gateEn = true) (hcycle : s.inCycle s.now = 0)
    (hfree : s.windowConflict c s.now = false) : exec .gateCommitApply s = .next (s.calendarBegun c) := by
  have hdue : (!(s.gateEn && s.inCycle s.now == 0)) = false := by simp [hen, hcycle]
  show execGateCommitApply s = _
  simp only [execGateCommitApply, hwait, hdue, hfree, Bool.false_eq_true, if_false]
  rfl

theorem now_lt (s : State) : s.now < 2 ^ 64 := s.clk.now.isLt

theorem act_calendarBegun {i : Nat} (hi : i < 64) (s : State) (c : Calendar) : (s.calendarBegun c).reg .TRF_GATE_ACT i = c.slots.getD i 0 := by
  rw [State.calendarBegun, reg_wr_other (by decide), reg_wr_other (by decide), act_applyCalendar hi]

theorem nslot_calendarBegun (s : State) (c : Calendar) : (s.calendarBegun c).rd F.TRF_GATE_STATUS.NSLOT = c.n % 128 := by
  rw [State.calendarBegun, rd_wr_apart (by decide) (by decide), rd_wr_other (by decide), nslot_applyCalendar]

theorem pending_calendarBegun (s : State) (c : Calendar) : (s.calendarBegun c).bit F.TRF_GATE_CTL.PENDING = false := by
  rw [State.calendarBegun, bit_wr_other (by decide), bit_wr_other (by decide), pending_applyCalendar]

theorem origin_calendarBegun (s : State) (c : Calendar) : (s.calendarBegun c).origin = s.now := by
  rw [State.origin, State.calendarBegun, rd_wr_other (by decide), rd_wr_same (by decide)]
  exact Nat.mod_eq_of_lt (now_lt s)

theorem calWait_calendarBegun (s : State) (c : Calendar) : (s.calendarBegun c).calWait = none := by
  rw [State.calendarBegun, wr_calWait, wr_calWait, applyCalendar_eq]

theorem calendarBegun_kept (s : State) (c : Calendar) : s.keptBut (s.calendarBegun c) [.regs, .calWait, .latokDue] :=
  keptBut_wr (keptBut_wr (applyCalendar_kept s c) _ _ _ _ (by decide)) _ _ _ _ (by decide)

/-! ### GATE_ENABLE and GATE_DISABLE (R303, R312, R313) -/

/-- Gating is to start at the scheduled origin. -/
def State.gateEnabled (s : State) : State :=
  ((s.wr F.TRF_GATE_CTL.EN 1).wr F.TRF_GATE_ORIGIN.VALUE (ceilDiv (s.now + 1200) 1200 * 1200)).audit 1 0 0 0x808000 0 1

theorem exec_gateEnable (h : s.pfHeld = false) (hoff : s.bit F.TRF_GATE_CTL.EN = false) (hslots : s.actN ≠ 0) :
    exec .gateEnable s = .next s.gateEnabled := by
  obtain ⟨hfull, hboot⟩ := pfHeld_false h
  have hn : (s.actN == 0) = false := by simpa using hslots
  show execGateEnable s = _
  simp only [execGateEnable, orWait_open hfull, hboot, hoff, hn, Bool.or_self, Bool.false_eq_true, if_false]
  rfl

theorem exec_gateEnable_bad (h : s.pfHeld = false) (hoff : s.bit F.TRF_GATE_CTL.EN = false) (hslots : s.actN = 0) :
    exec .gateEnable s = .next (s.raise F.TRF_GATE_CTL.REJ) := by
  obtain ⟨hfull, hboot⟩ := pfHeld_false h
  show execGateEnable s = _
  simp only [execGateEnable, orWait_open hfull, hboot, hoff, hslots, Bool.or_self, Bool.false_eq_true, if_false, beq_self_eq_true, if_true]

theorem gateEnabled_regs (s : State) : s.gateEnabled.regs =
    ((s.wr F.TRF_GATE_CTL.EN 1).wr F.TRF_GATE_ORIGIN.VALUE (ceilDiv (s.now + 1200) 1200 * 1200)).regs := rfl

theorem en_gateEnabled (s : State) : s.gateEnabled.bit F.TRF_GATE_CTL.EN = true := by
  rw [bit_of_regs (gateEnabled_regs s), bit_wr_other (by decide), bit_wr_same (by decide) rfl]
  rfl

theorem origin_gateEnabled (s : State) : s.gateEnabled.origin = (s.now + 2399) / 1200 * 1200 % 2 ^ 64 := by
  rw [State.origin, rd_of_regs (gateEnabled_regs s), rd_wr_same (by decide)]
  rfl

theorem gateEnabled_regsOnly (s : State) : s.regsOnly s.gateEnabled [(.TRF_GATE_CTL, 0, 0), (.TRF_GATE_ORIGIN, 0, 0)] :=
  ⟨keptBut_audit (keptBut_wr (keptBut_wr (keptBut_refl s _) _ _ _ _ (by decide)) _ _ _ _ (by decide)) _ _ _ _ _ _ _ (by decide),
    onlyRegs_regs (onlyRegs_wr (onlyRegs_wr (onlyRegs_refl s _) F.TRF_GATE_CTL.EN _ 0 0 (by decide)) F.TRF_GATE_ORIGIN.VALUE _ 0 0 (by decide))
      (gateEnabled_regs s)⟩

/-- EN has been written 0, and the next tick ends gating. -/
def State.gateDisabled (s : State) : State := { s.wr F.TRF_GATE_CTL.EN 0 with gateOff := true }.audit 1 0 0 0x808000 1 0

theorem exec_gateDisable (h : s.pfHeld = false) (hen : s.bit F.TRF_GATE_CTL.EN = true) : exec .gateDisable s = .next s.gateDisabled := by
  obtain ⟨hfull, hboot⟩ := pfHeld_false h
  show execGateDisable s = _
  simp only [execGateDisable, orWait_open hfull, hboot, hen, Bool.not_false, Bool.and_self, if_true]
  rfl

theorem gateDisabled_regs (s : State) : s.gateDisabled.regs = (s.wr F.TRF_GATE_CTL.EN 0).regs := rfl

theorem en_gateDisabled (s : State) : s.gateDisabled.bit F.TRF_GATE_CTL.EN = false := by
  rw [bit_of_regs (gateDisabled_regs s), bit_wr_same (by decide) rfl]
  rfl

theorem gateDisabled_kept (s : State) : s.keptBut s.gateDisabled [.regs, .gateOff, .auditQ] :=
  keptBut_audit (keptBut_gateOff (keptBut_wr (keptBut_refl s _) _ _ _ _ (by decide)) true (by decide)) _ _ _ _ _ _ _ (by decide)

theorem gateDisabled_onlyRegs (s : State) : s.onlyRegs s.gateDisabled [(.TRF_GATE_CTL, 0, 0)] :=
  onlyRegs_regs (onlyRegs_wr (onlyRegs_refl s _) F.TRF_GATE_CTL.EN 0 0 0 (by decide)) (gateDisabled_regs s)

/-- Gating has ended. -/
def State.gateEnded (s : State) : State := { s.takeGroups.wr F.TRF_GATE_STATUS.IN_GUARD 0 with gateOn := false, gateOff := false }

theorem inGuard_gateEnded (s : State) : s.gateEnded.bit F.TRF_GATE_STATUS.IN_GUARD = false := by
  have hregs : s.gateEnded.regs = (s.takeGroups.wr F.TRF_GATE_STATUS.IN_GUARD 0).regs := rfl
  rw [bit_of_regs hregs, bit_wr_same (by decide) rfl]
  rfl

/-- A tick after EN was written 0 begins with the end of gating, and then a pending calendar becomes active. -/
theorem gateBegins_of_off (h : s.gateOff = true) :
    ∃ u : State, s.gateBegins = u.gateEnded ∨ ∃ c, s.gateBegins = u.gateEnded.applyCalendar c := by
  unfold State.gateBegins
  extract_lets s1 s2 s3 s4 s5
  have hs1 : s1.gateOff = true := by
    unfold s1
    split <;> exact h
  have hs3 : s3.gateOff = true := by
    unfold s3
    split <;> exact hs1
  refine ⟨s3, ?_⟩
  rw [if_neg (by simp [hs3])]
  split
  · next c _ => exact .inr ⟨c, rfl⟩
  · exact .inl rfl

/-- As the tick after begins, the gate is off and no guard band goes on. -/
theorem gateBegins_ends (h : s.gateOff = true) :
    s.gateBegins.gateOn = false ∧ s.gateBegins.bit F.TRF_GATE_STATUS.IN_GUARD = false := by
  obtain ⟨u, hu | ⟨c, hu⟩⟩ := gateBegins_of_off h <;> rw [hu]
  · exact ⟨rfl, inGuard_gateEnded u⟩
  · exact ⟨applyCalendar_kept u.gateEnded c .gateOn (by decide), (inGuard_applyCalendar u.gateEnded c).trans (inGuard_gateEnded u)⟩

end

/-- Settles O35: a slot and the start of gating take the groups, a calendar's slots are written one by one, and the end of gating is made as
the next tick begins. -/
theorem gate : Obligations.Gate := by
  unfold Obligations.Gate
  refine ⟨fun s => ⟨fun hen hstart hslot => ?_, fun hen hstart => ?_, fun hen hoff horigin => ?_⟩,
    fun s => ⟨fun hheld => ⟨fun hbad => ?_, fun hgood hen => ?_, fun hgood hen => ?_⟩, fun c hwait hen hcycle hfree => ?_,
      fun hheld hoff => ⟨fun hslots => ?_, fun hslots => ?_⟩, fun hheld hen => ?_⟩⟩
  · exact ⟨_, exec_gateSlotBoundary hen hstart, slot_slotBegun hslot, inGuard_slotBegun s, fun x hx => groupOf_of_taken (groups_slotBegun s) hx,
      slotBegun_kept s, slotBegun_onlyRegs s⟩
  · exact ⟨_, exec_guardBandStart hen hstart, bit_wr_same (by decide) rfl 1, keptBut_wr (keptBut_refl s _) _ _ _ _ (by decide),
      onlyRegs_wr (onlyRegs_refl s _) F.TRF_GATE_STATUS.IN_GUARD 1 0 0 (by decide)⟩
  · exact ⟨_, exec_gateStart hen hoff horigin, rfl, slot_gateStarted s, fun x hx => groupOf_of_taken (groups_gateStarted s) hx, gateStarted_kept s,
      gateStarted_onlyRegs s⟩
  · exact ⟨_, exec_gateCommit_bad hheld hbad, bit_raise_same (by decide) rfl 0, raise_regsOnly s F.TRF_GATE_CTL.REJ 0⟩
  · exact ⟨_, exec_gateCommit_pends hheld hgood hen, bit_wr_same (by decide) rfl 1, rfl, commitPends_kept s,
      onlyRegs_wr (onlyRegs_refl s _) F.TRF_GATE_CTL.PENDING 1 0 0 (by decide)⟩
  · obtain ⟨hslots, hn, hguard⟩ := commitApplied_reads s
    exact ⟨_, exec_gateCommit_applies hheld hgood hen, hslots, hn, hguard, commitApplied_kept s⟩
  · exact ⟨_, exec_gateCommitApply hwait hen hcycle hfree, fun i hi => act_calendarBegun hi s c, nslot_calendarBegun s c,
      pending_calendarBegun s c, calWait_calendarBegun s c, origin_calendarBegun s c, calendarBegun_kept s c⟩
  · exact ⟨_, exec_gateEnable hheld hoff hslots, en_gateEnabled s, origin_gateEnabled s, gateEnabled_regsOnly s⟩
  · exact ⟨_, exec_gateEnable_bad hheld hoff hslots, bit_raise_same (by decide) rfl 0, raise_regsOnly s F.TRF_GATE_CTL.REJ 0⟩
  · obtain ⟨hgate, hguard⟩ := gateBegins_ends (s := s.gateDisabled) rfl
    exact ⟨_, exec_gateDisable hheld hen, en_gateDisabled s, hgate, hguard, gateDisabled_kept s, gateDisabled_onlyRegs s⟩

end Sys2Proof.Machine
end

section
/-! The token buckets (R284, R288 to R295): where a bucket keeps its words, and what a bucket's write does to its tokens. -/

set_option Elab.async false

namespace Sys2Proof.Machine

/-! ### The words of a bucket (R288, R317) -/

/-- The buckets of the block. -/
def Bkt.inBlock : Bkt → Prop
  | .sub t => t < 256
  | .svc t c => t < 256 ∧ c < 4
  | .port p => p < 39

/-- The indices of a bucket's words in their families. -/
def Bkt.fst : Bkt → Nat
  | .sub t => t
  | .svc t _ => t
  | .port p => p
def Bkt.snd : Bkt → Nat
  | .sub _ => 0
  | .svc _ c => c
  | .port _ => 0

/-- The three kinds of buckets, each with its families of words: control, BURST and TOKENS. -/
inductive BktKind where
  | sub | svc | port

def Bkt.kind : Bkt → BktKind
  | .sub _ => .sub
  | .svc _ _ => .svc
  | .port _ => .port
def BktKind.ctl : BktKind → RegName
  | .sub => .TRF_SUB_CTL
  | .svc => .TRF_SVC_CTL
  | .port => .TRF_PORT_CTL
def BktKind.burst : BktKind → Fld
  | .sub => F.TRF_SUB_BURST.BURST
  | .svc => F.TRF_SVC_BURST.BURST
  | .port => F.TRF_PORT_BURST.BURST
def BktKind.tokens : BktKind → Fld
  | .sub => F.TRF_SUB_TOKENS.TOKENS
  | .svc => F.TRF_SVC_TOKENS.TOKENS
  | .port => F.TRF_PORT_TOKENS.TOKENS

/-- The control word once `v` has been written: its reserved bits stay 0. -/
def Bkt.ctlWord (v : Nat) : Bkt → W64
  | .sub _ => BitVec.ofNat 64 (v % 2 ^ 28 + (v >>> 30 % 4) <<< 30)
  | .svc _ _ => BitVec.ofNat 64 (v % 2 ^ 24 + (v >>> 30 % 4) <<< 30)
  | .port _ => BitVec.ofNat 64 (v % 2 ^ 24 + (v >>> 30 % 4) <<< 30)

section
variable {s t : State} {L : List Part} {b c : Bkt} {r : RegName} {i j i' j' : Nat}

theorem bCtl_eq (s : State) (b : Bkt) : s.bCtl b = s.reg b.kind.ctl b.fst b.snd := by cases b <;> rfl
theorem bBurst_eq (s : State) (b : Bkt) : s.bBurst b = s.rd b.kind.burst b.fst b.snd := by cases b <;> rfl
theorem bTokens_eq (s : State) (b : Bkt) : s.bTokens b = s.rd b.kind.tokens b.fst b.snd := by cases b <;> rfl
theorem setBCtl_eq (s : State) (v : Nat) (b : Bkt) : s.setBCtl v b = s.setReg b.kind.ctl b.fst b.snd (b.ctlWord v) := by cases b <;> rfl
theorem setBBurst_eq (s : State) (v : Nat) (b : Bkt) : s.setBBurst v b = s.wr b.kind.burst v b.fst b.snd := by cases b <;> rfl
theorem setTokens_eq (s : State) (v : Nat) (b : Bkt) : s.setTokens v b = s.wr b.kind.tokens v b.fst b.snd := by cases b <;> rfl

/-- The registers of the control words and of the BURST words. -/
def ctlRegs : List RegName := [.TRF_SUB_CTL, .TRF_SVC_CTL, .TRF_PORT_CTL]
def burstRegs : List RegName := [.TRF_SUB_BURST, .TRF_SVC_BURST, .TRF_PORT_BURST]

theorem ctl_mem (k : BktKind) : k.ctl ∈ ctlRegs := by cases k <;> decide
theorem burst_mem (k : BktKind) : k.burst.reg ∈ burstRegs := by cases k <;> decide
theorem tokens_mem (k : BktKind) : k.tokens.reg ∈ tokenRegs := by cases k <;> decide

theorem ctl_not_tokens {r : RegName} (h : r ∈ ctlRegs) : r ∉ tokenRegs := by revert r; decide
theorem burst_not_tokens {r : RegName} (h : r ∈ burstRegs) : r ∉ tokenRegs := by revert r; decide
theorem tokens_not_ctl {r : RegName} (h : r ∈ tokenRegs) : r ∉ ctlRegs := by revert r; decide
theorem tokens_not_burst {r : RegName} (h : r ∈ tokenRegs) : r ∉ burstRegs := by revert r; decide

theorem burst_fits (k : BktKind) : k.burst.fits := by cases k <;> decide
theorem tokens_fits (k : BktKind) : k.tokens.fits := by cases k <;> decide
theorem burst_len (k : BktKind) : k.burst.len = 16 := by cases k <;> rfl
theorem tokens_len (k : BktKind) : k.tokens.len = 24 := by cases k <;> rfl

theorem kind_of_burst {k m : BktKind} (h : k.burst.reg = m.burst.reg) : k = m := by
  cases k <;> cases m
  case sub.sub | svc.svc | port.port => rfl
  all_goals exact absurd h (by decide)

theorem kind_of_tokens {k m : BktKind} (h : k.tokens.reg = m.tokens.reg) : k = m := by
  cases k <;> cases m
  case sub.sub | svc.svc | port.port => rfl
  all_goals exact absurd h (by decide)

/-- Buckets of one kind with the same indices are the same bucket. -/
theorem Bkt.eq_of_place (hb : b.inBlock) (hc : c.inBlock) (hkind : c.kind = b.kind) (hfst : c.fst % 2 ^ 14 = b.fst % 2 ^ 14)
    (hsnd : c.snd % 2 ^ 14 = b.snd % 2 ^ 14) : c = b := by
  cases b <;> cases c <;> simp only [Bkt.inBlock, Bkt.fst, Bkt.snd] at hb hc hfst hsnd
  case sub.sub => congr; omega
  case svc.svc => congr <;> omega
  case port.port => congr; omega
  all_goals cases hkind

/-- Writing a field leaves what lies under another key as it was. -/
theorem rd_wr_key {f g : Fld} (h : regKey g.reg i' j' ≠ regKey f.reg i j) (v : Nat) : (s.wr f v i j).rd g i' j' = s.rd g i' j' := by
  refine rd_of_reg ?_
  rw [State.reg_eq, wr_regs]
  unfold wrIn
  rw [regIn_putIn_key _ _ h, State.reg_eq]

theorem bTokens_setTokens_same (s : State) (v : Nat) (b : Bkt) : (s.setTokens v b).bTokens b = v % 2 ^ 24 := by
  rw [bTokens_eq, setTokens_eq, rd_wr_same (tokens_fits b.kind), tokens_len]

theorem bTokens_setTokens_other (hb : b.inBlock) (hc : c.inBlock) (h : c ≠ b) (v : Nat) : (s.setTokens v b).bTokens c = s.bTokens c := by
  rw [bTokens_eq, setTokens_eq, bTokens_eq]
  refine rd_wr_key (fun hkey => ?_) v
  obtain ⟨hreg, hfst, hsnd⟩ := regKey_inj hkey
  exact h (Bkt.eq_of_place hb hc (kind_of_tokens hreg) hfst hsnd)

theorem bBurst_setBBurst_same (s : State) (v : Nat) (b : Bkt) : (s.setBBurst v b).bBurst b = v % 2 ^ 16 := by
  rw [bBurst_eq, setBBurst_eq, rd_wr_same (burst_fits b.kind), burst_len]

theorem bBurst_setBBurst_other (hb : b.inBlock) (hc : c.inBlock) (h : c ≠ b) (v : Nat) : (s.setBBurst v b).bBurst c = s.bBurst c := by
  rw [bBurst_eq, setBBurst_eq, bBurst_eq]
  refine rd_wr_key (fun hkey => ?_) v
  obtain ⟨hreg, hfst, hsnd⟩ := regKey_inj hkey
  exact h (Bkt.eq_of_place hb hc (kind_of_burst hreg) hfst hsnd)

theorem bTokens_of_regs (h : ∀ r ∈ tokenRegs, ∀ i j, t.reg r i j = s.reg r i j) (b : Bkt) : t.bTokens b = s.bTokens b := by
  rw [bTokens_eq, rd_of_reg (h _ (tokens_mem b.kind) _ _), bTokens_eq]

theorem bBurst_of_regs (h : ∀ r ∈ burstRegs, ∀ i j, t.reg r i j = s.reg r i j) (b : Bkt) : t.bBurst b = s.bBurst b := by
  rw [bBurst_eq, rd_of_reg (h _ (burst_mem b.kind) _ _), bBurst_eq]

theorem bEn_of_regs (h : ∀ r ∈ ctlRegs, ∀ i j, t.reg r i j = s.reg r i j) (b : Bkt) : t.bEn b = s.bEn b := by
  rw [State.bEn, bCtl_eq, h _ (ctl_mem b.kind), ← bCtl_eq, State.bEn]

theorem reg_setBCtl (h : r ∉ ctlRegs) (v : Nat) (b : Bkt) (i j : Nat) : (s.setBCtl v b).reg r i j = s.reg r i j := by
  rw [setBCtl_eq]
  exact reg_setReg_other (ne_of_mem_of_not_mem (ctl_mem b.kind) h).symm _ i j

theorem reg_setBBurst (h : r ∉ burstRegs) (v : Nat) (b : Bkt) (i j : Nat) : (s.setBBurst v b).reg r i j = s.reg r i j := by
  rw [setBBurst_eq]
  exact reg_wr_other (ne_of_mem_of_not_mem (burst_mem b.kind) h).symm _ i j

theorem keptBut_setBCtl (h : s.keptBut t L) (v : Nat) (b : Bkt) (m0 : Part.regs ∈ L) : s.keptBut (t.setBCtl v b) L := by
  rw [setBCtl_eq]
  exact keptBut_setReg h _ _ _ _ m0

theorem keptBut_setBBurst (h : s.keptBut t L) (v : Nat) (b : Bkt) (m0 : Part.regs ∈ L) : s.keptBut (t.setBBurst v b) L := by
  rw [setBBurst_eq]
  exact keptBut_wr h _ _ _ _ m0

theorem bTokens_lt (s : State) (b : Bkt) : s.bTokens b < 2 ^ 24 := by
  have h := rd_lt s b.kind.tokens b.fst b.snd
  rwa [tokens_len, ← bTokens_eq] at h

theorem bBurst0_lt (s : State) (b : Bkt) : s.bBurst0 b < 2 ^ 16 := by
  cases b <;> exact Nat.mod_lt _ (by decide)

/-- What the tick found does not change within it. -/
theorem found_of_regs0 (h : t.regs0 = s.regs0) (b : Bkt) :
    t.bRate b = s.bRate b ∧ t.bBurst0 b = s.bBurst0 b ∧ t.bShape b = s.bShape b := by
  have hreg (r : RegName) (i j : Nat) : t.reg0 r i j = s.reg0 r i j := congrArg (tget (r.reset i j) · (regKey r i j)) h
  have hctl : t.bCtl0 b = s.bCtl0 b := by cases b <;> exact hreg _ _ _
  refine ⟨?_, ?_, ?_⟩
  · rw [State.bRate, hctl, State.bRate]
  · cases b <;> exact congrArg (fun w : W64 => w.toNat >>> 0 % 2 ^ 16) (hreg _ _ _)
  · rw [State.bShape, hctl, State.bShape]

/-! ### The control word that a write leaves (R292, R295) -/

theorem ctlWord_toNat {v : Nat} (hv : v < 2 ^ 32) (b : Bkt) : (b.ctlWord v).toNat % 2 ^ 24 = v % 2 ^ 24 ∧
    (b.ctlWord v).toNat / 2 ^ 30 = v / 2 ^ 30 := by
  cases b <;> simp only [Bkt.ctlWord, BitVec.toNat_ofNat, Nat.shiftRight_eq_div_pow, Nat.shiftLeft_eq] <;> omega

theorem bit31_of_lt {v : Nat} (hv : v < 2 ^ 32) : (v / 2 ^ 31 % 2 == 1) = decide (2 ^ 31 ≤ v) := by
  rw [Bool.eq_iff_iff, beq_iff_eq, decide_eq_true_eq]
  omega

/-- RATE, EN and ACTION of a control word that has been written. -/
theorem reads_of_ctlWord {v : Nat} (hv : v < 2 ^ 32) (h : s.bCtl b = b.ctlWord v) : (s.bCtl b).toNat % 2 ^ 24 = v % 2 ^ 24 ∧
    s.bEn b = decide (2 ^ 31 ≤ v) ∧ (s.bCtl b).toNat >>> 30 % 2 = v >>> 30 % 2 := by
  obtain ⟨hrate, htop⟩ := ctlWord_toNat hv b
  refine ⟨h ▸ hrate, ?_, ?_⟩
  · have hen : (b.ctlWord v).toNat / 2 ^ 31 = v / 2 ^ 31 := by omega
    rw [State.bEn, h, Nat.shiftRight_eq_div_pow, hen, bit31_of_lt hv]
  · rw [h, Nat.shiftRight_eq_div_pow, htop, ← Nat.shiftRight_eq_div_pow]

/-! ### Every bucket, and the bucket at an offset -/

theorem mem_allBkts : b ∈ allBkts ↔ b.inBlock := by
  cases b <;> simp [allBkts, Bkt.inBlock]

theorem nodup_allBkts : allBkts.Nodup := by
  have hsub : ((List.range 256).map Bkt.sub).Nodup := List.nodup_range.map fun _ _ h => Bkt.sub.inj h
  have hport : ((List.range 39).map Bkt.port).Nodup := List.nodup_range.map fun _ _ h => Bkt.port.inj h
  have hsvc : ((List.range 256).flatMap fun t => (List.range 4).map (Bkt.svc t)).Nodup := by
    refine List.nodup_flatMap.2 ⟨fun t _ => List.nodup_range.map fun _ _ h => (Bkt.svc.inj h).2, ?_⟩
    refine List.nodup_range.imp fun {t u} hne x ht hu => ?_
    obtain ⟨c, -, rfl⟩ := List.mem_map.1 ht
    obtain ⟨d, -, he⟩ := List.mem_map.1 hu
    exact hne (Bkt.svc.inj he).1.symm
  refine List.nodup_append.2 ⟨List.nodup_append.2 ⟨hsub, hsvc, ?_⟩, hport, ?_⟩
  · rintro _ hx _ hy rfl
    obtain ⟨t, -, rfl⟩ := List.mem_map.1 hx
    simp at hy
  · rintro _ hx _ hy rfl
    obtain ⟨p, -, rfl⟩ := List.mem_map.1 hy
    simp at hx

theorem inBlock_of_bktAt {off w : Nat} (h : bktAt off = some (b, w)) : b.inBlock := by
  unfold bktAt at h
  extract_lets t o u x p at h
  split at h
  · next hrange =>
    have ht : t < 256 := by omega
    have ho : o < 64 := Nat.mod_lt _ (by decide)
    have hu : u < 4 := by omega
    split at h
    · cases h; exact ht
    · split at h
      · cases h; exact ht
      · split at h
        · split at h
          · cases h; exact ⟨ht, hu⟩
          · split at h
            · cases h; exact ⟨ht, hu⟩
            · cases h
        · cases h
  · split at h
    · next hrange =>
      have hp : p < 39 := by omega
      split at h
      · cases h; exact hp
      · split at h
        · cases h; exact hp
        · cases h
    · cases h

theorem of_id (hb : b.inBlock) : Bkt.of b.id = b := by
  cases b with
  | sub t => exact if_pos hb
  | svc t c =>
    obtain ⟨ht, hc⟩ := hb
    have hdiv : (256 + 4 * t + c - 256) / 4 = t := by omega
    have hmod : (256 + 4 * t + c - 256) % 4 = c := by omega
    rw [Bkt.id, Bkt.of, if_neg (by omega), if_pos (by omega), hdiv, hmod]
  | port p => rw [Bkt.id, Bkt.of, if_neg (by omega), if_neg (by omega), Nat.add_sub_cancel_left]

/-! ### The refill (R289 to R291) -/

/-- TOKENS after a refill. -/
def State.refilledTo (s : State) (b : Bkt) (n : Nat) : Nat := if s.bEn b then min (n + s.bRate b) (256 * s.bBurst0 b) else n

theorem reg_refill (h : r ∉ tokenRegs) (s : State) (b : Bkt) (i j : Nat) : (s.refill b).reg r i j = s.reg r i j := by
  unfold State.refill onlyIf
  split
  · exact reg_setTokens h _ b i j
  · rfl

theorem refill_kept (s : State) (b : Bkt) : s.keptBut (s.refill b) [.regs] :=
  keptBut_onlyIf _ (keptBut_setTokens (keptBut_refl s _) _ b (by decide)) (keptBut_refl s _)

theorem bTokens_refill_same (s : State) (b : Bkt) : (s.refill b).bTokens b = s.refilledTo b (s.bTokens b) := by
  have hburst := bBurst0_lt s b
  unfold State.refill State.refilledTo onlyIf
  split
  · rw [bTokens_setTokens_same, Nat.mod_eq_of_lt (by omega)]
  · rfl

theorem bTokens_refill_other (hb : b.inBlock) (hc : c.inBlock) (h : c ≠ b) (s : State) : (s.refill b).bTokens c = s.bTokens c := by
  unfold State.refill onlyIf
  split
  · exact bTokens_setTokens_other hb hc h _
  · rfl

/-- Of the refills of all buckets, that of a bucket alone changes its TOKENS. -/
theorem bTokens_refill_all (hb : b ∈ allBkts) (s : State) : (allBkts.foldl State.refill s).bTokens b = s.refilledTo b (s.bTokens b) := by
  have hblock := mem_allBkts.1 hb
  refine foldl_at nodup_allBkts hb (I := fun u => u.bEn b = s.bEn b ∧ u.regs0 = s.regs0) (p := fun u => u.bTokens b) (v := s.refilledTo b)
    (fun u x ⟨hen, h0⟩ => ⟨?_, (refill_kept u x .regs0 (by decide)).trans h0⟩)
    (fun u x hx hne => bTokens_refill_other (mem_allBkts.1 hx) hblock (Ne.symm hne) u) (fun u ⟨hen, h0⟩ => ?_) ⟨rfl, rfl⟩
  · rw [bEn_of_regs (fun r hr => reg_refill (ctl_not_tokens hr) u x), hen]
  · obtain ⟨hrate, hburst, -⟩ := found_of_regs0 h0 b
    rw [bTokens_refill_same, State.refilledTo, hen, hrate, hburst, State.refilledTo]

theorem refillDue_of_due (hstamp : s.now % 75 = 0) (hrun : s.clk.running = true) (hfirst : s.refilled ≠ s.now + 1) :
    s.refillDue = { allBkts.foldl State.refill s with refilled := s.now + 1 } := if_pos ⟨hstamp, hfirst, hrun⟩

theorem refilled_refillDue (hstamp : s.now % 75 = 0) (hrun : s.clk.running = true) (hfirst : s.refilled ≠ s.now + 1) :
    s.refillDue.refilled = s.now + 1 := by
  rw [refillDue_of_due hstamp hrun hfirst]

theorem bTokens_refillDue (hstamp : s.now % 75 = 0) (hrun : s.clk.running = true) (hfirst : s.refilled ≠ s.now + 1) (hb : b ∈ allBkts) :
    s.refillDue.bTokens b = s.refilledTo b (s.bTokens b) := by
  have hset (u : State) (n : Nat) : ({ u with refilled := n } : State).bTokens b = u.bTokens b := bTokens_of_regs (fun _ _ _ _ => rfl) b
  rw [refillDue_of_due hstamp hrun hfirst, hset, bTokens_refill_all hb]

end

end Sys2Proof.Machine
end

section
/-! A write of a bucket (R292 to R295, R298). -/

set_option Elab.async false

namespace Sys2Proof.Machine

section
variable {s t u : State} {L : List Part} {b c : Bkt} {r : RegName} {i j : Nat} {f : Flight}

/-! ### The judgement of a request by a bucket that has been enabled (R294) -/

/-- The registers and the other parts of the state that a judgement may change. -/
def judgedRegs : List RegName := tokenRegs ++ [.TRF_SUB_DROPS, .TRF_PORT_DROPS]
def judgedParts : List Part := [.regs, .flights, .capUsed, .throttles, .credits]

/-- From `s` to `t` nothing changes but what a judgement may change. -/
structure Judged (s t : State) : Prop where
  kept : s.keptBut t judgedParts
  regs : ∀ r, r ∉ judgedRegs → ∀ i j, t.reg r i j = s.reg r i j

theorem Judged.refl (s : State) : Judged s s := ⟨keptBut_refl s _, fun _ _ _ _ => rfl⟩

theorem Judged.trans (h : Judged s t) (g : Judged t u) : Judged s u :=
  ⟨keptBut_trans h.kept g.kept, fun r hr i j => (g.regs r hr i j).trans (h.regs r hr i j)⟩

theorem judged_ite {p : Prop} [Decidable p] (h : Judged s t) (g : Judged s u) : Judged s (if p then t else u) := by
  split <;> assumption

/-- A change of the parts that a judgement may change and of no register. -/
theorem Judged.of_kept (h : s.keptBut t [.flights, .capUsed, .throttles, .credits]) : Judged s t :=
  ⟨keptBut_mono h (by decide), fun r _ i j => by rw [State.reg_eq, regs_of_kept h (by decide), State.reg_eq]⟩

theorem judged_foldl {α : Type} {g : State → α → State} (hg : ∀ u x, Judged u (g u x)) (l : List α) (s : State) : Judged s (l.foldl g s) :=
  foldl_inv (Judged s) l g (fun u x _ hu => hu.trans (hg u x)) s (Judged.refl s)

theorem judged_setTokens (s : State) (v : Nat) (b : Bkt) : Judged s (s.setTokens v b) :=
  ⟨keptBut_setTokens (keptBut_refl s _) v b (by decide),
    fun r hr => reg_setTokens (fun hm => hr (List.mem_append_left _ hm)) v b⟩

theorem judged_debit (s : State) (bs : List Bkt) (n : Nat) : Judged s (s.debit bs n) := judged_foldl (fun u _ => judged_setTokens u _ _) bs s

theorem judged_refund (s : State) (bs : List Bkt) (n : Nat) : Judged s (s.refund bs n) := judged_foldl (fun u _ => judged_setTokens u _ _) bs s

theorem judged_incRc {g : Fld} (h : g.reg ∈ judgedRegs) (s : State) (i j : Nat) : Judged s (s.incRc g i j) :=
  ⟨keptBut_incRc (keptBut_refl s _) _ _ _ _ (by decide), fun _ hr => reg_incRc_other (ne_of_mem_of_not_mem h hr).symm 1⟩

theorem judged_countDrop (s : State) (tenant req : Nat) : Judged s (s.countDrop tenant req) :=
  (judged_incRc (by decide) s tenant 0).trans (judged_incRc (by decide) _ req 0)

theorem judged_modFlight (s : State) (id : Nat) (g : Flight → Flight) : Judged s (s.modFlight id g) :=
  .of_kept (keptBut_modFlight (keptBut_refl s _) id g (by decide))

theorem judged_giveCredit (s : State) (f : Flight) : Judged s (s.giveCredit f) := .of_kept (keptBut_mono (giveCredit_kept s f) (by decide))

theorem judged_judgeAgain (b : Bkt) (s : State) (f : Flight) : Judged s (s.judgeAgain b f) := by
  unfold State.judgeAgain
  extract_lets n tenant mine uncap wasReleased shaped s1 s2 s3 s4
  have huncap (u : State) : Judged u (uncap u) := judged_ite (.of_kept (keptBut_capUsed (keptBut_refl u _) _ (by decide))) (.refl u)
  have hs1 : Judged s s1 := judged_refund s _ n
  have hs2 : Judged s s2 := judged_ite (hs1.trans ((judged_refund s1 shaped n).trans (huncap _))) hs1
  have hs3 : Judged s s3 := hs2.trans (.of_kept (keptBut_flights (keptBut_refl s2 _) _ (by decide)))
  have hs4 : Judged s s4 := hs3.trans (.of_kept (keptBut_throttles (keptBut_refl s3 _) _ (by decide)))
  refine judged_ite ?_ (judged_ite ?_ ?_)
  · exact (judged_debit s [b] n).trans (judged_modFlight _ _ _)
  · exact ((judged_refund s shaped n).trans (huncap _)).trans (judged_modFlight _ _ _)
  · exact (hs4.trans (judged_giveCredit s4 f)).trans (judged_countDrop _ _ _)

/-! ### Requests that the bucket holds the lines for -/

/-- From `s` to `t` bucket `b` has charged `n` lines: its TOKENS and the requests change, and nothing else. -/
structure Charged (b : Bkt) (s t : State) (n : Nat) : Prop where
  own : t.bTokens b = s.bTokens b - 256 * n
  others : ∀ c, c.inBlock → c ≠ b → t.bTokens c = s.bTokens c
  kept : s.keptBut t [.regs, .flights]
  regs : ∀ r, r ∉ tokenRegs → ∀ i j, t.reg r i j = s.reg r i j

theorem Charged.zero (b : Bkt) (s : State) : Charged b s s 0 := ⟨rfl, fun _ _ _ => rfl, keptBut_refl s _, fun _ _ _ _ => rfl⟩

theorem Charged.add {n m : Nat} (h : Charged b s t n) (g : Charged b t u m) : Charged b s u (n + m) where
  own := by rw [g.own, h.own]; omega
  others c hc hne := (g.others c hc hne).trans (h.others c hc hne)
  kept := keptBut_trans h.kept g.kept
  regs r hr i j := (g.regs r hr i j).trans (h.regs r hr i j)

theorem judgeAgain_of_holds (h : 256 * hLen f.hdr ≤ s.bTokens b) : s.judgeAgain b f =
    (s.setTokens (s.bTokens b - 256 * hLen f.hdr) b).modFlight f.id fun g => { g with charged := g.charged ++ [b.id] } := if_pos h

theorem charged_judgeAgain (hb : b.inBlock) (h : 256 * hLen f.hdr ≤ s.bTokens b) : Charged b s (s.judgeAgain b f) (hLen f.hdr) := by
  have hlt := bTokens_lt s b
  have hregs : (s.judgeAgain b f).regs = (s.setTokens (s.bTokens b - 256 * hLen f.hdr) b).regs := by rw [judgeAgain_of_holds h]; rfl
  have hreg (r : RegName) (i j : Nat) : (s.judgeAgain b f).reg r i j = (s.setTokens (s.bTokens b - 256 * hLen f.hdr) b).reg r i j := by
    rw [State.reg_eq, hregs, State.reg_eq]
  have htokens (c : Bkt) : (s.judgeAgain b f).bTokens c = (s.setTokens (s.bTokens b - 256 * hLen f.hdr) b).bTokens c :=
    bTokens_of_regs (fun r _ => hreg r) c
  refine ⟨?_, fun c hc hne => ?_, ?_, fun r hr i j => (hreg r i j).trans (reg_setTokens hr _ b i j)⟩
  · rw [htokens, bTokens_setTokens_same, Nat.mod_eq_of_lt (by omega)]
  · rw [htokens, bTokens_setTokens_other hb hc hne]
  · rw [judgeAgain_of_holds h]
    exact keptBut_modFlight (keptBut_setTokens (keptBut_refl s _) _ b (by decide)) _ _ (by decide)

/-- The lines of a list of requests. -/
def linesOf (l : List Flight) : Nat := (l.map fun f => hLen f.hdr).sum

/-- A bucket that holds the lines of all requests it has to charge charges them all. -/
theorem charged_foldl (hb : b.inBlock) (l : List Flight) (h : 256 * linesOf l ≤ s.bTokens b) :
    Charged b s (l.foldl (State.judgeAgain b) s) (linesOf l) := by
  induction l generalizing s with
  | nil => exact .zero b s
  | cons f l ih =>
    have hlines : linesOf (f :: l) = hLen f.hdr + linesOf l := List.sum_cons
    rw [hlines] at h ⊢
    have hf := charged_judgeAgain hb (f := f) (s := s) (by omega)
    exact hf.add (ih (by rw [hf.own]; omega))

/-! ### A write of a control word (R292, R294, R295, R298) -/

theorem owesNow_of_kept (h : s.keptBut t [.regs, .refilled]) (b : Bkt) : t.owesNow b = s.owesNow b := by
  have hflights : t.flights = s.flights := h .flights (by decide)
  have hplots : t.plots = s.plots := h .plots (by decide)
  have hnow : t.now = s.now := now_of_kept h (by decide)
  obtain ⟨-, -, hshape⟩ := found_of_regs0 (h .regs0 (by decide)) b
  have hcharge (f : Flight) : t.chargeTenant f = s.chargeTenant f := by
    simp only [State.chargeTenant, State.plot, hplots]
  simp only [State.owesNow, hflights, hcharge, hshape, hnow]

/-- The control word is written, after the refill that is due. -/
def State.ctlPut (s : State) (v : Nat) (b : Bkt) : State := s.refillDue.setBCtl v b

/-- The requests of the tick are judged by a bucket that the write enables. -/
def State.ctlJudged (s : State) (v : Nat) (b : Bkt) : State :=
  if s.bEn b || !(s.ctlPut v b).bEn b then s.ctlPut v b
  else ((s.ctlPut v b).owesNow b).foldl (State.judgeAgain b) ((s.ctlPut v b).setTokens (256 * (s.ctlPut v b).bBurst0 b) b)

/-- A subscriber's GROUP is to take effect at the next tick, while EN of the gate is 0. -/
def State.groupNoted (s : State) (gated : Bool) : Bkt → State
  | .sub t => onlyIf (!gated) { s with groupsDue := s.groupsDue ++ [t] } s
  | .svc _ _ => s
  | .port _ => s

/-- The same with a subscriber's GROUP noted. -/
def State.ctlNoted (s : State) (v : Nat) (b : Bkt) : State := (s.ctlJudged v b).groupNoted (s.bit F.TRF_GATE_CTL.EN) b

/-- The control word has been written, and its change audited. -/
def State.ctlWritten (s : State) (off v : Nat) (b : Bkt) : State :=
  onlyIf ((s.bCtl b).toNat != ((s.ctlNoted v b).bCtl b).toNat)
    ((s.ctlNoted v b).audit 1 0 0 off (s.bCtl b).toNat ((s.ctlNoted v b).bCtl b).toNat) (s.ctlNoted v b)

theorem exec_trfBucketWrite_ctl {off : Nat} (h : s.pfHeld = false) (hbkt : bktAt off = some (b, 0)) (v : W32) :
    exec (.trfBucketWrite off v) s = .next (s.ctlWritten off v.toNat b) := by
  obtain ⟨hfull, hboot⟩ := pfHeld_false h
  show execTrfBucketWrite off v s = _
  simp only [execTrfBucketWrite, orWait_open hfull, hbkt, hboot, Bool.false_eq_true, if_false]
  cases b <;> rfl

theorem ctlPut_kept (s : State) (v : Nat) (b : Bkt) : s.refillDue.keptBut (s.ctlPut v b) [.regs] :=
  keptBut_setBCtl (keptBut_refl _ _) v b (by decide)

theorem bCtl_ctlPut (s : State) (v : Nat) (b : Bkt) : (s.ctlPut v b).bCtl b = b.ctlWord v := by
  rw [bCtl_eq, State.ctlPut, setBCtl_eq, reg_setReg_same]

theorem bTokens_ctlPut (s : State) (v : Nat) (b c : Bkt) : (s.ctlPut v b).bTokens c = s.refillDue.bTokens c :=
  bTokens_of_regs (fun _ hr => reg_setBCtl (tokens_not_ctl hr) v b) c

/-- What the tick found, and the requests of the tick, are as before the write. -/
theorem found_ctlPut (s : State) (v : Nat) (b : Bkt) : (s.ctlPut v b).bBurst0 b = s.bBurst0 b ∧ (s.ctlPut v b).owesNow b = s.owesNow b := by
  have hkept : s.keptBut (s.ctlPut v b) [.regs, .refilled] := keptBut_trans (refillDue_kept s) (keptBut_mono (ctlPut_kept s v b) (by decide))
  obtain ⟨-, hburst, -⟩ := found_of_regs0 (hkept .regs0 (by decide)) b
  exact ⟨hburst, owesNow_of_kept hkept b⟩

theorem judged_ctlJudged (s : State) (v : Nat) (b : Bkt) : Judged (s.ctlPut v b) (s.ctlJudged v b) :=
  judged_ite (.refl _) ((judged_setTokens _ _ b).trans (judged_foldl (judged_judgeAgain b) _ _))

theorem groupNoted_kept (s : State) (gated : Bool) (b : Bkt) : s.keptBut (s.groupNoted gated b) [.groupsDue] := by
  cases b with
  | sub t => exact keptBut_onlyIf _ (keptBut_groupsDue (keptBut_refl s _) _ (by decide)) (keptBut_refl s _)
  | svc t c => exact keptBut_refl s _
  | port p => exact keptBut_refl s _

theorem ctlWritten_kept (s : State) (off v : Nat) (b : Bkt) : (s.ctlJudged v b).keptBut (s.ctlWritten off v b) [.groupsDue, .auditQ] := by
  have hnoted : (s.ctlJudged v b).keptBut (s.ctlNoted v b) [.groupsDue, .auditQ] := keptBut_mono (groupNoted_kept _ _ b) (by decide)
  exact keptBut_onlyIf _ (keptBut_audit hnoted _ _ _ _ _ _ _ (by decide)) hnoted

theorem reg_ctlWritten (s : State) (off v : Nat) (b : Bkt) (r : RegName) (i j : Nat) :
    (s.ctlWritten off v b).reg r i j = (s.ctlJudged v b).reg r i j := by
  rw [State.reg_eq, regs_of_kept (ctlWritten_kept s off v b) (by decide), State.reg_eq]

theorem bCtl_ctlWritten (s : State) (off v : Nat) (b : Bkt) : (s.ctlWritten off v b).bCtl b = b.ctlWord v := by
  have hother : b.kind.ctl ∉ judgedRegs := by cases b.kind <;> decide
  rw [bCtl_eq, reg_ctlWritten, (judged_ctlJudged s v b).regs _ hother, ← bCtl_eq, bCtl_ctlPut]

/-- A write that does not enable the bucket judges no request. -/
theorem ctlJudged_idle {v : Nat} (hv : v < 2 ^ 32) (h : s.bEn b = true ∨ v < 2 ^ 31) : s.ctlJudged v b = s.ctlPut v b := by
  obtain ⟨-, hen, -⟩ := reads_of_ctlWord hv (bCtl_ctlPut s v b)
  rw [State.ctlJudged, hen]
  rcases h with h | h
  · rw [if_pos (by simp [h])]
  · rw [decide_eq_false (by omega), Bool.not_false, Bool.or_true, if_pos rfl]

/-- A write that enables the bucket fills it, and it charges the lines that the requests of the tick owe when it holds them. -/
theorem ctlJudged_charged (hb : b.inBlock) {v : Nat} (hv : v < 2 ^ 32) (hoff : s.bEn b = false) (hon : 2 ^ 31 ≤ v)
    (hholds : linesOf (s.owesNow b) ≤ s.bBurst0 b) :
    Charged b ((s.ctlPut v b).setTokens (256 * s.bBurst0 b) b) (s.ctlJudged v b) (linesOf (s.owesNow b)) := by
  obtain ⟨-, hen, -⟩ := reads_of_ctlWord hv (bCtl_ctlPut s v b)
  obtain ⟨hburst, howes⟩ := found_ctlPut s v b
  have hlt := bBurst0_lt s b
  have hjudges : ¬(s.bEn b || !(s.ctlPut v b).bEn b) = true := by rw [hen, hoff, decide_eq_true hon]; decide
  rw [State.ctlJudged, if_neg hjudges, hburst, howes]
  refine charged_foldl hb _ ?_
  rw [bTokens_setTokens_same]
  omega

/-- When the bucket is not enabled by the write, or holds what the tick's requests owe, the write changes control words, TOKENS and the
requests alone. -/
theorem ctlJudged_settled (hb : b.inBlock) {v : Nat} (hv : v < 2 ^ 32)
    (h : s.bEn b = true ∨ v < 2 ^ 31 ∨ linesOf (s.owesNow b) ≤ s.bBurst0 b) :
    (∀ c, c.inBlock → (s.ctlJudged v b).bTokens c = if c = b ∧ s.bEn b = false ∧ 2 ^ 31 ≤ v
      then 256 * s.bBurst0 b - 256 * linesOf (s.owesNow b) else s.refillDue.bTokens c) ∧
    s.refillDue.keptBut (s.ctlJudged v b) [.regs, .flights] ∧
    (∀ r, r ∉ ctlRegs → r ∉ tokenRegs → ∀ i j, (s.ctlJudged v b).reg r i j = s.reg r i j) := by
  have hput (r : RegName) (hc : r ∉ ctlRegs) (ht : r ∉ tokenRegs) (i j : Nat) : (s.ctlPut v b).reg r i j = s.reg r i j :=
    (reg_setBCtl hc v b i j).trans (reg_refillDue ht i j)
  by_cases hidle : s.bEn b = true ∨ v < 2 ^ 31
  · rw [ctlJudged_idle hv hidle]
    refine ⟨fun c _ => ?_, keptBut_mono (ctlPut_kept s v b) (by decide), hput⟩
    have hkeeps : ¬(c = b ∧ s.bEn b = false ∧ 2 ^ 31 ≤ v) := by
      rintro ⟨-, hoff, hon⟩
      rcases hidle with hen | hlow
      · simp [hoff] at hen
      · omega
    rw [if_neg hkeeps, bTokens_ctlPut]
  · obtain ⟨hoff, hon⟩ := not_or.1 hidle
    have hoff : s.bEn b = false := by simpa using hoff
    have hon : 2 ^ 31 ≤ v := by omega
    have hcharged := ctlJudged_charged hb hv hoff hon ((h.resolve_left (by simp [hoff])).resolve_left (by omega))
    have hlt := bBurst0_lt s b
    refine ⟨fun c hc => ?_, ?_, fun r hc ht i j => ?_⟩
    · by_cases hcb : c = b
      · subst hcb
        rw [if_pos ⟨rfl, hoff, hon⟩, hcharged.own, bTokens_setTokens_same, Nat.mod_eq_of_lt (by omega)]
      · rw [if_neg (fun h => hcb h.1), hcharged.others c hc hcb, bTokens_setTokens_other hb hc hcb, bTokens_ctlPut]
    · exact keptBut_trans (keptBut_mono (keptBut_setTokens (ctlPut_kept s v b) _ b (by decide)) (by decide)) hcharged.kept
    · rw [hcharged.regs r ht, reg_setTokens ht, hput r hc ht]

/-! ### A write of a BURST word (R293) -/

/-- The BURST word is written, after the refill that is due. -/
def State.burstPut (s : State) (n : Nat) (b : Bkt) : State :=
  { s.refillDue.setBBurst n b with burstCuts := (s.refillDue.setBBurst n b).burstCuts ++ [b.id] }

/-- BURST has been written, and its change audited. -/
def State.burstWritten (s : State) (off n : Nat) (b : Bkt) : State :=
  onlyIf (s.bBurst b != n) ((s.burstPut n b).audit 1 0 0 off (s.bBurst b) n) (s.burstPut n b)

theorem exec_trfBucketWrite_burst {off w : Nat} (h : s.pfHeld = false) (hbkt : bktAt off = some (b, w)) (hw : w ≠ 0) (v : W32) :
    exec (.trfBucketWrite off v) s = .next (if v.toNat % 2 ^ 16 < 4 then s else s.burstWritten off (v.toNat % 2 ^ 16) b) := by
  obtain ⟨hfull, hboot⟩ := pfHeld_false h
  obtain ⟨w, rfl⟩ := Nat.exists_eq_succ_of_ne_zero hw
  show execTrfBucketWrite off v s = _
  simp only [execTrfBucketWrite, orWait_open hfull, hbkt, hboot, Bool.false_eq_true, if_false]
  split <;> rfl

theorem burstWritten_kept (s : State) (off n : Nat) (b : Bkt) : s.refillDue.keptBut (s.burstWritten off n b) [.regs, .burstCuts, .auditQ] := by
  have hput : s.refillDue.keptBut (s.burstPut n b) [.regs, .burstCuts, .auditQ] :=
    keptBut_burstCuts (keptBut_setBBurst (keptBut_refl _ _) n b (by decide)) _ (by decide)
  exact keptBut_onlyIf _ (keptBut_audit hput _ _ _ _ _ _ _ (by decide)) hput

theorem reg_burstWritten (s : State) (off n : Nat) (b : Bkt) (r : RegName) (i j : Nat) :
    (s.burstWritten off n b).reg r i j = (s.refillDue.setBBurst n b).reg r i j := by
  unfold State.burstWritten onlyIf
  split <;> rfl

theorem bBurst_burstWritten_same (s : State) (off n : Nat) (b : Bkt) : (s.burstWritten off n b).bBurst b = n % 2 ^ 16 := by
  rw [bBurst_of_regs (fun r _ => reg_burstWritten s off n b r), bBurst_setBBurst_same]

theorem bBurst_burstWritten_other (hb : b.inBlock) (hc : c.inBlock) (h : c ≠ b) (s : State) (off n : Nat) :
    (s.burstWritten off n b).bBurst c = s.bBurst c := by
  rw [bBurst_of_regs (fun r _ => reg_burstWritten s off n b r), bBurst_setBBurst_other hb hc h,
    bBurst_of_regs fun r hr => reg_refillDue (burst_not_tokens hr)]

theorem bTokens_burstWritten (s : State) (off n : Nat) (b c : Bkt) : (s.burstWritten off n b).bTokens c = s.refillDue.bTokens c :=
  bTokens_of_regs (fun r hr i j => (reg_burstWritten s off n b r i j).trans (reg_setBBurst (tokens_not_burst hr) n b i j)) c

theorem burstCuts_burstWritten (h : s.burstCuts = []) (off n : Nat) (b : Bkt) : (s.burstWritten off n b).burstCuts = [b.id] := by
  have hput : (s.burstPut n b).burstCuts = [b.id] := by
    have hkept : (s.refillDue.setBBurst n b).burstCuts = s.burstCuts :=
      keptBut_setBBurst (refillDue_kept s) n b (by decide) .burstCuts (by decide)
    exact (congrArg (· ++ [b.id]) hkept).trans (by rw [h]; rfl)
  unfold State.burstWritten onlyIf
  split <;> exact hput

/-- What ends a tick cuts the one bucket whose BURST was written in it. -/
theorem bTokens_cutBursts (hb : b.inBlock) (hc : c.inBlock) (h : s.burstCuts = [b.id]) :
    s.cutBursts.bTokens c = if c = b then min (s.bTokens c) (256 * s.bBurst c) else s.bTokens c := by
  have hcut : s.cutBursts = { s.setTokens (min (s.bTokens b) (256 * s.bBurst b)) b with burstCuts := [] } := by
    rw [State.cutBursts, h, List.foldl_cons, List.foldl_nil, of_id hb]
  have htokens : s.cutBursts.bTokens c = (s.setTokens (min (s.bTokens b) (256 * s.bBurst b)) b).bTokens c :=
    bTokens_of_regs (fun r _ i j => by rw [hcut]; rfl) c
  have hlt := bTokens_lt s b
  rw [htokens]
  split
  · next heq =>
    subst heq
    rw [bTokens_setTokens_same, Nat.mod_eq_of_lt (by omega)]
  · next hne => exact bTokens_setTokens_other hb hc hne _

end

/-- Settles O34: the refill is one step a bucket; a write of a control word judges the requests of its tick one by one, and one of a BURST word
leaves its cut to the end of the tick. -/
theorem buckets : Obligations.Buckets := by
  unfold Obligations.Buckets
  refine ⟨fun s hstamp hrun hfirst => ?_, fun s off v b w hheld hbkt => ⟨fun hw => ?_, fun hw hlarge => ?_, fun hw hsmall => ?_⟩⟩
  · exact ⟨s.refillDue, rfl, refilled_refillDue hstamp hrun hfirst, fun b hb => bTokens_refillDue hstamp hrun hfirst hb,
      refillDue_kept s, fun r i j h1 h2 h3 => reg_refillDue (by simp [tokenRegs, h1, h2, h3]) i j⟩
  · subst hw
    have hb := inBlock_of_bktAt hbkt
    obtain ⟨hrate, hen, haction⟩ := reads_of_ctlWord v.isLt (bCtl_ctlWritten s off v.toNat b)
    have hkept := ctlWritten_kept s off v.toNat b
    have hjudged := keptBut_trans (keptBut_mono (ctlPut_kept s v.toNat b) (by decide)) (judged_ctlJudged s v.toNat b).kept
    refine ⟨_, exec_trfBucketWrite_ctl hheld hbkt v, hrate, hen, haction, ?_, fun hsettled => ?_⟩
    · exact keptBut_trans (keptBut_mono hjudged (by decide)) (keptBut_mono hkept (by decide))
    · obtain ⟨htokens, hparts, hregs⟩ := ctlJudged_settled hb v.isLt hsettled
      refine ⟨fun c hc => ?_, keptBut_trans (keptBut_mono hparts (by decide)) (keptBut_mono hkept (by decide)), fun r i j hr => ?_⟩
      · rw [bTokens_of_regs fun r _ => reg_ctlWritten s off v.toNat b r]
        exact htokens c (mem_allBkts.1 hc)
      · rw [reg_ctlWritten]
        exact hregs r (fun hm => hr (List.mem_append_left tokenRegs hm)) (fun hm => hr (List.mem_append_right ctlRegs hm)) i j
  · have hb := inBlock_of_bktAt hbkt
    refine ⟨_, (exec_trfBucketWrite_burst hheld hbkt hw v).trans (congrArg _ (if_neg (by omega))), ?_, fun c hc hne => ?_,
      fun c _ => bTokens_burstWritten s off _ b c, burstWritten_kept s off _ b, fun hnone c hc => ?_⟩
    · rw [bBurst_burstWritten_same, Nat.mod_mod]
    · exact bBurst_burstWritten_other hb (mem_allBkts.1 hc) hne s off _
    · rw [bTokens_cutBursts hb (mem_allBkts.1 hc) (burstCuts_burstWritten hnone off _ b), bTokens_burstWritten]
      split
      · next heq => rw [heq, bBurst_burstWritten_same, Nat.mod_mod]
      · rfl
  · rw [exec_trfBucketWrite_burst hheld hbkt hw, if_pos hsmall]

end Sys2Proof.Machine
end

section
/-! The fences that PF0 commands (R321, R661, R663 to R665), and a job aborted while a replay of it runs (R320, R352, R655). -/

set_option Elab.async false

namespace Sys2Proof.Machine

section
variable {s t : State} {j k c a : Nat}

/-! ### A Lantern fenced as a whole empties its Posy (R663, R664) -/

theorem posy_of_posies (h : t.posies = s.posies) (k : Nat) : t.posy k = s.posy k := congrArg (tget Posy.blank · k) h

theorem posy_setPosy_same (s : State) (k : Nat) (p : Posy) : (s.setPosy k p).posy k = p := tget_tset_same _ _ _ _

/-- What emptying a Posy leaves of its table: the places that are listed and hold no entry. -/
theorem ents_emptyPosy (s : State) (k : Nat) : ((s.emptyPosy k).posy k).ents = (s.posy k).ents.filter fun e => e.2.isNone := by
  have hset : ((s.emptyPosy k).posy k).ents = (s.posy k).ents.filter fun e => !e.2.any fun _ => true :=
    congrArg Posy.ents (posy_setPosy_same s k _)
  rw [hset]
  congr 1
  funext e
  cases e.2 <;> rfl

theorem posies_modLnt (s : State) (j : Nat) (f : Lantern → Lantern) : (s.modLnt j f).posies = s.posies := rfl

theorem posies_standDown (s : State) (j : Nat) (sp : Option Nat) : (s.standDown j sp).posies = s.posies := by cases sp <;> rfl

theorem silentRec_kept (s : State) (cls sev j arr stand sub elem chunk result : Nat) (detecting journaled : Bool) (c : Option Nat)
    (unit : Option (Nat × Nat)) (follows : Bool) :
    s.keptBut (s.silentRec cls sev j arr stand sub elem chunk result detecting journaled c unit follows) [.regs, .recs, .recTick, .recLast] := by
  unfold State.silentRec
  exact record_kept _

/-- Of what a fence of the whole Lantern does, only the emptying meets the Posies. -/
theorem ents_fenceLantern (h : s.bit F.LNT_CTL.FENCED j = false) (follows : Bool) :
    ((s.fenceLantern j follows).posy j).ents = (s.posy j).ents.filter fun e => e.2.isNone := by
  rw [State.fenceLantern, if_neg (by simp [h])]
  extract_lets fenced aborting emptied restored ended noted
  have haborting : aborting.posies = s.posies := by
    refine foldl_keep State.posies _ _ (fun u c => ?_) fenced
    extract_lets
    split <;> rfl
  have hrestored : restored.posies = emptied.posies := by
    refine foldl_keep State.posies _ _ (fun u t => ?_) emptied
    split
    · exact posies_standDown _ _ _
    · rfl
  have hended : ended.posies = restored.posies := posies_modLnt restored j _
  have hnoted : noted.posies = ended.posies := setMap_posies ended F.RAS_MGSTAT.IN_SWEEP j false 0 0
  have hrec := silentRec_kept noted 0x46 sevFatal j 0xFF 0xFF 0 0 0 rABORTED true false none (some (5, 0)) follows .posies (by decide)
  rw [posy_of_posies hrec, posy_of_posies hnoted, posy_of_posies hended, posy_of_posies hrestored, ← posy_of_posies haborting]
  exact ents_emptyPosy aborting j

/-- FENCE_LANTERN as it begins: the event counts against the Lantern, and RESULT is OK (R665). -/
def State.fenceCounted (s : State) (k : Nat) : State :=
  ((s.wr F.RAS_FENCECTL.ARRAY (s.rd F.RAS_FENCECTL.ARRAY k) k).fenceEvent 5 k 0).wr F.RAS_FENCECTL.RESULT 0 k

theorem posies_auditReg (s : State) (off old new : Nat) : (s.auditReg off old new).posies = s.posies :=
  keptBut_auditReg (keptBut_refl s [.auditQ]) off old new (by decide) .posies (by decide)

/-- The entries that FENCE_LANTERN leaves in the Posy of an unfenced Lantern. -/
theorem ents_exec_fenceLantern {k : Cluster} (h : s.pfHeld = false) (hbusy : s.bit F.RAS_FENCECTL.BUSY k = false)
    (hfenced : s.bit F.LNT_CTL.FENCED k = false) (ht : exec (.fenceLantern k) s = .next t) :
    (t.posy k).ents = (s.posy k).ents.filter fun e => e.2.isNone := by
  obtain ⟨hopen, hboot⟩ := pfHeld_false h
  have hexec : exec (.fenceLantern k) s = .next (s.fenceCtl k 2 (s.rd F.RAS_FENCECTL.ARRAY k)) := by
    change execFenceLantern k s = _
    rw [execFenceLantern, orWait_open hopen]
  have hfenced' (v : Nat) : (s.wr F.RAS_FENCECTL.ARRAY v k).bit F.LNT_CTL.FENCED k = false := by
    rw [bit_wr_other (by decide), hfenced]
  obtain rfl := Host.Outcome.next.inj (hexec.symm.trans ht)
  have hcounted : (s.fenceCounted k).bit F.LNT_CTL.FENCED k = false := by
    rw [State.fenceCounted, bit_wr_other (by decide)]
    exact hfenced' _
  have hctl : (s.fenceCtl k 2 (s.rd F.RAS_FENCECTL.ARRAY k)).posies = ((s.fenceCounted k).fenceLantern k false).posies := by
    rw [State.fenceCtl, if_neg (by simp [hboot])]
    simp only [hbusy, hfenced', posies_auditReg]
    rfl
  rw [posy_of_posies hctl]
  exact ents_fenceLantern hcounted false

end

/-- A block in READY whose Posy 0 lists place 0 with no entry in it, as no command leaves it: `Posy.setEnt` lists no place it clears. -/
def State.listedBlank : State :=
  { State.reset.wr F.GLOBAL_STATE.STATE 2 with posies := [(0, { Posy.blank with ents := [(0, none)] })] }

/-- Refutes O20: the statement says that FENCE_LANTERN leaves no entry listed in the Posy, from every state. The command frees the entries, and a
place that is listed without one stays listed: the premise that the table of the Posy is in canonical form is missing. -/
theorem not_fences : ¬ Obligations.Fences := by
  unfold Obligations.Fences
  intro h
  obtain ⟨-, hfence, -⟩ := h State.listedBlank 0 (by decide +kernel)
  obtain ⟨t, hexec, -, -, hempty, -⟩ := hfence (by decide +kernel) (by decide +kernel)
  have hleft := ents_exec_fenceLantern (by decide +kernel) (by decide +kernel) (by decide +kernel) hexec
  exact absurd (hleft.symm.trans hempty) (by decide)

section
variable {s t : State} {j c a : Nat} {x : Ctx}

/-! ### A job aborted while a replay of it runs (R320, R352) -/

/-- The spare that ran a replay is SPARE again when no test of it runs (R320). -/
theorem role_replayOver (hrole : s.role j a = 3) (hfree : ((s.lnt j).tests.any fun t => t.arr == a && t.running) = false) :
    (s.replayOver j a).role j a = 1 := by
  rw [State.replayOver, onlyIf_pos (by simp [hrole, hfree])]
  exact rd_wr_same (by decide) 1

/-- The end of a job returns the spare of the one replay it has under way. -/
theorem role_drainCtx (hreplay : (s.ctx j c).replayArrs = [a]) (hrole : s.role j a = 3)
    (hfree : ((s.lnt j).tests.any fun t => t.arr == a && t.running) = false) (fin : JobFin) : (s.drainCtx j c fin).role j a = 1 := by
  have hfold : (s.drainCtx j c fin).role j a =
      ((s.ctx j c).replayArrs.foldl (fun s a => s.replayOver j a) (s.releaseHeld j (s.ctx j c).heldEnts)).role j a := rfl
  rw [hfold, hreplay]
  exact role_replayOver hrole hfree

/-- JOB_ABORT at a boundary ends the job (R352). -/
theorem exec_jobAbort {j : Cluster} {c : CtxIx} (hedge : s.nmcEdge = true) (hx : s.ctx j c = x) (habort : x.abort = true)
    (hjob : x.job.isSome = true) (hdraining : x.st ≠ .draining) (hidle : x.st ≠ .idle) (hboundary : x.atBoundary = true) :
    exec (.jobAbort j c) s = .next (s.failAt j c ⟨0x11, 0, 0, 0⟩ (x.prog.n - 1) x.prog.ip x.depth) := by
  subst hx
  change execJobAbort j c s = _
  rw [execJobAbort, if_neg (by simp [hedge])]
  exact congrArg _ (onlyIf_pos (by simp [habort, hjob, hdraining, hidle, hboundary]) _ _)

end

/-- A MOVE whose chunk 0 has failed check 1 at element 0, and is replayed on array 48 until stamp 6,100. -/
def replayedMove : DOp :=
  { code := 0x10, w := 0x10, x := 0, e := 1024, total := 1, next := 1, flags := 0, acc := ⟨[], 0, 0, [], 0, 0, none, 0, []⟩
    chunks := [{ m := 0, st := .replay 48 6100, ins := [], need := 0, ops := 0, who := [], ended := 0, outs := [], todo := 0, bad := none,
                 fail := none, flag := some (1, 0, 0xFF), replayed := false, held := [], ents := [] }] }

/-- The context that runs it, for tenant 5, whose job is to be aborted. -/
def replayingCtx : Ctx :=
  { Ctx.blank with st := .running, job := some ⟨5, 0, 3, 7, 0, false, 100, 5000⟩, op := .data replayedMove, abort := true
                   prog := { Prog.blank with n := 1 } }

/-- Stamp 6,000 in READY: the spare 48 of Lantern 0 is UNDER_TEST for the replay. -/
def State.abortedReplay : State :=
  let s := (State.reset.wr F.GLOBAL_STATE.STATE 2).setRole 0 48 3
  { s with
    clk := { Clk.reset with now := 6000, running := true }
    lnts := [(0, { Lantern.blank with ctxs := replayingCtx :: List.replicate 7 Ctx.blank })] }

theorem role_abortedReplay : State.abortedReplay.role 0 48 = 3 := by decide +kernel

/-- The command returns the spare. -/
theorem jobAbort_abortedReplay (t : State) (h : exec (.jobAbort 0 0) State.abortedReplay = .next t) : t.role 0 48 = 1 := by
  have hfail := exec_jobAbort (s := State.abortedReplay) (j := 0) (c := 0) (x := replayingCtx) (by decide +kernel) rfl rfl rfl (by decide)
    (by decide) (by decide)
  obtain rfl := Host.Outcome.next.inj (hfail.symm.trans h)
  exact role_drainCtx rfl role_abortedReplay rfl _

/-- Refutes O56: a JOB_ABORT does change a register. A data instruction is at a boundary while a chunk of it is replayed, and the end of the job
returns the spare that ran the replay to SPARE (R320, `State.replayOver`): LNT_ARRAY.ROLE of it changes. -/
theorem not_jobsEnd : ¬ Obligations.JobsEnd := by
  unfold Obligations.JobsEnd
  intro h
  obtain ⟨-, habort, -⟩ := h State.abortedReplay 0 0 replayingCtx rfl
  obtain ⟨t, hexec, -, -, hkept⟩ := habort (by decide +kernel) rfl rfl (by decide) (by decide) (by decide)
  have hsame : t.role 0 48 = State.abortedReplay.role 0 48 := rd_of_regs (regs_of_kept hkept (by decide)) F.LNT_ARRAY.ROLE 0 48
  rw [role_abortedReplay, jobAbort_abortedReplay t hexec] at hsame
  exact absurd hsame (by decide)

end Sys2Proof.Machine
end

section
/-! A host-window read that no instruction in progress has asked for (R349, R533, R534), and a chunk of a COLLECT that bears the number of the
next one (R357, R494). -/

set_option Elab.async false

namespace Sys2Proof.Machine

/-! ### A Lantern with one context at work -/

/-- The descriptor of a stream of 16 elements of FP32 that fill line 0 of plot 3. -/
def lineStream : Desc := BitVec.ofNat 256 (3 * 2 ^ 28 + 16 * 2 ^ 48 + 2 ^ 80 + 2 ^ 112)

/-- A context of tenant 5 that runs the words of the inline image, about to issue the first. Every descriptor register names the line, and s2
holds 1. -/
def oneLineCtx (words : List (BitVec 128)) : Ctx :=
  { Ctx.blank with
    st := .running
    job := some ⟨5, 0, 3, 7, 0, false, 100, 5000⟩
    regs := { CtxRegs.blank with s := CtxRegs.blank.s.set 2 1, d := List.replicate 16 lineStream }
    prog := { Prog.blank with imgs := [⟨none, words, 0, 0⟩] } }

/-- Stamp 6,000 in READY: plot 3 is OPEN to tenant 5, context 0 of Lantern 0 is `x`, and the host-window reads `hq` wait to be sent. -/
def State.oneContext (x : Ctx) (hq : List HostRd) (ents : Tbl (Option PosyEnt)) : State :=
  { State.reset.wr F.GLOBAL_STATE.STATE 2 with
    clk := { Clk.reset with now := 6000, running := true }
    plots := [(3, { Plot.blank with state := .openPlot, owner := 5, rights := 0xFFFF })]
    posies := [(0, { Posy.blank with ents := ents })]
    lnts := [(0, { Lantern.blank with ctxs := x :: List.replicate 7 Ctx.blank, hqueue := hq })] }

/-! ### A read of the host window left in the queue (R533) -/

/-- FILL of the stream of d0 with s0. -/
def fillWord : BitVec 128 := 0x11

/-- The context is about to issue a FILL, and a read of the host window for its chunk 0 already waits. The window is empty. -/
def State.strayRead : State := State.oneContext (oneLineCtx [fillWord, 0]) [⟨0, 0, 0, 0, 1, 0, 1⟩] []

/-- The read lies outside the window and fails the chunk, so that the FILL ends as it issues. -/
theorem fill_strayRead (t : State) (h : exec (.fill 0 0) State.strayRead = .next t) : (t.ctx 0 0).op = .none := by
  obtain rfl := Host.Outcome.next.inj h
  decide +kernel

/-- Refutes O58: the statement says that a context executes a data instruction whose checks pass, whatever waits in the Lantern's queue of
host-window reads. As the first chunk is fetched the whole queue is served (`State.pumpHost`), and a read in it that names the chunk and lies
outside the window fails the instruction with DESC. The premise that no read of the context waits is missing. -/
theorem not_memoryInstructions : ¬ Obligations.MemoryInstructions := by
  unfold Obligations.MemoryInstructions
  intro h
  obtain ⟨-, -, hdata⟩ := h State.strayRead 0 0 (oneLineCtx [fillWord, 0]) fillWord rfl (by decide +kernel) rfl (by decide) (by decide +kernel)
  obtain ⟨-, hruns⟩ := hdata (.fill, 0x11) (by simp) (by decide) 0 ⟨5, 0, 3, 7, 0, false, 100, 5000⟩ rfl rfl
  obtain ⟨t, d, hexec, hop, -⟩ := hruns (by decide +kernel) (by decide +kernel) (fun hcollect => absurd hcollect (by decide))
  exact COp.noConfusion ((fill_strayRead t hexec).symm.trans hop)

/-! ### A chunk of a COLLECT that is started again (R357, R494) -/

/-- COLLECT into the stream of d0 of what the Posy holds for the key stream of d1: s2 contributions to a key, to be waited for as long as s3
says, with the tests of sources and of sums off. -/
def collectWord : BitVec 128 := BitVec.ofNat 128 (0x31 + 2 ^ 10 + 2 ^ 11 + 2 ^ 15 + 1 * 2 ^ 20 + 2 * 2 ^ 24 + 3 * 2 ^ 28 + 4 * 2 ^ 32)

/-- Chunk 0 of a COLLECT as it stands in the store. -/
def collectChunk (st : ChunkSt) : Chunk := { Chunk.new 0 with st := st }

/-- The COLLECT with the chunk `ch` in its store; `next` is the number of the next chunk to begin. -/
def collecting (next : Nat) (ch : Chunk) : DOp :=
  { code := 0x31, w := collectWord, x := 0, e := 1024, total := 1, next := next, chunks := [ch], flags := 0,
    acc := ⟨[], 0, 0, [], 0, 0, none, 0, []⟩ }

/-- Chunk 0 waits for the one key of its region, and chunk 0 is the next to begin. -/
def waitingCollect : DOp := collecting 0 (collectChunk (.collect 5990))

/-- The Posy holds an entry of the key with the one contribution. -/
def State.twiceNumbered : State :=
  State.oneContext { oneLineCtx [collectWord, 0, 0] with op := .data waitingCollect } []
    [(0, some { PosyEnt.new ⟨3 * 2 ^ 22, false, 0⟩ 0 with count := 1 })]

/-- The chunk reaches its verdict, whereupon the next begins, and with it, as its number is the same, the chunk waits once more. -/
theorem collectWaitEnd_twiceNumbered (t : State) (h : exec (.collectWaitEnd 0 0) State.twiceNumbered = .next t) :
    (t.ctx 0 0).st = .running ∧ ∀ d, t.dop 0 0 = some d → d.chunks.map (·.st) = [.collect 6000, .collect 6000] := by
  obtain rfl := Host.Outcome.next.inj h
  refine ⟨by decide +kernel, fun d hd => Option.some.inj ?_⟩
  rw [← Option.map_some (f := fun d : DOp => d.chunks.map (·.st)), ← hd]
  decide +kernel

/-- Refutes O60: the clause of COLLECT_WAIT_END does not say, as that of CHUNK_VERDICT does, that the chunk's number is not that of the next chunk.
When it is, the chunk that begins restarts the one that has reached its verdict (`State.startChunk` goes by the number). -/
theorem not_chunksGoOn : ¬ Obligations.ChunksGoOn := by
  unfold Obligations.ChunksGoOn
  intro h
  obtain ⟨-, -, hdop, -⟩ := h State.twiceNumbered 0 0 (by decide +kernel)
  obtain ⟨-, -, -, -, -, hwait⟩ := hdop waitingCollect rfl
  obtain ⟨t, hexec, -, hends⟩ := hwait (collectChunk (.collect 5990)) [] 5990 (by decide) rfl rfl rfl rfl (by decide +kernel) (by decide +kernel)
  obtain ⟨hrunning, hchunks⟩ := collectWaitEnd_twiceNumbered t hexec
  rcases hends with ⟨e, x, n, hd, hx, -, hverdict⟩ | ⟨g, hdraining, -⟩
  · have hst : x.st ∈ e.chunks.map (·.st) := List.mem_map_of_mem hx
    rw [hchunks e hd, hverdict] at hst
    simp at hst
  · exact absurd (hrunning.symm.trans hdraining) (by decide)

end Sys2Proof.Machine
end

section
/-! The contexts of a Lantern: what an operation on one of them leaves of the others and of the block, the boundary between instructions, and
the issue of an instruction (R348, R377, R394, R397, R419, R423). -/

set_option Elab.async false

namespace Sys2Proof.Machine

section
variable {s t u : State} {j c d n : Nat} {x y : Ctx} {f : Lantern → Lantern}

/-! ### Lanterns and their contexts -/

theorem lnt_setLnt_same (s : State) (j : Nat) (l : Lantern) : (s.setLnt j l).lnt j = l := tget_tset_same _ _ _ _

theorem lnt_modLnt_same (s : State) (j : Nat) (f : Lantern → Lantern) : (s.modLnt j f).lnt j = f (s.lnt j) := lnt_setLnt_same _ _ _

theorem lnt_of_lnts (h : t.lnts = s.lnts) (j : Nat) : t.lnt j = s.lnt j := congrArg (tget Lantern.blank · j) h

theorem ctx_of_lnt (h : (t.lnt j).ctxs = (s.lnt j).ctxs) (c : Nat) : t.ctx j c = s.ctx j c := congrArg (·.getD c Ctx.blank) h

theorem ctx_of_lnts (h : t.lnts = s.lnts) (j c : Nat) : t.ctx j c = s.ctx j c := ctx_of_lnt (congrArg Lantern.ctxs (lnt_of_lnts h j)) c

/-- A change of what a Lantern keeps beside its contexts. -/
theorem ctx_modLnt (h : (f (s.lnt j)).ctxs = (s.lnt j).ctxs) (c : Nat) : (s.modLnt j f).ctx j c = s.ctx j c :=
  ctx_of_lnt ((congrArg Lantern.ctxs (lnt_modLnt_same s j f)).trans h) c

theorem ctxs_setCtx (s : State) (j c : Nat) (x : Ctx) : ((s.setCtx j c x).lnt j).ctxs = lset Ctx.blank (s.lnt j).ctxs c x :=
  congrArg Lantern.ctxs (lnt_setLnt_same s j _)

theorem ctx_setCtx_same (s : State) (j c : Nat) (x : Ctx) : (s.setCtx j c x).ctx j c = x := by
  rw [State.ctx, ctxs_setCtx, lset_getD_same]

theorem ctx_setCtx_other (s : State) (j : Nat) (x : Ctx) (h : d ≠ c) : (s.setCtx j c x).ctx j d = s.ctx j d := by
  rw [State.ctx, ctxs_setCtx, lset_getD_other _ _ _ h, State.ctx]

theorem modLnt_kept (s : State) (j : Nat) (f : Lantern → Lantern) : s.keptBut (s.modLnt j f) [.lnts] :=
  keptBut_lnts (keptBut_refl s _) _ (by decide)

theorem setCtx_kept (s : State) (j c : Nat) (x : Ctx) : s.keptBut (s.setCtx j c x) [.lnts] := keptBut_lnts (keptBut_refl s _) _ (by decide)

/-- From `s` to `t` context `c` of Lantern `j` becomes `x`. Every other context of the Lantern is as it was, and so is the block but for its
Lanterns. -/
structure State.Becomes (s t : State) (j c : Nat) (x : Ctx) : Prop where
  here : t.ctx j c = x
  others : ∀ d, d ≠ c → t.ctx j d = s.ctx j d
  kept : s.keptBut t [.lnts]

theorem becomes_refl (h : s.ctx j c = x) : s.Becomes s j c x := ⟨h, fun _ _ => rfl, keptBut_refl s _⟩

theorem State.Becomes.setCtx (h : s.Becomes t j c x) (y : Ctx) : s.Becomes (t.setCtx j c y) j c y :=
  ⟨ctx_setCtx_same t j c y, fun d hd => (ctx_setCtx_other t j y hd).trans (h.others d hd), keptBut_trans h.kept (setCtx_kept t j c y)⟩

theorem becomes_setCtx (s : State) (j c : Nat) (x : Ctx) : s.Becomes (s.setCtx j c x) j c x := (becomes_refl rfl).setCtx x

/-! ### The boundary between instructions (R394, R397) -/

/-- A context whose instruction has ended and that may issue again from stamp `ready` on. -/
def Ctx.freed (x : Ctx) (ready : Nat) : Ctx :=
  { x with st := if x.hold then .held else .running, hold := false, op := .none, ready := ready }

/-- A context with its IP `words` further. -/
def Ctx.past (x : Ctx) (words : Nat) : Ctx := { x with prog := { x.prog with ip := x.prog.ip + words } }

/-- No iteration of a loop ends where the context stands (R397). -/
def Ctx.midLoop (x : Ctx) : Prop := loopEnds x.depth x.prog.ip x.regs x.prog.loops = (x.prog.loops, x.prog.ip, x.regs)

theorem midLoop_of_noLoops (h : x.prog.loops = []) : x.midLoop := by
  rw [Ctx.midLoop, h]
  rfl

/-- The instruction ends, no iteration of a loop with it, and the program goes on. -/
theorem retire_goesOn (hx : s.ctx j c = x) (hends : x.midLoop) (hpfail : x.pfail = none) (hip : x.prog.ip < x.image.words.length) (n : Nat) :
    s.retire j c n = s.setCtx j c (x.freed (s.now + s.cyc n)) := by
  subst hx
  unfold Ctx.midLoop at hends
  simp only [State.retire, hends, hpfail]
  refine (if_pos ?_).trans (by rw [← hpfail]; rfl)
  exact hip

theorem cyc_of_regs (h : t.regs = s.regs) (n : Nat) : t.cyc n = s.cyc n := by
  rw [State.cyc, bit_of_regs h, State.cyc]

theorem State.Becomes.retire (h : s.Becomes t j c x) (hends : x.midLoop) (hpfail : x.pfail = none)
    (hip : x.prog.ip < x.image.words.length) (n : Nat) : s.Becomes (t.retire j c n) j c (x.freed (s.now + s.cyc n)) := by
  have hnow : t.now = s.now := now_of_kept h.kept (by decide)
  have hcyc : t.cyc n = s.cyc n := cyc_of_regs (regs_of_kept h.kept (by decide)) n
  rw [retire_goesOn h.here hends hpfail hip, hnow, hcyc]
  exact h.setCtx _

theorem State.Becomes.advanceIp (h : s.Becomes t j c x) {words : Nat} (hloops : x.prog.loops = []) (hpfail : x.pfail = none)
    (hip : x.prog.ip + words < x.image.words.length) (n : Nat) :
    s.Becomes (t.advanceIp j c words n) j c ((x.past words).freed (s.now + s.cyc n)) := by
  obtain rfl := h.here
  exact (h.setCtx ((t.ctx j c).past words)).retire (midLoop_of_noLoops hloops) hpfail hip n

/-! ### Draining (R419) -/

/-- A context whose job has ended as `f` says. -/
def Ctx.ended (x : Ctx) (f : JobFin) : Ctx :=
  { x with st := .draining, op := .none, posted := [], pfail := none, fin := some f, hold := false, abort := false }

theorem ctx_drainCtx (s : State) (j c : Nat) (fin : JobFin) :
    ∃ f, f.result = fin.result ∧ (s.drainCtx j c fin).ctx j c = (s.ctx j c).ended f := by
  refine ⟨_, ?_, (congrArg (·.getD c Ctx.blank) (congrArg Lantern.ctxs (lnt_modLnt_same _ j _))).trans (lset_getD_same _ _ c _)⟩
  rfl

theorem releaseHeld_kept (s : State) (j : Nat) (es : List Nat) : s.keptBut (s.releaseHeld j es) [.posies] := by
  intro p hp
  cases p
  case posies => exact absurd (by decide) hp
  case regs => exact ⟨rfl, rfl⟩
  all_goals rfl

theorem drainCtx_kept (h : (s.ctx j c).replayArrs = []) (fin : JobFin) : s.keptBut (s.drainCtx j c fin) [.lnts, .posies] := by
  unfold State.drainCtx
  extract_lets x fin replays mine
  have hreplays : replays = s.releaseHeld j x.heldEnts := congrArg (List.foldl _ _) h
  rw [hreplays]
  exact keptBut_trans (keptBut_mono (releaseHeld_kept s j _) (by decide)) (keptBut_mono (modLnt_kept _ j _) (by decide))

theorem ctx_failAt (s : State) (j c : Nat) (e : Exc) (n ip depth : Nat) :
    ∃ f, f.result = excResult e ∧ (s.failAt j c e n ip depth).ctx j c = (s.ctx j c).ended f :=
  ctx_drainCtx s j c ⟨excResult e, excDetail e ip depth, n % 65536, s.nowAt j, false, false⟩

theorem ctx_failInstr (s : State) (j c : Nat) (e : Exc) :
    ∃ f, f.result = excResult e ∧ (s.failInstr j c e).ctx j c = (s.ctx j c).ended f := ctx_failAt s j c e _ _ _

theorem failInstr_kept (h : (s.ctx j c).replayArrs = []) (e : Exc) : s.keptBut (s.failInstr j c e) [.lnts, .posies] := drainCtx_kept h _

end

section
variable {s t : State} {j : Cluster} {c : CtxIx} {x y : Ctx} {w e : BitVec 128} {p : Nat → Bool}
  {run : State → BitVec 128 → BitVec 128 → State}

/-! ### The context that the issue unit takes (R348, R423) -/

/-- The issue unit of Lantern `j` takes context `c`, which is `x`; its next word is `w`, and the count of its instructions is not
exhausted. -/
structure State.Takes (s : State) (j c : Nat) (x : Ctx) (w : BitVec 128) : Prop where
  ctx : s.ctx j c = x
  issuer : s.issuer j = some c
  word : x.word x.prog.ip = some w
  count : x.prog.n ≠ 2 ^ 24

/-- A context between instructions, neither held nor to be held, of which no posted request has failed. -/
structure Ctx.Free (x : Ctx) : Prop where
  op : x.op = .none
  hold : x.hold = false
  pfail : x.pfail = none

theorem free_of_canIssue {j c : Nat} (h : s.canIssue j c = true) : (s.ctx j c).Free := by
  simp only [State.canIssue, Bool.and_eq_true] at h
  obtain ⟨⟨⟨⟨⟨⟨⟨-, hop⟩, -⟩, -⟩, hhold⟩, hpfail⟩, -⟩, -⟩ := h
  exact ⟨by simpa using hop, by simpa using hhold, by simpa using hpfail⟩

theorem canIssue_of_issuer {j c : Nat} (h : s.issuer j = some c) : s.canIssue j c = true := by
  unfold State.issuer at h
  split at h
  · cases h
  · exact List.find?_some h

theorem State.Takes.free {j c : Nat} (h : s.Takes j c x w) : x.Free := h.ctx ▸ free_of_canIssue (canIssue_of_issuer h.issuer)

/-- A context that has just issued: the count has advanced, and the first issue of a job is its START (R377, R523). -/
def Ctx.issued (x : Ctx) (now : Nat) : Ctx :=
  { x with
    job := x.job.map fun b => if x.prog.n = 0 then { b with start := now } else b
    prog := { x.prog with n := x.prog.n + 1 } }

/-- The Lantern notes which context issued, and when. -/
def State.noteIssue (s : State) (j c : Nat) : State := s.modLnt j fun l => { l with rr := c, issued := s.now + 1 }

/-- The context counts the issue. -/
def State.countIssue (s : State) (j c : Nat) : State := (s.noteIssue j c).modCtx j c fun x => x.issued (s.nowAt j)

theorem markIssue_eq (s : State) (j c : Nat) : s.markIssue j c = ((s.countIssue j c).pmuCtx j c 0 1).evt j 0x00 c := rfl

theorem lnts_markIssue (s : State) (j c : Nat) : (s.markIssue j c).lnts = (s.countIssue j c).lnts := by
  rw [markIssue_eq, evt_lnts]
  exact pmu_kept _ _ _ _ .lnts (by decide)

theorem ctx_noteIssue (s : State) (j c d : Nat) : (s.noteIssue j c).ctx j d = s.ctx j d := ctx_modLnt rfl d

theorem ctx_markIssue_same {j c : Nat} (h : s.ctx j c = x) : (s.markIssue j c).ctx j c = x.issued (s.nowAt j) := by
  rw [ctx_of_lnts (lnts_markIssue s j c), ← h, ← ctx_noteIssue s j c c]
  exact ctx_setCtx_same _ j c _

theorem ctx_markIssue_other {j c d : Nat} (h : d ≠ c) : (s.markIssue j c).ctx j d = s.ctx j d := by
  rw [ctx_of_lnts (lnts_markIssue s j c), ← ctx_noteIssue s j c d]
  exact ctx_setCtx_other _ j _ h

theorem countIssue_kept (s : State) (j c : Nat) : s.keptBut (s.countIssue j c) [.lnts] :=
  keptBut_trans (modLnt_kept s j _) (setCtx_kept _ j c _)

theorem markIssue_kept (s : State) (j c : Nat) : s.keptBut (s.markIssue j c) [.lnts, .pmus, .regs] := by
  have hcounted := keptBut_mono (countIssue_kept s j c) (m := [.lnts, .pmus, .regs]) (by decide)
  have hpmu := keptBut_mono (pmu_kept (s := s.countIssue j c) .PMU_CTX j (c * 8 + 0) 1) (m := [.lnts, .pmus, .regs]) (by decide)
  exact keptBut_evt (keptBut_trans hcounted hpmu) _ _ _ (by decide)

theorem markIssue_onlyRegs (s : State) (j : Cluster) (c : CtxIx) : s.onlyRegs (s.markIssue j c) [(.PMU_CTX, j, c * 8)] := by
  have hcounted : s.onlyRegs (s.countIssue j c) [(.PMU_CTX, j, c * 8)] :=
    onlyRegs_regs (onlyRegs_refl s _) (regs_of_kept (countIssue_kept s j c) (by decide))
  have helem : (RegName.PMU_CTX, j.val % 2 ^ 14, (c.val * 8 + 0) % 2 ^ 14) ∈ [(RegName.PMU_CTX, j.val, c.val * 8)] := by
    rw [Nat.mod_eq_of_lt (by omega), Nat.mod_eq_of_lt (by omega)]
    exact List.mem_cons_self
  have hpmu : s.onlyRegs ((s.countIssue j c).pmuCtx j c 0 1) [(.PMU_CTX, j, c * 8)] := by
    unfold State.pmuCtx State.pmu
    split
    · exact hcounted
    · exact onlyRegs_setReg hcounted _ _ _ _ helem
  exact hpmu

theorem nowAt_markIssue (s : State) (j c i : Nat) : (s.markIssue j c).nowAt i = s.nowAt i :=
  congrArg (fun k : Clk => (k.now + tget 0 k.skew i).toNat) (markIssue_kept s j c .clk (by decide))

theorem cyc_markIssue (s : State) (j : Cluster) (c : CtxIx) (n : Nat) : (s.markIssue j c).cyc n = s.cyc n := by
  have hclock : (s.markIssue j c).reg .CLOCK_STATUS = s.reg .CLOCK_STATUS := markIssue_onlyRegs s j c .CLOCK_STATUS 0 0 (by simp)
  have hhalf : (s.markIssue j c).bit F.CLOCK_STATUS.NMC_HALF = s.bit F.CLOCK_STATUS.NMC_HALF :=
    congrArg (· == 1) (rd_of_reg (f := F.CLOCK_STATUS.NMC_HALF) hclock)
  rw [State.cyc, hhalf, State.cyc]

/-- From `s` to `t` context `c` of Lantern `j` issues an instruction and becomes `x`. No other context of the Lantern changes, nor does the
block but for its Lanterns, the events of the cycle and the context's counter of issues. -/
structure State.Issues (s t : State) (j : Cluster) (c : CtxIx) (x : Ctx) : Prop where
  here : t.ctx j c = x
  frame : (∀ d, d ≠ c → t.ctx j d = s.ctx j d) ∧ s.keptBut t [.lnts, .pmus, .regs] ∧ s.onlyRegs t [(.PMU_CTX, j, c * 8)]

theorem State.Becomes.issues (h : (s.markIssue j c).Becomes t j c x) : s.Issues t j c x where
  here := h.here
  frame :=
    ⟨fun d hd => (h.others d (Fin.val_ne_of_ne hd)).trans (ctx_markIssue_other (Fin.val_ne_of_ne hd)),
      keptBut_trans (markIssue_kept s j c) (keptBut_mono h.kept (by decide)),
      onlyRegs_regs (markIssue_onlyRegs s j c) (regs_of_kept h.kept (by decide))⟩

/-- Any instruction but the last of a program that has neither loops nor failures. -/
theorem State.Becomes.issues_advanceIp (h : (s.markIssue j c).Becomes t j c x) {words : Nat} (hloops : x.prog.loops = [])
    (hpfail : x.pfail = none) (hip : x.prog.ip + words < x.image.words.length) (n : Nat) :
    s.Issues (t.advanceIp j c words n) j c ((x.past words).freed (s.now + s.cyc n)) := by
  rw [← cyc_markIssue s j c, ← now_of_kept (markIssue_kept s j c) (by decide)]
  exact (h.advanceIp hloops hpfail hip n).issues

theorem State.Becomes.issues_retire (h : (s.markIssue j c).Becomes t j c x) (hends : x.midLoop) (hpfail : x.pfail = none)
    (hip : x.prog.ip < x.image.words.length) (n : Nat) : s.Issues (t.retire j c n) j c (x.freed (s.now + s.cyc n)) := by
  rw [← cyc_markIssue s j c, ← now_of_kept (markIssue_kept s j c) (by decide)]
  exact (h.retire hends hpfail hip n).issues

/-! ### The issue of a word (R373, R374, R423) -/

/-- A well-encoded word, with its extension word where it has one, is run after the issue has been counted. -/
theorem State.Takes.issue {j c : Nat} (h : s.Takes j c x w) (hp : p (iOp w) = true) (hknown : opsKnown.contains (iOp w) = true)
    (hgood : wordBad w = false) (hext : if extReq (iOp w) then x.word (x.prog.ip + 1) = some e ∧ extBad w e = false else e = 0) :
    s.issue j c p run = .next (run (s.markIssue j c) w e) := by
  obtain ⟨rfl, hissuer, hword, hcount⟩ := h
  have htaken : (s.issuer j == some c && p (iOp w)) = true := by simp [hissuer, hp]
  simp only [State.issue, hword, onlyIf_pos htaken, if_neg hcount, hknown, hgood, Bool.not_true, Bool.false_eq_true, if_false]
  split at hext
  next hreq =>
    obtain ⟨hnext, hgoodExt⟩ := hext
    simp only [hreq, hnext, hgoodExt, Bool.false_eq_true, if_false, if_true]
  next hnone => rw [if_neg hnone, hext]

/-- A word without an extension word. -/
theorem State.Takes.issue_single {j c : Nat} (h : s.Takes j c x w) (hgood : wordBad w = false) {o : Nat} (hop : iOp w = o) (hp : p o = true)
    (ho : (opsKnown.contains o && !extReq o) = true) : s.issue j c p run = .next (run (s.markIssue j c) w 0) := by
  subst hop
  rw [Bool.and_eq_true, Bool.not_eq_true'] at ho
  exact h.issue hp ho.1 hgood (by simp [ho.2])

/-- A word with a reserved opcode fails. -/
theorem State.Takes.issue_reserved {j c : Nat} (h : s.Takes j c x w) (hp : p (iOp w) = true) (hres : opsKnown.contains (iOp w) = false) :
    s.issue j c p run = .next ((s.markIssue j c).failInstr j c ⟨0x01, 0, 0, 0⟩) := by
  obtain ⟨rfl, hissuer, hword, hcount⟩ := h
  have htaken : (s.issuer j == some c && p (iOp w)) = true := by simp [hissuer, hp]
  simp only [State.issue, hword, onlyIf_pos htaken, if_neg hcount, hres, Bool.not_false, if_true]

end
end Sys2Proof.Machine
end

section
/-! The control instructions of Amnubo (R373, R394 to R396, R398 to R400, R402 to R404). -/

set_option Elab.async false

namespace Sys2Proof.Machine

section
variable {s : State} {j : Cluster} {c : CtxIx} {x : Ctx} {w e : BitVec 128}

/-! ### A reserved opcode (R373) -/

theorem replayArrs_of_none (h : x.op = .none) : x.replayArrs = [] := by
  rw [Ctx.replayArrs, h]

theorem exec_instrReservedOpcode (h : s.Takes j c x w) (hres : opsKnown.contains (iOp w) = false) :
    exec (.instrReservedOpcode j c) s = .next ((s.markIssue j c).failInstr j c ⟨0x01, 0, 0, 0⟩) := by
  change execInstrReservedOpcode j c s = _
  rw [execInstrReservedOpcode, h.issue_reserved (congrArg (!·) hres) hres]

theorem replayArrs_markIssue (h : s.Takes j c x w) : ((s.markIssue j c).ctx j c).replayArrs = [] := by
  rw [ctx_markIssue_same h.ctx]
  exact replayArrs_of_none h.free.op

/-! ### Instructions of one word that go on to the next -/

/-- The context after an instruction of one word and `n` cycles that does nothing else. -/
theorem issues_next (h : s.Takes j c x w) (hloops : x.prog.loops = []) (hip : x.prog.ip + 1 < x.image.words.length) (n : Nat) :
    s.Issues ((s.markIssue j c).advanceIp j c 1 n) j c (((x.issued (s.nowAt j)).past 1).freed (s.now + s.cyc n)) :=
  State.Becomes.issues_advanceIp (becomes_refl (ctx_markIssue_same h.ctx)) hloops h.free.pfail hip n

theorem exec_nop (h : s.Takes j c x w) (hgood : wordBad w = false) (hop : iOp w = 0x00) :
    exec (.nop j c) s = .next ((s.markIssue j c).advanceIp j c 1 1) := by
  change execNop j c s = _
  rw [execNop, h.issue_single hgood hop rfl (by decide)]

/-- STAMP without a memory write (R404). -/
theorem exec_stampInstr (h : s.Takes j c x w) (hgood : wordBad w = false) (hop : iOp w = 0x08) (hmem : w.getLsbD 8 = false) :
    exec (.stampInstr j c) s = .next (((s.markIssue j c).setCtx j c
      { x.issued (s.nowAt j) with regs := x.regs.setS (iF w 1) s.clk.now }).advanceIp j c 1 1) := by
  change execStampInstr j c s = _
  have hclk : (s.markIssue j c).clk = s.clk := markIssue_kept s j c .clk (by decide)
  rw [execStampInstr, h.issue_single hgood hop rfl (by decide)]
  simp only [hmem, hclk, State.modCtx, ctx_markIssue_same h.ctx, Bool.false_eq_true, if_false]
  rfl

theorem exec_fence (h : s.Takes j c x w) (hgood : wordBad w = false) (hop : iOp w = 0x07) :
    exec (.fence j c) s = .next (if x.fenced (w.getLsbD 8) (w.getLsbD 9) then (s.markIssue j c).advanceIp j c 1 1
      else (s.markIssue j c).setCtx j c { x.issued (s.nowAt j) with op := .fence (w.getLsbD 8) (w.getLsbD 9) }) := by
  change execFence j c s = _
  rw [execFence, h.issue_single hgood hop rfl (by decide), ctx_markIssue_same h.ctx]
  rfl

/-! ### BR (R398, R399) -/

theorem exec_br_passed (h : s.Takes j c x w) (hgood : wordBad w = false) (hop : iOp w = 0x02) (hcond : brCond w x.regs = false) :
    exec (.br j c) s = .next ((s.markIssue j c).advanceIp j c 1 1) := by
  change execBr j c s = _
  rw [execBr, h.issue_single hgood hop rfl (by decide), ctx_markIssue_same h.ctx]
  exact congrArg _ (if_pos (by simp [Ctx.issued, hcond]))

theorem closeLoops_of_noLoops (h : x.prog.loops = []) (target : Nat) (r : CtxRegs) :
    closeLoops x.depth target r x.prog.loops = (x.prog.loops, r) := by
  rw [h]
  rfl

/-- The context at the target of a branch, its flag cleared where the branch clears it. -/
def Ctx.branched (x : Ctx) (w : BitVec 128) (target : Nat) : Ctx :=
  { x with
    regs := if bitsOf w 10 8 == 7 && w.getLsbD 28
      then { x.regs with flags := x.regs.flags &&& ~~~(BitVec.ofNat 8 (2 ^ bitsOf w 27 24)) } else x.regs
    prog := { x.prog with ip := target } }

theorem exec_br_taken (h : s.Takes j c x w) (hloops : x.prog.loops = []) (hgood : wordBad w = false) (hop : iOp w = 0x02)
    (hcond : brCond w x.regs = true) {target : Nat} (htarget : (target : Int) = (x.prog.ip : Int) + sextN (bitsOf w 51 32) 20)
    (hin : target < x.image.words.length) :
    exec (.br j c) s = .next (((s.markIssue j c).setCtx j c ((x.issued (s.nowAt j)).branched w target)).retire j c 3) := by
  change execBr j c s = _
  have hinside : ¬((target : Int) < 0 ∨ (x.image.words.length : Int) ≤ (target : Int)) := by omega
  have hregs : (x.issued (s.nowAt j)).regs = x.regs := rfl
  have hip : (x.issued (s.nowAt j)).prog.ip = x.prog.ip := rfl
  have himage : (x.issued (s.nowAt j)).image = x.image := rfl
  have hnone : (x.issued (s.nowAt j)).prog.loops = [] := hloops
  rw [execBr, h.issue_single hgood hop rfl (by decide)]
  simp only [ctx_markIssue_same h.ctx, hregs, hip, himage, closeLoops_of_noLoops hnone, ← htarget, hcond, if_neg hinside, Int.toNat_natCast,
    Bool.not_true, Bool.false_eq_true, if_false]
  rfl

/-! ### LOOP (R396) -/

/-- The entry of a loop whose count is in the word. -/
def Ctx.loopEnt (x : Ctx) (w : BitVec 128) : LoopEnt :=
  ⟨x.prog.ip + 1, x.prog.ip + 1 + bitsOf w 35 24, bitsOf w 83 52, 0, bitsOf w 51 36, w.getLsbD 10, w.getLsbD 9, iF w 1,
    (upTo 16 (nbit (bitsOf w 51 36))).map fun k => (k, dBase (x.regs.d.getD k 0)), x.depth⟩

/-- The context with the loop open as its only one, at the body. -/
def Ctx.looped (x : Ctx) (w : BitVec 128) : Ctx :=
  { x with
    regs := if w.getLsbD 9 then x.regs.setS (iF w 1) 0 else x.regs
    prog := { x.prog with ip := x.prog.ip + 1, loops := [x.loopEnt w] } }

theorem doLoop_opens {s : State} {j c : Nat} (hx : s.ctx j c = x) (hloops : x.prog.loops = []) (himm : w.getLsbD 8 = false)
    (hcount : bitsOf w 83 52 ≠ 0) (hin : x.prog.ip + 1 + bitsOf w 35 24 ≤ x.image.words.length) :
    s.doLoop j c w = (s.setCtx j c (x.looped w)).retire j c 1 := by
  subst hx
  simp only [State.doLoop, himm, hloops, if_neg (Nat.not_lt.2 hin), if_neg hcount, List.length_nil, Bool.false_eq_true, if_false]
  rfl

/-- The body of a loop does not end where it begins, so that no iteration ends with the LOOP. -/
theorem midLoop_looped (hbody : bitsOf w 35 24 ≠ 0) : (x.looped w).midLoop := by
  have hstop : ¬((x.loopEnt w).depth = (x.looped w).depth ∧ x.prog.ip + 1 = (x.loopEnt w).stop) := by
    simp [Ctx.loopEnt, hbody]
  exact if_neg hstop

theorem exec_loop (h : s.Takes j c x w) (hloops : x.prog.loops = []) (hgood : wordBad w = false) (hop : iOp w = 0x01)
    (himm : w.getLsbD 8 = false) (hcount : bitsOf w 83 52 ≠ 0) (hin : x.prog.ip + 1 + bitsOf w 35 24 ≤ x.image.words.length) :
    exec (.loop j c) s = .next (((s.markIssue j c).setCtx j c ((x.issued (s.nowAt j)).looped w)).retire j c 1) := by
  change execLoop j c s = _
  rw [execLoop, h.issue_single hgood hop rfl (by decide), doLoop_opens (ctx_markIssue_same h.ctx) hloops himm hcount hin]

/-! ### CALL (R387, R400, R402) -/

/-- Making room for an image brings in no other. -/
theorem mem_of_mem_evict {inUse : List Image} {n k : Nat} {imgs : List Image} {i : Image} (h : i ∈ evict inUse n k imgs) : i ∈ imgs := by
  induction k generalizing imgs with
  | zero => exact h
  | succ k ih =>
    rw [evict] at h
    split at h
    · exact h
    · split at h
      · exact List.mem_of_mem_erase (ih h)
      · exact h

/-- Of the images with its address, the image entered last is the only one kept. -/
theorem find_keepImage (x : Ctx) (im : Image) : (x.keepImage im).prog.imgs.find? (fun i => i.pa == im.pa) = some im := by
  have hothers : (evict x.inUse im.words.length (x.prog.imgs.filter fun i => i.pa != im.pa).length
      (x.prog.imgs.filter fun i => i.pa != im.pa)).find? (fun i => i.pa == im.pa) = none := by
    refine List.find?_eq_none.2 fun i hi => ?_
    have hother := List.of_mem_filter (mem_of_mem_evict hi)
    simpa using hother
  exact (List.find?_append ..).trans (by simp [hothers])

/-- The context, with no loop open, at instruction `start` of its current image, which it has entered once more. -/
def Ctx.entered (x : Ctx) (start now : Nat) : Ctx :=
  let k := x.keepImage { x.image with used := now }
  { k with
    op := .none
    prog := { k.prog with calls := ⟨x.prog.img, x.prog.ip + 2, 0⟩ :: x.prog.calls, img := x.image.pa, ip := start } }

/-- The image entered is the one that was current. -/
theorem words_entered (x : Ctx) (start now : Nat) : (x.entered start now).image.words = x.image.words := by
  have himage : (x.entered start now).image = { x.image with used := now } :=
    congrArg (·.getD ⟨none, [], 0, 0⟩) (find_keepImage x { x.image with used := now })
  rw [himage]

theorem issues_call (h : s.Takes j c x w) (hloops : x.prog.loops = []) {start : Nat} (hin : start < x.image.words.length) (now : Nat) :
    s.Issues (((s.markIssue j c).setCtx j c ((x.issued (s.nowAt j)).entered start now)).retire j c 6) j c
      (((x.issued (s.nowAt j)).entered start now).freed (s.now + s.cyc 6)) := by
  have hwords : start < ((x.issued (s.nowAt j)).entered start now).image.words.length := by
    rw [words_entered]
    exact hin
  have hentered := (becomes_refl (ctx_markIssue_same h.ctx)).setCtx ((x.issued (s.nowAt j)).entered start now)
  exact hentered.issues_retire (midLoop_of_noLoops hloops) h.free.pfail hwords 6

/-- Where a CALL enters its image (R400). -/
def callStart (w : BitVec 128) (im : Image) : Nat := if bitsOf w 31 16 = 0xFFFF then im.entry else bitsOf w 31 16

/-- CALL of the current image with no frame. -/
theorem exec_call_same (h : s.Takes j c x w) (hloops : x.prog.loops = []) (hgood : wordBad w = false) (hop : iOp w = 0x03)
    (hext : x.word (x.prog.ip + 1) = some e) (hgoodExt : extBad w e = false) (henter : w.getLsbD 8 = true) (hsame : w.getLsbD 9 = true)
    (hframe : frameBytes w = 0) (hdepth : x.prog.calls.length < 8) (hin : callStart w x.image < x.image.words.length) :
    exec (.call j c) s =
      .next (((s.markIssue j c).setCtx j c ((x.issued (s.nowAt j)).entered (callStart w x.image) (s.markIssue j c).now)).retire j c 6) := by
  change execCall j c s = _
  have hword : if extReq (iOp w) then x.word (x.prog.ip + 1) = some e ∧ extBad w e = false else e = 0 := by
    rw [hop]
    exact ⟨hext, hgoodExt⟩
  have himage : (x.issued (s.nowAt j)).image = x.image := rfl
  have hnone : ((x.issued (s.nowAt j)).keepImage { x.image with used := (s.markIssue j c).now }).prog.loops.length = 0 :=
    congrArg List.length hloops
  have hshallow : ¬((x.issued (s.nowAt j)).depth = 8) := Nat.ne_of_lt hdepth
  have hwithin : decide (x.image.words.length ≤ callStart w x.image) = false := by simpa using hin
  unfold callStart at hwithin
  rw [execCall, h.issue (by simp [hop]) (by rw [hop]; decide) hgood hword]
  simp only [ctx_markIssue_same h.ctx, himage, henter, hsame, hframe, hshallow, hwithin, hnone, State.enterCall, Option.any_some,
    Option.isNone_some, Bool.not_true, Bool.false_eq_true, and_false, if_false, if_true]
  rfl

/-! ### RET (R392, R395) -/

/-- The context whose job ends well, the implicit fence to come. -/
def Ctx.endedWell (x : Ctx) (now : Nat) : Ctx :=
  { x with op := .none, fin := some ⟨rOK, 0, (x.prog.n - 1) % 65536, now, true, false⟩ }

theorem endJob_ok {s : State} {j c : Nat} (hx : s.ctx j c = x) (hpfail : x.pfail = none) :
    s.endJob j c = s.setCtx j c (x.endedWell (s.nowAt j)) := by
  subst hx
  simp only [State.endJob, hpfail]
  rw [← hpfail]
  rfl

theorem exec_ret_last (h : s.Takes j c x w) (hloops : x.prog.loops = []) (hgood : wordBad w = false) (hop : iOp w = 0x04)
    (hcalls : x.prog.calls = []) :
    exec (.ret j c) s = .next ((s.markIssue j c).setCtx j c ((x.issued (s.nowAt j)).endedWell (s.nowAt j))) := by
  change execRet j c s = _
  have hnoLoops : (x.issued (s.nowAt j)).prog.loops = [] := hloops
  have hnoCalls : (x.issued (s.nowAt j)).prog.calls = [] := hcalls
  rw [execRet, h.issue_single hgood hop rfl (by decide)]
  simp only [ctx_markIssue_same h.ctx, hnoLoops, hnoCalls, List.head?_nil, Option.any_none, Bool.false_eq_true, if_false]
  rw [endJob_ok (ctx_markIssue_same h.ctx) h.free.pfail, nowAt_markIssue]

end

/-- Settles O57: each instruction issues, and what its context becomes. -/
theorem controlInstructions : Obligations.ControlInstructions := by
  unfold Obligations.ControlInstructions
  intro s j c x w hx hissuer hword hcount hloops
  have h : s.Takes j c x w := ⟨hx, hissuer, hword, hcount⟩
  obtain ⟨hop, hhold, hpfail⟩ := h.free
  have hissued : (s.markIssue j c).Becomes (s.markIssue j c) j c (x.issued (s.nowAt j)) := becomes_refl (ctx_markIssue_same hx)
  refine ⟨fun hres => ?_, fun hgood hip => ⟨fun ho => ?_, fun ho => ⟨fun hcond => ?_, fun target hcond htarget hin => ?_⟩,
    fun ho himm hn hbody hin => ?_, fun e ho hext hgoodExt henter hsame hframeless hdepth hin => ?_, fun ho hcalls => ?_, fun ho hmem => ?_,
    fun ho => ?_⟩⟩
  · obtain ⟨f, hresult, hended⟩ := ctx_failInstr (s.markIssue j c) j c ⟨0x01, 0, 0, 0⟩
    have hkept := failInstr_kept (replayArrs_markIssue h) ⟨0x01, 0, 0, 0⟩
    exact ⟨_, f, exec_instrReservedOpcode h hres, congrArg Ctx.st hended, congrArg Ctx.fin hended, hresult,
      keptBut_trans (keptBut_mono (markIssue_kept s j c) (by decide)) (keptBut_mono hkept (by decide)),
      onlyRegs_regs (markIssue_onlyRegs s j c) (regs_of_kept hkept (by decide))⟩
  · obtain ⟨hhere, hframe⟩ := issues_next h hloops hip 1
    refine ⟨_, exec_nop h hgood ho, congrArg Ctx.prog hhere, (congrArg Ctx.regs hhere :), ?_, congrArg Ctx.ready hhere, hframe⟩
    exact (congrArg Ctx.st hhere).trans (if_neg (by simp [Ctx.past, Ctx.issued, hhold]))
  · obtain ⟨hhere, hframe⟩ := issues_next h hloops hip 1
    exact ⟨_, exec_br_passed h hgood ho hcond, congrArg Ctx.prog hhere, (congrArg Ctx.regs hhere :), hframe⟩
  · obtain ⟨hhere, hframe⟩ := (hissued.setCtx ((x.issued (s.nowAt j)).branched w target)).issues_retire
      (midLoop_of_noLoops hloops) hpfail hin 3
    exact ⟨_, exec_br_taken h hloops hgood ho hcond htarget hin, congrArg Ctx.prog hhere, congrArg Ctx.ready hhere, hframe⟩
  · obtain ⟨hhere, hframe⟩ := (hissued.setCtx ((x.issued (s.nowAt j)).looped w)).issues_retire (midLoop_looped hbody) hpfail hip 1
    exact ⟨_, (x.issued (s.nowAt j)).loopEnt w, exec_loop h hloops hgood ho himm hn hin, congrArg Ctx.prog hhere, rfl, rfl, rfl, rfl, rfl,
      hframe⟩
  · obtain ⟨hhere, hframe⟩ := issues_call h hloops hin (s.markIssue j c).now
    exact ⟨_, exec_call_same h hloops hgood ho hext hgoodExt henter hsame hframeless hdepth hin, congrArg (·.prog.calls) hhere,
      congrArg (·.prog.ip) hhere, (congrArg Ctx.regs hhere :), hframe⟩
  · obtain ⟨hhere, hframe⟩ := (hissued.setCtx ((x.issued (s.nowAt j)).endedWell (s.nowAt j))).issues
    exact ⟨_, exec_ret_last h hloops hgood ho hcalls, congrArg Ctx.fin hhere, (congrArg Ctx.regs hhere :), hframe⟩
  · obtain ⟨hhere, hframe⟩ := (hissued.setCtx { x.issued (s.nowAt j) with regs := x.regs.setS (iF w 1) s.clk.now }).issues_advanceIp
      hloops hpfail hip 1
    exact ⟨_, exec_stampInstr h hgood ho hmem, congrArg Ctx.regs hhere, congrArg Ctx.prog hhere, hframe⟩
  · refine ⟨_, exec_fence h hgood ho, ?_⟩
    by_cases hfenced : x.fenced (w.getLsbD 8) (w.getLsbD 9) = true
    · obtain ⟨hhere, hframe⟩ := issues_next h hloops hip 1
      rw [if_pos hfenced]
      exact ⟨fun _ => ⟨congrArg Ctx.prog hhere, congrArg Ctx.op hhere⟩, fun hnot => absurd (hfenced.symm.trans hnot) (by decide), hframe⟩
    · obtain ⟨hhere, hframe⟩ := (hissued.setCtx { x.issued (s.nowAt j) with op := .fence (w.getLsbD 8) (w.getLsbD 9) }).issues
      rw [if_neg hfenced]
      exact ⟨fun hyes => absurd hyes hfenced, fun _ => congrArg Ctx.op hhere, hframe⟩

end Sys2Proof.Machine
end

section
/-! The memory requests of a Lantern: what their acceptance and their sending leave as it was (R120, R124, R345, R346). -/

set_option Elab.async false

namespace Sys2Proof.Machine

section
variable {s t : State} {L : List Part} {j c : Nat}

/-! ### Acceptance at a doorkeeper (R120, R285) -/

/-- The parts of the state that the acceptance of a request can change. -/
def acceptParts : List Part := [.flights, .nextId, .credits, .regs, .refilled, .pcs, .throttles, .thrOff, .trkWindow]

theorem keptBut_answer (h : s.keptBut t acceptParts) (f : Flight) (r d : Nat) : s.keptBut (t.answer f r d) acceptParts :=
  keptBut_addFlight h _ (by decide) (by decide)

theorem keptBut_countDrop (h : s.keptBut t acceptParts) (tenant req : Nat) : s.keptBut (t.countDrop tenant req) acceptParts :=
  keptBut_incRc (keptBut_incRc h _ _ _ _ (by decide)) _ _ _ _ (by decide)

theorem police_kept (s : State) (f : Flight) : s.keptBut (s.police f) acceptParts := by
  have hdue : s.keptBut s.due acceptParts := keptBut_mono (due_kept s) (by decide)
  unfold State.police
  extract_lets due tenant n pol thr debited charged
  have hdebited : s.keptBut debited acceptParts := keptBut_trans hdue (keptBut_mono (debit_kept s.due pol n) (by decide))
  have hcharged : s.keptBut charged acceptParts := by
    unfold charged
    cases thr with
    | none => exact hdebited
    | some t => exact keptBut_throttles hdebited _ (by decide)
  refine keptBut_ite (keptBut_addFlight (keptBut_refl s _) _ (by decide) (by decide)) (keptBut_ite ?_ (keptBut_ite ?_ ?_))
  · exact keptBut_answer (keptBut_countDrop hdue _ _) _ _ _
  · exact keptBut_answer (keptBut_incRc (keptBut_countDrop hdue _ _) _ _ _ _ (by decide)) _ _ _
  · exact keptBut_addFlight hcharged _ (by decide) (by decide)

theorem takeCredit_kept (s : State) (k p : Nat) (m : Msg) : s.keptBut (s.takeCredit k p m) [.credits] :=
  keptBut_ite (keptBut_refl s _) (keptBut_setCredit (keptBut_refl s _) _ _ _ (by decide))

theorem markMirror_kept (s : State) (why : Purpose) (h : Header) : s.keptBut (s.markMirror why h) [.regs] := by
  unfold State.markMirror
  split
  · exact keptBut_wr (keptBut_refl s _) _ _ _ _ (by decide)
  · exact keptBut_refl s _

theorem accept_kept (s : State) (k req fn : Nat) (tenant : Option Nat) (why : Purpose) (m : Msg) :
    s.keptBut (s.accept k req fn tenant why m) acceptParts := by
  have hs := keptBut_refl s acceptParts
  unfold State.accept
  extract_lets f
  split
  · exact keptBut_answer (keptBut_onlyIf _ (keptBut_incRc hs _ _ _ _ (by decide)) hs) _ _ _
  · split
    · exact keptBut_answer hs _ _ _
    · extract_lets g policed
      have hpoliced : s.keptBut policed acceptParts := police_kept s g
      have hcredited : s.keptBut ((policed.markMirror why m.hdr).takeCredit k req m) acceptParts :=
        keptBut_trans hpoliced (keptBut_trans (keptBut_mono (markMirror_kept _ _ _) (by decide))
          (keptBut_mono (takeCredit_kept _ _ _ _) (by decide)))
      refine keptBut_ite (keptBut_answer (keptBut_wr (keptBut_incRc hs _ _ _ _ (by decide)) _ _ _ _ (by decide)) _ _ _) ?_
      split
      · exact keptBut_ite hpoliced hcredited
      · exact hpoliced

/-! ### Sending (R124, R345, R346) -/

/-- The parts of the state that the sending of a Lantern's request can change beside its own. -/
def sendParts : List Part := .pmus :: acceptParts

theorem transmit_kept (s : State) (j : Nat) (q : LReq) : s.keptBut (s.transmit j q) sendParts := by
  unfold State.transmit
  split
  extract_lets h m k why f
  refine keptBut_ite (keptBut_evt (keptBut_trans ?_ (keptBut_mono (takeCredit_kept _ _ _ _) (by decide))) _ _ _ (by decide))
    (keptBut_mono (accept_kept s _ _ _ _ _ _) (by decide))
  exact keptBut_addFlight (keptBut_refl s _) _ (by decide) (by decide)

theorem transmit_setLnt {l : Lantern} (h : l.ctxs = (s.lnt j).ctxs) (q : LReq) :
    s.keptBut ((s.setLnt j l).transmit j q) (.lnts :: sendParts) ∧ (((s.setLnt j l).transmit j q).lnt j).ctxs = (s.lnt j).ctxs := by
  have hsent := transmit_kept (s.setLnt j l) j q
  refine ⟨keptBut_trans (keptBut_lnts (keptBut_refl s _) _ (by decide)) (keptBut_mono hsent (by decide)), ?_⟩
  rw [lnt_of_lnts (hsent .lnts (by decide)), lnt_setLnt_same, h]

/-- A request that finds a tag and its credits is sent, and leaves the queue; the contexts stay as they are. -/
theorem tryIssue_kept (s : State) (j : Nat) (r : LReq) :
    s.keptBut (s.tryIssue j r) (.lnts :: sendParts) ∧ ((s.tryIssue j r).lnt j).ctxs = (s.lnt j).ctxs := by
  unfold State.tryIssue
  extract_lets l p
  split
  · exact ⟨keptBut_refl s _, rfl⟩
  · extract_lets g q
    split
    · exact ⟨keptBut_refl s _, rfl⟩
    · exact transmit_setLnt (by rfl) q

theorem pump_kept (s : State) (j : Nat) : s.keptBut (s.pump j) (.lnts :: sendParts) :=
  keptBut_foldl _ _ (fun u r => (tryIssue_kept u j r).1) (keptBut_refl s _)

theorem ctxs_pump (s : State) (j : Nat) : ((s.pump j).lnt j).ctxs = (s.lnt j).ctxs :=
  foldl_keep (fun u => (u.lnt j).ctxs) _ _ (fun u r => (tryIssue_kept u j r).2) s

theorem pump_of_noQueue (h : (s.lnt j).queue = []) : s.pump j = s := by
  rw [State.pump, h, List.foldl_nil]

theorem ask_kept (s : State) (j : Nat) (rs : List LReq) : s.keptBut (s.ask j rs) (.lnts :: sendParts) :=
  keptBut_trans (keptBut_mono (modLnt_kept s j _) (by decide)) (pump_kept _ j)

theorem ctx_ask (s : State) (j c : Nat) (rs : List LReq) : (s.ask j rs).ctx j c = s.ctx j c :=
  (ctx_of_lnt (ctxs_pump _ j) c).trans (ctx_modLnt rfl c)

end
end Sys2Proof.Machine
end

section
/-! Waits, fences, loads and replies at a Lantern (R126, R386, R391, R403, R407 to R409, R413, R414). -/

set_option Elab.async false

namespace Sys2Proof.Machine

section
variable {s : State} {j : Cluster} {c : CtxIx} {x : Ctx} {y : Wait} {v : W64}

/-! ### FENCE_COMPLETE (R403) -/

theorem exec_fenceComplete (hedge : s.nmcEdge = true) (hx : s.ctx j c = x) {mem jrnl : Bool} (hop : x.op = .fence mem jrnl)
    (hfenced : x.fenced mem jrnl = true) : exec (.fenceComplete j c) s = .next (s.advanceIp j c 1 1) := by
  change execFenceComplete j c s = _
  simp only [execFenceComplete, hedge, hx, hop, onlyIf_pos hfenced, Bool.not_true, Bool.false_eq_true, if_false]

/-! ### The polls of a WAIT (R407) -/

/-- A WAIT with its next poll sent, `next` being the stamp of the one after it. -/
def Wait.polled (y : Wait) (next : Nat) : Wait := { y with next := next, out := true, again := none, reply := none, num := y.num + 1 }

theorem poll_eq {j c : Nat} (hx : s.ctx j c = x) (hop : x.op = .wait y) :
    ∃ r, s.poll j c = (s.setCtx j c { x with op := .wait (y.polled (s.now + s.cyc 128)) }).ask j [r] := by
  subst hx
  simp only [State.poll, hop]
  exact ⟨_, rfl⟩

theorem ctx_poll {j c : Nat} (hx : s.ctx j c = x) (hop : x.op = .wait y) :
    (s.poll j c).ctx j c = { x with op := .wait (y.polled (s.now + s.cyc 128)) } := by
  obtain ⟨r, hpoll⟩ := poll_eq hx hop
  rw [hpoll, ctx_ask, ctx_setCtx_same]

theorem mem_poll {j c : Nat} (hx : s.ctx j c = x) (hop : x.op = .wait y) : (s.poll j c).mem = s.mem := by
  obtain ⟨r, hpoll⟩ := poll_eq hx hop
  rw [hpoll]
  exact ask_kept _ j _ .mem (by decide)

theorem exec_waitPoll (hedge : s.nmcEdge = true) (hx : s.ctx j c = x) (hop : x.op = .wait y) (hmay : s.mayPoll j c = true)
    (hout : y.out = false) (hreply : y.reply = none) (hdue : (∃ u, y.again = some u ∧ u ≤ s.now) ∨ y.next ≤ s.now) :
    exec (.waitPoll j c) s = .next (s.poll j c) := by
  have hnext : (y.again.any (fun u => decide (u ≤ s.now)) || decide (y.next ≤ s.now)) = true := by
    rcases hdue with ⟨u, hagain, hu⟩ | hnext
    · simp [hagain, hu]
    · simp [hnext]
  have hpoll : (s.mayPoll j c && !y.out && y.reply.isNone &&
      (y.again.any (fun u => decide (u ≤ s.now)) || decide (y.next ≤ s.now))) = true := by
    simp only [hmay, hout, hreply, hnext, Bool.not_false, Option.isNone_none, Bool.and_self]
  change execWaitPoll j c s = _
  simp only [execWaitPoll, hedge, hx, hop, onlyIf_pos hpoll, Bool.not_true, Bool.false_eq_true, if_false]

/-! ### The reply to a poll (R408) -/

theorem becomes_endWait {j c : Nat} (hx : s.ctx j c = x) (hloops : x.prog.loops = []) (hpfail : x.pfail = none)
    (hip : x.prog.ip + 1 < x.image.words.length) (w : BitVec 128) (v : W64) :
    s.Becomes (s.endWait j c w v false) j c (({ x with regs := x.regs.setS (iF w 4) v }.past 1).freed (s.now + s.cyc 1)) := by
  subst hx
  exact (becomes_setCtx s j c { s.ctx j c with regs := (s.ctx j c).regs.setS (iF w 4) v }).advanceIp hloops hpfail hip 1

theorem exec_waitPollReply_met (hedge : s.nmcEdge = true) (hx : s.ctx j c = x) (hop : x.op = .wait y) (hst : x.st = .waiting)
    (hreply : y.reply = some (rOK, v)) (hcond : waitCond y.w x.regs v = true) :
    exec (.waitPollReply j c) s = .next (s.endWait j c y.w v false) := by
  change execWaitPollReply j c s = _
  simp only [execWaitPollReply, hedge, hx, hop, hreply, hst, hcond, Bool.not_true, Bool.false_eq_true, if_false]
  rfl

theorem exec_waitPollReply_unmet (hedge : s.nmcEdge = true) (hx : s.ctx j c = x) (hop : x.op = .wait y) (hst : x.st = .waiting)
    (hreply : y.reply = some (rOK, v)) (hcond : waitCond y.w x.regs v = false) (hfinal : y.final = false) :
    exec (.waitPollReply j c) s = .next (s.setCtx j c { x with op := .wait { y with reply := none, last := v } }) := by
  change execWaitPollReply j c s = _
  simp only [execWaitPollReply, hedge, hx, hop, hreply, hst, hcond, hfinal, Bool.not_true, Bool.false_eq_true, if_false]
  rfl

/-! ### The deadline of a WAIT (R409, R417) -/

/-- A deadline that has come waits while the gate stops the context; with a poll outstanding, it has the next reply decide. -/
theorem exec_waitDeadline (hedge : s.nmcEdge = true) (hx : s.ctx j c = x) (hop : x.op = .wait y) (hst : x.st = .waiting)
    (hfinal : y.final = false) {d : Nat} (hdeadline : y.deadline = some d) (hd : d ≤ s.now) (hreply : y.reply = none)
    (hout : s.mayPoll j c = true → y.out = true) : exec (.waitDeadline j c) s = .next
      (if s.mayPoll j c then s.setCtx j c { x with op := .wait { y with final := true } } else s) := by
  have hdue : (x.st == .waiting && !y.final && y.deadline.any fun d => decide (d ≤ s.now)) = true := by
    simp [hst, hfinal, hdeadline, hd]
  change execWaitDeadline j c s = _
  simp only [execWaitDeadline, hedge, hx, hop, hdue, hreply, Bool.not_true, Bool.false_eq_true, if_false, Option.isSome_none, Bool.false_or]
  cases hmay : s.mayPoll j c with
  | false => rfl
  | true => simp [hout hmay]

/-! ### The load of a job's image (R385, R386, R391) -/

/-- The context that runs the image it has loaded from `pa`, from its ENTRY on. -/
def Ctx.loaded (x : Ctx) (got : List (Nat × LineData)) (pa now : Nat) : Ctx :=
  { x with
    st := if x.hold then .held else .running
    hold := false
    op := .none
    ready := now
    prog := { x.prog with imgs := [⟨some pa, loadWords got pa, loadNat got pa 10 2, now⟩], img := some pa, ip := loadNat got pa 10 2 } }

theorem exec_callLoadComplete_job (hedge : s.nmcEdge = true) (hx : s.ctx j c = x) {l : Load} {pa : Nat} (hop : x.op = .load l)
    (hneed : l.need = 0) (hfail : l.fail = none) (himage : l.image = some pa) (hbody : l.body = true) (hcall : l.call = false)
    (hcrc : crc32c (loadBytes l.got pa 0 60 ++ loadBytes l.got pa 64 (16 * loadNat l.got pa 8 2)) =
      BitVec.ofNat 32 (loadNat l.got pa 60 4)) :
    exec (.callLoadComplete j c) s = .next (s.setCtx j c (x.loaded l.got pa s.now)) := by
  change execCallLoadComplete j c s = _
  simp only [execCallLoadComplete, hedge, hx, hop, hneed, hfail, himage, hbody, hcall, hcrc, ne_eq, not_true_eq_false, Bool.not_true,
    Bool.not_false, Bool.false_eq_true, if_false, if_true]
  rfl

/-! ### The reply to a posted request (R411, R413) -/

/-- A local wake does not touch a context that does not wait. -/
theorem ctx_localWake {j c : Nat} (hx : s.ctx j c = x) (hop : x.op = .none) (line : Nat) : (s.localWake j line).ctx j c = x := by
  refine foldl_inv (fun u => u.ctx j c = x) _ _ (fun u d _ hu => ?_) s hx
  dsimp only
  split
  next t hwait =>
    have hd : c ≠ d := by
      rintro rfl
      rw [hu, hop] at hwait
      cases hwait
    split
    · exact (ctx_setCtx_other u j _ hd).trans hu
    · exact hu
  all_goals exact hu

theorem localWake_kept (s : State) (j line : Nat) : s.keptBut (s.localWake j line) [.lnts] := by
  refine keptBut_foldl _ _ (fun u d => ?_) (keptBut_refl s _)
  dsimp only
  split
  · exact keptBut_ite (setCtx_kept u j d _) (keptBut_refl u _)
  all_goals exact keptBut_refl u _

/-- The context whose posted request `p` has been answered. -/
def Ctx.unposted (x : Ctx) (p : Posted) : Ctx := { x with posted := x.posted.erase p }

theorem exec_postedReply_ok (hedge : s.nmcEdge = true) (hx : s.ctx j c = x) {p : Posted} (hanswered : x.answered = some (p, rOK))
    (hop : x.op = .none) (hpfail : x.pfail = none) :
    exec (.postedReply j c) s = .next ((s.setCtx j c (x.unposted p)).localWake j p.line) := by
  have hnoFail : (x.pfail.orElse fun _ => none) = x.pfail := by
    rw [hpfail]
    rfl
  have hset : (s.modCtx j c fun x => { x with posted := x.posted.erase p, pfail := x.pfail.orElse fun _ => none }) =
      s.setCtx j c (x.unposted p) := by
    rw [State.modCtx, hx, hnoFail, Ctx.unposted]
  have hwoken : ((s.setCtx j c (x.unposted p)).localWake j p.line).ctx j c = x.unposted p :=
    ctx_localWake (x := x.unposted p) (ctx_setCtx_same s j c _) hop p.line
  have hnone : (x.unposted p).op = .none := hop
  have hsound : (x.unposted p).pfail = none := hpfail
  change execPostedReply j c s = _
  simp only [execPostedReply, hedge, hx, hanswered, true_or, if_true, hset, hwoken, hnone, hsound, Bool.not_true, Bool.false_eq_true,
    if_false]

/-! ### A reply at a Lantern (R126) -/

/-- The next reply has been taken from those that have come. -/
def State.takeReply (s : State) (j : Nat) (rest : List LReply) : State := s.modLnt j fun l => { l with inbox := rest }

theorem req_takeReply (s : State) (j : Nat) (rest : List LReply) (path tag : Nat) :
    ((s.takeReply j rest).lnt j).req path tag = (s.lnt j).req path tag := by
  rw [State.takeReply, lnt_modLnt_same]
  rfl

theorem queue_takeReply (s : State) (j : Nat) (rest : List LReply) : ((s.takeReply j rest).lnt j).queue = (s.lnt j).queue := by
  rw [State.takeReply, lnt_modLnt_same]

theorem gens_takeReply (s : State) (j : Nat) (rest : List LReply) : ((s.takeReply j rest).lnt j).gens = (s.lnt j).gens := by
  rw [State.takeReply, lnt_modLnt_same]

/-- A dropped reply is counted and recorded. -/
def State.dropReply (s : State) (j : Nat) : State :=
  (s.incRc F.PORT_TMO.LATE_DROP (27 + j)).record { ErrRec.make s.now sevInfo 0x14 j with req := 27 + j }

theorem dropReply_kept (s : State) (j : Nat) : s.keptBut (s.dropReply j) [.regs, .recs, .recTick, .recLast] :=
  keptBut_trans (keptBut_incRc (keptBut_refl s _) _ _ _ _ (by decide)) (record_kept _)

theorem lateDrop_dropReply (s : State) (j : Nat) : (s.dropReply j).rd F.PORT_TMO.LATE_DROP (27 + j) =
    min (2 ^ F.PORT_TMO.LATE_DROP.len - 1) (s.rd F.PORT_TMO.LATE_DROP (27 + j) + 1) := by
  rw [State.dropReply, rd_record (by decide) (by decide), rd_incRc_same (by decide)]

theorem lateReply_unknown {j : Nat} {r : LReply} (h : (s.lnt j).req r.path r.tag = none) : s.lateReply j r = s.dropReply j := by
  have hnone : ((s.dropReply j).lnt j).req r.path r.tag = none := by
    rw [lnt_of_lnts (dropReply_kept s j .lnts (by decide)), h]
  unfold State.dropReply at hnone ⊢
  simp only [State.lateReply, hnone]

theorem exec_lanternReplyArrival_unknown (hedge : s.nmcEdge = true) {r : LReply} {rest : List LReply} (hinbox : (s.lnt j).inbox = r :: rest)
    (hreq : (s.lnt j).req r.path r.tag = none) :
    exec (.lanternReplyArrival j) s = .next ((s.takeReply j rest).dropReply j) := by
  have hnone := (req_takeReply s j rest r.path r.tag).trans hreq
  rw [← lateReply_unknown hnone]
  unfold State.takeReply at hnone ⊢
  change execLanternReplyArrival j s = _
  simp only [execLanternReplyArrival, hedge, hinbox, hnone, Bool.not_true, Bool.false_eq_true, if_false]

/-- The tag of a request is free again, and nothing waits for one. -/
theorem freeTag_of_noQueue {j : Nat} (h : (s.lnt j).queue = []) (q : LReq) : s.freeTag j q =
    s.modLnt j fun l => { l with reqs := l.reqs.filter fun x => !(x.path == q.path && x.tag == q.tag) } := by
  refine pump_of_noQueue ?_
  rw [lnt_modLnt_same]
  exact h

/-- A Lantern that has lost the requests of a tag has none of that tag. -/
theorem req_of_filter {l m : Lantern} {path tag : Nat} {q : LReq} (hq : l.req path tag = some q)
    (hm : m.reqs = l.reqs.filter fun x => !(x.path == q.path && x.tag == q.tag)) : m.req path tag = none := by
  have hnamed : (q.path == path && q.tag == tag) = true := List.find?_some (p := fun q : LReq => q.path == path && q.tag == tag) hq
  simp only [Bool.and_eq_true, beq_iff_eq] at hnamed
  obtain ⟨rfl, rfl⟩ := hnamed
  refine List.find?_eq_none.2 fun x hx => ?_
  rw [hm] at hx
  simpa only [Bool.not_eq_true, Bool.not_eq_true'] using List.of_mem_filter hx

theorem exec_lanternReplyArrival_journal (hedge : s.nmcEdge = true) {r : LReply} {rest : List LReply} {q : LReq}
    (hinbox : (s.lnt j).inbox = r :: rest) (hreq : (s.lnt j).req r.path r.tag = some q) (hkind : q.kind = .journal) (hgen : q.gen = r.gen)
    (hlast : tget 0 (s.lnt j).gens (r.path * 4096 + r.tag) = r.gen) : exec (.lanternReplyArrival j) s =
      .next (((s.takeReply j rest).freeTag j q).modCtx j q.ctx fun k => { k with jrn := k.jrn - 1 }) := by
  have hsome := (req_takeReply s j rest r.path r.tag).trans hreq
  have hlast' : tget 0 ((s.takeReply j rest).lnt j).gens (r.path * 4096 + r.tag) = r.gen := by rw [gens_takeReply, hlast]
  unfold State.takeReply at hsome hlast' ⊢
  change execLanternReplyArrival j s = _
  simp only [execLanternReplyArrival, hedge, hinbox, hsome, hlast', hgen, hkind, ne_eq, not_true_eq_false, or_self, Bool.not_true,
    Bool.false_eq_true, if_false]

theorem lnt_modCtx (s : State) (j c : Nat) (f : Ctx → Ctx) :
    (s.modCtx j c f).lnt j = { s.lnt j with ctxs := lset Ctx.blank (s.lnt j).ctxs c (f (s.ctx j c)) } := lnt_setLnt_same _ _ _

end

/-- Settles O59: each command carries its context on, and what the context becomes. -/
theorem waitsAndReplies : Obligations.WaitsAndReplies := by
  unfold Obligations.WaitsAndReplies
  intro s j c x hx
  refine ⟨fun hedge hloops hpfail hip mem jrnl hop hfenced => ?_, fun y hedge hop => ⟨fun hmay hout hreply hdue => ?_,
    fun v hst hreply => ⟨fun hcond hloops hpfail hip => ?_, fun hcond hfinal => ?_⟩,
    fun d hst hfinal hdeadline hd hreply => ⟨fun hmay => ?_, fun hmay hout => ?_⟩⟩,
    fun l pa hedge hop hneed hfail himage hbody hcall hcrc => ?_, fun p hedge hanswered hop hpfail => ?_,
    fun r rest hedge hinbox => ⟨fun hreq => ?_, fun q hreq hkind hgen hlast hqueue => ?_⟩⟩
  · obtain ⟨hhere, -, hkept⟩ := (becomes_refl hx).advanceIp hloops hpfail hip 1
    exact ⟨_, exec_fenceComplete hedge hx hop hfenced, congrArg Ctx.prog hhere, congrArg Ctx.op hhere, (congrArg Ctx.regs hhere :), hkept⟩
  · exact ⟨_, y.polled (s.now + s.cyc 128), exec_waitPoll hedge hx hop hmay hout hreply hdue, congrArg Ctx.op (ctx_poll hx hop), rfl, rfl,
      rfl, rfl, mem_poll hx hop⟩
  · obtain ⟨hhere, -, hkept⟩ := becomes_endWait hx hloops hpfail hip y.w v
    exact ⟨_, exec_waitPollReply_met hedge hx hop hst hreply hcond, congrArg Ctx.regs hhere, congrArg Ctx.prog hhere, congrArg Ctx.op hhere,
      hkept⟩
  · obtain ⟨hhere, -, hkept⟩ := becomes_setCtx s j c { x with op := .wait { y with reply := none, last := v } }
    exact ⟨_, exec_waitPollReply_unmet hedge hx hop hst hreply hcond hfinal, hhere, hkept⟩
  · rw [exec_waitDeadline hedge hx hop hst hfinal hdeadline hd hreply (by simp [hmay]), if_neg (by simp [hmay])]
  · obtain ⟨hhere, -, hkept⟩ := becomes_setCtx s j c { x with op := .wait { y with final := true } }
    refine ⟨_, ?_, hhere, hkept⟩
    rw [exec_waitDeadline hedge hx hop hst hfinal hdeadline hd hreply fun _ => hout, if_pos hmay]
  · obtain ⟨hhere, -, hkept⟩ := becomes_setCtx s j c (x.loaded l.got pa s.now)
    exact ⟨_, exec_callLoadComplete_job hedge hx hop hneed hfail himage hbody hcall hcrc, congrArg (·.prog.img) hhere,
      congrArg (·.prog.ip) hhere, congrArg Ctx.st hhere, congrArg Ctx.op hhere, hkept⟩
  · have hwoken := ctx_localWake (x := x.unposted p) (ctx_setCtx_same s j c _) hop p.line
    exact ⟨_, exec_postedReply_ok hedge hx hanswered hop hpfail, congrArg Ctx.posted hwoken,
      keptBut_trans (setCtx_kept s j c _) (localWake_kept _ j _)⟩
  · have hkept := dropReply_kept (s.takeReply j rest) j
    refine ⟨_, exec_lanternReplyArrival_unknown hedge hinbox hreq, ?_, lateDrop_dropReply (s.takeReply j rest) j, hkept .mem (by decide)⟩
    rw [lnt_of_lnts (hkept .lnts (by decide)), State.takeReply, lnt_modLnt_same]
  · have hfree := freeTag_of_noQueue (s := s.takeReply j rest) ((queue_takeReply s j rest).trans hqueue) q
    refine ⟨_, exec_lanternReplyArrival_journal hedge hinbox hreq hkind hgen hlast, ?_, ?_, ?_⟩
    · rw [lnt_modCtx, hfree, lnt_modLnt_same, State.takeReply, lnt_modLnt_same]
    · rw [lnt_modCtx, hfree, lnt_modLnt_same]
      exact req_of_filter ((req_takeReply s j rest r.path r.tag).trans hreq) rfl
    · rw [hfree]
      exact keptBut_trans (modLnt_kept s j _) (keptBut_trans (modLnt_kept _ j _) (setCtx_kept _ j _ _))

end Sys2Proof.Machine
end

section
/-! Marigold tests of arrays: what starts with a test, the TEST instruction, the end of a round, and a deadline that passes (R321, R470 to
R472, R660, R667, R670). -/

set_option Elab.async false

namespace Sys2Proof.Machine

section
variable {s t u : State} {j c a : Nat} {x : Ctx} {o : TestOp} {w : BitVec 128} {f : Lantern → Lantern}

/-! ### What the start of tests leaves as it was (R321, R470, R670) -/

/-- `v` is the test `u`, which may have started in the meantime. -/
def ATest.same (u v : ATest) : Prop := v.arr = u.arr ∧ v.why = u.why ∧ v.rounds = u.rounds

/-- From `s` to `t` tests of Lantern `j` may start: its tests are still to be made, its sweep may have fewer arrays to test, and a TEST of
its contexts may have become late. Else the block changes in its Lanterns and in LNT_ARRAY alone. -/
structure State.TestsGoOn (s t : State) (j : Nat) : Prop where
  kept : s.keptBut t [.lnts, .regs]
  regs : ∀ r i a, r ≠ .LNT_ARRAY → t.reg r i a = s.reg r i a
  tests : ∀ u ∈ (s.lnt j).tests, ∃ v ∈ (t.lnt j).tests, u.same v
  sweep : ∀ w, (s.lnt j).sweep = some w → ∃ q, (t.lnt j).sweep = some { w with queue := q }
  op : ∀ c o, (s.ctx j c).op = .test o → ∃ late, (t.ctx j c).op = .test { o with late := late }
  ctxRegs : ∀ c, (t.ctx j c).regs = (s.ctx j c).regs

theorem State.TestsGoOn.rd (h : s.TestsGoOn t j) {g : Fld} (hg : g.reg ≠ .LNT_ARRAY) (i i' : Nat) : t.rd g i i' = s.rd g i i' :=
  rd_of_reg (h.regs g.reg i i' hg)

theorem State.TestsGoOn.bit (h : s.TestsGoOn t j) {g : Fld} (hg : g.reg ≠ .LNT_ARRAY) (i i' : Nat) : t.bit g i i' = s.bit g i i' := by
  rw [State.bit, h.rd hg, State.bit]

theorem testsGoOn_refl (s : State) (j : Nat) : s.TestsGoOn s j where
  kept := keptBut_refl s _
  regs _ _ _ _ := rfl
  tests u hu := ⟨u, hu, rfl, rfl, rfl⟩
  sweep w hw := ⟨w.queue, hw⟩
  op _ o ho := ⟨o.late, ho⟩
  ctxRegs _ := rfl

theorem State.TestsGoOn.trans (h : s.TestsGoOn t j) (g : t.TestsGoOn u j) : s.TestsGoOn u j where
  kept := keptBut_trans h.kept g.kept
  regs r i a hr := (g.regs r i a hr).trans (h.regs r i a hr)
  tests x hx := by
    obtain ⟨y, hy, harr, hwhy, hrounds⟩ := h.tests x hx
    obtain ⟨z, hz, harr', hwhy', hrounds'⟩ := g.tests y hy
    exact ⟨z, hz, harr'.trans harr, hwhy'.trans hwhy, hrounds'.trans hrounds⟩
  sweep w hw := by
    obtain ⟨q, hq⟩ := h.sweep w hw
    obtain ⟨q', hq'⟩ := g.sweep _ hq
    exact ⟨q', hq'⟩
  op c o ho := by
    obtain ⟨late, hlate⟩ := h.op c o ho
    obtain ⟨late', hlate'⟩ := g.op c _ hlate
    exact ⟨late', hlate'⟩
  ctxRegs c := (g.ctxRegs c).trans (h.ctxRegs c)

theorem testsGoOn_foldl {α : Type} {g : State → α → State} (hg : ∀ (u : State) x, u.TestsGoOn (g u x) j) (l : List α) (s : State) :
    s.TestsGoOn (l.foldl g s) j :=
  foldl_inv (fun u => s.TestsGoOn u j) l g (fun u x _ hu => hu.trans (hg u x)) s (testsGoOn_refl s j)

/-- LNT_ARRAY is written. -/
theorem testsGoOn_wr (s : State) (j : Nat) {g : Fld} (hg : g.reg = .LNT_ARRAY) (v i a : Nat) : s.TestsGoOn (s.wr g v i a) j where
  kept := keptBut_wr (keptBut_refl s _) g v i a (by decide)
  regs r i' a' hr := reg_wr_other (fun h => hr (h.trans hg)) v i' a'
  tests u hu := ⟨u, hu, rfl, rfl, rfl⟩
  sweep w hw := ⟨w.queue, hw⟩
  op _ o ho := ⟨o.late, ho⟩
  ctxRegs _ := rfl

/-- The Lantern changes in what it keeps beside its contexts. -/
theorem testsGoOn_modLnt (hctxs : (f (s.lnt j)).ctxs = (s.lnt j).ctxs)
    (htests : ∀ u ∈ (s.lnt j).tests, ∃ v ∈ (f (s.lnt j)).tests, u.same v)
    (hsweep : ∀ w, (s.lnt j).sweep = some w → ∃ q, (f (s.lnt j)).sweep = some { w with queue := q }) : s.TestsGoOn (s.modLnt j f) j where
  kept := keptBut_mono (modLnt_kept s j f) (by decide)
  regs _ _ _ _ := rfl
  tests := by rwa [lnt_modLnt_same]
  sweep := by rwa [lnt_modLnt_same]
  op c o ho := ⟨o.late, (congrArg Ctx.op (ctx_modLnt hctxs c)).trans ho⟩
  ctxRegs c := congrArg Ctx.regs (ctx_modLnt hctxs c)

/-- A context changes in no more than whether its TEST is late. -/
theorem testsGoOn_setCtx {y : Ctx} (hregs : y.regs = (s.ctx j c).regs)
    (hop : ∀ o, (s.ctx j c).op = .test o → ∃ late, y.op = .test { o with late := late }) : s.TestsGoOn (s.setCtx j c y) j where
  kept := keptBut_mono (setCtx_kept s j c y) (by decide)
  regs _ _ _ _ := rfl
  tests u hu := ⟨u, by rwa [State.setCtx, lnt_setLnt_same], rfl, rfl, rfl⟩
  sweep w hw := ⟨w.queue, by rwa [State.setCtx, lnt_setLnt_same]⟩
  op d o ho := by
    by_cases hd : d = c
    · subst hd
      rw [ctx_setCtx_same]
      exact hop o ho
    · rw [ctx_setCtx_other _ _ _ hd]
      exact ⟨o.late, ho⟩
  ctxRegs d := by
    by_cases hd : d = c
    · subst hd
      rw [ctx_setCtx_same, hregs]
    · rw [ctx_setCtx_other _ _ _ hd]

/-! ### A test starts (R321, R471, R472) -/

/-- The test as its first round starts, of an array that had role `r`, with the stand-in `stand`. -/
def ATest.begun (u : ATest) (s : State) (r : Nat) (stand : Option Nat) : ATest :=
  ({ u with running := true, was := r, stand := stand, deadline := none } : ATest).round s

/-- The array of test `t` leaves the pool, and its first round starts. -/
def State.beginTest (s : State) (j : Nat) (t : ATest) (r : Nat) (stand : Option Nat) : State :=
  (s.setRole j t.arr 3).modLnt j fun l => { l with tests := l.tests.map fun u => if u == t then u.begun s r stand else u }

theorem testsGoOn_beginTest (s : State) (j : Nat) (t : ATest) (r : Nat) (stand : Option Nat) : s.TestsGoOn (s.beginTest j t r stand) j := by
  refine (testsGoOn_wr s j rfl 3 j t.arr).trans (testsGoOn_modLnt rfl (fun u hu => ⟨_, List.mem_map_of_mem hu, ?_⟩) fun w hw => ⟨w.queue, hw⟩)
  split <;> exact ⟨rfl, rfl, rfl⟩

theorem testsGoOn_standIn (s : State) (j a : Nat) : s.TestsGoOn (s.standIn j a).1 j := by
  unfold State.standIn
  split
  · exact testsGoOn_refl s j
  · exact (testsGoOn_wr s j rfl 2 j _).trans (testsGoOn_wr _ j rfl a j _)

theorem testsGoOn_startTest (s : State) (j : Nat) (t : ATest) : s.TestsGoOn (s.startTest j t) j := by
  unfold State.startTest
  split
  · exact testsGoOn_refl s j
  extract_lets r go
  have hgo (u : State) (stand : Option Nat) : u.TestsGoOn (go u stand) j := testsGoOn_beginTest u j t r stand
  split
  · exact hgo s none
  split
  · split
    · refine State.TestsGoOn.trans ?_ (hgo _ none)
      split
      · -- a TEST whose array waits no longer becomes late
        refine testsGoOn_setCtx ?_ fun o ho => ?_
        · dsimp only
          split <;> rfl
        · dsimp only
          rw [ho]
          exact ⟨true, rfl⟩
      · exact testsGoOn_refl s j
    · exact (testsGoOn_standIn s j t.arr).trans (hgo _ _)
    · exact testsGoOn_refl s j
  · exact testsGoOn_refl s j

theorem testsGoOn_tryTests (s : State) (j : Nat) : s.TestsGoOn (s.tryTests j) j :=
  testsGoOn_foldl (fun u t => testsGoOn_startTest u j t) _ s

theorem testsGoOn_choose (s : State) (j a : Nat) : s.TestsGoOn (s.choose j a) j := by
  unfold State.choose
  extract_lets l
  split
  · exact testsGoOn_modLnt rfl (fun u hu => ⟨u, hu, rfl, rfl, rfl⟩) fun w hw => ⟨w.queue, hw⟩
  · exact testsGoOn_refl s j

/-- A test joins those of the Lantern. -/
def State.joinTest (s : State) (j : Nat) (t : ATest) : State := (s.choose j t.arr).modLnt j fun l => { l with tests := l.tests ++ [t] }

theorem testsGoOn_joinTest (s : State) (j : Nat) (t : ATest) : s.TestsGoOn (s.joinTest j t) j :=
  (testsGoOn_choose s j t.arr).trans
    (testsGoOn_modLnt rfl (fun u hu => ⟨u, List.mem_append_left _ hu, rfl, rfl, rfl⟩) fun w hw => ⟨w.queue, hw⟩)

theorem testsGoOn_addTest (s : State) (j : Nat) (t : ATest) : s.TestsGoOn (s.addTest j t) j :=
  (testsGoOn_joinTest s j t).trans (testsGoOn_tryTests _ j)

theorem mem_addTest (s : State) (j : Nat) (t : ATest) : ∃ v ∈ ((s.addTest j t).lnt j).tests, t.same v := by
  refine (testsGoOn_tryTests (s.joinTest j t) j).tests t ?_
  rw [State.joinTest, lnt_modLnt_same]
  exact List.mem_append_right _ (List.mem_singleton_self t)

/-! ### TEST (R470 to R473) -/

/-- The test of array `a` that a TEST with the word `w` asks for. -/
def TestOp.asks (o : TestOp) (s : State) (j c a : Nat) (w : BitVec 128) : ATest :=
  ⟨a, .instr c, bitsOf w 55 48, none, 0, s.waitUntil j o.dl, false, 0, false, 0, 0⟩

theorem testStep_unfenced (hfenced : s.bit F.LNT_CTL.FENCED j = false) (hx : s.ctx j c = x) (hop : x.op = .test o)
    (hword : x.word x.prog.ip = some w) {rest : List Nat} (harrays : o.arrays = a :: rest) (hrole : s.role j a ≠ 4) :
    s.testStep j c = (s.setCtx j c x).addTest j (o.asks (s.setCtx j c x) j c a w) := by
  subst hx
  have hleft : (o.arrays.dropWhile fun a => s.role j a == 4) = a :: rest := by simp [harrays, hrole]
  have hsame : ({ s.ctx j c with op := .test { o with arrays := a :: rest } } : Ctx) = s.ctx j c := by rw [← harrays, ← hop]
  simp only [State.testStep, hfenced, hop, hword, hleft, Bool.false_eq_true, if_false]
  rw [hsame]
  rfl

/-- The context that has issued a TEST of the one array `a`. -/
def Ctx.testing (x : Ctx) (now a dl : Nat) : Ctx := { x.issued now with op := .test ⟨[a], 0, dl, false, true⟩ }

end

section
variable {s : State} {j : Cluster} {c : CtxIx} {x : Ctx} {w : BitVec 128} {a : Nat}

/-- A TEST of one array that is not FENCED, on an unfenced Lantern, adds the test of the array it names. -/
theorem exec_test (h : s.Takes j c x w) (hgood : wordBad w = false) (hop : iOp w = 0x38) (harr : bitsOf w 45 40 = a) (ha : a < 52)
    (hrole : s.role j a ≠ 4) (hfenced : s.bit F.LNT_CTL.FENCED j = false) :
    ∃ (v : State) (u : ATest), (s.markIssue j c).Becomes v j c (x.testing (s.nowAt j) a (s.now + (x.regs.s.getD (iF w 2) 0).toNat)) ∧
      (u.arr = a ∧ u.why = .instr c ∧ u.rounds = bitsOf w 55 48) ∧ exec (.test j c) s = .next (v.addTest j u) := by
  have hmarked := ctx_markIssue_same h.ctx
  have hnow : (s.markIssue j c).now = s.now := now_of_kept (markIssue_kept s j c) (by decide)
  have hread {g : Fld} (hg : g.reg ≠ .PMU_CTX) (i i' : Nat) : (s.markIssue j c).rd g i i' = s.rd g i i' :=
    rd_of_reg (markIssue_onlyRegs s j c g.reg i i' (by simp [hg]))
  have hrole' : (s.markIssue j c).role j a ≠ 4 := by rwa [State.role, hread (by decide)]
  have hasked : (if a = 63 then List.range 52 else [a]).filter (fun b => (s.markIssue j c).role j b != 4) = [a] := by
    rw [if_neg (by omega)]
    simp [hrole']
  obtain ⟨v, hv, hexec⟩ : ∃ v, (s.markIssue j c).Becomes v j c (x.testing (s.nowAt j) a (s.now + (x.regs.s.getD (iF w 2) 0).toNat)) ∧
      exec (.test j c) s = .next (v.testStep j c) := by
    refine ⟨_, becomes_setCtx _ j c _, ?_⟩
    change execTest j c s = _
    rw [execTest, h.issue_single hgood hop rfl (by decide)]
    simp only [harr, hasked, hmarked, hnow, State.modCtx]
    rfl
  have hregs := regs_of_kept hv.kept (by decide)
  have hfenced' : v.bit F.LNT_CTL.FENCED j = false := by rw [bit_of_regs hregs, State.bit, hread (by decide), ← State.bit, hfenced]
  rw [hexec, testStep_unfenced hfenced' hv.here rfl h.word rfl (by rwa [State.role, rd_of_regs hregs])]
  exact ⟨_, _, hv.setCtx _, ⟨rfl, rfl, rfl⟩, rfl⟩

/-! ### MARIGOLD_ROUND_END (R472, R660, R667, R668) -/

/-- A mismatch on the array of test `u` is counted and recorded. -/
def State.mismatched (s : State) (j a : Nat) (u : ATest) : State :=
  (s.incRc F.RAS_SECNT2.MG_MISMATCH j).silentRec 0x43 sevRecoverable j a (u.stand.getD 0xFF) 0 0 0 0 true false u.why.ctx (some (4, a))

theorem mismatched_kept (s : State) (j a : Nat) (u : ATest) : s.keptBut (s.mismatched j a u) [.regs, .recs, .recTick, .recLast] :=
  keptBut_trans (keptBut_incRc (keptBut_refl s _) _ _ _ _ (by decide)) (silentRec_kept _ _ _ _ _ _ _ _ _ _ _ _ _ _ _)

theorem rd_silentRec {g : Fld} (h1 : g.reg ≠ .RAS_RECHEAD) (h2 : g.reg ≠ .RAS_RECLOST)
    (cls sev j arr stand sub elem chunk result : Nat) (detecting journaled : Bool) (c : Option Nat) (unit : Option (Nat × Nat)) (follows : Bool)
    (i i' : Nat) :
    (s.silentRec cls sev j arr stand sub elem chunk result detecting journaled c unit follows).rd g i i' = s.rd g i i' := by
  unfold State.silentRec
  exact rd_record h1 h2 i i'

theorem rd_mismatched_other {g : Fld} (h0 : g.reg ≠ .RAS_SECNT2) (h1 : g.reg ≠ .RAS_RECHEAD) (h2 : g.reg ≠ .RAS_RECLOST) (s : State)
    (j a : Nat) (u : ATest) (i i' : Nat) : (s.mismatched j a u).rd g i i' = s.rd g i i' :=
  (rd_silentRec h1 h2 _ _ _ _ _ _ _ _ _ _ _ _ _ _ i i').trans (rd_of_reg (reg_incRc_other h0 _ i i'))

theorem mismatches_mismatched (s : State) (j a : Nat) (u : ATest) : (s.mismatched j a u).rd F.RAS_SECNT2.MG_MISMATCH j =
    min (2 ^ F.RAS_SECNT2.MG_MISMATCH.len - 1) (s.rd F.RAS_SECNT2.MG_MISMATCH j + 1) :=
  (rd_silentRec (by decide) (by decide) _ _ _ _ _ _ _ _ _ _ _ _ _ _ j 0).trans (rd_incRc_same (by decide) _ _ _)

/-- Test `u` has a round less to run, and its next round starts at `now`. -/
def ATest.nextRound (u : ATest) (bad : Bool) (s : State) : ATest := ({ u with rounds := u.rounds - 1, bad := u.bad || bad } : ATest).round s

/-- Test `u` goes on to its next round. -/
def State.roundOver (s : State) (j : Nat) (u : ATest) (bad : Bool) : State :=
  s.modLnt j fun l => { l with tests := l.tests.map fun y => if y == u then u.nextRound bad s else y }

theorem nextRound_eq {u : ATest} (h : u.out = 0) (bad : Bool) (s : State) :
    u.nextRound bad s = { u with rounds := u.rounds - 1, at_ := s.now + s.cyc 1024, bad := u.bad || bad, refs := 16 } := by
  rw [ATest.nextRound, ATest.round, h]

theorem nextRound_mismatched (u : ATest) (bad : Bool) (s : State) (j a : Nat) :
    u.nextRound bad (s.mismatched j a u) = u.nextRound bad s := by
  have hnow : (s.mismatched j a u).now = s.now := now_of_kept (mismatched_kept s j a u) (by decide)
  have hhalf : (s.mismatched j a u).rd F.CLOCK_STATUS.NMC_HALF = s.rd F.CLOCK_STATUS.NMC_HALF :=
    rd_mismatched_other (by decide) (by decide) (by decide) s j a u 0 0
  rw [ATest.nextRound, ATest.round, State.cyc, State.bit, hnow, hhalf]
  rfl

theorem tests_roundOver (s : State) (j : Nat) (u : ATest) (bad : Bool) : ((s.roundOver j u bad).lnt j).tests =
    (s.lnt j).tests.map fun y => if y == u then u.nextRound bad s else y := by
  rw [State.roundOver, lnt_modLnt_same]

theorem rd_roundOver (s : State) (j : Nat) (u : ATest) (bad : Bool) (g : Fld) (i i' : Nat) : (s.roundOver j u bad).rd g i i' = s.rd g i i' := rfl

theorem role_roundOver (s : State) (j a b : Nat) (u : ATest) (mismatch bad : Bool) :
    ((onlyIf mismatch (s.mismatched j a u) s).roundOver j u bad).role j b = s.role j b := by
  rw [State.role, rd_roundOver]
  cases mismatch with
  | false => rfl
  | true => exact rd_mismatched_other (g := F.LNT_ARRAY.ROLE) (by decide) (by decide) (by decide) s j a u j b

/-- A round that is over and not the last, with nothing found, or with a mismatch of a repeat test. -/
theorem exec_marigoldRoundEnd {a : ArrIx} {u : ATest} (hedge : s.nmcEdge = true)
    (hfind : (s.lnt j).tests.find? (fun t => t.arr == a.val && t.running) = some u) (hover : u.at_ ≤ s.now) (hrefs : u.refs = 0)
    (hout : u.out = 0) (hfenced : s.bit F.LNT_CTL.FENCED j = false) (hmore : 1 < u.rounds) (hrole : s.role j a ≠ 4) {mismatch : Bool}
    (hwhy : mismatch = true → u.why = .repeat_) :
    exec (.marigoldRoundEnd j a mismatch false) s = .next ((onlyIf mismatch (s.mismatched j a u) s).roundOver j u mismatch) := by
  have hdue : (decide (u.at_ ≤ s.now) && u.refs == 0 && u.out == 0 && !s.bit F.LNT_CTL.FENCED j) = true := by simp [hover, hrefs, hout, hfenced]
  change execMarigoldRoundEnd j a mismatch false s = _
  unfold execMarigoldRoundEnd
  rw [if_neg (by simp [hedge])]
  split
  next hnone => exact absurd (hnone.symm.trans hfind) (by simp)
  next v hsome =>
  obtain rfl : u = v := Option.some.inj (hfind.symm.trans hsome)
  rw [onlyIf_pos hdue]
  extract_lets s1 s2 s3 bad s4 s5 u' s6
  have hbad : bad = mismatch := Bool.or_false mismatch
  have hsame : s1 = s := by
    cases mismatch with
    | false =>
      cases hctx : u.why.ctx with
      | none => simp only [s1, hctx]
      | some c => simp only [s1, hctx, onlyIf_neg]
    | true => simp only [s1, hwhy rfl, TestWhy.ctx]
  have hfound : s5 = onlyIf mismatch (s.mismatched j a u) s := by
    have hjudged : s5 = s4 := if_pos (by cases mismatch <;> simp [hwhy])
    rw [hjudged, ← hsame]
    rfl
  have hnext : s6 = (onlyIf mismatch (s.mismatched j a u) s).roundOver j u mismatch := by
    rw [← hfound, ← hbad]
    rfl
  have hstays : s6.role j a ≠ 4 := by rwa [hnext, role_roundOver]
  rw [if_neg hstays, if_neg (by omega), hnext]

/-! ### TEST_SPARE_DEADLINE (R471, R474, R670) -/

/-- Test `u` waits for a spare no longer. -/
def State.waitOver (s : State) (j : Nat) (u : ATest) : State :=
  s.modLnt j fun l => { l with tests := l.tests.map fun y => if y == u then { u with deadline := none } else y }

theorem tests_waitOver {u : ATest} (htests : (s.lnt j).tests = [u]) : ((s.waitOver j u).lnt j).tests = [{ u with deadline := none }] := by
  rw [State.waitOver, lnt_modLnt_same]
  simp [htests]

theorem busyArr_waitOver (s : State) (j : Nat) (u : ATest) (a : Nat) : (s.waitOver j u).busyArr j a = s.busyArr j a := by
  simp only [State.busyArr, State.replaying, State.waitOver, lnt_modLnt_same, Lantern.arr]

/-- The one test of a Lantern is tried alone. -/
theorem tryTests_singleton {u : ATest} (htests : (s.lnt j).tests = [u]) (hwhy : u.why.ctx = none) : s.tryTests j = s.startTest j u := by
  simp [State.tryTests, htests, hwhy]

/-- The only test of a Lantern starts without a stand-in: it does not wait, and its array is ACTIVE and holds nothing. -/
theorem startTest_unaided {u : ATest} (htests : (s.lnt j).tests = [u]) (hrun : u.running = false) (hdeadline : u.deadline = none)
    (hwhy : u.why.ctx = none) (hfree : s.busyArr j u.arr = false) (hrole : s.role j u.arr = 0) :
    s.startTest j u = s.beginTest j u 0 none := by
  unfold State.startTest
  rw [if_neg (by simp [htests, hrun, hfree])]
  extract_lets r go
  have hr : r = 0 := hrole
  rw [if_neg (by omega), if_pos (.inl hr), hdeadline]
  dsimp only
  rw [hwhy]
  dsimp only [go]
  rw [hr]
  rfl

/-- The only test of a Lantern has waited in vain: its array leaves the pool without a stand-in. -/
def State.leftUnaided (s : State) (j : Nat) (u : ATest) : State := (s.waitOver j u).beginTest j { u with deadline := none } 0 none

theorem exec_testSpareDeadline {a : ArrIx} {u : ATest} {n : Nat} (hedge : s.nmcEdge = true) (hfrees : s.spareFrees j = false)
    (htests : (s.lnt j).tests = [u]) (harr : u.arr = a.val) (hrun : u.running = false) (hdeadline : u.deadline = some n) (hn : n ≤ s.now)
    (hspares : s.spares j = []) (hwhy : u.why.ctx = none) (hfree : s.busyArr j a = false) (hrole : s.role j a = 0) :
    exec (.testSpareDeadline j a) s = .next (s.leftUnaided j u) := by
  have hfind : (s.lnt j).tests.find? (fun t => t.arr == a.val && !t.running && (t.deadline.any fun d => decide (d ≤ s.now))) = some u := by
    simp [htests, harr, hrun, hdeadline, hn]
  have hexec : exec (.testSpareDeadline j a) s = .next ((s.waitOver j u).tryTests j) := by
    change execTestSpareDeadline j a s = _
    simp only [execTestSpareDeadline, hedge, hfind, hfrees, hspares, Bool.not_true, Bool.false_eq_true, if_false, List.isEmpty_nil, Bool.or_self]
    rfl
  have halone := tests_waitOver htests
  rw [hexec, tryTests_singleton halone hwhy, startTest_unaided halone hrun rfl hwhy]
  · rfl
  · rw [busyArr_waitOver, harr, hfree]
  · rw [harr]
    exact hrole

theorem role_leftUnaided (s : State) (j : Nat) (u : ATest) : (s.leftUnaided j u).role j u.arr = 3 := rd_wr_same (by decide) 3

theorem tests_leftUnaided {u : ATest} (htests : (s.lnt j).tests = [u]) : ((s.leftUnaided j u).lnt j).tests =
    [({ u with deadline := none } : ATest).begun (s.waitOver j u) 0 none] := by
  rw [State.leftUnaided, State.beginTest, lnt_modLnt_same]
  have hset : (((s.waitOver j u).setRole j u.arr 3).lnt j).tests = [{ u with deadline := none }] := tests_waitOver htests
  simp [hset]

theorem leftUnaided_kept (s : State) (j : Nat) (u : ATest) : s.keptBut (s.leftUnaided j u) [.lnts, .regs] :=
  keptBut_trans (keptBut_mono (modLnt_kept s j _) (by decide)) (testsGoOn_beginTest _ j _ 0 none).kept

theorem leftUnaided_onlyRegs (s : State) (j : Cluster) (a : ArrIx) {u : ATest} (harr : u.arr = a.val) :
    s.onlyRegs (s.leftUnaided j u) [(.LNT_ARRAY, j, a)] := by
  refine onlyRegs_wr (onlyRegs_refl s _) F.LNT_ARRAY.ROLE 3 j u.arr ?_
  rw [harr, Nat.mod_eq_of_lt (j.isLt.trans (by decide)), Nat.mod_eq_of_lt (a.isLt.trans (by decide))]
  exact List.mem_singleton_self _

end
end Sys2Proof.Machine
end

section
/-! Sweeps: a step boundary, a sweep commanded, and the end of one (R671, R673, R674, R681). -/

set_option Elab.async false

namespace Sys2Proof.Machine

section
variable {s t : State} {j : Nat} {L : List Part}

/-! ### MG_STEP (R671, R674) -/

theorem exec_mgStep_boot (hfull : s.auditFull = false) (hboot : s.inBoot = true) :
    exec .mgStep s = .next (onlyIf (s.bit F.RAS_MGCTL.BUSY) { s with fw := { s.fw with stepWaits := true } } s) := by
  change execMgStep s = _
  simp only [execMgStep, orWait_open hfull, hboot, Bool.not_true, Bool.false_eq_true, if_false]

theorem exec_mgStep (h : s.pfHeld = false) : exec .mgStep s = .next s.stepMark := by
  obtain ⟨hfull, hboot⟩ := pfHeld_false h
  change execMgStep s = _
  simp only [execMgStep, orWait_open hfull, hboot, Bool.not_false, if_true]

theorem keptBut_fw (h : s.keptBut t L) (x : Fw) (m0 : Part.fw ∈ L) : s.keptBut { t with fw := x } L := by
  intro p hp
  have h := h p hp
  cases p
  case fw => exact absurd m0 hp
  all_goals exact h

/-- A step boundary while a sweep waits is an overrun. -/
def State.overrun (s : State) : State :=
  (s.incRc F.RAS_MGSTAT.OVERRUNS).silentRec 0x47 sevInfo 0xFF 0xFF 0xFF 0 0 0 0 false false

theorem stepMark_pending (h : s.bit F.RAS_MGCTL.PENDING = true) : s.stepMark = s.overrun := if_pos h

theorem overrun_kept (s : State) : s.keptBut s.overrun [.regs, .recs, .recTick, .recLast] :=
  keptBut_trans (keptBut_incRc (keptBut_refl s _) _ _ _ _ (by decide)) (silentRec_kept _ _ _ _ _ _ _ _ _ _ _ _ _ _ _)

theorem overruns_overrun (s : State) :
    s.overrun.rd F.RAS_MGSTAT.OVERRUNS = min (2 ^ F.RAS_MGSTAT.OVERRUNS.len - 1) (s.rd F.RAS_MGSTAT.OVERRUNS + 1) :=
  (rd_silentRec (by decide) (by decide) _ _ _ _ _ _ _ _ _ _ _ _ _ _ 0 0).trans (rd_incRc_same (by decide) _ _ _)

/-- The stamps of the last two step boundaries move on, with their audit entry. -/
def State.stepStamped (s : State) : State :=
  ((s.wr F.RAS_MGSTEP_PREV.STAMP (s.rd F.RAS_MGSTEP.STAMP)).wr F.RAS_MGSTEP.STAMP s.now).auditReg 0x2C05018 (s.rd F.RAS_MGSTEP.STAMP) s.now

/-- A step boundary that leaves the sweep it asks for, if any, to wait. -/
def State.stepTaken (s : State) : State := onlyIf (s.bit F.RAS_SECFG.STEP_EN) (s.stepStamped.wr F.RAS_MGCTL.PENDING 1) s.stepStamped

theorem rd_stepStamped {g : Fld} (h0 : g.reg ≠ .RAS_MGSTEP) (h1 : g.reg ≠ .RAS_MGSTEP_PREV) (s : State) (i i' : Nat) :
    s.stepStamped.rd g i i' = s.rd g i i' := by
  rw [State.stepStamped, rd_of_regs (auditReg_regs _ _ _ _), rd_wr_other h0, rd_wr_other h1]

theorem bit_stepStamped {g : Fld} (h0 : g.reg ≠ .RAS_MGSTEP) (h1 : g.reg ≠ .RAS_MGSTEP_PREV) (s : State) (i i' : Nat) :
    s.stepStamped.bit g i i' = s.bit g i i' := congrArg (· == 1) (rd_stepStamped h0 h1 s i i')

theorem stepMark_waits (hpend : s.bit F.RAS_MGCTL.PENDING = false) (hwait : s.bit F.RAS_SECFG.STEP_EN = false ∨ s.bit F.RAS_MGCTL.BUSY = true) :
    s.stepMark = s.stepTaken := by
  have hen := bit_stepStamped (g := F.RAS_SECFG.STEP_EN) (by decide) (by decide) s 0 0
  have hbusy := bit_stepStamped (g := F.RAS_MGCTL.BUSY) (by decide) (by decide) s 0 0
  unfold State.stepMark
  rw [if_neg (by simp [hpend])]
  change (if !s.stepStamped.bit F.RAS_SECFG.STEP_EN then s.stepStamped else if s.stepStamped.bit F.RAS_MGCTL.BUSY then
    s.stepStamped.wr F.RAS_MGCTL.PENDING 1 else s.stepStamped.stepSweep) = _
  rw [hen, hbusy, State.stepTaken]
  cases hstep : s.bit F.RAS_SECFG.STEP_EN with
  | false => rfl
  | true => simp [hwait.resolve_left (by simp [hstep]), onlyIf]

theorem reads_stepTaken (s : State) : s.stepTaken.rd F.RAS_MGSTEP.STAMP = s.now ∧
    s.stepTaken.rd F.RAS_MGSTEP_PREV.STAMP = s.rd F.RAS_MGSTEP.STAMP := by
  have hkept {g : Fld} (hg : g.reg ≠ .RAS_MGCTL) : s.stepTaken.rd g = s.stepStamped.rd g := by
    unfold State.stepTaken onlyIf
    split
    · exact rd_wr_other hg 1 0 0
    · rfl
  have hnow : s.now < 2 ^ F.RAS_MGSTEP.STAMP.len := s.clk.now.isLt
  have hlast : s.rd F.RAS_MGSTEP.STAMP < 2 ^ F.RAS_MGSTEP_PREV.STAMP.len := rd_lt s F.RAS_MGSTEP.STAMP 0 0
  constructor
  · rw [hkept (by decide), State.stepStamped, rd_of_regs (auditReg_regs _ _ _ _), rd_wr_same (by decide), Nat.mod_eq_of_lt hnow]
  · rw [hkept (by decide), State.stepStamped, rd_of_regs (auditReg_regs _ _ _ _), rd_wr_other (by decide), rd_wr_same (by decide),
      Nat.mod_eq_of_lt hlast]

theorem pending_stepTaken (h : s.bit F.RAS_MGCTL.PENDING = false) : s.stepTaken.bit F.RAS_MGCTL.PENDING = s.bit F.RAS_SECFG.STEP_EN := by
  unfold State.stepTaken
  cases s.bit F.RAS_SECFG.STEP_EN with
  | false => exact (bit_stepStamped (by decide) (by decide) s 0 0).trans h
  | true => exact bit_wr_same (by decide) rfl 1

theorem stepTaken_regsOnly (s : State) :
    s.regsOnly s.stepTaken [(.RAS_MGSTEP, 0, 0), (.RAS_MGSTEP_PREV, 0, 0), (.RAS_MGCTL, 0, 0)] := by
  have hkept : s.keptBut s.stepStamped [.regs, .auditQ] := keptBut_auditReg
    (keptBut_wr (keptBut_wr (keptBut_refl s _) _ _ _ _ (by decide)) _ _ _ _ (by decide)) _ _ _ (by decide)
  have honly : s.onlyRegs s.stepStamped [(.RAS_MGSTEP, 0, 0), (.RAS_MGSTEP_PREV, 0, 0), (.RAS_MGCTL, 0, 0)] := onlyRegs_regs
    (onlyRegs_wr (onlyRegs_wr (onlyRegs_refl s _) F.RAS_MGSTEP_PREV.STAMP _ 0 0 (by decide)) F.RAS_MGSTEP.STAMP _ 0 0 (by decide))
    (auditReg_regs _ _ _ _)
  exact ⟨keptBut_onlyIf _ (keptBut_wr hkept _ _ _ _ (by decide)) hkept,
    onlyRegs_onlyIf _ (onlyRegs_wr honly F.RAS_MGCTL.PENDING _ 0 0 (by decide)) honly⟩

/-! ### MG_SWEEP (R671, R681) -/

/-- RAS_MGCTL with what a write of `v` leaves in REJ, LNT and ROUNDS. -/
def State.mgSet (s : State) (v : W32) : State :=
  let t := (onlyIf (bitsOf v 29 29 == 1) (s.ack F.RAS_MGCTL.REJ) s).wr F.RAS_MGCTL.LNT (bitsOf v 15 12)
  onlyIf (bitsOf v 7 0 != 0) (t.wr F.RAS_MGCTL.ROUNDS (bitsOf v 7 0)) t

/-- The sweep of the Lanterns that LNT names, with the rounds that ROUNDS names. -/
def State.namedSweep (s : State) : State :=
  let n := s.rd F.RAS_MGCTL.LNT
  s.startSweep (if n = 15 then allLanterns else if n < 12 then [n] else []) (s.rd F.RAS_MGCTL.ROUNDS) none

/-- What SWEEP = 1 does. -/
def State.mgSwept (s : State) : State := if s.bit F.RAS_MGCTL.BUSY then s.raise F.RAS_MGCTL.REJ else s.namedSweep

theorem exec_mgSweep {v : W32} (h : s.pfHeld = false) (hsweep : v.getLsbD 27 = true) : exec (.mgSweep v) s =
    .next ((s.mgSet v).mgSwept.auditReg 0x2C05004 (s.reg .RAS_MGCTL).toNat ((s.mgSet v).mgSwept.reg .RAS_MGCTL).toNat) := by
  obtain ⟨hfull, hboot⟩ := pfHeld_false h
  have hbit : bitsOf v 27 27 ≠ 0 := by
    rw [bitsOf_single, hsweep]
    decide
  change execMgSweep v s = _
  simp only [execMgSweep, orWait_open hfull, hboot, if_neg hbit, Bool.false_eq_true, if_false]
  rfl

theorem mgSet_onlyRegs (s : State) (v : W32) : s.onlyRegs (s.mgSet v) [(.RAS_MGCTL, 0, 0)] := by
  have hack := onlyRegs_onlyIf (bitsOf v 29 29 == 1) (onlyRegs_onlyIf (s.eventsOf F.RAS_MGCTL.REJ == 0)
    (onlyRegs_wr (onlyRegs_refl s [(.RAS_MGCTL, 0, 0)]) F.RAS_MGCTL.REJ 0 0 0 (by decide)) (onlyRegs_refl s _)) (onlyRegs_refl s _)
  have hlnt := onlyRegs_wr hack F.RAS_MGCTL.LNT (bitsOf v 15 12) 0 0 (by decide)
  exact onlyRegs_onlyIf _ (onlyRegs_wr hlnt F.RAS_MGCTL.ROUNDS _ 0 0 (by decide)) hlnt

theorem mgSet_kept (s : State) (v : W32) : s.keptBut (s.mgSet v) [.regs] := by
  have hack := keptBut_onlyIf (bitsOf v 29 29 == 1) (keptBut_onlyIf_wr (keptBut_refl s [.regs]) (s.eventsOf F.RAS_MGCTL.REJ == 0)
    F.RAS_MGCTL.REJ 0 0 0 (by decide)) (keptBut_refl s _)
  exact keptBut_onlyIf_wr (keptBut_wr hack F.RAS_MGCTL.LNT (bitsOf v 15 12) 0 0 (by decide)) _ _ _ _ _ (by decide)

theorem busy_mgSet (s : State) (v : W32) : (s.mgSet v).bit F.RAS_MGCTL.BUSY = s.bit F.RAS_MGCTL.BUSY := by
  have hack : (onlyIf (bitsOf v 29 29 == 1) (s.ack F.RAS_MGCTL.REJ) s).rd F.RAS_MGCTL.BUSY = s.rd F.RAS_MGCTL.BUSY := by
    unfold State.ack
    cases bitsOf v 29 29 == 1 with
    | false => rfl
    | true => exact rd_onlyIf_wr_apart (by decide) (by decide) _ 0
  rw [State.bit, State.mgSet, rd_onlyIf_wr_apart (by decide) (by decide), rd_wr_apart (by decide) (by decide), hack, State.bit]

theorem fenced_mgSet (s : State) (v : W32) (j : Cluster) : (s.mgSet v).bit F.LNT_CTL.FENCED j = s.bit F.LNT_CTL.FENCED j := by
  have hreg : (s.mgSet v).reg .LNT_CTL j = s.reg .LNT_CTL j := mgSet_onlyRegs s v .LNT_CTL j 0 (by simp)
  rw [State.bit, rd_of_reg (f := F.LNT_CTL.FENCED) hreg, State.bit]

theorem lnt_mgSet (s : State) (v : W32) : (s.mgSet v).rd F.RAS_MGCTL.LNT = v.toNat / 2 ^ 12 % 16 := by
  have hbits : bitsOf v 15 12 = v.toNat / 2 ^ 12 % 16 := congrArg (· % 16) (Nat.shiftRight_eq_div_pow v.toNat 12)
  rw [State.mgSet, rd_onlyIf_wr_apart (by decide) (by decide), rd_wr_same (by decide), hbits]
  exact Nat.mod_mod _ _

theorem rounds_mgSet {v : W32} (h : v.toNat % 256 ≠ 0) (s : State) : (s.mgSet v).rd F.RAS_MGCTL.ROUNDS = v.toNat % 256 := by
  have hnonzero : (bitsOf v 7 0 != 0) = true := bne_iff_ne.2 h
  rw [State.mgSet, rd_onlyIf_wr_same (by decide), hnonzero, if_pos rfl]
  exact Nat.mod_mod _ _

/-- A write of SWEEP = 1 while a sweep runs is rejected. -/
theorem mgSwept_busy (h : s.bit F.RAS_MGCTL.BUSY = true) : s.mgSwept = s.raise F.RAS_MGCTL.REJ := if_pos h

theorem testsGoOn_sweepGo (j : Nat) (q : List Nat) : ∀ s : State, s.TestsGoOn (s.sweepGo j q) j := by
  induction q with
  | nil => exact fun s => testsGoOn_refl s j
  | cons a q ih =>
    intro s
    unfold State.sweepGo
    split
    · exact testsGoOn_refl s j
    next w hw =>
      extract_lets active d s1
      have hset : s.TestsGoOn s1 j :=
        testsGoOn_modLnt rfl (fun u hu => ⟨u, hu, rfl, rfl, rfl⟩) fun y hy => by
          obtain rfl := Option.some.inj (hw.symm.trans hy)
          exact ⟨q, rfl⟩
      split
      · exact hset.trans (ih _)
      · split
        · exact testsGoOn_refl s j
        · exact (hset.trans (testsGoOn_addTest _ j _)).trans (ih _)

theorem testsGoOn_sweepStep (s : State) (j : Nat) : s.TestsGoOn (s.sweepStep j) j := by
  unfold State.sweepStep
  split
  · exact testsGoOn_refl s j
  · exact testsGoOn_sweepGo j _ s

/-- A sweep of a Lantern before its first array. -/
def State.freshSweep (s : State) (j rounds : Nat) : Sweep :=
  ⟨rounds, s.serving j, (s.spares j).isEmpty, false, false, [], usTicks (s.rd F.RAS_SECFG.DEADLINE_US)⟩

/-- Lantern `j` is being swept. -/
def State.sweepSet (s : State) (j rounds : Nat) : State :=
  (s.modLnt j fun l => { l with sweep := some (s.freshSweep j rounds) }).setMap F.RAS_MGSTAT.IN_SWEEP j true

theorem sweepSet_kept (s : State) (j rounds : Nat) : s.keptBut (s.sweepSet j rounds) [.lnts, .regs] :=
  keptBut_setMap (keptBut_mono (modLnt_kept s j _) (by decide)) _ _ _ _ _ (by decide)

theorem inSweep_sweepSet (s : State) (j : Cluster) (rounds : Nat) : nbit ((s.sweepSet j rounds).rd F.RAS_MGSTAT.IN_SWEEP) j = true := by
  rw [State.sweepSet, nbit_rd_setMap (by decide) j.isLt, if_pos rfl]

theorem sweep_sweepSet (s : State) (j rounds : Nat) : ((s.sweepSet j rounds).lnt j).sweep = some (s.freshSweep j rounds) :=
  congrArg Lantern.sweep (lnt_modLnt_same s j fun l => { l with sweep := some (s.freshSweep j rounds) })

/-- The sweep of one unfenced Lantern is set up, and then its tests start. -/
theorem startSweep_single (hfenced : s.bit F.LNT_CTL.FENCED j = false) (rounds : Nat) :
    ((s.wr F.RAS_MGCTL.BUSY 1).sweepSet j rounds).TestsGoOn (s.startSweep [j] rounds none) j := by
  have hunfenced : ([j].filter fun j => !s.bit F.LNT_CTL.FENCED j) = [j] := by simp [hfenced]
  unfold State.startSweep
  rw [hunfenced]
  exact (testsGoOn_foldl (fun u a => testsGoOn_addTest u j _) _ _).trans (testsGoOn_sweepStep _ j)

section
variable {j : Cluster} (hbusy : s.bit F.RAS_MGCTL.BUSY = false) (hlnt : s.rd F.RAS_MGCTL.LNT = j.val)
  (hfenced : s.bit F.LNT_CTL.FENCED j = false)
include hbusy hlnt hfenced

/-- A write of SWEEP = 1 while no sweep runs, of one unfenced Lantern. -/
theorem mgSwept_idle :
    ((s.wr F.RAS_MGCTL.BUSY 1).sweepSet j (s.rd F.RAS_MGCTL.ROUNDS)).TestsGoOn s.mgSwept j := by
  have hj := j.isLt
  have hswept : s.mgSwept = s.startSweep [j.val] (s.rd F.RAS_MGCTL.ROUNDS) none := by
    rw [State.mgSwept, if_neg (by simp [hbusy]), State.namedSweep]
    simp only [hlnt, if_neg (show ¬ j.val = 15 by omega), if_pos hj]
  rw [hswept]
  exact startSweep_single hfenced _

theorem mgSwept_idle_kept : s.keptBut s.mgSwept [.lnts, .regs] := by
  have hset := keptBut_trans (keptBut_wr (keptBut_refl s [.lnts, .regs]) F.RAS_MGCTL.BUSY 1 0 0 (by decide))
    (sweepSet_kept _ j (s.rd F.RAS_MGCTL.ROUNDS))
  exact keptBut_trans hset (mgSwept_idle hbusy hlnt hfenced).kept

theorem busy_mgSwept_idle : s.mgSwept.bit F.RAS_MGCTL.BUSY = true := by
  rw [(mgSwept_idle hbusy hlnt hfenced).bit (by decide), State.bit, State.sweepSet, rd_setMap_other (by decide)]
  exact bit_wr_same (s := s) (f := F.RAS_MGCTL.BUSY) (by decide) rfl 1

theorem inSweep_mgSwept_idle : nbit (s.mgSwept.rd F.RAS_MGSTAT.IN_SWEEP) j = true := by
  rw [(mgSwept_idle hbusy hlnt hfenced).rd (by decide), inSweep_sweepSet]

theorem sweep_mgSwept_idle :
    ∃ w, (s.mgSwept.lnt j).sweep = some w ∧ w.rounds = s.rd F.RAS_MGCTL.ROUNDS ∧ w.rep = false := by
  obtain ⟨q, hq⟩ := (mgSwept_idle hbusy hlnt hfenced).sweep _ (sweep_sweepSet _ j _)
  exact ⟨_, hq, rfl, rfl⟩

end

/-! ### SWEEP_END (R673) -/

theorem keptBut_advised (h : s.keptBut t L) (x : List Nat) (m0 : Part.advised ∈ L) : s.keptBut { t with advised := x } L := by
  intro p hp
  have h := h p hp
  cases p
  case advised => exact absurd m0 hp
  all_goals exact h

/-- Equal digests have no majority but their own value, and lack one only when fewer than two Lanterns were swept. -/
theorem majority_replicate (n : Nat) (v : W64) : majority (List.replicate n v) = if 2 ≤ n then some v else none := by
  unfold majority
  by_cases hn : 2 ≤ n
  · rw [if_pos hn, List.find?_replicate_of_length_pos (by omega)]
    simp [hn]
    omega
  · rw [if_neg hn, List.find?_eq_none]
    simp
    omega

/-- Lantern `i` has tested its arrays, and nothing was found. -/
structure State.SweptClean (s : State) (i : Nat) (w : Sweep) : Prop where
  sweep : (s.lnt i).sweep = some w
  tests : ∀ t ∈ (s.lnt i).tests, t.why ≠ .sweep
  queue : w.queue = []
  bad : w.bad = false
  rep : w.rep = false
  hits : w.hits = []

/-- The digests of the Lanterns `js` can be read. -/
def State.digestsShown (s : State) (js : List Nat) (dig : Nat → W64) : State := js.foldl (fun s j => s.setReg .RAS_MGDIG j 0 (dig j)) s

/-- RAS_MGROUND counts the rounds of a sweep, and no sweep runs. -/
def State.sweepCounted (s : State) (rounds : Nat) : State :=
  ((s.incWrap F.RAS_MGROUND.NEXT 0 0 rounds).wr F.RAS_MGCTL.BUSY 0).wr F.RAS_MGSTAT.IN_SWEEP 0

/-- The Lanterns `js` are swept no longer. -/
def State.sweepsCleared (s : State) (js : List Nat) : State := js.foldl (fun s j => s.modLnt j fun l => { l with sweep := none }) s

/-- The sweep of the Lanterns `js` has ended, before any Lantern or array is judged. -/
def State.sweepClosed (s : State) (js : List Nat) (dig : Nat → W64) (rounds : Nat) : State :=
  ((s.digestsShown js dig).sweepCounted rounds).sweepsCleared js

theorem digestsShown_kept (s : State) (js : List Nat) (dig : Nat → W64) : s.keptBut (s.digestsShown js dig) [.regs] :=
  keptBut_foldl js _ (fun u i => keptBut_setReg (keptBut_refl u _) _ i 0 _ (by decide)) (keptBut_refl s _)

theorem rd_digestsShown {g : Fld} (hg : g.reg ≠ .RAS_MGDIG) (s : State) (js : List Nat) (dig : Nat → W64) :
    (s.digestsShown js dig).rd g = s.rd g :=
  foldl_keep (fun u => u.rd g) js _ (fun _ _ => rd_setReg_other hg _ 0 0) s

theorem reg_digestsShown {js : List Nat} (hnodup : js.Nodup) (hjs : ∀ i ∈ js, i < 2 ^ 14) {i : Nat} (hi : i ∈ js) (dig : Nat → W64) :
    (s.digestsShown js dig).reg .RAS_MGDIG i = dig i := by
  refine foldl_at (p := fun u => u.reg .RAS_MGDIG i) (v := fun _ => dig i) (I := fun _ => True) hnodup hi (fun _ _ h => h)
    (fun _ y hy hne => reg_setReg_elem (.inl ?_) _) (fun _ _ => reg_setReg_same _) trivial
  rw [Nat.mod_eq_of_lt (hjs i hi), Nat.mod_eq_of_lt (hjs y hy)]
  exact hne.symm

theorem sweepCounted_kept (s : State) (rounds : Nat) : s.keptBut (s.sweepCounted rounds) [.regs] :=
  keptBut_wr (keptBut_wr (keptBut_incWrap (keptBut_refl s _) _ _ _ _ (by decide)) _ _ _ _ (by decide)) _ _ _ _ (by decide)

theorem sweepsCleared_kept (s : State) (js : List Nat) : s.keptBut (s.sweepsCleared js) [.lnts] :=
  keptBut_foldl js _ (fun u i => modLnt_kept u i _) (keptBut_refl s _)

theorem lnt_modLnt_other {i : Nat} (h : i ≠ j) (f : Lantern → Lantern) : (s.modLnt j f).lnt i = s.lnt i := tget_tset_other _ _ _ _ h

theorem sweep_sweepsCleared {js : List Nat} (hnodup : js.Nodup) {i : Nat} (hi : i ∈ js) : ((s.sweepsCleared js).lnt i).sweep = none :=
  foldl_at (p := fun u => (u.lnt i).sweep) (v := fun _ => none) (I := fun _ => True) hnodup hi (fun _ _ h => h)
    (fun _ _ _ hne => congrArg Lantern.sweep (lnt_modLnt_other hne.symm _)) (fun u _ => congrArg Lantern.sweep (lnt_modLnt_same u i _)) trivial

theorem sweepClosed_kept (s : State) (js : List Nat) (dig : Nat → W64) (rounds : Nat) :
    s.keptBut (s.sweepClosed js dig rounds) [.regs, .lnts] :=
  keptBut_trans (keptBut_mono (keptBut_trans (digestsShown_kept s js dig) (sweepCounted_kept _ rounds)) (by decide))
    (keptBut_mono (sweepsCleared_kept _ js) (by decide))

theorem regs_sweepClosed (s : State) (js : List Nat) (dig : Nat → W64) (rounds : Nat) :
    (s.sweepClosed js dig rounds).regs = ((s.digestsShown js dig).sweepCounted rounds).regs :=
  regs_of_kept (sweepsCleared_kept _ js) (by decide)

theorem busy_sweepClosed (s : State) (js : List Nat) (dig : Nat → W64) (rounds : Nat) :
    (s.sweepClosed js dig rounds).bit F.RAS_MGCTL.BUSY = false := by
  rw [bit_of_regs (regs_sweepClosed s js dig rounds), State.sweepCounted, bit_wr_other (by decide)]
  exact bit_wr_same (by decide) rfl 0

theorem pending_sweepClosed (s : State) (js : List Nat) (dig : Nat → W64) (rounds : Nat) :
    (s.sweepClosed js dig rounds).bit F.RAS_MGCTL.PENDING = s.bit F.RAS_MGCTL.PENDING := by
  rw [State.bit, rd_of_regs (regs_sweepClosed s js dig rounds), State.sweepCounted, rd_wr_other (by decide), rd_wr_apart (by decide) (by decide),
    State.incWrap, rd_wr_other (by decide), rd_digestsShown (by decide), State.bit]

theorem inSweep_sweepClosed (s : State) (js : List Nat) (dig : Nat → W64) (rounds : Nat) :
    (s.sweepClosed js dig rounds).rd F.RAS_MGSTAT.IN_SWEEP = 0 := by
  rw [rd_of_regs (regs_sweepClosed s js dig rounds)]
  exact rd_wr_same (by decide) 0

theorem reg_sweepClosed {js : List Nat} (hnodup : js.Nodup) (hjs : ∀ i ∈ js, i < 2 ^ 14) {i : Nat} (hi : i ∈ js) (dig : Nat → W64)
    (rounds : Nat) : (s.sweepClosed js dig rounds).reg .RAS_MGDIG i = dig i := by
  rw [State.reg_eq, regs_sweepClosed, ← State.reg_eq, State.sweepCounted, reg_wr_other (by decide), reg_wr_other (by decide), State.incWrap,
    reg_wr_other (by decide), reg_digestsShown hnodup hjs hi]

/-- After a sweep with nothing pending, nothing follows. -/
theorem afterSweep_idle (hpend : s.bit F.RAS_MGCTL.PENDING = false) (hrepeat : ∀ t ∈ s.tests, t.2.cls ≠ 5) : s.afterSweep = s := by
  have hnone : s.tests.find? (fun t => t.2.cls == 5) = none := List.find?_eq_none.2 fun t ht => by simpa using hrepeat t ht
  unfold State.afterSweep
  rw [if_neg (by simp [hpend]), hnone]

/-- The end of a sweep that found nothing closes it and takes back the advice against its Lanterns. -/
theorem exec_sweepEnd_clean {ds : List W64} {v : W64} (hbusy : s.bit F.RAS_MGCTL.BUSY = true) (hpend : s.bit F.RAS_MGCTL.PENDING = false)
    (hrepeat : ∀ t ∈ s.tests, t.2.cls ≠ 5) (hclean : ∀ i ∈ s.inSweep, ds.getD i 0 = v ∧ ∃ w, s.SweptClean i w) :
    ∃ rounds t, exec (.sweepEnd ds) s = .next t ∧ (s.sweepClosed s.inSweep (fun i => ds.getD i 0) rounds).keptBut t [.advised] := by
  change ∃ rounds t, execSweepEnd ds s = .next t ∧ _
  unfold execSweepEnd
  extract_lets js done dig maj rounds s0 s1 s2 s3 s4 s5 s6
  have hdone : done = true := by
    refine List.all_eq_true.2 fun i hi => ?_
    obtain ⟨-, w, hw⟩ := hclean i hi
    simp only [hw.sweep, hw.queue]
    simpa using hw.tests
  have hmaj : maj = if 2 ≤ js.length then some v else none := by
    have hdigs : js.map dig = List.replicate js.length v :=
      List.eq_replicate_iff.2 ⟨List.length_map _, fun x hx => by
        obtain ⟨i, hi, rfl⟩ := List.mem_map.1 hx
        exact (hclean i hi).1⟩
    rw [← majority_replicate, ← hdigs]
  have hagree (i : Nat) (hi : i ∈ js) : (maj.any fun m => m != dig i) = false := by
    have hv : dig i = v := (hclean i hi).1
    rw [hmaj, hv]
    split <;> simp
  have hquiet : s4 = s3 := if_neg (by
    rw [hmaj]
    split <;> simp [*])
  have hadvised : s3.keptBut s5 [.advised] := by
    refine foldl_inv (fun u => s3.keptBut u [.advised]) js _ (fun u i hi hu => ?_) s4 (hquiet ▸ keptBut_refl s3 _)
    obtain ⟨-, w, hw⟩ := hclean i hi
    have hsweep : (s0.lnt i).sweep = some w := hw.sweep
    simp only [hagree i hi, hsweep, Option.any_some, hw.bad, hw.rep, Bool.not_false, Bool.and_self, Bool.false_eq_true, if_false, if_true]
    exact keptBut_advised hu _ (by decide)
  have huncharged : s6 = s5 := foldl_eq_of_mem s5 fun u i hi => by
    obtain ⟨-, w, hw⟩ := hclean i hi
    have hsweep : (s0.lnt i).sweep = some w := hw.sweep
    simp only [hagree i hi, hsweep, hw.hits, List.foldl_nil, ite_self]
  have hregs : s6.regs = s3.regs := huncharged ▸ regs_of_kept hadvised (by decide)
  have hidle : s6.afterSweep = s6 := by
    refine afterSweep_idle ?_ ?_
    · rw [bit_of_regs hregs]
      exact (pending_sweepClosed s js dig rounds).trans hpend
    · have htests : s6.tests = s.tests :=
        huncharged ▸ (hadvised .tests (by decide)).trans (sweepClosed_kept s js dig rounds .tests (by decide))
      rwa [htests]
  refine ⟨rounds, s6, ?_, huncharged ▸ hadvised⟩
  rw [if_neg (by simp [hbusy, hdone]), hidle, ite_self]

end

/-- Settles O19: what each command leaves is computed, and the tests that start in its course touch no more than `State.TestsGoOn` says. -/
theorem marigoldTests : Obligations.MarigoldTests := by
  unfold Obligations.MarigoldTests
  intro s j
  refine ⟨fun c x w hx hissuer hword hcount hgood hop harr hrole hfenced => ?_,
    fun a u hedge hfind hover hrefs hout hfenced hmore hrole => ⟨?_, fun hwhy => ?_⟩,
    fun a u n hedge hfrees hlate htests harr hrun hdeadline hn hwhy harrs hreplay hrole hspares => ?_,
    fun hfull hboot => ⟨fun hbusy => ?_, fun hbusy => ?_⟩,
    fun hheld => ⟨fun hpend => ?_, fun hpend hwait => ?_⟩,
    fun v hheld hsweep => ⟨fun hbusy => ?_, fun hbusy hname hfenced hrounds => ?_⟩,
    fun ds v _ hbusy hpend hrepeat hclean => ?_⟩
  · obtain ⟨t, u, hissued, hasked, hexec⟩ := exec_test ⟨hx, hissuer, hword, hcount⟩ hgood hop rfl harr hrole hfenced
    have hadded := testsGoOn_addTest t j u
    have hmarked := keptBut_trans (markIssue_kept s j c) (keptBut_mono hissued.kept (by decide))
    have hkept := keptBut_trans hmarked (keptBut_mono hadded.kept (by decide))
    obtain ⟨late, hlate⟩ := hadded.op c _ (congrArg Ctx.op hissued.here)
    obtain ⟨v, hv, hvarr, hvwhy, hvrounds⟩ := mem_addTest t j u
    obtain ⟨huarr, huwhy, hurounds⟩ := hasked
    exact ⟨_, hexec, ⟨_, hlate, rfl, rfl, rfl, rfl⟩, (hadded.ctxRegs c).trans (congrArg Ctx.regs hissued.here :),
      ⟨v, hv, hvarr.trans huarr, hvwhy.trans huwhy, hvrounds.trans hurounds⟩, hkept .mem (by decide), hkept .plots (by decide)⟩
  · refine ⟨_, exec_marigoldRoundEnd hedge hfind hover hrefs hout hfenced hmore hrole nofun, ?_, modLnt_kept s j _⟩
    rw [onlyIf_neg rfl, tests_roundOver, nextRound_eq hout, Bool.or_false]
  · have hmismatch := mismatched_kept s j a u
    refine ⟨_, exec_marigoldRoundEnd hedge hfind hover hrefs hout hfenced hmore hrole fun _ => hwhy, ?_, ?_, ?_⟩
    · rw [onlyIf_pos rfl, tests_roundOver, nextRound_mismatched, nextRound_eq hout, Bool.or_true, lnt_of_lnts (hmismatch .lnts (by decide))]
    · rw [onlyIf_pos rfl, rd_roundOver, mismatches_mismatched]
    · exact keptBut_trans (keptBut_mono hmismatch (by decide)) (keptBut_mono (modLnt_kept _ j _) (by decide))
  · have hfree : s.busyArr j a = false := by
      simp [State.busyArr, harrs, hreplay, hlate]
    have hctx : u.why.ctx = none := by
      rw [hwhy]
      rfl
    exact ⟨_, exec_testSpareDeadline hedge hfrees htests harr hrun hdeadline hn hspares hctx hfree hrole, harr ▸ role_leftUnaided s j u,
      ⟨_, tests_leftUnaided htests, harr, rfl, rfl, rfl⟩, leftUnaided_kept s j u, leftUnaided_onlyRegs s j a harr⟩
  · exact ⟨_, exec_mgStep_boot hfull hboot, by rw [onlyIf_pos hbusy], by
      rw [onlyIf_pos hbusy]
      exact keptBut_fw (keptBut_refl s _) _ (by decide)⟩
  · rw [exec_mgStep_boot hfull hboot, onlyIf_neg hbusy]
  · exact ⟨_, (exec_mgStep hheld).trans (congrArg _ (stepMark_pending hpend)), overruns_overrun s, overrun_kept s⟩
  · obtain ⟨hstamp, hlast⟩ := reads_stepTaken s
    exact ⟨_, (exec_mgStep hheld).trans (congrArg _ (stepMark_waits hpend hwait)), hstamp, hlast, pending_stepTaken hpend, stepTaken_regsOnly s⟩
  · have hreject := mgSwept_busy (s := s.mgSet v) ((busy_mgSet s v).trans hbusy)
    refine ⟨_, exec_mgSweep hheld hsweep, ?_, keptBut_auditReg ?_ _ _ _ (by decide), onlyRegs_regs ?_ (auditReg_regs _ _ _ _)⟩
    · rw [bit_of_regs (auditReg_regs _ _ _ _), hreject]
      exact bit_raise_same (by decide) rfl 0
    · rw [hreject]
      exact keptBut_raise (keptBut_mono (mgSet_kept s v) (by decide)) _ _ _ (by decide)
    · rw [hreject]
      exact onlyRegs_raise (mgSet_onlyRegs s v) _ 0 0 (by decide)
  · have hfenced' := (fenced_mgSet s v j).trans hfenced
    have hidle := (busy_mgSet s v).trans hbusy
    have hlnt := (lnt_mgSet s v).trans hname
    have hkept := keptBut_trans (keptBut_mono (mgSet_kept s v) (by decide)) (mgSwept_idle_kept hidle hlnt hfenced')
    have haudit := keptBut_auditReg (keptBut_mono hkept (m := [.lnts, .regs, .auditQ]) (by decide)) 0x2C05004 (s.reg .RAS_MGCTL).toNat
      ((s.mgSet v).mgSwept.reg .RAS_MGCTL).toNat (by decide)
    obtain ⟨w, hw, hwrounds, hrep⟩ := sweep_mgSwept_idle hidle hlnt hfenced'
    refine ⟨_, exec_mgSweep hheld hsweep, ?_, ?_, ⟨w, ?_, hwrounds.trans (rounds_mgSet hrounds s), hrep⟩, haudit .mem (by decide),
      haudit .plots (by decide)⟩
    · rw [bit_of_regs (auditReg_regs _ _ _ _), busy_mgSwept_idle hidle hlnt hfenced']
    · rw [rd_of_regs (auditReg_regs _ _ _ _), inSweep_mgSwept_idle hidle hlnt hfenced']
    · rwa [lnt_of_lnts (keptBut_auditReg (keptBut_refl _ [.auditQ]) _ _ _ (by decide) .lnts (by decide))]
  · have hnodup : s.inSweep.Nodup := List.nodup_range.filter _
    have hbound : ∀ i ∈ s.inSweep, i < 2 ^ 14 := fun i hi => (List.mem_range.1 (List.mem_of_mem_filter hi)).trans (by decide)
    obtain ⟨rounds, t, hexec, hkept⟩ := exec_sweepEnd_clean hbusy hpend hrepeat fun i hi => by
      obtain ⟨hdig, htests, w, hw, hqueue, hbad, hrep, hhits⟩ := hclean i hi
      exact ⟨hdig, w, hw, htests, hqueue, hbad, hrep, hhits⟩
    have hregs := regs_of_kept hkept (by decide)
    refine ⟨t, hexec, ?_, ?_, fun i hi => ⟨?_, ?_⟩, ?_⟩
    · rw [bit_of_regs hregs, busy_sweepClosed]
    · rw [rd_of_regs hregs, inSweep_sweepClosed]
    · rw [State.reg_eq, hregs, ← State.reg_eq, reg_sweepClosed hnodup hbound hi, (hclean i hi).1]
    · rw [lnt_of_lnts (hkept .lnts (by decide))]
      exact sweep_sweepsCleared hnodup hi
    · exact keptBut_trans (keptBut_mono (sweepClosed_kept s _ _ _) (by decide)) (keptBut_mono hkept (by decide))

end Sys2Proof.Machine
end

section
/-! Every command answers a next state, whatever the state and the operands.

An outcome is built from states by branches alone, so there is a rule for each way in which a meaning is put together: an answer, a branch, a
write that may wait (R598), and the two shared forms, the write of an arbiter hold and the issue of an instruction. A command whose meaning
also matches on the state has a lemma of its own, which follows its branches; `completes_exec` cites a rule for every command. -/

set_option Elab.async false

namespace Sys2Proof.Machine

/-- An outcome is a next state. -/
def Completes (r : Res) : Prop := ∃ t, r = .next t

section
variable {s : State} {p : Prop} [Decidable p] {r q : Res}

/-! ### Rules about outcomes -/

theorem completes_next : Completes (.next s) := ⟨s, rfl⟩

theorem completes_ite (h : Completes r) (g : Completes q) : Completes (if p then r else q) := by
  split <;> assumption

/-- A guard, under which the answer is given at once. -/
theorem completes_else (h : Completes q) : Completes (if p then .next s else q) := completes_ite completes_next h

theorem completes_either {t : State} : Completes (if p then .next s else .next t) := completes_else completes_next

theorem completes_orWait {c : Instr} {run : State → Res} (h : ∀ t, Completes (run t)) : Completes (s.orWait c run) := by
  unfold State.orWait
  split
  · exact h s
  · obtain ⟨t, ht⟩ := h { s with endpoint := [], sec := { s.sec with auditQ := [] } }
    rw [ht]
    exact completes_next

theorem completes_holdWrite {a : Agent} {h : Fin 8} {c : Instr} {run : State → State} : Completes (s.holdWrite a h c run) := by
  unfold State.holdWrite
  extract_lets go
  have hgo (u : State) : Completes (go u) := completes_either
  cases a with
  | fn f => exact completes_orWait hgo
  | sec | pmc | sch | ccc k => exact hgo s

theorem completes_issue {j c : Nat} {m : Nat → Bool} {run : State → BitVec 128 → BitVec 128 → State} : Completes (s.issue j c m run) := by
  unfold State.issue
  extract_lets x
  split <;> exact completes_next

end

/-! ### The commands whose meaning matches on the state -/

theorem completes_execColdReset {e : ColdEnv} {s : State} : Completes (execColdReset e s) := by
  unfold execColdReset
  extract_lets
  split <;> exact completes_next

theorem completes_execWarmReset {e : WarmEnv} {s : State} : Completes (execWarmReset e s) := by
  unfold execWarmReset
  split
  · exact completes_next
  · exact completes_either

theorem completes_execNmcDividerChange {s : State} : Completes (execNmcDividerChange s) := by
  unfold execNmcDividerChange
  split <;> exact completes_next

theorem completes_execReg64LowRead {f : FnIx} {off : Nat} {s : State} : Completes (execReg64LowRead f off s) := by
  unfold execReg64LowRead
  split <;> exact completes_next

theorem completes_execRegisterWrite {a : Agent} {off : Nat} {wide : Bool} {v : W64} {s : State} :
    Completes (execRegisterWrite a off wide v s) := by
  unfold execRegisterWrite
  split
  · exact completes_orWait fun _ => completes_next
  all_goals exact completes_next

theorem completes_execPlotQuarantineEnd {i : Fin 4096} {s : State} : Completes (execPlotQuarantineEnd i s) := by
  unfold execPlotQuarantineEnd
  split <;> exact completes_next

theorem completes_execIngressRelease {k : Cluster} {req : Fin 40} {cls : Fin 4} {s : State} :
    Completes (execIngressRelease k req cls s) := by
  unfold execIngressRelease
  split <;> exact completes_next

theorem completes_execRequestTimeout {id : Nat} {s : State} : Completes (execRequestTimeout id s) := by
  unfold execRequestTimeout
  split <;> exact completes_next

theorem completes_execLockLeaseExpiry {k : Cluster} {plotScope : Bool} {name : Nat} {s : State} :
    Completes (execLockLeaseExpiry k plotScope name s) := by
  unfold execLockLeaseExpiry
  split <;> exact completes_next

theorem completes_execLockBreak {k : Cluster} {plotScope : Bool} {name : Nat} {s : State} :
    Completes (execLockBreak k plotScope name s) := by
  unfold execLockBreak
  split <;> exact completes_next

theorem completes_execAccessIssue {k : Cluster} {pcn : PcIx} {parity : List Nat} {s : State} :
    Completes (execAccessIssue k pcn parity s) := by
  unfold execAccessIssue
  refine completes_else ?_
  split <;> exact completes_next

theorem completes_execReplyHandover {id : Nat} {s : State} : Completes (execReplyHandover id s) := by
  unfold execReplyHandover
  split
  · exact completes_next
  · exact completes_else completes_either

theorem completes_execArbHoldLeaseExpiry {h : Fin 8} {s : State} : Completes (execArbHoldLeaseExpiry h s) := by
  unfold execArbHoldLeaseExpiry
  split <;> exact completes_next

theorem completes_execTimingRegisterWrite {k : Cluster} {t : TimReg} {v : W32} {s : State} :
    Completes (execTimingRegisterWrite k t v s) := by
  unfold execTimingRegisterWrite
  extract_lets
  split
  · exact completes_next
  · exact completes_next
  · exact completes_next
  · exact completes_either

theorem completes_execWindowStart {k : Cluster} {fails : Bool} {bad : List Nat} {s : State} :
    Completes (execWindowStart k fails bad s) := by
  unfold execWindowStart
  extract_lets
  split
  · exact completes_next
  · exact completes_either

theorem completes_execWindowEnd {k : Cluster} {s : State} : Completes (execWindowEnd k s) := by
  unfold execWindowEnd
  split
  · exact completes_next
  · exact completes_either

theorem completes_execSrEntryComplete {k : Cluster} {p : PcIx} {s : State} : Completes (execSrEntryComplete k p s) := by
  unfold execSrEntryComplete
  extract_lets
  split <;> exact completes_next

theorem completes_execSrExitComplete {k : Cluster} {p : PcIx} {s : State} : Completes (execSrExitComplete k p s) := by
  unfold execSrExitComplete
  extract_lets
  split <;> exact completes_next

theorem completes_execTrainingComplete {k : Cluster} {e : SiteEnv} {s : State} : Completes (execTrainingComplete k e s) := by
  unfold execTrainingComplete
  refine completes_else ?_
  refine completes_ite ?_ (completes_else completes_either)
  split <;> exact completes_next

theorem completes_execRetrainApply {k : Cluster} {e : SiteEnv} {s : State} : Completes (execRetrainApply k e s) := by
  unfold execRetrainApply
  split
  · exact completes_next
  · exact completes_either

theorem completes_execRestore {k : Cluster} {e : SiteEnv} {v : VerifyEnv} {s : State} : Completes (execRestore k e v s) := by
  unfold execRestore
  refine completes_ite ?_ (completes_else (completes_orWait fun _ => completes_next))
  split <;> exact completes_next

theorem completes_execTrfBucketWrite {off : Nat} {v : W32} {s : State} : Completes (execTrfBucketWrite off v s) := by
  unfold execTrfBucketWrite
  refine completes_orWait fun _ => ?_
  split
  · exact completes_next
  · exact completes_either
  · exact completes_else completes_either

theorem completes_execGateCommitApply {s : State} : Completes (execGateCommitApply s) := by
  unfold execGateCommitApply
  split
  · exact completes_next
  · exact completes_else completes_either

theorem completes_execArrayOpDispatch {j : Cluster} {s : State} : Completes (execArrayOpDispatch j s) := by
  unfold execArrayOpDispatch
  refine completes_else ?_
  refine completes_else ?_
  split
  · exact completes_next
  · split
    · exact completes_next
    · split <;> exact completes_next

theorem completes_execArrayOpEnd {j : Cluster} {a : ArrIx} {s : State} : Completes (execArrayOpEnd j a s) := by
  unfold execArrayOpEnd
  refine completes_else ?_
  split <;> exact completes_next

theorem completes_execChunkVerdict {j : Cluster} {c : CtxIx} {f : ChunkFault} {s : State} : Completes (execChunkVerdict j c f s) := by
  unfold execChunkVerdict
  refine completes_else ?_
  split
  · exact completes_next
  · split
    · split <;> exact completes_next
    · refine completes_else ?_
      refine completes_else ?_
      extract_lets
      split <;> exact completes_next

theorem completes_execReplayDecide {j : Cluster} {c : CtxIx} {v : ReplayResult} {s : State} : Completes (execReplayDecide j c v s) := by
  unfold execReplayDecide
  refine completes_else ?_
  split
  · exact completes_next
  · refine completes_else ?_
    split <;> exact completes_next

theorem completes_execChunkWriteFail {j : Cluster} {c : CtxIx} {s : State} : Completes (execChunkWriteFail j c s) := by
  unfold execChunkWriteFail
  refine completes_else ?_
  split
  · exact completes_next
  · split
    · exact completes_next
    · split <;> exact completes_next

theorem completes_execDroppedResend {j : Cluster} {tag : Nat} {s : State} : Completes (execDroppedResend j tag s) := by
  unfold execDroppedResend
  split <;> exact completes_next

theorem completes_execLanternReplyArrival {j : Cluster} {s : State} : Completes (execLanternReplyArrival j s) := by
  unfold execLanternReplyArrival
  refine completes_else ?_
  split
  · exact completes_next
  · extract_lets
    split
    · exact completes_next
    · exact completes_either

theorem completes_execContextClearDone {j : Cluster} {c : CtxIx} {s : State} : Completes (execContextClearDone j c s) := by
  unfold execContextClearDone
  refine completes_else ?_
  split <;> exact completes_next

theorem completes_execCallLoadComplete {j : Cluster} {c : CtxIx} {s : State} : Completes (execCallLoadComplete j c s) := by
  unfold execCallLoadComplete
  refine completes_else ?_
  extract_lets
  split
  · refine completes_else ?_
    split
    · exact completes_next
    · extract_lets
      split
      · exact completes_next
      · refine completes_ite ?_ ?_
        · split
          · exact completes_next
          · exact completes_either
        · refine completes_else ?_
          refine completes_else ?_
          refine completes_else ?_
          split <;> exact completes_next
  all_goals exact completes_next

theorem completes_execWaitPoll {j : Cluster} {c : CtxIx} {s : State} : Completes (execWaitPoll j c s) := by
  unfold execWaitPoll
  refine completes_else ?_
  split <;> exact completes_next

theorem completes_execWaitPollReply {j : Cluster} {c : CtxIx} {s : State} : Completes (execWaitPollReply j c s) := by
  unfold execWaitPollReply
  refine completes_else ?_
  extract_lets
  split
  · split
    · exact completes_next
    · exact completes_else (completes_else (completes_else completes_either))
  all_goals exact completes_next

theorem completes_execWaitDeadline {j : Cluster} {c : CtxIx} {s : State} : Completes (execWaitDeadline j c s) := by
  unfold execWaitDeadline
  refine completes_else ?_
  extract_lets
  split
  · exact completes_either
  all_goals exact completes_next

theorem completes_execPostedReply {j : Cluster} {c : CtxIx} {s : State} : Completes (execPostedReply j c s) := by
  unfold execPostedReply
  refine completes_else ?_
  split <;> exact completes_next

theorem completes_execFenceComplete {j : Cluster} {c : CtxIx} {s : State} : Completes (execFenceComplete j c s) := by
  unfold execFenceComplete
  refine completes_else ?_
  extract_lets
  split <;> exact completes_next

theorem completes_execJobEnd {j : Cluster} {c : CtxIx} {s : State} : Completes (execJobEnd j c s) := by
  unfold execJobEnd
  refine completes_else ?_
  extract_lets
  split
  · exact completes_else (completes_ite completes_either completes_next)
  all_goals exact completes_next

theorem completes_execTestSpareDeadline {j : Cluster} {a : ArrIx} {s : State} : Completes (execTestSpareDeadline j a s) := by
  unfold execTestSpareDeadline
  refine completes_else ?_
  split
  · exact completes_next
  · exact completes_either

theorem completes_execContribResend {j : Cluster} {c : CtxIx} {tag : Nat} {s : State} : Completes (execContribResend j c tag s) := by
  unfold execContribResend
  refine completes_else ?_
  split
  · refine completes_else ?_
    split <;> exact completes_next
  all_goals exact completes_next

theorem completes_execCollectWaitEnd {j : Cluster} {c : CtxIx} {s : State} : Completes (execCollectWaitEnd j c s) := by
  unfold execCollectWaitEnd
  refine completes_else ?_
  split
  · exact completes_next
  · split <;> exact completes_next

theorem completes_execPosyTake {k : Cluster} {s : State} : Completes (execPosyTake k s) := by
  unfold execPosyTake
  split <;> exact completes_next

theorem completes_execPosyEvict {k : Cluster} {i : Fin 512} {s : State} : Completes (execPosyEvict k i s) := by
  unfold execPosyEvict
  refine completes_else ?_
  split <;> exact completes_next

theorem completes_execPosyPlotFree {k : Cluster} {index : Fin 4096} {s : State} : Completes (execPosyPlotFree k index s) := by
  unfold execPosyPlotFree
  refine completes_else ?_
  extract_lets
  split <;> exact completes_next

theorem completes_execRingFetch {s : State} : Completes (execRingFetch s) := by
  unfold execRingFetch
  extract_lets
  split <;> exact completes_next

theorem completes_execEntryCheck {ring : Fin 8192} {s : State} : Completes (execEntryCheck ring s) := by
  unfold execEntryCheck
  split
  · exact completes_next
  · extract_lets
    split
    · exact completes_next
    · exact completes_either

theorem completes_execJobDispatch {ring : Fin 8192} {s : State} : Completes (execJobDispatch ring s) := by
  unfold execJobDispatch
  split <;> exact completes_next

theorem completes_execRecordWrite {s : State} : Completes (execRecordWrite s) := by
  unfold execRecordWrite
  split
  · exact completes_next
  · exact completes_else (completes_else completes_either)

theorem completes_execMsixSend {s : State} : Completes (execMsixSend s) := by
  unfold execMsixSend
  split <;> exact completes_next

theorem completes_execHostReadCompletion {j : Cluster} {tag : HostTag} {result : Fin 4} {data : List Byte} {s : State} :
    Completes (execHostReadCompletion j tag result data s) := by
  unfold execHostReadCompletion
  refine completes_else ?_
  split
  · exact completes_next
  · exact completes_either

theorem completes_execSecuredMessage {f : FnIx} {s : State} : Completes (execSecuredMessage f s) := by
  unfold execSecuredMessage
  refine completes_else ?_
  refine completes_else ?_
  refine completes_else ?_
  extract_lets
  split
  · exact completes_next
  · exact completes_next
  · exact completes_either

theorem completes_execKeyExchange {f : FnIx} {digest : BitVec 384} {ok : Bool} {s : State} : Completes (execKeyExchange f digest ok s) := by
  unfold execKeyExchange
  refine completes_else ?_
  refine completes_else ?_
  refine completes_else ?_
  refine completes_else ?_
  split
  · exact completes_next
  · refine completes_else ?_
    split
    · exact completes_next
    · exact completes_either

theorem completes_execUnbind {sess : Option SessIx} {f : FnIx} {target : Fin 256} {s : State} : Completes (execUnbind sess f target s) := by
  unfold execUnbind
  split <;> exact completes_next

theorem completes_execRotationChunkCommit {errs : List (Fin 1024 × ReadErr)} {s : State} :
    Completes (execRotationChunkCommit errs s) := by
  unfold execRotationChunkCommit
  split
  · exact completes_next
  · refine completes_else ?_
    refine completes_else ?_
    refine completes_ite ?_ completes_either
    split <;> exact completes_next

theorem completes_execSlotDestroyDone {slot : Fin 272} {s : State} : Completes (execSlotDestroyDone slot s) := by
  unfold execSlotDestroyDone
  refine completes_else ?_
  extract_lets
  split <;> exact completes_next

theorem completes_execKeyCopyRepair {slot : Fin 272} {half : Bool} {differs : Bool} {s : State} :
    Completes (execKeyCopyRepair slot half differs s) := by
  unfold execKeyCopyRepair
  refine completes_else ?_
  refine completes_else ?_
  split <;> exact completes_next

theorem completes_execAuditAppend {s : State} : Completes (execAuditAppend s) := by
  unfold execAuditAppend
  split
  · exact completes_next
  · exact completes_either

theorem completes_execAuditCheckpoint {s : State} : Completes (execAuditCheckpoint s) := by
  unfold execAuditCheckpoint
  split
  · exact completes_next
  · exact completes_either

theorem completes_execFreezeOpDone {k : Cluster} {verifyOk : Bool} {s : State} : Completes (execFreezeOpDone k verifyOk s) := by
  unfold execFreezeOpDone
  split
  · exact completes_next
  · exact completes_else completes_either

theorem completes_execFreezeAutoDecision {k : Cluster} {p : PcIx} {parityOk : Bool} {s : State} :
    Completes (execFreezeAutoDecision k p parityOk s) := by
  unfold execFreezeAutoDecision
  split
  · exact completes_next
  · exact completes_either

theorem completes_execTargetedScrub {k : Cluster} {p : PcIx} {row : Nat} {errs : List (Fin 16 × ReadErr)} {s : State} :
    Completes (execTargetedScrub k p row errs s) := by
  unfold execTargetedScrub
  split
  · exact completes_next
  · exact completes_either

theorem completes_execMarigoldRoundEnd {j : Cluster} {a : ArrIx} {mismatch parity : Bool} {s : State} :
    Completes (execMarigoldRoundEnd j a mismatch parity s) := by
  unfold execMarigoldRoundEnd
  refine completes_else ?_
  split <;> exact completes_next

theorem completes_execActivationCoreRestart {s : State} : Completes (execActivationCoreRestart s) := by
  unfold execActivationCoreRestart
  split <;> exact completes_next

theorem completes_execActivationStartFail {s : State} : Completes (execActivationStartFail s) := by
  unfold execActivationStartFail
  split
  · exact completes_next
  · exact completes_either

theorem completes_execGraceExpiry {s : State} : Completes (execGraceExpiry s) := by
  unfold execGraceExpiry
  split
  · exact completes_next
  · exact completes_either

theorem completes_execShutdownNoticeEnd {s : State} : Completes (execShutdownNoticeEnd s) := by
  unfold execShutdownNoticeEnd
  split <;> exact completes_next

theorem completes_execPwroffRequest {s : State} : Completes (execPwroffRequest s) := by
  unfold execPwroffRequest
  split <;> exact completes_next

theorem completes_execMirWindowApply {s : State} : Completes (execMirWindowApply s) := by
  unfold execMirWindowApply
  split
  · exact completes_next
  · exact completes_either

theorem completes_execSnapshotTake {s : State} : Completes (execSnapshotTake s) := by
  unfold execSnapshotTake
  split
  · exact completes_next
  · exact completes_either

theorem completes_execFreezeApply {s : State} : Completes (execFreezeApply s) := by
  unfold execFreezeApply
  split
  · exact completes_next
  · exact completes_either

/-! ### Every command -/

theorem completes_exec (i : Instr) (s : State) : Completes (exec i s) := by
  unfold exec
  cases i with
  | coldReset => exact completes_execColdReset
  | warmReset => exact completes_execWarmReset
  | nmcDividerChange => exact completes_execNmcDividerChange
  | reg64LowRead => exact completes_execReg64LowRead
  | registerWrite => exact completes_execRegisterWrite
  | plotQuarantineEnd => exact completes_execPlotQuarantineEnd
  | ingressRelease => exact completes_execIngressRelease
  | requestTimeout => exact completes_execRequestTimeout
  | lockLeaseExpiry => exact completes_execLockLeaseExpiry
  | lockBreak => exact completes_execLockBreak
  | accessIssue => exact completes_execAccessIssue
  | replyHandover => exact completes_execReplyHandover
  | arbHoldLeaseExpiry => exact completes_execArbHoldLeaseExpiry
  | timingRegisterWrite => exact completes_execTimingRegisterWrite
  | windowStart => exact completes_execWindowStart
  | windowEnd => exact completes_execWindowEnd
  | srEntryComplete => exact completes_execSrEntryComplete
  | srExitComplete => exact completes_execSrExitComplete
  | trainingComplete => exact completes_execTrainingComplete
  | retrainApply => exact completes_execRetrainApply
  | restore => exact completes_execRestore
  | trfBucketWrite => exact completes_execTrfBucketWrite
  | gateCommitApply => exact completes_execGateCommitApply
  | arrayOpDispatch => exact completes_execArrayOpDispatch
  | arrayOpEnd => exact completes_execArrayOpEnd
  | chunkVerdict => exact completes_execChunkVerdict
  | replayDecide => exact completes_execReplayDecide
  | chunkWriteFail => exact completes_execChunkWriteFail
  | droppedResend => exact completes_execDroppedResend
  | lanternReplyArrival => exact completes_execLanternReplyArrival
  | contextClearDone => exact completes_execContextClearDone
  | callLoadComplete => exact completes_execCallLoadComplete
  | waitPoll => exact completes_execWaitPoll
  | waitPollReply => exact completes_execWaitPollReply
  | waitDeadline => exact completes_execWaitDeadline
  | postedReply => exact completes_execPostedReply
  | fenceComplete => exact completes_execFenceComplete
  | jobEnd => exact completes_execJobEnd
  | testSpareDeadline => exact completes_execTestSpareDeadline
  | contribResend => exact completes_execContribResend
  | collectWaitEnd => exact completes_execCollectWaitEnd
  | posyTake => exact completes_execPosyTake
  | posyEvict => exact completes_execPosyEvict
  | posyPlotFree => exact completes_execPosyPlotFree
  | ringFetch => exact completes_execRingFetch
  | entryCheck => exact completes_execEntryCheck
  | jobDispatch => exact completes_execJobDispatch
  | recordWrite => exact completes_execRecordWrite
  | msixSend => exact completes_execMsixSend
  | hostReadCompletion => exact completes_execHostReadCompletion
  | securedMessage => exact completes_execSecuredMessage
  | keyExchange => exact completes_execKeyExchange
  | unbind => exact completes_execUnbind
  | rotationChunkCommit => exact completes_execRotationChunkCommit
  | slotDestroyDone => exact completes_execSlotDestroyDone
  | keyCopyRepair => exact completes_execKeyCopyRepair
  | auditAppend => exact completes_execAuditAppend
  | auditCheckpoint => exact completes_execAuditCheckpoint
  | freezeOpDone => exact completes_execFreezeOpDone
  | freezeAutoDecision => exact completes_execFreezeAutoDecision
  | targetedScrub => exact completes_execTargetedScrub
  | marigoldRoundEnd => exact completes_execMarigoldRoundEnd
  | activationCoreRestart => exact completes_execActivationCoreRestart
  | activationStartFail => exact completes_execActivationStartFail
  | graceExpiry => exact completes_execGraceExpiry
  | shutdownNoticeEnd => exact completes_execShutdownNoticeEnd
  | pwroffRequest => exact completes_execPwroffRequest
  | mirWindowApply => exact completes_execMirWindowApply
  | snapshotTake => exact completes_execSnapshotTake
  | freezeApply => exact completes_execFreezeApply
  | instrReservedOpcode | nop | loop | br | call | ret | wait | signal | fence | stampInstr | move | fill | gather | scatter | cast
  | quant | deq | ew | opt | mma | norm | check | digest | test | contribInstr | collect => exact completes_issue
  | arbHoldRelease => exact completes_holdWrite
  | alloc | free | setrights | setmirror | plotCmdBadOp | train | verify | trnImageWrite | ringReset | thaw | retireCopy | retireNow
  | fenceArray | fenceLantern | cancel | pair | unpair | takeover => exact completes_orWait fun _ => completes_next
  | pllMainUnlock | phyPllUnlock | tsReplicaCheck | portLinkDown | crossbarGrant | readDataReturn | chunkCommit | jobAbort
  | contextDrainEnd | migEnd | sweepEnd | watchdogExpiry | coreRelease | hkSample | railPoll | dataReply => exact completes_either
  | arbHoldSet => exact completes_else completes_holdWrite
  | tsCapture | tsCheckEnable | freezeWrite | pmuSelWrite | arbPrioWrite | refCtrlWrite | rgCfgWrite | srCfgWrite | gateDisable
  | histClear | pairedWrite | posyCfgWrite | handshake | heartbeat | ringResume | mgStep | mgSweep | coreRestart =>
    exact completes_orWait fun _ => completes_either
  | phyMultWrite => exact completes_else (completes_orWait fun _ => completes_next)
  | pairFormed | dataRequest => exact completes_else completes_either
  | gateEnable | sqDoorbell | cqDoorbell | ringEnableWrite | historyRead | thresholdWrite | activate | mirWindowCommit | snap =>
    exact completes_orWait fun _ => completes_else completes_either
  | portLinkUp => exact completes_else (completes_ite completes_either completes_next)
  | spdmRequest | caParityError => exact completes_else (completes_else completes_either)
  | gateCommit => exact completes_orWait fun _ => completes_else (completes_else completes_either)
  | start => exact completes_orWait fun _ => completes_else (completes_else (completes_else completes_either))
  | pllMainLock | schRelease | bootPhaseFail | warmResetRequest | fclkStop | fclkReturn | rcFieldRead | undefinedOffsetAccess
  | allocZeroingDone | rd | wr | wrp | aadd | acas | contrib | lkacq | lkrel | stamp | unknownOpcodeRequest | linkRetryReport
  | fabricResponseCredit | arbHoldBreak | refreshDue | refabIssue | refreshStallEnd | refPeriodSwitch | trackerWindowEnd | rfmIssue
  | windowPublish | srAsk | srEntryBegin | srExitStart | deviceIdTimeout | retrainTrigger | stackTempRead | stackTempTimeout
  | bucketRefill | gateSlotBoundary | guardBandStart | gateStart | histSample | msixPendingClear | hostMrd | hostMwr | hostFetchadd
  | hostCas | hostAtomicUnsupported | hostDriverLost | ringResetDone | l1IdleExpiry | busMasterClear | vfFlr | pfFlr | vfEnableClear
  | endSession | sessionHeartbeatExpiry | tenantCreate | tenantDelete | bindOffer | bindAccept | ringAreaZeroingDone | auditAck
  | auditHead | ckptGet | keyGenerate | keyUnwrap | keyRotate | setAllocSlot | slotQuery | keyDestroy | counters | stateCheckFail
  | migChunkCommit | historyCommit | patrolScrub | coreTrap | stageChunk | stageEnd | recWrite | trnSave | activationBegin | activationEnd
  | pmAlert | vsetWrite | pmcVoltageStep | hello | stateMessage | epoch | probe | probeReply | heart | down | probeSend | heartSend
  | partnerLoss | pairKeyUpdate | syncPassDone | mirrorPortSwitch | phyPllLock => exact completes_next

theorem completes_step (s : State) : Completes (step s) := by
  unfold step
  split
  · exact completes_next
  · exact completes_exec _ _

/-- Settles O2: no meaning stops, by the rule of each command. -/
theorem everyCommandCompletes : Obligations.EveryCommandCompletes := by
  unfold Obligations.EveryCommandCompletes
  exact ⟨completes_exec, completes_step⟩

end Sys2Proof.Machine
end

section
/-! The Posy frees the entries of a plot (R485): those a COLLECT holds. -/

set_option Elab.async false

namespace Sys2Proof.Machine

/-- Plot 3 has left OPEN, no CONTRIB of it is under way, and the entry of Posy 0 for its line 0 is held by the first chunk of a COLLECT. -/
def State.heldEntry : State :=
  { State.oneContext { oneLineCtx [collectWord, 0, 0] with op := .data (collecting 1 { collectChunk (.verdict 6016) with held := [0] }) } [] [] with
    posies := [(0, { Posy.blank with ents := [(0, some { PosyEnt.new ⟨3 * 2 ^ 22, false, 0⟩ 0 with held := true })], free := [(3, 0)] })] }

/-- The entry is free, and so the chunk holds it no more. -/
theorem posyPlotFree_heldEntry (t : State) (h : exec (.posyPlotFree 0 3) State.heldEntry = .next t) :
    ∀ d, t.dop 0 0 = some d → d.chunks.map (·.held) = [[]] := by
  obtain rfl := Host.Outcome.next.inj h
  refine fun d hd => Option.some.inj ?_
  rw [← Option.map_some (f := fun d : DOp => d.chunks.map (·.held)), ← hd]
  decide +kernel

/-- Refutes O6: the clause of POSY_PLOT_FREE says that the Posies alone change. An entry that a COLLECT holds becomes free too, and the chunk of
the Lantern that holds it holds it no more (`State.freeEnts`). -/
theorem not_posyRows : ¬ Obligations.PosyRows := by
  unfold Obligations.PosyRows
  intro h
  obtain ⟨-, -, hfree, -⟩ := h State.heldEntry 0
  obtain ⟨t, hexec, -, hkept⟩ := hfree 3 0 (by decide +kernel) (by decide +kernel) (by decide +kernel)
  have hlnts : t.lnts = State.heldEntry.lnts := hkept .lnts (by decide)
  have hdop : t.dop 0 0 = State.heldEntry.dop 0 0 := by rw [State.dop, State.ctx, lnt_of_lnts hlnts, State.dop, State.ctx]
  exact absurd (posyPlotFree_heldEntry t hexec _ hdop) (by decide)

end Sys2Proof.Machine
end

section
/-! MSI-X (R532): a message that has to wait. -/

set_option Elab.async false

namespace Sys2Proof.Machine

/-- A message of function number 16384, which is no bus master, is to be sent. -/
def State.strayMessage : State :=
  { State.reset with rings := { State.reset.rings with msgs := [(16384, 0, 0)], bmeOff := [16384] } }

/-- The message pends in a word of FN_MSIX_PBA: that of index 16384 modulo the number of words an index reaches. -/
theorem msixSend_strayMessage (t : State) (h : exec .msixSend State.strayMessage = .next t) : t.reg .FN_MSIX_PBA 0 0 = 1 := by
  obtain rfl := Host.Outcome.next.inj h
  decide +kernel

/-- Refutes O11: the clause of MSIX_SEND names the changed word by the message's function as it stands, whatever number that is, while a word is
found by its index modulo 2 ^ 14 (as the clause of RING_FETCH has it). The premise that the message is of one of the 128 functions is
missing. -/
theorem not_ringFlow : ¬ Obligations.RingFlow := by
  unfold Obligations.RingFlow
  intro h
  obtain ⟨-, -, -, -, -, hsend, -⟩ := h State.strayMessage
  obtain ⟨t, hexec, -, hcase⟩ := hsend (16384, 0, 0) (by decide +kernel) (by decide)
  rw [if_pos (Or.inl (by decide +kernel))] at hcase
  obtain ⟨-, -, honly⟩ := hcase
  have hsame : t.reg .FN_MSIX_PBA 0 0 = State.strayMessage.reg .FN_MSIX_PBA 0 0 := honly _ _ _ (by decide)
  rw [msixSend_strayMessage t hexec] at hsame
  exact absurd hsame (by decide +kernel)

end Sys2Proof.Machine
end

section
/-! The host's requests to device memory (R516, R517): the first of a tracker window. -/

set_option Elab.async false

namespace Sys2Proof.Machine

/-- READY, 1 tick after the end of tracker window 0 (R221), which nothing has noticed yet: PF0 is ACCEPTED, port H is up and has credits with
every doorkeeper, and plot 3, of tenant 0, is OPEN with every right. -/
def State.hostWindow : State :=
  let s := [(F.GLOBAL_STATE.STATE, 2, 0), (F.CLOCK_STATUS.FCLK_PRESENT, 1, 0), (F.PORT_LINK.UP, 1, 24), (F.PORT_CFG.ENABLE, 1, 24),
    (F.PORT_EFF.OPS, 1, 24), (F.PORT_EFF.CLASSES, 3, 24), (F.PORT_EFF.TAGBITS, 12, 24),
    (F.FN_STATUS.VER, 1, 0)].foldl (fun s e => s.wr e.1 e.2.1 e.2.2) State.reset
  { s with
    clk := { Clk.reset with now := 38400001, running := true }
    plots := [(3, { Plot.blank with state := .openPlot, rights := 0xFFFF })]
    credits := (List.range 12).map fun k => (k * 39 + 24, ⟨64, 256, 64⟩) }

/-- The request that PF0's read makes is policed at a doorkeeper, and is the first of the new window there. -/
theorem hostMrd_hostWindow (t : State) (h : exec (.hostMrd 0 (3 * 2 ^ 28) 64) State.hostWindow = .next t) : t.trkWindow = 1 := by
  obtain rfl := Host.Outcome.next.inj h
  decide +kernel

/-- Refutes O13: the parts of the state that a completing request changes are more than the statement lists. A request that passes to the
buckets also brings the tick's refill (`State.refillDue`) and, as the first of a tracker window, clears the trackers and the throttles and
notes the window (`State.trkClear`). -/
theorem not_hostRequests : ¬ Obligations.HostRequests := by
  unfold Obligations.HostRequests
  intro h
  obtain ⟨-, -, -, -, hcarried⟩ := h State.hostWindow 0 (3 * 2 ^ 28) 64 [0] 0 0
  obtain ⟨-, hcompletes⟩ := hcarried (by decide) (by decide) (by decide) (by decide) (by decide +kernel)
  obtain ⟨t, -, hexec, -, -, -, -, hkept⟩ := hcompletes (by decide +kernel) _ List.mem_cons_self (by decide +kernel)
  have hsame : t.trkWindow = 0 := hkept .trkWindow (by decide)
  exact absurd ((hostMrd_hostWindow t hexec).symm.trans hsame) (by decide)

end Sys2Proof.Machine
end

section
/-! Key slots (R582 to R585): a slot destroyed while its rotation runs. -/

set_option Elab.async false

namespace Sys2Proof.Machine

/-- SEC runs, and slot 3, whose rotation is under way as the history and its image in flash note, is to be destroyed. -/
def State.rotatedAway : State :=
  let s := State.reset.wr F.FW_STATE.STATE 2 0
  { s with
    sec := { s.sec with slots := [(3, { KeySlot.blank with state := .destroying })], rotation := some ⟨3, false, none, 0, 0, 0, 0⟩ }
    hist := { s.hist with marks := [(1, 3, 0)] }
    histFlash := { s.histFlash with marks := [(1, 3, 0)] } }

/-- The rotation ends with the slot, and the history without it is committed to flash. -/
theorem slotDestroyDone_rotatedAway (t : State) (h : exec (.slotDestroyDone 3) State.rotatedAway = .next t) : t.histFlash.marks = [] := by
  obtain rfl := Host.Outcome.next.inj h
  decide +kernel

/-- Refutes O16: the clause of SLOT_DESTROY_DONE does not say that no rotation of the slot runs. Where one does, it ends, its mark leaves the
history, and the history is committed, so that its image in flash changes, which the statement does not list. -/
theorem not_keysAndChain : ¬ Obligations.KeysAndChain := by
  unfold Obligations.KeysAndChain
  intro h
  obtain ⟨-, -, hdestroy, -⟩ := h State.rotatedAway
  obtain ⟨t, hexec, -, -, -, -, -, hkept⟩ := hdestroy 3 (by decide +kernel) (by decide +kernel) (by decide +kernel)
  have hsame : t.histFlash = State.rotatedAway.histFlash := hkept .histFlash (by decide)
  exact absurd ((slotDestroyDone_rotatedAway t hexec).symm.trans (congrArg Hist.marks hsame)) (by decide)

end Sys2Proof.Machine
end

section
/-! CA_PARITY_ERROR (R620) and the order of the error records of a tick (R627). -/

set_option Elab.async false

namespace Sys2Proof.Machine

/-- Stamp 6,000: PC 0 of cluster 0 is in service, and the one record of the queue has a stamp of 10 ticks later (a replica ran ahead, R45). -/
def State.recordAhead : State :=
  let s := [(F.RAS_RECHEAD.VALUE, 1, 0), (F.RAS_RECACK.VALUE, 0, 0)].foldl (fun s e => s.wr e.1 e.2.1 e.2.2) State.reset
  { s with
    clk := { Clk.reset with now := 6000, running := true }
    pcs := [(0, { Pc.blank with st := .serving })]
    recs := [(0, some (ErrRec.make 6010 sevInfo 0x24 0))] }

/-- The record of the parity error goes before it, and so the place behind the head holds the one that was there. -/
theorem caParityError_recordAhead (t : State) (h : exec (.caParityError 0 0) State.recordAhead = .next t) :
    (tget none t.recs 1).map (·.cls) = some 0x24 := by
  obtain rfl := Host.Outcome.next.inj h
  decide +kernel

/-- Refutes O17: the clause of CA_PARITY_ERROR finds the new record at the place the head named, though records of the queue that stand in the
order of R627 after it, as one stamped ahead does, are moved up behind it (`State.record`). -/
theorem not_freezeAndThaw : ¬ Obligations.FreezeAndThaw := by
  unfold Obligations.FreezeAndThaw
  intro h
  obtain ⟨hparity, -⟩ := h State.recordAhead 0 0
  obtain ⟨hreplay, -⟩ := hparity (Or.inl (by decide +kernel))
  obtain ⟨t, hexec, -, -, -, hrecord, -⟩ := hreplay (by decide +kernel)
  obtain ⟨e, hat, hcls, -⟩ := hrecord (by decide +kernel) (by decide +kernel)
  have hplace : tget none t.recs 1 = some e := by
    rwa [show State.recordAhead.rd F.RAS_RECHEAD.VALUE % 1024 = 1 by decide +kernel] at hat
  have hother := caParityError_recordAhead t hexec
  rw [hplace, Option.map_some, hcls] at hother
  exact absurd hother (by decide)

end Sys2Proof.Machine
end

section
/-! RAIL_POLL (R743, R744): the second fault of a site's rails within 1 s. -/

set_option Elab.async false

namespace Sys2Proof.Machine

/-- Stamp 6,000: rail 2, which feeds site 0, is on and has had a fault at stamp 0. PC 0 of the site serves logical PC 0, and plot 3 is OPEN there. -/
def State.secondFault : State :=
  let s := [(F.PM_RAIL_CFG.ON, 1, 2), (F.CLU_PCMAP.VALID, 1, 0)].foldl (fun s e => s.wr e.1 e.2.1 e.2.2) State.reset
  { s with
    clk := { Clk.reset with now := 6000, running := true }
    plots := [(3, { Plot.blank with state := .openPlot })]
    pcs := [(0, { Pc.blank with st := .serving })]
    pw := { s.pw with faults := [(2, 1)] } }

/-- The site is given up, and the plot has lost a logical PC it needs. -/
theorem railPoll_secondFault (t : State) (h : exec (.railPoll 2 true 1 0 0) State.secondFault = .next t) : (t.plot 3).state = .retired := by
  obtain rfl := Host.Outcome.next.inj h
  decide +kernel

/-- Refutes O26: the clause of a fault says that no plot changes whether or not the fault is the site's first within 1 s. A second one takes the
site out of use (R744), and the plots on its stack are RETIRED. -/
theorem not_railsAndSetpoints : ¬ Obligations.RailsAndSetpoints := by
  unfold Obligations.RailsAndSetpoints
  intro h
  obtain ⟨hpoll, -⟩ := h State.secondFault
  obtain ⟨-, hfault, -⟩ := hpoll 2 1 0 0
  obtain ⟨t, hexec, -, -, hplots, -⟩ := hfault (by decide +kernel) (by decide)
  have hsame : t.plot 3 = State.secondFault.plot 3 := congrArg (tget Plot.blank · 3) hplots
  exact absurd ((railPoll_secondFault t hexec).symm.trans (congrArg Plot.state hsame)) (by decide +kernel)

end Sys2Proof.Machine
end

section
/-! HK_SAMPLE (R725, R749): the mode a conversion began with. -/

set_option Elab.async false

namespace Sys2Proof.Machine

/-- The conversion of on-die sensor 16 began while the sensor was OFF (as the reset state has it) and has ended. The sensor was set to mode 1
in between. -/
def State.lateMode : State :=
  let s := State.reset.wr F.THM_SENS_CFG.MODE 1 16
  { s with
    clk := { Clk.reset with now := 3000000, running := true }
    pw := { s.pw with next := 16 } }

/-- The sensor counts as OFF for this conversion. -/
theorem hkSample_lateMode (t : State) (h : exec (.hkSample 16 0) State.lateMode = .next t) : t.bit F.THM_SENS_READ.VALID 16 = false := by
  obtain rfl := Host.Outcome.next.inj h
  decide +kernel

/-- Refutes O27: the clause of HK_SAMPLE judges whether a sensor is OFF by MODE as it stands when the conversion ends, and its thresholds by what
they are at the start of that tick. The model, after R749, goes by what stood when the conversion began (`Pw.conf`). -/
theorem not_heatAndShutdown : ¬ Obligations.HeatAndShutdown := by
  unfold Obligations.HeatAndShutdown
  intro h
  obtain ⟨hsample, -⟩ := h State.lateMode
  obtain ⟨hends, -⟩ := hsample 16 0 rfl rfl
  obtain ⟨t, hexec, -, -, -, -, -, -, -, hreads⟩ := hends (by decide)
  obtain ⟨hvalid, -⟩ := hreads (by decide) (by decide) (by decide +kernel)
  exact Bool.noConfusion ((hkSample_lateMode t hexec).symm.trans hvalid)

end Sys2Proof.Machine
end

section
/-! Snapshots, freezes and selectors of the performance counters (R784, R789, R792 to R797, R800, R801). -/

set_option Elab.async false

namespace Sys2Proof.Machine
section
variable {s t : State} {L : List Part} {a b q : RegName} {i j i' j' m n : Nat}

theorem keptBut_pmus (h : s.keptBut t L) (x : Pmu) (m0 : Part.pmus ∈ L) : s.keptBut { t with pmus := x } L := by
  intro p hp
  have h := h p hp
  cases p
  case pmus => exact absurd m0 hp
  all_goals exact h

theorem reg_of_regs (h : t.regs = s.regs) (r : RegName) (i j : Nat) : t.reg r i j = s.reg r i j := by
  rw [State.reg_eq, State.reg_eq, h]

/-! ### Writes of PF0 to PMU_CTL (R792, R794, R797, R800) -/

/-- A snapshot is asked for. -/
def State.snapAsked (s : State) : State :=
  { s.wr F.PMU_CTL.BUSY 1 with pmus := { s.pmus with snapAt := some s.takeAt } }.audit 1 0 0 0x3C00000 (s.reg .PMU_CTL).toNat
    ((s.reg .PMU_CTL).toNat + 2 ^ 31)

theorem snapAsked_regs (s : State) : s.snapAsked.regs = (s.wr F.PMU_CTL.BUSY 1).regs := rfl

theorem snapAsked_kept (s : State) : s.keptBut s.snapAsked [.regs, .auditQ, .pmus] :=
  keptBut_audit (keptBut_pmus (keptBut_wr (keptBut_refl s _) _ _ _ _ (by decide)) _ (by decide)) _ _ _ _ _ _ _ (by decide)

/-- A freeze, or its end, is asked for. -/
def State.freezeAsked (s : State) (b : Bool) : State :=
  { (s.wr F.PMU_CTL.FREEZE b.toNat).auditReg 0x3C00000 (s.reg .PMU_CTL).toNat ((s.wr F.PMU_CTL.FREEZE b.toNat).reg .PMU_CTL).toNat with
    pmus := { s.pmus with frzAt := some (s.takeAt, b) } }

theorem freezeAsked_regs (s : State) (b : Bool) : (s.freezeAsked b).regs = (s.wr F.PMU_CTL.FREEZE b.toNat).regs := auditReg_regs _ _ _ _

theorem freezeAsked_kept (s : State) (b : Bool) : s.keptBut (s.freezeAsked b) [.regs, .auditQ, .pmus] :=
  keptBut_pmus (keptBut_auditReg (keptBut_wr (keptBut_refl s _) _ _ _ _ (by decide)) _ _ _ (by decide)) _ (by decide)

theorem exec_snap (h : s.pfHeld = false) (hbusy : s.bit F.PMU_CTL.BUSY = false) : exec .snap s = .next s.snapAsked := by
  obtain ⟨hfull, hboot⟩ := pfHeld_false h
  show execSnap s = _
  rw [execSnap, orWait_open hfull]
  simp only [hboot, hbusy, Bool.false_eq_true, if_false]
  rfl

theorem exec_snap_busy (h : s.pfHeld = false) (hbusy : s.bit F.PMU_CTL.BUSY = true) : exec .snap s = .next (s.raise F.PMU_CTL.SNAP_REJ) := by
  obtain ⟨hfull, hboot⟩ := pfHeld_false h
  show execSnap s = _
  rw [execSnap, orWait_open hfull]
  simp [hboot, hbusy]

theorem exec_freezeWrite (h : s.pfHeld = false) (b : Bool) : exec (.freezeWrite b) s = .next (s.freezeAsked b) := by
  obtain ⟨hfull, hboot⟩ := pfHeld_false h
  show execFreezeWrite b s = _
  rw [execFreezeWrite, orWait_open hfull]
  simp only [hboot, Bool.false_eq_true, if_false]
  unfold State.freezeAsked State.auditReg onlyIf
  split <;> rfl

theorem takeAt_bounds (s : State) : s.takeAt % 64 = 0 ∧ s.now + 64 ≤ s.takeAt ∧ s.takeAt < s.now + 128 := by
  unfold State.takeAt
  omega

theorem bit_wr_bool {f : Fld} (h : f.fits) (hlen : f.len = 1) (b : Bool) : (s.wr f b.toNat i j).bit f i j = b := by
  rw [bit_wr_same h hlen]
  cases b <;> rfl

/-! ### The copy of the counters to their shadows (R793) -/

/-- A shadow takes its counter's value at the beginning of the tick. -/
def State.copyOne (s : State) (a b : RegName) (i j : Nat) : State := s.setReg b i j (tget (a.reset i j) s.pmus.stash (regKey a i j))

/-- The first `n` shadows of row `i`. -/
def State.copyRow (s : State) (a b : RegName) (n i : Nat) : State := (List.range n).foldl (fun s j => s.copyOne a b i j) s

/-- The first `n` shadows of each of the first `m` rows. -/
def State.copyRows (s : State) (a b : RegName) (m n : Nat) : State := (List.range m).foldl (fun s i => s.copyRow a b n i) s

theorem copyShadow_eq (s : State) (a b : RegName) : s.copyShadow a b = s.copyRows a b a.desc.iN (a.desc.jN * a.desc.lN) := rfl

@[simp] theorem pmus_copyRow (s : State) : (s.copyRow a b n i).pmus = s.pmus :=
  foldl_keep State.pmus _ (fun s j => s.copyOne a b i j) (fun _ _ => rfl) s

@[simp] theorem pmus_copyRows (s : State) : (s.copyRows a b m n).pmus = s.pmus :=
  foldl_keep State.pmus _ (fun s i => s.copyRow a b n i) (fun _ _ => pmus_copyRow _) s

theorem copyRow_kept (s : State) : s.keptBut (s.copyRow a b n i) [.regs] :=
  keptBut_foldl _ _ (fun u _ => keptBut_setReg (keptBut_refl u _) _ _ _ _ (by decide)) (keptBut_refl s _)

theorem copyShadow_kept (s : State) : s.keptBut (s.copyShadow a b) [.regs] :=
  keptBut_foldl _ _ (fun u _ => copyRow_kept u) (keptBut_refl s _)

theorem reg_copyRow_other (h : q ≠ b) (s : State) : (s.copyRow a b n i).reg q i' j' = s.reg q i' j' :=
  foldl_keep (fun s : State => s.reg q i' j') _ _ (fun _ _ => reg_setReg_other h _ _ _) s

theorem reg_copyShadow_other (h : q ≠ b) (s : State) : (s.copyShadow a b).reg q i' j' = s.reg q i' j' :=
  foldl_keep (fun s : State => s.reg q i' j') _ _ (fun _ _ => reg_copyRow_other h _) s

theorem reg_copyRow_elem (h : i' % 2 ^ 14 ≠ i % 2 ^ 14) (s : State) : (s.copyRow a b n i).reg b i' j' = s.reg b i' j' :=
  foldl_keep (fun s : State => s.reg b i' j') _ _ (fun _ _ => reg_setReg_elem (.inl h) _) s

theorem copyRow_succ (s : State) : s.copyRow a b (n + 1) i = (s.copyRow a b n i).copyOne a b i n := by
  rw [State.copyRow, List.range_succ, List.foldl_append]
  rfl

theorem copyRows_succ (s : State) : s.copyRows a b (m + 1) n = (s.copyRows a b m n).copyRow a b n m := by
  rw [State.copyRows, List.range_succ, List.foldl_append]
  rfl

theorem reg_copyRow (hn : n ≤ 2 ^ 14) (hj : j < n) (s : State) :
    (s.copyRow a b n i).reg b i j = tget (a.reset i j) s.pmus.stash (regKey a i j) := by
  induction n with
  | zero => exact absurd hj (Nat.not_lt_zero j)
  | succ n ih =>
    rw [copyRow_succ, State.copyOne, pmus_copyRow]
    by_cases hlast : j = n
    · subst hlast
      exact reg_setReg_same _
    · rw [reg_setReg_elem (.inr (by omega))]
      exact ih (by omega) (by omega)

theorem reg_copyRows (hm : m ≤ 2 ^ 14) (hn : n ≤ 2 ^ 14) (hi : i < m) (hj : j < n) (s : State) :
    (s.copyRows a b m n).reg b i j = tget (a.reset i j) s.pmus.stash (regKey a i j) := by
  induction m with
  | zero => exact absurd hi (Nat.not_lt_zero i)
  | succ m ih =>
    rw [copyRows_succ]
    by_cases hlast : i = m
    · subst hlast
      rw [reg_copyRow hn hj, pmus_copyRows]
    · rw [reg_copyRow_elem (by omega)]
      exact ih (by omega) (by omega)

/-- Every family of `l` is copied. -/
def State.copyAll (s : State) (l : List (RegName × RegName)) : State := l.foldl (fun (s : State) e => s.copyShadow e.1 e.2) s

theorem copyAll_kept (s : State) (l : List (RegName × RegName)) : s.keptBut (s.copyAll l) [.regs] :=
  keptBut_foldl _ _ (fun u _ => copyShadow_kept u) (keptBut_refl s _)

theorem reg_copyAll_other {l : List (RegName × RegName)} (h : ∀ e ∈ l, q ≠ e.2) (s : State) : (s.copyAll l).reg q i j = s.reg q i j :=
  foldl_inv (fun u : State => u.reg q i j = s.reg q i j) _ _ (fun _ e he hu => (reg_copyShadow_other (h e he) _).trans hu) s rfl

theorem reg_copyAll {l : List (RegName × RegName)} {e : RegName × RegName} (he : e ∈ l) (hl : l.Pairwise fun x y => x.2 ≠ y.2)
    (hi : i < e.1.desc.iN) (hj : j < e.1.desc.jN * e.1.desc.lN) (hiN : e.1.desc.iN ≤ 2 ^ 14) (hjN : e.1.desc.jN * e.1.desc.lN ≤ 2 ^ 14)
    (s : State) : (s.copyAll l).reg e.2 i j = tget (e.1.reset i j) s.pmus.stash (regKey e.1 i j) := by
  induction l generalizing s with
  | nil => cases he
  | cons x l ih =>
    obtain ⟨hx, hl⟩ := List.pairwise_cons.1 hl
    show ((s.copyShadow x.1 x.2).copyAll l).reg e.2 i j = _
    rcases List.mem_cons.1 he with rfl | he
    · rw [reg_copyAll_other hx, copyShadow_eq, reg_copyRows hiN hjN hi hj]
    · rw [ih he hl, copyShadow_eq, pmus_copyRows]

/-- The snapshot of tick `n` is complete. -/
def State.snapDone (s : State) (n : Nat) : State :=
  { (s.wr F.PMU_SNAPTS.STAMP n).wr F.PMU_CTL.BUSY 0 with pmus := { s.pmus with snapAt := none, stash := [] } }

theorem snapDone_regs (s : State) : (s.snapDone n).regs = ((s.wr F.PMU_SNAPTS.STAMP n).wr F.PMU_CTL.BUSY 0).regs := rfl

theorem reg_snapDone (h1 : q ≠ .PMU_CTL) (h2 : q ≠ .PMU_SNAPTS) (s : State) : (s.snapDone n).reg q i j = s.reg q i j :=
  (reg_of_regs (snapDone_regs s) q i j).trans ((reg_wr_other h1 _ _ _).trans (reg_wr_other h2 _ _ _))

theorem busy_snapDone (s : State) : (s.snapDone n).bit F.PMU_CTL.BUSY = false :=
  (bit_of_regs (snapDone_regs s) _ _ _).trans (bit_wr_same (by decide) rfl 0)

theorem stamp_snapDone (s : State) : (s.snapDone n).rd F.PMU_SNAPTS.STAMP = n % 2 ^ F.PMU_SNAPTS.STAMP.len :=
  (rd_of_regs (snapDone_regs s) _ _ _).trans
    ((rd_wr_other (f := F.PMU_CTL.BUSY) (g := F.PMU_SNAPTS.STAMP) (by decide) _ _ _).trans (rd_wr_same (by decide) n))

theorem snapDone_kept (s : State) : s.keptBut (s.snapDone n) [.regs, .pmus] :=
  keptBut_pmus (keptBut_wr (keptBut_wr (keptBut_refl s _) _ _ _ _ (by decide)) _ _ _ _ (by decide)) _ (by decide)

theorem exec_snapshotTake (h : s.pmus.snapAt = some n) (hn : n ≤ s.now) :
    exec .snapshotTake s = .next ((s.copyAll shadowed).snapDone n) := by
  show execSnapshotTake s = _
  simp only [execSnapshotTake, h, if_neg (Nat.not_lt.2 hn)]
  rfl

theorem exec_snapshotTake_early (h : s.pmus.snapAt = some n) (hn : s.now < n) : exec .snapshotTake s = .next s := by
  show execSnapshotTake s = _
  simp only [execSnapshotTake, h, if_pos hn]

/-- A freeze, or its end, takes effect. -/
def State.freezeDone (s : State) (n : Nat) (b : Bool) : State :=
  { (s.wr F.PMU_CTL.FROZEN b.toNat).wr F.PMU_FREEZETS.STAMP n with pmus := { s.pmus with frzAt := none } }

theorem freezeDone_regs (s : State) (b : Bool) :
    (s.freezeDone n b).regs = ((s.wr F.PMU_CTL.FROZEN b.toNat).wr F.PMU_FREEZETS.STAMP n).regs := rfl

theorem freezeDone_kept (s : State) (b : Bool) : s.keptBut (s.freezeDone n b) [.regs, .pmus] :=
  keptBut_pmus (keptBut_wr (keptBut_wr (keptBut_refl s _) _ _ _ _ (by decide)) _ _ _ _ (by decide)) _ (by decide)

theorem freezeDone_onlyRegs (s : State) (b : Bool) : s.onlyRegs (s.freezeDone n b) [(.PMU_CTL, 0, 0), (.PMU_FREEZETS, 0, 0)] :=
  onlyRegs_regs (onlyRegs_wr (onlyRegs_wr (onlyRegs_refl s _) _ _ _ _ (by decide)) F.PMU_FREEZETS.STAMP n 0 0 (by decide)) (freezeDone_regs s b)

theorem frozen_freezeDone (s : State) (b : Bool) : (s.freezeDone n b).bit F.PMU_CTL.FROZEN = b :=
  (bit_of_regs (freezeDone_regs s b) _ _ _).trans ((bit_wr_other (by decide) _ _ _).trans (bit_wr_bool (by decide) rfl b))

theorem stamp_freezeDone (s : State) (b : Bool) : (s.freezeDone n b).rd F.PMU_FREEZETS.STAMP = n % 2 ^ F.PMU_FREEZETS.STAMP.len :=
  (rd_of_regs (freezeDone_regs s b) _ _ _).trans (rd_wr_same (by decide) n)

theorem exec_freezeApply {b : Bool} (h : s.pmus.frzAt = some (n, b)) (hn : n ≤ s.now) (hsnap : ∀ m, s.pmus.snapAt = some m → n < m) :
    exec .freezeApply s = .next (s.freezeDone n b) := by
  have hlate : (s.pmus.snapAt.any fun u => decide (u ≤ n)) = false := by
    cases hs : s.pmus.snapAt with
    | none => rfl
    | some m => simpa using hsnap m hs
  show execFreezeApply s = _
  simp [execFreezeApply, h, hlate, Nat.not_lt.2 hn, State.freezeDone]

theorem exec_freezeApply_waits {b : Bool} (h : s.pmus.frzAt = some (n, b)) (hwait : s.now < n ∨ ∃ m, s.pmus.snapAt = some m ∧ m ≤ n) :
    exec .freezeApply s = .next s := by
  show execFreezeApply s = _
  rcases hwait with hn | ⟨m, hm, hle⟩
  · simp [execFreezeApply, h, hn]
  · simp [execFreezeApply, h, hm, hle]

/-! ### Selectors (R23, R789, R801) -/

/-- The word a selector takes from a write of `v`. -/
def State.selWord (s : State) (u : Fin 28) (i : Fin 8) (v : W32) : Nat :=
  bitsOf v 31 30 <<< 30 + (if u.val < 12 then bitsOf v 23 16 else (s.reg (selReg u) (unitIx u) i).toNat >>> 16 % 256) <<< 16 + bitsOf v 7 0

/-- The state with selector and counter written. -/
def State.selected (s : State) (u : Fin 28) (i : Fin 8) (v : W32) : State :=
  (s.setReg (selReg u) (unitIx u) i (BitVec.ofNat 64 (s.selWord u i v))).setReg (cntReg u) (unitIx u) i 0

/-- The audit entry of a selector's write, where it changes something. -/
def State.selAudited (s : State) (c : Bool) (u : Fin 28) (i : Fin 8) (old new : Nat) : State :=
  onlyIf c (s.audit 1 0 0 (regOff (selReg u) (unitIx u) i) old new) s

/-- A counter is fresh in the present cycle. -/
def State.freshSel (s : State) (n : Nat) : State := { s with pmus := { s.pmus with fresh := s.pmus.fresh ++ [n] } }

theorem selAudited_kept (c : Bool) (u : Fin 28) (i : Fin 8) (old new : Nat) : s.keptBut (s.selAudited c u i old new) [.auditQ] :=
  keptBut_onlyIf _ (keptBut_audit (keptBut_refl s _) _ _ _ _ _ _ _ (by decide)) (keptBut_refl s _)

theorem selAudited_regs (c : Bool) (u : Fin 28) (i : Fin 8) (old new : Nat) : (s.selAudited c u i old new).regs = s.regs :=
  (selAudited_kept c u i old new .regs (by decide)).1

theorem exec_pmuSelWrite (h : s.pfHeld = false) (u : Fin 28) (i : Fin 8) (v : W32) :
    ∃ c, exec (.pmuSelWrite u i v) s = .next (((s.selected u i v).selAudited c u i (s.reg (selReg u) (unitIx u) i).toNat (s.selWord u i v)).freshSel
      (u.val * 8 + i.val)) := by
  obtain ⟨hfull, hboot⟩ := pfHeld_false h
  refine ⟨(s.reg (selReg u) (unitIx u) i).toNat != s.selWord u i v || (s.reg (cntReg u) (unitIx u) i).toNat != 0, ?_⟩
  show execPmuSelWrite u i v s = _
  rw [execPmuSelWrite, orWait_open hfull]
  simp only [hboot, Bool.false_eq_true, if_false]
  rfl

theorem cntReg_ne_selReg (u : Nat) : selReg u ≠ cntReg u := by
  unfold selReg cntReg
  split <;> decide

theorem reg_selected_sel (u : Fin 28) (i : Fin 8) (v : W32) :
    ((s.selected u i v).reg (selReg u) (unitIx u) i) = BitVec.ofNat 64 (s.selWord u i v) := by
  rw [State.selected, reg_setReg_other (cntReg_ne_selReg u), reg_setReg_same]

theorem selWord_fields {hi ctx lo : Nat} (hhi : hi < 4) (hctx : ctx < 256) (hlo : lo < 256) :
    (BitVec.ofNat 64 (hi <<< 30 + ctx <<< 16 + lo)).toNat % 256 = lo ∧ (BitVec.ofNat 64 (hi <<< 30 + ctx <<< 16 + lo)).toNat / 2 ^ 30 = hi ∧
      (BitVec.ofNat 64 (hi <<< 30 + ctx <<< 16 + lo)).toNat / 65536 % 256 = ctx := by
  rw [BitVec.toNat_ofNat, Nat.shiftLeft_eq, Nat.shiftLeft_eq]
  omega

theorem selected_onlyRegs (u : Fin 28) (i : Fin 8) (v : W32) :
    s.onlyRegs (s.selected u i v) [(selReg u, unitIx u, i), (cntReg u, unitIx u, i)] := by
  have hx : unitIx u % 2 ^ 14 = unitIx u := Nat.mod_eq_of_lt (by unfold unitIx; split <;> omega)
  have hi : i.val % 2 ^ 14 = i := Nat.mod_eq_of_lt (by omega)
  refine onlyRegs_setReg (onlyRegs_setReg (onlyRegs_refl s _) _ _ _ _ ?_) _ _ _ _ ?_
  · rw [hx, hi]
    exact List.mem_cons_self
  · rw [hx, hi]
    exact List.mem_cons_of_mem _ List.mem_cons_self

theorem selected_kept (u : Fin 28) (i : Fin 8) (v : W32) : s.keptBut (s.selected u i v) [.regs, .auditQ, .pmus] :=
  keptBut_setReg (keptBut_setReg (keptBut_refl s _) _ _ _ _ (by decide)) _ _ _ _ (by decide)

end

/-- Settles O30, command by command: the words written, and for SNAPSHOT_TAKE the copy of every family. -/
theorem countersAndSnapshots : Obligations.CountersAndSnapshots := by
  unfold Obligations.CountersAndSnapshots
  intro s
  refine ⟨fun hheld => ⟨fun hbusy => ?_, fun hbusy => ?_, fun b => ?_, fun u i v => ?_⟩, fun n hsnap => ⟨fun hn => ?_, exec_snapshotTake_early hsnap⟩,
    fun n b hfrz => ⟨fun hn hsnap => ?_, fun hn => exec_freezeApply_waits hfrz (.inl hn), fun m hm hle => exec_freezeApply_waits hfrz (.inr ⟨m, hm, hle⟩)⟩⟩
  · obtain ⟨h64, hlo, hhi⟩ := takeAt_bounds s
    exact ⟨_, s.takeAt, exec_snap hheld hbusy, (bit_of_regs (snapAsked_regs s) _ _ _).trans (bit_wr_same (by decide) rfl 1), rfl, h64, hlo, hhi,
      snapAsked_kept s, onlyRegs_regs (onlyRegs_wr (onlyRegs_refl s _) F.PMU_CTL.BUSY 1 0 0 (by decide)) (snapAsked_regs s)⟩
  · exact ⟨_, exec_snap_busy hheld hbusy, bit_wr_same (by decide) rfl 1, keptBut_raise (keptBut_refl s _) _ _ _ (by decide),
      onlyRegs_raise (onlyRegs_refl s _) _ _ _ (by decide)⟩
  · obtain ⟨h64, hlo, hhi⟩ := takeAt_bounds s
    refine ⟨_, s.takeAt, exec_freezeWrite hheld b, ?_, rfl, h64, hlo, hhi, ?_, freezeAsked_kept s b, ?_⟩
    · exact (bit_of_regs (freezeAsked_regs s b) _ _ _).trans (bit_wr_bool (by decide) rfl b)
    · exact (bit_of_regs (freezeAsked_regs s b) _ _ _).trans (congrArg (· == 1) (rd_wr_apart (by decide) (by decide) _))
    · exact onlyRegs_regs (onlyRegs_wr (onlyRegs_refl s _) F.PMU_CTL.FREEZE _ 0 0 (by decide)) (freezeAsked_regs s b)
  · obtain ⟨c, hexec⟩ := exec_pmuSelWrite hheld u i v
    have hsame := reg_of_regs (s := s.selected u i v) (selAudited_regs c u i (s.reg (selReg u) (unitIx u) i).toNat (s.selWord u i v))
    obtain ⟨hlow, hhigh, hctx⟩ := selWord_fields (hi := bitsOf v 31 30) (lo := bitsOf v 7 0)
      (ctx := if u.val < 12 then bitsOf v 23 16 else (s.reg (selReg u) (unitIx u) i).toNat >>> 16 % 256)
      (Nat.mod_lt _ (by decide)) (by split <;> exact Nat.mod_lt _ (by decide)) (Nat.mod_lt _ (by decide))
    have hsel := (hsame (selReg u) (unitIx u) i).trans (reg_selected_sel u i v)
    refine ⟨_, hexec, (hsame _ _ _).trans (reg_setReg_same 0), ?_, ?_, fun hu => ?_, fun hu => ?_, ?_, ?_⟩
    · exact (congrArg (BitVec.toNat · % 256) hsel).trans hlow
    · refine (congrArg (BitVec.toNat · / 2 ^ 30) hsel).trans (hhigh.trans ?_)
      have := v.isLt
      simp only [bitsOf, Nat.shiftRight_eq_div_pow]
      omega
    · refine (congrArg (BitVec.toNat · / 65536 % 256) hsel).trans (hctx.trans ?_)
      rw [if_pos hu, bitsOf, Nat.shiftRight_eq_div_pow]
      rfl
    · refine (congrArg (BitVec.toNat · / 65536 % 256) hsel).trans (hctx.trans ?_)
      rw [if_neg (Nat.not_lt.2 hu), Nat.shiftRight_eq_div_pow]
    · exact keptBut_pmus (keptBut_trans (selected_kept u i v) (keptBut_mono (selAudited_kept c u i _ _) (by decide))) _ (by decide)
    · exact fun r x y hr => (hsame r x y).trans (selected_onlyRegs u i v r x y hr)
  · have hpmus : (s.copyAll shadowed).pmus = s.pmus := copyAll_kept s shadowed .pmus (by decide)
    refine ⟨_, exec_snapshotTake hsnap hn, busy_snapDone _, stamp_snapDone _, ?_, fun e he i j hi hj => ⟨?_, ?_⟩, ?_⟩
    · exact congrArg (fun x : Pmu => { x with snapAt := none, stash := [] }) hpmus
    · have hsizes : ∀ e ∈ shadowed, e.1.desc.iN ≤ 2 ^ 14 ∧ e.1.desc.jN * e.1.desc.lN ≤ 2 ^ 14 ∧ e.2 ≠ .PMU_CTL ∧ e.2 ≠ .PMU_SNAPTS := by decide
      obtain ⟨hiN, hjN, hctl, hts⟩ := hsizes e he
      exact (reg_snapDone hctl hts _).trans (reg_copyAll he (by decide) hi hj hiN hjN s)
    · have hcounters : ∀ e ∈ shadowed, e.1 ≠ .PMU_CTL ∧ e.1 ≠ .PMU_SNAPTS ∧ ∀ x ∈ shadowed, e.1 ≠ x.2 := by decide
      obtain ⟨hctl, hts, hother⟩ := hcounters e he
      exact (reg_snapDone hctl hts _).trans (reg_copyAll_other hother s)
    · exact keptBut_trans (keptBut_mono (copyAll_kept s shadowed) (by decide)) (snapDone_kept _)
  · exact ⟨_, exec_freezeApply hfrz hn hsnap, frozen_freezeDone s b, stamp_freezeDone s b, rfl, freezeDone_kept s b, freezeDone_onlyRegs s b⟩

end Sys2Proof.Machine
end

section
/-! Frames by parts of the state and by register families: what an operation made of others may change at most. -/

set_option Elab.async false

namespace Sys2Proof.Machine

/-- From `s` to `t` only the parts of `L`, and of the registers only the families of `R`, may change. -/
structure Frame (L : List Part) (R : List RegName) (s t : State) : Prop where
  kept : s.keptBut t L
  regs : ∀ r ∉ R, ∀ i j, t.reg r i j = s.reg r i j

section
variable {L : List Part} {R : List RegName} {s t u : State}

/-! ### What a frame gives -/

theorem Frame.rd (h : Frame L R s t) {f : Fld} (i j : Nat) (hf : f.reg ∉ R := by decide) : t.rd f i j = s.rd f i j := by
  unfold State.rd
  rw [h.regs _ hf]

theorem Frame.bit (h : Frame L R s t) {f : Fld} (i j : Nat) (hf : f.reg ∉ R := by decide) : t.bit f i j = s.bit f i j :=
  congrArg (· == 1) (h.rd i j hf)

theorem Frame.part (h : Frame L R s t) (p : Part) (hp : p ∉ L := by decide) : s.kept t p := h.kept p hp

/-! ### How frames are put together -/

theorem Frame.refl (L : List Part) (R : List RegName) (s : State) : Frame L R s s := ⟨keptBut_refl s L, fun _ _ _ _ => rfl⟩

theorem Frame.trans (h : Frame L R s t) (g : Frame L R t u) : Frame L R s u :=
  ⟨keptBut_trans h.kept g.kept, fun r hr i j => (g.regs r hr i j).trans (h.regs r hr i j)⟩

theorem Frame.mono {L' : List Part} {R' : List RegName} (h : Frame L R s t) (hL : ∀ p ∈ L, p ∈ L' := by decide)
    (hR : ∀ r ∈ R, r ∈ R' := by decide) : Frame L' R' s t :=
  ⟨keptBut_mono h.kept hL, fun r hr => h.regs r fun hm => hr (hR r hm)⟩

/-- An operation with a frame of its own follows. -/
theorem Frame.after {L' : List Part} {R' : List RegName} (h : Frame L R s t) (g : Frame L' R' t u) (hL : ∀ p ∈ L', p ∈ L := by decide)
    (hR : ∀ r ∈ R', r ∈ R := by decide) : Frame L R s u := h.trans (g.mono hL hR)

theorem Frame.ite {c : Prop} [Decidable c] (h : Frame L R s t) (g : Frame L R s u) : Frame L R s (if c then t else u) := by
  split <;> assumption

theorem Frame.onlyIf {c : Bool} (h : Frame L R s t) (g : Frame L R s u) : Frame L R s (onlyIf c t u) := Frame.ite h g

theorem Frame.foldl {α : Type} {xs : List α} {f : State → α → State} (h : Frame L R s t) (hf : ∀ (u : State) x, Frame L R u (f u x)) :
    Frame L R s (xs.foldl f t) :=
  foldl_inv (fun u => Frame L R s u) xs f (fun u x _ hu => hu.trans (hf u x)) t h

/-! ### One rule per update -/

/-- An update of parts other than the registers. -/
theorem Frame.update (h : Frame L R s t) (hk : t.keptBut u L) (hr : u.regs = t.regs) : Frame L R s u :=
  ⟨keptBut_trans h.kept hk, fun r hm i j => (reg_of_regs hr r i j).trans (h.regs r hm i j)⟩

theorem Frame.setReg {r : RegName} {i j : Nat} {v : W64} (h : Frame L R s t) (hR : r ∈ R := by decide) (hL : Part.regs ∈ L := by decide) :
    Frame L R s (t.setReg r i j v) :=
  ⟨keptBut_setReg h.kept r i j v hL, fun _ hm _ _ => (reg_setReg_other (ne_of_mem_of_not_mem hR hm).symm v _ _).trans (h.regs _ hm _ _)⟩

theorem Frame.wr {f : Fld} {v i j : Nat} (h : Frame L R s t) (hR : f.reg ∈ R := by decide) (hL : Part.regs ∈ L := by decide) :
    Frame L R s (t.wr f v i j) :=
  ⟨keptBut_wr h.kept f v i j hL, fun _ hm _ _ => (reg_wr_other (ne_of_mem_of_not_mem hR hm).symm v _ _).trans (h.regs _ hm _ _)⟩

/-- Fields set by events: the registers are those of a plain write. -/
theorem Frame.event {f : Fld} {v i j : Nat} (h : Frame L R s t) (hu : s.keptBut u L) (hregs : u.regs = (t.wr f v i j).regs)
    (hR : f.reg ∈ R := by decide) (hL : Part.regs ∈ L := by decide) : Frame L R s u :=
  ⟨hu, fun r hm i' j' => (reg_of_regs hregs r i' j').trans ((h.wr (v := v) (i := i) (j := j) hR hL).regs r hm i' j')⟩

theorem Frame.setMap {f : Fld} {b i j : Nat} {v : Bool} (h : Frame L R s t) (hR : f.reg ∈ R := by decide) (hL : Part.regs ∈ L := by decide) :
    Frame L R s (t.setMap f b v i j) := h.wr hR hL

theorem Frame.incSat {f : Fld} {i j n : Nat} (h : Frame L R s t) (hR : f.reg ∈ R := by decide) (hL : Part.regs ∈ L := by decide) :
    Frame L R s (t.incSat f i j n) := h.wr hR hL

theorem Frame.incWrap {f : Fld} {i j n : Nat} (h : Frame L R s t) (hR : f.reg ∈ R := by decide) (hL : Part.regs ∈ L := by decide) :
    Frame L R s (t.incWrap f i j n) := h.wr hR hL

theorem Frame.raise {f : Fld} {i j : Nat} (h : Frame L R s t) (hR : f.reg ∈ R := by decide) (hL : Part.regs ∈ L := by decide) :
    Frame L R s (t.raise f i j) := h.event (keptBut_raise h.kept f i j hL) rfl hR hL

theorem Frame.raiseBit {f : Fld} {b i j : Nat} (h : Frame L R s t) (hR : f.reg ∈ R := by decide) (hL : Part.regs ∈ L := by decide) :
    Frame L R s (t.raiseBit f b i j) := h.event (keptBut_raiseBit h.kept f b i j hL) rfl hR hL

theorem Frame.incRc {f : Fld} {i j n : Nat} (h : Frame L R s t) (hR : f.reg ∈ R := by decide) (hL : Part.regs ∈ L := by decide) :
    Frame L R s (t.incRc f i j n) := h.event (keptBut_incRc h.kept f i j n hL) rfl hR hL

theorem Frame.maxRc {f : Fld} {v i j : Nat} (h : Frame L R s t) (hR : f.reg ∈ R := by decide) (hL : Part.regs ∈ L := by decide) :
    Frame L R s (t.maxRc f v i j) := h.event (keptBut_maxRc h.kept f v i j hL) rfl hR hL

theorem Frame.clearReg {r : RegName} {i j : Nat} (h : Frame L R s t) (hR : r ∈ R := by decide) (hL : Part.regs ∈ L := by decide) :
    Frame L R s (t.clearReg r i j) := by
  refine ⟨keptBut_clearReg h.kept r i j hL, fun q hm i' j' => Eq.trans ?_ (h.regs q hm i' j')⟩
  rw [State.reg_eq, clearReg_regs, regIn_tdel_other _ (ne_of_mem_of_not_mem hR hm).symm, ← State.reg_eq]

theorem Frame.send {o : Output} (h : Frame L R s t) (hL : Part.out ∈ L := by decide) : Frame L R s (t.send o) :=
  h.update (keptBut_send (keptBut_refl t L) o hL) rfl

theorem Frame.audit {a b c d e f : Nat} {g : BitVec 256} (h : Frame L R s t) (hL : Part.auditQ ∈ L := by decide) :
    Frame L R s (t.audit a b c d e f g) := h.update (keptBut_audit (keptBut_refl t L) a b c d e f g hL) rfl

theorem Frame.auditReg {off old new : Nat} (h : Frame L R s t) (hL : Part.auditQ ∈ L := by decide) : Frame L R s (t.auditReg off old new) :=
  h.update (keptBut_auditReg (keptBut_refl t L) off old new hL) (auditReg_regs t off old new)

theorem Frame.setCredit {k p : Nat} {c : Credit} (h : Frame L R s t) (hL : Part.credits ∈ L := by decide) : Frame L R s (t.setCredit k p c) :=
  h.update (keptBut_setCredit (keptBut_refl t L) k p c hL) rfl

theorem Frame.evt {a b c : Nat} (h : Frame L R s t) (hL : Part.pmus ∈ L := by decide) : Frame L R s (t.evt a b c) :=
  h.update (keptBut_evt (keptBut_refl t L) a b c hL) rfl

theorem Frame.setAttn {n : Nat} {v : Bool} (h : Frame L R s t) (hR : RegName.GLOBAL_ATTN_PENDING ∈ R := by decide)
    (hL : Part.regs ∈ L := by decide) : Frame L R s (t.setAttn n v) := h.setMap hR hL

/-- The parts and registers of an error record (R627). -/
theorem record_frame (e : ErrRec) : Frame [.regs, .recs, .recTick, .recLast] [.RAS_RECHEAD, .RAS_RECLOST] s (s.record e) :=
  ⟨record_kept e, fun r hr i j => reg_record (by rintro rfl; simp at hr) (by rintro rfl; simp at hr) i j⟩

theorem Frame.record {e : ErrRec} (h : Frame L R s t) (hL : ∀ p ∈ [Part.regs, .recs, .recTick, .recLast], p ∈ L := by decide)
    (hR : ∀ r ∈ [RegName.RAS_RECHEAD, .RAS_RECLOST], r ∈ R := by decide) : Frame L R s (t.record e) := h.after (record_frame e) hL hR

end
end Sys2Proof.Machine
end

section
/-! The operations of the mirror pair (chapter "Pairing two complexes"): their frames, and what they do to windows, ports and writes. -/

set_option Elab.async false

namespace Sys2Proof.Machine
section
variable {L : List Part} {R : List RegName} {s t u : State} {w p k : Nat}

theorem keptBut_mir (h : s.keptBut t L) (x : Mir) (m0 : Part.mir ∈ L) : s.keptBut { t with mir := x } L := by
  intro p hp
  have h := h p hp
  cases p
  case mir => exact absurd m0 hp
  all_goals exact h

theorem Frame.modMir {f : Mir → Mir} (h : Frame L R s t) (hL : Part.mir ∈ L := by decide) : Frame L R s (t.modMir f) :=
  h.update (keptBut_mir (keptBut_refl t L) (f t.mir) hL) rfl

theorem Frame.holds_locks {T : List Lock} {H : Tbl (Option Hold)} (h : Frame L R s t) (hl : Part.locks ∈ L := by decide)
    (hh : Part.holds ∈ L := by decide) : Frame L R s { t with locks := T, holds := H } :=
  h.update (keptBut_holds (keptBut_locks (keptBut_refl t L) T hl) H hh) rfl

theorem Frame.flights {l : List Flight} (h : Frame L R s t) (hL : Part.flights ∈ L := by decide) : Frame L R s { t with flights := l } :=
  h.update (keptBut_flights (keptBut_refl t L) l hL) rfl

/-! ### Frames -/

theorem frameOut_frame (s : State) (p kind win epoch owner blen : Nat) (o : Output) :
    Frame [.out, .mir] [] s (s.frameOut p kind win epoch owner blen o) := by
  unfold State.frameOut
  exact ((Frame.refl _ _ s).send.send).modMir

theorem sendFrame_frame (s : State) (p : Nat) (m : MirMsg) : Frame [.out, .mir] [] s (s.sendFrame p m) := by
  unfold State.sendFrame
  refine Frame.onlyIf ?_ (Frame.refl _ _ s)
  cases m <;> exact frameOut_frame s _ _ _ _ _ _ _

theorem sendMirror_frame (s : State) (q : MirWrite) : Frame [.out, .mir] [] s (s.sendMirror q) := by
  unfold State.sendMirror
  split
  · exact Frame.refl _ _ s
  · exact (Frame.refl _ _ s).modMir.after (sendFrame_frame _ _ _)

theorem mirPump_frame (s : State) : Frame [.out, .mir] [] s s.mirPump := (Frame.refl _ _ s).foldl fun u q => sendMirror_frame u q

theorem missTap_frame (s : State) (n : Nat) : Frame [.mir] [] s (s.missTap n) := (Frame.refl _ _ s).modMir

theorem setWinState_frame (s : State) (w v : Nat) : Frame [.regs] [.MIR_ACT_CTL] s (s.setWinState w v) := (Frame.refl _ _ s).wr

theorem diverge_frame (s : State) (w : Nat) : Frame [.regs, .mir] [.MIR_ACT_CTL] s (s.diverge w) := by
  unfold State.diverge
  split
  · exact Frame.refl _ _ s
  · have hmiss := ((Frame.refl [.regs, .mir] [.MIR_ACT_CTL] s).after (setWinState_frame s w 4)).foldl
      (xs := s.mir.writes.filter fun q => q.w == w && q.st == .queued) (f := fun s q => s.missTap q.stamp) fun u q => (missTap_frame u _).mono
    exact hmiss.modMir

theorem pauseWins_frame (s : State) : Frame [.regs, .mir] [.MIR_ACT_CTL] s s.pauseWins :=
  (Frame.refl _ _ s).foldl fun u w => Frame.ite (((Frame.refl _ _ u).after (setWinState_frame u w 3)).modMir) (Frame.refl _ _ u)

theorem resumeWins_frame (s : State) : Frame [.regs, .mir] [.MIR_ACT_CTL] s s.resumeWins :=
  (Frame.refl _ _ s).foldl fun u w => Frame.ite (((Frame.refl _ _ u).after (setWinState_frame u w _)).modMir) (Frame.refl _ _ u)

theorem mirWidths_frame (s : State) : Frame [.regs, .mir] [.MIR_ACT_CTL] s s.mirWidths :=
  Frame.ite (Frame.refl _ _ s) (Frame.ite (pauseWins_frame s) (resumeWins_frame s))

theorem syncDegraded_frame (s : State) : Frame [.regs] [.GLOBAL_ATTN_PENDING] s s.syncDegraded := (Frame.refl _ _ s).setAttn

/-- What the link of a port leaves changed as it goes down (R150). -/
theorem linkDown_frame (s : State) (p : Nat) :
    Frame [.regs, .flights, .credits, .locks, .holds] [.PORT_LINK, .PORT_LINKCNT] s (s.linkDown p) := by
  have hlink : Frame [.regs, .flights, .credits, .locks, .holds] [.PORT_LINK, .PORT_LINKCNT] s
      ((s.wr F.PORT_LINK.UP 0 p).incRc F.PORT_LINKCNT.DOWNS p) := ((Frame.refl _ _ s).wr).incRc
  exact (hlink.flights.foldl fun u k => (Frame.refl _ _ u).setCredit).holds_locks

theorem mirStop_frame (s : State) (p : Nat) :
    Frame [.regs, .flights, .credits, .locks, .holds] [.MIR_PORT, .PORT_LINK, .PORT_LINKCNT, .GLOBAL_ATTN_PENDING] s (s.mirStop p) :=
  Frame.onlyIf ((((Frame.refl _ _ s).wr.wr).after (linkDown_frame _ _)).after (syncDegraded_frame _)) (Frame.refl _ _ s)

/-- PORT_EFF of a port takes its values, or clears (R143 to R145). -/
theorem setEff_frame (s : State) (p : Nat) (d : W64) : Frame [.regs] [.PORT_EFF] s (s.setEff p d) :=
  Frame.ite (Frame.refl _ _ s).clearReg (Frame.refl _ _ s).wr.wr.wr.wr.wr

theorem linkUp_frame (s : State) (p : Nat) (d : W64) : Frame [.regs, .credits] [.PORT_LINK, .PORT_CAP, .PORT_EFF] s (s.linkUp p d) := by
  have hup : Frame [.regs, .credits] [.PORT_LINK, .PORT_CAP, .PORT_EFF] s
      ((((s.wr F.PORT_LINK.UP 1 p).incWrap F.PORT_LINK.EPOCH p).setReg .PORT_CAP p 0 d).setEff p d) :=
    ((Frame.refl _ _ s).wr.incWrap.setReg).after (setEff_frame _ _ _)
  exact Frame.onlyIf (hup.foldl fun u k => (Frame.refl _ _ u).setCredit) hup

theorem mirStart_frame (s : State) (p : Nat) :
    Frame [.regs, .credits, .out, .mir] [.MIR_PORT, .PORT_LINK, .PORT_CAP, .PORT_EFF] s (s.mirStart p) := by
  unfold State.mirStart
  exact (((Frame.refl _ _ s).wr.wr).after (linkUp_frame _ _ _)).after (sendFrame_frame _ _ _)

theorem heard_frame (s : State) : Frame [.mir] [] s s.heard := by
  unfold State.heard
  exact (Frame.refl _ _ s).modMir

theorem auditMirror_frame (s : State) (p off old new : Nat) : Frame [.auditQ] [] s (s.auditMirror p off old new) :=
  Frame.onlyIf (Frame.refl _ _ s).audit (Frame.refl _ _ s)

theorem authFail_frame (s : State) (p : Nat) : Frame [.regs, .flights, .credits, .locks, .holds]
    [.MIR_STAT, .MIR_PORT, .PORT_LINK, .PORT_LINKCNT, .GLOBAL_ATTN_PENDING] s (s.authFail p) :=
  Frame.onlyIf ((Frame.refl _ _ s).incRc.after (mirStop_frame _ _)) (Frame.refl _ _ s)

theorem holdAck_frame (s : State) : Frame [.regs] [.MIR_ACKTS] s s.holdAck := (Frame.refl _ _ s).wr

theorem takeEpoch_frame (s : State) (p e : Nat) : Frame [.regs, .auditQ] [.MIR_PEPOCH] s (s.takeEpoch p e) :=
  Frame.onlyIf ((Frame.refl _ _ s).wr.after (auditMirror_frame _ _ _ _ _)) (Frame.refl _ _ s)

/-! ### The windows -/

/-- In a fold over indices of which each step leaves what is seen of another index, index `w` sees its own step alone. -/
theorem foldl_range_at {α : Type} {P : State → Prop} {f : State → Nat → State} {g : State → α} {n : Nat} (hP : ∀ u k, P u → P (f u k))
    (hother : ∀ u k, k < n → k ≠ w → g (f u k) = g u) (hw : w < n) (hs : P s) :
    ∃ u, P u ∧ g u = g s ∧ g ((List.range n).foldl f s) = g (f u w) := by
  induction n with
  | zero => exact absurd hw (Nat.not_lt_zero w)
  | succ n ih =>
    rw [List.range_succ, List.foldl_append]
    by_cases hlast : w = n
    · subst hlast
      refine ⟨_, foldl_inv P _ _ (fun u k _ => hP u k) s hs, ?_, rfl⟩
      refine foldl_inv (fun v => g v = g s) _ _ (fun v k hk hv => (hother v k ?_ ?_).trans hv) s rfl <;>
        have := List.mem_range.1 hk <;> omega
    · obtain ⟨u, hu, hsee, hfold⟩ := ih (fun u k hk => hother u k (by omega)) (by omega)
      exact ⟨u, hu, hsee, (hother _ n (by omega) (Ne.symm hlast)).trans hfold⟩

theorem winState_wr_other {v k : Nat} (hw : w < 2 ^ 14) (hk : k < 2 ^ 14) (h : k ≠ w) (f : Fld) : (s.wr f v k).winState w = s.winState w :=
  rd_wr_elem hk hw h.symm v 0

theorem winState_setWinState {v : Nat} (hv : v < 8) (w : Nat) : (s.setWinState w v).winState w = v :=
  (rd_wr_same (by decide) v).trans (Nat.mod_eq_of_lt hv)

theorem winState_of_frame (h : Frame L R s t) (w : Nat) (hR : RegName.MIR_ACT_CTL ∉ R := by decide) : t.winState w = s.winState w :=
  h.rd (f := F.MIR_ACT_CTL.STATE) w 0 hR

theorem winState_of_regs (h : t.regs = s.regs) (w : Nat) : t.winState w = s.winState w := rd_of_regs h _ _ _

/-- A window that diverges is DIVERGED, but for an IDLE one. -/
theorem winState_diverge (h : s.winState w ≠ 0) : (s.diverge w).winState w = 4 := by
  unfold State.diverge
  by_cases h4 : s.winState w = 4
  · rw [if_pos (.inr h4), h4]
  · rw [if_neg (by simp [h, h4])]
    have hmiss := (Frame.refl [.mir] [] (s.setWinState w 4)).foldl
      (xs := s.mir.writes.filter fun q => q.w == w && q.st == .queued) (f := fun s q => s.missTap q.stamp) fun u q => missTap_frame u _
    exact (winState_of_frame hmiss.modMir w).trans (winState_setWinState (by decide) w)

theorem winState_diverge_other {k : Nat} (hw : w < 2 ^ 14) (hk : k < 2 ^ 14) (h : k ≠ w) : (s.diverge k).winState w = s.winState w := by
  unfold State.diverge
  split
  · rfl
  · have hmiss := (Frame.refl [.mir] [] (s.setWinState k 4)).foldl
      (xs := s.mir.writes.filter fun q => q.w == k && q.st == .queued) (f := fun s q => s.missTap q.stamp) fun u q => missTap_frame u _
    exact (winState_of_frame hmiss.modMir w).trans (winState_wr_other hw hk h F.MIR_ACT_CTL.STATE)

/-- Every window that is in service becomes DIVERGED. -/
theorem winState_diverges (hw : w < 16) (h : s.winState w ≠ 0) : ((List.range 16).foldl (fun s w => s.diverge w) s).winState w = 4 := by
  obtain ⟨u, -, hsee, hfold⟩ := foldl_range_at (P := fun _ => True) (f := fun s w => s.diverge w) (g := fun s => s.winState w)
    (fun _ _ _ => trivial) (fun u k hk hne => winState_diverge_other (by omega) (by omega) hne) hw (s := s) trivial
  exact hfold.trans (winState_diverge (by rwa [hsee]))

/-- Every window becomes IDLE. -/
theorem winState_idles (hw : w < 16) : ((List.range 16).foldl (fun s w => s.setWinState w 0) s).winState w = 0 := by
  obtain ⟨u, -, -, hfold⟩ := foldl_range_at (P := fun _ => True) (f := fun s w => s.setWinState w 0) (g := fun s => s.winState w)
    (fun _ _ _ => trivial) (fun u k hk hne => winState_wr_other (by omega) (by omega) hne F.MIR_ACT_CTL.STATE) hw (s := s) trivial
  exact hfold.trans (winState_setWinState (by decide) w)

/-- One window pauses. -/
def State.pauseWin (s : State) (w : Nat) : State :=
  let st := s.winState w
  if st = 1 ∨ st = 2 then (s.setWinState w 3).modMir fun x => { x with was := tset 0 x.was w st } else s

theorem pauseWins_eq (s : State) : s.pauseWins = (List.range 16).foldl State.pauseWin s := rfl

/-- One window resumes. -/
def State.resumeWin (s : State) (w : Nat) : State :=
  let st := tget 0 s.mir.was w
  if s.winState w = 3 ∧ st ≠ 0 then (s.setWinState w st).modMir fun x => { x with was := tset 0 x.was w 0 } else s

theorem resumeWins_eq (s : State) : s.resumeWins = (List.range 16).foldl State.resumeWin s := rfl

theorem winState_pauseWin (h : s.winState w = 1 ∨ s.winState w = 2) : (s.pauseWin w).winState w = 3 := by
  simp only [State.pauseWin, if_pos h]
  exact winState_setWinState (by decide) w

theorem winState_pauseWin_of_not (h : ¬(s.winState w = 1 ∨ s.winState w = 2)) : s.pauseWin w = s := if_neg h

theorem winState_pauseWin_other {k : Nat} (hw : w < 2 ^ 14) (hk : k < 2 ^ 14) (h : k ≠ w) : (s.pauseWin k).winState w = s.winState w := by
  simp only [State.pauseWin]
  split
  · exact winState_wr_other hw hk h F.MIR_ACT_CTL.STATE
  · rfl

theorem winState_resumeWin_of_not (h : s.winState w ≠ 3) : s.resumeWin w = s := if_neg fun hc => h hc.1

theorem winState_resumeWin_other {k : Nat} (hw : w < 2 ^ 14) (hk : k < 2 ^ 14) (h : k ≠ w) : (s.resumeWin k).winState w = s.winState w := by
  simp only [State.resumeWin]
  split
  · exact winState_wr_other hw hk h F.MIR_ACT_CTL.STATE
  · rfl

/-- SYNCING and ACTIVE windows pause (R775). -/
theorem winState_pauseWins (hw : w < 16) (h : s.winState w = 1 ∨ s.winState w = 2) : s.pauseWins.winState w = 3 := by
  rw [pauseWins_eq]
  obtain ⟨u, -, hsee, hfold⟩ := foldl_range_at (P := fun _ => True) (f := State.pauseWin) (g := fun s => s.winState w)
    (fun _ _ _ => trivial) (fun u k hk hne => winState_pauseWin_other (by omega) (by omega) hne) hw (s := s) trivial
  exact hfold.trans (winState_pauseWin (by rwa [hsee]))

/-- A window that is IDLE or DIVERGED stays so whatever widths the ports report (R775). -/
theorem winState_mirWidths (hw : w < 16) (h : s.winState w = 0 ∨ s.winState w = 4) : s.mirWidths.winState w = s.winState w := by
  have hpause : s.pauseWins.winState w = s.winState w := by
    rw [pauseWins_eq]
    obtain ⟨u, -, hsee, hfold⟩ := foldl_range_at (P := fun _ => True) (f := State.pauseWin) (g := fun s => s.winState w)
      (fun _ _ _ => trivial) (fun u k hk hne => winState_pauseWin_other (by omega) (by omega) hne) hw (s := s) trivial
    rw [hfold, winState_pauseWin_of_not (by rw [hsee]; omega), hsee]
  have hresume : s.resumeWins.winState w = s.winState w := by
    rw [resumeWins_eq]
    obtain ⟨u, -, hsee, hfold⟩ := foldl_range_at (P := fun _ => True) (f := State.resumeWin) (g := fun s => s.winState w)
      (fun _ _ _ => trivial) (fun u k hk hne => winState_resumeWin_other (by omega) (by omega) hne) hw (s := s) trivial
    rw [hfold, winState_resumeWin_of_not (by rw [hsee]; omega), hsee]
  unfold State.mirWidths
  split
  · rfl
  · split <;> assumption

/-! ### The ports -/

theorem up_of_frame (h : Frame L R s t) (p : Nat) (hR : RegName.MIR_PORT ∉ R := by decide) : t.mirUp p = s.mirUp p :=
  h.bit (f := F.MIR_PORT.UP) p 0 hR

theorem up_wr_other {p q v : Nat} (hp : p < 2 ^ 14) (hq : q < 2 ^ 14) (h : p ≠ q) (f : Fld) : (s.wr f v q).mirUp p = s.mirUp p :=
  congrArg (· == 1) (rd_wr_elem hq hp h v 0)

theorem up_mirStop_same (s : State) (p : Nat) : (s.mirStop p).mirUp p = false := by
  unfold State.mirStop
  cases hup : s.mirUp p with
  | false => exact hup
  | true =>
    refine (up_of_frame ((linkDown_frame _ (25 + p)).mono.after (L := [.regs, .flights, .credits, .locks, .holds])
      (R := [.PORT_LINK, .PORT_LINKCNT, .GLOBAL_ATTN_PENDING]) (syncDegraded_frame _)) p).trans ?_
    unfold State.mirUp
    rw [State.bit, rd_wr_apart (by decide) (by decide)]
    exact bit_wr_same (by decide) rfl 0

theorem up_mirStop_keeps {p q : Nat} (hp : p < 2 ^ 14) (hq : q < 2 ^ 14) (h : s.mirUp p = false) : (s.mirStop q).mirUp p = false := by
  by_cases hpq : p = q
  · subst hpq
    exact up_mirStop_same s p
  · unfold State.mirStop
    cases hup : s.mirUp q with
    | false => exact h
    | true =>
      refine (up_of_frame ((linkDown_frame _ (25 + q)).mono.after (L := [.regs, .flights, .credits, .locks, .holds])
        (R := [.PORT_LINK, .PORT_LINKCNT, .GLOBAL_ATTN_PENDING]) (syncDegraded_frame _)) p).trans ?_
      exact (up_wr_other hp hq hpq F.MIR_PORT.WIDTH).trans ((up_wr_other hp hq hpq F.MIR_PORT.UP).trans h)

/-- Both ports stop. -/
theorem up_mirStops {p : Nat} (hp : p < 2) (s : State) : ((s.mirStop 0).mirStop 1).mirUp p = false := by
  obtain rfl | rfl : p = 0 ∨ p = 1 := by omega
  · exact up_mirStop_keeps (by decide) (by decide) (up_mirStop_same s 0)
  · exact up_mirStop_same _ 1

/-- A port that has started carries frames. -/
theorem up_mirStart_same (s : State) (p : Nat) : (s.mirStart p).mirUp p = true := by
  unfold State.mirStart
  refine (up_of_frame ((linkUp_frame _ (25 + p) _).mono.after (L := [.regs, .credits, .out, .mir]) (R := [.PORT_LINK, .PORT_CAP, .PORT_EFF])
    (sendFrame_frame _ p _)) p).trans ?_
  unfold State.mirUp
  rw [State.bit, rd_wr_apart (by decide) (by decide)]
  exact bit_wr_same (by decide) rfl 1

/-! ### The writes -/

/-- Of the mirror, sending has changed the writes, their generations and the numbers of the frames at most. -/
def State.pumped (s t : State) : Prop :=
  t.mir = { s.mir with writes := t.mir.writes, gens := t.mir.gens, frames := t.mir.frames, lseq := t.mir.lseq }

theorem pumped_refl (s : State) : s.pumped s := rfl

theorem pumped_trans (h : s.pumped t) (g : t.pumped u) : s.pumped u := by
  unfold State.pumped at *
  rw [g, h]

theorem modMir_pumped {f : Mir → Mir}
    (h : ∀ x : Mir, f x = { x with writes := (f x).writes, gens := (f x).gens, frames := (f x).frames, lseq := (f x).lseq }) (s : State) :
    s.pumped (s.modMir f) := h s.mir

theorem sendFrame_pumped (s : State) (p : Nat) (m : MirMsg) : s.pumped (s.sendFrame p m) := by
  unfold State.sendFrame onlyIf
  split
  · cases m <;> rfl
  · rfl

theorem writes_sendFrame (s : State) (p : Nat) (m : MirMsg) : (s.sendFrame p m).mir.writes = s.mir.writes := by
  unfold State.sendFrame onlyIf
  split
  · cases m <;> rfl
  · rfl

theorem sendMirror_pumped (s : State) (q : MirWrite) : s.pumped (s.sendMirror q) := by
  unfold State.sendMirror
  split
  · exact pumped_refl s
  · exact pumped_trans (modMir_pumped (fun _ => rfl) s) (sendFrame_pumped _ _ _)

theorem mirPump_pumped (s : State) : s.pumped s.mirPump :=
  foldl_inv (fun u => s.pumped u) _ _ (fun u q _ hu => pumped_trans hu (sendMirror_pumped u q)) s (pumped_refl s)

theorem up_of_mirPort {p : Nat} (h : s.mirPort k = some p) : s.mirUp p = true := by
  unfold State.mirPort at h
  split at h
  · exact Option.some.inj h ▸ ‹_›
  · split at h
    · exact Option.some.inj h ▸ ‹_›
    · cases h

theorem up_of_mayMirror {q : MirWrite} {x : Nat × Nat} (h : s.mayMirror q = some x) : s.mirUp x.1 = true := by
  unfold State.mayMirror at h
  split at h
  · cases h
  · split at h
    · cases h
    · obtain ⟨y, -, rfl⟩ := Option.map_eq_some_iff.1 h
      exact up_of_mirPort ‹_›

/-- The write `o` as it is sent. -/
def MirWrite.sentAs (o : MirWrite) (port tag gen epoch : Nat) : MirWrite :=
  { o with st := .sent, port := port, tag := tag, gen := gen, epoch := epoch }

theorem writes_sendMirror {q : MirWrite} {p tag : Nat} (h : s.mayMirror q = some (p, tag)) :
    ∃ g e, (s.sendMirror q).mir.writes = s.mir.writes.map fun o => if o.n == q.n then o.sentAs p tag g e else o := by
  unfold State.sendMirror
  rw [h]
  exact ⟨_, _, writes_sendFrame _ _ _⟩

/-- A write that is sent goes through a port that carries frames. -/
theorem forall_sendMirror {P : MirWrite → Prop} (hP : ∀ o p t g e, P o → s.mirUp p = true → P (o.sentAs p t g e)) (q : MirWrite)
    (h : ∀ o ∈ s.mir.writes, P o) : ∀ o ∈ (s.sendMirror q).mir.writes, P o := by
  cases hmay : s.mayMirror q with
  | none =>
    unfold State.sendMirror
    rwa [hmay]
  | some x =>
    obtain ⟨g, e, hw⟩ := writes_sendMirror hmay
    intro o ho
    rw [hw] at ho
    obtain ⟨y, hy, rfl⟩ := List.mem_map.1 ho
    split
    · exact hP y _ _ _ _ (h y hy) (up_of_mayMirror hmay)
    · exact h y hy

theorem forall_mirPump {P : MirWrite → Prop} (hP : ∀ o p t g e, P o → s.mirUp p = true → P (o.sentAs p t g e)) (h : ∀ o ∈ s.mir.writes, P o) :
    ∀ o ∈ s.mirPump.mir.writes, P o := by
  have hall : (∀ p, s.mirPump.mirUp p = s.mirUp p) ∧ ∀ o ∈ s.mirPump.mir.writes, P o :=
    foldl_inv (fun u => (∀ p, u.mirUp p = s.mirUp p) ∧ ∀ o ∈ u.mir.writes, P o) _ _ (fun u q _ hu =>
      ⟨fun p => (up_of_frame (sendMirror_frame u q) p).trans (hu.1 p),
        forall_sendMirror (fun o p t g e ho hup => hP o p t g e ho ((hu.1 p).symm.trans hup)) q hu.2⟩) s ⟨fun _ => rfl, h⟩
  exact hall.2

end
end Sys2Proof.Machine
end

section
/-! The frame of an arrival at a doorkeeper (R120, R285), and what it reads of the state. -/

set_option Elab.async false

namespace Sys2Proof.Machine
section
variable {L : List Part} {R : List RegName} {s t u : State} {k req : Nat} {h : Header}

/-! ### Frames -/

/-- The registers that the acceptance of a request can change. -/
def acceptRegs : List RegName :=
  [.PORT_ERRCNT, .CLU_MISROUTE, .MIR_PLAST, .TRF_SUB_TOKENS, .TRF_SVC_TOKENS, .TRF_PORT_TOKENS, .TRF_SUB_DROPS, .TRF_PORT_DROPS, .RG_DROPS]

theorem Frame.answer {f : Flight} {r d : Nat} (h : Frame acceptParts R s t) : Frame acceptParts R s (t.answer f r d) :=
  h.update (keptBut_answer (keptBut_refl t _) f r d) rfl

theorem Frame.addFlight {f : Flight} (h : Frame acceptParts R s t) : Frame acceptParts R s (t.addFlight f) :=
  h.update (keptBut_addFlight (keptBut_refl t _) f (by decide) (by decide)) rfl

theorem Frame.countDrop {tenant req : Nat} (h : Frame acceptParts acceptRegs s t) : Frame acceptParts acceptRegs s (t.countDrop tenant req) :=
  h.incRc.incRc

theorem due_frame (s : State) : Frame acceptParts acceptRegs s s.due :=
  ⟨keptBut_mono (due_kept s) (by decide), fun _ hr i j => reg_due (fun hm => hr (by
    have hsub : ∀ r ∈ tokenRegs, r ∈ acceptRegs := by decide
    exact hsub _ hm)) i j⟩

theorem setTokens_frame (s : State) (v : Nat) (b : Bkt) : Frame acceptParts acceptRegs s (s.setTokens v b) := by
  cases b <;> exact (Frame.refl _ _ s).wr

theorem debit_frame (s : State) (bs : List Bkt) (n : Nat) : Frame acceptParts acceptRegs s (s.debit bs n) :=
  (Frame.refl _ _ s).foldl fun u b => setTokens_frame u _ b

theorem police_frame (s : State) (f : Flight) : Frame acceptParts acceptRegs s (s.police f) := by
  have hdue := due_frame s
  unfold State.police
  extract_lets due tenant n pol thr debited charged
  have hdebited : Frame acceptParts acceptRegs s debited := hdue.trans (debit_frame s.due pol n)
  have hcharged : Frame acceptParts acceptRegs s charged := by
    unfold charged
    cases thr with
    | none => exact hdebited
    | some t => exact hdebited.update (keptBut_throttles (keptBut_refl _ _) _ (by decide)) rfl
  refine Frame.ite (Frame.refl _ _ s).addFlight (Frame.ite ?_ (Frame.ite ?_ ?_))
  · exact hdue.countDrop.answer
  · exact hdue.countDrop.incRc.answer
  · exact hcharged.addFlight

theorem takeCredit_frame (s : State) (k p : Nat) (m : Msg) : Frame [.credits] [] s (s.takeCredit k p m) :=
  Frame.ite (Frame.refl _ _ s) (Frame.refl _ _ s).setCredit

theorem markMirror_frame (s : State) (why : Purpose) (h : Header) : Frame [.regs] [.MIR_PLAST] s (s.markMirror why h) := by
  unfold State.markMirror
  split
  · exact (Frame.refl _ _ s).wr
  · exact Frame.refl _ _ s

theorem accept_frame (s : State) (k req fn : Nat) (tenant : Option Nat) (why : Purpose) (m : Msg) :
    Frame acceptParts acceptRegs s (s.accept k req fn tenant why m) := by
  have hs := Frame.refl acceptParts acceptRegs s
  unfold State.accept
  extract_lets f
  split
  · exact (Frame.onlyIf hs.incRc hs).answer
  · split
    · exact hs.answer
    · extract_lets g policed
      have hpoliced : Frame acceptParts acceptRegs s policed := police_frame s g
      have hcredited : Frame acceptParts acceptRegs s ((policed.markMirror why m.hdr).takeCredit k req m) :=
        (hpoliced.after (markMirror_frame _ _ _)).after (takeCredit_frame _ _ _ _)
      refine Frame.ite hs.incRc.wr.answer ?_
      split
      · exact Frame.ite hpoliced hcredited
      · exact hpoliced

theorem arrive_frame (s : State) (k req fn : Nat) (why : Purpose) (m : Msg) (stale : Bool) :
    Frame acceptParts acceptRegs s (s.arrive k req fn why m stale) := by
  have hs := Frame.refl acceptParts acceptRegs s
  unfold State.arrive
  exact Frame.ite hs (Frame.ite hs.incRc (Frame.ite hs.incRc (Frame.ite hs.answer (accept_frame _ _ _ _ _ _ _))))

/-! ### What an arrival reads -/

theorem plot_of_plots (h : t.plots = s.plots) (i : Nat) : t.plot i = s.plot i := congrArg (tget Plot.blank · i) h

theorem credit_of_credits (h : t.credits = s.credits) (k p : Nat) : t.credit k p = s.credit k p :=
  congrArg (tget (⟨0, 0, 0⟩ : Credit) · (k * 39 + p)) h

theorem place_of_frame (h : Frame L R s t) (pa : Nat) (p : Plot) (hgeom : RegName.PLOT_GEOM ∉ R := by decide)
    (hstack : RegName.PLOT_STACKGEOM ∉ R := by decide) : t.place pa p = s.place pa p := by
  have hsites : t.sites = s.sites := congrArg (fun n => upTo 12 (nbit n)) (h.rd (f := F.PLOT_GEOM.POPULATED) 0 0 hgeom)
  have hdata : ∀ st, t.rd F.PLOT_STACKGEOM.NDATA st = s.rd F.PLOT_STACKGEOM.NDATA st := fun st => h.rd st 0 hstack
  unfold State.place
  simp only [hsites, hdata]

theorem access_of_plots (h : t.plots = s.plots) (req fn : Nat) (tenant : Option Nat) (hdr : Header) :
    t.access req fn tenant hdr = s.access req fn tenant hdr := by
  unfold State.access
  rw [plot_of_plots h]

theorem preCheck_of_frame (f : Frame L R s t) (k req : Nat) (h : Header) (hL : Part.flights ∉ L := by decide)
    (hR : ∀ r ∈ [RegName.GLOBAL_STATE, .PORT_CFG, .PORT_EFF], r ∉ R := by decide) : t.preCheck k req h = s.preCheck k req h := by
  have hflights : t.flights = s.flights := f.part .flights hL
  have hhold : t.inHold = s.inHold := congrArg (· == 1) (f.rd (f := F.GLOBAL_STATE.STATE) 0 0 (hR _ (by decide)))
  have heff : ∀ g : Fld, g.reg = .PORT_EFF → t.rd g req = s.rd g req := fun g hg => f.rd req 0 (by rw [hg]; exact hR _ (by simp))
  have hord : t.bit F.PORT_EFF.ORD_OK req = s.bit F.PORT_EFF.ORD_OK req := congrArg (· == 1) (heff _ rfl)
  have hen : t.bit F.PORT_CFG.ENABLE req = s.bit F.PORT_CFG.ENABLE req := f.bit req 0 (hR _ (by decide))
  unfold State.preCheck State.tagBusy
  simp only [hflights, hhold, hord, hen, heff F.PORT_EFF.TAGBITS rfl, heff F.PORT_EFF.OPS rfl, heff F.PORT_EFF.CLASSES rfl]

end
end Sys2Proof.Machine
end

section
/-! Mirrored writes, control state and window sets (R757, R759, R761, R767 to R769, R771 to R773). -/

set_option Elab.async false

namespace Sys2Proof.Machine
section
variable {L : List Part} {R : List RegName} {s t u : State} {port : Fin 2} {k : Cluster} {m : Msg} {w : Nat}

/-! ### Frames that fail authentication (R757) -/

theorem exec_unauthentic {x : Instr} {window : Fin 16} {ep : BitVec 16} {owner : Byte} {tag : Nat} {gen result : Fin 16}
    (hx : (x = .dataRequest port false window ep owner k m ∧ (hcrcOk m.hdr && !frameWf m) = false) ∨ x = .dataReply port false tag gen result) :
    exec x s = .next (s.authFail port) := by
  rcases hx with ⟨rfl, hwf⟩ | rfl
  · show execDataRequest port false window ep owner k m s = _
    simp [execDataRequest, hwf]
  · rfl

theorem authFail_up (h : s.mirUp port = true) : s.authFail port = (s.incRc F.MIR_STAT.AUTH_FAILS).mirStop port := if_pos h

theorem onFrame_up (h : s.mirUp port = true) (f : State → State) : s.onFrame port f = f s.heard := if_pos h

/-! ### DATA_REQUEST (R757, R766, R772) -/

theorem newerEpoch_self (a : Nat) : newerEpoch a a = false := by
  simp only [newerEpoch, decide_eq_false_iff_not]
  omega

theorem epoch_takeEpoch (s : State) (p : Nat) (ep : BitVec 16) : (s.takeEpoch p ep.toNat).rd F.MIR_PEPOCH.EPOCH =
    if newerEpoch ep.toNat (s.rd F.MIR_PEPOCH.EPOCH) then ep.toNat else s.rd F.MIR_PEPOCH.EPOCH := by
  simp only [State.takeEpoch]
  cases hnew : newerEpoch ep.toNat (s.rd F.MIR_PEPOCH.EPOCH) with
  | true =>
    refine ((auditMirror_frame _ _ _ _ _).rd (f := F.MIR_PEPOCH.EPOCH) 0 0).trans ((rd_wr_same (by decide) _).trans ?_)
    exact Nat.mod_eq_of_lt ep.isLt
  | false => rfl

/-- A frame of the partner under epoch `ep` is taken. -/
def State.framed (s : State) (p : Nat) (ep : BitVec 16) : State := s.heard.takeEpoch p ep.toNat

theorem framed_frame (s : State) (p : Nat) (ep : BitVec 16) : Frame [.mir, .regs, .auditQ] [.MIR_PEPOCH] s (s.framed p ep) :=
  ((Frame.refl _ _ s).after (heard_frame s)).after (takeEpoch_frame _ _ _)

theorem framed_mir (s : State) (p : Nat) (ep : BitVec 16) : (s.framed p ep).mir = { s.mir with heard := s.now } :=
  (takeEpoch_frame s.heard p ep.toNat).part .mir

theorem epoch_framed (s : State) (p : Nat) (ep : BitVec 16) : (s.framed p ep).rd F.MIR_PEPOCH.EPOCH =
    if newerEpoch ep.toNat (s.rd F.MIR_PEPOCH.EPOCH) then ep.toNat else s.rd F.MIR_PEPOCH.EPOCH := epoch_takeEpoch s.heard p ep

theorem exec_dataRequest (hup : s.mirUp port = true) {window : Fin 16} {ep : BitVec 16} {owner : Byte}
    (hwf : (hcrcOk m.hdr && !frameWf m) = false) : exec (.dataRequest port true window ep owner k m) s =
      .next ((s.framed port ep).arrive k (25 + port.val) 0 (.mirror window owner.toNat) m
        (newerEpoch ((s.framed port ep).rd F.MIR_PEPOCH.EPOCH) ep.toNat)) := by
  show execDataRequest port true window ep owner k m s = _
  simp only [execDataRequest, hwf, Bool.not_true, Bool.false_eq_true, if_false, onFrame_up hup]
  rfl

/-- A frame whose epoch is not older than MIR_PEPOCH is not stale. -/
theorem framed_fresh {ep : BitVec 16} (h : newerEpoch (s.rd F.MIR_PEPOCH.EPOCH) ep.toNat = false) (p : Nat) :
    newerEpoch ((s.framed p ep).rd F.MIR_PEPOCH.EPOCH) ep.toNat = false := by
  rw [epoch_framed]
  split
  · exact newerEpoch_self _
  · exact h

theorem directPath_mirror (k : Cluster) (port : Fin 2) : directPath k (25 + port.val) = false := by
  have h39 : (25 + port.val == 39) = false := by simp; omega
  have hdirect : (25 + port.val == 27 + k.val) = false := by simp; omega
  simp [directPath, h39, hdirect]

theorem tenantOf_mirror (s : State) (port : Fin 2) : s.tenantOf (25 + port.val) 0 none = none := by
  unfold State.tenantOf
  rw [if_neg (by omega), if_neg (by omega), if_neg (by omega)]

/-- A mirrored write enters its ingress queue when no bucket polices it and no throttle is in force (R285). -/
theorem police_mirror {f : Flight} (hport : f.req = 25 ∨ f.req = 26)
    (hpol : s.policing (path (s.plot f.plot).owner (hCls f.hdr) f.req) = []) (hthr : s.throttles = []) :
    s.police f = s.due.addFlight { f with charged := [] } := by
  have htenant : s.due.chargeTenant f = (s.plot f.plot).owner := by
    have hreq : (f.req == 25 || f.req == 26) = true := by simpa using hport
    simp only [State.chargeTenant, hreq, if_true, plot_of_plots ((due_frame s).part .plots)]
  have hnone : s.due.throttleOf f = none := by rw [State.throttleOf, throttles_due hthr, List.find?_nil]
  have hpol' : s.due.policing (path (s.due.chargeTenant f) (hCls f.hdr) f.req) = [] := by rw [policing_due, htenant, hpol]
  unfold State.due State.policing at hpol'
  unfold State.due at hnone
  unfold State.police
  rw [if_neg (by omega)]
  simp only [hpol', hnone, List.any_nil, Option.any_none, Bool.false_eq_true, if_false]
  rfl

/-- The request of a mirrored write of the partner's window `w` for a plot of tenant `o`. -/
def State.mirrorFlight (s : State) (k : Cluster) (port : Fin 2) (w o : Nat) (m : Msg) : Flight :=
  s.mkFlight k (25 + port.val) 0 none (.mirror w o) m

/-- A mirrored write is in its ingress queue, its credits are taken, and MIR_PLASTw has its stamp. -/
def State.mirrorQueued (s : State) (k : Cluster) (port : Fin 2) (w : Nat) (g : Flight) (m : Msg) : State :=
  ((s.due.addFlight g).wr F.MIR_PLAST.RTS (hRts m.hdr) w).takeCredit k (25 + port.val) m

theorem mirrorQueued_frame (s : State) (k : Cluster) (port : Fin 2) (w : Nat) (g : Flight) (m : Msg) :
    Frame acceptParts acceptRegs s (s.mirrorQueued k port w g m) :=
  ((due_frame s).addFlight.wr).after (takeCredit_frame _ _ _ _)

theorem flights_mirrorQueued (s : State) (k : Cluster) (port : Fin 2) (w : Nat) (g : Flight) (m : Msg) :
    (s.mirrorQueued k port w g m).flights = s.flights ++ [g] :=
  ((takeCredit_frame _ _ _ _).part .flights).trans (congrArg (· ++ [g]) (due_kept s .flights (by decide)))

theorem rts_mirrorQueued (s : State) (k : Cluster) (port : Fin 2) (w : Nat) (g : Flight) (m : Msg) :
    (s.mirrorQueued k port w g m).rd F.MIR_PLAST.RTS w = hRts m.hdr :=
  ((takeCredit_frame _ _ _ _).rd w 0).trans ((rd_wr_same (by decide) _).trans (Nat.mod_eq_of_lt (Nat.mod_lt _ (by decide))))

theorem credit_mirrorQueued (s : State) (k : Cluster) (port : Fin 2) (w : Nat) (g : Flight) (m : Msg) :
    (s.mirrorQueued k port w g m).credit k (25 + port.val) = ⟨(s.credit k (25 + port.val)).hdr - 1,
      (s.credit k (25 + port.val)).data - dataCredits m.hdr m.beats, (s.credit k (25 + port.val)).resp⟩ := by
  have hcredits : ((s.due.addFlight g).wr F.MIR_PLAST.RTS (hRts m.hdr) w).credit k (25 + port.val) = s.credit k (25 + port.val) :=
    credit_of_credits (due_kept s .credits (by decide)) _ _
  simp only [State.mirrorQueued, State.takeCredit, directPath_mirror, Bool.false_eq_true, if_false]
  rw [credit_setCredit_same, hcredits]

theorem accept_mirror {window o : Nat} (hpre : s.preCheck k (25 + port.val) m.hdr = none)
    (hacc : s.access (25 + port.val) 0 none m.hdr = .accept) (hmap : s.mapTenant o = some (s.plot (hPlot m.hdr)).owner)
    (hhome : (s.place (hLine m.hdr) (s.plot (hPlot m.hdr))).1 = k.val)
    (hpol : s.policing (path (s.plot (hPlot m.hdr)).owner (hCls m.hdr) (25 + port.val)) = []) (hthr : s.throttles = []) :
    s.accept k (25 + port.val) 0 none (.mirror window o) m =
      s.mirrorQueued k port window (s.mirrorFlight k port window o m) m := by
  have hloc : (s.mirrorFlight k port window o m).loc.k = k.val := hhome
  have hpolice : s.police (s.mirrorFlight k port window o m) = s.due.addFlight (s.mirrorFlight k port window o m) :=
    police_mirror (show 25 + port.val = 25 ∨ 25 + port.val = 26 by omega) hpol hthr
  have hresult : (s.mirrorFlight k port window o m).result = rOK := rfl
  have hunsealed : (s.mirrorFlight k port window o m).isSealed = false := rfl
  have hmapped : s.mirrorAccess (.mirror window o) m.hdr .accept = .accept := by simp [State.mirrorAccess, hmap]
  unfold State.mirrorFlight State.mirrorQueued at *
  simp only [State.accept, hpre, hacc, hmapped, hloc, ne_eq, not_true_eq_false, if_false]
  generalize s.mkFlight k (25 + port.val) 0 none (.mirror window o) m = f at hpolice hresult hunsealed ⊢
  have hsame : { f with isSealed := Access.accept == Access.sealed } = f := by
    cases f
    cases hunsealed
    rfl
  have hlast : (s.due.addFlight f).flights.getLast? = some f := List.getLast?_concat
  have hkept : (f.result == rDROPPED) = false := by
    rw [hresult]
    rfl
  simp only [hsame, hpolice, hlast, hkept, State.markMirror, Bool.false_eq_true, if_false]

/-- A component of SEC's part of the state other than the audit queue. -/
theorem sec_of_kept {α : Type} (h : s.kept t .sec) (g : Sec → α) (hg : ∀ x : Sec, g { x with auditQ := [] } = g x) : g t.sec = g s.sec :=
  (hg t.sec).symm.trans ((congrArg g h).trans (hg s.sec))

theorem arrive_mirror {window o : Nat} (hclk : s.bit F.CLOCK_STATUS.FCLK_PRESENT = true) (hup : s.bit F.PORT_LINK.UP (25 + port.val) = true)
    (hboot : s.inBoot = false) (hcredit : s.hasCredit k (25 + port.val) m.hdr m.beats = true) (hcrc : hcrcOk m.hdr = true)
    (haccept : s.accept k (25 + port.val) 0 none (.mirror window o) m = t) : s.arrive k (25 + port.val) 0 (.mirror window o) m = t := by
  rw [← haccept, ← tenantOf_mirror s port]
  exact arrive_accept (fn := 0) hclk hup hboot hcredit hcrc

theorem mapTenant_framed (s : State) (p : Nat) (ep : BitVec 16) (o : Nat) : (s.framed p ep).mapTenant o = s.mapTenant o := by
  have himage : (s.framed p ep).mir.image = s.mir.image := by rw [framed_mir]
  have htenants : (s.framed p ep).sec.tenants = s.sec.tenants := sec_of_kept ((framed_frame s p ep).part .sec) Sec.tenants fun _ => rfl
  unfold State.mapTenant
  rw [himage, htenants]

theorem policing_of_frame (h : Frame L R s t) (hL : Part.regs0 ∉ L := by decide)
    (hR : ∀ r ∈ [RegName.TRF_SUB_CTL, .TRF_SVC_CTL, .TRF_PORT_CTL], r ∉ R := by decide) (bs : List Bkt) : t.policing bs = s.policing bs := by
  have hreg0 : t.regs0 = s.regs0 := h.part .regs0 hL
  have hen : ∀ b, t.bEn b = s.bEn b := fun b => by
    have hctl : t.bCtl b = s.bCtl b := by cases b <;> exact h.regs _ (hR _ (by decide)) _ _
    unfold State.bEn
    rw [hctl]
  have hshape : ∀ b, t.bShape b = s.bShape b := fun b => by
    have hctl : t.bCtl0 b = s.bCtl0 b := by cases b <;> simp only [State.bCtl0, State.reg0, hreg0]
    unfold State.bShape
    rw [hctl]
  simp only [State.policing, hen, hshape]

/-! ### DATA_REPLY (R767) -/

/-- The write that a reply on port `p` with tag and generation answers. -/
def State.answeredWrite (s : State) (p tag gen : Nat) : Option MirWrite :=
  s.mir.writes.find? fun q => q.st == .sent && q.port == p && q.tag == tag && q.gen == gen

theorem exec_dataReply (hup : s.mirUp port = true) {tag : Nat} {gen result : Fin 16} {q : MirWrite}
    (hfind : s.answeredWrite port tag gen = some q) :
    exec (.dataReply port true tag gen result) s = .next (s.heard.mirReply q result).syncDegraded.mirPump.mirLeft := by
  have hfind' : (s.heard.mir.writes.find? fun q => q.st == .sent && q.port == port.val && q.tag == tag && q.gen == gen.val) = some q := hfind
  show execDataReply port true tag gen result s = _
  simp only [execDataReply, Bool.not_true, Bool.false_eq_true, if_false, onFrame_up hup, hfind']

theorem mirLeft_of_none (h : s.mir.leave = none) : s.mirLeft = s := by
  unfold State.mirLeft
  rw [h]

/-- What follows a reply leaves no pending UNPAIR to end. -/
theorem pump_left (h : s.mir.leave = none) : s.syncDegraded.mirPump.mirLeft = s.syncDegraded.mirPump := by
  refine mirLeft_of_none ((congrArg Mir.leave (mirPump_pumped s.syncDegraded)).trans ?_)
  exact (congrArg Mir.leave ((syncDegraded_frame s).part .mir)).trans h

theorem pump_frame (s : State) : Frame [.out, .mir, .regs] [.GLOBAL_ATTN_PENDING] s s.syncDegraded.mirPump :=
  ((Frame.refl _ _ s).after (syncDegraded_frame s)).after (mirPump_frame _)

/-- Sending makes no write of another number. -/
theorem numbers_pump {n : Nat} (h : ∀ o ∈ s.mir.writes, o.n ≠ n) : ∀ o ∈ s.syncDegraded.mirPump.mir.writes, o.n ≠ n := by
  refine forall_mirPump (P := fun o => o.n ≠ n) (fun _ _ _ _ _ ho _ => ho) ?_
  rw [show s.syncDegraded.mir = s.mir from (syncDegraded_frame s).part .mir]
  exact h

/-- A mirrored write is taken off the list. -/
def State.dropWrite (s : State) (n : Nat) : State := s.modMir fun x => { x with writes := x.writes.filter (·.n != n) }

theorem numbers_dropWrite (s : State) (n : Nat) : ∀ o ∈ (s.dropWrite n).mir.writes, o.n ≠ n := fun o ho => by
  have := (List.mem_filter.1 ho).2
  simpa using this

theorem mirReply_ok (q : MirWrite) : s.mirReply q rOK = s.dropWrite q.n := by
  unfold State.mirReply
  exact if_pos rfl

/-- The write fails, and its window with it. -/
def State.mirFailed (s : State) (q : MirWrite) : State :=
  ((s.modMir fun x => { x with writes := x.writes.filter (·.n != q.n) }).missTap q.stamp).diverge q.w

theorem mirReply_error (q : MirWrite) {result : Nat} (hok : result ≠ rOK) (hstale : result ≠ rSTALE)
    (hserve : s.winState q.w = 1 ∨ s.winState q.w = 2 ∨ s.winState q.w = 3) : s.mirReply q result =
      ((s.mirFailed q).incRc F.MIR_STAT.DIVERGES).record
        { ErrRec.make s.now sevRecoverable 0x25 0xFF with result := result, pa := q.pa, detail := [BitVec.ofNat 8 q.w] } := by
  have hin : (s.winState q.w != 0 && s.winState q.w != 4) = true := by
    rcases hserve with h | h | h <;> rw [h] <;> rfl
  simp only [State.mirReply, if_neg hok, if_neg hstale]
  exact onlyIf_pos hin _ _

theorem mirFailed_frame (s : State) (q : MirWrite) : Frame [.regs, .mir] [.MIR_ACT_CTL] s (s.mirFailed q) :=
  (((Frame.refl _ _ s).modMir).after (missTap_frame _ _)).after (diverge_frame _ _)

/-- A window that diverges only loses writes, and no UNPAIR begins. -/
theorem diverge_mir (s : State) (w : Nat) : (s.diverge w).mir.leave = s.mir.leave ∧ ∀ o ∈ (s.diverge w).mir.writes, o ∈ s.mir.writes := by
  unfold State.diverge
  split
  · exact ⟨rfl, fun _ ho => ho⟩
  · have hmiss := foldl_inv (fun u => u.mir.leave = s.mir.leave ∧ u.mir.writes = s.mir.writes)
      (s.mir.writes.filter fun q => q.w == w && q.st == .queued) (fun s q => s.missTap q.stamp) (fun _ _ _ hu => hu) (s.setWinState w 4) ⟨rfl, rfl⟩
    exact ⟨hmiss.1, fun o ho => hmiss.2 ▸ (List.mem_filter.1 ho).1⟩

theorem mirFailed_mir (s : State) (q : MirWrite) :
    (s.mirFailed q).mir.leave = s.mir.leave ∧ ∀ o ∈ (s.mirFailed q).mir.writes, o.n ≠ q.n := by
  obtain ⟨hleave, hwrites⟩ := diverge_mir ((s.dropWrite q.n).missTap q.stamp) q.w
  exact ⟨hleave, fun o ho => numbers_dropWrite s q.n o (hwrites o ho)⟩

/-! ### STATE (R759) -/

/-- The partner image with an item in it. -/
def MirImage.withItem (g : MirImage) : MirItem → MirImage
  | .plot n e => { g with plots := tset 0 g.plots n e }
  | .binding t c => { g with binds := tset 0 g.binds t c.toNat }
  | .tenant t d => { g with tenants := tset none g.tenants t.toNat d }
  | .repair k m => { g with repair := tset [] g.repair k m }
  | .auditHead q t h => { g with head := some ⟨q, t, h⟩ }
  | .history b h u => { g with history := some ⟨b, h, u⟩ }
  | .windows e ws => { g with wins := ws, winEpoch := e.toNat }
  | .key k o st a b => { g with keys := tset none g.keys k (some ⟨o.toNat, st, a, b⟩) }

/-- The words of MIR_PHEAD. -/
def State.setHead (s : State) (h : BitVec 384) : State :=
  (List.range 6).foldl (fun s j => s.setReg .MIR_PHEAD j 0 (h.extractLsb' (64 * j) 64)) s

theorem setHead_frame (s : State) (h : BitVec 384) : Frame [.regs] [.MIR_PHEAD] s (s.setHead h) :=
  (Frame.refl _ _ s).foldl fun u _ => (Frame.refl _ _ u).setReg

theorem applyItem_mir (s : State) (i : MirItem) : (s.applyItem i).mir = { s.mir with image := s.mir.image.withItem i } := by
  cases i with
  | auditHead q u h => exact (setHead_frame _ h).part .mir
  | plot n e => rfl
  | binding n e => rfl
  | tenant n e => rfl
  | repair n e => rfl
  | history b h u => rfl
  | windows e ws => rfl
  | key n o st a b => rfl

theorem applyItem_frame (s : State) (i : MirItem) : Frame [.regs, .mir] [.MIR_PSEQ, .MIR_PHEAD] s (s.applyItem i) := by
  have himage : ∀ x : Mir, Frame [.regs, .mir] [.MIR_PSEQ, .MIR_PHEAD] s { s with mir := x } := fun x =>
    (Frame.refl _ _ s).update (keptBut_mir (keptBut_refl s _) x (by decide)) rfl
  cases i with
  | auditHead q u h => exact ((Frame.refl _ _ s).modMir.setReg).after (setHead_frame _ h)
  | plot n e => exact himage _
  | binding n e => exact himage _
  | tenant n e => exact himage _
  | repair n e => exact himage _
  | history b h u => exact himage _
  | windows e ws => exact himage _
  | key n o st a b => exact himage _

theorem pseq_applyItem (s : State) (q u : W64) (h : BitVec 384) : (s.applyItem (.auditHead q u h)).reg .MIR_PSEQ = q :=
  ((setHead_frame _ h).regs .MIR_PSEQ (by decide) 0 0).trans (reg_setReg_same q)

/-- The next item in sequence is taken. -/
def State.itemTaken (s : State) (item : MirItem) : State :=
  ((s.heard.modMir fun x => { x with early := [(x.stateRx, item)] }).applyItem item).modMir fun x =>
    { x with stateRx := x.stateRx + 1, early := x.early.filter (·.1 != s.mir.stateRx) }

theorem exec_stateMessage (hup : s.mirUp port = true) {seq : W64} (hseq : seq.toNat = s.mir.stateRx) (hearly : s.mir.early = []) (stamp : W64)
    (item : MirItem) : exec (.stateMessage port seq stamp item) s = .next (s.itemTaken item) := by
  have hnew : ¬(seq.toNat < s.heard.mir.stateRx ∨ (s.heard.mir.early.any (·.1 == seq.toNat)) = true) := by
    rw [show s.heard.mir.early = [] from hearly, show s.heard.mir.stateRx = s.mir.stateRx from rfl]
    simp [hseq]
  show execStateMessage port seq stamp item s = _
  simp only [execStateMessage, onFrame_up hup, if_neg hnew]
  have htake : (s.heard.modMir fun x => { x with early := x.early ++ [(seq.toNat, item)] }) =
      s.heard.modMir fun x => { x with early := [(x.stateRx, item)] } := by
    simp only [State.modMir, State.heard, hearly, hseq, List.nil_append]
  rw [htake]
  show Host.Outcome.next (State.applyEarly 1 _) = _
  simp only [State.applyEarly]
  rw [show ((s.heard.modMir fun x => { x with early := [(x.stateRx, item)] }).mir.early.find?
    (·.1 == (s.heard.modMir fun x => { x with early := [(x.stateRx, item)] }).mir.stateRx)) = some (s.mir.stateRx, item) by
      simp [State.modMir, State.heard]]
  rfl

theorem itemTaken_mir (s : State) (item : MirItem) : (s.itemTaken item).mir =
    { s.mir with heard := s.now, stateRx := s.mir.stateRx + 1, early := [], image := s.mir.image.withItem item } := by
  have happly := applyItem_mir (s.heard.modMir fun x => { x with early := [(x.stateRx, item)] }) item
  unfold State.itemTaken
  simp only [State.modMir] at happly ⊢
  rw [happly]
  simp [State.heard, State.modMir]

theorem pseq_itemTaken (s : State) (q u : W64) (h : BitVec 384) : (s.itemTaken (.auditHead q u h)).reg .MIR_PSEQ = q := by
  unfold State.itemTaken
  exact ((Frame.refl [.mir] [] _).modMir.regs _ List.not_mem_nil 0 0).trans (pseq_applyItem _ q u h)

theorem itemTaken_frame (s : State) (item : MirItem) : Frame [.mir, .regs] [.MIR_PSEQ, .MIR_PHEAD] s (s.itemTaken item) :=
  (((Frame.refl _ _ s).after (heard_frame s)).modMir.after (applyItem_frame _ item)).modMir

theorem exec_stateMessage_old (hup : s.mirUp port = true) {seq : W64} (hseq : seq.toNat < s.mir.stateRx) (stamp : W64) (item : MirItem) :
    exec (.stateMessage port seq stamp item) s = .next s.heard := by
  have hold : seq.toNat < s.heard.mir.stateRx ∨ (s.heard.mir.early.any (·.1 == seq.toNat)) = true := .inl hseq
  show execStateMessage port seq stamp item s = _
  simp only [execStateMessage, onFrame_up hup, if_pos hold]

/-! ### EPOCH (R771, R772) -/

theorem exec_epoch (hup : s.mirUp port = true) (ep : BitVec 16) (set : List (Nat × Nat × Nat × Nat)) : exec (.epoch port ep set) s =
    .next (onlyIf (newerEpoch ep.toNat (s.rd F.MIR_PEPOCH.EPOCH)) ((s.framed port ep).modMir fun x =>
      { x with image := { x.image with wins := set, winEpoch := ep.toNat } }) (s.framed port ep)) := by
  show execEpoch port ep set s = _
  simp only [execEpoch, onFrame_up hup]
  rfl

theorem framed_onlyRegs (s : State) (p : Nat) (ep : BitVec 16) : s.onlyRegs (s.framed p ep) [(.MIR_PEPOCH, 0, 0)] := by
  have hheard : s.onlyRegs s.heard [(.MIR_PEPOCH, 0, 0)] := onlyRegs_refl s _
  unfold State.framed State.takeEpoch
  exact onlyRegs_onlyIf _ (fun r i j hr => ((auditMirror_frame _ _ _ _ _).regs r List.not_mem_nil i j).trans
    (onlyRegs_wr hheard F.MIR_PEPOCH.EPOCH _ 0 0 (by decide) r i j hr)) hheard

/-! ### MIR_WINDOW_COMMIT (R761, R771) -/

/-- The shadow windows. -/
def State.shadowSet (s : State) : List MirWin := (List.range 16).map s.shadowWin

/-- The audit entry of a write of COMMIT. -/
def State.commitAudited (s : State) : State :=
  s.audit 1 0 0 0x3800100 (s.reg .MIR_WCTL).toNat ((s.reg .MIR_WCTL).toNat % 2 ^ 31 + 2 ^ 31)

/-- The shadow windows are pending from now on, and the writes of this tick are held. -/
def State.committed (s : State) : State :=
  (s.commitAudited.wr F.MIR_WCTL.PENDING 1).modMir fun x => { x with
    pend := some s.shadowSet, commitAt := s.now,
    writes := x.writes.map fun q => if q.stamp == s.now && q.st == .queued && !q.copy then { q with st := .held } else q }

/-- The message that announces the pending windows. -/
def State.epochMsg (s : State) : MirMsg := .epoch ((s.rd F.MIR_WCTL.EPOCH + 1) % 65536) (winList s.shadowSet)

theorem exec_mirWindowCommit (hheld : s.pfHeld = false) (h : s.winsBad = false) :
    exec .mirWindowCommit s = .next ((s.committed.sendFrame 0 s.epochMsg).sendFrame 1 s.epochMsg) := by
  obtain ⟨hfull, hboot⟩ := pfHeld_false hheld
  have hgood : s.commitAudited.winsBad = false := h
  show execMirWindowCommit s = _
  rw [execMirWindowCommit, orWait_open hfull, if_neg (by simp [hboot])]
  exact if_neg (by simpa [State.commitAudited] using hgood)

theorem exec_mirWindowCommit_bad (hheld : s.pfHeld = false) (h : s.winsBad = true) :
    exec .mirWindowCommit s = .next (s.commitAudited.raise F.MIR_WCTL.REJ) := by
  obtain ⟨hfull, hboot⟩ := pfHeld_false hheld
  have hbad : s.commitAudited.winsBad = true := h
  show execMirWindowCommit s = _
  rw [execMirWindowCommit, orWait_open hfull, if_neg (by simp [hboot])]
  exact if_pos hbad

/-- A frame that is sent on a port that is up is sent, and what was sent before it stays. -/
theorem out_sendFrame (s : State) (p : Nat) (m : MirMsg) : ∃ l, (s.sendFrame p m).out = s.out ++ l ∧ (s.mirUp p = true → .mirror p m ∈ l) := by
  cases hup : s.mirUp p with
  | false => exact ⟨[], by simp [State.sendFrame, onlyIf, hup], fun h => absurd h (by decide)⟩
  | true =>
    have hout : ∀ kind win epoch owner blen, ∃ x, (s.frameOut p kind win epoch owner blen (.mirror p m)).out = s.out ++ [x, .mirror p m] :=
      fun kind win epoch owner blen => ⟨_, by simp [State.frameOut, State.send, State.modMir]; rfl⟩
    unfold State.sendFrame
    rw [onlyIf_pos hup]
    cases m <;> exact (hout _ _ _ _ _).elim fun x hx => ⟨[x, _], hx, fun _ => by simp⟩

theorem committed_frame (s : State) : Frame [.regs, .auditQ, .mir] [.MIR_WCTL] s s.committed := (Frame.refl _ _ s).audit.wr.modMir

theorem committed_onlyRegs (s : State) : s.onlyRegs s.committed [(.MIR_WCTL, 0, 0)] :=
  onlyRegs_wr (onlyRegs_refl s _) F.MIR_WCTL.PENDING 1 0 0 (by decide)

/-! ### MIR_WINDOW_APPLY (R769, R771) -/

/-- What is seen of window `w`: its words. -/
def State.winRegs (s : State) (w : Nat) (r : RegName) : W64 := s.reg r w

theorem winRegs_wr_other {k : Nat} (hw : w < 2 ^ 14) (hk : k < 2 ^ 14) (h : w ≠ k) (f : Fld) (v : Nat) : (s.wr f v k).winRegs w = s.winRegs w := by
  funext r
  by_cases hr : r = f.reg
  · subst hr
    exact reg_setReg_elem (.inl (by omega)) _
  · exact reg_wr_other hr _ _ _

theorem rd_of_winRegs (h : t.winRegs w = s.winRegs w) (f : Fld) : t.rd f w = s.rd f w := by
  unfold State.rd
  rw [show t.reg f.reg w = s.reg f.reg w from congrFun h f.reg]

/-- The five words of a window that the new set gives. -/
def State.winWritten (s : State) (w : Nat) (n : MirWin) : State :=
  ((((s.wr F.MIR_ACT_BASE.ADDR (n.base / 65536) w).wr F.MIR_ACT_PBASE.ADDR (n.pbase / 65536) w).wr F.MIR_ACT_SIZE.UNITS n.units w).wr
    F.MIR_ACT_CTL.EN n.en.toNat w).wr F.MIR_ACT_CTL.SYNC n.sync.toNat w

/-- The state a window takes from the new set (R769). -/
def State.winNext (s : State) (w : Nat) (n : MirWin) : Nat :=
  if s.winState w = 4 ∧ !(n.en && n.sync) then 4 else if !n.en then 0 else if n.sync && s.mirVer != 1 then 1 else 2

theorem wr_regs_of_regs (h : t.regs = s.regs) (f : Fld) (v i j : Nat) : (t.wr f v i j).regs = (s.wr f v i j).regs := by
  rw [wr_regs, wr_regs, h]

/-- The words of window `w` are those of the new set, and its copy pass starts over. -/
def State.winSynced (s : State) (w : Nat) (n : MirWin) : State := (s.winWritten w n).modMir fun x => { x with sync := tset 0 x.sync w 0 }

theorem applyWin_eq (s : State) (w : Nat) (n : MirWin) : s.applyWin w n =
    if s.winState w = 3 ∧ (s.winNext w n = 1 ∨ s.winNext w n = 2)
    then (s.winSynced w n).modMir fun x => { x with was := tset 0 x.was w (s.winNext w n) }
    else ((s.winSynced w n).setWinState w (s.winNext w n)).modMir fun x => { x with was := tset 0 x.was w 0 } := rfl

theorem applyWin_regs (s : State) (w : Nat) (n : MirWin) : (s.applyWin w n).regs =
    (if s.winState w = 3 ∧ (s.winNext w n = 1 ∨ s.winNext w n = 2) then s.winWritten w n else (s.winWritten w n).setWinState w (s.winNext w n)).regs := by
  have hsynced : (s.winSynced w n).regs = (s.winWritten w n).regs := rfl
  rw [applyWin_eq]
  split
  · exact hsynced
  · exact wr_regs_of_regs hsynced _ _ _ _

theorem applyWin_mir (s : State) (w : Nat) (n : MirWin) :
    (s.applyWin w n).mir.writes = s.mir.writes ∧ (s.applyWin w n).mir.pend = s.mir.pend := by
  rw [applyWin_eq]
  split <;> exact ⟨rfl, rfl⟩

theorem winRegs_applyWin_other {k : Nat} (hw : w < 2 ^ 14) (hk : k < 2 ^ 14) (h : w ≠ k) (n : MirWin) : (s.applyWin k n).winRegs w = s.winRegs w := by
  have hwritten : (s.winWritten k n).winRegs w = s.winRegs w := by
    unfold State.winWritten
    simp only [winRegs_wr_other hw hk h]
  funext r
  refine (reg_of_regs (applyWin_regs s k n) r w 0).trans ?_
  split
  · exact congrFun hwritten r
  · exact (congrFun (winRegs_wr_other hw hk h F.MIR_ACT_CTL.STATE _) r).trans (congrFun hwritten r)

theorem applyWin_frame (s : State) (w : Nat) (n : MirWin) :
    Frame [.regs, .mir] [.MIR_ACT_BASE, .MIR_ACT_PBASE, .MIR_ACT_SIZE, .MIR_ACT_CTL] s (s.applyWin w n) := by
  have hsynced : Frame [.regs, .mir] [.MIR_ACT_BASE, .MIR_ACT_PBASE, .MIR_ACT_SIZE, .MIR_ACT_CTL] s (s.winSynced w n) :=
    (Frame.refl _ _ s).wr.wr.wr.wr.wr.modMir
  rw [applyWin_eq]
  exact Frame.ite hsynced.modMir (hsynced.after (setWinState_frame _ _ _)).modMir

/-- A field of window `w` other than its state reads what the new set gives. -/
theorem rd_applyWin (s : State) (w : Nat) (n : MirWin) {f : Fld} (hf : F.MIR_ACT_CTL.STATE.apart f) :
    (s.applyWin w n).rd f w = (s.winWritten w n).rd f w := by
  refine (rd_of_regs (applyWin_regs s w n) f w 0).trans ?_
  split
  · rfl
  · exact rd_wr_apart (by decide) hf _

theorem winState_applyWin_of_not (s : State) {n : MirWin} (h : s.winNext w n = 0 ∨ s.winNext w n = 4) :
    (s.applyWin w n).winState w = s.winNext w n := by
  refine (rd_of_regs (applyWin_regs s w n) F.MIR_ACT_CTL.STATE w 0).trans ?_
  rw [if_neg (by omega)]
  exact winState_setWinState (by omega) w

/-- In a fold over the windows of a set of which each step leaves what is seen of another window, window `w` sees its own step alone. -/
theorem foldl_zipIdx_at {α : Type} {f : State → MirWin × Nat → State} {g : State → α} {ws : List MirWin} {n : MirWin}
    (hother : ∀ u e, e.2 < ws.length → e.2 ≠ w → g (f u e) = g u) (hn : ws[w]? = some n) :
    ∃ u, g u = g s ∧ g (ws.zipIdx.foldl f s) = g (f u (n, w)) := by
  obtain ⟨hw, rfl⟩ := List.getElem?_eq_some_iff.1 hn
  have hskip : ∀ l : List (MirWin × Nat), (∀ e ∈ l, e.2 < ws.length ∧ e.2 ≠ w) → ∀ u, g (l.foldl f u) = g u := fun l hl u =>
    foldl_inv (fun v => g v = g u) l f (fun v e he hv => (hother v e (hl e he).1 (hl e he).2).trans hv) u rfl
  have hsplit : ws.zipIdx = (ws.take w).zipIdx ++ (ws[w], w) :: (ws.drop (w + 1)).zipIdx (w + 1) := by
    conv_lhs => rw [← List.take_append_drop w ws, List.drop_eq_getElem_cons hw, List.zipIdx_append, List.zipIdx_cons]
    simp [Nat.min_eq_left hw.le]
  rw [hsplit, List.foldl_append, List.foldl_cons]
  refine ⟨(ws.take w).zipIdx.foldl f s, hskip _ (fun e he => ?_) s, hskip _ (fun e he => ?_) _⟩
  · have := List.snd_lt_of_mem_zipIdx he
    simp only [List.length_take] at this
    omega
  · have hlow := List.le_snd_of_mem_zipIdx he
    have hhigh := List.snd_lt_of_mem_zipIdx he
    simp only [List.length_drop] at hhigh
    omega

/-- The pending set begins to apply. -/
def State.applyBegun (s : State) : State := ((s.wr F.MIR_WCTL.PENDING 0).incWrap F.MIR_WCTL.EPOCH).modMir fun x => { x with pend := none }

/-- The windows of the set have taken effect. -/
def State.applied (s : State) (ws : List MirWin) : State := ws.zipIdx.foldl (fun (s : State) e => s.applyWin e.2 e.1) s.applyBegun

theorem exec_mirWindowApply {ws : List MirWin} (hpend : s.mir.pend = some ws) (hwrites : s.mir.writes = []) :
    exec .mirWindowApply s = .next (s.applied ws).mirWidths.syncDegraded.mirPump := by
  have hnone : (s.applied ws).mir.writes = [] :=
    foldl_inv (fun u => u.mir.writes = []) ws.zipIdx (fun s e => s.applyWin e.2 e.1)
      (fun u e _ hu => (applyWin_mir u e.2 e.1).1.trans hu) s.applyBegun hwrites
  show execMirWindowApply s = _
  simp only [execMirWindowApply, hpend, hwrites, List.all_nil, Bool.not_true, Bool.false_and, Bool.false_eq_true, if_false]
  have happly : ws.zipIdx.foldl (fun (s : State) e => s.applyWin e.2 e.1) (((s.wr F.MIR_WCTL.PENDING 0).incWrap F.MIR_WCTL.EPOCH).modMir
    fun x => { x with pend := none }) = s.applied ws := rfl
  rw [happly, hnone]
  rfl

theorem applied_frame (s : State) (ws : List MirWin) :
    Frame [.regs, .mir] [.MIR_ACT_BASE, .MIR_ACT_PBASE, .MIR_ACT_SIZE, .MIR_ACT_CTL] s.applyBegun (s.applied ws) :=
  (Frame.refl _ _ _).foldl fun u e => applyWin_frame u e.2 e.1

theorem pend_applied (s : State) (ws : List MirWin) : (s.applied ws).mir.pend = none :=
  foldl_inv (fun u => u.mir.pend = none) ws.zipIdx (fun s e => s.applyWin e.2 e.1)
    (fun u e _ hu => (applyWin_mir u e.2 e.1).2.trans hu) s.applyBegun rfl

/-- Window `w` after the apply: it has taken its place in the set from a state in which it stood as before. -/
theorem winRegs_applied (s : State) {ws : List MirWin} {n : MirWin} (hlen : ws.length = 16) (hn : ws[w]? = some n) (hw : w < 16) :
    ∃ u : State, u.winRegs w = s.applyBegun.winRegs w ∧ (s.applied ws).winRegs w = (u.applyWin w n).winRegs w :=
  foldl_zipIdx_at (f := fun s e => s.applyWin e.2 e.1) (fun u e he hne => winRegs_applyWin_other (by omega) (by omega) hne.symm e.1) hn

theorem winState_applyBegun (s : State) (w : Nat) : s.applyBegun.winState w = s.winState w :=
  ((Frame.refl [.regs, .mir] [.MIR_WCTL] s).wr.incWrap.modMir).rd (f := F.MIR_ACT_CTL.STATE) w 0

/-! ### SYNC_PASS_DONE, MIRROR_PORT_SWITCH (R768, R769) -/

theorem exec_syncPassDone {w : Fin 16} (hpaired : s.paired = true) (hsync : s.winState w = 1)
    (hall : (s.actWin w).units * 1024 ≤ tget 0 s.mir.sync w) (hcopies : ∀ q ∈ s.mir.writes, (q.copy && q.w == w.val) = false) :
    exec (.syncPassDone w) s = .next (s.setWinState w 2) := by
  have hnone : (s.mir.writes.any fun q => q.copy && q.w == w.val) = false := List.any_eq_false.2 fun q hq => by simp [hcopies q hq]
  show execSyncPassDone w s = _
  simp [execSyncPassDone, onlyIf, hpaired, hsync, hall, hnone]

/-- The unanswered writes of port `p` wait for a port again. -/
def State.requeue (s : State) (p : Nat) : State := s.modMir fun x => { x with
  writes := x.writes.map fun q => if q.st == .sent && q.port == p then { q with st := .queued } else q }

theorem exec_mirrorPortSwitch {p : Fin 2} (hpaired : s.paired = true) (hdown : s.mirUp p = false) :
    exec (.mirrorPortSwitch p) s = .next (s.requeue p).mirPump := by
  show execMirrorPortSwitch p s = _
  simp only [execMirrorPortSwitch, hpaired, hdown]
  rfl

theorem requeue_frame (s : State) (p : Nat) : Frame [.mir] [] s (s.requeue p) := (Frame.refl _ _ s).modMir

/-- No unanswered write is on a port that is down. -/
theorem sent_pump_requeue {p : Nat} (hdown : s.mirUp p = false) : ∀ o ∈ (s.requeue p).mirPump.mir.writes, o.st = .sent → o.port ≠ p := by
  refine forall_mirPump (P := fun o => o.st = .sent → o.port ≠ p) (fun o q _ _ _ _ hup _ hq => ?_) fun o ho hsent hport => ?_
  · have hdown' : (s.requeue p).mirUp p = false := (up_of_frame (requeue_frame s p) p).trans hdown
    rw [show q = p from hq, hdown'] at hup
    cases hup
  · obtain ⟨x, -, rfl⟩ := List.mem_map.1 ho
    split at hsent
    · cases hsent
    · next hx =>
      rw [if_neg hx] at hport
      exact hx (by simp [hsent, hport])

/-! ### The set in service -/

theorem rd_setWinState_apart {k v : Nat} (hw : w < 2 ^ 14) (hk : k < 2 ^ 14) {f : Fld} (hf : F.MIR_ACT_CTL.STATE.apart f) :
    (s.setWinState k v).rd f w = s.rd f w := by
  by_cases hwk : w = k
  · subst hwk
    exact rd_wr_apart (by decide) hf v
  · exact rd_wr_elem hk hw hwk v 0

/-- Pausing and resuming write the states of the windows alone, and no set is pending for it. -/
theorem mirWidths_keeps (s : State) : s.mirWidths.mir.pend = s.mir.pend ∧
    ∀ w f, w < 16 → F.MIR_ACT_CTL.STATE.apart f → s.mirWidths.rd f w = s.rd f w := by
  let keeps (u : State) : Prop := u.mir.pend = s.mir.pend ∧ ∀ w f, w < 16 → F.MIR_ACT_CTL.STATE.apart f → u.rd f w = s.rd f w
  have hset : ∀ u k v, k ∈ List.range 16 → keeps u → keeps (u.setWinState k v) := fun u k v hk hu =>
    ⟨hu.1, fun w f hw hf => (rd_setWinState_apart (by omega) (by have := List.mem_range.1 hk; omega) hf).trans (hu.2 w f hw hf)⟩
  have hpause : keeps s.pauseWins := by
    rw [pauseWins_eq]
    refine foldl_inv keeps _ _ (fun u k hk hu => ?_) s ⟨rfl, fun _ _ _ _ => rfl⟩
    simp only [State.pauseWin]
    split
    · exact hset u k 3 hk hu
    · exact hu
  have hresume : keeps s.resumeWins := by
    rw [resumeWins_eq]
    refine foldl_inv keeps _ _ (fun u k hk hu => ?_) s ⟨rfl, fun _ _ _ _ => rfl⟩
    simp only [State.resumeWin]
    split
    · exact hset u k _ hk hu
    · exact hu
  unfold State.mirWidths
  split
  · exact ⟨rfl, fun _ _ _ _ => rfl⟩
  · split <;> assumption

/-- The state in which MIR_WINDOW_APPLY leaves a block with no mirrored write. -/
def State.setServing (s : State) (ws : List MirWin) : State := (s.applied ws).mirWidths.syncDegraded.mirPump

theorem setServing_frame (s : State) (ws : List MirWin) : Frame [.regs, .mir, .out]
    [.MIR_WCTL, .MIR_ACT_BASE, .MIR_ACT_PBASE, .MIR_ACT_SIZE, .MIR_ACT_CTL, .GLOBAL_ATTN_PENDING] s (s.setServing ws) := by
  have hbegun : Frame [.regs, .mir, .out] [.MIR_WCTL, .MIR_ACT_BASE, .MIR_ACT_PBASE, .MIR_ACT_SIZE, .MIR_ACT_CTL, .GLOBAL_ATTN_PENDING] s
      s.applyBegun := (Frame.refl _ _ s).wr.incWrap.modMir
  exact ((hbegun.after (applied_frame s ws)).after (mirWidths_frame _)).after (pump_frame _)

theorem pend_setServing (s : State) (ws : List MirWin) : (s.setServing ws).mir.pend = none := by
  have hpump : ∀ u : State, u.mirPump.mir.pend = u.mir.pend := fun u => by rw [mirPump_pumped u]
  have hdegraded : ∀ u : State, u.syncDegraded.mir = u.mir := fun u => (syncDegraded_frame u).part .mir
  unfold State.setServing
  rw [hpump, hdegraded, (mirWidths_keeps _).1, pend_applied]

theorem applyBegun_regs (s : State) : s.applyBegun.regs = ((s.wr F.MIR_WCTL.PENDING 0).incWrap F.MIR_WCTL.EPOCH).regs := rfl

theorem pending_applyBegun (s : State) : s.applyBegun.bit F.MIR_WCTL.PENDING = false := by
  rw [bit_of_regs (applyBegun_regs s), State.incWrap, State.bit, rd_wr_apart (by decide) (by decide)]
  exact bit_wr_same (by decide) rfl 0

theorem epoch_applyBegun (s : State) : s.applyBegun.rd F.MIR_WCTL.EPOCH = (s.rd F.MIR_WCTL.EPOCH + 1) % 2 ^ F.MIR_WCTL.EPOCH.len := by
  rw [rd_of_regs (applyBegun_regs s), State.incWrap, rd_wr_same (by decide), rd_wr_apart (by decide) (by decide)]

/-- MIR_WCTL is as the start of the apply leaves it. -/
theorem wctl_setServing (s : State) (ws : List MirWin) {f : Fld} (hf : f.reg = .MIR_WCTL) :
    (s.setServing ws).rd f 0 0 = s.applyBegun.rd f 0 0 := by
  have htail : Frame [.regs, .mir, .out] [.MIR_ACT_BASE, .MIR_ACT_PBASE, .MIR_ACT_SIZE, .MIR_ACT_CTL, .GLOBAL_ATTN_PENDING] s.applyBegun (s.setServing ws) :=
    (((Frame.refl _ _ _).after (applied_frame s ws)).after (mirWidths_frame _)).after (pump_frame _)
  exact htail.rd 0 0 (by rw [hf]; decide)

theorem pending_setServing (s : State) (ws : List MirWin) : (s.setServing ws).bit F.MIR_WCTL.PENDING = false := by
  have hbit : (s.setServing ws).bit F.MIR_WCTL.PENDING = s.applyBegun.bit F.MIR_WCTL.PENDING :=
    congrArg (· == 1) (wctl_setServing s ws (f := F.MIR_WCTL.PENDING) rfl)
  rw [hbit]
  exact pending_applyBegun s

theorem epoch_setServing (s : State) (ws : List MirWin) :
    (s.setServing ws).rd F.MIR_WCTL.EPOCH = (s.rd F.MIR_WCTL.EPOCH + 1) % 2 ^ F.MIR_WCTL.EPOCH.len := by
  rw [wctl_setServing s ws (f := F.MIR_WCTL.EPOCH) rfl]
  exact epoch_applyBegun s

/-- A window takes its words from the set, and its state from it and the state it stood in. -/
theorem window_setServing (s : State) {ws : List MirWin} {n : MirWin} (hlen : ws.length = 16) (hn : ws[w]? = some n) (hw : w < 16) :
    ∃ u : State, u.winState w = s.winState w ∧
      (∀ f, F.MIR_ACT_CTL.STATE.apart f → f.reg ≠ .GLOBAL_ATTN_PENDING → (s.setServing ws).rd f w = (u.winWritten w n).rd f w) ∧
      (u.winNext w n = 0 ∨ u.winNext w n = 4 → (s.setServing ws).winState w = u.winNext w n) := by
  obtain ⟨u, hu, happly⟩ := winRegs_applied s hlen hn hw
  refine ⟨u, (rd_of_winRegs hu F.MIR_ACT_CTL.STATE).trans (winState_applyBegun s w), fun f hf hattn => ?_, fun hnext => ?_⟩
  · refine ((pump_frame _).rd w 0 (by simpa using hattn)).trans (((mirWidths_keeps _).2 w f hw hf).trans ?_)
    exact (rd_of_winRegs happly f).trans (rd_applyWin u w n hf)
  · have hstate : (s.applied ws).winState w = u.winNext w n := (rd_of_winRegs happly F.MIR_ACT_CTL.STATE).trans (winState_applyWin_of_not u hnext)
    exact (winState_of_frame (pump_frame _) w).trans ((winState_mirWidths hw (by rwa [hstate])).trans hstate)

theorem en_winWritten (s : State) (w : Nat) (n : MirWin) : (s.winWritten w n).bit F.MIR_ACT_CTL.EN w = n.en := by
  unfold State.winWritten
  rw [State.bit, rd_wr_apart (by decide) (by decide)]
  exact bit_wr_bool (by decide) rfl n.en

theorem sync_winWritten (s : State) (w : Nat) (n : MirWin) : (s.winWritten w n).bit F.MIR_ACT_CTL.SYNC w = n.sync :=
  bit_wr_bool (by decide) rfl n.sync

theorem base_winWritten (s : State) (w : Nat) (n : MirWin) :
    (s.winWritten w n).rd F.MIR_ACT_BASE.ADDR w = n.base / 65536 % 2 ^ F.MIR_ACT_BASE.ADDR.len := by
  unfold State.winWritten
  rw [rd_wr_other (by decide), rd_wr_other (by decide), rd_wr_other (by decide), rd_wr_other (by decide), rd_wr_same (by decide)]

theorem units_winWritten (s : State) (w : Nat) (n : MirWin) :
    (s.winWritten w n).rd F.MIR_ACT_SIZE.UNITS w = n.units % 2 ^ F.MIR_ACT_SIZE.UNITS.len := by
  unfold State.winWritten
  rw [rd_wr_other (by decide), rd_wr_other (by decide), rd_wr_same (by decide)]

theorem winNext_idle {n : MirWin} (hen : n.en = false) (h : s.winState w ≠ 4) : s.winNext w n = 0 := by
  simp [State.winNext, hen, h]

theorem winNext_diverged {n : MirWin} (h : s.winState w = 4) (hs : (n.en && n.sync) = false) : s.winNext w n = 4 := by
  simp [State.winNext, hs, h]

/-- The windows are pending, and EPOCH goes out on each port that is up. -/
def State.announced (s : State) : State := (s.committed.sendFrame 0 s.epochMsg).sendFrame 1 s.epochMsg

theorem announced_frame (s : State) : Frame [.out, .mir] [] s.committed s.announced :=
  (sendFrame_frame s.committed 0 s.epochMsg).trans (sendFrame_frame _ 1 s.epochMsg)

theorem announced_pumped (s : State) : s.committed.pumped s.announced := pumped_trans (sendFrame_pumped _ _ _) (sendFrame_pumped _ _ _)

theorem epoch_mem_announced {p : Fin 2} (h : s.mirUp p = true) : .mirror p s.epochMsg ∈ s.announced.out := by
  obtain ⟨l0, hl0, h0⟩ := out_sendFrame s.committed 0 s.epochMsg
  obtain ⟨l1, hl1, h1⟩ := out_sendFrame (s.committed.sendFrame 0 s.epochMsg) 1 s.epochMsg
  have hup : s.committed.mirUp p = true := (up_of_frame (committed_frame s) p).trans h
  unfold State.announced
  rw [hl1, hl0]
  obtain rfl | rfl : p = 0 ∨ p = 1 := by omega
  · exact List.mem_append_left _ (List.mem_append_right _ (h0 hup))
  · exact List.mem_append_right _ (h1 ((up_of_frame (sendFrame_frame _ 0 _) 1).trans hup))

end

/-- Settles O29: the messages of the partner in turn, then the window sets, the end of a copy pass and the switch of ports. -/
theorem mirroredWrites : Obligations.MirroredWrites := by
  unfold Obligations.MirroredWrites
  intro s
  refine ⟨fun port hup => ⟨?_, ?_, ?_, ?_, ?_, ?_⟩, fun hheld => ⟨fun hgood => ?_, fun hbad => ?_⟩, ?_, ?_, ?_⟩
  · intro x window ep owner k m tag gen result hx
    have hstop := mirStop_frame (s.incRc F.MIR_STAT.AUTH_FAILS) port
    refine ⟨_, exec_unauthentic hx, ?_⟩
    rw [authFail_up hup]
    exact ⟨(hstop.rd (f := F.MIR_STAT.AUTH_FAILS) 0 0).trans (rd_incRc_same (by decide) 0 0 1), up_mirStop_same _ port, hstop.part .mem, hstop.part .plots⟩
  · intro window ep owner k m hcrc hframe hnew hclk hlink hboot hcredit hpre hacc hmap hhome hpol hthr
    have hframed := framed_frame s port ep
    have hcredits := credit_of_credits (hframed.part .credits) k (25 + port.val)
    have hplot := plot_of_plots (hframed.part .plots) (hPlot m.hdr)
    have harrive := arrive_mirror (s := s.framed port ep) (window := window.val) ((hframed.bit _ _).trans hclk) ((hframed.bit _ _).trans hlink)
      ((congrArg (· == 0) (hframed.rd (f := F.GLOBAL_STATE.STATE) 0 0)).trans hboot) (by rw [State.hasCredit, hcredits]; exact hcredit) hcrc
      (accept_mirror ((preCheck_of_frame hframed _ _ _).trans hpre)
        ((access_of_plots (hframed.part .plots) _ _ _ _).trans (by rwa [tenantOf_mirror] at hacc))
        (by rw [mapTenant_framed, hplot]; exact hmap) (by rw [hplot, place_of_frame hframed]; exact hhome)
        (by rw [hplot, policing_of_frame hframed]; exact hpol) ((hframed.part .throttles).trans hthr))
    refine ⟨_, (s.framed port ep).mirrorFlight k port window owner.toNat m, exec_dataRequest hup (by simp [hframe]), ?_⟩
    rw [framed_fresh hnew, harrive]
    have hqueued := mirrorQueued_frame (s.framed port ep) k port window ((s.framed port ep).mirrorFlight k port window owner.toNat m) m
    refine ⟨?_, hframed.part .nextId, rfl, rfl, rfl, rfl, rfl, rfl, rts_mirrorQueued _ _ _ _ _ _, ?_, ?_, ?_, ?_⟩
    · exact (flights_mirrorQueued _ _ _ _ _ _).trans (congrArg (· ++ _) (hframed.part .flights))
    · rw [hqueued.part .mir, framed_mir]
    · exact (hqueued.part .mem).trans (hframed.part .mem)
    · exact (hqueued.part .plots).trans (hframed.part .plots)
    · rw [credit_mirrorQueued, hcredits]
  · intro window ep owner k m hwf
    have harrive := arrive_frame (s.framed port ep) k (25 + port.val) 0 (.mirror window owner.toNat) m
      (newerEpoch ((s.framed port ep).rd F.MIR_PEPOCH.EPOCH) ep.toNat)
    refine ⟨_, exec_dataRequest hup hwf, ?_, ?_, ?_⟩
    · rw [harrive.part .mir, framed_mir]
    · exact (harrive.part .plots).trans ((framed_frame s port ep).part .plots)
    · exact (harrive.rd (f := F.MIR_PEPOCH.EPOCH) 0 0).trans (epoch_framed s port ep)
  · intro tag gen result q hfind hleave
    have hpump := pump_frame (s.heard.mirReply q result)
    refine ⟨fun hok => ?_, fun hok hstale hserve => ?_⟩
    · have hreply : s.heard.mirReply q result = s.heard.dropWrite q.n := by
        rw [hok]
        exact mirReply_ok q
      have hnoleave : (s.heard.dropWrite q.n).mir.leave = none := hleave
      refine ⟨_, exec_dataReply hup hfind, ?_⟩
      rw [hreply] at hpump ⊢
      rw [pump_left hnoleave]
      exact ⟨numbers_pump (numbers_dropWrite _ _), hpump.part .mem, hpump.part .plots⟩
    · have hreply := mirReply_error (s := s.heard) q hok hstale hserve
      refine ⟨_, exec_dataReply hup hfind, ?_⟩
      rw [hreply] at hpump ⊢
      have hrecord := ((Frame.refl [.regs, .recs, .recTick, .recLast] [.MIR_STAT, .RAS_RECHEAD, .RAS_RECLOST] (s.heard.mirFailed q)).incRc
        (f := F.MIR_STAT.DIVERGES) (i := 0) (j := 0) (n := 1)).record (e := { ErrRec.make s.heard.now sevRecoverable 0x25 0xFF with
          result := result, pa := q.pa, detail := [BitVec.ofNat 8 q.w] })
      have hmir := hrecord.part .mir
      obtain ⟨hnoleave, hnumbers⟩ := mirFailed_mir s.heard q
      rw [pump_left ((congrArg Mir.leave hmir).trans (hnoleave.trans hleave))]
      refine ⟨?_, numbers_pump (by rwa [hmir]), ?_⟩
      · refine (winState_of_frame hpump q.w).trans ((winState_of_frame hrecord q.w).trans (winState_diverge ?_))
        show s.heard.winState q.w ≠ 0
        rcases hserve with h | h | h <;> rw [show s.heard.winState q.w = _ from h] <;> decide
      · refine (hpump.rd (f := F.MIR_STAT.DIVERGES) 0 0).trans ((rd_record (by decide) (by decide) 0 0).trans ?_)
        rw [rd_incRc_same (by decide), (mirFailed_frame s.heard q).rd (f := F.MIR_STAT.DIVERGES) 0 0]
        rfl
  · intro seq stamp item
    refine ⟨fun hseq hearly => ⟨_, exec_stateMessage hup hseq hearly stamp item, ?_⟩, fun hold => ⟨_, exec_stateMessage_old hup hold stamp item, rfl,
      (heard_frame s).kept⟩⟩
    have hmir := itemTaken_mir s item
    refine ⟨by rw [hmir], by rw [hmir], by rw [hmir], ?_, ?_, ?_, ?_, ?_, (itemTaken_frame s item).kept⟩
    · rintro n e rfl
      rw [hmir]
      rfl
    · rintro n e rfl
      rw [hmir]
      rfl
    · rintro n e rfl
      rw [hmir]
      rfl
    · rintro q u h rfl
      exact ⟨congrArg Mir.image hmir, pseq_itemTaken s q u h⟩
    · rintro e ws rfl
      rw [hmir]
      rfl
  · intro ep set
    have hframed := framed_frame s port ep
    refine ⟨_, exec_epoch hup ep set, ?_, ?_, fun hnew => ?_, fun hold => ?_⟩
    · exact keptBut_onlyIf _ (hframed.mono.modMir (L := [.mir, .regs, .auditQ]) (R := [.MIR_PEPOCH])).kept (hframed.mono (R' := [.MIR_PEPOCH])).kept
    · exact onlyRegs_onlyIf _ (framed_onlyRegs s port ep) (framed_onlyRegs s port ep)
    · rw [onlyIf_pos hnew]
      refine ⟨(epoch_framed s port ep).trans (if_pos hnew), rfl⟩
    · rw [onlyIf_neg hold]
      exact ⟨(epoch_framed s port ep).trans (if_neg (by simp [hold])), by rw [framed_mir]⟩
  · have hframe := (committed_frame s).mono.after (announced_frame s) (L := [.regs, .auditQ, .mir, .out]) (R := [.MIR_WCTL])
    exact ⟨s.announced, exec_mirWindowCommit hheld hgood, ((announced_frame s).bit 0 0).trans (bit_wr_same (by decide) rfl 1),
      congrArg Mir.pend (announced_pumped s), congrArg Mir.commitAt (announced_pumped s), hframe.kept, fun p hp => epoch_mem_announced hp,
      fun r i j hr => ((announced_frame s).regs r List.not_mem_nil i j).trans (committed_onlyRegs s r i j hr)⟩
  · exact ⟨_, exec_mirWindowCommit_bad hheld hbad, bit_wr_same (by decide) rfl 1,
      keptBut_raise (keptBut_audit (keptBut_refl s _) _ _ _ _ _ _ _ (by decide)) _ _ _ (by decide),
      onlyRegs_raise (onlyRegs_refl s _) F.MIR_WCTL.REJ 0 0 (by decide)⟩
  · intro ws hpend hwrites hlen
    refine ⟨s.setServing ws, exec_mirWindowApply hpend hwrites, pend_setServing s ws, pending_setServing s ws, epoch_setServing s ws, fun w n hw hn => ?_,
      (setServing_frame s ws).kept⟩
    obtain ⟨u, hstate, hfields, hnext⟩ := window_setServing s hlen hn hw
    refine ⟨?_, ?_, ?_, ?_, fun hen hserve => ?_, fun hdiverged hs => ?_⟩
    · exact (congrArg (· == 1) (hfields F.MIR_ACT_CTL.EN (by decide) (by decide))).trans (en_winWritten u w n)
    · exact (congrArg (· == 1) (hfields F.MIR_ACT_CTL.SYNC (by decide) (by decide))).trans (sync_winWritten u w n)
    · exact (hfields F.MIR_ACT_BASE.ADDR (by decide) (by decide)).trans (base_winWritten u w n)
    · exact (hfields F.MIR_ACT_SIZE.UNITS (by decide) (by decide)).trans (units_winWritten u w n)
    · have hidle := winNext_idle hen (by rwa [hstate])
      rw [hnext (.inl hidle), hidle]
    · have hstays := winNext_diverged (by rwa [hstate]) hs
      rw [hnext (.inr hstays), hstays]
  · intro w hpaired hsync hall hcopies
    refine ⟨_, exec_syncPassDone hpaired hsync hall hcopies, winState_setWinState (by decide) w, (setWinState_frame s w 2).kept, ?_⟩
    exact onlyRegs_wr (onlyRegs_refl s _) F.MIR_ACT_CTL.STATE 2 w 0 (mem_elem (by omega) List.mem_cons_self)
  · intro p hpaired hdown
    have hframe := (requeue_frame s p).mono.after (mirPump_frame _) (L := [.out, .mir]) (R := [])
    exact ⟨_, exec_mirrorPortSwitch hpaired hdown, sent_pump_requeue hdown, hframe.part .mem, hframe.part .plots, hframe.part .flights⟩

end Sys2Proof.Machine
end

section
/-! What SEC's answers leave changed (R598, R602 to R605), and the frames of the operations on plots, key slots and tenants. -/

set_option Elab.async false

namespace Sys2Proof.Machine
section
variable {L : List Part} {R : List RegName} {s t u : State} {f : Nat} {sess : Option Nat} {typ cmd r d : Nat} {data : List Byte}

/-! ### Parts of the state -/

/-- SEC's own state but its audit queue. -/
theorem keptBut_secOnly (h : s.keptBut t L) (x : Sec) (hx : x.auditQ = t.sec.auditQ) (m0 : Part.sec ∈ L) : s.keptBut { t with sec := x } L := by
  intro p hp
  have h := h p hp
  cases p
  case sec => exact absurd m0 hp
  case auditQ => exact hx.trans h
  all_goals exact h

theorem keptBut_bytes_sec (h : s.keptBut t L) (x : Tbl Byte) (y : Sec) (hy : y.auditQ = t.sec.auditQ) (m0 : Part.bytes ∈ L) (m1 : Part.sec ∈ L) :
    s.keptBut { t with bytes := x, sec := y } L := by
  intro p hp
  have h := h p hp
  cases p
  case bytes => exact absurd m0 hp
  case sec => exact absurd m1 hp
  case auditQ => exact hy.trans h
  all_goals exact h

theorem Frame.sec {x : Sec} (h : Frame L R s t) (hx : x.auditQ = t.sec.auditQ := by rfl) (hL : Part.sec ∈ L := by decide) :
    Frame L R s { t with sec := x } := h.update (keptBut_secOnly (keptBut_refl t L) x hx hL) rfl

theorem Frame.of_kept (h : s.keptBut t L) (hL : Part.regs ∉ L := by decide) : Frame L R s t :=
  (Frame.refl L R s).update h (h .regs hL).1

theorem onlyRegs_of_frame {l : List (RegName × Nat × Nat)} (h : s.onlyRegs t l) (g : Frame L [] t u) : s.onlyRegs u l :=
  fun q i j hm => (g.regs q List.not_mem_nil i j).trans (h q i j hm)

theorem onlyRegs_trans {l : List (RegName × Nat × Nat)} (h : s.onlyRegs t l) (g : t.onlyRegs u l) : s.onlyRegs u l :=
  fun q i j hm => (g q i j hm).trans (h q i j hm)

theorem onlyRegs_mono {l l' : List (RegName × Nat × Nat)} (h : s.onlyRegs t l) (hl : ∀ x ∈ l, x ∈ l' := by simp) : s.onlyRegs t l' :=
  fun q i j hm => h q i j fun hx => hm (hl _ hx)

/-! ### A reply in a mailbox -/

/-- The bytes of a reply. -/
def replyBody (typ cmd detail : Nat) (data : List Byte) : List Byte :=
  [BitVec.ofNat 8 typ, BitVec.ofNat 8 cmd, BitVec.ofNat 8 detail, 0, 0, 0, 0, 0] ++ data.take 1016

/-- MBX_STATUS shows a reply of `n` bytes. -/
def State.mbxMark (s : State) (f n : Nat) : State := ((s.wr F.MBX_STATUS.BUSY 0 f).raise F.MBX_STATUS.DONE f).wr F.MBX_STATUS.RSP_LEN n f

/-- The attention code that function `f` sees. -/
def State.fnAttn (s : State) (f : Nat) : Nat := s.attnFor (s.fnReceiver f)

/-- The reply `b` is posted and said to function `f`. -/
def State.mbxWrite (s : State) (f : Nat) (sess : Option Nat) (r d : Nat) (b data : List Byte) : State :=
  (({ s with
      bytes := (b.zipIdx).foldl (fun t e => tset 0 t (mbxKey f (0xC00 + e.2)) e.1) s.bytes,
      sec := { s.sec with mbxQ := s.sec.mbxQ.filter (· != f) } } : State).send (.mailbox f sess r d data)).evt 13 0x07 0

/-- The status of a reply with result `r`. -/
def State.mbxStatus (s : State) (f r : Nat) : State := s.wr F.MBX_STATUS.STATUS (s.fnAttn f * 16 + r) f

theorem mbxPost_eq (s : State) (f : Nat) (sess : Option Nat) (typ cmd r d : Nat) (data : List Byte) :
    s.mbxPost f sess typ cmd r d data = ((s.mbxMark f (replyBody typ cmd d data).length).mbxStatus f r).mbxWrite f sess r d
      (replyBody typ cmd d data) data := by
  unfold State.mbxPost State.mbxWrite State.mbxStatus State.mbxMark State.fnAttn replyBody
  rfl

theorem mbxMark_frame (s : State) (f n : Nat) : Frame [.regs] [.MBX_STATUS] s (s.mbxMark f n) := (Frame.refl _ _ s).wr.raise.wr

theorem mbxStatus_frame (s : State) (f r : Nat) : Frame [.regs] [.MBX_STATUS] s (s.mbxStatus f r) := (Frame.refl _ _ s).wr

theorem mbxWrite_frame (s : State) (f : Nat) (sess : Option Nat) (r d : Nat) (b data : List Byte) :
    Frame [.bytes, .sec, .out, .pmus] [] s (s.mbxWrite f sess r d b data) := by
  refine (Frame.refl _ _ s).update ?_ rfl
  unfold State.mbxWrite
  refine keptBut_evt (keptBut_send ?_ _ (by decide)) _ _ _ (by decide)
  exact keptBut_bytes_sec (keptBut_refl s _) _ _ rfl (by decide) (by decide)

theorem mbxPost_sec (s : State) (f : Nat) (sess : Option Nat) (typ cmd r d : Nat) (data : List Byte) :
    (s.mbxPost f sess typ cmd r d data).sec = { s.sec with mbxQ := s.sec.mbxQ.filter (· != f) } := rfl

theorem mbxPost_out (s : State) (f : Nat) (sess : Option Nat) (typ cmd r d : Nat) (data : List Byte) :
    (s.mbxPost f sess typ cmd r d data).out = s.out ++ [.mailbox f sess r d data] := rfl

theorem mbxPost_frame (s : State) (f : Nat) (sess : Option Nat) (typ cmd r d : Nat) (data : List Byte) :
    Frame [.regs, .bytes, .sec, .out, .pmus] [.MBX_STATUS] s (s.mbxPost f sess typ cmd r d data) := by
  rw [mbxPost_eq]
  exact ((mbxMark_frame s f _).mono.after (mbxStatus_frame _ f r)).after (mbxWrite_frame _ f sess r d _ data)

theorem onlyRegs_mbxPost (s : State) (f : Nat) (sess : Option Nat) (typ cmd r d : Nat) (data : List Byte) :
    s.onlyRegs (s.mbxPost f sess typ cmd r d data) [(.MBX_STATUS, f % 2 ^ 14, 0)] := by
  have hmark (n : Nat) : s.onlyRegs (s.mbxMark f n) [(.MBX_STATUS, f % 2 ^ 14, 0)] :=
    onlyRegs_wr (onlyRegs_raise (onlyRegs_wr (onlyRegs_refl s _) F.MBX_STATUS.BUSY 0 f 0 List.mem_cons_self)
      F.MBX_STATUS.DONE f 0 List.mem_cons_self) F.MBX_STATUS.RSP_LEN n f 0 List.mem_cons_self
  rw [mbxPost_eq]
  exact onlyRegs_of_frame (onlyRegs_wr (hmark _) F.MBX_STATUS.STATUS _ f 0 List.mem_cons_self) (mbxWrite_frame _ f sess r d _ data)

/-- A reply shows in MBX_STATUS. -/
theorem status_mbxPost (s : State) (f : Nat) (sess : Option Nat) (typ cmd r d : Nat) (data : List Byte) :
    (s.mbxPost f sess typ cmd r d data).bit F.MBX_STATUS.BUSY f = false ∧ (s.mbxPost f sess typ cmd r d data).bit F.MBX_STATUS.DONE f = true ∧
      (s.mbxPost f sess typ cmd r d data).rd F.MBX_STATUS.STATUS f % 16 = r % 16 := by
  have hbusy (n : Nat) : (s.mbxMark f n).rd F.MBX_STATUS.BUSY f = 0 := by
    rw [State.mbxMark, rd_wr_apart (by decide) (by decide), rd_raise_apart (by decide) (by decide), rd_wr_same (by decide)]
    rfl
  have hdone (n : Nat) : (s.mbxMark f n).rd F.MBX_STATUS.DONE f = 1 := by
    rw [State.mbxMark, rd_wr_apart (by decide) (by decide), rd_raise, rd_wr_same (by decide)]
    rfl
  rw [mbxPost_eq]
  have hwrite := mbxWrite_frame ((s.mbxMark f (replyBody typ cmd d data).length).mbxStatus f r) f sess r d (replyBody typ cmd d data) data
  rw [hwrite.bit (f := F.MBX_STATUS.BUSY) f 0, hwrite.bit (f := F.MBX_STATUS.DONE) f 0, hwrite.rd (f := F.MBX_STATUS.STATUS) f 0]
  unfold State.mbxStatus
  refine ⟨?_, ?_, ?_⟩
  · rw [State.bit, rd_wr_apart (by decide) (by decide), hbusy]
    rfl
  · rw [State.bit, rd_wr_apart (by decide) (by decide), hdone]
    rfl
  · rw [rd_wr_same (by decide)]
    show (_ * 16 + r) % 256 % 16 = r % 16
    omega

theorem answered_mbxPost (h : t.out = s.out) (f : Nat) (sess : Option Nat) (typ cmd r d : Nat) (data : List Byte) :
    s.answered (t.mbxPost f sess typ cmd r d data) f sess r d data :=
  ⟨by rw [mbxPost_out, h], status_mbxPost t f sess typ cmd r d data⟩

/-! ### Serving (R565, R598) -/

/-- The state with which SEC finds out whether a command needs an audit entry. -/
def State.unaudited (s : State) : State := { s with endpoint := [], sec := { s.sec with auditQ := [] } }

theorem served_room (hroom : s.auditFull = false) (run : State → State) : s.served run = run s := by
  unfold State.served
  rw [hroom]
  rfl

/-- What was served without an entry, with the entries that wait put back. -/
def State.reaudited (s t : State) : State := { t with endpoint := s.endpoint, sec := { t.sec with auditQ := s.sec.auditQ } }

/-- A command that needs no entry is served whether there is room or not. -/
theorem served_quiet {run : State → State} (hquiet : (run s.unaudited).sec.auditQ = []) (hsame : s.reaudited (run s.unaudited) = run s) :
    s.served run = run s := by
  unfold State.served
  split
  · rfl
  · have hempty : (run s.unaudited).sec.auditQ.isEmpty = true := by rw [hquiet]; rfl
    show (if (run s.unaudited).sec.auditQ.isEmpty = true then s.reaudited (run s.unaudited) else s) = run s
    rw [if_pos hempty, hsame]

/-- A command that needs an entry waits where there is no room. -/
theorem served_waits {run : State → State} (hfull : s.auditFull = true) (hneeds : (run s.unaudited).sec.auditQ ≠ []) : s.served run = s := by
  have hempty : (run s.unaudited).sec.auditQ.isEmpty = false := by simpa using hneeds
  unfold State.served
  rw [hfull]
  show (if (run s.unaudited).sec.auditQ.isEmpty = true then s.reaudited (run s.unaudited) else s) = s
  rw [hempty]
  rfl

theorem mbxWrite_reaudited {x : State} (he : x.endpoint = s.endpoint) (hq : x.sec.auditQ = s.sec.auditQ) (f : Nat) (sess : Option Nat) (r d : Nat)
    (b data : List Byte) : s.reaudited (x.unaudited.mbxWrite f sess r d b data) = x.mbxWrite f sess r d b data := by
  unfold State.reaudited
  rw [← he, ← hq]
  rfl

theorem mbxPost_reaudited (s : State) (f : Nat) (sess : Option Nat) (typ cmd r d : Nat) (data : List Byte) :
    s.reaudited (s.unaudited.mbxPost f sess typ cmd r d data) = s.mbxPost f sess typ cmd r d data := by
  have hwr (u : State) (g : Fld) (v : Nat) : u.unaudited.wr g v f = (u.wr g v f).unaudited := rfl
  have hraise (u : State) (g : Fld) : u.unaudited.raise g f = (u.raise g f).unaudited := rfl
  have hmark (n : Nat) : s.unaudited.mbxMark f n = (s.mbxMark f n).unaudited := by
    unfold State.mbxMark
    rw [hwr, hraise, hwr]
  have hattn (u : State) : u.unaudited.fnAttn f = u.fnAttn f := rfl
  have hstatus (u : State) : u.unaudited.mbxStatus f r = (u.mbxStatus f r).unaudited := by
    unfold State.mbxStatus
    rw [hattn, hwr]
  have hframe (n : Nat) : Frame [.regs] [.MBX_STATUS] s ((s.mbxMark f n).mbxStatus f r) := (mbxMark_frame s f n).trans (mbxStatus_frame _ f r)
  rw [mbxPost_eq, mbxPost_eq, hmark, hstatus, mbxWrite_reaudited ((hframe _).part .endpoint) ((hframe _).part .auditQ)]

theorem serve_eq {args : List Byte} (hok : s.mbxOk f 0x10 cmd args = true) (hretry : s.mbxRetry = false) (hup : s.secUp = true)
    (run : State → State × Nat × Nat × List Byte) :
    s.serve f cmd args run = s.served fun s => (run s).1.mbxPost f none 0x10 cmd (run s).2.1 (run s).2.2.1 (run s).2.2.2 := by
  unfold State.serve
  rw [hok, hretry, hup]
  rfl

/-- A plain command whose answer changes nothing is answered at once. -/
theorem serve_answers {args : List Byte} {run : State → State × Nat × Nat × List Byte} (hok : s.mbxOk f 0x10 cmd args = true)
    (hretry : s.mbxRetry = false) (hup : s.secUp = true) (hrun : run s = (s, r, d, data)) (hfree : run s.unaudited = (s.unaudited, r, d, data)) :
    s.serve f cmd args run = s.mbxPost f none 0x10 cmd r d data := by
  rw [serve_eq hok hretry hup, served_quiet, hrun]
  · rw [hfree]
    rfl
  · rw [hfree, hrun]
    exact mbxPost_reaudited s f none 0x10 cmd r d data

theorem serve_runs {args : List Byte} {run : State → State × Nat × Nat × List Byte} (hok : s.mbxOk f 0x10 cmd args = true)
    (hretry : s.mbxRetry = false) (hup : s.secUp = true) (hroom : s.auditFull = false) (hrun : run s = (t, r, d, data)) :
    s.serve f cmd args run = t.mbxPost f none 0x10 cmd r d data := by
  rw [serve_eq hok hretry hup, served_room hroom, hrun]

end
end Sys2Proof.Machine
end

section
/-! PF0's commands of tenants, bindings and the audit chain (R561, R567 to R570, R599 to R606). -/

set_option Elab.async false

namespace Sys2Proof.Machine
section
variable {L : List Part} {R : List RegName} {s t u : State} {f : FnIx} {n : Nat}

/-! ### Audit entries (R596) -/

/-- An entry that waits goes on waiting when entries come after it. -/
def State.auditGrows (s t : State) : Prop := ∀ e ∈ s.sec.auditQ, e ∈ t.sec.auditQ

theorem auditGrows_audit (s : State) (a b c d e g : Nat) (x : BitVec 256) : s.auditGrows (s.audit a b c d e g x) := by
  intro y hy
  unfold State.audit
  by_cases hb : y.before (s.nowAt 12) (auditRank a b) = true
  · exact List.mem_append_left _ (List.mem_filter.2 ⟨hy, hb⟩)
  · exact List.mem_append_right _ (List.mem_cons_of_mem _ (List.mem_filter.2 ⟨hy, by simp [hb]⟩))

/-- The entry of a change that takes effect now joins the queue. -/
theorem queued_audit (h : t.nowAt 12 = s.nowAt 12) (a b c d e g : Nat) (x : BitVec 256) : s.queued (t.audit a b c d e g x) a b c d e g := by
  refine ⟨x, ?_⟩
  rw [← h]
  exact List.mem_append_right _ List.mem_cons_self

theorem queued_grows {a b c d e g : Nat} (h : s.queued t a b c d e g) (hg : t.auditGrows u) : s.queued u a b c d e g := by
  obtain ⟨x, hx⟩ := h
  exact ⟨x, hg _ hx⟩

theorem auditGrows_of_frame (h : Frame L R t u) (hL : Part.auditQ ∉ L := by decide) : t.auditGrows u := by
  intro e he
  have hq : u.sec.auditQ = t.sec.auditQ := h.part .auditQ hL
  rwa [hq]

theorem nowAt_of_clk (h : t.clk = s.clk) (i : Nat) : t.nowAt i = s.nowAt i := by
  unfold State.nowAt
  rw [h]

/-! ### A command's answer -/

/-- What an answer without an effect leaves. -/
theorem answer_only (h : s.mbxPost f none 0x10 n r d data = u) :
    s.answered u f none r d data ∧ u.sec = { s.sec with mbxQ := s.sec.mbxQ.filter (· != f.val) } ∧
      s.keptBut u [.regs, .bytes, .sec, .out, .pmus] ∧ s.onlyRegs u [(.MBX_STATUS, f, 0)] := by
  subst h
  refine ⟨answered_mbxPost rfl f none _ _ r d data, rfl, (mbxPost_frame s f none _ _ r d data).kept, ?_⟩
  have hf : f.val % 2 ^ 14 = f := Nat.mod_eq_of_lt (f.isLt.trans (by decide))
  have honly := onlyRegs_mbxPost s f none 0x10 n r d data
  rwa [hf] at honly

/-! ### Tenants (R561, R602) -/

/-- A tenant record takes a value. -/
def State.setTenant (s : State) (n : Nat) (v : Option Tenant) : State := { s with sec := { s.sec with tenants := tset none s.sec.tenants n v } }

theorem setTenant_frame (s : State) (n : Nat) (v : Option Tenant) : Frame [.sec] [] s (s.setTenant n v) :=
  (Frame.refl _ _ s).update (keptBut_secOnly (keptBut_refl s _) _ rfl (by decide)) rfl

/-- A tenant record changes, with its audit entry, and the command is answered. -/
theorem tenant_answered {v : Option Tenant} {old new : Nat} (h : ((s.setTenant n v).audit 1 0 5 n old new).mbxPost 0 none 0x10 cmd rOK 0 [] = u) :
    s.answered u 0 none rOK 0 [] ∧ u.sec = { s.sec with
        mbxQ := s.sec.mbxQ.filter (· != 0), auditQ := u.sec.auditQ, tenants := tset none s.sec.tenants n v } ∧
      s.queued u 1 0 5 n old new ∧ s.keptBut u [.regs, .bytes, .sec, .auditQ, .out, .pmus] ∧ s.onlyRegs u [(.MBX_STATUS, 0, 0)] := by
  subst h
  have haudit : Frame [.sec, .auditQ] [] s ((s.setTenant n v).audit 1 0 5 n old new) := (setTenant_frame s n v).mono.audit
  have hpost := mbxPost_frame ((s.setTenant n v).audit 1 0 5 n old new) 0 none 0x10 cmd rOK 0 []
  refine ⟨answered_mbxPost (haudit.part .out) 0 none _ _ rOK 0 [], ?_, queued_grows (queued_audit rfl 1 0 5 n old new 0) fun e he => ?_,
    (haudit.mono.after hpost (L := [.regs, .bytes, .sec, .auditQ, .out, .pmus]) (R := [.MBX_STATUS])).kept,
    onlyRegs_trans (onlyRegs_of_frame (onlyRegs_refl s _) haudit) (onlyRegs_mbxPost _ 0 none _ _ rOK 0 [])⟩
  · rw [mbxPost_sec]
    rfl
  · rwa [mbxPost_sec]

variable (hup : s.secUp = true) (hretry : s.mbxRetry = false)
include hup hretry

theorem exec_tenantCreate_denied {t : Byte} {digest : BitVec 384} (hok : s.mbxOk f 0x10 0x01 ([t] ++ List.replicate 7 0 ++ leBytes digest 48) = true)
    (hf : f.val ≠ 0) : exec (.tenantCreate f t digest) s = .next (s.mbxPost f none 0x10 0x01 rDENIED 2 []) := by
  show execTenantCreate f t digest s = _
  unfold execTenantCreate
  rw [serve_answers hok hretry hup (if_pos (by simpa using hf)) (if_pos (by simpa using hf))]

theorem exec_tenantCreate_waits {t : Byte} {digest : BitVec 384} (hok : s.mbxOk f 0x10 0x01 ([t] ++ List.replicate 7 0 ++ leBytes digest 48) = true)
    (hf : f.val = 0) (ht : t ≠ 0) (hnew : s.tenantExists t.toNat = false) (hfull : s.auditFull = true) :
    exec (.tenantCreate f t digest) s = .next s := by
  have hnew' : s.unaudited.tenantExists t.toNat = false := hnew
  show execTenantCreate f t digest s = _
  unfold execTenantCreate
  rw [serve_eq hok hretry hup, served_waits hfull]
  simp only [hf, ht, hnew', bne_self_eq_false, Bool.false_eq_true, if_false]
  exact List.cons_ne_nil _ _

theorem exec_tenantCreate {t : Byte} {digest : BitVec 384} (hok : s.mbxOk f 0x10 0x01 ([t] ++ List.replicate 7 0 ++ leBytes digest 48) = true)
    (hf : f.val = 0) (ht : t ≠ 0) (hnew : s.tenantExists t.toNat = false) (hroom : s.auditFull = false) :
    exec (.tenantCreate f t digest) s =
      .next (((s.setTenant t.toNat (some ⟨digest, none⟩)).audit 1 0 5 t.toNat 0 1).mbxPost 0 none 0x10 0x01 rOK 0 []) := by
  show execTenantCreate f t digest s = _
  unfold execTenantCreate
  rw [serve_eq hok hretry hup, served_room hroom]
  simp only [hf, ht, hnew, bne_self_eq_false, Bool.false_eq_true, if_false]
  rfl

theorem exec_tenantDelete_denied {t : Byte} (hok : s.mbxOk f 0x10 0x02 [t] = true) (hf : f.val ≠ 0) :
    exec (.tenantDelete f t) s = .next (s.mbxPost f none 0x10 0x02 rDENIED 2 []) := by
  show execTenantDelete f t s = _
  unfold execTenantDelete
  rw [serve_answers hok hretry hup (if_pos (by simpa using hf)) (if_pos (by simpa using hf))]

theorem exec_tenantDelete {t : Byte} (hok : s.mbxOk f 0x10 0x02 [t] = true) (hf : f.val = 0) (ht : t ≠ 0) (hold : s.tenantExists t.toNat = true)
    (hsess : s.sessionsOf t.toNat = 0)
    (hbind : ∀ e ∈ s.sec.binds, (e.2.bound && e.2.tenant == t.toNat) = false ∧ (e.2.offered && e.2.offerTenant == t.toNat) = false)
    (hslots : s.slotsOf t.toNat = []) (hplots : ∀ e ∈ s.plots, e.2.owner = t.toNat → e.2.state = .free) (hroom : s.auditFull = false) :
    exec (.tenantDelete f t) s = .next (((s.setTenant t.toNat none).audit 1 0 5 t.toNat 1 0).mbxPost 0 none 0x10 0x02 rOK 0 []) := by
  have hbinds : (s.sec.binds.any fun e => (e.2.bound && e.2.tenant == t.toNat) || (e.2.offered && e.2.offerTenant == t.toNat)) = false :=
    List.any_eq_false.2 fun e he => by simp [(hbind e he).1, (hbind e he).2]
  have howned : (s.plots.any fun e => e.2.owner == t.toNat && e.2.state != .free) = false := List.any_eq_false.2 fun e he => by
    intro h
    obtain ⟨howner, hstate⟩ := Bool.and_eq_true _ _ ▸ h
    exact absurd (hplots e he (by simpa using howner)) (by simpa using hstate)
  show execTenantDelete f t s = _
  unfold execTenantDelete
  rw [serve_eq hok hretry hup, served_room hroom]
  simp only [hf, ht, hold, hsess, hbinds, hslots, howned, bne_self_eq_false, Bool.false_eq_true, if_false, Bool.not_true, List.isEmpty_nil,
    lt_self_iff_false, decide_false, Bool.or_false]
  rfl

omit hup hretry

/-! ### Bindings (R567 to R570) -/

theorem setBind_sec (s : State) (o : Origin) (n : Nat) (b : Bind) :
    ∃ q, (s.setBind o n b).sec = { s.sec with binds := tset ⟨false, 0, false, 0⟩ s.sec.binds n b, auditQ := q } := by
  unfold State.setBind
  split <;> exact ⟨_, rfl⟩

theorem bind_setBind_same (s : State) (o : Origin) (n : Nat) (b : Bind) : (s.setBind o n b).bind n = b := by
  obtain ⟨q, hq⟩ := setBind_sec s o n b
  rw [State.bind, hq, tget_tset_same]

theorem bind_setBind_other (o : Origin) (b : Bind) {m : Nat} (h : m ≠ n) : (s.setBind o n b).bind m = s.bind m := by
  obtain ⟨q, hq⟩ := setBind_sec s o n b
  rw [State.bind, hq, tget_tset_other _ _ _ _ h]
  rfl

/-- The state in which PORT_BIND of a port shows its binding. -/
def State.portBind (s : State) (n : Nat) (b : Bind) : State :=
  if n < 24 then { (s.wr F.PORT_BIND.BOUND b.bound.toNat n).wr F.PORT_BIND.TENANT b.tenant n with latokDue := true } else s

theorem portBind_frame (s : State) (n : Nat) (b : Bind) : Frame [.regs, .latokDue] [.PORT_BIND] s (s.portBind n b) := by
  have hwr : Frame [.regs, .latokDue] [.PORT_BIND] s ((s.wr F.PORT_BIND.BOUND b.bound.toNat n).wr F.PORT_BIND.TENANT b.tenant n) :=
    (Frame.refl _ _ s).wr.wr
  exact Frame.ite (hwr.update (keptBut_latokDue (keptBut_refl _ _) true (by decide)) rfl) (Frame.refl _ _ s)

/-- The state with a binding or offer in SEC's table. -/
def State.bindSet (s : State) (n : Nat) (b : Bind) : State :=
  { s with sec := { s.sec with binds := tset ⟨false, 0, false, 0⟩ s.sec.binds n b } }

theorem bindSet_frame (s : State) (n : Nat) (b : Bind) : Frame [.sec] [] s (s.bindSet n b) :=
  (Frame.refl _ _ s).update (keptBut_secOnly (keptBut_refl s _) _ rfl (by decide)) rfl

theorem setBind_eq (s : State) (o : Origin) (n : Nat) (b : Bind) :
    ∃ v w, s.setBind o n b = ((s.bindSet n b).portBind n b).audit o.kind o.id 3 n v w := ⟨_, _, rfl⟩

theorem setBind_frame (s : State) (o : Origin) (n : Nat) (b : Bind) :
    Frame [.regs, .sec, .auditQ, .latokDue] [.PORT_BIND] s (s.setBind o n b) := by
  obtain ⟨v, w, heq⟩ := setBind_eq s o n b
  rw [heq]
  exact ((bindSet_frame s n b).mono.after (portBind_frame _ n b)).audit

theorem onlyRegs_setBind (s : State) (o : Origin) (n : Nat) (b : Bind) : s.onlyRegs (s.setBind o n b) [(.PORT_BIND, n % 2 ^ 14, 0)] := by
  obtain ⟨v, w, heq⟩ := setBind_eq s o n b
  have haudit : ((s.bindSet n b).portBind n b).regs = (s.setBind o n b).regs := by rw [heq]; rfl
  refine onlyRegs_regs ?_ haudit.symm
  unfold State.portBind
  split
  · exact onlyRegs_regs (onlyRegs_wr (onlyRegs_wr (onlyRegs_regs (onlyRegs_refl s _) rfl) F.PORT_BIND.BOUND _ n 0 List.mem_cons_self)
      F.PORT_BIND.TENANT _ n 0 List.mem_cons_self) rfl
  · exact onlyRegs_regs (onlyRegs_refl s _) rfl

/-- PORT_BIND of a fabric port shows its binding. -/
theorem port_setBind (s : State) (o : Origin) (b : Bind) (hn : n < 24) :
    (s.setBind o n b).bit F.PORT_BIND.BOUND n = b.bound ∧ (s.setBind o n b).rd F.PORT_BIND.TENANT n = b.tenant % 2 ^ F.PORT_BIND.TENANT.len := by
  obtain ⟨v, w, heq⟩ := setBind_eq s o n b
  have hregs : (s.setBind o n b).regs = (((s.bindSet n b).wr F.PORT_BIND.BOUND b.bound.toNat n).wr F.PORT_BIND.TENANT b.tenant n).regs := by
    rw [heq]
    unfold State.portBind
    rw [if_pos hn]
    rfl
  rw [bit_of_regs hregs, rd_of_regs hregs]
  refine ⟨?_, rd_wr_same (by decide) _⟩
  rw [State.bit, rd_wr_apart (by decide) (by decide)]
  exact bit_wr_bool (by decide) rfl b.bound

theorem breakOwned_frame (s : State) (p : Nat) : Frame [.locks, .holds] [] s (s.breakOwned p) := by
  unfold State.breakOwned
  exact (Frame.refl _ _ s).holds_locks

theorem unbindTarget_offer (o : Origin) (h : (s.bind n).bound = false) : s.unbindTarget o n = s.setBind o n ⟨false, 0, false, 0⟩ := by
  simp [State.unbindTarget, h]

theorem unbindTarget_port (o : Origin) (h : (s.bind n).bound = true) (hn : n < 24)
    (hgo : (s.flights.filter fun g => g.req == n && g.unissued && !g.dead) = []) :
    s.unbindTarget o n = (s.setBind o n ⟨false, 0, false, 0⟩).breakOwned n := by
  have hflights : (s.setBind o n ⟨false, 0, false, 0⟩).flights = s.flights := (setBind_frame s o n _).part .flights
  simp [State.unbindTarget, h, hn, hflights, hgo]

theorem breaking_unbindTarget {o : Origin} {l : Lock} (hl : l ∈ s.locks) (howner : l.owner = n) (hbroken : l.broken = false) :
    { l with breaking := true } ∈ ((s.setBind o n ⟨false, 0, false, 0⟩).breakOwned n).locks := by
  have hlocks : (s.setBind o n ⟨false, 0, false, 0⟩).locks = s.locks := (setBind_frame s o n _).part .locks
  exact List.mem_map.2 ⟨l, hlocks ▸ hl, by simp [howner, hbroken]⟩

variable (hup : s.secUp = true) (hretry : s.mbxRetry = false)
include hup hretry

theorem exec_bindOffer_denied {target : Fin 256} {t : Byte} (hok : s.mbxOk f 0x10 0x03 [BitVec.ofNat 8 target.val, t] = true) (hf : f.val ≠ 0) :
    exec (.bindOffer f target t) s = .next (s.mbxPost f none 0x10 0x03 rDENIED 2 []) := by
  show execBindOffer f target t s = _
  unfold execBindOffer
  rw [serve_answers hok hretry hup (if_pos (by simpa using hf)) (if_pos (by simpa using hf))]

theorem exec_bindOffer {target : Fin 256} {t : Byte} (hok : s.mbxOk f 0x10 0x03 [BitVec.ofNat 8 target.val, t] = true) (hf : f.val = 0)
    (hbindable : bindable target = true) (hexists : s.tenantExists t.toNat = true) (ht : t ≠ 0) (hfree : (s.bind target).bound = false)
    (hroom : s.auditFull = false) :
    exec (.bindOffer f target t) s = .next ((s.setBind (Origin.fn 0) target ⟨false, 0, true, t.toNat⟩).mbxPost 0 none 0x10 0x03 rOK 0 []) := by
  have hn : t.toNat ≠ 0 := fun h => ht (BitVec.eq_of_toNat_eq h)
  show execBindOffer f target t s = _
  unfold execBindOffer
  rw [serve_eq hok hretry hup, served_room hroom]
  simp only [hf, hn, hbindable, hexists, hfree, bne_self_eq_false, Bool.false_eq_true, if_false, Bool.not_true]

theorem exec_bindOffer_bound {target : Fin 256} {t : Byte} (hok : s.mbxOk f 0x10 0x03 [BitVec.ofNat 8 target.val, t] = true) (hf : f.val = 0)
    (hbindable : bindable target = true) (hexists : s.tenantExists t.toNat = true) (hbound : (s.bind target).bound = true) :
    exec (.bindOffer f target t) s = .next (s.mbxPost f none 0x10 0x03 rDENIED 4 []) := by
  have hexists' : s.unaudited.tenantExists t.toNat = true := hexists
  have hbound' : (s.unaudited.bind target).bound = true := hbound
  show execBindOffer f target t s = _
  unfold execBindOffer
  rw [serve_answers hok hretry hup (r := rDENIED) (d := 4) (data := [])]
  · simp [hf, hbindable, hexists, hbound]
  · simp [hf, hbindable, hexists', hbound']

theorem exec_unbind {target : Fin 256} (hok : s.mbxOk 0 0x10 0x04 [BitVec.ofNat 8 target.val] = true) (hbindable : bindable target = true)
    (hroom : s.auditFull = false) (hheld : ((s.bind target).bound || (s.bind target).offered) = true) :
    exec (.unbind none 0 target) s = .next ((s.unbindTarget (Origin.fn 0) target).mbxPost 0 none 0x10 0x04 rOK 0 []) := by
  show execUnbind none 0 target s = _
  simp only [execUnbind]
  rw [serve_eq (f := (0 : FnIx).val) hok hretry hup, served_room hroom]
  simp [hbindable, hheld]

/-! ### The audit chain's commands (R599 to R606) -/

theorem exec_auditAck_denied {q : W64} (hok : s.mbxOk f 0x10 0x05 (leBytes q 8) = true) (hf : f.val ≠ 0) :
    exec (.auditAck f q) s = .next (s.mbxPost f none 0x10 0x05 rDENIED 2 []) := by
  show execAuditAck f q s = _
  unfold execAuditAck
  rw [serve_answers hok hretry hup (if_pos (by simpa using hf)) (if_pos (by simpa using hf))]

theorem exec_auditAck {q : W64} (hok : s.mbxOk f 0x10 0x05 (leBytes q 8) = true) (hf : f.val = 0) (hlow : s.rd F.AUDIT_ACK.VALUE ≤ q.toNat)
    (hhigh : q.toNat ≤ s.rd F.AUDIT_SEQ.VALUE) (hroom : s.auditFull = false) :
    exec (.auditAck f q) s = .next (((s.wr F.AUDIT_ACK.VALUE q.toNat).auditReg 0x2810008 (s.rd F.AUDIT_ACK.VALUE) q.toNat).mbxPost 0 none
      0x10 0x05 rOK 0 []) := by
  show execAuditAck f q s = _
  unfold execAuditAck
  rw [serve_eq hok hretry hup, served_room hroom]
  simp only [hf, Nat.not_lt.2 hlow, Nat.not_lt.2 hhigh, bne_self_eq_false, Bool.false_eq_true, if_false, or_self]

theorem exec_auditHead (hok : s.mbxOk f 0x10 0x06 [] = true) : exec (.auditHead f) s = .next (s.mbxPost f none 0x10 0x06 rOK 0
    (leBytes (BitVec.ofNat 64 (s.rd F.AUDIT_SEQ.VALUE - 1)) 8 ++ leBytes (BitVec.ofNat 64 s.sec.headStamp) 8 ++
      leBytes s.sec.head 48 ++ leBytes (BitVec.ofNat 64 s.sec.ckptLast) 8)) := by
  show execAuditHead f s = _
  unfold execAuditHead
  rw [serve_answers hok hretry hup rfl rfl]

theorem exec_ckptGet {slot : BitVec 16} (hok : s.mbxOk f 0x10 0x07 (leBytes slot 2) = true) (hslot : slot.toNat < 512) :
    exec (.ckptGet f slot) s = .next (s.mbxPost f none 0x10 0x07 rOK 0 (leBytes ((tget none s.sec.ckpts slot.toNat).getD 0) 256)) := by
  show execCkptGet f slot s = _
  unfold execCkptGet
  rw [serve_answers hok hretry hup (if_neg (by omega)) (if_neg (by omega))]

theorem exec_ckptGet_outside {slot : BitVec 16} (hok : s.mbxOk f 0x10 0x07 (leBytes slot 2) = true) (hslot : 512 ≤ slot.toNat) :
    exec (.ckptGet f slot) s = .next (s.mbxPost f none 0x10 0x07 rUNSUP 1 []) := by
  show execCkptGet f slot s = _
  unfold execCkptGet
  rw [serve_answers hok hretry hup (if_pos hslot) (if_pos hslot)]

end

section
variable {s t : State} {L : List Part}

theorem onlyRegs_posted {l : List (RegName × Nat × Nat)} (h : s.onlyRegs t l) (cmd : Nat) :
    s.onlyRegs (t.mbxPost 0 none 0x10 cmd rOK 0 []) ((.MBX_STATUS, 0, 0) :: l) :=
  onlyRegs_trans (onlyRegs_mono h fun _ hx => List.mem_cons_of_mem _ hx)
    (onlyRegs_mono (onlyRegs_mbxPost t 0 none _ cmd rOK 0 []) fun x hx => by rw [List.mem_singleton.1 hx]; exact List.mem_cons_self)

theorem bind_mbxPost (t : State) (f : Nat) (sess : Option Nat) (typ cmd r d : Nat) (data : List Byte) (n : Nat) :
    (t.mbxPost f sess typ cmd r d data).bind n = t.bind n := by
  rw [State.bind, mbxPost_sec]
  rfl

/-- What an answer to PF0 leaves of a binding's change. -/
theorem bind_answered {target : Fin 256} (o : Origin) (b : Bind) (cmd : Nat) :
    let u := (s.setBind o target b).mbxPost 0 none 0x10 cmd rOK 0 []
    s.answered u 0 none rOK 0 [] ∧ u.bind target = b ∧ (∀ n, n ≠ target.val → u.bind n = s.bind n) ∧
      s.keptBut u [.regs, .bytes, .sec, .auditQ, .out, .pmus, .latokDue] ∧ s.onlyRegs u [(.MBX_STATUS, 0, 0), (.PORT_BIND, target, 0)] := by
  have hbind := setBind_frame s o target b
  have honly := onlyRegs_setBind s o target b
  rw [Nat.mod_eq_of_lt (target.isLt.trans (by decide))] at honly
  refine ⟨answered_mbxPost (hbind.part .out) 0 none _ _ rOK 0 [], (bind_mbxPost _ 0 none _ _ _ _ _ _).trans (bind_setBind_same s o target b),
    fun n hn => (bind_mbxPost _ 0 none _ _ _ _ _ _).trans (bind_setBind_other o b hn),
    (hbind.mono.after (mbxPost_frame _ 0 none _ cmd rOK 0 []) (L := [.regs, .bytes, .sec, .auditQ, .out, .pmus, .latokDue])
      (R := [.MBX_STATUS, .PORT_BIND])).kept, onlyRegs_posted honly cmd⟩

/-- What an answer to PF0 leaves of a port's unbinding. -/
theorem unbind_answered {target : Fin 256} (htarget : target.val < 24) (o : Origin) (cmd : Nat) :
    let u := ((s.setBind o target ⟨false, 0, false, 0⟩).breakOwned target).mbxPost 0 none 0x10 cmd rOK 0 []
    s.answered u 0 none rOK 0 [] ∧ u.bind target = ⟨false, 0, false, 0⟩ ∧ u.bit F.PORT_BIND.BOUND target = false ∧
      (∀ n, n ≠ target.val → u.bind n = s.bind n) ∧
      (∀ l ∈ s.locks, l.owner = target.val → l.broken = false → { l with breaking := true } ∈ u.locks) ∧
      s.keptBut u [.regs, .bytes, .sec, .auditQ, .out, .pmus, .locks, .holds, .latokDue] := by
  have hbind : Frame [.regs, .sec, .auditQ, .latokDue, .locks, .holds] [.PORT_BIND] s
      ((s.setBind o target ⟨false, 0, false, 0⟩).breakOwned target) := (setBind_frame s o target _).mono.after (breakOwned_frame _ target)
  have hpost := mbxPost_frame ((s.setBind o target ⟨false, 0, false, 0⟩).breakOwned target) 0 none 0x10 cmd rOK 0 []
  refine ⟨answered_mbxPost (hbind.part .out) 0 none _ _ rOK 0 [], (bind_mbxPost _ 0 none _ _ _ _ _ _).trans (bind_setBind_same s o target _),
    (hpost.bit target 0).trans (((breakOwned_frame _ target).bit target 0).trans (port_setBind s o _ htarget).1),
    fun n hn => (bind_mbxPost _ 0 none _ _ _ _ _ _).trans (bind_setBind_other o _ hn), fun l hl howner hbroken => ?_,
    (hbind.mono.after hpost (L := [.regs, .bytes, .sec, .auditQ, .out, .pmus, .locks, .holds, .latokDue]) (R := [.MBX_STATUS, .PORT_BIND])).kept⟩
  have hlocks := hpost.part .locks
  rw [show _ = _ from hlocks]
  exact breaking_unbindTarget hl howner hbroken

/-- What an answer to PF0 leaves of AUDIT_ACK's advance. -/
theorem ack_answered (q : W64) (cmd : Nat) :
    let u := ((s.wr F.AUDIT_ACK.VALUE q.toNat).auditReg 0x2810008 (s.rd F.AUDIT_ACK.VALUE) q.toNat).mbxPost 0 none 0x10 cmd rOK 0 []
    s.answered u 0 none rOK 0 [] ∧ u.rd F.AUDIT_ACK.VALUE = q.toNat ∧ s.keptBut u [.regs, .bytes, .sec, .auditQ, .out, .pmus] ∧
      s.onlyRegs u [(.MBX_STATUS, 0, 0), (.AUDIT_ACK, 0, 0)] := by
  have hack : Frame [.regs, .auditQ] [.AUDIT_ACK] s ((s.wr F.AUDIT_ACK.VALUE q.toNat).auditReg 0x2810008 (s.rd F.AUDIT_ACK.VALUE) q.toNat) :=
    (Frame.refl _ _ s).wr.auditReg
  have hregs := auditReg_regs (s.wr F.AUDIT_ACK.VALUE q.toNat) 0x2810008 (s.rd F.AUDIT_ACK.VALUE) q.toNat
  have hpost := mbxPost_frame ((s.wr F.AUDIT_ACK.VALUE q.toNat).auditReg 0x2810008 (s.rd F.AUDIT_ACK.VALUE) q.toNat) 0 none 0x10 cmd rOK 0 []
  refine ⟨answered_mbxPost (hack.part .out) 0 none _ _ rOK 0 [], ?_,
    (hack.mono.after hpost (L := [.regs, .bytes, .sec, .auditQ, .out, .pmus]) (R := [.MBX_STATUS, .AUDIT_ACK])).kept,
    onlyRegs_posted (onlyRegs_regs (onlyRegs_wr (onlyRegs_refl s _) F.AUDIT_ACK.VALUE _ 0 0 List.mem_cons_self) hregs) cmd⟩
  rw [hpost.rd (f := F.AUDIT_ACK.VALUE) 0 0, rd_of_regs hregs, rd_wr_same (by decide)]
  exact Nat.mod_eq_of_lt q.isLt

end

/-- Settles O14: each command is served at once, and answered after its change. -/
theorem tenantCommands : Obligations.TenantCommands := by
  unfold Obligations.TenantCommands
  intro s hup hretry
  refine ⟨fun f t digest hok => ⟨fun hf => ?_, fun hf ht hnew hfull => exec_tenantCreate_waits hup hretry hok hf ht hnew hfull,
    fun hf ht hnew hroom => ⟨_, exec_tenantCreate hup hretry hok hf ht hnew hroom, tenant_answered rfl⟩⟩, fun f t hok => ⟨fun hf => ?_,
    fun hf ht hold hsess hbind hslots hplots hroom => ?_⟩, fun f target t hok => ⟨fun hf => ?_, fun hf hbindable hexists ht hfree hroom => ?_,
    fun hf hbindable hexists hbound => ?_⟩, fun target hok hbindable hroom => ⟨fun hfree hoffer => ?_, fun hbound hport hgo => ?_⟩,
    fun f q hok => ⟨fun hf => ?_, fun hf hlow hhigh hroom => ?_⟩, fun f hok => ?_, fun f slot hok => ?_⟩
  · exact ⟨_, exec_tenantCreate_denied hup hretry hok hf, answer_only rfl⟩
  · obtain ⟨hanswer, hsec, hkept, -⟩ := answer_only (s := s) (f := f) (n := 2) (r := rDENIED) (d := 2) (data := []) rfl
    exact ⟨_, exec_tenantDelete_denied hup hretry hok hf, hanswer, hsec, hkept⟩
  · obtain ⟨hanswer, hsec, hqueued, hkept, honly⟩ := tenant_answered (s := s) (n := t.toNat) (v := none) (cmd := 2) (old := 1) (new := 0) rfl
    refine ⟨_, exec_tenantDelete hup hretry hok hf ht hold hsess hbind hslots hplots hroom, hanswer, ?_, hsec, hqueued, hkept, honly⟩
    rw [State.tenant, hsec, tget_tset_same]
  · obtain ⟨hanswer, hsec, -⟩ := answer_only (s := s) (f := f) (n := 3) (r := rDENIED) (d := 2) (data := []) rfl
    exact ⟨_, exec_bindOffer_denied hup hretry hok hf, hanswer, by rw [hsec]⟩
  · obtain ⟨hanswer, hsame, hother, hkept, honly⟩ := bind_answered (s := s) (target := target) (Origin.fn 0) ⟨false, 0, true, t.toNat⟩ 3
    obtain ⟨q, hq⟩ := setBind_sec s (Origin.fn 0) target ⟨false, 0, true, t.toNat⟩
    exact ⟨_, exec_bindOffer hup hretry hok hf hbindable hexists ht hfree hroom, hanswer, hsame, hother, by rw [mbxPost_sec, hq],
      by rw [mbxPost_sec, hq], hkept, honly⟩
  · obtain rfl : f = 0 := Fin.ext hf
    obtain ⟨hanswer, hsec, -⟩ := answer_only (s := s) (f := 0) (n := 3) (r := rDENIED) (d := 4) (data := []) rfl
    exact ⟨_, exec_bindOffer_bound hup hretry hok hf hbindable hexists hbound, hanswer, by rw [hsec]⟩
  · refine ⟨_, exec_unbind hup hretry hok hbindable hroom (by rw [hoffer, Bool.or_true]), ?_⟩
    rw [unbindTarget_offer (Origin.fn 0) hfree]
    exact bind_answered (Origin.fn 0) ⟨false, 0, false, 0⟩ 4
  · refine ⟨_, exec_unbind hup hretry hok hbindable hroom (by rw [hbound, Bool.true_or]), ?_⟩
    rw [unbindTarget_port (Origin.fn 0) hbound hport hgo]
    exact unbind_answered hport (Origin.fn 0) 4
  · obtain ⟨hanswer, -, -, honly⟩ := answer_only (s := s) (f := f) (n := 5) (r := rDENIED) (d := 2) (data := []) rfl
    exact ⟨_, exec_auditAck_denied hup hretry hok hf, hanswer, (mbxPost_frame s f none _ _ _ _ _).rd (f := F.AUDIT_ACK.VALUE) 0 0, honly⟩
  · exact ⟨_, exec_auditAck hup hretry hok hf hlow hhigh hroom, ack_answered q 5⟩
  · obtain ⟨hanswer, -, hkept, honly⟩ := answer_only (s := s) (f := f) (n := 6) (r := rOK) (d := 0) rfl
    exact ⟨_, exec_auditHead hup hretry hok, hanswer, hkept, honly⟩
  · by_cases hslot : slot.toNat < 512
    · obtain ⟨hanswer, -, hkept, honly⟩ := answer_only (s := s) (f := f) (n := 7) (r := rOK) (d := 0) rfl
      exact ⟨_, exec_ckptGet hup hretry hok hslot, hkept, honly, fun _ => hanswer, fun h => absurd h (Nat.not_le.2 hslot)⟩
    · obtain ⟨hanswer, -, hkept, honly⟩ := answer_only (s := s) (f := f) (n := 7) (r := rUNSUP) (d := 1) (data := []) rfl
      exact ⟨_, exec_ckptGet_outside hup hretry hok (Nat.not_lt.1 hslot), hkept, honly, fun h => absurd h hslot, fun _ => hanswer⟩

end Sys2Proof.Machine
end

section
/-! The cores (R683, R704 to R709): what their restarts, releases and images leave changed. -/

set_option Elab.async false

namespace Sys2Proof.Machine
section
variable {L : List Part} {R : List RegName} {s t u : State} {c : Nat}

theorem keptBut_rings (h : s.keptBut t L) (x : Rings) (m0 : Part.rings ∈ L) : s.keptBut { t with rings := x } L := by
  intro p hp
  have h := h p hp
  cases p
  case rings => exact absurd m0 hp
  all_goals exact h

theorem keptBut_holds_windows (h : s.keptBut t L) (H : Tbl (Option Hold)) (W : Tbl (Option Window)) (m0 : Part.holds ∈ L) (m1 : Part.windows ∈ L) :
    s.keptBut { t with holds := H, windows := W } L := by
  intro p hp
  have h := h p hp
  cases p
  case holds => exact absurd m0 hp
  case windows => exact absurd m1 hp
  all_goals exact h

theorem Frame.modFw {g : Fw → Fw} (h : Frame L R s t) (hL : Part.fw ∈ L := by decide) : Frame L R s (t.modFw g) :=
  h.update (keptBut_fw (keptBut_refl t L) (g t.fw) hL) rfl

theorem Frame.setCtx {j c : Nat} {x : Ctx} (h : Frame L R s t) (hL : Part.lnts ∈ L := by decide) : Frame L R s (t.setCtx j c x) :=
  h.update (keptBut_mono (setCtx_kept t j c x) (by simpa using hL)) rfl

theorem Frame.modLnt {j : Nat} {g : Lantern → Lantern} (h : Frame L R s t) (hL : Part.lnts ∈ L := by decide) : Frame L R s (t.modLnt j g) :=
  h.update (keptBut_mono (modLnt_kept t j g) (by simpa using hL)) rfl

theorem Frame.modRings {g : Rings → Rings} (h : Frame L R s t) (hL : Part.rings ∈ L := by decide) : Frame L R s (t.modRings g) :=
  h.update (keptBut_rings (keptBut_refl t L) _ hL) rfl

/-! ### Contexts held and released (R351, R418) -/

theorem holdCtx_frame (s : State) (j c : Nat) : Frame [.lnts] [] s (s.holdCtx j c) := by
  have hs := Frame.refl [.lnts] [] s
  unfold State.holdCtx
  extract_lets k
  split
  · exact Frame.ite hs.setCtx hs.setCtx
  · split
    · exact hs.setCtx
    all_goals exact hs
  all_goals exact hs

theorem holdJobs_frame (s : State) (p : Job → Bool) : Frame [.lnts] [] s (s.holdJobs p) :=
  (Frame.refl _ _ s).foldl fun u q => Frame.ite (holdCtx_frame u q.1 q.2) (Frame.refl _ _ u)

/-- The parts that requests sent by a Lantern can change (R345). -/
def askParts : List Part := .lnts :: sendParts

theorem transmit_frame (s : State) (j : Nat) (q : LReq) : Frame sendParts acceptRegs s (s.transmit j q) := by
  have hs := Frame.refl sendParts acceptRegs s
  unfold State.transmit
  split
  extract_lets h m k why g
  refine Frame.ite ?_ ((accept_frame s _ _ _ _ _ _).mono)
  exact ((hs.update (keptBut_addFlight (keptBut_refl s _) _ (by decide) (by decide)) rfl).after (takeCredit_frame _ _ _ _)).evt

theorem tryIssue_frame (s : State) (j : Nat) (r : LReq) : Frame askParts acceptRegs s (s.tryIssue j r) := by
  have hs := Frame.refl askParts acceptRegs s
  unfold State.tryIssue
  extract_lets l p
  split
  · exact hs
  · extract_lets g q
    refine Frame.ite hs (Frame.after (t := s.setLnt j _) ?_ (transmit_frame _ j q))
    exact hs.update (keptBut_lnts (keptBut_refl s _) _ (by decide)) rfl

theorem ask_frame (s : State) (j : Nat) (rs : List LReq) : Frame askParts acceptRegs s (s.ask j rs) := by
  unfold State.ask State.pump
  exact (Frame.refl askParts acceptRegs s).modLnt.foldl fun u r => tryIssue_frame u j r

theorem poll_frame (s : State) (j c : Nat) : Frame askParts acceptRegs s (s.poll j c) := by
  have hs := Frame.refl askParts acceptRegs s
  unfold State.poll
  extract_lets k
  split
  · exact hs.setCtx.trans (ask_frame _ _ _)
  all_goals exact hs

theorem releaseCtx_frame (s : State) (j c : Nat) : Frame askParts acceptRegs s (s.releaseCtx j c) := by
  have hs := Frame.refl askParts acceptRegs s
  unfold State.releaseCtx
  extract_lets k
  refine Frame.ite hs.setCtx ?_
  split
  · extract_lets w
    have hw : Frame askParts acceptRegs s w := hs.setCtx
    exact Frame.ite (hw.trans (poll_frame _ _ _)) hw
  all_goals exact hs.setCtx

theorem releaseJobs_frame (s : State) (p : Job → Bool) : Frame askParts acceptRegs s (s.releaseJobs p) :=
  (Frame.refl _ _ s).foldl fun u q => Frame.ite (releaseCtx_frame u q.1 q.2) (Frame.refl _ _ u)

/-! ### Restarts and releases -/

theorem setCore_frame (s : State) (c v : Nat) : Frame [.regs] [.FW_STATE] s (s.setCore c v) := (Frame.refl _ _ s).wr

theorem runCore_frame (s : State) (c : Nat) : Frame [.regs, .fw] [.FW_STATE] s (s.runCore c) := by
  unfold State.runCore
  exact ((Frame.refl _ _ s).after (setCore_frame s c coreRunning)).modFw

theorem loadImg_frame (s : State) (c : Nat) (g : FwImg) : Frame [.regs, .fw] [.FW_VER, .FW_BUILD, .FW_SVN, .FW_DIGEST] s (s.loadImg c g) := by
  have hs := Frame.refl [.regs, .fw] [.FW_VER, .FW_BUILD, .FW_SVN, .FW_DIGEST] s
  unfold State.loadImg
  exact (hs.wr.wr.wr.wr.wr.foldl fun u i => (Frame.refl _ _ u).wr).modFw

theorem coreStops_frame (s : State) (c : Nat) : Frame [.lnts, .holds, .windows] [] s (s.coreStops c) := by
  unfold State.coreStops
  refine Frame.ite (holdJobs_frame s _).mono (Frame.ite (Frame.refl _ _ s) ?_)
  exact (Frame.refl _ _ s).update (keptBut_holds_windows (keptBut_refl s _) _ _ (by decide) (by decide)) rfl

theorem holdCore_frame (s : State) (c cause : Nat) : Frame [.regs, .fw] [.FW_STATE, .FW_LASTCAUSE, .FW_EVT] s (s.holdCore c cause) := by
  have hs := Frame.refl [.regs, .fw] [.FW_STATE, .FW_LASTCAUSE, .FW_EVT] s
  unfold State.holdCore
  extract_lets now recent falls held evt
  have hheld : Frame [.regs, .fw] [.FW_STATE, .FW_LASTCAUSE, .FW_EVT] s held := (hs.after (setCore_frame s c _)).wr
  exact (Frame.onlyIf hheld.raise hheld).modFw

theorem restartNow_frame (s : State) (c cause : Nat) : Frame [.regs, .fw, .auditQ, .lnts, .holds, .windows]
    [.FW_STATE, .FW_LASTCAUSE, .FW_LASTSTAMP, .FW_EVT] s (s.restartNow c cause) := by
  unfold State.restartNow
  exact (((Frame.refl _ _ s).after (holdCore_frame s c cause)).incRc.wr.raise.audit).after (coreStops_frame _ c)

/-! ### What the firmware's state keeps -/

/-- Of the firmware's state, a restart changes the record of the falls at most. -/
def Fw.fallen (x y : Fw) : Prop := y = { x with falls := y.falls }

theorem Fw.fallen_refl (x : Fw) : x.fallen x := rfl

theorem Fw.fallen_trans {x y z : Fw} (h : x.fallen y) (g : y.fallen z) : x.fallen z := by
  unfold Fw.fallen at *
  rw [g, h]

theorem fallen_holdCore (s : State) (c cause : Nat) : s.fw.fallen (s.holdCore c cause).fw := by
  unfold State.holdCore
  extract_lets now recent falls held evt
  have hevt : evt.fw = s.fw := (Frame.onlyIf (L := [.regs]) (R := [.FW_STATE, .FW_LASTCAUSE, .FW_EVT])
    ((Frame.refl _ _ s).after (setCore_frame s c _)).wr.raise ((Frame.refl _ _ s).after (setCore_frame s c _)).wr).part .fw
  rw [← hevt]
  rfl

theorem fallen_restartNow (s : State) (c cause : Nat) : s.fw.fallen (s.restartNow c cause).fw := by
  have hfw : (s.restartNow c cause).fw = (s.holdCore c cause).fw := (coreStops_frame _ c).part .fw
  rw [hfw]
  exact fallen_holdCore s c cause

end
end Sys2Proof.Machine
end

section
/-! Staging and activating firmware (R696, R697, R700, R710 to R718). -/

set_option Elab.async false

namespace Sys2Proof.Machine
section
variable {L : List Part} {R : List RegName} {s t u : State} {f : FnIx} {n : Nat}

theorem eq_of_modify {α : Type} {l : List α} {i : Nat} {g : α → α} {x : α} (h : (l.modify i g)[i]? = some x) : ∃ y, x = g y := by
  rw [List.getElem?_modify] at h
  obtain ⟨y, -, hy⟩ := Option.map_eq_some_iff.1 h
  exact ⟨y, by simpa using hy.symm⟩

/-! ### FW_UPDSTAT -/

theorem setUpd_frame (s : State) (st r : Nat) : Frame [.regs] [.FW_UPDSTAT] s (s.setUpd st r) := (Frame.refl _ _ s).wr.wr

theorem onlyRegs_setUpd (s : State) (st r : Nat) : s.onlyRegs (s.setUpd st r) [(.FW_UPDSTAT, 0, 0)] :=
  onlyRegs_wr (onlyRegs_wr (onlyRegs_refl s _) F.FW_UPDSTAT.STATE st 0 0 List.mem_cons_self) F.FW_UPDSTAT.RESULT r 0 0 List.mem_cons_self

theorem updSt_setUpd (s : State) (st r : Nat) : (s.setUpd st r).updSt = st % 16 := by
  unfold State.updSt State.setUpd
  rw [rd_wr_apart (by decide) (by decide), rd_wr_same (by decide)]
  rfl

theorem result_setUpd (s : State) (st r : Nat) : (s.setUpd st r).rd F.FW_UPDSTAT.RESULT = r % 2 ^ F.FW_UPDSTAT.RESULT.len := rd_wr_same (by decide) r

theorem updSt_of_frame (h : Frame L R s t) (hR : RegName.FW_UPDSTAT ∉ R := by decide) : t.updSt = s.updSt := h.rd (f := F.FW_UPDSTAT.STATE) 0 0 hR

theorem updSt_wr_next (s : State) (v : Nat) : (s.wr F.FW_UPDSTAT.NEXT v).updSt = s.updSt := rd_wr_apart (by decide) (by decide) v

theorem result_wr_next (s : State) (v : Nat) : (s.wr F.FW_UPDSTAT.NEXT v).rd F.FW_UPDSTAT.RESULT = s.rd F.FW_UPDSTAT.RESULT :=
  rd_wr_apart (by decide) (by decide) v

/-! ### The mailbox commands (R718) -/

/-- SEC serves a command of an update. -/
theorem serveFw_eq {cmd : Nat} {args : List Byte} {run : State → State × Nat × Nat} {r d : Nat} (hboot : s.inBoot = false) (hup : s.secUp = true)
    (hok : s.mbxOk f 0x10 cmd args = true) (boot : Bool) (hrun : (if f.val ≠ 0 then (s, rDENIED, 0x02) else run s) = (t, r, d)) :
    s.serveFw f cmd args boot run = t.mbxPost f none 0x10 cmd r d [] := by
  have hrestarts : s.secRestarts = false := by
    unfold State.secUp at hup
    unfold State.secRestarts
    rw [eq_of_beq hup]
    rfl
  unfold State.serveFw
  simp only [hok, hrestarts, hboot, hup, Bool.not_true, Bool.false_eq_true, if_false, Bool.false_and, Bool.or_self, Bool.true_or]
  rw [hrun]

/-- The arguments of STAGE_CHUNK. -/
def chunkArgs (off : W32) (data : List Byte) : List Byte :=
  [1, 0, 0, 0] ++ leBytes off 4 ++ leBytes (BitVec.ofNat 16 data.length) 2 ++ List.replicate 6 0 ++ data

/-- The part is put in the slot's buffer. -/
def State.chunkPut (s : State) (off : W32) (data : List Byte) : State := s.modFw fun f => { f with buf1 := bufPut f.buf1 off.toNat data }

/-- A new payload: the slot is erased. -/
def State.chunkFirst (s : State) : State :=
  (s.setUpd 1 0).modFw fun f => { f.modSpare (fun x => { x with valid := false, seq := 0 }) with buf1 := [] }

theorem chunkPut_frame (s : State) (off : W32) (data : List Byte) : Frame [.fw] [] s (s.chunkPut off data) := (Frame.refl _ _ s).modFw

theorem chunkFirst_frame (s : State) : Frame [.regs, .fw] [.FW_UPDSTAT] s s.chunkFirst := ((Frame.refl _ _ s).after (setUpd_frame s 1 0)).modFw

theorem updSt_chunkFirst (s : State) : s.chunkFirst.updSt = 1 := by
  have hfw : Frame [.fw] [] (s.setUpd 1 0) s.chunkFirst := by
    unfold State.chunkFirst
    exact (Frame.refl _ _ _).modFw
  rw [updSt_of_frame hfw, updSt_setUpd]

/-- The slot that is not the boot slot has been erased. -/
theorem erased_chunkFirst {off : W32} {data : List Byte} {x : FwSlot}
    (hx : (s.chunkFirst.chunkPut off data).fw.flash.slots[1 - s.fw.slot]? = some x) : x.valid = false := by
  have hslots : (s.chunkFirst.chunkPut off data).fw.flash.slots =
      s.fw.flash.slots.modify (1 - s.fw.slot) fun x => { x with valid := false, seq := 0 } := rfl
  rw [hslots] at hx
  obtain ⟨y, rfl⟩ := eq_of_modify hx
  rfl

theorem exec_stageChunk {off : W32} {data : List Byte} {r d : Nat} (hboot : s.inBoot = false) (hup : s.secUp = true) (hdata : data ≠ [])
    (hlen : data.length ≤ 1000) (hok : s.mbxOk 0 0x10 0x10 (chunkArgs off data) = true) (hfit : off.toNat + data.length ≤ 4194304)
    (hrun : (if s.updSt = 3 ∨ s.updSt = 4 then (s.wr F.FW_UPDSTAT.RESULT updBusy, rCHECK, 0x10 + updBusy)
      else ((if s.updSt = 1 then s else s.chunkFirst).chunkPut off data, rOK, 0)) = (t, r, d)) :
    exec (.stageChunk 0 1 off data) s = .next (t.mbxPost 0 none 0x10 0x10 r d []) := by
  have htake : data.take 1000 = data := List.take_of_length_le hlen
  show execStageChunk 0 1 off data s = _
  unfold execStageChunk
  rw [htake]
  refine congrArg Host.Outcome.next (serveFw_eq (f := 0) hboot hup hok _ ?_)
  rw [if_neg (by decide), ← hrun]
  simp only [List.isEmpty_iff, hdata, Nat.not_lt.2 hfit, false_or]
  rw [if_neg (by simp), if_neg (by decide)]
  rfl

/-- A payload in the buffer, of `total` bytes. -/
def State.staged (s : State) (total : W32) : List Byte := (List.range total.toNat).map (tget 0 s.fw.buf1)

/-- The buffer is given up. -/
def State.unbuffered (s : State) : State := s.modFw fun f => { f with buf1 := [] }

/-- The payload stands in the slot that is not the boot slot. -/
def State.slotTaken (s : State) (b : List Byte) : State := (s.setUpd 2 0).modFw fun f => f.modSpare fun _ => ⟨true, 0, payImgs b, payTrn b⟩

theorem slotTaken_frame (s : State) (b : List Byte) : Frame [.regs, .fw] [.FW_UPDSTAT] s (s.unbuffered.slotTaken b) := by
  unfold State.slotTaken State.unbuffered
  exact ((Frame.refl _ _ s).modFw.after (setUpd_frame _ 2 0)).modFw

theorem updSt_slotTaken (s : State) (b : List Byte) : (s.slotTaken b).updSt = 2 := by
  have hfw : Frame [.fw] [] (s.setUpd 2 0) (s.slotTaken b) := by
    unfold State.slotTaken
    exact (Frame.refl _ _ _).modFw
  rw [updSt_of_frame hfw, updSt_setUpd]

theorem slot_slotTaken {b : List Byte} {x : FwSlot} (hx : (s.unbuffered.slotTaken b).fw.flash.slots[1 - s.fw.slot]? = some x) :
    x = ⟨true, 0, payImgs b, payTrn b⟩ := by
  have hslots : (s.unbuffered.slotTaken b).fw.flash.slots =
      s.fw.flash.slots.modify (1 - s.fw.slot) fun _ => ⟨true, 0, payImgs b, payTrn b⟩ := rfl
  rw [hslots] at hx
  obtain ⟨y, rfl⟩ := eq_of_modify hx
  rfl

theorem stageFailed_frame (s : State) (r : Nat) : Frame [.regs, .fw] [.FW_UPDSTAT] s (s.unbuffered.setUpd 6 r) := by
  unfold State.unbuffered
  exact (Frame.refl _ _ s).modFw.after (setUpd_frame _ 6 r)

theorem exec_stageEnd {total : W32} {r d : Nat} (hboot : s.inBoot = false) (hup : s.secUp = true) (htotal : total.toNat ≤ 4194304)
    (hok : s.mbxOk 0 0x10 0x11 ([1, 0, 0, 0] ++ leBytes total 4) = true) (h3 : s.updSt ≠ 3) (h4 : s.updSt ≠ 4)
    (hrun : (if s.payCheck (s.staged total) true ≠ 0 then (s.unbuffered.setUpd 6 (s.payCheck (s.staged total) true), rCHECK,
      0x10 + s.payCheck (s.staged total) true) else (s.unbuffered.slotTaken (s.staged total), rOK, 0)) = (t, r, d)) :
    exec (.stageEnd 0 1 total) s = .next (t.mbxPost 0 none 0x10 0x11 r d []) := by
  show execStageEnd 0 1 total s = _
  unfold execStageEnd
  refine congrArg Host.Outcome.next (serveFw_eq (f := 0) hboot hup hok _ ?_)
  rw [if_neg (by decide), ← hrun]
  simp only [h3, h4, Nat.not_lt.2 htotal, false_or, or_false]
  rw [if_neg (by simp), if_neg (by decide)]
  rfl

/-- The flash takes a configuration record. -/
def State.cfgTaken (s : State) (g : FwCfg) : State := s.modFw fun f => { f with flash := { f.flash with cfg := some g } }

theorem exec_recWrite {body : List Byte} (hboot : s.inBoot = false) (hup : s.secUp = true) (hlen : body.length = 208)
    (hok : s.mbxOk 0 0x10 0x12 ([1] ++ List.replicate 7 0 ++ body) = true) (hmagic : recNat body 0 4 = 0x43464731)
    (hsvn : ∀ c, c < 4 → s.fw.minSvn c ≤ (parseCfg body).minSvn.getD c 0)
    (hseq : ∀ o, s.fw.flash.cfg = some o → o.rseq < (parseCfg body).rseq) :
    exec (.recWrite 0 1 body) s = .next ((s.cfgTaken (parseCfg body)).mbxPost 0 none 0x10 0x12 rOK 0 []) := by
  have htake : body.take 1008 = body := List.take_of_length_le (by omega)
  have hlow : ((List.range 4).any fun c => decide ((parseCfg body).minSvn.getD c 0 < s.fw.minSvn c)) = false :=
    List.any_eq_false.2 fun c hc => by simpa using hsvn c (List.mem_range.1 hc)
  have hold : (s.fw.flash.cfg.any fun o => decide ((parseCfg body).rseq ≤ o.rseq)) = false := by
    cases hcfg : s.fw.flash.cfg with
    | none => rfl
    | some o => simpa using hseq o hcfg
  show execRecWrite 0 1 body s = _
  unfold execRecWrite
  rw [htake]
  refine congrArg Host.Outcome.next (serveFw_eq (f := 0) hboot hup hok _ ?_)
  rw [if_neg (by decide)]
  simp only [hlen, hmagic, hlow, hold, bne_self_eq_false, Bool.or_self, Bool.false_eq_true, if_false, and_self, if_true]
  rfl

/-- The flash takes a site's training image. -/
def State.trnTaken (s : State) (k : Nat) (img : List Byte) : State :=
  s.modFw fun f => { f with flash := { f.flash with trn := tset none f.flash.trn k (some img) } }

theorem exec_trnSave {k : Cluster} (hboot : s.inBoot = false) (hup : s.secUp = true)
    (hok : s.mbxOk 0 0x10 0x13 [BitVec.ofNat 8 k.val] = true) :
    exec (.trnSave 0 k) s = .next ((s.trnTaken k ((List.range 4096).map (s.imgByte k))).mbxPost 0 none 0x10 0x13 rOK 0 []) := by
  show execTrnSave 0 k s = _
  unfold execTrnSave
  refine congrArg Host.Outcome.next (serveFw_eq (f := 0) hboot hup hok _ ?_)
  rw [if_neg (by decide)]
  rfl

theorem exec_trnSave_denied {k : Cluster} (hboot : s.inBoot = false) (hup : s.secUp = true) (hf : f.val ≠ 0)
    (hok : s.mbxOk f 0x10 0x13 [BitVec.ofNat 8 k.val] = true) :
    exec (.trnSave f k) s = .next (s.mbxPost f none 0x10 0x13 rDENIED 2 []) := by
  show execTrnSave f k s = _
  unfold execTrnSave
  exact congrArg Host.Outcome.next (serveFw_eq hboot hup hok _ (if_pos hf))

/-! ### Activation (R711 to R716) -/

/-- ACTIVATE's audit entry (R711). -/
def State.activateLogged (s : State) : State := s.audit 1 0 0 0x3401010 (s.rd F.FW_UPDCTL.CORES) (2 ^ 31 + s.rd F.FW_UPDCTL.CORES)

theorem activateLogged_frame (s : State) : Frame [.auditQ] [] s s.activateLogged := (Frame.refl _ _ s).audit

theorem exec_activate_notStaged (hroom : s.auditFull = false) (h : s.updSt ≠ 2) :
    exec .activate s = .next (s.activateLogged.wr F.FW_UPDSTAT.RESULT updNotStaged) := by
  show execActivate s = _
  unfold execActivate
  rw [orWait_open hroom]
  exact if_pos h

theorem exec_activate_deferred (hroom : s.auditFull = false) (h : s.updSt = 2) (hem : s.emergency = true) :
    exec .activate s = .next s.activateLogged.deferAct := by
  show execActivate s = _
  unfold execActivate
  rw [orWait_open hroom]
  exact (if_neg (not_not.2 h)).trans (if_pos hem)

theorem exec_activate (hroom : s.auditFull = false) (h : s.updSt = 2) (hem : s.emergency = false) :
    exec .activate s = .next s.activateLogged.beginActivation := by
  show execActivate s = _
  unfold execActivate
  rw [orWait_open hroom]
  exact (if_neg (not_not.2 h)).trans (if_neg (ne_true_of_eq_false hem))

theorem deferAct_fw (s : State) : s.deferAct.fw = { s.fw with clear := s.now, act := [] } := rfl

theorem updSt_deferAct (s : State) : s.deferAct.updSt = 3 := by
  have hdefer : Frame [.regs, .fw] [.FW_EVT] (s.setUpd 3 0) s.deferAct := by
    unfold State.deferAct
    exact (Frame.refl _ _ _).raise.modFw
  rw [updSt_of_frame hdefer, updSt_setUpd]

theorem deferred_deferAct (s : State) : s.deferAct.bit F.FW_EVT.DEFERRED = true :=
  ((Frame.refl [.fw] [] ((s.setUpd 3 0).raise F.FW_EVT.DEFERRED)).modFw.bit 0 0).trans (bit_raise_same (by decide) rfl 0)

/-- The cores an activation restarts, in order. -/
def State.actOrder (s : State) : List Nat := ([1] ++ (List.range 12).map (· + 3) ++ [2]).filter (nbit (s.rd F.FW_UPDCTL.CORES))

theorem beginActivation_fw (s : State) : s.beginActivation.fw = { s.fw with act := s.actOrder, acted := [], actAt := s.now + 1 } := rfl

theorem beginActivation_frame (s : State) : Frame [.regs, .fw] [.FW_UPDSTAT] s s.beginActivation := by
  have hset : Frame [.regs, .fw] [.FW_UPDSTAT] s (s.setUpd 4 0) := (setUpd_frame s 4 0).mono
  exact hset.modFw.wr

theorem updSt_beginActivation (s : State) : s.beginActivation.updSt = 4 := by
  unfold State.beginActivation State.setNext
  rw [updSt_wr_next, updSt_of_frame (Frame.refl [.fw] [] (s.setUpd 4 0)).modFw, updSt_setUpd]

theorem next_beginActivation (s : State) : s.beginActivation.rd F.FW_UPDSTAT.NEXT = s.actOrder.headD 0 := by
  have hcore : s.actOrder.headD 0 < 16 := by
    have hall : ∀ x ∈ s.actOrder, x < 16 := fun x hx => by
      have hmem := List.mem_of_mem_filter hx
      have hlow : ∀ y ∈ [1] ++ (List.range 12).map (· + 3) ++ [2], y < 16 := by decide
      exact hlow x hmem
    cases hlist : s.actOrder with
    | nil => decide
    | cons x xs => exact hall x (hlist ▸ List.mem_cons_self)
  exact (rd_wr_same (by decide) _).trans (Nat.mod_eq_of_lt hcore)

/-- CANCEL takes a deferred activation back (R712). -/
def State.cancelled (s : State) : State :=
  (s.setUpd 2 updCancelled).audit 1 0 0 0x3401010 (s.rd F.FW_UPDCTL.CORES) (2 ^ 30 + s.rd F.FW_UPDCTL.CORES)

theorem exec_cancel (hroom : s.auditFull = false) (h : s.updSt = 3) : exec .cancel s = .next s.cancelled := by
  show execCancel s = _
  unfold execCancel
  rw [orWait_open hroom]
  exact congrArg Host.Outcome.next (onlyIf_pos (by rw [h]; rfl) _ _)

theorem exec_activationBegin (h : s.updSt = 3) (hboot : s.inBoot = false) (hem : s.emergency = false) (hclear : s.fw.clear + 1200000000 < s.now) :
    exec .activationBegin s = .next s.beginActivation := by
  show execActivationBegin s = _
  unfold execActivationBegin
  exact congrArg Host.Outcome.next (onlyIf_pos (by simp [h, hboot, hem, hclear]) _ _)

/-! ### The restarts of an activation (R713, R714) -/

/-- Core `c` is the next one restarted. -/
def State.coreActed (s : State) (c : Nat) (rest : List Nat) : State :=
  ((s.restartNow c causeActivation).modFw fun f => { f with act := rest, acted := f.acted ++ [c], fresh := f.fresh ++ [c] }).wr F.FW_UPDSTAT.NEXT c

theorem exec_activationCoreRestart {c : Nat} {rest : List Nat} (h : s.updSt = 4) (hat : s.fw.actAt ≠ s.now + 1) (hup : s.secUp = true)
    (hact : s.fw.act = c :: rest) (hst : s.coreSt c ≠ coreRestarting) (hrun : ∀ d ∈ s.fw.acted, s.coreSt d = coreRunning) :
    exec .activationCoreRestart s = .next (s.coreActed c rest) := by
  have hall : (s.fw.acted.all fun d => s.coreSt d == coreRunning) = true := List.all_eq_true.2 fun d hd => by rw [hrun d hd]; rfl
  have honce : s.justRestarted c (· == causeTrap) = false := by simp [State.justRestarted, hst]
  show execActivationCoreRestart s = _
  unfold execActivationCoreRestart
  rw [hact]
  refine congrArg Host.Outcome.next ((onlyIf_pos ?_ _ _).trans ?_)
  · simp [State.actRuns, h, hat, hup, hst, hall]
  · simp only [honce, Bool.false_eq_true, if_false]
    rfl

theorem coreActed_fw (s : State) (c : Nat) (rest : List Nat) :
    (s.coreActed c rest).fw.act = rest ∧ (s.coreActed c rest).fw.acted = s.fw.acted ++ [c] := by
  have hfall : (s.restartNow c causeActivation).fw.acted = s.fw.acted := by
    rw [fallen_restartNow s c causeActivation]
  exact ⟨rfl, congrArg (· ++ [c]) hfall⟩

theorem coreActed_frame (s : State) (c : Nat) (rest : List Nat) : Frame [.regs, .fw, .auditQ, .lnts, .holds, .windows]
    [.FW_STATE, .FW_LASTCAUSE, .FW_LASTSTAMP, .FW_EVT, .FW_UPDSTAT] s (s.coreActed c rest) :=
  ((restartNow_frame s c causeActivation).mono).modFw.wr

/-- A restart records its cause. -/
theorem cause_restartNow (s : State) (c cause : Nat) : (s.restartNow c cause).rd F.FW_LASTCAUSE.CAUSE c = cause % 8 := by
  unfold State.restartNow
  extract_lets _ old restarted
  rw [(coreStops_frame _ c).rd (f := F.FW_LASTCAUSE.CAUSE) c 0]
  have hafter : Frame [.regs, .auditQ] [.FW_STATE, .FW_LASTSTAMP, .FW_EVT] (s.holdCore c cause)
      (restarted.audit 0 0 0 (regOff .FW_STATE c) old (restarted.reg .FW_STATE c).toNat) := (Frame.refl _ _ _).incRc.wr.raise.audit
  rw [hafter.rd (f := F.FW_LASTCAUSE.CAUSE) c 0]
  unfold State.holdCore
  extract_lets _ falls held evt
  have hevt : Frame [.regs, .fw] [.FW_EVT] held (evt.modFw fun f => { f with falls := tset [] f.falls c (if falls.length < 3 then falls else []) }) :=
    (Frame.onlyIf (Frame.refl _ _ held).raise (Frame.refl _ _ held)).modFw
  rw [hevt.rd (f := F.FW_LASTCAUSE.CAUSE) c 0]
  exact rd_wr_same (by decide) cause

/-- Core `d` goes back to its previous image (R714). -/
def State.coreBack (s : State) (d : Nat) : State := (s.loadImg d (s.bootImg d false)).restartNow d causeActivation

/-- The registers of a core that a reload and a restart write. -/
def coreRegs : List RegName := [.FW_VER, .FW_BUILD, .FW_SVN, .FW_DIGEST, .FW_STATE, .FW_LASTCAUSE, .FW_LASTSTAMP, .FW_EVT]

theorem coreBack_frame (s : State) (d : Nat) : Frame [.regs, .fw, .auditQ, .lnts, .holds, .windows] coreRegs s (s.coreBack d) :=
  (loadImg_frame s d _).mono.after (restartNow_frame _ d _)

theorem loadImg_fw (s : State) (c : Nat) (g : FwImg) : (s.loadImg c g).fw = { s.fw with imgs := tset FwImg.blank s.fw.imgs c g } := by
  have hregs : Frame [.regs] [.FW_VER, .FW_BUILD, .FW_SVN, .FW_DIGEST] s
      ((List.range 6).foldl (fun s i => s.wr F.FW_DIGEST.BYTES (bitsOf g.digest (64 * i + 63) (64 * i)) c i)
        (((((s.wr F.FW_VER.MAJOR g.major c).wr F.FW_VER.MINOR g.minor c).wr F.FW_VER.PATCH g.patch c).wr F.FW_BUILD.BUILD g.build c).wr
          F.FW_SVN.SVN g.svn c)) := (Frame.refl _ _ s).wr.wr.wr.wr.wr.foldl fun u i => (Frame.refl _ _ u).wr
  rw [← hregs.part .fw]
  rfl

theorem flash_coreBack (s : State) (d : Nat) : (s.coreBack d).fw.flash = s.fw.flash ∧ (s.coreBack d).fw.slot = s.fw.slot := by
  have hfall := fallen_restartNow (s.loadImg d (s.bootImg d false)) d causeActivation
  unfold State.coreBack
  rw [hfall, loadImg_fw]
  exact ⟨rfl, rfl⟩

/-- Every changed core goes back. -/
def State.coresBack (s : State) : State := s.fw.acted.foldl (fun s d => s.coreBack d) s

theorem coresBack_frame (s : State) : Frame [.regs, .fw, .auditQ, .lnts, .holds, .windows] coreRegs s s.coresBack :=
  (Frame.refl _ _ s).foldl fun u d => coreBack_frame u d

theorem flash_coresBack (s : State) : s.coresBack.fw.flash = s.fw.flash ∧ s.coresBack.fw.slot = s.fw.slot :=
  foldl_inv (fun u => u.fw.flash = s.fw.flash ∧ u.fw.slot = s.fw.slot) _ _
    (fun u d _ hu => ⟨(flash_coreBack u d).1.trans hu.1, (flash_coreBack u d).2.trans hu.2⟩) s ⟨rfl, rfl⟩

/-- The update reads FAILED. -/
def State.updFailed (s : State) : State :=
  (((s.setUpd 6 updStartFail).raise F.FW_EVT.FAILED).wr F.FW_UPDSTAT.NEXT 0).modFw fun f => { f with act := [], acted := [], fresh := [] }

theorem exec_activationStartFail {c : Nat} (h : s.updSt = 4) (hup : s.secUp = true) (hlast : s.fw.acted.getLast? = some c)
    (hfault : s.coreSt c = coreFault) : exec .activationStartFail s = .next s.coresBack.updFailed := by
  show execActivationStartFail s = _
  unfold execActivationStartFail
  rw [hlast]
  simp only [h, hup, hfault, BEq.rfl, Bool.true_and, Bool.true_or, Bool.not_true, Bool.false_eq_true, if_false]
  rfl

theorem updFailed_shows (s : State) : s.updFailed.updSt = 6 ∧ s.updFailed.rd F.FW_UPDSTAT.RESULT = 8 ∧ s.updFailed.bit F.FW_EVT.FAILED = true := by
  have hfw := (Frame.refl [.fw] [] (((s.setUpd 6 updStartFail).raise F.FW_EVT.FAILED).wr F.FW_UPDSTAT.NEXT 0)).modFw
    (g := fun f => { f with act := [], acted := [], fresh := [] })
  have hraise : Frame [.regs] [.FW_EVT] (s.setUpd 6 updStartFail) ((s.setUpd 6 updStartFail).raise F.FW_EVT.FAILED) := (Frame.refl _ _ _).raise
  refine ⟨?_, ?_, ?_⟩
  · rw [State.updFailed, updSt_of_frame hfw, updSt_wr_next, updSt_of_frame hraise, updSt_setUpd]
  · rw [State.updFailed, hfw.rd 0 0, result_wr_next, hraise.rd 0 0, result_setUpd]
    rfl
  · rw [State.updFailed, hfw.bit 0 0, State.bit, rd_wr_other (by decide)]
    exact bit_raise_same (by decide) rfl 0

/-! ### The end of an activation (R715) -/

theorem exec_activationEnd (h : s.updSt = 4) (hat : s.fw.actAt ≠ s.now + 1) (hup : s.secUp = true) (hact : s.fw.act = [])
    (hrun : ∀ d ∈ s.fw.acted, s.coreSt d = coreRunning) : exec .activationEnd s = .next s.endActivation := by
  have hall : (s.fw.acted.all fun d => s.coreSt d == coreRunning) = true := List.all_eq_true.2 fun d hd => by rw [hrun d hd]; rfl
  show execActivationEnd s = _
  unfold execActivationEnd
  exact congrArg Host.Outcome.next (onlyIf_pos (by simp [State.actRuns, h, hat, hup, hact, hall]) _ _)

theorem keptBut_histFlash (h : s.keptBut t L) (x : Hist) (m0 : Part.histFlash ∈ L) : s.keptBut { t with histFlash := x } L := by
  intro p hp
  have h := h p hp
  cases p
  case histFlash => exact absurd m0 hp
  all_goals exact h

theorem Frame.commitHist (h : Frame L R s t) (hL : Part.histFlash ∈ L := by decide) : Frame L R s t.commitHist :=
  h.update (keptBut_histFlash (keptBut_refl t L) _ hL) rfl

theorem endActivation_frame (s : State) : Frame [.regs, .fw, .histFlash] [.FW_SVN, .FW_UPDSTAT, .FW_EVT] s s.endActivation := by
  unfold State.endActivation
  extract_lets other seq classes svn base snf cfg raised flashed ended
  have hraised : Frame [.regs, .fw, .histFlash] [.FW_SVN, .FW_UPDSTAT, .FW_EVT] s raised :=
    (Frame.refl _ _ s).foldl fun u i => (Frame.refl _ _ u).wr
  have hflashed : Frame [.regs, .fw, .histFlash] [.FW_SVN, .FW_UPDSTAT, .FW_EVT] s flashed := hraised.modFw
  exact ((hflashed.after (setUpd_frame _ _ _)).wr.raise).commitHist

theorem endActivation_shows (s : State) : s.endActivation.updSt = (if nbit (s.rd F.FW_UPDCTL.CORES) 0 then 7 else 5) ∧
    s.endActivation.fw.slot = 1 - s.fw.slot ∧ s.endActivation.fw.acted = [] ∧ s.endActivation.bit F.FW_EVT.ACTIVATED = true := by
  unfold State.endActivation
  extract_lets other seq classes svn base snf cfg raised flashed ended
  have hraised : Frame [.regs, .fw] [.FW_SVN] s flashed := ((Frame.refl _ _ s).foldl fun u i => (Frame.refl _ _ u).wr).modFw
  have hcommit := (Frame.refl [.histFlash] [] ended).commitHist
  have hcores : flashed.rd F.FW_UPDCTL.CORES = s.rd F.FW_UPDCTL.CORES := hraised.rd 0 0
  refine ⟨?_, rfl, rfl, (hcommit.bit 0 0).trans (bit_raise_same (by decide) rfl 0)⟩
  rw [updSt_of_frame hcommit, updSt_of_frame (Frame.refl [.regs] [.FW_EVT] _).raise, updSt_wr_next, updSt_setUpd, hcores]
  split <;> rfl

end

section
variable {s t : State} {L : List Part} {R : List RegName}

/-- The parts that a command of an update can change. -/
theorem updKept (h : Frame L R s t) (cmd r d : Nat) (hL : ∀ p ∈ L, p ∈ [Part.regs, .bytes, .sec, .out, .pmus, .fw] := by decide) :
    s.keptBut (t.mbxPost 0 none 0x10 cmd r d []) [.regs, .bytes, .sec, .out, .pmus, .fw] :=
  keptBut_trans (keptBut_mono h.kept hL) (keptBut_mono (mbxPost_frame t 0 none 0x10 cmd r d []).kept (by decide))

end

/-- Settles O25: the mailbox commands in turn, then the steps of an activation. -/
theorem firmwareUpdate : Obligations.FirmwareUpdate := by
  unfold Obligations.FirmwareUpdate
  intro s
  refine ⟨fun hboot hup hroom => ⟨fun off data hdata hlen hok hfit => ⟨fun h1 => ?_, fun h1 h3 h4 => ?_, fun h4 => ?_⟩,
    fun total htotal hok h3 h4 b hb => ?_, fun body hlen hok hmagic hsvn hseq => ?_, fun k hok => ?_, fun f k hf hok => ?_⟩,
    fun hroom => ⟨fun h => ?_, fun h hem => ?_, fun h hem => ?_⟩, fun h => ⟨fun hroom => ?_, fun hboot hem hclear => ?_⟩,
    fun h hat hup => ⟨fun c rest hact hc hst hrun => ?_, fun c hlast hfault => ?_, fun hact hrun => ?_⟩⟩
  · have hput := chunkPut_frame s off data
    exact ⟨_, exec_stageChunk hboot hup hdata hlen hok hfit (by rw [if_neg (by omega), if_pos h1]), answered_mbxPost (hput.part .out) 0 none _ _ rOK 0 [],
      (mbxPost_frame _ 0 none _ _ rOK 0 []).part .fw,
      (hput.mono.after (mbxPost_frame _ 0 none _ _ rOK 0 []) (L := [.regs, .bytes, .sec, .out, .pmus, .fw]) (R := [.MBX_STATUS])).kept⟩
  · have hput := (chunkFirst_frame s).after (chunkPut_frame _ off data)
    have hpost := mbxPost_frame (s.chunkFirst.chunkPut off data) 0 none 0x10 0x10 rOK 0 []
    have hfw : ((s.chunkFirst.chunkPut off data).mbxPost 0 none 0x10 0x10 rOK 0 []).fw = (s.chunkFirst.chunkPut off data).fw := hpost.part .fw
    refine ⟨_, exec_stageChunk hboot hup hdata hlen hok hfit (by rw [if_neg (by omega), if_neg h1]), answered_mbxPost (hput.part .out) 0 none _ _ rOK 0 [],
      ?_, by rw [hfw]; rfl, fun x hx => ?_⟩
    · rw [updSt_of_frame hpost, updSt_of_frame (chunkPut_frame _ off data)]
      exact updSt_chunkFirst s
    · rw [hfw] at hx
      exact erased_chunkFirst hx
  · exact ⟨_, exec_stageChunk hboot hup hdata hlen hok hfit (if_pos (.inr h4)), answered_mbxPost rfl 0 none _ _ rCHECK 0x16 [],
      (mbxPost_frame _ 0 none _ _ rCHECK 0x16 []).part .fw⟩
  · subst hb
    by_cases hcheck : s.payCheck (s.staged total) true = 0
    · have hpost := mbxPost_frame (s.unbuffered.slotTaken (s.staged total)) 0 none 0x10 0x11 rOK 0 []
      have hfw : _ = (s.unbuffered.slotTaken (s.staged total)).fw := hpost.part .fw
      refine ⟨_, exec_stageEnd hboot hup htotal hok h3 h4 (if_neg (not_not.2 hcheck)), fun _ => ⟨answered_mbxPost
        ((slotTaken_frame s _).part .out) 0 none _ _ rOK 0 [], (updSt_of_frame hpost).trans (updSt_slotTaken _ _), by rw [hfw]; rfl, fun x hx => ?_⟩,
        fun h => absurd hcheck h⟩
      rw [hfw] at hx
      exact slot_slotTaken hx
    · have hpost := mbxPost_frame (s.unbuffered.setUpd 6 (s.payCheck (s.staged total) true)) 0 none 0x10 0x11 rCHECK
        (0x10 + s.payCheck (s.staged total) true) []
      have hfw : _ = (s.unbuffered.setUpd 6 (s.payCheck (s.staged total) true)).fw := hpost.part .fw
      exact ⟨_, exec_stageEnd hboot hup htotal hok h3 h4 (if_pos hcheck), fun h => absurd h hcheck, fun _ => ⟨answered_mbxPost
        ((stageFailed_frame s _).part .out) 0 none _ _ rCHECK _ [], (updSt_of_frame hpost).trans (updSt_setUpd _ 6 _),
        (hpost.rd 0 0).trans (result_setUpd _ 6 _), by rw [hfw]; rfl⟩⟩
  · have hcfg : Frame [.fw] [] s (s.cfgTaken (parseCfg body)) := (Frame.refl _ _ s).modFw
    have hfw : _ = (s.cfgTaken (parseCfg body)).fw := (mbxPost_frame (s.cfgTaken (parseCfg body)) 0 none 0x10 0x12 rOK 0 []).part .fw
    exact ⟨_, exec_recWrite hboot hup hlen hok hmagic hsvn hseq, answered_mbxPost (hcfg.part .out) 0 none _ _ rOK 0 [], by rw [hfw]; rfl,
      updKept hcfg 0x12 rOK 0, onlyRegs_trans (onlyRegs_of_frame (onlyRegs_refl s _) hcfg) (onlyRegs_mbxPost _ 0 none _ _ rOK 0 [])⟩
  · have htrn : Frame [.fw] [] s (s.trnTaken k ((List.range 4096).map (s.imgByte k))) := (Frame.refl _ _ s).modFw
    have hfw : _ = (s.trnTaken k ((List.range 4096).map (s.imgByte k))).fw := (mbxPost_frame _ 0 none 0x10 0x13 rOK 0 []).part .fw
    refine ⟨_, exec_trnSave hboot hup hok, answered_mbxPost (htrn.part .out) 0 none _ _ rOK 0 [], ?_, updKept htrn 0x13 rOK 0⟩
    rw [hfw]
    exact tget_tset_same _ _ _ _
  · exact ⟨_, exec_trnSave_denied hboot hup hf hok, answered_mbxPost rfl f none _ _ rDENIED 2 [], (mbxPost_frame s f none _ _ rDENIED 2 []).part .fw⟩
  · refine ⟨_, exec_activate_notStaged hroom h, rd_wr_same (by decide) _, rd_wr_apart (by decide) (by decide) _,
      ((activateLogged_frame s).mono.wr (L := [.regs, .auditQ]) (R := [.FW_UPDSTAT])).kept, ?_⟩
    exact onlyRegs_wr (onlyRegs_of_frame (onlyRegs_refl s _) (activateLogged_frame s)) F.FW_UPDSTAT.RESULT _ 0 0 List.mem_cons_self
  · exact ⟨_, exec_activate_deferred hroom h hem, updSt_deferAct _, deferred_deferAct _, rfl, rfl⟩
  · exact ⟨_, exec_activate hroom h hem, updSt_beginActivation _, rfl, rfl, next_beginActivation _,
      ((activateLogged_frame s).mono.after (beginActivation_frame _) (L := [.regs, .auditQ, .fw]) (R := [.FW_UPDSTAT])).kept⟩
  · have haudit : Frame [.auditQ] [] (s.setUpd 2 updCancelled) s.cancelled := (Frame.refl _ _ _).audit
    exact ⟨_, exec_cancel hroom h, (updSt_of_frame haudit).trans (updSt_setUpd s 2 _), (haudit.rd 0 0).trans (result_setUpd s 2 _),
      ((setUpd_frame s 2 _).mono.after haudit (L := [.regs, .auditQ]) (R := [.FW_UPDSTAT])).kept, onlyRegs_of_frame (onlyRegs_setUpd s 2 _) haudit⟩
  · exact ⟨_, exec_activationBegin h hboot hem hclear, updSt_beginActivation s, rfl, (beginActivation_frame s).kept⟩
  · have hframe := coreActed_frame s c rest
    obtain ⟨hact', hacted⟩ := coreActed_fw s c rest
    refine ⟨_, exec_activationCoreRestart h hat hup hact hst hrun, hact', hacted, (rd_wr_same (by decide) c).trans (Nat.mod_eq_of_lt ?_), ?_,
      hframe.part .mem, hframe.part .plots⟩
    · exact hc.trans (by decide)
    · have hafter : Frame [.regs, .fw] [.FW_UPDSTAT] (s.restartNow c causeActivation) (s.coreActed c rest) := (Frame.refl _ _ _).modFw.wr
      exact (hafter.rd c 0).trans (cause_restartNow s c causeActivation)
  · obtain ⟨hst, hresult, hevt⟩ := updFailed_shows s.coresBack
    obtain ⟨hflash, hslot⟩ := flash_coresBack s
    exact ⟨_, exec_activationStartFail h hup hlast hfault, hst, hresult, hevt, rfl, rfl, hslot, hflash⟩
  · obtain ⟨hst, hslot, hacted, hevt⟩ := endActivation_shows s
    exact ⟨_, exec_activationEnd h hat hup hact hrun, hst, hslot, hacted, hevt, (endActivation_frame s).kept⟩

end Sys2Proof.Machine
end

section
/-! Restarts and releases of the cores (R685, R704, R708, R709, R565). -/

set_option Elab.async false

namespace Sys2Proof.Machine
section
variable {L : List Part} {R : List RegName} {s t u : State} {c : Nat}

/-! ### Frames of plots and keys -/

theorem keptBut_flights_pcs (h : s.keptBut t L) (x : List Flight) (y : Tbl Pc) (m0 : Part.flights ∈ L) (m1 : Part.pcs ∈ L) :
    s.keptBut { t with flights := x, pcs := y } L := by
  intro p hp
  have h := h p hp
  cases p
  case flights => exact absurd m0 hp
  case pcs => exact absurd m1 hp
  all_goals exact h

theorem keptBut_plotDue (h : s.keptBut t L) (x : List (Nat × PlotChange)) (m0 : Part.plotDue ∈ L) : s.keptBut { t with plotDue := x } L := by
  intro p hp
  have h := h p hp
  cases p
  case plotDue => exact absurd m0 hp
  all_goals exact h

theorem keptBut_quar (h : s.keptBut t L) (x : Tbl (Option Quarantine)) (m0 : Part.quar ∈ L) : s.keptBut { t with quar := x } L := by
  intro p hp
  have h := h p hp
  cases p
  case quar => exact absurd m0 hp
  all_goals exact h

theorem keptBut_fills_hist (h : s.keptBut t L) (x : Tbl (Option Fill)) (y : Hist) (m0 : Part.fills ∈ L) (m1 : Part.hist ∈ L) :
    s.keptBut { t with fills := x, hist := y } L := by
  intro p hp
  have h := h p hp
  cases p
  case fills => exact absurd m0 hp
  case hist => exact absurd m1 hp
  all_goals exact h

theorem setPlot_frame (s : State) (o : Origin) (i : Nat) (p : Plot) : Frame [.plots, .posies, .auditQ] [] s (s.setPlot o i p) :=
  Frame.of_kept (keptBut_setPlot (keptBut_refl s _) o i p (by decide) (by decide) (by decide))

theorem setSlot_frame (s : State) (o : Origin) (i : Nat) (k : KeySlot) : Frame [.sec, .auditQ] [] s (s.setSlot o i k) :=
  Frame.of_kept (keptBut_setSlot (keptBut_refl s _) o i k (by decide) (by decide))

theorem allocSlotOf_frame (s : State) (n : Nat) : Frame [.sec, .auditQ, .freeCount] [] s (s.allocSlotOf n).2 := Frame.of_kept (allocSlotOf_kept s n)

theorem turnSlot_frame (s : State) (old new : Nat) : Frame [.flights, .pcs] [] s (s.turnSlot old new) :=
  (Frame.refl _ _ s).update (keptBut_flights_pcs (keptBut_refl s _) _ _ (by decide) (by decide)) rfl

/-- The parts that a change of a plot by the block can change. -/
def changeParts : List Part := [.plots, .posies, .auditQ, .plotDue, .flights, .pcs]

theorem makeChange_frame (s : State) (i : Nat) (x : PlotChange) : Frame changeParts [] s (s.makeChange i x) := by
  have hs := Frame.refl changeParts [] s
  unfold State.makeChange
  extract_lets p
  cases x with
  | turn a b => exact Frame.onlyIf (hs.after (setPlot_frame s _ i _)) hs
  | retire core => exact Frame.onlyIf (hs.after (setPlot_frame s _ i _)) hs
  | epoch slot e => exact Frame.onlyIf (hs.after (setPlot_frame s _ i _)) hs
  | rotated slot => exact Frame.onlyIf (hs.after (setPlot_frame s _ i _)) hs
  | keyslot old new => exact Frame.onlyIf ((hs.after (turnSlot_frame s old new)).after (setPlot_frame _ _ i _)) hs

theorem change_frame (s : State) (i : Nat) (x : PlotChange) : Frame changeParts [] s (s.change i x) := by
  unfold State.change
  exact Frame.ite ((Frame.refl _ _ s).update (keptBut_plotDue (keptBut_refl s _) _ (by decide)) rfl) (makeChange_frame s i x)

/-! ### FREE and ALLOC (R72, R74, R96, R578) -/

/-- The parts that a plot command can change beside the registers of its result. -/
def plotParts : List Part := [.plots, .posies, .auditQ, .plotDue, .flights, .pcs, .sec, .freeCount, .quar, .fills, .hist, .histFlash, .mem]

theorem blockWrite_frame (s : State) (pa : Nat) (d : LineData) : Frame [.mem] [] s (s.blockWrite pa d) := Frame.of_kept (blockWrite_kept s pa d)

theorem rotJournal_frame (s : State) (r : Rotation) : Frame [.mem, .sec] [] s (s.rotJournal r) := by
  have hs := Frame.refl [.mem, .sec] [] s
  unfold State.rotJournal
  exact (((hs.after (blockWrite_frame s _ _)).after (blockWrite_frame _ _ _))).sec

theorem draw_frame (s : State) : Frame [.freeCount] [] s s.draw.2 := (Frame.refl _ _ s).update (keptBut_free (keptBut_refl s _) _ (by decide)) rfl

theorem startRotation_frame (s : State) (o : Origin) (slot : Nat) (freed : Option Nat) : Frame plotParts [] s (s.startRotation o slot freed) := by
  have hs := Frame.refl plotParts [] s
  unfold State.startRotation
  extract_lets k e
  split
  next key drawn hdraw =>
    have hdrawn : Frame plotParts [] s drawn := by
      rw [show drawn = s.draw.2 from (congrArg Prod.snd hdraw).symm]
      exact hs.after (draw_frame s)
    extract_lets _ k' slotted covered turned src
    have hslotted : Frame plotParts [] s slotted := hdrawn.after (setSlot_frame _ o slot k')
    have hturned : Frame plotParts [] s turned := hslotted.foldl fun u i => (change_frame u i _).mono
    split
    next nk nkc _ =>
      extract_lets marked
      have hmarked : Frame plotParts [] s marked := hturned.update (keptBut_fills_hist (keptBut_refl _ _) _ _ (by decide) (by decide)) rfl
      exact hmarked.commitHist.after (rotJournal_frame _ _)

theorem keyAction_frame (s : State) (i : Nat) : Frame plotParts [] s (s.keyAction i) := by
  have hs := Frame.refl plotParts [] s
  unfold State.keyAction
  extract_lets slot report
  refine Frame.ite (hs.update (keptBut_quar (keptBut_refl s _) _ (by decide)) rfl) (Frame.ite hs (Frame.ite ?_ ?_))
  · exact hs.after (setSlot_frame s _ _ _)
  · split
    · exact hs.sec
    · exact startRotation_frame s _ _ _

theorem freePlot_frame (s : State) (i : Nat) : Frame plotParts [] s (s.freePlot i).1 := by
  have hs := Frame.refl plotParts [] s
  unfold State.freePlot
  extract_lets p set q
  split
  · exact hs
  · split
    · exact hs
    · have hset : Frame plotParts [] s set := hs.after (setPlot_frame s _ i _)
      have hquar : Frame plotParts [] set { set with quar := tset none set.quar i (some q) } :=
        (Frame.refl _ _ set).update (keptBut_quar (keptBut_refl set _) _ (by decide)) rfl
      exact (hset.trans hquar).trans (keyAction_frame { set with quar := tset none set.quar i (some q) } i)

theorem editPlot_frame (s : State) (i : Nat) (g : Plot → Plot) : Frame plotParts [] s (s.editPlot i g).1 := by
  have hs := Frame.refl plotParts [] s
  unfold State.editPlot
  extract_lets p
  split
  · exact hs
  · split
    · exact hs.after (setPlot_frame s _ i _)
    · exact hs

theorem allocPlot_frame (s : State) (i : Nat) : Frame plotParts [] s (s.allocPlot i).1 := by
  have hs := Frame.refl plotParts [] s
  unfold State.allocPlot
  extract_lets p owner wide frame stack member
  have halloc := allocSlotOf_frame s owner
  split
  · exact hs
  · split
    · exact hs
    · split
      · exact hs
      · split
        · exact hs
        · split
          · exact hs
          · split
            next _ t heq =>
              rw [heq] at halloc
              exact halloc.mono
            next slot t heq =>
              rw [heq] at halloc
              exact halloc.mono.after (setPlot_frame t _ i _)

theorem plotResult_frame (s : State) (i r : Nat) : Frame [.regs] [.PLOT_STATUS, .PLOT_CMD] s (s.plotResult i r) := (Frame.refl _ _ s).wr.wr.raise.wr

/-- The parts that the run of a plot command can change. -/
def plotRunParts : List Part := .regs :: plotParts

theorem plotRun_frame (s : State) (op i : Nat) : Frame plotRunParts [.PLOT_STATUS, .PLOT_CMD] s (s.plotRun op i) := by
  have hs := Frame.refl plotParts [] s
  unfold State.plotRun
  split
  next t r heq =>
    have ht : Frame plotParts [] s t := by
      rw [show t = _ from (congrArg Prod.fst heq).symm]
      split
      · exact allocPlot_frame s i
      · split
        · exact freePlot_frame s i
        · split
          · exact editPlot_frame s i _
          · split
            · exact editPlot_frame s i _
            · exact hs
    exact ht.mono.after (plotResult_frame t i r)

theorem plotResume_frame (s : State) : Frame plotRunParts [.PLOT_STATUS, .PLOT_CMD] s s.plotResume := by
  unfold State.plotResume
  exact Frame.onlyIf (plotRun_frame s _ _).clearReg (Frame.refl _ _ s)

/-- No plot command waits. -/
theorem plotResume_idle (h : s.bit F.PLOT_CMD.BUSY = false) : s.plotResume = s := by
  unfold State.plotResume
  rw [h]
  rfl

/-! ### Restarts (R704, R708, R709) -/

theorem coreSt_of_frame (h : Frame L R s t) (d : Nat) (hR : RegName.FW_STATE ∉ R := by decide) : t.coreSt d = s.coreSt d :=
  h.rd (f := F.FW_STATE.STATE) d 0 hR

theorem sessions_of_frame (h : Frame L R s t) (hL : Part.sec ∉ L := by decide) : t.sec.sessions = s.sec.sessions := by
  have hsec := congrArg Sec.sessions (h.part .sec hL : ({ t.sec with auditQ := [] } : Sec) = { s.sec with auditQ := [] })
  exact hsec

theorem coreSt_setCore (s : State) (c v : Nat) : (s.setCore c v).coreSt c = v % 8 := rd_wr_same (by decide) v

theorem coreSt_setCore_other (s : State) (v : Nat) {d : Nat} (hc : c < 15) (hd : d < 15) (h : d ≠ c) : (s.setCore c v).coreSt d = s.coreSt d :=
  rd_wr_elem (by omega) (by omega) h v 0

/-- The falls of core `c` within 10 s, with one of this cause. -/
def State.recentFalls (s : State) (c cause : Nat) : List Nat :=
  let recent := (tget [] s.fw.falls c).filter fun t => decide (s.now < t + 12000000000)
  if cause = causeWatchdog ∨ cause = causeTrap then recent ++ [s.now] else recent

/-- The state in which core `c` is held. -/
def State.coreHeldFor (s : State) (c cause : Nat) : State :=
  s.setCore c (if (s.recentFalls c cause).length < 3 then coreRestarting else coreFault)

theorem holdCore_after (s : State) (c cause : Nat) :
    Frame [.regs, .fw] [.FW_LASTCAUSE, .FW_EVT] (s.coreHeldFor c cause) (s.holdCore c cause) := by
  unfold State.holdCore
  extract_lets _ _ falls held evt
  have hheld : Frame [.regs, .fw] [.FW_LASTCAUSE, .FW_EVT] (s.coreHeldFor c cause) held := (Frame.refl _ _ _).wr
  exact (Frame.onlyIf hheld.raise hheld).modFw

/-- What a restart does after the core is held. -/
theorem restartNow_after (s : State) (c cause : Nat) :
    Frame [.regs, .auditQ, .lnts, .holds, .windows] [.FW_STATE, .FW_LASTSTAMP, .FW_EVT] (s.holdCore c cause) (s.restartNow c cause) := by
  unfold State.restartNow
  exact ((Frame.refl _ _ _).incRc.wr.raise.audit).after (coreStops_frame _ c)

/-- The counted restart. -/
def State.coreCounted (s : State) (c cause : Nat) : State := (s.holdCore c cause).incRc F.FW_STATE.RESTARTS c

/-- The stamped restart. -/
def State.coreStamped (s : State) (c cause : Nat) : State :=
  ((s.coreCounted c cause).wr F.FW_LASTSTAMP.STAMP s.now c).raise F.FW_EVT.RESTART

theorem restartNow_eq (s : State) (c cause : Nat) : s.restartNow c cause = ((s.coreStamped c cause).audit 0 0 0 (regOff .FW_STATE c)
    (s.reg .FW_STATE c).toNat ((s.coreStamped c cause).reg .FW_STATE c).toNat).coreStops c := rfl

theorem restartNow_stamped (s : State) (c cause : Nat) :
    Frame [.auditQ, .lnts, .holds, .windows] [] (s.coreStamped c cause) (s.restartNow c cause) := by
  rw [restartNow_eq]
  exact (Frame.refl _ _ _).audit.after (coreStops_frame _ c)

theorem coreStamped_counted (s : State) (c cause : Nat) :
    Frame [.regs] [.FW_LASTSTAMP, .FW_EVT] (s.coreCounted c cause) (s.coreStamped c cause) := (Frame.refl _ _ _).wr.raise

theorem evt_restartNow (s : State) (c cause : Nat) : (s.restartNow c cause).bit F.FW_EVT.RESTART = true :=
  ((restartNow_stamped s c cause).bit 0 0).trans (bit_raise_same (by decide) rfl 0)

theorem stamp_restartNow (s : State) (c cause : Nat) : (s.restartNow c cause).rd F.FW_LASTSTAMP.STAMP c = s.now := by
  have hraise : Frame [.regs] [.FW_EVT] ((s.coreCounted c cause).wr F.FW_LASTSTAMP.STAMP s.now c) (s.coreStamped c cause) := (Frame.refl _ _ _).raise
  rw [(restartNow_stamped s c cause).rd (f := F.FW_LASTSTAMP.STAMP) c 0, hraise.rd (f := F.FW_LASTSTAMP.STAMP) c 0, rd_wr_same (by decide)]
  exact Nat.mod_eq_of_lt s.clk.now.isLt

theorem state_restartNow (s : State) (c cause : Nat) {f : Fld} (hf : f.reg = .FW_STATE) (i : Nat) :
    (s.restartNow c cause).rd f i = (s.coreCounted c cause).rd f i := by
  rw [(restartNow_stamped s c cause).rd (f := f) i 0 List.not_mem_nil, (coreStamped_counted s c cause).rd (f := f) i 0 (by rw [hf]; decide)]

theorem restarts_restartNow (s : State) (c cause : Nat) : (s.restartNow c cause).rd F.FW_STATE.RESTARTS c =
    min (2 ^ F.FW_STATE.RESTARTS.len - 1) (s.rd F.FW_STATE.RESTARTS c + 1) := by
  rw [state_restartNow s c cause rfl, State.coreCounted, rd_incRc_same (by decide), (holdCore_after s c cause).rd (f := F.FW_STATE.RESTARTS) c 0,
    State.coreHeldFor, State.setCore, rd_wr_apart (by decide) (by decide)]

theorem rd_incRc_apart {f g : Fld} (h : f.fits) (ha : f.apart g) (i j n : Nat) : (s.incRc f i j n).rd g i j = s.rd g i j := rd_wr_apart h ha _

theorem coreSt_restartNow (s : State) (c cause : Nat) :
    (s.restartNow c cause).coreSt c = (if (s.recentFalls c cause).length < 3 then coreRestarting else coreFault) := by
  have hst : (s.restartNow c cause).coreSt c = (s.coreHeldFor c cause).coreSt c := by
    unfold State.coreSt
    rw [state_restartNow s c cause rfl, State.coreCounted, rd_incRc_apart (by decide) (by decide), (holdCore_after s c cause).rd (f := F.FW_STATE.STATE) c 0]
  rw [hst, State.coreHeldFor, coreSt_setCore]
  split <;> rfl

theorem coreSt_restartNow_other (s : State) (cause : Nat) {d : Nat} (hc : c < 15) (hd : d < 15) (h : d ≠ c) :
    (s.restartNow c cause).coreSt d = s.coreSt d := by
  unfold State.coreSt
  rw [state_restartNow s c cause rfl, State.coreCounted,
    rd_incRc_elem (.inl (by rwa [Nat.mod_eq_of_lt (by omega), Nat.mod_eq_of_lt (by omega)])), (holdCore_after s c cause).rd (f := F.FW_STATE.STATE) d 0]
  exact coreSt_setCore_other s _ hc hd h

theorem queued_restartNow (s : State) (c cause : Nat) :
    s.queued (s.restartNow c cause) 0 0 0 (regOff .FW_STATE c) (s.reg .FW_STATE c).toNat ((s.restartNow c cause).reg .FW_STATE c).toNat := by
  have hreg : (s.restartNow c cause).reg .FW_STATE c = (s.coreStamped c cause).reg .FW_STATE c := (restartNow_stamped s c cause).regs _ List.not_mem_nil c 0
  have hclk : (s.coreStamped c cause).clk = s.clk := ((coreStamped_counted s c cause).part .clk).trans
    (((Frame.refl [.regs] [.FW_STATE] _).incRc.part .clk).trans ((holdCore_frame s c cause).part .clk))
  rw [hreg, restartNow_eq]
  exact queued_grows (queued_audit (nowAt_of_clk hclk 12) _ _ _ _ _ _ _) (auditGrows_of_frame (coreStops_frame _ c))

/-- A restart that falls due while SEC runs begins. -/
theorem restart_now {cause : Nat} (h : c = 0 ∨ s.coreSt 0 ≠ coreRestarting) : s.restart c cause = s.restartNow c cause := by
  unfold State.restart
  exact if_neg fun hw => h.elim (fun hc => hw.1 hc) fun hst => hst hw.2

/-- A restart that falls due while SEC restarts is owed. -/
theorem restart_owed {cause : Nat} (hc : c ≠ 0) (hsec : s.coreSt 0 = coreRestarting) (hnew : (s.fw.owed.any fun o => o.1 == c) = false) :
    s.restart c cause = s.modFw fun f => { f with owed := f.owed ++ [(c, cause)] } := by
  unfold State.restart
  rw [if_pos ⟨hc, hsec⟩]
  exact if_neg (ne_true_of_eq_false hnew)

theorem restart_frame (s : State) (c cause : Nat) : Frame [.regs, .fw, .auditQ, .lnts, .holds, .windows]
    [.FW_STATE, .FW_LASTCAUSE, .FW_LASTSTAMP, .FW_EVT] s (s.restart c cause) := by
  unfold State.restart
  exact Frame.ite (Frame.ite (Frame.refl _ _ s) (Frame.refl _ _ s).modFw) (restartNow_frame s c cause)

/-- What is as it was when a restart falls due, but for what counts and logs the request. -/
structure Asked (s t : State) : Prop where
  clk : t.clk = s.clk
  fw : t.fw = s.fw
  regs : t.regs = s.regs
  mem : t.mem = s.mem
  plots : t.plots = s.plots
  flights : t.flights = s.flights

theorem asked_of_frame {L : List Part} (h : Frame L [] s t) (hregs : t.regs = s.regs)
    (hL : ∀ p ∈ [Part.clk, .fw, .mem, .plots, .flights], p ∉ L := by decide) : Asked s t :=
  ⟨h.part .clk (hL _ (by decide)), h.part .fw (hL _ (by decide)), hregs, h.part .mem (hL _ (by decide)), h.part .plots (hL _ (by decide)),
    h.part .flights (hL _ (by decide))⟩

theorem recentFalls_length (s : State) (c cause : Nat) (hcause : cause = causeWatchdog ∨ cause = causeTrap ∨ cause = causePf0) :
    (s.recentFalls c cause).length =
      ((tget [] s.fw.falls c).filter fun u => decide (s.now < u + 12000000000)).length + (if cause = causePf0 then 0 else 1) := by
  unfold State.recentFalls
  rcases hcause with rfl | rfl | rfl
  · exact List.length_append
  · exact List.length_append
  · rfl

/-- The restart of a core. -/
theorem restarts {cause : Nat} {u : State} (h : Asked s u) (hc : c < 15) (hcause : cause = causeWatchdog ∨ cause = causeTrap ∨ cause = causePf0) :
    (u.restart c cause).mem = s.mem ∧ (u.restart c cause).plots = s.plots ∧ (u.restart c cause).flights = s.flights ∧
    ((c = 0 ∨ s.coreSt 0 ≠ coreRestarting) → (u.restart c cause).rd F.FW_LASTCAUSE.CAUSE c = cause ∧
      (u.restart c cause).rd F.FW_LASTSTAMP.STAMP c = s.now ∧ (u.restart c cause).bit F.FW_EVT.RESTART = true ∧
      (u.restart c cause).rd F.FW_STATE.RESTARTS c = min (2 ^ F.FW_STATE.RESTARTS.len - 1) (s.rd F.FW_STATE.RESTARTS c + 1) ∧
      (u.restart c cause).coreSt c = (if ((tget [] s.fw.falls c).filter fun u => decide (s.now < u + 12000000000)).length +
        (if cause = causePf0 then 0 else 1) < 3 then coreRestarting else coreFault) ∧
      (∀ d, d < 15 → d ≠ c → (u.restart c cause).coreSt d = s.coreSt d) ∧
      s.queued (u.restart c cause) 0 0 0 (regOff .FW_STATE c) (s.reg .FW_STATE c).toNat ((u.restart c cause).reg .FW_STATE c).toNat) ∧
    (c ≠ 0 → s.coreSt 0 = coreRestarting → (s.fw.owed.any fun o => o.1 == c) = false →
      (u.restart c cause).fw.owed = s.fw.owed ++ [(c, cause)] ∧ (u.restart c cause).coreSt c = s.coreSt c) := by
  have hframe := restart_frame u c cause
  have hst : ∀ d, u.coreSt d = s.coreSt d := fun d => rd_of_regs h.regs _ d 0
  have hnow : u.now = s.now := congrArg (fun k : Clk => k.now.toNat) h.clk
  refine ⟨(hframe.part .mem).trans h.mem, (hframe.part .plots).trans h.plots, (hframe.part .flights).trans h.flights, fun hsec => ?_, fun hc0 hsec hnew => ?_⟩
  · rw [restart_now (by rwa [hst])]
    refine ⟨?_, (stamp_restartNow u c cause).trans hnow, evt_restartNow u c cause, ?_, ?_, fun d hd hne => ?_, ?_⟩
    · rw [cause_restartNow]
      rcases hcause with rfl | rfl | rfl <;> rfl
    · rw [restarts_restartNow, rd_of_regs h.regs]
    · rw [coreSt_restartNow, recentFalls_length u c cause hcause, h.fw, hnow]
    · rw [coreSt_restartNow_other u cause hc hd hne, hst]
    · have hqueued := queued_restartNow u c cause
      rw [reg_of_regs h.regs] at hqueued
      unfold State.queued at hqueued ⊢
      rwa [nowAt_of_clk h.clk] at hqueued
  · rw [restart_owed hc0 (by rw [hst, hsec]) (by rw [h.fw, hnew])]
    refine ⟨?_, ?_⟩
    · show u.fw.owed ++ [(c, cause)] = _
      rw [h.fw]
    · exact (coreSt_of_frame (Frame.refl [.fw] [] u).modFw c).trans (hst c)

theorem exec_watchdogExpiry {c : Fin 15} (hrun : s.coreSt c = coreRunning) (hdue : tget 0 s.fw.since c + usTicks (1000 * s.rd F.FW_CTL.WDOG_MS c) ≤ s.now) :
    exec (.watchdogExpiry c) s = .next (s.restart c causeWatchdog) := by
  show execWatchdogExpiry c s = _
  unfold execWatchdogExpiry
  rw [if_pos hdue, if_pos (by rw [hrun]; rfl)]

theorem exec_coreTrap {c : Fin 15} (hrun : s.coreSt c = coreRunning) :
    exec (.coreTrap c) s = .next ((s.evt (13 + c.val) 0x05 0).restart c causeTrap) := by
  show execCoreTrap c s = _
  unfold execCoreTrap
  exact congrArg Host.Outcome.next (onlyIf_pos (by rw [hrun]; rfl) _ _)

/-- CORE_RESTART's write of FW_CTL is logged (R596). -/
def State.restartLogged (s : State) (c : Nat) : State :=
  s.audit 1 0 0 (regOff .FW_CTL c) (s.reg .FW_CTL c).toNat (2 ^ 31 + s.rd F.FW_CTL.WDOG_MS c)

theorem exec_coreRestart {c : Fin 15} (ok : Bool) (hroom : s.auditFull = false) (hst : s.coreSt c ≠ coreRestarting) (hload : s.coreSt c ≠ 1) :
    exec (.coreRestart c ok) s = .next (if ok then (s.restartLogged c).restart c causePf0
      else ((s.restartLogged c).restart c causePf0).loadImg c (((s.restartLogged c).restart c causePf0).bootImg c false)) := by
  show execCoreRestart c ok s = _
  unfold execCoreRestart
  rw [orWait_open hroom]
  exact if_neg (by simp [hst, hload])

theorem bootImg_of_flash {d : Nat} {b : Bool} (h : t.fw.flash = s.fw.flash) (hslot : t.fw.slot = s.fw.slot) : t.bootImg d b = s.bootImg d b := by
  unfold State.bootImg
  rw [h, hslot]

theorem flash_restart (s : State) (c cause : Nat) : (s.restart c cause).fw.flash = s.fw.flash ∧ (s.restart c cause).fw.slot = s.fw.slot := by
  unfold State.restart
  split
  · split <;> exact ⟨rfl, rfl⟩
  · rw [fallen_restartNow s c cause]
    exact ⟨rfl, rfl⟩

/-! ### Releases (R565, R706, R709) -/

/-- A core that an activation has given a new image holds it. -/
def State.coreLoaded (s : State) (c : Nat) : State :=
  if s.fw.fresh.contains c then (s.loadImg c (s.bootImg c true)).modFw fun f => { f with fresh := f.fresh.filter (· != c) } else s

theorem coreLoaded_frame (s : State) (c : Nat) : Frame [.regs, .fw] [.FW_VER, .FW_BUILD, .FW_SVN, .FW_DIGEST] s (s.coreLoaded c) :=
  Frame.ite (loadImg_frame s c _).modFw (Frame.refl _ _ s)

theorem owed_coreLoaded (s : State) (c : Nat) : (s.coreLoaded c).fw.owed = s.fw.owed := by
  have hfresh (u : State) : (u.modFw fun f => { f with fresh := f.fresh.filter (· != c) }).fw.owed = u.fw.owed := rfl
  unfold State.coreLoaded
  split
  · rw [hfresh, loadImg_fw]
  · rfl

/-- The core runs. -/
def State.coreRuns (s : State) (c : Nat) : State := (s.coreLoaded c).runCore c

theorem coreRuns_frame (s : State) (c : Nat) : Frame [.regs, .fw] [.FW_STATE, .FW_VER, .FW_BUILD, .FW_SVN, .FW_DIGEST] s (s.coreRuns c) :=
  (coreLoaded_frame s c).mono.after (runCore_frame _ c)

theorem coreSt_runCore (s : State) (c : Nat) : (s.runCore c).coreSt c = coreRunning :=
  (coreSt_of_frame (Frame.refl [.fw] [] (s.setCore c coreRunning)).modFw c).trans (coreSt_setCore s c coreRunning)

theorem coreSt_runCore_other (s : State) {c d : Nat} (hc : c < 15) (hd : d < 15) (h : d ≠ c) : (s.runCore c).coreSt d = s.coreSt d :=
  (coreSt_of_frame (Frame.refl [.fw] [] (s.setCore c coreRunning)).modFw d).trans (coreSt_setCore_other s coreRunning hc hd h)

theorem since_coreRuns (s : State) (c : Nat) : tget 0 (s.coreRuns c).fw.since c = s.now := by
  have hnow : (s.coreLoaded c).now = s.now := congrArg (fun k : Clk => k.now.toNat) ((coreLoaded_frame s c).part .clk)
  unfold State.coreRuns State.runCore
  show tget 0 (tset 0 ((s.coreLoaded c).setCore c coreRunning).fw.since c (s.coreLoaded c).now) c = s.now
  rw [tget_tset_same, hnow]

theorem coreSt_coreRuns_other (s : State) {c d : Nat} (hc : c < 15) (hd : d < 15) (h : d ≠ c) : (s.coreRuns c).coreSt d = s.coreSt d :=
  (coreSt_runCore_other _ hc hd h).trans (coreSt_of_frame (coreLoaded_frame s c) d)

/-- The sessions' timers take `d` more ticks (R565). -/
def State.beatsLater (s : State) (d : Nat) : State :=
  { s with sec := { s.sec with sessions := s.sec.sessions.map fun e => (e.1, e.2.map fun x => { x with beat := x.beat + d }) } }

theorem beatsLater_frame (s : State) (d : Nat) : Frame [.sec] [] s (s.beatsLater d) :=
  (Frame.refl _ _ s).update (keptBut_secOnly (keptBut_refl s _) _ rfl (by decide)) rfl

/-- SEC, in a state in which it runs, takes up its work while no restart waits. -/
def State.secBack (u : State) : State :=
  ((u.beatsLater (u.now - u.rd F.FW_LASTSTAMP.STAMP 0)).plotResume).modFw fun f => { f with owed := [] }

/-- SCH, in a state in which it runs, takes up its work. -/
def State.schBack (u : State) : State :=
  (u.releaseJobs fun b => u.ringSt b.ring != ringPaused).modRings fun x => { x with beat := if x.beat = 0 then 0 else u.now + 1 }

/-- What follows the release of core `c`. -/
def State.coreBackAt (u : State) (c : Nat) : State :=
  if c = 0 then u.fw.owed.foldl (fun s o => s.restartNow o.1 o.2) u.secBack else if c = 2 then u.schBack else u

theorem coreBackAt_sec (howed : s.fw.owed = []) : s.coreBackAt 0 = s.secBack := by
  unfold State.coreBackAt
  rw [if_pos rfl, howed]
  rfl

theorem exec_coreRelease {c : Fin 15} (hst : s.coreSt c = coreRestarting) : exec (.coreRelease c) s = .next ((s.coreRuns c).coreBackAt c) := by
  show execCoreRelease c s = _
  unfold execCoreRelease
  rw [if_neg (not_not.2 hst)]
  rfl

theorem secBack_frame (u : State) : Frame (.fw :: plotRunParts) [.PLOT_STATUS, .PLOT_CMD] u u.secBack :=
  (((beatsLater_frame u _).mono).after (plotResume_frame _)).modFw

theorem since_secBack (u : State) : u.secBack.fw.since = u.fw.since := by
  have hresume (v : State) : v.plotResume.fw = v.fw := (plotResume_frame v).part .fw
  unfold State.secBack
  show (u.beatsLater (u.now - u.rd F.FW_LASTSTAMP.STAMP 0)).plotResume.fw.since = _
  rw [hresume]
  rfl

theorem schBack_frame (u : State) : Frame (.rings :: askParts) acceptRegs u u.schBack := ((releaseJobs_frame u _).mono).modRings

/-- Core `c` runs, and no other core's state changes. -/
theorem coreBackAt_states (howed : s.fw.owed = []) (c : Nat) (hc : c < 15) : ((s.coreRuns c).coreBackAt c).coreSt c = coreRunning ∧
    tget 0 ((s.coreRuns c).coreBackAt c).fw.since c = s.now ∧ ∀ d, d < 15 → d ≠ c → ((s.coreRuns c).coreBackAt c).coreSt d = s.coreSt d := by
  have hruns : ∀ u : State, (∀ d, u.coreSt d = (s.coreRuns c).coreSt d) → u.fw.since = (s.coreRuns c).fw.since →
      u.coreSt c = coreRunning ∧ tget 0 u.fw.since c = s.now ∧ ∀ d, d < 15 → d ≠ c → u.coreSt d = s.coreSt d := fun u hst hsince =>
    ⟨(hst c).trans (coreSt_runCore _ c), by rw [hsince, since_coreRuns], fun d hd hne => (hst d).trans (coreSt_coreRuns_other s hc hd hne)⟩
  by_cases h0 : c = 0
  · subst h0
    have howed' : (s.coreRuns 0).fw.owed = [] := (owed_coreLoaded s 0).trans howed
    rw [coreBackAt_sec howed']
    exact hruns _ (fun d => coreSt_of_frame (secBack_frame _) d) (since_secBack _)
  · by_cases h2 : c = 2
    · subst h2
      have hfw : (s.coreRuns 2).schBack.fw = (s.coreRuns 2).fw := (schBack_frame _).part .fw
      exact hruns _ (fun d => coreSt_of_frame (schBack_frame _) d) (by rw [State.coreBackAt, if_neg h0, if_pos rfl, hfw])
    · have hsame : (s.coreRuns c).coreBackAt c = s.coreRuns c := by rw [State.coreBackAt, if_neg h0, if_neg h2]
      rw [hsame]
      exact hruns _ (fun d => rfl) rfl

/-- A core other than SEC leaves lines, plots and sessions alone. -/
theorem coreBackAt_kept (c : Nat) (h0 : c ≠ 0) : ((s.coreRuns c).coreBackAt c).mem = s.mem ∧ ((s.coreRuns c).coreBackAt c).plots = s.plots ∧
    ((s.coreRuns c).coreBackAt c).sec.sessions = s.sec.sessions := by
  have hruns : Frame (.rings :: .fw :: askParts) (.FW_STATE :: .FW_VER :: .FW_BUILD :: .FW_SVN :: .FW_DIGEST :: acceptRegs) s (s.coreRuns c) :=
    (coreRuns_frame s c).mono
  have hback : Frame (.rings :: .fw :: askParts) (.FW_STATE :: .FW_VER :: .FW_BUILD :: .FW_SVN :: .FW_DIGEST :: acceptRegs) s
      ((s.coreRuns c).coreBackAt c) := by
    unfold State.coreBackAt
    rw [if_neg h0]
    exact Frame.ite (hruns.after (schBack_frame _)) hruns
  exact ⟨hback.part .mem, hback.part .plots, sessions_of_frame hback⟩

/-- While no plot command waits, SEC's release leaves lines and plots alone and gives each session the time of the restart. -/
theorem secBack_sessions {u : State} (hbusy : u.bit F.PLOT_CMD.BUSY = false) : u.secBack.mem = u.mem ∧ u.secBack.plots = u.plots ∧
    ∀ i x, u.session i = some x → u.secBack.session i = some { x with beat := x.beat + (u.now - u.rd F.FW_LASTSTAMP.STAMP 0) } := by
  have hidle : (u.beatsLater (u.now - u.rd F.FW_LASTSTAMP.STAMP 0)).plotResume = u.beatsLater (u.now - u.rd F.FW_LASTSTAMP.STAMP 0) :=
    plotResume_idle (((beatsLater_frame u _).bit 0 0).trans hbusy)
  unfold State.secBack
  rw [hidle]
  refine ⟨rfl, rfl, fun i x hx => ?_⟩
  have hmap := tget_map_snd none (Option.map fun x : Session => { x with beat := x.beat + (u.now - u.rd F.FW_LASTSTAMP.STAMP 0) }) rfl u.sec.sessions i
  exact hmap.trans (congrArg _ hx)

theorem session_coreRuns (s : State) (c i : Nat) : (s.coreRuns c).session i = s.session i := by
  rw [State.session, sessions_of_frame (coreRuns_frame s c), State.session]

end

/-- Settles O24: a restart begins at once or is owed; a release lets the core run, and SEC's gives the sessions more time. -/
theorem coreRestarts : Obligations.CoreRestarts := by
  unfold Obligations.CoreRestarts
  intro s c
  refine ⟨fun cause x hx => ?_, fun ok hroom hst hload => ⟨_, exec_coreRestart ok hroom hst hload, fun hok => ?_⟩,
    fun hst howed => ⟨_, exec_coreRelease hst, ?_⟩⟩
  · rcases hx with ⟨rfl, hrun, hdue, rfl⟩ | ⟨rfl, hrun, rfl⟩ | ⟨rfl, hroom, hst, hload, rfl⟩
    · exact ⟨_, exec_watchdogExpiry hrun hdue, restarts (asked_of_frame (Frame.refl [] [] s) rfl) c.isLt (.inl rfl)⟩
    · exact ⟨_, exec_coreTrap hrun, restarts (asked_of_frame (Frame.refl [.pmus] [] s).evt rfl) c.isLt (.inr (.inl rfl))⟩
    · have hlogged : Frame [.auditQ] [] s (s.restartLogged c) := (Frame.refl _ _ s).audit
      exact ⟨_, exec_coreRestart true hroom hst hload, restarts (asked_of_frame hlogged rfl) c.isLt (.inr (.inr rfl))⟩
  · obtain ⟨hflash, hslot⟩ := flash_restart (s.restartLogged c) c causePf0
    rw [hok, if_neg Bool.false_ne_true, loadImg_fw]
    exact (tget_tset_same _ _ _ _).trans (bootImg_of_flash hflash hslot)
  · obtain ⟨hrun, hsince, hother⟩ := coreBackAt_states howed c.val c.isLt
    refine ⟨hrun, hsince, hother, fun h0 => coreBackAt_kept c.val h0, fun h0 hbusy => ?_⟩
    have hruns := coreRuns_frame s 0
    have howed' : (s.coreRuns 0).fw.owed = [] := (owed_coreLoaded s 0).trans howed
    have hnow : (s.coreRuns 0).now = s.now := congrArg (fun k : Clk => k.now.toNat) (hruns.part .clk)
    obtain ⟨hmem, hplots, hsess⟩ := secBack_sessions (u := s.coreRuns 0) ((hruns.bit 0 0).trans hbusy)
    rw [h0, coreBackAt_sec howed']
    refine ⟨hmem.trans (hruns.part .mem), hplots.trans (hruns.part .plots), fun i x hx => ?_⟩
    rw [hsess i x ((session_coreRuns s 0 i).trans hx), hnow, hruns.rd (f := F.FW_LASTSTAMP.STAMP) 0 0]

end Sys2Proof.Machine
end

section
/-! Sessions: how they form, serve and end (R558 to R569, R602). -/

set_option Elab.async false

namespace Sys2Proof.Machine
section
variable {L : List Part} {R : List RegName} {s t u : State} {f i n : Nat} {x : Session}

/-! ### Plots that turn together (R564, R72) -/

theorem mem_of_tget {α : Type} {d v : α} {T : Tbl α} {k : Nat} (h : tget d T k = v) (hv : v ≠ d) : (k, v) ∈ T := by
  induction T with
  | nil => exact absurd h.symm hv
  | cons e T ih =>
    obtain ⟨j, w⟩ := e
    by_cases hj : j = k
    · rw [tget, if_pos hj] at h
      rw [← hj, ← h]
      exact List.mem_cons_self
    · rw [tget, if_neg hj] at h
      exact List.mem_cons_of_mem _ (ih h)

variable {a b : PlotState} {p k : Nat}

theorem change_turn (s : State) (k : Nat) (a b : PlotState) : s.change k (.turn a b) =
    if s.plotChanged k = true then { s with plotDue := s.plotDue ++ [(k, .turn a b)] }
    else if (s.plot k).state == a then s.setPlot (Origin.core 0) k { s.plot k with state := b } else s := rfl

theorem turn_frame (s : State) (k : Nat) (a b : PlotState) : Frame [.plots, .posies, .auditQ, .plotDue] [] s (s.change k (.turn a b)) := by
  have hs := Frame.refl [.plots, .posies, .auditQ, .plotDue] [] s
  rw [change_turn]
  exact Frame.ite (hs.update (keptBut_plotDue (keptBut_refl s _) _ (by decide)) rfl) (Frame.ite (hs.after (setPlot_frame s _ k _)) hs)

/-- A plot that stays or becomes OPEN leaves no Posy. -/
theorem setPlot_open_frame (s : State) (o : Origin) (i : Nat) {q : Plot} (hq : q.state = .openPlot) :
    Frame [.plots, .auditQ] [] s (s.setPlot o i q) := by
  have hs := Frame.refl [.plots, .auditQ] [] s
  have hstays : ((s.plot i).state == .openPlot && ({ q with stamp := s.clk.now } : Plot).state != .openPlot) = false := by simp [hq]
  unfold State.setPlot
  extract_lets p left
  have hleft : left = s := onlyIf_neg hstays _ _
  rw [hleft]
  exact (hs.update (keptBut_plots (keptBut_refl s _) (tset Plot.blank s.plots i p) (by decide)) rfl).audit

theorem openTurn_frame (s : State) (k : Nat) : Frame [.plots, .auditQ, .plotDue] [] s (s.change k (.turn .sealed .openPlot)) := by
  have hs := Frame.refl [.plots, .auditQ, .plotDue] [] s
  rw [change_turn]
  exact Frame.ite (hs.update (keptBut_plotDue (keptBut_refl s _) _ (by decide)) rfl)
    (Frame.ite (hs.after (setPlot_open_frame s _ k rfl)) hs)

theorem plot_change_other (s : State) (a b : PlotState) (h : p ≠ k) : (s.change k (.turn a b)).plot p = s.plot p := by
  rw [change_turn]
  split
  · rfl
  · split
    · exact plot_setPlot_other _ _ h
    · rfl

theorem plotChanged_change (s : State) (a b : PlotState) (h : (s.change k (.turn a b)).plot p = s.plot p) :
    (s.change k (.turn a b)).plotChanged p = s.plotChanged p := by
  have hclk : (s.change k (.turn a b)).clk = s.clk := (turn_frame s k a b).part .clk
  unfold State.plotChanged
  rw [h, hclk]

theorem turned_stays (hab : a ≠ b) (h : (s.plot p).state = b) : ((s.change k (.turn a b)).plot p).state = b := by
  by_cases hk : p = k
  · subst hk
    rw [change_turn]
    split
    · exact h
    · rw [if_neg (by simpa [h] using hab.symm)]
      exact h
  · rw [plot_change_other s a b hk, h]

theorem turned_here (h : (s.plot p).state = a) (hnew : s.plotChanged p = false) : ((s.change p (.turn a b)).plot p).state = b := by
  rw [change_turn]
  rw [hnew, if_neg Bool.false_ne_true, if_pos (by rw [h]; exact beq_self_eq_true a), plot_setPlot_same]

/-- A plot of the tenant's that has not changed in the tick turns. -/
theorem state_turnPlots (hab : a ≠ b) (hblank : a ≠ .free) (howner : (s.plot p).owner = n) (h : (s.plot p).state = a) (hnew : s.plotChanged p = false) :
    ((s.turnPlots n a b).plot p).state = b := by
  have hmem : (p, s.plot p) ∈ s.plots.filter fun e => e.2.owner == n && e.2.state == a := by
    refine List.mem_filter.2 ⟨mem_of_tget rfl fun hb => hblank ?_, by simp [howner, h]⟩
    rw [← h, hb]
    rfl
  obtain ⟨l, l', hl⟩ := List.append_of_mem hmem
  have hfirst : ∀ u : State, ((u.plot p).state = b ∨ u.plot p = s.plot p ∧ u.plotChanged p = s.plotChanged p) → ∀ k,
      (((u.change k (.turn a b)).plot p).state = b ∨ (u.change k (.turn a b)).plot p = s.plot p ∧
        (u.change k (.turn a b)).plotChanged p = s.plotChanged p) := by
    rintro u (hb | ⟨hp, hc⟩) k
    · exact .inl (turned_stays hab hb)
    · by_cases hk : p = k
      · subst hk
        exact .inl (turned_here (by rw [hp, h]) (hc.trans hnew))
      · have hsame := plot_change_other u a b hk
        exact .inr ⟨hsame.trans hp, (plotChanged_change u a b hsame).trans hc⟩
  unfold State.turnPlots
  rw [hl, List.foldl_append, List.foldl_cons]
  refine foldl_inv (fun u : State => (u.plot p).state = b) _ _ (fun u e _ hu => turned_stays hab hu) _ ?_
  rcases foldl_inv (fun u : State => (u.plot p).state = b ∨ u.plot p = s.plot p ∧ u.plotChanged p = s.plotChanged p) l _
    (fun u e _ hu => hfirst u hu e.1) s (.inr ⟨rfl, rfl⟩) with hb | ⟨hp, hc⟩
  · exact turned_stays hab hb
  · exact turned_here (by rw [hp, h]) (hc.trans hnew)

theorem plotDue_change (s : State) (k : Nat) (a b : PlotState) : ∀ e ∈ s.plotDue, e ∈ (s.change k (.turn a b)).plotDue := by
  intro e he
  rw [change_turn]
  split
  · exact List.mem_append_left _ he
  · have hset : Frame [.plots, .posies, .auditQ] [] s (if (s.plot k).state == a then
        s.setPlot (Origin.core 0) k { s.plot k with state := b } else s) := Frame.ite (setPlot_frame s _ k _) (Frame.refl _ _ s)
    have hdue : _ = s.plotDue := hset.part .plotDue
    rwa [hdue]

/-- A plot of the tenant's that has changed in the tick turns with the next. -/
theorem due_turnPlots (hblank : a ≠ .free) (howner : (s.plot p).owner = n) (h : (s.plot p).state = a) (hchanged : s.plotChanged p = true) :
    (p, PlotChange.turn a b) ∈ (s.turnPlots n a b).plotDue := by
  have hmem : (p, s.plot p) ∈ s.plots.filter fun e => e.2.owner == n && e.2.state == a := by
    refine List.mem_filter.2 ⟨mem_of_tget rfl fun hb => hblank ?_, by simp [howner, h]⟩
    rw [← h, hb]
    rfl
  obtain ⟨l, l', hl⟩ := List.append_of_mem hmem
  have hkeeps : ∀ u : State, u.plotChanged p = true → ∀ k, (u.change k (.turn a b)).plotChanged p = true := by
    intro u hu k
    have hsame : (u.change k (.turn a b)).plot p = u.plot p := by
      by_cases hk : p = k
      · subst hk
        unfold State.change
        rw [if_pos hu]
        rfl
      · exact plot_change_other u a b hk
    exact (plotChanged_change u a b hsame).trans hu
  unfold State.turnPlots
  rw [hl, List.foldl_append, List.foldl_cons]
  refine foldl_inv (fun u : State => (p, PlotChange.turn a b) ∈ u.plotDue) _ _ (fun u e _ hu => plotDue_change u e.1 a b _ hu) _ ?_
  have hat := foldl_inv (fun u : State => u.plotChanged p = true) l _ (fun u e _ hu => hkeeps u hu e.1) s hchanged
  show (p, PlotChange.turn a b) ∈ (State.change _ p (.turn a b)).plotDue
  rw [change_turn, if_pos hat]
  exact List.mem_append_right _ List.mem_cons_self

theorem turnPlots_frame (s : State) (n : Nat) (a b : PlotState) : Frame [.plots, .posies, .auditQ, .plotDue] [] s (s.turnPlots n a b) :=
  (Frame.refl _ _ s).foldl fun u e => turn_frame u e.1 a b

theorem openPlots_frame (s : State) (n : Nat) : Frame [.plots, .auditQ, .plotDue] [] s (s.turnPlots n .sealed .openPlot) :=
  (Frame.refl _ _ s).foldl fun u e => openTurn_frame u e.1

theorem auditGrows_setPlot (s : State) (o : Origin) (k : Nat) (q : Plot) : s.auditGrows (s.setPlot o k q) := by
  unfold State.setPlot
  extract_lets p left
  refine fun e he => auditGrows_audit _ _ _ _ _ _ _ _ e ?_
  have hleft : left.sec.auditQ = s.sec.auditQ := by
    unfold left onlyIf
    split <;> rfl
  rwa [hleft]

/-- The entries that wait go on waiting. -/
theorem auditGrows_turnPlots (s : State) (n : Nat) (a b : PlotState) : s.auditGrows (s.turnPlots n a b) := by
  refine foldl_inv (fun u : State => s.auditGrows u) _ _ (fun u e _ hu x hx => ?_) s fun _ hx => hx
  rw [change_turn]
  split
  · exact hu x hx
  · split
    · exact auditGrows_setPlot u _ _ _ x (hu x hx)
    · exact hu x hx

/-! ### Sessions -/

/-- A session takes a value. -/
def State.setSession (s : State) (i : Nat) (v : Option Session) : State :=
  { s with sec := { s.sec with sessions := tset none s.sec.sessions i v } }

theorem setSession_frame (s : State) (i : Nat) (v : Option Session) : Frame [.sec] [] s (s.setSession i v) :=
  (Frame.refl _ _ s).update (keptBut_secOnly (keptBut_refl s _) _ rfl (by decide)) rfl

/-- The next free value is taken. -/
def State.drawn (s : State) : State := { s with free := s.free + 1 }

theorem drawn_frame (s : State) : Frame [.freeCount] [] s s.drawn :=
  (Frame.refl _ _ s).update (keptBut_free (keptBut_refl s _) _ (by decide)) rfl

theorem session_of_sessions (h : t.sec.sessions = s.sec.sessions) (n : Nat) : t.session n = s.session n := by
  unfold State.session
  rw [h]

theorem session_setSession_same (s : State) (i : Nat) (v : Option Session) : (s.setSession i v).session i = v := tget_tset_same _ _ _ _

theorem session_setSession_other (s : State) (v : Option Session) (h : n ≠ i) : (s.setSession i v).session n = s.session n :=
  tget_tset_other _ _ _ _ h

/-- Session `i` of what a frame keeps of a state in which it was set. -/
theorem sessions_set (v : Option Session) (h : t.sec.sessions = (s.setSession i v).sec.sessions) :
    t.session i = v ∧ ∀ n, n ≠ i → t.session n = s.session n :=
  ⟨(session_of_sessions h i).trans (session_setSession_same s i v), fun n hn => (session_of_sessions h n).trans (session_setSession_other s v hn)⟩

/-! ### Messages outside sessions (R558 to R560) -/

theorem spdmAnswer_frame (s : State) (f : Nat) : Frame [.sec, .freeCount] [] s (s.spdmAnswer f).1 := by
  have hs := Frame.refl [.sec, .freeCount] [] s
  unfold State.spdmAnswer
  extract_lets m v conn has
  split
  · exact hs.sec
  · split
    · exact (hs.after (drawn_frame s)).sec
    · exact hs.after (drawn_frame s)

variable {m : List Byte}

theorem spdmAnswer_versions (hm : m = (s.mbxReq f).drop 8) (h : m.getD 1 0 = 0x84) :
    s.spdmAnswer f = ({ s with sec := { s.sec with conns := tset 0 s.sec.conns f 0 } }, spdmVersions) := by
  subst hm
  exact if_pos h

theorem spdmAnswer_caps (hm : m = (s.mbxReq f).drop 8) (h : m.getD 1 0 = 0xE1) (hv : m.headD 0 = 0x12 ∨ m.headD 0 = 0x13) :
    s.spdmAnswer f = ({ s.drawn with
      sec := { s.sec with conns := tset 0 s.sec.conns f (m.headD 0).toNat } }, spdmCaps (m.headD 0) s.fresh.1) := by
  subst hm
  unfold State.spdmAnswer
  exact (if_neg (by rw [h]; decide)).trans (if_pos ⟨h, hv⟩)

theorem spdmAnswer_other (hm : m = (s.mbxReq f).drop 8) (hn : n = tget 0 s.sec.conns f) (h : m.getD 1 0 ≠ 0x84)
    (hv : m.getD 1 0 ≠ 0xE1 ∨ m.headD 0 ≠ 0x12 ∧ m.headD 0 ≠ 0x13) :
    s.spdmAnswer f = (s.drawn, if n ≠ 0 ∧ n ≠ (m.headD 0).toNat then Config.spdmError (s.free + 1) (s.mbxReq f) 0x41
      else Config.spdmReply (s.free + 1) (s.mbxReq f) (s.measures none)) := by
  subst hm hn
  unfold State.spdmAnswer
  refine (if_neg h).trans ((if_neg ?_).trans rfl)
  rintro ⟨he, hv'⟩
  rcases hv with hv | ⟨h2, h3⟩
  · exact hv he
  · exact hv'.elim h2 h3

end
section
variable {L : List Part} {R : List RegName} {s t u : State} {f : FnIx} {i n : Nat} {x : Session}
variable (hup : s.secUp = true) (hretry : s.mbxRetry = false)
include hup hretry

theorem exec_spdmRequest (hbusy : s.bit F.MBX_STATUS.BUSY f = true) (hok : s.mbxOk f 0x01 0 [] = true) (hid : s.rd F.SEC_STATUS.ID = 1) :
    exec (.spdmRequest f) s = .next ((s.spdmAnswer f).1.mbxPost f none 0x01 0 rOK 0 (s.spdmAnswer f).2) := by
  have hhas : s.hasId = true := by simp [State.hasId, hid]
  show execSpdmRequest f s = _
  unfold execSpdmRequest
  rw [hbusy, hok, hretry, hup, hhas]
  rfl

theorem exec_securedMessage (hbusy : s.bit F.MBX_STATUS.BUSY f = true) (hok : s.mbxOk f 0x02 0 [] = true)
    (hfind : s.sec.sessions.find? (fun e => e.2.any (·.id == BitVec.ofNat 32 (leNat (((s.mbxReq f).drop 8).take 4)))) = some (i, some x))
    (hbar : s.sessBarred f x = false) :
    exec (.securedMessage f) s = .next ((s.setSession i (some { x with beat := s.now + beatTicks })).drawn.mbxPost f (some i) 0x02 0 rOK 0
      (Config.spdmReply s.free (s.mbxReq f) (s.measures (some x.tenant)))) := by
  have hfind' : s.sec.sessions.find? (fun e => e.2.any (·.id == s.mbxSession f)) = some (i, some x) := hfind
  show execSecuredMessage f s = _
  unfold execSecuredMessage
  rw [hbusy, hok, hretry, hup]
  extract_lets id
  rw [hfind']
  dsimp only
  rw [hbar]
  rfl

theorem exec_securedMessage_barred (hbusy : s.bit F.MBX_STATUS.BUSY f = true) (hok : s.mbxOk f 0x02 0 [] = true)
    (hfind : s.sec.sessions.find? (fun e => e.2.any (·.id == BitVec.ofNat 32 (leNat (((s.mbxReq f).drop 8).take 4)))) = some (i, some x))
    (hbar : s.sessBarred f x = true) : exec (.securedMessage f) s = .next (s.mbxPost f none 0x02 0 rDENIED 2 []) := by
  have hfind' : s.sec.sessions.find? (fun e => e.2.any (·.id == s.mbxSession f)) = some (i, some x) := hfind
  show execSecuredMessage f s = _
  unfold execSecuredMessage
  rw [hbusy, hok, hretry, hup]
  extract_lets id
  rw [hfind']
  dsimp only
  rw [hbar]
  rfl

/-- Session `i` forms: it is `x`, and its tenant's SEALED plots are OPEN. -/
def State.formed (s : State) (i : Nat) (x : Session) : State :=
  ((s.drawn.setSession i (some x)).audit 2 0 4 i 0 1).turnPlots x.tenant .sealed .openPlot

theorem exec_keyExchange {digest : BitVec 384} {v : Option Tenant} (hok : s.mbxOk f 0x01 0 [] = true) (hid : s.rd F.SEC_STATUS.ID = 1)
    (hfind : s.sec.tenants.find? (fun e => e.2.any (·.digest == digest)) = some (n, v))
    (hfree : leastBelow 64 (fun i => (s.session i).isNone) = some i) (hfew : s.sessionsOf n < 4) :
    exec (.keyExchange f digest true) s = .next ((s.formed i ⟨n, f, s.fresh.1.setWidth 32, s.fresh.1.extractLsb' 32 384,
      s.now + beatTicks⟩).drawn.mbxPost f none 0x01 0 rOK 0 (Config.spdmReply
        (s.formed i ⟨n, f, s.fresh.1.setWidth 32, s.fresh.1.extractLsb' 32 384, s.now + beatTicks⟩).drawn.free
        ((s.formed i ⟨n, f, s.fresh.1.setWidth 32, s.fresh.1.extractLsb' 32 384, s.now + beatTicks⟩).drawn.mbxReq f)
        ((s.formed i ⟨n, f, s.fresh.1.setWidth 32, s.fresh.1.extractLsb' 32 384, s.now + beatTicks⟩).drawn.measures none))) := by
  have hhas : s.hasId = true := by simp [State.hasId, hid]
  have hfew' : ¬ 4 ≤ s.sessionsOf n := Nat.not_le.2 hfew
  show execKeyExchange f digest true s = _
  unfold execKeyExchange
  rw [hok, hretry, hup]
  extract_lets err
  rw [hhas, hfind]
  dsimp only [Option.map_some]
  rw [hfree]
  dsimp only
  rw [if_neg hfew']
  rfl

end
section
variable {L : List Part} {R : List RegName} {s t u : State} {f : FnIx} {i n p : Nat} {x : Session}

theorem formed_frame (s : State) (i : Nat) (x : Session) :
    Frame [.sec, .auditQ, .freeCount, .plots, .plotDue] [] s (s.formed i x) :=
  (((drawn_frame s).mono.after (setSession_frame _ i _)).audit).after (openPlots_frame _ x.tenant)

theorem formed_shows (s : State) (i : Nat) (x : Session) : (s.formed i x).session i = some x ∧
    (∀ n, n ≠ i → (s.formed i x).session n = s.session n) ∧
    (∀ p, (s.plot p).owner = x.tenant → (s.plot p).state = .sealed → s.plotChanged p = false → ((s.formed i x).plot p).state = .openPlot) ∧
    s.queued (s.formed i x) 2 0 4 i 0 1 := by
  have hplots := openPlots_frame ((s.drawn.setSession i (some x)).audit 2 0 4 i 0 1) x.tenant
  have hsess : (s.formed i x).sec.sessions = ((s.drawn.setSession i (some x)).audit 2 0 4 i 0 1).sec.sessions := sessions_of_frame hplots
  obtain ⟨hsame, hother⟩ := sessions_set (s := s) (i := i) (t := s.formed i x) (some x) (hsess.trans rfl)
  refine ⟨hsame, hother, fun p howner hstate hnew => ?_, ?_⟩
  rotate_left
  · have hqueued : s.queued ((s.drawn.setSession i (some x)).audit 2 0 4 i 0 1) 2 0 4 i 0 1 := queued_audit rfl 2 0 4 i 0 1 0
    exact queued_grows hqueued (auditGrows_turnPlots _ _ _ _)
  exact state_turnPlots (s := (s.drawn.setSession i (some x)).audit 2 0 4 i 0 1) (n := x.tenant) (a := .sealed) (b := .openPlot)
    (p := p) (by decide) (by decide) howner hstate hnew

/-- What the message of a session that forms leaves. -/
theorem keyExchange_shows (s : State) (f i : Nat) (x : Session) (data : List Byte) :
    let u := (s.formed i x).drawn.mbxPost f none 0x01 0 rOK 0 data
    u.session i = some x ∧ (∀ n, n ≠ i → u.session n = s.session n) ∧ u.bit F.MBX_STATUS.DONE f = true ∧
      (∀ p, (s.plot p).owner = x.tenant → (s.plot p).state = .sealed → s.plotChanged p = false → (u.plot p).state = .openPlot) ∧
      s.queued u 2 0 4 i 0 1 ∧ s.keptBut u [.regs, .bytes, .sec, .auditQ, .out, .pmus, .freeCount, .plots, .plotDue] ∧
      s.onlyRegs u [(.MBX_STATUS, f % 2 ^ 14, 0)] := by
  have hformed := formed_frame s i x
  have hdrawn := drawn_frame (s.formed i x)
  have hpost := mbxPost_frame (s.formed i x).drawn f none 0x01 0 rOK 0 data
  have hboth : Frame [.regs, .bytes, .sec, .out, .pmus, .freeCount] [.MBX_STATUS] (s.formed i x)
      ((s.formed i x).drawn.mbxPost f none 0x01 0 rOK 0 data) := hdrawn.mono.after hpost
  have hkept : ((s.formed i x).drawn.mbxPost f none 0x01 0 rOK 0 data).sec.sessions = (s.formed i x).sec.sessions := by rw [mbxPost_sec]; rfl
  have hplots : ((s.formed i x).drawn.mbxPost f none 0x01 0 rOK 0 data).plots = (s.formed i x).plots := hpost.part .plots
  obtain ⟨hsame, hother, hopen, hqueued⟩ := formed_shows s i x
  refine ⟨(session_of_sessions hkept i).trans hsame, fun n hn => (session_of_sessions hkept n).trans (hother n hn),
    (status_mbxPost _ f none _ _ rOK 0 data).2.1, fun p howner hstate hnew => ?_, queued_grows hqueued (auditGrows_of_frame hboth),
    ((hformed.mono.after hdrawn).after hpost (L := [.regs, .bytes, .sec, .auditQ, .out, .pmus, .freeCount, .plots, .plotDue])
      (R := [.MBX_STATUS])).kept, onlyRegs_trans (onlyRegs_of_frame (onlyRegs_of_frame (onlyRegs_refl s _) hformed) hdrawn)
      (onlyRegs_mbxPost _ f none _ _ rOK 0 data)⟩
  rw [State.plot, hplots]
  exact hopen p howner hstate hnew

/-! ### Sessions end (R564, R565) -/

/-- What the end of a session leaves. -/
theorem ended_shows (o : Origin) (h : s.session i = some x) :
    (s.endSession o i).session i = none ∧ (∀ n, n ≠ i → (s.endSession o i).session n = s.session n) ∧
      s.queued (s.endSession o i) o.kind o.id 4 i 1 0 ∧ s.keptBut (s.endSession o i) [.sec, .auditQ, .plots, .posies, .plotDue] ∧
      ((s.endSession o i).sessionsOf x.tenant = 0 → ∀ p, (s.plot p).owner = x.tenant → (s.plot p).state = .openPlot →
        (s.plotChanged p = false → ((s.endSession o i).plot p).state = .sealed) ∧
        (s.plotChanged p = true → (p, PlotChange.turn .openPlot .sealed) ∈ (s.endSession o i).plotDue)) ∧
      ((s.endSession o i).sessionsOf x.tenant ≠ 0 → (s.endSession o i).plots = s.plots) := by
  have hend : s.endSession o i = if ((s.setSession i none).audit o.kind o.id 4 i 1 0).sessionsOf x.tenant = 0 then
      ((s.setSession i none).audit o.kind o.id 4 i 1 0).turnPlots x.tenant .openPlot .sealed
      else (s.setSession i none).audit o.kind o.id 4 i 1 0 := by
    unfold State.endSession
    rw [h]
    rfl
  have hended : Frame [.sec, .auditQ, .plots, .posies, .plotDue] [] s ((s.setSession i none).audit o.kind o.id 4 i 1 0) :=
    (setSession_frame s i none).mono.audit
  have hqueued : s.queued ((s.setSession i none).audit o.kind o.id 4 i 1 0) o.kind o.id 4 i 1 0 := queued_audit rfl _ _ _ _ _ _ _
  have hplots := turnPlots_frame ((s.setSession i none).audit o.kind o.id 4 i 1 0) x.tenant .openPlot .sealed
  rw [hend]
  split
  next hlast =>
    have hsess := sessions_of_frame hplots
    obtain ⟨hsame, hother⟩ := sessions_set (s := s) (i := i) none (hsess.trans rfl)
    refine ⟨hsame, hother, queued_grows hqueued (auditGrows_turnPlots _ _ _ _), (hended.after hplots).kept, fun _ p howner hstate => ⟨fun hnew => ?_,
      fun hchanged => ?_⟩, fun hmore => absurd ?_ hmore⟩
    · exact state_turnPlots (by decide) (by decide) howner hstate hnew
    · exact due_turnPlots (by decide) howner hstate hchanged
    · unfold State.sessionsOf at hlast ⊢
      rwa [hsess]
  next hmore =>
    obtain ⟨hsame, hother⟩ := sessions_set (s := s) (i := i) (t := (s.setSession i none).audit o.kind o.id 4 i 1 0) none rfl
    exact ⟨hsame, hother, hqueued, hended.kept, fun h0 => absurd h0 hmore, fun _ => rfl⟩

theorem exec_endSession {i : SessIx} (hup : s.secUp = true) (h : s.session i = some x) :
    exec (.endSession i) s = .next (s.endSession (Origin.sess x.tenant i) i) := by
  show execEndSession i s = _
  unfold execEndSession
  rw [onlyIf_pos (by rw [hup, h]; rfl), h]

theorem exec_sessionHeartbeatExpiry {i : SessIx} (hup : s.secUp = true) (h : s.session i = some x) (hdue : x.beat ≤ s.now) :
    exec (.sessionHeartbeatExpiry i) s = .next (s.endSession Origin.sec i) := by
  show execSessionHeartbeatExpiry i s = _
  unfold execSessionHeartbeatExpiry
  rw [onlyIf_pos (by rw [hup, h]; simpa using hdue)]

theorem exec_sessionHeartbeatExpiry_early {i : SessIx} (h : s.session i = some x) (hdue : s.now < x.beat) :
    exec (.sessionHeartbeatExpiry i) s = .next s := by
  show execSessionHeartbeatExpiry i s = _
  unfold execSessionHeartbeatExpiry
  rw [onlyIf_neg (by rw [h]; simpa using fun _ => hdue)]

/-! ### Commands in sessions (R564, R566, R602) -/

/-- A session's command has been heard. -/
def State.beaten (s : State) (i : Nat) (x : Session) : State := s.setSession i (some { x with beat := s.now + beatTicks })

/-- The answer travels in the session. -/
def State.tenantPost (s : State) (i f cmd r d : Nat) (data : List Byte) : State :=
  { s.drawn.mbxPost f (some i) 0x02 0 r d (Config.spdmReply s.drawn.free
      ([BitVec.ofNat 8 cmd, BitVec.ofNat 8 d, BitVec.ofNat 8 r] ++ data) []) with
    out := s.out ++ [.mailbox f (some i) r d data] }

/-- A command's run and its answer. -/
def State.tenantRun (s : State) (i f cmd : Nat) (x : Session) (run : State → Session → State × Nat × Nat × List Byte) : State :=
  (run (s.beaten i x) x).1.tenantPost i f cmd (run (s.beaten i x) x).2.1 (run (s.beaten i x) x).2.2.1 (run (s.beaten i x) x).2.2.2

variable {cmd r d f : Nat} {data : List Byte}

theorem keptBut_outOnly {L : List Part} (h : s.keptBut t L) (x : List Output) (m0 : Part.out ∈ L) : s.keptBut { t with out := x } L := by
  intro p hp
  have h := h p hp
  cases p
  case out => exact absurd m0 hp
  all_goals exact h

theorem tenantPost_frame (s : State) (i f cmd r d : Nat) (data : List Byte) :
    Frame [.regs, .bytes, .sec, .out, .pmus, .freeCount] [.MBX_STATUS] s (s.tenantPost i f cmd r d data) := by
  have hpost : Frame [.regs, .bytes, .sec, .out, .pmus, .freeCount] [.MBX_STATUS] s _ := (drawn_frame s).mono.after (mbxPost_frame s.drawn f (some i) 0x02 0 r d
    (Config.spdmReply s.drawn.free ([BitVec.ofNat 8 cmd, BitVec.ofNat 8 d, BitVec.ofNat 8 r] ++ data) []))
  unfold State.tenantPost
  exact hpost.update (keptBut_outOnly (keptBut_refl _ _) _ (by decide)) rfl

theorem onlyRegs_tenantPost (s : State) (i f cmd r d : Nat) (data : List Byte) :
    s.onlyRegs (s.tenantPost i f cmd r d data) [(.MBX_STATUS, f % 2 ^ 14, 0)] :=
  onlyRegs_mbxPost s.drawn f (some i) 0x02 0 r d _

theorem answered_tenantPost (h : t.out = s.out) (i f cmd r d : Nat) (data : List Byte) :
    s.answered (t.tenantPost i f cmd r d data) f (some i) r d data :=
  ⟨congrArg (· ++ _) h, status_mbxPost t.drawn f (some i) 0x02 0 r d _⟩

theorem tenantPost_sec (s : State) (i f cmd r d : Nat) (data : List Byte) :
    (s.tenantPost i f cmd r d data).sec = { s.sec with mbxQ := s.sec.mbxQ.filter (· != f) } := rfl

theorem tenantPost_reaudited (s : State) (i f cmd r d : Nat) (data : List Byte) :
    s.reaudited (s.unaudited.tenantPost i f cmd r d data) = s.tenantPost i f cmd r d data := by
  have hpost := mbxPost_reaudited s.drawn f (some i) 0x02 0 r d
    (Config.spdmReply s.drawn.free ([BitVec.ofNat 8 cmd, BitVec.ofNat 8 d, BitVec.ofNat 8 r] ++ data) [])
  exact congrArg (fun v : State => { v with out := s.out ++ [Output.mailbox f (some i) r d data] }) hpost

theorem serveT_eq (h : s.session i = some x) (hf : f = s.sessFn x) (hok : s.mbxOk f 0x02 cmd [] = true) (hretry : s.mbxRetry = false)
    (hup : s.secUp = true) (hbar : s.sessBarred f x = false) (run : State → Session → State × Nat × Nat × List Byte) :
    s.serveT i cmd run = s.served fun s => s.tenantRun i f cmd x run := by
  subst hf
  unfold State.serveT
  rw [h]
  dsimp only
  rw [hok, hretry, hup, hbar]
  rfl

/-- A command in a session whose answer changes nothing is answered at once. -/
theorem serveT_answers (h : s.session i = some x) (hf : f = s.sessFn x) (hok : s.mbxOk f 0x02 cmd [] = true) (hretry : s.mbxRetry = false)
    (hup : s.secUp = true) (hbar : s.sessBarred f x = false) {run : State → Session → State × Nat × Nat × List Byte}
    (hrun : run (s.beaten i x) x = (s.beaten i x, r, d, data)) (hsame : run (s.unaudited.beaten i x) x = (s.unaudited.beaten i x, r, d, data)) :
    s.serveT i cmd run = (s.beaten i x).tenantPost i f cmd r d data := by
  have hanswer : s.tenantRun i f cmd x run = (s.beaten i x).tenantPost i f cmd r d data := by rw [State.tenantRun, hrun]
  have hquiet : s.unaudited.tenantRun i f cmd x run = (s.unaudited.beaten i x).tenantPost i f cmd r d data := by rw [State.tenantRun, hsame]
  rw [serveT_eq h hf hok hretry hup hbar, served_quiet, hanswer]
  · rw [hquiet, tenantPost_sec]
    rfl
  · rw [hanswer, hquiet]
    exact tenantPost_reaudited (s.beaten i x) i f cmd r d data

theorem beaten_frame (s : State) (i : Nat) (x : Session) : Frame [.sec] [] s (s.beaten i x) := setSession_frame s i _

/-- What a session's answer without an effect leaves. -/
theorem beaten_answered (s : State) (i f cmd r d : Nat) (x : Session) (data : List Byte) :
    let u := (s.beaten i x).tenantPost i f cmd r d data
    s.answered u f (some i) r d data ∧ s.keptBut u [.regs, .bytes, .sec, .out, .pmus, .freeCount] ∧ s.onlyRegs u [(.MBX_STATUS, f % 2 ^ 14, 0)] := by
  have hbeat := beaten_frame s i x
  exact ⟨answered_tenantPost (hbeat.part .out) i f cmd r d data, (hbeat.mono.after (tenantPost_frame _ i f cmd r d data)
    (L := [.regs, .bytes, .sec, .out, .pmus, .freeCount]) (R := [.MBX_STATUS])).kept,
    onlyRegs_trans (onlyRegs_of_frame (onlyRegs_refl s _) hbeat) (onlyRegs_tenantPost _ i f cmd r d data)⟩

/-- What an accepted binding of a port leaves. -/
theorem bindAccept_answered {target : Fin 256} (htarget : target.val < 24) (s : State) (i f : Nat) (x : Session) (o : Origin) :
    let u := ((s.beaten i x).setBind o target ⟨true, x.tenant, false, 0⟩).tenantPost i f 0x20 rOK 0 []
    s.answered u f (some i) rOK 0 [] ∧ u.bind target = ⟨true, x.tenant, false, 0⟩ ∧
      u.bit F.PORT_BIND.BOUND target = true ∧ u.rd F.PORT_BIND.TENANT target = x.tenant % 2 ^ F.PORT_BIND.TENANT.len ∧
      (∀ n, n ≠ target.val → u.bind n = s.bind n) ∧ s.keptBut u [.regs, .bytes, .sec, .auditQ, .out, .pmus, .freeCount, .latokDue] := by
  have hbeat := beaten_frame s i x
  have hbind := setBind_frame (s.beaten i x) o target ⟨true, x.tenant, false, 0⟩
  have hpost := tenantPost_frame ((s.beaten i x).setBind o target ⟨true, x.tenant, false, 0⟩) i f 0x20 rOK 0 []
  obtain ⟨hbound, howner⟩ := port_setBind (s.beaten i x) o ⟨true, x.tenant, false, 0⟩ htarget
  have hkept (v : State) (n : Nat) : (v.tenantPost i f 0x20 rOK 0 []).bind n = v.bind n := by rw [State.bind, tenantPost_sec]; rfl
  have hall := (hbeat.mono.after hbind (L := [.regs, .sec, .auditQ, .latokDue]) (R := [.PORT_BIND]))
  exact ⟨answered_tenantPost (hall.part .out) i f 0x20 rOK 0 [], (hkept _ _).trans (bind_setBind_same _ o target _),
    (hpost.bit target 0).trans hbound, (hpost.rd (f := F.PORT_BIND.TENANT) target 0).trans howner,
    fun n hn => (hkept _ n).trans (bind_setBind_other o _ hn),
    (hall.mono.after hpost (L := [.regs, .bytes, .sec, .auditQ, .out, .pmus, .freeCount, .latokDue]) (R := [.MBX_STATUS, .PORT_BIND])).kept⟩

section
variable {i : SessIx} (h : s.session i = some x) (hretry : s.mbxRetry = false) (hup : s.secUp = true) (hf : f = s.sessFn x)
variable (hbar : s.sessBarred f x = false)
include h hretry hup hf hbar

theorem exec_bindAccept {target : Fin 256} (htarget : target.val < 24) (hroom : s.auditFull = false) (hok : s.mbxOk f 0x02 0x20 [] = true)
    (hoffer : s.bind target = ⟨false, 0, true, x.tenant⟩) :
    exec (.bindAccept i target) s = .next (((s.beaten i x).setBind (Origin.sess x.tenant i) target ⟨true, x.tenant, false, 0⟩).tenantPost i f
      0x20 rOK 0 []) := by
  have hoffer' : (s.beaten i x).bind target = ⟨false, 0, true, x.tenant⟩ := hoffer
  show execBindAccept i target s = _
  unfold execBindAccept
  rw [serveT_eq h hf hok hretry hup hbar, served_room hroom]
  unfold State.tenantRun State.bindTo
  simp only [hoffer', bindable, htarget, decide_true, Bool.true_or, Bool.not_true, Bool.false_eq_true, if_false, if_true, Bool.or_self,
    bne_self_eq_false]

theorem exec_slotQuery (hok : s.mbxOk f 0x02 0x26 [] = true) :
    exec (.slotQuery i) s = .next ((s.beaten i x).tenantPost i f 0x26 rOK 0 ((s.slotsOf x.tenant).flatMap fun n =>
      slotBytes n ++ [BitVec.ofNat 8 (s.slot n).state.code] ++ slotBytes (s.plots.filter fun e => e.2.keyslot == n && e.2.state != .free).length)) := by
  show execSlotQuery i s = _
  unfold execSlotQuery
  rw [serveT_answers h hf hok hretry hup hbar rfl rfl]
  rfl

theorem exec_counters {set : Fin 16} {a b : Byte} {data : List Byte} (hok : s.mbxOk f 0x02 0x27 [] = true)
    (hset : s.counterSet x.tenant set a.toNat b.toNat = .ok data) :
    exec (.counters i set a b) s = .next ((s.beaten i x).tenantPost i f 0x27 rOK 0 (leBytes s.clk.now 8 ++ data)) := by
  have hbeaten : (s.beaten i x).counterSet x.tenant set a.toNat b.toNat = .ok data := hset
  have hquiet : (s.unaudited.beaten i x).counterSet x.tenant set a.toNat b.toNat = .ok data := hset
  show execCounters i set a b s = _
  unfold execCounters
  rw [serveT_answers h hf hok hretry hup hbar (r := rOK) (d := 0) (data := leBytes s.clk.now 8 ++ data)]
  · rw [hbeaten]
    rfl
  · rw [hquiet]
    rfl

theorem exec_counters_denied {set : Fin 16} {a b : Byte} (hok : s.mbxOk f 0x02 0x27 [] = true)
    (hset : s.counterSet x.tenant set a.toNat b.toNat = .error 2) :
    exec (.counters i set a b) s = .next ((s.beaten i x).tenantPost i f 0x27 rDENIED 2 []) := by
  have hbeaten : (s.beaten i x).counterSet x.tenant set a.toNat b.toNat = .error 2 := hset
  have hquiet : (s.unaudited.beaten i x).counterSet x.tenant set a.toNat b.toNat = .error 2 := hset
  show execCounters i set a b s = _
  unfold execCounters
  rw [serveT_answers h hf hok hretry hup hbar (r := rDENIED) (d := 2) (data := [])]
  · rw [hbeaten]
    rfl
  · rw [hquiet]
    rfl

end

/-- What an SPDM answer leaves. -/
theorem spdm_answered (s : State) (f : FnIx) : s.answered ((s.spdmAnswer f).1.mbxPost f none 0x01 0 rOK 0 (s.spdmAnswer f).2) f none rOK 0
      (s.spdmAnswer f).2 ∧ s.keptBut ((s.spdmAnswer f).1.mbxPost f none 0x01 0 rOK 0 (s.spdmAnswer f).2) [.regs, .bytes, .sec, .out, .pmus, .freeCount] ∧
    s.onlyRegs ((s.spdmAnswer f).1.mbxPost f none 0x01 0 rOK 0 (s.spdmAnswer f).2) [(.MBX_STATUS, f, 0)] := by
  have hanswer := spdmAnswer_frame s f
  have honly := onlyRegs_mbxPost (s.spdmAnswer f).1 f none 0x01 0 rOK 0 (s.spdmAnswer f).2
  rw [Nat.mod_eq_of_lt (f.isLt.trans (by decide))] at honly
  exact ⟨answered_mbxPost (hanswer.part .out) f none _ _ rOK 0 _, (hanswer.mono.after (mbxPost_frame _ f none _ _ rOK 0 _)
    (L := [.regs, .bytes, .sec, .out, .pmus, .freeCount]) (R := [.MBX_STATUS])).kept,
    onlyRegs_trans (onlyRegs_of_frame (onlyRegs_refl s _) hanswer) honly⟩

/-- What a secured message leaves. -/
theorem secured_shows (s : State) (f i : Nat) (x : Session) (data : List Byte) :
    let u := (s.setSession i (some x)).drawn.mbxPost f (some i) 0x02 0 rOK 0 data
    s.answered u f (some i) rOK 0 data ∧ u.session i = some x ∧ (∀ n, n ≠ i → u.session n = s.session n) ∧
      s.keptBut u [.regs, .bytes, .sec, .out, .pmus, .freeCount] := by
  have hset : Frame [.sec, .freeCount] [] s (s.setSession i (some x)).drawn := (setSession_frame s i _).mono.after (drawn_frame _)
  have hsess : ((s.setSession i (some x)).drawn.mbxPost f (some i) 0x02 0 rOK 0 data).sec.sessions = (s.setSession i (some x)).sec.sessions := by
    rw [mbxPost_sec]
    rfl
  obtain ⟨hsame, hother⟩ := sessions_set _ hsess
  exact ⟨answered_mbxPost (hset.part .out) f (some i) _ _ rOK 0 data, hsame, hother, (hset.mono.after (mbxPost_frame _ f (some i) _ _ rOK 0 data)
    (L := [.regs, .bytes, .sec, .out, .pmus, .freeCount]) (R := [.MBX_STATUS])).kept⟩

end

/-- Settles O15: each command is served at once; the tenant's plots open with a session and are sealed with the last one's end. -/
theorem sessions : Obligations.Sessions := by
  unfold Obligations.Sessions
  intro s hup
  refine ⟨fun f hretry hbusy hok hid m n hm hn => ⟨_, exec_spdmRequest hup hretry hbusy hok hid, ?_⟩,
    fun f i x hretry hbusy hok hfind => ⟨fun howner => ?_, fun hf howner => ?_⟩,
    fun f digest t i v hretry hok hid hfind hfree hfew => ?_, fun i x h => ⟨⟨_, exec_endSession hup h, ended_shows (Origin.sess x.tenant i) h⟩,
      fun hdue => ?_, fun hdue => ⟨_, exec_sessionHeartbeatExpiry_early h hdue, keptBut_refl s _⟩⟩,
    fun i x f h hretry hf hbar => ⟨fun target htarget hroom hok hoffer => ⟨_, exec_bindAccept h hretry hup hf hbar htarget hroom hok hoffer,
      bindAccept_answered htarget s i f x _⟩, fun hok => ⟨_, exec_slotQuery h hretry hup hf hbar hok, beaten_answered s i f _ rOK 0 x _⟩,
      fun set a b d hok hset => ⟨_, exec_counters h hretry hup hf hbar hok hset, beaten_answered s i f _ rOK 0 x _⟩,
      fun set a b hok hset => ⟨_, exec_counters_denied h hretry hup hf hbar hok hset, (beaten_answered s i f _ rDENIED 2 x []).1⟩⟩⟩
  · obtain ⟨hanswer, hkept, honly⟩ := spdm_answered s f
    refine ⟨fun hv => ?_, fun he hv => ?_, fun hv he => ?_, hkept, honly⟩
    · rw [spdmAnswer_versions hm hv] at hanswer ⊢
      exact ⟨hanswer, tget_tset_same _ _ _ _⟩
    · rw [spdmAnswer_caps hm he hv] at hanswer ⊢
      exact ⟨hanswer, tget_tset_same _ _ _ _⟩
    · rw [spdmAnswer_other hm hn hv he] at hanswer ⊢
      exact ⟨rfl, rfl, hanswer⟩
  · have hbar : s.sessBarred f x = false := by
      unfold State.sessBarred
      rcases howner with hf | htenant
      · rw [hf]; rfl
      · rw [htenant, bne_self_eq_false, Bool.and_false]
    exact ⟨_, exec_securedMessage hup hretry hbusy hok hfind hbar, secured_shows s f i _ _⟩
  · have hbar : s.sessBarred f x = true := by simp [State.sessBarred, hf, howner]
    have hpost := mbxPost_frame s f none 0x02 0 rDENIED 2 []
    exact ⟨_, exec_securedMessage_barred hup hretry hbusy hok hfind hbar, answered_mbxPost rfl f none _ _ rDENIED 2 [], by rw [mbxPost_sec],
      hpost.kept⟩
  · have hshows := keyExchange_shows s f i ⟨t, f, s.fresh.1.setWidth 32, s.fresh.1.extractLsb' 32 384, s.now + beatTicks⟩
    rw [Nat.mod_eq_of_lt (f.isLt.trans (by decide))] at hshows
    obtain ⟨hsame, hother, hrest⟩ := hshows _
    exact ⟨_, _, exec_keyExchange hup hretry hok hid hfind hfree hfew, hsame, rfl, rfl, rfl, hother, hrest⟩
  · obtain ⟨hsame, hother, hqueued, hkept, -⟩ := ended_shows Origin.sec h
    exact ⟨_, exec_sessionHeartbeatExpiry hup h hdue, hsame, hother, hqueued, hkept⟩

end Sys2Proof.Machine
end

section
/-! Sweeps, draining contexts and rings: what they leave changed (R352, R419, R543, R671, R674). -/

set_option Elab.async false

namespace Sys2Proof.Machine
section
variable {L : List Part} {R : List RegName} {s t u : State} {j c a i : Nat}

/-! ### Arrays tested (R321, R470, R670) -/

theorem setRole_frame (s : State) (j a r : Nat) : Frame [.regs] [.LNT_ARRAY] s (s.setRole j a r) := (Frame.refl _ _ s).wr

theorem standIn_frame (s : State) (j a : Nat) : Frame [.regs] [.LNT_ARRAY] s (s.standIn j a).1 := by
  unfold State.standIn
  split
  · exact Frame.refl _ _ s
  · exact ((Frame.refl _ _ s).after (setRole_frame s j _ 2)).wr

theorem choose_frame (s : State) (j a : Nat) : Frame [.lnts] [] s (s.choose j a) := by
  unfold State.choose
  exact Frame.ite (Frame.refl _ _ s).modLnt (Frame.refl _ _ s)

theorem startTest_frame (s : State) (j : Nat) (x : ATest) : Frame [.regs, .lnts] [.LNT_ARRAY] s (s.startTest j x) := by
  have hs := Frame.refl [.regs, .lnts] [.LNT_ARRAY] s
  unfold State.startTest
  extract_lets r go
  have hgo (u : State) (sp : Option Nat) (hu : Frame [.regs, .lnts] [.LNT_ARRAY] s u) : Frame [.regs, .lnts] [.LNT_ARRAY] s (go u sp) :=
    (hu.after (setRole_frame u j _ 3)).modLnt
  refine Frame.ite hs (Frame.ite (hgo _ _ hs) (Frame.ite ?_ hs))
  split
  · refine hgo _ _ ?_
    split
    · exact hs.setCtx
    · exact hs
  · split
    next stood sp heq =>
    have hstood : stood = (s.standIn j x.arr).1 := (congrArg Prod.fst heq).symm
    exact hgo _ _ (hstood ▸ hs.after (standIn_frame s j x.arr))
  · exact hs

theorem addTest_frame (s : State) (j : Nat) (x : ATest) : Frame [.regs, .lnts] [.LNT_ARRAY] s (s.addTest j x) :=
  (((Frame.refl _ _ s).after (choose_frame s j x.arr)).modLnt).foldl fun u y => startTest_frame u j y

theorem sweepGo_frame (s : State) (j : Nat) (q : List Nat) : Frame [.regs, .lnts] [.LNT_ARRAY] s (s.sweepGo j q) := by
  induction q generalizing s with
  | nil => exact Frame.refl _ _ s
  | cons a q ih =>
    have hs := Frame.refl [.regs, .lnts] [.LNT_ARRAY] s
    unfold State.sweepGo
    split
    · exact hs
    · extract_lets active d queued
      have hqueued : Frame [.regs, .lnts] [.LNT_ARRAY] s queued := hs.modLnt
      exact Frame.ite (hqueued.trans (ih queued)) (Frame.ite hs ((hqueued.trans (addTest_frame queued j _)).trans (ih _)))

theorem sweepStep_frame (s : State) (j : Nat) : Frame [.regs, .lnts] [.LNT_ARRAY] s (s.sweepStep j) := by
  unfold State.sweepStep
  split
  · exact Frame.refl _ _ s
  · exact sweepGo_frame s j _

/-- The registers that sweeps write. -/
def sweepRegs : List RegName := [.LNT_ARRAY, .RAS_MGSTAT, .RAS_MGCTL]

theorem startSweep_frame (s : State) (js : List Nat) (rounds : Nat) (rep : Option Nat) :
    Frame [.regs, .lnts] sweepRegs s (s.startSweep js rounds rep) := by
  have hs := Frame.refl [.regs, .lnts] sweepRegs s
  unfold State.startSweep
  extract_lets js
  refine Frame.ite hs (hs.wr.foldl fun u j => ?_)
  have hu := Frame.refl [.regs, .lnts] sweepRegs u
  extract_lets sp set mapped added
  have hadded : Frame [.regs, .lnts] sweepRegs u added := hu.modLnt.setMap.foldl fun v a => (addTest_frame v j _).mono
  exact hadded.after (sweepStep_frame added j)

theorem silentRec_frame (s : State) (cls sev j arr stand sub elem chunk result : Nat) (detecting journaled : Bool) (c : Option Nat)
    (unit : Option (Nat × Nat)) (follows : Bool) : Frame [.regs, .recs, .recTick, .recLast] [.RAS_RECHEAD, .RAS_RECLOST] s
      (s.silentRec cls sev j arr stand sub elem chunk result detecting journaled c unit follows) := by
  unfold State.silentRec
  exact record_frame _

/-! ### A step boundary (R671, R674) -/

/-- The parts and the registers that a step boundary can change beside RAS_MGSTEP. -/
def stepParts : List Part := [.regs, .lnts, .auditQ, .recs, .recTick, .recLast]
def stepRegs : List RegName := .RAS_MGSTEP_PREV :: .RAS_RECHEAD :: .RAS_RECLOST :: sweepRegs

theorem stepStamped_frame (s : State) : Frame stepParts (.RAS_MGSTEP :: stepRegs) s s.stepStamped := by
  unfold State.stepStamped
  exact (Frame.refl _ _ s).wr.wr.auditReg

/-- What a step boundary does beside its stamp. -/
theorem stepMark_eq (hpend : s.bit F.RAS_MGCTL.PENDING = false) : s.stepMark = if !s.stepStamped.bit F.RAS_SECFG.STEP_EN then s.stepStamped
    else if s.stepStamped.bit F.RAS_MGCTL.BUSY then s.stepStamped.wr F.RAS_MGCTL.PENDING 1 else s.stepStamped.stepSweep := by
  unfold State.stepMark
  rw [if_neg (by simp [hpend])]
  rfl

/-- What follows a step boundary's stamp. -/
theorem stepMark_stamped (hpend : s.bit F.RAS_MGCTL.PENDING = false) : Frame stepParts stepRegs s.stepStamped s.stepMark := by
  have hs := Frame.refl stepParts stepRegs s.stepStamped
  rw [stepMark_eq hpend]
  exact Frame.ite hs (Frame.ite hs.wr (hs.after (startSweep_frame _ _ _ _)))

theorem stepMark_frame (s : State) : Frame stepParts (.RAS_MGSTEP :: stepRegs) s s.stepMark := by
  have hs := Frame.refl stepParts (.RAS_MGSTEP :: stepRegs) s
  by_cases hpend : s.bit F.RAS_MGCTL.PENDING = true
  · rw [stepMark_pending hpend]
    exact hs.incRc.after (silentRec_frame _ _ _ _ _ _ _ _ _ _ _ _ _ _ _)
  · exact (stepStamped_frame s).after (stepMark_stamped (Bool.eq_false_iff.2 hpend))

/-- A register of one whole field reads as its field. -/
theorem reg_stamped (s : State) : s.stepStamped.reg .RAS_MGSTEP = s.clk.now := by
  have hread : s.stepStamped.rd F.RAS_MGSTEP.STAMP = s.now := by
    have hnow : s.now < 2 ^ F.RAS_MGSTEP.STAMP.len := s.clk.now.isLt
    rw [State.stepStamped, rd_of_regs (auditReg_regs _ _ _ _), rd_wr_same (by decide), Nat.mod_eq_of_lt hnow]
  have hwhole : s.stepStamped.rd F.RAS_MGSTEP.STAMP = (s.stepStamped.reg .RAS_MGSTEP).toNat := by
    have hlt := (s.stepStamped.reg .RAS_MGSTEP).isLt
    simp only [State.rd, F.RAS_MGSTEP.STAMP]
    omega
  exact BitVec.eq_of_toNat_eq (hwhole.symm.trans hread)

theorem reg_stepMark (hpend : s.bit F.RAS_MGCTL.PENDING = false) : s.stepMark.reg .RAS_MGSTEP = s.clk.now :=
  ((stepMark_stamped hpend).regs _ (by decide) 0 0).trans (reg_stamped s)

/-! ### Draining (R352, R419) -/

theorem replayOver_frame (s : State) (j a : Nat) : Frame [.regs] [.LNT_ARRAY] s (s.replayOver j a) :=
  Frame.onlyIf (setRole_frame s j a 1) (Frame.refl _ _ s)

theorem releaseHeld_frame (s : State) (j : Nat) (es : List Nat) : Frame [.posies] [] s (s.releaseHeld j es) :=
  (Frame.refl _ _ s).update (releaseHeld_kept s j es) rfl

theorem drainCtx_frame (s : State) (j c : Nat) (fin : JobFin) : Frame [.regs, .lnts, .posies] [.LNT_ARRAY] s (s.drainCtx j c fin) := by
  unfold State.drainCtx
  extract_lets x fin replayed mine
  have hreplayed : Frame [.regs, .lnts, .posies] [.LNT_ARRAY] s replayed :=
    ((Frame.refl _ _ s).after (releaseHeld_frame s j _)).foldl fun u a => (replayOver_frame u j a).mono
  exact hreplayed.modLnt

theorem failInstr_frame (s : State) (j c : Nat) (e : Exc) : Frame [.regs, .lnts, .posies] [.LNT_ARRAY] s (s.failInstr j c e) :=
  drainCtx_frame s j c _

theorem abortJobs_frame (s : State) (p : Job → Bool) : Frame [.lnts] [] s (s.abortJobs p) := by
  refine (Frame.refl _ _ s).foldl fun u q => ?_
  have hu := Frame.refl [.lnts] [] u
  extract_lets x
  split
  · exact Frame.ite hu.setCtx hu
  · exact hu

/-! ### Rings (R543, R596) -/

theorem setRing_frame (s : State) (o : Origin) (i v : Nat) : Frame [.regs, .auditQ] [.RING_STATE] s (s.setRing o i v) := by
  unfold State.setRing
  exact Frame.onlyIf (Frame.refl _ _ s).wr.audit (Frame.refl _ _ s)

theorem ringSt_setRing_same (s : State) (o : Origin) (i : Nat) {v : Nat} (hv : v < 8) : (s.setRing o i v).ringSt i = v := by
  have hwritten : (s.wr F.RING_STATE.STATE v i).rd F.RING_STATE.STATE i = v := (rd_wr_same (by decide) v).trans (Nat.mod_eq_of_lt hv)
  unfold State.setRing State.ringSt onlyIf
  split
  · exact hwritten
  · next h => simpa using h

theorem onlyRegs_setRing (s : State) (o : Origin) (i v : Nat) : s.onlyRegs (s.setRing o i v) [(.RING_STATE, i % 2 ^ 14, 0)] :=
  onlyRegs_onlyIf _ (onlyRegs_regs (onlyRegs_wr (onlyRegs_refl s _) F.RING_STATE.STATE v i 0 List.mem_cons_self) rfl) (onlyRegs_refl s _)

theorem resetRing_frame (s : State) (o : Origin) (i : Nat) : Frame [.regs, .auditQ, .lnts, .rings] [.RING_STATE] s (s.resetRing o i) := by
  unfold State.resetRing
  extract_lets stopped aborted
  have hstopped : Frame [.regs, .auditQ, .lnts, .rings] [.RING_STATE] s stopped :=
    ((Frame.refl _ _ s).after (setRing_frame s o i 4)).wr.incWrap
  have haborted : Frame [.regs, .auditQ, .lnts, .rings] [.RING_STATE] s aborted := hstopped.after (abortJobs_frame stopped _)
  clear_value aborted
  exact haborted.update (keptBut_rings (keptBut_refl aborted _) _ (by decide)) rfl

end
end Sys2Proof.Machine
end

section
/-! The control of rings and functions (R537 to R547, R553). -/

set_option Elab.async false

namespace Sys2Proof.Machine
section
variable {L : List Part} {R : List RegName} {s t u : State} {f i j r n v : Nat} {o : Origin}

/-! ### Registers cleared -/

theorem reg_clearReg_reset (s : State) (r : RegName) (i j : Nat) : (s.clearReg r i j).reg r i j = r.reset i j := by
  rw [State.reg_eq, clearReg_regs, regIn_tdel_same]

/-- A register at its reset value stays there while registers are cleared. -/
theorem reset_clearReg {q : RegName} {a b : Nat} (h : s.reg q a b = q.reset a b) (r : RegName) (i j : Nat) :
    (s.clearReg r i j).reg q a b = q.reset a b := by
  by_cases hk : regKey q a b = regKey r i j
  · show tget _ (tdel s.regs _) _ = _
    rw [hk, tget_tdel_same]
  · exact (tget_tdel_other _ _ hk).trans h

theorem onlyRegs_cleared {l : List (RegName × Nat × Nat)} (h : s.onlyRegs t l) (r : RegName) (i j : Nat)
    (m : (r, i % 2 ^ 14, j % 2 ^ 14) ∈ l) : s.onlyRegs (t.clearReg r i j) l := by
  rw [State.onlyRegs_eq] at h ⊢
  exact onlyIn_tdel h r i j m

/-! ### Rings that reset (R543) -/

theorem ringSt_of_onlyRegs {l : List (RegName × Nat × Nat)} (h : s.onlyRegs t l) (hm : (RegName.RING_STATE, n % 2 ^ 14, 0) ∉ l) :
    t.ringSt n = s.ringSt n := by
  have hreg : t.reg F.RING_STATE.STATE.reg n 0 = s.reg F.RING_STATE.STATE.reg n 0 := h _ n 0 hm
  unfold State.ringSt State.rd
  rw [hreg]

/-- The registers of a ring that resets. -/
def State.ringStopped (s : State) (o : Origin) (i : Nat) : State :=
  ((s.setRing o i 4).wr F.RING_STATE.HALT 0 i).incWrap F.RING_STATE.EPOCH i

/-- What a ring that resets drops. -/
def State.ringEmptied (s : State) (r : Nat) : State :=
  s.modRings fun x => { x with entries := x.entries.filter (·.ring != r), held := x.held.filter (·.ring != r) }

theorem resetRing_eq (s : State) (o : Origin) (r : Nat) :
    s.resetRing o r = ((s.ringStopped o r).abortJobs fun b => b.ring == r).ringEmptied r := by
  unfold State.resetRing State.ringStopped State.ringEmptied State.modRings
  rfl

/-- The ring is RESETTING, and its epoch one further. -/
theorem resetRing_shows (s : State) (o : Origin) (i : Nat) : (s.resetRing o i).ringSt i = ringResetting ∧
    (s.resetRing o i).rd F.RING_STATE.EPOCH i = (s.rd F.RING_STATE.EPOCH i + 1) % 2 ^ F.RING_STATE.EPOCH.len ∧
    (∀ e ∈ (s.resetRing o i).rings.entries, e.ring ≠ i) ∧ s.onlyRegs (s.resetRing o i) [(.RING_STATE, i % 2 ^ 14, 0)] := by
  have habort : ((s.ringStopped o i).abortJobs fun b => b.ring == i).regs = (s.ringStopped o i).regs :=
    regs_of_kept (abortJobs_frame _ _).kept (by decide)
  have hempty (v : State) : (v.ringEmptied i).regs = v.regs := rfl
  have hregs : (s.resetRing o i).regs = (s.ringStopped o i).regs := by rw [resetRing_eq, hempty, habort]
  have hset : (s.setRing o i 4).rd F.RING_STATE.EPOCH i = s.rd F.RING_STATE.EPOCH i := by
    unfold State.setRing onlyIf
    split
    · exact rd_wr_apart (f := F.RING_STATE.STATE) (by decide) (by decide) 4
    · rfl
  refine ⟨?_, ?_, fun e he => ?_, onlyRegs_regs (onlyRegs_wr (onlyRegs_wr (onlyRegs_setRing s o i 4) F.RING_STATE.HALT 0 i 0 List.mem_cons_self)
    F.RING_STATE.EPOCH _ i 0 List.mem_cons_self) hregs⟩
  · rw [State.ringSt, rd_of_regs hregs, State.ringStopped, State.incWrap, rd_wr_apart (by decide) (by decide), rd_wr_apart (by decide) (by decide)]
    exact ringSt_setRing_same s o i (by decide)
  · rw [rd_of_regs hregs, State.ringStopped, State.incWrap, rd_wr_same (by decide), rd_wr_apart (by decide) (by decide), hset]
  · have hentries (v : State) : (v.ringEmptied i).rings.entries = v.rings.entries.filter (·.ring != i) := rfl
    rw [resetRing_eq, hentries] at he
    simpa using (List.mem_filter.1 he).2

theorem ringSt_resetRing_other (s : State) (o : Origin) (hi : i < 2 ^ 14) (hn : n < 2 ^ 14) (h : n ≠ i) : (s.resetRing o i).ringSt n = s.ringSt n :=
  ringSt_of_onlyRegs (resetRing_shows s o i).2.2.2 (by rw [Nat.mod_eq_of_lt hi, Nat.mod_eq_of_lt hn]; simp [h])

/-- A ring that is RESETTING stays so while rings are reset. -/
theorem resetting_resetRing (h : s.ringSt n = ringResetting) (o : Origin) (hi : i < 2 ^ 14) (hn : n < 2 ^ 14) :
    (s.resetRing o i).ringSt n = ringResetting := by
  by_cases hni : n = i
  · rw [hni]
    exact (resetRing_shows s o i).1
  · rw [ringSt_resetRing_other s o hi hn hni, h]

theorem resetRings_frame (s : State) (o : Origin) (f : Nat) : Frame [.regs, .auditQ, .lnts, .rings] [.RING_STATE] s (s.resetRings o f) :=
  (Frame.refl _ _ s).foldl fun u _ => resetRing_frame u o _

theorem resetting_resetRings (h : s.ringSt n = ringResetting) (o : Origin) (hf : f < 128) (hn : n < 2 ^ 14) :
    (s.resetRings o f).ringSt n = ringResetting :=
  foldl_inv (fun u => u.ringSt n = ringResetting) _ _ (fun u _ hi hu => resetting_resetRing hu o (by have := List.mem_range.1 hi; omega) hn) s h

theorem ringSt_resetRings (s : State) (o : Origin) (hf : f < 128) (hr : r < 64) : (s.resetRings o f).ringSt (64 * f + r) = ringResetting := by
  obtain ⟨l, l', hl⟩ := List.append_of_mem (List.mem_range.2 hr)
  have hlt : ∀ x ∈ l', 64 * f + x < 2 ^ 14 := fun x hx => by
    have := List.mem_range.1 (hl ▸ List.mem_append_right _ (List.mem_cons_of_mem _ hx))
    omega
  unfold State.resetRings
  rw [hl, List.foldl_append, List.foldl_cons]
  exact foldl_inv (fun u => u.ringSt (64 * f + r) = ringResetting) _ _ (fun u x hx hu => resetting_resetRing hu o (hlt x hx) (by omega)) _
    (resetRing_shows _ o (64 * f + r)).1

/-! ### Function Level Reset (R545 to R547) -/

/-- The registers of a function's page and of its mailbox. -/
def pageRegs : List RegName := [.FN_SQDB, .FN_CQDB, .FN_RINGCTL, .FN_MSIX_ADDR, .FN_MSIX_DATA, .FN_MSIX_CTL, .FN_STATUS, .FN_DRVVER, .FN_HWIN_BASE,
  .FN_HWIN_SIZE, .FN_MEMERR, .FN_CFG, .FN_MSIX_PBA, .MBX_CTL, .MBX_STATUS]

/-- The registers of a function's page are cleared. -/
def State.pageCleared (s : State) (f : Nat) : State :=
  ([RegName.FN_STATUS, RegName.FN_DRVVER, RegName.FN_HWIN_BASE, RegName.FN_HWIN_SIZE, RegName.FN_MEMERR,
    RegName.FN_CFG, RegName.FN_MSIX_PBA] ++ (if f = 0 then [] else [RegName.MBX_CTL, RegName.MBX_STATUS])).foldl (fun s n => s.clearReg n f)
    ((List.range 64).foldl (fun s r => [RegName.FN_SQDB, RegName.FN_CQDB, RegName.FN_RINGCTL, RegName.FN_MSIX_ADDR, RegName.FN_MSIX_DATA,
      RegName.FN_MSIX_CTL].foldl (fun s n => s.clearReg n f r) s) s)

/-- The mailbox of a VF, which lies in its page, is forgotten. -/
def State.mbxForgotten (s : State) (f : Nat) : State :=
  { s with
    bytes := s.bytes.filter fun e => !(decide (mbxKey f 0 ≤ e.1) && decide (e.1 < mbxKey (f + 1) 0))
    sec := { s.sec with mbxQ := s.sec.mbxQ.filter (· != f) } }

theorem resetPage_eq (s : State) (f : Nat) :
    s.resetPage f = if f = 0 then s.pageCleared f else (s.pageCleared f).mbxForgotten f := rfl

theorem mbxForgotten_frame (s : State) (f : Nat) : Frame [.bytes, .sec] [] s (s.mbxForgotten f) :=
  (Frame.refl _ _ s).update (keptBut_bytes_sec (keptBut_refl s _) _ _ rfl (by decide) (by decide)) rfl

theorem Frame.clearRegs {xs : List RegName} {b : Nat} (h : Frame L R s t) (hR : ∀ q ∈ xs, q ∈ R) (hL : Part.regs ∈ L := by decide) :
    Frame L R s (xs.foldl (fun s n => s.clearReg n f b) t) :=
  foldl_inv (fun u => Frame L R s u) xs _ (fun _ _ hx hu => hu.clearReg (hR _ hx) hL) t h

theorem pageCleared_frame (s : State) (f : Nat) : Frame [.regs] pageRegs s (s.pageCleared f) := by
  unfold State.pageCleared
  refine Frame.clearRegs ((Frame.refl _ _ s).foldl fun u r => Frame.clearRegs (Frame.refl _ _ u) (by decide)) fun q hq => ?_
  rcases List.mem_append.1 hq with hq | hq
  · exact (by decide : ∀ q ∈ [RegName.FN_STATUS, RegName.FN_DRVVER, RegName.FN_HWIN_BASE, RegName.FN_HWIN_SIZE, RegName.FN_MEMERR,
      RegName.FN_CFG, RegName.FN_MSIX_PBA], q ∈ pageRegs) q hq
  · split at hq
    · exact absurd hq List.not_mem_nil
    · exact (by decide : ∀ q ∈ [RegName.MBX_CTL, RegName.MBX_STATUS], q ∈ pageRegs) q hq

theorem resetPage_frame (s : State) (f : Nat) : Frame [.regs, .bytes, .sec] pageRegs s (s.resetPage f) := by
  have hcleared : Frame [.regs, .bytes, .sec] pageRegs s (s.pageCleared f) := (pageCleared_frame s f).mono
  rw [resetPage_eq]
  exact Frame.ite hcleared (hcleared.after (mbxForgotten_frame _ f))

/-- A function's status is at its reset value. -/
def State.unversed (s : State) (f : Nat) : Prop := s.reg .FN_STATUS f 0 = RegName.FN_STATUS.reset f 0

theorem ver_unversed (h : s.unversed f) : s.rd F.FN_STATUS.VER f = 0 := by
  have hreset : RegName.FN_STATUS.reset f 0 = 0 := rfl
  unfold State.rd
  rw [show F.FN_STATUS.VER.reg = .FN_STATUS from rfl, h, hreset]
  rfl

theorem unversed_clearRegs {xs : List RegName} {g b : Nat} (h : s.unversed f) : (xs.foldl (fun s n => s.clearReg n g b) s).unversed f :=
  foldl_inv (fun u => u.unversed f) xs _ (fun _ x _ hu => reset_clearReg hu x g b) s h

theorem unversed_stays {g : Nat} (h : s.unversed f) : (s.pageCleared g).unversed f :=
  unversed_clearRegs (foldl_inv (fun u => u.unversed f) _ _ (fun _ _ _ hu => unversed_clearRegs hu) s h)

theorem unversed_pageCleared (s : State) (f : Nat) : (s.pageCleared f).unversed f := by
  unfold State.pageCleared
  rw [List.cons_append, List.foldl_cons]
  exact unversed_clearRegs (reg_clearReg_reset _ _ f 0)

theorem unversed_of_frame (h : Frame L R s t) (hR : RegName.FN_STATUS ∉ R := by decide) : t.unversed f ↔ s.unversed f := by
  unfold State.unversed
  rw [h.regs _ hR]

/-- What a Function Level Reset discards of the Lanterns' host reads. -/
def State.flrReads (s : State) (f : Nat) : State :=
  (List.range 12).foldl (fun s j =>
    s.modLnt j fun l => { l with
      hreqs := l.hreqs.filter fun r => !(s.ctx j r.ctx).job.any (·.fn == f), hqueue := l.hqueue.filter fun r => !(s.ctx j r.ctx).job.any (·.fn == f)
      hgens := stale l.hgens (l.hreqs.filter fun r => (s.ctx j r.ctx).job.any (·.fn == f)) }) s

/-- What it discards of the messages and the host's requests. -/
def State.flrMsgs (s : State) (f : Nat) : State :=
  s.modRings fun x => { x with msgs := x.msgs.filter (·.1 != f), host := x.host.filter (·.fn != f) }

theorem flr_eq (s : State) (f : Nat) : s.flr f = (((s.resetRings Origin.hw f).resetPage f).flrMsgs f).flrReads f := rfl

theorem flrMsgs_frame (s : State) (f : Nat) : Frame [.rings] [] s (s.flrMsgs f) := (Frame.refl _ _ s).modRings

theorem flrReads_frame (s : State) (f : Nat) : Frame [.lnts] [] s (s.flrReads f) := (Frame.refl _ _ s).foldl fun u j => (Frame.refl _ _ u).modLnt

/-- The parts that a Function Level Reset can change. -/
def flrParts : List Part := [.regs, .auditQ, .lnts, .rings, .bytes, .sec]

theorem flr_frame (s : State) (f : Nat) : Frame flrParts (.RING_STATE :: pageRegs) s (s.flr f) := by
  rw [flr_eq]
  have hrings : Frame flrParts (.RING_STATE :: pageRegs) s (s.resetRings Origin.hw f) := (resetRings_frame s _ f).mono
  have hpage : Frame flrParts (.RING_STATE :: pageRegs) s ((s.resetRings Origin.hw f).resetPage f) := hrings.after (resetPage_frame _ f)
  exact (hpage.after (flrMsgs_frame _ f)).after (flrReads_frame _ f)

/-- A function has been reset: its status is, and its rings are RESETTING. -/
def State.functionReset (s : State) (f : Nat) : Prop := s.unversed f ∧ ∀ r, r < 64 → s.ringSt (64 * f + r) = ringResetting

/-- The rings and the status after a Function Level Reset. -/
theorem flr_rest (s : State) (f : Nat) : Frame flrParts [] ((s.resetRings Origin.hw f).resetPage f) (s.flr f) := by
  rw [flr_eq]
  have hmsgs : Frame flrParts [] ((s.resetRings Origin.hw f).resetPage f) (((s.resetRings Origin.hw f).resetPage f).flrMsgs f) :=
    (flrMsgs_frame _ f).mono
  exact hmsgs.after (flrReads_frame _ f)

theorem unversed_resetPage {g : Nat} (h : s.unversed f) : (s.resetPage g).unversed f := by
  rw [resetPage_eq]
  split
  · exact unversed_stays h
  · exact (unversed_of_frame (mbxForgotten_frame _ g)).2 (unversed_stays h)

theorem functionReset_flr (s : State) (hf : f < 128) : (s.flr f).functionReset f := by
  have hpage := resetPage_frame (s.resetRings Origin.hw f) f
  refine ⟨(unversed_of_frame (flr_rest s f)).2 ?_, fun r hr => ?_⟩
  · rw [resetPage_eq]
    split
    · exact unversed_pageCleared _ f
    · exact (unversed_of_frame (mbxForgotten_frame _ f)).2 (unversed_pageCleared _ f)
  · exact ((flr_rest s f).rd (f := F.RING_STATE.STATE) _ 0).trans ((hpage.rd (f := F.RING_STATE.STATE) _ 0).trans (ringSt_resetRings s _ hf hr))

theorem functionReset_stays {g : Nat} (h : s.functionReset f) (hf : f < 128) (hg : g < 128) : (s.flr g).functionReset f := by
  obtain ⟨hver, hrings⟩ := h
  have hpage := resetPage_frame (s.resetRings Origin.hw g) g
  refine ⟨(unversed_of_frame (flr_rest s g)).2 (unversed_resetPage ((unversed_of_frame (resetRings_frame s _ g)).2 hver)), fun r hr => ?_⟩
  exact ((flr_rest s g).rd (f := F.RING_STATE.STATE) _ 0).trans
    ((hpage.rd (f := F.RING_STATE.STATE) _ 0).trans (resetting_resetRings (hrings r hr) _ hg (by omega)))

/-- Every VF has been reset. -/
def State.vfsReset (s : State) : State := (List.range 127).foldl (fun s i => s.flr (i + 1)) s

theorem vfsReset_frame (s : State) : Frame flrParts (.RING_STATE :: pageRegs) s s.vfsReset := (Frame.refl _ _ s).foldl fun u _ => flr_frame u _

theorem functionReset_vfsReset (s : State) (hf : 0 < f) (hf' : f < 128) : s.vfsReset.functionReset f := by
  have hmem : f - 1 ∈ List.range 127 := List.mem_range.2 (by omega)
  obtain ⟨l, l', hl⟩ := List.append_of_mem hmem
  have hlt : ∀ x ∈ l', x + 1 < 128 := fun x hx => by
    have := List.mem_range.1 (hl ▸ List.mem_append_right _ (List.mem_cons_of_mem _ hx))
    omega
  unfold State.vfsReset
  rw [hl, List.foldl_append, List.foldl_cons]
  refine foldl_inv (fun u => u.functionReset f) _ _ (fun u x hx hu => functionReset_stays hu hf' (hlt x hx)) _ ?_
  have hf1 : f - 1 + 1 = f := by omega
  rw [hf1]
  exact functionReset_flr _ hf'

/-! ### Rings that resume (R523, R541) -/

/-- The parts and registers of a completion record's write. -/
def recordParts : List Part := [.regs, .freeCount, .flights, .nextId, .pmus, .rings]
def recordRegs : List RegName := [.RING_PTRS, .RING_JOBS, .RING_LAST]

theorem lineNow_frame (s : State) (pa : Nat) : Frame [.freeCount] [] s (s.lineNow pa).2 := by
  have hs := Frame.refl [.freeCount] [] s
  unfold State.lineNow
  split
  · exact hs
  · extract_lets l lost
    split
    · split
      · exact drawn_frame s
      · exact hs
    · split
      · exact hs
      · exact drawn_frame s

theorem blockReq_frame (s : State) (op pa job : Nat) (beats : List LineData) : Frame [.flights, .nextId] [] s (s.blockReq op pa job beats) := by
  unfold State.blockReq
  exact Frame.of_kept (keptBut_addFlight (keptBut_refl s _) _ (by decide) (by decide))

theorem writeRecord_frame (s : State) (x : Rec) : Frame recordParts recordRegs s (s.writeRecord x) := by
  unfold State.writeRecord
  extract_lets c f d pa
  split
  next old read heq =>
  have hread : Frame recordParts recordRegs s read := by
    rw [show read = (s.lineNow pa).2 from (congrArg Prod.snd heq).symm]
    exact (lineNow_frame s pa).mono
  extract_lets line id now asked counted done vec
  have hasked : Frame recordParts recordRegs s asked := (hread.after (blockReq_frame read _ _ _ _)).incWrap
  have hcounted : Frame recordParts recordRegs s counted := hasked.wr
  have hdone : Frame recordParts recordRegs s done := hcounted.wr.evt
  exact Frame.onlyIf hdone.modRings hdone

/-- The ring RUNS, and its held records leave. -/
def State.ringRuns (s : State) (i : Nat) : State :=
  ((s.setRing (Origin.fn (i / 64)) i ringRunning).wr F.RING_STATE.HALT 0 i).modRings fun x => { x with held := x.held.filter (·.ring != i) }

theorem resumeRing_eq (s : State) (i : Nat) : s.resumeRing i =
    ((s.rings.held.filter (·.ring == i)).foldl State.writeRecord (s.ringRuns i)).releaseJobs (·.ring == i) := rfl

theorem ringRuns_frame (s : State) (i : Nat) : Frame [.regs, .auditQ, .rings] [.RING_STATE] s (s.ringRuns i) := by
  have hset : Frame [.regs, .auditQ, .rings] [.RING_STATE] s (s.setRing (Origin.fn (i / 64)) i ringRunning) := (setRing_frame s _ i _).mono
  exact hset.wr.modRings

/-- The parts that a resumption can change beside its ring's state. -/
def resumeParts : List Part := recordParts ++ askParts
def resumeRegs : List RegName := recordRegs ++ acceptRegs

/-- What follows when a ring RUNS again. -/
theorem resumeRing_rest (s : State) (i : Nat) : Frame resumeParts resumeRegs (s.ringRuns i) (s.resumeRing i) := by
  rw [resumeRing_eq]
  exact ((Frame.refl resumeParts resumeRegs (s.ringRuns i)).foldl fun u x => (writeRecord_frame u x).mono).after (releaseJobs_frame _ _)

theorem resumeRing_frame (s : State) (i : Nat) : Frame (.auditQ :: resumeParts) (.RING_STATE :: resumeRegs) s (s.resumeRing i) :=
  (ringRuns_frame s i).mono.after (resumeRing_rest s i)

theorem ringRuns_shows (s : State) (i : Nat) : (s.ringRuns i).ringSt i = ringRunning ∧ (s.ringRuns i).bit F.RING_STATE.HALT i = false := by
  have hring (v : State) : ((v.wr F.RING_STATE.HALT 0 i).modRings fun x => { x with held := x.held.filter (·.ring != i) }).regs =
      (v.wr F.RING_STATE.HALT 0 i).regs := rfl
  have hregs : (s.ringRuns i).regs = ((s.setRing (Origin.fn (i / 64)) i ringRunning).wr F.RING_STATE.HALT 0 i).regs := by
    rw [State.ringRuns, hring]
  refine ⟨?_, (bit_of_regs hregs _ _ _).trans (bit_wr_same (by decide) rfl 0)⟩
  rw [State.ringSt, rd_of_regs hregs, rd_wr_apart (by decide) (by decide)]
  exact ringSt_setRing_same s _ i (by decide)

theorem resumeRing_shows (s : State) (i : Nat) : (s.resumeRing i).ringSt i = ringRunning ∧ (s.resumeRing i).bit F.RING_STATE.HALT i = false ∧
    (s.resumeRing i).mem = s.mem ∧ (s.resumeRing i).plots = s.plots := by
  obtain ⟨hring, hhalt⟩ := ringRuns_shows s i
  have hrest := resumeRing_rest s i
  have hall := resumeRing_frame s i
  exact ⟨(hrest.rd (f := F.RING_STATE.STATE) i 0).trans hring, (hrest.bit i 0).trans hhalt, hall.part .mem, hall.part .plots⟩

/-! ### The handshake and the heartbeat (R536 to R541) -/

/-- A function's VER after its driver has shown version `v`. -/
def State.verOf (s : State) (v : W32) : Nat :=
  if bitsOf v 15 8 = s.rd F.GLOBAL_IFVER.MAJOR ∧ bitsOf v 7 0 ≤ s.rd F.GLOBAL_IFVER.MINOR then 1 else 2

/-- A VF's driver shows its version. -/
def State.vfGreeted (s : State) (f : Nat) (v : W32) : State :=
  ((s.setReg .FN_DRVVER f 0 (BitVec.ofNat 64 (v.toNat % 65536))).auditFn f 0x1004 (s.reg .FN_DRVVER f).toNat (v.toNat % 65536)).wr
    F.FN_STATUS.VER (s.verOf v) f

/-- PF0's driver shows its version. -/
def State.pf0Shown (s : State) (v : W32) : State :=
  onlyIf ((s.reg .GLOBAL_DRVVER).toNat != v.toNat % 65536) ((s.setReg .GLOBAL_DRVVER 0 0 (BitVec.ofNat 64 (v.toNat % 65536))).audit 1 0 0 0x38
    (s.reg .GLOBAL_DRVVER).toNat (v.toNat % 65536)) s

/-- The block is READY once PF0's driver is accepted. -/
def State.pf0Ready (s : State) : State := ((onlyIf s.inHold (s.wr F.GLOBAL_STATE.STATE 2) s).setAttn 0x9 false).modRings fun x =>
  { x with beat := s.now + 1, resumes := [] }

/-- A step boundary that waited for READY is marked. -/
def State.stepResumes (s : State) : State := onlyIf s.fw.stepWaits ({ s with fw := { s.fw with stepWaits := false } } : State).stepMark s

/-- The rings whose RESUME waited for the handshake resume. -/
def State.ringsResume (s : State) (xs : List Nat) : State := xs.foldl (fun s i => onlyIf (s.mayResume i) (s.resumeRing i) s) s

/-- PF0's handshake is accepted. -/
def State.pf0Greeted (s : State) (v : W32) : State :=
  ((s.pf0Shown v).wr F.FN_STATUS.VER 1).pf0Ready.stepResumes.ringsResume (s.pf0Shown v).rings.resumes

theorem exec_handshake_vf {f : FnIx} {v : W32} (hf : 0 < f.val) (hroom : s.auditFull = false) :
    exec (.handshake f v) s = .next (s.vfGreeted f v) := by
  have hne : f.val ≠ 0 := Nat.ne_of_gt hf
  show execHandshake f v s = _
  unfold execHandshake
  rw [orWait_open hroom]
  extract_lets major minor ok new old drv shown again greeted
  have hshown : shown = (s.setReg .FN_DRVVER f 0 (BitVec.ofNat 64 new)).auditFn f 0x1004 drv new := if_neg hne
  have hver : (if ok = true then 1 else 2) = s.verOf v := by simp [ok, major, minor, State.verOf]
  have hgreeted : greeted = s.vfGreeted f v := by
    unfold greeted State.vfGreeted
    rw [hver, hshown]
  rw [if_neg (fun h => hne h.1), hgreeted]

theorem exec_handshake_pf0 {v : W32} (hroom : s.auditFull = false) (hmajor : bitsOf v 15 8 = s.rd F.GLOBAL_IFVER.MAJOR)
    (hminor : bitsOf v 7 0 ≤ s.rd F.GLOBAL_IFVER.MINOR) :
    exec (.handshake 0 v) s = .next (s.pf0Greeted v) := by
  show execHandshake 0 v s = _
  unfold execHandshake
  rw [orWait_open hroom]
  extract_lets major minor ok new old drv shown again greeted
  have hok : ok = true := by simp [ok, major, minor, hmajor, hminor]
  have hgreeted : greeted = (s.pf0Shown v).wr F.FN_STATUS.VER 1 := by
    unfold greeted
    rw [if_pos hok]
    rfl
  rw [if_pos ⟨rfl, hok⟩]
  show Host.Outcome.next (greeted.pf0Ready.stepResumes.ringsResume again) = _
  rw [hgreeted]
  rfl

theorem verOf_lt (s : State) (v : W32) : s.verOf v % 2 ^ F.FN_STATUS.VER.len = s.verOf v := by
  unfold State.verOf
  split <;> rfl

theorem version_toNat (v : W32) : (BitVec.ofNat 64 (v.toNat % 65536)).toNat = v.toNat % 65536 :=
  (BitVec.toNat_ofNat _ _).trans (Nat.mod_eq_of_lt ((Nat.mod_lt _ (by decide)).trans (by decide)))

theorem vfGreeted_shows (s : State) (f : FnIx) (v : W32) : ((s.vfGreeted f v).reg .FN_DRVVER f).toNat = v.toNat % 65536 ∧
    (s.vfGreeted f v).rd F.FN_STATUS.VER f = s.verOf v ∧ s.regsOnly (s.vfGreeted f v) [(.FN_DRVVER, f, 0), (.FN_STATUS, f, 0)] := by
  have hf : f.val % 2 ^ 14 = f := Nat.mod_eq_of_lt (f.isLt.trans (by decide))
  have hset : Frame [.regs, .auditQ] [.FN_DRVVER, .FN_STATUS] s (s.setReg .FN_DRVVER f 0 (BitVec.ofNat 64 (v.toNat % 65536))) :=
    (Frame.refl _ _ s).setReg
  have haudit : ∀ u : State, ∀ old, (u.auditFn f 0x1004 old (v.toNat % 65536)).regs = u.regs := fun u old => by
    unfold State.auditFn onlyIf
    split <;> rfl
  have hframe : Frame [.regs, .auditQ] [.FN_DRVVER, .FN_STATUS] s (s.vfGreeted f v) := by
    unfold State.vfGreeted State.auditFn
    exact (Frame.onlyIf hset.audit hset).wr
  refine ⟨?_, ?_, hframe.kept, ?_⟩
  · unfold State.vfGreeted
    rw [reg_wr_other (by decide), reg_of_regs (haudit _ _), reg_setReg_same, version_toNat]
  · unfold State.vfGreeted
    rw [rd_wr_same (by decide), verOf_lt]
  · have honly : s.onlyRegs (s.setReg .FN_DRVVER f 0 (BitVec.ofNat 64 (v.toNat % 65536))) [(.FN_DRVVER, f, 0), (.FN_STATUS, f, 0)] :=
      onlyRegs_setReg (onlyRegs_refl s _) _ _ _ _ (by rw [hf]; exact List.mem_cons_self)
    exact onlyRegs_wr (onlyRegs_regs honly (haudit _ _)) F.FN_STATUS.VER _ f 0 (by
      rw [hf]
      exact List.mem_cons_of_mem _ List.mem_cons_self)

theorem pf0Shown_frame (s : State) (v : W32) : Frame [.regs, .auditQ] [.GLOBAL_DRVVER] s (s.pf0Shown v) := by
  unfold State.pf0Shown
  exact Frame.onlyIf (Frame.refl _ _ s).setReg.audit (Frame.refl _ _ s)

theorem drvver_pf0Shown (s : State) (v : W32) : ((s.pf0Shown v).reg .GLOBAL_DRVVER).toNat = v.toNat % 65536 := by
  have hset (u : State) (a b : Nat) : (u.audit 1 0 0 0x38 a b).reg .GLOBAL_DRVVER = u.reg .GLOBAL_DRVVER := rfl
  unfold State.pf0Shown onlyIf
  split
  · rw [hset, reg_setReg_same, version_toNat]
  · next h => simpa using h

theorem pf0Ready_frame (s : State) : Frame [.regs, .rings] [.GLOBAL_STATE, .GLOBAL_ATTN_PENDING] s s.pf0Ready := by
  have hs := Frame.refl [.regs, .rings] [.GLOBAL_STATE, .GLOBAL_ATTN_PENDING] s
  have hready : Frame [.regs, .rings] [.GLOBAL_STATE, .GLOBAL_ATTN_PENDING] s (onlyIf s.inHold (s.wr F.GLOBAL_STATE.STATE 2) s) := Frame.onlyIf hs.wr hs
  exact hready.setAttn.modRings

theorem attn_setAttn (s : State) (b : Bool) : (s.setAttn 0x9 b).attn 0x9 = b :=
  (nbit_rd_setMap (f := F.GLOBAL_ATTN_PENDING.ACTIVE) (by decide) (by decide) b).trans (if_pos rfl)

theorem attn_of_frame (h : Frame L R s t) (hR : RegName.GLOBAL_ATTN_PENDING ∉ R := by decide) : t.attn 0x9 = s.attn 0x9 := by
  show nbit _ 9 = nbit _ 9
  rw [h.rd (f := F.GLOBAL_ATTN_PENDING.ACTIVE) 0 0 hR]

theorem pf0Ready_shows (s : State) : (s.inHold = true → s.pf0Ready.inReady = true) ∧ s.pf0Ready.attn 0x9 = false := by
  have hkeep (u : State) (g : Rings → Rings) : (u.modRings g).inReady = u.inReady ∧ (u.modRings g).attn 0x9 = u.attn 0x9 := ⟨rfl, rfl⟩
  unfold State.pf0Ready
  rw [(hkeep _ _).1, (hkeep _ _).2]
  refine ⟨fun hhold => ?_, attn_setAttn _ false⟩
  unfold State.inReady State.setAttn
  rw [rd_setMap_other (by decide), onlyIf_pos hhold, rd_wr_same (by decide)]
  rfl

theorem stepResumes_frame (s : State) : Frame (.fw :: stepParts) (.RAS_MGSTEP :: stepRegs) s s.stepResumes := by
  have hs := Frame.refl (.fw :: stepParts) (.RAS_MGSTEP :: stepRegs) s
  have hcleared : Frame (.fw :: stepParts) (.RAS_MGSTEP :: stepRegs) s ({ s with fw := { s.fw with stepWaits := false } } : State) :=
    hs.update (keptBut_fw (keptBut_refl s _) _ (by decide)) rfl
  exact Frame.onlyIf (hcleared.after (stepMark_frame _)) hs

theorem stepResumes_shows (h : s.fw.stepWaits = true) : s.stepResumes.fw.stepWaits = false ∧
    (s.bit F.RAS_MGCTL.PENDING = false → s.stepResumes.reg .RAS_MGSTEP = s.clk.now) := by
  have hmark := stepMark_frame ({ s with fw := { s.fw with stepWaits := false } } : State)
  have hfw : (({ s with fw := { s.fw with stepWaits := false } } : State).stepMark).fw = { s.fw with stepWaits := false } := hmark.part .fw
  unfold State.stepResumes
  rw [onlyIf_pos h, hfw]
  exact ⟨rfl, fun hpend => reg_stepMark (s := { s with fw := { s.fw with stepWaits := false } }) hpend⟩

theorem ringsResume_frame (s : State) (xs : List Nat) : Frame (.auditQ :: resumeParts) (.RING_STATE :: resumeRegs) s (s.ringsResume xs) :=
  (Frame.refl _ _ s).foldl fun u i => Frame.onlyIf (resumeRing_frame u i) (Frame.refl _ _ u)

/-- What PF0's accepted handshake leaves. -/
theorem pf0Greeted_shows (s : State) (v : W32) : let t := s.pf0Greeted v
    (t.reg .GLOBAL_DRVVER).toNat = v.toNat % 65536 ∧ t.rd F.FN_STATUS.VER 0 = 1 ∧ (s.inHold = true → t.inReady = true) ∧ t.attn 0x9 = false ∧
      (s.fw.stepWaits = true → t.fw.stepWaits = false ∧ (s.bit F.RAS_MGCTL.PENDING = false → t.reg .RAS_MGSTEP = s.clk.now)) := by
  have hshown : Frame [.regs, .auditQ] [.GLOBAL_DRVVER, .FN_STATUS] s ((s.pf0Shown v).wr F.FN_STATUS.VER 1) := (pf0Shown_frame s v).mono.wr
  have hready := pf0Ready_frame ((s.pf0Shown v).wr F.FN_STATUS.VER 1)
  have hsteps := stepResumes_frame ((s.pf0Shown v).wr F.FN_STATUS.VER 1).pf0Ready
  have hrings := ringsResume_frame ((s.pf0Shown v).wr F.FN_STATUS.VER 1).pf0Ready.stepResumes (s.pf0Shown v).rings.resumes
  obtain ⟨hstate, hattn⟩ := pf0Ready_shows ((s.pf0Shown v).wr F.FN_STATUS.VER 1)
  refine ⟨?_, ?_, fun hhold => ?_, ?_, fun hwaits => ?_⟩
  · rw [State.pf0Greeted, hrings.regs _ (by decide), hsteps.regs _ (by decide), hready.regs _ (by decide), reg_wr_other (by decide), drvver_pf0Shown]
  · rw [State.pf0Greeted, hrings.rd (f := F.FN_STATUS.VER) 0 0, hsteps.rd (f := F.FN_STATUS.VER) 0 0, hready.rd (f := F.FN_STATUS.VER) 0 0, rd_wr_same (by decide)]
    rfl
  · have hholds : ((s.pf0Shown v).wr F.FN_STATUS.VER 1).inHold = true := by
      unfold State.inHold at hhold ⊢
      rwa [hshown.rd (f := F.GLOBAL_STATE.STATE) 0 0]
    have hall := hstate hholds
    unfold State.inReady at hall ⊢
    rwa [State.pf0Greeted, hrings.rd (f := F.GLOBAL_STATE.STATE) 0 0, hsteps.rd (f := F.GLOBAL_STATE.STATE) 0 0]
  · rw [State.pf0Greeted, attn_of_frame hrings, attn_of_frame hsteps, hattn]
  · have hfw : ((s.pf0Shown v).wr F.FN_STATUS.VER 1).pf0Ready.fw = s.fw := (hready.part .fw).trans (hshown.part .fw)
    have hclk : ((s.pf0Shown v).wr F.FN_STATUS.VER 1).pf0Ready.clk = s.clk := (hready.part .clk).trans (hshown.part .clk)
    obtain ⟨hdone, hstamp⟩ := stepResumes_shows (s := ((s.pf0Shown v).wr F.FN_STATUS.VER 1).pf0Ready) (by rw [hfw, hwaits])
    have hlast := hrings.part .fw
    refine ⟨(congrArg Fw.stepWaits hlast).trans hdone, fun hpend => ?_⟩
    rw [State.pf0Greeted, hrings.regs _ (by decide), hstamp, hclk]
    rw [hready.bit (f := F.RAS_MGCTL.PENDING) 0 0, hshown.bit (f := F.RAS_MGCTL.PENDING) 0 0, hpend]

/-- Where nothing waits for the handshake, it changes no more than what it shows. -/
theorem pf0Greeted_frame (v : W32) (hstep : s.fw.stepWaits = false) (hnone : s.rings.resumes = []) :
    let t := s.pf0Greeted v
    s.keptBut t [.regs, .rings, .auditQ] ∧
      s.onlyRegs t [(.GLOBAL_DRVVER, 0, 0), (.FN_STATUS, 0, 0), (.GLOBAL_STATE, 0, 0), (.GLOBAL_ATTN_PENDING, 0, 0)] := by
  have hshown : Frame [.regs, .auditQ] [.GLOBAL_DRVVER, .FN_STATUS] s ((s.pf0Shown v).wr F.FN_STATUS.VER 1) := (pf0Shown_frame s v).mono.wr
  have hready := pf0Ready_frame ((s.pf0Shown v).wr F.FN_STATUS.VER 1)
  have hfw : ((s.pf0Shown v).wr F.FN_STATUS.VER 1).pf0Ready.fw = s.fw := (hready.part .fw).trans (hshown.part .fw)
  have hidle : ((s.pf0Shown v).wr F.FN_STATUS.VER 1).pf0Ready.stepResumes = ((s.pf0Shown v).wr F.FN_STATUS.VER 1).pf0Ready :=
    onlyIf_neg (by rw [hfw, hstep]) _ _
  have hrings : (s.pf0Shown v).rings.resumes = [] := (congrArg Rings.resumes ((pf0Shown_frame s v).part .rings)).trans hnone
  have honly : s.onlyRegs (s.pf0Shown v) [(.GLOBAL_DRVVER, 0, 0), (.FN_STATUS, 0, 0), (.GLOBAL_STATE, 0, 0), (.GLOBAL_ATTN_PENDING, 0, 0)] :=
    onlyRegs_onlyIf _ (onlyRegs_regs (onlyRegs_setReg (onlyRegs_refl s _) .GLOBAL_DRVVER 0 0 _ (by decide)) rfl) (onlyRegs_refl s _)
  have hver := onlyRegs_wr honly F.FN_STATUS.VER 1 0 0 (by decide)
  have hstate := onlyRegs_onlyIf ((s.pf0Shown v).wr F.FN_STATUS.VER 1).inHold (onlyRegs_wr hver F.GLOBAL_STATE.STATE 2 0 0 (by decide)) hver
  unfold State.pf0Greeted
  rw [hidle, hrings]
  exact ⟨((hshown.mono (L' := [.regs, .rings, .auditQ]) (R' := [.GLOBAL_DRVVER, .FN_STATUS, .GLOBAL_STATE, .GLOBAL_ATTN_PENDING])).after hready).kept,
    onlyRegs_regs (onlyRegs_setMap hstate F.GLOBAL_ATTN_PENDING.ACTIVE 9 false 0 0 (by decide)) rfl⟩

/-- A heartbeat of a new value. -/
def State.beats (s : State) (v : W32) : State :=
  ((s.wr F.GLOBAL_HBEAT.COUNT v.toNat).audit 1 0 0 0x3C (s.rd F.GLOBAL_HBEAT.COUNT) v.toNat).modRings fun x =>
    { x with beat := if x.beat = 0 then 0 else s.now + 1 }

theorem exec_heartbeat {v : W32} (hroom : s.auditFull = false) (hnew : s.rd F.GLOBAL_HBEAT.COUNT ≠ v.toNat) :
    exec (.heartbeat v) s = .next (s.beats v) := by
  show execHeartbeat v s = _
  unfold execHeartbeat
  rw [orWait_open hroom]
  exact if_neg (by simpa using hnew)

theorem beats_shows (s : State) (v : W32) : (s.beats v).rd F.GLOBAL_HBEAT.COUNT = v.toNat ∧
    (s.rings.beat ≠ 0 → (s.beats v).rings.beat = s.now + 1) ∧ s.keptBut (s.beats v) [.regs, .rings, .auditQ] ∧
    s.onlyRegs (s.beats v) [(.GLOBAL_HBEAT, 0, 0)] := by
  have hframe : Frame [.regs, .rings, .auditQ] [.GLOBAL_HBEAT] s (s.beats v) := (Frame.refl _ _ s).wr.audit.modRings
  have hcount : (s.wr F.GLOBAL_HBEAT.COUNT v.toNat).rd F.GLOBAL_HBEAT.COUNT = v.toNat := (rd_wr_same (by decide) _).trans (Nat.mod_eq_of_lt v.isLt)
  exact ⟨hcount, fun hbeat => if_neg hbeat, hframe.kept,
    onlyRegs_regs (onlyRegs_wr (onlyRegs_refl s _) F.GLOBAL_HBEAT.COUNT v.toNat 0 0 (by decide)) rfl⟩

/-- PF0's rings are PAUSED (R540). -/
def State.pf0Paused (s : State) : State := (List.range 64).foldl (fun s i => onlyIf (s.ringSt i == ringRunning || s.ringSt i == ringHalted)
  (s.setRing (Origin.core 2) i ringPaused) s) s

/-- PF0's driver is lost (R540). -/
def State.driverLost (s : State) : State := ((s.pf0Paused.holdJobs (·.fn == 0)).setAttn 0x9 true).modRings fun x => { x with beat := 0 }

theorem exec_hostDriverLost {ms : Nat} (hms : ms = s.rd0 F.RINGS_HOST.HB_MS) (hset : ms ≠ 0) (hup : s.schUp = true) (hbeat : s.rings.beat ≠ 0)
    (hpast : s.rings.beat - 1 + 1200000 * ms < s.now) : exec .hostDriverLost s = .next s.driverLost := by
  subst hms
  show execHostDriverLost s = _
  exact congrArg Host.Outcome.next (onlyIf_pos (by simp [hup, hbeat, hset, hpast]) _ _)

theorem paused_step {k : Nat} (h : s.ringSt n ≠ ringRunning) (hk : k < 2 ^ 14) (hn : n < 2 ^ 14) :
    (onlyIf (s.ringSt k == ringRunning || s.ringSt k == ringHalted) (s.setRing (Origin.core 2) k ringPaused) s).ringSt n ≠ ringRunning := by
  unfold onlyIf
  split
  · by_cases hkn : n = k
    · rw [hkn, ringSt_setRing_same s _ k (by decide)]
      decide
    · rw [ringSt_of_onlyRegs (onlyRegs_setRing s _ k _) (by rw [Nat.mod_eq_of_lt hk, Nat.mod_eq_of_lt hn]; simp [hkn])]
      exact h
  · exact h

theorem ringSt_pf0Paused (s : State) (hi : i < 64) : s.pf0Paused.ringSt i ≠ ringRunning := by
  obtain ⟨l, l', hl⟩ := List.append_of_mem (List.mem_range.2 hi)
  have hlt : ∀ x ∈ l', x < 2 ^ 14 := fun x hx => by
    have := List.mem_range.1 (hl ▸ List.mem_append_right _ (List.mem_cons_of_mem _ hx))
    omega
  unfold State.pf0Paused
  rw [hl, List.foldl_append, List.foldl_cons]
  refine foldl_inv (fun u => u.ringSt i ≠ ringRunning) _ _ (fun u x hx hu => paused_step hu (hlt x hx) (by omega)) _ ?_
  generalize List.foldl _ s l = u
  unfold onlyIf
  split
  · rw [ringSt_setRing_same u _ i (by decide)]
    decide
  next h =>
    intro hrun
    rw [hrun] at h
    exact h rfl

theorem pf0Paused_frame (s : State) : Frame [.regs, .auditQ] [.RING_STATE] s s.pf0Paused :=
  (Frame.refl _ _ s).foldl fun u i => Frame.onlyIf (setRing_frame u _ i _) (Frame.refl _ _ u)

theorem driverLost_shows (s : State) : (∀ i, i < 64 → s.driverLost.ringSt i ≠ ringRunning) ∧ s.driverLost.attn 0x9 = true ∧
    s.driverLost.rings.beat = 0 ∧ s.driverLost.mem = s.mem ∧ s.driverLost.plots = s.plots := by
  have hheld := holdJobs_frame s.pf0Paused (·.fn == 0)
  have hrest : Frame [.regs, .rings] [.GLOBAL_ATTN_PENDING] (s.pf0Paused.holdJobs (·.fn == 0)) s.driverLost := (Frame.refl _ _ _).setAttn.modRings
  have hall : Frame [.regs, .auditQ, .rings, .lnts] [.RING_STATE, .GLOBAL_ATTN_PENDING] s s.driverLost :=
    ((pf0Paused_frame s).mono.after hheld).after hrest
  have hkeep (u : State) : (u.modRings fun x => { x with beat := 0 }).attn 0x9 = u.attn 0x9 := rfl
  refine ⟨fun i hi => ?_, (hkeep _).trans (attn_setAttn _ true), rfl, hall.part .mem, hall.part .plots⟩
  rw [State.ringSt, hrest.rd (f := F.RING_STATE.STATE) i 0, hheld.rd (f := F.RING_STATE.STATE) i 0]
  exact ringSt_pf0Paused s hi

/-! ### Commands of FN_RINGCTL (R539, R541, R543, R553) -/

theorem ringOf {f r : Nat} (hr : r < 64) : (64 * f + r) / 64 = f := by omega

theorem exec_ringResume {f : FnIx} {r : RingIx} (hroom : s.auditFull = false) (hi : i = 64 * f.val + r.val) (hacc : s.accepted f = true)
    (hst : s.ringSt i = ringPaused ∨ s.ringSt i = ringHalted) (hlost : f.val = 0 → s.attn 0x9 = false)
    (hbme : s.bit F.RING_STATE.HALT i = true → s.rings.bmeOff.contains f.val = false) : exec (.ringResume f r) s = .next (s.resumeRing i) := by
  have hfn : i / 64 = f := by rw [hi, ringOf r.isLt]
  have hnotLost : s.lostRing i = false := by
    unfold State.lostRing
    rw [hfn]
    by_cases hf : f.val = 0
    · rw [hlost hf, Bool.and_false]
    · rw [beq_eq_false_iff_ne.2 hf, Bool.false_and]
  have hstops : (s.bit F.RING_STATE.HALT i && s.rings.bmeOff.contains (i / 64)) = false := by
    rw [hfn]
    cases hhalt : s.bit F.RING_STATE.HALT i with
    | false => rfl
    | true => rw [hbme hhalt]; rfl
  have hmay : s.mayResume i = true := by
    unfold State.mayResume
    rw [hnotLost, hstops]
    rcases hst with h | h <;> rw [h] <;> rfl
  show execRingResume f r s = _
  unfold execRingResume
  rw [orWait_open hroom]
  extract_lets ring
  have hring : ring = i := hi.symm
  rw [hring, hacc, hmay]
  rfl

theorem exec_ringReset {f : FnIx} {r : RingIx} (hroom : s.auditFull = false) (hi : i = 64 * f.val + r.val) (hacc : s.accepted f = true)
    (hst : s.ringSt i ≠ ringResetting) : exec (.ringReset f r) s = .next ((s.oldDoorbells f r).resetRing (Origin.fn f) i) := by
  show execRingReset f r s = _
  unfold execRingReset
  rw [orWait_open hroom]
  subst hi
  exact congrArg Host.Outcome.next (onlyIf_pos (by simp [hacc, hst]) _ _)

theorem rd0_lt (s : State) (g : Fld) (i j : Nat) : s.rd0 g i j < 2 ^ g.len := Nat.mod_lt _ (Nat.two_pow_pos _)

theorem oldDoorbells_shows (s : State) (f : FnIx) (r : RingIx) (hi : i = 64 * f.val + r.val) :
    (s.oldDoorbells f r).rd F.RING_PTRS.PROD i = s.rd0 F.RING_PTRS.PROD i ∧ (s.oldDoorbells f r).rd F.RING_PTRS.CHEAD i = s.rd0 F.RING_PTRS.CHEAD i ∧
      Frame [.regs] [.RING_PTRS, .FN_SQDB, .FN_CQDB] s (s.oldDoorbells f r) ∧
      s.onlyRegs (s.oldDoorbells f r) [(.RING_STATE, i, 0), (.RING_PTRS, i, 0), (.FN_SQDB, f, r), (.FN_CQDB, f, r)] := by
  have hprod := rd0_lt s F.RING_PTRS.PROD i 0
  have hhead := rd0_lt s F.RING_PTRS.CHEAD i 0
  have him : i % 2 ^ 14 = i := Nat.mod_eq_of_lt (by omega)
  have hfm : f.val % 2 ^ 14 = f := Nat.mod_eq_of_lt (by omega)
  have hrm : r.val % 2 ^ 14 = r := Nat.mod_eq_of_lt (by omega)
  subst hi
  unfold State.oldDoorbells
  refine ⟨?_, ?_, (Frame.refl _ _ s).wr.wr.wr.wr, onlyRegs_wr (onlyRegs_wr (onlyRegs_wr (onlyRegs_wr (onlyRegs_refl s _)
    F.RING_PTRS.PROD _ _ 0 ?_) F.RING_PTRS.CHEAD _ _ 0 ?_) F.FN_SQDB.VALUE _ f r ?_) F.FN_CQDB.VALUE _ f r ?_⟩
  · rw [rd_wr_other (by decide), rd_wr_other (by decide), rd_wr_apart (by decide) (by decide), rd_wr_same (by decide), Nat.mod_eq_of_lt hprod]
  · rw [rd_wr_other (by decide), rd_wr_other (by decide), rd_wr_same (by decide), Nat.mod_eq_of_lt hhead]
  · rw [him]
    exact List.mem_cons_of_mem _ List.mem_cons_self
  · rw [him]
    exact List.mem_cons_of_mem _ List.mem_cons_self
  · rw [hfm, hrm]
    exact List.mem_cons_of_mem _ (List.mem_cons_of_mem _ List.mem_cons_self)
  · rw [hfm, hrm]
    exact List.mem_cons_of_mem _ (List.mem_cons_of_mem _ (List.mem_cons_of_mem _ List.mem_cons_self))

theorem ringReset_shows (s : State) (o : Origin) (f : FnIx) (r : RingIx) (hi : i = 64 * f.val + r.val) : let t := (s.oldDoorbells f r).resetRing o i
    t.ringSt i = ringResetting ∧ t.rd F.RING_STATE.EPOCH i = (s.rd F.RING_STATE.EPOCH i + 1) % 2 ^ F.RING_STATE.EPOCH.len ∧
      (∀ e ∈ t.rings.entries, e.ring ≠ i) ∧ t.rd F.RING_PTRS.PROD i = s.rd0 F.RING_PTRS.PROD i ∧
      t.rd F.RING_PTRS.CHEAD i = s.rd0 F.RING_PTRS.CHEAD i ∧ s.keptBut t [.regs, .lnts, .rings, .auditQ] ∧
      s.onlyRegs t [(.RING_STATE, i, 0), (.RING_PTRS, i, 0), (.FN_SQDB, f, r), (.FN_CQDB, f, r)] := by
  obtain ⟨hprod, hhead, hold, honly⟩ := oldDoorbells_shows s f r hi
  obtain ⟨hst, hepoch, hentries, hring⟩ := resetRing_shows (s.oldDoorbells f r) o i
  have hreset := resetRing_frame (s.oldDoorbells f r) o i
  have him : i % 2 ^ 14 = i := Nat.mod_eq_of_lt (by omega)
  rw [him] at hring
  refine ⟨hst, hepoch.trans (by rw [hold.rd (f := F.RING_STATE.EPOCH) i 0]), hentries, (hreset.rd (f := F.RING_PTRS.PROD) i 0).trans hprod,
    (hreset.rd (f := F.RING_PTRS.CHEAD) i 0).trans hhead, ?_, onlyRegs_trans honly (onlyRegs_mono hring)⟩
  exact ((hold.mono (L' := [.regs, .lnts, .rings, .auditQ]) (R' := [.RING_PTRS, .FN_SQDB, .FN_CQDB, .RING_STATE])).after hreset).kept

theorem exec_ringResetDone {r : Fin 8192} (hst : s.ringSt r = ringResetting) (hjobs : s.ringJobs r = 0) :
    exec (.ringResetDone r) s = .next ((s.clearReg .RING_PTRS r).setRing Origin.hw r ringDisabled) := by
  show execRingResetDone r s = _
  exact congrArg Host.Outcome.next (onlyIf_pos (by rw [hst, hjobs]; rfl) _ _)

theorem ringDone_shows (s : State) (r : Fin 8192) : let t := (s.clearReg .RING_PTRS r).setRing Origin.hw r ringDisabled
    t.ringSt r = ringDisabled ∧ t.rd F.RING_PTRS.PROD r = 0 ∧ t.rd F.RING_PTRS.CDONE r = 0 ∧
      s.regsOnly t [(.RING_PTRS, r, 0), (.RING_STATE, r, 0)] := by
  have hrm : r.val % 2 ^ 14 = r := Nat.mod_eq_of_lt (by omega)
  have hset := setRing_frame (s.clearReg .RING_PTRS r) Origin.hw r ringDisabled
  have hptrs : ((s.clearReg .RING_PTRS r).setRing Origin.hw r ringDisabled).reg .RING_PTRS r = 0 :=
    (hset.regs _ (by decide) _ _).trans ((reg_clearReg_reset s .RING_PTRS r 0).trans rfl)
  have hcleared : Frame [.regs, .auditQ] [.RING_PTRS, .RING_STATE] s (s.clearReg .RING_PTRS r) := (Frame.refl _ _ s).clearReg
  have honly := onlyRegs_setRing (s.clearReg .RING_PTRS r) Origin.hw r ringDisabled
  rw [hrm] at honly
  refine ⟨ringSt_setRing_same _ _ _ (by decide), ?_, ?_, (hcleared.after hset).kept, onlyRegs_trans
    (onlyRegs_cleared (onlyRegs_refl s _) .RING_PTRS r 0 (by rw [hrm]; exact List.mem_cons_self)) (onlyRegs_mono honly)⟩
  · unfold State.rd
    rw [show F.RING_PTRS.PROD.reg = .RING_PTRS from rfl, hptrs]
    rfl
  · unfold State.rd
    rw [show F.RING_PTRS.CDONE.reg = .RING_PTRS from rfl, hptrs]
    rfl

/-- EN of a ring is set. -/
def State.ringEnabled (s : State) (f r : Nat) : State := (s.wr F.FN_RINGCTL.EN 1 f r).auditFn f (0x800 + 4 * r) (s.reg .FN_RINGCTL f r).toNat
  ((s.wr F.FN_RINGCTL.EN 1 f r).reg .FN_RINGCTL f r).toNat

theorem exec_ringEnableWrite {f : FnIx} {r : RingIx} (hroom : s.auditFull = false) (hi : i = 64 * f.val + r.val) (hacc : s.accepted f = true)
    (hbound : (s.fnTenant f).isSome = true) (hzero : s.sec.ringZero.contains f.val = false) :
    exec (.ringEnableWrite f r true) s = .next (onlyIf ((s.ringEnabled f r).ringSt i == ringDisabled) ((s.ringEnabled f r).setRing (Origin.fn f) i
      (if (s.ringEnabled f r).lostRing i then ringPaused else ringRunning)) (s.ringEnabled f r)) := by
  have hnone : (s.fnTenant f).isNone = false := by simpa [Option.isSome_iff_ne_none] using hbound
  subst hi
  show execRingEnableWrite f r true s = _
  unfold execRingEnableWrite
  rw [orWait_open hroom, hacc, hnone, hzero]
  rfl

theorem ringEnabled_frame (s : State) (f r : Nat) : Frame [.regs, .auditQ] [.FN_RINGCTL] s (s.ringEnabled f r) := by
  have hs : Frame [.regs, .auditQ] [.FN_RINGCTL] s (s.wr F.FN_RINGCTL.EN 1 f r) := (Frame.refl _ _ s).wr
  unfold State.ringEnabled State.auditFn
  exact Frame.onlyIf hs.audit hs

theorem ringEnable_shows (s : State) (o : Origin) (f : FnIx) (r : RingIx) (hi : i = 64 * f.val + r.val) :
    let t := onlyIf ((s.ringEnabled f r).ringSt i == ringDisabled) ((s.ringEnabled f r).setRing o i
      (if (s.ringEnabled f r).lostRing i then ringPaused else ringRunning)) (s.ringEnabled f r)
    t.bit F.FN_RINGCTL.EN f r = true ∧ (s.ringSt i = ringDisabled → t.ringSt i = (if s.lostRing i then ringPaused else ringRunning)) ∧
      s.regsOnly t [(.FN_RINGCTL, f, r), (.RING_STATE, i, 0)] := by
  have him : i % 2 ^ 14 = i := Nat.mod_eq_of_lt (by omega)
  have hfm : f.val % 2 ^ 14 = f := Nat.mod_eq_of_lt (by omega)
  have hrm : r.val % 2 ^ 14 = r := Nat.mod_eq_of_lt (by omega)
  have hen := ringEnabled_frame s f r
  have hregs : (s.ringEnabled f r).regs = (s.wr F.FN_RINGCTL.EN 1 f r).regs := by
    unfold State.ringEnabled State.auditFn onlyIf
    split <;> rfl
  have hbit : (s.ringEnabled f r).bit F.FN_RINGCTL.EN f r = true := (bit_of_regs hregs _ _ _).trans (bit_wr_same (by decide) rfl 1)
  have hlost : (s.ringEnabled f r).lostRing i = s.lostRing i := by
    unfold State.lostRing
    rw [attn_of_frame hen]
  have hst : (s.ringEnabled f r).ringSt i = s.ringSt i := hen.rd i 0
  have honly : s.onlyRegs (s.ringEnabled f r) [(.FN_RINGCTL, f, r), (.RING_STATE, i, 0)] :=
    onlyRegs_regs (onlyRegs_wr (onlyRegs_refl s _) F.FN_RINGCTL.EN 1 f r (by rw [hfm, hrm]; exact List.mem_cons_self)) hregs
  have hset := setRing_frame (s.ringEnabled f r) o i (if s.lostRing i then ringPaused else ringRunning)
  have hring := onlyRegs_setRing (s.ringEnabled f r) o i (if s.lostRing i then ringPaused else ringRunning)
  rw [him] at hring
  rw [hlost, hst]
  refine ⟨?_, fun hdis => ?_, ?_, onlyRegs_onlyIf _ (onlyRegs_trans honly (onlyRegs_mono hring)) honly⟩
  · unfold onlyIf
    split
    · exact (hset.bit (f := F.FN_RINGCTL.EN) f r).trans hbit
    · exact hbit
  · rw [onlyIf_pos (by rw [hdis]; rfl)]
    exact ringSt_setRing_same _ _ _ (by split <;> decide)
  · exact (Frame.onlyIf ((hen.mono (R' := [.FN_RINGCTL, .RING_STATE])).after hset) hen.mono).kept

/-! ### Link power, and Bus Master Enable (R542, R544) -/

theorem exec_l1IdleExpiry (hset : s.rings.l1Us ≠ 0) (hl1 : s.rings.l1 = false) (hidle : s.hostIdle = true)
    (hpast : s.rings.idleAt + usTicks s.rings.l1Us ≤ s.now) :
    exec .l1IdleExpiry s = .next ((s.send (.hub .l1Ask)).modRings fun x => { x with l1 := true }) := by
  show execL1IdleExpiry s = _
  exact congrArg Host.Outcome.next (onlyIf_pos (by simp [hset, hl1, hidle, hpast]) _ _)

/-- The function is no bus master. -/
def State.bmeCleared (s : State) (f : Nat) : State :=
  s.modRings fun x => { x with bmeOff := if x.bmeOff.contains f then x.bmeOff else x.bmeOff ++ [f] }

theorem bme_bmeCleared (s : State) (f : Nat) : (s.bmeCleared f).rings.bmeOff.contains f = true := by
  show (if s.rings.bmeOff.contains f then s.rings.bmeOff else s.rings.bmeOff ++ [f]).contains f = true
  split
  · assumption
  · simp

/-- A context whose host read its function may no longer ask for fails. -/
def State.bmeStop (s : State) (f : Nat) (q : Nat × Nat) : State :=
  match (s.ctx q.1 q.2).job with
  | none => s
  | some b =>
    if b.fn != f || !((s.lnt q.1).hreqs.any (·.ctx == q.2) || s.rings.replied.contains (q.1, q.2)) then s else
    let s := s.modLnt q.1 fun l => { l with
      hreqs := l.hreqs.filter (·.ctx != q.2), hgens := stale l.hgens (l.hreqs.filter (·.ctx == q.2)) }
    match s.dop q.1 q.2 with
    | none => s
    | some _ =>
      let s := s.failInstr q.1 q.2 ⟨0x11, 0, 0, 0⟩
      onlyIf (s.ringSt b.ring != ringResetting && s.ringSt b.ring != ringDisabled)
        ((s.setRing Origin.hw b.ring ringHalted).wr F.RING_STATE.HALT 1 b.ring) s

theorem exec_busMasterClear (s : State) (f : FnIx) : exec (.busMasterClear f) s = .next (allCtxs.foldl (fun s q => s.bmeStop f q) (s.bmeCleared f)) := rfl

theorem bmeStop_frame (s : State) (f : Nat) (q : Nat × Nat) :
    Frame [.regs, .lnts, .posies, .auditQ] [.LNT_ARRAY, .RING_STATE] s (s.bmeStop f q) := by
  have hs := Frame.refl [.regs, .lnts, .posies, .auditQ] [.LNT_ARRAY, .RING_STATE] s
  unfold State.bmeStop
  split
  · exact hs
  · refine Frame.ite hs ?_
    extract_lets dropped failed
    have hdropped : Frame [.regs, .lnts, .posies, .auditQ] [.LNT_ARRAY, .RING_STATE] s dropped := hs.modLnt
    split
    · exact hdropped
    · have hfailed : Frame [.regs, .lnts, .posies, .auditQ] [.LNT_ARRAY, .RING_STATE] s failed := hdropped.after (failInstr_frame dropped _ _ _)
      exact Frame.onlyIf (hfailed.after (setRing_frame failed _ _ _)).wr hfailed

theorem bme_shows (s : State) (f : FnIx) : let t := allCtxs.foldl (fun s q => s.bmeStop f q) (s.bmeCleared f)
    t.rings.bmeOff.contains f.val = true ∧ t.mem = s.mem ∧ t.plots = s.plots := by
  have hstops : Frame [.regs, .lnts, .posies, .auditQ] [.LNT_ARRAY, .RING_STATE] (s.bmeCleared f)
      (allCtxs.foldl (fun s q => s.bmeStop f q) (s.bmeCleared f)) := (Frame.refl _ _ _).foldl fun u q => bmeStop_frame u f q
  have hrings := hstops.part .rings
  have hbme := bme_bmeCleared s f
  exact ⟨(congrArg (fun x : Rings => x.bmeOff.contains f.val) hrings).trans hbme, hstops.part .mem, hstops.part .plots⟩

/-! ### Function Level Reset of PF0 (R546) -/

/-- PF0's page is reset, and its driver lost. -/
def State.pf0Reset (s : State) : State :=
  (((((s.flr 0).clearReg .GLOBAL_DRVVER).setAttn 0x9 true).audit 0 0 0 0x38 (s.reg .GLOBAL_DRVVER).toNat 0)).modRings fun x => { x with beat := 0 }

theorem exec_pfFlr (s : State) : exec .pfFlr s = .next s.pf0Reset := rfl

theorem exec_vfFlr {f : FnIx} (hf : 0 < f.val) : exec (.vfFlr f) s = .next (s.flr f) := by
  show execVfFlr f s = _
  exact congrArg Host.Outcome.next (onlyIf_pos (by simpa using Nat.ne_of_gt hf) _ _)

theorem exec_vfEnableClear (s : State) : exec .vfEnableClear s = .next s.vfsReset := rfl

theorem pf0Reset_shows (s : State) : s.pf0Reset.rd F.FN_STATUS.VER 0 = 0 ∧ (∀ r, r < 64 → s.pf0Reset.ringSt r = ringResetting) ∧
    s.pf0Reset.attn 0x9 = true ∧ s.pf0Reset.rings.beat = 0 ∧ s.pf0Reset.mem = s.mem ∧ s.pf0Reset.plots = s.plots := by
  have hrest : Frame flrParts [.GLOBAL_DRVVER, .GLOBAL_ATTN_PENDING] (s.flr 0) s.pf0Reset := (Frame.refl _ _ _).clearReg.setAttn.audit.modRings
  have hall : Frame flrParts (.GLOBAL_DRVVER :: .GLOBAL_ATTN_PENDING :: .RING_STATE :: pageRegs) s s.pf0Reset := (flr_frame s 0).mono.after hrest
  have hkeep (u : State) (a b : Nat) : ((u.audit 0 0 0 0x38 a b).modRings fun x => { x with beat := 0 }).attn 0x9 = u.attn 0x9 := rfl
  obtain ⟨hver, hrings⟩ := functionReset_flr s (f := 0) (by decide)
  refine ⟨ver_unversed ((unversed_of_frame hrest).2 hver), fun r hr => (hrest.rd (f := F.RING_STATE.STATE) r 0).trans ?_, ?_, rfl,
    hall.part .mem, hall.part .plots⟩
  · have hring := hrings r hr
    rwa [Nat.mul_zero, Nat.zero_add] at hring
  · exact (hkeep _ _ _).trans (attn_setAttn _ true)

end

/-- Settles O12: each command's effect on registers and rings, which what follows it leaves alone. -/
theorem ringControl : Obligations.RingControl := by
  unfold Obligations.RingControl
  intro s
  refine ⟨fun hroom => ⟨fun f v hf => ⟨_, exec_handshake_vf hf hroom, vfGreeted_shows s f v⟩, fun v hmajor hminor => ?_,
    fun v hnew => ⟨_, exec_heartbeat hroom hnew, beats_shows s v⟩, fun f r i hi hacc => ⟨fun ⟨hst, hlost, hbme⟩ =>
      ⟨_, exec_ringResume hroom hi hacc hst hlost hbme, resumeRing_shows s i⟩, fun hst => ⟨_, exec_ringReset hroom hi hacc hst,
      ringReset_shows s _ f r hi⟩, fun hbound hzero => ⟨_, exec_ringEnableWrite hroom hi hacc hbound hzero, ringEnable_shows s _ f r hi⟩⟩⟩,
    fun ms hms hset hup hbeat hpast => ⟨_, exec_hostDriverLost hms hset hup hbeat hpast, driverLost_shows s⟩,
    fun r hst hjobs => ⟨_, exec_ringResetDone hst hjobs, ringDone_shows s r⟩,
    fun hset hl1 hidle hpast => ⟨_, exec_l1IdleExpiry hset hl1 hidle hpast, rfl, rfl, ?_⟩,
    fun f => ⟨⟨_, exec_busMasterClear s f, bme_shows s f⟩, fun hf => ⟨_, exec_vfFlr hf, ?_⟩⟩, ⟨_, exec_pfFlr s, pf0Reset_shows s⟩,
    ⟨_, exec_vfEnableClear s, ?_⟩⟩
  · obtain ⟨hdrvver, hver, hready, hattn, hstep⟩ := pf0Greeted_shows s v
    exact ⟨_, exec_handshake_pf0 hroom hmajor hminor, hdrvver, hver, hready, hattn, fun hwaits hnone => pf0Greeted_frame v hwaits hnone, hstep⟩
  · have hframe : Frame [.out, .rings] [] s ((s.send (.hub .l1Ask)).modRings fun x => { x with l1 := true }) := (Frame.refl _ _ s).send.modRings
    exact hframe.kept
  · obtain ⟨hver, hrings⟩ := functionReset_flr s f.isLt
    exact ⟨ver_unversed hver, hrings, (flr_frame s f).part .mem, (flr_frame s f).part .plots⟩
  · exact ⟨fun f hf hf' => ver_unversed (functionReset_vfsReset s hf hf').1, fun f r hf hf' hr => (functionReset_vfsReset s hf hf').2 r hr,
      (vfsReset_frame s).part .mem, (vfsReset_frame s).part .plots⟩

end Sys2Proof.Machine
end

section
/-! Forming, keeping and leaving the mirror pair (R752 to R758, R774 to R782). -/

set_option Elab.async false

namespace Sys2Proof.Machine
section
variable {L : List Part} {R : List RegName} {s t u : State} {w p k : Nat}

/-! ### What the mirror's operations keep of its state -/

/-- The stamp of the last frame and the pair's secret are as they were. -/
def State.mirSteady (s t : State) : Prop := t.mir.heard = s.mir.heard ∧ t.mir.ems = s.mir.ems

theorem steady_refl (s : State) : s.mirSteady s := ⟨rfl, rfl⟩

theorem steady_trans (h : s.mirSteady t) (g : t.mirSteady u) : s.mirSteady u := ⟨g.1.trans h.1, g.2.trans h.2⟩

theorem steady_of_mir (h : t.mir = s.mir) : s.mirSteady t := by
  unfold State.mirSteady
  rw [h]
  exact ⟨rfl, rfl⟩

theorem steady_of_frame (h : Frame L R s t) (hL : Part.mir ∉ L := by decide) : s.mirSteady t := steady_of_mir (h.part .mir hL)

theorem steady_of_pumped (h : s.pumped t) : s.mirSteady t := by
  unfold State.pumped at h
  exact ⟨(congrArg Mir.heard h).trans rfl, (congrArg Mir.ems h).trans rfl⟩

theorem steady_pauseWin (s : State) (w : Nat) : s.mirSteady (s.pauseWin w) := by
  unfold State.pauseWin
  extract_lets st
  split <;> exact ⟨rfl, rfl⟩

theorem steady_resumeWin (s : State) (w : Nat) : s.mirSteady (s.resumeWin w) := by
  unfold State.resumeWin
  extract_lets st
  split <;> exact ⟨rfl, rfl⟩

theorem steady_pauseWins (s : State) : s.mirSteady s.pauseWins := by
  rw [pauseWins_eq]
  exact foldl_inv (fun u => s.mirSteady u) _ _ (fun u w _ hu => steady_trans hu (steady_pauseWin u w)) s (steady_refl s)

theorem steady_resumeWins (s : State) : s.mirSteady s.resumeWins := by
  rw [resumeWins_eq]
  exact foldl_inv (fun u => s.mirSteady u) _ _ (fun u w _ hu => steady_trans hu (steady_resumeWin u w)) s (steady_refl s)

theorem steady_mirWidths (s : State) : s.mirSteady s.mirWidths := by
  unfold State.mirWidths
  split
  · exact steady_refl s
  · split
    · exact steady_pauseWins s
    · exact steady_resumeWins s

/-- A mirror port shows that it is up. -/
def State.mirShown (s : State) (p : Nat) : State := (s.wr F.MIR_PORT.UP 1 p).wr F.MIR_PORT.WIDTH (tget 0 s.mir.width p) p

/-- A mirror port and its link are up. -/
def State.mirLinked (s : State) (p : Nat) : State := (s.mirShown p).linkUp (25 + p) (ownDesc (25 + p) s.mirVer)

theorem mirStart_eq (s : State) (p : Nat) : s.mirStart p =
    (s.mirLinked p).sendFrame p (.hello ((s.mirLinked p).rd F.GLOBAL_PROTO.MIRROR_PROTO) (tget 0 s.mir.width p)) := rfl

theorem mirLinked_rest (s : State) (p : Nat) : Frame [.regs, .credits] [.PORT_LINK, .PORT_CAP, .PORT_EFF] (s.mirShown p) (s.mirLinked p) :=
  linkUp_frame (s.mirShown p) _ _

theorem mirStart_rest (s : State) (p : Nat) :
    Frame [.regs, .credits, .out, .mir] [.PORT_LINK, .PORT_CAP, .PORT_EFF] (s.mirShown p) (s.mirStart p) := by
  rw [mirStart_eq]
  exact (mirLinked_rest s p).mono.after (sendFrame_frame (s.mirLinked p) p _)

theorem steady_mirStart (s : State) (p : Nat) : s.mirSteady (s.mirStart p) := by
  have hmir : (s.mirLinked p).mir = s.mir := (mirLinked_rest s p).part .mir
  rw [mirStart_eq]
  exact steady_trans (steady_of_mir hmir) (steady_of_pumped (sendFrame_pumped (s.mirLinked p) p _))

/-! ### The ports that start (R753) -/

theorem reg_of_key {r : RegName} {i j i' j' : Nat} (h : regKey r i j = regKey r i' j') (hr : r.reset i j = r.reset i' j') (s : State) :
    s.reg r i j = s.reg r i' j' := by
  unfold State.reg
  rw [h, hr]

theorem up_of_key {q : Nat} (h : regKey .MIR_PORT p 0 = regKey .MIR_PORT q 0) (s : State) : s.mirUp p = s.mirUp q := by
  have hreset (n : Nat) : RegName.MIR_PORT.reset n 0 = 0 := rfl
  have hreg := reg_of_key h ((hreset p).trans (hreset q).symm) s
  unfold State.mirUp State.bit State.rd
  rw [show F.MIR_PORT.UP.reg = .MIR_PORT from rfl, hreg]

/-- A port that is up stays so while ports start. -/
theorem up_mirStart (h : s.mirUp p = true) (q : Nat) : (s.mirStart q).mirUp p = true := by
  by_cases hk : regKey .MIR_PORT p 0 = regKey .MIR_PORT q 0
  · rw [up_of_key hk]
    exact up_mirStart_same s q
  · refine (up_of_frame (mirStart_rest s q) p).trans ?_
    unfold State.mirUp State.bit at h ⊢
    rw [State.mirShown, rd_wr_key (f := F.MIR_PORT.WIDTH) (g := F.MIR_PORT.UP) hk, rd_wr_key (f := F.MIR_PORT.UP) (g := F.MIR_PORT.UP) hk]
    exact h

theorem up_mirStarts {xs : List Nat} (hp : p ∈ xs) (s : State) : (xs.foldl (fun s p => s.mirStart p) s).mirUp p = true := by
  obtain ⟨l, l', rfl⟩ := List.append_of_mem hp
  rw [List.foldl_append, List.foldl_cons]
  exact foldl_inv (fun u => u.mirUp p = true) _ _ (fun u q _ hu => up_mirStart hu q) _ (up_mirStart_same _ p)

theorem mirStarts_frame (s : State) (xs : List Nat) :
    Frame [.regs, .credits, .out, .mir] [.MIR_PORT, .PORT_LINK, .PORT_CAP, .PORT_EFF] s (xs.foldl (fun s p => s.mirStart p) s) :=
  (Frame.refl _ _ s).foldl fun u p => mirStart_frame u p

theorem steady_mirStarts (s : State) (xs : List Nat) : s.mirSteady (xs.foldl (fun s p => s.mirStart p) s) :=
  foldl_inv (fun u => s.mirSteady u) _ _ (fun u p _ hu => steady_trans hu (steady_mirStart u p)) s (steady_refl s)

/-! ### MIR_PAIR.OP (R752) -/

/-- The operation is logged. -/
def State.pairAsked (s : State) (op : Nat) : State :=
  s.audit 1 0 0 0x3800000 (s.reg .MIR_PAIR).toNat ((s.reg .MIR_PAIR).toNat % 2 ^ 24 + op <<< 24 + (s.reg .MIR_PAIR).toNat >>> 26 <<< 26)

theorem pairOp_done (hboot : s.inBoot = false) (op : Nat) (run : State → State) :
    s.pairOp op true run = run ((s.pairAsked op).wr F.MIR_PAIR.RESULT 0) := by
  unfold State.pairOp
  rw [hboot]
  rfl

theorem pairOp_bad (hboot : s.inBoot = false) (op : Nat) (run : State → State) :
    s.pairOp op false run = (s.pairAsked op).wr F.MIR_PAIR.RESULT 2 := by
  unfold State.pairOp
  rw [hboot]
  rfl

/-- Forming begins, when a package link is up. -/
def State.pairBegun (s : State) : State :=
  if s.mir.link.isEmpty then ((s.pairAsked 1).wr F.MIR_PAIR.RESULT 0).wr F.MIR_PAIR.RESULT 3
  else ((s.pairAsked 1).wr F.MIR_PAIR.RESULT 0).wr F.MIR_PAIR.STATE 1

theorem exec_pair (h : s.pfHeld = false) (hst : s.rd F.MIR_PAIR.STATE = 0) : exec .pair s = .next s.pairBegun := by
  obtain ⟨hfull, hboot⟩ := pfHeld_false h
  show execPair s = _
  unfold execPair
  rw [orWait_open hfull, hst]
  exact congrArg Host.Outcome.next (pairOp_done hboot 1 _)

/-- An operation outside its states. -/
theorem exec_pairOp_bad {x : Instr} (h : s.pfHeld = false) (hx : (x = .pair ∧ s.rd F.MIR_PAIR.STATE ≠ 0) ∨ (x = .unpair ∧ s.rd F.MIR_PAIR.STATE ≠ 2) ∨
      (x = .takeover ∧ s.rd F.MIR_PAIR.STATE ≠ 3)) : ∃ op, exec x s = .next ((s.pairAsked op).wr F.MIR_PAIR.RESULT 2) := by
  obtain ⟨hfull, hboot⟩ := pfHeld_false h
  rcases hx with ⟨rfl, hst⟩ | ⟨rfl, hst⟩ | ⟨rfl, hst⟩
  · refine ⟨1, ?_⟩
    show execPair s = _
    unfold execPair
    rw [orWait_open hfull, beq_eq_false_iff_ne.2 hst, pairOp_bad hboot]
  · refine ⟨2, ?_⟩
    show execUnpair s = _
    unfold execUnpair State.paired
    rw [orWait_open hfull, beq_eq_false_iff_ne.2 hst, pairOp_bad hboot]
  · refine ⟨3, ?_⟩
    show execTakeover s = _
    unfold execTakeover
    rw [orWait_open hfull, beq_eq_false_iff_ne.2 hst, pairOp_bad hboot]

theorem pairAsked_frame (s : State) (op : Nat) : Frame [.auditQ] [] s (s.pairAsked op) := (Frame.refl _ _ s).audit

/-- A field of MIR_PAIR is written after an operation's entry. -/
theorem pairWritten_regsOnly (s : State) (op v : Nat) {f : Fld} (hf : f.reg = .MIR_PAIR) : s.regsOnly ((s.pairAsked op).wr f v) [(.MIR_PAIR, 0, 0)] := by
  have hasked : Frame [.regs, .auditQ] [] s (s.pairAsked op) := (pairAsked_frame s op).mono
  refine ⟨keptBut_wr hasked.kept f v 0 0 (by decide), onlyRegs_wr (onlyRegs_of_frame (onlyRegs_refl s _) (pairAsked_frame s op)) f v 0 0 ?_⟩
  rw [hf]
  exact List.mem_cons_self

/-- RESULT of an operation outside its states. -/
theorem pairBad_shows (s : State) (op : Nat) : let t := (s.pairAsked op).wr F.MIR_PAIR.RESULT 2
    t.rd F.MIR_PAIR.RESULT = 2 ∧ t.rd F.MIR_PAIR.STATE = s.rd F.MIR_PAIR.STATE ∧ s.regsOnly t [(.MIR_PAIR, 0, 0)] :=
  ⟨rd_wr_same (by decide) 2, (rd_wr_apart (by decide) (by decide) 2).trans ((pairAsked_frame s op).rd (f := F.MIR_PAIR.STATE) 0 0),
    pairWritten_regsOnly s op 2 rfl⟩

/-- PAIR in UNPAIRED. -/
theorem pair_shows (hst : s.rd F.MIR_PAIR.STATE = 0) : let t := s.pairBegun
    s.regsOnly t [(.MIR_PAIR, 0, 0)] ∧ (s.mir.link ≠ [] → t.rd F.MIR_PAIR.STATE = 1 ∧ t.rd F.MIR_PAIR.RESULT = 0) ∧
      (s.mir.link = [] → t.rd F.MIR_PAIR.STATE = 0 ∧ t.rd F.MIR_PAIR.RESULT = 3) := by
  obtain ⟨hkept, honly⟩ := pairWritten_regsOnly s 1 0 (f := F.MIR_PAIR.RESULT) rfl
  have hasked := (pairAsked_frame s 1).rd (f := F.MIR_PAIR.STATE) 0 0
  unfold State.pairBegun
  by_cases hlink : s.mir.link = []
  · rw [if_pos (by rw [hlink]; rfl)]
    refine ⟨⟨keptBut_wr hkept _ _ _ _ (by decide), onlyRegs_wr honly F.MIR_PAIR.RESULT 3 0 0 (by decide)⟩, fun h => absurd hlink h, fun _ => ⟨?_, ?_⟩⟩
    · rw [rd_wr_apart (by decide) (by decide), rd_wr_apart (by decide) (by decide), hasked, hst]
    · rw [rd_wr_same (by decide)]
      rfl
  · rw [if_neg (by simpa using hlink)]
    refine ⟨⟨keptBut_wr hkept _ _ _ _ (by decide), onlyRegs_wr honly F.MIR_PAIR.STATE 1 0 0 (by decide)⟩, fun _ => ⟨?_, ?_⟩, fun h => absurd h hlink⟩
    · rw [rd_wr_same (by decide)]
      rfl
    · rw [rd_wr_apart (by decide) (by decide), rd_wr_same (by decide)]
      rfl

/-! ### The pair is lost, or ends (R776, R779) -/

/-- The parts and registers of ports that stop. -/
def stopParts : List Part := [.regs, .flights, .credits, .locks, .holds]
def stopRegs : List RegName := [.MIR_PORT, .PORT_LINK, .PORT_LINKCNT, .GLOBAL_ATTN_PENDING]

/-- Both ports stop. -/
def State.portsStop (s : State) : State := ((s.mirStop 0).mirStop 1).syncDegraded

theorem portsStop_frame (s : State) : Frame stopParts stopRegs s s.portsStop :=
  ((mirStop_frame s 0).trans (mirStop_frame _ 1)).after (syncDegraded_frame _)

theorem up_portsStop (s : State) (hp : p < 2) : s.portsStop.mirUp p = false :=
  (up_of_frame (syncDegraded_frame _) p).trans (up_mirStops hp s)

/-- STATE reads LOST, and the windows in service are DIVERGED. -/
def State.lostWins (s : State) : State := (List.range 16).foldl (fun s w => s.diverge w) (s.holdAck.wr F.MIR_PAIR.STATE 3)

/-- The mirror's own state after a loss. -/
def State.mirDropped (s : State) : State := s.modMir fun x => { x with writes := [], sync := [], was := [], back := none, leave := none }

theorem mirLost_eq (s : State) : s.mirLost = s.lostWins.mirDropped.portsStop := rfl

/-- STATE reads `v`, with the acknowledged stamp held. -/
def State.pairAt (s : State) (v : Nat) : State := s.holdAck.wr F.MIR_PAIR.STATE v

theorem pairAt_frame (s : State) (v : Nat) : Frame [.regs] [.MIR_ACKTS, .MIR_PAIR] s (s.pairAt v) := ((holdAck_frame s).mono).wr

theorem state_pairAt (s : State) {v : Nat} (hv : v < 4) : (s.pairAt v).rd F.MIR_PAIR.STATE = v := (rd_wr_same (by decide) v).trans (Nat.mod_eq_of_lt (hv.trans_le (by decide)))

theorem lostWins_rest (s : State) : Frame [.regs, .mir] [.MIR_ACT_CTL] (s.pairAt 3) s.lostWins := (Frame.refl _ _ _).foldl fun u w => diverge_frame u w

theorem mirLost_frame (s : State) : Frame (.mir :: stopParts) (.MIR_ACKTS :: .MIR_PAIR :: .MIR_ACT_CTL :: stopRegs) s s.mirLost := by
  have hwins : Frame (.mir :: stopParts) (.MIR_ACKTS :: .MIR_PAIR :: .MIR_ACT_CTL :: stopRegs) s s.lostWins :=
    (pairAt_frame s 3).mono.after (lostWins_rest s)
  rw [mirLost_eq]
  exact hwins.modMir.after (portsStop_frame _)

theorem mirLost_shows (s : State) : s.mirLost.rd F.MIR_PAIR.STATE = 3 ∧ (∀ w, w < 16 → s.winState w ≠ 0 → s.mirLost.winState w = 4) ∧
    s.mirLost.mir.writes = [] ∧ s.mirLost.mirUp 0 = false ∧ s.mirLost.mirUp 1 = false ∧ s.mirLost.mem = s.mem ∧ s.mirLost.plots = s.plots := by
  have hstop := portsStop_frame s.lostWins.mirDropped
  have hdrop : Frame [.mir] [] s.lostWins s.lostWins.mirDropped := (Frame.refl _ _ _).modMir
  have hwrites (u : State) : u.mirDropped.mir.writes = [] := rfl
  have hmir : s.lostWins.mirDropped.portsStop.mir = s.lostWins.mirDropped.mir := hstop.part .mir
  have hall := mirLost_frame s
  refine ⟨?_, fun w hw hserves => ?_, ?_, up_portsStop _ (by decide), up_portsStop _ (by decide), hall.part .mem, hall.part .plots⟩
  · rw [mirLost_eq, hstop.rd (f := F.MIR_PAIR.STATE) 0 0, hdrop.rd (f := F.MIR_PAIR.STATE) 0 0, (lostWins_rest s).rd (f := F.MIR_PAIR.STATE) 0 0,
      state_pairAt s (by decide)]
  · rw [mirLost_eq, winState_of_frame hstop, winState_of_frame hdrop]
    exact winState_diverges hw (by
      show (s.pairAt 3).winState w ≠ 0
      rwa [winState_of_frame (pairAt_frame s 3)])
  · rw [mirLost_eq, hmir, hwrites]

/-- STATE reads UNPAIRED, and the windows are IDLE. -/
def State.idleWins (s : State) : State := (List.range 16).foldl (fun s w => s.setWinState w 0) (s.holdAck.wr F.MIR_PAIR.STATE 0)

/-- The mirror's own state after the pair's end. -/
def State.mirCleared (s : State) : State := (s.wr F.MIR_WCTL.PENDING 0).modMir fun x =>
  { x with writes := [], sync := [], was := [], back := none, leave := none, pend := none, ems := 0, tx := [] }

theorem unpaired_eq (s : State) : s.unpaired = s.idleWins.mirCleared.portsStop := rfl

theorem idleWins_rest (s : State) : Frame [.regs] [.MIR_ACT_CTL] (s.pairAt 0) s.idleWins := (Frame.refl _ _ _).foldl fun u w => setWinState_frame u w 0

theorem mirCleared_frame (s : State) : Frame [.regs, .mir] [.MIR_WCTL] s s.mirCleared := (Frame.refl _ _ s).wr.modMir

theorem unpaired_frame (s : State) : Frame (.mir :: stopParts) (.MIR_WCTL :: .MIR_ACKTS :: .MIR_PAIR :: .MIR_ACT_CTL :: stopRegs) s s.unpaired := by
  have hwins : Frame (.mir :: stopParts) (.MIR_WCTL :: .MIR_ACKTS :: .MIR_PAIR :: .MIR_ACT_CTL :: stopRegs) s s.idleWins :=
    (pairAt_frame s 0).mono.after (idleWins_rest s)
  rw [unpaired_eq]
  exact (hwins.after (mirCleared_frame _)).after (portsStop_frame _)

theorem unpaired_shows (s : State) : s.unpaired.rd F.MIR_PAIR.STATE = 0 ∧ (∀ w, w < 16 → s.unpaired.winState w = 0) ∧
    s.unpaired.mir.writes = [] ∧ s.unpaired.mirUp 0 = false ∧ s.unpaired.mirUp 1 = false ∧ s.unpaired.mem = s.mem ∧ s.unpaired.plots = s.plots := by
  have hstop := portsStop_frame s.idleWins.mirCleared
  have hclear := mirCleared_frame s.idleWins
  have hwrites (u : State) : u.mirCleared.mir.writes = [] := rfl
  have hmir : s.idleWins.mirCleared.portsStop.mir = s.idleWins.mirCleared.mir := hstop.part .mir
  have hall := unpaired_frame s
  refine ⟨?_, fun w hw => ?_, ?_, up_portsStop _ (by decide), up_portsStop _ (by decide), hall.part .mem, hall.part .plots⟩
  · rw [unpaired_eq, hstop.rd (f := F.MIR_PAIR.STATE) 0 0, hclear.rd (f := F.MIR_PAIR.STATE) 0 0, (idleWins_rest s).rd (f := F.MIR_PAIR.STATE) 0 0,
      state_pairAt s (by decide)]
  · rw [unpaired_eq, winState_of_frame hstop, winState_of_frame hclear]
    exact winState_idles hw
  · rw [unpaired_eq, hmir, hwrites]

/-! ### UNPAIR and TAKEOVER (R778, R779) -/

/-- UNPAIR has been asked for, and DOWN said on both ports. -/
def State.downSaid (s : State) : State :=
  (((s.pairAsked 2).wr F.MIR_PAIR.RESULT 0).sendFrame 0 (.down 2)).sendFrame 1 (.down 2)

theorem downSaid_frame (s : State) : Frame [.auditQ, .regs, .out, .mir] [.MIR_PAIR] s s.downSaid := by
  have hasked : Frame [.auditQ, .regs, .out, .mir] [.MIR_PAIR] s ((s.pairAsked 2).wr F.MIR_PAIR.RESULT 0) := (pairAsked_frame s 2).mono.wr
  exact (hasked.after (sendFrame_frame _ 0 _)).after (sendFrame_frame _ 1 _)

theorem writes_downSaid (s : State) : s.downSaid.mir.writes = s.mir.writes := (writes_sendFrame _ 1 _).trans (writes_sendFrame _ 0 _)

theorem exec_unpair (h : s.pfHeld = false) (hst : s.rd F.MIR_PAIR.STATE = 2) : exec .unpair s = .next s.downSaid.beginLeave := by
  obtain ⟨hfull, hboot⟩ := pfHeld_false h
  have hpaired : s.paired = true := by
    unfold State.paired
    rw [hst]
    rfl
  show execUnpair s = _
  unfold execUnpair
  rw [orWait_open hfull, hpaired, pairOp_done hboot]
  rfl

/-- The state in which the pair is to be left by stamp `n`. -/
def State.leavingBy (s : State) (n : Nat) : State := s.modMir fun x => { x with leave := some n }

/-- With nothing under way the pair is left at once. -/
theorem beginLeave_idle (hwrites : s.mir.writes = []) (hgo : ∀ f ∈ s.flights, f.req ≠ 25 ∧ f.req ≠ 26) :
    s.beginLeave = (s.leavingBy (s.now + 2400)).unpaired := by
  have hnone : (s.flights.any fun f => f.req == 25 || f.req == 26) = false := by
    rw [List.any_eq_false]
    intro f hf
    simp [(hgo f hf).1, (hgo f hf).2]
  show (s.leavingBy (s.now + 2400)).mirLeft = _
  have hleave : (s.leavingBy (s.now + 2400)).mir.leave = some (s.now + 2400) := rfl
  have hkept : (s.leavingBy (s.now + 2400)).mir.writes = s.mir.writes ∧ (s.leavingBy (s.now + 2400)).flights = s.flights := ⟨rfl, rfl⟩
  unfold State.mirLeft
  rw [hleave]
  refine onlyIf_pos ?_ _ _
  rw [hkept.1, hkept.2, hwrites, hnone]
  simp

theorem unpair_shows (hwrites : s.mir.writes = []) (hgo : ∀ f ∈ s.flights, f.req ≠ 25 ∧ f.req ≠ 26) : let t := s.downSaid.beginLeave
    t.rd F.MIR_PAIR.STATE = 0 ∧ (∀ w, w < 16 → t.winState w = 0) ∧ t.mirUp 0 = false ∧ t.mirUp 1 = false ∧ t.mem = s.mem ∧ t.plots = s.plots := by
  have hsaid := downSaid_frame s
  have hflights : s.downSaid.flights = s.flights := hsaid.part .flights
  rw [beginLeave_idle ((writes_downSaid s).trans hwrites) (by rwa [hflights])]
  obtain ⟨hst, hwins, -, hup0, hup1, hmem, hplots⟩ := unpaired_shows (s.downSaid.leavingBy (s.downSaid.now + 2400))
  exact ⟨hst, hwins, hup0, hup1, hmem.trans (hsaid.part .mem), hplots.trans (hsaid.part .plots)⟩

/-- The parts and registers that an adoption of the partner's control state can change. -/
def adoptParts : List Part := [.regs, .recs, .recTick, .recLast, .sec, .auditQ]
def adoptRegs : List RegName := [.RAS_RECHEAD, .RAS_RECLOST]

theorem newKey_frame (s : State) (o : Origin) (i t : Nat) (key : BitVec 512) : Frame [.sec, .auditQ] [] s (s.newKey o i t key) := setSlot_frame s o i _

theorem adoptKey_frame (s : State) (slot owner : Nat) (w : BitVec 576) : Frame adoptParts adoptRegs s (s.adoptKey slot owner w) := by
  have hs := Frame.refl adoptParts adoptRegs s
  unfold State.adoptKey
  generalize s.mapTenant owner = m
  generalize kwUnwrap s.wrapKey (leBytes w 72) = o
  generalize s.slotFor = free
  cases m with
  | none => exact hs
  | some t =>
    cases o with
    | none => exact hs.record
    | some pair =>
      dsimp only
      generalize free t = n
      cases n with
      | none => exact hs.record
      | some i => exact Frame.ite hs.record (hs.after (newKey_frame s _ _ _ _))

theorem adoptHead_frame (s : State) : Frame [.auditQ] [] s s.adoptHead := by
  unfold State.adoptHead
  split
  · exact Frame.refl _ _ s
  · exact (Frame.refl _ _ s).audit.foldl fun u i => (Frame.refl _ _ u).audit

/-- The partner's keys are adopted. -/
def State.adoptKeys (s : State) : State := if s.mirVer < 2 then s else s.mir.image.keys.foldl (fun (s : State) e => match e.2 with
  | none => s
  | some k => [k.half0, k.half1].foldl (fun (s : State) h => match h with
      | some w => s.adoptKey e.1 k.owner w
      | none => s) s) s

theorem adoptKeys_frame (s : State) : Frame adoptParts adoptRegs s s.adoptKeys := by
  unfold State.adoptKeys
  refine Frame.ite (Frame.refl _ _ s) ((Frame.refl _ _ s).foldl fun u e => ?_)
  split
  · exact Frame.refl _ _ u
  · refine (Frame.refl _ _ u).foldl fun v h => ?_
    split
    · exact adoptKey_frame v _ _ _
    · exact Frame.refl _ _ v

/-- The pair is left by TAKEOVER. -/
def State.takenOver (s : State) : State := ((s.wr F.MIR_PAIR.STATE 0).modMir fun x => { x with ems := 0, tx := [] }).syncDegraded

/-- The partner's control state is adopted. -/
def State.adopted (s : State) : State := ((s.pairAsked 3).wr F.MIR_PAIR.RESULT 0).adoptHead.adoptKeys

theorem exec_takeover (h : s.pfHeld = false) (hst : s.rd F.MIR_PAIR.STATE = 3) : exec .takeover s = .next s.adopted.takenOver := by
  obtain ⟨hfull, hboot⟩ := pfHeld_false h
  show execTakeover s = _
  unfold execTakeover
  rw [orWait_open hfull, hst]
  exact congrArg Host.Outcome.next (pairOp_done hboot 3 _)

theorem adopted_rest (s : State) : Frame adoptParts adoptRegs ((s.pairAsked 3).wr F.MIR_PAIR.RESULT 0) s.adopted :=
  (adoptHead_frame _).mono.after (adoptKeys_frame _)

theorem takenOver_frame (s : State) : Frame [.regs, .mir] [.MIR_PAIR, .GLOBAL_ATTN_PENDING] s s.takenOver :=
  (Frame.refl _ _ s).wr.modMir.after (syncDegraded_frame _)

theorem takeover_shows (s : State) : s.adopted.takenOver.rd F.MIR_PAIR.STATE = 0 ∧ s.adopted.takenOver.rd F.MIR_PAIR.RESULT = 0 ∧
    s.adopted.takenOver.mir.ems = 0 ∧ s.adopted.takenOver.mem = s.mem ∧ s.adopted.takenOver.plots = s.plots := by
  have hasked : Frame (.mir :: adoptParts) (.MIR_PAIR :: .GLOBAL_ATTN_PENDING :: adoptRegs) s ((s.pairAsked 3).wr F.MIR_PAIR.RESULT 0) :=
    (pairAsked_frame s 3).mono.wr
  have hall := (hasked.after (adopted_rest s)).after (takenOver_frame _)
  have hregs (u : State) (f : Fld) (hf : f.reg ≠ .GLOBAL_ATTN_PENDING) : u.takenOver.rd f = (u.wr F.MIR_PAIR.STATE 0).rd f :=
    (syncDegraded_frame _).rd 0 0 (by simpa using hf)
  refine ⟨?_, ?_, rfl, hall.part .mem, hall.part .plots⟩
  · rw [hregs _ _ (by decide), rd_wr_same (by decide)]
    rfl
  · rw [hregs _ _ (by decide), rd_wr_apart (by decide) (by decide), (adopted_rest s).rd (f := F.MIR_PAIR.RESULT) 0 0, rd_wr_same (by decide)]
    rfl

/-! ### Forming (R753 to R755) -/

/-- STATE reads PAIRED. -/
def State.pairShown (s : State) : State :=
  ((s.wr F.MIR_PAIR.STATE 2).wr F.MIR_PAIR.RESULT 0).wr F.MIR_PAIR.VER (s.rd F.GLOBAL_PROTO.MIRROR_PROTO)

/-- The mirror's own state as a pair forms. -/
def State.pairStarted (s : State) (ems : BitVec 384) (now : Nat) : State :=
  { s with
    free := s.free + 1
    mir := { s.mir with
      ems := ems, tx := trafficKeys ems s.lowerDigest, frames := [], stateTx := 0, stateRx := 0, early := [], sent := [], probes := [],
      heard := now, probeAt := now, heartAt := now, back := none, leave := none, failed := none, image := MirImage.blank
      writes := s.mir.writes.map fun q => if q.st == .sent then { q with st := .queued } else q } }

/-- The ports start. -/
def State.pairPorts (s : State) : State := s.mir.link.foldl (fun (s : State) p => s.mirStart p) s

/-- The pair has formed. -/
def State.pairMade (s : State) : State := ((s.pairShown.pairStarted (Config.pairSecret s.free) s.now).pairPorts.resumeWins).syncDegraded.mirPump

theorem exec_pairFormed (hst : s.rd F.MIR_PAIR.STATE = 1) (hup : s.secUp = true) (hlink : s.mir.link ≠ []) :
    exec (.pairFormed true s.peerDigest) s = .next s.pairMade := by
  have hopen : (!(s.rd F.MIR_PAIR.STATE == 1 || (s.rd F.MIR_PAIR.STATE == 2 && s.mir.back.isSome)) || !s.secUp || s.mir.link.isEmpty) = false := by
    simp [hst, hup, hlink]
  show execPairFormed true s.peerDigest s = _
  unfold execPairFormed State.pairMade State.pairStarted
  -- what the keys are is not to be evaluated
  generalize trafficKeys = keys
  generalize State.lowerDigest = lower
  extract_lets st now ems shown _ started linked
  rw [if_neg (by rw [hopen]; exact Bool.false_ne_true), if_neg (by simp)]
  rfl

theorem exec_pairFormed_bad {ok : Bool} {d : BitVec 384} (hst : s.rd F.MIR_PAIR.STATE = 1) (hup : s.secUp = true) (hlink : s.mir.link ≠ [])
    (hbad : ok = false ∨ d ≠ s.peerDigest) : exec (.pairFormed ok d) s = .next (s.unpaired.wr F.MIR_PAIR.RESULT 1) := by
  have hopen : (!(s.rd F.MIR_PAIR.STATE == 1 || (s.rd F.MIR_PAIR.STATE == 2 && s.mir.back.isSome)) || !s.secUp || s.mir.link.isEmpty) = false := by
    simp [hst, hup, hlink]
  show execPairFormed ok d s = _
  unfold execPairFormed
  extract_lets st
  rw [if_neg (by rw [hopen]; exact Bool.false_ne_true), if_pos (by rcases hbad with rfl | hd <;> simp_all)]

theorem keptBut_free_mir (h : s.keptBut t L) (n : Nat) (x : Mir) (m0 : Part.freeCount ∈ L) (m1 : Part.mir ∈ L) :
    s.keptBut { t with free := n, mir := x } L := by
  intro p hp
  have h := h p hp
  cases p
  case freeCount => exact absurd m0 hp
  case mir => exact absurd m1 hp
  all_goals exact h

theorem pairShown_frame (s : State) : Frame [.regs] [.MIR_PAIR] s s.pairShown := (Frame.refl _ _ s).wr.wr.wr

theorem pairShown_shows (s : State) : s.pairShown.rd F.MIR_PAIR.STATE = 2 ∧ s.pairShown.rd F.MIR_PAIR.RESULT = 0 ∧
    s.pairShown.rd F.MIR_PAIR.VER = s.rd F.GLOBAL_PROTO.MIRROR_PROTO % 2 ^ F.MIR_PAIR.VER.len := by
  unfold State.pairShown
  refine ⟨?_, ?_, rd_wr_same (by decide) _⟩
  · rw [rd_wr_apart (by decide) (by decide), rd_wr_apart (by decide) (by decide), rd_wr_same (by decide)]
    rfl
  · rw [rd_wr_apart (by decide) (by decide), rd_wr_same (by decide)]
    rfl

theorem pairStarted_frame (s : State) (ems : BitVec 384) (now : Nat) : Frame [.freeCount, .mir] [] s (s.pairStarted ems now) := by
  unfold State.pairStarted
  exact (Frame.refl _ _ s).update (keptBut_free_mir (keptBut_refl s _) _ _ (by decide) (by decide)) rfl

/-- What follows once the ports have started. -/
theorem pairRun_frame (s : State) : Frame [.regs, .mir, .out] [.MIR_ACT_CTL, .GLOBAL_ATTN_PENDING] s (s.resumeWins.syncDegraded.mirPump) :=
  ((resumeWins_frame s).mono.after (syncDegraded_frame _)).after (mirPump_frame _)

theorem steady_pairRun (s : State) : s.mirSteady (s.resumeWins.syncDegraded.mirPump) :=
  steady_trans (steady_trans (steady_resumeWins s) (steady_of_frame (syncDegraded_frame _))) (steady_of_pumped (mirPump_pumped _))

theorem pairPorts_frame (s : State) : Frame [.regs, .credits, .out, .mir] [.MIR_PORT, .PORT_LINK, .PORT_CAP, .PORT_EFF] s s.pairPorts :=
  mirStarts_frame s _

theorem pairMade_rest (s : State) : Frame [.regs, .credits, .out, .mir, .freeCount] [.MIR_PORT, .PORT_LINK, .PORT_CAP, .PORT_EFF, .MIR_ACT_CTL,
    .GLOBAL_ATTN_PENDING] s.pairShown s.pairMade :=
  ((pairStarted_frame s.pairShown _ _).mono.after (pairPorts_frame _)).after (pairRun_frame _)

theorem link_pairStarted (s : State) (ems : BitVec 384) (now : Nat) : (s.pairStarted ems now).mir.link = s.mir.link ∧
    (s.pairStarted ems now).mir.heard = now ∧ (s.pairStarted ems now).mir.ems = ems := ⟨rfl, rfl, rfl⟩

theorem pairMade_shows (s : State) : s.pairMade.paired = true ∧ s.pairMade.rd F.MIR_PAIR.RESULT = 0 ∧
    s.pairMade.mirVer = s.rd F.GLOBAL_PROTO.MIRROR_PROTO % 2 ^ F.MIR_PAIR.VER.len ∧ s.pairMade.mir.ems = Config.pairSecret s.free ∧
    s.pairMade.mir.heard = s.now ∧ (∀ p ∈ s.mir.link, s.pairMade.mirUp p = true) ∧ s.pairMade.mem = s.mem ∧ s.pairMade.plots = s.plots := by
  have hshown := pairShown_frame s
  have hrest := pairMade_rest s
  have hports := pairPorts_frame (s.pairShown.pairStarted (Config.pairSecret s.free) s.now)
  have hrun := pairRun_frame (s.pairShown.pairStarted (Config.pairSecret s.free) s.now).pairPorts
  have hsteady : (s.pairShown.pairStarted (Config.pairSecret s.free) s.now).mirSteady s.pairMade :=
    steady_trans (steady_mirStarts _ _) (steady_pairRun _)
  obtain ⟨hheard, hems⟩ := hsteady
  obtain ⟨hlink, hnow, hsecret⟩ := link_pairStarted s.pairShown (Config.pairSecret s.free) s.now
  obtain ⟨hst, hresult, hver⟩ := pairShown_shows s
  have hmir : s.pairShown.mir.link = s.mir.link := congrArg Mir.link (hshown.part .mir)
  refine ⟨?_, (hrest.rd (f := F.MIR_PAIR.RESULT) 0 0).trans hresult, (hrest.rd (f := F.MIR_PAIR.VER) 0 0).trans hver, hems.trans hsecret,
    hheard.trans hnow, fun p hp => ?_, (hrest.part .mem).trans (hshown.part .mem), (hrest.part .plots).trans (hshown.part .plots)⟩
  · unfold State.paired
    rw [hrest.rd (f := F.MIR_PAIR.STATE) 0 0, hst]
    rfl
  · refine (up_of_frame hrun p).trans (up_mirStarts ?_ _)
    rwa [hlink, hmir]

/-! ### Losing the partner, and new keys (R754, R776) -/

theorem exec_partnerLoss (hpaired : s.paired = true) (hback : s.mir.back = none)
    (hpast : s.mir.heard + usTicks (s.rd F.MIR_CFG.LOSS_US) < s.now) : exec .partnerLoss s = .next s.mirLost := by
  show execPartnerLoss s = _
  unfold execPartnerLoss
  rw [hback]
  exact congrArg Host.Outcome.next (onlyIf_pos (by simp [hpaired, hpast]) _ _)

theorem exec_partnerLoss_early (hback : s.mir.back = none) (hearly : s.now ≤ s.mir.heard + usTicks (s.rd F.MIR_CFG.LOSS_US)) :
    exec .partnerLoss s = .next s := by
  show execPartnerLoss s = _
  unfold execPartnerLoss
  rw [hback]
  exact congrArg Host.Outcome.next (onlyIf_neg (by simp [Nat.not_lt.2 hearly]) _ _)

/-- New traffic keys are in use. -/
def State.keysNew (s : State) : State :=
  { s.modMir fun x => { x with frames := [], tx := trafficKeys (Config.keyUpdate s.mir.ems s.free) s.lowerDigest } with free := s.free + 1 }

theorem exec_pairKeyUpdate (hpaired : s.paired = true) (hup : s.secUp = true) : exec .pairKeyUpdate s = .next s.keysNew := by
  show execPairKeyUpdate s = _
  exact congrArg Host.Outcome.next (onlyIf_pos (by rw [hpaired, hup]; rfl) _ _)

theorem mir_keysNew (s : State) : s.keysNew.mir =
    { s.mir with
      frames := [], tx := trafficKeys (Config.keyUpdate s.mir.ems s.free) s.lowerDigest } := by
  unfold State.keysNew State.modMir
  generalize trafficKeys = keys
  rfl

theorem keysNew_kept (s : State) : s.keptBut s.keysNew [.mir, .freeCount] := by
  unfold State.keysNew State.modMir
  exact keptBut_free (keptBut_mir (keptBut_refl s _) _ (by decide)) _ (by decide)

/-! ### Control messages (R758, R774 to R777) -/

/-- The length of a control message's body. -/
def State.bodyLen (s : State) (p : Nat) : Nat := (Config.controlLen (2 * tget 0 s.mir.lseq p + p)).toNat

/-- A control message leaves on a port that is up. -/
theorem out_control {m : MirMsg} (hup : s.mirUp p = true) (hm : m = .heart ∨ (∃ n, m = .probe n) ∨ ∃ a b c, m = .probeReply a b c) :
    (s.sendFrame p m).out = s.out ++ [.frame p (s.controlPrefix p (s.bodyLen p)), .mirror p m] ∧
      (s.sendFrame p m).mir.lseq = tset 0 s.mir.lseq p (tget 0 s.mir.lseq p + 1) := by
  have hlist (l : List Output) (a b : Output) : l ++ [a] ++ [b] = l ++ [a, b] := by rw [List.append_assoc]; rfl
  unfold State.sendFrame
  rw [onlyIf_pos hup]
  rcases hm with rfl | ⟨n, rfl⟩ | ⟨a, b, c, rfl⟩ <;> exact ⟨hlist _ _ _, rfl⟩

/-- A control message leaves on each of the two ports. -/
theorem out_controls {m : MirMsg} (hup0 : s.mirUp 0 = true) (hup1 : s.mirUp 1 = true) (hm : m = .heart ∨ ∃ n, m = .probe n) :
    ∃ a b, ((s.sendFrame 0 m).sendFrame 1 m).out =
      s.out ++ [.frame 0 (s.controlPrefix 0 a), .mirror 0 m, .frame 1 (s.controlPrefix 1 b), .mirror 1 m] := by
  have hm' : m = .heart ∨ (∃ n, m = .probe n) ∨ ∃ a b c, m = .probeReply a b c := hm.imp_right .inl
  have hframe := sendFrame_frame s 0 m
  obtain ⟨hout0, hlseq⟩ := out_control hup0 hm'
  obtain ⟨hout1, -⟩ := out_control ((up_of_frame hframe 1).trans hup1) hm'
  have hprefix : (s.sendFrame 0 m).controlPrefix 1 = s.controlPrefix 1 := by
    have hver : (s.sendFrame 0 m).mirVer = s.mirVer := hframe.rd (f := F.MIR_PAIR.VER) 0 0
    unfold State.controlPrefix
    rw [hver, hlseq, tget_tset_other _ _ _ _ (by decide)]
  refine ⟨s.bodyLen 0, (s.sendFrame 0 m).bodyLen 1, ?_⟩
  rw [hout1, hout0, hprefix, List.append_assoc]
  rfl

theorem exec_probeSend (hpaired : s.paired = true) (hdue : s.mir.probeAt + 1200000 ≤ s.now) : exec .probeSend s =
    .next (((s.sendFrame 0 (.probe s.now)).sendFrame 1 (.probe s.now)).modMir fun x => { x with probeAt := s.now }) := by
  show execProbeSend s = _
  exact congrArg Host.Outcome.next (onlyIf_pos (by simp [hpaired, hdue]) _ _)

theorem exec_heartSend (hpaired : s.paired = true) (hdue : s.mir.heartAt + 120000 ≤ s.now) : exec .heartSend s =
    .next (((s.sendFrame 0 .heart).sendFrame 1 .heart).modMir fun x => { x with heartAt := s.now }) := by
  show execHeartSend s = _
  exact congrArg Host.Outcome.next (onlyIf_pos (by simp [hpaired, hdue]) _ _)

theorem controls_frame (s : State) (m : MirMsg) (g : Mir → Mir) : Frame [.out, .mir] [] s (((s.sendFrame 0 m).sendFrame 1 m).modMir g) :=
  ((sendFrame_frame s 0 m).trans (sendFrame_frame _ 1 m)).modMir

end
section
variable {L : List Part} {R : List RegName} {s t u : State} {port : Fin 2}

theorem exec_heart_down (h : s.mirUp port = false) : exec (.heart port) s = .next s := congrArg Host.Outcome.next (if_neg (by rw [h]; exact Bool.false_ne_true))

theorem exec_heart (h : s.mirUp port = true) : exec (.heart port) s = .next s.heard := congrArg Host.Outcome.next (onFrame_up h id)

/-- The effective version is settled. -/
def State.verAgreed (s : State) (p v : Nat) : State := (s.wr F.MIR_PAIR.VER v).auditMirror p 0x3800000 (s.reg .MIR_PAIR).toNat
  ((s.wr F.MIR_PAIR.VER v).reg .MIR_PAIR).toNat

/-- The ports that are up take the features of the version. -/
def State.capsAgreed (s : State) (v : Nat) : State := (List.range 2).foldl (fun s p => onlyIf (s.mirUp p)
  ((s.setReg .PORT_CAP (25 + p) 0 (ownDesc (25 + p) v)).setEff (25 + p) (ownDesc (25 + p) v)) s) s

/-- The partner's width of a port shows. -/
def State.widthShown (s : State) (port : Fin 2) (width : Fin 8) : State := (s.wr F.MIR_PORT.PWIDTH width.val port).auditMirror port
  (0x3800010 + 4 * port.val) (s.reg .MIR_PORT port).toNat ((s.wr F.MIR_PORT.PWIDTH width.val port).reg .MIR_PORT port).toNat

/-- The hub is asked for the narrower of two widths. -/
def State.widthAsked (s : State) (port : Fin 2) (width : Fin 8) : State := onlyIf (width.val != s.rd F.MIR_PORT.WIDTH port)
  (s.send (.hub (.width (25 + port.val) (min (s.rd F.MIR_PORT.WIDTH port) width.val)))) s

/-- A HELLO is taken, but for what its widths lead to. -/
def State.helloTaken (s : State) (port : Fin 2) (v : Nat) (width : Fin 8) : State :=
  (((s.heard.verAgreed port v).capsAgreed v).widthShown port width).widthAsked port width

theorem exec_hello (h : s.mirUp port = true) (proto : Byte) (width : Fin 8) : exec (.hello port proto width) s =
    .next ((s.helloTaken port (min (s.rd F.GLOBAL_PROTO.MIRROR_PROTO) proto.toNat) width).mirWidths.syncDegraded.mirPump) :=
  congrArg Host.Outcome.next (onFrame_up h _)

theorem verAgreed_frame (s : State) (p v : Nat) : Frame [.regs, .auditQ] [.MIR_PAIR] s (s.verAgreed p v) :=
  (Frame.refl _ _ s).wr.after (auditMirror_frame _ _ _ _ _)

theorem capsAgreed_frame (s : State) (v : Nat) : Frame [.regs] [.PORT_CAP, .PORT_EFF] s (s.capsAgreed v) :=
  (Frame.refl _ _ s).foldl fun u p => Frame.onlyIf ((Frame.refl _ _ u).setReg.after (setEff_frame _ _ _)) (Frame.refl _ _ u)

theorem widthShown_frame (s : State) (port : Fin 2) (width : Fin 8) : Frame [.regs, .auditQ] [.MIR_PORT] s (s.widthShown port width) :=
  (Frame.refl _ _ s).wr.after (auditMirror_frame _ _ _ _ _)

theorem widthAsked_frame (s : State) (port : Fin 2) (width : Fin 8) : Frame [.out] [] s (s.widthAsked port width) :=
  Frame.onlyIf (Frame.refl _ _ s).send (Frame.refl _ _ s)

/-- The parts and registers of a HELLO beside the mirror's own state. -/
def helloParts : List Part := [.regs, .auditQ, .out]

theorem helloTaken_rest (s : State) (port : Fin 2) (v : Nat) (width : Fin 8) : Frame helloParts [.PORT_CAP, .PORT_EFF, .MIR_PORT]
    (s.heard.verAgreed port v) (s.helloTaken port v width) :=
  ((capsAgreed_frame (s.heard.verAgreed port v) v).mono.after (widthShown_frame _ port width)).after (widthAsked_frame _ port width)

theorem widths_frame (s : State) : Frame [.regs, .mir, .out] [.MIR_ACT_CTL, .GLOBAL_ATTN_PENDING] s (s.mirWidths.syncDegraded.mirPump) :=
  ((mirWidths_frame s).mono.after (syncDegraded_frame _)).after (mirPump_frame _)

theorem hello_shows (s : State) (port : Fin 2) (v : Nat) (width : Fin 8) : let t := (s.helloTaken port v width).mirWidths.syncDegraded.mirPump
    t.mir.heard = s.now ∧ t.mirVer = v % 2 ^ F.MIR_PAIR.VER.len ∧ t.rd F.MIR_PORT.PWIDTH port = width.val % 2 ^ F.MIR_PORT.PWIDTH.len ∧
      t.mem = s.mem ∧ t.plots = s.plots := by
  have hver := verAgreed_frame s.heard port v
  have hrest := helloTaken_rest s port v width
  have hwidths := widths_frame (s.helloTaken port v width)
  have hsteady : s.heard.mirSteady ((s.helloTaken port v width).mirWidths.syncDegraded.mirPump) :=
    steady_trans (steady_trans (steady_trans (steady_trans (steady_of_frame hver) (steady_of_frame hrest)) (steady_mirWidths _))
      (steady_of_frame (syncDegraded_frame _))) (steady_of_pumped (mirPump_pumped _))
  have hshown : ((s.heard.verAgreed port v).capsAgreed v |>.widthShown port width).rd F.MIR_PORT.PWIDTH port = width.val % 2 ^ F.MIR_PORT.PWIDTH.len :=
    ((auditMirror_frame _ _ _ _ _).rd port 0).trans (rd_wr_same (by decide) _)
  have hsettled : (s.heard.verAgreed port v).rd F.MIR_PAIR.VER = v % 2 ^ F.MIR_PAIR.VER.len :=
    ((auditMirror_frame _ _ _ _ _).rd 0 0).trans (rd_wr_same (by decide) _)
  have hall : Frame (.mir :: helloParts) [.MIR_PAIR, .PORT_CAP, .PORT_EFF, .MIR_PORT, .MIR_ACT_CTL, .GLOBAL_ATTN_PENDING] s
      ((s.helloTaken port v width).mirWidths.syncDegraded.mirPump) := (((heard_frame s).mono.after hver).after hrest).after hwidths
  refine ⟨hsteady.1, (hwidths.rd (f := F.MIR_PAIR.VER) 0 0).trans ((hrest.rd (f := F.MIR_PAIR.VER) 0 0).trans hsettled), ?_, hall.part .mem,
    hall.part .plots⟩
  exact (hwidths.rd (f := F.MIR_PORT.PWIDTH) port 0).trans (((widthAsked_frame _ port width).rd (f := F.MIR_PORT.PWIDTH) port 0).trans hshown)

theorem exec_down_off (h : s.mirUp port = true) : exec (.down port 1) s = .next s.heard.mirLost := congrArg Host.Outcome.next (onFrame_up h _)

/-- The windows pause until a partner in warm reset is back. -/
def State.awaits (s : State) : State := s.pauseWins.modMir fun x => { x with back := some (s.now + 17880000 + usTicks (s.rd F.MIR_CFG.LOSS_US)) }

theorem exec_down_reset (h : s.mirUp port = true) : exec (.down port 0) s = .next s.heard.awaits.portsStop := congrArg Host.Outcome.next (onFrame_up h _)

theorem down_reset_shows (s : State) : let t := s.heard.awaits.portsStop
    (∀ w, w < 16 → s.winState w = 1 ∨ s.winState w = 2 → t.winState w = 3) ∧ t.mir.back ≠ none ∧ t.mirUp 0 = false ∧ t.mirUp 1 = false ∧
      t.rd F.MIR_PAIR.STATE = s.rd F.MIR_PAIR.STATE := by
  have hstop := portsStop_frame s.heard.awaits
  have hpause := pauseWins_frame s.heard
  have hawaits : Frame [.mir] [] s.heard.pauseWins s.heard.awaits := (Frame.refl _ _ _).modMir
  have hback (u : State) : u.awaits.mir.back ≠ none := Option.some_ne_none _
  have hmir : s.heard.awaits.portsStop.mir = s.heard.awaits.mir := hstop.part .mir
  refine ⟨fun w hw hserves => ?_, by rw [hmir]; exact hback _, up_portsStop _ (by decide), up_portsStop _ (by decide), ?_⟩
  · rw [winState_of_frame hstop, winState_of_frame hawaits]
    exact winState_pauseWins hw (by rwa [winState_of_frame (heard_frame s)])
  · rw [hstop.rd (f := F.MIR_PAIR.STATE) 0 0, hawaits.rd (f := F.MIR_PAIR.STATE) 0 0, hpause.rd (f := F.MIR_PAIR.STATE) 0 0,
      (heard_frame s).rd (f := F.MIR_PAIR.STATE) 0 0]

theorem exec_probe (h : s.mirUp port = true) (t1 : W64) :
    exec (.probe port t1) s = .next (s.heard.sendFrame port (.probeReply t1.toNat s.now s.now)) := congrArg Host.Outcome.next (onFrame_up h _)

/-- The offset and delay that a probe's reply shows. -/
def State.probeSeen (s : State) (t1 t2 t3 : W64) : Int × Int :=
  (((t2.toNat : Int) - t1.toNat) + ((t3.toNat : Int) - s.now), ((s.now : Int) - t1.toNat) - ((t3.toNat : Int) - t2.toNat))

/-- The offset and its error are set. -/
def State.offsetSet (s : State) (m : Int × Int) : State :=
  (s.setReg .MIR_TSOFF 0 0 (BitVec.ofInt 64 (Int.tdiv m.1 2))).setReg .MIR_TSERR 0 0 (BitVec.ofInt 64 ((m.2 + 1) / 2))

/-- A probe's reply joins the last 16. -/
def State.probed (s : State) (m : Int × Int) : State := s.modMir fun x => { x with probes := (x.probes ++ [m]).drop (x.probes.length - 15) }

theorem exec_probeReply (h : s.mirUp port = true) (hfirst : s.mir.probes = []) (t1 t2 t3 : W64) :
    exec (.probeReply port t1 t2 t3) s = .next ((s.heard.probed (s.probeSeen t1 t2 t3)).offsetSet (s.probeSeen t1 t2 t3)) := by
  have hprobes : (s.heard.probed (s.probeSeen t1 t2 t3)).mir.probes = [s.probeSeen t1 t2 t3] := by
    show (s.mir.probes ++ [s.probeSeen t1 t2 t3]).drop (s.mir.probes.length - 15) = _
    rw [hfirst]
    rfl
  refine congrArg Host.Outcome.next ((onFrame_up h _).trans ?_)
  show (match (s.heard.probed (s.probeSeen t1 t2 t3)).mir.probes with
    | [] => s.heard.probed (s.probeSeen t1 t2 t3)
    | p :: r => (s.heard.probed (s.probeSeen t1 t2 t3)).offsetSet (r.foldl (fun (m : Int × Int) (q : Int × Int) => if q.2 < m.2 then q else m) p)) = _
  rw [hprobes]
  rfl

theorem offset_shows (s : State) (m : Int × Int) : let t := (s.heard.probed m).offsetSet m
    t.reg .MIR_TSOFF = BitVec.ofInt 64 (Int.tdiv m.1 2) ∧ s.keptBut t [.regs, .mir] ∧ s.onlyRegs t [(.MIR_TSOFF, 0, 0), (.MIR_TSERR, 0, 0)] := by
  have hprobed : Frame [.regs, .mir] [.MIR_TSOFF, .MIR_TSERR] s (s.heard.probed m) := (heard_frame s).mono.modMir
  have hnone : Frame [.mir] [] s (s.heard.probed m) := (heard_frame s).modMir
  unfold State.offsetSet
  refine ⟨?_, hprobed.setReg.setReg.kept, onlyRegs_setReg (onlyRegs_setReg (onlyRegs_of_frame (onlyRegs_refl s _) hnone) _ 0 0 _ (by decide))
    _ 0 0 _ (by decide)⟩
  rw [reg_setReg_other (by decide), reg_setReg_same]

end

/-- Settles O28: each command in the states that the spec gives it, and what its steps leave of windows, ports and writes. -/
theorem pairForming : Obligations.PairForming := by
  unfold Obligations.PairForming
  intro s
  refine ⟨fun hheld => ⟨fun hst => ⟨_, exec_pair hheld hst, ?_⟩, fun x hx => ?_, fun hst hwrites hgo => ⟨_, exec_unpair hheld hst, unpair_shows hwrites hgo⟩,
      fun hst => ⟨_, exec_takeover hheld hst, takeover_shows s⟩⟩,
    fun hst hup hlink => ⟨⟨_, exec_pairFormed hst hup hlink, pairMade_shows s⟩, fun ok d hbad => ⟨_, exec_pairFormed_bad hst hup hlink hbad, ?_⟩⟩,
    fun hpaired => ⟨fun hback hpast => ⟨_, exec_partnerLoss hpaired hback hpast, mirLost_shows s⟩,
      fun hback hearly => exec_partnerLoss_early hback hearly, fun hup => ⟨_, exec_pairKeyUpdate hpaired hup, keysNew_kept s, mir_keysNew s⟩,
      fun hup0 hup1 => ⟨fun hdue => ?_, fun hdue => ?_⟩⟩,
    fun port => ⟨exec_heart_down, fun hup => ⟨⟨_, exec_heart hup, rfl, (heard_frame s).kept⟩,
      fun proto width => ⟨_, exec_hello hup proto width, hello_shows s port _ width⟩, ⟨_, exec_down_off hup, ?_⟩,
      ⟨_, exec_down_reset hup, down_reset_shows s⟩, fun t1 => ?_, fun t1 t2 t3 hfirst => ⟨_, exec_probeReply hup hfirst t1 t2 t3, offset_shows s _⟩⟩⟩⟩
  · exact pair_shows hst
  · obtain ⟨op, hexec⟩ := exec_pairOp_bad hheld hx
    exact ⟨_, hexec, pairBad_shows s op⟩
  · obtain ⟨hst0, hwins, hwrites, -⟩ := unpaired_shows s
    have hmir (u : State) : (u.wr F.MIR_PAIR.RESULT 1).mir = u.mir := rfl
    refine ⟨(rd_wr_apart (by decide) (by decide) 1).trans hst0, rd_wr_same (by decide) 1, fun w hw => ?_, by rw [hmir, hwrites]⟩
    exact (rd_wr_other (by decide) 1 w 0).trans (hwins w hw)
  · obtain ⟨a, b, hout⟩ := out_controls hup0 hup1 (.inr ⟨s.now, rfl⟩)
    exact ⟨_, a, b, exec_probeSend hpaired hdue, hout, rfl, (controls_frame s _ _).kept⟩
  · obtain ⟨a, b, hout⟩ := out_controls hup0 hup1 (.inl rfl)
    exact ⟨_, a, b, exec_heartSend hpaired hdue, hout, rfl, (controls_frame s _ _).kept⟩
  · obtain ⟨hst, hwins, -, hup0, hup1, -⟩ := mirLost_shows s.heard
    exact ⟨hst, fun w hw hserves => hwins w hw (by rwa [winState_of_frame (heard_frame s)]), hup0, hup1⟩
  · obtain ⟨hout, -⟩ := out_control (s := s.heard) (p := port.val) (m := .probeReply t1.toNat s.now s.now) ((up_of_frame (heard_frame s) port).trans hup)
      (.inr (.inr ⟨_, _, _, rfl⟩))
    have hframe : Frame [.out, .mir] [] s (s.heard.sendFrame port (.probeReply t1.toNat s.now s.now)) := (heard_frame s).mono.after (sendFrame_frame _ _ _)
    exact ⟨_, _, exec_probe hup t1, hout, hframe.kept⟩

end Sys2Proof.Machine
end

section
/-! The boots and resets (chapters "Boot and firmware" and "Resets"): what the phases of a boot, a quiescing block and a warm reset leave changed. -/

set_option Elab.async false

namespace Sys2Proof.Machine
section
variable {L : List Part} {R : List RegName} {s t u : State} {p k i j : Nat}

/-! ### BOOT_PHASE_FAIL (R703) -/

/-- The RESULT of the phase that fails. -/
def failCode (phase : Fin 16) (err : Option (Fin 9)) : Nat := match err with | some e => e.val + 1 | none => 0x20 + phase.val

theorem failCode_lt (phase : Fin 16) (err : Option (Fin 9)) : failCode phase err < 2 ^ F.FW_BOOT.ERR.len := by
  show failCode phase err < 256
  cases err with
  | none => simp only [failCode]; omega
  | some e => simp only [failCode]; omega

def State.phaseFailed (s : State) (phase : Fin 16) (err : Option (Fin 9)) : State :=
  (s.wr F.FW_BOOT.ERR (failCode phase err)).modFw fun f => { f with failed := true }

theorem exec_bootPhaseFail {phase : Fin 16} (err : Option (Fin 9)) (hboot : s.inBoot = true) (hrun : s.fw.failed = false)
    (hstage : s.rd F.FW_BOOT.STAGE = phase.val) : exec (.bootPhaseFail phase err) s = .next (s.phaseFailed phase err) := by
  show execBootPhaseFail phase err s = _
  unfold execBootPhaseFail
  exact congrArg Host.Outcome.next (onlyIf_pos (by simp [hboot, hrun, hstage]) _ _)

theorem phaseFailed_frame (s : State) (phase : Fin 16) (err : Option (Fin 9)) : Frame [.regs, .fw] [.FW_BOOT] s (s.phaseFailed phase err) :=
  (Frame.refl _ _ s).wr.modFw

/-! ### SCH_RELEASE (R146, R152, R536) -/

theorem grantCredits_frame (s : State) (p : Nat) : Frame [.credits] [] s (s.grantCredits p) :=
  (Frame.refl _ _ s).foldl fun u _ => (Frame.refl _ _ u).setCredit

/-- The boot ends: its last phase and the time it took. -/
def State.bootTimed (s : State) : State :=
  (s.wr F.FW_BOOT.STAGE (if s.bit F.FW_BOOT.WARM then 6 else 9)).wr F.FW_BOOT.TIME_100US ((s.now - s.fw.bootAt) / 120000)

/-- The interface version is that of SCH's image. -/
def State.schVersion (s : State) (img : FwImg) : State :=
  (s.wr F.GLOBAL_IFVER.MAJOR (img.ifver / 256)).wr F.GLOBAL_IFVER.MINOR (img.ifver % 256)

/-- The block is in HOLD, and no emergency counts from before. -/
def State.heldBlock (s : State) : State :=
  let now := s.now
  (s.wr F.GLOBAL_STATE.STATE 1).modFw fun f => { f with clear := now }

/-- SCH runs from the end of the boot, with the interface version of its image. -/
def State.schRuns (s : State) : State := ((s.bootTimed.runCore 2).schVersion (tget FwImg.blank s.fw.imgs 2)).heldBlock

/-- The ports whose link is up are granted credits, and the Lanterns' ports come up. -/
def State.portsGranted (s : State) : State :=
  let s := (List.range 27).foldl (fun s p => onlyIf (s.bit F.PORT_LINK.UP p) (s.grantCredits p) s) s
  (List.range 12).foldl (fun s j => if s.bit F.PORT_LINK.UP (27 + j) then s.grantCredits (27 + j)
    else s.linkUp (27 + j) (ownDesc (27 + j) 0)) s

theorem exec_schRelease (hboot : s.inBoot = true) (hrun : s.fw.failed = false) (hquiet : s.fw.quiet = false)
    (hstage : s.rd F.FW_BOOT.STAGE = (if s.bit F.FW_BOOT.WARM then 5 else 8)) (hsweep : s.bit F.RAS_MGCTL.BUSY = false) :
    exec .schRelease s = .next s.schRuns.portsGranted := by
  show execSchRelease s = _
  unfold execSchRelease
  exact congrArg Host.Outcome.next (onlyIf_pos (by simp [hboot, hrun, hquiet, hstage, hsweep]) _ _)

theorem portsGranted_frame (s : State) : Frame [.regs, .credits] [.PORT_LINK, .PORT_CAP, .PORT_EFF] s s.portsGranted := by
  unfold State.portsGranted
  extract_lets granted
  have hgranted : Frame [.regs, .credits] [.PORT_LINK, .PORT_CAP, .PORT_EFF] s granted :=
    (Frame.refl _ _ s).foldl fun u p => Frame.onlyIf (grantCredits_frame u p).mono (Frame.refl _ _ u)
  exact hgranted.foldl fun u j => Frame.ite (grantCredits_frame u _).mono (linkUp_frame u _ _).mono

theorem bootTimed_frame (s : State) : Frame [.regs] [.FW_BOOT] s s.bootTimed := (Frame.refl _ _ s).wr.wr

theorem schVersion_frame (s : State) (img : FwImg) : Frame [.regs] [.GLOBAL_IFVER] s (s.schVersion img) := (Frame.refl _ _ s).wr.wr

theorem heldBlock_frame (s : State) : Frame [.regs, .fw] [.GLOBAL_STATE] s s.heldBlock := by
  unfold State.heldBlock
  exact (Frame.refl _ _ s).wr.modFw

theorem schRuns_frame (s : State) : Frame [.regs, .fw] [.FW_BOOT, .FW_STATE, .GLOBAL_IFVER, .GLOBAL_STATE] s s.schRuns :=
  (((bootTimed_frame s).mono.after (runCore_frame _ 2)).after (schVersion_frame _ _)).after (heldBlock_frame _)

/-- What the end of a boot leaves. -/
theorem schRuns_shows (s : State) : s.schRuns.inHold = true ∧ s.schRuns.coreSt 2 = coreRunning ∧
    s.schRuns.rd F.FW_BOOT.STAGE = (if s.bit F.FW_BOOT.WARM then 6 else 9) ∧
    s.schRuns.rd F.GLOBAL_IFVER.MAJOR = (tget FwImg.blank s.fw.imgs 2).ifver / 256 % 2 ^ F.GLOBAL_IFVER.MAJOR.len := by
  have hversion := schVersion_frame (s.bootTimed.runCore 2) (tget FwImg.blank s.fw.imgs 2)
  have hheld := heldBlock_frame ((s.bootTimed.runCore 2).schVersion (tget FwImg.blank s.fw.imgs 2))
  refine ⟨?_, ?_, ?_, ?_⟩
  · have hstate (u : State) : u.heldBlock.rd F.GLOBAL_STATE.STATE = 1 := rd_wr_same (by decide) 1
    exact beq_iff_eq.2 (hstate _)
  · exact (coreSt_of_frame hheld 2).trans ((coreSt_of_frame hversion 2).trans (coreSt_runCore s.bootTimed 2))
  · refine (hheld.rd 0 0).trans ((hversion.rd 0 0).trans (((runCore_frame s.bootTimed 2).rd 0 0).trans ?_))
    unfold State.bootTimed
    rw [rd_wr_apart (by decide) (by decide), rd_wr_same (by decide)]
    split <;> rfl
  · refine (hheld.rd 0 0).trans ?_
    unfold State.schVersion
    rw [rd_wr_apart (by decide) (by decide), rd_wr_same (by decide)]

theorem schRelease_shows (s : State) : s.schRuns.portsGranted.inHold = true ∧ s.schRuns.portsGranted.coreSt 2 = coreRunning ∧
    s.schRuns.portsGranted.rd F.FW_BOOT.STAGE = (if s.bit F.FW_BOOT.WARM then 6 else 9) ∧
    s.schRuns.portsGranted.rd F.GLOBAL_IFVER.MAJOR = (tget FwImg.blank s.fw.imgs 2).ifver / 256 % 2 ^ F.GLOBAL_IFVER.MAJOR.len ∧
    s.schRuns.portsGranted.mem = s.mem ∧ s.schRuns.portsGranted.plots = s.plots ∧ s.schRuns.portsGranted.flights = s.flights := by
  obtain ⟨hhold, hsch, hstage, hver⟩ := schRuns_shows s
  have hports := portsGranted_frame s.schRuns
  have hruns := schRuns_frame s
  exact ⟨(congrArg (· == 1) (hports.rd 0 0)).trans hhold, (coreSt_of_frame hports 2).trans hsch, (hports.rd 0 0).trans hstage,
    (hports.rd 0 0).trans hver, (hports.part .mem).trans (hruns.part .mem), (hports.part .plots).trans (hruns.part .plots),
    (hports.part .flights).trans (hruns.part .flights)⟩

/-! ### Quiescing (R123, R687) -/

/-- The link of a port is up. -/
abbrev State.linkOn (s : State) (p : Nat) : Bool := s.bit F.PORT_LINK.UP p

theorem linkDown_rest (s : State) (p : Nat) :
    Frame [.regs, .flights, .credits, .locks, .holds] [.PORT_LINKCNT] (s.wr F.PORT_LINK.UP 0 p) (s.linkDown p) := by
  have hcount : Frame [.regs, .flights, .credits, .locks, .holds] [.PORT_LINKCNT] (s.wr F.PORT_LINK.UP 0 p)
      ((s.wr F.PORT_LINK.UP 0 p).incRc F.PORT_LINKCNT.DOWNS p) := (Frame.refl _ _ _).incRc
  exact (hcount.flights.foldl fun u k => (Frame.refl _ _ u).setCredit).holds_locks

theorem link_linkDown_same (s : State) (p : Nat) : (s.linkDown p).linkOn p = false :=
  ((linkDown_rest s p).bit (f := F.PORT_LINK.UP) p 0).trans (bit_wr_same (by decide) rfl 0)

theorem link_linkDown_other (s : State) {q : Nat} (hp : p < 2 ^ 14) (hq : q < 2 ^ 14) (h : q ≠ p) : (s.linkDown p).linkOn q = s.linkOn q :=
  ((linkDown_rest s p).bit (f := F.PORT_LINK.UP) q 0).trans (congrArg (· == 1) (rd_wr_elem hp hq h 0 0))

/-- The parts and registers that ports going down, and the messages to the partner, can change. -/
def quietParts : List Part := [.regs, .flights, .credits, .locks, .holds, .out, .mir]
def quietRegs : List RegName := [.MIR_PORT, .PORT_LINK, .PORT_LINKCNT, .GLOBAL_ATTN_PENDING, .MIR_ACT_CTL]

theorem quiescePort_frame (s : State) (p : Nat) : Frame quietParts quietRegs s (s.quiescePort p) :=
  Frame.onlyIf (Frame.ite (mirStop_frame s _).mono (linkDown_frame s p).mono) (Frame.refl _ _ s)

theorem mirLeave_frame (s : State) (cause : Nat) : Frame quietParts quietRegs s (s.mirLeave cause) := by
  unfold State.mirLeave
  extract_lets told diverged
  have htold : Frame quietParts quietRegs s told := (Frame.refl _ _ s).foldl fun u p => (sendFrame_frame u p _).mono
  have hdiverged : Frame quietParts quietRegs s diverged := htold.foldl fun u w => (diverge_frame u w).mono
  exact Frame.ite (Frame.refl _ _ s) hdiverged.modMir

/-- No link of a port other than the mirror's comes up. -/
theorem link_mirStop (s : State) (n : Nat) (hn : n < 2) (hp : p < 39) (h25 : p ≠ 25) (h26 : p ≠ 26) : (s.mirStop n).linkOn p = s.linkOn p := by
  unfold State.mirStop onlyIf
  split
  · refine ((syncDegraded_frame _).bit (f := F.PORT_LINK.UP) p 0).trans ((link_linkDown_other _ (by omega) (by omega) (by omega)).trans ?_)
    exact (bit_wr_other (by decide) _ _ _).trans (bit_wr_other (by decide) _ _ _)
  · rfl

theorem link_quiescePort_keeps (s : State) {q : Nat} (hp : p < 39) (h25 : p ≠ 25) (h26 : p ≠ 26) (hq : q < 39) (h : s.linkOn p = false) :
    (s.quiescePort q).linkOn p = false := by
  unfold State.quiescePort onlyIf
  split
  next hup =>
    split
    next hmir => rw [link_mirStop s _ (by omega) hp h25 h26, h]
    next hmir =>
      have hne : p ≠ q := by
        rintro rfl
        exact absurd (h.symm.trans hup) (by decide)
      rw [link_linkDown_other s (by omega) (by omega) hne, h]
  next => exact h

theorem link_quiescePort_same (s : State) (h25 : p ≠ 25) (h26 : p ≠ 26) : (s.quiescePort p).linkOn p = false := by
  unfold State.quiescePort onlyIf
  split
  next => rw [if_neg (by omega), link_linkDown_same]
  next hdown => simpa using hdown

/-- Every port is quiesced. -/
def State.portsQuiet (s : State) : State := (List.range 39).foldl (fun s p => s.quiescePort p) s

theorem portsQuiet_frame (s : State) : Frame quietParts quietRegs s s.portsQuiet := (Frame.refl _ _ s).foldl fun u p => quiescePort_frame u p

theorem link_portsQuiet (s : State) (hp : p < 39) (h25 : p ≠ 25) (h26 : p ≠ 26) : s.portsQuiet.linkOn p = false := by
  have hmem : p ∈ List.range 39 := List.mem_range.2 hp
  unfold State.portsQuiet
  obtain ⟨l, l', hl⟩ := List.append_of_mem hmem
  have hafter : ∀ q ∈ l', q < 39 := fun q hq => List.mem_range.1 (hl ▸ List.mem_append_right l (List.mem_cons_of_mem p hq))
  rw [hl, List.foldl_append, List.foldl_cons]
  exact foldl_inv (fun u => u.linkOn p = false) _ _ (fun u q hq hu => link_quiescePort_keeps u hp h25 h26 (hafter q hq) hu) _
    (link_quiescePort_same _ h25 h26)

/-- The block is quiet: the jobs are to abort, the history is committed and the links are down. -/
def State.quietened (s : State) : State := ((s.abortJobs fun _ => true).commitHist).modFw fun f => { f with quiet := true }

theorem quiesce_eq (s : State) (cause : Nat) : s.quiesce cause = ((s.mirLeave cause).portsQuiet.quietened).syncDegraded := rfl

theorem quietened_frame (s : State) : Frame [.lnts, .histFlash, .fw] [] s s.quietened := (abortJobs_frame s _).mono.commitHist.modFw

theorem hours_of_frame (h : Frame L R s t) (hhist : Part.hist ∉ L := by decide) (hclk : Part.clk ∉ L := by decide) : t.hours = s.hours := by
  unfold State.hours State.now
  rw [show t.hist = s.hist from h.part .hist hhist, show t.clk = s.clk from h.part .clk hclk]

theorem histFlash_quietened (s : State) : s.quietened.histFlash = { s.hist with hours := s.hours } := by
  have habort := abortJobs_frame s fun _ => true
  have hcommit (u : State) : (u.commitHist.modFw fun f => { f with quiet := true }).histFlash = { u.hist with hours := u.hours } := rfl
  refine (hcommit _).trans ?_
  rw [hours_of_frame habort, show (s.abortJobs fun _ => true).hist = s.hist from habort.part .hist]

theorem exec_warmResetRequest (hboot : s.inBoot = false) (hnone : s.fw.warm = none) (hshut : s.bit F.SNF_STAT.SHUTDOWN = false) :
    exec .warmResetRequest s = .next ((s.quiesce 0).modFw fun f => { f with warm := some s.now }) := by
  show execWarmResetRequest s = _
  unfold execWarmResetRequest
  exact congrArg Host.Outcome.next (onlyIf_pos (by simp [hboot, hnone, hshut]) _ _)

/-- What a quiescing block leaves. -/
theorem quiesce_shows (s : State) (cause : Nat) : (s.quiesce cause).fw.quiet = true ∧
    (s.quiesce cause).histFlash = { s.hist with hours := s.hours } ∧
    (s.quiesce cause).mem = s.mem ∧ (s.quiesce cause).plots = s.plots ∧
    ∀ p, p < 39 → p ≠ 25 → p ≠ 26 → (s.quiesce cause).linkOn p = false := by
  have hports : Frame quietParts quietRegs s (s.mirLeave cause).portsQuiet := (mirLeave_frame s cause).trans (portsQuiet_frame _)
  have hquiet := quietened_frame (s.mirLeave cause).portsQuiet
  have hsync := syncDegraded_frame (s.mirLeave cause).portsQuiet.quietened
  rw [quiesce_eq]
  refine ⟨congrArg Fw.quiet (hsync.part .fw), (hsync.part .histFlash).trans ?_, (hsync.part .mem).trans ((hquiet.part .mem).trans (hports.part .mem)),
    (hsync.part .plots).trans ((hquiet.part .plots).trans (hports.part .plots)), fun p hp h25 h26 => (hsync.bit p 0).trans ((hquiet.bit p 0).trans
      (link_portsQuiet _ hp h25 h26))⟩
  refine (histFlash_quietened _).trans ?_
  rw [hours_of_frame hports, show (s.mirLeave cause).portsQuiet.hist = s.hist from hports.part .hist]

end
end Sys2Proof.Machine
end

section
/-! A warm reset: what its boot leaves of requests, sessions, messages and boot registers (R276, R487, R536, R564, R689, R702). -/

set_option Elab.async false

namespace Sys2Proof.Machine
section
variable {L : List Part} {R : List RegName} {s₀ s t u : State} {p k i j : Nat}

/-! ### What the sites' boot keeps -/

/-- From `s` to `t` the queue of commands, the sessions, the reset asked for and the registers of the boot stay; what was sent stays sent,
and where no request was under way none is. -/
structure WarmKept (s t : State) : Prop where
  pending : t.pending = s.pending
  sent : ∀ o ∈ s.out, o ∈ t.out
  sessions : t.sec.sessions = s.sec.sessions
  warm : t.fw.warm = s.fw.warm
  quiet : t.fw.quiet = s.fw.quiet
  idle : s.flights = [] → t.flights = []
  boot : ∀ i j, t.reg .FW_BOOT i j = s.reg .FW_BOOT i j
  state : ∀ i j, t.reg .GLOBAL_STATE i j = s.reg .GLOBAL_STATE i j

theorem warmKept_refl (s : State) : WarmKept s s := ⟨rfl, fun _ h => h, rfl, rfl, rfl, id, fun _ _ => rfl, fun _ _ => rfl⟩

theorem WarmKept.trans (h : WarmKept s₀ s) (g : WarmKept s t) : WarmKept s₀ t where
  pending := g.pending.trans h.pending
  sent o ho := g.sent o (h.sent o ho)
  sessions := g.sessions.trans h.sessions
  warm := g.warm.trans h.warm
  quiet := g.quiet.trans h.quiet
  idle hnone := g.idle (h.idle hnone)
  boot i j := (g.boot i j).trans (h.boot i j)
  state i j := (g.state i j).trans (h.state i j)

/-- The parts and registers a frame must leave alone. -/
def sentParts : List Part := [.pending, .out, .sec, .flights]
def warmParts : List Part := .fw :: sentParts
def warmRegs : List RegName := [.FW_BOOT, .GLOBAL_STATE]

/-- A frame that may change the cores' state gives it when the reset asked for stays. -/
theorem warmKept_of_fw (h : Frame L R s t) (hwarm : t.fw.warm = s.fw.warm) (hquiet : t.fw.quiet = s.fw.quiet)
    (hL : ∀ p ∈ sentParts, p ∉ L := by decide) (hR : ∀ r ∈ warmRegs, r ∉ R := by decide) : WarmKept s t where
  pending := h.part .pending (hL _ (by decide))
  sent o ho := (show t.out = s.out from h.part .out (hL _ (by decide))) ▸ ho
  sessions := sessions_of_frame h (hL _ (by decide))
  warm := hwarm
  quiet := hquiet
  idle hnone := (h.part .flights (hL _ (by decide))).trans hnone
  boot := h.regs _ (hR _ (by decide))
  state := h.regs _ (hR _ (by decide))

theorem warmKept_of_frame (h : Frame L R s t) (hL : ∀ p ∈ warmParts, p ∉ L := by decide) (hR : ∀ r ∈ warmRegs, r ∉ R := by decide) :
    WarmKept s t :=
  warmKept_of_fw h (congrArg Fw.warm (h.part .fw (hL _ (by decide)))) (congrArg Fw.quiet (h.part .fw (hL _ (by decide))))
    (fun p hp => hL p (List.mem_cons_of_mem _ hp)) hR

/-- An operation with a frame follows. -/
theorem WarmKept.after (h : WarmKept s₀ s) (g : Frame L R s t) (hL : ∀ p ∈ warmParts, p ∉ L := by decide)
    (hR : ∀ r ∈ warmRegs, r ∉ R := by decide) : WarmKept s₀ t := h.trans (warmKept_of_frame g hL hR)

theorem WarmKept.ite {c : Prop} [Decidable c] (h : WarmKept s₀ s) (g : WarmKept s₀ t) : WarmKept s₀ (if c then s else t) := by
  split <;> assumption

theorem WarmKept.onlyIf {c : Bool} (h : WarmKept s₀ s) (g : WarmKept s₀ t) : WarmKept s₀ (onlyIf c s t) := WarmKept.ite h g

theorem WarmKept.foldl {α : Type} {xs : List α} {f : State → α → State} (h : WarmKept s₀ s) (hf : ∀ (u : State) x, WarmKept u (f u x)) :
    WarmKept s₀ (xs.foldl f s) :=
  foldl_inv (fun u => WarmKept s₀ u) xs f (fun u x _ hu => hu.trans (hf u x)) s h

/-- A fold whose state comes with a value. -/
theorem WarmKept.foldlFst {α β : Type} {xs : List α} {f : State × β → α → State × β} {a : State × β} (h : WarmKept s₀ a.1)
    (hf : ∀ (b : State × β) x, WarmKept b.1 (f b x).1) : WarmKept s₀ (xs.foldl f a).1 := by
  induction xs generalizing a with
  | nil => exact h
  | cons x xs ih => exact ih (h.trans (hf a x))

theorem WarmKept.send (h : WarmKept s₀ s) (o : Output) : WarmKept s₀ (s.send o) :=
  h.trans ⟨rfl, fun _ ho => List.mem_append_left _ ho, rfl, rfl, rfl, id, fun _ _ => rfl, fun _ _ => rfl⟩

theorem WarmKept.wr (h : WarmKept s₀ s) (f : Fld) (v i j : Nat) (hf : f.reg ∉ warmRegs := by decide) : WarmKept s₀ (s.wr f v i j) := by
  have hwr : Frame [.regs] [f.reg] s (s.wr f v i j) := (Frame.refl _ _ s).wr (by simp) (by decide)
  exact h.after hwr (hR := fun r hr => by
    rw [List.mem_singleton]
    rintro rfl
    exact hf hr)

theorem WarmKept.record (h : WarmKept s₀ s) (e : ErrRec) : WarmKept s₀ (s.record e) := h.after (record_frame e)

/-- The error history says nothing of what the sites' boot keeps. -/
theorem historyBlind_warmKept (s₀ : State) : HistoryBlind (WarmKept s₀) where
  record _ e h := h.record e
  wr _ f v i j hf h := h.wr f v i j (by rcases hf with hf | hf | hf <;> rw [hf] <;> decide)
  parts _ _ _ _ _ _ _ h := h.trans ⟨rfl, fun _ ho => ho, rfl, rfl, rfl, id, fun _ _ => rfl, fun _ _ => rfl⟩

/-! ### Training (R255 to R260) -/

theorem setRepair_frame (s : State) (k p i lane : Nat) (hard : Bool) : Frame [.regs] [.PHY_REPAIR] s (s.setRepair k p i lane hard) :=
  (Frame.refl _ _ s).setReg

theorem setEye_frame (s : State) (k l : Nat) (wr : Bool) (e : Eye) : Frame [.regs] [.PHY_LANE_RD, .PHY_LANE_WR] s (s.setEye k l wr e) := by
  cases wr with
  | false => exact (Frame.refl _ _ s).setReg (r := .PHY_LANE_RD)
  | true => exact (Frame.refl _ _ s).setReg (r := .PHY_LANE_WR)

theorem trainLane_frame (s : State) (k : Nat) (e : SiteEnv) (l n : Nat) :
    Frame [.regs] [.PHY_LANE_RD, .PHY_LANE_WR] s (s.trainLane k e l n).1 := by
  unfold State.trainLane
  extract_lets
  split
  · exact (setEye_frame s _ _ _ _).trans (setEye_frame _ _ _ _ _)
  · exact Frame.refl _ _ s

theorem warmKept_repairRound (s : State) (k : Nat) (e : SiteEnv) (n : Nat) (t : Trained) : WarmKept s (s.repairRound k e n t).1 := by
  unfold State.repairRound
  refine (warmKept_refl s).foldlFst (a := (s, { t with failing := [] })) fun a l => ?_
  obtain ⟨u, t⟩ := a
  dsimp only
  split
  · exact warmKept_refl u
  · exact ((historyBlind_warmKept u).event1 (warmKept_of_frame (setRepair_frame u _ _ _ _ _)) _ _ _ _ _ _).after (trainLane_frame _ _ _ _ _)

theorem warmKept_trainLanes (s : State) (k : Nat) (e : SiteEnv) (ls : List Nat) : WarmKept s (s.trainLanes k e ls).1 := by
  unfold State.trainLanes
  extract_lets first
  have hfirst : WarmKept s first.1 := by
    refine (warmKept_refl s).foldlFst (a := (s, (⟨[], [], 0⟩ : Trained))) fun a l => ?_
    exact warmKept_of_frame (trainLane_frame a.1 k e l 0)
  exact hfirst.foldlFst fun a n => warmKept_repairRound a.1 k e n a.2

theorem warmKept_pcLost (s : State) (k : Nat) (bad : List Nat) (p : Nat) : WarmKept s (s.pcLost k bad p) :=
  (historyBlind_warmKept s).event ((warmKept_refl s).record _) _ _ _ _

theorem warmKept_trainPcs (s : State) (k : Nat) (e : SiteEnv) (ps : List Nat) (base : Nat) : WarmKept s (s.trainPcs k e ps base).1 := by
  unfold State.trainPcs
  split
  next u t heq =>
  have hu := warmKept_trainLanes s k e (ps.flatMap fun p => [4 * p, 4 * p + 1, 4 * p + 2, 4 * p + 3])
  rw [heq] at hu
  extract_lets bad lost failed res posted
  have hfailed : WarmKept s failed := WarmKept.foldl hu fun v p => warmKept_pcLost v k bad p
  have hposted : WarmKept s posted := ((hfailed.wr F.PHY_TRN_STATUS.RESULT res k 0).wr F.PHY_TRN_STATUS.ROUNDS t.rounds k 0).wr
    F.PHY_TRN_STATUS.FAIL_LANE _ k 0
  exact (hposted.wr F.PHY_TRN_STATUS.TIME_US _ k 0).wr F.PHY_STATUS.RESTORED 0 k 0

theorem postVerify_frame (s : State) (k : Nat) (v : VerifyEnv) : Frame [.regs] [.PHY_TRN_STATUS] s (s.postVerify k v) := (Frame.refl _ _ s).wr.wr.wr

/-- The image of a training takes bytes and free values. -/
theorem freeBytes_frame (s : State) (n : Nat) : Frame [.freeCount] [] s (s.freeBytes n).1 := by
  induction n generalizing s with
  | zero => exact Frame.refl _ _ s
  | succ n ih =>
    have hfresh : Frame [.freeCount] [] s s.fresh.2 := (Frame.refl _ _ s).update (keptBut_free (keptBut_refl s _) _ (by decide)) rfl
    exact hfresh.trans (ih s.fresh.2)

theorem keptBut_bytes (h : s.keptBut t L) (x : Tbl Byte) (m0 : Part.bytes ∈ L) : s.keptBut { t with bytes := x } L := by
  intro p hp
  have h := h p hp
  cases p
  case bytes => exact absurd m0 hp
  all_goals exact h

theorem putBytes_frame (s : State) (base : Nat) (bs : List Byte) : Frame [.bytes] [] s (s.putBytes base bs) :=
  (Frame.refl _ _ s).update (keptBut_bytes (keptBut_refl s _) _ (by decide)) rfl

theorem writeImage_frame (s : State) (k : Nat) : Frame [.bytes, .freeCount] [] s (s.writeImage k) := by
  unfold State.writeImage
  extract_lets n le
  split
  next u ca heq =>
  have hu := freeBytes_frame s 4
  rw [heq] at hu
  exact hu.mono.after (putBytes_frame u _ _)

theorem settle_frame (s : State) (k : Nat) (image : Bool) : Frame [.regs, .bytes, .freeCount] [.PHY_RTR_LAST, .PHY_RTR_TEMP] s (s.settle k image) := by
  unfold State.settle
  extract_lets final
  have hfinal : Frame [.regs, .bytes, .freeCount] [.PHY_RTR_LAST, .PHY_RTR_TEMP] s final := (Frame.refl _ _ s).wr.wr
  exact Frame.onlyIf (hfinal.after (writeImage_frame final k)) hfinal

/-! ### PCs that leave the map (R260, R261, R623, R637) -/

theorem Frame.setPc {v : Pc} (h : Frame L R s t) (hL : Part.pcs ∈ L := by decide) : Frame L R s (t.setPc k p v) :=
  h.update (keptBut_setPc (keptBut_refl t L) k p v hL) rfl

theorem syncFrz_frame (s : State) (k p : Nat) : Frame [.regs] [.RAS_FRZ] s (s.syncFrz k p) := (Frame.refl _ _ s).setMap

/-- The requests a PC holds are answered; none joins. -/
theorem warmKept_answerHeld (s : State) (k p : Nat) : WarmKept s (s.answerHeld k p) :=
  ⟨rfl, fun _ ho => ho, rfl, rfl, rfl, fun hnone => List.map_eq_nil_iff.2 hnone, fun _ _ => rfl, fun _ _ => rfl⟩

theorem pmuPc_frame (s : State) (k p e n : Nat) : Frame [.regs] [.PMU_PC] s (s.pmuPc k p e n) :=
  Frame.ite (Frame.refl _ _ s) (Frame.refl _ _ s).setReg

theorem retireChange_frame (s : State) (i core : Nat) : Frame [.plots, .posies, .auditQ, .plotDue] [] s (s.change i (.retire core)) := by
  have hs := Frame.refl [.plots, .posies, .auditQ, .plotDue] [] s
  unfold State.change
  refine Frame.ite (hs.update (keptBut_plotDue (keptBut_refl s _) _ (by decide)) rfl) ?_
  unfold State.makeChange
  exact Frame.onlyIf (hs.after (setPlot_frame s _ i _)) hs

theorem retirePlots_frame (s : State) (k : Nat) : Frame [.plots, .posies, .auditQ, .plotDue] [] s (s.retirePlots k) :=
  (Frame.refl _ _ s).foldl fun u e => retireChange_frame u e.1 _

/-- A logical PC without a backing waits for it in the list of those. -/
theorem warmKept_unbacked (s : State) (x : List (Nat × Nat)) : WarmKept s { s with unbacked := x } :=
  ⟨rfl, fun _ ho => ho, rfl, rfl, rfl, id, fun _ _ => rfl, fun _ _ => rfl⟩

theorem warmKept_loseBacking (s : State) (k lpc : Nat) : WarmKept s (s.loseBacking k lpc) := by
  have hlost : WarmKept s ((s.retirePlots k).wr F.CLU_PCMAP.VALID 0 k lpc) := (warmKept_of_frame (retirePlots_frame s k)).wr F.CLU_PCMAP.VALID 0 k lpc
  exact hlost.trans (warmKept_unbacked _ _)

theorem warmKept_hist (s : State) (x : Hist) (w : List (Nat × Nat × Nat)) (m : Tbl (Option Mig)) :
    WarmKept s { s with hist := x, migWant := w, migs := m } :=
  (historyBlind_warmKept s).parts s x s.histFlash w m s.mem s.tests (warmKept_refl s)

theorem warmKept_retirePc (s : State) (k p lpc : Nat) (drain : Bool) (d : Nat) : WarmKept s (s.retirePc k p lpc drain d) := by
  unfold State.retirePc
  extract_lets pc v set counted mapped hist want gone e
  have hset : WarmKept s set := warmKept_of_frame (Frame.refl [.pcs] [] s).setPc
  have hcounted : WarmKept s counted := WarmKept.onlyIf
    (hset.after (((Frame.refl [.regs] [.SR_STAT, .PMU_PC] set).incRc).after (pmuPc_frame (set.incRc F.SR_STAT.ENTRIES k) k p 22 1))) hset
  have hmapped : WarmKept s mapped := hcounted.after (Frame.refl [.regs] [.CLU_PCRET, .CLU_PCSPARE] counted).setMap.setMap
  have hgone : WarmKept s gone := (hmapped.after (syncFrz_frame mapped k p)).trans (warmKept_hist _ _ _ _)
  exact (historyBlind_warmKept s).commitHist (hgone.record _)

theorem warmKept_abortMigration (s : State) (k d : Nat) : WarmKept s (s.abortMigration k d) := by
  unfold State.abortMigration
  extract_lets lpc src tgt closed hist ended
  have hclosed : WarmKept s closed := ((warmKept_refl s).wr F.CLU_MIG.ACTIVE 0 k 0).wr F.RAS_MIGCTL.BUSY 0 k 0
  have hended : WarmKept s ended := hclosed.trans (warmKept_hist _ _ _ _)
  exact ((((hended.trans (warmKept_answerHeld _ k src)).trans (warmKept_answerHeld _ k tgt)).trans (warmKept_retirePc _ k src lpc false d)).trans
    (warmKept_retirePc _ k tgt lpc false d)).trans (warmKept_loseBacking _ k lpc)

theorem warmKept_excludePc (s : State) (k p : Nat) : WarmKept s (s.excludePc k p) := by
  unfold State.excludePc
  extract_lets lpcs v blank out
  have hblank : WarmKept s blank := (warmKept_answerHeld s k p).after (Frame.refl [.pcs] [] _).setPc
  have hout : WarmKept s out := (hblank.after (syncFrz_frame blank k p)).after (Frame.refl [.regs] [.CLU_PCSPARE] (blank.syncFrz k p)).setMap
  exact WarmKept.ite (warmKept_abortMigration s k 1) (hout.foldl fun u l => warmKept_loseBacking u k l)

theorem warmKept_siteOff (s : State) (k : Nat) : WarmKept s (s.siteOff k) :=
  (warmKept_refl s).foldl fun u r => ((warmKept_refl u).wr F.PM_RAIL_CFG.ON 0 r 0).send _

theorem warmKept_siteDead (s : State) (k : Nat) : WarmKept s (s.siteDead k) := by
  unfold State.siteDead
  extract_lets excluded
  have hexcluded : WarmKept s excluded := (warmKept_refl s).foldl fun u p => warmKept_excludePc u k p
  have hout : WarmKept s ((excluded.siteOff k).siteOut k 4) :=
    ((hexcluded.trans (warmKept_siteOff excluded k)).wr F.PHY_STATUS.SITE 4 k 0).wr F.PLOT_STACKGEOM.FRAMES 0 k 0
  exact hout.record _

theorem warmKept_thawPc (s : State) (k p : Nat) : WarmKept s (s.thawPc k p) := by
  unfold State.thawPc
  extract_lets pc thawed e
  have hthawed : WarmKept s thawed := warmKept_of_frame (Frame.refl [.pcs] [] s).setPc
  exact (hthawed.after (syncFrz_frame thawed k p)).record _

/-! ### The sites (R276, R277, R624) -/

theorem warmKept_addHard (s : State) (k : Nat) (hard : List (PcIx × Nat)) : WarmKept s (s.addHard k hard) := by
  refine (warmKept_refl s).foldl fun u h => ?_
  extract_lets mapped
  have hmapped : WarmKept u mapped := by
    unfold mapped
    split
    · exact warmKept_of_frame (setRepair_frame u _ _ _ _ _)
    · exact warmKept_refl u
  exact WarmKept.ite (warmKept_refl u) (((historyBlind_warmKept u).setHist hmapped _).record _)

/-- Settings verified, or trained anew: the training of a site that comes out of a warm reset. -/
def State.warmTrained (s : State) (k : Nat) (w : Option WarmSite) (fails : VerifyEnv) (differs : Bool) (ps : List Nat) : State × List Nat :=
  match w with
  | none => ((s.postVerify k []).wr F.PHY_STATUS.RESTORED 1 k, [])
  | some w =>
    if differs then s.trainPcs k w.train ps 0
    else if fails.isEmpty then ((s.postVerify k []).wr F.PHY_STATUS.RESTORED 1 k, [])
    else s.trainPcs k w.train ps 5

theorem warmKept_warmTrained (s : State) (k : Nat) (w : Option WarmSite) (fails : VerifyEnv) (differs : Bool) (ps : List Nat) :
    WarmKept s (s.warmTrained k w fails differs ps).1 := by
  have hverified : WarmKept s ((s.postVerify k []).wr F.PHY_STATUS.RESTORED 1 k) :=
    (warmKept_of_frame (postVerify_frame s k [])).wr F.PHY_STATUS.RESTORED 1 k 0
  unfold State.warmTrained
  cases w with
  | none => exact hverified
  | some w =>
    dsimp only
    split
    · exact warmKept_trainPcs s k w.train ps 0
    · split
      · exact hverified
      · exact warmKept_trainPcs s k w.train ps 5

theorem warmKept_warmSite (s : State) (k : Nat) (w : Option WarmSite) : WarmKept s (s.warmSite k w) := by
  unfold State.warmSite
  extract_lets fails mapped differs frozenBad ps wasFrozen
  have hmapped : WarmKept s mapped := by
    unfold mapped
    split
    · exact warmKept_addHard s k _
    · exact warmKept_refl s
  clear_value mapped
  split
  next u lost heq =>
  have htrained := warmKept_warmTrained mapped k w fails differs ps
  rw [show mapped.warmTrained k w fails differs ps = (u, lost) from heq] at htrained
  extract_lets woken
  have hset (v : State) (p : Nat) (x : Pc) : WarmKept v (v.setPc k p x) := warmKept_of_frame (Frame.refl [.pcs] [] v).setPc
  have hwoken : WarmKept s woken := WarmKept.foldl (hmapped.trans htrained) fun v p => by
    extract_lets pc
    exact WarmKept.ite (warmKept_excludePc v k p) (WarmKept.ite (WarmKept.ite (hset v p _) ((hset v p _).trans (warmKept_thawPc _ k p))) (hset v p _))
  have hsettled : WarmKept s (woken.settle k (differs || !fails.isEmpty)) := hwoken.after (settle_frame woken k _)
  exact WarmKept.onlyIf (hsettled.trans (warmKept_siteDead _ k)) hsettled

end
end Sys2Proof.Machine
end

section
/-! WARM_RESET: the state it leaves before the boot, and the boot up to its phase 5 (R487, R536, R564, R588, R643, R688, R689, R702). -/

set_option Elab.async false

namespace Sys2Proof.Machine
section
variable {L : List Part} {R : List RegName} {s₀ s t u : State} {p k i j : Nat}

/-! ### What goes with the reset (R487, R536, R564, R689) -/

theorem endSession_frame (s : State) (o : Origin) (i : Nat) :
    Frame [.sec, .auditQ, .plots, .posies, .plotDue] [] s (s.endSession o i) := by
  have hs := Frame.refl [.sec, .auditQ, .plots, .posies, .plotDue] [] s
  cases h : s.session i with
  | none =>
    unfold State.endSession
    rw [h]
    exact hs
  | some x =>
    have hend : s.endSession o i = if ((s.setSession i none).audit o.kind o.id 4 i 1 0).sessionsOf x.tenant = 0 then
        ((s.setSession i none).audit o.kind o.id 4 i 1 0).turnPlots x.tenant .openPlot .sealed
        else (s.setSession i none).audit o.kind o.id 4 i 1 0 := by
      unfold State.endSession
      rw [h]
      rfl
    have hended := (hs.after (setSession_frame s i none)).audit (a := o.kind) (b := o.id) (c := 4) (d := i) (e := 1) (f := 0) (g := 0)
    rw [hend]
    exact Frame.ite (hended.after (turnPlots_frame _ _ _ _)) hended

theorem session_endSession_same (s : State) (o : Origin) (i : Nat) : (s.endSession o i).session i = none := by
  cases h : s.session i with
  | none =>
    unfold State.endSession
    rw [h]
    exact h
  | some x =>
    obtain ⟨hgone, -⟩ := ended_shows o h
    exact hgone

theorem session_endSession_keeps (o : Origin) (i : Nat) {n : Nat} (h : s.session n = none) : (s.endSession o i).session n = none := by
  cases hi : s.session i with
  | none =>
    unfold State.endSession
    rw [hi]
    exact h
  | some x =>
    obtain ⟨hgone, hother, -⟩ := ended_shows o hi
    by_cases hn : n = i
    · exact hn ▸ hgone
    · exact (hother n hn).trans h

/-- Every session ends. -/
def State.sessionsGone (s : State) : State := (List.range 64).foldl (fun s i => s.endSession Origin.sec i) s

theorem sessionsGone_frame (s : State) : Frame [.sec, .auditQ, .plots, .posies, .plotDue] [] s s.sessionsGone :=
  (Frame.refl _ _ s).foldl fun u i => endSession_frame u _ i

theorem session_sessionsGone (s : State) (hi : i < 64) : s.sessionsGone.session i = none := by
  obtain ⟨l, l', hl⟩ := List.append_of_mem (List.mem_range.2 hi)
  unfold State.sessionsGone
  rw [hl, List.foldl_append, List.foldl_cons]
  exact foldl_inv (fun u => u.session i = none) _ _ (fun u q _ hu => session_endSession_keeps _ q hu) _ (session_endSession_same _ _ i)

theorem Frame.setLnt {l : Lantern} (h : Frame L R s t) (hL : Part.lnts ∈ L := by decide) : Frame L R s (t.setLnt j l) :=
  h.update (keptBut_lnts (keptBut_refl t L) _ hL) rfl

theorem freeEnts_frame (s : State) (k : Nat) (g : PosyEnt → Bool) : Frame [.posies, .lnts] [] s (s.freeEnts k g) := by
  unfold State.freeEnts
  extract_lets gone kept left drop
  have hleft : Frame [.posies, .lnts] [] s left := (Frame.refl _ _ s).update (keptBut_posies (keptBut_refl s _) _ (by decide)) rfl
  exact hleft.modLnt

theorem standDown_frame (s : State) (j : Nat) (sp : Option Nat) : Frame [.regs] [.LNT_ARRAY] s (s.standDown j sp) := by
  cases sp with
  | none => exact Frame.refl _ _ s
  | some sp => exact (setRole_frame s j sp 1).wr

theorem warmLantern_frame (s : State) (j : Nat) : Frame [.regs, .lnts, .posies] [.LNT_ARRAY] s (s.warmLantern j) := by
  unfold State.warmLantern
  extract_lets tested replayed l
  have htested : Frame [.regs, .lnts, .posies] [.LNT_ARRAY] s tested := (Frame.refl _ _ s).foldl fun u t =>
    Frame.ite (((setRole_frame u j _ _).trans (standDown_frame _ j _)).mono) (Frame.refl _ _ u)
  have hreplayed : Frame [.regs, .lnts, .posies] [.LNT_ARRAY] s replayed := htested.foldl fun u c =>
    (Frame.refl _ _ u).foldl fun v a => (replayOver_frame v j a).mono
  exact hreplayed.setLnt.after (freeEnts_frame _ j _)

/-- The audit queue and the connections are lost, and counted. -/
def State.auditGone (s : State) : State :=
  let s := s.incRc F.AUDIT_LOST.COUNT 0 0 s.sec.auditQ.length
  { s with sec := { s.sec with auditQ := [], conns := [] } }

theorem auditGone_frame (s : State) : Frame [.regs, .sec, .auditQ] [.AUDIT_LOST] s s.auditGone := by
  unfold State.auditGone
  extract_lets lost
  have hlost : Frame [.regs, .sec, .auditQ] [.AUDIT_LOST] s lost := (Frame.refl _ _ s).incRc
  exact hlost.update (keptBut_sec (keptBut_refl lost _) _ (by decide) (by decide)) rfl

def State.lanternsWarm (s : State) : State := allLanterns.foldl (fun s j => s.warmLantern j) s

def State.ringsGone (s : State) : State := (List.range 8192).foldl (fun s i =>
  (((s.setRing Origin.hw i 0).clearReg .RING_PTRS i).wr F.RING_STATE.HALT 0 i).incWrap F.RING_STATE.EPOCH i) s

theorem ringsGone_frame (s : State) : Frame [.regs, .auditQ] [.RING_STATE, .RING_PTRS] s s.ringsGone :=
  (Frame.refl _ _ s).foldl fun u i => ((Frame.refl [.regs, .auditQ] [.RING_STATE, .RING_PTRS] u).after (setRing_frame u _ i 0)).clearReg.wr.incWrap

/-- No driver is known, no sweep runs, and the block is in BOOT. -/
def State.driversGone (s : State) : State :=
  let s := (List.range 128).foldl (fun s f => s.wr F.FN_STATUS.VER 0 f) s
  ((s.wr F.RAS_MGCTL.BUSY 0).wr F.RAS_MGSTAT.IN_SWEEP 0).wr F.GLOBAL_STATE.STATE 0

theorem driversGone_frame (s : State) : Frame [.regs] [.FN_STATUS, .RAS_MGCTL, .RAS_MGSTAT, .GLOBAL_STATE] s s.driversGone := by
  unfold State.driversGone
  extract_lets unknown
  have hunknown : Frame [.regs] [.FN_STATUS, .RAS_MGCTL, .RAS_MGSTAT, .GLOBAL_STATE] s unknown :=
    (Frame.refl _ _ s).foldl fun u f => (Frame.refl _ _ u).wr
  exact hunknown.wr.wr.wr

theorem inBoot_driversGone (s : State) : s.driversGone.inBoot = true := by
  have hstate (u : State) : (u.wr F.GLOBAL_STATE.STATE 0).rd F.GLOBAL_STATE.STATE = 0 := rd_wr_same (by decide) 0
  unfold State.inBoot State.driversGone
  exact beq_iff_eq.2 (hstate _)

/-- Every request goes, and what the rings and the PCs hold of them. -/
def State.requestsGone (s : State) : State :=
  let rings : Rings := { Rings.reset with
    bmeOff := s.rings.bmeOff, hgens := s.rings.hgens, idleAt := s.rings.idleAt, l1Us := s.rings.l1Us, l1 := s.rings.l1 }
  { s.setAttn 0x9 false with
    flights := [], slices := [], rings := rings,
    pcs := s.pcs.map fun e => (e.1, { e.2 with rq := [], wq := [], rmw := [], waiting := [] }) }

theorem warmState_eq (s : State) : s.warmState = s.auditGone.sessionsGone.lanternsWarm.ringsGone.driversGone.requestsGone := by
  unfold State.warmState State.requestsGone State.driversGone State.ringsGone State.lanternsWarm State.sessionsGone State.auditGone
  generalize List.range 8192 = rings, List.range 128 = fns, List.range 64 = sessions
  rfl

theorem lanternsWarm_frame (s : State) : Frame [.regs, .lnts, .posies] [.LNT_ARRAY] s s.lanternsWarm :=
  (Frame.refl _ _ s).foldl fun u j => warmLantern_frame u j

/-- What requests take with them. -/
theorem requestsGone_shows (s : State) : s.requestsGone.pending = s.pending ∧ s.requestsGone.out = s.out ∧ s.requestsGone.sec = s.sec ∧
    s.requestsGone.flights = [] ∧ s.requestsGone.inBoot = s.inBoot := by
  have hattn : (s.setAttn 0x9 false).inBoot = s.inBoot := congrArg (· == 0) ((Frame.refl [.regs] [.GLOBAL_ATTN_PENDING] s).setAttn.rd 0 0)
  exact ⟨rfl, rfl, rfl, rfl, hattn⟩

/-- All that goes with the reset but the requests. -/
def State.warmCleared (s : State) : State := s.auditGone.sessionsGone.lanternsWarm.ringsGone.driversGone

/-- The parts and registers of it. -/
def clearedParts : List Part := [.regs, .sec, .auditQ, .plots, .posies, .plotDue, .lnts]
def clearedRegs : List RegName :=
  [.AUDIT_LOST, .LNT_ARRAY, .RING_STATE, .RING_PTRS, .FN_STATUS, .RAS_MGCTL, .RAS_MGSTAT, .GLOBAL_STATE]

theorem warmCleared_frame (s : State) : Frame clearedParts clearedRegs s s.warmCleared :=
  ((((auditGone_frame s).mono.after (sessionsGone_frame _)).after (lanternsWarm_frame _)).after (ringsGone_frame _)).after (driversGone_frame _)

theorem session_warmCleared (s : State) (hi : i < 64) : s.warmCleared.session i = none := by
  have hlnt := lanternsWarm_frame s.auditGone.sessionsGone
  have hring := ringsGone_frame s.auditGone.sessionsGone.lanternsWarm
  have hdriver := driversGone_frame s.auditGone.sessionsGone.lanternsWarm.ringsGone
  have hsess := ((sessions_of_frame hdriver).trans (sessions_of_frame hring)).trans (sessions_of_frame hlnt)
  exact (session_of_sessions hsess i).trans (session_sessionsGone s.auditGone hi)

/-- What a warm reset leaves before its boot. -/
theorem warmState_shows (s : State) : s.warmState.pending = s.pending ∧
    s.warmState.out = s.out ∧ (∀ i, i < 64 → s.warmState.session i = none) ∧
    s.warmState.flights = [] ∧ s.warmState.inBoot = true := by
  have hcleared := warmCleared_frame s
  have hsess : ∀ i, i < 64 → s.warmCleared.session i = none := fun i => session_warmCleared s
  have hboot : s.warmCleared.inBoot = true := inBoot_driversGone _
  rw [show s.warmState = s.warmCleared.requestsGone from warmState_eq s]
  generalize s.warmCleared = u at *
  obtain ⟨hpending, hout, hsec, hflights, hstate⟩ := requestsGone_shows u
  refine ⟨hpending.trans (hcleared.part .pending), hout.trans (hcleared.part .out), fun i hi => ?_, hflights, hstate.trans hboot⟩
  rw [State.session, hsec]
  exact hsess i hi

/-! ### The boot (R276, R588, R643, R702) -/

theorem warmCores_frame (s : State) (bad : List (Fin 15)) :
    Frame [.regs, .fw] [.FW_STATE, .FW_VER, .FW_BUILD, .FW_SVN, .FW_DIGEST] s (s.warmCores bad) := by
  unfold State.warmCores
  have hs : Frame [.regs, .fw] [.FW_STATE, .FW_VER, .FW_BUILD, .FW_SVN, .FW_DIGEST] s
      (s.modFw fun f => { f with falls := [], owed := [], fresh := [] }) :=
    (Frame.refl _ _ s).modFw
  refine hs.foldl fun u c => ?_
  extract_lets loaded
  have hloaded : Frame [.regs, .fw] [.FW_STATE, .FW_VER, .FW_BUILD, .FW_SVN, .FW_DIGEST] u loaded :=
    Frame.ite (loadImg_frame u c _).mono (Frame.ite (loadImg_frame u c _).mono (Frame.refl _ _ u))
  exact Frame.ite (hloaded.after (setCore_frame loaded c _)) (hloaded.after (runCore_frame loaded c))

theorem mirWarm_frame (s : State) : Frame [.regs, .mir] [.MIR_PAIR, .MIR_ACT_CTL] s s.mirWarm :=
  Frame.ite (Frame.refl _ _ s) ((Frame.refl [.regs, .mir] [.MIR_PAIR, .MIR_ACT_CTL] s).wr.after (pauseWins_frame (s.wr F.MIR_PAIR.STATE 1)))

/-- The hub is told, when the block has quiesced in time. -/
def State.warmTold (s : State) : State := onlyIf s.quiesced (s.send (.hub .warmAck)) s

/-- The boot begins at stamp `now`: the reset is no more asked for. -/
def State.warmBegun (s : State) (now : Nat) : State :=
  let s := s.modFw fun f => { f with warm := none, quiet := false, failed := false, bootAt := now }
  (((s.wr F.FW_BOOT.WARM 1).wr F.FW_BOOT.ERR 0).wr F.FW_BOOT.STAGE 5)

/-- An activation under way ends: every core runs its new image (R716). -/
def State.warmActivated (s : State) : State :=
  if s.updSt = 4 then (s.modFw fun f => { f with acted := f.acted ++ f.act, act := [] }).endActivation else s

/-- The sites verify or train, and the journals are read. -/
def State.warmSites (s : State) (e : WarmEnv) : State :=
  let s := (upTo 12 fun k => s.wakeable k).foldl (fun s k => s.warmSite k (e.sites.find? fun w => w.k.val == k)) s
  (List.range 12).foldl (fun s k => s.resumeMigration k) s.resumeRotation

/-- The boot sweep starts where it is set. -/
def State.warmSwept (s : State) : State :=
  (onlyIf (s.rd F.RAS_SECFG.BOOT_ROUNDS != 0) (s.startSweep allLanterns (s.rd F.RAS_SECFG.BOOT_ROUNDS) none) s).syncDegraded

/-- The whole reset. -/
def State.warmBooted (s : State) (e : WarmEnv) : State :=
  (((s.warmTold.mirWarm.warmState.warmCores e.badImages).warmBegun s.now).warmActivated.warmSites e).warmSwept

theorem now_warmTold (s : State) : s.warmTold.now = s.now := by
  unfold State.warmTold onlyIf
  split <;> rfl

theorem exec_warmReset {since : Nat} (e : WarmEnv) (h : s.fw.warm = some since) (hshut : s.bit F.SNF_STAT.SHUTDOWN = false)
    (hdue : s.quiesced = true ∨ since + 2400000 ≤ s.now) : exec (.warmReset e) s = .next (s.warmBooted e) := by
  have hgo : (s.bit F.SNF_STAT.SHUTDOWN || (!s.quiesced && decide (s.now < since + 2400000))) = false := by
    rcases hdue with hq | hlate
    · simp [hshut, hq]
    · simp [hshut, hlate]
  show execWarmReset e s = _
  unfold execWarmReset
  rw [h]
  dsimp only
  rw [if_neg (by rw [hgo]; decide)]
  unfold State.warmBooted
  rw [← now_warmTold s]
  unfold State.warmSwept State.warmSites State.warmActivated State.warmBegun State.warmTold
  rfl

theorem exec_warmReset_waits {since : Nat} (e : WarmEnv) (h : s.fw.warm = some since) (hq : s.quiesced = false)
    (hearly : s.now < since + 2400000) : exec (.warmReset e) s = .next s := by
  show execWarmReset e s = _
  unfold execWarmReset
  rw [h]
  dsimp only
  rw [if_pos (by simp [hq, hearly])]

/-- How an activation ends: the floors rise, the staged slot is the boot slot, and the history is committed. -/
def State.activationOver (s : State) (f : Fw → Fw) (v : Nat) : State :=
  ((((s.modFw f).setUpd v 0).wr F.FW_UPDSTAT.NEXT 0).raise F.FW_EVT.ACTIVATED).commitHist

theorem endActivation_eq (s : State) : ∃ u f v, s.endActivation = State.activationOver u f v ∧ Frame [.regs] [.FW_SVN] s u ∧
    ∀ x : Fw, (f x).warm = x.warm ∧ (f x).quiet = x.quiet := by
  unfold State.endActivation
  extract_lets other seq classes svn base snf cfg raised flashed ended
  have hraised : Frame [.regs] [.FW_SVN] s raised := (Frame.refl _ _ s).foldl fun u i => (Frame.refl _ _ u).wr
  exact ⟨raised, _, _, rfl, hraised, fun x => ⟨rfl, rfl⟩⟩

/-- The end of an activation leaves the reset asked for as it is. -/
theorem reset_endActivation (s : State) : s.endActivation.fw.warm = s.fw.warm ∧ s.endActivation.fw.quiet = s.fw.quiet := by
  obtain ⟨u, f, v, heq, hframe, hf⟩ := endActivation_eq s
  have hover : (State.activationOver u f v).fw = f u.fw := rfl
  have hfw : u.fw = s.fw := hframe.part .fw
  rw [heq, hover, hfw]
  exact hf s.fw

theorem warmKept_warmActivated (s : State) : WarmKept s s.warmActivated := by
  have hacted : WarmKept s (s.modFw fun f => { f with acted := f.acted ++ f.act, act := [] }) :=
    ⟨rfl, fun _ ho => ho, rfl, rfl, rfl, id, fun _ _ => rfl, fun _ _ => rfl⟩
  have hended (u : State) : WarmKept u u.endActivation :=
    have hreset := reset_endActivation u
    warmKept_of_fw (endActivation_frame u) hreset.1 hreset.2
  exact WarmKept.ite (hacted.trans (hended _)) (warmKept_refl s)

theorem warmKept_resumeRotation (s : State) : WarmKept s s.resumeRotation := by
  unfold State.resumeRotation
  extract_lets base
  split
  · exact warmKept_refl s
  · extract_lets r' resumed
    have hresumed : WarmKept s resumed := ⟨rfl, fun _ ho => ho, rfl, rfl, rfl, id, fun _ _ => rfl, fun _ _ => rfl⟩
    exact (hresumed.wr F.SEC_ROT.PLOT _ 0 0).wr F.SEC_ROT.WATERMARK _ 0 0

theorem warmKept_resumeMigration (s : State) (k : Nat) : WarmKept s (s.resumeMigration k) := by
  unfold State.resumeMigration
  extract_lets base
  refine WarmKept.ite (warmKept_refl s) ?_
  split
  · exact (warmKept_refl s).wr F.CLU_MIG.WATERMARK _ k 0
  · exact warmKept_refl s

theorem warmKept_warmSites (s : State) (e : WarmEnv) : WarmKept s (s.warmSites e) := by
  unfold State.warmSites
  extract_lets sites
  have hsites : WarmKept s sites := (warmKept_refl s).foldl fun u k => warmKept_warmSite u k _
  exact (hsites.trans (warmKept_resumeRotation sites)).foldl fun u k => warmKept_resumeMigration u k

theorem warmKept_warmSwept (s : State) : WarmKept s s.warmSwept := by
  have hswept : WarmKept s (onlyIf (s.rd F.RAS_SECFG.BOOT_ROUNDS != 0) (s.startSweep allLanterns (s.rd F.RAS_SECFG.BOOT_ROUNDS) none) s) :=
    WarmKept.onlyIf (warmKept_of_frame (startSweep_frame s _ _ _)) (warmKept_refl s)
  exact hswept.after (syncDegraded_frame _)

/-- What a warm reset leaves. -/
theorem warmBooted_shows (s : State) (e : WarmEnv) : (s.quiesced = true → .hub .warmAck ∈ (s.warmBooted e).out) ∧
    (s.warmBooted e).inBoot = true ∧
    (s.warmBooted e).bit F.FW_BOOT.WARM = true ∧ (s.warmBooted e).rd F.FW_BOOT.STAGE = 5 ∧ (s.warmBooted e).rd F.FW_BOOT.ERR = 0 ∧
    (s.warmBooted e).fw.warm = none ∧ (s.warmBooted e).fw.quiet = false ∧ (s.warmBooted e).flights = [] ∧
    (∀ i, i < 64 → (s.warmBooted e).session i = none) ∧ (s.warmBooted e).pending = s.pending := by
  have hmir := mirWarm_frame s.warmTold
  obtain ⟨hpending, hout, hsess, hflights, hboot⟩ := warmState_shows s.warmTold.mirWarm
  have hcores := warmCores_frame s.warmTold.mirWarm.warmState e.badImages
  generalize hu : s.warmTold.mirWarm.warmState.warmCores e.badImages = u at hcores
  have hbegun : Frame [.regs, .fw] [.FW_BOOT] u (u.warmBegun s.now) := by
    unfold State.warmBegun
    exact (Frame.refl _ _ u).modFw.wr.wr.wr
  have hkept : WarmKept (u.warmBegun s.now) (s.warmBooted e) := by
    unfold State.warmBooted
    rw [hu]
    exact ((warmKept_warmActivated _).trans (warmKept_warmSites _ e)).trans (warmKept_warmSwept _)
  have hrd (f : Fld) (hf : f.reg = .FW_BOOT) : (s.warmBooted e).rd f = (u.warmBegun s.now).rd f := by
    unfold State.rd
    rw [hf, hkept.boot]
  refine ⟨fun hq => hkept.sent _ ?_, ?_, ?_, ?_, ?_, hkept.warm.trans rfl, hkept.quiet.trans rfl, hkept.idle ?_, fun i hi => ?_, ?_⟩
  · have htold : s.warmTold.out = s.out ++ [.hub .warmAck] := by
      unfold State.warmTold
      rw [onlyIf_pos hq]
      rfl
    rw [show (u.warmBegun s.now).out = s.warmTold.out from (hbegun.part .out).trans ((hcores.part .out).trans (hout.trans (hmir.part .out))), htold]
    exact List.mem_append_right _ (List.mem_singleton_self _)
  · refine Eq.trans ?_ hboot
    unfold State.inBoot State.rd
    rw [show F.GLOBAL_STATE.STATE.reg = .GLOBAL_STATE from rfl, hkept.state, hbegun.regs _ (by decide), hcores.regs _ (by decide)]
  · rw [State.bit, hrd _ rfl, State.warmBegun, rd_wr_apart (by decide) (by decide), rd_wr_apart (by decide) (by decide), rd_wr_same (by decide)]
    rfl
  · rw [hrd _ rfl, State.warmBegun, rd_wr_same (by decide)]
    rfl
  · rw [hrd _ rfl, State.warmBegun, rd_wr_apart (by decide) (by decide), rd_wr_same (by decide)]
    rfl
  · exact (hbegun.part .flights).trans ((hcores.part .flights).trans hflights)
  · rw [State.session, hkept.sessions, sessions_of_frame hbegun, sessions_of_frame hcores]
    exact hsess i hi
  · have htold : s.warmTold.pending = s.pending := by
      unfold State.warmTold onlyIf
      split <;> rfl
    exact hkept.pending.trans ((hbegun.part .pending).trans ((hcores.part .pending).trans (hpending.trans ((hmir.part .pending).trans htold))))

end
end Sys2Proof.Machine
end

section
/-! COLD_RESET: the boot up to its phase 6 (R555 to R558, R575, R594, R665, R686, R689, R693 to R698). -/

set_option Elab.async false

namespace Sys2Proof.Machine
section
variable {L : List Part} {R : List RegName} {s₀ s t u : State} {p k i j c : Nat} {f : Fld}

/-! ### What a boot keeps -/

/-- From `s` to `t`, of the registers only the families of `R` change, while the queue of commands, stored memory, the plots, the requests, the
history and the flash stay, and what was sent stays sent. -/
structure Boots (R : List RegName) (s t : State) : Prop where
  regs : ∀ r ∉ R, ∀ i j, t.reg r i j = s.reg r i j
  pending : t.pending = s.pending
  sent : s.out <+: t.out
  mem : t.mem = s.mem
  plots : t.plots = s.plots
  flights : t.flights = s.flights
  hist : t.hist = s.hist
  flash : t.fw.flash = s.fw.flash

theorem boots_refl (R : List RegName) (s : State) : Boots R s s := ⟨fun _ _ _ _ => rfl, rfl, List.prefix_refl _, rfl, rfl, rfl, rfl, rfl⟩

theorem Boots.trans (h : Boots R s₀ s) (g : Boots R s t) : Boots R s₀ t :=
  ⟨fun r hr i j => (g.regs r hr i j).trans (h.regs r hr i j), g.pending.trans h.pending, h.sent.trans g.sent, g.mem.trans h.mem,
    g.plots.trans h.plots, g.flights.trans h.flights, g.hist.trans h.hist, g.flash.trans h.flash⟩

theorem Boots.mono {R' : List RegName} (h : Boots R s t) (hR : ∀ r ∈ R, r ∈ R' := by decide) : Boots R' s t :=
  ⟨fun r hr => h.regs r fun hm => hr (hR r hm), h.pending, h.sent, h.mem, h.plots, h.flights, h.hist, h.flash⟩

theorem Boots.rd (h : Boots R s t) (i j : Nat) (hf : f.reg ∉ R := by decide) : t.rd f i j = s.rd f i j := by
  unfold State.rd
  rw [h.regs _ hf]

theorem Boots.bit (h : Boots R s t) (i j : Nat) (hf : f.reg ∉ R := by decide) : t.bit f i j = s.bit f i j := congrArg (· == 1) (h.rd i j hf)

/-- The parts a frame must leave alone. -/
def bootParts : List Part := [.pending, .out, .mem, .plots, .flights, .hist]

theorem boots_of_fw (h : Frame L R s t) (hflash : t.fw.flash = s.fw.flash) (hL : ∀ p ∈ bootParts, p ∉ L := by decide) : Boots R s t where
  regs := h.regs
  pending := h.part .pending (hL _ (by decide))
  sent := (show t.out = s.out from h.part .out (hL _ (by decide))) ▸ List.prefix_refl _
  mem := h.part .mem (hL _ (by decide))
  plots := h.part .plots (hL _ (by decide))
  flights := h.part .flights (hL _ (by decide))
  hist := h.part .hist (hL _ (by decide))
  flash := hflash

theorem boots_of_frame (h : Frame L R s t) (hL : ∀ p ∈ Part.fw :: bootParts, p ∉ L := by decide) : Boots R s t :=
  boots_of_fw h (congrArg Fw.flash (h.part .fw (hL _ (by decide)))) fun p hp => hL p (List.mem_cons_of_mem _ hp)

/-- An operation that boots follows. -/
theorem Boots.after {R' : List RegName} (h : Boots R s₀ s) (g : Boots R' s t) (hR : ∀ r ∈ R', r ∈ R := by decide) : Boots R s₀ t :=
  h.trans (g.mono hR)

theorem Boots.foldl {α : Type} {xs : List α} {g : State → α → State} (h : Boots R s₀ s) (hg : ∀ (u : State) x, Boots R u (g u x)) :
    Boots R s₀ (xs.foldl g s) :=
  foldl_inv (fun u => Boots R s₀ u) xs g (fun u x _ hu => hu.trans (hg u x)) s h

theorem Boots.ite {d : Prop} [Decidable d] (h : Boots R s₀ s) (g : Boots R s₀ t) : Boots R s₀ (if d then s else t) := by
  split <;> assumption

theorem Boots.send (h : Boots R s₀ s) (o : Output) : Boots R s₀ (s.send o) :=
  h.trans ⟨fun _ _ _ _ => rfl, rfl, List.prefix_append _ _, rfl, rfl, rfl, rfl, rfl⟩

theorem Boots.wr (h : Boots R s₀ s) (f : Fld) (v i j : Nat) (hf : f.reg ∈ R := by decide) : Boots R s₀ (s.wr f v i j) :=
  h.trans (boots_of_frame ((Frame.refl [.regs] R s).wr hf))

/-! ### Writes of a core (R596) -/

theorem coreWrite_frame (s : State) (c : Nat) (r : RegName) (i j w : Nat) : Frame [.regs, .auditQ] [r] s (s.coreWrite c r i j w) := by
  have hset : Frame [.regs, .auditQ] [r] s (s.setReg r i j (BitVec.ofNat 64 w)) := (Frame.refl _ _ s).setReg (hR := List.mem_singleton_self r)
  exact Frame.onlyIf hset.audit (Frame.refl _ _ s)

theorem Boots.coreWrite (h : Boots R s₀ s) (c : Nat) (r : RegName) (i j w : Nat) (hr : r ∈ R := by decide) : Boots R s₀ (s.coreWrite c r i j w) :=
  h.after (boots_of_frame (coreWrite_frame s c r i j w)) fun q hq => List.mem_singleton.1 hq ▸ hr

theorem Boots.coreField (h : Boots R s₀ s) (c : Nat) (f : Fld) (v i j : Nat) (hf : f.reg ∈ R := by decide) : Boots R s₀ (s.coreField c f v i j) :=
  h.coreWrite c f.reg i j _ hf

/-- A core's write leaves what it writes, where it was there before too. -/
theorem reg_coreWrite_same (s : State) (c : Nat) (r : RegName) (i j : Nat) (w : W64) : (s.coreWrite c r i j w.toNat).reg r i j = w := by
  have hset : (s.setReg r i j (BitVec.ofNat 64 w.toNat)).reg r i j = w := by rw [reg_setReg_same, BitVec.ofNat_toNat, BitVec.setWidth_eq]
  unfold State.coreWrite onlyIf
  dsimp only
  split
  · exact hset
  next hsame => exact BitVec.eq_of_toNat_eq (by simpa using hsame)

theorem rd_coreField_same (h : f.fits) (s : State) (c v i j : Nat) : (s.coreField c f v i j).rd f i j = v % 2 ^ f.len := by
  have hreg : (s.coreField c f v i j).reg f.reg i j = (s.wr f v i j).reg f.reg i j := by
    unfold State.coreField State.wr
    rw [reg_coreWrite_same, reg_setReg_same]
  rw [← rd_wr_same (s := s) (i := i) (j := j) h v]
  unfold State.rd
  rw [hreg]

/-! ### The configuration is locked (R16, R696, R745) -/

/-- SEC writes what the configuration record gives. -/
def State.configured (s : State) : State := match s.fw.flash.cfg with
  | none => s
  | some c =>
    let s : State := (List.range 12).foldl (fun (s : State) k => (s.coreField 0 F.CLU_SPARES.SPARES (c.spares.getD k 1) k).coreField 0
      F.PHY_CFG.RATE_CAP (c.caps.getD k 48) k) s
    let s := s.coreField 0 F.RAS_SECFG.BOOT_ROUNDS c.rounds
    let s : State := (List.range 15).foldl (fun (s : State) i => s.wr F.FW_SVN.MIN_SVN (c.minSvn.getD (coreClass i) 0) i) s
    let w (i : Nat) : Nat := c.snf.getD i 0
    ((((((s.secWrite .SNF_VLOGIC 0 (w 0)).secWrite .SNF_VNMC 0 (w 1)).secWrite .SNF_VPHY 0 (w 2)).secWrite .SNF_MISC 0 (w 3)).secWrite
      .SNF_IMAX 0 (w 4)).secWrite .SNF_TCEIL 0 (w 5)).secWrite .SNF_IMAX_STK 0 (w 6)

/-- Both lock bits are set. -/
def State.lockBits (s : State) : State := (s.coreField 0 F.GLOBAL_CFGLOCK.LOCK 1).coreField 0 F.SNF_LOCK.LOCK 1

/-- The record in use is kept, and the clock that its floor asks for (R746). -/
def State.lockDone (s : State) : State :=
  let s := s.modFw fun f => { f with cfg := f.flash.cfg }
  onlyIf (decide (8 < s.rd F.SNF_MISC.NMC_DIV_MIN)) { s with clk := { s.clk with nmcAsk := some true } } s

theorem lockConfig_eq (hcfg : s.bit F.GLOBAL_CFGLOCK.LOCK = false) (hsnf : s.bit F.SNF_LOCK.LOCK = false) :
    s.lockConfig = s.configured.lockBits.lockDone := by
  unfold State.lockConfig
  rw [if_neg (by simp [hcfg, hsnf])]
  unfold State.configured State.lockBits State.lockDone
  rfl

/-- The registers that a configuration record sets. -/
def cfgRegs : List RegName :=
  [.CLU_SPARES, .PHY_CFG, .RAS_SECFG, .FW_SVN, .SNF_VLOGIC, .SNF_VNMC, .SNF_VPHY, .SNF_MISC, .SNF_IMAX, .SNF_TCEIL, .SNF_IMAX_STK]

theorem boots_configured (s : State) : Boots cfgRegs s s.configured := by
  unfold State.configured
  split
  · exact boots_refl _ s
  next c _ =>
    extract_lets sites rounds svns w
    have hsites : Boots cfgRegs s sites := (boots_refl _ s).foldl fun u k =>
      ((boots_refl _ u).coreField 0 F.CLU_SPARES.SPARES _ k 0).coreField 0 F.PHY_CFG.RATE_CAP _ k 0
    have hrounds : Boots cfgRegs s rounds := hsites.coreField 0 F.RAS_SECFG.BOOT_ROUNDS _ 0 0
    have hsvns : Boots cfgRegs s svns := hrounds.foldl fun u i => (boots_refl _ u).wr F.FW_SVN.MIN_SVN _ i 0
    exact ((((((hsvns.coreWrite 0 .SNF_VLOGIC 0 0 _).coreWrite 0 .SNF_VNMC 0 0 _).coreWrite 0 .SNF_VPHY 0 0 _).coreWrite 0 .SNF_MISC 0 0
      _).coreWrite 0 .SNF_IMAX 0 0 _).coreWrite 0 .SNF_TCEIL 0 0 _).coreWrite 0 .SNF_IMAX_STK 0 0 _

theorem boots_lockDone (s : State) : Boots [] s s.lockDone := by
  have hcfg (u : State) : Boots [] u (u.modFw fun f => { f with cfg := f.flash.cfg }) :=
    boots_of_fw (Frame.refl [.fw] [] u).modFw rfl
  have hclk (u : State) : Boots [] u { u with clk := { u.clk with nmcAsk := some true } } :=
    boots_of_frame ((Frame.refl [.clk] [] u).update (keptBut_clk (keptBut_refl u _) _ (by decide)) rfl)
  unfold State.lockDone
  extract_lets kept
  exact Boots.ite ((hcfg s).trans (hclk kept)) (hcfg s)

theorem boots_lockBits (s : State) : Boots [.GLOBAL_CFGLOCK, .SNF_LOCK] s s.lockBits :=
  ((boots_refl _ s).coreField 0 F.GLOBAL_CFGLOCK.LOCK 1 0 0).coreField 0 F.SNF_LOCK.LOCK 1 0 0

/-- The registers that the lock of a configuration sets. -/
def lockRegs : List RegName := .GLOBAL_CFGLOCK :: .SNF_LOCK :: cfgRegs

/-- The configuration is locked, with what the record sets. -/
theorem lockConfig_shows (hcfg : s.bit F.GLOBAL_CFGLOCK.LOCK = false) (hsnf : s.bit F.SNF_LOCK.LOCK = false) : Boots lockRegs s s.lockConfig ∧
    s.lockConfig.bit F.GLOBAL_CFGLOCK.LOCK = true ∧ s.lockConfig.bit F.SNF_LOCK.LOCK = true := by
  have hone : (1 % 2 ^ F.GLOBAL_CFGLOCK.LOCK.len == 1) = true ∧ (1 % 2 ^ F.SNF_LOCK.LOCK.len == 1) = true := by decide
  have hdone := boots_lockDone s.configured.lockBits
  have hboots : Boots lockRegs s s.configured.lockBits.lockDone :=
    ((boots_configured s).mono.after (boots_lockBits _)).after hdone
  rw [lockConfig_eq hcfg hsnf]
  generalize s.configured = u at *
  refine ⟨hboots, (hdone.bit 0 0).trans ?_, (hdone.bit 0 0).trans ?_⟩
  · have hsnfAfter : Boots [.SNF_LOCK] (u.coreField 0 F.GLOBAL_CFGLOCK.LOCK 1) u.lockBits := (boots_refl _ _).coreField 0 F.SNF_LOCK.LOCK 1 0 0
    refine (hsnfAfter.bit 0 0).trans ?_
    unfold State.bit
    rw [rd_coreField_same (by decide)]
    exact hone.1
  · unfold State.bit State.lockBits
    rw [rd_coreField_same (by decide)]
    exact hone.2

/-! ### Phase 2: the identity (R555 to R558, R574) -/

/-- A cold reset leaves every register at its reset value. -/
theorem rd_coldState (s : State) (f : Fld) (i j : Nat) : s.coldState.rd f i j = State.reset.rd f i j := rd_of_regs rfl f i j

/-- The state after a cold reset before its boot. -/
theorem coldState_shows (s : State) : s.coldState.inBoot = true ∧ s.coldState.mem = [] ∧ s.coldState.plots = State.reset.plots ∧
    s.coldState.flights = [] ∧ s.coldState.fw.flash = s.fw.flash ∧ s.coldState.hist.boots = s.histFlash.boots + 1 ∧
    s.coldState.pending = s.pending ∧ s.coldState.out = s.out := by
  have hstate : State.reset.rd F.GLOBAL_STATE.STATE = 0 := by decide
  exact ⟨beq_iff_eq.2 ((rd_coldState s _ 0 0).trans hstate), rfl, rfl, rfl, rfl, rfl, rfl, rfl⟩

theorem coldState_locks (s : State) : s.coldState.bit F.GLOBAL_CFGLOCK.LOCK = false ∧ s.coldState.bit F.SNF_LOCK.LOCK = false ∧
    s.coldState.coreSt 2 = coreHeld := by
  have hcfg : State.reset.rd F.GLOBAL_CFGLOCK.LOCK = 0 := by decide
  have hsnf : State.reset.rd F.SNF_LOCK.LOCK = 0 := by decide
  have hsch : State.reset.rd F.FW_STATE.STATE 2 = coreHeld := by decide
  refine ⟨?_, ?_, (rd_coldState s _ 2 0).trans hsch⟩
  · rw [State.bit, rd_coldState, hcfg]
    rfl
  · rw [State.bit, rd_coldState, hsnf]
    rfl

/-- Slot 0's key, the memory's seed and the state of the identity. -/
def State.idKeyed (s : State) (key m : BitVec 512) (ok : Bool) : State :=
  let s := (s.newKey Origin.sec 0 0 key).coreWrite 0 .RAS_MGSEED 0 0 (m.toNat % 2 ^ 64)
  s.wr F.SEC_STATUS.ID (if ok then 1 else 2)

/-- The registers of the identity. -/
def idRegs : List RegName := [.RAS_MGSEED, .SEC_STATUS, .RAS_RECHEAD, .RAS_RECLOST]

theorem boots_idKeyed (s : State) (key m : BitVec 512) (ok : Bool) : Boots idRegs s (s.idKeyed key m ok) := by
  unfold State.idKeyed
  extract_lets keyed
  have hkeyed : Boots idRegs s keyed :=
    ((boots_of_frame (setSlot_frame s Origin.sec 0 _)).mono (R' := idRegs)).coreWrite 0 .RAS_MGSEED 0 0 _
  exact hkeyed.wr F.SEC_STATUS.ID _ 0 0

theorem id_idKeyed (s : State) (key m : BitVec 512) (ok : Bool) : (s.idKeyed key m ok).rd F.SEC_STATUS.ID = if ok then 1 else 2 := by
  unfold State.idKeyed
  rw [rd_wr_same (by decide)]
  cases ok <;> rfl

/-- What SEC derives from the seed, or takes free values for. -/
def State.idDerived (s : State) (puf : BitVec 256) (r : BitVec 512) (ok : Bool) : State :=
  if ok then
    let pub := ecdsaPublic (privateKey puf (ascii "MYR-DEVID"))
    let sealKey := BitVec.ofNat 256 (leNat (kdf (leBytes puf 32) (ascii "MYR-SEAL") 256))
    { s with sec := { s.sec with seed := puf, sealKey := sealKey, nonce := r.setWidth 128, pubKey := pub } }
  else
    let (v, s) := s.fresh
    { s with sec := { s.sec with pubKey := v.setWidth 776, sealKey := v.extractLsb' 768 256, nonce := r.setWidth 128 } }.record
      (ErrRec.make s.now sevFatal 0x16 0xFF)

theorem fresh_frame (s : State) : Frame [.freeCount] [] s s.fresh.2 := (Frame.refl _ _ s).update (keptBut_free (keptBut_refl s _) _ (by decide)) rfl

theorem boots_idDerived (s : State) (puf : BitVec 256) (r : BitVec 512) (ok : Bool) :
    Boots [.RAS_RECHEAD, .RAS_RECLOST] s (s.idDerived puf r ok) := by
  unfold State.idDerived
  split
  · extract_lets pub sealKey
    exact boots_of_frame (Frame.refl [.sec] _ s).sec
  · have hfree := (fresh_frame s).mono (L' := [.freeCount, .sec]) (R' := [])
    split
    next v u heq =>
    rw [heq] at hfree
    exact ((boots_of_frame hfree.sec).mono).after (boots_of_frame (record_frame _))

theorem rebuildId_eq (s : State) (puf : BitVec 256) : ∃ key r m, s.rebuildId puf =
    (s.draw.2.draw.2.draw.2.idKeyed key m (s.fw.flash.puf == some (digestOf (leBytes puf 32)))).idDerived puf r
      (s.fw.flash.puf == some (digestOf (leBytes puf 32))) := ⟨s.draw.1, s.draw.2.draw.1, s.draw.2.draw.2.draw.1, by
  unfold State.rebuildId State.idDerived State.idKeyed
  rfl⟩

theorem rebuildId_shows (s : State) (puf : BitVec 256) : Boots idRegs s (s.rebuildId puf) ∧
    (s.rebuildId puf).rd F.SEC_STATUS.ID = if s.fw.flash.puf = some (digestOf (leBytes puf 32)) then 1 else 2 := by
  obtain ⟨key, r, m, heq⟩ := rebuildId_eq s puf
  rw [heq]
  generalize hok : (s.fw.flash.puf == some (digestOf (leBytes puf 32))) = ok
  have hdrawn : Boots idRegs s s.draw.2.draw.2.draw.2 :=
    (boots_of_frame (((draw_frame s).trans (draw_frame _)).trans (draw_frame _))).mono
  generalize s.draw.2.draw.2.draw.2 = u at *
  have hderived := boots_idDerived (u.idKeyed key m ok) puf r ok
  refine ⟨(hdrawn.after (boots_idKeyed u key m ok)).after hderived, ?_⟩
  rw [hderived.rd 0 0, id_idKeyed]
  subst hok
  simp

theorem boots_vrefCheck (s : State) (n : Nat) : Boots [.PHY_STATUS, .RAS_RECHEAD, .RAS_RECLOST] s (s.vrefCheck n) := by
  have hfault : Boots [.PHY_STATUS, .RAS_RECHEAD, .RAS_RECLOST] s ((List.range 12).foldl (fun s k => s.wr F.PHY_STATUS.CAL_FAULT 1 k) s) :=
    (boots_refl _ s).foldl fun u k => (boots_refl _ u).wr F.PHY_STATUS.CAL_FAULT 1 k 0
  exact Boots.ite (boots_refl _ s) (hfault.after (boots_of_frame (record_frame _)))

/-- The boot up to its phase 3. -/
def State.coldBegun (s : State) (e : ColdEnv) : State := ((s.coldState.rebuildId e.puf).vrefCheck e.vrefDiffMilli).wr F.FW_BOOT.STAGE 3

/-- The registers of it. -/
def coldRegs : List RegName := .FW_BOOT :: .PHY_STATUS :: idRegs

theorem coldBegun_shows (s : State) (e : ColdEnv) : Boots coldRegs s.coldState (s.coldBegun e) ∧ (s.coldBegun e).rd F.FW_BOOT.STAGE = 3 ∧
    (s.coldBegun e).rd F.SEC_STATUS.ID = if s.fw.flash.puf = some (digestOf (leBytes e.puf 32)) then 1 else 2 := by
  obtain ⟨hid, hstate⟩ := rebuildId_shows s.coldState e.puf
  have hvref := boots_vrefCheck (s.coldState.rebuildId e.puf) e.vrefDiffMilli
  unfold State.coldBegun
  generalize s.coldState.rebuildId e.puf = u at *
  refine ⟨(hid.mono.after hvref).wr F.FW_BOOT.STAGE 3 0 0, rd_wr_same (by decide) 3, ?_⟩
  rw [rd_wr_other (by decide), hvref.rd 0 0, hstate]
  rfl

end
end Sys2Proof.Machine
end

section
/-! COLD_RESET with a boot payload: phases 3 to 5 (R594, R665, R693 to R698, R721); and the resets settled. -/

set_option Elab.async false

namespace Sys2Proof.Machine
section
variable {L : List Part} {R : List RegName} {s₀ s t u : State} {p k i j c : Nat} {f : Fld}

/-! ### Images and keys (R693, R694, R696) -/

/-- Every core's memories hold the image of its class. -/
def State.imgsLoaded (s : State) (imgs : List FwImg) : State :=
  (List.range 15).foldl (fun s c => s.loadImg c (imgs.getD (coreClass c) FwImg.blank)) s

/-- The training images are placed. -/
def State.trnPlaced (s : State) (trn : Tbl (Option (List Byte))) : State :=
  (List.range 12).foldl (fun s k =>
    match (tget none s.fw.flash.trn k).orElse (fun _ => tget none trn k) with
    | some b => s.putBytes (imgBase k) (b.take 4096)
    | none => s) s

/-- The configuration is locked, and the boot has its key. -/
def State.aliasMade (s : State) (alias_ : BitVec 384) : State :=
  let s := s.lockConfig
  { s with sec := { s.sec with alias_ := alias_ } }

/-- Entry 0 is in the audit chain. -/
def State.chainBegun (s : State) : State := s.chainEntry s.now (s.chainEntry0 s.now)

theorem bootOn_eq (s : State) (imgs : List FwImg) (trn : Tbl (Option (List Byte))) : ∃ a, s.bootOn imgs trn =
    ((((((s.imgsLoaded imgs).runCore 0).trnPlaced trn).fresh.2.aliasMade a).chainBegun.railsOn.runCore 1).bootFences).wr F.FW_BOOT.STAGE 6 := by
  unfold State.bootOn State.chainBegun State.aliasMade State.trnPlaced State.imgsLoaded
  generalize List.range 15 = cores, List.range 12 = sites
  exact ⟨_, rfl⟩

theorem flash_loadImg (s : State) (c : Nat) (g : FwImg) : (s.loadImg c g).fw.flash = s.fw.flash := by
  unfold State.loadImg
  extract_lets named built digests
  have hdigests : Frame [.regs] [.FW_VER, .FW_BUILD, .FW_SVN, .FW_DIGEST] s digests := by
    have hbuilt : Frame [.regs] [.FW_VER, .FW_BUILD, .FW_SVN, .FW_DIGEST] s built := (Frame.refl _ _ s).wr.wr.wr.wr.wr
    exact hbuilt.foldl fun u i => (Frame.refl _ _ u).wr
  have hfw (u : State) : (u.modFw fun f => { f with imgs := tset FwImg.blank f.imgs c g }).fw.flash = u.fw.flash := rfl
  rw [hfw]
  exact congrArg Fw.flash (hdigests.part .fw)

theorem boots_loadImg (s : State) (c : Nat) (g : FwImg) : Boots [.FW_VER, .FW_BUILD, .FW_SVN, .FW_DIGEST] s (s.loadImg c g) :=
  boots_of_fw (loadImg_frame s c g) (flash_loadImg s c g)

theorem boots_runCore (s : State) (c : Nat) : Boots [.FW_STATE] s (s.runCore c) := boots_of_fw (runCore_frame s c) rfl

theorem trnPlaced_frame (s : State) (trn : Tbl (Option (List Byte))) : Frame [.bytes] [] s (s.trnPlaced trn) := by
  refine (Frame.refl _ _ s).foldl fun u k => ?_
  split
  · exact putBytes_frame u _ _
  · exact Frame.refl _ _ u

theorem boots_alias (s : State) (a : BitVec 384) : Boots [] s { s with sec := { s.sec with alias_ := a } } :=
  boots_of_frame (Frame.refl [.sec] [] s).sec

theorem chainBegun_frame (s : State) : Frame [.regs, .sec] [.AUDIT_HEAD, .AUDIT_SEQ] s s.chainBegun := by
  unfold State.chainBegun State.chainEntry
  extract_lets seq head shown
  have hshown : Frame [.regs, .sec] [.AUDIT_HEAD, .AUDIT_SEQ] s shown := (Frame.refl [.regs, .sec] [.AUDIT_HEAD, .AUDIT_SEQ] s).wr.foldl fun u i =>
    (Frame.refl _ _ u).wr
  exact hshown.sec

/-! ### Rails and fences (R665, R698, R721) -/

theorem boots_railsOn (s : State) : Boots [.PM_RAIL_CFG] s s.railsOn := by
  unfold State.railsOn
  split
  next v u heq =>
  have hu := fresh_frame s
  rw [heq] at hu
  refine Boots.foldl (boots_of_frame hu).mono fun x r => ?_
  extract_lets on w mv
  have hon : Boots [.PM_RAIL_CFG] x on := (boots_refl _ x).wr F.PM_RAIL_CFG.ON 1 r 0
  exact Boots.ite hon ((hon.coreField 1 F.PM_RAIL_CFG.VSET_MV _ r 0).send _)

/-- The registers of the fences. -/
def fenceRegs : List RegName := [.LNT_ARRAY, .LNT_CTL, .RAS_FENCE]

theorem fenced_frame (s : State) (j : Nat) : Frame [.regs] fenceRegs s ((s.wr F.LNT_CTL.FENCED 1 j).wr F.RAS_FENCE.LANTERN 1 j) :=
  (Frame.refl _ _ s).wr.wr

theorem bootFences_frame (s : State) : Frame [.regs] fenceRegs s s.bootFences := by
  unfold State.bootFences
  extract_lets perm arrays lanterns
  have harrays : Frame [.regs] fenceRegs s arrays := by
    refine (Frame.refl _ _ s).foldl fun u x => ?_
    extract_lets was tgt out
    have hout : Frame [.regs] fenceRegs u out := ((setRole_frame u x.cluster x.a 4).mono.wr).setMap
    exact Frame.ite (Frame.refl _ _ u) (Frame.ite (hout.after (standIn_frame out _ _)) hout)
  have hlanterns : Frame [.regs] fenceRegs s lanterns := harrays.foldl fun u x => fenced_frame u _
  exact hlanterns.foldl fun u j => Frame.onlyIf (fenced_frame u j) (Frame.refl _ _ u)

/-! ### The whole boot -/

/-- Phase 3: SEC runs, and the images are placed. -/
def State.payLoaded (s : State) (imgs : List FwImg) (trn : Tbl (Option (List Byte))) : State :=
  (((s.imgsLoaded imgs).runCore 0).trnPlaced trn).fresh.2

def loadRegs : List RegName := [.FW_STATE, .FW_VER, .FW_BUILD, .FW_SVN, .FW_DIGEST]

theorem payLoaded_shows (s : State) (imgs : List FwImg) (trn : Tbl (Option (List Byte))) : Boots loadRegs s (s.payLoaded imgs trn) ∧
    (s.payLoaded imgs trn).coreSt 0 = coreRunning ∧ (s.payLoaded imgs trn).coreSt 2 = s.coreSt 2 := by
  have hloaded : Boots [.FW_VER, .FW_BUILD, .FW_SVN, .FW_DIGEST] s (s.imgsLoaded imgs) := (boots_refl _ s).foldl fun u c => boots_loadImg u c _
  have hplaced : Frame [.bytes, .freeCount] [] ((s.imgsLoaded imgs).runCore 0) (s.payLoaded imgs trn) :=
    (trnPlaced_frame _ trn).mono.after (fresh_frame _)
  refine ⟨(hloaded.mono.after (boots_runCore _ 0)).after (boots_of_frame hplaced), (coreSt_of_frame hplaced 0).trans (coreSt_runCore _ 0),
    (coreSt_of_frame hplaced 2).trans ((coreSt_runCore_other _ (by decide) (by decide) (by decide)).trans (hloaded.rd 2 0))⟩

/-- The configuration is locked, and the chain has its entry 0. -/
def State.payKeyed (s : State) (a : BitVec 384) : State := (s.aliasMade a).chainBegun

def keyRegs : List RegName := .AUDIT_HEAD :: .AUDIT_SEQ :: lockRegs

theorem payKeyed_shows (a : BitVec 384) (hcfg : s.bit F.GLOBAL_CFGLOCK.LOCK = false) (hsnf : s.bit F.SNF_LOCK.LOCK = false) :
    Boots keyRegs s (s.payKeyed a) ∧ (s.payKeyed a).bit F.GLOBAL_CFGLOCK.LOCK = true ∧ (s.payKeyed a).bit F.SNF_LOCK.LOCK = true := by
  obtain ⟨hlock, hcfgOn, hsnfOn⟩ := lockConfig_shows hcfg hsnf
  have halias : Boots [] s.lockConfig (s.aliasMade a) := boots_alias s.lockConfig a
  have hchain := boots_of_frame (chainBegun_frame (s.aliasMade a))
  exact ⟨(hlock.mono.after halias).after hchain, (hchain.bit 0 0).trans ((halias.bit 0 0).trans hcfgOn),
    (hchain.bit 0 0).trans ((halias.bit 0 0).trans hsnfOn)⟩

/-- Phases 4 and 5: the rails are on, PMC runs, and what is permanent is fenced. -/
def State.payPowered (s : State) : State := (s.railsOn.runCore 1).bootFences

def powerRegs : List RegName := .PM_RAIL_CFG :: .FW_STATE :: fenceRegs

theorem payPowered_shows (s : State) : Boots powerRegs s s.payPowered ∧ s.payPowered.coreSt 1 = coreRunning ∧
    ∀ d, d < 15 → d ≠ 1 → s.payPowered.coreSt d = s.coreSt d := by
  have hrails := boots_railsOn s
  have hfences := bootFences_frame (s.railsOn.runCore 1)
  exact ⟨(hrails.mono.after (boots_runCore _ 1)).after (boots_of_frame hfences), (coreSt_of_frame hfences 1).trans (coreSt_runCore _ 1),
    fun d hd hne => (coreSt_of_frame hfences d).trans ((coreSt_runCore_other _ (by decide) hd hne).trans (hrails.rd d 0))⟩

/-- The registers that the boot of a payload sets. -/
def payRegs : List RegName := .FW_BOOT :: loadRegs ++ keyRegs ++ powerRegs

theorem bootOn_stages (s : State) (imgs : List FwImg) (trn : Tbl (Option (List Byte))) :
    ∃ a, s.bootOn imgs trn = ((s.payLoaded imgs trn).payKeyed a).payPowered.wr F.FW_BOOT.STAGE 6 := bootOn_eq s imgs trn

/-- What the boot of a payload leaves. -/
theorem bootOn_shows (imgs : List FwImg) (trn : Tbl (Option (List Byte))) (hcfg : s.bit F.GLOBAL_CFGLOCK.LOCK = false)
    (hsnf : s.bit F.SNF_LOCK.LOCK = false) : Boots payRegs s (s.bootOn imgs trn) ∧
    (s.bootOn imgs trn).rd F.FW_BOOT.STAGE = 6 ∧ (s.bootOn imgs trn).rd F.FW_BOOT.SOURCE = s.rd F.FW_BOOT.SOURCE ∧
    (s.bootOn imgs trn).coreSt 0 = coreRunning ∧ (s.bootOn imgs trn).coreSt 1 = coreRunning ∧ (s.bootOn imgs trn).coreSt 2 = s.coreSt 2 ∧
    (s.bootOn imgs trn).bit F.GLOBAL_CFGLOCK.LOCK = true ∧ (s.bootOn imgs trn).bit F.SNF_LOCK.LOCK = true := by
  obtain ⟨a, heq⟩ := bootOn_stages s imgs trn
  obtain ⟨hload, hload0, hload2⟩ := payLoaded_shows s imgs trn
  rw [heq]
  generalize s.payLoaded imgs trn = s1 at *
  obtain ⟨hkey, hkeyCfg, hkeySnf⟩ := payKeyed_shows a ((hload.bit 0 0).trans hcfg) ((hload.bit 0 0).trans hsnf)
  generalize s1.payKeyed a = s2 at *
  obtain ⟨hpower, hpower1, hpowerOther⟩ := payPowered_shows s2
  generalize s2.payPowered = s3 at *
  have hlast : Frame [.regs] [.FW_BOOT] s3 (s3.wr F.FW_BOOT.STAGE 6) := (Frame.refl _ _ s3).wr
  refine ⟨((hload.mono.after hkey).after hpower).after (boots_of_frame hlast), rd_wr_same (by decide) 6, ?_, ?_, ?_, ?_,
    (hlast.bit 0 0).trans ((hpower.bit 0 0).trans hkeyCfg), (hlast.bit 0 0).trans ((hpower.bit 0 0).trans hkeySnf)⟩
  · rw [rd_wr_apart (by decide) (by decide), hpower.rd 0 0, hkey.rd 0 0, hload.rd 0 0]
  · exact (coreSt_of_frame hlast 0).trans ((hpowerOther 0 (by decide) (by decide)).trans ((hkey.rd 0 0).trans hload0))
  · exact (coreSt_of_frame hlast 1).trans hpower1
  · exact (coreSt_of_frame hlast 2).trans ((hpowerOther 2 (by decide) (by decide)).trans ((hkey.rd 2 0).trans hload2))

/-! ### COLD_RESET -/

theorem bootSlot_of_flash {x y : Fw} (h : x.flash = y.flash) (bad : List (Fin 2)) : x.bootSlot bad = y.bootSlot bad := by
  unfold Fw.bootSlot Fw.minSvn
  rw [h]

theorem bootSlot_lt {x : Fw} {bad : List (Fin 2)} (h : x.bootSlot bad = some i) : i < 2 := by
  unfold Fw.bootSlot at h
  extract_lets ok seq at h
  split at h
  · cases h
    decide
  · split at h
    · cases h
      decide
    · cases h

/-- The block waits for a payload of the host's. -/
def State.hostWaited (s : State) : State := (s.wr F.FW_BOOT.WAIT_HOST 1).setCore 0 1

/-- The payload of slot `i` boots. -/
def State.slotBooted (s : State) (i : Nat) : State :=
  let sl := s.fw.flash.slots.getD i ⟨false, 0, [], []⟩
  ((s.wr F.FW_BOOT.SOURCE i).modFw fun f => { f with slot := i }).bootOn sl.imgs sl.trn

theorem flash_coldBegun (s : State) (e : ColdEnv) : (s.coldBegun e).fw.flash = s.fw.flash := by
  obtain ⟨hbegun, -⟩ := coldBegun_shows s e
  exact hbegun.flash.trans rfl

theorem exec_coldReset_waits {e : ColdEnv} (h : e.bootHost = true ∨ s.fw.bootSlot e.badSlots = none) :
    exec (.coldReset e) s = .next (s.coldBegun e).hostWaited := by
  have hnone : (if e.bootHost then none else (s.coldBegun e).fw.bootSlot e.badSlots) = none := by
    rw [bootSlot_of_flash (flash_coldBegun s e)]
    rcases h with h | h <;> simp [h]
  show execColdReset e s = _
  unfold execColdReset
  extract_lets begun
  rw [show begun = s.coldBegun e from rfl, hnone]
  rfl

theorem exec_coldReset_boots {e : ColdEnv} (hhost : e.bootHost = false) (h : s.fw.bootSlot e.badSlots = some i) :
    exec (.coldReset e) s = .next ((s.coldBegun e).slotBooted i) := by
  have hsome : (if e.bootHost then none else (s.coldBegun e).fw.bootSlot e.badSlots) = some i := by
    rw [bootSlot_of_flash (flash_coldBegun s e), hhost]
    exact h
  show execColdReset e s = _
  unfold execColdReset
  extract_lets begun
  rw [show begun = s.coldBegun e from rfl, hsome]
  rfl

/-- What every boot that began leaves, whichever way it goes on. -/
theorem cold_shows {e : ColdEnv} (h : Boots R (s.coldBegun e) t) (hstate : RegName.GLOBAL_STATE ∉ R := by decide)
    (hid : RegName.SEC_STATUS ∉ R := by decide) : t.inBoot = true ∧ t.mem = [] ∧ t.plots = State.reset.plots ∧ t.flights = [] ∧
      t.fw.flash = s.fw.flash ∧ t.hist.boots = s.histFlash.boots + 1 ∧ t.pending = s.pending ∧ t.out.take s.out.length = s.out ∧
      t.rd F.SEC_STATUS.ID = (if s.fw.flash.puf = some (digestOf (leBytes e.puf 32)) then 1 else 2) := by
  obtain ⟨hboot, hmem, hplots, hflights, hflash, hboots, hpending, hout⟩ := coldState_shows s
  obtain ⟨hbegun, -, hident⟩ := coldBegun_shows s e
  have hsent : s.out <+: t.out := hout ▸ hbegun.sent.trans h.sent
  exact ⟨(congrArg (· == 0) ((h.rd (f := F.GLOBAL_STATE.STATE) 0 0 hstate).trans (hbegun.rd 0 0))).trans hboot, h.mem.trans (hbegun.mem.trans hmem),
    h.plots.trans (hbegun.plots.trans hplots), h.flights.trans (hbegun.flights.trans hflights), h.flash.trans (hbegun.flash.trans hflash),
    (congrArg Hist.boots (h.hist.trans hbegun.hist)).trans hboots, h.pending.trans (hbegun.pending.trans hpending),
    (List.prefix_iff_eq_take.1 hsent).symm, (h.rd (f := F.SEC_STATUS.ID) 0 0 hid).trans hident⟩

theorem hostWaited_frame (s : State) : Frame [.regs] [.FW_BOOT, .FW_STATE] s s.hostWaited := (Frame.refl _ _ s).wr.after (setCore_frame _ 0 1)

theorem hostWaited_shows (s : State) : s.hostWaited.bit F.FW_BOOT.WAIT_HOST = true ∧ s.hostWaited.rd F.FW_BOOT.STAGE = s.rd F.FW_BOOT.STAGE ∧
    s.hostWaited.coreSt 2 = s.coreSt 2 := by
  have hcore := setCore_frame (s.wr F.FW_BOOT.WAIT_HOST 1) 0 1
  refine ⟨(hcore.bit 0 0).trans (bit_wr_same (by decide) rfl 1), (hcore.rd 0 0).trans (rd_wr_apart (by decide) (by decide) 1), ?_⟩
  exact (coreSt_setCore_other _ 1 (by decide) (by decide) (by decide)).trans (coreSt_of_frame (Frame.refl [.regs] [.FW_BOOT] s).wr 2)

theorem slotBooted_shows (hi : i < 2) (hcfg : s.bit F.GLOBAL_CFGLOCK.LOCK = false) (hsnf : s.bit F.SNF_LOCK.LOCK = false) :
    Boots payRegs s (s.slotBooted i) ∧ (s.slotBooted i).rd F.FW_BOOT.STAGE = 6 ∧ (s.slotBooted i).rd F.FW_BOOT.SOURCE = i ∧
      (s.slotBooted i).coreSt 0 = coreRunning ∧ (s.slotBooted i).coreSt 1 = coreRunning ∧ (s.slotBooted i).coreSt 2 = s.coreSt 2 ∧
      (s.slotBooted i).bit F.GLOBAL_CFGLOCK.LOCK = true ∧ (s.slotBooted i).bit F.SNF_LOCK.LOCK = true := by
  have hsource : Frame [.regs, .fw] [.FW_BOOT] s ((s.wr F.FW_BOOT.SOURCE i).modFw fun f => { f with slot := i }) := (Frame.refl _ _ s).wr.modFw
  have hflash : ((s.wr F.FW_BOOT.SOURCE i).modFw fun f => { f with slot := i }).fw.flash = s.fw.flash := rfl
  have hread : ((s.wr F.FW_BOOT.SOURCE i).modFw fun f => { f with slot := i }).rd F.FW_BOOT.SOURCE = i := by
    have hmod : i % 2 ^ F.FW_BOOT.SOURCE.len = i := Nat.mod_eq_of_lt (show i < 4 by omega)
    exact (rd_wr_same (s := s) (by decide) i).trans hmod
  unfold State.slotBooted
  generalize (s.wr F.FW_BOOT.SOURCE i).modFw (fun f => { f with slot := i }) = u at *
  obtain ⟨hboots, hstage, hsrc, h0, h1, h2, hc, hs⟩ := bootOn_shows (s.fw.flash.slots.getD i ⟨false, 0, [], []⟩).imgs
    (s.fw.flash.slots.getD i ⟨false, 0, [], []⟩).trn ((hsource.bit 0 0).trans hcfg) ((hsource.bit 0 0).trans hsnf)
  exact ⟨(boots_of_fw hsource hflash).mono.after hboots, hstage, hsrc.trans hread, h0, h1, h2.trans (coreSt_of_frame hsource 2), hc, hs⟩

end

/-- Settles O23: a cold reset by what its phases keep, the end of a boot, a failed phase, the quiescing block, and a warm reset by what its
boot keeps. -/
theorem resetsAndBoot : Obligations.ResetsAndBoot := by
  unfold Obligations.ResetsAndBoot
  intro s
  refine ⟨fun e => ?_, fun hboot hrun hquiet hstage hsweep => ⟨_, exec_schRelease hboot hrun hquiet hstage hsweep, schRelease_shows s⟩,
    fun phase err hboot hrun hstage => ?_, fun hboot hnone hshut => ?_, fun e since hwarm hshut => ⟨fun hq => ?_, fun hq hearly => ?_,
      fun hq hlate => ?_⟩⟩
  · obtain ⟨hbegun, hstage, -⟩ := coldBegun_shows s e
    obtain ⟨hcfg, hsnf, hsch⟩ := coldState_locks s
    have hbegunSch : (s.coldBegun e).coreSt 2 = coreHeld := (hbegun.rd 2 0).trans hsch
    by_cases hwait : e.bootHost = true ∨ s.fw.bootSlot e.badSlots = none
    · obtain ⟨hbit, hst, h2⟩ := hostWaited_shows (s.coldBegun e)
      obtain ⟨hboot, hmem, hplots, hflights, hflash, hcount, hpending, hsent, hid⟩ := cold_shows (boots_of_frame (hostWaited_frame (s.coldBegun e)))
      refine ⟨_, exec_coldReset_waits hwait, hboot, hmem, hplots, hflights, hflash, hcount, hpending, hsent, hid,
        h2.trans hbegunSch, fun _ => ⟨hbit, hst.trans hstage⟩, fun i hhost hi => ?_⟩
      rcases hwait with h | h
      · simp [hhost] at h
      · simp [hi] at h
    · obtain ⟨i, hi⟩ := Option.ne_none_iff_exists'.1 fun h => hwait (.inr h)
      have hhost : e.bootHost = false := Bool.eq_false_iff.2 fun h => hwait (.inl h)
      obtain ⟨hboots, hst, hsrc, h0, h1, h2, hc, hs⟩ :=
        slotBooted_shows (bootSlot_lt hi) ((hbegun.bit 0 0).trans hcfg) ((hbegun.bit 0 0).trans hsnf)
      obtain ⟨hboot, hmem, hplots, hflights, hflash, hcount, hpending, hsent, hid⟩ := cold_shows hboots
      refine ⟨_, exec_coldReset_boots hhost hi, hboot, hmem, hplots, hflights, hflash, hcount, hpending, hsent, hid,
        h2.trans hbegunSch, fun h => absurd h hwait, fun n _ hn => ?_⟩
      obtain rfl : i = n := Option.some.inj (hi.symm.trans hn)
      exact ⟨hst, hsrc, h0, h1, hc, hs⟩
  · have hfailed := phaseFailed_frame s phase err
    refine ⟨_, exec_bootPhaseFail err hboot hrun hstage, ?_, rfl, hfailed.kept, ?_⟩
    · exact (rd_wr_same (s := s) (by decide) (failCode phase err)).trans (Nat.mod_eq_of_lt (failCode_lt phase err))
    · exact onlyRegs_regs (onlyRegs_wr (onlyRegs_refl s _) F.FW_BOOT.ERR (failCode phase err) 0 0 List.mem_cons_self) rfl
  · obtain ⟨hquiet, hhist, hmem, hplots, hlinks⟩ := quiesce_shows s 0
    have hasked := (Frame.refl [.fw] [] (s.quiesce 0)).modFw (g := fun f => { f with warm := some s.now })
    have hwarm (u : State) : (u.modFw fun f => { f with warm := some s.now }).fw.warm = some s.now := rfl
    have hstill (u : State) : (u.modFw fun f => { f with warm := some s.now }).fw.quiet = u.fw.quiet := rfl
    exact ⟨_, exec_warmResetRequest hboot hnone hshut, hwarm _, (hstill _).trans hquiet, (hasked.part .histFlash).trans hhist,
      (hasked.part .mem).trans hmem, (hasked.part .plots).trans hplots, fun p hp h25 h26 => (hasked.bit p 0).trans (hlinks p hp h25 h26)⟩
  · obtain ⟨hack, hboot, hbit, hstage, herr, hnone, hquiet, hflights, hsess, hpending⟩ := warmBooted_shows s e
    exact ⟨_, exec_warmReset e hwarm hshut (.inl hq), hack hq, hboot, hbit, hstage, hnone, hquiet, hflights, hsess, herr, hpending⟩
  · exact exec_warmReset_waits e hwarm hq hearly
  · obtain ⟨-, hboot, hbit, -, -, -, -, hflights, -⟩ := warmBooted_shows s e
    exact ⟨_, exec_warmReset e hwarm hshut (.inr hlate), hboot, hbit, hflights⟩

end Sys2Proof.Machine
end
